-- ==== Sys2Proof/Word.lean ====
section
/-! DEFINITION. The word types of the model. -/

namespace Sys2Proof

/-- One byte. -/
abbrev Byte := BitVec 8

/-- A 64-bit word: scalar registers, BAR0 registers, event values. -/
abbrev Word := BitVec 64

/-- One 32-bit lane of a vector register, an accumulator element. -/
abbrev Lane := BitVec 32

end Sys2Proof
end

