-- ==== Sys2Proof/Syntax.lean ====
section
/-! DEFINITION. The commands of the SKV24 module (spec/opcode_table.json, one constructor per row), and the
operand types that a row's constructor carries. What arrives from outside with a command (a measured value, a
received packet's fields, the finding of a check circuit) is an operand; what the module itself holds is in State. -/

namespace Sys2Proof

/-- The two 54 V feeds and their input stages (R34). -/
inductive Side where
  | a | b
deriving DecidableEq, Repr

/-- What a check finds on the word that a command touches; the finding comes from the memory: so many bytes of an LPDDR6 granule
(R280), or bits of a word of on-package SRAM (Table 5-1), in error, or a granule of another address. -/
inductive EccFinding where
  | clean
  | errors (n : Nat)
  | wrongGranule
deriving DecidableEq, Repr

/-- A register of a thread. -/
inductive RegName where
  | s (n : Nat)
  | v (n : Nat)
  | p (n : Nat)
deriving DecidableEq, Repr

/-- What the parity checks find while an instruction reads its operands (R256, Table 5-1): an error in a register, and whether the
second read shows it again; an error in the stochastic rounding generator; an error in the line of the read cache that serves a
load. -/
inductive ParityFinding where
  | none
  | reg (r : RegName) (again : Bool)
  | generator
  | cacheLine
deriving DecidableEq, Repr

/-- One run of a core's self-test (R257): whether the scalar and vector paths, the special-function unit and the load/store
address paths gave the expected results, and whether the comparator failed the tile with the known injected error. -/
structure SelfTestRun where
  vectorOk    : Bool
  sfuOk       : Bool
  addressOk   : Bool
  tileFailed  : Bool
deriving DecidableEq, Repr

/-- The atomic operations of Table 6-4, coded as `AOP` of Table 9-7. -/
inductive AtomOp where
  | add64 | cas64 | min64 | max64 | fadd32
deriving DecidableEq, Repr

/-- What one access to memory or to a BAR0 register does. -/
inductive MemKind where
  | read (n : Nat)
  | write (data : List (BitVec 8))
  | atom (op : AtomOp) (v c : BitVec 64)
  | regRead (width : Nat)
  | regWrite (width val : Nat)
deriving DecidableEq, Repr

/-- An access at its home: the local offset (a BAR0 offset for the register kinds), what it does, and the tag of the
request that waits for its answer, if the module keeps one. An access that waits for a gated quarter (R102, R118) or a
zeroing core (R124) has this form. -/
structure MemReq where
  addr : Nat
  kind : MemKind
  tag  : Option Nat
deriving DecidableEq, Repr

/-- The events that end `DORMANT` (R106). -/
inductive DormantCause where
  | circuitRequest | pathCommand | doorbell | cxlAccess
deriving DecidableEq, Repr

/-- 64-bit scalar functions (R133's scalar class; the manual names the class and gives no encodings). -/
inductive ScalarFn where
  | add | sub | mul | and | or | xor | shl | shr | sar | min | max | minu | maxu
deriving DecidableEq, Repr

/-- Comparisons. -/
inductive Cmp where
  | eq | ne | lt | le | gt | ge | ltu | geu
deriving DecidableEq, Repr

/-- The scalar class of Table 3-4: arithmetic, logic, compare, branch, predicate set-up. `illegal` and `ifetch` are
an instruction word that is no instruction and a fetch that faults (Table 3-11); `refetch` is a parity error in the line of the
instruction cache that holds the next instruction, of whatever class (Table 5-1). -/
inductive ScalarOp where
  | alu (f : ScalarFn) (rd ra rb : Nat)
  | aluImm (f : ScalarFn) (rd ra : Nat) (imm : BitVec 64)
  | cmp (c : Cmp) (pd lane ra rb : Nat)
  | predSet (pd ra : Nat)
  | predGet (rd pa : Nat)
  | branch (c : Cmp) (ra rb : Nat) (disp : Int)
  | illegal
  | ifetch
  | refetch
deriving DecidableEq, Repr

/-- FP32 vector functions of R159. -/
inductive FpFn where
  | add | sub | mul | min | max | abs | neg
deriving DecidableEq, Repr

/-- INT32 vector functions of R159. -/
inductive IntFn where
  | add | sub | mulLo | shl | shr | sar | and | or | xor | min | max
deriving DecidableEq, Repr

/-- The vector class of Table 3-4, without conversions and reductions, which have rows of their own. -/
inductive VectorOp where
  | fma (rd ra rb rc pr : Nat)
  | fp (f : FpFn) (rd ra rb pr : Nat)
  | fcmp (c : Cmp) (pd ra rb pr : Nat)
  | int (f : IntFn) (rd ra rb pr : Nat)
  | icmp (c : Cmp) (pd ra rb pr : Nat)
  | select (rd ra rb ps pr : Nat)
  | permute (rd ra rx pr : Nat)
  | broadcast (rd ra lane pr : Nat)
deriving DecidableEq, Repr

/-- Lane reductions of Table 3-5. -/
inductive RedOp where
  | add | min | max
deriving DecidableEq, Repr

/-- A load's or store's form (R165): a scalar access of 1, 2, 4 or 8 bytes, or a contiguous vector access. The
address is scalar register `ra` plus `disp`. -/
structure AccessForm where
  vec    : Bool
  size   : Nat
  reg    : Nat
  ra     : Nat
  disp   : Nat
  pr     : Nat
  bypass : Bool
deriving DecidableEq, Repr

/-- Where a gather, scatter or atomic goes (R162, R165, R169). -/
inductive MemSpace where
  | core | quarter | global
deriving DecidableEq, Repr

/-- An atomic's form (R169, R294): address from `ra + disp`, value in `rv`, compare value in `rc`, old value to `rd`
when `fetch`. -/
structure AtomicForm where
  sp    : MemSpace
  fetch : Bool
  rd    : Nat
  ra    : Nat
  disp  : Nat
  rv    : Nat
  rc    : Nat
deriving DecidableEq, Repr

/-- The operands of `MLOAD` (R151). Formats are the codes of Table 4-1's order used by the model (Operands.lean). -/
structure MloadSpec where
  bank    : Nat
  fmtA    : Nat
  fmtB    : Nat
  aGlobal : Bool
  aBase   : Nat
  aStride : Nat
  m       : Nat
  aTrans  : Bool
  bBase   : Nat
  bStride : Nat
  n       : Nat
  bTrans  : Bool
  k       : Nat
  aScale  : Nat
  bScale  : Nat
deriving DecidableEq, Repr

/-- The operands of `MMA` (R147, R148). -/
structure MmaSpec where
  bank : Nat
  m0   : Nat
  n0   : Nat
  m    : Nat
  n    : Nat
  k    : Nat
  zero : Bool
deriving DecidableEq, Repr

/-- The operands of `MSTORE` (R154, R213). -/
structure MstoreSpec where
  m0     : Nat
  n0     : Nat
  m      : Nat
  n      : Nat
  fmt    : Nat
  ctrl   : Nat
  dst    : Nat
  stride : Nat
  scale  : Nat
deriving DecidableEq, Repr

/-- An upset in the product array: the accumulator element it hits and the bits it leaves there. -/
structure TileUpset where
  row  : Nat
  col  : Nat
  bits : BitVec 32
deriving DecidableEq, Repr

/-- The units of a core whose history is kept (R261). -/
inductive CoreUnit where
  | mxa | ckl | vec | sfu
deriving DecidableEq, Repr

/-- The three waits of a ring run (R421). -/
inductive RingWait where
  | hello | token | data
deriving DecidableEq, Repr

/-- The lane failure conditions of Table 9-8. -/
inductive LaneFailCond where
  | signalLoss | fourUncorrectable | hundredUncorrectable | alignmentLost | replayMax
deriving DecidableEq, Repr

/-- A received Fezen packet: the header of Table 9-5, the type fields of Table 9-7 and the payload. `rsvd` is the
OR of every reserved bit, with a reserved `TYPE` counted as a set bit (R451). -/
structure Pkt where
  fetch    : Bool
  mirror   : Bool
  copyB    : Bool
  len      : Nat
  seq      : Nat
  inc      : Nat
  rcirc    : Nat
  src      : Nat
  job      : Nat
  ctx      : Nat
  engine   : Nat
  queue    : Nat
  cmdIdx   : Nat
  core     : Nat
  aop      : Nat
  addr     : Nat
  rtag     : Nat
  status   : Nat
  group    : Nat
  cseq     : Nat
  cop      : Nat
  fmt      : Nat
  op       : Nat
  step     : Nat
  cntFold  : Nat
  pseq     : Nat
  kind     : Nat
  dst      : Nat
  key      : Nat
  value    : Nat
  payload  : List (BitVec 8)
  rsvd     : Nat
deriving DecidableEq, Repr

/-- A path message (Table 10-8) without its `CODE`, which is the row. -/
structure PathMsg where
  hop      : Nat
  backup   : Bool
  origNode : Nat
  origIdx  : Nat
  planes   : Nat
  portA    : Nat
  portB    : Nat
  reason   : Nat
  staged   : Bool
  jobBound : Bool
  found    : Bool
  job      : Nat
  spanA    : Nat
  spanB    : Nat
  step     : Nat
  index    : Nat
deriving DecidableEq, Repr

/-- A `DISC` control block (Table 11-6). -/
structure Disc where
  planLoaded : Bool
  nodeValid  : Bool
  quar       : Bool
  acceptSwap : Bool
  heardValid : Bool
  node       : Nat
  port       : Nat
  inc        : Nat
  planVer    : Nat
  planCrc    : Nat
  fpr        : Nat
  heardNode  : Nat
  heardPort  : Nat
  verdict    : Nat
deriving DecidableEq, Repr

/-- What a loop's taps give in a period (R567, R570, R573): a hinge's transmission, a tap's or thermistor's reading, or a gain in
units of 0.01 dB; transmissions and gains in Q16.16. A loop has a tap here in every due period in which its condition for
`CLOSED` holds (a verified lit plane path crosses the hinge; Table 12-2). -/
structure LoopTap where
  loop : Nat
  val  : Int
deriving DecidableEq, Repr

/-- How one loop's taps look at the end of a window (R585). -/
inductive TapCause where
  | good | lost | frozen | pilotAbsent
deriving DecidableEq, Repr

/-- One loop's judgement of a window. -/
structure WindowTap where
  loop  : Nat
  tap   : Nat
  cause : TapCause
deriving DecidableEq, Repr

/-- The data set of an Announce (R600). -/
structure AnnounceDs where
  prio1        : Nat
  clockClass   : Nat
  gmNode       : Nat
  gmFpr        : Nat
  stepsRemoved : Nat
  sender       : Nat
  epoch        : Nat
deriving DecidableEq, Repr

/-- How a state collection ends (R677). -/
inductive CollEnd where
  | allRead | bound | slotFull
deriving DecidableEq, Repr

/-- The commands of the module: one constructor per row of the opcode table. The findings that come with a command stand last;
one that is left out says that nothing is amiss (a clean word, good parity, an address formed right). -/
inductive Instr where
  /-- `REGISTER_WRITE` (R12). -/
  | registerWrite (off : Nat) (width : Nat) (val : Nat)
  /-- `BAR0_BAD_ACCESS` (R8). -/
  | bar0BadAccess (off : Nat) (width : Nat) (isWrite : Bool)
  /-- `COMPUTE_CLOCK_STEP` (R31). -/
  | computeClockStep (inlet : Int) (quarter : Nat)
  /-- `INLET_OVER_LIMIT` (R31). -/
  | inletOverLimit (inlet : Int)
  /-- `INLET_RECOVERED` (R31). -/
  | inletRecovered (inlet : Int)
  /-- `QUARTER_OVERHEAT_GATE` (R31). -/
  | quarterOverheatGate (quarter : Nat) (junction : Int)
  /-- `POWER_LIMIT_CLOCK_STEP` (R88). -/
  | powerLimitClockStep (watts : Nat) (quarter : Nat)
  /-- `FEED_ENTERS_RANGE` (R37). -/
  | feedEntersRange (feed : Side) (cv : Nat)
  /-- `FEED_LEAVES_RANGE` (R39). -/
  | feedLeavesRange (feed : Side) (cv : Nat)
  /-- `STAGE_FAULT` (R39). -/
  | stageFault (feed : Side)
  /-- `STAGE_FAULT_CLEARS` (R40). -/
  | stageFaultClears (feed : Side)
  /-- `FEED_RETURN_WAIT_EXPIRES` (R40). -/
  | feedReturnWaitExpires (feed : Side)
  /-- `SHARE_RAMP_COMPLETE` (R41). -/
  | shareRampComplete
  /-- `FEED_REDUND_START_CHECK` (R42). -/
  | feedRedundStartCheck
  /-- `BOTH_FEEDS_LOST` (R43). -/
  | bothFeedsLost (flushed : Nat)
  /-- `FEED_RETURNS_IN_HOLD_UP` (R45). -/
  | feedReturnsInHoldUp (feed : Side) (cv : Nat)
  /-- `HOLD_UP_EXPIRES` (R46). -/
  | holdUpExpires
  /-- `FEED_HEALTH_HEARTBEAT` (R47). -/
  | feedHealthHeartbeat (busRead : Bool := true)
  /-- `MON_PATH_LOST` (R47). -/
  | monPathLost
  /-- `PROOF_TEST_PHASE_END` (R53). -/
  | proofTestPhaseEnd (vmin : Nat) (tpk : Int)
  /-- `SMB_STATUS` (R80). -/
  | smbStatus
  /-- `SMB_ALERT_CLEAR` (R80). -/
  | smbAlertClear (mask : Nat) (pecOk : Bool := true)
  /-- `SMB_ALERT_MASK` (R80). -/
  | smbAlertMask (isWrite : Bool) (val : Nat) (pecOk : Bool := true)
  /-- `FEED_A_V` (R80). -/
  | feedAV
  /-- `FEED_A_I` (R80). -/
  | feedAI
  /-- `FEED_B_V` (R80). -/
  | feedBV
  /-- `FEED_B_I` (R80). -/
  | feedBI
  /-- `INPUT_POWER` (R80). -/
  | inputPower
  /-- `INLET_TEMP` (R80). -/
  | inletTemp
  /-- `OUTLET_TEMP` (R80). -/
  | outletTemp
  /-- `HB_COUNT` (R80). -/
  | hbCount
  /-- `SMB_PROOF_TEST` (R52). -/
  | smbProofTest (val : Nat) (pecOk : Bool := true)
  /-- `PROOF_RESULT` (R80). -/
  | proofResult
  /-- `PWRCYC_REASON` (R80). -/
  | pwrcycReason
  /-- `SMB_UNKNOWN_COMMAND` (R80). -/
  | smbUnknownCommand (code : Nat)
  /-- `SMB_ALERT_RESPONSE` (R79). -/
  | smbAlertResponse
  /-- `PERST_ASSERT` (R67). -/
  | perstAssert
  /-- `PERST_DEASSERT` (R657). -/
  | perstDeassert
  /-- `CXL_CONFIG_REQUEST` (R657). -/
  | cxlConfigRequest (off : Nat) (isWrite : Bool) (val : Nat)
  /-- `TREF_LOST` (R71). -/
  | trefLost
  /-- `TREF_RESTORED` (R71). -/
  | trefRestored
  /-- `TAP_BYPASS` (R77). -/
  | tapBypass
  /-- `TAP_IDCODE` (R77). -/
  | tapIdcode
  /-- `TAP_EXTEST` (R78). -/
  | tapExtest (scan : Nat := 0)
  /-- `TAP_INTEST` (R78). -/
  | tapIntest (scan : Nat := 0)
  /-- `TAP_OTHER_INSTRUCTION` (R78). -/
  | tapOtherInstruction (code : Nat)
  /-- `POWER_CYCLE_NOT_EXECUTED` (R83). -/
  | powerCycleNotExecuted
  /-- `QUARTER_GATE` (R100). -/
  | quarterGate (quarter : Nat) (finished : Bool := true)
  /-- `QUARTER_WAKE` (R102). -/
  | quarterWake (quarter : Nat) (access : Option MemReq)
  /-- `QUARTER_READY` (R102). -/
  | quarterReady (quarter : Nat)
  /-- `DORMANT_ENTRY` (R105). -/
  | dormantEntry (finished : Bool := true)
  /-- `DORMANT_EXIT` (R106). -/
  | dormantExit (cause : DormantCause)
  /-- `DORMANT_EXIT_READY` (R107). -/
  | dormantExitReady
  /-- `REFERENCES_LOST` (R111). -/
  | referencesLost
  /-- `REFERENCE_QUALIFIED` (R595). -/
  | referenceQualified (tref : Bool)
  /-- `SCALAR_INSTRUCTION` (R133). -/
  | scalarInstruction (core : Nat) (thread : Nat) (op : ScalarOp) (parity : ParityFinding)
  /-- `VECTOR_INSTRUCTION` (R158). -/
  | vectorInstruction (core : Nat) (thread : Nat) (op : VectorOp) (parity : ParityFinding)
  /-- `LANE_REDUCTION` (R160). -/
  | laneReduction (core : Nat) (thread : Nat) (op : RedOp) (fp : Bool) (rd : Nat) (ra : Nat) (pr : Nat) (parity : ParityFinding := .none)
  /-- `CVT` (R211). -/
  | cvt (core : Nat) (thread : Nat) (rd : Nat) (rs : Nat) (ra : Nat) (src : Nat) (dst : Nat) (ctrl : Nat) (pr : Nat) (parity : ParityFinding := .none)
  /-- `SRSEED` (R216). -/
  | srseed (core : Nat) (thread : Nat) (rs : Nat) (parity : ParityFinding := .none)
  /-- `EXP2` (R161). -/
  | exp2 (core : Nat) (thread : Nat) (rd : Nat) (ra : Nat) (pr : Nat) (parity : ParityFinding := .none)
  /-- `LOG2` (R161). -/
  | log2 (core : Nat) (thread : Nat) (rd : Nat) (ra : Nat) (pr : Nat) (parity : ParityFinding := .none)
  /-- `RCP` (R161). -/
  | rcp (core : Nat) (thread : Nat) (rd : Nat) (ra : Nat) (pr : Nat) (parity : ParityFinding := .none)
  /-- `RSQRT` (R161). -/
  | rsqrt (core : Nat) (thread : Nat) (rd : Nat) (ra : Nat) (pr : Nat) (parity : ParityFinding := .none)
  /-- `SQRT` (R161). -/
  | sqrt (core : Nat) (thread : Nat) (rd : Nat) (ra : Nat) (pr : Nat) (parity : ParityFinding := .none)
  /-- `SIN` (R161). -/
  | sin (core : Nat) (thread : Nat) (rd : Nat) (ra : Nat) (pr : Nat) (parity : ParityFinding := .none)
  /-- `COS` (R161). -/
  | cos (core : Nat) (thread : Nat) (rd : Nat) (ra : Nat) (pr : Nat) (parity : ParityFinding := .none)
  /-- `TANH` (R161). -/
  | tanh (core : Nat) (thread : Nat) (rd : Nat) (ra : Nat) (pr : Nat) (parity : ParityFinding := .none)
  /-- `CORE_STORE_LOAD` (R166). -/
  | coreStoreLoad (core : Nat) (thread : Nat) (acc : AccessForm) (ecc : EccFinding) (parity : ParityFinding := .none)
  /-- `CORE_STORE_STORE` (R166). -/
  | coreStoreStore (core : Nat) (thread : Nat) (acc : AccessForm) (parity : ParityFinding := .none)
  /-- `QUARTER_STORE_ACCESS` (R167). -/
  | quarterStoreAccess (core : Nat) (thread : Nat) (isStore : Bool) (acc : AccessForm) (ecc : EccFinding) (parity : ParityFinding := .none)
  /-- `GLOBAL_LOAD` (R170). -/
  | globalLoad (core : Nat) (thread : Nat) (acc : AccessForm) (ecc : EccFinding) (parity : ParityFinding := .none)
  /-- `GLOBAL_STORE` (R172). -/
  | globalStore (core : Nat) (thread : Nat) (acc : AccessForm) (ecc : EccFinding := .clean) (parity : ParityFinding := .none)
  /-- `GATHER` (R165). -/
  | gather (core : Nat) (thread : Nat) (sp : MemSpace) (rd : Nat) (ra : Nat) (base : Nat) (pr : Nat) (ecc : List (Nat × EccFinding) := []) (parity : ParityFinding := .none)
  /-- `SCATTER` (R165). -/
  | scatter (core : Nat) (thread : Nat) (sp : MemSpace) (rs : Nat) (ra : Nat) (base : Nat) (pr : Nat) (ecc : List (Nat × EccFinding) := []) (parity : ParityFinding := .none)
  /-- `ADD64` (R294). -/
  | add64 (core : Nat) (thread : Nat) (acc : AtomicForm) (ecc : EccFinding := .clean) (parity : ParityFinding := .none)
  /-- `CAS64` (R294). -/
  | cas64 (core : Nat) (thread : Nat) (acc : AtomicForm) (ecc : EccFinding := .clean) (parity : ParityFinding := .none)
  /-- `MIN64` (R294). -/
  | min64 (core : Nat) (thread : Nat) (acc : AtomicForm) (ecc : EccFinding := .clean) (parity : ParityFinding := .none)
  /-- `MAX64` (R294). -/
  | max64 (core : Nat) (thread : Nat) (acc : AtomicForm) (ecc : EccFinding := .clean) (parity : ParityFinding := .none)
  /-- `FADD32` (R294). -/
  | fadd32 (core : Nat) (thread : Nat) (acc : AtomicForm) (ecc : EccFinding := .clean) (parity : ParityFinding := .none)
  /-- `MLOAD` (R151). -/
  | mload (core : Nat) (thread : Nat) (spec : MloadSpec) (ecc : EccFinding)
  /-- `MMA` (R147). -/
  | mma (core : Nat) (thread : Nat) (spec : MmaSpec)
  /-- `MSTORE` (R154). -/
  | mstore (core : Nat) (thread : Nat) (spec : MstoreSpec) (ecc : EccFinding) (parity : ParityFinding := .none)
  /-- `BAR` (R130). -/
  | bar (core : Nat) (thread : Nat) (b : Nat) (n : Nat)
  /-- `EWAIT` (R369). -/
  | ewait (core : Nat) (thread : Nat) (e : Nat) (rs : Nat) (parity : ParityFinding := .none)
  /-- `ESIGNAL` (R368). -/
  | esignal (core : Nat) (thread : Nat) (e : Nat) (isAdd : Bool) (rs : Nat) (parity : ParityFinding := .none)
  /-- `FENCE_ACQ` (R301). -/
  | fenceAcq (core : Nat) (thread : Nat)
  /-- `FENCE_REL` (R300). -/
  | fenceRel (core : Nat) (thread : Nat)
  /-- `YIELD` (R138). -/
  | yield (core : Nat) (thread : Nat)
  /-- `YIELD_HOLD_EXPIRES` (R138). -/
  | yieldHoldExpires (core : Nat) (thread : Nat)
  /-- `EXIT` (R128). -/
  | exit (core : Nat) (thread : Nat)
  /-- `LOAD_RESULT_WRITTEN` (R141). -/
  | loadResultWritten (core : Nat) (thread : Nat) (tag : Nat)
  /-- `MLOAD_BANK_FILLED` (R141). -/
  | mloadBankFilled (core : Nat)
  /-- `MSTORE_COMPLETE` (R141). -/
  | mstoreComplete (core : Nat)
  /-- `TILE_VERDICT` (R238). -/
  | tileVerdict (core : Nat) (upset : List TileUpset) (residue : Int) (ecc : EccFinding := .clean)
  /-- `REPLAY_VERDICT` (R244). -/
  | replayVerdict (core : Nat) (upset : List TileUpset) (residue : Int) (ecc : EccFinding := .clean)
  /-- `SIBLING_START` (R246). -/
  | siblingStart (core : Nat) (uncorrectable : Bool)
  /-- `ARBITER_VERDICT` (R247). -/
  | arbiterVerdict (core : Nat) (upset : List TileUpset) (upset2 : List TileUpset) (residue residue2 : Int := 0)
  /-- `RESULT_TRANSFER_COMPLETE` (R248). -/
  | resultTransferComplete (core : Nat) (digestOk : Bool)
  /-- `ARB_WAIT_EXPIRES` (R248). -/
  | arbWaitExpires (core : Nat)
  /-- `CORE_ZEROING_COMPLETE` (R124). -/
  | coreZeroingComplete (core : Nat)
  /-- `HELD_WRITE_PERFORMED` (R156). -/
  | heldWritePerformed (core : Nat)
  /-- `CORE_CLOCK_GATE` (R179). -/
  | coreClockGate (core : Nat) (cycles : Nat) (finished : Bool := true)
  /-- `CORE_POWER_GATE` (R179). -/
  | corePowerGate (core : Nat) (micros : Nat) (finished : Bool := true)
  /-- `CORE_WAKE` (R182). -/
  | coreWake (core : Nat)
  /-- `CORE_SELF_TEST` (R257). -/
  | coreSelfTest (core : Nat) (run1 run2 : SelfTestRun)
  /-- `HISTORY_FLASH_WRITE` (R261). -/
  | historyFlashWrite (unit : Nat) (ok : Bool)
  /-- `HISTORY_WRITE_RETRY` (R262). -/
  | historyWriteRetry (unit : Nat) (ok : Bool)
  /-- `CORE_RETIRED` (R266). -/
  | coreRetired (core : Nat)
  /-- `CHK_CFG_COMMIT` (R20). -/
  | chkCfgCommit
  /-- `CHK_INJECT_ARM` (R264). -/
  | chkInjectArm (val : Nat)
  /-- `REMOTE_TIMEOUT` (R303). -/
  | remoteTimeout (rtag : Nat)
  /-- `PATROL_SCRUB` (R283). -/
  | patrolScrub (granule : Nat) (ecc : EccFinding)
  /-- `SELF_REFRESH_TIMEOUT` (R286). -/
  | selfRefreshTimeout (devices : Nat)
  /-- `MEM_REGION_COMMIT_GO` (R292). -/
  | memRegionCommitGo
  /-- `REGION_COMMIT_DONE` (R292). -/
  | regionCommitDone
  /-- `MEM_BIAS_GO` (R324). -/
  | memBiasGo (val : Nat)
  /-- `BIAS_CHANGE_COMPLETE` (R324). -/
  | biasChangeComplete
  /-- `CXL_MEM_READ` (R322). -/
  | cxlMemRead (hpa : Nat) (ecc : EccFinding)
  /-- `CXL_MEM_WRITE` (R319). -/
  | cxlMemWrite (hpa : Nat) (data : List Nat) (be : Nat)
  /-- `HDM_DECODER_COMMIT` (R321). -/
  | hdmDecoderCommit (idx : Nat) (base : Nat) (size : Nat) (skip : Nat)
  /-- `MIRROR_ACK` (R316). -/
  | mirrorAck (count : Nat)
  /-- `MIRROR_ENABLE` (R318). -/
  | mirrorEnable (buddy : Nat)
  /-- `RESYNC_COMPLETE` (R318). -/
  | resyncComplete
  /-- `QDB_TAIL_WRITE` (R337). -/
  | qdbTailWrite (slot : Nat) (queue : Nat) (val : Nat)
  /-- `QUEUE_ENABLE` (R341). -/
  | queueEnable (slot : Nat) (queue : Nat) (val : Nat)
  /-- `QUEUE_DISABLE` (R392). -/
  | queueDisable (slot : Nat) (queue : Nat)
  /-- `COMMAND_FETCH` (R340). -/
  | commandFetch (slot : Nat) (queue : Nat) (hostRec : Option (List Nat)) (ecc : EccFinding := .clean)
  /-- `COMMAND_START` (R328). -/
  | commandStart (engine : Nat)
  /-- `NOP` (R350). -/
  | nop (slot : Nat) (queue : Nat) (count : Nat)
  /-- `EVENT_WAIT` (R350). -/
  | eventWait (slot : Nat) (queue : Nat) (count : Nat)
  /-- `EVENT_SIGNAL_SET` (R367). -/
  | eventSignalSet (slot : Nat) (queue : Nat) (count : Nat)
  /-- `EVENT_SIGNAL_ADD` (R367). -/
  | eventSignalAdd (slot : Nat) (queue : Nat) (count : Nat)
  /-- `STEP_WAIT` (R350). -/
  | stepWait (slot : Nat) (queue : Nat) (count : Nat)
  /-- `TIMESTAMP` (R350). -/
  | timestamp (slot : Nat) (queue : Nat) (count : Nat)
  /-- `MEM_WAIT` (R350). -/
  | memWait (slot : Nat) (queue : Nat) (count : Nat) (ecc : EccFinding := .clean)
  /-- `MEM_WAIT_POLL` (R352). -/
  | memWaitPoll (slot : Nat) (queue : Nat) (count : Nat) (ecc : EccFinding := .clean)
  /-- `DISPATCH` (R353). -/
  | dispatch (slot : Nat) (queue : Nat) (count : Nat)
  /-- `DISPATCH_GROUP_START` (R354). -/
  | dispatchGroupStart (slot : Nat) (queue : Nat) (count : Nat)
  /-- `COPY` (R358). -/
  | copy (slot : Nat) (queue : Nat) (count : Nat) (ecc : EccFinding) (residue : Int) (residue2 : Int := 0)
  /-- `COPY_2D` (R358). -/
  | copy2d (slot : Nat) (queue : Nat) (count : Nat) (ecc : EccFinding) (residue : Int) (residue2 : Int := 0)
  /-- `FILL` (R358). -/
  | fill (slot : Nat) (queue : Nat) (count : Nat) (residue : Int) (residue2 : Int := 0)
  /-- `CONVERT` (R361). -/
  | convert (slot : Nat) (queue : Nat) (count : Nat) (ecc : EccFinding) (residue : Int) (residue2 : Int := 0)
  /-- `PAGE_IN` (R313). -/
  | pageIn (slot : Nat) (queue : Nat) (count : Nat) (residue residue2 : Int := 0)
  /-- `PAGE_OUT` (R313). -/
  | pageOut (slot : Nat) (queue : Nat) (count : Nat)
  /-- `ALLREDUCE` (R378). -/
  | allreduce (slot : Nat) (queue : Nat) (count : Nat) (ecc : EccFinding := .clean)
  /-- `REDUCE_SCATTER` (R378). -/
  | reduceScatter (slot : Nat) (queue : Nat) (count : Nat) (ecc : EccFinding := .clean)
  /-- `ALLGATHER` (R378). -/
  | allgather (slot : Nat) (queue : Nat) (count : Nat) (ecc : EccFinding := .clean)
  /-- `BROADCAST` (R378). -/
  | broadcast (slot : Nat) (queue : Nat) (count : Nat) (ecc : EccFinding := .clean)
  /-- `BARRIER` (R385). -/
  | barrier (slot : Nat) (queue : Nat) (count : Nat)
  /-- `RING_RUN` (R408). -/
  | ringRun (slot : Nat) (queue : Nat) (count : Nat)
  /-- `PATH_SETUP` (R503). -/
  | pathSetup (slot : Nat) (queue : Nat) (count : Nat)
  /-- `PATH_TEARDOWN` (R512). -/
  | pathTeardown (slot : Nat) (queue : Nat) (count : Nat)
  /-- `PATH_RECABLE` (R520). -/
  | pathRecable (slot : Nat) (queue : Nat) (count : Nat)
  /-- `PATH_QUERY` (R505). -/
  | pathQuery (slot : Nat) (queue : Nat) (count : Nat)
  /-- `COMMAND_COMPLETE` (R345). -/
  | commandComplete (slot : Nat) (queue : Nat) (count : Nat)
  /-- `QDB_EVT_VAL_WRITE` (R365). -/
  | qdbEvtValWrite (val : Nat)
  /-- `COLL_TIMEOUT` (R377). -/
  | collTimeout (slot : Nat) (queue : Nat) (count : Nat)
  /-- `PLACEMENT` (R396). -/
  | placement
  /-- `PARTNER_RECORD` (R640). -/
  | partnerRecord (src : Nat) (rec : List Nat)
  /-- `PARTNER_SILENT` (R396). -/
  | partnerSilent
  /-- `PLACEMENT_HOLD_EXPIRES` (R398). -/
  | placementHoldExpires (job : Nat)
  /-- `RING_HELLO` (R414). -/
  | ringHello (src : Nat) (job : Nat) (key : Nat) (desc : List Nat)
  /-- `HELLO_HOLD_EXPIRES` (R414). -/
  | helloHoldExpires (src : Nat) (job : Nat) (key : Nat)
  /-- `RING_TOKEN` (R415). -/
  | ringToken (src : Nat) (job : Nat) (key : Nat) (val : Nat)
  /-- `RING_TOKEN_SEND` (R415). -/
  | ringTokenSend (run : Nat) (token : Nat)
  /-- `RING_LOAD_DONE` (R415). -/
  | ringLoadDone (run : Nat) (ecc : EccFinding := .clean) (residue residue2 : Int := 0)
  /-- `RING_FORWARD` (R415). -/
  | ringForward (run : Nat) (step : Nat) (ecc : EccFinding) (residue residue2 : Int := 0)
  /-- `RING_READY` (R415). -/
  | ringReady (run : Nat) (step : Nat)
  /-- `RING_COMPLETE` (R415). -/
  | ringComplete (run : Nat)
  /-- `RING_ABORT` (R429). -/
  | ringAbort (src : Nat) (job : Nat) (key : Nat)
  /-- `STEP_TIMEOUT` (R421). -/
  | stepTimeout (run : Nat) (wait : RingWait)
  /-- `LANE_CLOCK_RECOVERED` (R445). -/
  | laneClockRecovered (lane : Nat)
  /-- `LANE_EQUALISER_CONVERGED` (R445). -/
  | laneEqualiserConverged (lane : Nat)
  /-- `LANE_ALIGNMENT_FOUND` (R445). -/
  | laneAlignmentFound (lane : Nat)
  /-- `INIT` (R446). -/
  | init (lane : Nat) (node : Nat) (inc : Nat) (circ : Nat) (laneI : Nat) (k : Nat) (plane : Nat) (ready : Bool)
  /-- `LANE_CHECK_COMPLETE` (R445). -/
  | laneCheckComplete (lane : Nat) (corrected : Nat) (uncorr : Nat)
  /-- `LANE_BOUND_EXCEEDED` (R445). -/
  | laneBoundExceeded (lane : Nat)
  /-- `FLOW` (R443). -/
  | flow (lane : Nat) (ack : Nat) (req : Nat) (rsp : Nat) (pmsg : Nat) (nakSeq : Nat) (nakValid : Bool)
  /-- `LNK_BER_HIGH` (R448). -/
  | lnkBerHigh (lane : Nat) (symbols : Nat)
  /-- `LANE_FAIL` (R464). -/
  | laneFail (lane : Nat) (cond : LaneFailCond)
  /-- `PACKET_SEND` (R454). -/
  | packetSend (circ : Nat)
  /-- `ACK_TIMEOUT` (R460). -/
  | ackTimeout (circ : Nat)
  /-- `WR` (R457). -/
  | wr (lane : Nat) (pkt : Pkt) (ecc : EccFinding := .clean)
  /-- `RD` (R457). -/
  | rd (lane : Nat) (pkt : Pkt) (ecc : EccFinding)
  /-- `ATOM` (R295). -/
  | atom (lane : Nat) (pkt : Pkt) (ecc : EccFinding := .clean)
  /-- `COLL_DATA` (R450). -/
  | collData (lane : Nat) (pkt : Pkt) (residue : Int) (residue2 : Int := 0)
  /-- `RD_RSP` (R455). -/
  | rdRsp (lane : Nat) (pkt : Pkt)
  /-- `ATOM_RSP` (R455). -/
  | atomRsp (lane : Nat) (pkt : Pkt)
  /-- `CPL` (R455). -/
  | cpl (lane : Nat) (pkt : Pkt)
  /-- `VOID` (R476). -/
  | void (lane : Nat) (pkt : Pkt)
  /-- `PMSG_RELAY` (R479). -/
  | pmsgRelay (lane : Nat) (pkt : Pkt)
  /-- `PMSG_RELAY_DISCARD` (R476). -/
  | pmsgRelayDiscard (port : Nat)
  /-- `COLL_READY` (R376). -/
  | collReady (src : Nat) (job : Nat) (key : Nat) (val : Nat) (step : Nat)
  /-- `COLL_ARRIVE` (R385). -/
  | collArrive (src : Nat) (job : Nat) (key : Nat) (val : Nat)
  /-- `ORQ_SYNC_UNKNOWN` (R639). -/
  | orqSyncUnknown (src : Nat) (key : Nat)
  /-- `WAKE_PATTERN` (R481). -/
  | wakePattern (port : Nat)
  /-- `RESV` (R508). -/
  | resv (src : Nat) (msg : PathMsg)
  /-- `RESV_ACK` (R507). -/
  | resvAck (src : Nat) (msg : PathMsg)
  /-- `LIGHT` (R509). -/
  | light (src : Nat) (msg : PathMsg)
  /-- `LIT` (R507). -/
  | lit (src : Nat) (msg : PathMsg)
  /-- `RELEASE` (R512). -/
  | release (src : Nat) (msg : PathMsg)
  /-- `RELEASE_ACK` (R507). -/
  | releaseAck (src : Nat) (msg : PathMsg)
  /-- `MOVE` (R513). -/
  | move (src : Nat) (msg : PathMsg)
  /-- `COMMIT` (R523). -/
  | commit (src : Nat) (msg : PathMsg)
  /-- `PATH_ABORT` (R522). -/
  | pathAbort (src : Nat) (msg : PathMsg)
  /-- `AUDIT` (R518). -/
  | audit (src : Nat) (msg : PathMsg)
  /-- `AUDIT_REPLY` (R518). -/
  | auditReply (src : Nat) (msg : PathMsg)
  /-- `AUDIT_TIMEOUT` (R518). -/
  | auditTimeout (idx : Nat)
  /-- `EVACUATE_MSG` (R519). -/
  | evacuateMsg (src : Nat) (msg : PathMsg)
  /-- `EVAC_ACK` (R519). -/
  | evacAck (src : Nat) (msg : PathMsg)
  /-- `TEARDOWN_REQ` (R512). -/
  | teardownReq (src : Nat) (msg : PathMsg)
  /-- `WAKE` (R511). -/
  | wake (src : Nat) (msg : PathMsg)
  /-- `WAKE_ACK` (R511). -/
  | wakeAck (src : Nat) (msg : PathMsg)
  /-- `WAKE_ROUND_EXPIRES` (R511). -/
  | wakeRoundExpires (idx : Nat)
  /-- `HOP_TIMEOUT` (R507). -/
  | hopTimeout (idx : Nat)
  /-- `SETUP_TIMEOUT` (R507). -/
  | setupTimeout (idx : Nat)
  /-- `HELD_TIMEOUT` (R507). -/
  | heldTimeout (idx : Nat)
  /-- `PLANE_PATH_VERIFIED` (R509). -/
  | planePathVerified (plane : Nat) (inp : Nat) (outp : Nat) (ok : Bool)
  /-- `BACKUP_SEEK` (R514). -/
  | backupSeek (idx : Nat)
  /-- `DOWN_RETRY` (R515). -/
  | downRetry (idx : Nat)
  /-- `DOWN_HOLD_EXPIRES` (R515). -/
  | downHoldExpires (idx : Nat)
  /-- `RECABLE_DEADLINE` (R522). -/
  | recableDeadline (step : Nat)
  /-- `RECABLE_TICK` (R523). -/
  | recableTick (step : Nat)
  /-- `SPAN_LOSS_MEASURE` (R492). -/
  | spanLossMeasure (port : Nat) (loss : Nat)
  /-- `DISC` (R540). -/
  | disc (port : Nat) (blk : Disc)
  /-- `DISC_SEND` (R539). -/
  | discSend (port : Nat)
  /-- `DISC_TIMEOUT` (R546). -/
  | discTimeout (port : Nat)
  /-- `ROUTING_REBUILD` (R549). -/
  | routingRebuild
  /-- `REBIND` (R551). -/
  | rebind (node : Nat)
  /-- `HCE_PERIOD` (R574). -/
  | hcePeriod (taps : List LoopTap) (late : List Nat)
  /-- `GROUP_RATE_DOWN` (R576). -/
  | groupRateDown (group : Nat)
  /-- `GROUP_RATE_RESTORE` (R576). -/
  | groupRateRestore (group : Nat)
  /-- `GROUP_RESUME` (R576). -/
  | groupResume (group : Nat)
  /-- `HCE_WINDOW` (R585). -/
  | hceWindow (judged : List WindowTap)
  /-- `RAMP_RECORD` (R577). -/
  | rampRecord (loop : Nat) (target : Bool) (recable : Bool) (lit : Bool) (start : Nat) (late : Nat)
  /-- `RAMP_START` (R579). -/
  | rampStart (step : Nat) (late : Nat)
  /-- `HCE_SP_GO` (R581). -/
  | hceSpGo (val : Nat)
  /-- `LOOP_HOLD` (R583). -/
  | loopHold (loop : Nat)
  /-- `LOOP_HOLD_RELEASE` (R584). -/
  | loopHoldRelease (loop : Nat)
  /-- `SET_SEL_WRITE` (R589). -/
  | setSelWrite (loop : Nat) (set : Nat)
  /-- `STEP_TICK` (R613). -/
  | stepTick
  /-- `TICK` (R615). -/
  | tick (port : Nat) (step : Nat) (locked : Bool)
  /-- `SYNC_INTERVAL` (R600). -/
  | syncInterval (port : Nat)
  /-- `SYNC` (R600). -/
  | sync (port : Nat) (domain : Nat) (seqId : Nat) (t2 : Int)
  /-- `FOLLOW_UP` (R602). -/
  | followUp (port : Nat) (domain : Nat) (seqId : Nat) (t1 : Int)
  /-- `DELAY_REQ` (R600). -/
  | delayReq (port : Nat) (domain : Nat) (seqId : Nat) (t4 : Int)
  /-- `DELAY_RESP` (R602). -/
  | delayResp (port : Nat) (domain : Nat) (seqId : Nat) (t4 : Int)
  /-- `ANNOUNCE` (R600). -/
  | announce (port : Nat) (domain : Nat) (ds : AnnounceDs)
  /-- `ANNOUNCE_TIMEOUT` (R601). -/
  | announceTimeout
  /-- `PPS_EDGE` (R609). -/
  | ppsEdge
  /-- `PPS_TIMEOUT` (R609). -/
  | ppsTimeout
  /-- `TIM_SET_GO` (R610). -/
  | timSetGo
  /-- `TIM_NOW_READ` (R620). -/
  | timNowRead
  /-- `TRIGGER_ARM` (R617). -/
  | triggerArm (n : Nat) (val : Nat)
  /-- `TRIGGER_DISARM` (R617). -/
  | triggerDisarm (n : Nat) (val : Nat := 0)
  /-- `TRIGGER_FIRE` (R618). -/
  | triggerFire (n : Nat)
  /-- `OP_TIME_CHECKPOINT` (R729). -/
  | opTimeCheckpoint
  /-- `ORQ_DOORBELL_GO` (R625). -/
  | orqDoorbellGo
  /-- `MAILBOX_RESPONSE` (R625). -/
  | mailboxResponse
  /-- `MAILBOX_TIMEOUT` (R628). -/
  | mailboxTimeout
  /-- `DEFERRED_WORK_END` (R630). -/
  | deferredWorkEnd (ticket : Nat)
  /-- `GET_INFO` (R634). -/
  | getInfo
  /-- `GET_RESULT` (R631). -/
  | getResult
  /-- `CTX_CREATE` (R330). -/
  | ctxCreate
  /-- `CTX_REMOVE` (R666). -/
  | ctxRemove
  /-- `CFG_STAGE` (R644). -/
  | cfgStage
  /-- `CFG_COMMIT` (R646). -/
  | cfgCommit (flashOk : Bool)
  /-- `CFG_DISCARD` (R645). -/
  | cfgDiscard
  /-- `CFG_REVERT` (R649). -/
  | cfgRevert
  /-- `CFG_READ` (R634). -/
  | cfgRead
  /-- `PLAN_LOAD` (R635). -/
  | planLoad (hostData : List Nat)
  /-- `PLAN_COMMIT` (R635). -/
  | planCommit
  /-- `PLAN_REVERT` (R635). -/
  | planRevert
  /-- `PATH_REQ_SETUP` (R634). -/
  | pathReqSetup
  /-- `PATH_REQ_TEARDOWN` (R634). -/
  | pathReqTeardown
  /-- `PATH_REQ_RECABLE` (R634). -/
  | pathReqRecable
  /-- `PATH_REQ_QUERY` (R634). -/
  | pathReqQuery
  /-- `PROOF_TEST` (R58). -/
  | proofTest
  /-- `TWOKEY_STATUS` (R703). -/
  | twokeyStatus
  /-- `KEY_REPLACE` (R700). -/
  | keyReplace
  /-- `POLICY_SET` (R700). -/
  | policySet
  /-- `MIN_SVN` (R700). -/
  | minSvn
  /-- `DEBUG_UNLOCK` (R704). -/
  | debugUnlock
  /-- `DEBUG_RELOCK` (R704). -/
  | debugRelock
  /-- `UNIT_RESTORE` (R270). -/
  | unitRestore
  /-- `EVR_CLEAR` (R740). -/
  | evrClear
  /-- `KEEPER_RESET` (R700). -/
  | keeperReset
  /-- `KEEPER_RESET_EXECUTE` (R700). -/
  | keeperResetExecute
  /-- `TWOKEY_TIMEOUT` (R702). -/
  | twokeyTimeout
  /-- `UPD_STATUS` (R633). -/
  | updStatus
  /-- `UPD_SCHEDULE` (R718). -/
  | updSchedule (hostList : List Nat)
  /-- `UPD_CONFIRM` (R720). -/
  | updConfirm
  /-- `UPD_CANCEL` (R722). -/
  | updCancel
  /-- `EVR_LATCH` (R738). -/
  | evrLatch
  /-- `EVR_RELEASE` (R739). -/
  | evrRelease
  /-- `RESET_REQ_ENGINE` (R687). -/
  | resetReqEngine
  /-- `RESET_REQ_PARTITION` (R687). -/
  | resetReqPartition
  /-- `RESET_REQ_CHIP` (R687). -/
  | resetReqChip
  /-- `RESET_REQ_POWER_CYCLE` (R687). -/
  | resetReqPowerCycle
  /-- `EVACUATE` (R685). -/
  | evacuate
  /-- `EVACUATE_CLEAR` (R685). -/
  | evacuateClear
  /-- `EVACUATE_TIMEOUT` (R685). -/
  | evacuateTimeout
  /-- `AGE_REPLAN` (R743). -/
  | ageReplan
  /-- `HEARTBEAT` (R637). -/
  | heartbeat (seq : Nat) (alive : Nat)
  /-- `WATCHDOG_PERIOD` (R638). -/
  | watchdogPeriod
  /-- `KEEPER_BOOT` (R655). -/
  | keeperBoot (pufOk : Bool) (keyringOk : Bool) (slotOk : Bool) (recovLow : Bool := false)
  /-- `POWER_ON_STEP_COMPLETE` (R655). -/
  | powerOnStepComplete (step : Nat) (failDevs : Nat) (trainMs : Nat)
  /-- `RST_STEP_LATE` (R656). -/
  | rstStepLate (step : Nat)
  /-- `RST_ORQ_BOOT_FAIL` (R656). -/
  | rstOrqBootFail
  /-- `KEEPER_WATCHDOG` (R660). -/
  | keeperWatchdog
  /-- `ENGINE_STALL` (R660). -/
  | engineStall (engine : Nat)
  /-- `CONTEXT_PROGRESS_TIMEOUT` (R660). -/
  | contextProgressTimeout (slot : Nat)
  /-- `CONTEXT_REMOVAL` (R666). -/
  | contextRemoval (slot : Nat)
  /-- `CONTEXT_REMOVAL_COMPLETE` (R666). -/
  | contextRemovalComplete (slot : Nat)
  /-- `ENGINE_RESET` (R667). -/
  | engineReset (engine : Nat)
  /-- `ENGINE_RESET_COMPLETE` (R667). -/
  | engineResetComplete (engine : Nat)
  /-- `PARTITION_RESET` (R668). -/
  | partitionReset (part : Nat)
  /-- `PARTITION_RESET_COMPLETE` (R668). -/
  | partitionResetComplete (part : Nat)
  /-- `CHIP_RESET` (R669). -/
  | chipReset (recovLow : Bool := false)
  /-- `POWER_CYCLE` (R670). -/
  | powerCycle
  /-- `DRAIN_EXPIRES` (R670). -/
  | drainExpires
  /-- `ACTION_LIMIT_EXPIRES` (R671). -/
  | actionLimitExpires
  /-- `ACTION_DEQUEUE` (R673). -/
  | actionDequeue
  /-- `COLLECTION_ACCESS_TIMEOUT` (R676). -/
  | collectionAccessTimeout (unit : Nat) (access : Nat)
  /-- `COLLECTION_DONE` (R677). -/
  | collectionDone (reason : CollEnd)
  /-- `RST_DUMP_DONE` (R679). -/
  | rstDumpDone
  /-- `LATTICE_RECORD_WRITE` (R681). -/
  | latticeRecordWrite
  /-- `HB_SEND` (R683). -/
  | hbSend
  /-- `HB` (R684). -/
  | hb (port : Nat) (state : Nat) (node : Nat) (inc : Nat)
  /-- `MIRROR_HB` (R689). -/
  | mirrorHb (src : Nat) (val : Nat) (state : Nat) (roles : Nat) (buddy : Nat)
  /-- `MIRROR_PATH_LOST` (R690). -/
  | mirrorPathLost (path1 : Bool)
  /-- `OPEN` (R713). -/
  | xferOpen (resume : Bool) (blocks : Nat)
  /-- `DATA` (R711). -/
  | xferData (session : Nat) (block : Nat) (frag : Nat) (data : List Nat)
  /-- `BLOCK_END` (R712). -/
  | blockEnd (session : Nat) (block : Nat)
  /-- `CLOSE` (R711). -/
  | xferClose (session : Nat)
  /-- `XFER_STATUS` (R711). -/
  | xferStatus (session : Nat)
  /-- `BOOT` (R716). -/
  | boot (slot : Nat)
  /-- `NEIGHBOUR_SOLICITATION` (R710). -/
  | neighbourSolicitation (src : List Nat) (target : List Nat)
  /-- `ECHO_REQUEST` (R710). -/
  | echoRequest (src : List Nat) (payload : List Nat)
  /-- `SESSION_IDLE_TIMEOUT` (R713). -/
  | sessionIdleTimeout
  /-- `UPD_SLOT_VERIFIED` (R709). -/
  | updSlotVerified (slot : Nat)
  /-- `GET_VERSION` (R705). -/
  | getVersion
  /-- `GET_CAPABILITIES` (R705). -/
  | getCapabilities
  /-- `NEGOTIATE_ALGORITHMS` (R705). -/
  | negotiateAlgorithms
  /-- `GET_DIGESTS` (R705). -/
  | getDigests
  /-- `GET_CERTIFICATE` (R705). -/
  | getCertificate (slot : Nat) (off : Nat) (len : Nat)
  /-- `CHALLENGE` (R705). -/
  | challenge (slot : Nat) (nonce : List Nat)
  /-- `GET_MEASUREMENTS` (R706). -/
  | getMeasurements (index : Nat) (signed : Bool) (nonce : List Nat)
  /-- `SPDM_UNSUPPORTED_REQUEST` (R705). -/
  | spdmUnsupportedRequest (code : Nat)
  /-- `READY` (R720). -/
  | ready (src : Nat) (group : Nat) (imageVer : Nat)
  /-- `NOT_READY` (R720). -/
  | notReady (src : Nat) (group : Nat) (status : Nat)
  /-- `GO_DECISION` (R720). -/
  | goDecision
  /-- `GO` (R720). -/
  | go (src : Nat) (group : Nat) (t : Nat)
  /-- `GROUP_ABORT` (R720). -/
  | groupAbort (src : Nat) (group : Nat)
  /-- `ACTIVATION_AT_T` (R720). -/
  | activationAtT
  /-- `TRIAL_OK` (R720). -/
  | trialOk (src : Nat) (group : Nat)
  /-- `TRIAL_FAIL` (R720). -/
  | trialFail (src : Nat) (group : Nat) (status : Nat)
  /-- `ALL_OK` (R720). -/
  | allOk (src : Nat) (group : Nat)
  /-- `ROLLBACK` (R721). -/
  | rollback (src : Nat) (group : Nat)
  /-- `QUERY` (R722). -/
  | query (src : Nat) (group : Nat)
  /-- `QUERY_RESEND` (R722). -/
  | queryResend
  /-- `TRIAL_WINDOW_EXPIRES` (R720). -/
  | trialWindowExpires
  /-- `FLUSH` (R732). -/
  | flush (count : Nat) (bad : List Nat)
  /-- `EVR_RD_CTL_WRITE` (R737). -/
  | evrRdCtlWrite (seq : Nat)
  /-- `LATCH_EXPIRES` (R739). -/
  | latchExpires
  /-- `AGEING_MEASUREMENT` (R741). -/
  | ageingMeasurement (kind : Nat) (index : Nat) (val : Nat)
  /-- `REPLAN_DUE` (R743). -/
  | replanDue
  /-- `INLET_BAND_CHANGE` (R31). -/
  | inletBandChange (inlet : Int)
  /-- `UNCORRECTABLE_CODEWORD` (R441). -/
  | uncorrectableCodeword (lane : Nat)
  /-- `PACKET_CRC_FAIL` (R457). -/
  | packetCrcFail (lane : Nat)
  /-- `PMSG_ENTRY_EXPIRES` (R556). -/
  | pmsgEntryExpires (src : Nat)
  /-- `CXL_CACHE_RESPONSE` (R299). -/
  | cxlCacheResponse (rtag : Nat) (data : List Nat) (err : Bool)
  /-- `CXL_LINK_DOWN` (R323). -/
  | cxlLinkDown
deriving DecidableEq, Repr

end Sys2Proof
end

