-- ==== Sys2Proof/Config.lean ====
section
/-! DEFINITION. What the implementation fixes and the spec leaves open: opaque constants, of which nothing can be
proved. A function of a counter gives a fresh free value at each use (`State.free` counts the uses). -/

namespace Sys2Proof.Config

/-- Silicon revision (`ID_DEVICE.SI_REV`, IDCODE bits [31:28], R77). -/
opaque siRev : BitVec 4
/-- Assembly revision (`ID_DEVICE.MOD_REV`). -/
opaque modRev : BitVec 4
/-- IDCODE bits [27:0], which the boundary-scan description file gives (R77). -/
opaque idcodeLow : BitVec 28
/-- A measurement: what a sensor reads at the moment it is read (R80). -/
opaque sensor : Nat → Nat
/-- A free word (the value of an unstated result). -/
opaque word : Nat → BitVec 64
/-- A free 32-bit lane value. -/
opaque lane : Nat → BitVec 32
/-- The choice a special-function unit makes within its error bound, and its result where the spec states none: a
function of the function and the input, since the same input gives the same bits (R223). -/
opaque sfuFree : Nat → BitVec 32 → BitVec 32
/-- The result of a scalar shift by 64 or more, of which the spec states none: a function of the operation and the operands. -/
opaque shiftOver : Nat → BitVec 64 → BitVec 64 → BitVec 64
/-- A free byte. -/
opaque byte : Nat → Nat → BitVec 8
/-- The event codes of the events that chapters 0 to 2 describe without a table of codes (R727 takes a code from the
table of the chapter that defines the event; those chapters have none). -/
opaque eventCode : Nat → Nat
/-- The widths, in bytes, of the payload fields of an event code: Table 17-1 gives their order and byte order, and the event
tables give no widths. -/
opaque payloadWidths : Nat → List Nat

/-- The set of the read cache that a line falls in (R170 gives the cache four ways and no set function). -/
opaque rcSet : Nat → Nat

/-- The first frame of a partner's placement of a job: R400 needs it for the overflow map, and no rule tells how the
module learns it. -/
opaque partnerFrames : Nat → Nat → BitVec 21
/-- Whether a new plane path of a plane is blocked (R488) while other paths of the plane are lit: the stages' wiring
(R485) is not given. -/
opaque planeBlocked : Nat → Nat → Bool

/-- Whether a plane path crosses a hinge position: (loop, input, output); R485 gives no wiring of the stages. -/
opaque crosses : Nat → Nat → Nat → Bool

/-- Whether the firmware of an image version reads a configuration record of a settings format with entries for the given
offsets (R642, R723): what an image treats as persistent is the image's. -/
opaque readsSettings : Nat → Nat → List Nat → Bool
/-- The settings format that an image writes when it brings its own copy up to date (R723). -/
opaque settingsForm : Nat → Nat → Nat

/-- The identity (R693 to R696): the root key, the identity public key's DER-encoded SubjectPublicKeyInfo, the certificate chain in
DER, and the signature of a message by the identity key with the salt that its free counter picks. -/
opaque rootKey : List (BitVec 8)
opaque identityKeyInfo : List (BitVec 8)
opaque certChain : List (BitVec 8)
opaque identitySign : Nat → List (BitVec 8) → List (BitVec 8)
/-- The contents of the boot ROM (Table 16-5). -/
opaque bootRom : List (BitVec 8)

/-- The payload of `UPD_STATUS` (R633), of which no table gives the layout: a function of `UPD_STATE` and the two slots. -/
opaque updStatus : BitVec 64 → BitVec 64 → BitVec 64 → List (BitVec 8)

/-- The photonic calibration tables of an image version: the value for the "From flash" fields of the register at an offset
(R592), and the manufacture value of an ageing quantity (R741); the tables' form is not given. -/
opaque calibration : Nat → Nat → BitVec 64
opaque ageManufacture : Nat → BitVec 16
/-- The TEC set-point code of a wavelength moved by so many 0.1 °C from its manufacture value (R744): the thermistor's law is
not given. -/
opaque tecCode : Nat → Int → BitVec 16

end Sys2Proof.Config
end

