-- ==== Sys2Proof/Machine/Regs.lean ====
section
/-! DEFINITION. The BAR0 registers: one `Reg` per register name of the spec's register tables, its descriptor (base
offset, stride, number of instances, width, reset domain under R15, configuration class under R17) and one `Fld` per
field (bits, access code of Table 0-2, reset value, and whether
it is non-volatile: a field that the table restores `From flash` or `From keyring` keeps its value through a reset). A field whose reset the table does not give as a number (`From
flash`, `Set by training`, `Set at keeper boot`) has reset 0 here (notes/assumptions/3.md). -/

namespace Sys2Proof.Machine

/-- The reset domains of Table 0-3. -/
inductive Domain where
  | engine | partition | chip | keeper
deriving DecidableEq, Repr

/-- The configuration classes of Table 0-4; `none` where the register's line names none. -/
inductive RegClass where
  | none | live | shadowed | quiesce | boot
deriving DecidableEq, Repr

/-- The access codes of Table 0-2. No register table of the spec uses `WO` or `RWL`. -/
inductive Access where
  | ro | rw | w1c | w1s | wo | rwl
deriving DecidableEq, Repr

/-- The registers, by the manual's names. -/
inductive Reg where
  | ID_DEVICE
  | ID_CAP
  | ID_NODE
  | ID_PART_CFG
  | ID_PWR_CFG
  | ID_PWR_STATE
  | CORE_ID
  | CORE_STATUS
  | CORE_FAULT
  | CORE_FAULT_ADDR
  | CORE_FAULT_ATTR
  | CORE_CFG
  | CORE_GATE_CFG
  | CORE_THR_LIVE
  | CORE_THR_SYNC
  | CORE_PERF_CYCLES
  | CORE_PERF_ISSUE
  | CORE_PERF_MBUSY
  | CORE_PERF_SB_FULL
  | CORE_PERF_RC_HIT
  | CORE_PERF_RC_MISS
  | CORE_PERF_CS_CONFLICT
  | CHK_CFG
  | CHK_ST_CFG
  | CHK_STATUS
  | CHK_CNT_FAIL
  | CHK_CNT_REPLAY
  | CHK_CNT_ARB
  | CHK_CNT_UNRES
  | CHK_CNT_UNCHK
  | CHK_CNT_RESID
  | CHK_CNT_PAR
  | CHK_LAST
  | CHK_LAST_CTX
  | CHK_INJECT
  | CHK_CORE
  | CHK_EUNIT
  | MEM_CFG
  | MEM_STATUS
  | MEM_ECC_CNT_CORR
  | MEM_ECC_CNT_UNCORR
  | MEM_REGION_COMMIT
  | MEM_MIRROR_CFG
  | MEM_MIRROR_STATUS
  | MEM_OVF_CFG
  | MEM_OVF_BASE
  | MEM_BIAS_CMD
  | MEM_BIAS_STATUS
  | MEM_GFAULT_ADDR
  | MEM_GFAULT_INFO
  | MEM_REGION_LO
  | MEM_REGION_HI
  | QDB_TAIL
  | QDB_HEAD
  | QDB_CTX
  | QDB_ERR
  | QDB_ERR_ADDR
  | QDB_EVT_SEL
  | QDB_EVT_VAL
  | QDB_CFG
  | QDB_PART_SHARE
  | QDB_STATUS
  | QDB_QBASE
  | QDB_QCFG
  | LNK_CFG
  | LNK_STATUS
  | LNK_CNT_CRC
  | LNK_CNT_UNCORR
  | LNK_CNT_REPLAY
  | LNK_CNT_DUP
  | LNK_CNT_PMSG_DUP
  | LNK_CNT_PMSG_STALE
  | LNK_CNT_PROTO
  | LNK_CNT_LATE
  | LNK_LANE
  | LNK_LANE_ERR
  | LNK_CIRC
  | LNK_CIRC_SEQ
  | PTH_CFG
  | PTH_STATUS
  | LAT_PORT
  | LAT_PLANE
  | LAT_HINGE
  | LAT_CIRC_A
  | LAT_CIRC_B
  | PTH_DISC_CFG
  | PTH_PLAN_STATUS
  | PTH_RT_STATUS
  | PTH_DISC_PORT
  | HCE_CFG
  | HCE_RAMP_CFG
  | HCE_PILOT_CFG
  | HCE_STATUS
  | HCE_SP
  | HCE_CNT_OVR
  | HCE_CNT_FB
  | HCE_CNT_LATE
  | HCE_GRP
  | HCE_XT
  | HCE_COEF_A
  | HCE_COEF_B
  | HCE_LOOP_CTL
  | HCE_LOOP_STAT
  | HCE_LOOP_CAL
  | TIM_CFG
  | TIM_SERVO
  | TIM_STATUS
  | TIM_NOW
  | TIM_SNAP_RAW
  | TIM_SNAP_STEP
  | TIM_SET
  | TIM_SET_CTL
  | TIM_LAST_STEP
  | TIM_LAST_STEP_AT
  | TIM_PPS
  | TIM_PORT
  | TIM_TRIG_TGT
  | TIM_TRIG_CTL
  | TIM_CIRC_DLY
  | ORQ_REQ
  | ORQ_RSP
  | ORQ_DOORBELL
  | ORQ_MB_STATUS
  | ORQ_MB_CFG
  | ORQ_ASYNC_DONE
  | ORQ_CFG_STATUS
  | ORQ_HB_STATUS
  | RST_CFG
  | RST_MIRROR_CFG
  | RST_STATUS
  | RST_LAST
  | RST_LAST_TIME
  | RST_DUMP
  | RST_MIRROR_STATUS
  | RST_CNT_CTX
  | RST_CNT_ENG
  | RST_CNT_PART
  | RST_CNT_CHIP
  | UPD_CTL
  | UPD_STATE
  | UPD_SLOT
  | UPD_XFER
  | UPD_GROUP
  | UPD_GROUP_T
  | SEC_STATUS
  | SEC_POLICY
  | SEC_FPR
  | EVR_CFG
  | EVR_STATUS
  | EVR_RING
  | EVR_RD_CTL
  | EVR_RD_DATA
  | EVR_CNT_LOST
  | EVR_CNT_COAL
  | AGE_STATUS
  | AGE_SEL
  | AGE_DATA
deriving DecidableEq, Repr

/-- A named field: bits `hi` to `lo` of a register. -/
structure Fld where
  reg    : Reg
  hi     : Nat
  lo     : Nat
  access : Access
  reset  : Nat
  nv     : Bool
deriving DecidableEq, Repr

/-- A register's line of the spec: instance `i` lies at `base + i * stride`. -/
structure RegDesc where
  base   : Nat
  stride : Nat
  count  : Nat
  width  : Nat
  domain : Domain
  cls    : RegClass
deriving DecidableEq, Repr

namespace F

def ID_DEVICE.DEV_CODE : Fld := ⟨.ID_DEVICE, 15, 0, .ro, 23588, false⟩
def ID_DEVICE.SI_REV : Fld := ⟨.ID_DEVICE, 19, 16, .ro, 0, false⟩
def ID_DEVICE.MOD_REV : Fld := ⟨.ID_DEVICE, 23, 20, .ro, 0, false⟩
def ID_CAP.CORES_LIVE : Fld := ⟨.ID_CAP, 8, 0, .ro, 0, false⟩
def ID_CAP.Q_LIVE : Fld := ⟨.ID_CAP, 15, 12, .ro, 15, false⟩
def ID_CAP.PART_MODE : Fld := ⟨.ID_CAP, 17, 16, .ro, 0, false⟩
def ID_CAP.DRAM_GIB : Fld := ⟨.ID_CAP, 47, 32, .ro, 1152, false⟩
def ID_NODE.NODE_ID : Fld := ⟨.ID_NODE, 14, 0, .ro, 0, false⟩
def ID_NODE.NODE_VALID : Fld := ⟨.ID_NODE, 15, 15, .ro, 0, false⟩
def ID_PART_CFG.PART_MODE : Fld := ⟨.ID_PART_CFG, 1, 0, .rw, 0, false⟩
def ID_PWR_CFG.DORMANT_EN : Fld := ⟨.ID_PWR_CFG, 0, 0, .rw, 0, false⟩
def ID_PWR_STATE.MOD_STATE : Fld := ⟨.ID_PWR_STATE, 1, 0, .ro, 1, false⟩
def ID_PWR_STATE.Q_GATED : Fld := ⟨.ID_PWR_STATE, 7, 4, .ro, 15, false⟩
def ID_PWR_STATE.Q_SRAM_OFF : Fld := ⟨.ID_PWR_STATE, 11, 8, .ro, 0, false⟩
def ID_PWR_STATE.REF_SRC : Fld := ⟨.ID_PWR_STATE, 12, 12, .ro, 0, false⟩
def CORE_ID.CORE_NUM : Fld := ⟨.CORE_ID, 8, 0, .ro, 0, false⟩
def CORE_ID.QUARTER : Fld := ⟨.CORE_ID, 10, 9, .ro, 0, false⟩
def CORE_ID.ROW : Fld := ⟨.CORE_ID, 14, 11, .ro, 0, false⟩
def CORE_ID.COL : Fld := ⟨.CORE_ID, 17, 15, .ro, 0, false⟩
def CORE_STATUS.STATE : Fld := ⟨.CORE_STATUS, 2, 0, .ro, 0, false⟩
def CORE_STATUS.CTX_ID : Fld := ⟨.CORE_STATUS, 15, 4, .ro, 0, false⟩
def CORE_STATUS.CTX_VALID : Fld := ⟨.CORE_STATUS, 16, 16, .ro, 0, false⟩
def CORE_STATUS.THR_LIVE : Fld := ⟨.CORE_STATUS, 23, 17, .ro, 0, false⟩
def CORE_STATUS.SB_USED : Fld := ⟨.CORE_STATUS, 40, 32, .ro, 0, false⟩
def CORE_STATUS.MQ_DEPTH : Fld := ⟨.CORE_STATUS, 43, 41, .ro, 0, false⟩
def CORE_STATUS.RETAIN_USED : Fld := ⟨.CORE_STATUS, 47, 44, .ro, 0, false⟩
def CORE_STATUS.BANK_STALE : Fld := ⟨.CORE_STATUS, 49, 48, .ro, 0, false⟩
def CORE_FAULT.FCODE : Fld := ⟨.CORE_FAULT, 7, 0, .ro, 0, false⟩
def CORE_FAULT.THREAD : Fld := ⟨.CORE_FAULT, 13, 8, .ro, 0, false⟩
def CORE_FAULT.MULTI : Fld := ⟨.CORE_FAULT, 14, 14, .w1c, 0, false⟩
def CORE_FAULT.OVF : Fld := ⟨.CORE_FAULT, 15, 15, .w1c, 0, false⟩
def CORE_FAULT.VALID : Fld := ⟨.CORE_FAULT, 16, 16, .w1c, 0, false⟩
def CORE_FAULT.CTX_ID : Fld := ⟨.CORE_FAULT, 28, 17, .ro, 0, false⟩
def CORE_FAULT.PC_OFFSET : Fld := ⟨.CORE_FAULT, 63, 32, .ro, 0, false⟩
def CORE_FAULT_ADDR.ADDR : Fld := ⟨.CORE_FAULT_ADDR, 63, 0, .ro, 0, false⟩
def CORE_FAULT_ATTR.QUEUE : Fld := ⟨.CORE_FAULT_ATTR, 2, 0, .ro, 0, false⟩
def CORE_FAULT_ATTR.CMD_INDEX : Fld := ⟨.CORE_FAULT_ATTR, 18, 3, .ro, 0, false⟩
def CORE_CFG.W_MATRIX : Fld := ⟨.CORE_CFG, 3, 0, .rw, 8, false⟩
def CORE_CFG.W_THREAD : Fld := ⟨.CORE_CFG, 7, 4, .rw, 4, false⟩
def CORE_CFG.W_EXT : Fld := ⟨.CORE_CFG, 11, 8, .rw, 4, false⟩
def CORE_CFG.RC_EN : Fld := ⟨.CORE_CFG, 12, 12, .rw, 1, false⟩
def CORE_GATE_CFG.CG_IDLE : Fld := ⟨.CORE_GATE_CFG, 11, 0, .rw, 256, false⟩
def CORE_GATE_CFG.PG_IDLE : Fld := ⟨.CORE_GATE_CFG, 27, 12, .rw, 1000, false⟩
def CORE_THR_LIVE.LIVE : Fld := ⟨.CORE_THR_LIVE, 63, 0, .ro, 0, false⟩
def CORE_THR_SYNC.SYNC : Fld := ⟨.CORE_THR_SYNC, 63, 0, .ro, 0, false⟩
def CORE_PERF_CYCLES.COUNT : Fld := ⟨.CORE_PERF_CYCLES, 63, 0, .rw, 0, false⟩
def CORE_PERF_ISSUE.COUNT : Fld := ⟨.CORE_PERF_ISSUE, 63, 0, .rw, 0, false⟩
def CORE_PERF_MBUSY.COUNT : Fld := ⟨.CORE_PERF_MBUSY, 63, 0, .rw, 0, false⟩
def CORE_PERF_SB_FULL.COUNT : Fld := ⟨.CORE_PERF_SB_FULL, 63, 0, .rw, 0, false⟩
def CORE_PERF_RC_HIT.COUNT : Fld := ⟨.CORE_PERF_RC_HIT, 63, 0, .rw, 0, false⟩
def CORE_PERF_RC_MISS.COUNT : Fld := ⟨.CORE_PERF_RC_MISS, 63, 0, .rw, 0, false⟩
def CORE_PERF_CS_CONFLICT.COUNT : Fld := ⟨.CORE_PERF_CS_CONFLICT, 63, 0, .rw, 0, false⟩
def CHK_CFG.Q_MIN : Fld := ⟨.CHK_CFG, 6, 0, .rw, 64, false⟩
def CHK_CFG.ARB_WAIT : Fld := ⟨.CHK_CFG, 15, 8, .rw, 10, false⟩
def CHK_CFG.COMMIT : Fld := ⟨.CHK_CFG, 31, 31, .w1s, 0, false⟩
def CHK_ST_CFG.PERIOD_S : Fld := ⟨.CHK_ST_CFG, 15, 0, .rw, 3600, false⟩
def CHK_STATUS.RETIRED : Fld := ⟨.CHK_STATUS, 8, 0, .ro, 0, false⟩
def CHK_STATUS.PENDING : Fld := ⟨.CHK_STATUS, 17, 9, .ro, 0, false⟩
def CHK_STATUS.IN_ARB : Fld := ⟨.CHK_STATUS, 26, 18, .ro, 0, false⟩
def CHK_CNT_FAIL.COUNT : Fld := ⟨.CHK_CNT_FAIL, 63, 0, .ro, 0, false⟩
def CHK_CNT_REPLAY.COUNT : Fld := ⟨.CHK_CNT_REPLAY, 63, 0, .ro, 0, false⟩
def CHK_CNT_ARB.COUNT : Fld := ⟨.CHK_CNT_ARB, 63, 0, .ro, 0, false⟩
def CHK_CNT_UNRES.COUNT : Fld := ⟨.CHK_CNT_UNRES, 63, 0, .ro, 0, false⟩
def CHK_CNT_UNCHK.COUNT : Fld := ⟨.CHK_CNT_UNCHK, 63, 0, .ro, 0, false⟩
def CHK_CNT_RESID.COUNT : Fld := ⟨.CHK_CNT_RESID, 63, 0, .ro, 0, false⟩
def CHK_CNT_PAR.COUNT : Fld := ⟨.CHK_CNT_PAR, 63, 0, .ro, 0, false⟩
def CHK_LAST.CORE : Fld := ⟨.CHK_LAST, 8, 0, .ro, 0, false⟩
def CHK_LAST.UNIT : Fld := ⟨.CHK_LAST, 11, 9, .ro, 0, false⟩
def CHK_LAST.OUTCOME : Fld := ⟨.CHK_LAST, 15, 12, .ro, 0, false⟩
def CHK_LAST.EUNIT : Fld := ⟨.CHK_LAST, 21, 16, .ro, 0, false⟩
def CHK_LAST.INJECTED : Fld := ⟨.CHK_LAST, 22, 22, .ro, 0, false⟩
def CHK_LAST.DIGEST_O : Fld := ⟨.CHK_LAST, 63, 32, .ro, 0, false⟩
def CHK_LAST_CTX.CTX_ID : Fld := ⟨.CHK_LAST_CTX, 11, 0, .ro, 0, false⟩
def CHK_LAST_CTX.QUEUE : Fld := ⟨.CHK_LAST_CTX, 14, 12, .ro, 0, false⟩
def CHK_LAST_CTX.CMD_INDEX : Fld := ⟨.CHK_LAST_CTX, 30, 15, .ro, 0, false⟩
def CHK_LAST_CTX.VALID : Fld := ⟨.CHK_LAST_CTX, 31, 31, .w1c, 0, false⟩
def CHK_INJECT.CORE : Fld := ⟨.CHK_INJECT, 8, 0, .rw, 0, false⟩
def CHK_INJECT.KIND : Fld := ⟨.CHK_INJECT, 10, 9, .rw, 0, false⟩
def CHK_INJECT.ARM : Fld := ⟨.CHK_INJECT, 31, 31, .w1s, 0, false⟩
def CHK_CORE.MXA_ST : Fld := ⟨.CHK_CORE, 1, 0, .ro, 0, false⟩
def CHK_CORE.CKL_ST : Fld := ⟨.CHK_CORE, 3, 2, .ro, 0, false⟩
def CHK_CORE.VEC_ST : Fld := ⟨.CHK_CORE, 5, 4, .ro, 0, false⟩
def CHK_CORE.SFU_ST : Fld := ⟨.CHK_CORE, 7, 6, .ro, 0, false⟩
def CHK_CORE.RET : Fld := ⟨.CHK_CORE, 9, 8, .ro, 0, false⟩
def CHK_CORE.MXA_N : Fld := ⟨.CHK_CORE, 19, 16, .ro, 0, false⟩
def CHK_CORE.CKL_N : Fld := ⟨.CHK_CORE, 23, 20, .ro, 0, false⟩
def CHK_CORE.VEC_N : Fld := ⟨.CHK_CORE, 27, 24, .ro, 0, false⟩
def CHK_CORE.SFU_N : Fld := ⟨.CHK_CORE, 31, 28, .ro, 0, false⟩
def CHK_CORE.LAST_H : Fld := ⟨.CHK_CORE, 63, 32, .ro, 0, false⟩
def CHK_EUNIT.ST : Fld := ⟨.CHK_EUNIT, 1, 0, .ro, 0, false⟩
def CHK_EUNIT.OUT : Fld := ⟨.CHK_EUNIT, 2, 2, .ro, 0, false⟩
def CHK_EUNIT.N : Fld := ⟨.CHK_EUNIT, 19, 16, .ro, 0, false⟩
def CHK_EUNIT.LAST_H : Fld := ⟨.CHK_EUNIT, 63, 32, .ro, 0, false⟩
def MEM_CFG.REMOTE_TO : Fld := ⟨.MEM_CFG, 7, 0, .rw, 10, false⟩
def MEM_CFG.SCRUB_EN : Fld := ⟨.MEM_CFG, 8, 8, .rw, 1, false⟩
def MEM_CFG.SCRUB_H : Fld := ⟨.MEM_CFG, 23, 16, .rw, 24, false⟩
def MEM_STATUS.DRAM_OK : Fld := ⟨.MEM_STATUS, 0, 0, .ro, 0, false⟩
def MEM_STATUS.KEPT : Fld := ⟨.MEM_STATUS, 1, 1, .ro, 0, false⟩
def MEM_STATUS.LAST_TRAIN : Fld := ⟨.MEM_STATUS, 3, 2, .ro, 0, false⟩
def MEM_STATUS.DEV_FAIL : Fld := ⟨.MEM_STATUS, 19, 4, .ro, 0, false⟩
def MEM_STATUS.TRAIN_MS : Fld := ⟨.MEM_STATUS, 47, 32, .ro, 0, false⟩
def MEM_ECC_CNT_CORR.COUNT : Fld := ⟨.MEM_ECC_CNT_CORR, 63, 0, .ro, 0, false⟩
def MEM_ECC_CNT_UNCORR.COUNT : Fld := ⟨.MEM_ECC_CNT_UNCORR, 63, 0, .ro, 0, false⟩
def MEM_REGION_COMMIT.GO : Fld := ⟨.MEM_REGION_COMMIT, 0, 0, .w1s, 0, false⟩
def MEM_REGION_COMMIT.BUSY : Fld := ⟨.MEM_REGION_COMMIT, 1, 1, .ro, 0, false⟩
def MEM_REGION_COMMIT.STATUS : Fld := ⟨.MEM_REGION_COMMIT, 31, 16, .ro, 0, false⟩
def MEM_MIRROR_CFG.BUDDY : Fld := ⟨.MEM_MIRROR_CFG, 14, 0, .rw, 0, false⟩
def MEM_MIRROR_CFG.EN : Fld := ⟨.MEM_MIRROR_CFG, 15, 15, .rw, 0, false⟩
def MEM_MIRROR_STATUS.STATE : Fld := ⟨.MEM_MIRROR_STATUS, 1, 0, .ro, 0, false⟩
def MEM_MIRROR_STATUS.RESYNC_PCT : Fld := ⟨.MEM_MIRROR_STATUS, 14, 8, .ro, 0, false⟩
def MEM_OVF_CFG.PARTNER : Fld := ⟨.MEM_OVF_CFG, 14, 0, .rw, 0, false⟩
def MEM_OVF_CFG.EN : Fld := ⟨.MEM_OVF_CFG, 15, 15, .rw, 0, false⟩
def MEM_OVF_CFG.REGION : Fld := ⟨.MEM_OVF_CFG, 21, 16, .rw, 0, false⟩
def MEM_OVF_BASE.TABLE : Fld := ⟨.MEM_OVF_BASE, 41, 3, .rw, 0, false⟩
def MEM_BIAS_CMD.START : Fld := ⟨.MEM_BIAS_CMD, 19, 0, .rw, 0, false⟩
def MEM_BIAS_CMD.COUNT : Fld := ⟨.MEM_BIAS_CMD, 39, 20, .rw, 0, false⟩
def MEM_BIAS_CMD.TARGET : Fld := ⟨.MEM_BIAS_CMD, 40, 40, .rw, 0, false⟩
def MEM_BIAS_CMD.GO : Fld := ⟨.MEM_BIAS_CMD, 63, 63, .w1s, 0, false⟩
def MEM_BIAS_STATUS.BUSY : Fld := ⟨.MEM_BIAS_STATUS, 0, 0, .ro, 0, false⟩
def MEM_BIAS_STATUS.STATUS : Fld := ⟨.MEM_BIAS_STATUS, 31, 16, .ro, 0, false⟩
def MEM_GFAULT_ADDR.ADDR : Fld := ⟨.MEM_GFAULT_ADDR, 63, 0, .ro, 0, false⟩
def MEM_GFAULT_INFO.CAUSE : Fld := ⟨.MEM_GFAULT_INFO, 7, 0, .ro, 0, false⟩
def MEM_GFAULT_INFO.CTX_ID : Fld := ⟨.MEM_GFAULT_INFO, 19, 8, .ro, 0, false⟩
def MEM_GFAULT_INFO.QUEUE : Fld := ⟨.MEM_GFAULT_INFO, 22, 20, .ro, 0, false⟩
def MEM_GFAULT_INFO.CMD_INDEX : Fld := ⟨.MEM_GFAULT_INFO, 38, 23, .ro, 0, false⟩
def MEM_GFAULT_INFO.CORE : Fld := ⟨.MEM_GFAULT_INFO, 47, 39, .ro, 0, false⟩
def MEM_GFAULT_INFO.SRC : Fld := ⟨.MEM_GFAULT_INFO, 50, 48, .ro, 0, false⟩
def MEM_GFAULT_INFO.OVF : Fld := ⟨.MEM_GFAULT_INFO, 51, 51, .w1c, 0, false⟩
def MEM_GFAULT_INFO.VALID : Fld := ⟨.MEM_GFAULT_INFO, 63, 63, .w1c, 0, false⟩
def MEM_REGION_LO.VALID : Fld := ⟨.MEM_REGION_LO, 0, 0, .rw, 0, false⟩
def MEM_REGION_LO.R : Fld := ⟨.MEM_REGION_LO, 1, 1, .rw, 0, false⟩
def MEM_REGION_LO.W : Fld := ⟨.MEM_REGION_LO, 2, 2, .rw, 0, false⟩
def MEM_REGION_LO.A : Fld := ⟨.MEM_REGION_LO, 3, 3, .rw, 0, false⟩
def MEM_REGION_LO.REMOTE : Fld := ⟨.MEM_REGION_LO, 4, 4, .rw, 0, false⟩
def MEM_REGION_LO.BCAST : Fld := ⟨.MEM_REGION_LO, 5, 5, .rw, 0, false⟩
def MEM_REGION_LO.SEALED : Fld := ⟨.MEM_REGION_LO, 6, 6, .rw, 0, false⟩
def MEM_REGION_LO.MIRROR : Fld := ⟨.MEM_REGION_LO, 7, 7, .rw, 0, false⟩
def MEM_REGION_LO.MIRROR_TGT : Fld := ⟨.MEM_REGION_LO, 8, 8, .rw, 0, false⟩
def MEM_REGION_LO.OVF : Fld := ⟨.MEM_REGION_LO, 9, 9, .rw, 0, false⟩
def MEM_REGION_LO.JOB_ID : Fld := ⟨.MEM_REGION_LO, 31, 16, .rw, 0, false⟩
def MEM_REGION_LO.BASE : Fld := ⟨.MEM_REGION_LO, 52, 32, .rw, 0, false⟩
def MEM_REGION_HI.SIZE : Fld := ⟨.MEM_REGION_HI, 20, 0, .rw, 0, false⟩
def QDB_TAIL.TAIL : Fld := ⟨.QDB_TAIL, 31, 0, .rw, 0, false⟩
def QDB_HEAD.HEAD : Fld := ⟨.QDB_HEAD, 31, 0, .ro, 0, false⟩
def QDB_CTX.CTX_ID : Fld := ⟨.QDB_CTX, 11, 0, .ro, 0, false⟩
def QDB_CTX.PART : Fld := ⟨.QDB_CTX, 13, 12, .ro, 0, false⟩
def QDB_CTX.STATE : Fld := ⟨.QDB_CTX, 15, 14, .ro, 0, false⟩
def QDB_CTX.JOB_ID : Fld := ⟨.QDB_CTX, 31, 16, .ro, 0, false⟩
def QDB_CTX.Q_EN : Fld := ⟨.QDB_CTX, 39, 32, .ro, 0, false⟩
def QDB_ERR.CODE : Fld := ⟨.QDB_ERR, 7, 0, .ro, 0, false⟩
def QDB_ERR.ENGINE : Fld := ⟨.QDB_ERR, 10, 8, .ro, 0, false⟩
def QDB_ERR.QUEUE : Fld := ⟨.QDB_ERR, 13, 11, .ro, 0, false⟩
def QDB_ERR.CMD_INDEX : Fld := ⟨.QDB_ERR, 29, 14, .ro, 0, false⟩
def QDB_ERR.CAUSE : Fld := ⟨.QDB_ERR, 37, 30, .ro, 0, false⟩
def QDB_ERR.OPCODE : Fld := ⟨.QDB_ERR, 45, 38, .ro, 0, false⟩
def QDB_ERR.OVF : Fld := ⟨.QDB_ERR, 62, 62, .w1c, 0, false⟩
def QDB_ERR.VALID : Fld := ⟨.QDB_ERR, 63, 63, .w1c, 0, false⟩
def QDB_ERR_ADDR.ADDR : Fld := ⟨.QDB_ERR_ADDR, 63, 0, .ro, 0, false⟩
def QDB_EVT_SEL.SLOT : Fld := ⟨.QDB_EVT_SEL, 7, 0, .rw, 0, false⟩
def QDB_EVT_SEL.EVENT : Fld := ⟨.QDB_EVT_SEL, 13, 8, .rw, 0, false⟩
def QDB_EVT_VAL.VALUE : Fld := ⟨.QDB_EVT_VAL, 63, 0, .rw, 0, false⟩
def QDB_CFG.COLL_TO : Fld := ⟨.QDB_CFG, 7, 0, .rw, 200, false⟩
def QDB_CFG.ERR_VEC : Fld := ⟨.QDB_CFG, 13, 8, .rw, 0, false⟩
def QDB_PART_SHARE.W0 : Fld := ⟨.QDB_PART_SHARE, 7, 0, .rw, 64, false⟩
def QDB_PART_SHARE.W1 : Fld := ⟨.QDB_PART_SHARE, 15, 8, .rw, 64, false⟩
def QDB_PART_SHARE.W2 : Fld := ⟨.QDB_PART_SHARE, 23, 16, .rw, 64, false⟩
def QDB_PART_SHARE.W3 : Fld := ⟨.QDB_PART_SHARE, 31, 24, .rw, 64, false⟩
def QDB_STATUS.RESIDENT : Fld := ⟨.QDB_STATUS, 8, 0, .ro, 0, false⟩
def QDB_STATUS.ALU_LIVE : Fld := ⟨.QDB_STATUS, 14, 9, .ro, 0, false⟩
def QDB_QBASE.BASE : Fld := ⟨.QDB_QBASE, 63, 12, .rw, 0, false⟩
def QDB_QCFG.ENGINE : Fld := ⟨.QDB_QCFG, 2, 0, .rw, 0, false⟩
def QDB_QCFG.LOG2_DEPTH : Fld := ⟨.QDB_QCFG, 7, 3, .rw, 6, false⟩
def QDB_QCFG.VECTOR : Fld := ⟨.QDB_QCFG, 13, 8, .rw, 0, false⟩
def QDB_QCFG.PRIO : Fld := ⟨.QDB_QCFG, 15, 14, .rw, 0, false⟩
def QDB_QCFG.EN : Fld := ⟨.QDB_QCFG, 16, 16, .rw, 0, false⟩
def QDB_QCFG.CFG_ERR : Fld := ⟨.QDB_QCFG, 17, 17, .ro, 0, false⟩
def QDB_QCFG.STATE : Fld := ⟨.QDB_QCFG, 19, 18, .ro, 0, false⟩
def LNK_CFG.ACK_TO : Fld := ⟨.LNK_CFG, 7, 0, .rw, 20, false⟩
def LNK_CFG.REPLAY_MAX : Fld := ⟨.LNK_CFG, 11, 8, .rw, 8, false⟩
def LNK_CFG.PMSG_AGE : Fld := ⟨.LNK_CFG, 23, 16, .rw, 100, false⟩
def LNK_STATUS.LANES_UP : Fld := ⟨.LNK_STATUS, 7, 0, .ro, 0, false⟩
def LNK_STATUS.W0_UP : Fld := ⟨.LNK_STATUS, 12, 8, .ro, 0, false⟩
def LNK_STATUS.CIRC_UP : Fld := ⟨.LNK_STATUS, 22, 13, .ro, 0, false⟩
def LNK_STATUS.INC : Fld := ⟨.LNK_STATUS, 30, 23, .ro, 0, false⟩
def LNK_CNT_CRC.COUNT : Fld := ⟨.LNK_CNT_CRC, 63, 0, .ro, 0, false⟩
def LNK_CNT_UNCORR.COUNT : Fld := ⟨.LNK_CNT_UNCORR, 63, 0, .ro, 0, false⟩
def LNK_CNT_REPLAY.COUNT : Fld := ⟨.LNK_CNT_REPLAY, 63, 0, .ro, 0, false⟩
def LNK_CNT_DUP.COUNT : Fld := ⟨.LNK_CNT_DUP, 63, 0, .ro, 0, false⟩
def LNK_CNT_PMSG_DUP.COUNT : Fld := ⟨.LNK_CNT_PMSG_DUP, 63, 0, .ro, 0, false⟩
def LNK_CNT_PMSG_STALE.COUNT : Fld := ⟨.LNK_CNT_PMSG_STALE, 63, 0, .ro, 0, false⟩
def LNK_CNT_PROTO.COUNT : Fld := ⟨.LNK_CNT_PROTO, 63, 0, .ro, 0, false⟩
def LNK_CNT_LATE.COUNT : Fld := ⟨.LNK_CNT_LATE, 63, 0, .ro, 0, false⟩
def LNK_LANE.STATE : Fld := ⟨.LNK_LANE, 3, 0, .ro, 0, false⟩
def LNK_LANE.WL : Fld := ⟨.LNK_LANE, 7, 4, .ro, 0, false⟩
def LNK_LANE.PORT : Fld := ⟨.LNK_LANE, 12, 8, .ro, 0, false⟩
def LNK_LANE.CIRC : Fld := ⟨.LNK_LANE, 21, 13, .ro, 0, false⟩
def LNK_LANE.CIRC_VALID : Fld := ⟨.LNK_LANE, 22, 22, .ro, 0, false⟩
def LNK_LANE.LANE_I : Fld := ⟨.LNK_LANE, 26, 23, .ro, 0, false⟩
def LNK_LANE.FAILS : Fld := ⟨.LNK_LANE, 47, 32, .ro, 0, false⟩
def LNK_LANE_ERR.CORR_SYM : Fld := ⟨.LNK_LANE_ERR, 31, 0, .ro, 0, false⟩
def LNK_LANE_ERR.UNCORR : Fld := ⟨.LNK_LANE_ERR, 47, 32, .ro, 0, false⟩
def LNK_LANE_ERR.CRC_ERR : Fld := ⟨.LNK_LANE_ERR, 63, 48, .ro, 0, false⟩
def LNK_CIRC.STATE : Fld := ⟨.LNK_CIRC, 2, 0, .ro, 0, false⟩
def LNK_CIRC.LANES : Fld := ⟨.LNK_CIRC, 6, 3, .ro, 0, false⟩
def LNK_CIRC.FAR_INC_VALID : Fld := ⟨.LNK_CIRC, 7, 7, .ro, 0, false⟩
def LNK_CIRC.FAR_NODE : Fld := ⟨.LNK_CIRC, 22, 8, .ro, 0, false⟩
def LNK_CIRC.FAR_INC : Fld := ⟨.LNK_CIRC, 31, 24, .ro, 0, false⟩
def LNK_CIRC.MOVES : Fld := ⟨.LNK_CIRC, 47, 32, .ro, 0, false⟩
def LNK_CIRC.RESYNCS : Fld := ⟨.LNK_CIRC, 63, 48, .ro, 0, false⟩
def LNK_CIRC_SEQ.TX_NEXT : Fld := ⟨.LNK_CIRC_SEQ, 23, 0, .ro, 0, false⟩
def LNK_CIRC_SEQ.RX_EXPECT : Fld := ⟨.LNK_CIRC_SEQ, 55, 32, .ro, 0, false⟩
def PTH_CFG.HOP_TO : Fld := ⟨.PTH_CFG, 7, 0, .rw, 10, false⟩
def PTH_CFG.SETUP_TO : Fld := ⟨.PTH_CFG, 15, 8, .rw, 10, false⟩
def PTH_CFG.RETRY : Fld := ⟨.PTH_CFG, 23, 16, .rw, 10, false⟩
def PTH_CFG.DOWN_HOLD : Fld := ⟨.PTH_CFG, 31, 24, .rw, 10, false⟩
def PTH_CFG.RECABLE_LEAD : Fld := ⟨.PTH_CFG, 35, 32, .rw, 4, false⟩
def PTH_STATUS.USED : Fld := ⟨.PTH_STATUS, 9, 0, .ro, 0, false⟩
def PTH_STATUS.THRU : Fld := ⟨.PTH_STATUS, 19, 10, .ro, 0, false⟩
def PTH_STATUS.ACTIVE : Fld := ⟨.PTH_STATUS, 24, 20, .ro, 0, false⟩
def PTH_STATUS.NO_REF : Fld := ⟨.PTH_STATUS, 25, 25, .ro, 0, false⟩
def PTH_STATUS.CORE_UP : Fld := ⟨.PTH_STATUS, 26, 26, .ro, 0, false⟩
def LAT_PORT.SPAN_LOSS : Fld := ⟨.LAT_PORT, 7, 0, .ro, 255, false⟩
def LAT_PORT.GAIN : Fld := ⟨.LAT_PORT, 15, 8, .ro, 60, false⟩
def LAT_PORT.LOSSY : Fld := ⟨.LAT_PORT, 16, 16, .ro, 0, false⟩
def LAT_PORT.W0_UP : Fld := ⟨.LAT_PORT, 17, 17, .ro, 0, false⟩
def LAT_PORT.QUAR : Fld := ⟨.LAT_PORT, 18, 18, .ro, 0, false⟩
def LAT_PORT.PREF : Fld := ⟨.LAT_PORT, 31, 24, .ro, 128, false⟩
def LAT_PORT.IN_USED : Fld := ⟨.LAT_PORT, 35, 32, .ro, 0, false⟩
def LAT_PORT.OUT_USED : Fld := ⟨.LAT_PORT, 39, 36, .ro, 0, false⟩
def LAT_PLANE.LIT : Fld := ⟨.LAT_PLANE, 5, 0, .ro, 0, false⟩
def LAT_PLANE.HELD : Fld := ⟨.LAT_PLANE, 11, 6, .ro, 0, false⟩
def LAT_PLANE.POS_OUT : Fld := ⟨.LAT_PLANE, 23, 16, .ro, 0, false⟩
def LAT_PLANE.SPARES_USED : Fld := ⟨.LAT_PLANE, 28, 24, .ro, 0, false⟩
def LAT_PLANE.DROP_FREE : Fld := ⟨.LAT_PLANE, 43, 32, .ro, 4095, false⟩
def LAT_HINGE.OUT : Fld := ⟨.LAT_HINGE, 19, 0, .ro, 0, true⟩
def LAT_HINGE.SUB18 : Fld := ⟨.LAT_HINGE, 24, 20, .ro, 31, false⟩
def LAT_HINGE.SUB19 : Fld := ⟨.LAT_HINGE, 29, 25, .ro, 31, false⟩
def LAT_HINGE.DEGRADED : Fld := ⟨.LAT_HINGE, 30, 30, .ro, 0, false⟩
def LAT_CIRC_A.TYPE : Fld := ⟨.LAT_CIRC_A, 2, 0, .ro, 0, false⟩
def LAT_CIRC_A.STATE : Fld := ⟨.LAT_CIRC_A, 6, 3, .ro, 0, false⟩
def LAT_CIRC_A.NODE : Fld := ⟨.LAT_CIRC_A, 21, 7, .ro, 0, false⟩
def LAT_CIRC_A.ORIG_IDX : Fld := ⟨.LAT_CIRC_A, 30, 22, .ro, 0, false⟩
def LAT_CIRC_A.PLANES : Fld := ⟨.LAT_CIRC_A, 47, 32, .ro, 0, false⟩
def LAT_CIRC_A.PORT_A : Fld := ⟨.LAT_CIRC_A, 52, 48, .ro, 0, false⟩
def LAT_CIRC_A.PORT_B : Fld := ⟨.LAT_CIRC_A, 57, 53, .ro, 0, false⟩
def LAT_CIRC_A.HOP : Fld := ⟨.LAT_CIRC_A, 60, 58, .ro, 0, false⟩
def LAT_CIRC_A.JOB_BOUND : Fld := ⟨.LAT_CIRC_A, 61, 61, .ro, 0, false⟩
def LAT_CIRC_A.BK : Fld := ⟨.LAT_CIRC_A, 62, 62, .ro, 0, false⟩
def LAT_CIRC_B.OWNER_JOB : Fld := ⟨.LAT_CIRC_B, 15, 0, .ro, 0, false⟩
def LAT_CIRC_B.FAR_INDEX : Fld := ⟨.LAT_CIRC_B, 24, 16, .ro, 0, false⟩
def LAT_CIRC_B.MARGIN : Fld := ⟨.LAT_CIRC_B, 39, 32, .ro, 0, false⟩
def LAT_CIRC_B.HOPS : Fld := ⟨.LAT_CIRC_B, 41, 40, .ro, 0, false⟩
def LAT_CIRC_B.BK_HOPS : Fld := ⟨.LAT_CIRC_B, 43, 42, .ro, 0, false⟩
def LAT_CIRC_B.MIN_LANES : Fld := ⟨.LAT_CIRC_B, 47, 44, .ro, 0, false⟩
def PTH_DISC_CFG.SWAP_ACCEPT : Fld := ⟨.PTH_DISC_CFG, 0, 0, .rw, 0, false⟩
def PTH_DISC_CFG.IDENT_CHECK : Fld := ⟨.PTH_DISC_CFG, 1, 1, .rw, 1, false⟩
def PTH_DISC_CFG.DISC_TO : Fld := ⟨.PTH_DISC_CFG, 15, 8, .rw, 20, false⟩
def PTH_PLAN_STATUS.PLAN_VER : Fld := ⟨.PTH_PLAN_STATUS, 15, 0, .ro, 0, true⟩
def PTH_PLAN_STATUS.COMMITTED : Fld := ⟨.PTH_PLAN_STATUS, 16, 16, .ro, 0, true⟩
def PTH_PLAN_STATUS.BLOCKS : Fld := ⟨.PTH_PLAN_STATUS, 24, 17, .ro, 0, true⟩
def PTH_PLAN_STATUS.PREV_HELD : Fld := ⟨.PTH_PLAN_STATUS, 25, 25, .ro, 0, true⟩
def PTH_PLAN_STATUS.PLAN_CRC : Fld := ⟨.PTH_PLAN_STATUS, 63, 32, .ro, 0, true⟩
def PTH_RT_STATUS.USED : Fld := ⟨.PTH_RT_STATUS, 12, 0, .ro, 0, false⟩
def PTH_RT_STATUS.BOUND : Fld := ⟨.PTH_RT_STATUS, 22, 13, .ro, 0, false⟩
def PTH_RT_STATUS.FULL_SEEN : Fld := ⟨.PTH_RT_STATUS, 23, 23, .w1c, 0, false⟩
def PTH_DISC_PORT.VERDICT : Fld := ⟨.PTH_DISC_PORT, 3, 0, .ro, 0, false⟩
def PTH_DISC_PORT.QUAR : Fld := ⟨.PTH_DISC_PORT, 4, 4, .ro, 0, false⟩
def PTH_DISC_PORT.SWAP_SENT : Fld := ⟨.PTH_DISC_PORT, 5, 5, .ro, 0, false⟩
def PTH_DISC_PORT.NEIGH_NODE : Fld := ⟨.PTH_DISC_PORT, 22, 8, .ro, 0, false⟩
def PTH_DISC_PORT.NEIGH_VALID : Fld := ⟨.PTH_DISC_PORT, 23, 23, .ro, 0, false⟩
def PTH_DISC_PORT.NEIGH_PORT : Fld := ⟨.PTH_DISC_PORT, 28, 24, .ro, 0, false⟩
def PTH_DISC_PORT.PLAN_NODE : Fld := ⟨.PTH_DISC_PORT, 46, 32, .ro, 0, false⟩
def PTH_DISC_PORT.PLAN_CONN : Fld := ⟨.PTH_DISC_PORT, 47, 47, .ro, 0, false⟩
def PTH_DISC_PORT.PLAN_PORT : Fld := ⟨.PTH_DISC_PORT, 52, 48, .ro, 0, false⟩
def HCE_CFG.XT_EN : Fld := ⟨.HCE_CFG, 0, 0, .rw, 1, false⟩
def HCE_CFG.RECOVER_WIN : Fld := ⟨.HCE_CFG, 15, 8, .rw, 10, false⟩
def HCE_RAMP_CFG.T_SETUP : Fld := ⟨.HCE_RAMP_CFG, 3, 0, .rw, 12, false⟩
def HCE_RAMP_CFG.T_RECABLE : Fld := ⟨.HCE_RAMP_CFG, 8, 4, .rw, 12, false⟩
def HCE_RAMP_CFG.LATE_MAX : Fld := ⟨.HCE_RAMP_CFG, 19, 12, .rw, 10, false⟩
def HCE_PILOT_CFG.LOST_DB : Fld := ⟨.HCE_PILOT_CFG, 3, 0, .rw, 12, false⟩
def HCE_PILOT_CFG.PILOT_DB : Fld := ⟨.HCE_PILOT_CFG, 7, 4, .rw, 6, false⟩
def HCE_PILOT_CFG.BAD_WIN : Fld := ⟨.HCE_PILOT_CFG, 11, 8, .rw, 4, false⟩
def HCE_STATUS.RUN : Fld := ⟨.HCE_STATUS, 0, 0, .ro, 0, false⟩
def HCE_STATUS.CLOSED : Fld := ⟨.HCE_STATUS, 12, 1, .ro, 0, false⟩
def HCE_STATUS.FB_HOLD : Fld := ⟨.HCE_STATUS, 24, 13, .ro, 0, false⟩
def HCE_STATUS.HOLD : Fld := ⟨.HCE_STATUS, 36, 25, .ro, 0, false⟩
def HCE_STATUS.GRP_HALF : Fld := ⟨.HCE_STATUS, 41, 37, .ro, 0, false⟩
def HCE_STATUS.GRP_HOLD : Fld := ⟨.HCE_STATUS, 46, 42, .ro, 0, false⟩
def HCE_STATUS.RAMPING : Fld := ⟨.HCE_STATUS, 58, 47, .ro, 0, false⟩
def HCE_SP.LOOP : Fld := ⟨.HCE_SP, 11, 0, .rw, 0, false⟩
def HCE_SP.TARGET : Fld := ⟨.HCE_SP, 12, 12, .rw, 0, false⟩
def HCE_SP.LIT : Fld := ⟨.HCE_SP, 13, 13, .rw, 0, false⟩
def HCE_SP.GO : Fld := ⟨.HCE_SP, 31, 31, .w1s, 0, false⟩
def HCE_CNT_OVR.COUNT : Fld := ⟨.HCE_CNT_OVR, 63, 0, .ro, 0, false⟩
def HCE_CNT_FB.COUNT : Fld := ⟨.HCE_CNT_FB, 63, 0, .ro, 0, false⟩
def HCE_CNT_LATE.COUNT : Fld := ⟨.HCE_CNT_LATE, 63, 0, .ro, 0, false⟩
def HCE_GRP.RATE : Fld := ⟨.HCE_GRP, 1, 0, .ro, 0, false⟩
def HCE_GRP.RESUME : Fld := ⟨.HCE_GRP, 2, 2, .w1s, 0, false⟩
def HCE_GRP.LANE : Fld := ⟨.HCE_GRP, 11, 8, .ro, 0, false⟩
def HCE_GRP.CONSEC : Fld := ⟨.HCE_GRP, 13, 12, .ro, 0, false⟩
def HCE_GRP.OVR_COUNT : Fld := ⟨.HCE_GRP, 63, 32, .ro, 0, false⟩
def HCE_XT.X : Fld := ⟨.HCE_XT, 15, 0, .rw, 0, false⟩
def HCE_XT.SX : Fld := ⟨.HCE_XT, 20, 16, .rw, 0, false⟩
def HCE_COEF_A.KP : Fld := ⟨.HCE_COEF_A, 15, 0, .rw, 0, false⟩
def HCE_COEF_A.SP : Fld := ⟨.HCE_COEF_A, 20, 16, .rw, 0, false⟩
def HCE_COEF_A.KI : Fld := ⟨.HCE_COEF_A, 47, 32, .rw, 0, false⟩
def HCE_COEF_A.SI : Fld := ⟨.HCE_COEF_A, 52, 48, .rw, 0, false⟩
def HCE_COEF_B.KF : Fld := ⟨.HCE_COEF_B, 15, 0, .rw, 0, false⟩
def HCE_COEF_B.SF : Fld := ⟨.HCE_COEF_B, 20, 16, .rw, 0, false⟩
def HCE_COEF_B.DLY : Fld := ⟨.HCE_COEF_B, 23, 21, .rw, 0, false⟩
def HCE_COEF_B.DITHER : Fld := ⟨.HCE_COEF_B, 47, 32, .rw, 0, false⟩
def HCE_LOOP_CTL.SET_SEL : Fld := ⟨.HCE_LOOP_CTL, 3, 0, .rw, 0, false⟩
def HCE_LOOP_CTL.HOLD : Fld := ⟨.HCE_LOOP_CTL, 4, 4, .rw, 0, false⟩
def HCE_LOOP_STAT.STATE : Fld := ⟨.HCE_LOOP_STAT, 2, 0, .ro, 0, false⟩
def HCE_LOOP_STAT.DEGRADED : Fld := ⟨.HCE_LOOP_STAT, 3, 3, .ro, 0, false⟩
def HCE_LOOP_STAT.STEPPED : Fld := ⟨.HCE_LOOP_STAT, 4, 4, .ro, 0, false⟩
def HCE_LOOP_STAT.TARGET : Fld := ⟨.HCE_LOOP_STAT, 5, 5, .ro, 0, false⟩
def HCE_LOOP_STAT.FB_HOLDS : Fld := ⟨.HCE_LOOP_STAT, 23, 8, .ro, 0, false⟩
def HCE_LOOP_CAL.D_A : Fld := ⟨.HCE_LOOP_CAL, 15, 0, .rw, 0, false⟩
def HCE_LOOP_CAL.D_B : Fld := ⟨.HCE_LOOP_CAL, 31, 16, .rw, 0, false⟩
def HCE_LOOP_CAL.UMIN : Fld := ⟨.HCE_LOOP_CAL, 47, 32, .rw, 0, false⟩
def HCE_LOOP_CAL.UMAX : Fld := ⟨.HCE_LOOP_CAL, 63, 48, .rw, 0, false⟩
def TIM_CFG.PRIO1 : Fld := ⟨.TIM_CFG, 7, 0, .rw, 128, false⟩
def TIM_CFG.DOMAIN : Fld := ⟨.TIM_CFG, 11, 8, .rw, 0, false⟩
def TIM_CFG.LOG_SYNC : Fld := ⟨.TIM_CFG, 14, 12, .rw, 7, false⟩
def TIM_CFG.PPS_EN : Fld := ⟨.TIM_CFG, 15, 15, .rw, 0, false⟩
def TIM_CFG.ASYM_MODE : Fld := ⟨.TIM_CFG, 17, 16, .rw, 0, false⟩
def TIM_CFG.SLEW_MAX : Fld := ⟨.TIM_CFG, 27, 20, .rw, 50, false⟩
def TIM_SERVO.KP_SH : Fld := ⟨.TIM_SERVO, 5, 0, .rw, 26, false⟩
def TIM_SERVO.KI_SH : Fld := ⟨.TIM_SERVO, 13, 8, .rw, 30, false⟩
def TIM_SERVO.FREEZE : Fld := ⟨.TIM_SERVO, 16, 16, .rw, 0, false⟩
def TIM_STATUS.ROLE : Fld := ⟨.TIM_STATUS, 1, 0, .ro, 0, false⟩
def TIM_STATUS.LOCKED : Fld := ⟨.TIM_STATUS, 2, 2, .ro, 0, false⟩
def TIM_STATUS.COARSE : Fld := ⟨.TIM_STATUS, 3, 3, .ro, 0, false⟩
def TIM_STATUS.PARENT : Fld := ⟨.TIM_STATUS, 8, 4, .ro, 0, false⟩
def TIM_STATUS.STEPS_REM : Fld := ⟨.TIM_STATUS, 16, 9, .ro, 0, false⟩
def TIM_STATUS.GM : Fld := ⟨.TIM_STATUS, 17, 17, .ro, 1, false⟩
def TIM_STATUS.EPOCH : Fld := ⟨.TIM_STATUS, 47, 32, .ro, 0, false⟩
def TIM_STATUS.OFFSET : Fld := ⟨.TIM_STATUS, 63, 48, .ro, 0, false⟩
def TIM_NOW.NT : Fld := ⟨.TIM_NOW, 63, 0, .ro, 0, false⟩
def TIM_SNAP_RAW.RAW : Fld := ⟨.TIM_SNAP_RAW, 63, 0, .ro, 0, false⟩
def TIM_SNAP_STEP.STEP : Fld := ⟨.TIM_SNAP_STEP, 47, 0, .ro, 0, false⟩
def TIM_SNAP_STEP.EPOCH : Fld := ⟨.TIM_SNAP_STEP, 63, 48, .ro, 0, false⟩
def TIM_SET.VALUE : Fld := ⟨.TIM_SET, 63, 0, .rw, 0, false⟩
def TIM_SET_CTL.GO : Fld := ⟨.TIM_SET_CTL, 0, 0, .w1s, 0, false⟩
def TIM_SET_CTL.STATUS : Fld := ⟨.TIM_SET_CTL, 31, 16, .ro, 0, false⟩
def TIM_LAST_STEP.VALUE : Fld := ⟨.TIM_LAST_STEP, 63, 0, .ro, 0, false⟩
def TIM_LAST_STEP_AT.VALUE : Fld := ⟨.TIM_LAST_STEP_AT, 63, 0, .ro, 0, false⟩
def TIM_PPS.VALUE : Fld := ⟨.TIM_PPS, 63, 0, .ro, 0, false⟩
def TIM_PORT.PTP_ROLE : Fld := ⟨.TIM_PORT, 1, 0, .ro, 0, false⟩
def TIM_PORT.MPD : Fld := ⟨.TIM_PORT, 23, 8, .ro, 0, false⟩
def TIM_PORT.ASYM : Fld := ⟨.TIM_PORT, 39, 24, .rw, 0, false⟩
def TIM_PORT.CAL_EGR : Fld := ⟨.TIM_PORT, 47, 40, .ro, 0, true⟩
def TIM_PORT.CAL_ING : Fld := ⟨.TIM_PORT, 55, 48, .ro, 0, true⟩
def TIM_TRIG_TGT.TARGET : Fld := ⟨.TIM_TRIG_TGT, 63, 0, .rw, 0, false⟩
def TIM_TRIG_CTL.ARM : Fld := ⟨.TIM_TRIG_CTL, 0, 0, .w1s, 0, false⟩
def TIM_TRIG_CTL.DISARM : Fld := ⟨.TIM_TRIG_CTL, 1, 1, .w1s, 0, false⟩
def TIM_TRIG_CTL.STEP_KIND : Fld := ⟨.TIM_TRIG_CTL, 2, 2, .rw, 0, false⟩
def TIM_TRIG_CTL.ARRIVE : Fld := ⟨.TIM_TRIG_CTL, 3, 3, .rw, 0, false⟩
def TIM_TRIG_CTL.ACTION : Fld := ⟨.TIM_TRIG_CTL, 4, 4, .rw, 0, false⟩
def TIM_TRIG_CTL.FIRED : Fld := ⟨.TIM_TRIG_CTL, 5, 5, .w1c, 0, false⟩
def TIM_TRIG_CTL.LATE : Fld := ⟨.TIM_TRIG_CTL, 6, 6, .w1c, 0, false⟩
def TIM_TRIG_CTL.SLOT : Fld := ⟨.TIM_TRIG_CTL, 15, 8, .rw, 0, false⟩
def TIM_TRIG_CTL.EVENT : Fld := ⟨.TIM_TRIG_CTL, 21, 16, .rw, 0, false⟩
def TIM_TRIG_CTL.CIRC : Fld := ⟨.TIM_TRIG_CTL, 30, 22, .rw, 0, false⟩
def TIM_CIRC_DLY.TX_NS : Fld := ⟨.TIM_CIRC_DLY, 15, 0, .ro, 0, false⟩
def TIM_CIRC_DLY.RX_NS : Fld := ⟨.TIM_CIRC_DLY, 31, 16, .ro, 0, false⟩
def ORQ_REQ.DATA : Fld := ⟨.ORQ_REQ, 31, 0, .rw, 0, false⟩
def ORQ_RSP.DATA : Fld := ⟨.ORQ_RSP, 31, 0, .ro, 0, false⟩
def ORQ_DOORBELL.GO : Fld := ⟨.ORQ_DOORBELL, 0, 0, .w1s, 0, false⟩
def ORQ_MB_STATUS.BUSY : Fld := ⟨.ORQ_MB_STATUS, 0, 0, .ro, 0, false⟩
def ORQ_MB_STATUS.DONE : Fld := ⟨.ORQ_MB_STATUS, 1, 1, .w1c, 0, false⟩
def ORQ_MB_STATUS.FW_UP : Fld := ⟨.ORQ_MB_STATUS, 2, 2, .ro, 0, false⟩
def ORQ_MB_STATUS.COUNT : Fld := ⟨.ORQ_MB_STATUS, 15, 8, .ro, 0, false⟩
def ORQ_MB_CFG.VECTOR : Fld := ⟨.ORQ_MB_CFG, 5, 0, .rw, 0, false⟩
def ORQ_MB_CFG.IRQ_EN : Fld := ⟨.ORQ_MB_CFG, 6, 6, .rw, 0, false⟩
def ORQ_MB_CFG.ASYNC_VEC : Fld := ⟨.ORQ_MB_CFG, 13, 8, .rw, 0, false⟩
def ORQ_ASYNC_DONE.DONE : Fld := ⟨.ORQ_ASYNC_DONE, 15, 0, .w1c, 0, false⟩
def ORQ_ASYNC_DONE.OUTSTANDING : Fld := ⟨.ORQ_ASYNC_DONE, 31, 16, .ro, 0, false⟩
def ORQ_CFG_STATUS.CUR_VER : Fld := ⟨.ORQ_CFG_STATUS, 15, 0, .ro, 0, true⟩
def ORQ_CFG_STATUS.PREV_VER : Fld := ⟨.ORQ_CFG_STATUS, 31, 16, .ro, 0, true⟩
def ORQ_CFG_STATUS.PREV_VALID : Fld := ⟨.ORQ_CFG_STATUS, 32, 32, .ro, 0, true⟩
def ORQ_CFG_STATUS.STAGED : Fld := ⟨.ORQ_CFG_STATUS, 42, 33, .ro, 0, false⟩
def ORQ_CFG_STATUS.COMMITTING : Fld := ⟨.ORQ_CFG_STATUS, 43, 43, .ro, 0, false⟩
def ORQ_HB_STATUS.SEQ : Fld := ⟨.ORQ_HB_STATUS, 7, 0, .ro, 0, false⟩
def ORQ_HB_STATUS.ALIVE : Fld := ⟨.ORQ_HB_STATUS, 11, 8, .ro, 0, false⟩
def ORQ_HB_STATUS.MISSED : Fld := ⟨.ORQ_HB_STATUS, 16, 12, .ro, 0, false⟩
def ORQ_HB_STATUS.COUNTING : Fld := ⟨.ORQ_HB_STATUS, 17, 17, .ro, 0, false⟩
def ORQ_HB_STATUS.HANG : Fld := ⟨.ORQ_HB_STATUS, 18, 18, .ro, 0, false⟩
def RST_CFG.CTX_WD_S : Fld := ⟨.RST_CFG, 7, 0, .rw, 0, false⟩
def RST_CFG.ENG_WD : Fld := ⟨.RST_CFG, 15, 8, .rw, 10, false⟩
def RST_CFG.PWRCYC_EN : Fld := ⟨.RST_CFG, 16, 16, .rw, 1, false⟩
def RST_CFG.IRQ_EN : Fld := ⟨.RST_CFG, 17, 17, .rw, 0, false⟩
def RST_CFG.VECTOR : Fld := ⟨.RST_CFG, 23, 18, .rw, 0, false⟩
def RST_CFG.PWRCYC_DRAIN : Fld := ⟨.RST_CFG, 31, 25, .rw, 15, false⟩
def RST_MIRROR_CFG.P1_MS : Fld := ⟨.RST_MIRROR_CFG, 7, 0, .rw, 20, false⟩
def RST_MIRROR_CFG.P2_MS : Fld := ⟨.RST_MIRROR_CFG, 15, 8, .rw, 10, false⟩
def RST_STATUS.MODE : Fld := ⟨.RST_STATUS, 2, 0, .ro, 0, false⟩
def RST_STATUS.PHASE : Fld := ⟨.RST_STATUS, 6, 3, .ro, 0, false⟩
def RST_STATUS.READY : Fld := ⟨.RST_STATUS, 7, 7, .ro, 0, false⟩
def RST_STATUS.STEP : Fld := ⟨.RST_STATUS, 10, 8, .ro, 0, false⟩
def RST_STATUS.EVACUATED : Fld := ⟨.RST_STATUS, 11, 11, .ro, 0, false⟩
def RST_STATUS.QUEUED : Fld := ⟨.RST_STATUS, 18, 12, .ro, 0, false⟩
def RST_STATUS.CHIP_RECENT : Fld := ⟨.RST_STATUS, 22, 19, .ro, 0, false⟩
def RST_STATUS.KEEPER_RESTARTS : Fld := ⟨.RST_STATUS, 47, 32, .ro, 0, false⟩
def RST_STATUS.MEM_DROPPED : Fld := ⟨.RST_STATUS, 63, 48, .ro, 0, false⟩
def RST_LAST.STEP : Fld := ⟨.RST_LAST, 2, 0, .ro, 0, false⟩
def RST_LAST.OUTCOME : Fld := ⟨.RST_LAST, 4, 3, .ro, 0, false⟩
def RST_LAST.CTX_ID : Fld := ⟨.RST_LAST, 16, 5, .ro, 0, false⟩
def RST_LAST.CTX_VALID : Fld := ⟨.RST_LAST, 17, 17, .ro, 0, false⟩
def RST_LAST.ENGINE : Fld := ⟨.RST_LAST, 20, 18, .ro, 0, false⟩
def RST_LAST.PART : Fld := ⟨.RST_LAST, 22, 21, .ro, 0, false⟩
def RST_LAST.CAUSE : Fld := ⟨.RST_LAST, 38, 23, .ro, 0, false⟩
def RST_LAST.REPEAT : Fld := ⟨.RST_LAST, 39, 39, .ro, 0, false⟩
def RST_LAST.DUR_MS : Fld := ⟨.RST_LAST, 63, 40, .ro, 0, false⟩
def RST_LAST_TIME.OP_MS : Fld := ⟨.RST_LAST_TIME, 47, 0, .ro, 0, false⟩
def RST_DUMP.SLOT : Fld := ⟨.RST_DUMP, 1, 0, .ro, 0, false⟩
def RST_DUMP.VALID : Fld := ⟨.RST_DUMP, 2, 2, .ro, 0, false⟩
def RST_DUMP.FLASHED : Fld := ⟨.RST_DUMP, 3, 3, .ro, 0, false⟩
def RST_DUMP.PARTIAL : Fld := ⟨.RST_DUMP, 4, 4, .ro, 0, false⟩
def RST_DUMP.UNREAD : Fld := ⟨.RST_DUMP, 15, 5, .ro, 0, false⟩
def RST_DUMP.SEQ : Fld := ⟨.RST_DUMP, 47, 16, .ro, 0, false⟩
def RST_DUMP.MIB : Fld := ⟨.RST_DUMP, 55, 48, .ro, 0, false⟩
def RST_MIRROR_STATUS.PRIMARY : Fld := ⟨.RST_MIRROR_STATUS, 0, 0, .ro, 0, false⟩
def RST_MIRROR_STATUS.BUDDY : Fld := ⟨.RST_MIRROR_STATUS, 1, 1, .ro, 0, false⟩
def RST_MIRROR_STATUS.ACTING : Fld := ⟨.RST_MIRROR_STATUS, 2, 2, .ro, 0, false⟩
def RST_MIRROR_STATUS.P1_UP : Fld := ⟨.RST_MIRROR_STATUS, 3, 3, .ro, 0, false⟩
def RST_MIRROR_STATUS.P2_UP : Fld := ⟨.RST_MIRROR_STATUS, 4, 4, .ro, 0, false⟩
def RST_MIRROR_STATUS.PEER_STATE : Fld := ⟨.RST_MIRROR_STATUS, 7, 5, .ro, 0, false⟩
def RST_MIRROR_STATUS.PEER : Fld := ⟨.RST_MIRROR_STATUS, 22, 8, .ro, 0, false⟩
def RST_MIRROR_STATUS.SPLIT : Fld := ⟨.RST_MIRROR_STATUS, 25, 23, .ro, 0, false⟩
def RST_CNT_CTX.COUNT : Fld := ⟨.RST_CNT_CTX, 63, 0, .ro, 0, false⟩
def RST_CNT_ENG.COUNT : Fld := ⟨.RST_CNT_ENG, 63, 0, .ro, 0, false⟩
def RST_CNT_PART.COUNT : Fld := ⟨.RST_CNT_PART, 63, 0, .ro, 0, false⟩
def RST_CNT_CHIP.COUNT : Fld := ⟨.RST_CNT_CHIP, 63, 0, .ro, 0, false⟩
def UPD_CTL.RX_EN : Fld := ⟨.UPD_CTL, 0, 0, .rw, 0, false⟩
def UPD_STATE.CONF_SLOT : Fld := ⟨.UPD_STATE, 0, 0, .ro, 0, true⟩
def UPD_STATE.ON_TRIAL : Fld := ⟨.UPD_STATE, 1, 1, .ro, 0, true⟩
def UPD_STATE.TRIAL_BOOTS : Fld := ⟨.UPD_STATE, 3, 2, .ro, 0, true⟩
def UPD_STATE.FAILED_BOOTS : Fld := ⟨.UPD_STATE, 5, 4, .ro, 0, true⟩
def UPD_STATE.GROUP_STATE : Fld := ⟨.UPD_STATE, 8, 6, .ro, 0, true⟩
def UPD_STATE.RECOV_CAUSE : Fld := ⟨.UPD_STATE, 11, 9, .ro, 0, false⟩
def UPD_STATE.LAST_STATUS : Fld := ⟨.UPD_STATE, 47, 32, .ro, 0, false⟩
def UPD_SLOT.STATE : Fld := ⟨.UPD_SLOT, 2, 0, .ro, 0, true⟩
def UPD_SLOT.CONFIRMED : Fld := ⟨.UPD_SLOT, 3, 3, .ro, 0, true⟩
def UPD_SLOT.SEC_VER : Fld := ⟨.UPD_SLOT, 31, 16, .ro, 0, true⟩
def UPD_SLOT.IMAGE_VER : Fld := ⟨.UPD_SLOT, 63, 32, .ro, 0, true⟩
def UPD_XFER.HELD : Fld := ⟨.UPD_XFER, 13, 0, .ro, 0, false⟩
def UPD_XFER.TOTAL : Fld := ⟨.UPD_XFER, 29, 16, .ro, 0, false⟩
def UPD_XFER.SESSION : Fld := ⟨.UPD_XFER, 47, 32, .ro, 0, false⟩
def UPD_XFER.OPEN : Fld := ⟨.UPD_XFER, 48, 48, .ro, 0, false⟩
def UPD_GROUP.GROUP_ID : Fld := ⟨.UPD_GROUP, 31, 0, .ro, 0, true⟩
def UPD_GROUP.COORD : Fld := ⟨.UPD_GROUP, 46, 32, .ro, 0, true⟩
def UPD_GROUP.IS_COORD : Fld := ⟨.UPD_GROUP, 47, 47, .ro, 0, true⟩
def UPD_GROUP.REPORTED : Fld := ⟨.UPD_GROUP, 63, 48, .ro, 0, false⟩
def UPD_GROUP_T.T : Fld := ⟨.UPD_GROUP_T, 63, 0, .ro, 0, true⟩
def SEC_STATUS.PUF_OK : Fld := ⟨.SEC_STATUS, 0, 0, .ro, 0, false⟩
def SEC_STATUS.KEYRING_OK : Fld := ⟨.SEC_STATUS, 1, 1, .ro, 0, false⟩
def SEC_STATUS.DEBUG : Fld := ⟨.SEC_STATUS, 2, 2, .ro, 0, false⟩
def SEC_STATUS.TK_PENDING : Fld := ⟨.SEC_STATUS, 3, 3, .ro, 0, false⟩
def SEC_STATUS.TK_OP : Fld := ⟨.SEC_STATUS, 19, 4, .ro, 0, false⟩
def SEC_STATUS.TK_COUNTER : Fld := ⟨.SEC_STATUS, 63, 32, .ro, 0, true⟩
def SEC_POLICY.UNBOUND_OK : Fld := ⟨.SEC_POLICY, 0, 0, .ro, 0, true⟩
def SEC_POLICY.RECOV_PIN_EN : Fld := ⟨.SEC_POLICY, 1, 1, .ro, 0, true⟩
def SEC_POLICY.SPDM_EN : Fld := ⟨.SEC_POLICY, 2, 2, .ro, 0, true⟩
def SEC_POLICY.MIN_SVN : Fld := ⟨.SEC_POLICY, 31, 16, .ro, 0, true⟩
def SEC_FPR.FPR : Fld := ⟨.SEC_FPR, 63, 0, .ro, 0, false⟩
def EVR_CFG.IDLE_S : Fld := ⟨.EVR_CFG, 7, 0, .rw, 60, false⟩
def EVR_CFG.LATCH_S : Fld := ⟨.EVR_CFG, 15, 8, .rw, 60, false⟩
def EVR_STATUS.NEWEST : Fld := ⟨.EVR_STATUS, 31, 0, .ro, 0, false⟩
def EVR_STATUS.BUF_USED : Fld := ⟨.EVR_STATUS, 44, 32, .ro, 0, false⟩
def EVR_STATUS.LATCHED : Fld := ⟨.EVR_STATUS, 45, 45, .ro, 0, false⟩
def EVR_STATUS.COALESCING : Fld := ⟨.EVR_STATUS, 46, 46, .ro, 0, false⟩
def EVR_STATUS.FLUSHING : Fld := ⟨.EVR_STATUS, 47, 47, .ro, 0, false⟩
def EVR_RING.OLDEST : Fld := ⟨.EVR_RING, 31, 0, .ro, 0, false⟩
def EVR_RING.USED : Fld := ⟨.EVR_RING, 52, 32, .ro, 0, false⟩
def EVR_RING.BAD : Fld := ⟨.EVR_RING, 62, 53, .ro, 0, false⟩
def EVR_RD_CTL.SEQ : Fld := ⟨.EVR_RD_CTL, 31, 0, .rw, 0, false⟩
def EVR_RD_CTL.FOUND : Fld := ⟨.EVR_RD_CTL, 32, 32, .ro, 0, false⟩
def EVR_RD_CTL.IN_BUFFER : Fld := ⟨.EVR_RD_CTL, 33, 33, .ro, 0, false⟩
def EVR_RD_DATA.DATA : Fld := ⟨.EVR_RD_DATA, 63, 0, .ro, 0, false⟩
def EVR_CNT_LOST.COUNT : Fld := ⟨.EVR_CNT_LOST, 63, 0, .ro, 0, false⟩
def EVR_CNT_COAL.COUNT : Fld := ⟨.EVR_CNT_COAL, 63, 0, .ro, 0, false⟩
def AGE_STATUS.LAST_H : Fld := ⟨.AGE_STATUS, 31, 0, .ro, 0, true⟩
def AGE_STATUS.RUNNING : Fld := ⟨.AGE_STATUS, 32, 32, .ro, 0, false⟩
def AGE_STATUS.DEFERRED : Fld := ⟨.AGE_STATUS, 33, 33, .ro, 0, false⟩
def AGE_STATUS.RETIRED : Fld := ⟨.AGE_STATUS, 43, 34, .ro, 0, true⟩
def AGE_STATUS.CLK_LIMITED : Fld := ⟨.AGE_STATUS, 47, 44, .ro, 0, true⟩
def AGE_SEL.INDEX : Fld := ⟨.AGE_SEL, 11, 0, .rw, 0, false⟩
def AGE_SEL.KIND : Fld := ⟨.AGE_SEL, 14, 12, .rw, 0, false⟩
def AGE_DATA.MFG : Fld := ⟨.AGE_DATA, 15, 0, .ro, 0, false⟩
def AGE_DATA.LATEST : Fld := ⟨.AGE_DATA, 31, 16, .ro, 0, false⟩
def AGE_DATA.AT_REPLAN : Fld := ⟨.AGE_DATA, 47, 32, .ro, 0, false⟩
def AGE_DATA.STATE : Fld := ⟨.AGE_DATA, 49, 48, .ro, 0, false⟩

end F

/-- Each register's line (R12). -/
def Reg.desc : Reg → RegDesc
  | .ID_DEVICE => ⟨0x0000000, 0x0, 1, 32, .keeper, .none⟩
  | .ID_CAP => ⟨0x0000008, 0x0, 1, 64, .chip, .none⟩
  | .ID_NODE => ⟨0x0000010, 0x0, 1, 32, .keeper, .none⟩
  | .ID_PART_CFG => ⟨0x0000020, 0x0, 1, 32, .keeper, .boot⟩
  | .ID_PWR_CFG => ⟨0x0000024, 0x0, 1, 32, .keeper, .live⟩
  | .ID_PWR_STATE => ⟨0x0000028, 0x0, 1, 32, .keeper, .none⟩
  | .CORE_ID => ⟨0x1000000, 0x10000, 288, 32, .partition, .none⟩
  | .CORE_STATUS => ⟨0x1000008, 0x10000, 288, 64, .partition, .none⟩
  | .CORE_FAULT => ⟨0x1000010, 0x10000, 288, 64, .partition, .none⟩
  | .CORE_FAULT_ADDR => ⟨0x1000018, 0x10000, 288, 64, .partition, .none⟩
  | .CORE_FAULT_ATTR => ⟨0x1000020, 0x10000, 288, 32, .partition, .none⟩
  | .CORE_CFG => ⟨0x1000028, 0x10000, 288, 32, .partition, .quiesce⟩
  | .CORE_GATE_CFG => ⟨0x100002C, 0x10000, 288, 32, .partition, .live⟩
  | .CORE_THR_LIVE => ⟨0x1000040, 0x10000, 288, 64, .partition, .none⟩
  | .CORE_THR_SYNC => ⟨0x1000048, 0x10000, 288, 64, .partition, .none⟩
  | .CORE_PERF_CYCLES => ⟨0x1000100, 0x10000, 288, 64, .partition, .live⟩
  | .CORE_PERF_ISSUE => ⟨0x1000108, 0x10000, 288, 64, .partition, .live⟩
  | .CORE_PERF_MBUSY => ⟨0x1000110, 0x10000, 288, 64, .partition, .live⟩
  | .CORE_PERF_SB_FULL => ⟨0x1000118, 0x10000, 288, 64, .partition, .live⟩
  | .CORE_PERF_RC_HIT => ⟨0x1000120, 0x10000, 288, 64, .partition, .live⟩
  | .CORE_PERF_RC_MISS => ⟨0x1000128, 0x10000, 288, 64, .partition, .live⟩
  | .CORE_PERF_CS_CONFLICT => ⟨0x1000130, 0x10000, 288, 64, .partition, .live⟩
  | .CHK_CFG => ⟨0x0100000, 0x0, 1, 32, .keeper, .shadowed⟩
  | .CHK_ST_CFG => ⟨0x0100004, 0x0, 1, 32, .keeper, .live⟩
  | .CHK_STATUS => ⟨0x0100008, 0x0, 1, 32, .chip, .none⟩
  | .CHK_CNT_FAIL => ⟨0x0100010, 0x0, 1, 64, .chip, .none⟩
  | .CHK_CNT_REPLAY => ⟨0x0100018, 0x0, 1, 64, .chip, .none⟩
  | .CHK_CNT_ARB => ⟨0x0100020, 0x0, 1, 64, .chip, .none⟩
  | .CHK_CNT_UNRES => ⟨0x0100028, 0x0, 1, 64, .chip, .none⟩
  | .CHK_CNT_UNCHK => ⟨0x0100030, 0x0, 1, 64, .chip, .none⟩
  | .CHK_CNT_RESID => ⟨0x0100038, 0x0, 1, 64, .chip, .none⟩
  | .CHK_CNT_PAR => ⟨0x0100040, 0x0, 1, 64, .chip, .none⟩
  | .CHK_LAST => ⟨0x0100100, 0x0, 1, 64, .chip, .none⟩
  | .CHK_LAST_CTX => ⟨0x0100108, 0x0, 1, 32, .chip, .none⟩
  | .CHK_INJECT => ⟨0x0100200, 0x0, 1, 32, .chip, .live⟩
  | .CHK_CORE => ⟨0x0101000, 0x8, 288, 64, .keeper, .none⟩
  | .CHK_EUNIT => ⟨0x0102000, 0x8, 34, 64, .keeper, .none⟩
  | .MEM_CFG => ⟨0x0200000, 0x0, 1, 32, .chip, .quiesce⟩
  | .MEM_STATUS => ⟨0x0200008, 0x0, 1, 64, .chip, .none⟩
  | .MEM_ECC_CNT_CORR => ⟨0x0200010, 0x0, 1, 64, .chip, .none⟩
  | .MEM_ECC_CNT_UNCORR => ⟨0x0200018, 0x0, 1, 64, .chip, .none⟩
  | .MEM_REGION_COMMIT => ⟨0x0200020, 0x0, 1, 32, .chip, .none⟩
  | .MEM_MIRROR_CFG => ⟨0x0200028, 0x0, 1, 32, .keeper, .quiesce⟩
  | .MEM_MIRROR_STATUS => ⟨0x020002C, 0x0, 1, 32, .keeper, .none⟩
  | .MEM_OVF_CFG => ⟨0x0200030, 0x0, 1, 32, .chip, .quiesce⟩
  | .MEM_OVF_BASE => ⟨0x0200038, 0x0, 1, 64, .chip, .quiesce⟩
  | .MEM_BIAS_CMD => ⟨0x0200040, 0x0, 1, 64, .chip, .live⟩
  | .MEM_BIAS_STATUS => ⟨0x0200048, 0x0, 1, 32, .chip, .none⟩
  | .MEM_GFAULT_ADDR => ⟨0x0200100, 0x10, 4, 64, .chip, .none⟩
  | .MEM_GFAULT_INFO => ⟨0x0200108, 0x10, 4, 64, .chip, .none⟩
  | .MEM_REGION_LO => ⟨0x0201000, 0x10, 64, 64, .chip, .shadowed⟩
  | .MEM_REGION_HI => ⟨0x0201008, 0x10, 64, 64, .chip, .shadowed⟩
  | .QDB_TAIL => ⟨0x0020000, 0x4, 2048, 32, .partition, .live⟩
  | .QDB_HEAD => ⟨0x0022000, 0x4, 2048, 32, .partition, .none⟩
  | .QDB_CTX => ⟨0x0024000, 0x10, 256, 64, .chip, .none⟩
  | .QDB_ERR => ⟨0x0024008, 0x10, 256, 64, .chip, .none⟩
  | .QDB_ERR_ADDR => ⟨0x0025000, 0x8, 256, 64, .chip, .none⟩
  | .QDB_EVT_SEL => ⟨0x0026000, 0x0, 1, 32, .chip, .live⟩
  | .QDB_EVT_VAL => ⟨0x0026008, 0x0, 1, 64, .chip, .live⟩
  | .QDB_CFG => ⟨0x0026010, 0x0, 1, 32, .chip, .live⟩
  | .QDB_PART_SHARE => ⟨0x0026014, 0x0, 1, 32, .chip, .live⟩
  | .QDB_STATUS => ⟨0x0026018, 0x0, 1, 32, .chip, .none⟩
  | .QDB_QBASE => ⟨0x0028000, 0x10, 2048, 64, .partition, .quiesce⟩
  | .QDB_QCFG => ⟨0x0028008, 0x10, 2048, 32, .partition, .quiesce⟩
  | .LNK_CFG => ⟨0x0300000, 0x0, 1, 32, .chip, .live⟩
  | .LNK_STATUS => ⟨0x0300008, 0x0, 1, 32, .chip, .none⟩
  | .LNK_CNT_CRC => ⟨0x0300010, 0x0, 1, 64, .chip, .none⟩
  | .LNK_CNT_UNCORR => ⟨0x0300018, 0x0, 1, 64, .chip, .none⟩
  | .LNK_CNT_REPLAY => ⟨0x0300020, 0x0, 1, 64, .chip, .none⟩
  | .LNK_CNT_DUP => ⟨0x0300028, 0x0, 1, 64, .chip, .none⟩
  | .LNK_CNT_PMSG_DUP => ⟨0x0300030, 0x0, 1, 64, .chip, .none⟩
  | .LNK_CNT_PMSG_STALE => ⟨0x0300038, 0x0, 1, 64, .chip, .none⟩
  | .LNK_CNT_PROTO => ⟨0x0300040, 0x0, 1, 64, .chip, .none⟩
  | .LNK_CNT_LATE => ⟨0x0300048, 0x0, 1, 64, .chip, .none⟩
  | .LNK_LANE => ⟨0x0301000, 0x10, 204, 64, .chip, .none⟩
  | .LNK_LANE_ERR => ⟨0x0301008, 0x10, 204, 64, .chip, .none⟩
  | .LNK_CIRC => ⟨0x0304000, 0x10, 512, 64, .chip, .none⟩
  | .LNK_CIRC_SEQ => ⟨0x0304008, 0x10, 512, 64, .chip, .none⟩
  | .PTH_CFG => ⟨0x0400000, 0x0, 1, 64, .keeper, .live⟩
  | .PTH_STATUS => ⟨0x0400008, 0x0, 1, 32, .keeper, .none⟩
  | .LAT_PORT => ⟨0x0401000, 0x8, 24, 64, .keeper, .none⟩
  | .LAT_PLANE => ⟨0x0402000, 0x8, 16, 64, .keeper, .none⟩
  | .LAT_HINGE => ⟨0x0403000, 0x4, 256, 32, .keeper, .none⟩
  | .LAT_CIRC_A => ⟨0x0404000, 0x10, 512, 64, .keeper, .none⟩
  | .LAT_CIRC_B => ⟨0x0404008, 0x10, 512, 64, .keeper, .none⟩
  | .PTH_DISC_CFG => ⟨0x0406000, 0x0, 1, 32, .keeper, .live⟩
  | .PTH_PLAN_STATUS => ⟨0x0406008, 0x0, 1, 64, .keeper, .none⟩
  | .PTH_RT_STATUS => ⟨0x0406010, 0x0, 1, 32, .keeper, .none⟩
  | .PTH_DISC_PORT => ⟨0x0406100, 0x8, 24, 64, .keeper, .none⟩
  | .HCE_CFG => ⟨0x0500000, 0x0, 1, 32, .keeper, .live⟩
  | .HCE_RAMP_CFG => ⟨0x0500004, 0x0, 1, 32, .keeper, .live⟩
  | .HCE_PILOT_CFG => ⟨0x0500008, 0x0, 1, 32, .keeper, .live⟩
  | .HCE_STATUS => ⟨0x0500010, 0x0, 1, 64, .keeper, .none⟩
  | .HCE_SP => ⟨0x0500018, 0x0, 1, 32, .keeper, .live⟩
  | .HCE_CNT_OVR => ⟨0x0500020, 0x0, 1, 64, .keeper, .none⟩
  | .HCE_CNT_FB => ⟨0x0500028, 0x0, 1, 64, .keeper, .none⟩
  | .HCE_CNT_LATE => ⟨0x0500030, 0x0, 1, 64, .keeper, .none⟩
  | .HCE_GRP => ⟨0x0500100, 0x8, 21, 64, .keeper, .live⟩
  | .HCE_XT => ⟨0x0500200, 0x4, 16, 32, .keeper, .live⟩
  | .HCE_COEF_A => ⟨0x0501000, 0x10, 16, 64, .keeper, .quiesce⟩
  | .HCE_COEF_B => ⟨0x0501008, 0x10, 16, 64, .keeper, .quiesce⟩
  | .HCE_LOOP_CTL => ⟨0x0510000, 0x10, 3148, 32, .keeper, .live⟩
  | .HCE_LOOP_STAT => ⟨0x0510004, 0x10, 3148, 32, .keeper, .none⟩
  | .HCE_LOOP_CAL => ⟨0x0510008, 0x10, 3148, 64, .keeper, .quiesce⟩
  | .TIM_CFG => ⟨0x0600000, 0x0, 1, 32, .keeper, .live⟩
  | .TIM_SERVO => ⟨0x0600004, 0x0, 1, 32, .keeper, .live⟩
  | .TIM_STATUS => ⟨0x0600008, 0x0, 1, 64, .keeper, .none⟩
  | .TIM_NOW => ⟨0x0600010, 0x0, 1, 64, .keeper, .none⟩
  | .TIM_SNAP_RAW => ⟨0x0600018, 0x0, 1, 64, .keeper, .none⟩
  | .TIM_SNAP_STEP => ⟨0x0600020, 0x0, 1, 64, .keeper, .none⟩
  | .TIM_SET => ⟨0x0600028, 0x0, 1, 64, .keeper, .live⟩
  | .TIM_SET_CTL => ⟨0x0600030, 0x0, 1, 32, .keeper, .none⟩
  | .TIM_LAST_STEP => ⟨0x0600038, 0x0, 1, 64, .keeper, .none⟩
  | .TIM_LAST_STEP_AT => ⟨0x0600040, 0x0, 1, 64, .keeper, .none⟩
  | .TIM_PPS => ⟨0x0600048, 0x0, 1, 64, .keeper, .none⟩
  | .TIM_PORT => ⟨0x0600100, 0x8, 24, 64, .keeper, .live⟩
  | .TIM_TRIG_TGT => ⟨0x0600200, 0x10, 16, 64, .keeper, .live⟩
  | .TIM_TRIG_CTL => ⟨0x0600208, 0x10, 16, 32, .keeper, .live⟩
  | .TIM_CIRC_DLY => ⟨0x0601000, 0x4, 512, 32, .keeper, .none⟩
  | .ORQ_REQ => ⟨0x0010000, 0x4, 1024, 32, .keeper, .none⟩
  | .ORQ_RSP => ⟨0x0011000, 0x4, 1024, 32, .keeper, .none⟩
  | .ORQ_DOORBELL => ⟨0x0012000, 0x0, 1, 32, .keeper, .none⟩
  | .ORQ_MB_STATUS => ⟨0x0012004, 0x0, 1, 32, .keeper, .none⟩
  | .ORQ_MB_CFG => ⟨0x0012008, 0x0, 1, 32, .keeper, .live⟩
  | .ORQ_ASYNC_DONE => ⟨0x001200C, 0x0, 1, 32, .keeper, .none⟩
  | .ORQ_CFG_STATUS => ⟨0x0012010, 0x0, 1, 64, .keeper, .none⟩
  | .ORQ_HB_STATUS => ⟨0x0012018, 0x0, 1, 32, .keeper, .none⟩
  | .RST_CFG => ⟨0x0800000, 0x0, 1, 32, .keeper, .live⟩
  | .RST_MIRROR_CFG => ⟨0x0800004, 0x0, 1, 32, .keeper, .live⟩
  | .RST_STATUS => ⟨0x0800008, 0x0, 1, 64, .keeper, .none⟩
  | .RST_LAST => ⟨0x0800010, 0x0, 1, 64, .keeper, .none⟩
  | .RST_LAST_TIME => ⟨0x0800018, 0x0, 1, 64, .keeper, .none⟩
  | .RST_DUMP => ⟨0x0800020, 0x0, 1, 64, .keeper, .none⟩
  | .RST_MIRROR_STATUS => ⟨0x0800028, 0x0, 1, 32, .keeper, .none⟩
  | .RST_CNT_CTX => ⟨0x0800030, 0x0, 1, 64, .keeper, .none⟩
  | .RST_CNT_ENG => ⟨0x0800038, 0x0, 1, 64, .keeper, .none⟩
  | .RST_CNT_PART => ⟨0x0800040, 0x0, 1, 64, .keeper, .none⟩
  | .RST_CNT_CHIP => ⟨0x0800048, 0x0, 1, 64, .keeper, .none⟩
  | .UPD_CTL => ⟨0x0900000, 0x0, 1, 32, .keeper, .live⟩
  | .UPD_STATE => ⟨0x0900008, 0x0, 1, 64, .keeper, .none⟩
  | .UPD_SLOT => ⟨0x0900010, 0x8, 2, 64, .keeper, .none⟩
  | .UPD_XFER => ⟨0x0900020, 0x0, 1, 64, .keeper, .none⟩
  | .UPD_GROUP => ⟨0x0900028, 0x0, 1, 64, .keeper, .none⟩
  | .UPD_GROUP_T => ⟨0x0900030, 0x0, 1, 64, .keeper, .none⟩
  | .SEC_STATUS => ⟨0x0901000, 0x0, 1, 64, .keeper, .none⟩
  | .SEC_POLICY => ⟨0x0901008, 0x0, 1, 32, .keeper, .none⟩
  | .SEC_FPR => ⟨0x0901010, 0x8, 4, 64, .keeper, .none⟩
  | .EVR_CFG => ⟨0x0700000, 0x0, 1, 32, .keeper, .live⟩
  | .EVR_STATUS => ⟨0x0700008, 0x0, 1, 64, .keeper, .none⟩
  | .EVR_RING => ⟨0x0700010, 0x0, 1, 64, .keeper, .none⟩
  | .EVR_RD_CTL => ⟨0x0700018, 0x0, 1, 64, .keeper, .live⟩
  | .EVR_RD_DATA => ⟨0x0700020, 0x8, 8, 64, .keeper, .none⟩
  | .EVR_CNT_LOST => ⟨0x0700060, 0x0, 1, 64, .keeper, .none⟩
  | .EVR_CNT_COAL => ⟨0x0700068, 0x0, 1, 64, .keeper, .none⟩
  | .AGE_STATUS => ⟨0x0A00000, 0x0, 1, 64, .keeper, .none⟩
  | .AGE_SEL => ⟨0x0A00008, 0x0, 1, 32, .keeper, .live⟩
  | .AGE_DATA => ⟨0x0A00010, 0x0, 1, 64, .keeper, .none⟩

/-- Each register's fields, in the order of its table; reserved bits are in none (R10). -/
def Reg.fields : Reg → List Fld
  | .ID_DEVICE => [F.ID_DEVICE.DEV_CODE, F.ID_DEVICE.SI_REV, F.ID_DEVICE.MOD_REV]
  | .ID_CAP => [F.ID_CAP.CORES_LIVE, F.ID_CAP.Q_LIVE, F.ID_CAP.PART_MODE, F.ID_CAP.DRAM_GIB]
  | .ID_NODE => [F.ID_NODE.NODE_ID, F.ID_NODE.NODE_VALID]
  | .ID_PART_CFG => [F.ID_PART_CFG.PART_MODE]
  | .ID_PWR_CFG => [F.ID_PWR_CFG.DORMANT_EN]
  | .ID_PWR_STATE => [F.ID_PWR_STATE.MOD_STATE, F.ID_PWR_STATE.Q_GATED, F.ID_PWR_STATE.Q_SRAM_OFF, F.ID_PWR_STATE.REF_SRC]
  | .CORE_ID => [F.CORE_ID.CORE_NUM, F.CORE_ID.QUARTER, F.CORE_ID.ROW, F.CORE_ID.COL]
  | .CORE_STATUS => [F.CORE_STATUS.STATE, F.CORE_STATUS.CTX_ID, F.CORE_STATUS.CTX_VALID, F.CORE_STATUS.THR_LIVE, F.CORE_STATUS.SB_USED, F.CORE_STATUS.MQ_DEPTH, F.CORE_STATUS.RETAIN_USED, F.CORE_STATUS.BANK_STALE]
  | .CORE_FAULT => [F.CORE_FAULT.FCODE, F.CORE_FAULT.THREAD, F.CORE_FAULT.MULTI, F.CORE_FAULT.OVF, F.CORE_FAULT.VALID, F.CORE_FAULT.CTX_ID, F.CORE_FAULT.PC_OFFSET]
  | .CORE_FAULT_ADDR => [F.CORE_FAULT_ADDR.ADDR]
  | .CORE_FAULT_ATTR => [F.CORE_FAULT_ATTR.QUEUE, F.CORE_FAULT_ATTR.CMD_INDEX]
  | .CORE_CFG => [F.CORE_CFG.W_MATRIX, F.CORE_CFG.W_THREAD, F.CORE_CFG.W_EXT, F.CORE_CFG.RC_EN]
  | .CORE_GATE_CFG => [F.CORE_GATE_CFG.CG_IDLE, F.CORE_GATE_CFG.PG_IDLE]
  | .CORE_THR_LIVE => [F.CORE_THR_LIVE.LIVE]
  | .CORE_THR_SYNC => [F.CORE_THR_SYNC.SYNC]
  | .CORE_PERF_CYCLES => [F.CORE_PERF_CYCLES.COUNT]
  | .CORE_PERF_ISSUE => [F.CORE_PERF_ISSUE.COUNT]
  | .CORE_PERF_MBUSY => [F.CORE_PERF_MBUSY.COUNT]
  | .CORE_PERF_SB_FULL => [F.CORE_PERF_SB_FULL.COUNT]
  | .CORE_PERF_RC_HIT => [F.CORE_PERF_RC_HIT.COUNT]
  | .CORE_PERF_RC_MISS => [F.CORE_PERF_RC_MISS.COUNT]
  | .CORE_PERF_CS_CONFLICT => [F.CORE_PERF_CS_CONFLICT.COUNT]
  | .CHK_CFG => [F.CHK_CFG.Q_MIN, F.CHK_CFG.ARB_WAIT, F.CHK_CFG.COMMIT]
  | .CHK_ST_CFG => [F.CHK_ST_CFG.PERIOD_S]
  | .CHK_STATUS => [F.CHK_STATUS.RETIRED, F.CHK_STATUS.PENDING, F.CHK_STATUS.IN_ARB]
  | .CHK_CNT_FAIL => [F.CHK_CNT_FAIL.COUNT]
  | .CHK_CNT_REPLAY => [F.CHK_CNT_REPLAY.COUNT]
  | .CHK_CNT_ARB => [F.CHK_CNT_ARB.COUNT]
  | .CHK_CNT_UNRES => [F.CHK_CNT_UNRES.COUNT]
  | .CHK_CNT_UNCHK => [F.CHK_CNT_UNCHK.COUNT]
  | .CHK_CNT_RESID => [F.CHK_CNT_RESID.COUNT]
  | .CHK_CNT_PAR => [F.CHK_CNT_PAR.COUNT]
  | .CHK_LAST => [F.CHK_LAST.CORE, F.CHK_LAST.UNIT, F.CHK_LAST.OUTCOME, F.CHK_LAST.EUNIT, F.CHK_LAST.INJECTED, F.CHK_LAST.DIGEST_O]
  | .CHK_LAST_CTX => [F.CHK_LAST_CTX.CTX_ID, F.CHK_LAST_CTX.QUEUE, F.CHK_LAST_CTX.CMD_INDEX, F.CHK_LAST_CTX.VALID]
  | .CHK_INJECT => [F.CHK_INJECT.CORE, F.CHK_INJECT.KIND, F.CHK_INJECT.ARM]
  | .CHK_CORE => [F.CHK_CORE.MXA_ST, F.CHK_CORE.CKL_ST, F.CHK_CORE.VEC_ST, F.CHK_CORE.SFU_ST, F.CHK_CORE.RET, F.CHK_CORE.MXA_N, F.CHK_CORE.CKL_N, F.CHK_CORE.VEC_N, F.CHK_CORE.SFU_N, F.CHK_CORE.LAST_H]
  | .CHK_EUNIT => [F.CHK_EUNIT.ST, F.CHK_EUNIT.OUT, F.CHK_EUNIT.N, F.CHK_EUNIT.LAST_H]
  | .MEM_CFG => [F.MEM_CFG.REMOTE_TO, F.MEM_CFG.SCRUB_EN, F.MEM_CFG.SCRUB_H]
  | .MEM_STATUS => [F.MEM_STATUS.DRAM_OK, F.MEM_STATUS.KEPT, F.MEM_STATUS.LAST_TRAIN, F.MEM_STATUS.DEV_FAIL, F.MEM_STATUS.TRAIN_MS]
  | .MEM_ECC_CNT_CORR => [F.MEM_ECC_CNT_CORR.COUNT]
  | .MEM_ECC_CNT_UNCORR => [F.MEM_ECC_CNT_UNCORR.COUNT]
  | .MEM_REGION_COMMIT => [F.MEM_REGION_COMMIT.GO, F.MEM_REGION_COMMIT.BUSY, F.MEM_REGION_COMMIT.STATUS]
  | .MEM_MIRROR_CFG => [F.MEM_MIRROR_CFG.BUDDY, F.MEM_MIRROR_CFG.EN]
  | .MEM_MIRROR_STATUS => [F.MEM_MIRROR_STATUS.STATE, F.MEM_MIRROR_STATUS.RESYNC_PCT]
  | .MEM_OVF_CFG => [F.MEM_OVF_CFG.PARTNER, F.MEM_OVF_CFG.EN, F.MEM_OVF_CFG.REGION]
  | .MEM_OVF_BASE => [F.MEM_OVF_BASE.TABLE]
  | .MEM_BIAS_CMD => [F.MEM_BIAS_CMD.START, F.MEM_BIAS_CMD.COUNT, F.MEM_BIAS_CMD.TARGET, F.MEM_BIAS_CMD.GO]
  | .MEM_BIAS_STATUS => [F.MEM_BIAS_STATUS.BUSY, F.MEM_BIAS_STATUS.STATUS]
  | .MEM_GFAULT_ADDR => [F.MEM_GFAULT_ADDR.ADDR]
  | .MEM_GFAULT_INFO => [F.MEM_GFAULT_INFO.CAUSE, F.MEM_GFAULT_INFO.CTX_ID, F.MEM_GFAULT_INFO.QUEUE, F.MEM_GFAULT_INFO.CMD_INDEX, F.MEM_GFAULT_INFO.CORE, F.MEM_GFAULT_INFO.SRC, F.MEM_GFAULT_INFO.OVF, F.MEM_GFAULT_INFO.VALID]
  | .MEM_REGION_LO => [F.MEM_REGION_LO.VALID, F.MEM_REGION_LO.R, F.MEM_REGION_LO.W, F.MEM_REGION_LO.A, F.MEM_REGION_LO.REMOTE, F.MEM_REGION_LO.BCAST, F.MEM_REGION_LO.SEALED, F.MEM_REGION_LO.MIRROR, F.MEM_REGION_LO.MIRROR_TGT, F.MEM_REGION_LO.OVF, F.MEM_REGION_LO.JOB_ID, F.MEM_REGION_LO.BASE]
  | .MEM_REGION_HI => [F.MEM_REGION_HI.SIZE]
  | .QDB_TAIL => [F.QDB_TAIL.TAIL]
  | .QDB_HEAD => [F.QDB_HEAD.HEAD]
  | .QDB_CTX => [F.QDB_CTX.CTX_ID, F.QDB_CTX.PART, F.QDB_CTX.STATE, F.QDB_CTX.JOB_ID, F.QDB_CTX.Q_EN]
  | .QDB_ERR => [F.QDB_ERR.CODE, F.QDB_ERR.ENGINE, F.QDB_ERR.QUEUE, F.QDB_ERR.CMD_INDEX, F.QDB_ERR.CAUSE, F.QDB_ERR.OPCODE, F.QDB_ERR.OVF, F.QDB_ERR.VALID]
  | .QDB_ERR_ADDR => [F.QDB_ERR_ADDR.ADDR]
  | .QDB_EVT_SEL => [F.QDB_EVT_SEL.SLOT, F.QDB_EVT_SEL.EVENT]
  | .QDB_EVT_VAL => [F.QDB_EVT_VAL.VALUE]
  | .QDB_CFG => [F.QDB_CFG.COLL_TO, F.QDB_CFG.ERR_VEC]
  | .QDB_PART_SHARE => [F.QDB_PART_SHARE.W0, F.QDB_PART_SHARE.W1, F.QDB_PART_SHARE.W2, F.QDB_PART_SHARE.W3]
  | .QDB_STATUS => [F.QDB_STATUS.RESIDENT, F.QDB_STATUS.ALU_LIVE]
  | .QDB_QBASE => [F.QDB_QBASE.BASE]
  | .QDB_QCFG => [F.QDB_QCFG.ENGINE, F.QDB_QCFG.LOG2_DEPTH, F.QDB_QCFG.VECTOR, F.QDB_QCFG.PRIO, F.QDB_QCFG.EN, F.QDB_QCFG.CFG_ERR, F.QDB_QCFG.STATE]
  | .LNK_CFG => [F.LNK_CFG.ACK_TO, F.LNK_CFG.REPLAY_MAX, F.LNK_CFG.PMSG_AGE]
  | .LNK_STATUS => [F.LNK_STATUS.LANES_UP, F.LNK_STATUS.W0_UP, F.LNK_STATUS.CIRC_UP, F.LNK_STATUS.INC]
  | .LNK_CNT_CRC => [F.LNK_CNT_CRC.COUNT]
  | .LNK_CNT_UNCORR => [F.LNK_CNT_UNCORR.COUNT]
  | .LNK_CNT_REPLAY => [F.LNK_CNT_REPLAY.COUNT]
  | .LNK_CNT_DUP => [F.LNK_CNT_DUP.COUNT]
  | .LNK_CNT_PMSG_DUP => [F.LNK_CNT_PMSG_DUP.COUNT]
  | .LNK_CNT_PMSG_STALE => [F.LNK_CNT_PMSG_STALE.COUNT]
  | .LNK_CNT_PROTO => [F.LNK_CNT_PROTO.COUNT]
  | .LNK_CNT_LATE => [F.LNK_CNT_LATE.COUNT]
  | .LNK_LANE => [F.LNK_LANE.STATE, F.LNK_LANE.WL, F.LNK_LANE.PORT, F.LNK_LANE.CIRC, F.LNK_LANE.CIRC_VALID, F.LNK_LANE.LANE_I, F.LNK_LANE.FAILS]
  | .LNK_LANE_ERR => [F.LNK_LANE_ERR.CORR_SYM, F.LNK_LANE_ERR.UNCORR, F.LNK_LANE_ERR.CRC_ERR]
  | .LNK_CIRC => [F.LNK_CIRC.STATE, F.LNK_CIRC.LANES, F.LNK_CIRC.FAR_INC_VALID, F.LNK_CIRC.FAR_NODE, F.LNK_CIRC.FAR_INC, F.LNK_CIRC.MOVES, F.LNK_CIRC.RESYNCS]
  | .LNK_CIRC_SEQ => [F.LNK_CIRC_SEQ.TX_NEXT, F.LNK_CIRC_SEQ.RX_EXPECT]
  | .PTH_CFG => [F.PTH_CFG.HOP_TO, F.PTH_CFG.SETUP_TO, F.PTH_CFG.RETRY, F.PTH_CFG.DOWN_HOLD, F.PTH_CFG.RECABLE_LEAD]
  | .PTH_STATUS => [F.PTH_STATUS.USED, F.PTH_STATUS.THRU, F.PTH_STATUS.ACTIVE, F.PTH_STATUS.NO_REF, F.PTH_STATUS.CORE_UP]
  | .LAT_PORT => [F.LAT_PORT.SPAN_LOSS, F.LAT_PORT.GAIN, F.LAT_PORT.LOSSY, F.LAT_PORT.W0_UP, F.LAT_PORT.QUAR, F.LAT_PORT.PREF, F.LAT_PORT.IN_USED, F.LAT_PORT.OUT_USED]
  | .LAT_PLANE => [F.LAT_PLANE.LIT, F.LAT_PLANE.HELD, F.LAT_PLANE.POS_OUT, F.LAT_PLANE.SPARES_USED, F.LAT_PLANE.DROP_FREE]
  | .LAT_HINGE => [F.LAT_HINGE.OUT, F.LAT_HINGE.SUB18, F.LAT_HINGE.SUB19, F.LAT_HINGE.DEGRADED]
  | .LAT_CIRC_A => [F.LAT_CIRC_A.TYPE, F.LAT_CIRC_A.STATE, F.LAT_CIRC_A.NODE, F.LAT_CIRC_A.ORIG_IDX, F.LAT_CIRC_A.PLANES, F.LAT_CIRC_A.PORT_A, F.LAT_CIRC_A.PORT_B, F.LAT_CIRC_A.HOP, F.LAT_CIRC_A.JOB_BOUND, F.LAT_CIRC_A.BK]
  | .LAT_CIRC_B => [F.LAT_CIRC_B.OWNER_JOB, F.LAT_CIRC_B.FAR_INDEX, F.LAT_CIRC_B.MARGIN, F.LAT_CIRC_B.HOPS, F.LAT_CIRC_B.BK_HOPS, F.LAT_CIRC_B.MIN_LANES]
  | .PTH_DISC_CFG => [F.PTH_DISC_CFG.SWAP_ACCEPT, F.PTH_DISC_CFG.IDENT_CHECK, F.PTH_DISC_CFG.DISC_TO]
  | .PTH_PLAN_STATUS => [F.PTH_PLAN_STATUS.PLAN_VER, F.PTH_PLAN_STATUS.COMMITTED, F.PTH_PLAN_STATUS.BLOCKS, F.PTH_PLAN_STATUS.PREV_HELD, F.PTH_PLAN_STATUS.PLAN_CRC]
  | .PTH_RT_STATUS => [F.PTH_RT_STATUS.USED, F.PTH_RT_STATUS.BOUND, F.PTH_RT_STATUS.FULL_SEEN]
  | .PTH_DISC_PORT => [F.PTH_DISC_PORT.VERDICT, F.PTH_DISC_PORT.QUAR, F.PTH_DISC_PORT.SWAP_SENT, F.PTH_DISC_PORT.NEIGH_NODE, F.PTH_DISC_PORT.NEIGH_VALID, F.PTH_DISC_PORT.NEIGH_PORT, F.PTH_DISC_PORT.PLAN_NODE, F.PTH_DISC_PORT.PLAN_CONN, F.PTH_DISC_PORT.PLAN_PORT]
  | .HCE_CFG => [F.HCE_CFG.XT_EN, F.HCE_CFG.RECOVER_WIN]
  | .HCE_RAMP_CFG => [F.HCE_RAMP_CFG.T_SETUP, F.HCE_RAMP_CFG.T_RECABLE, F.HCE_RAMP_CFG.LATE_MAX]
  | .HCE_PILOT_CFG => [F.HCE_PILOT_CFG.LOST_DB, F.HCE_PILOT_CFG.PILOT_DB, F.HCE_PILOT_CFG.BAD_WIN]
  | .HCE_STATUS => [F.HCE_STATUS.RUN, F.HCE_STATUS.CLOSED, F.HCE_STATUS.FB_HOLD, F.HCE_STATUS.HOLD, F.HCE_STATUS.GRP_HALF, F.HCE_STATUS.GRP_HOLD, F.HCE_STATUS.RAMPING]
  | .HCE_SP => [F.HCE_SP.LOOP, F.HCE_SP.TARGET, F.HCE_SP.LIT, F.HCE_SP.GO]
  | .HCE_CNT_OVR => [F.HCE_CNT_OVR.COUNT]
  | .HCE_CNT_FB => [F.HCE_CNT_FB.COUNT]
  | .HCE_CNT_LATE => [F.HCE_CNT_LATE.COUNT]
  | .HCE_GRP => [F.HCE_GRP.RATE, F.HCE_GRP.RESUME, F.HCE_GRP.LANE, F.HCE_GRP.CONSEC, F.HCE_GRP.OVR_COUNT]
  | .HCE_XT => [F.HCE_XT.X, F.HCE_XT.SX]
  | .HCE_COEF_A => [F.HCE_COEF_A.KP, F.HCE_COEF_A.SP, F.HCE_COEF_A.KI, F.HCE_COEF_A.SI]
  | .HCE_COEF_B => [F.HCE_COEF_B.KF, F.HCE_COEF_B.SF, F.HCE_COEF_B.DLY, F.HCE_COEF_B.DITHER]
  | .HCE_LOOP_CTL => [F.HCE_LOOP_CTL.SET_SEL, F.HCE_LOOP_CTL.HOLD]
  | .HCE_LOOP_STAT => [F.HCE_LOOP_STAT.STATE, F.HCE_LOOP_STAT.DEGRADED, F.HCE_LOOP_STAT.STEPPED, F.HCE_LOOP_STAT.TARGET, F.HCE_LOOP_STAT.FB_HOLDS]
  | .HCE_LOOP_CAL => [F.HCE_LOOP_CAL.D_A, F.HCE_LOOP_CAL.D_B, F.HCE_LOOP_CAL.UMIN, F.HCE_LOOP_CAL.UMAX]
  | .TIM_CFG => [F.TIM_CFG.PRIO1, F.TIM_CFG.DOMAIN, F.TIM_CFG.LOG_SYNC, F.TIM_CFG.PPS_EN, F.TIM_CFG.ASYM_MODE, F.TIM_CFG.SLEW_MAX]
  | .TIM_SERVO => [F.TIM_SERVO.KP_SH, F.TIM_SERVO.KI_SH, F.TIM_SERVO.FREEZE]
  | .TIM_STATUS => [F.TIM_STATUS.ROLE, F.TIM_STATUS.LOCKED, F.TIM_STATUS.COARSE, F.TIM_STATUS.PARENT, F.TIM_STATUS.STEPS_REM, F.TIM_STATUS.GM, F.TIM_STATUS.EPOCH, F.TIM_STATUS.OFFSET]
  | .TIM_NOW => [F.TIM_NOW.NT]
  | .TIM_SNAP_RAW => [F.TIM_SNAP_RAW.RAW]
  | .TIM_SNAP_STEP => [F.TIM_SNAP_STEP.STEP, F.TIM_SNAP_STEP.EPOCH]
  | .TIM_SET => [F.TIM_SET.VALUE]
  | .TIM_SET_CTL => [F.TIM_SET_CTL.GO, F.TIM_SET_CTL.STATUS]
  | .TIM_LAST_STEP => [F.TIM_LAST_STEP.VALUE]
  | .TIM_LAST_STEP_AT => [F.TIM_LAST_STEP_AT.VALUE]
  | .TIM_PPS => [F.TIM_PPS.VALUE]
  | .TIM_PORT => [F.TIM_PORT.PTP_ROLE, F.TIM_PORT.MPD, F.TIM_PORT.ASYM, F.TIM_PORT.CAL_EGR, F.TIM_PORT.CAL_ING]
  | .TIM_TRIG_TGT => [F.TIM_TRIG_TGT.TARGET]
  | .TIM_TRIG_CTL => [F.TIM_TRIG_CTL.ARM, F.TIM_TRIG_CTL.DISARM, F.TIM_TRIG_CTL.STEP_KIND, F.TIM_TRIG_CTL.ARRIVE, F.TIM_TRIG_CTL.ACTION, F.TIM_TRIG_CTL.FIRED, F.TIM_TRIG_CTL.LATE, F.TIM_TRIG_CTL.SLOT, F.TIM_TRIG_CTL.EVENT, F.TIM_TRIG_CTL.CIRC]
  | .TIM_CIRC_DLY => [F.TIM_CIRC_DLY.TX_NS, F.TIM_CIRC_DLY.RX_NS]
  | .ORQ_REQ => [F.ORQ_REQ.DATA]
  | .ORQ_RSP => [F.ORQ_RSP.DATA]
  | .ORQ_DOORBELL => [F.ORQ_DOORBELL.GO]
  | .ORQ_MB_STATUS => [F.ORQ_MB_STATUS.BUSY, F.ORQ_MB_STATUS.DONE, F.ORQ_MB_STATUS.FW_UP, F.ORQ_MB_STATUS.COUNT]
  | .ORQ_MB_CFG => [F.ORQ_MB_CFG.VECTOR, F.ORQ_MB_CFG.IRQ_EN, F.ORQ_MB_CFG.ASYNC_VEC]
  | .ORQ_ASYNC_DONE => [F.ORQ_ASYNC_DONE.DONE, F.ORQ_ASYNC_DONE.OUTSTANDING]
  | .ORQ_CFG_STATUS => [F.ORQ_CFG_STATUS.CUR_VER, F.ORQ_CFG_STATUS.PREV_VER, F.ORQ_CFG_STATUS.PREV_VALID, F.ORQ_CFG_STATUS.STAGED, F.ORQ_CFG_STATUS.COMMITTING]
  | .ORQ_HB_STATUS => [F.ORQ_HB_STATUS.SEQ, F.ORQ_HB_STATUS.ALIVE, F.ORQ_HB_STATUS.MISSED, F.ORQ_HB_STATUS.COUNTING, F.ORQ_HB_STATUS.HANG]
  | .RST_CFG => [F.RST_CFG.CTX_WD_S, F.RST_CFG.ENG_WD, F.RST_CFG.PWRCYC_EN, F.RST_CFG.IRQ_EN, F.RST_CFG.VECTOR, F.RST_CFG.PWRCYC_DRAIN]
  | .RST_MIRROR_CFG => [F.RST_MIRROR_CFG.P1_MS, F.RST_MIRROR_CFG.P2_MS]
  | .RST_STATUS => [F.RST_STATUS.MODE, F.RST_STATUS.PHASE, F.RST_STATUS.READY, F.RST_STATUS.STEP, F.RST_STATUS.EVACUATED, F.RST_STATUS.QUEUED, F.RST_STATUS.CHIP_RECENT, F.RST_STATUS.KEEPER_RESTARTS, F.RST_STATUS.MEM_DROPPED]
  | .RST_LAST => [F.RST_LAST.STEP, F.RST_LAST.OUTCOME, F.RST_LAST.CTX_ID, F.RST_LAST.CTX_VALID, F.RST_LAST.ENGINE, F.RST_LAST.PART, F.RST_LAST.CAUSE, F.RST_LAST.REPEAT, F.RST_LAST.DUR_MS]
  | .RST_LAST_TIME => [F.RST_LAST_TIME.OP_MS]
  | .RST_DUMP => [F.RST_DUMP.SLOT, F.RST_DUMP.VALID, F.RST_DUMP.FLASHED, F.RST_DUMP.PARTIAL, F.RST_DUMP.UNREAD, F.RST_DUMP.SEQ, F.RST_DUMP.MIB]
  | .RST_MIRROR_STATUS => [F.RST_MIRROR_STATUS.PRIMARY, F.RST_MIRROR_STATUS.BUDDY, F.RST_MIRROR_STATUS.ACTING, F.RST_MIRROR_STATUS.P1_UP, F.RST_MIRROR_STATUS.P2_UP, F.RST_MIRROR_STATUS.PEER_STATE, F.RST_MIRROR_STATUS.PEER, F.RST_MIRROR_STATUS.SPLIT]
  | .RST_CNT_CTX => [F.RST_CNT_CTX.COUNT]
  | .RST_CNT_ENG => [F.RST_CNT_ENG.COUNT]
  | .RST_CNT_PART => [F.RST_CNT_PART.COUNT]
  | .RST_CNT_CHIP => [F.RST_CNT_CHIP.COUNT]
  | .UPD_CTL => [F.UPD_CTL.RX_EN]
  | .UPD_STATE => [F.UPD_STATE.CONF_SLOT, F.UPD_STATE.ON_TRIAL, F.UPD_STATE.TRIAL_BOOTS, F.UPD_STATE.FAILED_BOOTS, F.UPD_STATE.GROUP_STATE, F.UPD_STATE.RECOV_CAUSE, F.UPD_STATE.LAST_STATUS]
  | .UPD_SLOT => [F.UPD_SLOT.STATE, F.UPD_SLOT.CONFIRMED, F.UPD_SLOT.SEC_VER, F.UPD_SLOT.IMAGE_VER]
  | .UPD_XFER => [F.UPD_XFER.HELD, F.UPD_XFER.TOTAL, F.UPD_XFER.SESSION, F.UPD_XFER.OPEN]
  | .UPD_GROUP => [F.UPD_GROUP.GROUP_ID, F.UPD_GROUP.COORD, F.UPD_GROUP.IS_COORD, F.UPD_GROUP.REPORTED]
  | .UPD_GROUP_T => [F.UPD_GROUP_T.T]
  | .SEC_STATUS => [F.SEC_STATUS.PUF_OK, F.SEC_STATUS.KEYRING_OK, F.SEC_STATUS.DEBUG, F.SEC_STATUS.TK_PENDING, F.SEC_STATUS.TK_OP, F.SEC_STATUS.TK_COUNTER]
  | .SEC_POLICY => [F.SEC_POLICY.UNBOUND_OK, F.SEC_POLICY.RECOV_PIN_EN, F.SEC_POLICY.SPDM_EN, F.SEC_POLICY.MIN_SVN]
  | .SEC_FPR => [F.SEC_FPR.FPR]
  | .EVR_CFG => [F.EVR_CFG.IDLE_S, F.EVR_CFG.LATCH_S]
  | .EVR_STATUS => [F.EVR_STATUS.NEWEST, F.EVR_STATUS.BUF_USED, F.EVR_STATUS.LATCHED, F.EVR_STATUS.COALESCING, F.EVR_STATUS.FLUSHING]
  | .EVR_RING => [F.EVR_RING.OLDEST, F.EVR_RING.USED, F.EVR_RING.BAD]
  | .EVR_RD_CTL => [F.EVR_RD_CTL.SEQ, F.EVR_RD_CTL.FOUND, F.EVR_RD_CTL.IN_BUFFER]
  | .EVR_RD_DATA => [F.EVR_RD_DATA.DATA]
  | .EVR_CNT_LOST => [F.EVR_CNT_LOST.COUNT]
  | .EVR_CNT_COAL => [F.EVR_CNT_COAL.COUNT]
  | .AGE_STATUS => [F.AGE_STATUS.LAST_H, F.AGE_STATUS.RUNNING, F.AGE_STATUS.DEFERRED, F.AGE_STATUS.RETIRED, F.AGE_STATUS.CLK_LIMITED]
  | .AGE_SEL => [F.AGE_SEL.INDEX, F.AGE_SEL.KIND]
  | .AGE_DATA => [F.AGE_DATA.MFG, F.AGE_DATA.LATEST, F.AGE_DATA.AT_REPLAN, F.AGE_DATA.STATE]

/-- Registers, in the order of the spec (part 0). -/
def Reg.part0 : List Reg :=
  [.ID_DEVICE, .ID_CAP, .ID_NODE, .ID_PART_CFG, .ID_PWR_CFG, .ID_PWR_STATE, .CORE_ID, .CORE_STATUS, .CORE_FAULT, .CORE_FAULT_ADDR, .CORE_FAULT_ATTR, .CORE_CFG, .CORE_GATE_CFG, .CORE_THR_LIVE, .CORE_THR_SYNC, .CORE_PERF_CYCLES, .CORE_PERF_ISSUE, .CORE_PERF_MBUSY, .CORE_PERF_SB_FULL, .CORE_PERF_RC_HIT]

/-- Registers, in the order of the spec (part 1). -/
def Reg.part1 : List Reg :=
  [.CORE_PERF_RC_MISS, .CORE_PERF_CS_CONFLICT, .CHK_CFG, .CHK_ST_CFG, .CHK_STATUS, .CHK_CNT_FAIL, .CHK_CNT_REPLAY, .CHK_CNT_ARB, .CHK_CNT_UNRES, .CHK_CNT_UNCHK, .CHK_CNT_RESID, .CHK_CNT_PAR, .CHK_LAST, .CHK_LAST_CTX, .CHK_INJECT, .CHK_CORE, .CHK_EUNIT, .MEM_CFG, .MEM_STATUS, .MEM_ECC_CNT_CORR]

/-- Registers, in the order of the spec (part 2). -/
def Reg.part2 : List Reg :=
  [.MEM_ECC_CNT_UNCORR, .MEM_REGION_COMMIT, .MEM_MIRROR_CFG, .MEM_MIRROR_STATUS, .MEM_OVF_CFG, .MEM_OVF_BASE, .MEM_BIAS_CMD, .MEM_BIAS_STATUS, .MEM_GFAULT_ADDR, .MEM_GFAULT_INFO, .MEM_REGION_LO, .MEM_REGION_HI, .QDB_TAIL, .QDB_HEAD, .QDB_CTX, .QDB_ERR, .QDB_ERR_ADDR, .QDB_EVT_SEL, .QDB_EVT_VAL, .QDB_CFG]

/-- Registers, in the order of the spec (part 3). -/
def Reg.part3 : List Reg :=
  [.QDB_PART_SHARE, .QDB_STATUS, .QDB_QBASE, .QDB_QCFG, .LNK_CFG, .LNK_STATUS, .LNK_CNT_CRC, .LNK_CNT_UNCORR, .LNK_CNT_REPLAY, .LNK_CNT_DUP, .LNK_CNT_PMSG_DUP, .LNK_CNT_PMSG_STALE, .LNK_CNT_PROTO, .LNK_CNT_LATE, .LNK_LANE, .LNK_LANE_ERR, .LNK_CIRC, .LNK_CIRC_SEQ, .PTH_CFG, .PTH_STATUS]

/-- Registers, in the order of the spec (part 4). -/
def Reg.part4 : List Reg :=
  [.LAT_PORT, .LAT_PLANE, .LAT_HINGE, .LAT_CIRC_A, .LAT_CIRC_B, .PTH_DISC_CFG, .PTH_PLAN_STATUS, .PTH_RT_STATUS, .PTH_DISC_PORT, .HCE_CFG, .HCE_RAMP_CFG, .HCE_PILOT_CFG, .HCE_STATUS, .HCE_SP, .HCE_CNT_OVR, .HCE_CNT_FB, .HCE_CNT_LATE, .HCE_GRP, .HCE_XT, .HCE_COEF_A]

/-- Registers, in the order of the spec (part 5). -/
def Reg.part5 : List Reg :=
  [.HCE_COEF_B, .HCE_LOOP_CTL, .HCE_LOOP_STAT, .HCE_LOOP_CAL, .TIM_CFG, .TIM_SERVO, .TIM_STATUS, .TIM_NOW, .TIM_SNAP_RAW, .TIM_SNAP_STEP, .TIM_SET, .TIM_SET_CTL, .TIM_LAST_STEP, .TIM_LAST_STEP_AT, .TIM_PPS, .TIM_PORT, .TIM_TRIG_TGT, .TIM_TRIG_CTL, .TIM_CIRC_DLY, .ORQ_REQ]

/-- Registers, in the order of the spec (part 6). -/
def Reg.part6 : List Reg :=
  [.ORQ_RSP, .ORQ_DOORBELL, .ORQ_MB_STATUS, .ORQ_MB_CFG, .ORQ_ASYNC_DONE, .ORQ_CFG_STATUS, .ORQ_HB_STATUS, .RST_CFG, .RST_MIRROR_CFG, .RST_STATUS, .RST_LAST, .RST_LAST_TIME, .RST_DUMP, .RST_MIRROR_STATUS, .RST_CNT_CTX, .RST_CNT_ENG, .RST_CNT_PART, .RST_CNT_CHIP, .UPD_CTL, .UPD_STATE]

/-- Registers, in the order of the spec (part 7). -/
def Reg.part7 : List Reg :=
  [.UPD_SLOT, .UPD_XFER, .UPD_GROUP, .UPD_GROUP_T, .SEC_STATUS, .SEC_POLICY, .SEC_FPR, .EVR_CFG, .EVR_STATUS, .EVR_RING, .EVR_RD_CTL, .EVR_RD_DATA, .EVR_CNT_LOST, .EVR_CNT_COAL, .AGE_STATUS, .AGE_SEL, .AGE_DATA]

/-- Every register. -/
def Reg.all : List Reg :=
  Reg.part0 ++ Reg.part1 ++ Reg.part2 ++ Reg.part3 ++ Reg.part4 ++ Reg.part5 ++ Reg.part6 ++ Reg.part7

end Sys2Proof.Machine
end

