-- ==== Sys2Proof/Machine/State.lean ====
section
/-! DEFINITION. The state of the module as plain data, chapter by chapter of the spec, and its value at reset. -/

namespace Sys2Proof.Machine

open Sys2Proof

/-! ## What the module drives outward, and event records -/

/-- What the module sends to the outside world, in order. The manual gives each of these an effect outside the
module only; the model keeps them as a log (`State.out`, notes/assumptions/5.md). -/
inductive Output where
  /-- The value of an SMBus read (R80). -/
  | smb (code value : Nat)
  /-- A transaction that is not acknowledged (R79, R80). -/
  | smbNack
  /-- The answer to the Alert Response Address (R79): the module's own address. -/
  | smbAlertAddr (addr : Nat)
  /-- The value of a BAR0 read. -/
  | bar0 (value : Nat)
  /-- An MSI-X message. -/
  | msix (vector : Nat)
  /-- A write to host memory over CXL.cache. -/
  | hostWrite (addr : Nat) (data : List (BitVec 8))
  /-- A read of host memory over CXL.cache. -/
  | hostRead (addr size : Nat)
  /-- A CXL.mem read's data; `poison` is the CXL poison indication. -/
  | cxlData (data : List (BitVec 8)) (poison : Bool)
  /-- A CXL back-invalidate or flush of a host line. -/
  | cxlSnoop (line : Nat)
  /-- A configuration request's answer: retry status, or the value served. -/
  | cxlRetry
  | cxlConfig (value : Nat)
  /-- The TAP executes an instruction; BYPASS is `tap 0 0`. -/
  | tap (instr value : Nat)
  /-- A control block on a wavelength-0 channel or lane: its kind and its fields. -/
  | ctrl (port kind : Nat) (fields : List Nat)
  | lane (lane kind : Nat) (fields : List Nat)
  /-- A packet on a circuit, as its bytes go over the line (Table 9-5). -/
  | packet (circ : Nat) (bytes : List (BitVec 8))
  /-- A protected message to a node: kind, key, value, payload fields. -/
  | pmsg (dst kind key value : Nat) (payload : List Nat)
  /-- A datagram or frame on the service port. -/
  | svc (kind : Nat) (fields : List Nat)
  /-- An SPDM response over CXL DOE. -/
  | spdm (code : Nat) (fields : List Nat)
  /-- A time message on a port (R598). -/
  | ptp (port kind : Nat) (fields : List Int)
deriving DecidableEq, Repr

/-- One event record, Table 17-1, before its bytes are laid out. -/
structure EvRec where
  seq       : Nat
  opMs      : Nat
  pwrCyc    : Nat
  nt        : Nat
  epoch     : Nat
  code      : Nat
  kind      : Nat
  index     : Nat
  sev       : Nat
  ctx       : Option Nat
  coalesced : Bool
  injected  : Bool
  coarse    : Bool
  count     : Nat
  payload   : List Nat
deriving DecidableEq, Repr

/-- What is known of records taken and never written (R733, R736). -/
structure LostSum where
  count   : Nat
  firstMs : Nat
  lastMs  : Nat
  maxSev  : Nat
  full    : Bool
  reserve : Bool
  holdUp  : Bool
deriving DecidableEq, Repr

/-- The event recorder (R727 to R740). -/
structure Recorder where
  seq        : Nat
  pwrCyc     : Nat
  buf        : List EvRec
  ring       : List EvRec
  bad        : List Nat
  latched    : Bool
  coalescing : Bool
  coal       : List EvRec
  lost       : Option LostSum
  flushing   : Bool
  stopped    : Bool
  ckOpMs     : Nat
  ckSummary  : Option LostSum
deriving DecidableEq, Repr

/-! ## The reset controller -/

/-- An action of the escalation ladder (Table 15-5), of class SEV3 to SEV6, with the unit on whose behalf it works. -/
structure Action where
  cls    : Nat
  engine : Nat
  part   : Nat
  cause  : Nat
  ctx    : Option Nat
  kind   : Nat
  index  : Nat
  mode   : Nat
  noDump : Bool
  ticket : Option Nat
  auto   : Bool
deriving DecidableEq, Repr

/-- How far the running action has come. -/
inductive ActPhase where
  | called | collecting | draining | executed | held
deriving DecidableEq, Repr

/-- The running action: when it started, its dump slot, its phase, whether R674 replaced an earlier one, and
`RST_CFG.PWRCYC_EN` as it stood when it started (class L: the field governs the next action started, R17). -/
structure RunAct where
  act     : Action
  startMs : Nat
  slot    : Option Nat
  phase   : ActPhase
  repeated : Bool
  cycleEn : Bool
deriving DecidableEq, Repr

/-- A context removal in progress (R666), with the unit that its event named. -/
structure Removal where
  slot    : Nat
  cause   : Nat
  startMs : Nat
  begun   : Bool
  ticket  : Option Nat
  kind    : Nat
  index   : Nat
deriving DecidableEq, Repr

/-- A dump slot (Table 15-8) or a flash copy of one (R679). -/
structure Dump where
  seq     : Nat
  step    : Nat
  flags   : Nat
  cause   : Nat
  ctx     : Option Nat
  units   : List (Nat × Nat × Nat)
  opMs    : Nat
  nt      : Nat
  epoch   : Nat
  node    : Nat
deriving DecidableEq, Repr

/-- The reset controller and the dump machinery (R664 to R679): the running action, the queue, removals; when automatic chip
resets (R672) and keeper firmware restarts (R661) were made; until when a restart keeps the mailbox busy; dumps by slot, the slot a dump takes next, `SEQ`, the two
entries of the flash dump area and the copy in progress; whether the Orquin cores are down; when the first feed came into
range; and what an executed power cycle leaves: the module is held (R670). -/
structure ResetCtl where
  running    : Option RunAct
  queue      : List Action
  removals   : List Removal
  chipTimes  : List Nat
  keepTimes  : List Nat
  keepBusy   : Nat
  dumps      : List (Nat × Dump)
  nextSlot   : Nat
  dumpSeq    : Nat
  flashDumps : List (Nat × Dump)
  nextFlash  : Nat
  copying    : Option Nat
  orqDown    : Bool
  startMs    : Nat
deriving DecidableEq, Repr

/-- The recorder of a module that has recorded nothing. -/
def Recorder.init : Recorder where
  seq := 0
  pwrCyc := 0
  buf := []
  ring := []
  bad := []
  latched := false
  coalescing := false
  coal := []
  lost := none
  flushing := false
  stopped := false
  ckOpMs := 0
  ckSummary := none

/-- The reset controller with nothing to do. -/
def ResetCtl.init : ResetCtl where
  running := none
  queue := []
  removals := []
  chipTimes := []
  keepTimes := []
  keepBusy := 0
  dumps := []
  nextSlot := 0
  dumpSeq := 0
  flashDumps := []
  nextFlash := 0
  copying := none
  orqDown := true
  startMs := 0

/-! ## Feeds, pins and SMBus (chapter 1) -/

/-- One feed and its input stage. -/
structure Feed where
  inRange  : Bool
  fault    : Bool
  up       : Bool
  carrying : Bool
  waiting  : Bool
deriving DecidableEq, Repr

/-- The timed phases of the proof test (R53). -/
inductive ProofPhase where
  | rampA | holdA | returnA | waitA | rampB | holdB | returnB | waitB
deriving DecidableEq, Repr

/-- A proof test in progress (R52 to R58, Table 1-12). -/
structure Proof where
  phase  : ProofPhase
  ticket : Option Nat
  failA  : Bool
  failB  : Bool
  vminA  : Nat
  vminB  : Nat
  tpkA   : Int
  tpkB   : Int
  load   : Nat
  faultA : Bool
  faultB : Bool
deriving DecidableEq, Repr

/-- The instruction the TAP holds (R77, R78). -/
inductive TapInstr where
  | bypass | idcode | extest | intest | other (code : Nat)
deriving DecidableEq, Repr

/-- The sensors read over SMBus (Table 1-6): what each last measured. -/
structure Sensors where
  feedAV : Nat
  feedAI : Nat
  feedBV : Nat
  feedBI : Nat
  power  : Nat
  inlet  : Nat
  outlet : Nat
deriving DecidableEq, Repr

/-- Feeds, proof test, SMBus registers and pins. `status` and `mask` are the words of Table 1-7; `boundary` is the
boundary register over the signal connector pins (R76), as the last EXTEST or INTEST scan left it. -/
structure Power where
  a            : Feed
  b            : Feed
  ramping      : Bool
  startCheck   : Bool
  started      : Bool
  holdUp       : Bool
  domains      : Bool
  proof        : Option Proof
  proofResult  : Nat
  status       : BitVec 16
  mask         : BitVec 16
  hbCount      : Nat
  hbSeen       : Bool
  pwrcycReason : Nat
  pwrcycReq    : Bool
  sensors      : Sensors
  suspect      : Bool
  monSilent    : Bool
  coolBand     : Bool
  coolStepped  : Bool
  coolStop     : Bool
  hbOut        : Bool
  recovLow     : Bool
  perstLow     : Bool
  perstAt      : Nat
  cxlCfg       : List (Nat × Nat)
  memActive    : Bool
  tap          : TapInstr
  boundary     : Nat
deriving DecidableEq, Repr

/-- A feed that is out of range, its stage healthy and off. -/
def Feed.init : Feed := ⟨false, false, false, false, false⟩

/-- Both feeds out, as at the end of a hold-up; the pins at their unpowered levels. -/
def Power.init : Power where
  a := Feed.init
  b := Feed.init
  ramping := false
  startCheck := false
  started := false
  holdUp := false
  domains := false
  proof := none
  proofResult := 0
  status := 3
  mask := 0
  hbCount := 0
  hbSeen := false
  pwrcycReason := 0
  pwrcycReq := false
  sensors := ⟨0, 0, 0, 0, 0, 0, 0⟩
  suspect := false
  monSilent := false
  coolBand := false
  coolStepped := false
  coolStop := false
  hbOut := false
  recovLow := false
  perstLow := true
  perstAt := 0
  cxlCfg := []
  memActive := false
  tap := .idcode
  boundary := 0

/-! ## Quarters and module power (chapter 2) -/

/-- One compute quarter: its clock, a gate in progress (R103), a wake in progress, accesses that wait for the wake, its
partition reset, and the limits that ageing re-planning sets (R744). -/
structure Quarter where
  mhz       : Nat
  ceiling   : Nat
  ceilNext  : Nat
  guardMv   : Nat
  guardNext : Nat
  gating    : Bool
  waking    : Bool
  waiting   : List MemReq
  inReset   : Bool
  outOfSvc  : Bool
deriving DecidableEq, Repr

/-- Module power (R96, R104 to R108) and references (R71, R111): whether `PD_LATTICE` is supplied, whether `PD_IO` is in
its low-power hold, whether LPDDR6 is in self-refresh, and whether an entry to `DORMANT` (R108) or the restoring of the
lasers after an exit (R107) is in progress. -/
structure Block where
  quarters   : List (Nat × Quarter)
  lattice    : Bool
  ioHold     : Bool
  selfRef    : Bool
  entering   : Bool
  exiting    : Bool
  trefOk     : Bool
  oscOk      : Bool
  noRef      : Bool
deriving DecidableEq, Repr

/-- A quarter at the nominal clock, gated (`ID_PWR_STATE.Q_GATED` resets to 0xF). -/
def Quarter.init : Quarter where
  mhz := 1800
  ceiling := 1800
  ceilNext := 1800
  guardMv := 0
  guardNext := 0
  gating := false
  waking := false
  waiting := []
  inReset := false
  outOfSvc := false

/-- Module power after a keeper reset: the references are taken as present until an event says otherwise. -/
def Block.init : Block where
  quarters := []
  lattice := false
  ioHold := false
  selfRef := false
  entering := false
  exiting := false
  trefOk := true
  oscOk := true
  noRef := false

/-! ## Cores and threads (chapter 3) -/

/-- The thread states of Table 3-2. -/
inductive ThrSt where
  | free | ready | waitDep | waitRes | waitSync | halted | faulted
deriving DecidableEq, Repr

/-- What a thread in a wait state waits for (Table 3-3). -/
inductive Wait where
  | dep (rs : List RegName)
  | entry
  | matq
  | memq
  | bar (b : Nat)
  | event (e : Nat) (v : BitVec 64)
  | acq
  | rel
  | exit
deriving DecidableEq, Repr

/-- The dispatch command that started a thread. -/
structure CmdRef where
  slot  : Nat
  queue : Nat
  count : Nat
deriving DecidableEq, Repr

/-- A hardware thread: its registers (unlisted ones read 0, R123), its generator, and the command that started it.
Vector register *r* lane *l* has key *r* × 64 + *l*. -/
structure Thread where
  st    : ThrSt
  pc    : Nat
  ctx   : Nat
  prio  : Nat
  s     : List (Nat × BitVec 64)
  v     : List (Nat × BitVec 32)
  p     : List (Nat × BitVec 64)
  rng   : BitVec 64
  entry : Nat
  cmd   : CmdRef
  hold  : Bool
  wait  : Option Wait
deriving DecidableEq, Repr

/-- What a scoreboard entry stands for (R140). -/
inductive SbKind where
  | load | sfu | mload | mma | mstore
deriving DecidableEq, Repr

/-- Where a load's bytes go: a scalar register, or 4-byte lanes of a vector register in order. -/
inductive SbDest where
  | scalar (r : Nat)
  | vector (r : Nat) (lanes : List Nat)
  | none
deriving DecidableEq, Repr

/-- A scoreboard entry: whether it is one of the shared ones (R142), the parts of its result that have arrived, by byte place, and
the parts still awaited. -/
structure SbEntry where
  tag    : Nat
  thread : Nat
  shared : Bool
  kind   : SbKind
  dest   : SbDest
  parts  : List (Nat × List (BitVec 8))
  await  : Nat
deriving DecidableEq, Repr

/-- One side of an operand bank: its format, codes row by row along *K*, and block scales. -/
structure Panel where
  fmt    : Nat
  codes  : List (List Nat)
  scales : List (List Nat)
deriving DecidableEq, Repr

/-- A byte span of the core store that the retention table holds for the `MLOAD` of a tag (R155). -/
structure Span where
  bank : Nat
  addr : Nat
  len  : Nat
  tag  : Nat
deriving DecidableEq, Repr

/-- An operand bank. `spec` is the `MLOAD` that filled it, `tag` its
scoreboard tag. -/
structure Bank where
  filled : Bool
  stale  : Bool
  tag    : Nat
  spec   : Option MloadSpec
  a      : Panel
  b      : Panel
deriving DecidableEq, Repr

/-- An accumulator sub-block: its two copies of 128 × 64 words, row by row (empty reads as 0), which of the two is
the checkpoint (R150), and for each copy whether it holds INT32 values. -/
structure SubBlock where
  x     : List (BitVec 32)
  y     : List (BitVec 32)
  ckptY : Bool
  xInt  : Bool
  yInt  : Bool
deriving DecidableEq, Repr

/-- A matrix instruction. -/
inductive MatOp where
  | mload (m : MloadSpec)
  | mma (m : MmaSpec)
  | mstore (m : MstoreSpec)
deriving DecidableEq, Repr

/-- An entry of the matrix queue: the instruction, its thread, its scoreboard tag, the
tag of the `MLOAD` that an `MMA` reads, the issue address, the rounding
generator's value at issue, and whether its thread has faulted or halted (R177). -/
structure MatEntry where
  op      : MatOp
  thread  : Nat
  tag     : Nat
  src     : Nat
  pc      : Nat
  rng     : BitVec 64
  ctx     : Nat
  cmd     : CmdRef
  orphan  : Bool
deriving DecidableEq, Repr

/-- How far a failing tile has come (R242 to R248). -/
inductive TilePhase where
  | replay | wantSibling | arbitrating | transfer
deriving DecidableEq, Repr

/-- A tile whose check has failed: results O and P by digest and by verdict, Q and its values, the sibling, and the kind
and bits of an injected error (R264); the free value that the first computation drew for elements no `MLOAD` gave, which replay
and arbitration use again (R224); and whether a residue error still awaits the result of its recomputation (Table 5-5). -/
structure Tile where
  phase    : TilePhase
  free     : Nat
  resDue   : Bool
  inj      : Nat
  injBits  : BitVec 32
  oVoid    : Bool
  direct   : Bool
  digO     : Nat
  digP     : Nat
  pFail    : Bool
  sibling  : Option Nat
  q        : List (Nat × List (BitVec 32))
  digQ     : Nat
  outcome  : Nat
  tries    : Nat
deriving DecidableEq, Repr

/-- A core barrier in a round: the *n* of the round and the threads that have arrived (R130). -/
structure Barrier where
  n       : Nat
  arrived : List Nat
deriving DecidableEq, Repr

/-- The gate state of a core (R179). -/
inductive CoreGate where
  | run | clock | power
deriving DecidableEq, Repr

/-- A group whose threads start when the zeroing ends (R124). -/
structure GroupStart where
  slots : List Nat
  group : Nat
  prio  : Nat
  ctx   : Nat
  entry : Nat
  idx   : Bool
  s0    : List (BitVec 64)
  cmd   : CmdRef
deriving DecidableEq, Repr

/-- On whose behalf a request goes: engine code as in `LNK` packets (0 to 4, 5 a core thread, 6 Orquin), with the
attribution of `MEM_GFAULT_INFO`, and the address of a thread's instruction that made it. -/
structure Source where
  engine : Nat
  job    : Nat
  ctx    : Nat
  part   : Nat
  core   : Nat
  thread : Nat
  cmd    : CmdRef
  pc     : Nat
deriving DecidableEq, Repr

/-- What a request in a memory queue still has to do: an access that has passed its checks, at its home; or a load part, a store
or an atomic at a global address, which has not been checked yet. -/
inductive HeldWork where
  | here (req : MemReq)
  | load (tag part addr n : Nat) (bypass : Bool)
  | store (addr : Nat) (data : List (BitVec 8))
  | atom (tag addr n : Nat) (kind : MemKind) (fetch : Bool)
deriving DecidableEq, Repr

/-- A request in the memory queue that has not been performed: a write held against a retained span, or a request behind one, or
a load that waits for its thread's own store (R143, R156). `thread` is none for an engine or host write. -/
structure HeldReq where
  thread : Option Nat
  src    : Source
  work   : HeldWork
deriving DecidableEq, Repr

/-- One core. `entering` tells a gate in progress (R183); `pausing` is the tag of the tile that a sibling still finishes before it
pauses its queue (R246). -/
structure Core where
  threads  : List (Nat × Thread)
  sb       : List SbEntry
  nextTag  : Nat
  mq       : List MatEntry
  memq     : List HeldReq
  bars     : List (Nat × Barrier)
  banks    : List (Nat × Bank)
  retain   : List Span
  acc      : List (Nat × SubBlock)
  tile     : Option Tile
  arbFor   : Option Nat
  pausing  : Option Nat
  gate     : CoreGate
  entering : Bool
  zeroing  : Bool
  lastCtx  : Option Nat
  reserved : List GroupStart
  waiting  : List MemReq
  rcache   : List (Nat × List (BitVec 8))
  testAt   : Nat
  testPer  : Nat
  mustTest : Bool
deriving DecidableEq, Repr

def Thread.init : Thread where
  st := .free
  pc := 0
  ctx := 0
  prio := 0
  s := []
  v := []
  p := []
  rng := 1
  entry := 0
  cmd := ⟨0, 0, 0⟩
  hold := false
  wait := none

def Panel.init : Panel := ⟨0, [], []⟩
def Bank.init : Bank := ⟨false, false, 0, none, Panel.init, Panel.init⟩
def SubBlock.init : SubBlock := ⟨[], [], false, false, false⟩

/-- A core after a partition reset. -/
def Core.init : Core where
  threads := []
  sb := []
  nextTag := 0
  mq := []
  memq := []
  bars := []
  banks := []
  retain := []
  acc := []
  tile := none
  arbFor := none
  pausing := none
  gate := .run
  entering := false
  zeroing := false
  lastCtx := none
  reserved := []
  waiting := []
  rcache := []
  testAt := 0
  testPer := 3600
  mustTest := false

/-! ## Checking (chapter 5) -/

/-- A unit's history (R261): the operating times, in ms, of its last three events, newest first; whether it has become
permanent; the copy in configuration flash and whether a write is due. -/
structure Hist where
  times : List Nat
  perm  : Bool
  flash : List Nat
  flashPerm : Bool
  dirty : Bool
deriving DecidableEq, Repr

/-- Checking: histories (units 0 to 1,151 are core × 4 + `MXA`, `CKL`, `VEC`, `SFU`; unit 1,152 + *n* is
`CHK_EUNIT[n]`), retirement of cores (1 pending, 2 retired), and `CHK_CFG` in force with the cores whose tile boundary a commit
still awaits (R20). -/
structure Check where
  hist    : List (Nat × Hist)
  retire  : List (Nat × Nat)
  qMin    : Nat
  arbWait : Nat
  commit  : List Nat
deriving DecidableEq, Repr

def Hist.init : Hist := ⟨[], false, [], false, false⟩
def Check.init : Check := ⟨[], [], 64, 10, []⟩

/-! ## Memory (chapter 6) -/

/-- A region entry in force (R289). Base and size are in bytes. -/
structure Region where
  r      : Bool
  w      : Bool
  a      : Bool
  remote : Bool
  bcast  : Bool
  sealed_ : Bool
  mirror : Bool
  mirTgt : Bool
  ovf    : Bool
  job    : Nat
  base   : Nat
  size   : Nat
deriving DecidableEq, Repr

/-- What happens with a request's answer. -/
inductive ReqDst where
  /-- A part of a scoreboard entry: the byte place, the offset and length within the answer, whether lines are
  installed in the read cache. -/
  | load (core tag part skip len : Nat) (install : Option Nat)
  /-- A store or posted atomic of a thread, or an engine write: nothing is written back. -/
  | store
  /-- A copy's read: the answer is written at the global address. -/
  | copyTo (dst : Nat)
  /-- A part of an engine command's operand. -/
  | cmd (part : Nat)
  /-- A record of a queue, a completion record, or a head shadow (Table 7-2). -/
  | fetch
  | record
  | area
  /-- A part of a ring run. -/
  | ring (run part : Nat)
  /-- A remote module's request: the answer goes back on the circuit. -/
  | reply (circ : Nat) (pkt : Pkt) (type : Nat)
  /-- A host access that waits. -/
  | host
deriving DecidableEq, Repr

/-- Where an outstanding request is. -/
inductive ReqAt where
  | node (n : Nat)
  | host
  | bias
  | gated
  | buddy
deriving DecidableEq, Repr

/-- An outstanding request, keyed by its tag. -/
structure OutReq where
  loc  : ReqAt
  src  : Source
  kind : MemKind
  addr : Nat
  dst  : ReqDst
deriving DecidableEq, Repr

/-- A region commit or a bias change in progress. -/
structure BiasRun where
  start  : Nat
  count  : Nat
  device : Bool
deriving DecidableEq, Repr

/-- An HDM decoder (R321). -/
structure Hdm where
  base : Nat
  size : Nat
  dpa  : Nat
deriving DecidableEq, Repr

/-- The memory block: poisoned granules (offset ÷ 64), the region table in force, the commit in progress (the staged
table it took), 2 MiB granules in host bias, the HDM decoders, outstanding requests, mirror writes awaiting the buddy,
the overflow translation cache (page and entry), self-refresh failure, whether the
next training is `FULL` (Table 15-1), and whether the CXL link is down. A mirror write that awaits the buddy keeps the bytes of its
answer; an access that waits for host-biased lines keeps those still to come, in order of arrival (R295, R323); `frozen` tells that
this module's copy for its primary is frozen (Table 6-7); `hdmFail` lists the decoders whose last commit failed (R321). -/
structure Memory where
  poison   : List (Nat × Unit)
  regions  : List (Nat × Region)
  commit   : Option (List (Nat × Region))
  hostBias : List (Nat × Unit)
  biasRun  : Option BiasRun
  hdm      : List (Nat × Hdm)
  reqs     : List (Nat × OutReq)
  nextTag  : Nat
  mirWait  : List (Nat × List (BitVec 8))
  biasWait : List (Nat × List Nat)
  frozen   : Bool
  hdmFail  : List Nat
  ovfCache : List (Nat × Nat)
  srFail   : Bool
  full     : Bool
  linkDown : Bool
deriving DecidableEq, Repr

def Memory.init : Memory where
  poison := []
  regions := []
  commit := none
  hostBias := []
  biasRun := none
  hdm := []
  reqs := []
  nextTag := 0
  mirWait := []
  biasWait := []
  frozen := false
  hdmFail := []
  ovfCache := []
  srFail := false
  full := true
  linkDown := false

/-! ## Engines, contexts and queues (chapter 7) -/

/-- A dispatch in progress (R354): the next group, where the round-robin counts from, the cores used. -/
structure DispRun where
  next  : Nat
  from_ : Nat
  cores : List Nat
deriving DecidableEq, Repr

/-- A collective in progress at this member: its pair, sequence, group and operands; the parts of its source that have
come; the step it stands at, whether its ready tokens for the step are out, tokens received as (rank, step), ranks that
have this step's data, bytes received by rank and the ranks complete in order of arrival; partial results by chunk,
finished blocks, and arrivals of a `BARRIER`. -/
structure CollRun where
  job     : Nat
  group   : Nat
  seq     : Nat
  rank    : Nat
  nodes   : List Nat
  cop     : Nat
  fmt     : Nat
  op      : Nat
  ring    : Bool
  count   : Nat
  root    : Nat
  dst     : Nat
  need    : Nat
  parts   : List (Nat × List (BitVec 8))
  loaded  : Bool
  step    : Nat
  offered : Bool
  tokens  : List (Nat × Nat)
  sent    : List Nat
  rx      : List (Nat × List (BitVec 8))
  come    : List Nat
  work    : List (Nat × List (BitVec 32))
  res     : List (Nat × List (BitVec 8))
  arrived : List Nat
deriving DecidableEq, Repr

/-- The work of a started command. -/
inductive CmdWork where
  /-- Started; its opcode's step has not run. -/
  | started
  /-- Its requests are out, or its condition does not hold yet. -/
  | waiting
  | dispatch (d : DispRun)
  | coll (c : CollRun)
  | ring (run : Nat)
  | path (left : Nat)
  /-- A copy engine command between its parts. -/
  | convert (parts : List (Nat × List (BitVec 8)))
  /-- Done, with its status and result. -/
  | done (status result : Nat)
deriving DecidableEq, Repr

/-- A command fetched from a queue; `ended` once it has completed and the head has not passed it. -/
structure Cmd where
  count : Nat
  bytes : List (BitVec 8)
  work  : Option CmdWork
  ended  : Bool
deriving DecidableEq, Repr

/-- A queue's fetched commands in index order; a command stays until the head passes it. `H` and `T` are the
registers `QDB_HEAD` and `QDB_TAIL`. -/
structure Queue where
  fetched : Nat
  cmds    : List Cmd
deriving DecidableEq, Repr

/-- What a resident context holds beside its registers: its quarter store share (R168), and when a head last
advanced or a queue last entered `RUN` (Table 15-3), in operating ms, with `RST_CFG.CTX_WD_S` as it stood then: the watchdog of
class L that started at that moment (R17). -/
structure Ctx where
  qsFirst : Nat
  qsMib   : Nat
  progress : Nat
  wd      : Nat
deriving DecidableEq, Repr

/-- An engine's arbiter (R328): start slots left to each partition in the round, the queue served last in each, and whether
the engine is stalled or held by a reset. -/
structure Arb where
  credit : List (Nat × Nat)
  last   : List (Nat × Nat)
  held   : Bool
deriving DecidableEq, Repr

/-- A ring run (R408 to R421): its command, job, `RING_ID` and descriptor; its state (Table 8-7: 0 `HELLO`, 1 `ROTATE`,
3 `FAILED`); neighbours' hellos as (node, first core); tokens received and sent; forwards started; readies done; bytes of
each step that have been performed; and neighbours whose abort has come. -/
structure RingRun where
  cmd     : CmdRef
  job     : Nat
  id      : Nat
  desc    : List (BitVec 8)
  state   : Nat
  hellos  : List (Nat × Nat)
  tokens  : List Nat
  sentTok : List Nat
  fwd     : List Nat
  ready   : Nat
  got     : List (Nat × Nat)
  aborts  : List Nat
deriving DecidableEq, Repr

/-- A hello that came before its run (R414). -/
structure HeldHello where
  src  : Nat
  job  : Nat
  id   : Nat
  desc : List (BitVec 8)
deriving DecidableEq, Repr

/-- Engines: contexts by slot, queues by slot × 8 + queue, events by slot × 64 + event, arbiters, collective pairs by
(job × 65,536 + group) with their sequences, tokens that came before their command as (pair, node, sequence, step, with
step 65,536 for an arrival), ring runs, hellos held for a run, and aborts that the ring
engine sends once it is out of reset (R431). -/
structure Engines where
  ctxs    : List (Nat × Ctx)
  queues  : List (Nat × Queue)
  events  : List (Nat × BitVec 64)
  arbs    : List (Nat × Arb)
  pairs   : List (Nat × Nat)
  early   : List (Nat × Nat × Nat × Nat)
  rings   : List (Nat × RingRun)
  hellos  : List HeldHello
  ringDue : List Pkt
deriving DecidableEq, Repr

def Queue.init : Queue := ⟨0, []⟩
def Ctx.init : Ctx := ⟨0, 0, 0, 0⟩
def Arb.init : Arb := ⟨[], [], false⟩
def Engines.init : Engines := ⟨[], [], [], [], [], [], [], [], []⟩

/-! ## Placement (chapter 8) -/

/-- How far a placement has come (R396 to R400). -/
inductive PlacePhase where
  | partner | circuit | held
deriving DecidableEq, Repr

/-- A placement: its record (Table 8-1), its ticket, the mode chosen, the LPDDR6 it holds as (base, size), its phase and
when its hold began, and its circuit. -/
structure Placement where
  record : List (BitVec 8)
  ticket : Nat
  mode   : Nat
  frames : Nat
  map    : Nat
  spans  : List (Nat × Nat)
  phase  : PlacePhase
  since  : Nat
  circ   : Option Nat
deriving DecidableEq, Repr

/-- A partner's record that came before its placement, with the operating ms of its arrival (R640). -/
structure HeldRec where
  src    : Nat
  born   : Nat
  record : List (BitVec 8)
deriving DecidableEq, Repr

/-- Placements by job, partner records that came first, and the job that holds the overflow placement (R396, row 6). -/
structure Placements where
  jobs   : List (Nat × Placement)
  recs   : List HeldRec
  ovfJob : Option Nat
deriving DecidableEq, Repr

def Placements.init : Placements := ⟨[], [], none⟩

/-! ## Links (chapter 9) -/

/-- A packet in a transmit queue or in replay: its type (Table 9-6), the packet, and when a protected message was
first sent, in operating ms. -/
structure TxPkt where
  type : Nat
  pkt  : Pkt
  born : Nat
deriving DecidableEq, Repr

/-- The state of a lane's receiver and transmitter beyond `LNK_LANE`: the numbers received and not yet in sequence, a
gap that has been reported, the credits used of each class, the far end's bring-up, and one return from `CHECK`. -/
structure Lane where
  buf     : List (Nat × TxPkt)
  expect  : Option Nat
  nak     : Bool
  usedReq : Nat
  usedRsp : Nat
  usedPmsg : Nat
  retReq  : Nat
  retRsp  : Nat
  retPmsg : Nat
  seenReq : Nat
  seenRsp : Nat
  seenPmsg : Nat
  initOk  : Bool
  farInc  : Nat
  retried : Bool
deriving DecidableEq, Repr

/-- A circuit's end, or a wavelength-0 channel's (key 512 + port): waiting packets, unacknowledged packets, the latest
`ACK`, consecutive replays, the circuit index at the far end, its lanes in plane order, a move in progress, and the
time it entered `MOVING` and the time it has spent there before, the circuit whose requests must be acknowledged first after a rebinding (R551), `TX_NEXT`,
*E*, and the far incarnation once known (R471). -/
structure Circ where
  txq     : List TxPkt
  replay  : List TxPkt
  ack     : Nat
  replays : Nat
  rcirc   : Nat
  lanes   : List Nat
  moving  : Bool
  before  : Nat
  movedAt : Nat
  inMove  : Nat
  after   : Option Nat
  tx      : Nat
  e       : Nat
  far     : Option Nat
deriving DecidableEq, Repr

/-- A source's protected-message window (R477): *H*, the accepted numbers of the window, and the incarnation. -/
structure PmsgWin where
  high : Nat
  seen : List Nat
  inc  : Nat
deriving DecidableEq, Repr

/-- Links: circuits and channels, lanes, the protected sequence counters, receive windows, when `LNK_PMSG_SINGLE` was
last recorded per destination, the incarnation (R470), the answers
of ring runs that wait to be placed, and for each destination when its latest messages went out and the messages that wait
(R475). -/
structure Links where
  circs  : List (Nat × Circ)
  lanes  : List (Nat × Lane)
  pseq   : List (Nat × Nat)
  wins   : List (Nat × PmsgWin)
  single : List (Nat × Nat)
  inc    : Nat
  inbox  : List (Nat × Pkt)
  times  : List (Nat × List Nat)
  held   : List Pkt
deriving DecidableEq, Repr

def Lane.init : Lane := ⟨[], none, false, 0, 0, 0, 0, 0, 0, 0, 0, 0, false, 0, false⟩
def Circ.init : Circ := ⟨[], [], 0, 0, 0, [], false, 0, 0, 0, none, 0, 0, none⟩
def Links.init : Links := ⟨[], [], [], [], [], 0, [], [], []⟩

/-- A routing table entry (Table 11-8): next hops A and B by port, or the bound circuit. -/
structure Route where
  bound : Option Nat
  a     : Option Nat
  b     : Option Nat
  repl  : Bool
deriving DecidableEq, Repr

def Route.init : Route := ⟨none, none, none, false⟩

/-! ## The path engine (chapter 10) -/

/-- One step of a route: the egress port at the module before, the module, and its arrival port. -/
structure Hop where
  egress  : Nat
  node    : Nat
  arrival : Nat
deriving DecidableEq, Repr

/-- A plane path of this module (R487): its plane, input and output, the circuit table entry that holds it, whether it
is lit, verified, and held for a backup. -/
structure PPath where
  plane : Nat
  inp   : Nat
  outp  : Nat
  own   : Nat
  lit   : Bool
  ok    : Bool
  bk    : Bool
deriving DecidableEq, Repr

/-- Who a path request list came from. -/
inductive PathSrc where
  | cmd (r : CmdRef)
  | mailbox (ticket : Nat)
  | placement (job : Nat)
deriving DecidableEq, Repr

/-- A request entry (Table 10-6): its bytes 0 to 15, whether it has started, its circuit, its status and reason once it
has ended, and bytes 19 to 27 of its answer. -/
structure PathReq where
  bytes   : List (BitVec 8)
  started : Bool
  circ    : Option Nat
  ended    : Option (Nat × Nat)
  answer  : List (BitVec 8)
deriving DecidableEq, Repr

/-- A list of request entries at work: where it came from, its opcode, the step tick of a re-cable, the local offset of
the list (0 for a mailbox list), the entries, and whether a re-cable has been committed. -/
structure PathJob where
  src     : PathSrc
  op      : Nat
  step    : Nat
  base    : Nat
  entries : List PathReq
  commit  : Bool
deriving DecidableEq, Repr

/-- An answer to `RESV`: the module, whether for the backup route, the planes granted and the spans reported. -/
structure PathAck where
  node   : Nat
  bk     : Bool
  planes : Nat
  spanA  : Nat
  spanB  : Nat
deriving DecidableEq, Repr

/-- What a circuit table entry holds beside `LAT_CIRC_A` and `LAT_CIRC_B`. An originator: its request, the routes, the
modules it waits for, the answers, the modules still to wake, the row of Table 10-12 of a move (0 for a set-up), its phase
(1 reserving, 2 lighting), whether it serves a placement (R551), and the planes chosen. A hop: whether it is staged and committed, and its step tick. -/
structure PathEnt where
  job     : Option (Nat × Nat)
  lanes   : Nat
  mode    : Nat
  hops    : Nat
  mask    : Nat
  ports   : List Nat
  cands   : List (List Hop)
  route   : List Hop
  bk      : List Hop
  wait    : List (Nat × Bool)
  acks    : List PathAck
  offered : Nat
  again   : Bool
  reason  : Nat
  tried   : Nat
  wake    : List Nat
  row     : Nat
  phase   : Nat
  place   : Bool
  planed  : Nat
  step    : Nat
  staged  : Bool
  commit  : Bool
  downAt  : Nat
  tear    : List (Nat × Nat)
  drop    : Bool
  evac    : List Nat
  audit   : Bool
deriving DecidableEq, Repr

/-- Paths: plane paths, table entries beyond their registers, request lists at work by number, whether the path core is up,
and the plane paths that failed verification, as (plane, input, output) (R489). -/
structure Paths where
  planes : List PPath
  ents   : List (Nat × PathEnt)
  jobs   : List (Nat × PathJob)
  next   : Nat
  coreUp : Bool
  fails  : List (Nat × Nat × Nat)
deriving DecidableEq, Repr

def PathEnt.init : PathEnt where
  job := none
  lanes := 0
  mode := 0
  hops := 0
  mask := 0
  ports := []
  cands := []
  route := []
  bk := []
  wait := []
  acks := []
  offered := 0
  again := false
  reason := 0
  tried := 0
  wake := []
  row := 0
  phase := 0
  place := false
  planed := 0
  step := 0
  staged := false
  commit := false
  downAt := 0
  tear := []
  drop := false
  evac := []
  audit := false

def Paths.init : Paths := ⟨[], [], [], 0, false, []⟩

/-! ## Topology (chapter 11) -/

/-- A plan exception (Table 11-5). -/
structure PlanExc where
  nodeA : Nat
  portA : Nat
  open_ : Bool
  nodeB : Nat
  portB : Nat
  len   : Nat
deriving DecidableEq, Repr

/-- A wiring plan (Table 11-4): `present` and `fpr` by node. -/
structure Plan where
  ver     : Nat
  blocks  : Nat
  crc     : Nat
  self    : Nat
  lens    : Nat × Nat × Nat
  present : List Nat
  fpr     : List (Nat × Nat)
  excs    : List PlanExc
deriving DecidableEq, Repr

/-- What a port knows from discovery: the latest `DISC`, how many in a row were identical, whether the port has gone
silent, how many in a row accepted a swap, and the plan versions reported as skew. -/
structure PortDisc where
  last   : Option Disc
  same   : Nat
  silent : Bool
  accept : Nat
  skew   : List Nat
deriving DecidableEq, Repr

/-- Plans (in configuration flash) and discovery: the committed, previous and loaded plan, discovery by port, accepted
swaps by port, fibre lengths measured by port (R547), and whether the next hops must be rebuilt. -/
structure Topology where
  cur    : Option Plan
  prev   : Option Plan
  loaded : Option Plan
  ports  : List (Nat × PortDisc)
  swaps  : List (Nat × Nat × Nat)
  lens   : List (Nat × Nat)
  stale  : Bool
deriving DecidableEq, Repr

def PortDisc.init : PortDisc := ⟨none, 0, false, 0, []⟩
def Topology.init : Topology := ⟨none, none, none, [], [], [], false⟩

/-! ## Hinge control engine (chapter 12) -/

/-- A ramp at work (R578): samples done, length, drive at its start, target drive, samples to wait before it. -/
structure Ramp where
  k    : Nat
  len  : Nat
  u0   : Int
  u1   : Int
  wait : Nat
deriving DecidableEq, Repr

/-- A loop's working values, in Q16.16 (R565, R566): the drive without dither, its parts, the code that the actuator has, whether the
last output was clamped at `UMAX` or at `UMIN`, its ramp, `LIT` and samples in `SETTLE`, the state it held before `HOLD`, bad and good
windows in a row, the drive without crosstalk at the end of the last good window, whether `HOLD` lasts one sample (R589), when it
entered `FB_HOLD`, and a preamplifier's moving set-point. -/
structure Loop where
  u     : Int
  ff    : Int
  c     : Int
  p     : Int
  i     : Int
  ef    : Int
  act   : Int
  atMax : Bool
  atMin : Bool
  ramp  : Option Ramp
  lit   : Bool
  set   : Nat
  prior : Nat
  bad   : Nat
  good  : Nat
  goodU : Int
  once  : Bool
  since : Nat
  gt    : Int
deriving DecidableEq, Repr

/-- A ramp record waiting for its start (Table 12-5). -/
structure RampRec where
  loop   : Nat
  target : Bool
  lit    : Bool
  start  : Nat
deriving DecidableEq, Repr

/-- A loop group: periods since the start, samples computed, clean due periods in a row. -/
structure Group where
  n     : Nat
  clean : Nat
deriving DecidableEq, Repr

/-- The engine: the period count, loops that differ from their start, groups, re-cable records that wait for their tick,
stepped set-points for the next sample (target and `LIT`), the groups that have yet to take a new image's microcode, whether a new
image brings calibration values, and the loops that have taken theirs (R722). -/
structure Hce where
  period : Nat
  loops  : List (Nat × Loop)
  groups : List (Nat × Group)
  queue  : List RampRec
  steps  : List (Nat × Bool × Bool)
  ucode  : List Nat
  calNew : Bool
  calHas : List Nat
deriving DecidableEq, Repr

def Loop.init : Loop where
  u := 0
  ff := 0
  c := 0
  p := 0
  i := 0
  ef := 0
  act := 0
  atMax := false
  atMin := false
  ramp := none
  lit := false
  set := 0
  prior := 0
  bad := 0
  good := 0
  goodU := 0
  once := false
  since := 0
  gt := 0

def Group.init : Group := ⟨0, 0⟩
def Hce.init : Hce := ⟨0, [], [], [], [], [], false, []⟩

/-! ## Time (chapter 13) -/

/-- A Sync exchange of a slave port (R602), its times in 2⁻⁸ ns: *t*₁ once Follow_Up has come, *t*₂, *t*₃, and *t*₄. -/
structure Exch where
  seq : Nat
  t1  : Option Int
  t2  : Int
  t3  : Int
  t4  : Option Int
deriving DecidableEq, Repr

/-- An armed trigger: the target and the control word it took (R617). -/
structure Trig where
  target : Nat
  ctl    : Nat
deriving DecidableEq, Repr

/-- The time counter and servo: `RAW`, `OFS`, `BASE`, `ADJ` (R593, R594), the epoch and its copy in flash, the operating time
before this keeper boot, the step counter and the ticks it still holds through (R615); the servo's *I*, offsets in a row below
100 ns and at 1 µs or more (R605), exchanges and announces by port, Sync intervals by port, the last accepted PPS edge by
`RAW`, whether PPS is in use (1) or lost (2) (R609), and the armed triggers. -/
structure Time where
  raw    : Nat
  ofs    : Int
  base   : Nat
  adj    : Int
  epoch  : Nat
  flashEpoch : Nat
  opBase : Nat
  step   : Nat
  hold   : Nat
  srvI   : Int
  good   : Nat
  bad    : Nat
  exch   : List (Nat × Exch)
  anns   : List (Nat × AnnounceDs)
  syncs  : List (Nat × Nat)
  ppsAt  : Option Nat
  pps    : Nat
  trigs  : List (Nat × Trig)
deriving DecidableEq, Repr

/-- `RAW` and the rest at a keeper reset (R593, R596). -/
def Time.init : Time where
  raw := 0
  ofs := 0
  base := 0
  adj := 0
  epoch := 0
  flashEpoch := 0
  opBase := 0
  step := 0
  hold := 0
  srvI := 0
  good := 0
  bad := 0
  exch := []
  anns := []
  syncs := []
  ppsAt := none
  pps := 0
  trigs := []

/-! ## Mailbox and configuration (chapter 14) -/

/-- A request the service core has taken (Table 14-2); `rsvd` is the OR of bytes 8 to 15. -/
structure Req where
  cmd     : Nat
  len     : Nat
  tag     : Nat
  rsvd    : Nat
  payload : List (BitVec 8)
deriving DecidableEq, Repr

/-- A response before it is placed (Table 14-3). -/
structure Resp where
  status  : Nat
  ticket  : Nat
  detail  : Nat
  payload : List (BitVec 8)
deriving DecidableEq, Repr

/-- The result of deferred work. -/
structure WorkResult where
  status  : Nat
  detail  : Nat
  payload : List (BitVec 8)
deriving DecidableEq, Repr

/-- A ticket in use (R630): its command, its result once the work has ended, and whether the keeper has set its bit. -/
structure Ticket where
  cmd    : Nat
  result : Option WorkResult
  posted : Bool
deriving DecidableEq, Repr

/-- A configuration entry (Table 14-8). -/
structure CfgEntry where
  off   : Nat
  width : Nat
  value : Nat
  mask  : Nat
deriving DecidableEq, Repr

/-- A configuration record (R650). -/
structure CfgRecord where
  ver     : Nat
  entries : List CfgEntry
deriving DecidableEq, Repr

/-- The mailbox, its tickets, the stored configuration and the heartbeat's memory of what it last accepted. -/
structure Mailbox where
  req     : List Host.Cell
  rsp     : List Host.Cell
  taken   : Option Req
  resp    : Option Resp
  tickets : List (Nat × Ticket)
  staging : List CfgEntry
  cur     : Option CfgRecord
  prev    : Option CfgRecord
  hbLast  : Option Nat
  hbStall : Bool
  hbInPeriod : Bool
deriving DecidableEq, Repr

/-- An empty mailbox and no stored configuration. -/
def Mailbox.init : Mailbox where
  req := []
  rsp := []
  taken := none
  resp := none
  tickets := []
  staging := []
  cur := none
  prev := none
  hbLast := none
  hbStall := false
  hbInPeriod := false

/-! ## Neighbours, the mirror peer, evacuation and the lattice record (chapter 15) -/

/-- The lattice record (R681): circuit table entries with their registers, the plane paths, and the loops set to `CROSS`. -/
structure LatRecord where
  ents    : List (Nat × PathEnt)
  words   : List (Nat × BitVec 64 × BitVec 64)
  planes  : List PPath
  targets : List Nat
deriving DecidableEq, Repr

/-- The last `HB` heard on a port. -/
structure HbHeard where
  state : Nat
  node  : Nat
  inc   : Nat
deriving DecidableEq, Repr

/-- `HB` blocks heard by port, the mirror heartbeat count sent (R689), an evacuation in progress as
(ticket, entries at its start) (R685), and the lattice record in flash. -/
structure Peers where
  hbs     : List (Nat × HbHeard)
  mirSent : Nat
  evac    : Option (Option Nat × Nat)
  lattice : Option LatRecord
deriving DecidableEq, Repr

def Peers.init : Peers := ⟨[], 0, none, none⟩

/-! ## Update, identity and protection (chapter 16) -/

/-- A settings area (R723): configuration records, wiring plans, the epoch, and the settings format it is written in. -/
structure Settings where
  cur    : Option CfgRecord
  prev   : Option CfgRecord
  plan   : Option Plan
  before : Option Plan
  epoch  : Nat
  fmt    : Nat
deriving DecidableEq, Repr

/-- An image slot: the blocks held (block 0 is the manifest) and the fragments of blocks that no `BLOCK_END` has checked,
by block × 64 + fragment. -/
structure Image where
  blocks : List (Nat × List (BitVec 8))
  frags  : List (Nat × List (BitVec 8))
deriving DecidableEq, Repr

/-- The boot record of R714 beside `UPD_STATE` and `UPD_SLOT`: the trial slot, and the slot that runs. -/
structure BootRec where
  trial   : Option Nat
  running : Nat
deriving DecidableEq, Repr

/-- A two-key change that is pending (R700): its bytes 0 to 79, the holder, the ticket, the data, and when it came. -/
structure TwoKey where
  head    : List (BitVec 8)
  holder  : Nat
  ticket  : Nat
  data    : List (BitVec 8)
  since   : Nat
deriving DecidableEq, Repr

/-- An activation group (R717 to R722) beside `UPD_GROUP`: member count and list (coordinator), flags, window, ticket; the
image versions reported by `READY`, members that sent `NOT_READY`, members that sent `TRIAL_OK`; the coordinator's
decision (3 `GO`, 4 `ABORT`, 7 `ALL_OK`, 8 `ROLLBACK`) and when it was made in operating time, and at the member whether `TRIAL_OK` is sent, whether
`UPD_CONFIRM` has come, and the cause of a failed trial. -/
structure ActGroup where
  count    : Nat
  list     : List Nat
  confirm  : Bool
  window   : Nat
  ticket   : Option Nat
  vers     : List (Nat × Nat)
  notReady : List Nat
  oks      : List Nat
  decision : Nat
  decided  : Nat
  sentOk   : Bool
  hostOk   : Bool
  fail     : Option Nat
  node     : Nat
  late     : Bool
deriving DecidableEq, Repr

/-- Update and identity: the two images, the boot record, the settings format in use, the other slot's settings area, the
group, keyring slots 0 to 5 (R698), the pending two-key change, whether a keeper reset waits (R700), the two derived keys (R693; none before
the keeper has booted), and the keyring's HMAC since its last change (R698). -/
structure Update where
  images   : List (Nat × Image)
  boot     : BootRec
  fmt      : Nat
  other    : Option Settings
  group    : Option ActGroup
  keys     : List (Nat × List (BitVec 8))
  pending  : Option TwoKey
  keepWait : Bool
  wrapKey  : List (BitVec 8)
  ringKey  : List (BitVec 8)
  ringTag  : List (BitVec 8)
deriving DecidableEq, Repr

def Image.init : Image := ⟨[], []⟩
def Update.init : Update := ⟨[], ⟨none, 0⟩, 0, none, none, [], none, false, [], [], []⟩

/-! ## Ageing (chapter 17) -/

/-- One ageing quantity (R742): the manufacture value once known, the latest value, the values at the last re-plans, newest
first, and its state of Table 17-4 (0 good, 1 `AGED`, 2 `LIMIT`). -/
structure AgeItem where
  mfg    : Option Nat
  latest : Nat
  plans  : List Nat
  state  : Nat
deriving DecidableEq, Repr

/-- Ageing, in configuration flash: quantities by kind × 4,096 + index, retired hinge loops, and the TEC set-points moved
from their manufacture values, by wavelength, in 0.1 °C, and the converged drives of hinges as last measured, in Q16.16, by
loop × 2 + state (1 is `CROSS`). -/
structure Ageing where
  items   : List (Nat × AgeItem)
  retired : List Nat
  moved   : List (Nat × Int)
  drives  : List (Nat × Int)
deriving DecidableEq, Repr

def AgeItem.init : AgeItem := ⟨none, 0, [], 0⟩
def Ageing.init : Ageing := ⟨[], [], [], []⟩

/-! ## The state -/

/-- The state of the module. `regs` holds the BAR0 registers that differ from their reset values, by byte offset;
`mem` the bytes of LPDDR6 and of the SRAM window at their local offsets (R279); `free` counts the free values taken. -/
structure State where
  pending : List Instr
  free    : Nat
  regs    : List (Nat × BitVec 64)
  mem     : List Host.Cell
  out     : List Output
  evr     : Recorder
  rst     : ResetCtl
  pwr     : Power
  blk     : Block
  time    : Time
  mb      : Mailbox
  cores   : List (Nat × Core)
  chk     : Check
  ms      : Memory
  eng     : Engines
  lk      : Links
  routes  : List (Nat × Route)
  place   : Placements
  path    : Paths
  topo    : Topology
  hce     : Hce
  peers   : Peers
  upd     : Update
  age     : Ageing
deriving DecidableEq, Repr

/-- Why the machine stops with a fault: never. The spec gives every command an effect (notes/assumptions/2.md), so
the type has no constructor and no meaning can answer a fault; safe. -/
inductive Fault where
deriving DecidableEq, Repr

/-- Why a command is refused. -/
inductive Refusal where
  /-- A command that has no meaning yet; raised by Dispatch alone; safe. -/
  | notModelled (mnemonic : String)
deriving DecidableEq, Repr

/-- The module right after a keeper reset: feeds out, every register at its reset value. -/
def State.reset : State where
  pending := []
  free := 0
  regs := []
  mem := []
  out := []
  evr := Recorder.init
  rst := ResetCtl.init
  pwr := Power.init
  blk := Block.init
  time := Time.init
  mb := Mailbox.init
  cores := []
  chk := Check.init
  ms := Memory.init
  eng := Engines.init
  lk := Links.init
  routes := []
  place := Placements.init
  path := Paths.init
  topo := Topology.init
  hce := Hce.init
  peers := Peers.init
  upd := Update.init
  age := Ageing.init

end Sys2Proof.Machine
end

