-- ==== Sys2Proof/Machine/Ops.lean ====
section
/-! DEFINITION. The named operations over State: keyed lists, bit fields, memory bytes, BAR0 registers, the event
recorder's intake (R731 to R736) and the reset controller's response to an event (R664 to R674). -/

namespace Sys2Proof.Machine

open Sys2Proof

/-! ### Keyed lists -/

/-- The entry of key `k`. -/
def kfind {α : Type} : List (Nat × α) → Nat → Option α
  | [], _ => none
  | (j, v) :: m, k => if j = k then some v else kfind m k

/-- The entry of key `k`, or `d` where there is none. -/
def kget {α : Type} (m : List (Nat × α)) (k : Nat) (d : α) : α := (kfind m k).getD d

/-- `m` with entry `k` set, keys rising. -/
def kset {α : Type} : List (Nat × α) → Nat → α → List (Nat × α)
  | [], k, v => [(k, v)]
  | (j, w) :: m, k, v =>
    if j = k then (k, v) :: m else if k < j then (k, v) :: (j, w) :: m else (j, w) :: kset m k v

/-- `m` without entry `k`. -/
def kdel {α : Type} : List (Nat × α) → Nat → List (Nat × α)
  | [], _ => []
  | (j, w) :: m, k => if j = k then kdel m k else (j, w) :: kdel m k

/-! ### Bits and bytes -/

/-- Bits `hi` to `lo` of `v`. -/
def bitsOf (v hi lo : Nat) : Nat := (v / 2 ^ lo) % 2 ^ (hi + 1 - lo)

/-- Bit `n` of `v`. -/
def bitOf (v n : Nat) : Bool := v / 2 ^ n % 2 = 1

/-- `v` with bit `n` set to `b`. -/
def putBit (v n : Nat) (b : Bool) : Nat :=
  if bitOf v n = b then v else if b then v + 2 ^ n else v - 2 ^ n

/-- 1 for true. -/
def b2n (b : Bool) : Nat := if b then 1 else 0

/-- How many of the `n` low bits of `v` are 1. -/
def popcount : Nat → Nat → Nat
  | 0, _ => 0
  | n + 1, v => v % 2 + popcount n (v / 2)

/-- `n` read as a signed number of `w` bits. -/
def toSigned (w n : Nat) : Int := if n % 2 ^ w < 2 ^ (w - 1) then (n % 2 ^ w : Nat) else (n % 2 ^ w : Nat) - (2 ^ w : Nat)

/-- A signed number as `w` bits. -/
def ofSigned (w : Nat) (i : Int) : Nat := (i % ((2 ^ w : Nat) : Int)).toNat

/-- The little-endian bytes of `v` (R6). -/
def leBytes : Nat → Nat → List (BitVec 8)
  | 0, _ => []
  | n + 1, v => BitVec.ofNat 8 v :: leBytes n (v / 256)

/-- The number that little-endian bytes spell (R6). -/
def leNat : List (BitVec 8) → Nat
  | [] => 0
  | b :: bs => b.toNat + 256 * leNat bs

/-- Read `n` bytes of a byte string at offset `o` as a little-endian number; missing bytes read 0. -/
def leAt (bs : List (BitVec 8)) (o n : Nat) : Nat := leNat ((bs.drop o).take n)

/-- One step of a CRC of width `w`, unreflected, over one byte. -/
def crcByte (w poly : Nat) (crc : Nat) (b : Nat) : Nat :=
  (List.range 8).foldl (fun c i =>
    let top := (c / 2 ^ (w - 1)) % 2
    let inb := (b / 2 ^ (7 - i)) % 2
    let c' := (c * 2) % 2 ^ w
    if top = inb then c' else Nat.xor c' poly) crc

/-- CRC-16 of an event record: polynomial 0x1021, initial value 0xFFFF, unreflected (Table 17-1). -/
def crc16 (bs : List (BitVec 8)) : Nat := bs.foldl (fun c b => crcByte 16 0x1021 c b.toNat) 0xFFFF

/-- One step of the reflected CRC-32C over one byte. -/
def crc32cByte (crc b : Nat) : Nat :=
  (List.range 8).foldl (fun c _ => if c % 2 = 1 then Nat.xor (c / 2) 0x82F63B78 else c / 2) (Nat.xor crc b)

/-- CRC-32C (R242, R536, R708). -/
def crc32c (bs : List (BitVec 8)) : Nat :=
  Nat.xor (bs.foldl (fun c b => crc32cByte c b.toNat) 0xFFFFFFFF) 0xFFFFFFFF

/-! ### Bytes of memory (LPDDR6 and the SRAM window by local offset, R279) -/

/-- What a byte that nothing has written reads as: 0 (notes/assumptions/4.md). -/
def memDefault : BitVec 8 := 0

/-- The canonical form of a memory: addresses strictly rising, no entry equal to what an unlisted address reads as. -/
def Memory.wf : List Host.Cell → Bool
  | [] => true
  | (a, b) :: m => b != memDefault && (match m with | [] => true | (c, _) :: _ => decide (a < c)) && Memory.wf m

/-- Read one byte. -/
def memByte : List Host.Cell → Nat → BitVec 8
  | [], _ => memDefault
  | (a, b) :: m, k => if a = k then b else if k < a then memDefault else memByte m k

/-- Write one byte, keeping the canonical form. -/
def memPut : List Host.Cell → Nat → BitVec 8 → List Host.Cell
  | [], k, v => if v = memDefault then [] else [(k, v)]
  | (a, b) :: m, k, v =>
    if a = k then (if v = memDefault then m else (k, v) :: m)
    else if k < a then (if v = memDefault then (a, b) :: m else (k, v) :: (a, b) :: m)
    else (a, b) :: memPut m k v

/-- Read `n` bytes from `a` upwards. -/
def memBytes (m : List Host.Cell) (a : Nat) : Nat → List (BitVec 8)
  | 0 => []
  | n + 1 => memByte m a :: memBytes m (a + 1) n

/-- Write bytes from `a` upwards. -/
def memPutBytes (m : List Host.Cell) (a : Nat) : List (BitVec 8) → List Host.Cell
  | [] => m
  | b :: bs => memPutBytes (memPut m a b) (a + 1) bs

/-- Drop every byte from `a` to `a + n - 1`: the range reads as 0 afterwards. -/
def memZero (m : List Host.Cell) (a n : Nat) : List Host.Cell := m.filter (fun c => decide (c.1 < a) || decide (a + n ≤ c.1))

def State.memRead (s : State) (a n : Nat) : List (BitVec 8) := memBytes s.mem a n
def State.memWrite (s : State) (a : Nat) (bs : List (BitVec 8)) : State := { s with mem := memPutBytes s.mem a bs }
def State.memClear (s : State) (a n : Nat) : State := { s with mem := memZero s.mem a n }

/-! ### BAR0 registers -/

/-- The byte offset of instance `i` of a register. -/
def Reg.off (r : Reg) (i : Nat) : Nat := r.desc.base + i * r.desc.stride

/-- The value that a field list gives a register at reset. -/
def resetWord (fs : List Fld) : BitVec 64 :=
  fs.foldl (fun w f => w ||| BitVec.ofNat 64 (f.reset * 2 ^ f.lo)) 0

/-- The bits of a field within its register. -/
def Fld.mask (f : Fld) : BitVec 64 := BitVec.ofNat 64 ((2 ^ (f.hi + 1 - f.lo) - 1) * 2 ^ f.lo)

/-- The bits that a register keeps through a reset: its non-volatile fields. -/
def nvMask (fs : List Fld) : BitVec 64 := fs.foldl (fun w f => if f.nv then w ||| f.mask else w) 0

/-- The stored value of instance `i` of register `r`. -/
def State.rreg (s : State) (r : Reg) (i : Nat := 0) : BitVec 64 := kget s.regs (r.off i) (resetWord r.fields)

/-- Store a value in instance `i` of register `r`. -/
def State.wreg (s : State) (r : Reg) (v : BitVec 64) (i : Nat := 0) : State := { s with regs := kset s.regs (r.off i) v }

/-- A field's value within a register word. -/
def Fld.of (f : Fld) (w : BitVec 64) : Nat := bitsOf w.toNat f.hi f.lo

/-- A register word with a field replaced. -/
def Fld.put (f : Fld) (w : BitVec 64) (v : Nat) : BitVec 64 :=
  (w &&& ~~~ f.mask) ||| (BitVec.ofNat 64 (v * 2 ^ f.lo) &&& f.mask)

/-- Read field `f` of instance `i`. -/
def State.rd (s : State) (f : Fld) (i : Nat := 0) : Nat := f.of (s.rreg f.reg i)

/-- The hardware sets field `f` of instance `i`, whatever its access code. -/
def State.wr (s : State) (f : Fld) (v : Nat) (i : Nat := 0) : State := s.wreg f.reg (f.put (s.rreg f.reg i) v) i

/-- Field `f` as a flag. -/
def State.flag (s : State) (f : Fld) (i : Nat := 0) : Bool := s.rd f i = 1

/-- Add `n` to a counting field, wrapping at its width. -/
def State.bump (s : State) (f : Fld) (i : Nat := 0) (n : Nat := 1) : State :=
  s.wr f ((s.rd f i + n) % 2 ^ (f.hi + 1 - f.lo)) i

/-- Add 1 to a field that stops at its largest value. -/
def State.bumpSat (s : State) (f : Fld) (i : Nat := 0) : State :=
  s.wr f (min (s.rd f i + 1) (2 ^ (f.hi + 1 - f.lo) - 1)) i

/-- A field's value, where 0 acts as 1 (the timer fields that say so). -/
def State.rd1 (s : State) (f : Fld) : Nat := max 1 (s.rd f)

/-- The register and instance at a BAR0 offset, for an access of `width` bytes (R8, R11). -/
def regAt (off : Nat) : Option (Reg × Nat) :=
  Reg.all.findSome? fun r =>
    let d := r.desc
    if off < d.base then none
    else if d.stride = 0 then (if off = d.base then some (r, 0) else none)
    else if (off - d.base) % d.stride = 0 ∧ (off - d.base) / d.stride < d.count then some (r, (off - d.base) / d.stride)
    else none

/-- The RW bits of a register. -/
def rwMask (fs : List Fld) : BitVec 64 := fs.foldl (fun w f => if f.access = .rw then w ||| f.mask else w) 0

/-! ### Small state helpers -/

/-- An image slot, and its manifest (Table 16-6); empty where block 0 is not held. -/
def State.image (s : State) (k : Nat) : Image := kget s.upd.images k Image.init
def State.manifest (s : State) (k : Nat) : List (BitVec 8) := kget (s.image k).blocks 0 []

/-- `IMAGE_VER` of the running image. -/
def State.runningVer (s : State) : Nat := leAt (s.manifest s.upd.boot.running) 16 4

/-- Apply `f` when `c` holds. -/
def State.when (s : State) (c : Bool) (f : State → State) : State := if c then f s else s

/-- Send something outward. -/
def State.emit (s : State) (o : Output) : State := { s with out := s.out ++ [o] }

/-- Take a free value: the counter that the opaque constants of Config are applied to, and the state after. -/
def State.tick (s : State) : State := { s with free := s.free + 1 }

/-- Operating time in whole milliseconds, counted from `RAW` (R25, R729). -/
def State.opMs (s : State) : Nat := s.time.opBase + s.time.raw / 1000000

/-- Network time (R594), modulo 2^64. -/
def State.ntInt (s : State) : Int :=
  s.time.ofs + s.time.raw + ((s.time.raw : Int) - s.time.base) * s.time.adj / (2 ^ 40 : Nat)

def State.nt (s : State) : Nat := ofSigned 64 s.ntInt

/-- The mode (R654). -/
def State.mode (s : State) : Nat := s.rd F.RST_STATUS.MODE

/-- The modes of Table 15-1 as `RST_STATUS.MODE` codes. -/
def mSTARTUP : Nat := 0
def mNORMAL : Nat := 1
def mTEST : Nat := 2
def mRECOVERY : Nat := 3

/-- This module's node ID. -/
def State.node (s : State) : Nat := s.rd F.ID_NODE.NODE_ID

/-! ### Partitions, quarters and cores (R92, R112, R113) -/

/-- The quarter of a core. -/
def coreQuarter (c : Nat) : Nat := c / 72

/-- The partition of quarter `q` in partition mode `m`. -/
def partOf (m q : Nat) : Nat := if m = 0 then q else if m = 1 then q / 2 * 2 else 0

/-- The partition mode in force. -/
def State.partMode (s : State) : Nat := s.rd F.ID_CAP.PART_MODE

/-- The quarters of partition `p`. -/
def State.partQuarters (s : State) (p : Nat) : List Nat := (List.range 4).filter (fun q => partOf s.partMode q = p)

/-- Partition `p` exists in the mode in force. -/
def State.partExists (s : State) (p : Nat) : Bool := p < 4 && partOf s.partMode p == p

def State.quarter (s : State) (q : Nat) : Quarter := kget s.blk.quarters q Quarter.init
def State.setQuarter (s : State) (q : Nat) (v : Quarter) : State := { s with blk.quarters := kset s.blk.quarters q v }

/-- Quarter `q` is gated. -/
def State.gated (s : State) (q : Nat) : Bool := bitOf (s.rd F.ID_PWR_STATE.Q_GATED) q

/-! ### SMBus alert bits (Table 1-7) -/

/-- Set or clear bit `n` of the SMBus `STATUS` word. -/
def State.alert (s : State) (n : Nat) (b : Bool) : State :=
  { s with pwr.status := BitVec.ofNat 16 (putBit s.pwr.status.toNat n b) }

/-- Bit `n` of the SMBus `STATUS` word. -/
def State.alertBit (s : State) (n : Nat) : Bool := bitOf s.pwr.status.toNat n

/-! ### Mailbox status codes (Table 0-6) and tickets (R630) -/

def stOK : Nat := 0x0000
def stACCEPTED : Nat := 0x0001
def stBUSY : Nat := 0x0010
def stRUNNING : Nat := 0x0020
def stPOLICY : Nat := 0x0021
def stAUTH : Nat := 0x0022
def stNOTFOUND : Nat := 0x0030
def stTIMEOUT : Nat := 0x0040
def stINCOMPATIBLE : Nat := 0x0050
def stINTERNAL : Nat := 0x00FF

/-- A status of Table 0-6 that denotes no success (R22, R23), picked by a free word: what ends an operation that failed where no
rule names its status. -/
def openFailure (w : BitVec 64) : Nat :=
  [stBUSY, stRUNNING, stPOLICY, stAUTH, stNOTFOUND, stTIMEOUT, stINCOMPATIBLE, stINTERNAL].getD (w.toNat % 8) stINTERNAL

/-- Deferred work ends: its result is held under its ticket; `DEFERRED_WORK_END` then posts it (R630). -/
def State.endTicket (s : State) (t status detail : Nat) (payload : List (BitVec 8) := []) : State :=
  match kfind s.mb.tickets t with
  | none => s
  | some k => match k.result with
    | some _ => s
    | none => { s with mb.tickets := kset s.mb.tickets t { k with result := some ⟨status, detail, payload⟩ } }

/-- The end of work that may have no ticket. -/
def State.endWork (s : State) (t : Option Nat) (status detail : Nat) (payload : List (BitVec 8) := []) : State :=
  match t with
  | none => s
  | some n => s.endTicket n status detail payload

/-- The keeper posts a ticket whose work has ended (R630): its bit of `ORQ_ASYNC_DONE.DONE`. -/
def State.postTicket (s : State) (t : Nat) : State :=
  match kfind s.mb.tickets t with
  | none => s
  | some k =>
    ({ s with mb.tickets := kset s.mb.tickets t { k with posted := true } }).wr F.ORQ_ASYNC_DONE.DONE
      (putBit (s.rd F.ORQ_ASYNC_DONE.DONE) t true)

/-- Start-up resumes at lattice relighting (R43, R45): steps 1 and 2 of Table 15-2 stand as done. -/
def State.resumeStartup (s : State) : State :=
  ((s.wr F.RST_STATUS.MODE 0).wr F.RST_STATUS.PHASE 2).wr F.RST_STATUS.READY 0

/-! ### The event recorder's intake -/

/-- A sum of lost records with one more (R733, R736). -/
def LostSum.add (o : Option LostSum) (n sev ms : Nat) (full reserve holdUp : Bool) : LostSum :=
  match o with
  | none => ⟨n, ms, ms, sev, full, reserve, holdUp⟩
  | some l => ⟨l.count + n, l.firstMs, ms, max l.maxSev sev, l.full || full, l.reserve || reserve, l.holdUp || holdUp⟩

/-- A record is lost: it is counted, and its summary grows (R736). It leaves a gap in `SEQ` (R728), but after the hold-up's 7 ms, when
the recorder takes no record (R733). -/
def State.loseRecord (s : State) (sev : Nat) (full reserve holdUp : Bool) : State :=
  ({ s with
    evr.lost := some (LostSum.add s.evr.lost 1 sev s.opMs full reserve holdUp)
    evr.seq := if holdUp then s.evr.seq else (s.evr.seq + 1) % 2 ^ 32 }).bump F.EVR_CNT_LOST.COUNT

/-- The entry of the coalescing table with the same source and code. -/
def sameKey (r t : EvRec) : Bool := r.kind == t.kind && r.index == t.index && r.code == t.code

/-- A record joins the coalescing table (R735). -/
def State.coalesce (s : State) (r : EvRec) : State :=
  if s.evr.coal.any (sameKey r) then
    ({ s with evr.coal := s.evr.coal.map fun t =>
        if sameKey r t then { t with count := t.count + 1, coalesced := true } else t }).bump F.EVR_CNT_COAL.COUNT
  else if s.evr.coal.length < 256 then { s with evr.coal := s.evr.coal ++ [{ r with coalesced := true }] }
  else s.loseRecord r.sev true false false

/-- A record takes its `SEQ` and a slot of the buffer; the flush triggers of R732 and the entry to coalescing of R735
are judged. -/
def State.bufferRecord (s : State) (r : EvRec) : State :=
  let buf := s.evr.buf ++ [{ r with seq := s.evr.seq }]
  { s with
    evr.buf := buf
    evr.seq := (s.evr.seq + 1) % 2 ^ 32
    evr.coalescing := s.evr.coalescing || decide (3584 ≤ buf.length)
    evr.flushing := s.evr.flushing || (!s.evr.latched && (decide (2048 ≤ buf.length) || decide (2 ≤ r.sev))) }

/-- A record of the event at this moment. -/
def State.mkRecord (s : State) (code sev kind index : Nat) (payload : List Nat) (ctx : Option Nat) (injected : Bool) :
    EvRec where
  seq := 0
  opMs := s.opMs
  pwrCyc := s.evr.pwrCyc
  nt := s.nt
  epoch := s.time.epoch
  code := code
  kind := kind
  index := index
  sev := sev
  ctx := ctx
  coalesced := false
  injected := injected
  coarse := s.flag F.TIM_STATUS.COARSE
  count := 1
  payload := payload

/-- The recorder takes an event, and no reset action follows (R665 names such events). An event of SEV4 or more sets
`SEV_HIGH` (Table 1-7). -/
def State.note (s : State) (code sev kind index : Nat) (payload : List Nat := []) (ctx : Option Nat := none)
    (injected : Bool := false) : State :=
  let r := s.mkRecord code sev kind index payload ctx injected
  let s := if 4 ≤ sev then s.alert 9 true else s
  if s.evr.stopped then s.loseRecord sev false false true
  else if sev ≤ 1 then (if s.evr.coalescing then s.coalesce r else s.bufferRecord r)
  else if s.evr.buf.length < 4096 then s.bufferRecord r
  else s.loseRecord sev false true false

/-! ### The reset controller -/

/-- The event codes that the controller itself records. -/
def evRstCtxRemoved : Nat := 0x0F00
def evRstEscalated : Nat := 0x0F03
def evRstResetLoop : Nat := 0x0F09

/-- Table 15-6: the class that follows class `c` for a unit of source kind `kind`. -/
def nextStep (kind c : Nat) : Nat :=
  if kind = 0 then 6
  else if c = 5 ∨ c = 6 then 6
  else if c = 4 then 5
  else if kind = 1 ∨ kind = 2 then 4
  else if kind = 3 then (if c = 2 then 3 else 5)
  else if kind = 0xB then (if c = 2 then 3 else 5)
  else 5

/-- Two actions work on behalf of the same unit (Table 15-7, first row). -/
def Action.sameUnit (a b : Action) : Bool := a.kind == b.kind && a.index == b.index

/-- The new action's target lies inside the running action's domain (Table 15-7, second row). -/
def Action.inside (a r : Action) : Bool :=
  if 5 ≤ r.cls then decide (a.cls ≤ r.cls)
  else if r.cls = 4 then a.cls == 4 && a.part == r.part
  else a.cls == 3 && r.cls == 3 && a.engine == r.engine

/-- Where an action of R673 goes in the queue: by class, then by arrival. -/
def insertAction (a : Action) : List Action → List Action
  | [] => [a]
  | b :: q => if b.cls < a.cls then a :: b :: q else b :: insertAction a q

/-- `RST_LAST` for an action with an outcome: 0 completed, 1 escalated, 2 subsumed, 3 in progress (Table 15-16). -/
def State.reportLast (s : State) (a : Action) (outcome : Nat) (rep : Bool) (ms : Nat) : State :=
  s |>.wr F.RST_LAST.STEP a.cls
    |>.wr F.RST_LAST.OUTCOME outcome
    |>.wr F.RST_LAST.CTX_ID (a.ctx.getD 0)
    |>.wr F.RST_LAST.CTX_VALID (b2n a.ctx.isSome)
    |>.wr F.RST_LAST.ENGINE a.engine
    |>.wr F.RST_LAST.PART a.part
    |>.wr F.RST_LAST.CAUSE a.cause
    |>.wr F.RST_LAST.REPEAT (b2n rep)
    |>.wr F.RST_LAST.DUR_MS (min ms (2 ^ 24 - 1))

/-- An action starts. -/
def State.reportStart (s : State) (a : Action) (rep : Bool) : State := (s.reportLast a 3 rep 0).wr F.RST_LAST_TIME.OP_MS s.opMs

/-- Chip resets made automatically within the last 10 minutes of operating time (R672). -/
def State.recentChip (s : State) : List Nat := s.rst.chipTimes.filter (fun t => decide (s.opMs < t + 600000))

/-- An action starts (R664, R672): it becomes the running action, and its registers report it. A chip reset that would
be the third automatic one within 10 minutes becomes a power cycle (R672). -/
def State.startAction (s : State) (a : Action) (rep : Bool := false) : State :=
  let recent := s.recentChip
  let loop := a.cls == 5 && a.auto && decide (2 ≤ recent.length)
  let s := if loop then s.note evRstResetLoop 6 0 0 [recent.length + 1] a.ctx else s
  let a := if loop then { a with cls := 6 } else a
  let s := if a.cls == 5 && a.auto then
      let ts := recent ++ [s.opMs]
      ({ s with rst.chipTimes := ts }).wr F.RST_STATUS.CHIP_RECENT (min ts.length 15)
    else s
  let s := if a.cls = 5 then s.wr F.RST_STATUS.READY 0 else s
  let s := s.wr F.RST_STATUS.STEP a.cls
  let s := s.reportStart a rep
  { s with rst.running := some ⟨a, s.opMs, none, .called, rep, s.flag F.RST_CFG.PWRCYC_EN⟩ }

/-- The running action's dump slot is closed as partial (R674): `FLAGS` bit 3. Its copy to flash is due (R679). -/
def State.closeDumpPartial (s : State) (r : RunAct) : State :=
  match r.slot with
  | none => s
  | some n => match kfind s.rst.dumps n with
    | none => s
    | some d =>
      ({ s with rst.dumps := kset s.rst.dumps n { d with flags := Nat.lor d.flags 8 }, rst.copying := some n }).wr F.RST_DUMP.PARTIAL 1

/-- The class that replaced an action, remembered for its ticket (R687). -/
def State.setQueued (s : State) (q : List Action) : State :=
  ({ s with rst.queue := q }).wr F.RST_STATUS.QUEUED (min q.length 64)

/-- An action joins the queue of R673. A partition reset that waits already serves every quarter gated meanwhile: a second one on its partition is subsumed (R31, R116). -/
def State.enqueueAction (s : State) (a : Action) : State :=
  if a.cls = 4 ∧ s.rst.queue.any fun b => b.cls == 4 && b.part == a.part then
    (s.reportLast a 2 false 0).endWork a.ticket stINTERNAL 4
  else s.setQueued ((insertAction a s.rst.queue).take 64)

/-- R671: an action is replaced by the next step, which `RST_ESCALATED` records at its class; `cause` is 0 limit,
1 repeat, 2 containment. The event draws no step of its own (R665). -/
def State.escalate (s : State) (r : RunAct) (cause : Nat) : State :=
  let c := nextStep r.act.kind r.act.cls
  let s := s.note evRstEscalated c r.act.kind r.act.index [r.act.cls, c, cause] r.act.ctx
  let s := if r.act.cls = 3 then s.bump F.RST_CNT_ENG.COUNT
    else if r.act.cls = 4 then s.bump F.RST_CNT_PART.COUNT
    else if r.act.cls = 5 then s.bump F.RST_CNT_CHIP.COUNT else s
  let s := s.endWork r.act.ticket stINTERNAL c
  s.startAction { r.act with cls := c, auto := true, ticket := none } (cause == 1)

/-- An action preempts the running one (Table 15-7, third row), which is subsumed or goes back to the queue. -/
def State.preempt (s : State) (r : RunAct) (a : Action) : State :=
  let s := s.closeDumpPartial r
  let s := if r.act.inside a then (s.reportLast r.act 2 r.repeated (s.opMs - r.startMs)).endWork r.act.ticket stINTERNAL a.cls
    else s.enqueueAction r.act
  s.startAction a

/-- An action waits behind the running one (R673): a SEV3 or SEV4 action that finds the queue full becomes a chip reset, which
preempts what runs. -/
def State.waitAction (s : State) (r : RunAct) (a : Action) : State :=
  if 64 ≤ s.rst.queue.length ∧ a.cls ≤ 4 then
    (s.endWork a.ticket stINTERNAL 5).preempt r { a with cls := 5, ticket := none }
  else s.enqueueAction a

/-- Table 15-7 and R673: what becomes of an action that an event calls for. -/
def State.callAction (s : State) (a : Action) : State :=
  match s.rst.running with
  | none => s.startAction a
  | some r =>
    if a.sameUnit r.act then s.escalate r 1
    else if a.inside r.act then (s.reportLast a 2 false 0).endWork a.ticket stINTERNAL r.act.cls
    else if r.act.cls < a.cls then s.preempt r a
    else s.waitAction r a

/-- The slot in which context `id` is resident: `QDB_CTX[s].STATE` is not 0 and its `CTX_ID` is `id`. -/
def State.slotOf (s : State) (id : Nat) : Option Nat :=
  (List.range 256).find? fun n => decide (s.rd F.QDB_CTX.STATE n ≠ 0) && decide (s.rd F.QDB_CTX.CTX_ID n = id)

/-- A context removal is called for (R666) by an event of unit (`kind`, `index`), unless one is in progress. -/
def State.callRemoval (s : State) (slot cause : Nat) (ticket : Option Nat := none) (kind index : Nat := 0) : State :=
  if s.rst.removals.any (fun r => r.slot == slot) then s
  else { s with rst.removals := s.rst.removals ++ [⟨slot, cause, s.opMs, false, ticket, kind, index⟩] }

/-- The running action's domain contains the context in slot `slot` (R673). -/
def State.actionHolds (s : State) (slot : Nat) : Bool :=
  match s.rst.running with
  | some r => decide (5 ≤ r.act.cls) || (r.act.cls == 4 && s.rd F.QDB_CTX.PART slot == r.act.part)
  | none => false

/-- The target of the action that an event of class `sev` from source (`kind`, `index`) calls for (R664). -/
def State.respond (s : State) (code sev kind index : Nat) (ctx : Option Nat) : State :=
  if s.mode = mRECOVERY then s
  else if sev < 2 then s
  else if sev = 2 then
    match ctx with
    | none => s
    | some id => match s.slotOf id with
      | none => s
      | some slot =>
        if s.actionHolds slot then s.reportLast ⟨2, 0, 0, code, ctx, kind, index, 0, false, none, true⟩ 2 false 0
        else s.callRemoval slot code none kind index
  else
    let q := if kind = 1 then coreQuarter index else if kind = 2 then index else 0
    s.callAction ⟨sev, if kind = 3 then index else 0, partOf s.partMode q, code, ctx, kind, index, 0, false, none, true⟩

/-- An event is recorded and draws its response (R664). -/
def State.record (s : State) (code sev kind index : Nat) (payload : List Nat := []) (ctx : Option Nat := none)
    (injected : Bool := false) : State :=
  (s.note code sev kind index payload ctx injected).respond code sev kind index ctx

/-- The general SEV0 event of R8, R14 and R18, which names an offset; `why` tells the three apart. -/
def State.noteOffset (s : State) (why off status : Nat) : State := s.note (Config.eventCode why) 0 0xC 0 [off, status]

end Sys2Proof.Machine
end

