-- ==== Sys2Proof/Machine/Flags.lean ====
section
/-! DEFINITION. The alert bits of the SMBus `STATUS` word and the pins that follow them (R63 to R66, Table 1-7), and
the module power state (R104). -/

namespace Sys2Proof.Machine

open Sys2Proof

/-- The bits of Table 1-7. -/
def aFEED_A_OUT : Nat := 0
def aFEED_B_OUT : Nat := 1
def aFEED_REDUND : Nat := 2
def aFEED_SUSPECT : Nat := 3
def aMON_PATH : Nat := 4
def aCOOL_WARN : Nat := 5
def aCOOL_STOP : Nat := 6
def aPWRCYC : Nat := 7
def aTREF_LOST : Nat := 8

/-- `ALERT_N` is low while any unmasked bit of `STATUS` is set (R65). -/
def State.alertLow (s : State) : Bool := s.pwr.status &&& ~~~ s.pwr.mask != 0

/-- R77, R78: once the unlock has ended, or for EXTEST and INTEST test mode, the instruction that the TAP holds executes as
BYPASS. -/
def State.tapJudge (s : State) : State :=
  let ok := match s.pwr.tap with
    | .bypass => true
    | .idcode => true
    | .extest => s.flag F.SEC_STATUS.DEBUG && s.mode == mTEST
    | .intest => s.flag F.SEC_STATUS.DEBUG && s.mode == mTEST
    | .other _ => s.flag F.SEC_STATUS.DEBUG
  if ok then s else { s with pwr.tap := .bypass }

/-- `PGOOD_A`, `PGOOD_B`: the feed is in range and its stage runs (R63). -/
def Feed.pgood (f : Feed) : Bool := f.inRange && f.up

/-- Both stages carry the load. -/
def Power.sharing (p : Power) : Bool := p.a.carrying && p.b.carrying

/-- The cause of each alert bit is still present; `ALERT_CLEAR` clears a bit whose cause has ended (R55, Table 1-6).
`SEV_HIGH` reports a past event, so its cause has always ended. -/
def State.alertCause (s : State) (n : Nat) : Bool :=
  if n = aFEED_A_OUT then !s.pwr.a.inRange
  else if n = aFEED_B_OUT then !s.pwr.b.inRange
  else if n = aFEED_REDUND then !s.pwr.sharing
  else if n = aFEED_SUSPECT then s.pwr.suspect
  else if n = aMON_PATH then s.pwr.monSilent
  else if n = aCOOL_WARN then s.pwr.coolBand
  else if n = aCOOL_STOP then s.pwr.coolStop
  else if n = aPWRCYC then s.pwr.pwrcycReq
  else if n = aTREF_LOST then s.flag F.ID_PWR_STATE.REF_SRC
  else false

/-- The bits of `STATUS` that remain after `ALERT_CLEAR` with `mask` (Table 1-6). -/
def State.clearAlerts (s : State) (mask : Nat) : State :=
  (List.range 10).foldl (fun s n => if bitOf mask n && !s.alertCause n then s.alert n false else s) s

/-- The module leaves `DORMANT` for `IDLE`: `PD_LATTICE` is supplied again, `PD_IO` leaves its low-power hold and LPDDR6 its
self-refresh, and the lasers are restored (R106, R107). Where it was entering `DORMANT`, the entry is aborted, and it stays in
`IDLE` (R108). -/
def State.leaveDormant (s : State) : State :=
  if s.rd F.ID_PWR_STATE.MOD_STATE = 2 then
    ({ s with blk.exiting := true, blk.entering := false, blk.lattice := true, blk.ioHold := false, blk.selfRef := false }).wr
      F.ID_PWR_STATE.MOD_STATE 1
  else if s.blk.entering then { s with blk.entering := false }
  else s

/-- `ID_PWR_STATE.MOD_STATE` (Table 2-4): `ACTIVE` while a quarter is ungated, else `IDLE`; a dormant module stays so while all
its quarters are gated. -/
def State.judgePower (s : State) : State :=
  if s.rd F.ID_PWR_STATE.Q_GATED = 15 then
    (if s.rd F.ID_PWR_STATE.MOD_STATE = 2 then s else s.wr F.ID_PWR_STATE.MOD_STATE 1)
  else s.leaveDormant.wr F.ID_PWR_STATE.MOD_STATE 0

/-- The power domains of Table 2-3. -/
def State.pdKeep (s : State) : Bool := s.pwr.a.inRange || s.pwr.b.inRange || s.pwr.holdUp
def State.pdLattice (s : State) : Bool := s.pwr.domains && s.blk.lattice
def State.pdIo (s : State) : Bool := s.pwr.domains
def State.pdDram (s : State) : Bool := s.pwr.domains
def State.pdQuarter (s : State) (q : Nat) : Bool := s.pwr.domains && !s.gated q

/-- A quarter that is gated, or whose gate is in progress: work for it is a wake request (R102, R103). -/
def State.dozing (s : State) (q : Nat) : Bool := s.gated q || (s.quarter q).gating

/-- A wake request with the accesses that wait for it (R102); a gate in progress is aborted (R103). -/
def State.wakeFor (s : State) (q : Nat) (ms : List MemReq) : State :=
  let v := s.quarter q
  s.setQuarter q { v with gating := false, waking := true, waiting := v.waiting ++ ms }

/-- Gate or ungate quarter `q` in `ID_PWR_STATE`. -/
def State.setGated (s : State) (q : Nat) (b : Bool) : State :=
  (s.wr F.ID_PWR_STATE.Q_GATED (putBit (s.rd F.ID_PWR_STATE.Q_GATED) q b)).judgePower

/-- The SRAM die of quarter `q` loses or regains its supply (R101). -/
def State.setSramOff (s : State) (q : Nat) (b : Bool) : State :=
  s.wr F.ID_PWR_STATE.Q_SRAM_OFF (putBit (s.rd F.ID_PWR_STATE.Q_SRAM_OFF) q b)

end Sys2Proof.Machine
end

