-- ==== Sys2Proof/Machine/Power.lean ====
section
/-! DEFINITION. Power feeds, coolant, SMBus, references and boundary scan (spec/01_module_and_pins.md). The event
codes of this chapter's events are open (`Config.eventCode`, notes/assumptions/6.md); each event here names its own
ordinal. -/

namespace Sys2Proof.Machine

open Sys2Proof

abbrev Result := Host.Outcome State Fault Refusal

def evFeedLost : Nat := Config.eventCode 10
def evRedundLost : Nat := Config.eventCode 11
def evPowerLost : Nat := Config.eventCode 12
def evMonPath : Nat := Config.eventCode 13
def evProofPass : Nat := Config.eventCode 14
def evProofFail : Nat := Config.eventCode 15
def evProofAbort : Nat := Config.eventCode 16
def evClockStep : Nat := Config.eventCode 17
def evCoolStop : Nat := Config.eventCode 18
def evOverheat : Nat := Config.eventCode 19
def evPwrcycNot : Nat := Config.eventCode 20
def evTrefLost : Nat := Config.eventCode 21

/-! ### Feeds -/

def sideIndex : Side → Nat
  | .a => 0
  | .b => 1

def otherSide : Side → Side
  | .a => .b
  | .b => .a

def State.feed (s : State) : Side → Feed
  | .a => s.pwr.a
  | .b => s.pwr.b

def State.setFeed (s : State) (x : Side) (f : Feed) : State :=
  match x with
  | .a => { s with pwr.a := f }
  | .b => { s with pwr.b := f }

/-- R37: a voltage, in 10 mV units, at which a feed comes into range. -/
def entersRange (cv : Nat) : Bool := decide (4550 ≤ cv) && decide (cv ≤ 5900)

/-- R37: a voltage at which a feed leaves range. -/
def leavesRange (cv : Nat) : Bool := decide (cv < 4400) || decide (6000 < cv)

/-- What the voltage monitor of a feed last measured. -/
def State.sawVolts (s : State) (x : Side) (cv : Nat) : State :=
  match x with
  | .a => { s with pwr.sensors.feedAV := cv }
  | .b => { s with pwr.sensors.feedBV := cv }

/-- The phase in which stage `x` carries the load alone on test (R54). -/
def Proof.carriedBy (p : Proof) : Option Side :=
  match p.phase with
  | .rampA | .holdA => some .a
  | .rampB | .holdB => some .b
  | _ => none

/-- Table 1-12: the result code of a test that ran to its end. -/
def Proof.resultCode (p : Proof) : Nat := if p.failA || p.failB then 2 else 1

/-- The result payload of Table 1-12. -/
def Proof.payload (p : Proof) (code : Nat) : List (BitVec 8) :=
  leBytes 1 code ++ leBytes 1 (b2n p.failA + 2 * b2n p.failB) ++ leBytes 2 p.vminA ++ leBytes 2 p.vminB ++
    leBytes 2 (ofSigned 16 p.tpkA) ++ leBytes 2 (ofSigned 16 p.tpkB) ++ leBytes 2 p.load ++
    leBytes 1 (b2n p.faultA + 2 * b2n p.faultB) ++ leBytes 3 0

/-- The proof test ends with `code`: `PROOF_RESULT`, the ticket with its payload (R58), and the event of R55. -/
def State.endProof (s : State) (p : Proof) (code : Nat) : State :=
  let s := { s with pwr.proof := none, pwr.proofResult := code }
  let s := match p.ticket with
    | none => s
    | some t => s.endTicket t stOK 0xFFFF (p.payload code)
  if code = 1 then ({ s with pwr.suspect := false }).note evProofPass 0 0 0 [code, p.load]
  else if code = 2 then
    let s := if p.failA then s.note evProofFail 1 0xA 0 [code, p.load] else s
    let s := if p.failB then s.note evProofFail 1 0xA 1 [code, p.load] else s
    ({ s with pwr.suspect := true }).alert aFEED_SUSPECT true
  else s.note evProofAbort 0 0 0 [code, p.load]

/-- R56: the test is aborted. -/
def State.abortProof (s : State) : State :=
  match s.pwr.proof with
  | none => s
  | some p => s.endProof p 4

/-- A fresh measurement. -/
def State.measure (s : State) : Nat := Config.sensor s.free % 0x10000

/-- A feed in range with a healthy stage: the stage runs (R36, R63) and can take the load. -/
def Feed.good (f : Feed) : Bool := f.inRange && !f.fault

/-- R52, R53, R57: a request starts the test, or is rejected (`none`). The load that the test exercises is the input power at
its start, a measurement. R52 admits a request while a stage waits for its share (R40); the test's own ramps then replace
that wait (DESIGN CHOICE, notes/assumptions/89.md). -/
def State.startProof (s : State) (ticket : Option Nat) : Option State :=
  if s.pwr.a.good && s.pwr.b.good && s.pwr.proof.isNone then
    some ({ s with
      pwr.a := { s.pwr.a with waiting := false }
      pwr.b := { s.pwr.b with waiting := false }
      pwr.ramping := false
      pwr.proofResult := 5
      pwr.proof := some ⟨.rampA, ticket, false, false, 0, 0, 0, 0, s.measure, false, false⟩ }).tick
  else none

/-- R39, R41: one stage alone carries the load: `FEED_REDUND` is set, and its first setting records SEV1. -/
def State.lostRedundancy (s : State) : State :=
  if s.alertBit aFEED_REDUND then s else (s.alert aFEED_REDUND true).note evRedundLost 1 0 0

/-- R42: the module starts, or starts again, on one feed: `FEED_REDUND` is set, and its SEV1 waits for the check at 5 s. -/
def State.startsAlone (s : State) : State :=
  if s.alertBit aFEED_REDUND then s else { s.alert aFEED_REDUND true with pwr.startCheck := true }

/-- R39: the stage of feed `x`, where it can, carries the full load once the other is lost, whatever wait or ramp of its
share was running; nothing changes where it carries the load already but the redundancy (R41). -/
def State.transferTo (s : State) (x : Side) : State :=
  let f := s.feed x
  if f.good then (s.setFeed x { f with carrying := true, waiting := false }).lostRedundancy else s

/-- A stage whose feed is in range runs (R36, R63). While the other stage carries the load, its share waits 1 s (R40); where no
stage carries it, it is used at once and brings up the other domains, and start-up resumes (R40, R43, R45). -/
def State.stageJoins (s : State) (x : Side) (f : Feed) : State :=
  if (s.feed (otherSide x)).carrying then s.setFeed x { f with up := true, waiting := true }
  else
    let s := s.setFeed x { f with up := true, carrying := true, waiting := false }
    let off := !s.pwr.domains
    let s := { s with pwr.domains := true, blk.lattice := s.blk.lattice || off }
    if s.pwr.started then (if off then s.startsAlone.resumeStartup else s) else s

/-- R37, R40, R42: a feed comes into range. The start check of R42 runs from the first feed, whatever its stage. -/
def execFeedEntersRange (feed : Side) (cv : Nat) (s : State) : Result := .next <|
  let f := s.feed feed
  if !entersRange cv || f.inRange || s.pwr.holdUp then s
  else
    let first := !s.pwr.started && !s.pwr.a.inRange && !s.pwr.b.inRange
    let s := s.sawVolts feed cv
    let s := { s with
      pwr.startCheck := s.pwr.startCheck || first
      rst.startMs := if first then s.opMs else s.rst.startMs }
    if f.fault then s.setFeed feed { f with inRange := true }
    else s.stageJoins feed { f with inRange := true }

/-- R39, R41, R48: a feed leaves range; the stages alone transfer the load. -/
def execFeedLeavesRange (feed : Side) (cv : Nat) (s : State) : Result := .next <|
  let f := s.feed feed
  if !leavesRange cv || !f.inRange then s
  else
    let s := s.sawVolts feed cv
    let s := s.setFeed feed { f with inRange := false, up := false, carrying := false, waiting := false }
    let s := s.alert (sideIndex feed) true
    let s := { s with pwr.ramping := false }
    let s := s.note evFeedLost 1 0xA (sideIndex feed) [sideIndex feed]
    s.abortProof.transferTo (otherSide feed)

/-- R39, R54, R56: a stage faults; on test, the fault of the carrying stage in its own phase fails the test and any other
aborts it. In its own phase the fault sets `FEED_REDUND` with its SEV1 at once, as outside a test, and the test goes on on the
standby stage: R41 exempts only a phase whose other stage is in hot standby, and the spec does not say more (DESIGN CHOICE,
notes/assumptions/90.md). -/
def execStageFault (feed : Side) (s : State) : Result := .next <|
  let f := s.feed feed
  if f.fault then s
  else
    let s := s.setFeed feed { f with fault := true, up := false, carrying := false, waiting := false }
    let s := { s with pwr.ramping := false }
    let s := s.note evFeedLost 1 0xA (sideIndex feed) [sideIndex feed]
    let s := match s.pwr.proof with
      | none => s
      | some p =>
        if p.carriedBy = some feed then
          match feed with
          | .a => { s with pwr.proof := some { p with faultA := true, failA := true } }
          | .b => { s with pwr.proof := some { p with faultB := true, failB := true } }
        else
          match feed with
          | .a => s.endProof { p with faultA := true } 4
          | .b => s.endProof { p with faultB := true } 4
    s.transferTo (otherSide feed)

/-- R40, R43: a stage's fault clears: with its feed in range it joins like a returning feed. -/
def execStageFaultClears (feed : Side) (s : State) : Result := .next <|
  let f := s.feed feed
  if !f.fault then s
  else if !f.inRange then s.setFeed feed { f with fault := false }
  else s.stageJoins feed { f with fault := false }

/-- R40: the 1 s wait has passed, and the share ramps. -/
def execFeedReturnWaitExpires (feed : Side) (s : State) : Result := .next <|
  let f := s.feed feed
  if f.waiting && f.good then { s.setFeed feed { f with waiting := false } with pwr.ramping := true } else s

/-- R38, R41: every running stage that does not wait carries its share; where both do, `FEED_REDUND` is cleared, and the check
of R42 has nothing left to find. -/
def State.share (s : State) : State :=
  let s := { s with
    pwr.a := { s.pwr.a with carrying := s.pwr.a.good && !s.pwr.a.waiting }
    pwr.b := { s.pwr.b with carrying := s.pwr.b.good && !s.pwr.b.waiting } }
  if s.pwr.sharing then { s.alert aFEED_REDUND false with pwr.startCheck := false } else s

/-- R38, R40, R41: the share of a returning stage has ramped up. -/
def execShareRampComplete (s : State) : Result := .next <|
  if s.pwr.ramping then ({ s with pwr.ramping := false }).share else s

/-- R42: 5 s after the first feed entered range, the SEV1 of R41 is recorded unless both feeds share. -/
def execFeedRedundStartCheck (s : State) : Result := .next <|
  if s.pwr.startCheck then
    let s := { s with pwr.startCheck := false }
    if s.pwr.sharing then s else s.note evRedundLost 1 0 0
  else s

/-- R47: every 10 ms the keeper publishes the feed-health heartbeat on both paths. `busRead` says whether the advance on the
keeper-bus path reaches the health core; only a running health core reads it, and a first read after its start begins the
judging. -/
def execFeedHealthHeartbeat (s : State) (busRead : Bool := true) : Result := .next <|
  if s.pwr.started then
    let read := busRead && !s.rst.orqDown
    { s with
      pwr.hbCount := (s.pwr.hbCount + 1) % 0x10000
      pwr.hbSeen := s.pwr.hbSeen || read
      pwr.monSilent := s.pwr.monSilent && !read }
  else s

/-- R47, Table 1-4: the health core, which runs and has read a first advance, finds the keeper-bus path silent. -/
def execMonPathLost (s : State) : Result := .next <|
  if !s.rst.orqDown && s.pwr.hbSeen then
    (({ s with pwr.monSilent := true }).note evMonPath 1 9 2).alert aMON_PATH true
  else s

/-- R53: the load lies on stage `x` alone, the other in hot standby; a stage that has faulted in its own phase has left the load
to the other. -/
def State.carryAlone (s : State) (x : Side) : State :=
  let f := s.feed x
  let o := s.feed (otherSide x)
  (s.setFeed x { f with carrying := f.good }).setFeed (otherSide x) { o with carrying := !f.good && o.good }

/-- R53, R54: a timed phase of the proof test ends; `vmin` (10 mV) and `tpk` (0.1 °C) are what the phase measured. -/
def execProofTestPhaseEnd (vmin : Nat) (tpk : Int) (s : State) : Result := .next <|
  match s.pwr.proof with
  | none => s
  | some p =>
    let bad := decide (vmin < 4600) || decide (1050 < tpk)
    match p.phase with
    | .rampA => ({ s with pwr.proof := some { p with phase := .holdA } }).carryAlone .a
    | .holdA => { s with pwr.proof := some { p with phase := .returnA, vminA := vmin, tpkA := tpk, failA := p.failA || bad } }
    | .returnA => ({ s with pwr.proof := some { p with phase := .waitA } }).share
    | .waitA => { s with pwr.proof := some { p with phase := .rampB } }
    | .rampB => ({ s with pwr.proof := some { p with phase := .holdB } }).carryAlone .b
    | .holdB => { s with pwr.proof := some { p with phase := .returnB, vminB := vmin, tpkB := tpk, failB := p.failB || bad } }
    | .returnB => ({ s with pwr.proof := some { p with phase := .waitB } }).share
    | .waitB => s.endProof p p.resultCode

/-! ### SMBus (R79, R80). A read of a sensor gives what the sensor measures at that moment, a free value. -/

/-- An SMBus read word. -/
def State.smbReply (s : State) (code value : Nat) : State := s.emit (.smb code (value % 0x10000))

/-- R79: a transaction that writes carries a PEC; with a wrong one it is not acknowledged and has no effect. -/
def State.smbWrite (s : State) (pecOk : Bool) (f : State → State) : State := if pecOk then f s else s.emit .smbNack

def execSmbStatus (s : State) : Result := .next <| s.smbReply 0x01 s.pwr.status.toNat

def execSmbAlertClear (mask : Nat) (s : State) (pecOk : Bool := true) : Result := .next <|
  s.smbWrite pecOk fun s => s.clearAlerts mask

def execSmbAlertMask (isWrite : Bool) (val : Nat) (s : State) (pecOk : Bool := true) : Result := .next <|
  if isWrite then s.smbWrite pecOk fun s => { s with pwr.mask := BitVec.ofNat 16 val }
  else s.smbReply 0x03 s.pwr.mask.toNat

def execFeedAV (s : State) : Result := .next <|
  ({ s with pwr.sensors.feedAV := s.measure }).tick.smbReply 0x10 s.measure

def execFeedAI (s : State) : Result := .next <|
  ({ s with pwr.sensors.feedAI := s.measure }).tick.smbReply 0x11 s.measure

def execFeedBV (s : State) : Result := .next <|
  ({ s with pwr.sensors.feedBV := s.measure }).tick.smbReply 0x12 s.measure

def execFeedBI (s : State) : Result := .next <|
  ({ s with pwr.sensors.feedBI := s.measure }).tick.smbReply 0x13 s.measure

def execInputPower (s : State) : Result := .next <|
  ({ s with pwr.sensors.power := s.measure }).tick.smbReply 0x14 s.measure

def execInletTemp (s : State) : Result := .next <|
  ({ s with pwr.sensors.inlet := s.measure }).tick.smbReply 0x20 s.measure

def execOutletTemp (s : State) : Result := .next <|
  ({ s with pwr.sensors.outlet := s.measure }).tick.smbReply 0x21 s.measure

def execHbCount (s : State) : Result := .next <| s.smbReply 0x28 s.pwr.hbCount

/-- R52: `PROOF_TEST` 0x01 starts the test or sets `PROOF_RESULT` to 3; other values are ignored (Table 1-6). -/
def execSmbProofTest (val : Nat) (s : State) (pecOk : Bool := true) : Result := .next <|
  s.smbWrite pecOk fun s => if val = 1 then (s.startProof none).getD { s with pwr.proofResult := 3 } else s

def execProofResult (s : State) : Result := .next <| s.smbReply 0x31 s.pwr.proofResult

def execPwrcycReason (s : State) : Result := .next <| s.smbReply 0x38 (s.pwr.pwrcycReason % 256)

/-- R79, R80: a code outside Table 1-6, or a code used with another transaction, is not acknowledged. -/
def execSmbUnknownCommand (_code : Nat) (s : State) : Result := .next <| s.emit .smbNack

/-- R79: the Alert Response Address is answered while `ALERT_N` is low. -/
def execSmbAlertResponse (s : State) : Result := .next <|
  if s.alertLow then s.emit (.smbAlertAddr 0x4C) else s.emit .smbNack

/-! ### Coolant and the power limit -/

/-- Lower the compute clock of quarter `q` by one 100 MHz step. -/
def State.clockDown (s : State) (q : Nat) : State :=
  let v := s.quarter q
  s.setQuarter q { v with mhz := v.mhz - 100 }

/-- R31: the inlet (0.1 °C) is in the 40 to 48 °C band, and the clock of a quarter is lowered one step; the first step
after the band was entered records SEV1. -/
def execComputeClockStep (inlet : Int) (quarter : Nat) (s : State) : Result := .next <|
  if 400 < inlet && inlet ≤ 480 && quarter < 4 then
    let s := ({ s with pwr.coolBand := true }).alert aCOOL_WARN true
    let s := s.clockDown quarter
    if s.pwr.coolStepped then s
    else ({ s with pwr.coolStepped := true }).note evClockStep 1 2 quarter [ofSigned 16 inlet, (s.quarter quarter).mhz]
  else s

/-- R31: an inlet above 48 °C for 10 s: every partition is reset at SEV4, and the quarters stay gated. -/
def execInletOverLimit (inlet : Int) (s : State) : Result := .next <|
  if 480 < inlet then
    let s := ({ s with pwr.coolStop := true, pwr.coolBand := true }).alert aCOOL_STOP true
    let s := s.alert aCOOL_WARN true
    ((List.range 4).filter s.partExists).foldl (fun s p => s.record evCoolStop 4 2 p [ofSigned 16 inlet]) s
  else s

/-- R31: an inlet at or below 45 °C for 60 s ends the coolant stop: the SRAM dies are supplied again, and the quarters stay gated
until work wakes them (R102). A quarter that R101 gated for its junction stays without SRAM until its partition's reset (R116). -/
def execInletRecovered (inlet : Int) (s : State) : Result := .next <|
  if inlet ≤ 450 && s.pwr.coolStop then
    ((List.range 4).filter fun q => !(s.quarter q).outOfSvc).foldl (fun s q => s.setSramOff q false)
      { s with pwr.coolStop := false }
  else s

/-- R31: the inlet enters the 40 to 48 °C band, or falls to 40 °C or below, where full rating holds again and the band
counts as left. -/
def execInletBandChange (inlet : Int) (s : State) : Result := .next <|
  if inlet ≤ 400 then
    { s with
      pwr.coolBand := false
      pwr.coolStepped := false
      blk.quarters := s.blk.quarters.map fun x => (x.1, { x.2 with mhz := x.2.ceiling }) }
  else ({ s with pwr.coolBand := true }).alert aCOOL_WARN true

/-- R88: the clock is lowered so that the 1 s average input power stays at or below 2,000 W. -/
def execPowerLimitClockStep (watts quarter : Nat) (s : State) : Result := .next <|
  if 2000 < watts && quarter < 4 then ({ s with pwr.sensors.power := watts }).clockDown quarter else s

/-- R83: still powered 2 s after the request: SEV6, the request stays asserted, and no step follows (R665). -/
def execPowerCycleNotExecuted (s : State) : Result := .next <|
  if s.pwr.pwrcycReq then s.note evPwrcycNot 6 0 0 else s

/-! ### References and the CXL pins -/

/-- R71: `TREF` is lost and the on-module oscillator takes over. -/
def execTrefLost (s : State) : Result := .next <|
  if s.blk.trefOk && s.blk.oscOk then
    let s := { s with blk.trefOk := false }
    let s := (s.wr F.ID_PWR_STATE.REF_SRC 1).alert aTREF_LOST true
    s.note evTrefLost 1 0 0
  else { s with blk.trefOk := false }

/-- R71: `TREF` has been good for 1 s, and the module switches back to it. -/
def execTrefRestored (s : State) : Result := .next <|
  if s.blk.noRef then s else ({ s with blk.trefOk := true }).wr F.ID_PWR_STATE.REF_SRC 0

def evTimCoarse : Nat := 0x0D00

/-- R111, R595: both references are lost: time runs on from the sleep clock, `COARSE` and `NO_REF` are set, and SEV5
`TIM_COARSE` is recorded once; it draws no step (R665). -/
def execReferencesLost (s : State) : Result := .next <|
  if s.blk.noRef then s
  else
    let s := { s with blk.trefOk := false, blk.oscOk := false, blk.noRef := true }
    let s := (s.wr F.TIM_STATUS.COARSE 1).wr F.PTH_STATUS.NO_REF 1
    s.note evTimCoarse 5 0 0

/-- R111, R595: a reference has qualified for 1 s; `TREF` is used where it did. -/
def State.referenceBack (s : State) (tref : Bool) : State :=
  if s.blk.noRef then
    let s := if tref then ({ s with blk.trefOk := true }).wr F.ID_PWR_STATE.REF_SRC 0
      else (({ s with blk.oscOk := true }).wr F.ID_PWR_STATE.REF_SRC 1).alert aTREF_LOST true
    (({ s with blk.noRef := false }).wr F.TIM_STATUS.COARSE 0).wr F.PTH_STATUS.NO_REF 0
  else if tref then ({ s with blk.trefOk := true }).wr F.ID_PWR_STATE.REF_SRC 0
  else { s with blk.oscOk := true }

/-- R657: `PERST_N` goes high and link training starts; a module that is ready reports its memory active again. -/
def execPerstDeassert (s : State) : Result := .next <|
  if s.pwr.perstLow then { s with pwr.perstLow := false, pwr.perstAt := s.opMs, pwr.memActive := s.flag F.RST_STATUS.READY, ms.linkDown := false } else s

/-- R657: the configuration space is ready at the latest 1 s after `PERST_N` went high, once step 2 has configured the
port; before that second has passed, whether it is ready is a free value. -/
def State.cxlReady (s : State) : Bool :=
  decide (2 ≤ s.rd F.RST_STATUS.PHASE) && !s.pwr.perstLow &&
    (decide (s.pwr.perstAt + 1000 ≤ s.opMs) || (Config.word s.free).toNat % 2 == 1)

/-- R657: a configuration request is served or answered with retry status. The spec gives the configuration space's
contents by reference to CXL 2.0 only, so an offset that nothing wrote reads a free value. -/
def execCxlConfigRequest (off : Nat) (isWrite : Bool) (val : Nat) (s : State) : Result := .next <|
  if s.pwr.perstLow then s
  else
    let t := s.tick
    if s.cxlReady then
      if isWrite then { t with pwr.cxlCfg := kset t.pwr.cxlCfg off (val % 2 ^ 32) }
      else t.emit (.cxlConfig (kget t.pwr.cxlCfg off ((Config.word t.free).toNat % 2 ^ 32)))
    else t.emit .cxlRetry

/-! ### Boundary scan (R76 to R78) -/

/-- A debug unlock is in force (R78). -/
def State.unlocked (s : State) : Bool := s.flag F.SEC_STATUS.DEBUG

def execTapBypass (s : State) : Result := .next <| ({ s with pwr.tap := .bypass }).emit (.tap 0 0)

/-- R77: IDCODE; bits [31:28] are the silicon revision. -/
def execTapIdcode (s : State) : Result := .next <|
  ({ s with pwr.tap := .idcode }).emit (.tap 1 (Config.siRev ++ Config.idcodeLow).toNat)

/-- R78: EXTEST and INTEST run only after an unlock and in test mode, and execute as BYPASS otherwise. -/
def State.tapTest (s : State) (scan : Nat) (i : TapInstr) (n : Nat) : State :=
  if s.unlocked && s.mode == mTEST then ({ s with pwr.tap := i, pwr.boundary := scan % 2 ^ 128 }).emit (.tap n (scan % 2 ^ 128))
  else ({ s with pwr.tap := .bypass }).emit (.tap 0 0)

/-- R77, R78: an instruction that needs the unlock, or is executed as BYPASS. -/
def State.tapIf (s : State) (ok : Bool) (i : TapInstr) (n : Nat) : State :=
  if ok then ({ s with pwr.tap := i }).emit (.tap n 0) else ({ s with pwr.tap := .bypass }).emit (.tap 0 0)

/-- R76, R78: EXTEST drives the signal connector's outputs from the boundary register, into which `scan` was shifted. -/
def execTapExtest (s : State) (scan : Nat := 0) : Result := .next <| s.tapTest scan .extest 2

/-- R76, R78: INTEST applies the boundary register, into which `scan` was shifted, to the module's side of the pins. -/
def execTapIntest (s : State) (scan : Nat := 0) : Result := .next <| s.tapTest scan .intest 3

def execTapOtherInstruction (code : Nat) (s : State) : Result := .next <| s.tapIf s.unlocked (.other code) (4 + code)

end Sys2Proof.Machine
end

