-- ==== Sys2Proof/Machine/Recorder.lean ====
section
/-! DEFINITION. The event recorder (R727 to R740): record bytes, the flash ring, flushing, losses, the latch, reading. -/

namespace Sys2Proof.Machine

open Sys2Proof

def evLost : Nat := 0x1100
def evCleared : Nat := 0x1101
def evLatched : Nat := 0x1102
def evReleased : Nat := 0x1103
def evFlashBad : Nat := 0x1104

/-- The payload fields in table order, each little-endian in its width, packed (R6, Table 17-1). -/
def EvRec.payloadBytes (r : EvRec) : List (BitVec 8) :=
  ((Config.payloadWidths r.code).zip r.payload).flatMap fun x => leBytes x.1 x.2

/-- Bytes 0 to 61 of a record (Table 17-1). -/
def EvRec.body (r : EvRec) : List (BitVec 8) :=
  leBytes 4 r.seq ++ leBytes 6 r.opMs ++ leBytes 4 r.pwrCyc ++ leBytes 8 r.nt ++ leBytes 2 r.epoch ++ leBytes 2 r.code ++
    leBytes 2 (r.index % 2 ^ 12 + r.kind * 2 ^ 12) ++
    leBytes 1 (r.sev % 8 + 8 * b2n r.ctx.isSome + 16 * b2n r.coalesced + 32 * b2n r.injected + 64 * b2n r.coarse) ++
    leBytes 1 0 ++ leBytes 2 (r.ctx.getD 0 % 2 ^ 12) ++ leBytes 4 r.count ++ leBytes 2 0 ++
    (r.payloadBytes ++ leBytes 24 0).take 24

/-- The 64 bytes of a record. -/
def EvRec.bytes (r : EvRec) : List (BitVec 8) := r.body ++ leBytes 2 (crc16 r.body)

/-- Records that the ring holds at most (R734). -/
def Recorder.capacity (e : Recorder) : Nat := (1024 - e.bad.length) * 1024

/-- A record is written to the ring; where the ring is full the sector of the oldest records is erased first. -/
def Recorder.write (e : Recorder) (r : EvRec) : Recorder :=
  if e.ring.length < e.capacity then { e with ring := e.ring ++ [r] } else { e with ring := e.ring.drop 1024 ++ [r] }

/-- The oldest `SEQ` in the ring; where it is empty, the `SEQ` that the next record takes (R738). -/
def Recorder.oldest (e : Recorder) : Nat := (e.ring.head?.map EvRec.seq).getD e.seq
/-- The newest `SEQ` in the ring; where it is empty, one below the next. -/
def Recorder.newest (e : Recorder) : Nat := (e.ring.getLast?.map EvRec.seq).getD ((e.seq + 2 ^ 32 - 1) % 2 ^ 32)

/-- The bits of `EVR_LOST`'s cause field. -/
def LostSum.causes (l : LostSum) : Nat := b2n l.full + 2 * b2n l.reserve + 4 * b2n l.holdUp

/-- The `EVR_LOST` record of a summary goes into the buffer (R733, R736). -/
def State.writeLost (s : State) (l : LostSum) : State :=
  s.bufferRecord (s.mkRecord evLost (if 2 ≤ l.maxSev then 2 else 1) 0 0 [l.count, l.firstMs, l.lastMs, l.maxSev, l.causes] none false)

/-- A slot has freed: the lost records are reported ahead of any other. -/
def State.reportLost (s : State) : State :=
  match s.evr.lost with
  | none => s
  | some l => ({ s with evr.lost := none }).writeLost l

/-- COALESCING_EXIT (R735): at an occupancy of 3,072 every coalesced entry becomes a record. -/
def State.leaveCoalescing (s : State) : State :=
  if s.evr.coalescing && decide (s.evr.buf.length ≤ 3072) then
    s.evr.coal.foldl (fun (s : State) r => s.bufferRecord r) { s with evr.coalescing := false, evr.coal := [] }
  else s

/-- Slots have freed. -/
def State.slotsFreed (s : State) : State := s.reportLost.leaveCoalescing

/-- A sector fails to erase or write (R734). -/
def State.badSector (s : State) (k : Nat) : State :=
  if s.evr.bad.contains k || decide (1024 ≤ k) then s
  else
    let e := { s.evr with bad := s.evr.bad ++ [k] }
    ({ s with evr := { e with ring := if e.capacity < e.ring.length then e.ring.drop 1024 else e.ring } }).note evFlashBad 1 0 0 [k]

/-- Buffered records chosen by `sel` are written to the ring, in ascending `SEQ`, up to `n` of them. -/
def State.flushSome (s : State) (n : Nat) (sel : EvRec → Bool) : State :=
  let out := (s.evr.buf.filter sel).take n
  let kept := s.evr.buf.filter fun r => !(sel r && out.any fun x => x.seq == r.seq)
  if out.isEmpty then s
  else { s with evr := { (out.foldl Recorder.write s.evr) with buf := kept } }

/-- FLUSH: `count` buffered records go to the ring in ascending `SEQ`; sectors in `bad` fail. It runs until the buffer is
empty (R732); a latched ring takes nothing (R738). -/
def execFlush (count : Nat) (bad : List Nat) (s : State) : Result :=
  .next <|
    if s.evr.latched || s.evr.stopped || s.evr.buf.isEmpty then s
    else
      let s := bad.foldl State.badSector s
      let s := s.flushSome count fun _ => true
      let s := if count = 0 then s else s.slotsFreed
      { s with evr.flushing := !s.evr.buf.isEmpty }

/-- OP_TIME_CHECKPOINT: every 60 s (R729). -/
def State.checkpoint (s : State) : State := { s with evr.ckOpMs := s.opMs }

def execOpTimeCheckpoint (s : State) : Result := .next s.checkpoint

/-- The latch ends, for cause 0 `EVR_RELEASE`, 1 expired, 2 feeds lost (R739). -/
def State.releaseLatch (s : State) (cause : Nat) : State :=
  if s.evr.latched then
    let s := { s with evr.latched := false }
    let s := s.note evReleased 0 0 0 [cause, s.evr.buf.length]
    { s with evr.flushing := !s.evr.buf.isEmpty }
  else s

/-- LATCH_EXPIRES: `LATCH_S` seconds have passed. -/
def execLatchExpires (s : State) : Result := .next (s.releaseLatch 1)

/-- EVR_RD_CTL_WRITE: the record of a `SEQ`, from the buffer or the ring (R737). -/
def State.readRecord (s : State) (seq : Nat) : State :=
  let inBuf := s.evr.buf.find? fun r => r.seq == seq
  let bs := match inBuf.orElse fun _ => s.evr.ring.find? fun r => r.seq == seq with
    | some r => r.bytes
    | none => []
  let s := s |>.wr F.EVR_RD_CTL.SEQ seq
    |>.wr F.EVR_RD_CTL.FOUND (b2n !bs.isEmpty)
    |>.wr F.EVR_RD_CTL.IN_BUFFER (b2n inBuf.isSome)
  (List.range 8).foldl (fun (s : State) k => s.wreg .EVR_RD_DATA (BitVec.ofNat 64 (leAt bs (8 * k) 8)) k) s

def execEvrRdCtlWrite (seq : Nat) (s : State) : Result := .next (s.leaveDormant.readRecord (seq % 2 ^ 32))

/-- The clear of R740: latch, ring and buffer go; `EVR_CLEARED` is the first record. -/
def State.clearRecorder (s : State) (counter : Nat) : State :=
  let held := s.evr.ring ++ s.evr.buf
  let first := (held.head?.map EvRec.seq).getD s.evr.seq
  let last := (held.getLast?.map EvRec.seq).getD ((s.evr.seq + 2 ^ 32 - 1) % 2 ^ 32)
  let s := { s with evr.latched := false, evr.ring := [], evr.buf := [], evr.flushing := false }
  (s.bufferRecord (s.mkRecord evCleared 1 0 0 [counter, first, last] none false)).slotsFreed

/-! ### The hold-up (R733) -/

/-- What the keeper does in the 8 ms after both feeds are lost: `flushed` records, at most 140, are written, those of SEV2
and above first; then the recorder takes no record. -/
def State.holdUpFlush (s : State) (flushed : Nat) : State :=
  let s := (s.releaseLatch 2).checkpoint
  let n := min flushed 140
  let high := min n (s.evr.buf.filter fun r => decide (2 ≤ r.sev)).length
  let s := s.flushSome high fun r => decide (2 ≤ r.sev)
  let s := s.flushSome (n - high) fun r => decide (r.sev < 2)
  { s with evr.stopped := true, evr.flushing := false }

/-- The summary stored with the checkpoint: every record taken and never written, and every event lost. -/
def State.holdUpSummary (s : State) : Option LostSum :=
  let add (o : Option LostSum) (n : Nat) (r : EvRec) : Option LostSum :=
    some (LostSum.add o n r.sev r.opMs false false true)
  let o := s.evr.buf.foldl (fun o r => add o 1 r) none
  let o := s.evr.coal.foldl (fun o r => add o r.count r) o
  match s.evr.lost, o with
  | none, o => o
  | some l, none => some { l with holdUp := true }
  | some l, some b => some ⟨l.count + b.count, min l.firstMs b.firstMs, max l.lastMs b.lastMs, max l.maxSev b.maxSev, l.full, l.reserve, true⟩

/-- A feed has come back within the hold-up: the buffer is kept and the recorder goes on. -/
def State.holdUpOver (s : State) : State :=
  let s := { s with evr.stopped := false }
  let s := if s.evr.buf.length < 4096 then s.reportLost else s
  { s with evr.flushing := !s.evr.buf.isEmpty }

end Sys2Proof.Machine
end

