-- ==== Sys2Proof/Machine/Operands.lean ====
section
/-! DEFINITION. Number formats and arithmetic (spec/04_number_formats.md): the format codes, encodings, exact values,
rounding to nearest and stochastically, conversions, MX blocks, FP32 and INT32 arithmetic, and the special functions. -/

namespace Sys2Proof.Machine

open Sys2Proof

/-! ### Format codes (Table 4-1) -/

def fFP32 : Nat := 0
def fBF16 : Nat := 1
def fFP16 : Nat := 2
def fE4M3 : Nat := 3
def fE5M2 : Nat := 4
def fMX6 : Nat := 5
def fMX4 : Nat := 6
def fINT8 : Nat := 7
def fUINT8 : Nat := 8
def fINT32 : Nat := 9
def fE8M0 : Nat := 10

/-- The width of an element in bits (Table 4-1); 0 for a reserved code. -/
def fmtBits (f : Nat) : Nat :=
  if f = 0 ∨ f = 9 then 32 else if f = 1 ∨ f = 2 then 16
  else if f = 3 ∨ f = 4 ∨ f = 7 ∨ f = 8 ∨ f = 10 then 8 else if f = 5 then 6 else if f = 6 then 4 else 0

/-- An MX element format. -/
def isMx (f : Nat) : Bool := f == 5 || f == 6

/-- Exponent bits, mantissa bits and bias (Table 4-2). -/
structure FpFmt where
  ebits : Nat
  mbits : Nat
  bias  : Nat
deriving DecidableEq, Repr

def fpFmt (f : Nat) : FpFmt :=
  if f = 0 then ⟨8, 23, 127⟩ else if f = 1 then ⟨8, 7, 127⟩ else if f = 2 then ⟨5, 10, 15⟩
  else if f = 3 then ⟨4, 3, 7⟩ else if f = 4 then ⟨5, 2, 15⟩ else if f = 5 then ⟨3, 2, 3⟩ else ⟨2, 1, 1⟩

/-! ### Values -/

/-- What an encoding stands for: NaN, an infinity, or the exact number (-1)^neg · m · 2^e (R189 to R192). -/
inductive Num where
  | nan
  | inf (neg : Bool)
  | fin (neg : Bool) (m : Nat) (e : Int)
deriving DecidableEq, Repr

/-- ⌊log₂ n⌋ for n > 0. -/
def log2 (n : Nat) : Nat := Nat.log2 n

/-- The value of an encoding of a floating-point format (R189, Table 4-3). -/
def decodeFp (f bits : Nat) : Num :=
  let p := fpFmt f
  let neg := bitOf bits (p.ebits + p.mbits)
  let e := bitsOf bits (p.ebits + p.mbits - 1) p.mbits
  let m := bits % 2 ^ p.mbits
  let top := 2 ^ p.ebits - 1
  if e = top ∧ f ≤ 4 ∧ f ≠ 3 then (if m = 0 then .inf neg else .nan)
  else if f = 3 ∧ e = top ∧ m = 7 then .nan
  else if e = 0 then .fin neg m (1 - (p.bias : Int) - p.mbits)
  else .fin neg (2 ^ p.mbits + m) ((e : Int) - p.bias - p.mbits)

/-- The largest finite encoding, without sign (Table 4-2). -/
def maxCode (f : Nat) : Nat :=
  if f = 0 then 0x7F7FFFFF else if f = 1 then 0x7F7F else if f = 2 then 0x7BFF
  else if f = 3 then 0x7E else if f = 4 then 0x7B else if f = 5 then 0x1F else 7

/-- The canonical NaN (Table 4-3); MX elements have none. -/
def nanCode (f : Nat) : Nat :=
  if f = 0 then 0x7FC00000 else if f = 1 then 0x7FC0 else if f = 2 then 0x7E00
  else if f = 3 then 0x7F else if f = 4 then 0x7E else 0

/-- Infinity, without sign; E4M3 has none and its overflow is NaN (Table 4-6). -/
def infCode (f : Nat) : Nat :=
  if f = 0 then 0x7F800000 else if f = 1 then 0x7F80 else if f = 2 then 0x7C00
  else if f = 3 then 0x7F else 0x7C

/-- The sign bit of a format. -/
def signCode (f : Nat) (neg : Bool) : Nat :=
  let p := fpFmt f
  if neg then 2 ^ (p.ebits + p.mbits) else 0

/-! ### Rounding -/

/-- How a conversion rounds (R211): to nearest with ties to even, away from zero
(towards +∞ for the magnitudes of R230), or stochastically with the lane's 16-bit value. -/
inductive Rnd where
  | nearest
  | up
  | stoch (r : Nat)
deriving DecidableEq, Repr

/-- `m · 2^e` in units of `2^q`, rounded (R213, R217). A fraction *d* that truncates to 0 counts as 0x0001, the least that
R217's comment admits (DESIGN CHOICE, notes/assumptions/96.md). -/
def roundAt (rnd : Rnd) (m : Nat) (e q : Int) : Nat :=
  if q ≤ e then m * 2 ^ (e - q).toNat
  else
    let k := (q - e).toNat
    let lo := m / 2 ^ k
    let rem := m % 2 ^ k
    if rem = 0 then lo
    else match rnd with
      | .nearest => if rem * 2 > 2 ^ k ∨ (rem * 2 = 2 ^ k ∧ lo % 2 = 1) then lo + 1 else lo
      | .up => lo + 1
      | .stoch r => if max 1 (rem * 2 ^ 16 / 2 ^ k) + r ≥ 2 ^ 16 then lo + 1 else lo

/-- A finite number rounded to a floating-point format: the encoding without sign, or `none` where the rounded
magnitude exceeds the largest finite value (R213). -/
def roundFp (rnd : Rnd) (f m : Nat) (e : Int) : Option Nat :=
  if m = 0 then some 0
  else
    let p := fpFmt f
    let emin := 1 - (p.bias : Int)
    let q := max (e + (log2 m : Int) - p.mbits) (emin - p.mbits)
    let n := roundAt rnd m e q
    if n = 0 then some 0
    else
      let l := log2 n
      let ex := q + (l : Int)
      let code :=
        if ex < emin then n
        else ((ex + p.bias).toNat) * 2 ^ p.mbits + (if p.mbits ≤ l then n / 2 ^ (l - p.mbits) else n * 2 ^ (p.mbits - l)) - 2 ^ p.mbits
      if ex + p.bias ≥ (2 ^ p.ebits : Nat) ∨ maxCode f < code then none else some code

/-- A value as an encoding of a floating-point format under Table 4-6; `sat` is `SAT`. -/
def encodeFp (rnd : Rnd) (sat : Bool) (f : Nat) : Num → Nat
  | .nan => nanCode f
  | .inf neg => if sat then signCode f neg + maxCode f else if f = 3 then nanCode f else signCode f neg + infCode f
  | .fin neg m e => match roundFp rnd f m e with
    | some c => signCode f neg + c
    | none => if sat then signCode f neg + maxCode f else if f = 3 then nanCode f else signCode f neg + infCode f

/-- The FP32 encoding of an exact value, rounded once to nearest (R205, R206). -/
def toF32 (v : Num) : BitVec 32 := BitVec.ofNat 32 (encodeFp .nearest false fFP32 v)

/-- The value of an FP32 encoding. -/
def ofF32 (b : BitVec 32) : Num := decodeFp fFP32 b.toNat

/-! ### Exact arithmetic on values -/

/-- `fin` as a signed mantissa and exponent. -/
def sgn (neg : Bool) (m : Nat) : Int := if neg then -(m : Int) else m

/-- A signed mantissa as a value. -/
def ofSgn (i : Int) (e : Int) : Num := .fin (decide (i < 0)) i.natAbs e

/-- The exact sum; opposite infinities give NaN; an exact zero sum is +0 unless both terms are −0 (IEEE 754). -/
def Num.add : Num → Num → Num
  | .nan, _ => .nan
  | _, .nan => .nan
  | .inf a, .inf b => if a = b then .inf a else .nan
  | .inf a, _ => .inf a
  | _, .inf b => .inf b
  | .fin na ma ea, .fin nb mb eb =>
    let e := min ea eb
    let i := sgn na (ma * 2 ^ (ea - e).toNat) + sgn nb (mb * 2 ^ (eb - e).toNat)
    if i = 0 then .fin (na && nb) 0 e else ofSgn i e

/-- The exact product; infinity times zero gives NaN. -/
def Num.mul : Num → Num → Num
  | .nan, _ => .nan
  | _, .nan => .nan
  | .inf a, .inf b => .inf (a != b)
  | .inf a, .fin b m _ => if m = 0 then .nan else .inf (a != b)
  | .fin a m _, .inf b => if m = 0 then .nan else .inf (a != b)
  | .fin na ma ea, .fin nb mb eb => .fin (na != nb) (ma * mb) (ea + eb)

def Num.neg : Num → Num
  | .nan => .nan
  | .inf a => .inf !a
  | .fin n m e => .fin (!n) m e

def Num.abs : Num → Num
  | .nan => .nan
  | .inf _ => .inf false
  | .fin _ m e => .fin false m e

/-- Multiply by 2^k. -/
def Num.scale (k : Int) : Num → Num
  | .fin n m e => .fin n m (e + k)
  | v => v

/-- −1, 0 or 1 as `a` is below, equal to or above `b`; zeros of either sign are equal. -/
def Num.cmp : Num → Num → Int
  | .fin na ma ea, .fin nb mb eb =>
    let e := min ea eb
    let d := sgn na (ma * 2 ^ (ea - e).toNat) - sgn nb (mb * 2 ^ (eb - e).toNat)
    if d < 0 then -1 else if d = 0 then 0 else 1
  | .inf a, .inf b => if a = b then 0 else if a then -1 else 1
  | .inf a, _ => if a then -1 else 1
  | _, .inf b => if b then 1 else -1
  | _, _ => 0

def Num.isNan : Num → Bool
  | .nan => true
  | _ => false

/-- The sign bit. -/
def Num.sign : Num → Bool
  | .nan => false
  | .inf a => a
  | .fin n _ _ => n

/-! ### FP32 and INT32 operations (R205 to R209) -/

def f32Add (a b : BitVec 32) : BitVec 32 := toF32 ((ofF32 a).add (ofF32 b))
def f32Sub (a b : BitVec 32) : BitVec 32 := toF32 ((ofF32 a).add (ofF32 b).neg)
def f32Mul (a b : BitVec 32) : BitVec 32 := toF32 ((ofF32 a).mul (ofF32 b))

/-- Fused multiply-add, rounded once (R205). -/
def f32Fma (a b c : BitVec 32) : BitVec 32 := toF32 (((ofF32 a).mul (ofF32 b)).add (ofF32 c))

/-- Minimum and maximum: NaN wins, −0 is below +0 (R207). -/
def f32Min (a b : BitVec 32) : BitVec 32 :=
  let x := ofF32 a
  let y := ofF32 b
  if x.isNan || y.isNan then 0x7FC00000
  else if x.cmp y < 0 then a else if 0 < x.cmp y then b else if x.sign then a else b

def f32Max (a b : BitVec 32) : BitVec 32 :=
  let x := ofF32 a
  let y := ofF32 b
  if x.isNan || y.isNan then 0x7FC00000
  else if x.cmp y < 0 then b else if 0 < x.cmp y then a else if x.sign then b else a

/-- Absolute value and negation; a NaN result is canonical (R191). -/
def f32Abs (a : BitVec 32) : BitVec 32 := toF32 (ofF32 a).abs
def f32Neg (a : BitVec 32) : BitVec 32 := toF32 (ofF32 a).neg

/-- FP32 compare: false with a NaN, except not-equal (R207). The unsigned comparisons read as the signed ones. -/
def f32Cmp (c : Cmp) (a b : BitVec 32) : Bool :=
  let x := ofF32 a
  let y := ofF32 b
  let d := x.cmp y
  if x.isNan || y.isNan then (match c with | .ne => true | _ => false)
  else match c with
    | .eq => decide (d = 0)
    | .ne => decide (d ≠ 0)
    | .lt | .ltu => decide (d < 0)
    | .le => decide (d ≤ 0)
    | .gt => decide (0 < d)
    | .ge | .geu => decide (0 ≤ d)

def fpFn (f : FpFn) (a b : BitVec 32) : BitVec 32 :=
  match f with
  | .add => f32Add a b
  | .sub => f32Sub a b
  | .mul => f32Mul a b
  | .min => f32Min a b
  | .max => f32Max a b
  | .abs => f32Abs a
  | .neg => f32Neg a

/-- INT32 functions: wrapping, shift counts modulo 32 (R209). -/
def intFn (f : IntFn) (a b : BitVec 32) : BitVec 32 :=
  match f with
  | .add => a + b
  | .sub => a - b
  | .mulLo => a * b
  | .shl => a <<< (b.toNat % 32)
  | .shr => a >>> (b.toNat % 32)
  | .sar => a.sshiftRight (b.toNat % 32)
  | .and => a &&& b
  | .or => a ||| b
  | .xor => a ^^^ b
  | .min => if a.slt b then a else b
  | .max => if a.slt b then b else a

/-- Integer compare at any width. -/
def intCmp {w : Nat} (c : Cmp) (a b : BitVec w) : Bool :=
  match c with
  | .eq => a == b
  | .ne => a != b
  | .lt => a.slt b
  | .le => a.sle b
  | .gt => b.slt a
  | .ge => b.sle a
  | .ltu => a.ult b
  | .geu => b.ule a

/-- 64-bit scalar functions; a shift by 64 or more is open (`Config.shiftOver`, notes/assumptions/12.md). -/
def scalarFn (f : ScalarFn) (a b : BitVec 64) : BitVec 64 :=
  match f with
  | .add => a + b
  | .sub => a - b
  | .mul => a * b
  | .and => a &&& b
  | .or => a ||| b
  | .xor => a ^^^ b
  | .shl => if b.toNat < 64 then a <<< b.toNat else Config.shiftOver 0 a b
  | .shr => if b.toNat < 64 then a >>> b.toNat else Config.shiftOver 1 a b
  | .sar => if b.toNat < 64 then a.sshiftRight b.toNat else Config.shiftOver 2 a b
  | .min => if a.slt b then a else b
  | .max => if a.slt b then b else a
  | .minu => if a.ult b then a else b
  | .maxu => if a.ult b then b else a

/-! ### Stochastic rounding (R216, R217) -/

/-- One step of the generator, Galois form. -/
def srStep (g : BitVec 64) : BitVec 64 := if g.getLsbD 0 then (g >>> 1) ^^^ 0xD800000000000000 else g >>> 1

/-- `n` steps of the generator. -/
def srSteps : Nat → BitVec 64 → BitVec 64
  | 0, g => g
  | n + 1, g => srSteps n (srStep g)

/-- The 16-bit random value of lane `i` (R217). -/
def laneRandom (g : BitVec 64) (i : Nat) : Nat :=
  let h := Nat.xor (g.toNat % 2 ^ 32) (i * 0x9E3779B9 % 2 ^ 32) * 0x85EBCA6B % 2 ^ 32
  h / 2 ^ 16

/-- A generator value as loaded: 0 is replaced by 1 (R216). -/
def srLoad (v : BitVec 64) : BitVec 64 := if v = 0 then 1 else v

/-- The rounding of lane `i` under `RND` (R211). -/
def laneRnd (rndBit : Bool) (g : BitVec 64) (i : Nat) : Rnd := if rndBit then .stoch (laneRandom g i) else .nearest

/-! ### Conversions -/

/-- Round a finite number to an integer. -/
def roundInt (rnd : Rnd) (neg : Bool) (m : Nat) (e : Int) : Int := sgn neg (roundAt rnd m e 0)

/-- Clamp to `[lo, hi]`. -/
def clampI (lo hi i : Int) : Int := if i < lo then lo else if hi < i then hi else i

/-- The range of an integer format. -/
def intRange (f : Nat) : Int × Int :=
  if f = 7 then (-128, 127) else if f = 8 then (0, 255) else (-2147483648, 2147483647)

/-- A value converted to an integer format: rounded, always clamped, NaN to 0 (R215, Table 4-6). -/
def toIntFmt (rnd : Rnd) (f : Nat) (v : Num) : Nat :=
  let (lo, hi) := intRange f
  let i := match v with
    | .nan => 0
    | .inf neg => if neg then lo else hi
    | .fin neg m e => clampI lo hi (roundInt rnd neg m e)
  ofSigned (fmtBits f) i

/-- The value of an encoding of a non-MX format. -/
def decodeFmt (f bits : Nat) : Num :=
  if f ≤ 6 then decodeFp f bits
  else if f = 7 then ofSgn (toSigned 8 bits) 0
  else if f = 8 then .fin false (bits % 256) 0
  else ofSgn (toSigned 32 bits) 0

/-- A value as an encoding of a non-MX format. -/
def encodeFmt (rnd : Rnd) (sat : Bool) (f : Nat) (v : Num) : Nat := if f ≤ 6 then encodeFp rnd sat f v else toIntFmt rnd f v

/-- A conversion of `v` from format `src` to `dst`. To FP32 it is exact but from INT32, which rounds to nearest: the module ignores
`RND` and `SAT` (R212, R215); so it does between equal formats and from FP8 to FP16. -/
def convertNum (rnd : Rnd) (sat : Bool) (src dst : Nat) (v : Num) : Nat :=
  if dst = fFP32 ∨ src = dst ∨ ((src = fE4M3 ∨ src = fE5M2) ∧ dst = fFP16) then encodeFmt .nearest false dst v else encodeFmt rnd sat dst v

/-- The value of an MX element under its block's scale code (R192, R212, R219). -/
def decodeMx (f scale bits : Nat) : Num :=
  if scale = 0xFF then .nan else (decodeFp f bits).scale ((scale : Int) - 127)

/-- *e*ₘₐₓ of R218. -/
def mxEmax (f : Nat) : Int := if f = 5 then 4 else 2

/-- The larger magnitude of two values. -/
def Num.maxAbs (a b : Num) : Num := if a.abs.cmp b.abs < 0 then b.abs else a.abs

/-- R218: form an MX block; `rnd i` is the rounding of element `i`. The answer is the scale code and the elements. -/
def formMx (rnd : Nat → Rnd) (sat : Bool) (f : Nat) (vs : List Num) : Nat × List Nat :=
  let isInf : Num → Bool := fun v => match v with | .inf _ => true | _ => false
  if vs.any Num.isNan || (!sat && vs.any isInf) then (0xFF, vs.map fun _ => 0)
  else
    let vs := vs.map fun v => match v with
      | .inf n => .fin n (2 ^ 24 - 1) 104
      | v => v
    match vs.foldl Num.maxAbs (.fin false 0 0) with
    | .fin _ 0 _ => (0, vs.map fun _ => 0)
    | .fin _ m e =>
      let x := clampI (-127) 127 (e + (log2 m : Int) - mxEmax f)
      ((x + 127).toNat, (List.range vs.length).map fun i => encodeFp (rnd i) true f ((vs.getD i .nan).scale (-x)))
    | _ => (0xFF, vs.map fun _ => 0)

/-- Pack fixed-width codes, the first in the low bits (R194). -/
def packBits (w : Nat) : List Nat → Nat
  | [] => 0
  | c :: cs => c % 2 ^ w + 2 ^ w * packBits w cs

/-- Unpack `n` codes of `w` bits. -/
def unpackBits (w n v : Nat) : List Nat := (List.range n).map fun i => bitsOf v (w * i + w - 1) (w * i)

/-- A position accepts a format code: `CVT` from FP32 and to FP32, and between the integer formats (Table 4-9). -/
def cvtAccepts (src dst : Nat) : Bool :=
  (src == 0 && decide (1 ≤ dst ∧ dst ≤ 9)) || (dst == 0 && decide (1 ≤ src ∧ src ≤ 9)) ||
  (src != dst && decide (7 ≤ src ∧ src ≤ 9) && decide (7 ≤ dst ∧ dst ≤ 9) && (src == 9 || dst == 9))

/-- The bits of Table 4-5. -/
def ctrlRnd (c : Nat) : Bool := bitOf c 0
def ctrlSat (c : Nat) : Bool := bitOf c 1
def ctrlReserved (c : Nat) : Bool := decide (4 ≤ c)

/-! ### Matrix arithmetic (R198 to R204) -/

/-- The group length *G* of a pair (R199). -/
def groupLen (fa fb : Nat) : Nat := if fa = 0 ∨ fb = 0 then 1 else if fa = 1 ∨ fa = 2 then 16 else 32

/-- *K*ₘₐₓ of a pair, or `none` for a pair that Table 3-8 does not list. -/
def pairKmax (fa fb : Nat) : Option Nat :=
  if fa = 6 ∧ fb = 6 then some 512
  else if 3 ≤ fa ∧ fa ≤ 6 ∧ 3 ≤ fb ∧ fb ≤ 6 then some 256
  else if (fa = 7 ∨ fa = 8) ∧ (fb = 7 ∨ fb = 8) then some 256
  else if fa = 1 ∧ fb = 1 then some 128
  else if fa = 2 ∧ fb = 2 then some 128
  else if fa = 0 ∧ fb = 0 then some 64
  else none

/-- A pair accumulates in INT32. -/
def pairInt (fa : Nat) : Bool := fa == 7 || fa == 8

/-- R199 step 1: the exact sum of a group's products. Products that are all −0 sum to +0 (DESIGN CHOICE,
notes/assumptions/97.md). -/
def groupSum (as bs : List Num) : Num := ((as.zip bs).map fun x => x.1.mul x.2).foldl Num.add (.fin false 0 0)

/-- R199 steps 2 and 3 for one group: scale, add to the accumulator, round once to FP32; a scale of 0xFF gives NaN
(R203). -/
def groupAdd (acc : BitVec 32) (p : Num) (xa xb : Option Int) : BitVec 32 :=
  match xa, xb with
  | some a, some b => toF32 ((ofF32 acc).add (p.scale (a + b)))
  | _, _ => 0x7FC00000

/-- R204: one integer product added modulo 2^32. -/
def intAdd (acc : BitVec 32) (a b : Int) : BitVec 32 := acc + BitVec.ofInt 32 (a * b)

/-! ### Residue codes (R252) -/

/-- The residue of a number mod 7, by its 3-bit groups. -/
def residue7 (n : Nat) : Nat := (List.range (log2 n / 3 + 1)).foldl (fun r i => (r + bitsOf n (3 * i + 2) (3 * i)) % 7) 0

/-- An adder's result agrees with the residue that its operands predict. -/
def residueAgrees (a b result : Nat) : Bool := (residue7 a + residue7 b) % 7 == residue7 result

/-- A residue check sees an arithmetic error of size `e` in a result: prediction and result then differ by its residue. -/
def residueSees (e : Int) : Bool := residue7 e.natAbs != 0

/-! ### Special functions (R161, R210) -/

/-- The special functions. -/
inductive Sfu where
  | exp2 | log2 | rcp | rsqrt | sqrt | sin | cos | tanh
deriving DecidableEq, Repr

/-- Numbers of the special functions, for the opaque choice of Config. -/
def Sfu.code : Sfu → Nat
  | .exp2 => 0
  | .log2 => 1
  | .rcp => 2
  | .rsqrt => 3
  | .sqrt => 4
  | .sin => 5
  | .cos => 6
  | .tanh => 7

/-- Table 4-4: the result for a special input, where the table gives one. -/
def sfuSpecial (f : Sfu) (b : BitVec 32) : Option (BitVec 32) :=
  let v := ofF32 b
  let nan : BitVec 32 := 0x7FC00000
  let pinf : BitVec 32 := 0x7F800000
  let ninf : BitVec 32 := 0xFF800000
  match v with
  | .nan => some nan
  | .inf neg => match f with
    | .exp2 => some (if neg then 0 else pinf)
    | .log2 => some (if neg then nan else pinf)
    | .rcp => some (if neg then 0x80000000 else 0)
    | .rsqrt => some (if neg then nan else 0)
    | .sqrt => some (if neg then nan else pinf)
    | .sin | .cos => some nan
    | .tanh => some (if neg then 0xBF800000 else 0x3F800000)
  | .fin neg m _ =>
    if m = 0 then match f with
      | .log2 => some ninf
      | .rcp | .rsqrt => some (if neg then ninf else pinf)
      | .sqrt | .sin | .tanh => some b
      | .exp2 | .cos => none
    else match f with
      | .exp2 => if 0 ≤ v.cmp (.fin false 128 0) then some pinf
        else if v.cmp (.fin true 149 0) < 0 then some 0 else none
      | .log2 => if neg then some nan else if b = 0x3F800000 then some 0 else none
      | .rsqrt | .sqrt => if neg then some nan else none
      | _ => none

/-- Fixed-point fractions: 160 fraction bits. -/
def fxOne : Int := 2 ^ 160

/-- A finite value in fixed point, truncated. -/
def toFx (neg : Bool) (m : Nat) (e : Int) : Int :=
  if -160 ≤ e then sgn neg (m * 2 ^ (e + 160).toNat) else sgn neg (m / 2 ^ (-160 - e).toNat)

/-- Fixed-point product. -/
def fxMul (a b : Int) : Int := a * b / fxOne

/-- Σ xⁿ/n! to 48 terms: the exponential of a fixed-point number. -/
def fxExp (x : Int) : Int :=
  ((List.range 48).foldl (fun (st : Int × Int) n => (st.1 + st.2, fxMul st.2 x / (n + 1 : Nat))) (0, fxOne)).1

/-- 2·artanh z to 60 terms. -/
def fxAtanh2 (z : Int) : Int :=
  let z2 := fxMul z z
  2 * ((List.range 60).foldl (fun (st : Int × Int) n => (st.1 + st.2 / (2 * n + 1 : Nat), fxMul st.2 z2)) (0, z)).1

/-- ln 2. -/
def fxLn2 : Int := fxAtanh2 (fxOne / 3)

/-- sin and cos by their series, to 48 terms. -/
def fxSin (x : Int) : Int :=
  let x2 := fxMul x x
  ((List.range 48).foldl (fun (st : Int × Int) n =>
    (st.1 + st.2, -(fxMul st.2 x2 / ((2 * n + 2) * (2 * n + 3) : Nat)))) (0, x)).1

def fxCos (x : Int) : Int :=
  let x2 := fxMul x x
  ((List.range 48).foldl (fun (st : Int × Int) n =>
    (st.1 + st.2, -(fxMul st.2 x2 / ((2 * n + 1) * (2 * n + 2) : Nat)))) (0, fxOne)).1

/-- A fixed-point number as a value. -/
def ofFx (i : Int) : Num := ofSgn i (-160)

/-- The integer square root of `n`, by 200 halvings of an interval that holds it. -/
def isqrt (n : Nat) : Nat :=
  ((List.range 200).foldl (fun (st : Nat × Nat) _ =>
    let mid := (st.1 + st.2 + 1) / 2
    if mid * mid ≤ n then (mid, st.2) else (st.1, mid - 1)) (0, 2 ^ 200)).1

/-- The function at a finite, ordinary input, to more than 100 bits, from which the result's bound is counted. -/
def sfuNear (f : Sfu) (neg : Bool) (m : Nat) (e : Int) : Num :=
  let x := toFx neg m e
  let small := decide (e + (log2 m : Int) < -13)
  match f with
  | .exp2 =>
    let n := x / fxOne
    (ofFx (fxExp (fxMul (x - n * fxOne) fxLn2))).scale n
  | .log2 =>
    let l := log2 m
    let y := toFx false m (-(l : Int))
    ofFx ((e + (l : Int)) * fxOne + fxAtanh2 ((y - fxOne) * fxOne / (y + fxOne)) * fxOne / fxLn2)
  | .rcp => .fin neg (2 ^ 200 / m) (-200 - e)
  | .sqrt =>
    let k := e % 2
    .fin false (isqrt (m * 2 ^ (k + 200).toNat)) ((e - k) / 2 - 100)
  | .rsqrt =>
    let k := e % 2
    .fin false (2 ^ 300 / isqrt (m * 2 ^ (k + 200).toNat)) (-200 - (e - k) / 2)
  | .sin => if small then .fin neg m e else ofFx (fxSin x)
  | .cos => ofFx (fxCos x)
  | .tanh =>
    if small then .fin neg m e
    else if decide (6 ≤ e + (log2 m : Int)) then .fin neg 1 0
    else
      let ex := fxExp (toFx false m e / 8)
      let e2 := fxMul ex ex
      let e4 := fxMul e2 e2
      let e8 := fxMul e4 e4
      let e16 := fxMul e8 e8
      let v := (e16 - fxOne) * fxOne / (e16 + fxOne)
      ofFx (if neg then -v else v)

/-- The ulps by which a result may lie from the exact value (Table 3-10). -/
def Sfu.bound : Sfu → Nat
  | .rcp | .rsqrt | .sqrt => 1
  | .tanh => 3
  | _ => 2

/-- Step an FP32 encoding by `d` places along its sign-magnitude order, staying finite. -/
def ulpStep (b : BitVec 32) (d : Int) : BitVec 32 :=
  let mag := (b.toNat % 2 ^ 31 : Nat) + d
  BitVec.ofNat 32 ((if b.toNat < 2 ^ 31 then 0 else 2 ^ 31) + (clampI 0 0x7F7FFFFF mag).toNat)

/-- An FP32 word with every NaN canonical (R191). -/
def canonNan (b : BitVec 32) : BitVec 32 := if (ofF32 b).isNan then 0x7FC00000 else b

/-- The encodings within `n` ulp of a value, `pick` choosing among them: `n` on either side of a value that lies between two
encodings, `n` on either side of an encoding and itself for one that is exact. -/
def withinUlp (n pick : Nat) (v : Num) : BitVec 32 :=
  let lo := BitVec.ofNat 32 (encodeFp (.stoch 0) true fFP32 v)
  let hi := BitVec.ofNat 32 (encodeFp .up true fFP32 v)
  if lo = hi then ulpStep lo ((pick % (2 * n + 1) : Nat) - (n : Nat))
  else ulpStep lo ((pick % (2 * n) : Nat) - ((n - 1 : Nat) : Int))

/-- A special function's result (R161, R210, R223): Table 4-4 where it gives one; outside −π to +π the sine and cosine
are free; elsewhere the result is a free choice within the bound, the same for the same input. -/
def sfuResult (f : Sfu) (b : BitVec 32) : BitVec 32 :=
  match sfuSpecial f b with
  | some r => r
  | none => match ofF32 b with
    | .fin neg m e =>
      let beyond := 0 < (Num.fin false m e).cmp (.fin false 0x3243F6A8885A308D313198A2E (-96))
      if (f = .sin ∨ f = .cos) ∧ beyond then canonNan (Config.sfuFree f.code b)
      else
        let v := sfuNear f neg m e
        let near := toF32 v
        if near = 0x7F800000 ∨ near = 0xFF800000 then near
        else withinUlp f.bound (Config.sfuFree f.code b).toNat v
    | _ => 0x7FC00000

end Sys2Proof.Machine
end

