-- ==== Sys2Proof/Machine/Units.lean ====
section
/-! DEFINITION. Operations over cores, contexts and queues that several chapters share: access to cores and threads,
thread faults (R174 to R177), queue errors (R387, R388), tail writes (R337), events (R366), and the registers whose
value is computed from state. -/

namespace Sys2Proof.Machine

open Sys2Proof

/-! ### Cores and threads -/

def State.core (s : State) (c : Nat) : Core := kget s.cores c Core.init
def State.setCore (s : State) (c : Nat) (k : Core) : State := { s with cores := kset s.cores c k }
def Core.thread (k : Core) (t : Nat) : Thread := kget k.threads t Thread.init
def Core.setThread (k : Core) (t : Nat) (th : Thread) : Core := { k with threads := kset k.threads t th }
def State.thread (s : State) (c t : Nat) : Thread := (s.core c).thread t
def State.setThread (s : State) (c t : Nat) (th : Thread) : State := s.setCore c ((s.core c).setThread t th)

/-- The slots of a core that are not `FREE`. -/
def Core.live (k : Core) : List Nat := (k.threads.filter fun x => x.2.st != .free).map Prod.fst

/-- The slots that a group may take: `FREE` and not reserved (R124, R354). -/
def Core.freeSlots (k : Core) : List Nat :=
  (List.range 64).filter fun t => (k.thread t).st == .free && !(k.reserved.any fun g => g.slots.contains t)

/-- A core is idle (R178). -/
def State.coreIdle (s : State) (c : Nat) : Bool :=
  let k := s.core c
  k.live.isEmpty && k.reserved.isEmpty && k.mq.isEmpty && k.sb.isEmpty && !(k.memq.any fun h => h.thread.isSome) &&
    !(s.ms.reqs.any fun r => r.2.src.engine == 5 && r.2.src.core == c)

def State.retire (s : State) (c : Nat) : Nat := kget s.chk.retire c 0
def State.setRetire (s : State) (c v : Nat) : State := { s with chk.retire := kset s.chk.retire c v }

/-- Cores in service in quarter `q`. -/
def State.inService (s : State) (q : Nat) : Nat := ((List.range 72).filter fun i => s.retire (q * 72 + i) != 2).length

/-! ### Thread registers (Table 3-1); registers are numbered modulo their count -/

def Thread.sreg (th : Thread) (n : Nat) : BitVec 64 := kget th.s (n % 32) 0
def Thread.setS (th : Thread) (n : Nat) (v : BitVec 64) : Thread := { th with s := kset th.s (n % 32) v }
def Thread.vreg (th : Thread) (n l : Nat) : BitVec 32 := kget th.v (n % 16 * 64 + l) 0
def Thread.setV (th : Thread) (n l : Nat) (v : BitVec 32) : Thread := { th with v := kset th.v (n % 16 * 64 + l) v }
def Thread.preg (th : Thread) (n : Nat) : BitVec 64 := kget th.p (n % 8) 0
def Thread.setP (th : Thread) (n : Nat) (v : BitVec 64) : Thread := { th with p := kset th.p (n % 8) v }

/-- Lane `l` is on under predicate `pr` (R158). -/
def Thread.on (th : Thread) (pr l : Nat) : Bool := (th.preg pr).getLsbD l

/-- Write the lanes of a vector register that are on. -/
def Thread.writeLanes (th : Thread) (rd pr : Nat) (f : Nat → BitVec 32) : Thread :=
  (List.range 64).foldl (fun (x : Thread) l => if th.on pr l then x.setV rd l (f l) else x) th

/-! ### Contexts and queues -/

/-- The queue's number in the `QDB_` arrays: slot × 8 + queue. -/
def qi (slot queue : Nat) : Nat := slot * 8 + queue

def ctxFree : Nat := 0
def ctxACTIVE : Nat := 1
def ctxERROR : Nat := 2
def ctxREMOVING : Nat := 3

def qOFF : Nat := 0
def qIDLE : Nat := 1
def qRUN : Nat := 2
def qERROR : Nat := 3

def State.ctxState (s : State) (slot : Nat) : Nat := s.rd F.QDB_CTX.STATE slot
def State.ctxId (s : State) (slot : Nat) : Nat := s.rd F.QDB_CTX.CTX_ID slot
def State.ctxJob (s : State) (slot : Nat) : Nat := s.rd F.QDB_CTX.JOB_ID slot
def State.ctxPart (s : State) (slot : Nat) : Nat := s.rd F.QDB_CTX.PART slot
def State.ctx (s : State) (slot : Nat) : Ctx := kget s.eng.ctxs slot Ctx.init
def State.queue (s : State) (i : Nat) : Queue := kget s.eng.queues i Queue.init
def State.setQueue (s : State) (i : Nat) (q : Queue) : State := { s with eng.queues := kset s.eng.queues i q }

/-- The depth of a queue (R334). -/
def State.depth (s : State) (i : Nat) : Nat := 2 ^ s.rd F.QDB_QCFG.LOG2_DEPTH i

/-- The slots that hold a resident context. -/
def State.resident (s : State) : List Nat := (List.range 256).filter fun n => s.ctxState n ≠ 0

/-! ### Event codes of chapters 5 to 7 -/

def evTileResolved : Nat := 0x0500
def evTileUnresolved : Nat := 0x0501
def evResidue : Nat := 0x0502
def evParityCorr : Nat := 0x0503
def evParityFatal : Nat := 0x0504
def evEccCorr : Nat := 0x0505
def evEccFatal : Nat := 0x0506
def evSelftestFail : Nat := 0x0507
def evUnitPermanent : Nat := 0x0508
def evCoreRetired : Nat := 0x0509
def evQuarterBelowMin : Nat := 0x050A
def evEngUnitRetired : Nat := 0x050B
def evHistWriteFail : Nat := 0x050C
def evMemEccCorr : Nat := 0x0600
def evMemEccUncorr : Nat := 0x0601
def evMemScrubUncorr : Nat := 0x0602
def evMemGfault : Nat := 0x0603
def evMemSrFail : Nat := 0x0604
def evMemDeviceFail : Nat := 0x0605
def evMemSealedWrite : Nat := 0x0606
def evMemReservedWrite : Nat := 0x0607
def evMemMirrorFrozen : Nat := 0x0608
def evMemMirrorSynced : Nat := 0x0609
def evEngCmdFail : Nat := 0x0700
def evEngTailDrop : Nat := 0x0701
def evEngQcfgReject : Nat := 0x0702

/-! ### Ring runs that fail (R429) -/

/-- Fields of a ring descriptor (Table 8-5). -/
def RingRun.size (x : RingRun) : Nat := leAt x.desc 2 2
def RingRun.pos (x : RingRun) : Nat := leAt x.desc 4 2
def RingRun.causal (x : RingRun) : Bool := bitOf (leAt x.desc 6 1) 0
def RingRun.node (x : RingRun) (r : Nat) : Nat := leAt x.desc (64 + 2 * r) 2 % 2 ^ 15
def RingRun.live (x : RingRun) : Bool := decide (x.state < 2)

/-- The successor and the predecessor that the run uses (R411), by node. -/
def RingRun.succ (x : RingRun) : Option Nat :=
  if !x.causal || decide (x.pos + 1 < x.size) then some (x.node ((x.pos + 1) % x.size)) else none
def RingRun.pred (x : RingRun) : Option Nat :=
  if !x.causal || decide (0 < x.pos) then some (x.node ((x.pos + x.size - 1) % x.size)) else none

/-- The used neighbours. -/
def RingRun.neighbours (x : RingRun) : List Nat := (x.succ.toList ++ x.pred.toList).eraseDups

/-! ### Descriptor fields (Table 8-5) -/

def RingRun.coreFirst (x : RingRun) : Nat := leAt x.desc 8 2
def RingRun.coreSpan (x : RingRun) : Nat := leAt x.desc 10 2
def RingRun.slotBytes (x : RingRun) : Nat := leAt x.desc 12 4
def RingRun.slotOff (x : RingRun) (slot : Nat) : Nat := leAt x.desc (16 + 4 * (slot % 2)) 4
def RingRun.kvSrc (x : RingRun) : Nat := leAt x.desc 24 8
def RingRun.evReady (x : RingRun) : Nat := leAt x.desc 32 1
def RingRun.evDone (x : RingRun) : Nat := leAt x.desc 33 1
def RingRun.txCirc (x : RingRun) : Nat := leAt x.desc 34 2
def RingRun.rxCirc (x : RingRun) : Nat := leAt x.desc 36 2
def RingRun.doneMult (x : RingRun) : Nat := leAt x.desc 42 2
def RingRun.rdyBase (x : RingRun) : Nat := leAt x.desc 48 8
def RingRun.doneBase (x : RingRun) : Nat := leAt x.desc 56 8
/-- *B*, the block of a position. -/
def RingRun.block (x : RingRun) : Nat := x.slotBytes * x.coreSpan
/-- The step count *S* of a position (R410). -/
def RingRun.stepsAt (x : RingRun) (p : Nat) : Nat := if x.causal then p + 1 else x.size
def RingRun.steps (x : RingRun) : Nat := x.stepsAt x.pos

/-- A run enters `FAILED`: an abort is queued for each used neighbour from which none has come (R429). -/
def State.failRun (s : State) (n : Nat) : State :=
  match kfind s.eng.rings n with
  | none => s
  | some x =>
    if !x.live then s
    else
      let aborts := (x.neighbours.filter fun d => !x.aborts.contains d).map fun d => ({
        fetch := false, mirror := false, copyB := false, len := 0, seq := 0, inc := s.lk.inc, rcirc := 0, src := s.node,
        job := x.job, ctx := 0, engine := 3, queue := x.cmd.queue, cmdIdx := 0, core := 0, aop := 0, addr := 0, rtag := 0,
        status := 0, group := 0, cseq := 0, cop := 0, fmt := 0, op := 0, step := 0, cntFold := 0, pseq := 0, kind := 0x03,
        dst := d, key := x.id, value := 0, payload := [], rsvd := 0 } : Pkt)
      { s with eng.rings := kset s.eng.rings n { x with state := 3 }, lk.held := s.lk.held ++ aborts }

/-- Every run of a context that leaves `ACTIVE` fails (Table 8-7). -/
def State.failRuns (s : State) (slot : Nat) : State :=
  s.eng.rings.foldl (fun (s : State) x => if x.2.cmd.slot = slot then s.failRun x.1 else s) s

/-! ### Queue errors (R387, R388) -/

/-- A queue error. While the context is `ACTIVE` it takes the context and its running queues to `ERROR` (Table 7-4)
and sends one message; in `ERROR` it only records its event and sets `OVF`; from `REMOVING` on it records nothing. -/
def State.queueError (s : State) (slot queue idx engine code cause opcode addr : Nat) : State :=
  let st := s.ctxState slot
  if st = ctxACTIVE ∨ st = ctxERROR then
    let held := s.flag F.QDB_ERR.VALID slot
    let s :=
      if held then s.wr F.QDB_ERR.OVF 1 slot
      else (s |>.wr F.QDB_ERR.CODE code slot
        |>.wr F.QDB_ERR.ENGINE engine slot
        |>.wr F.QDB_ERR.QUEUE queue slot
        |>.wr F.QDB_ERR.CMD_INDEX idx slot
        |>.wr F.QDB_ERR.CAUSE cause slot
        |>.wr F.QDB_ERR.OPCODE opcode slot
        |>.wr F.QDB_ERR.VALID 1 slot).wr F.QDB_ERR_ADDR.ADDR addr slot
    let s := if st = ctxACTIVE then
        let s := (s.failRuns slot).wr F.QDB_CTX.STATE ctxERROR slot
        let s := (List.range 8).foldl (fun (s : State) q =>
          let n := s.rd F.QDB_QCFG.STATE (qi slot q)
          if n = qIDLE ∨ n = qRUN then s.wr F.QDB_QCFG.STATE qERROR (qi slot q) else s) s
        s.emit (.msix (s.rd F.QDB_CFG.ERR_VEC))
      else s
    s.record evEngCmdFail 2 3 engine [engine, queue, idx, code, cause, addr] (some (s.ctxId slot))
  else s

/-- The engine of a queue. -/
def State.queueEngine (s : State) (slot queue : Nat) : Nat := s.rd F.QDB_QCFG.ENGINE (qi slot queue)

/-- A queue error of a command: its index is its count modulo the depth (R336). -/
def State.cmdError (s : State) (r : CmdRef) (code cause opcode addr : Nat) : State :=
  s.queueError r.slot r.queue (r.count % s.depth (qi r.slot r.queue)) (s.queueEngine r.slot r.queue) code cause opcode addr

/-- Queue error codes (Table 7-14). -/
def qeILLEGAL_CMD : Nat := 0x01
def qeRESERVED_SET : Nat := 0x02
def qeTAIL_RANGE : Nat := 0x03
def qeQUEUE_FETCH : Nat := 0x04
def qeBAD_EVENT : Nat := 0x05
def qeBAD_FORMAT : Nat := 0x06
def qeBAD_CORES : Nat := 0x07
def qeBAD_ADDR : Nat := 0x08
def qeGLOBAL : Nat := 0x09
def qeSTORE_ECC : Nat := 0x0A
def qeGROUP : Nat := 0x0B
def qeCOLL_MISMATCH : Nat := 0x0C
def qeCOLL_TIMEOUT : Nat := 0x0D
def qeNO_ALU : Nat := 0x0E
def qeOVF_STATE : Nat := 0x0F
def qeTHREAD_FAULT : Nat := 0x10
def qeRING : Nat := 0x11
def qePATH_CMD : Nat := 0x12
def qeENGINE_RESET : Nat := 0x13
def qeBAD_LENGTH : Nat := 0x14

/-- The opcode byte of a fetched command. -/
def Cmd.opcode (c : Cmd) : Nat := leAt c.bytes 0 1

/-- The fetched command of a count. -/
def State.cmdAt (s : State) (r : CmdRef) : Option Cmd :=
  (s.queue (qi r.slot r.queue)).cmds.find? fun c => c.count == r.count

/-- Replace the work of a command. -/
def State.setWork (s : State) (r : CmdRef) (w : CmdWork) : State :=
  let q := s.queue (qi r.slot r.queue)
  s.setQueue (qi r.slot r.queue)
    { q with cmds := q.cmds.map fun c => if c.count = r.count then { c with work := some w } else c }

/-- A command's opcode by reference; 0 where it is not held. -/
def State.opcodeOf (s : State) (r : CmdRef) : Nat := ((s.cmdAt r).map Cmd.opcode).getD 0

/-! ### Tail writes (R337, R338) -/

/-- A head of the context advances, or a queue of it enters `RUN` (Table 15-3). -/
def State.progressed (s : State) (slot : Nat) : State :=
  { s with eng.ctxs := kset s.eng.ctxs slot { s.ctx slot with progress := s.opMs, wd := s.rd F.RST_CFG.CTX_WD_S } }

/-- A tail write: dropped in `OFF`, a queue error `TAIL_RANGE` where it is out of range, else the new tail. -/
def State.tailWrite (s : State) (slot queue val : Nat) : State :=
  let i := qi slot queue
  let st := s.rd F.QDB_QCFG.STATE i
  if s.ctxState slot ≠ ctxACTIVE then s
  else if st = qOFF then s.note evEngTailDrop 0 3 (s.queueEngine slot queue) [slot, queue, val]
  else
    let h := s.rd F.QDB_HEAD.HEAD i
    let t := s.rd F.QDB_TAIL.TAIL i
    let d := s.depth i
    let m := 2 ^ 32
    if (val + m - t) % m ≤ (h + d + m - t) % m then
      if val = t then s
      else
        let s := s.wr F.QDB_TAIL.TAIL val i
        if st = qIDLE then (s.wr F.QDB_QCFG.STATE qRUN i).progressed slot else s
    else s.queueError slot queue (t % d) (s.queueEngine slot queue) qeTAIL_RANGE 0 0 0

/-! ### Events (R365, R366) -/

def State.event (s : State) (slot e : Nat) : BitVec 64 := kget s.eng.events (slot * 64 + e) 0

/-- Every wait on the event is evaluated: threads in `WAIT_SYNC` and started `EVENT_WAIT` commands (R366). -/
def State.releaseEvent (s : State) (slot e : Nat) : State :=
  let v := s.event slot e
  let go (th : Thread) : Thread :=
    match th.wait with
    | some (.event e' w) =>
      if th.cmd.slot = slot ∧ e' = e ∧ th.st = .waitSync ∧ w.toNat ≤ v.toNat then { th with st := .ready, wait := none } else th
    | _ => th
  let cores := s.cores.map fun (c, k) => (c, { k with threads := k.threads.map fun (t, th) => (t, go th) })
  let queues := s.eng.queues.map fun (i, q) =>
    if i / 8 = slot then
      (i, { q with cmds := q.cmds.map fun c =>
        match c.work with
        | some .waiting =>
          if c.opcode = 0x01 ∧ leAt c.bytes 8 1 = e ∧ leAt c.bytes 16 8 ≤ v.toNat then { c with work := some (.done 0 0) } else c
        | _ => c })
    else (i, q)
  { s with cores := cores, eng.queues := queues }

/-- One update of an event: `SET` replaces, `ADD` adds modulo 2^64 (R366). Events of a context in `REMOVING`, or of no
context, take no update (R365). -/
def State.updateEvent (s : State) (slot e : Nat) (add : Bool) (v : BitVec 64) : State :=
  if s.ctxState slot = ctxFree ∨ s.ctxState slot = ctxREMOVING then s
  else
    let n := if add then s.event slot e + v else v
    ({ s with eng.events := kset s.eng.events (slot * 64 + e) n }).releaseEvent slot e

/-! ### Thread faults (R174 to R177) -/

def fcILLEGAL_OP : Nat := 0x01
def fcCS_RANGE : Nat := 0x02
def fcQS_RANGE : Nat := 0x03
def fcMISALIGNED : Nat := 0x04
def fcGLOBAL_FAULT : Nat := 0x05
def fcIFETCH : Nat := 0x06
def fcMATRIX_SHAPE : Nat := 0x07
def fcMATRIX_STALE : Nat := 0x08
def fcBARRIER_MISMATCH : Nat := 0x09
def fcOPERAND_PARITY : Nat := 0x0A
def fcATOMIC_FAULT : Nat := 0x0B
def fcMLOAD_SOURCE : Nat := 0x0C

/-- Two byte ranges overlap. -/
def overlap (a n b m : Nat) : Bool := decide (a < b + m) && decide (b < a + n)

/-- The byte spans of the core store that an `MLOAD` reads (R155): elements and scales of A and B, as core-local
address and length. -/
def MloadSpec.spans (m : MloadSpec) (tag : Nat) : List Span :=
  let one (fmt base stride lines : Nat) (trans : Bool) : Span :=
    let rows := if trans then m.k else lines
    let per := ((if trans then lines else m.k) * fmtBits fmt + 7) / 8
    ⟨m.bank, base, (rows - 1) * stride + per, tag⟩
  let a := one m.fmtA m.aBase m.aStride m.m m.aTrans
  let b := one m.fmtB m.bBase m.bStride m.n m.bTrans
  [a, b] ++ (if isMx m.fmtA then [⟨m.bank, m.aScale, m.m * (m.k / 32), tag⟩] else []) ++
    (if isMx m.fmtB then [⟨m.bank, m.bScale, m.n * (m.k / 32), tag⟩] else [])

/-- The sub-blocks that a block of the accumulator file touches, in pass order (notes/assumptions/16.md). -/
def blockSubs (m0 n0 m n : Nat) : List Nat :=
  ((List.range 2).filter fun i => decide (i * 128 < m0 + m) && decide (m0 < (i + 1) * 128)).flatMap fun i =>
    ((List.range 4).filter fun j => decide (j * 64 < n0 + n) && decide (n0 < (j + 1) * 64)).map fun j => i * 4 + j

/-- The sub-blocks of a tile, and of the block that an `MSTORE` reads. -/
def MmaSpec.subs (m : MmaSpec) : List Nat := blockSubs m.m0 m.n0 m.m m.n
def MstoreSpec.subs (m : MstoreSpec) : List Nat := blockSubs m.m0 m.n0 m.m m.n

/-- The bytes of one row that an `MSTORE` writes. -/
def MstoreSpec.rowBytes (m : MstoreSpec) : Nat := m.n * fmtBits m.fmt / 8

/-- The core-local ranges that an `MSTORE` writes: rows, then rows of scales. -/
def MstoreSpec.ranges (m : MstoreSpec) : List (Nat × Nat) :=
  (List.range m.m).map (fun r => (m.dst + r * m.stride, MstoreSpec.rowBytes m)) ++
    (if isMx m.fmt then (List.range m.m).map fun r => (m.scale + r * (m.n / 32), m.n / 32) else [])

/-- A matrix instruction may not start while the earlier one is in the queue: the rows of Table 3-7, the one array (R145, R149),
and the order of R144 where an `MSTORE` shares sub-blocks or bytes with what follows it. -/
def MatOp.after (earlier later : MatOp) : Bool :=
  match earlier, later with
  | .mload m, .mma x => m.bank == x.bank
  | .mma x, .mload m => m.bank == x.bank
  | .mma x, .mstore m => (MmaSpec.subs x).any fun b => (MstoreSpec.subs m).contains b
  | .mstore m, .mma x => (MmaSpec.subs x).any fun b => (MstoreSpec.subs m).contains b
  | .mstore m, .mload x => (MstoreSpec.ranges m).any fun r => (MloadSpec.spans x 0).any fun sp => overlap r.1 r.2 sp.addr sp.len
  | .mload _, .mstore _ => false
  | .mload _, .mload _ => true
  | .mma _, .mma _ => true
  | .mstore _, .mstore _ => true

/-- The first entry of the kind `p` that has started: an instruction waits at the head of the queue, and those behind it with it
(R144, Table 3-7). -/
def firstFree (p : MatOp → Bool) : List MatEntry → List MatEntry → Option MatEntry
  | _, [] => none
  | before, e :: rest =>
    if before.any fun b => b.op.after e.op then none
    else if p e.op then some e else firstFree p (before ++ [e]) rest

def MatOp.isMma : MatOp → Bool
  | .mma _ => true
  | _ => false
def MatOp.isMload : MatOp → Bool
  | .mload _ => true
  | _ => false
def MatOp.isMstore : MatOp → Bool
  | .mstore _ => true
  | _ => false

/-- The bank that an entry reads or fills. -/
def MatOp.bank : MatOp → Option Nat
  | .mload m => some m.bank
  | .mma m => some m.bank
  | .mstore _ => none

def Core.bank (k : Core) (b : Nat) : Bank := kget k.banks b Bank.init
def Core.setBank (k : Core) (b : Nat) (x : Bank) : Core := { k with banks := kset k.banks b x }

/-- The tile that executes: the first `MMA`, if nothing earlier holds it and its bank is filled and not stale. -/
def Core.executing (k : Core) : Option MatEntry :=
  match firstFree MatOp.isMma [] k.mq with
  | some e => match e.op with
    | .mma m => if (k.bank m.bank).filled && !(k.bank m.bank).stale then some e else none
    | _ => none
  | none => none

/-- The spans of a queued `MLOAD` enter the retention table; where the bank's four entries are still in use, they enter when
those are released (R155; DESIGN CHOICE, notes/assumptions/93.md). -/
def Core.enterSpans (k : Core) : Core :=
  [0, 1].foldl (fun (k : Core) b =>
    if k.retain.any fun sp => sp.bank == b then k
    else match k.mq.find? fun e => e.op.isMload && e.op.bank == some b with
      | some e => match e.op with
        | .mload m => { k with retain := k.retain ++ MloadSpec.spans m e.tag }
        | _ => k
      | none => k) k

/-- A span stays retained while its `MLOAD`, or an `MMA` that reads what it loaded, is in the queue (R155). -/
def Core.dropSpans (k : Core) : Core :=
  Core.enterSpans { k with retain := k.retain.filter fun sp => k.mq.any fun e => e.tag == sp.tag || (e.op.isMma && e.src == sp.tag) }

/-- R177: what becomes of a core's queued work when its threads halt: the executing tile stays to be checked, the rest
of the matrix queue (an `MLOAD` or `MSTORE` under way with it, notes/assumptions/95.md) and the threads' memory requests are
discarded, results of loads are discarded. -/
def Core.discardWork (k : Core) : Core :=
  let mq := match k.executing with
    | some e => [{ e with orphan := true }]
    | none => []
  let k := { k with
    mq := mq
    memq := k.memq.filter fun h => h.thread.isNone
    sb := k.sb.filter fun x => mq.any fun e => e.tag == x.tag }
  k.dropSpans

/-- Halt every live thread of a core except those `FAULTED` (R175). -/
def Core.haltAll (k : Core) : Core :=
  { k with threads := k.threads.map fun (t, th) =>
      (t, if th.st = .free ∨ th.st = .faulted then th else { th with st := .halted, wait := none }) }

/-- The tag of a request that waits in a memory queue at its home. -/
def HeldWork.tag : HeldWork → Option Nat
  | .here m => m.tag
  | _ => none

/-- The threads of a core halt and its work is discarded; a request that waited in the memory queue is outstanding no more. -/
def State.haltCore (s : State) (c : Nat) : State :=
  let k := s.core c
  let gone := (k.memq.filter fun h => h.thread.isSome).filterMap fun h => h.work.tag
  ({ s with ms.reqs := s.ms.reqs.filter fun r => !gone.contains r.1 }).setCore c k.haltAll.discardWork

/-- A thread faults (R174 to R177): the fault record, `FAULTED`, the others `HALTED`, the core's work discarded, and
the queue error `THREAD_FAULT` for the dispatch command that started it. `addr` is the value Table 3-11 names; `pc` is
the faulting instruction's address where it is not the thread's next one. -/
def State.threadFault (s : State) (c t fcode addr : Nat) (pc : Option Nat := none) : State :=
  let th := s.thread c t
  if th.st = .free ∨ th.st = .faulted then s
  else
    let s :=
      if s.flag F.CORE_FAULT.VALID c then s.wr F.CORE_FAULT.OVF 1 c
      else s |>.wr F.CORE_FAULT.FCODE fcode c
        |>.wr F.CORE_FAULT.THREAD t c
        |>.wr F.CORE_FAULT.CTX_ID th.ctx c
        |>.wr F.CORE_FAULT.PC_OFFSET ((pc.getD th.pc + 2 ^ 64 - th.entry) % 2 ^ 32) c
        |>.wr F.CORE_FAULT.VALID 1 c
        |>.wr F.CORE_FAULT_ADDR.ADDR addr c
        |>.wr F.CORE_FAULT_ATTR.QUEUE th.cmd.queue c
        |>.wr F.CORE_FAULT_ATTR.CMD_INDEX (th.cmd.count % s.depth (qi th.cmd.slot th.cmd.queue)) c
    let s := (s.setThread c t { th with st := .faulted, wait := none }).haltCore c
    let ga := if fcode = fcGLOBAL_FAULT ∨ fcode = fcATOMIC_FAULT ∨ fcode = fcIFETCH then addr else 0
    s.cmdError th.cmd qeTHREAD_FAULT 0 0x10 ga

/-! ### Global faults (R305) -/

/-- `SRC` of `MEM_GFAULT_INFO` for an engine code. -/
def gfaultSrc (engine : Nat) : Nat :=
  if engine = 5 then 0 else if engine = 0 then 4 else if engine = 4 then 5 else engine

def gcUNMAPPED : Nat := 0x01
def gcATTR : Nat := 0x02
def gcPERM : Nat := 0x03
def gcNO_ROUTE : Nat := 0x04
def gcTIMEOUT : Nat := 0x05
def gcPOISON : Nat := 0x06
def gcSEALED : Nat := 0x07
def gcREG_DENIED : Nat := 0x08
def gcHOST_DOWN : Nat := 0x09
def gcHOME_RESET : Nat := 0x0A
def gcATOMIC_TARGET : Nat := 0x0B

/-- The record and the event of a global access that cannot complete (R305). -/
def State.gfault (s : State) (x : Source) (addr cause : Nat) : State :=
  let p := x.part
  let idx := x.cmd.count % s.depth (qi x.cmd.slot x.cmd.queue)
  let s :=
    if s.flag F.MEM_GFAULT_INFO.VALID p then s.wr F.MEM_GFAULT_INFO.OVF 1 p
    else (s |>.wr F.MEM_GFAULT_INFO.CAUSE cause p
      |>.wr F.MEM_GFAULT_INFO.CTX_ID x.ctx p
      |>.wr F.MEM_GFAULT_INFO.QUEUE x.cmd.queue p
      |>.wr F.MEM_GFAULT_INFO.CMD_INDEX idx p
      |>.wr F.MEM_GFAULT_INFO.CORE (if x.engine = 5 then x.core else 0) p
      |>.wr F.MEM_GFAULT_INFO.SRC (gfaultSrc x.engine) p
      |>.wr F.MEM_GFAULT_INFO.VALID 1 p).wr F.MEM_GFAULT_ADDR.ADDR addr p
  s.record evMemGfault 2 (if x.engine = 5 then 1 else 3) (if x.engine = 5 then x.core else x.engine)
    [addr, cause, gfaultSrc x.engine, x.cmd.queue, idx] (some x.ctx)

/-- A source's access fails: the fault is recorded, then the thread faults or the engine command fails with `code`. A
request of Orquin's own, or one whose context is gone, ends with nothing more. -/
def State.failSource (s : State) (x : Source) (addr cause : Nat) (atomic : Bool) (code : Nat := qeGLOBAL) : State :=
  if 6 ≤ x.engine then s
  else if s.slotOf x.ctx ≠ some x.cmd.slot then s
  else
    let op := s.opcodeOf x.cmd
    let s := s.gfault x addr cause
    if x.engine = 5 then s.threadFault x.core x.thread (if atomic then fcATOMIC_FAULT else fcGLOBAL_FAULT) addr (some x.pc)
    else s.cmdError x.cmd code cause op addr

/-! ### Registers computed from state -/

/-- The state code of a core (`CORE_STATUS.STATE`). -/
def State.coreState (s : State) (c : Nat) : Nat :=
  let k := s.core c
  if s.retire c = 2 then 6
  else if k.zeroing then 4
  else if k.threads.any fun x => x.2.st == .halted || x.2.st == .faulted then 5
  else if !k.live.isEmpty then 1
  else match k.gate with
    | .run => 0
    | .clock => 2
    | .power => 3

/-- A field placed in a word. -/
def Fld.at (f : Fld) (v : Nat) : Nat := v % 2 ^ (f.hi + 1 - f.lo) * 2 ^ f.lo

/-- A bit for each slot whose thread satisfies `p`. -/
def Core.threadBits (k : Core) (p : Thread → Bool) : Nat :=
  (List.range 64).foldl (fun n t => if p (k.thread t) then n + 2 ^ t else n) 0

/-- `CORE_STATUS` of core `c` (R186). -/
def State.coreStatus (s : State) (c : Nat) : BitVec 64 :=
  let k := s.core c
  BitVec.ofNat 64 <| F.CORE_STATUS.STATE.at (s.coreState c) + F.CORE_STATUS.CTX_ID.at (k.lastCtx.getD 0) +
    F.CORE_STATUS.CTX_VALID.at (b2n k.lastCtx.isSome) + F.CORE_STATUS.THR_LIVE.at k.live.length +
    F.CORE_STATUS.SB_USED.at k.sb.length + F.CORE_STATUS.MQ_DEPTH.at k.mq.length +
    F.CORE_STATUS.RETAIN_USED.at k.retain.length +
    F.CORE_STATUS.BANK_STALE.at (b2n (k.bank 0).stale + 2 * b2n (k.bank 1).stale)

/-- Cores in service (`ID_CAP.CORES_LIVE`). -/
def State.coresLive (s : State) : Nat := (List.range 4).foldl (fun n q => n + s.inService q) 0

/-- Register `r`, instance `i`, as a reader sees it; the registers of the `ID_` and `TIM_` blocks and of the per-core
windows, which cores and engines may read (R277). The others are computed in Views. -/
def State.viewCore (s : State) (r : Reg) (i : Nat) : BitVec 64 :=
  match r with
  | .ID_DEVICE => s.rreg r i ||| BitVec.ofNat 64 (F.ID_DEVICE.SI_REV.at Config.siRev.toNat + F.ID_DEVICE.MOD_REV.at Config.modRev.toNat)
  | .ID_CAP => F.ID_CAP.CORES_LIVE.put (s.rreg r i) s.coresLive
  | .CORE_ID => BitVec.ofNat 64 <| F.CORE_ID.CORE_NUM.at i + F.CORE_ID.QUARTER.at (coreQuarter i) +
      F.CORE_ID.ROW.at (i % 72 / 8) + F.CORE_ID.COL.at (i % 72 % 8)
  | .CORE_STATUS => s.coreStatus i
  | .CORE_THR_LIVE => BitVec.ofNat 64 ((s.core i).threadBits fun th => th.st != .free)
  | .CORE_THR_SYNC => BitVec.ofNat 64 ((s.core i).threadBits fun th => th.st == .waitSync)
  | .TIM_NOW => BitVec.ofNat 64 s.nt
  | _ => s.rreg r i

end Sys2Proof.Machine
end

