-- ==== Sys2Proof/Machine/Mem.lean ====
section
/-! DEFINITION. The memory access operations (spec/06_memory_and_addressing.md): the local map, region checks, poison,
retention, gated and zeroing stores, overflow translation, mirroring, remote and host-form requests, and the delivery
of answers. -/

namespace Sys2Proof

open Machine

/-- How many bytes an access touches. -/
def MemKind.size : MemKind → Nat
  | .read n => n
  | .write d => d.length
  | .atom op _ _ => if op = .fadd32 then 4 else 8
  | .regRead w => w
  | .regWrite w _ => w

def MemKind.isAtom : MemKind → Bool
  | .atom _ _ _ => true
  | _ => false

/-- An access that changes memory. -/
def MemKind.writes : MemKind → Bool
  | .write _ | .atom _ _ _ | .regWrite _ _ => true
  | _ => false

/-- `AOP` codes (Table 9-7). -/
def AtomOp.code : AtomOp → Nat
  | .add64 => 0
  | .cas64 => 1
  | .min64 => 2
  | .max64 => 3
  | .fadd32 => 4

/-- A packet with every field 0. -/
def Pkt.zero : Pkt where
  fetch := false
  mirror := false
  copyB := false
  len := 0
  seq := 0
  inc := 0
  rcirc := 0
  src := 0
  job := 0
  ctx := 0
  engine := 0
  queue := 0
  cmdIdx := 0
  core := 0
  aop := 0
  addr := 0
  rtag := 0
  status := 0
  group := 0
  cseq := 0
  cop := 0
  fmt := 0
  op := 0
  step := 0
  cntFold := 0
  pseq := 0
  kind := 0
  dst := 0
  key := 0
  value := 0
  payload := []
  rsvd := 0

end Sys2Proof

namespace Sys2Proof.Machine

open Sys2Proof

/-! ### The local map (Table 6-2) -/

/-- What a local offset selects. -/
inductive Place where
  | dram | mirrorArea | dump | core (c : Nat) | quarter (q : Nat) | overflow | aperture | nowhere
deriving DecidableEq, Repr

def dramTop : Nat := 0x12000000000
def coreStoreBase (c : Nat) : Nat := 0x20000000000 + c * 0x600000
def quarterStoreBase (q : Nat) : Nat := 0x2006C000000 + q * 0x5000000
def apertureBase : Nat := 0x3FF00000000

/-- The region of a local offset. -/
def placeOf (off : Nat) : Place :=
  if off < 0x11FDC000000 then .dram
  else if off < 0x11FE0000000 then .mirrorArea
  else if off < dramTop then .dump
  else if off < 0x20000000000 then .nowhere
  else if off < 0x2006C000000 then .core ((off - 0x20000000000) / 0x600000)
  else if off < 0x20080000000 then .quarter ((off - 0x2006C000000) / 0x5000000)
  else if 0x24000000000 ≤ off ∧ off ≤ 0x3FEFFFFFFFF then .overflow
  else if apertureBase ≤ off ∧ off ≤ 0x3FF03FFFFFF then .aperture
  else .nowhere

/-- A place in on-package SRAM: 0 for a core store, 1 for a quarter store. -/
def Place.sramKind : Place → Option Nat
  | .core _ => some 0
  | .quarter _ => some 1
  | _ => none

/-- The quarter whose SRAM holds a place. -/
def Place.sramQuarter : Place → Option Nat
  | .core c => some (coreQuarter c)
  | .quarter q => some q
  | _ => none

/-- The place is LPDDR6. -/
def Place.isDram : Place → Bool
  | .dram | .mirrorArea | .dump => true
  | _ => false

/-- The device and device address of an LPDDR6 offset (R279). -/
def deviceOf (a : Nat) : Nat :=
  Nat.xor (Nat.xor (bitsOf a 15 12) (bitsOf a 19 16)) (Nat.xor (bitsOf a 23 20) (bitsOf a 27 24))
def deviceAddr (a : Nat) : Nat := a / 2 ^ 16 * 2 ^ 12 + a % 2 ^ 12

/-! ### Regions (R289, R291) -/

/-- A region entry holds the whole range. -/
def Region.holds (r : Region) (off n : Nat) : Bool := decide (r.base ≤ off) && decide (off + n ≤ r.base + r.size)

/-- The entry in force that holds a range. -/
def State.regionOf (s : State) (off n : Nat) : Option Region := (s.ms.regions.map Prod.snd).find? fun r => r.holds off n

/-- A granule that the range touches is poisoned. -/
def State.poisoned (s : State) (off n : Nat) : Bool := s.ms.poison.any fun g => overlap off n (g.1 * 64) 64

/-- A granule that a write touches without covering it is poisoned (R282). -/
def State.partPoison (s : State) (off n : Nat) : Bool :=
  s.ms.poison.any fun g => overlap off n (g.1 * 64) 64 && !(decide (off ≤ g.1 * 64) && decide (g.1 * 64 + 64 ≤ off + n))

/-- The device access check at the home module, in the order `UNMAPPED`, `ATOMIC_TARGET`, `PERM` with `SEALED`,
`HOME_RESET`, `POISON` (R276, R288, R291, R294, R304, R308, R315, R282). `mir` is mirror traffic of this copy's primary.
`none` lets the access through. -/
def State.checkAccess (s : State) (job : Nat) (remote mir orq : Bool) (k : MemKind) (off : Nat) : Option Nat :=
  let n := k.size
  let pl := placeOf off
  let reg := s.regionOf off n
  if pl = .nowhere then some gcUNMAPPED
  else if pl.isDram && !s.flag F.MEM_STATUS.DRAM_OK then some gcUNMAPPED
  else if pl = .aperture then some (if k.isAtom then gcATOMIC_TARGET else gcREG_DENIED)
  else if pl = .mirrorArea && mir && orq then none
  else if pl = .overflow && !((s.ms.regions.map Prod.snd).any fun r => r.ovf && r.holds off 1) then some gcUNMAPPED
  else if k.isAtom && (s.ms.regions.map Prod.snd).any (fun r => r.bcast && r.holds off 1) then some gcATOMIC_TARGET
  else match reg with
    | none => some gcPERM
    | some r =>
      if r.job ≠ job ∨ (remote && !mir && !r.remote) then some gcPERM
      else if r.sealed_ && k.writes then some gcSEALED
      else if r.mirTgt && k.writes && !mir then some gcPERM
      else if mir && !r.mirTgt then some gcPERM
      else if !(match k with
          | .read _ | .regRead _ => r.r
          | .write _ | .regWrite _ _ => r.w || mir
          | .atom _ _ _ => r.a) then some gcPERM
      else match pl.sramQuarter with
        | some q =>
          if (s.quarter q).inReset || bitOf (s.rd F.ID_PWR_STATE.Q_SRAM_OFF) q then some gcHOME_RESET else none
        | none =>
          if (match k with
              | .write _ => s.partPoison off n
              | _ => s.poisoned off n) then some gcPOISON else none

/-! ### Performing an access -/

/-- The result of an atomic on the old bytes (Table 6-4). -/
def atomResult (op : AtomOp) (old : List (BitVec 8)) (v c : BitVec 64) : List (BitVec 8) :=
  let m : BitVec 64 := BitVec.ofNat 64 (leNat old)
  match op with
  | .add64 => leBytes 8 (m + v).toNat
  | .cas64 => leBytes 8 (if m = c then v else m).toNat
  | .min64 => leBytes 8 (if v.slt m then v else m).toNat
  | .max64 => leBytes 8 (if m.slt v then v else m).toNat
  | .fadd32 => leBytes 4 (f32Add (BitVec.ofNat 32 (leNat old)) (v.truncate 32)).toNat

/-- A write of `n` bytes at core-local address `a` marks each filled bank whose released spans it meets stale (R157). -/
def Core.markStale (k : Core) (a n : Nat) : Core :=
  [0, 1].foldl (fun (k : Core) b =>
    let x := k.bank b
    match x.spec with
    | none => k
    | some sp =>
      if x.filled && !(k.retain.any fun r => r.tag == x.tag) && (MloadSpec.spans sp x.tag).any (fun r => overlap a n r.addr r.len) then
        k.setBank b { x with stale := true }
      else k) k

/-- Write bytes at a local offset: the bytes, the poison that a whole granule clears, the banks that become stale. -/
def State.putLocal (s : State) (off : Nat) (bs : List (BitVec 8)) : State :=
  let n := bs.length
  let s := s.memWrite off bs
  let s := { s with ms.poison := s.ms.poison.filter fun g =>
    !(decide (off ≤ g.1 * 64) && decide (g.1 * 64 + 64 ≤ off + n)) }
  match placeOf off with
  | .core c => s.setCore c ((s.core c).markStale (off - coreStoreBase c) n)
  | _ => s

/-- Perform an access at a local offset: the state after, and the bytes it answers (the old value for an atomic). -/
def State.perform (s : State) (k : MemKind) (off : Nat) : State × List (BitVec 8) :=
  match k with
  | .read n => (s, s.memRead off n)
  | .write d => (s.putLocal off d, [])
  | .atom op v c =>
    let old := s.memRead off k.size
    (s.putLocal off (atomResult op old v c), old)
  | .regRead _ | .regWrite _ _ => (s, [])

/-! ### Requests -/

/-- Packet types (Table 9-6). -/
def ptWR : Nat := 0x01
def ptRD : Nat := 0x02
def ptATOM : Nat := 0x03
def ptCOLL : Nat := 0x04
def ptRDRSP : Nat := 0x08
def ptATOMRSP : Nat := 0x09
def ptCPL : Nat := 0x0A
def ptPMSG : Nat := 0x10
def ptVOID : Nat := 0x1F

def State.circ (s : State) (c : Nat) : Circ := kget s.lk.circs c Circ.init
def State.setCirc (s : State) (c : Nat) (x : Circ) : State := { s with lk.circs := kset s.lk.circs c x }

/-- A packet enters a circuit's transmit queue (R452). -/
def State.enqueue (s : State) (c type : Nat) (p : Pkt) : State :=
  let x := s.circ c
  s.setCirc c { x with txq := x.txq ++ [⟨type, p, s.opMs⟩] }

/-- The key of a node's `NODE` entry in the routing table (Table 11-8). -/
def nodeKey (n : Nat) : Nat := 0x10000 + n

/-- The circuit bound to a node (R551). -/
def State.boundCirc (s : State) (n : Nat) : Option Nat := (kget s.routes (nodeKey n) Route.init).bound

/-- An outstanding request is noted under a fresh tag. -/
def State.addReq (s : State) (r : OutReq) : State × Nat :=
  let t := s.ms.nextTag
  ({ s with ms.reqs := kset s.ms.reqs t r, ms.nextTag := t + 1 }, t)

/-- The packet of a request: type and packet; `fetch` tells a fetch atomic. -/
def State.reqPkt (s : State) (x : Source) (k : MemKind) (off tag : Nat) (fetch mir : Bool) : Nat × Pkt :=
  let p := { Pkt.zero with
    src := s.node, job := x.job, ctx := x.ctx, engine := if x.engine = 7 then x.part else x.engine, queue := x.cmd.queue,
    cmdIdx := x.cmd.count % s.depth (qi x.cmd.slot x.cmd.queue), core := x.core, addr := off,
    rtag := tag % 2 ^ 16, mirror := mir, inc := s.lk.inc }
  match k with
  | .read n => (ptRD, { p with len := n })
  | .write d => (ptWR, { p with len := d.length, payload := d })
  | .atom op v c =>
    let pay := leBytes 8 v.toNat ++ (if op = .cas64 then leBytes 8 c.toNat else [])
    (ptATOM, { p with fetch := fetch, aop := op.code, len := pay.length, payload := pay })
  | .regRead _ | .regWrite _ _ => (ptRD, p)

/-- Mirror states (Table 6-7). -/
def mirOFF : Nat := 0
def mirMIRRORED : Nat := 1
def mirFROZEN : Nat := 2
def mirRESYNC : Nat := 3

/-- The answer of an access. -/
inductive Got where
  | data (bs : List (BitVec 8))
  | pending (tag : Nat)
  | failed (cause : Nat)
deriving DecidableEq, Repr

/-- A range lies in a mirror region while the pair mirrors (Table 6-7). -/
def State.mirrored (s : State) (off n : Nat) : Bool :=
  let st := s.rd F.MEM_MIRROR_STATUS.STATE
  (st == mirMIRRORED || st == mirRESYNC) && (match s.regionOf off n with
    | some r => r.mirror
    | none => false)

/-- R316: a write that has been performed in a mirror region sends the resulting bytes to the buddy; it counts as performed, and its
answer `bs` goes to `dst`, once the buddy has acknowledged them (R299). -/
def State.mirrorWrite (s : State) (x : Source) (off n : Nat) (bs : List (BitVec 8)) (dst : ReqDst) : State × Got :=
  let bytes := s.memRead off n
  let (s, tag) := s.addReq ⟨.buddy, x, .write bytes, off, dst⟩
  let s := { s with ms.mirWait := s.ms.mirWait ++ [(tag, bs)] }
  match s.boundCirc (s.rd F.MEM_MIRROR_CFG.BUDDY) with
  | some c => let (ty, p) := s.reqPkt x (.write bytes) off tag false true; (s.enqueue c ty p, .pending tag)
  | none => (s, .pending tag)

/-- R317: the Orquin firmware mirrors job descriptors and routing state into the buddy's mirror area while the pair mirrors. Where in
the area and in what form is open: one line of free bytes at a free place (notes/assumptions/69.md). -/
def State.orqMirror (s : State) : State :=
  let st := s.rd F.MEM_MIRROR_STATUS.STATE
  if st = mirMIRRORED ∨ st = mirRESYNC then
    let off := 0x11FDC000000 + (Config.word s.free).toNat % 0x100000 * 64
    let bytes := (List.range 64).map fun i => Config.byte s.free i
    let x : Source := ⟨6, 0, 0, 0, 0, 0, ⟨0, 0, 0⟩, 0⟩
    let (s, tag) := s.tick.addReq ⟨.buddy, x, .write bytes, off, .store⟩
    let s := { s with ms.mirWait := s.ms.mirWait ++ [(tag, [])] }
    match s.boundCirc (s.rd F.MEM_MIRROR_CFG.BUDDY) with
    | some c => let (ty, p) := s.reqPkt x (.write bytes) off tag false true; s.enqueue c ty p
    | none => s
  else s

/-- Perform an access at a local offset of this module, and mirror what it writes. -/
def State.performAs (s : State) (x : Source) (k : MemKind) (off : Nat) (dst : ReqDst) : State × Got :=
  let (s, bs) := s.perform k off
  if k.writes && s.mirrored off k.size then s.mirrorWrite x off k.size bs dst else (s, .data bs)

/-- Two requests come from one source (R297). -/
def Source.same (a b : Source) : Bool :=
  a.engine == b.engine && a.ctx == b.ctx && a.part == b.part && a.core == b.core && a.thread == b.thread && a.cmd.queue == b.cmd.queue

/-- A queued access that has passed its checks meets a range. -/
def HeldWork.meets (w : HeldWork) (off n : Nat) : Bool :=
  match w with
  | .here m => overlap m.addr m.kind.size off n
  | _ => false

/-- A thread has a request in its core's memory queue: its later ones queue behind it (Table 3-7). -/
def State.behind (s : State) (x : Source) : Bool :=
  x.engine == 5 && (s.core x.core).memq.any fun h => h.thread == some x.thread

/-- A request joins the memory queue of core `c`. -/
def State.hold (s : State) (c : Nat) (t : Option Nat) (x : Source) (w : HeldWork) : State :=
  let k := s.core c
  s.setCore c { k with memq := k.memq ++ [⟨t, x, w⟩] }

/-- An access to core store `c` that waits: a write that meets a retained span (R156), or an access of one source to bytes that an
earlier one of its own, held there, touches (R297). `a` is the core-local address. -/
def State.heldBack (s : State) (x : Source) (c a : Nat) (k : MemKind) : Bool :=
  let kr := s.core c
  (k.writes && kr.retain.any fun sp => overlap a k.size sp.addr sp.len) ||
    (kr.memq.any fun h => h.src.same x && h.work.meets (coreStoreBase c + a) k.size)

/-- The 64-byte lines of a range that the host must give up first (R323). -/
def State.biasLines (s : State) (off n : Nat) : List Nat :=
  ((List.range ((off + n - 1) / 64 + 1 - off / 64)).map fun i => off / 64 + i).filter fun l => (kfind s.ms.hostBias (l / 2 ^ 15)).isSome

/-- An access that still waits for lines of the host touches a range: accesses to one address keep their order of arrival (R295). -/
def State.biasBusy (s : State) (off n : Nat) : Bool :=
  s.ms.biasWait.any fun w => match kfind s.ms.reqs w.1 with
    | some r => overlap r.addr r.kind.size off n
    | none => false

/-- The tags of requests that wait: the local request is noted with where it waits. -/
def State.park (s : State) (loc : ReqAt) (x : Source) (k : MemKind) (off : Nat) (dst : ReqDst) : State × Nat :=
  s.addReq ⟨loc, x, k, off, dst⟩

/-- An access to a place in this module's memory that has passed its checks: it waits behind its thread's queue (Table 3-7), for a
gated quarter (R102), a zeroing core (R124), a retained span (R156) or lines of the host (R323), or is performed. -/
def State.localAccess (s : State) (x : Source) (k : MemKind) (off : Nat) (dst : ReqDst) : State × Got :=
  let (s', t) := s.park .gated x k off dst
  let m : MemReq := ⟨off, k, some t⟩
  if s.behind x then (s'.hold x.core (some x.thread) x (.here m), .pending t)
  else match placeOf off with
  | .core c =>
    if s.dozing (coreQuarter c) then (s'.wakeFor (coreQuarter c) [m], .pending t)
    else if (s.core c).zeroing && !(x.engine == 5 && x.core == c) then
      (s'.setCore c { s'.core c with waiting := (s'.core c).waiting ++ [m] }, .pending t)
    else if s.heldBack x c (off - coreStoreBase c) k then
      (s'.hold c (if x.engine = 5 ∧ x.core = c then some x.thread else none) x (.here m), .pending t)
    else s.performAs x k off dst
  | .quarter q =>
    if s.dozing q then (s'.wakeFor q [m], .pending t) else s.performAs x k off dst
  | _ =>
    let need := s.biasLines off k.size
    if need.isEmpty && !s.biasBusy off k.size then s.performAs x k off dst
    else if !need.isEmpty && (s.ms.linkDown || s.pwr.perstLow) then (s, .failed gcHOST_DOWN)
    else
      let (s, t) := s.park .bias x k off dst
      (need.foldl (fun (s : State) l => s.emit (.cxlSnoop l)) { s with ms.biasWait := s.ms.biasWait ++ [(t, need)] }, .pending t)

/-- A request to another module on the circuit bound to it (R297, R551), or on a named circuit. -/
def State.sendReq (s : State) (x : Source) (k : MemKind) (n off : Nat) (dst : ReqDst) (fetch : Bool)
    (circ : Option Nat := none) : State × Got :=
  match circ <|> s.boundCirc n with
  | none => (s, .failed gcNO_ROUTE)
  | some c =>
    let (s, t) := s.addReq ⟨.node n, x, k, off, dst⟩
    let (ty, p) := s.reqPkt x k off t fetch false
    (s.enqueue c ty p, .pending t)

/-- The overflow map's entry of a page (Table 6-6), through the translation cache (R311). -/
def State.ovfEntry (s : State) (page : Nat) : State × Nat :=
  match kfind s.ms.ovfCache page with
  | some e => (s, e)
  | none =>
    let e := leNat (s.memRead (s.rd F.MEM_OVF_BASE.TABLE * 8 + page * 8) 8)
    let old := if s.ms.ovfCache.length < 1024 then s.ms.ovfCache else s.ms.ovfCache.drop 1
    ({ s with ms.ovfCache := kset old page e }, e)

/-- An access within this module after the region check: overflow translation first, in the region that `MEM_OVF_CFG` names
(R311); the map lies in LPDDR6 (R288). -/
def State.homeAccess (s : State) (x : Source) (k : MemKind) (off : Nat) (dst : ReqDst) : State × Got :=
  match placeOf off with
  | .overflow =>
    if !s.flag F.MEM_OVF_CFG.EN || !s.flag F.MEM_STATUS.DRAM_OK then (s, .failed gcUNMAPPED)
    else match kfind s.ms.regions (s.rd F.MEM_OVF_CFG.REGION) with
      | none => (s, .failed gcUNMAPPED)
      | some r =>
        if !(r.ovf && r.holds off k.size) then (s, .failed gcUNMAPPED)
        else
          let (s, e) := s.ovfEntry ((off - r.base) / 2 ^ 21)
          if bitOf e 0 then
            let loc := bitsOf e 41 21 * 2 ^ 21 + off % 2 ^ 21
            if (match k with
                | .write _ => s.partPoison loc k.size
                | _ => s.poisoned loc k.size) then (s, .failed gcPOISON)
            else s.localAccess x k loc dst
          else match k with
            | .read _ => s.sendReq x k (s.rd F.MEM_OVF_CFG.PARTNER) (bitsOf e 62 42 * 2 ^ 21 + off % 2 ^ 21) dst false
            | _ => (s, .failed gcPERM)
  | _ => s.localAccess x k off dst

/-! ### The register aperture (R277) -/

/-- The offset of an address within the register aperture. -/
def apertureOff (off : Nat) : Nat := off - apertureBase

/-- An offset of the aperture that a source may read: the `ID_` and `TIM_` blocks and the per-core windows of its own partition. -/
def State.apertureOpen (s : State) (x : Source) (a : Nat) : Bool :=
  decide (a < 0x10000) || (decide (0x600000 ≤ a) && decide (a < 0x700000)) ||
    (decide (0x1000000 ≤ a) && decide (a < 0x2200000) && partOf s.partMode (coreQuarter ((a - 0x1000000) / 0x10000)) == x.part)

/-- One byte of the aperture as a reader sees it: a register's, or 0 where nothing is defined (R11). -/
def State.apertureByte (s : State) (a : Nat) : BitVec 8 :=
  match regAt (a / 4 * 4) <|> regAt (a / 8 * 8) with
  | some (r, i) =>
    let o := a - r.off i
    if o < r.desc.width / 8 then BitVec.ofNat 8 ((s.viewCore r i).toNat / 2 ^ (8 * o)) else 0
  | none => 0

/-- A read of the aperture, which may cover several registers. -/
def State.apertureRead (s : State) (x : Source) (off n : Nat) : Option (List (BitVec 8)) :=
  let a := apertureOff off
  if s.apertureOpen x a && s.apertureOpen x (a + n - 1) then some ((List.range n).map fun i => s.apertureByte (a + i)) else none

/-- An aperture write of a thread or an engine names a tail register of its own context's slot (R277). -/
def ownTail (x : Source) (a len : Nat) : Bool :=
  decide (x.engine ≤ 5) && decide ((a - 0x20000) / 0x20 = x.cmd.slot) && decide (a < 0x22000) && !decide (a < 0x20000) && a % 4 == 0 && len == 4

/-- A write of this module's register aperture. -/
def State.apertureWrite (s : State) (x : Source) (a : Nat) (d : List (BitVec 8)) : State × Got :=
  if ownTail x a d.length then (s.tailWrite x.cmd.slot (a / 4 % 8) (leNat d), .data []) else (s, .failed gcREG_DENIED)

/-- The answer to a read of the aperture: its bytes, or REG_DENIED. -/
def apertureGot : Option (List (BitVec 8)) → Got
  | some bs => .data bs
  | none => .failed gcREG_DENIED

/-- A read or write of this module's register aperture (R277). -/
def State.apertureAccess (s : State) (x : Source) (k : MemKind) (off : Nat) : State × Got :=
  match k with
  | .read n => (s, apertureGot (s.apertureRead x off n))
  | .write d => s.apertureWrite x (apertureOff off) d
  | _ => (s, .failed gcREG_DENIED)

/-- A global access of a source (R273 to R277, R291, R303 to R305). A failure has not yet been recorded: the caller
calls `failSource`. -/
def State.tryAccess (s : State) (x : Source) (k : MemKind) (ga : Nat) (dst : ReqDst) (fetch : Bool := false) :
    State × Got :=
  if bitOf ga 63 then
    if bitsOf ga 62 52 ≠ 0 then (s, .failed gcATTR)
    else if k.isAtom then (s, .failed gcATOMIC_TARGET)
    else if s.ms.linkDown || s.pwr.perstLow then (s, .failed gcHOST_DOWN)
    else
      let (s, t) := s.addReq ⟨.host, x, k, bitsOf ga 51 0, dst⟩
      let o := match k with
        | .write d => Output.hostWrite (bitsOf ga 51 0) d
        | _ => Output.hostRead (bitsOf ga 51 0) k.size
      (s.emit o, .pending t)
  else
    let node := bitsOf ga 56 42
    let self := bitOf ga 58
    let off := bitsOf ga 41 0
    if bitsOf ga 62 59 ≠ 0 ∨ (self ∧ node ≠ 0) then (s, .failed gcATTR)
    else if self ∨ node = s.node then
      if placeOf off = .aperture then
        if k.isAtom then (s, .failed gcATOMIC_TARGET)
        else s.apertureAccess x k off
      else match s.checkAccess x.job false false false k off with
        | some cause => (s, .failed cause)
        | none => s.homeAccess x k off dst
    else if placeOf off = .aperture then (s, .failed (if k.isAtom then gcATOMIC_TARGET else gcREG_DENIED))
    else s.sendReq x k node off dst fetch

/-- A failed access of a source: a ring run's own block fails the run with `SOURCE` (R427, R428), any other as R305 says. -/
def State.sourceFails (s : State) (x : Source) (ga cause : Nat) (atomic : Bool) : State :=
  if x.engine = 3 ∧ s.opcodeOf x.cmd = 0x40 ∧ s.slotOf x.ctx = some x.cmd.slot then
    (s.gfault x ga cause).cmdError x.cmd qeRING 0x08 0x40 ga
  else s.failSource x ga cause atomic

/-- A global access whose failure falls on its source (R305). -/
def State.access (s : State) (x : Source) (k : MemKind) (ga : Nat) (dst : ReqDst) (fetch : Bool := false) : State × Got :=
  match s.tryAccess x k ga dst fetch with
  | (s, .failed cause) => (s.sourceFails x ga cause k.isAtom, .failed cause)
  | r => r

/-! ### Waiting threads -/

/-- Entries that a thread holds. -/
def Core.heldBy (k : Core) (t : Nat) : Nat := (k.sb.filter fun e => e.thread == t).length

/-- Shared entries in use (R142). -/
def Core.sharedUsed (k : Core) : Nat := (k.sb.filter SbEntry.shared).length

/-- Thread `t` holds its reserved entry. -/
def Core.reservedHeld (k : Core) (t : Nat) : Bool := k.sb.any fun e => e.thread == t && !e.shared

/-- An entry is available to thread `t` (R142): its reserved one, else a shared one within its 32. -/
def Core.entryFree (k : Core) (t : Nat) : Bool :=
  !k.reservedHeld t || (decide (k.heldBy t < 32) && decide (k.sharedUsed < 192))

/-- The thread requests in the memory queue (Table 3-7). -/
def Core.queued (k : Core) : Nat := (k.memq.filter fun h => h.thread.isSome).length

/-- The registers that a thread's pending entries will write. -/
def Core.pendingRegs (k : Core) (t : Nat) : List RegName :=
  (k.sb.filter fun e => e.thread == t).filterMap fun e => match e.dest with
    | .scalar r => some (.s r)
    | .vector r _ => some (.v r)
    | .none => none

/-- What a queued request is for the fences: it stores; it fetches (R300, R301). -/
def HeldWork.stores : HeldWork → Bool
  | .here m => m.kind.writes
  | .load _ _ _ _ _ => false
  | .store _ _ | .atom _ _ _ _ _ => true
def HeldWork.fetches : HeldWork → Bool
  | .atom _ _ _ _ fetch => fetch
  | _ => false

/-- Requests of a thread that have not been performed: stores for a release, loads for an acquire (R300, R301). -/
def State.unperformed (s : State) (c t : Nat) (stores : Bool) : Bool :=
  (s.ms.reqs.any fun r => r.2.src.engine == 5 && r.2.src.core == c && r.2.src.thread == t && r.2.kind.writes == stores) ||
    (s.core c).memq.any fun h => h.thread == some t && h.work.stores == stores

/-- Fetch atomics of a thread in flight: loads as well as stores (R301). -/
def State.fetching (s : State) (c t : Nat) : Bool :=
  (s.ms.reqs.any fun r => r.2.src.engine == 5 && r.2.src.core == c && r.2.src.thread == t &&
    (match r.2.dst with
      | .load _ _ _ _ len _ => decide (0 < len)
      | _ => false)) ||
    (s.core c).memq.any fun h => h.thread == some t && h.work.fetches

/-- The read cache of a core is invalidated; fills in flight are not installed (R173). -/
def State.invalidateCache (s : State) (c : Nat) : State :=
  let s := s.setCore c { s.core c with rcache := [] }
  { s with ms.reqs := s.ms.reqs.map fun (t, r) => (t, match r.dst with
      | .load c' tag p sk n (some _) => if c' = c then { r with dst := .load c' tag p sk n none } else r
      | _ => r) }

/-- A thread's wait is over (Table 3-3), given what its core and the module hold. -/
def State.waitOver (s : State) (c t : Nat) : Bool :=
  let k := s.core c
  match (k.thread t).wait with
  | some (.dep rs) => !(rs.any fun r => (k.pendingRegs t).contains r)
  | some .entry => k.entryFree t
  | some .matq => decide (k.mq.length < 4)
  | some .memq => decide (k.queued < 32)
  | some .acq => !(s.unperformed c t false) && !(s.fetching c t)
  | some .rel => !(s.unperformed c t true)
  | some .exit => k.heldBy t == 0
  | some (.bar _) | some (.event _ _) | none => false

/-- Every thread of a core whose wait is over goes on: to `FREE` after `EXIT`, else to `READY`; a completed acquire
invalidates the read cache. -/
def State.settle (s : State) (c : Nat) : State :=
  (s.core c).threads.foldl (fun (s : State) x =>
    let t := x.1
    let th := s.thread c t
    if (th.st = .waitDep ∨ th.st = .waitRes ∨ th.st = .waitSync) ∧ s.waitOver c t then
      match th.wait with
      | some .exit => s.setThread c t Thread.init
      | some .acq => (s.invalidateCache c).setThread c t { th with st := .ready, wait := none }
      | _ => s.setThread c t { th with st := .ready, wait := none }
    else s) s

/-! ### Answers -/

def State.ring (s : State) (n : Nat) : Option RingRun := kfind s.eng.rings n
def State.setRing (s : State) (n : Nat) (x : RingRun) : State := { s with eng.rings := kset s.eng.rings n x }

/-- Bytes that a predecessor's write has performed into a slot count for the step that the slot awaits (R416). -/
def State.ringCount (s : State) (src off n : Nat) : State :=
  s.eng.rings.foldl (fun (s : State) (e : Nat × RingRun) =>
    let x := e.2
    match placeOf off with
    | .core c =>
      let a := off - coreStoreBase c
      let hit (slot : Nat) : Bool := decide (x.slotOff slot ≤ a) && decide (a + n ≤ x.slotOff slot + x.slotBytes)
      if x.state = 1 ∧ x.pred = some src ∧ x.coreFirst ≤ c ∧ c < x.coreFirst + x.coreSpan then
        match ((List.range x.steps).find? fun t => decide (1 ≤ t) && x.sentTok.contains t && hit t && decide (kget x.got t 0 < x.block)) with
        | some t => s.setRing e.1 { x with got := kset x.got t (kget x.got t 0 + n) }
        | none => s
      else s
    | _ => s) s

/-- A response with its data: an atomic answers its old value in 8 bytes when it fetches, and nothing otherwise (Table 9-6). The
requester's node stands in `dst` until the answer leaves. -/
def answered (p : Pkt) (bs : List (BitVec 8)) : Pkt :=
  let d := if p.aop = 0 then bs else if p.fetch then (bs ++ leBytes 8 0).take 8 else []
  { p with dst := 0, aop := 0, fetch := false, len := d.length, payload := d }


/-- Install whole 128-byte lines in a core's read cache (Table 3-1: 512 lines, four to a set). Which set a line falls
in and which way it replaces are open: `Config.rcSet` and a free choice. -/
def State.installLines (s : State) (c ga : Nat) (bs : List (BitVec 8)) : State :=
  (List.range (bs.length / 128)).foldl (fun (s : State) i =>
    let line := ga / 128 + i
    let k := s.core c
    let same := (k.rcache.map Prod.fst).filter fun l => l != line && Config.rcSet l % 128 == Config.rcSet line % 128
    let rc := if same.length < 4 then k.rcache else kdel k.rcache (same.getD ((Config.word s.free).toNat % 4) 0)
    (s.setCore c { k with rcache := kset rc line ((bs.drop (i * 128)).take 128) }).tick) s

/-- Put a part of a load's result into its scoreboard entry. -/
def State.fillEntry (s : State) (c tag part : Nat) (bs : List (BitVec 8)) : State :=
  let k := s.core c
  s.setCore c { k with sb := k.sb.map fun e =>
    if e.tag = tag then { e with parts := kset e.parts part bs, await := e.await - 1 } else e }

/-- A part of an engine command's data arrives. -/
def State.cmdPart (s : State) (r : CmdRef) (part : Nat) (bs : List (BitVec 8)) : State :=
  match s.cmdAt r with
  | some c => match c.work with
    | some (.convert ps) => s.setWork r (.convert (kset ps part bs))
    | some (.coll x) => s.setWork r (.coll { x with parts := kset x.parts part bs })
    | some .waiting => s.setWork r (.convert [(part, bs)])
    | _ => s
  | none => s

/-! ### Queue areas (Table 7-2, R334, R335, R345 to R348) -/

/-- The source of an engine's request for a command. -/
def State.engineSource (s : State) (r : CmdRef) : Source :=
  ⟨s.queueEngine r.slot r.queue, s.ctxJob r.slot, s.ctxId r.slot, s.ctxPart r.slot, 0, 0, r, 0⟩

/-- The queue area's base address. -/
def State.queueBase (s : State) (i : Nat) : Nat := s.rd F.QDB_QBASE.BASE i * 2 ^ 12

/-- Why an engine's access to `n` bytes of a queue area in LPDDR6 fails: the region must grant `R` and `W` (R335). -/
def State.areaFault (s : State) (job off : Nat) (k : MemKind) : Option Nat :=
  let other : MemKind := if k.writes then .read k.size else .write (List.replicate k.size 0)
  match s.checkAccess job false false false k off with
  | some cause => some cause
  | none => (s.checkAccess job false false false other off).filter fun c => c != gcPOISON

/-- An access of an engine to a queue area; a failure is `QUEUE_FETCH` (R335). -/
def State.areaAccess (s : State) (r : CmdRef) (ga : Nat) (k : MemKind) (dst : ReqDst) : State × Got :=
  let x := s.engineSource r
  let (s, g) :=
    if bitOf ga 63 then s.tryAccess x k ga dst
    else match s.areaFault x.job (bitsOf ga 41 0) k with
      | some cause => (s, .failed cause)
      | none => s.localAccess x k (bitsOf ga 41 0) dst
  match g with
  | .failed cause => (s.failSource x ga cause false qeQUEUE_FETCH, g)
  | _ => (s, g)

/-- A record that the engine has read joins its queue's commands (R340). -/
def State.fetched (s : State) (r : CmdRef) (bs : List (BitVec 8)) : State :=
  let i := qi r.slot r.queue
  let q := s.queue i
  if q.fetched ≠ r.count ∨ s.ctxState r.slot ≠ ctxACTIVE then s
  else s.setQueue i { q with fetched := (r.count + 1) % 2 ^ 32, cmds := q.cmds ++ [⟨r.count, bs, none, false⟩] }

/-- The head passes the completed commands at the front, and the head shadow follows (R346). -/
def State.advanceHead (s : State) (r : CmdRef) : State :=
  let i := qi r.slot r.queue
  let q := s.queue i
  let passed := (q.cmds.takeWhile fun c => c.ended).length
  if passed = 0 then s
  else
    let h := (s.rd F.QDB_HEAD.HEAD i + passed) % 2 ^ 32
    let s := ((s.setQueue i { q with cmds := q.cmds.drop passed }).wr F.QDB_HEAD.HEAD h i).progressed r.slot
    let s := (s.areaAccess r (s.queueBase i + s.depth i * 80) (.write (leBytes 4 h ++ leBytes 4 0)) .area).1
    if s.rd F.QDB_QCFG.STATE i = qRUN ∧ h = s.rd F.QDB_TAIL.TAIL i then s.wr F.QDB_QCFG.STATE qIDLE i else s

/-- A command has completed and its completion record, if any, has been performed: its message and the head (R346, R348). -/
def State.endCommand (s : State) (r : CmdRef) : State :=
  let i := qi r.slot r.queue
  match s.cmdAt r with
  | none => s
  | some c =>
    if s.ctxState r.slot ≠ ctxACTIVE then s
    else
      let q := s.queue i
      let s := s.setQueue i { q with cmds := q.cmds.map fun x => if x.count = r.count then { x with ended := true } else x }
      (s.when (bitOf (leAt c.bytes 1 1) 2) fun s => s.emit (.msix (s.rd F.QDB_QCFG.VECTOR i))).advanceHead r

/-- The answer of a request: its part of a load, a copy's write, a reply to a remote module, a host's data. -/
def State.giveAnswer (s : State) (r : OutReq) (bs : List (BitVec 8)) : State :=
  let s := match r.dst with
    | .load c e part skip len inst =>
      let s := match inst with
        | some ga => s.installLines c ga bs
        | none => s
      s.fillEntry c e part ((bs.drop skip).take len)
    | .store => s
    | .copyTo d => (s.access r.src (.write bs) d .store).1
    | .cmd part => s.cmdPart r.src.cmd part bs
    | .fetch => s.fetched r.src.cmd bs
    | .record => s.endCommand r.src.cmd
    | .area => s
    | .ring run part => { s with lk.inbox := kset s.lk.inbox (run * 2 ^ 20 + part) { Pkt.zero with payload := bs } }
    | .reply circ p ty => (s.when r.kind.writes fun s => s.ringCount p.dst r.addr r.kind.size).enqueue circ ty (answered p bs)
    | .host => if r.kind.writes then s else s.emit (.cxlData bs false)
  s.settle r.src.core

/-- Deliver the answer of request `tag`. -/
def State.deliver (s : State) (tag : Nat) (bs : List (BitVec 8)) : State :=
  match kfind s.ms.reqs tag with
  | none => s
  | some r => State.giveAnswer { s with ms.reqs := kdel s.ms.reqs tag } r bs

/-- The global address of an outstanding request; one that waits at home has the address of its own module. -/
def OutReq.fullAddr (r : OutReq) : Nat :=
  match r.loc with
  | .node n => n * 2 ^ 42 + r.addr
  | .host => 2 ^ 63 + r.addr
  | _ => 2 ^ 58 + r.addr

/-- A request of tag `tag` fails with a cause of Table 6-5: a remote requester gets the cause in `CPL`, a source of
this module faults (R303, R305). -/
def State.failReq (s : State) (tag cause : Nat) : State :=
  match kfind s.ms.reqs tag with
  | none => s
  | some r =>
    let s := { s with ms.reqs := kdel s.ms.reqs tag }
    match r.dst with
    | .reply circ p ty => s.enqueue circ ty { (answered p []) with status := cause, len := 0, payload := [] }
    | .host => s
    | .ring _ _ =>
      if s.slotOf r.src.ctx ≠ some r.src.cmd.slot then s
      else
        let op := s.opcodeOf r.src.cmd
        (s.gfault r.src r.fullAddr cause).cmdError r.src.cmd qeRING 0x07 op r.fullAddr
    | .fetch | .record | .area => s.failSource r.src r.fullAddr cause false qeQUEUE_FETCH
    | .cmd _ =>
      if s.opcodeOf r.src.cmd = 0x40 then s.cmdError r.src.cmd qeRING 0x01 0x40 0
      else s.failSource r.src r.fullAddr cause false
    | _ => (s.sourceFails r.src r.fullAddr cause r.kind.isAtom).settle r.src.core

/-- A write that waited meets a region that has been sealed meanwhile (R308). -/
def State.sealedSince (s : State) (m : MemReq) : Bool :=
  m.kind.writes && (match s.regionOf m.addr m.kind.size with
    | some r => r.sealed_
    | none => false)

/-- A request that waited at its home is performed now and answered; one whose source is gone completes without an answer (R177). -/
def State.performReq (s : State) (m : MemReq) : State :=
  match m.tag with
  | none =>
    let (s, bs) := s.perform m.kind m.addr
    match m.kind with
    | .read _ | .regRead _ => s.emit (.bar0 (leNat bs))
    | _ => s
  | some t => match kfind s.ms.reqs t with
    | none => (s.perform m.kind m.addr).1
    | some r =>
      if s.sealedSince m then s.failReq t gcSEALED
      else match State.performAs { s with ms.reqs := kdel s.ms.reqs t } r.src m.kind m.addr r.dst with
        | (s, .data bs) => s.giveAnswer r bs
        | (s, _) => s

/-- The accesses that waited for lines of the host and have them all are performed, those to one address in their order of arrival
(R295, R323). -/
def State.drainBias (s : State) : State :=
  (s.ms.biasWait.foldl (fun (st : State × List OutReq) w =>
    match kfind st.1.ms.reqs w.1 with
    | none => ({ st.1 with ms.biasWait := kdel st.1.ms.biasWait w.1 }, st.2)
    | some r =>
      if w.2.isEmpty && !(st.2.any fun b => overlap b.addr b.kind.size r.addr r.kind.size) then
        (State.performReq { st.1 with ms.biasWait := kdel st.1.ms.biasWait w.1 } ⟨r.addr, r.kind, some w.1⟩, st.2)
      else (st.1, st.2 ++ [r])) (s, [])).1

end Sys2Proof.Machine
end

