-- ==== Sys2Proof/Machine/History.lean ====
section
/-! DEFINITION. Unit history and classification, and the retirement it leads to (R261 to R266). -/

namespace Sys2Proof.Machine

open Sys2Proof

def uMXA : Nat := 0
def uCKL : Nat := 1
def uVEC : Nat := 2
def uSFU : Nat := 3

/-- The unit number of a core's unit, and of `CHK_EUNIT[n]`. -/
def coreUnit (c u : Nat) : Nat := c * 4 + u
def engUnit (n : Nat) : Nat := 1152 + n

def State.hist (s : State) (u : Nat) : Hist := kget s.chk.hist u Hist.init
def State.setHist (s : State) (u : Nat) (h : Hist) : State := { s with chk.hist := kset s.chk.hist u h }

def hours (n : Nat) : Nat := n * 3600000

/-- R263: the events that make a unit permanent at its event at `t`, given the times of its earlier events: one within 24 h, else
two more within 1,000 h. -/
def decidingTimes (earlier : List Nat) (t : Nat) : Option (List Nat) :=
  match earlier.find? fun e => decide (t ≤ e + hours 24) with
  | some e => some [t, e]
  | none =>
    let near := earlier.filter fun e => decide (t ≤ e + hours 1000)
    if 2 ≤ near.length then some (t :: near) else none

/-- The reduction ALUs in service (R265). -/
def State.aluLive (s : State) : List Nat := (List.range 32).filter fun n => !(s.hist (engUnit n)).perm

/-- A unit becomes permanent by the events at `times`: its core is retire-pending (R266), or it leaves service (R265). -/
def State.unitPermanent (s : State) (u : Nat) (times : List Nat) : State :=
  if u < 1152 then
    let c := u / 4
    let s := s.note evUnitPermanent 1 1 c (u :: times)
    if s.retire c = 0 then s.setRetire c 1 else s
  else
    let n := u - 1152
    let s := s.note evUnitPermanent 1 0xB n (u :: times)
    let s := s.note evEngUnitRetired 1 0xB n [n]
    if n < 32 ∧ s.aluLive.isEmpty then s.note evEngUnitRetired 5 0xB n [n] else s

/-- A unit is charged one event now (R261, R263). -/
def State.charge1 (s : State) (u : Nat) : State :=
  let h := s.hist u
  let t := s.opMs
  let d := decidingTimes h.times t
  let s := s.setHist u { h with times := (t :: h.times).take 3, perm := h.perm || d.isSome, dirty := true }
  match d with
  | some ts => if h.perm then s else s.unitPermanent u ts
  | none => s

/-- A unit is charged `n` events at this moment. -/
def State.charge (s : State) (u : Nat) : Nat → State
  | 0 => s
  | n + 1 => (s.charge1 u).charge u n

/-- Events of a unit within the last 1,000 h. -/
def State.recentEvents (s : State) (u : Nat) : Nat :=
  ((s.hist u).times.filter fun e => decide (s.opMs ≤ e + hours 1000)).length

/-- The state code of a unit in `CHK_CORE` and `CHK_EUNIT`. -/
def State.unitState (s : State) (u : Nat) : Nat :=
  if (s.hist u).perm then 2 else if 0 < s.recentEvents u then 1 else 0

/-- `CHK_LAST` and `CHK_LAST_CTX` for a record. -/
def State.chkLast (s : State) (core unit outcome eunit : Nat) (injected : Bool) (digO : Nat)
    (ctx : Option (Nat × CmdRef)) : State :=
  let s := s |>.wr F.CHK_LAST.CORE core
    |>.wr F.CHK_LAST.UNIT unit
    |>.wr F.CHK_LAST.OUTCOME outcome
    |>.wr F.CHK_LAST.EUNIT eunit
    |>.wr F.CHK_LAST.INJECTED (b2n injected)
    |>.wr F.CHK_LAST.DIGEST_O digO
    |>.wr F.CHK_LAST_CTX.VALID 1
  match ctx with
  | none => ((s.wr F.CHK_LAST_CTX.CTX_ID 0).wr F.CHK_LAST_CTX.QUEUE 0).wr F.CHK_LAST_CTX.CMD_INDEX 0
  | some (id, r) => s |>.wr F.CHK_LAST_CTX.CTX_ID id
    |>.wr F.CHK_LAST_CTX.QUEUE r.queue
    |>.wr F.CHK_LAST_CTX.CMD_INDEX (r.count % s.depth (qi r.slot r.queue))

end Sys2Proof.Machine
end

