-- ==== Sys2Proof/Machine/CoreThreads.lean ====
section
/-! DEFINITION. Instructions of the compute core (spec/03_cores_and_threads.md): issue, the scalar, vector,
special-function, memory, matrix and synchronisation classes, and the results that release scoreboard entries. The spec
gives classes and effects but no instruction encodings: a command carries the instruction as its operands
(notes/assumptions/11.md). -/

namespace Sys2Proof.Machine

open Sys2Proof

/-! ### Issue (R128, R134 to R143) -/

/-- A thread's source, for its requests. -/
def State.threadSource (s : State) (c t : Nat) : Source :=
  let th := s.thread c t
  ⟨5, s.ctxJob th.cmd.slot, th.ctx, partOf s.partMode (coreQuarter c), c, t, th.cmd, th.pc⟩

/-- The thread may issue: it is live and not halted, waits for nothing but operands or resources, its core runs. -/
def State.canIssue (s : State) (c t : Nat) : Bool :=
  let th := s.thread c t
  (th.st == .ready || th.st == .waitDep || th.st == .waitRes) && th.wait != some .exit && !th.hold &&
    decide (c < 288) && !s.gated (coreQuarter c) && !(s.core c).zeroing

/-- The thread goes to a wait state of Table 3-3. -/
def State.stall (s : State) (c t : Nat) (st : ThrSt) (w : Wait) : State :=
  s.setThread c t { s.thread c t with st := st, wait := some w }

/-- Move past the instruction, unless the thread has faulted. -/
def State.next (s : State) (c t : Nat) (jump : Option Nat := none) : State :=
  let th := s.thread c t
  if th.st = .faulted ∨ th.st = .free then s
  else s.setThread c t { th with pc := jump.getD (th.pc + 8) % 2 ^ 64 }

/-- What an instruction needs to issue: registers, a scoreboard entry, a matrix or memory queue slot. -/
structure Needs where
  regs   : List RegName
  entry  : Bool
  matrix : Bool
  memory : Bool

/-- An instruction issues when nothing of Table 3-7 holds it; otherwise its thread waits. -/
def State.issue (s : State) (c t : Nat) (n : Needs) (run : State → State) : State :=
  if !s.canIssue c t then s
  else
    let k := s.core c
    let pend := n.regs.filter fun r => (k.pendingRegs t).contains r
    if !pend.isEmpty then s.stall c t .waitDep (.dep pend)
    else if n.matrix && decide (4 ≤ k.mq.length) then s.stall c t .waitRes .matq
    else if n.memory && decide (32 ≤ k.queued) then s.stall c t .waitRes .memq
    else if n.entry && !k.entryFree t then s.stall c t .waitRes .entry
    else
      let s := s.setThread c t { k.thread t with st := .ready, wait := none }
      run (s.bump F.CORE_PERF_ISSUE.COUNT c)

/-- A register as the payload of `CHK_PARITY_CORR` and `CHK_PARITY_FATAL` names it: scalar 0 to 31, vector 32 to 47, predicate 48 to
55, the generator 56, and 57 for a cache line (DESIGN CHOICE, notes/assumptions/104.md). -/
def RegName.number : RegName → Nat
  | .s n => n % 32
  | .v n => 32 + n % 16
  | .p n => 48 + n % 8

/-- A parity error of a thread's registers, its generator or a cache: counted, and charged to `VEC` where Table 5-1 has a history
unit. -/
def State.parityCount (s : State) (c : Nat) (charged : Bool) : State :=
  (s.bump F.CHK_CNT_PAR.COUNT).charge (coreUnit c uVEC) (b2n charged)

/-- A parity error that stays: SEV2 and the thread fault `OPERAND_PARITY` (R256). -/
def State.parityFatal (s : State) (c t reg : Nat) : State :=
  let th := s.thread c t
  (s.record evParityFatal 2 1 c [c, t, reg] (some th.ctx)).threadFault c t fcOPERAND_PARITY th.pc

/-- What a line with a parity error costs: it is invalidated and read again, SEV1 (Table 5-1). -/
def State.lineParity (s : State) (c t : Nat) : State :=
  (s.parityCount c false).note evParityCorr 1 1 c [c, t, 57] (some (s.thread c t).ctx)

/-- What parity finds before an instruction executes (R256, Table 5-1): a clean second read of a register lets it proceed; an error
that stays, or one of the generator, faults the thread; a line of the read cache is left to the load. -/
def State.withParity (s : State) (c t : Nat) (parity : ParityFinding) (run : State → State) : State :=
  match parity with
  | .none => run s
  | .reg r again =>
    let s := s.parityCount c true
    if again then s.parityFatal c t (RegName.number r)
    else run (s.note evParityCorr 1 1 c [c, t, (RegName.number r)] (some (s.thread c t).ctx))
  | .generator => (s.parityCount c true).parityFatal c t 56
  | .cacheLine => run s

/-- A load whose line in the read cache shows a parity error: the cache gives its line up, and the load reads it anew (Table 5-1). -/
def State.cacheParity (s : State) (c t : Nat) (parity : ParityFinding) (hit : Bool) (drop : State → State) : State :=
  if parity = .cacheLine ∧ hit then drop (s.lineParity c t) else s

/-- Change a thread's registers and move on. -/
def State.retireInstr (s : State) (c t : Nat) (f : Thread → Thread) : State := (s.setThread c t (f (s.thread c t))).next c t

/-- A thread faults at its next instruction. -/
def State.faultHere (s : State) (c t fcode : Nat) : State := s.threadFault c t fcode (s.thread c t).pc

/-! ### Scalar class -/

/-- A comparison bit placed in a predicate register. -/
def setPredBit (p : BitVec 64) (l : Nat) (b : Bool) : BitVec 64 :=
  BitVec.ofNat 64 (putBit p.toNat (l % 64) b)

def ScalarOp.regs : ScalarOp → List RegName
  | .alu _ rd ra rb => [.s (rd % 32), .s (ra % 32), .s (rb % 32)]
  | .aluImm _ rd ra _ => [.s (rd % 32), .s (ra % 32)]
  | .cmp _ _ _ ra rb => [.s (ra % 32), .s (rb % 32)]
  | .predSet _ ra => [.s (ra % 32)]
  | .predGet rd _ => [.s (rd % 32)]
  | .branch _ ra rb _ => [.s (ra % 32), .s (rb % 32)]
  | .illegal | .ifetch | .refetch => []

/-- SCALAR_INSTRUCTION: a scalar operation at register level. -/
def execScalarInstruction (core thread : Nat) (op : ScalarOp) (parity : ParityFinding) (s : State) : Result :=
  .next <| s.issue core thread ⟨ScalarOp.regs op, false, false, false⟩ fun s =>
    match op with
    | .illegal => s.faultHere core thread fcILLEGAL_OP
    | .ifetch => s.faultHere core thread fcIFETCH
    | .refetch => s.lineParity core thread
    | .alu f rd ra rb => s.withParity core thread parity fun s =>
        s.retireInstr core thread fun th => th.setS rd (scalarFn f (th.sreg ra) (th.sreg rb))
    | .aluImm f rd ra imm => s.withParity core thread parity fun s =>
        s.retireInstr core thread fun th => th.setS rd (scalarFn f (th.sreg ra) imm)
    | .cmp c pd lane ra rb => s.withParity core thread parity fun s =>
        s.retireInstr core thread fun th => th.setP pd (setPredBit (th.preg pd) lane (intCmp c (th.sreg ra) (th.sreg rb)))
    | .predSet pd ra => s.withParity core thread parity fun s =>
        s.retireInstr core thread fun th => th.setP pd (th.sreg ra)
    | .predGet rd pa => s.withParity core thread parity fun s =>
        s.retireInstr core thread fun th => th.setS rd (th.preg pa)
    | .branch c ra rb disp => s.withParity core thread parity fun s =>
        let th := s.thread core thread
        if intCmp c (th.sreg ra) (th.sreg rb) then s.next core thread (some (ofSigned 64 ((th.pc : Int) + disp)))
        else s.next core thread

/-! ### Vector class -/

def VectorOp.regs : VectorOp → List RegName
  | .fma rd ra rb rc _ => [.v (rd % 16), .v (ra % 16), .v (rb % 16), .v (rc % 16)]
  | .fp _ rd ra rb _ | .int _ rd ra rb _ | .select rd ra rb _ _ => [.v (rd % 16), .v (ra % 16), .v (rb % 16)]
  | .fcmp _ _ ra rb _ | .icmp _ _ ra rb _ => [.v (ra % 16), .v (rb % 16)]
  | .permute rd ra rx _ => [.v (rd % 16), .v (ra % 16), .v (rx % 16)]
  | .broadcast rd ra _ _ => [.v (rd % 16), .v (ra % 16)]

/-- Write the bits of a predicate register for the lanes that are on. -/
def Thread.writePred (th : Thread) (pd pr : Nat) (f : Nat → Bool) : Thread :=
  let q := th.preg pr
  th.setP pd ((List.range 64).foldl (fun (p : BitVec 64) l => if q.getLsbD l then setPredBit p l (f l) else p) (th.preg pd))

/-- A vector operation on a thread's registers (R158, R159, R205 to R209). -/
def VectorOp.apply (op : VectorOp) (th : Thread) : Thread :=
  match op with
  | .fma rd ra rb rc pr => th.writeLanes rd pr fun l => f32Fma (th.vreg ra l) (th.vreg rb l) (th.vreg rc l)
  | .fp f rd ra rb pr => th.writeLanes rd pr fun l => fpFn f (th.vreg ra l) (th.vreg rb l)
  | .fcmp c pd ra rb pr => th.writePred pd pr fun l => f32Cmp c (th.vreg ra l) (th.vreg rb l)
  | .int f rd ra rb pr => th.writeLanes rd pr fun l => intFn f (th.vreg ra l) (th.vreg rb l)
  | .icmp c pd ra rb pr => th.writePred pd pr fun l => intCmp c (th.vreg ra l) (th.vreg rb l)
  | .select rd ra rb ps pr => th.writeLanes rd pr fun l => if th.on ps l then th.vreg ra l else th.vreg rb l
  | .permute rd ra rx pr => th.writeLanes rd pr fun l => th.vreg ra ((th.vreg rx l).toNat % 64)
  | .broadcast rd ra lane pr => th.writeLanes rd pr fun _ => th.vreg ra (lane % 64)

/-- VECTOR_INSTRUCTION: a vector operation under its predicate. -/
def execVectorInstruction (core thread : Nat) (op : VectorOp) (parity : ParityFinding) (s : State) : Result :=
  .next <| s.issue core thread ⟨VectorOp.regs op, false, false, false⟩ fun s =>
    s.withParity core thread parity fun s => s.retireInstr core thread (VectorOp.apply op)

/-- One reduction of two lanes. -/
def redOp (op : RedOp) (fp : Bool) (a b : BitVec 32) : BitVec 32 :=
  match op with
  | .add => if fp then f32Add a b else a + b
  | .min => if fp then f32Min a b else intFn .min a b
  | .max => if fp then f32Max a b else intFn .max a b

/-- The value a lane that is off gives to a reduction: the operation's neutral element. -/
def redNeutral (op : RedOp) (fp : Bool) : BitVec 32 :=
  match op with
  | .add => if fp then 0x80000000 else 0
  | .min => if fp then 0x7F800000 else 0x7FFFFFFF
  | .max => if fp then 0xFF800000 else 0x80000000

/-- R160: one level of the fixed pairwise tree. -/
def redLevel (f : BitVec 32 → BitVec 32 → BitVec 32) : List (BitVec 32) → List (BitVec 32)
  | a :: b :: xs => f a b :: redLevel f xs
  | xs => xs

/-- R160: six levels combine 64 lanes. -/
def redTree (f : BitVec 32 → BitVec 32 → BitVec 32) (xs : List (BitVec 32)) : BitVec 32 :=
  ((List.range 6).foldl (fun ys _ => redLevel f ys) xs).getD 0 0

/-- LANE_REDUCTION: the result is written to every lane that is on (notes/assumptions/13.md). -/
def execLaneReduction (core thread : Nat) (op : RedOp) (fp : Bool) (rd ra pr : Nat) (s : State)
    (parity : ParityFinding := .none) :
    Result :=
  .next <| s.issue core thread ⟨[.v (rd % 16), .v (ra % 16)], false, false, false⟩ fun s =>
    s.withParity core thread parity fun s => s.retireInstr core thread fun th =>
      let r := redTree (redOp op fp) ((List.range 64).map fun l => if th.on pr l then th.vreg ra l else redNeutral op fp)
      th.writeLanes rd pr fun _ => r

/-! ### Conversions (R211 to R220) -/

/-- The 32 codes of MX block `b` of a packed register: blocks of 24 or 16 bytes in consecutive lanes. -/
def Thread.mxBlock (th : Thread) (r f b : Nat) : List Nat :=
  let w := fmtBits f
  let n := w  -- 32 elements of w bits are w lanes of 32 bits
  unpackBits w 32 ((List.range n).foldr (fun i acc => (th.vreg r (b * n + i)).toNat + 2 ^ 32 * acc) 0)

/-- A `CVT` to an MX format: two blocks of 32 lanes are packed in `rd`, and their scale codes are bytes 0 and 1 of `rs`
(notes/assumptions/101.md, 102.md). -/
def Thread.packMx (th : Thread) (rd rs ra dst : Nat) (sat : Bool) (pr : Nat) (rnd : Nat → Rnd) : Thread :=
  let blk (b : Nat) := formMx (fun i => rnd (b * 32 + i)) sat dst ((List.range 32).map fun i => ofF32 (th.vreg ra (b * 32 + i)))
  let w := fmtBits dst
  let put (x : Thread) (b : Nat) : Thread :=
    let v := packBits w (blk b).2
    (List.range w).foldl (fun (x : Thread) i =>
      if th.on pr (b * w + i) then x.setV rd (b * w + i) (BitVec.ofNat 32 (v / 2 ^ (32 * i))) else x) x
  (put (put th 0) 1).setS rs (BitVec.ofNat 64 ((th.sreg rs).toNat / 2 ^ 16 * 2 ^ 16 + (blk 0).1 + 256 * (blk 1).1))

/-- What a `CVT` leaves in a thread's registers, with the generator's move (R211 to R219). -/
def Thread.convert (th : Thread) (rd rs ra src dst ctrl pr : Nat) : Thread :=
  let rnd := laneRnd (ctrlRnd ctrl) th.rng
  let sat := ctrlSat ctrl
  let th' :=
    if isMx dst then th.packMx rd rs ra dst sat pr rnd
    else if isMx src then
      th.writeLanes rd pr fun l =>
        let scale := bitsOf (th.sreg rs).toNat (l / 32 * 8 + 7) (l / 32 * 8)
        toF32 (decodeMx src scale ((th.mxBlock ra src (l / 32)).getD (l % 32) 0))
    else th.writeLanes rd pr fun l => BitVec.ofNat 32 (convertNum (rnd l) sat src dst (decodeFmt src (th.vreg ra l).toNat))
  if ctrlRnd ctrl then { th' with rng := srSteps 64 th.rng } else th'

/-- CVT: converts 64 lanes between FP32 and a format, or between the integer formats. For an MX format two blocks of 32
are packed in the register `rd`, or unpacked from `ra`; their scale codes are bytes 0 and 1 of scalar register `rs`. An 8- or
16-bit result lies in the low bits of its lane, the others 0 (notes/assumptions/102.md); with `RND` the generator moves on whatever the
conversion (R217; notes/assumptions/100.md). -/
def execCvt (core thread rd rs ra src dst ctrl pr : Nat) (s : State) (parity : ParityFinding := .none) : Result :=
  .next <| s.issue core thread ⟨[.v (rd % 16), .v (ra % 16)] ++ (if isMx src || isMx dst then [.s (rs % 32)] else []), false, false, false⟩ fun s =>
    if !cvtAccepts src dst || ctrlReserved ctrl then s.faultHere core thread fcILLEGAL_OP
    else s.withParity core thread parity fun s =>
      s.retireInstr core thread fun th => th.convert rd rs ra src dst ctrl pr

/-- SRSEED: loads the generator; 0 is replaced by 1 (R216). -/
def execSrseed (core thread rs : Nat) (s : State) (parity : ParityFinding := .none) : Result :=
  .next <| s.issue core thread ⟨[.s (rs % 32)], false, false, false⟩ fun s =>
    s.withParity core thread parity fun s => s.retireInstr core thread fun th => { th with rng := srLoad (th.sreg rs) }

/-! ### Scoreboard entries -/

/-- A new scoreboard entry of a thread, its reserved one first (R142): the state and the entry's tag. -/
def State.allocEntry (s : State) (c t : Nat) (kind : SbKind) (dest : SbDest) (parts : List (Nat × List (BitVec 8)))
    (await : Nat) : State × Nat :=
  let k := s.core c
  (s.setCore c { k with sb := k.sb ++ [⟨k.nextTag, t, k.reservedHeld t, kind, dest, parts, await⟩], nextTag := k.nextTag + 1 }, k.nextTag)

/-- Release an entry, and let waiting threads go on. -/
def State.releaseEntry (s : State) (c tag : Nat) : State :=
  let k := s.core c
  (s.setCore c { k with sb := k.sb.filter fun e => e.tag != tag }).settle c

/-- The lanes that a predicate turns on. -/
def Thread.lanesOn (th : Thread) (pr : Nat) : List Nat := (List.range 64).filter fun l => th.on pr l

/-- A special-function instruction: its results are known at issue and written when its entry is released. -/
def State.sfu (s : State) (c t : Nat) (f : Sfu) (rd ra pr : Nat) (parity : ParityFinding) : State :=
  s.issue c t ⟨[.v (rd % 16), .v (ra % 16)], true, false, false⟩ fun s => s.withParity c t parity fun s =>
    let th := s.thread c t
    let lanes := th.lanesOn pr
    let parts := lanes.map fun l => (4 * l, leBytes 4 (sfuResult f (th.vreg ra l)).toNat)
    (s.allocEntry c t .sfu (.vector (rd % 16) lanes) parts 0).1.next c t

def execExp2 (core thread rd ra pr : Nat) (s : State) (parity : ParityFinding := .none) : Result :=
  .next (s.sfu core thread .exp2 rd ra pr parity)
def execLog2 (core thread rd ra pr : Nat) (s : State) (parity : ParityFinding := .none) : Result :=
  .next (s.sfu core thread .log2 rd ra pr parity)
def execRcp (core thread rd ra pr : Nat) (s : State) (parity : ParityFinding := .none) : Result :=
  .next (s.sfu core thread .rcp rd ra pr parity)
def execRsqrt (core thread rd ra pr : Nat) (s : State) (parity : ParityFinding := .none) : Result :=
  .next (s.sfu core thread .rsqrt rd ra pr parity)
def execSqrt (core thread rd ra pr : Nat) (s : State) (parity : ParityFinding := .none) : Result :=
  .next (s.sfu core thread .sqrt rd ra pr parity)
def execSin (core thread rd ra pr : Nat) (s : State) (parity : ParityFinding := .none) : Result :=
  .next (s.sfu core thread .sin rd ra pr parity)
def execCos (core thread rd ra pr : Nat) (s : State) (parity : ParityFinding := .none) : Result :=
  .next (s.sfu core thread .cos rd ra pr parity)
def execTanh (core thread rd ra pr : Nat) (s : State) (parity : ParityFinding := .none) : Result :=
  .next (s.sfu core thread .tanh rd ra pr parity)

/-! ### Memory class -/

/-- The bytes an access form moves (R165). -/
def AccessForm.bytes (a : AccessForm) : Nat := if a.vec then 256 else a.size

/-- Aligned as R165 requires: naturally for a scalar access of 1, 2, 4 or 8 bytes, to 4 bytes for a vector. -/
def AccessForm.aligned (a : AccessForm) (addr : Nat) : Bool :=
  if a.vec then addr % 4 == 0 else (a.size == 1 || a.size == 2 || a.size == 4 || a.size == 8) && addr % a.size == 0

/-- The address of an access. -/
def Thread.addr (th : Thread) (ra disp : Nat) : Nat := ((th.sreg ra).toNat + disp) % 2 ^ 64

def AccessForm.regs (a : AccessForm) : List RegName :=
  [.s (a.ra % 32), if a.vec then .v (a.reg % 16) else .s (a.reg % 32)]

/-- Where a load's result goes. -/
def Thread.loadDest (th : Thread) (a : AccessForm) : SbDest :=
  if a.vec then .vector (a.reg % 16) (th.lanesOn a.pr) else .scalar (a.reg % 32)

/-- Runs of consecutive lanes that are on, as start and length. -/
def laneRuns : List Nat → List (Nat × Nat)
  | [] => []
  | l :: ls => match laneRuns ls with
    | (a, n) :: rs => if a = l + 1 then (l, n + 1) :: rs else (l, 1) :: (a, n) :: rs
    | [] => [(l, 1)]

/-- What a store writes: byte offsets and bytes. -/
def Thread.storeParts (th : Thread) (a : AccessForm) : List (Nat × List (BitVec 8)) :=
  if a.vec then (laneRuns (th.lanesOn a.pr)).map fun (l, n) =>
    (4 * l, (List.range n).flatMap fun i => leBytes 4 (th.vreg a.reg (l + i)).toNat)
  else [(0, leBytes a.size (th.sreg a.reg).toNat)]

/-- An answer that came at once goes into the entry; a pending one is awaited there already. -/
def State.gotPart (s : State) (c tag part : Nat) (skip len : Nat) (g : Got) : State :=
  match g with
  | .data bs => s.fillEntry c tag part ((bs.drop skip).take len)
  | .pending _ => s
  | .failed _ => s

/-- What a check makes of a finding: nothing, an error corrected in so many places, or one that it cannot correct. -/
inductive EccVerdict where
  | clean
  | corrected (n : Nat)
  | uncorrectable
deriving DecidableEq, Repr

/-- SEC-DED of on-package SRAM (Table 5-1): one bit is corrected, two are detected. -/
def EccFinding.sram : EccFinding → EccVerdict
  | .clean | .wrongGranule => .clean
  | .errors n => if n = 0 then .clean else if n = 1 then .corrected 1 else .uncorrectable

/-- The Reed–Solomon code of LPDDR6 (R280): errors in up to 3 bytes are corrected; more bytes, or a granule of another address, are
detected (what more than 5 bytes give is open: notes/assumptions/107.md). -/
def EccFinding.dram : EccFinding → EccVerdict
  | .clean => .clean
  | .wrongGranule => .uncorrectable
  | .errors n => if n = 0 then .clean else if n ≤ 3 then .corrected n else .uncorrectable

/-- What SEC-DED finds on a word of on-package SRAM that is read (Table 5-1, R229): `kind` 0 for a core store, 1 for a quarter
store and 2 for the accumulator file. A one-bit error is corrected and recorded; with a two-bit error the requester fails. -/
def State.sramEcc (s : State) (src index kind addr : Nat) (ecc : EccFinding) (ctx : Option Nat) (run lost : State → State) :
    State :=
  match EccFinding.sram ecc with
  | .clean => run s
  | .corrected _ => run (s.note evEccCorr 1 src index [kind, addr] ctx)
  | .uncorrectable => lost (s.record evEccFatal 2 src index [kind, addr] ctx)

/-- The same for a thread's read; the thread faults with `OPERAND_PARITY` (R229). -/
def State.threadEcc (s : State) (c t kind addr : Nat) (ecc : EccFinding) (run : State → State) : State :=
  s.sramEcc 1 c kind addr ecc (some (s.thread c t).ctx) run fun s => s.faultHere c t fcOPERAND_PARITY

/-- A load of a thread from a place of this module that needs no region check (its own core store, its quarter store). -/
def State.storeLoad (s : State) (c t : Nat) (dest : SbDest) (reqs : List (Nat × Nat × Nat)) : State :=
  let x := s.threadSource c t
  let (s, tag) := s.allocEntry c t .load dest [] reqs.length
  (reqs.foldl (fun (s : State) r =>
    let (s, g) := s.localAccess x (.read r.2.2) r.2.1 (.load c tag r.1 0 r.2.2 none)
    s.gotPart c tag r.1 0 r.2.2 g) s).next c t

/-- Stores of a thread to such places: part offsets are already added. -/
def State.storeStore (s : State) (c t : Nat) (reqs : List (Nat × List (BitVec 8))) : State :=
  let x := s.threadSource c t
  (reqs.foldl (fun (s : State) r => (s.localAccess x (.write r.2) r.1 .store).1) s).next c t

/-- CORE_STORE_LOAD: a load from the thread's own core store. -/
def execCoreStoreLoad (core thread : Nat) (acc : AccessForm) (ecc : EccFinding) (s : State)
    (parity : ParityFinding := .none) : Result :=
  .next <| s.issue core thread ⟨AccessForm.regs acc, true, false, true⟩ fun s => s.withParity core thread parity fun s =>
    let th := s.thread core thread
    let a := th.addr acc.ra acc.disp
    if !(AccessForm.aligned acc a) then s.threadFault core thread fcMISALIGNED a
    else if 0x600000 < a + AccessForm.bytes acc then s.threadFault core thread fcCS_RANGE a
    else s.threadEcc core thread 0 a ecc fun s =>
      s.storeLoad core thread (th.loadDest acc) [(0, coreStoreBase core + a, AccessForm.bytes acc)]

/-- CORE_STORE_STORE: a store to the thread's own core store, held when it meets a retained span. -/
def execCoreStoreStore (core thread : Nat) (acc : AccessForm) (s : State) (parity : ParityFinding := .none) : Result :=
  .next <| s.issue core thread ⟨AccessForm.regs acc, false, false, true⟩ fun s => s.withParity core thread parity fun s =>
    let th := s.thread core thread
    let a := th.addr acc.ra acc.disp
    if !(AccessForm.aligned acc a) then s.threadFault core thread fcMISALIGNED a
    else if 0x600000 < a + AccessForm.bytes acc then s.threadFault core thread fcCS_RANGE a
    else s.storeStore core thread ((th.storeParts acc).map fun (o, bs) => (coreStoreBase core + a + o, bs))

/-- A quarter-local range lies in the context's share (R168). -/
def State.inShare (s : State) (slot a n : Nat) : Bool :=
  let x := s.ctx slot
  decide (x.qsFirst * 2 ^ 20 ≤ a) && decide (a + n ≤ (x.qsFirst + x.qsMib) * 2 ^ 20) && decide (a + n ≤ 0x5000000)

/-- QUARTER_STORE_ACCESS: a load or store inside the context's share of the quarter's own store. -/
def execQuarterStoreAccess (core thread : Nat) (isStore : Bool) (acc : AccessForm) (ecc : EccFinding) (s : State)
    (parity : ParityFinding := .none) : Result :=
  .next <| s.issue core thread ⟨AccessForm.regs acc, !isStore, false, true⟩ fun s => s.withParity core thread parity fun s =>
    let th := s.thread core thread
    let a := th.addr acc.ra acc.disp
    let base := quarterStoreBase (coreQuarter core) + a
    if !(AccessForm.aligned acc a) then s.threadFault core thread fcMISALIGNED a
    else if !s.inShare th.cmd.slot a (AccessForm.bytes acc) then s.threadFault core thread fcQS_RANGE a
    else if isStore then s.storeStore core thread ((th.storeParts acc).map fun (o, bs) => (base + o, bs))
    else s.threadEcc core thread 1 a ecc fun s => s.storeLoad core thread (th.loadDest acc) [(0, base, AccessForm.bytes acc)]

/-! ### Global loads and stores -/

/-- A global address names this module (R274). -/
def State.isLocalAddr (s : State) (ga : Nat) : Bool := !bitOf ga 63 && (bitOf ga 58 || bitsOf ga 56 42 == s.node)

/-- The address by which the read cache knows a line: without `BYPASS`, this module's own in one form, apart from every other
module's. -/
def State.lineAddr (s : State) (ga : Nat) : Nat :=
  if s.isLocalAddr ga then 2 ^ 57 + bitsOf ga 41 0 else bitsOf ga 56 0

/-- A load that may be served by the read cache (R170). -/
def State.cacheable (s : State) (c ga : Nat) (bypass : Bool) : Bool :=
  s.flag F.CORE_CFG.RC_EN c && !bypass && !bitOf ga 57 && !bitOf ga 63 && bitsOf ga 62 59 == 0 &&
    !(bitOf ga 58 && bitsOf ga 56 42 != 0) &&
    (match placeOf (bitsOf ga 41 0) with
      | .dram | .mirrorArea | .dump | .overflow => true
      | _ => false)

/-- The bytes of a range held in the read cache, where every line is there. -/
def Core.cached (k : Core) (a n : Nat) : Option (List (BitVec 8)) :=
  let first := a / 128
  let lines := (List.range ((a + n - 1) / 128 + 1 - first)).map fun i => kfind k.rcache (first + i)
  if lines.all Option.isSome then some (((lines.flatMap fun l => l.getD []).drop (a % 128)).take n) else none

/-- What inline ECC finds on the granule of an access to this module's LPDDR6 (R282): a corrected error, or an
uncorrectable one that poisons the granule. -/
def State.eccFound (s : State) (off : Nat) (ecc : EccFinding) (ctx : Option Nat) : State :=
  if !(placeOf off).isDram then s
  else match EccFinding.dram ecc with
    | .clean => s
    | .corrected n => (s.bump F.MEM_ECC_CNT_CORR.COUNT).note evMemEccCorr 1 4 (deviceOf off) [deviceOf off, deviceAddr off, n] ctx
    | .uncorrectable =>
      if (kfind s.ms.poison (off / 64)).isSome then s
      else ({ s with ms.poison := kset s.ms.poison (off / 64) () }).bump F.MEM_ECC_CNT_UNCORR.COUNT

/-- Where an access to the overflow window goes while its page is resident (R311), else its own offset. -/
def State.framed (s : State) (off : Nat) : Nat :=
  match placeOf off, kfind s.ms.regions (s.rd F.MEM_OVF_CFG.REGION) with
  | .overflow, some r =>
    let e := (s.ovfEntry ((off - r.base) / 2 ^ 21)).2
    if bitOf e 0 then bitsOf e 41 21 * 2 ^ 21 + off % 2 ^ 21 else off
  | _, _ => off

/-- What the checks of this module's memory find for a thread's access of `n` bytes at a global address, once its region lets it
through: SEC-DED in on-package SRAM, inline ECC in LPDDR6; findings at another module are that module's. -/
def State.homeEcc (s : State) (c t : Nat) (k : MemKind) (ga : Nat) (ecc : EccFinding) (run : State → State) : State :=
  let off := bitsOf ga 41 0
  if !s.isLocalAddr ga || (s.checkAccess (s.threadSource c t).job false false false k off).isSome then run s
  else match (placeOf off).sramKind with
    | some kind => s.threadEcc c t kind off ecc run
    | none => run (s.eccFound (s.framed off) ecc (some (s.thread c t).ctx))

/-- The record of a poisoned granule that a requester of this module meets (R282). -/
def State.poisonEvent (s : State) (off : Nat) (x : Source) : State :=
  s.record evMemEccUncorr 2 4 (deviceOf off) [deviceOf off, deviceAddr off, x.engine] (some x.ctx)

/-- A global access of a thread; a poisoned granule of this module is recorded as well. -/
def State.threadAccess (s : State) (x : Source) (k : MemKind) (ga : Nat) (dst : ReqDst) (fetch : Bool := false) :
    State × Got :=
  match s.tryAccess x k ga dst fetch with
  | (s, .failed cause) =>
    let s := if cause = gcPOISON ∧ s.isLocalAddr ga then s.poisonEvent (bitsOf ga 41 0) x else s
    (s.failSource x ga cause k.isAtom, .failed cause)
  | r => r

/-- The bytes of the lines around an access to this module's memory that may be installed: none of them poisoned. -/
def State.lineBytes (s : State) (off span : Nat) : Option (List (BitVec 8)) :=
  let loc := s.framed off
  if placeOf loc = .overflow ∨ s.poisoned loc span ∨ 2 ^ 21 < off % 2 ^ 21 + span then none else some (s.memRead loc span)

/-- One load request of an entry: from the read cache, from this module, or from another. -/
def State.loadPart (s : State) (x : Source) (tag part ga n : Nat) (bypass : Bool) : State :=
  let c := x.core
  if s.cacheable c ga bypass then
    let la := s.lineAddr ga
    match (s.core c).cached la n with
    | some bs => (s.bump F.CORE_PERF_RC_HIT.COUNT c).fillEntry c tag part bs
    | none =>
      let s := s.bump F.CORE_PERF_RC_MISS.COUNT c
      let first := la / 128 * 128
      let span := ((la + n - 1) / 128 + 1) * 128 - first
      let at_ := bitsOf ga 41 0 - la % 128
      if s.isLocalAddr ga && placeOf (s.framed at_) != .overflow then
        let (s, g) := s.threadAccess x (.read n) ga (.load c tag part 0 n none)
        match g with
        | .data _ =>
          let s := s.gotPart c tag part 0 n g
          match s.lineBytes at_ span with
          | some bs => s.installLines c first bs
          | none => s
        | _ => s
      else
        let (s, g) := s.threadAccess x (.read span) (ga - la % 128) (.load c tag part (la - first) n (some first))
        s.gotPart c tag part (la - first) n g
  else
    let (s, g) := s.threadAccess x (.read n) ga (.load c tag part 0 n none)
    s.gotPart c tag part 0 n g

/-- The module and local offset that a global address leads to, a resident or remote overflow page followed; 2^20 is the host. -/
def State.whereTo (s : State) (ga : Nat) : Nat × Nat :=
  if bitOf ga 63 then (2 ^ 20, bitsOf ga 51 0)
  else if s.isLocalAddr ga then (s.node, s.framed (bitsOf ga 41 0))
  else (bitsOf ga 56 42, bitsOf ga 41 0)

/-- The module that an outstanding request waits on. -/
def State.reqNode (s : State) (r : OutReq) : Nat :=
  match r.loc with
  | .node n => n
  | .host => 2 ^ 20
  | _ => s.node

/-- A load meets an earlier store of its own thread that has not been performed (Table 3-7). -/
def State.ownStoreMeets (s : State) (x : Source) (ga n : Nat) : Bool :=
  let (node, off) := s.whereTo ga
  s.ms.reqs.any fun r => r.2.src.engine == 5 && r.2.src.core == x.core && r.2.src.thread == x.thread && r.2.kind.writes &&
    s.reqNode r.2 == node && overlap r.2.addr r.2.kind.size off n

/-- A load part of a thread: behind what its queue holds, after its own stores to the same bytes, or now (Table 3-7). -/
def State.askLoad (s : State) (x : Source) (tag part ga n : Nat) (bypass : Bool) : State :=
  if s.behind x || s.ownStoreMeets x ga n then s.hold x.core (some x.thread) x (.load tag part ga n bypass)
  else s.loadPart x tag part ga n bypass

/-- The lines of the read cache that a range meets are given up, and fills of them in flight are not installed (R172, R173). -/
def State.dropLines (s : State) (c ga n : Nat) : State :=
  if bitOf ga 63 then s
  else
    let la := s.lineAddr ga
    let k := s.core c
    let s := s.setCore c { k with rcache := k.rcache.filter fun l => !overlap la n (l.1 * 128) 128 }
    { s with ms.reqs := s.ms.reqs.map fun (t, r) => (t, match r.dst with
        | .load c' tag p sk m (some first) =>
          if c' = c ∧ overlap la n first r.kind.size then { r with dst := .load c' tag p sk m none } else r
        | _ => r) }

/-- GLOBAL_LOAD: a load of 1, 2, 4, 8 or 256 bytes by global address; `ecc` is what its home's ECC finds when this module's
memory is read for it. -/
def execGlobalLoad (core thread : Nat) (acc : AccessForm) (ecc : EccFinding) (s : State)
    (parity : ParityFinding := .none) : Result :=
  .next <| s.issue core thread ⟨AccessForm.regs acc, true, false, true⟩ fun s => s.withParity core thread parity fun s =>
    let th := s.thread core thread
    let a := th.addr acc.ra acc.disp
    let n := AccessForm.bytes acc
    if !(AccessForm.aligned acc a) then s.threadFault core thread fcMISALIGNED a
    else
      let inCache (s : State) : Bool := s.cacheable core a acc.bypass && ((s.core core).cached (s.lineAddr a) n).isSome
      let s := s.cacheParity core thread parity (inCache s) fun s => s.dropLines core a n
      let run (s : State) : State :=
        let (s', tag) := s.allocEntry core thread .load (th.loadDest acc) [] 1
        (s'.askLoad (s.threadSource core thread) tag 0 a n acc.bypass).next core thread
      if inCache s then run s else s.homeEcc core thread (.read n) a ecc run

/-- Write parts, each at its global address: behind what the thread's queue holds, or now; a store invalidates the lines it meets
before it leaves the core (R172). -/
def State.storeGlobal (s : State) (x : Source) (parts : List (Nat × List (BitVec 8))) : State :=
  parts.foldl (fun (s : State) (a, bs) =>
    if s.behind x then s.hold x.core (some x.thread) x (.store a bs)
    else ((s.dropLines x.core a bs.length).threadAccess x (.write bs) a .store).1) s

/-- GLOBAL_STORE: a store by global address; `ecc` is what the check of a granule that it covers in part finds. -/
def execGlobalStore (core thread : Nat) (acc : AccessForm) (s : State) (ecc : EccFinding := .clean)
    (parity : ParityFinding := .none) : Result :=
  .next <| s.issue core thread ⟨AccessForm.regs acc, false, false, true⟩ fun s => s.withParity core thread parity fun s =>
    let th := s.thread core thread
    let a := th.addr acc.ra acc.disp
    if !(AccessForm.aligned acc a) then s.threadFault core thread fcMISALIGNED a
    else s.homeEcc core thread (.write (List.replicate (AccessForm.bytes acc) 0)) a ecc fun s =>
      (s.storeGlobal (s.threadSource core thread) ((th.storeParts acc).map fun (o, bs) => (a + o, bs))).next core thread

/-- The lanes of a gather or scatter with their addresses: scalar base plus the lane's 32-bit offset (R165). -/
def Thread.laneAddrs (th : Thread) (base ra pr : Nat) : List (Nat × Nat) :=
  (th.lanesOn pr).map fun l => (l, ((th.sreg base).toNat + (th.vreg ra l).toNat) % 2 ^ 64)

/-- The first lane whose address a space does not take, with the fault code. -/
def State.laneFault (s : State) (slot : Nat) (sp : MemSpace) (ls : List (Nat × Nat)) : Option (Nat × Nat) :=
  ls.findSome? fun (_, a) =>
    if a % 4 ≠ 0 then some (fcMISALIGNED, a)
    else match sp with
      | .core => if 0x600000 < a + 4 then some (fcCS_RANGE, a) else none
      | .quarter => if s.inShare slot a 4 then none else some (fcQS_RANGE, a)
      | .global => none

/-- The local offset of a core-local or quarter-local address. -/
def spaceBase (c : Nat) (sp : MemSpace) : Nat :=
  match sp with
  | .core => coreStoreBase c
  | .quarter => quarterStoreBase (coreQuarter c)
  | .global => 0

/-- The requests of a global gather, one for each lane. -/
def State.loadLanes (s : State) (x : Source) (tag : Nat) (ls : List (Nat × Nat)) : State :=
  ls.foldl (fun (s : State) (l, a) => s.askLoad x tag (4 * l) a 4 false) s

/-- The findings of the lanes' accesses, in lane order; an uncorrectable one of on-package SRAM ends the instruction. -/
def State.laneEcc (s : State) (c t : Nat) (sp : MemSpace) (k : MemKind) (ls : List (Nat × Nat)) (run : State → State) :
    List (Nat × EccFinding) → State
  | [] => run s
  | (l, e) :: es =>
    let rest (s : State) : State := s.laneEcc c t sp k ls run es
    match ls.find? fun x => x.1 == l with
    | none => rest s
    | some x => match sp with
      | .core => s.threadEcc c t 0 x.2 e rest
      | .quarter => s.threadEcc c t 1 x.2 e rest
      | .global => s.homeEcc c t k x.2 e rest

/-- GATHER: one 4-byte load per lane that is on; `ecc` is what the checks find for some of them. -/
def execGather (core thread : Nat) (sp : MemSpace) (rd ra base pr : Nat) (s : State) (ecc : List (Nat × EccFinding) := [])
    (parity : ParityFinding := .none) : Result :=
  .next <| s.issue core thread ⟨[.v (rd % 16), .v (ra % 16), .s (base % 32)], true, false, true⟩ fun s =>
    s.withParity core thread parity fun s =>
    let th := s.thread core thread
    let ls := th.laneAddrs base ra pr
    match s.laneFault th.cmd.slot sp ls with
    | some (f, a) => s.threadFault core thread f a
    | none =>
      let hits (s : State) : List (Nat × Nat) := ls.filter fun x =>
        sp == .global && s.cacheable core x.2 false && ((s.core core).cached (s.lineAddr x.2) 4).isSome
      let s := s.cacheParity core thread parity (!(hits s).isEmpty) fun s =>
        (hits s).foldl (fun (s : State) x => s.dropLines core x.2 4) s
      let dest : SbDest := .vector (rd % 16) (th.lanesOn pr)
      s.laneEcc core thread sp (.read 4) (ls.filter fun x => !(hits s).contains x) (fun s => match sp with
        | .global =>
          let (s', tag) := s.allocEntry core thread .load dest [] ls.length
          (s'.loadLanes (s.threadSource core thread) tag ls).next core thread
        | _ => s.storeLoad core thread dest (ls.map fun (l, a) => (4 * l, spaceBase core sp + a, 4))) ecc

/-- SCATTER: one 4-byte store per lane that is on; `ecc` is what the checks of granules covered in part find. -/
def execScatter (core thread : Nat) (sp : MemSpace) (rs ra base pr : Nat) (s : State) (ecc : List (Nat × EccFinding) := [])
    (parity : ParityFinding := .none) : Result :=
  .next <| s.issue core thread ⟨[.v (rs % 16), .v (ra % 16), .s (base % 32)], false, false, true⟩ fun s =>
    s.withParity core thread parity fun s =>
    let th := s.thread core thread
    let ls := th.laneAddrs base ra pr
    match s.laneFault th.cmd.slot sp ls with
    | some (f, a) => s.threadFault core thread f a
    | none =>
      let bytes (l : Nat) := leBytes 4 (th.vreg rs l).toNat
      s.laneEcc core thread sp (.write (bytes 0)) ls (fun s => match sp with
        | .global => (s.storeGlobal (s.threadSource core thread) (ls.map fun (l, a) => (a, bytes l))).next core thread
        | _ => s.storeStore core thread (ls.map fun (l, a) => (spaceBase core sp + a, bytes l))) ecc

/-! ### Atomics (R169, R294) -/

/-- An access of `n` bytes at offset `a` lies inside a core store of 6 MiB. -/
def inCoreStore (a n : Nat) : Bool := decide (a + n ≤ 0x600000)

/-- An atomic `k` of `n` bytes at a place of this module's SRAM; with `FETCH` the old value comes back. -/
def State.atomicLocal (s : State) (c t : Nat) (acc : AtomicForm) (k : MemKind) (n home : Nat) : State :=
  let x := s.threadSource c t
  let (s, tag) := s.allocEntry c t .load (if acc.fetch then .scalar (acc.rd % 32) else .none) [] 1
  let len := if acc.fetch then n else 0
  let (s, g) := s.localAccess x k home (.load c tag 0 0 len none)
  (s.gotPart c tag 0 0 len g).next c t

/-- An atomic's request at a global address, behind what the thread's queue holds or now. -/
def State.askAtom (s : State) (x : Source) (tag a len : Nat) (k : MemKind) (fetch : Bool) : State :=
  if s.behind x then s.hold x.core (some x.thread) x (.atom tag a len k fetch)
  else
    let (s, g) := (s.dropLines x.core a k.size).threadAccess x k a (.load x.core tag 0 0 len none) fetch
    s.gotPart x.core tag 0 0 len g

/-- An atomic at a global address. -/
def State.atomicGlobal (s : State) (c t : Nat) (acc : AtomicForm) (k : MemKind) (n a : Nat) : State :=
  let x := s.threadSource c t
  let (s, tag) := s.allocEntry c t .load (if acc.fetch then .scalar (acc.rd % 32) else .none) [] 1
  (s.askAtom x tag a (if acc.fetch then n else 0) k acc.fetch).next c t

/-- An atomic of a thread at its core store, quarter store or a global address. -/
def State.atomic (s : State) (c t : Nat) (op : AtomOp) (acc : AtomicForm) (ecc : EccFinding) (parity : ParityFinding) : State :=
  s.issue c t ⟨[.s (acc.ra % 32), .s (acc.rv % 32), .s (acc.rc % 32)] ++ (if acc.fetch then [.s (acc.rd % 32)] else []),
      true, false, true⟩ fun s => s.withParity c t parity fun s =>
    let th := s.thread c t
    let a := th.addr acc.ra acc.disp
    let n := if op = .fadd32 then 4 else 8
    let k : MemKind := .atom op (th.sreg acc.rv) (th.sreg acc.rc)
    if a % n ≠ 0 then s.threadFault c t fcMISALIGNED a
    else match acc.sp with
      | .core =>
        if inCoreStore a n then s.threadEcc c t 0 a ecc fun s => s.atomicLocal c t acc k n (coreStoreBase c + a)
        else s.threadFault c t fcCS_RANGE a
      | .quarter =>
        if s.inShare th.cmd.slot a n then s.threadEcc c t 1 a ecc fun s => s.atomicLocal c t acc k n (quarterStoreBase (coreQuarter c) + a)
        else s.threadFault c t fcQS_RANGE a
      | .global => s.homeEcc c t k a ecc fun s => s.atomicGlobal c t acc k n a

def execAdd64 (core thread : Nat) (acc : AtomicForm) (s : State) (ecc : EccFinding := .clean)
    (parity : ParityFinding := .none) : Result :=
  .next (s.atomic core thread .add64 acc ecc parity)
def execCas64 (core thread : Nat) (acc : AtomicForm) (s : State) (ecc : EccFinding := .clean)
    (parity : ParityFinding := .none) : Result :=
  .next (s.atomic core thread .cas64 acc ecc parity)
def execMin64 (core thread : Nat) (acc : AtomicForm) (s : State) (ecc : EccFinding := .clean)
    (parity : ParityFinding := .none) : Result :=
  .next (s.atomic core thread .min64 acc ecc parity)
def execMax64 (core thread : Nat) (acc : AtomicForm) (s : State) (ecc : EccFinding := .clean)
    (parity : ParityFinding := .none) : Result :=
  .next (s.atomic core thread .max64 acc ecc parity)
def execFadd32 (core thread : Nat) (acc : AtomicForm) (s : State) (ecc : EccFinding := .clean)
    (parity : ParityFinding := .none) : Result :=
  .next (s.atomic core thread .fadd32 acc ecc parity)

/-! ### The memory queue (Table 3-7) -/

/-- A queued request may go: nothing of its thread is queued before it, or nothing of its source that touches its bytes; no retained
span meets what it writes; no store of its thread to the bytes it loads is still to be performed. -/
def State.mayGo (s : State) (c : Nat) (h : HeldReq) : Bool :=
  let kr := s.core c
  let first := match h.thread with
    | some t => !kr.memq.any fun g => g.thread == some t
    | none => !kr.memq.any fun g => g.src.same h.src && (match h.work with
      | .here m => g.work.meets m.addr m.kind.size
      | _ => false)
  first && (match h.work with
    | .here m => !(placeOf m.addr == .core c && m.kind.writes &&
        kr.retain.any fun sp => overlap (m.addr - coreStoreBase c) m.kind.size sp.addr sp.len)
    | .load _ _ a n _ => !s.ownStoreMeets h.src a n
    | .store _ _ | .atom _ _ _ _ _ => true)

/-- A queued request goes. -/
def State.runHeld (s : State) (x : Source) (w : HeldWork) : State :=
  match w with
  | .here m => s.performReq m
  | .load tag part a n bypass => s.loadPart x tag part a n bypass
  | .store a bs => s.storeGlobal x [(a, bs)]
  | .atom tag a len k fetch => s.askAtom x tag a len k fetch

/-- A request of a thread that has halted or faulted meanwhile is discarded (R177). -/
def State.heldGone (s : State) (c : Nat) (h : HeldReq) : Bool :=
  match h.thread with
  | some t => (s.thread c t).st == .halted || (s.thread c t).st == .faulted
  | none => false

/-- The requests in a core's memory queue that nothing holds back any more are performed, in their order. -/
def State.drainHeld (s : State) (c : Nat) : State :=
  ((s.core c).memq.foldl (fun (s : State) h =>
    if s.heldGone c h then s
    else if s.mayGo c h then s.runHeld h.src h.work
    else s.hold c h.thread h.src h.work) (s.setCore c { s.core c with memq := [] })).settle c

/-- An answer goes to its request; a load that waited for it as its thread's own store goes on (Table 3-7). -/
def State.answerReq (s : State) (tag : Nat) (bs : List (BitVec 8)) : State :=
  match kfind s.ms.reqs tag with
  | none => s
  | some r => if r.src.engine = 5 then (s.deliver tag bs).drainHeld r.src.core else s.deliver tag bs

/-! ### Matrix class: issue -/

/-- A matrix instruction enters the matrix queue. -/
def State.pushMatrix (s : State) (c t : Nat) (op : MatOp) (kind : SbKind) (src : Nat) : State × Nat :=
  let th := s.thread c t
  let (s, tag) := s.allocEntry c t kind .none [] 1
  let k := s.core c
  (s.setCore c { k with mq := k.mq ++ [⟨op, t, tag, src, th.pc, th.rng, th.ctx, th.cmd, false⟩] }, tag)

/-- The shape of an operand pair and of the panels that a bank takes (R146, R147, R151, R196, R220). -/
def MloadSpec.shapeOk (m : MloadSpec) : Bool :=
  match pairKmax m.fmtA m.fmtB with
  | none => false
  | some km => (m.m == 128 || m.m == 256) && (m.n == 64 || m.n == 128 || m.n == 192 || m.n == 256) &&
      m.k % 32 == 0 && decide (32 ≤ m.k) && decide (m.k ≤ km) && !(isMx m.fmtA && m.aTrans) && !(isMx m.fmtB && m.bTrans)

/-- A span lies in the core store. -/
def Span.inStore (sp : Span) : Bool := decide (sp.addr + sp.len ≤ 0x600000)

/-- MLOAD: queues the fill of a bank; its spans enter the retention table (R155). Of several rules broken at once the fault is that of
the shape, then of the source, then of the stride (DESIGN CHOICE, notes/assumptions/98.md); a base address needs no alignment
(notes/assumptions/99.md). -/
def execMload (core thread : Nat) (spec : MloadSpec) (ecc : EccFinding) (s : State) : Result :=
  .next <| s.issue core thread ⟨[], true, true, false⟩ fun s =>
    let bad := (MloadSpec.spans spec 0).find? fun sp => !sp.inStore
    if !(MloadSpec.shapeOk spec) || decide (2 ≤ spec.bank) then s.faultHere core thread fcMATRIX_SHAPE
    else if spec.aGlobal ∨ bad.isSome then
      s.threadFault core thread fcMLOAD_SOURCE (if spec.aGlobal then spec.aBase else (bad.map Span.addr).getD 0)
    else if spec.aStride % 4 ≠ 0 then s.threadFault core thread fcMISALIGNED spec.aStride
    else if spec.bStride % 4 ≠ 0 then s.threadFault core thread fcMISALIGNED spec.bStride
    else s.threadEcc core thread 0 spec.aBase ecc fun s =>
      let s := (s.pushMatrix core thread (.mload spec) .mload 0).1
      (s.setCore core (s.core core).enterSpans).next core thread

/-- The `MLOAD` that an `MMA` of bank `b` issued now will read: the last one queued, else the one that filled the
bank; its tag and operands. -/
def Core.loadFor (k : Core) (b : Nat) : Option (Nat × MloadSpec) :=
  match (k.mq.filter fun e => e.op.isMload && e.op.bank == some b).getLast? with
  | some e => match e.op with
    | .mload m => some (e.tag, m)
    | _ => none
  | none => (k.bank b).spec.map fun m => ((k.bank b).tag, m)

/-- The legal values of R147; the bank depth is that of the pair loaded. -/
def MmaSpec.shapeOk (m : MmaSpec) (ld : Option MloadSpec) : Bool :=
  let km := match ld with
    | some l => (pairKmax l.fmtA l.fmtB).getD 512
    | none => 512
  decide (m.bank < 2) && (m.m == 128 || m.m == 256) && (m.n == 64 || m.n == 128 || m.n == 192 || m.n == 256) &&
    m.k % 32 == 0 && decide (32 ≤ m.k) && decide (m.k ≤ km) && (m.m0 == 0 || m.m0 == 128) &&
    (m.n0 == 0 || m.n0 == 64 || m.n0 == 128 || m.n0 == 192) && decide (m.m0 + m.m ≤ 256) && decide (m.n0 + m.n ≤ 256)

/-- MMA: queues one tile. -/
def execMma (core thread : Nat) (spec : MmaSpec) (s : State) : Result :=
  .next <| s.issue core thread ⟨[], true, true, false⟩ fun s =>
    let ld := (s.core core).loadFor spec.bank
    if !(MmaSpec.shapeOk spec (ld.map Prod.snd)) then s.faultHere core thread fcMATRIX_SHAPE
    else (s.pushMatrix core thread (.mma spec) .mma ((ld.map Prod.fst).getD 0)).1.next core thread

/-- The block of an `MSTORE` lies in the accumulator file, and its target code is one Table 4-9 lists for some
accumulator. -/
def MstoreSpec.shapeOk (m : MstoreSpec) : Bool :=
  decide (0 < m.m) && decide (0 < m.n) && decide (m.m0 + m.m ≤ 256) && decide (m.n0 + m.n ≤ 256) &&
    (decide (m.fmt ≤ 6) || m.fmt == 9) && (!isMx m.fmt || m.n % 32 == 0)

/-- MSTORE: queues the conversion and write of a block (a two-bit error of the accumulator file in the checkpoint is fatal to
the context, Table 5-1); with `RND` the generator moves on at issue (R217). -/
def execMstore (core thread : Nat) (spec : MstoreSpec) (ecc : EccFinding) (s : State)
    (parity : ParityFinding := .none) : Result :=
  .next <| s.issue core thread ⟨[], true, true, false⟩ fun s =>
    if ctrlReserved spec.ctrl then s.faultHere core thread fcILLEGAL_OP
    else if !(MstoreSpec.shapeOk spec) then s.faultHere core thread fcMATRIX_SHAPE
    else match (MstoreSpec.ranges spec).find? fun r => decide (0x600000 < r.1 + r.2) with
      | some r => s.threadFault core thread fcCS_RANGE r.1
      | none => s.withParity core thread parity fun s =>
        s.sramEcc 1 core 2 (spec.m0 * 256 + spec.n0) ecc (some (s.thread core thread).ctx) (fun s =>
        let s := (s.pushMatrix core thread (.mstore spec) .mstore 0).1
        let s := if ctrlRnd spec.ctrl then
            let th := s.thread core thread
            s.setThread core thread { th with rng := srSteps (64 * ((spec.m * spec.n + 63) / 64)) th.rng }
          else s
        s.next core thread) fun s => s

/-! ### Synchronisation and control -/

/-- BAR: an arrival at a core barrier; the *n*th releases every waiting thread (R130). -/
def execBar (core thread b n : Nat) (s : State) : Result :=
  .next <| s.issue core thread ⟨[], false, false, false⟩ fun s =>
    let k := s.core core
    let b := b % 8
    match kfind k.bars b with
    | some r =>
      if r.n ≠ n then s.threadFault core thread fcBARRIER_MISMATCH b
      else if n ≤ r.arrived.length + 1 then
        let s := s.next core thread
        let k := s.core core
        s.setCore core { k with
          bars := kdel k.bars b
          threads := k.threads.map fun (t, th) =>
            if th.st = .waitSync ∧ th.wait = some (.bar b) then (t, { th with st := .ready, wait := none }) else (t, th) }
      else
        let s := (s.next core thread).stall core thread .waitSync (.bar b)
        let k := s.core core
        s.setCore core { k with bars := kset k.bars b ⟨n, r.arrived ++ [thread]⟩ }
    | none =>
      if n ≤ 1 then s.next core thread
      else
        let s := (s.next core thread).stall core thread .waitSync (.bar b)
        let k := s.core core
        s.setCore core { k with bars := kset k.bars b ⟨n, [thread]⟩ }

/-- EWAIT: the thread waits until the event is at least the register, unsigned (R369). -/
def execEwait (core thread e rs : Nat) (s : State) (parity : ParityFinding := .none) : Result :=
  .next <| s.issue core thread ⟨[.s (rs % 32)], false, false, false⟩ fun s => s.withParity core thread parity fun s =>
    let th := s.thread core thread
    let v := th.sreg rs
    let s := s.next core thread
    if v.toNat ≤ (s.event th.cmd.slot (e % 64)).toNat then s
    else s.stall core thread .waitSync (.event (e % 64) v)

/-- ESIGNAL: updates an event of the thread's context when it issues (R368). -/
def execEsignal (core thread e : Nat) (isAdd : Bool) (rs : Nat) (s : State) (parity : ParityFinding := .none) : Result :=
  .next <| s.issue core thread ⟨[.s (rs % 32)], false, false, false⟩ fun s => s.withParity core thread parity fun s =>
    let th := s.thread core thread
    (s.next core thread).updateEvent th.cmd.slot (e % 64) isAdd (th.sreg rs)

/-- FENCE.ACQ: waits for earlier loads, then invalidates the read cache (R173, R301). -/
def execFenceAcq (core thread : Nat) (s : State) : Result :=
  .next <| s.issue core thread ⟨[], false, false, false⟩ fun s =>
    ((s.next core thread).stall core thread .waitSync .acq).settle core

/-- FENCE.REL: waits until every earlier store and atomic of the thread has been performed (R300). -/
def execFenceRel (core thread : Nat) (s : State) : Result :=
  .next <| s.issue core thread ⟨[], false, false, false⟩ fun s =>
    ((s.next core thread).stall core thread .waitSync .rel).settle core

/-- YIELD: the thread is not chosen for 16 cycles (R138). -/
def execYield (core thread : Nat) (s : State) : Result :=
  .next <| s.issue core thread ⟨[], false, false, false⟩ fun s =>
    s.retireInstr core thread fun th => { th with hold := true }

/-- YIELD_HOLD_EXPIRES: the thread may be chosen again. -/
def execYieldHoldExpires (core thread : Nat) (s : State) : Result :=
  .next <| s.setThread core thread { s.thread core thread with hold := false }

/-- EXIT: frees the slot, at once or when the thread's last entry is released (Table 3-3). -/
def execExit (core thread : Nat) (s : State) : Result :=
  .next <| s.issue core thread ⟨[], false, false, false⟩ fun s =>
    (s.stall core thread .waitDep .exit).settle core

/-! ### Results (R141) -/

/-- The `n` bytes at place `o` of an entry's parts; bytes that no part gives read 0. -/
def partsAt (parts : List (Nat × List (BitVec 8))) (o n : Nat) : List (BitVec 8) :=
  match parts.find? fun p => decide (p.1 ≤ o) && decide (o + n ≤ p.1 + p.2.length) with
  | some p => (p.2.drop (o - p.1)).take n
  | none => []

/-- Write an entry's result to its destination registers. -/
def SbEntry.write (e : SbEntry) (th : Thread) : Thread :=
  match e.dest with
  | .scalar r => th.setS r (BitVec.ofNat 64 (leNat ((kfind e.parts 0).getD [])))
  | .vector r lanes => lanes.foldl (fun (x : Thread) l => x.setV r l (BitVec.ofNat 32 (leNat (partsAt e.parts (4 * l) 4)))) th
  | .none => th

/-- LOAD_RESULT_WRITTEN: the result of a load, gather, atomic or special function is in its register; its entry is
released, and threads that waited for it go on. -/
def execLoadResultWritten (core thread tag : Nat) (s : State) : Result :=
  .next <| match (s.core core).sb.find? fun e => e.tag == tag && e.thread == thread with
    | none => s
    | some e =>
      if e.await = 0 ∧ (e.kind = .load ∨ e.kind = .sfu) then
        (s.setThread core thread (e.write (s.thread core thread))).releaseEntry core tag
      else s

end Sys2Proof.Machine
end

