-- ==== Sys2Proof/Machine/Checking.lean ====
section
/-! DEFINITION. The matrix unit's work and its checking (spec/03_cores_and_threads.md, 05_result_checking.md): bank
fills, stores, tiles with their checksums, replay, arbitration, self-tests, histories and retirement. -/

namespace Sys2Proof.Machine

open Sys2Proof

/-! ### Operand banks (R151, R194 to R196) -/

/-- The element codes of one panel, line by line along *K*. -/
def State.panelCodes (s : State) (base fmt addr stride lines k : Nat) (trans : Bool) : List (List Nat) :=
  let w := fmtBits fmt
  let row (i n : Nat) : List Nat :=
    unpackBits w n (leNat (s.memRead (base + addr + i * stride) ((n * w + 7) / 8)))
  if trans then
    let rows := (List.range k).map fun i => row i lines
    (List.range lines).map fun l => rows.map fun r => r.getD l 0
  else (List.range lines).map fun l => row l k

/-- The block scales of an MX panel (R195). -/
def State.panelScales (s : State) (base fmt addr lines k : Nat) : List (List Nat) :=
  if isMx fmt then (List.range lines).map fun l =>
    (s.memRead (base + addr + l * (k / 32)) (k / 32)).map BitVec.toNat
  else []

/-- The bank that an `MLOAD` of core `c` fills, as the core store stands. -/
def State.readBank (s : State) (c : Nat) (m : MloadSpec) (tag : Nat) : Bank :=
  let base := coreStoreBase c
  { filled := true
    stale := false
    tag := tag
    spec := some m
    a := ⟨m.fmtA, s.panelCodes base m.fmtA m.aBase m.aStride m.m m.k m.aTrans, s.panelScales base m.fmtA m.aScale m.m m.k⟩
    b := ⟨m.fmtB, s.panelCodes base m.fmtB m.bBase m.bStride m.n m.k m.bTrans, s.panelScales base m.fmtB m.bScale m.n m.k⟩ }

/-- The staged `CHK_CFG` comes into force (R20). -/
def State.chkApply (s : State) : State :=
  ({ s with chk.qMin := s.rd F.CHK_CFG.Q_MIN, chk.arbWait := s.rd F.CHK_CFG.ARB_WAIT, chk.commit := [] }).wr F.CHK_CFG.COMMIT 0

/-- A tile boundary of core `c`: a commit of `CHK_CFG` waits for one boundary of every core that had a tile (R272). -/
def State.tileBoundary (s : State) (c : Nat) : State :=
  if !s.chk.commit.contains c then s
  else
    let rest := s.chk.commit.filter fun x => x != c
    if rest.isEmpty then s.chkApply else { s with chk.commit := rest }

/-- A matrix entry leaves the queue: its scoreboard entry is released, spans that nothing needs any more are dropped,
and requests held against them are performed. -/
def State.popMatrix (s : State) (c tag : Nat) : State :=
  let k := s.core c
  let tile := k.mq.any fun e => e.tag == tag && e.op.isMma
  let k := { k with
    mq := k.mq.filter fun e => e.tag != tag
    sb := k.sb.filter fun e => e.tag != tag
    pausing := if k.pausing = some tag then none else k.pausing }
  (((s.setCore c k.dropSpans).drainHeld c).settle c).when tile fun s => s.tileBoundary c

/-- A core's matrix queue stands: a tile of its own is in replay or arbitration (R242), or it has paused for another core's
(R246). -/
def Core.stopped (k : Core) : Bool := k.tile.isSome || (k.arbFor.isSome && k.pausing.isNone)

/-- MLOAD_BANK_FILLED: the `MLOAD` under way has filled its bank (R141). -/
def execMloadBankFilled (core : Nat) (s : State) : Result :=
  .next <| if (s.core core).stopped then s
    else match firstFree MatOp.isMload [] (s.core core).mq with
    | some e => match e.op with
      | .mload m =>
        let s := s.setCore core ((s.core core).setBank m.bank (s.readBank core m e.tag))
        s.popMatrix core e.tag
      | _ => s
    | none => s

/-! ### The accumulator file (R150) -/

def Core.sub (k : Core) (i : Nat) : SubBlock := kget k.acc i SubBlock.init

/-- The checkpoint copy and the working copy. -/
def SubBlock.ckpt (b : SubBlock) : List (BitVec 32) := if b.ckptY then b.y else b.x
def SubBlock.work (b : SubBlock) : List (BitVec 32) := if b.ckptY then b.x else b.y

/-- The checkpoint holds INT32 values. -/
def SubBlock.ckptInt (b : SubBlock) : Bool := if b.ckptY then b.yInt else b.xInt

/-- Write the working copy, INT32 values or FP32. -/
def SubBlock.setWork (b : SubBlock) (int : Bool) (v : List (BitVec 32)) : SubBlock :=
  if b.ckptY then { b with x := v, xInt := int } else { b with y := v, yInt := int }

/-- The copies exchange roles. -/
def SubBlock.swap (b : SubBlock) : SubBlock := { b with ckptY := !b.ckptY }

/-- The checkpoint element at row `r`, column `c` of the accumulator file. -/
def Core.accAt (k : Core) (r c : Nat) : BitVec 32 := (k.sub (r / 128 * 4 + c / 64)).ckpt.getD (r % 128 * 64 + c % 64) 0

/-- The checkpoint element at row `r`, column `c` is an INT32 value. -/
def Core.accInt (k : Core) (r c : Nat) : Bool := (k.sub (r / 128 * 4 + c / 64)).ckptInt

/-! ### Tiles (R147, R198 to R204) -/

/-- Code `k` of line `l` of a panel; an element that no `MLOAD` gave is a free value (R126). -/
def Panel.code (p : Panel) (free l k : Nat) : Nat :=
  match p.codes[l]? with
  | some row => match row[k]? with
    | some c => c
    | none => (Config.byte free (l * 1024 + k)).toNat % 2 ^ fmtBits p.fmt
  | none => (Config.byte free (l * 1024 + k)).toNat % 2 ^ fmtBits p.fmt

/-- The scale exponent of element `k` of line `l` (32 elements to a block); `none` is NaN. A scale that no `MLOAD` gave is a
free value. -/
def Panel.exp (p : Panel) (free l k : Nat) : Option Int :=
  if isMx p.fmt then
    let c := (p.scales.getD l []).getD (k / 32) (Config.byte free (2 ^ 20 + l * 64 + k / 32)).toNat
    if c = 0xFF then none else some ((c : Int) - 127)
  else some 0

/-- The value of an element before scaling. -/
def Panel.val (p : Panel) (free l k : Nat) : Num := decodeFp p.fmt (p.code free l k)

/-- An integer element. -/
def Panel.int (p : Panel) (free l k : Nat) : Int :=
  if p.fmt = 7 then toSigned 8 (p.code free l k) else (p.code free l k : Int)

/-- One accumulator element of a tile (R199, R204). -/
def Bank.element (b : Bank) (free : Nat) (kk : Nat) (c0 : BitVec 32) (i j : Nat) : BitVec 32 :=
  if pairInt b.a.fmt then
    (List.range kk).foldl (fun acc k => intAdd acc (b.a.int free i k) (b.b.int free j k)) c0
  else
    let g := groupLen b.a.fmt b.b.fmt
    (List.range (kk / g)).foldl (fun acc n =>
      let ks := (List.range g).map fun x => n * g + x
      groupAdd acc (groupSum (ks.map (b.a.val free i)) (ks.map (b.b.val free j)))
        (b.a.exp free i (n * g)) (b.b.exp free j (n * g))) c0

/-- The starting value of an element: the checkpoint under `ACC`, 0 under `ZERO` (R148). -/
def MmaSpec.start (m : MmaSpec) (k : Core) (r c : Nat) : BitVec 32 := if m.zero then 0 else k.accAt r c

/-- The values of one pass: sub-block `sub`, row by row. Panel lines are counted from the tile's own corner. -/
def tilePass (k : Core) (b : Bank) (free : Nat) (m : MmaSpec) (sub : Nat) : List (BitVec 32) :=
  (List.range 128).flatMap fun i => (List.range 64).map fun j =>
    let r := sub / 4 * 128 + i
    let c := sub % 4 * 64 + j
    b.element free m.k (MmaSpec.start m k r c) (r - m.m0) (c - m.n0)

/-- The values of a tile, by sub-block, with the upsets that the array suffers. -/
def tileValues (k : Core) (b : Bank) (free : Nat) (m : MmaSpec) (ups : List TileUpset) : List (Nat × List (BitVec 32)) :=
  (MmaSpec.subs m).map fun sub =>
    (sub, ups.foldl (fun v u =>
      if u.row / 128 * 4 + u.col / 64 = sub then v.set (u.row % 128 * 64 + u.col % 64) u.bits else v)
      (tilePass k b free m sub))

/-! ### Checksums (R230 to R237) -/

/-- An exact value rounded once to FP32, to nearest or (for magnitudes) towards +∞. -/
def rnd32 (up : Bool) (v : Num) : Num :=
  decodeFp fFP32 (encodeFp (if up then .up else .nearest) false fFP32 v)

def sumN (vs : List Num) : Num := vs.foldl Num.add (.fin false 0 0)

/-- An element with its block scale, as the operand sums take it. -/
def Panel.scaled (p : Panel) (free l k : Nat) : Num :=
  match p.exp free l k with
  | some x => (p.val free l k).scale x
  | none => .nan

/-- The sum of a line group for element `k`, and its sum of magnitudes (R230). -/
def Panel.lineSum (p : Panel) (free from_ n k : Nat) : Num :=
  rnd32 false (sumN ((List.range n).map fun j => p.scaled free (from_ + j) k))
def Panel.lineAbs (p : Panel) (free from_ n k : Nat) : Num :=
  rnd32 true (sumN ((List.range n).map fun j => (p.scaled free (from_ + j) k).abs))

/-- One checksum: the group procedure with `x k` and the sums `y k`, from `start` (R231). -/
def sumLine (g kk : Nat) (x : Nat → Num) (xe : Nat → Option Int) (y : Nat → Num) (start : Num) : Num :=
  (List.range (kk / g)).foldl (fun acc n =>
    let p := sumN ((List.range g).map fun i => (x (n * g + i)).mul (y (n * g + i)))
    match xe (n * g) with
    | some e => rnd32 false (acc.add (p.scale e))
    | none => .nan) start

/-- The magnitude bound of a line (R231). -/
def absLine (g kk : Nat) (x : Nat → Num) (xe : Nat → Option Int) (y : Nat → Num) : Num :=
  (List.range (kk / g)).foldl (fun acc n =>
    let p := sumN ((List.range g).map fun i => ((x (n * g + i)).abs).mul (y (n * g + i)))
    match xe (n * g) with
    | some e => rnd32 true (acc.add (p.scale e))
    | none => .nan) (.fin false 0 0)

/-- *τ* of Table 5-2, as a power of two. -/
def tauExp (fa fb : Nat) : Int :=
  if fa = 6 ∧ fb = 6 then -18 else if fa = 0 then -16 else -19

def Num.isFin : Num → Bool
  | .fin _ _ _ => true
  | _ => false

/-- The comparison of one line (R233, R235): `none` where it is not compared, else whether it passes. The operands and the checkpoint
alone decide whether the prediction is finite, so a cell that fails into a NaN or an infinity on finite operands is caught
(DEDUCED, notes/assumptions/105.md). -/
def lineCheck (tau : Int) (d sp m cAbs c'Abs : Num) : Option Bool :=
  let w := rnd32 true ((m.add cAbs).add c'Abs)
  if !sp.isFin || !(rnd32 true (m.add cAbs)).isFin then none
  else if !d.isFin then some false
  else if !w.isFin then none
  else
    let diff := (d.add sp.neg).abs
    some (decide (diff.cmp ((rnd32 true (w.scale tau)).add (.fin false 1 (-120))) ≤ 0))

/-- The comparisons of one floating-point pass: rows, columns and the corner. `c` is the starting block, `c'` the block
written. -/
def passLines (b : Bank) (free kk : Nat) (rowL colL : Nat) (c c' : List (BitVec 32)) : List (Option Bool) :=
  let g := groupLen b.a.fmt b.b.fmt
  let tau := tauExp b.a.fmt b.b.fmt
  let bs := (List.range kk).map fun k => b.b.lineSum free colL 64 k
  let ba := (List.range kk).map fun k => b.b.lineAbs free colL 64 k
  let as := (List.range kk).map fun k => b.a.lineSum free rowL 128 k
  let aa := (List.range kk).map fun k => b.a.lineAbs free rowL 128 k
  let at_ (xs : List Num) (k : Nat) : Num := xs.getD k .nan
  let cell (xs : List (BitVec 32)) (i j : Nat) : Num := ofF32 (xs.getD (i * 64 + j) 0)
  let line (xs : List (BitVec 32)) (idx : List (Nat × Nat)) : Num := rnd32 false (sumN (idx.map fun x => cell xs x.1 x.2))
  let lineAbs (xs : List (BitVec 32)) (idx : List (Nat × Nat)) : Num := sumN (idx.map fun x => (cell xs x.1 x.2).abs)
  let rowIdx (i : Nat) := (List.range 64).map fun j => (i, j)
  let colIdx (j : Nat) := (List.range 128).map fun i => (i, j)
  let all := (List.range 128).flatMap rowIdx
  let rows := (List.range 128).map fun i =>
    lineCheck tau (line c' (rowIdx i))
      (sumLine g kk (b.a.val free (rowL + i)) (b.a.exp free (rowL + i)) (at_ bs) (line c (rowIdx i)))
      (absLine g kk (b.a.val free (rowL + i)) (b.a.exp free (rowL + i)) (at_ ba)) (lineAbs c (rowIdx i)) (lineAbs c' (rowIdx i))
  let cols := (List.range 64).map fun j =>
    lineCheck tau (line c' (colIdx j))
      (sumLine g kk (b.b.val free (colL + j)) (b.b.exp free (colL + j)) (at_ as) (line c (colIdx j)))
      (absLine g kk (b.b.val free (colL + j)) (b.b.exp free (colL + j)) (at_ aa)) (lineAbs c (colIdx j)) (lineAbs c' (colIdx j))
  let corner := lineCheck tau (line c' all) (sumLine g kk (at_ as) (fun _ => some 0) (at_ bs) (line c all))
    (absLine g kk (at_ aa) (fun _ => some 0) (at_ ba)) (lineAbs c all) (lineAbs c' all)
  rows ++ cols ++ [corner]

/-- The comparisons of an INT8 pass, modulo 2^32 (R236). -/
def passInt (b : Bank) (free kk : Nat) (rowL colL : Nat) (c c' : List (BitVec 32)) : List (Option Bool) :=
  let bs (k : Nat) : Int := ((List.range 64).map fun j => b.b.int free (colL + j) k).foldl (· + ·) 0
  let as (k : Nat) : Int := ((List.range 128).map fun i => b.a.int free (rowL + i) k).foldl (· + ·) 0
  let sum (xs : List (BitVec 32)) (idx : List Nat) : BitVec 32 := (idx.map fun i => xs.getD i 0).foldl (· + ·) 0
  let run (f : Nat → Int) (st : BitVec 32) : BitVec 32 := (List.range kk).foldl (fun acc k => acc + BitVec.ofInt 32 (f k)) st
  let rowIdx (i : Nat) := (List.range 64).map fun j => i * 64 + j
  let colIdx (j : Nat) := (List.range 128).map fun i => i * 64 + j
  let all := List.range 8192
  ((List.range 128).map fun i => some (sum c' (rowIdx i) == run (fun k => b.a.int free (rowL + i) k * bs k) (sum c (rowIdx i)))) ++
    ((List.range 64).map fun j => some (sum c' (colIdx j) == run (fun k => b.b.int free (colL + j) k * as k) (sum c (colIdx j)))) ++
    [some (sum c' all == run (fun k => as k * bs k) (sum c all))]

/-- R237: the verdict on a tile's values, and how many lines were not compared. -/
def tileCheck (k : Core) (b : Bank) (free : Nat) (m : MmaSpec) (vals : List (Nat × List (BitVec 32))) : Bool × Nat :=
  let lines := vals.flatMap fun (sub, v) =>
    let start := (List.range 128).flatMap fun i => (List.range 64).map fun j =>
      MmaSpec.start m k (sub / 4 * 128 + i) (sub % 4 * 64 + j)
    let rowL := sub / 4 * 128 - m.m0
    let colL := sub % 4 * 64 - m.n0
    if pairInt b.a.fmt then passInt b free m.k rowL colL start v else passLines b free m.k rowL colL start v
  (lines.all (fun x => x != some false), (lines.filter Option.isNone).length)

/-- The digest of a tile's values (R242). -/
def digest (vals : List (Nat × List (BitVec 32))) : Nat := crc32c (vals.flatMap fun x => x.2.flatMap fun w => leBytes 4 w.toNat)

/-! ### Writing and resolving a tile -/

/-- Put a tile's values into the working copies. -/
def Core.putWork (k : Core) (int : Bool) (vals : List (Nat × List (BitVec 32))) : Core :=
  vals.foldl (fun (k : Core) (sub, v) => { k with acc := kset k.acc sub ((k.sub sub).setWork int v) }) k

/-- The copies of a tile's sub-blocks exchange roles. -/
def Core.swapRoles (k : Core) (m : MmaSpec) : Core :=
  (MmaSpec.subs m).foldl (fun (k : Core) sub => { k with acc := kset k.acc sub (k.sub sub).swap }) k

/-- The head tile of a core: its queue entry and operands. -/
def Core.headTile (k : Core) : Option (MatEntry × MmaSpec) :=
  match firstFree MatOp.isMma [] k.mq with
  | some e => match e.op with
    | .mma m => some (e, m)
    | _ => none
  | none => none

/-- A sibling's pause ends; its working copies that the tile used are zeroed where it runs another context (R248). -/
def State.freeSibling (s : State) (sib ctx : Nat) (m : MmaSpec) : State :=
  let k := s.core sib
  let k := { k with arbFor := none, pausing := none }
  let k := if k.lastCtx = some ctx then k
    else (MmaSpec.subs m).foldl (fun (k : Core) sub => { k with acc := kset k.acc sub ((k.sub sub).setWork false []) }) k
  s.setCore sib k

/-- The charges of Table 5-3: `MXA` and `CKL` events of an outcome. -/
def outcomeCharges (o : Nat) : Nat × Nat :=
  if o = 1 then (1, 0) else if o = 2 then (0, 2) else if o = 3 then (2, 0) else if o = 4 then (0, 1)
  else if o = 5 then (2, 1) else if o = 6 then (1, 1) else if o = 7 then (1, 1) else if o = 8 then (2, 0)
  else if o = 9 then (0, 1) else if o = 0xA then (1, 0) else (0, 0)

/-- A tile ends with an outcome of Table 5-3: registers, event, charges (none for an injected error, R264), the sibling; a residue
error whose recomputation has not been told ends with it. `cause` of outcome 0xA is 1 where Q failed twice, 2 the transfer, 3
`ARB_WAIT`, 4 an uncorrectable read (DESIGN CHOICE, notes/assumptions/103.md). -/
def State.endTile (s : State) (c : Nat) (e : MatEntry) (m : MmaSpec) (tl : Tile) (outcome : Nat)
    (charges : Option (Nat × Nat)) (cause : Nat) : State :=
  let injected := tl.inj != 0
  let s := s.chkLast c uMXA outcome 0 injected tl.digO (some (e.ctx, e.cmd))
  let sib := tl.sibling.getD 0x1FF
  let pay := [c, sib, outcome, tl.digO, tl.digP, tl.digQ]
  let s := match tl.sibling with
    | some x => s.freeSibling x e.ctx m
    | none => s
  let (mx, ck) := charges.getD (outcomeCharges outcome)
  let s := if injected then s else (s.charge (coreUnit c uMXA) mx).charge (coreUnit c uCKL) ck
  let s := s.when tl.resDue fun s =>
    s.note evResidue 1 1 c [coreUnit c uCKL, if outcome < 0xA then 0 else 2] (some e.ctx)
  let s := s.setCore c { s.core c with tile := none }
  let s := s.popMatrix c e.tag
  if outcome = 0xA then
    (s.bump F.CHK_CNT_UNRES.COUNT).record evTileUnresolved 2 1 c (pay ++ [cause]) (some e.ctx) injected
  else s.note evTileResolved 1 1 c pay (some e.ctx) injected

/-- A failing tile's accepted result becomes the checkpoint. -/
def State.acceptTile (s : State) (c : Nat) (e : MatEntry) (m : MmaSpec) (tl : Tile) (outcome : Nat)
    (charges : Option (Nat × Nat) := none) : State :=
  (s.setCore c ((s.core c).swapRoles m)).endTile c e m tl outcome charges 0

/-- The kind and bits of the error that `CHK_INJECT` puts into the next tile of core `c` (R264): the armed kind, and a
free value for the bits. -/
def State.injection (s : State) (c : Nat) : Nat × BitVec 32 :=
  if s.flag F.CHK_INJECT.ARM && s.rd F.CHK_INJECT.CORE == c then (s.rd F.CHK_INJECT.KIND, Config.lane s.free) else (0, 0)

/-- The upsets of an injected product-cell error: one element of the tile. -/
def injectUpset (m : MmaSpec) (kind : Nat) (bits : BitVec 32) : List TileUpset :=
  if kind = 1 ∨ kind = 3 then [⟨m.m0, m.n0, bits⟩] else []

/-- What a checker says of a tile's values: whether they pass, and whether a residue error of size `e` voids that (R237, R253); lines
not compared and residue errors are counted. An error that the residue code does not see leaves the comparison open
(notes/assumptions/106.md). -/
def State.tileVerdict (s : State) (k : Core) (b : Bank) (free : Nat) (m : MmaSpec) (vals : List (Nat × List (BitVec 32))) (e : Int) :
    State × Bool × Bool :=
  let (ok, unchk) := tileCheck k b free m vals
  let void := residueSees e
  let ok := if e ≠ 0 ∧ !void then bitOf (Config.word s.free).toNat 0 else ok
  let s := s.tick.bump F.CHK_CNT_UNCHK.COUNT 0 unchk
  (s.when void fun s => s.bump F.CHK_CNT_RESID.COUNT, ok, void)

/-- TILE_VERDICT: the verdict on the tile that executes (R237, R238). A pass exchanges roles; a failure starts replay,
or arbitration at once on a core whose `MXA` or `CKL` unit is permanent (R266); a tile that completes under R177 is
abandoned when it fails (R250). A stale bank faults the issuing thread (R157). `residue` is the size of an arithmetic error of the
checksum unit (R252), `ecc` what SEC-DED finds in the checkpoint that the tile reads. -/
def execTileVerdict (core : Nat) (upset : List TileUpset) (residue : Int) (s : State) (ecc : EccFinding := .clean) : Result :=
  .next <|
    let k := s.core core
    match k.headTile with
    | none => s
    | some (e, m) =>
      let b := k.bank m.bank
      if !b.filled || k.tile.isSome || (k.arbFor.isSome && k.pausing != some e.tag) then s
      else if b.stale then s.threadFault core e.thread fcMATRIX_STALE e.pc (some e.pc)
      else s.sramEcc 1 core 2 (m.m0 * 256 + m.n0) ecc (some e.ctx) (fun s =>
        let free := s.free
        let (kind, bits) := s.injection core
        let s := s.tick
        let s := s.when (kind != 0) fun s => s.wr F.CHK_INJECT.ARM 0
        let vals := tileValues k b free m (upset ++ injectUpset m kind bits)
        let (s, ok, void) := s.tileVerdict k b free m vals residue
        let s := s.setCore core ((s.core core).putWork (pairInt b.a.fmt) vals)
        if ok && !void && kind != 2 then
          (s.setCore core ((s.core core).swapRoles m)).popMatrix core e.tag
        else
          let s := s.bump F.CHK_CNT_FAIL.COUNT
          let tl : Tile := { phase := .replay, free := free, resDue := void, inj := kind, injBits := bits, oVoid := void, direct := false,
                             digO := digest vals, digP := 0, pFail := true, sibling := none, q := [], digQ := 0, outcome := 0, tries := 0 }
          if e.orphan then s.endTile core e m tl 0xB none 0
          else if (s.hist (coreUnit core uMXA)).perm || (s.hist (coreUnit core uCKL)).perm then
            (s.bump F.CHK_CNT_ARB.COUNT).setCore core { s.core core with tile := some { tl with phase := .wantSibling, direct := true } }
          else (s.bump F.CHK_CNT_REPLAY.COUNT).setCore core { s.core core with tile := some tl }) fun s => s

/-- A bank as the core store stands now: a replay and a sibling read their operands again (R244, R246). -/
def State.reread (s : State) (c bank : Nat) : Bank :=
  let x := (s.core c).bank bank
  match x.spec with
  | some sp => s.readBank c sp x.tag
  | none => x

/-- REPLAY_VERDICT: the replayed tile's verdict (R244, R245); an uncorrectable error in the operands or the checkpoint that it reads
again leaves the tile unresolved (R248). A tile whose threads have halted is abandoned where it fails (R250). -/
def execReplayVerdict (core : Nat) (upset : List TileUpset) (residue : Int) (s : State) (ecc : EccFinding := .clean) : Result :=
  .next <|
    let k := s.core core
    match k.tile, k.headTile with
    | some tl, some (e, m) =>
      if tl.phase ≠ .replay then s
      else if EccFinding.sram ecc = .uncorrectable then s.endTile core e m tl 0xA none 4
      else s.sramEcc 1 core 2 (m.m0 * 256 + m.n0) ecc (some e.ctx) (fun s =>
        let b := s.reread core m.bank
        let inj := if tl.inj = 3 then injectUpset m 3 tl.injBits else []
        let vals := tileValues k b tl.free m (upset ++ inj)
        let (s, ok, void) := s.tileVerdict k b tl.free m vals residue
        let s := s.when tl.resDue fun s => s.note evResidue 1 1 core [coreUnit core uCKL, b2n void] (some e.ctx)
        let s := s.setCore core (((s.core core).setBank m.bank b).putWork (pairInt b.a.fmt) vals)
        let p := digest vals
        let tl := { tl with digP := p, pFail := !ok || void, resDue := void }
        if tl.oVoid && ok && !void then s.acceptTile core e m tl 9
        else if ok && !void && p != tl.digO then s.acceptTile core e m tl 1
        else if e.orphan && tl.pFail then s.endTile core e m tl 0xB none 0
        else (s.bump F.CHK_CNT_ARB.COUNT).setCore core { s.core core with tile := some { tl with phase := .wantSibling } }) fun s => s
    | _, _ => s

/-- A core is in replay or arbitration, as failing core or as sibling. -/
def Core.inArb (k : Core) : Bool := k.tile.isSome || k.arbFor.isSome

/-- R245: the sibling of core `c` for a context: the first core able to serve that runs it; one of another context only where no
other core of the quarter runs it. -/
def State.sibling (s : State) (c ctx : Nat) : Option Nat :=
  let q := coreQuarter c
  let order := (List.range 71).map fun i => q * 72 + (c % 72 + 1 + i) % 72
  let runs (x : Nat) : Bool := (s.core x).lastCtx == some ctx && !(s.core x).live.isEmpty
  let ok := order.filter fun x => s.retire x == 0 && !(s.core x).inArb
  if order.any runs then ok.find? runs else ok.head?

/-- SIBLING_START: a sibling takes the tile; it finishes the tile that it executes, then pauses its queue (R245, R246). An
uncorrectable error in what it reads leaves the tile unresolved (R248). -/
def execSiblingStart (core : Nat) (uncorrectable : Bool) (s : State) : Result :=
  .next <|
    let k := s.core core
    match k.tile, k.headTile with
    | some tl, some (e, m) =>
      if tl.phase ≠ .wantSibling then s
      else match s.sibling core e.ctx with
        | none => s
        | some x =>
          let tl := { tl with sibling := some x, phase := .arbitrating }
          let kx := s.core x
          let s := s.setCore x { kx with arbFor := some core, pausing := kx.executing.map MatEntry.tag, gate := .run, entering := false }
          if uncorrectable then s.endTile core e m tl 0xA none 4
          else s.setCore core { s.core core with tile := some tl }
    | _, _ => s

/-- R247, Table 5-3: the outcome that three digests and the verdict on P give. -/
def arbOutcome (tl : Tile) (q : Nat) : Nat :=
  if tl.digP = tl.digO then
    if tl.pFail then (if q = tl.digO then 2 else 3) else (if q = tl.digO then 4 else 5)
  else if q = tl.digO then 6 else if q = tl.digP then 7 else 8

/-- A residue error of the sibling's checker: counted, and recorded with the result of the recomputation (Table 5-5). -/
def State.arbResidue (s : State) (x ctx : Nat) (void : Bool) (result : Nat) : State :=
  s.when void fun s => s.note evResidue 1 1 x [coreUnit x uCKL, result] (some ctx)

/-- ARBITER_VERDICT: the sibling's result Q, replayed once where it fails, decides (R246 to R248). On a direct
arbitration (R266) O alone is judged. A residue error of the sibling's checker voids that verdict (R253). -/
def execArbiterVerdict (core : Nat) (upset upset2 : List TileUpset) (s : State) (residue residue2 : Int := 0) : Result :=
  .next <|
    let k := s.core core
    match k.tile, k.headTile with
    | some tl, some (e, m) =>
      match tl.phase, tl.sibling with
      | .arbitrating, some x =>
        if (s.core x).pausing.isSome then s
        else
        let b := s.reread core m.bank
        let v1 := tileValues k b tl.free m upset
        let v2 := tileValues k b tl.free m upset2
        let (s, ok1, void1) := s.tileVerdict k b tl.free m v1 residue
        let again := !ok1 || void1
        let (s2, ok2, void2) := s.tileVerdict k b tl.free m v2 residue2
        let s := (if again then s2 else s).arbResidue x e.ctx void1 (b2n void2)
        let s := s.arbResidue x e.ctx (again && void2) 2
        if again && (!ok2 || void2) then s.endTile core e m tl 0xA none 1
        else
          let vals := if again then v2 else v1
          let q := digest vals
          let s := s.setCore x ((s.core x).putWork (pairInt b.a.fmt) vals)
          let held := if tl.direct then tl.digO else tl.digP
          let outcome := if tl.direct then (if q = tl.digO then 2 else 3) else arbOutcome tl q
          let tl := { tl with q := vals, digQ := q, outcome := outcome }
          let charges := if tl.direct then some (if q = tl.digO then (0, 1) else (1, 0)) else none
          if q = held then s.acceptTile core e m tl outcome charges
          else s.setCore core { s.core core with tile := some { tl with phase := .transfer } }
      | _, _ => s
    | _, _ => s

/-- RESULT_TRANSFER_COMPLETE: Q is in the failing core's working copies and its digest has been checked (R248). -/
def execResultTransferComplete (core : Nat) (digestOk : Bool) (s : State) : Result :=
  .next <|
    let k := s.core core
    match k.tile, k.headTile with
    | some tl, some (e, m) =>
      if tl.phase ≠ .transfer then s
      else if digestOk then
        let s := s.setCore core (k.putWork (pairInt (k.bank m.bank).a.fmt) tl.q)
        s.acceptTile core e m tl tl.outcome (if tl.direct then some (1, 0) else none)
      else if tl.tries = 0 then s.setCore core { k with tile := some { tl with tries := 1 } }
      else s.endTile core e m tl 0xA none 2
    | _, _ => s

/-- ARB_WAIT_EXPIRES: no sibling was found within `ARB_WAIT`; outcome 0xA (R248). -/
def execArbWaitExpires (core : Nat) (s : State) : Result :=
  .next <|
    let k := s.core core
    match k.tile, k.headTile with
    | some tl, some (e, m) => if tl.phase = .wantSibling then s.endTile core e m tl 0xA none 3 else s
    | _, _ => s

/-- A tile of which nothing is known yet. -/
def Tile.blank : Tile where
  phase := .replay
  free := 0
  resDue := false
  inj := 0
  injBits := 0
  oVoid := false
  direct := false
  digO := 0
  digP := 0
  pFail := false
  sibling := none
  q := []
  digQ := 0
  outcome := 0
  tries := 0

/-- R250: a core's unresolved tile, its verdict reached or not, is abandoned with outcome 0xB; a tile that a sibling works on for
another core is left to that core. -/
def State.abandonTile (s : State) (c : Nat) : State :=
  let k := s.core c
  match k.tile, k.headTile with
  | some tl, some (e, m) => s.endTile c e m tl 0xB none 0
  | none, some (e, m) => if (k.executing.map MatEntry.tag) = some e.tag then s.endTile c e m Tile.blank 0xB none 0 else s
  | _, none => s.setCore c { k with tile := none }

/-! ### MSTORE (R154, R197, R217, R218, R221) -/

/-- A checkpoint element as a value: INT32 or FP32. -/
def accNum (int : Bool) (v : BitVec 32) : Num := if int then decodeFmt fINT32 v.toNat else ofF32 v

/-- The bytes that an `MSTORE` writes: core-local address and bytes of each row, then each row of scales. Each element has the type
of its own sub-block's checkpoint. -/
def mstoreWrites (k : Core) (e : MatEntry) (m : MstoreSpec) : List (Nat × List (BitVec 8)) :=
  let sat := ctrlSat m.ctrl
  let rnd (n : Nat) : Rnd := laneRnd (ctrlRnd m.ctrl) (srSteps (64 * (n / 64)) e.rng) (n % 64)
  let int (r c : Nat) : Bool := k.accInt (m.m0 + r) (m.n0 + c)
  let val (r c : Nat) : Num := accNum (int r c) (k.accAt (m.m0 + r) (m.n0 + c))
  let w := fmtBits m.fmt
  let rows := (List.range m.m).map fun r =>
    if isMx m.fmt then
      let blocks := (List.range (m.n / 32)).map fun j =>
        formMx (fun i => rnd (r * m.n + j * 32 + i)) sat m.fmt ((List.range 32).map fun i => val r (j * 32 + i))
      (leBytes (m.n * w / 8) (packBits w (blocks.flatMap Prod.snd)), blocks.map Prod.fst)
    else
      (leBytes (m.n * w / 8) (packBits w ((List.range m.n).map fun c =>
        convertNum (rnd (r * m.n + c)) sat (if int r c then fINT32 else fFP32) m.fmt (val r c))), [])
  (List.range m.m).map (fun r => (m.dst + r * m.stride, (rows.getD r ([], [])).1)) ++
    (if isMx m.fmt then (List.range m.m).map fun r =>
      (m.scale + r * (m.n / 32), ((rows.getD r ([], [])).2).map (BitVec.ofNat 8)) else [])

/-- The accumulator takes the target code (Table 4-9): an INT32 accumulator 0x0 and 0x9, a floating-point one 0x0 to
0x6. -/
def mstoreAccepts (int : Bool) (fmt : Nat) : Bool := if int then fmt == 0 || fmt == 9 else decide (fmt ≤ 6)

/-- MSTORE_COMPLETE: the `MSTORE` under way has written its last byte (R141). It waits where its bytes meet spans that earlier work
still needs (DEDUCED, notes/assumptions/94.md). Every sub-block that it reads must take its target code. -/
def execMstoreComplete (core : Nat) (s : State) : Result :=
  .next <|
    let k := s.core core
    if k.stopped then s
    else match firstFree MatOp.isMstore [] k.mq with
    | some e => match e.op with
      | .mstore m =>
        let mine := k.retain.filter fun sp => !(k.mq.any fun x => x.tag == sp.tag)
        if (MstoreSpec.ranges m).any (fun r => mine.any fun sp => overlap r.1 r.2 sp.addr sp.len) then s
        else if (MstoreSpec.subs m).any fun b => !mstoreAccepts (k.sub b).ckptInt m.fmt then
          s.threadFault core e.thread fcMATRIX_SHAPE e.pc (some e.pc)
        else
          let s := (mstoreWrites k e m).foldl (fun (s : State) w => s.putLocal (coreStoreBase core + w.1) w.2) s
          s.popMatrix core e.tag
      | _ => s
    | none => s

/-- HELD_WRITE_PERFORMED: writes whose retained spans have been released are performed (R156). -/
def execHeldWritePerformed (core : Nat) (s : State) : Result := .next (s.drainHeld core)

/-! ### Self-tests, histories, retirement -/

/-- `CHK_ST_CFG.PERIOD_S`. -/
def State.testPeriod (s : State) : Nat := if s.rd F.CHK_ST_CFG.PERIOD_S = 0 then 3600 else s.rd F.CHK_ST_CFG.PERIOD_S

/-- A self-test of core `c` is due (R257, R270): a period after the last, with the period in force when that one was due (R17). -/
def State.testDue (s : State) (c : Nat) : Bool :=
  (s.core c).mustTest || decide ((s.core c).testAt + (s.core c).testPer * 1000 ≤ s.opMs)

/-- R258: a test overdue by more than one period keeps threads from the core. -/
def State.testOverdue (s : State) (c : Nat) : Bool :=
  (s.core c).mustTest || decide ((s.core c).testAt + 2 * (s.core c).testPer * 1000 < s.opMs)

/-- The units that a run of the self-test finds failing: the scalar, vector and address paths belong to `VEC` (Table 5-1), and the
comparator fails the test where it passes the tile with the known error (R257). -/
def SelfTestRun.failing (r : SelfTestRun) : List Nat :=
  (if r.vectorOk && r.addressOk then [] else [uVEC]) ++ (if r.sfuOk then [] else [uSFU]) ++ (if r.tileFailed then [] else [uCKL])

/-- A failed self-test: an event, the register and the charges for a unit that failed `n` times (R260). -/
def State.testFailed (s : State) (core u n : Nat) : State :=
  ((s.chkLast core u 0 0 false 0 none).note evSelftestFail 1 1 core [core, u, n]).charge (coreUnit core u) n

/-- CORE_SELF_TEST: a due test runs while the core is idle, and again at once where it fails (R257, R260). A core
returned by a two-key change is retired again where the test fails twice (R270). -/
def execCoreSelfTest (core : Nat) (run1 run2 : SelfTestRun) (s : State) : Result :=
  .next <|
    if !s.coreIdle core || !s.testDue core || s.gated (coreQuarter core) then s
    else
      let must := (s.core core).mustTest
      let s := s.setCore core { s.core core with testAt := s.opMs, testPer := s.testPeriod, mustTest := false }
      let f1 := SelfTestRun.failing run1
      let f2 := SelfTestRun.failing run2
      if f1.isEmpty then s
      else
        let s := (f1 ++ f2).eraseDups.foldl (fun (s : State) u => s.testFailed core u (b2n (f1.contains u) + b2n (f2.contains u))) s
        if must ∧ !f2.isEmpty ∧ s.retire core = 0 then s.setRetire core 1 else s

/-- HISTORY_FLASH_WRITE: a unit's history goes to configuration flash; a failure is recorded (R261, R262). -/
def execHistoryFlashWrite (unit : Nat) (ok : Bool) (s : State) : Result :=
  .next <|
    let h := s.hist unit
    if !h.dirty then s
    else if ok then s.setHist unit { h with flash := h.times, flashPerm := h.perm, dirty := false }
    else s.note evHistWriteFail 1 0 0 [unit]

/-- HISTORY_WRITE_RETRY: the write is tried again 10 s later (R262). -/
def execHistoryWriteRetry (unit : Nat) (ok : Bool) (s : State) : Result :=
  .next <|
    let h := s.hist unit
    if h.dirty && ok then s.setHist unit { h with flash := h.times, flashPerm := h.perm, dirty := false } else s

/-- `CHK_CFG.Q_MIN` in force. -/
def State.qMin (s : State) : Nat := if s.chk.qMin = 0 ∨ 72 < s.chk.qMin then 64 else s.chk.qMin

/-- What a power gate loses: registers, banks, accumulator file and caches (R181). -/
def Core.loseLogic (k : Core) : Core :=
  { k with threads := [], banks := [], acc := [], rcache := [], gate := .power, entering := false }

/-- R269: the cores in service in quarter `q`, `before` until now, fall below `Q_MIN`: SEV4, the partition is reset, and the quarter
leaves `Q_LIVE`. -/
def State.fellBelow (s : State) (q before : Nat) : State :=
  if s.qMin ≤ before ∧ s.inService q < s.qMin then
    (s.wr F.ID_CAP.Q_LIVE (putBit (s.rd F.ID_CAP.Q_LIVE) q false)).record evQuarterBelowMin 4 2 q [q, s.inService q]
  else s

/-- CORE_RETIRED: a retire-pending core with nothing live and an empty matrix queue is retired, and its logic gated (R266, R267); a
quarter that falls below `Q_MIN` leaves service (R269). -/
def execCoreRetired (core : Nat) (s : State) : Result :=
  .next <|
    let k := s.core core
    if s.retire core ≠ 1 ∨ !k.live.isEmpty ∨ !k.mq.isEmpty ∨ !k.reserved.isEmpty then s
    else
      let q := coreQuarter core
      let before := s.inService q
      let s := (s.setRetire core 2).setCore core k.loseLogic
      (s.note evCoreRetired 1 1 core [core, s.inService q]).fellBelow q before

/-- CHK_CFG_COMMIT: the staged `Q_MIN` and `ARB_WAIT` come into force together once every core has reached a tile boundary: at once
where no tile executes or awaits its end (R20). -/
def State.chkCommit (s : State) : State :=
  let busy := (s.cores.filter fun c => c.2.tile.isSome || c.2.executing.isSome).map Prod.fst
  if busy.isEmpty then s.chkApply else ({ s with chk.commit := busy }).wr F.CHK_CFG.COMMIT 1

def execChkCfgCommit (s : State) : Result := .next s.leaveDormant.chkCommit

/-- CHK_INJECT_ARM: a write of `CHK_INJECT`; dropped with a SEV0 event outside test mode and debug unlock. -/
def State.injectWrite (s : State) (val : Nat) : State :=
    if s.mode = mTEST ∨ s.flag F.SEC_STATUS.DEBUG then
      s |>.wr F.CHK_INJECT.CORE (bitsOf val 8 0)
        |>.wr F.CHK_INJECT.KIND (bitsOf val 10 9)
        |> fun s => s.when (bitOf val 31) fun s => s.wr F.CHK_INJECT.ARM 1
    else s.noteOffset 0 0x100200 0

def execChkInjectArm (val : Nat) (s : State) : Result := .next (s.leaveDormant.injectWrite val)

/-! ### Gating of cores (R179 to R183) -/

/-- A gate of core `c` to `g`: complete with `finished`, else in progress (R183). -/
def State.gateCore (s : State) (c : Nat) (g : Core → Core) (finished : Bool) : State :=
  s.setCore c (if finished then { g (s.core c) with entering := false } else { s.core c with entering := true })

/-- CORE_CLOCK_GATE: an idle core gates its clock after `CG_IDLE` cycles; 0 disables. -/
def execCoreClockGate (core cycles : Nat) (s : State) (finished : Bool := true) : Result :=
  .next <|
    let n := s.rd F.CORE_GATE_CFG.CG_IDLE core
    if s.coreIdle core ∧ (s.core core).gate = .run ∧ n ≠ 0 ∧ n ≤ cycles then
      s.gateCore core (fun k => { k with gate := .clock }) finished
    else s

/-- CORE_POWER_GATE: an idle core gates its logic's power after `PG_IDLE` µs; 0 disables. -/
def execCorePowerGate (core micros : Nat) (s : State) (finished : Bool := true) : Result :=
  .next <|
    let n := s.rd F.CORE_GATE_CFG.PG_IDLE core
    if s.coreIdle core ∧ (s.core core).gate ≠ .power ∧ n ≠ 0 ∧ n ≤ micros then s.gateCore core Core.loseLogic finished
    else s

/-- CORE_WAKE: a dispatch wakes a gated core, and aborts a gate in progress (R182, R183). -/
def execCoreWake (core : Nat) (s : State) : Result :=
  .next <| if s.retire core = 2 then s else s.setCore core { s.core core with gate := .run, entering := false }

end Sys2Proof.Machine
end

