-- ==== Sys2Proof/Machine/MemorySys.lean ====
section
/-! DEFINITION. The memory block's own commands (spec/06_memory_and_addressing.md): region commits, bias, CXL.mem and
CXL.cache, HDM decoders, scrub, self-refresh, remote timeouts and mirroring. -/

namespace Sys2Proof.Machine

open Sys2Proof

/-! ### Requests that end without their answer -/

/-- A request that waits on another module. -/
def ReqAt.isNode : ReqAt → Bool
  | .node _ => true
  | _ => false

/-- REMOTE_TIMEOUT: a request to another module has had no response within `REMOTE_TO` (R303). -/
def execRemoteTimeout (rtag : Nat) (s : State) : Result :=
  .next <| match s.ms.reqs.find? fun r => r.1 % 2 ^ 16 == rtag && r.2.loc.isNode with
    | some r => s.failReq r.1 gcTIMEOUT
    | none => s

/-! ### ECC and training -/

/-- A granule becomes poisoned, once (R282). -/
def State.poisonGranule (s : State) (g : Nat) : State :=
  if (kfind s.ms.poison g).isSome then s
  else ({ s with ms.poison := kset s.ms.poison g () }).bump F.MEM_ECC_CNT_UNCORR.COUNT

/-- PATROL_SCRUB: a scrub read of a granule while `SCRUB_EN` is 1 (R283). -/
def execPatrolScrub (granule : Nat) (ecc : EccFinding) (s : State) : Result :=
  .next <|
    let off := granule * 64
    if !s.flag F.MEM_CFG.SCRUB_EN || !(placeOf off).isDram then s
    else match EccFinding.dram ecc with
      | .clean => s
      | .corrected n =>
        (s.bump F.MEM_ECC_CNT_CORR.COUNT).note evMemEccCorr 1 4 (deviceOf off) [deviceOf off, deviceAddr off, n]
      | .uncorrectable =>
        (s.poisonGranule granule).note evMemScrubUncorr 1 4 (deviceOf off) [deviceOf off, deviceAddr off]

/-- SELF_REFRESH_TIMEOUT: devices that did not report self-refresh entry; contents count as lost and the reset trains
in `FULL` (R286). The event draws no step (R665). -/
def execSelfRefreshTimeout (devices : Nat) (s : State) : Result :=
  .next <| if devices = 0 then s
    else ({ s with ms.srFail := true, ms.full := true }).note evMemSrFail 5 0 0 [devices]

/-! ### Region commits (R292) -/

/-- The staged entry of index `n`, where it is valid. -/
def State.stagedRegion (s : State) (n : Nat) : Option Region :=
  if s.flag F.MEM_REGION_LO.VALID n then
    some { r := s.flag F.MEM_REGION_LO.R n
           w := s.flag F.MEM_REGION_LO.W n
           a := s.flag F.MEM_REGION_LO.A n
           remote := s.flag F.MEM_REGION_LO.REMOTE n
           bcast := s.flag F.MEM_REGION_LO.BCAST n
           sealed_ := s.flag F.MEM_REGION_LO.SEALED n
           mirror := s.flag F.MEM_REGION_LO.MIRROR n
           mirTgt := s.flag F.MEM_REGION_LO.MIRROR_TGT n
           ovf := s.flag F.MEM_REGION_LO.OVF n
           job := s.rd F.MEM_REGION_LO.JOB_ID n
           base := s.rd F.MEM_REGION_LO.BASE n * 2 ^ 21
           size := s.rd F.MEM_REGION_HI.SIZE n * 2 ^ 21 }
  else none

/-- The staged table. -/
def State.stagedRegions (s : State) : List (Nat × Region) :=
  (List.range 64).filterMap fun n => (s.stagedRegion n).map fun r => (n, r)

/-- Two entries of a table overlap. -/
def regionsOverlap : List (Nat × Region) → Bool
  | [] => false
  | (_, r) :: rs => rs.any (fun x => overlap r.base r.size x.2.base x.2.size) || regionsOverlap rs

/-- An entry touches a range. -/
def Region.meets (r : Region) (lo hi : Nat) : Bool := overlap r.base r.size lo (hi - lo)

/-- An entry in the SRAM window lies within one store, or covers whole core stores only. -/
def Region.sramOk (r : Region) : Bool :=
  if !r.meets 0x20000000000 0x20080000000 then true
  else
    let last := r.base + r.size - 1
    match placeOf r.base, placeOf last with
    | .core a, .core b => a == b || ((r.base - 0x20000000000) % 0x600000 == 0 && (r.size % 0x600000 == 0))
    | .quarter a, .quarter b => a == b
    | _, _ => false

/-- The conditions on one staged entry that give `REJECTED_POLICY`. -/
def Region.policyOk (r : Region) : Bool :=
  r.size != 0 && !r.meets 0x11FDC000000 dramTop && !r.meets apertureBase 0x3FF04000000 &&
    !(r.meets 0 dramTop && r.meets 0x20000000000 0x20080000000) && r.sramOk &&
    (if r.ovf then r.bcast && decide (0x24000000000 ≤ r.base) && decide (r.base + r.size ≤ 0x3FF00000000)
     else !r.meets 0x24000000000 0x3FF00000000)

/-- A change of an entry in force that the table refuses: a sealed entry changed other than by removal. -/
def sealedChange (old : Region) (new : Option Region) : Bool :=
  old.sealed_ && (match new with
    | some n => n != old
    | none => false)

/-- A change that only sets `SEALED` on a broadcast entry. -/
def sealsOnly (old : Region) (new : Option Region) : Bool :=
  match new with
  | some n => old.bcast && n == { old with sealed_ := true }
  | none => false

/-- R292: the status of a commit of table `new`. -/
def State.commitStatus (s : State) (new : List (Nat × Region)) : Nat :=
  let old := s.ms.regions
  let mirrorSize : Nat := (new.filter fun x => x.2.mirror).foldl (fun (n : Nat) x => n + x.2.size) 0
  let jobs := s.resident.map s.ctxJob
  if regionsOverlap new || new.any (fun x => !x.2.policyOk) || decide (16 * 2 ^ 30 < mirrorSize) ||
      old.any (fun x => sealedChange x.2 (kfind new x.1)) then stPOLICY
  else if old.any (fun x => kfind new x.1 != some x.2 && jobs.contains x.2.job && !sealsOnly x.2 (kfind new x.1)) then stRUNNING
  else stOK

/-- MEM_REGION_COMMIT_GO: a write of `GO` takes the staged table; while a commit runs it starts none and records
`BUSY`. -/
def State.regionCommitGo (s : State) : State :=
    if s.flag F.MEM_REGION_COMMIT.BUSY then s.noteOffset 2 0x200020 stBUSY
    else
      let s := (s.wr F.MEM_REGION_COMMIT.GO 1).wr F.MEM_REGION_COMMIT.BUSY 1
      { s with ms.commit := some s.stagedRegions }

def execMemRegionCommitGo (s : State) : Result := .next s.leaveDormant.regionCommitGo

/-- REGION_COMMIT_DONE: the commit ends: the new table comes into force, or the old one stays, and `STATUS` tells. -/
def execRegionCommitDone (s : State) : Result :=
  .next <| match s.ms.commit with
    | none => s
    | some new =>
      let st := s.commitStatus new
      let s := if st = stOK then { s with ms.regions := new } else s
      ({ s with ms.commit := none }) |>.wr F.MEM_REGION_COMMIT.STATUS st
        |>.wr F.MEM_REGION_COMMIT.BUSY 0
        |>.wr F.MEM_REGION_COMMIT.GO 0

/-! ### Bias (R322 to R324) -/

/-- MEM_BIAS_GO: a write of `MEM_BIAS_CMD`; its RW fields take the write (R12), and `GO` starts a change with them, unless one
runs. -/
def State.biasCommand (s : State) (val : Nat) : State :=
  let s := s |>.wr F.MEM_BIAS_CMD.START (bitsOf val 19 0)
    |>.wr F.MEM_BIAS_CMD.COUNT (bitsOf val 39 20)
    |>.wr F.MEM_BIAS_CMD.TARGET (bitsOf val 40 40)
  if !bitOf val 63 then s
  else if s.flag F.MEM_BIAS_STATUS.BUSY then s.noteOffset 2 0x200040 stBUSY
  else
    let s := (s.wr F.MEM_BIAS_CMD.GO 1).wr F.MEM_BIAS_STATUS.BUSY 1
    { s with ms.biasRun := some ⟨bitsOf val 19 0, bitsOf val 39 20, bitOf val 40⟩ }

def execMemBiasGo (val : Nat) (s : State) : Result := .next (s.leaveDormant.biasCommand val)

/-- BIAS_CHANGE_COMPLETE: the change ends; a range of no granules or beyond the last one is rejected. -/
def execBiasChangeComplete (s : State) : Result :=
  .next <| match s.ms.biasRun with
    | none => s
    | some b =>
      let bad := b.count = 0 ∨ 589824 < b.start + b.count
      let keep := s.ms.hostBias.filter fun g => decide (g.1 < b.start) || decide (b.start + b.count ≤ g.1)
      let hb := if bad then s.ms.hostBias
        else if b.device then keep
        else (List.range b.count).foldl (fun m i => kset m (b.start + i) ()) keep
      ({ s with ms.biasRun := none, ms.hostBias := hb }) |>.wr F.MEM_BIAS_STATUS.STATUS (if bad then stPOLICY else stOK)
        |>.wr F.MEM_BIAS_STATUS.BUSY 0
        |>.wr F.MEM_BIAS_CMD.GO 0

/-! ### CXL.mem and HDM (R319 to R322) -/

/-- The LPDDR6 local offset of a host physical address (R321). -/
def State.hdmLookup (s : State) (hpa : Nat) : Option Nat :=
  s.ms.hdm.findSome? fun (_, d) => if d.base ≤ hpa ∧ hpa < d.base + d.size then some (hpa - d.base + d.dpa) else none

/-- A CXL.mem access met a chip reset (R659). -/
def State.cxlDropped (s : State) : State := s.bumpSat F.RST_STATUS.MEM_DROPPED

/-- CXL_MEM_READ: one 64-byte line; poison where the granule is poisoned or LPDDR6 is out of service; during a chip
reset all ones with poison. The first to meet an uncorrectable granule poisons it and records it without a context. -/
def execCxlMemRead (hpa : Nat) (ecc : EccFinding) (s : State) : Result :=
  .next <|
    let s := s.leaveDormant
    if !s.flag F.RST_STATUS.READY then s.cxlDropped.emit (.cxlData (List.replicate 64 0xFF) true)
    else match s.hdmLookup hpa with
      | none => s
      | some o =>
        let off := o / 64 * 64
        if !s.flag F.MEM_STATUS.DRAM_OK then s.emit (.cxlData (s.memRead off 64) true)
        else
          let was := (kfind s.ms.poison (off / 64)).isSome
          let s := match EccFinding.dram ecc with
            | .clean => s
            | .corrected n =>
              (s.bump F.MEM_ECC_CNT_CORR.COUNT).note evMemEccCorr 1 4 (deviceOf off) [deviceOf off, deviceAddr off, n]
            | .uncorrectable =>
              if was then s
              else (s.poisonGranule (off / 64)).note evMemEccUncorr 2 4 (deviceOf off) [deviceOf off, deviceAddr off, 7]
          s.emit (.cxlData (s.memRead off 64) (kfind s.ms.poison (off / 64)).isSome)

/-- The bytes of a line under byte enables. -/
def mergeLine (old new : List (BitVec 8)) (be : Nat) : List (BitVec 8) :=
  (List.range 64).map fun i => if bitOf be i then new.getD i 0 else old.getD i 0

/-- CXL_MEM_WRITE: one aligned 64-byte line under byte enables: dropped in a chip reset, in a reserved area, in a
sealed region, or where it covers a poisoned granule in part. -/
def execCxlMemWrite (hpa : Nat) (data : List Nat) (be : Nat) (s : State) : Result :=
  .next <|
    let s := s.leaveDormant
    if !s.flag F.RST_STATUS.READY then s.cxlDropped
    else match s.hdmLookup hpa with
      | none => s
      | some o =>
        let off := o / 64 * 64
        let whole := be % 2 ^ 64 = 2 ^ 64 - 1
        if !s.flag F.MEM_STATUS.DRAM_OK then s
        else if placeOf off = .mirrorArea ∨ placeOf off = .dump then s.note evMemReservedWrite 0 0xC 0 [hpa]
        else if (s.ms.regions.any fun r => r.2.sealed_ && r.2.holds off 64) then s.note evMemSealedWrite 0 0xC 0 [hpa]
        else if (kfind s.ms.poison (off / 64)).isSome ∧ !whole then s
        else s.putLocal off (mergeLine (s.memRead off 64) (data.map (BitVec.ofNat 8)) be)

/-- A commit of decoder `idx` with this base, size and device base fails: no such decoder or no such range, or a device or host range
that overlaps the other's, or one that runs beyond LPDDR6 (R321). -/
def State.hdmBad (s : State) (idx base size dpa : Nat) : Bool :=
  let gran := 2 ^ 28
  let total : Nat := s.ms.hdm.foldl (fun (n : Nat) d => n + d.2.size) size
  size == 0 || size % gran != 0 || base % gran != 0 || decide (dramTop < dpa + size) || decide (dramTop < total) ||
    s.ms.hdm.any fun d => d.1 != idx && (overlap d.2.dpa d.2.size dpa size || overlap d.2.base d.2.size base size)

/-- HDM_DECODER_COMMIT: decoder `idx` maps `size` bytes of host address at `base`; its device range follows the lower
decoder's, after `skip` bytes. A committed decoder is locked; one whose commit fails says so (`hdmFail`, CXL 2.0's Error Not
Committed). -/
def execHdmDecoderCommit (idx base size skip : Nat) (s : State) : Result :=
  .next <|
    let dpa := (match kfind s.ms.hdm 0 with
      | some d => if idx = 0 then 0 else d.dpa + d.size
      | none => 0) + skip
    if 2 ≤ idx ∨ (kfind s.ms.hdm idx).isSome then s
    else if s.hdmBad idx base size dpa then { s with ms.hdmFail := s.ms.hdmFail.filter (fun i => i != idx) ++ [idx] }
    else { s with ms.hdm := kset s.ms.hdm idx ⟨base, size, dpa⟩, ms.hdmFail := s.ms.hdmFail.filter fun i => i != idx }

/-! ### CXL.cache -/

/-- Requests in the memory queues of the cores go on, where what they waited for has been performed. -/
def State.drainAll (s : State) : State :=
  s.cores.foldl (fun (s : State) k => if k.2.memq.isEmpty then s else s.drainHeld k.1) s

/-- A line that an access in host bias waited for has come: its bytes, where the host had changed them, and the accesses that now
have every line (R323). -/
def State.biasLine (s : State) (rtag : Nat) (data : List (BitVec 8)) : State :=
  match kget s.ms.biasWait rtag [] with
  | [] => s
  | l :: rest =>
    let s := if data.isEmpty then s else s.memWrite (l * 64) (data.take 64)
    ({ s with ms.biasWait := s.ms.biasWait.map fun (w : Nat × List Nat) => if w.1 = rtag then (w.1, rest) else w }).drainBias.drainAll

/-- CXL_CACHE_RESPONSE: the host answers a host-form access, or gives up a line in host bias. -/
def execCxlCacheResponse (rtag : Nat) (data : List Nat) (err : Bool) (s : State) : Result :=
  .next <| match kfind s.ms.reqs rtag with
    | none => s
    | some r => match r.loc with
      | .host =>
        if err then s.failReq rtag gcHOST_DOWN
        else s.answerReq rtag (if r.kind.writes then [] else (data.map (BitVec.ofNat 8)).take r.kind.size)
      | .bias =>
        if err then
          (({ s with ms.biasWait := s.ms.biasWait.filter fun w => w.1 != rtag }).failReq rtag gcHOST_DOWN).drainBias.drainAll
        else s.biasLine rtag (data.map (BitVec.ofNat 8))
      | _ => s

/-- The requests that wait on the host, those of threads first and by core and thread: of threads that fault at once the core records
the lowest-numbered (R176). -/
def State.hostReqs (s : State) : List Nat :=
  let rs := s.ms.reqs.filter fun r => r.2.loc == .host || r.2.loc == .bias
  let of_ (t : Nat) : List Nat := (rs.filter fun r => r.2.src.engine == 5 && r.2.src.thread == t).map Prod.fst
  ((List.range 64).flatMap of_) ++ (rs.filter fun r => r.2.src.engine != 5).map Prod.fst

/-- Faulted threads of a core. -/
def Core.faulted (k : Core) : List Nat := ((k.threads.filter fun x => x.2.st == .faulted).map Prod.fst)

/-- Several threads of a core have faulted at once since `s0`, when it had no fault recorded (R176): `MULTI` tells it. -/
def State.faultedAtOnce (s s0 : State) : State :=
  s.cores.foldl (fun (s : State) k =>
    if s0.flag F.CORE_FAULT.VALID k.1 || decide (k.2.faulted.length < 2 + (s0.core k.1).faulted.length) then s
    else (s.wr F.CORE_FAULT.MULTI 1 k.1).wr F.CORE_FAULT.OVF (s0.rd F.CORE_FAULT.OVF k.1) k.1) s

/-- Every access that waits on the host ends with `HOST_DOWN` (R67, R323). -/
def State.hostLost (s : State) : State :=
  let s0 : State := { s with ms.biasWait := [] }
  ((s.hostReqs.foldl (fun (s : State) t => s.failReq t gcHOST_DOWN) s0).faultedAtOnce s).drainAll

/-- CXL_LINK_DOWN: the host link is down. -/
def execCxlLinkDown (s : State) : Result := .next ({ s with ms.linkDown := true }).hostLost

/-! ### Mirroring (R315 to R318) -/

/-- The bytes of the mirror regions. -/
def State.mirrorBytes (s : State) : Nat := (s.ms.regions.filter fun r => r.2.mirror).foldl (fun n r => n + r.2.size) 0

/-- The Orquin firmware as the source of mirror traffic (R317, R318). -/
def orquinSource : Source := ⟨6, 0, 0, 0, 0, 0, ⟨0, 0, 0⟩, 0⟩

/-- The pieces of the copy that the buddy has not acknowledged. -/
def State.copyLeft (s : State) : Nat := 
  (s.ms.reqs.filter fun r => r.2.loc == .buddy && r.2.src.engine == 6 && placeOf r.2.addr != .mirrorArea).length

/-- `RESYNC_PCT`: the part of the mirror regions' bytes that the buddy has. -/
def State.resyncPct (s : State) : State :=
  let all := s.mirrorBytes / 4096
  if s.rd F.MEM_MIRROR_STATUS.STATE ≠ mirRESYNC ∨ all = 0 then s
  else s.wr F.MEM_MIRROR_STATUS.RESYNC_PCT ((all - s.copyLeft) * 100 / all)

/-- The service core copies each mirror region in full to the buddy, in pieces of 4 KiB (Table 6-7, R318). -/
def State.resync (s : State) : State :=
  let s := (s.wr F.MEM_MIRROR_STATUS.STATE mirRESYNC).wr F.MEM_MIRROR_STATUS.RESYNC_PCT 0
  (s.ms.regions.filter fun r => r.2.mirror).foldl (fun (s : State) r =>
    (List.range (r.2.size / 4096)).foldl (fun (s : State) i =>
      (s.mirrorWrite { orquinSource with job := r.2.job } (r.2.base + i * 4096) 4096 [] .store).1) s) s

/-- The writes that wait on the buddy count as performed: the first `n` of them. -/
def State.ackMirror (s : State) (n : Nat) : State :=
  let done := s.ms.mirWait.take n
  let s := { s with ms.mirWait := s.ms.mirWait.drop n }
  (done.foldl (fun (s : State) t => s.answerReq t.1 t.2) s).resyncPct

/-- MIRROR_ACK: the buddy has acknowledged the oldest `count` writes. -/
def execMirrorAck (count : Nat) (s : State) : Result := .next (s.ackMirror count)

/-- MIRROR_ENABLE: `EN` goes from 0 to 1 with the buddy written; the pair resynchronises. -/
def State.mirrorEnable (s : State) (buddy : Nat) : State :=
    if s.flag F.MEM_MIRROR_CFG.EN then s
    else s |>.wr F.MEM_MIRROR_CFG.BUDDY buddy
      |>.wr F.MEM_MIRROR_CFG.EN 1
      |>.resync

def execMirrorEnable (buddy : Nat) (s : State) : Result := .next (s.leaveDormant.mirrorEnable buddy)

/-- RESYNC_COMPLETE: the copy of every mirror region has ended. -/
def execResyncComplete (s : State) : Result :=
  .next <| if s.rd F.MEM_MIRROR_STATUS.STATE ≠ mirRESYNC then s
    else (s |>.wr F.MEM_MIRROR_STATUS.STATE mirMIRRORED
      |>.wr F.MEM_MIRROR_STATUS.RESYNC_PCT 100).note evMemMirrorSynced 0 0 0 [s.rd F.MEM_MIRROR_CFG.BUDDY, s.mirrorBytes]

end Sys2Proof.Machine
end

