-- ==== Sys2Proof/Machine/Engines.lean ====
section
/-! DEFINITION. Queues and the common, dispatch and copy commands (spec/07_engines_and_command_lists.md). A command of
the interface that names (slot, queue, count) does the work of the started queue command of that count. -/

namespace Sys2Proof.Machine

open Sys2Proof

/-! ### Queues (R334 to R341, R392) -/

/-- The queue area lies where R334 allows. -/
def State.areaOk (s : State) (base depth : Nat) : Bool :=
  if bitOf base 63 then bitsOf base 62 52 == 0
  else
    let node := bitsOf base 56 42
    let off := bitsOf base 41 0
    bitsOf base 62 59 == 0 && (if bitOf base 58 then node == 0 else node == s.node) &&
      decide (off + depth * 80 + 8 ≤ 0x11FDC000000)

def State.setQEn (s : State) (slot queue : Nat) (b : Bool) : State :=
  s.wr F.QDB_CTX.Q_EN (putBit (s.rd F.QDB_CTX.Q_EN slot) queue b) slot

/-- A reserved write of a queue's configuration (R392). -/
def State.qcfgReject (s : State) (slot queue : Nat) : State :=
  s.note evEngQcfgReject 0 3 (s.queueEngine slot queue) [slot, queue, stRUNNING]

/-- The writable fields of `QDB_QCFG` other than `EN`. -/
def qcfgFields (v : Nat) : Nat × Nat × Nat × Nat := (bitsOf v 2 0, bitsOf v 7 3, bitsOf v 13 8, bitsOf v 15 14)

/-- QDB_TAIL_WRITE: a doorbell write. -/
def execQdbTailWrite (slot queue val : Nat) (s : State) : Result := .next (s.leaveDormant.tailWrite slot (queue % 8) (val % 2 ^ 32))

/-- QUEUE_ENABLE: `QDB_QCFG` is written with `EN` = 1 (Table 7-4, R392). -/
def State.queueEnable (s : State) (slot queue val : Nat) : State :=
    let i := qi slot queue
    let w := (s.rreg .QDB_QCFG i).toNat
    if s.ctxState slot ≠ ctxACTIVE then s
    else if s.flag F.QDB_QCFG.EN i then (if qcfgFields w = qcfgFields val then s else s.qcfgReject slot queue)
    else
      let s := s |>.wr F.QDB_QCFG.ENGINE (bitsOf val 2 0) i
        |>.wr F.QDB_QCFG.LOG2_DEPTH (bitsOf val 7 3) i
        |>.wr F.QDB_QCFG.VECTOR (bitsOf val 13 8) i
        |>.wr F.QDB_QCFG.PRIO (bitsOf val 15 14) i
      let l := bitsOf val 7 3
      if 6 ≤ l ∧ l ≤ 16 ∧ bitsOf val 2 0 ≤ 4 ∧ s.areaOk (s.queueBase i) (2 ^ l) then
        let s := s |>.wr F.QDB_QCFG.EN 1 i
          |>.wr F.QDB_QCFG.CFG_ERR 0 i
          |>.wr F.QDB_QCFG.STATE qIDLE i
          |>.wr F.QDB_HEAD.HEAD 0 i
          |>.wr F.QDB_TAIL.TAIL 0 i
        (s.setQueue i Queue.init).setQEn slot queue true
      else s.wr F.QDB_QCFG.CFG_ERR 1 i

def execQueueEnable (slot queue val : Nat) (s : State) : Result := .next (s.leaveDormant.queueEnable slot queue val)

/-- QUEUE_DISABLE: `EN` is written 0. -/
def State.queueDisable (s : State) (slot queue : Nat) : State :=
    let i := qi slot queue
    let st := s.rd F.QDB_QCFG.STATE i
    if s.ctxState slot ≠ ctxACTIVE then s
    else if st = qIDLE then
      ((s.wr F.QDB_QCFG.EN 0 i).wr F.QDB_QCFG.STATE qOFF i).setQEn slot queue false
    else if st = qRUN then s.qcfgReject slot queue
    else s

def execQueueDisable (slot queue : Nat) (s : State) : Result := .next (s.leaveDormant.queueDisable slot queue)

/-- What the checks of this module's memory find for an engine's access at a global address that its region lets through: inline ECC
in LPDDR6, SEC-DED in on-package SRAM, whose two-bit error is the queue error `STORE_ECC` (R229). -/
def State.engineEcc (s : State) (r : CmdRef) (op : Nat) (ga : Nat) (ecc : EccFinding) (run : State → State) : State :=
  let off := bitsOf ga 41 0
  let ctx := some (s.ctxId r.slot)
  if !s.isLocalAddr ga || (s.checkAccess (s.ctxJob r.slot) false false false (.read 1) off).isSome then run s
  else match (placeOf off).sramKind with
    | some kind => s.sramEcc 3 (s.queueEngine r.slot r.queue) kind off ecc ctx run fun s => s.cmdError r qeSTORE_ECC 0 op off
    | none => run (s.eccFound (s.framed off) ecc ctx)

/-- A fetch of this queue is still on its way. -/
def State.fetching1 (s : State) (slot queue : Nat) : Bool :=
  s.ms.reqs.any fun q => q.2.dst == .fetch && q.2.src.cmd.slot == slot && q.2.src.cmd.queue == queue

/-- COMMAND_FETCH: the engine reads the next record, at most 16 ahead of the oldest command not started (R340). The
bytes of a record in host memory come with the command. -/
def execCommandFetch (slot queue : Nat) (hostRec : Option (List Nat)) (s : State) (ecc : EccFinding := .clean) : Result :=
  .next <|
    let i := qi slot queue
    let q := s.queue i
    let ahead := (q.cmds.filter fun c => c.work.isNone).length
    let n := q.fetched
    if s.ctxState slot ≠ ctxACTIVE ∨ s.rd F.QDB_QCFG.STATE i ≠ qRUN ∨ n = s.rd F.QDB_TAIL.TAIL i ∨ 16 ≤ ahead ∨ s.fetching1 slot queue then s
    else
      let a := s.queueBase i + n % s.depth i * 64
      let r : CmdRef := ⟨slot, queue, n⟩
      if bitOf a 63 then
        match hostRec with
        | some bs =>
          if s.ms.linkDown || s.pwr.perstLow then s.failSource (s.engineSource r) a gcHOST_DOWN false qeQUEUE_FETCH
          else (s.emit (.hostRead (bitsOf a 51 0) 64)).fetched r ((bs.map (BitVec.ofNat 8)).take 64)
        | none => s.failSource (s.engineSource r) a gcHOST_DOWN false qeQUEUE_FETCH
      else s.engineEcc r 0 a ecc fun s =>
        match s.areaAccess r a (.read 64) .fetch with
        | (s, .data bs) => s.fetched r bs
        | (s, .failed cause) => s.when (cause = gcPOISON) fun s => s.poisonEvent (bitsOf a 41 0) (s.engineSource r)
        | (s, .pending _) => s

/-! ### Starting commands (R328, R343, R344, R349) -/

/-- The engine that an opcode belongs to; `none` for a code that Table 7-7 does not list, 8 for the common ones. -/
def opcodeEngine (op : Nat) : Option Nat :=
  if op ≤ 0x05 then some 8
  else if op = 0x10 then some 0
  else if 0x20 ≤ op ∧ op ≤ 0x25 then some 1
  else if 0x30 ≤ op ∧ op ≤ 0x34 then some 2
  else if op = 0x40 then some 3
  else if 0x50 ≤ op ∧ op ≤ 0x53 then some 4
  else none

/-- The body bits that an opcode defines, as (first byte, bytes, mask of each byte). -/
def bodyFields (op : Nat) : List (Nat × Nat × Nat) :=
  if op = 0x01 then [(8, 1, 0xFF), (16, 8, 0xFF)]
  else if op = 0x02 then [(8, 1, 0xFF), (9, 1, 0x01), (16, 8, 0xFF)]
  else if op = 0x03 then [(16, 6, 0xFF)]
  else if op = 0x04 then [(16, 8, 0xFF)]
  else if op = 0x05 then [(16, 16, 0xFF)]
  else if op = 0x10 then [(8, 12, 0xFF), (20, 1, 0x7F), (21, 1, 0x07), (22, 6, 0xFF), (32, 32, 0xFF)]
  else if op = 0x20 then [(8, 24, 0xFF)]
  else if op = 0x21 then [(8, 40, 0xFF)]
  else if op = 0x22 then [(16, 24, 0xFF)]
  else if op = 0x23 then [(8, 25, 0xFF), (33, 1, 0x03), (40, 8, 0xFF)]
  else if op = 0x24 then [(8, 4, 0xFF), (16, 8, 0xFF)]
  else if op = 0x25 then [(8, 4, 0xFF)]
  else if op = 0x34 then [(32, 8, 0xFF), (40, 1, 0xF0), (41, 1, 0x03), (42, 2, 0xFF)]
  else if 0x30 ≤ op ∧ op ≤ 0x33 then [(8, 33, 0xFF), (41, 1, 0x03), (42, 2, 0xFF)]
  else if op = 0x40 then [(8, 8, 0xFF)]
  else if op = 0x52 then [(8, 10, 0xFF), (24, 6, 0xFF)]
  else if 0x50 ≤ op ∧ op ≤ 0x53 then [(8, 10, 0xFF)]
  else []

/-- A byte of the body has no bit set outside the fields. -/
def bodyByteOk (fs : List (Nat × Nat × Nat)) (i : Nat) (b : BitVec 8) : Bool :=
  let m := fs.foldl (fun m f => if f.1 ≤ i ∧ i < f.1 + f.2.1 then Nat.lor m f.2.2 else m) 0
  Nat.land b.toNat (0xFF - m) == 0

/-- R343, steps 1 to 3: the error that a record shows before its operands are judged. -/
def recordError (engine : Nat) (bs : List (BitVec 8)) : Option Nat :=
  let op := leAt bs 0 1
  match opcodeEngine op with
  | none => some qeILLEGAL_CMD
  | some e =>
    if e ≠ 8 ∧ e ≠ engine then some qeILLEGAL_CMD
    else if leAt bs 1 1 / 8 ≠ 0 ∨ leAt bs 2 2 ≠ 0 then some qeRESERVED_SET
    else
      let fs := bodyFields op
      if (List.range 56).all fun i => bodyByteOk fs (i + 8) (bs.getD (i + 8) 0) then none else some qeRESERVED_SET

/-- A command starts only after every earlier one has completed: `FENCE`, or an opcode that starts so (R344). -/
def Cmd.fenced (c : Cmd) : Bool := bitOf (leAt c.bytes 1 1) 0 || c.opcode == 0x02 || c.opcode == 0x04 || c.opcode == 0x34

/-- A wait command, whose condition holds back every later start. -/
def Cmd.isWait (c : Cmd) : Bool := c.opcode == 0x01 || c.opcode == 0x03 || c.opcode == 0x05

/-- The command's condition holds or its work is done. -/
def Cmd.isDone (c : Cmd) : Bool :=
  match c.work with
  | some (.done _ _) => true
  | _ => false

/-- The next startable command of a queue (R344). -/
def Queue.startable (q : Queue) : Option Cmd :=
  let before := q.cmds.takeWhile fun c => c.work.isSome
  match q.cmds.drop before.length with
  | [] => none
  | c :: _ =>
    if 8 ≤ (before.filter fun b => !b.ended).length then none
    else if before.any fun b => b.isWait && !b.isDone then none
    else if c.fenced && before.any fun b => !b.ended then none
    else some c

/-- R413: the ring engine runs 16 rings at once, those whose command has started and still reads its descriptor among them. -/
def State.ringRoom (s : State) : Bool :=
  let reading : Nat := s.eng.queues.foldl (fun (n : Nat) q => n + (q.2.cmds.filter fun c => c.opcode == 0x40 && (match c.work with
    | some .started | some (.convert _) => true
    | _ => false)).length) 0
  decide ((s.eng.rings.filter fun x => x.2.live).length + reading < 16)

/-- The queues of an engine that have a startable command, as (slot × 8 + queue, partition, priority). -/
def State.startCands (s : State) (engine : Nat) : List (Nat × Nat × Nat) :=
  s.eng.queues.filterMap fun (i, q) =>
    if s.ctxState (i / 8) = ctxACTIVE ∧ s.rd F.QDB_QCFG.STATE i = qRUN ∧ s.rd F.QDB_QCFG.ENGINE i = engine ∧
        ((q.startable.map fun c => c.opcode != 0x40 || s.ringRoom).getD false) = true then some (i, s.ctxPart (i / 8), s.rd F.QDB_QCFG.PRIO i) else none

/-- The weight of a partition (`QDB_PART_SHARE`); 0 acts as 1. -/
def State.partWeight (s : State) (p : Nat) : Nat :=
  max 1 (bitsOf (s.rreg .QDB_PART_SHARE).toNat (p * 8 + 7) (p * 8))

def State.arb (s : State) (e : Nat) : Arb := kget s.eng.arbs e Arb.init

/-- A partition has pending work of an engine. -/
def State.partPending (s : State) (engine p : Nat) : Bool :=
  s.eng.queues.any fun (i, _) =>
    s.ctxState (i / 8) == ctxACTIVE && s.rd F.QDB_QCFG.STATE i == qRUN && s.rd F.QDB_QCFG.ENGINE i == engine && s.ctxPart (i / 8) == p

/-- A new round of start slots: every partition its weight, and one with pending work also what it had left, up to its weight. -/
def State.newRound (s : State) (engine : Nat) (a : Arb) : Arb :=
  { a with credit := (List.range 4).map fun p =>
      (p, s.partWeight p + (if s.partPending engine p then min (kget a.credit p 0) (s.partWeight p) else 0)) }

/-- R328: the queue that an engine starts next, and its arbiter after: the lowest partition with start slots left in the
round (a new round where none has), its highest priority, then the next queue in order after the partition's last. -/
def State.chooseQueue (s : State) (engine : Nat) : Option (Nat × Arb) :=
  let cands := s.startCands engine
  let a := s.arb engine
  let parts := (List.range 4).filter fun p => cands.any fun c => c.2.1 == p
  let a := if parts.any fun p => decide (0 < kget a.credit p 0) then a else s.newRound engine a
  match parts.find? fun p => decide (0 < kget a.credit p 0) with
  | none => none
  | some p =>
    let mine := cands.filter fun c => c.2.1 == p
    let top := mine.foldl (fun m c => max m c.2.2) 0
    let best := mine.filter fun c => c.2.2 == top
    match (best.find? fun c => decide (kget a.last p 0 < c.1)) <|> best.head? with
    | none => none
    | some c => some (c.1, { a with credit := kset a.credit p (kget a.credit p 0 - 1), last := kset a.last p c.1 })

/-- COMMAND_START: an engine starts one command (R328), after the checks of R343 and R349 on its record. -/
def execCommandStart (engine : Nat) (s : State) : Result :=
  .next <|
    if (s.arb engine).held then s
    else match s.chooseQueue engine with
      | none => s
      | some (i, a) =>
        match (s.queue i).startable with
        | none => s
        | some c =>
          let s := { s with eng.arbs := kset s.eng.arbs engine a }
          let r : CmdRef := ⟨i / 8, i % 8, c.count⟩
          match recordError engine c.bytes with
          | some code => s.cmdError r code 0 c.opcode 0
          | none => s.setWork r .started

/-- Do the work of a started command with opcode `op`, while its context is `ACTIVE`. -/
def State.work (s : State) (slot queue count op : Nat) (f : CmdRef → Cmd → State → State) : State :=
  let r : CmdRef := ⟨slot, queue, count⟩
  match s.cmdAt r with
  | none => s
  | some c => if c.opcode = op ∧ c.work = some .started ∧ s.ctxState slot = ctxACTIVE then f r c s else s

/-- A command may go on: it has been started, or every byte it had asked for is there. -/
def State.cmdReady (s : State) (r : CmdRef) (c : Cmd) : Bool :=
  match c.work with
  | some .started => true
  | some (.convert _) => !(s.ms.reqs.any fun q => q.2.src.cmd == r)
  | _ => false

/-- Do the work of a started command, or go on with one that waited for bytes it had asked for. -/
def State.workOn (s : State) (slot queue count op : Nat) (f : CmdRef → Cmd → State → State) : State :=
  let r : CmdRef := ⟨slot, queue, count⟩
  match s.cmdAt r with
  | none => s
  | some c =>
    if c.opcode == op && s.cmdReady r c && s.ctxState slot == ctxACTIVE then f r c s else s

/-- An operand error of a command. -/
def State.operandError (s : State) (r : CmdRef) (c : Cmd) (code : Nat) (addr : Nat := 0) : State :=
  s.cmdError r code 0 c.opcode addr

/-- An access of an engine for a command. A poisoned granule of this module is recorded as well (R282); a ring descriptor that cannot be
read is the ring error `DESC` (Table 8-8). -/
def State.engineAccess (s : State) (r : CmdRef) (k : MemKind) (ga : Nat) (dst : ReqDst) : State × Got :=
  if s.opcodeOf r = 0x40 then
    match s.tryAccess (s.engineSource r) k ga dst with
    | (s, .failed cause) => (s.cmdError r qeRING 0x01 0x40 0, .failed cause)
    | g => g
  else s.threadAccess (s.engineSource r) k ga dst

/-- The context has failed: nothing further issues for its commands. -/
def State.failed (s : State) (r : CmdRef) : Bool := s.ctxState r.slot != ctxACTIVE

/-! ### Common commands (R350 to R352) -/

/-- NOP: completes at once. -/
def execNop (slot queue count : Nat) (s : State) : Result :=
  .next <| s.work slot queue count 0x00 fun r _ s => s.setWork r (.done stOK 0)

/-- EVENT_WAIT: waits until the event is at least `VALUE`. -/
def execEventWait (slot queue count : Nat) (s : State) : Result :=
  .next <| s.work slot queue count 0x01 fun r c s =>
    let e := leAt c.bytes 8 1
    if 63 < e then s.operandError r c qeBAD_EVENT
    else if leAt c.bytes 16 8 ≤ (s.event slot e).toNat then s.setWork r (.done stOK 0)
    else s.setWork r .waiting

/-- An `EVENT_SIGNAL` command: one update of its event (R367). -/
def State.eventSignal (s : State) (slot queue count : Nat) (add : Bool) : State :=
  s.work slot queue count 0x02 fun r c s =>
    let e := leAt c.bytes 8 1
    if (leAt c.bytes 9 1 = 1) ≠ (add = true) then s
    else if 63 < e then s.operandError r c qeBAD_EVENT
    else (s.updateEvent slot e add (BitVec.ofNat 64 (leAt c.bytes 16 8))).setWork r (.done stOK 0)

def execEventSignalSet (slot queue count : Nat) (s : State) : Result := .next (s.eventSignal slot queue count false)
def execEventSignalAdd (slot queue count : Nat) (s : State) : Result := .next (s.eventSignal slot queue count true)

/-- STEP_WAIT: waits until the step counter is at least `STEP`. Given again, it looks again. -/
def execStepWait (slot queue count : Nat) (s : State) : Result :=
  .next <|
    let r : CmdRef := ⟨slot, queue, count⟩
    match s.cmdAt r with
    | none => s
    | some c =>
      if c.opcode = 0x03 ∧ (c.work = some .started ∨ c.work = some .waiting) ∧ s.ctxState slot = ctxACTIVE then
        if leAt c.bytes 16 6 ≤ s.time.step then s.setWork r (.done stOK 0) else s.setWork r .waiting
      else s

/-- TIMESTAMP: writes timestamp, epoch and step counter at a 16-byte aligned address. -/
def execTimestamp (slot queue count : Nat) (s : State) : Result :=
  .next <| s.work slot queue count 0x04 fun r c s =>
    let a := leAt c.bytes 16 8
    if a % 16 ≠ 0 then s.operandError r c qeBAD_ADDR a
    else
      let bs := leBytes 4 s.nt ++ leBytes 2 s.time.epoch ++ leBytes 2 0 ++ leBytes 6 s.time.step ++ leBytes 2 0
      let (s, g) := s.engineAccess r (.write bs) a .store
      match g with
      | .failed _ => s
      | _ => s.setWork r (.done stOK 0)

/-- One look of a `MEM_WAIT` at its word (R352). -/
def State.memWaitLook (s : State) (r : CmdRef) (c : Cmd) : State :=
  let (s, g) := s.engineAccess r (.read 8) (leAt c.bytes 16 8) (.cmd 0)
  match g with
  | .data bs => if leAt c.bytes 24 8 ≤ leNat bs then s.setWork r (.done stOK 0) else s.setWork r .waiting
  | .pending _ => s.setWork r .waiting
  | .failed _ => s

/-- MEM_WAIT: waits until a 64-bit word of this module is at least `VALUE`. -/
def execMemWait (slot queue count : Nat) (s : State) (ecc : EccFinding := .clean) : Result :=
  .next <| s.work slot queue count 0x05 fun r c s =>
    let a := leAt c.bytes 16 8
    if a % 8 ≠ 0 ∨ !s.isLocalAddr a then s.operandError r c qeBAD_ADDR a
    else s.engineEcc r c.opcode a ecc fun s => s.memWaitLook r c

/-- MEM_WAIT_POLL: a waiting `MEM_WAIT` reads its word again, or judges the word that a wake had held back. -/
def execMemWaitPoll (slot queue count : Nat) (s : State) (ecc : EccFinding := .clean) : Result :=
  .next <|
    let r : CmdRef := ⟨slot, queue, count⟩
    match s.cmdAt r with
    | none => s
    | some c =>
      if c.opcode ≠ 0x05 ∨ s.ctxState slot ≠ ctxACTIVE then s
      else match c.work with
        | some .waiting =>
          if s.ms.reqs.any fun q => q.2.src.cmd == r && q.2.src.engine != 5 then s
          else s.engineEcc r c.opcode (leAt c.bytes 16 8) ecc fun s => s.memWaitLook r c
        | some (.convert ps) =>
          if leAt c.bytes 24 8 ≤ leNat ((kfind ps 0).getD []) then s.setWork r (.done stOK 0) else s.setWork r .waiting
        | _ => s

/-- QDB_EVT_VAL_WRITE: the host sets the selected event of an `ACTIVE` context (R365). -/
def State.evtValWrite (s : State) (val : Nat) : State :=
    let slot := s.rd F.QDB_EVT_SEL.SLOT
    if s.ctxState slot = ctxACTIVE then s.updateEvent slot (s.rd F.QDB_EVT_SEL.EVENT) false (BitVec.ofNat 64 val) else s

def execQdbEvtValWrite (val : Nat) (s : State) : Result := .next (s.leaveDormant.evtValWrite val)

/-! ### Dispatch (R353 to R357) -/

/-- Fields of a `DISPATCH` body (Table 7-9). -/
def Cmd.kernelBase (c : Cmd) : Nat := leAt c.bytes 8 8
def Cmd.entry (c : Cmd) : Nat := (leAt c.bytes 8 8 + leAt c.bytes 16 4) % 2 ^ 64
def Cmd.threads (c : Cmd) : Nat := leAt c.bytes 20 1 % 128
def Cmd.prio (c : Cmd) : Nat := leAt c.bytes 21 1 % 4
def Cmd.idx (c : Cmd) : Bool := bitOf (leAt c.bytes 21 1) 2
def Cmd.groups (c : Cmd) : Nat := leAt c.bytes 22 2
def Cmd.coreFirst (c : Cmd) : Nat := leAt c.bytes 24 2
def Cmd.coreSpan (c : Cmd) : Nat := leAt c.bytes 26 2

/-- The cores of the span. -/
def Cmd.span (c : Cmd) : List Nat := (List.range c.coreSpan).map fun i => c.coreFirst + i

/-- DISPATCH: the operand checks of R356 and R360, then groups may start. -/
def execDispatch (slot queue count : Nat) (s : State) : Result :=
  .next <| s.work slot queue count 0x10 fun r c s =>
    let p := s.ctxPart slot
    if c.threads = 0 ∨ 64 < c.threads ∨ c.groups = 0 ∨ 288 < c.coreFirst + c.coreSpan ∨
        c.span.any (fun x => partOf s.partMode (coreQuarter x) != p) ∨ c.span.all (fun x => s.retire x == 2) then
      s.operandError r c qeBAD_CORES
    else if c.kernelBase % 256 ≠ 0 then s.operandError r c qeBAD_ADDR c.kernelBase
    else s.setWork r (.dispatch ⟨0, c.coreFirst, []⟩)

/-- A core can take a group of `n` threads of context `id` now (R258, R354). -/
def State.eligible (s : State) (c n id : Nat) : Bool :=
  let k := s.core c
  s.retire c == 0 && decide (n ≤ k.freeSlots.length) && !s.testOverdue c &&
    (k.threads.all fun x => x.2.st == .free || x.2.ctx == id) && (k.reserved.all fun g => g.ctx == id) &&
    !(s.quarter (coreQuarter c)).inReset

/-- The threads of a group start (R123, R216, R354, R355). -/
def State.startGroup (s : State) (c : Nat) (g : GroupStart) : State :=
  let k := s.core c
  let th (idx slot : Nat) : Thread :=
    let s3 := (g.s0.getD 3 0).toNat
    let s3 := if g.idx then s3 / 2 ^ 22 * 2 ^ 22 + (g.group % 2 ^ 16) * 64 + idx else s3
    let seed := Nat.xor (Nat.xor (g.ctx * 2 ^ 52) (c * 2 ^ 40)) (Nat.xor (slot * 2 ^ 32) (s.opMs % 2 ^ 32))
    { Thread.init with
      st := .ready, pc := g.entry, ctx := g.ctx, prio := g.prio, entry := g.entry, cmd := g.cmd,
      s := (((Thread.init.setS 0 (g.s0.getD 0 0)).setS 1 (g.s0.getD 1 0)).setS 2 (g.s0.getD 2 0)).setS 3 (BitVec.ofNat 64 s3) |>.s,
      rng := srLoad (BitVec.ofNat 64 seed) }
  let ths := (List.range g.slots.length).foldl (fun m i => kset m (g.slots.getD i 0) (th i (g.slots.getD i 0))) k.threads
  s.setCore c { k with threads := ths, gate := .run }

/-- The reserved groups of a core start (R124). -/
def State.startReserved (s : State) (c : Nat) : State :=
  let gs := (s.core c).reserved
  let s := s.setCore c { s.core c with reserved := [] }
  gs.foldl (fun (s : State) g => s.startGroup c g) s

/-- DISPATCH_GROUP_START: the next group goes to the next eligible core in round-robin. A core that last ran another
context changes context now and zeroes first; a gated quarter is woken; meanwhile the group's slots are reserved. -/
def execDispatchGroupStart (slot queue count : Nat) (s : State) : Result :=
  .next <|
    let r : CmdRef := ⟨slot, queue, count⟩
    match s.cmdAt r with
    | none => s
    | some c => match c.work with
      | some (.dispatch d) =>
        if s.ctxState slot ≠ ctxACTIVE ∨ c.groups ≤ d.next ∨ (s.arb 0).held then s
        else
          let id := s.ctxId slot
          let order := (List.range c.coreSpan).map fun i => c.coreFirst + (d.from_ - c.coreFirst + i) % c.coreSpan
          match order.find? fun x => s.eligible x c.threads id with
          | none => s
          | some x =>
            let k := s.core x
            let slots := k.freeSlots.take c.threads
            let g : GroupStart := ⟨slots, d.next, c.prio, id, c.entry, c.idx,
              (List.range 4).map fun i => BitVec.ofNat 64 (leAt c.bytes (32 + 8 * i) 8), r⟩
            let fresh := k.lastCtx != some id
            let q := coreQuarter x
            let s := s.setWork r (.dispatch ⟨d.next + 1, x + 1, if d.cores.contains x then d.cores else d.cores ++ [x]⟩)
            let k := { k with lastCtx := some id, entering := false, reserved := k.reserved ++ [g] }
            let k := if fresh then { k with zeroing := true, rcache := [], banks := [], acc := [], gate := .run } else k
            let s := s.setCore x k
            if s.dozing q then s.wakeFor q []
            else if k.zeroing then s
            else s.startReserved x
      | _ => s

/-- CORE_ZEROING_COMPLETE: the core store reads 0; the reserved threads start; accesses that waited are performed in
their order (R124). -/
def execCoreZeroingComplete (core : Nat) (s : State) : Result :=
  .next <|
    let k := s.core core
    if !k.zeroing || s.gated (coreQuarter core) then s
    else
      let s := s.memClear (coreStoreBase core) 0x600000
      let s := (s.setCore core { k with zeroing := false, waiting := [] }).startReserved core
      k.waiting.foldl (fun (s : State) m => s.performReq m) s

/-- A thread of a dispatch command is live, or its group is reserved. -/
def State.dispatchLive (s : State) (r : CmdRef) : Bool :=
  s.cores.any fun (_, k) => (k.threads.any fun x => x.2.st != .free && x.2.cmd == r) || k.reserved.any fun g => g.cmd == r

/-! ### Copy (R358 to R362) -/

/-- One range of a copy split at 4 KiB boundaries of both sides; `fuel` bounds the pieces. -/
def splitCopy : Nat → Nat → Nat → Nat → List (Nat × Nat × Nat)
  | 0, _, _, _ => []
  | fuel + 1, src, dst, len =>
    if len = 0 then []
    else
      let n := min len (min (4096 - src % 4096) (4096 - dst % 4096))
      (src, dst, n) :: splitCopy fuel (src + n) (dst + n) (len - n)

/-- Copy one piece: read, then write; a read that waits writes when its answer comes. -/
def State.copyPiece (s : State) (r : CmdRef) (p : Nat × Nat × Nat) : State :=
  if s.failed r then s
  else
    let (s, g) := s.engineAccess r (.read p.2.2) p.1 (.copyTo p.2.1)
    match g with
    | .data bs => (s.engineAccess r (.write bs) p.2.1 .store).1
    | _ => s

/-- Two ranges of global addresses share bytes: both host-form, or both of one module. -/
def State.sameBytes (s : State) (a b n : Nat) : Bool :=
  (bitOf a 63 == bitOf b 63) &&
    (if bitOf a 63 then overlap (bitsOf a 51 0) n (bitsOf b 51 0) n
     else s.isLocalAddr a == s.isLocalAddr b && (s.isLocalAddr a || bitsOf a 56 42 == bitsOf b 56 42) &&
       overlap (bitsOf a 41 0) n (bitsOf b 41 0) n)

/-- Copy one range; where the copy's source and destination overlap its bytes are free (R359). -/
def State.copyRange (s : State) (r : CmdRef) (open_ : Bool) (src dst len : Nat) : State :=
  let pieces := splitCopy (len + 1) src dst len
  if open_ then
    (pieces.foldl (fun (s : State) p =>
      if s.failed r then s
      else
        let (s, g) := s.engineAccess r (.read p.2.2) p.1 .store
        match g with
        | .failed _ => s
        | _ => (s.engineAccess r (.write ((List.range p.2.2).map fun i => Config.byte s.free (p.2.1 - dst + i))) p.2.1 .store).1) s).tick
  else pieces.foldl (fun (s : State) p => s.copyPiece r p) s

/-- The residue check of an address generator (R252, R255, Table 5-5): `e` is the error of the address that it first forms, `e2` that of
the address formed again. A clean second address goes on; an error again resets the engine. A generator that has become permanent is
out of service, and its requests do not issue (R265, notes/assumptions/107.md). -/
def State.withResidue (s : State) (e e2 : Int) (unit engine : Nat) (ctx : Nat) (run : State → State) : State :=
  if (s.hist (engUnit unit)).perm then s
  else if !residueSees e then run s
  else
    let again := residueSees e2
    let s := s.bump F.CHK_CNT_RESID.COUNT
    let s := (s.note evResidue 1 0xB unit [unit, b2n again] (some ctx)).charge (engUnit unit) (1 + b2n again)
    let s := s.chkLast 0 (if unit = 32 then 5 else 6) 0 unit false 0 none
    if again then s.record evResidue 3 3 engine [unit, 1] none else run s

/-- The end of a copy engine command's issue: done, unless it failed. -/
def State.copyDone (s : State) (r : CmdRef) (bytes : Nat) : State :=
  if s.failed r then s else s.setWork r (.done stOK (bytes % 2 ^ 32))

/-- COPY: `LENGTH` bytes from `SRC` to `DST`. -/
def execCopy (slot queue count : Nat) (ecc : EccFinding) (residue : Int) (s : State) (residue2 : Int := 0) : Result :=
  .next <| s.work slot queue count 0x20 fun r c s =>
    let src := leAt c.bytes 8 8
    let dst := leAt c.bytes 16 8
    let len := leAt c.bytes 24 8
    if len = 0 ∨ 2 ^ 36 < len then s.operandError r c qeBAD_LENGTH
    else s.withResidue residue residue2 32 1 (s.ctxId slot) fun s =>
      s.engineEcc r c.opcode src ecc fun s => (s.copyRange r (s.sameBytes src dst len) src dst len).copyDone r len

/-- COPY_2D: `ROWS` rows of `ROW_BYTES` with strides. -/
def execCopy2d (slot queue count : Nat) (ecc : EccFinding) (residue : Int) (s : State) (residue2 : Int := 0) : Result :=
  .next <| s.work slot queue count 0x21 fun r c s =>
    let src := leAt c.bytes 8 8
    let dst := leAt c.bytes 16 8
    let n := leAt c.bytes 24 4
    let rows := leAt c.bytes 28 4
    if n = 0 ∨ rows = 0 then s.operandError r c qeBAD_LENGTH
    else s.withResidue residue residue2 32 1 (s.ctxId slot) fun s =>
      s.engineEcc r c.opcode src ecc fun s =>
      let from_ (i : Nat) : Nat := (src + i * leAt c.bytes 32 8) % 2 ^ 64
      let to_ (i : Nat) : Nat := (dst + i * leAt c.bytes 40 8) % 2 ^ 64
      let open_ := (List.range rows).any fun i => (List.range rows).any fun j => s.sameBytes (from_ i) (to_ j) n
      ((List.range rows).foldl (fun (s : State) i =>
        if s.failed r then s else s.copyRange r open_ (from_ i) (to_ i) n) s).copyDone r (n * rows)

/-- Write bytes from `ga` upwards in requests of up to 4 KiB. -/
def State.engineWrite (s : State) (r : CmdRef) (ga : Nat) (bs : List (BitVec 8)) : State :=
  (splitCopy (bs.length + 1) ga ga bs.length).foldl (fun (s : State) p =>
    if s.failed r then s else (s.engineAccess r (.write ((bs.drop (p.1 - ga)).take p.2.2)) p.1 .store).1) s

/-- FILL: an 8-byte pattern over `LENGTH` bytes. -/
def execFill (slot queue count : Nat) (residue : Int) (s : State) (residue2 : Int := 0) : Result :=
  .next <| s.work slot queue count 0x22 fun r c s =>
    let dst := leAt c.bytes 16 8
    let len := leAt c.bytes 24 8
    if dst % 8 ≠ 0 then s.operandError r c qeBAD_ADDR dst
    else if len = 0 ∨ len % 8 ≠ 0 then s.operandError r c qeBAD_LENGTH
    else s.withResidue residue residue2 32 1 (s.ctxId slot) fun s =>
      let pat := (c.bytes.drop 32).take 8
      ((splitCopy (len + 1) dst dst len).foldl (fun (s : State) p =>
        if s.failed r then s
        else (s.engineAccess r (.write ((List.replicate (p.2.2 / 8) pat).flatten)) p.1 .store).1) s).copyDone r len

/-! ### CONVERT (R361) -/

/-- The key of the first scale part among a command's parts. -/
def scaleKey : Nat := 2 ^ 40

/-- Read `n` bytes for a command: parts that came at once, and the state. -/
def State.readParts (s : State) (r : CmdRef) (ga n key : Nat) : State × List (Nat × List (BitVec 8)) :=
  (splitCopy (n + 1) ga ga n).foldl (fun (st : State × List (Nat × List (BitVec 8))) p =>
    let (s, ps) := st
    if s.failed r then (s, ps)
    else
      let k := key + (p.1 - ga)
      let (s, g) := s.engineAccess r (.read p.2.2) p.1 (.cmd k)
      match g with
      | .data bs => (s, kset ps k bs)
      | _ => (s, ps)) (s, [])

/-- Elements of `CONVERT`: from a format's bytes to exact values. -/
def convertValues (fmt n : Nat) (bs scales : List (BitVec 8)) : List Num :=
  let codes := unpackBits (fmtBits fmt) n (leNat bs)
  (List.range n).map fun i =>
    let c := codes.getD i 0
    if isMx fmt then decodeMx fmt ((scales.getD (i / 32) 0).toNat) c else decodeFmt fmt c

/-- The destination bytes and scale bytes of `CONVERT`. -/
def convertBytes (from_ fmt : Nat) (sat : Bool) (vs : List Num) : List (BitVec 8) × List (BitVec 8) :=
  let w := fmtBits fmt
  let n := vs.length
  if isMx fmt then
    let blocks := (List.range (n / 32)).map fun j => formMx (fun _ => .nearest) sat fmt ((vs.drop (32 * j)).take 32)
    (leBytes (n * w / 8) (packBits w (blocks.flatMap Prod.snd)), blocks.map fun b => BitVec.ofNat 8 b.1)
  else (leBytes (n * w / 8) (packBits w (vs.map (convertNum .nearest sat from_ fmt))), [])

/-- The whole of a command's parts from a key, where every byte is there. -/
def joinParts (ps : List (Nat × List (BitVec 8))) (key n : Nat) : Option (List (BitVec 8)) :=
  let bs := (ps.filter fun p => decide (key ≤ p.1) && decide (p.1 < key + n)).flatMap Prod.snd
  if bs.length = n then some bs else none

/-- `CONVERT` goes on once every byte of its source is there. -/
def State.convertFinish (s : State) (r : CmdRef) (c : Cmd) (ps : List (Nat × List (BitVec 8))) : State :=
  let n := leAt c.bytes 24 8
  let sf := leAt c.bytes 32 1 % 16
  let df := leAt c.bytes 32 1 / 16
  let sat := ctrlSat (leAt c.bytes 33 1)
  match joinParts ps 0 (n * fmtBits sf / 8), joinParts ps scaleKey (if isMx sf then n / 32 else 0) with
  | some bs, some sc =>
    let (out, scales) := convertBytes sf df sat (convertValues sf n bs sc)
    let s := s.engineWrite r (leAt c.bytes 16 8) out
    let s := s.engineWrite r (leAt c.bytes 40 8) scales
    s.copyDone r (out.length + scales.length)
  | _, _ => s.setWork r (.convert ps)

/-- CONVERT: an element array between FP32 and another format. -/
def execConvert (slot queue count : Nat) (ecc : EccFinding) (residue : Int) (s : State) (residue2 : Int := 0) : Result :=
  .next <| s.work slot queue count 0x23 fun r c s =>
    let src := leAt c.bytes 8 8
    let dst := leAt c.bytes 16 8
    let n := leAt c.bytes 24 8
    let sf := leAt c.bytes 32 1 % 16
    let df := leAt c.bytes 32 1 / 16
    let pair := (sf == 0 && decide (1 ≤ df ∧ df ≤ 9)) || (df == 0 && decide (1 ≤ sf ∧ sf ≤ 9))
    let width (f : Nat) : Nat := if isMx f then 1 else fmtBits f / 8
    if !pair ∨ ctrlRnd (leAt c.bytes 33 1) ∨ n = 0 ∨ ((isMx sf || isMx df) ∧ n % 32 ≠ 0) then s.operandError r c qeBAD_FORMAT
    else if src % width sf ≠ 0 then s.operandError r c qeBAD_ADDR src
    else if dst % width df ≠ 0 then s.operandError r c qeBAD_ADDR dst
    else s.withResidue residue residue2 32 1 (s.ctxId slot) fun s =>
      s.engineEcc r c.opcode src ecc fun s =>
      let s := s.setWork r (.convert [])
      let (s, ps) := s.readParts r src (n * fmtBits sf / 8) 0
      let (s, qs) := if isMx sf then s.readParts r (leAt c.bytes 40 8) (n / 32) scaleKey else (s, [])
      if s.failed r then s else s.convertFinish r c (ps ++ qs)

/-! ### Overflow pages (R310 to R313, R362) -/

/-- The overflow region in force: the entry that `MEM_OVF_CFG.REGION` names. -/
def State.ovfRegion (s : State) : Option Region := kfind s.ms.regions (s.rd F.MEM_OVF_CFG.REGION)

/-- The address of a page's map entry. -/
def State.ovfSlot (s : State) (page : Nat) : Nat := s.rd F.MEM_OVF_BASE.TABLE * 8 + page * 8

/-- Write a page's map entry and the translation cache in one step (R313). -/
def State.setOvf (s : State) (page e : Nat) : State :=
  let s := s.memWrite (s.ovfSlot page) (leBytes 8 e)
  match kfind s.ms.ovfCache page with
  | some _ => { s with ms.ovfCache := kset s.ms.ovfCache page e }
  | none => s

/-- The page of a paging command, where the map is in use and holds it. -/
def State.pageOf (s : State) (c : Cmd) : Option Nat :=
  let p := leAt c.bytes 8 4
  match s.ovfRegion with
  | some g => if s.flag F.MEM_OVF_CFG.EN ∧ p < g.size / 2 ^ 21 then some p else none
  | none => none

/-- Copy a page of 2 MiB at `src` into a frame, a granule at a time. -/
def State.readPage (s : State) (r : CmdRef) (src frame : Nat) : State :=
  (List.range 512).foldl (fun (s : State) i =>
    if s.failed r then s
    else (s.engineAccess r (.read 4096) (src + i * 4096) (.copyTo (2 ^ 58 + frame + i * 4096))).1) s

/-- The bytes that a command reads at an address, in requests of up to 4 KiB (R293): those there already, or asked for now. -/
def State.fetchBytes (s : State) (r : CmdRef) (ga n key : Nat) : State × Option (List (BitVec 8)) :=
  let have_ := match (s.cmdAt r).bind Cmd.work with
    | some (.convert ps) => ps
    | _ => []
  match joinParts have_ key n with
  | some bs => (s, some bs)
  | none =>
    let (s, ps) := (s.setWork r (.convert have_)).readParts r ga n key
    if s.failed r then (s, none) else (s.setWork r (.convert (have_ ++ ps)), joinParts ps key n)

/-- PAGE_IN: copies a page from the partner into a frame; a page that another command holds is waited for. -/
def execPageIn (slot queue count : Nat) (s : State) (residue residue2 : Int := 0) : Result :=
  .next <| s.work slot queue count 0x24 fun r c s =>
    let frame := leAt c.bytes 16 8
    if frame % 2 ^ 21 ≠ 0 ∨ dramTop < frame + 2 ^ 21 then s.operandError r c qeBAD_ADDR frame
    else match s.pageOf c with
      | none => s.operandError r c qeOVF_STATE
      | some p =>
        let e := leNat (s.memRead (s.ovfSlot p) 8)
        if bitOf e 0 then s.setWork r (.done stOK 0)
        else if bitOf e 1 then s
        else s.withResidue residue residue2 32 1 (s.ctxId slot) fun s =>
          let s := (s.setOvf p (putBit e 1 true)).setWork r .waiting
          let src := s.rd F.MEM_OVF_CFG.PARTNER * 2 ^ 42 + bitsOf e 62 42 * 2 ^ 21
          s.readPage r src frame

/-- PAGE_OUT: clears `RES`; it completes once the accesses translated to the frame have been performed. -/
def execPageOut (slot queue count : Nat) (s : State) : Result :=
  .next <| s.work slot queue count 0x25 fun r c s =>
    match s.pageOf c with
    | none => s.operandError r c qeOVF_STATE
    | some p =>
      let e := leNat (s.memRead (s.ovfSlot p) 8)
      if bitOf e 1 then s
      else if !bitOf e 0 then s.setWork r (.done stOK 0)
      else (s.setOvf p (putBit (putBit e 0 false) 1 true)).setWork r .waiting

/-- Requests of a command are outstanding. -/
def State.outstanding (s : State) (r : CmdRef) : Bool :=
  (s.ms.reqs.any fun q => q.2.src.cmd == r) || s.cores.any fun k => k.2.memq.any fun h => h.src.cmd == r

/-- The end of a paging command or a conversion whose data has all come. -/
def State.finishCmd (s : State) (r : CmdRef) : State :=
  match s.cmdAt r with
  | none => s
  | some c => match c.work with
    | some (.convert ps) => if c.opcode = 0x23 then s.convertFinish r c ps else s
    | some .waiting =>
      if c.opcode = 0x03 then (if leAt c.bytes 16 6 ≤ s.time.step then s.setWork r (.done stOK 0) else s)
      else if s.outstanding r then s
      else match s.pageOf c with
        | none => s
        | some p =>
          let e := leNat (s.memRead (s.ovfSlot p) 8)
          if c.opcode = 0x24 then
            let frame := leAt c.bytes 16 8
            (s.setOvf p (bitsOf e 62 42 * 2 ^ 42 + frame % 2 ^ 42 + 1)).setWork r (.done stOK 1)
          else if c.opcode = 0x25 then
            let frame := bitsOf e 41 21 * 2 ^ 21
            if s.ms.reqs.any fun q => decide (frame ≤ q.2.addr) && decide (q.2.addr < frame + 2 ^ 21) then s
            else (s.setOvf p (putBit e 1 false)).setWork r (.done stOK 1)
          else s
    | some (.dispatch d) =>
      if d.next = c.groups ∧ !s.dispatchLive r then s.setWork r (.done stOK d.cores.length) else s
    | _ => s

/-! ### Completion (R345 to R348) -/

/-- The completion record of Table 7-6. -/
def State.completion (s : State) (c : Cmd) (d status result : Nat) : List (BitVec 8) :=
  (c.bytes.drop 4).take 4 ++ leBytes 2 status ++ leBytes 1 c.opcode ++ leBytes 1 (1 - c.count / d % 2) ++
    leBytes 4 s.nt ++ leBytes 4 result

/-- COMMAND_COMPLETE: a command whose work is done and performed completes: its completion record, and, once that has been performed,
message and head. -/
def execCommandComplete (slot queue count : Nat) (s : State) : Result :=
  .next <|
    let r : CmdRef := ⟨slot, queue, count⟩
    if s.ctxState slot ≠ ctxACTIVE then s
    else
      let s := s.finishCmd r
      match s.cmdAt r with
      | none => s
      | some c => match c.work with
        | some (.done status result) =>
          if c.ended || s.outstanding r then s
          else
            let i := qi slot queue
            let d := s.depth i
            if bitOf (leAt c.bytes 1 1) 1 then
              match s.areaAccess r (s.queueBase i + d * 64 + count % d * 16) (.write (s.completion c d status result)) .record with
              | (s, .data _) => s.endCommand r
              | (s, _) => s
            else s.endCommand r
        | _ => s

end Sys2Proof.Machine
end

