-- ==== Sys2Proof/Machine/Links.lean ====
section
/-! DEFINITION. Fezen links (spec/09_fezen_links.md): circuits and wavelength-0 channels, credits, sequence numbers,
acknowledgement and replay, protected messages. A circuit has its index 0 to 511 as its key, the channel of port *p* the
key 512 + *p*. -/

namespace Sys2Proof

open Sys2Proof.Machine

/-- The class of a packet type (Table 9-6): 0 `PMSG`, 1 `RSP`, 2 `REQ`. -/
def packetClass (type : Nat) : Nat :=
  if type = 0x10 ∨ type = 0x1F then 0 else if 0x08 ≤ type ∧ type ≤ 0x0A then 1 else 2

/-- Bytes 16 to 27 of a packet's header: the fields of its type (Table 9-7). -/
def Pkt.typeFields (p : Pkt) (type : Nat) : List (BitVec 8) :=
  if type = 0x01 ∨ type = 0x02 ∨ type = 0x03 then
    leBytes 4 (p.queue % 2 ^ 3 + 2 ^ 3 * (p.cmdIdx % 2 ^ 16) + 2 ^ 19 * (p.core % 2 ^ 9) + 2 ^ 28 * (p.aop % 2 ^ 4)) ++
      leBytes 6 (p.addr % 2 ^ 42) ++ leBytes 2 p.rtag
  else if 0x08 ≤ type ∧ type ≤ 0x0A then leBytes 2 p.rtag ++ leBytes 1 p.status ++ leBytes 9 0
  else if type = 0x04 then
    leBytes 2 p.group ++ leBytes 4 p.cseq ++ leBytes 1 p.cop ++ leBytes 1 (p.fmt % 16 + 16 * p.op) ++ leBytes 2 p.step ++
      leBytes 2 p.cntFold
  else if type = 0x10 then
    leBytes 2 p.pseq ++ leBytes 1 p.kind ++ leBytes 1 0 ++ leBytes 2 (p.dst % 2 ^ 15) ++ leBytes 2 p.key ++ leBytes 4 p.value
  else leBytes 12 0

/-- Bytes 0 to 27 of a packet's header, each field little-endian and reserved bits 0 (Table 9-5, R6). -/
def Pkt.header (p : Pkt) (type : Nat) : List (BitVec 8) :=
  let flag (b : Bool) (n : Nat) : Nat := if b then n else 0
  leBytes 1 type ++ leBytes 1 (flag p.fetch 1 + flag p.mirror 2 + flag p.copyB 4) ++ leBytes 2 (p.len % 2 ^ 13) ++ leBytes 3 p.seq ++
    leBytes 1 p.inc ++ leBytes 2 (p.rcirc % 2 ^ 9) ++ leBytes 2 (p.src % 2 ^ 15) ++ leBytes 2 p.job ++
    leBytes 2 (p.ctx % 2 ^ 12 + 2 ^ 12 * (p.engine % 2 ^ 3)) ++ p.typeFields type

/-- A packet as it goes over the line: header, CRC-32C over header and payload, payload. -/
def Pkt.wire (p : Pkt) (type : Nat) : List (BitVec 8) :=
  p.header type ++ leBytes 4 (crc32c (p.header type ++ p.payload)) ++ p.payload

/-- Credits, and 32-byte units of replay buffer, that a packet needs (R453). -/
def Pkt.units (p : Pkt) : Nat := 1 + (p.payload.length + 31) / 32

end Sys2Proof

namespace Sys2Proof.Machine

open Sys2Proof

/-! ### Event codes of chapter 9 -/

def evLaneFail : Nat := 0x0900
def evCircMoved : Nat := 0x0901
def evCircDown : Nat := 0x0902
def evResync : Nat := 0x0903
def evTrainFail : Nat := 0x0904
def evBerHigh : Nat := 0x0905
def evProto : Nat := 0x0906
def evPmsgSingle : Nat := 0x0907

/-! ### Lanes, circuits and channels -/

/-- Lane states (`LNK_LANE.STATE`). -/
def lsDARK : Nat := 0
def lsCDR : Nat := 1
def lsADAPT : Nat := 2
def lsALIGN : Nat := 3
def lsINIT : Nat := 4
def lsCHECK : Nat := 5
def lsUP : Nat := 6
def lsFAILED : Nat := 7
def lsBEACON : Nat := 8

/-- Circuit states (`LNK_CIRC.STATE`). -/
def csNONE : Nat := 0
def csTRAINING : Nat := 1
def csUP : Nat := 2
def csMOVING : Nat := 3
def csDOWN : Nat := 4

/-- Control block kinds (Table 9-3). -/
def cbFLOW : Nat := 0x01
def cbINIT : Nat := 0x02
def cbTICK : Nat := 0x08
def cbPTP : Nat := 0x09
def cbDISC : Nat := 0x0A
def cbHB : Nat := 0x0B

def State.lane (s : State) (n : Nat) : Lane := kget s.lk.lanes n Lane.init
def State.setLane (s : State) (n : Nat) (x : Lane) : State := { s with lk.lanes := kset s.lk.lanes n x }
def State.laneState (s : State) (n : Nat) : Nat := s.rd F.LNK_LANE.STATE n
def State.setLaneState (s : State) (n v : Nat) : State := s.wr F.LNK_LANE.STATE v n

/-- The lane of a port's wavelength-0 channel (R434). -/
def w0Lane (port : Nat) : Nat := 180 + port
/-- The key of a port's channel. -/
def chanKey (port : Nat) : Nat := 512 + port
/-- The wavelength and the plane of a lane; 0 for a channel (R434). -/
def lanePlane (n : Nat) : Nat := if n < 180 then n / 12 + 1 else 0

/-- The circuit or channel that a lane belongs to. -/
def State.laneCirc (s : State) (n : Nat) : Option Nat :=
  if 180 ≤ n then some (chanKey (n - 180))
  else if s.flag F.LNK_LANE.CIRC_VALID n then some (s.rd F.LNK_LANE.CIRC n)
  else none

/-- The lanes of a circuit in plane order, or the one lane of a channel. -/
def State.circLanes (s : State) (c : Nat) : List Nat := if 512 ≤ c then [w0Lane (c - 512)] else (s.circ c).lanes

/-- A channel's port is up. -/
def State.chanUp (s : State) (port : Nat) : Bool := s.laneState (w0Lane port) == lsUP

/-- A circuit or channel is `UP`: packets are sent and accepted on it. -/
def State.circUp (s : State) (c : Nat) : Bool :=
  if 512 ≤ c then s.chanUp (c - 512) else s.rd F.LNK_CIRC.STATE c == csUP

/-- Sequence arithmetic (R456): how far `t` lies after `s`. -/
def seqDist (s t : Nat) : Nat := (t + 2 ^ 24 - s % 2 ^ 24) % 2 ^ 24
/-- `s` precedes `t`. -/
def seqBefore (s t : Nat) : Bool := decide (1 ≤ seqDist s t) && decide (seqDist s t < 2 ^ 23)

/-- The first number from `s` on that travels on lane `i` of `k` (R457); the search spans a wrap. -/
def nextOnLane (k i s : Nat) : Nat :=
  (((List.range (2 * k)).map fun d => (s + d) % 2 ^ 24).find? fun n => n % k == i).getD s

/-! ### Credits and sending (R452 to R454) -/

/-- Full credits of a class. -/
def fullCredit (cls : Nat) : Nat := if cls = 0 then 128 else if cls = 1 then 896 else 3072

/-- Credits of a class in use by the transmitter. -/
def Lane.used (x : Lane) (cls : Nat) : Nat := if cls = 0 then x.usedPmsg else if cls = 1 then x.usedRsp else x.usedReq

def Lane.use (x : Lane) (cls n : Nat) : Lane :=
  if cls = 0 then { x with usedPmsg := x.usedPmsg + n }
  else if cls = 1 then { x with usedRsp := x.usedRsp + n }
  else { x with usedReq := x.usedReq + n }

/-- The receiver returns credits of a class: the running total modulo 2^16. -/
def Lane.giveBack (x : Lane) (cls n : Nat) : Lane :=
  if cls = 0 then { x with retPmsg := (x.retPmsg + n) % 2 ^ 16 }
  else if cls = 1 then { x with retRsp := (x.retRsp + n) % 2 ^ 16 }
  else { x with retReq := (x.retReq + n) % 2 ^ 16 }

/-- Replay units in use on lane `i` of `k`. -/
def Circ.replayUsed (x : Circ) (k i : Nat) : Nat :=
  (x.replay.filter fun t => t.pkt.seq % k == i).foldl (fun n t => n + t.pkt.units) 0

/-- A copy of a protected message that this module originated has passed `PMSG_AGE` (R476). -/
def State.pmsgAged (s : State) (t : TxPkt) : Bool :=
  t.type == ptPMSG && t.pkt.src == s.node && decide (t.born + s.rd1 F.LNK_CFG.PMSG_AGE < s.opMs)

/-- The first waiting packet of a class, with the packets before and after it. -/
def firstOf (cls : Nat) : List TxPkt → List TxPkt → Option (List TxPkt × TxPkt × List TxPkt)
  | _, [] => none
  | before, t :: rest => if packetClass t.type = cls then some (before, t, rest) else firstOf cls (before ++ [t]) rest

/-- R454: the packet that the transmitter sends next: the oldest of the first class for which the lane has credits and
replay space. Requests held for a rebinding (R551) do not qualify. -/
def State.pick (s : State) (c : Nat) : Option (List TxPkt × TxPkt × List TxPkt) :=
  let x := s.circ c
  let lanes := s.circLanes c
  let k := lanes.length
  let i := x.tx % k
  let l := s.lane (lanes.getD i 0)
  [0, 1, 2].findSome? fun cls =>
    match firstOf cls [] x.txq with
    | some (b, t, r) =>
      if (cls = 2 ∧ x.after.isSome) ∨ fullCredit cls < l.used cls + t.pkt.units ∨ 4096 < x.replayUsed k i + t.pkt.units then none
      else some (b, t, r)
    | none => none

/-- Put a packet on the line. -/
def State.putOnLine (s : State) (c : Nat) (t : TxPkt) : State := s.emit (.packet c (t.pkt.wire t.type))

/-! ### Protected messages: sending (R473 to R476, R549, R550) -/

/-- Keys of the routing table's other kinds (Table 11-8). -/
def memberKey (m : Nat) : Nat := 0x20000 + m
def cellKey (c : Nat) : Nat := 0x30000 + c
def blockKey (b : Nat) : Nat := 0x40000 + b

def nodeBlock (n : Nat) : Nat := bitsOf n 14 8
def nodeCell (n : Nat) : Nat := bitsOf n 7 4
def nodeMember (n : Nat) : Nat := bitsOf n 3 0

/-- The routing table entry that gives the next hops toward a node: its own replacement hops, or the hierarchical ones. -/
def State.routeOf (s : State) (dst : Nat) : Route :=
  let e := kget s.routes (nodeKey dst) Route.init
  if e.repl then e
  else if nodeBlock dst ≠ nodeBlock s.node then kget s.routes (blockKey (nodeBlock dst)) Route.init
  else if nodeCell dst ≠ nodeCell s.node then kget s.routes (cellKey (nodeCell dst)) Route.init
  else kget s.routes (memberKey (nodeMember dst)) Route.init

/-- The next hops toward a node, A first, by port. -/
def State.nextHops (s : State) (dst : Nat) : List Nat :=
  let r := s.routeOf dst
  r.a.toList ++ r.b.toList

/-- Messages to a destination within the last `PMSG_AGE` (R475). -/
def State.recentSends (s : State) (dst : Nat) : List Nat :=
  (kget s.lk.times dst []).filter fun t => decide (s.opMs < t + s.rd1 F.LNK_CFG.PMSG_AGE)

/-- The copies of a protected message leave on the next hops (R473, R474). -/
def State.launch (s : State) (p : Pkt) : State :=
  let dst := p.dst
  let n := kget s.lk.pseq dst 0
  let p := { p with pseq := n }
  let s := { s with
    lk.pseq := kset s.lk.pseq dst ((n + 1) % 2 ^ 16)
    lk.times := kset s.lk.times dst (s.recentSends dst ++ [s.opMs]) }
  match s.nextHops dst with
  | [] => s
  | [a] =>
    let s := s.enqueue (chanKey a) ptPMSG p
    match kfind s.lk.single dst with
    | some t => if s.opMs < t + 10000 then s else
      ({ s with lk.single := kset s.lk.single dst s.opMs }).note evPmsgSingle 1 0 0 [dst]
    | none => ({ s with lk.single := kset s.lk.single dst s.opMs }).note evPmsgSingle 1 0 0 [dst]
  | a :: b :: _ => (s.enqueue (chanKey a) ptPMSG p).enqueue (chanKey b) ptPMSG { p with copyB := true }

/-- A protected message to another node: two copies, one, or none (`false`) as its routes allow. More than 1,023 within
`PMSG_AGE` wait (R475). -/
def State.sendPmsg (s : State) (dst kind key value : Nat) (payload : List (BitVec 8)) (job ctx engine : Nat := 0) :
    State × Bool :=
  if s.nextHops dst = [] then (s, false)
  else
    let p := { Pkt.zero with
      src := s.node, dst := dst, kind := kind, key := key, value := value, payload := payload, len := payload.length,
      job := job, ctx := ctx, engine := engine, inc := s.lk.inc }
    let s := s.emit (.pmsg dst kind key value (payload.map BitVec.toNat))
    if 1023 ≤ (s.recentSends dst).length then ({ s with lk.held := s.lk.held ++ [p] }, true)
    else (s.launch p, true)

/-- The same, where nothing depends on there being a route. -/
def State.pmsg (s : State) (dst kind key value : Nat) (payload : List (BitVec 8)) (job ctx engine : Nat := 0) : State :=
  (s.sendPmsg dst kind key value payload job ctx engine).1

/-- Kinds of protected messages (Table 9-12). -/
def pkHELLO : Nat := 0x01
def pkTOKEN : Nat := 0x02
def pkABORT : Nat := 0x03
def pkREADY : Nat := 0x04
def pkARRIVE : Nat := 0x05
def pkMIRROR : Nat := 0x06
def pkSYNC : Nat := 0x07

/-- Held messages that may go now leave (R475). -/
def State.releaseHeld (s : State) : State :=
  s.lk.held.foldl (fun (s : State) p =>
    if 1023 ≤ (s.recentSends p.dst).length then { s with lk.held := s.lk.held ++ [p] } else s.launch p)
    { s with lk.held := [] }

/-- PACKET_SEND: the transmitter of a circuit or channel sends one packet, if one qualifies. -/
def execPacketSend (circ : Nat) (s : State) : Result :=
  .next <|
    let s := s.releaseHeld
    let x := s.circ circ
    let s := s.setCirc circ { x with txq := x.txq.filter fun t => !s.pmsgAged t }
    if !s.circUp circ then s
    else match s.pick circ with
      | none => s
      | some (b, t, r) =>
        let x := s.circ circ
        let lanes := s.circLanes circ
        let n := lanes.getD (x.tx % lanes.length) 0
        let t := { t with pkt := { t.pkt with seq := x.tx, rcirc := x.rcirc } }
        let s := s.setLane n ((s.lane n).use (packetClass t.type) t.pkt.units)
        (s.setCirc circ { x with txq := b ++ r, replay := x.replay ++ [t], tx := (x.tx + 1) % 2 ^ 24 }).putOnLine circ t

/-! ### Acknowledgement and replay (R458 to R461) -/

/-- The `VOID` that takes a packet's number. -/
def TxPkt.voided (t : TxPkt) : TxPkt :=
  ⟨ptVOID, { Pkt.zero with seq := t.pkt.seq, inc := t.pkt.inc, rcirc := t.pkt.rcirc, src := t.pkt.src }, t.born⟩

/-- Resend packets from replay; a copy past its age goes as a `VOID` with its number (R476). -/
def State.resend (s : State) (c : Nat) (sel : TxPkt → Bool) : State :=
  let x := s.circ c
  let x := { x with replay := x.replay.map fun t => if (sel t && s.pmsgAged t) then t.voided else t }
  (x.replay.filter sel).foldl (fun (s : State) t => s.putOnLine c t) (s.setCirc c x)

/-- An `ACK` of the far end: replay space of earlier packets is freed (R459). -/
def State.takeAck (s : State) (c ack : Nat) : State :=
  let x := s.circ c
  if seqBefore x.ack ack && decide (seqDist x.ack ack ≤ seqDist x.ack x.tx) then
    s.setCirc c { x with ack := ack, replays := 0, replay := x.replay.filter fun t => !seqBefore t.pkt.seq ack }
  else s

/-- Returned credits: the running totals of one class. -/
def returnCredit (used seen total : Nat) : Nat := used - (total + 2 ^ 16 - seen % 2 ^ 16) % 2 ^ 16

/-- FLOW: `ACK`, the credits returned on the lane, and a `NAK_SEQ`. -/
def execFlow (lane ack req rsp pmsg nakSeq : Nat) (nakValid : Bool) (s : State) : Result :=
  .next <|
    if s.laneState lane ≠ lsUP then s
    else match s.laneCirc lane with
      | none => s
      | some c =>
        let x := s.lane lane
        let s := s.setLane lane { x with
          usedReq := returnCredit x.usedReq x.seenReq req, seenReq := req
          usedRsp := returnCredit x.usedRsp x.seenRsp rsp, seenRsp := rsp
          usedPmsg := returnCredit x.usedPmsg x.seenPmsg pmsg, seenPmsg := pmsg }
        let s := s.takeAck c ack
        if nakValid then
          let lanes := s.circLanes c
          let i := lanes.idxOf lane
          s.resend c fun t => t.pkt.seq % lanes.length == i && !seqBefore t.pkt.seq nakSeq
        else s

/-! ### Reception (R451, R457, R458) -/

/-- A packet is discarded under R451; the event carries bytes 0 to 15 of its header. -/
def State.protoError (s : State) (lane type : Nat) (p : Pkt) : State :=
  (s.bump F.LNK_CNT_PROTO.COUNT).note evProto 1 5 lane [lane, leNat ((p.header type).take 16)] (some p.ctx)

/-- The header shows an error of R451: a reserved bit or type, a circuit that is not `UP`, an old incarnation on a circuit (R471; a copy
that wavelength 0 relays keeps its originator's, notes/assumptions/28.md), or a type that wavelength 0 does not carry (R479). -/
def State.badHeader (s : State) (c type : Nat) (p : Pkt) : Bool :=
  p.rsvd != 0 || !s.circUp (if 512 ≤ c then chanKey p.rcirc else p.rcirc) ||
    (match (s.circ c).far with
      | some f => decide (c < 512) && f != p.inc
      | none => false) ||
    (decide (512 ≤ c) && type != ptPMSG && type != ptVOID) || (type == ptATOM && decide (4 < p.aop)) || decide (2 ^ 42 ≤ p.addr)

/-- A `FLOW` block of a lane (Table 9-3): `ACK` = *E*, the credits returned so far, and the number a gap waits for. It goes out as
something of it changes (notes/assumptions/110.md). -/
def State.sendFlow (s : State) (lane c : Nat) (nak : Option Nat) : State :=
  let l := s.lane lane
  s.emit (.lane lane cbFLOW [(s.circ c).e, l.retReq, l.retRsp, l.retPmsg, nak.getD 0, b2n nak.isSome])

/-- A packet arrives on a lane: duplicates are dropped, the expected one is buffered, anything else is a gap (R457).
`note` travels with the packet to its consumer. -/
def State.arrive (s : State) (lane c type : Nat) (p : Pkt) (note : Nat) : State :=
  let x := s.circ c
  let l := s.lane lane
  let lanes := s.circLanes c
  let k := lanes.length
  let i := lanes.idxOf lane
  let want := l.expect.getD (nextOnLane k i x.e)
  if 1 ≤ seqDist p.seq x.e ∧ seqDist p.seq x.e ≤ 2 ^ 22 then s.bump F.LNK_CNT_DUP.COUNT
  else if p.seq = want then
    let bad := s.badHeader c type p
    let s := if bad then s.protoError lane type p else s
    let t := if bad then ptVOID else type
    s.setLane lane { l with buf := kset l.buf p.seq ⟨t, p, note⟩, expect := some (nextOnLane k i (p.seq + 1)), nak := false }
  else
    let s := if 2 ^ 22 ≤ seqDist x.e p.seq then s.protoError lane type p else s
    if l.nak then s else (s.setLane lane { l with nak := true }).sendFlow lane c (some want)

/-- Received packets go to their consumers in sequence order; each returns its credits (R453, R458). -/
def State.deliverAll (consume : Nat → TxPkt → State → State) : Nat → Nat → State → State
  | 0, _, s => s
  | fuel + 1, c, s =>
    let x := s.circ c
    let lanes := s.circLanes c
    let n := lanes.getD (x.e % lanes.length) 0
    let l := s.lane n
    match kfind l.buf x.e with
    | none => s
    | some t =>
      let s := s.setLane n ({ l with buf := kdel l.buf x.e }.giveBack (packetClass t.type) t.pkt.units)
      let s := s.setCirc c { x with e := (x.e + 1) % 2 ^ 24 }
      State.deliverAll consume fuel c (consume c t s)

/-- A packet of the given type is received on an `UP` lane. -/
def State.receive (s : State) (lane type : Nat) (p : Pkt) (note : Nat) (consume : Nat → TxPkt → State → State) : State :=
  match s.laneCirc lane with
  | none => s
  | some c =>
    if s.laneState lane ≠ lsUP ∨ !s.circUp c then s
    else
      let s := s.arrive lane c type p note
      let held : Nat := (s.circLanes c).foldl (fun (n : Nat) l => n + (s.lane l).buf.length) 0
      (s.deliverAll consume held c).sendFlow lane c none

/-! ### Protected messages: receiving (R477, R556) -/

/-- R477: whether a copy is accepted, and the state after. -/
def State.acceptPmsg (s : State) (p : Pkt) : State × Bool :=
  let fresh : PmsgWin := ⟨p.pseq, [p.pseq], p.inc⟩
  let put (w : PmsgWin) : State := { s with lk.wins := kset s.lk.wins p.src w }
  match kfind s.lk.wins p.src with
  | none => (put fresh, true)
  | some w =>
    let newer := (p.inc + 256 - w.inc % 256) % 256
    if 1 ≤ newer ∧ newer ≤ 127 then (put fresh, true)
    else if newer ≠ 0 then (s.bump F.LNK_CNT_PMSG_STALE.COUNT, false)
    else
      let ahead := (p.pseq + 2 ^ 16 - w.high % 2 ^ 16) % 2 ^ 16
      let behind := (w.high + 2 ^ 16 - p.pseq % 2 ^ 16) % 2 ^ 16
      let keep (h : Nat) : List Nat := w.seen.filter fun n => decide ((h + 2 ^ 16 - n) % 2 ^ 16 < 1024)
      if 1 ≤ ahead ∧ ahead ≤ 32767 then (put { w with high := p.pseq, seen := p.pseq :: keep p.pseq }, true)
      else if behind < 1024 then
        if w.seen.contains p.pseq then (s.bump F.LNK_CNT_PMSG_DUP.COUNT, false)
        else (put { w with seen := p.pseq :: w.seen }, true)
      else (s.bump F.LNK_CNT_PMSG_STALE.COUNT, false)

/-- PMSG_ENTRY_EXPIRES: 10 s have passed without an accepted copy from a source. -/
def execPmsgEntryExpires (src : Nat) (s : State) : Result := .next { s with lk.wins := kdel s.lk.wins src }

/-- PMSG_RELAY_DISCARD: a relay has held a copy on a port for 1 ms: the oldest waiting copy of another node's message
goes (R476). -/
def execPmsgRelayDiscard (port : Nat) (s : State) : Result :=
  .next <|
    let x := s.circ (chanKey port)
    match x.txq.find? fun t => t.type == ptPMSG && t.pkt.src != s.node with
    | some t => s.setCirc (chanKey port) { x with txq := x.txq.erase t }
    | none => s

/-- A relayed copy goes on the next hop of its letter, or on the other where that one is absent (R550). Bytes that the
relay buffer has no room for (16 KiB a port) are not accepted. -/
def State.relayPmsg (s : State) (p : Pkt) : State :=
  let r := s.routeOf p.dst
  match (if p.copyB then r.b <|> r.a else r.a <|> r.b) with
  | none => s
  | some port =>
    let held : Nat := ((s.circ (chanKey port)).txq.filter fun t => t.pkt.src != s.node).foldl (fun (n : Nat) t => n + t.pkt.units * 32) 0
    if 16384 < held + p.units * 32 then s else s.enqueue (chanKey port) ptPMSG p

/-! ### Bring-up (R445 to R448) -/

/-- LNK_LANE_ERR of a lane is cleared on entry to `UP`. -/
def State.clearLaneErr (s : State) (lane : Nat) : State := s.wreg .LNK_LANE_ERR 0 lane

/-- A lane enters `FAILED`. -/
def State.laneFailed (s : State) (lane : Nat) : State :=
  (s.setLaneState lane lsFAILED).bump F.LNK_LANE.FAILS lane

/-- `LNK_TRAIN_FAIL`: cause 0 bound, 1 threshold, 2 wrong far end. -/
def State.trainFail (s : State) (lane cause : Nat) : State :=
  s.laneFailed lane |>.note evTrainFail 1 5 lane [lane, s.laneState lane, cause]

/-- LANE_CLOCK_RECOVERED: a lane in `CDR` enters `ADAPT`. A wavelength-0 channel that has failed trains again from
here, or sends its beacon again while its port is quarantined (R478; DEDUCED, notes/assumptions/28.md). -/
def execLaneClockRecovered (lane : Nat) (s : State) : Result :=
  .next <|
    let failed := decide (180 ≤ lane) && s.laneState lane == lsFAILED
    if failed && s.flag F.LAT_PORT.QUAR (lane - 180) then s.setLaneState lane lsBEACON
    else if failed || s.laneState lane == lsCDR then
      (s.setLaneState lane lsADAPT).setLane lane { s.lane lane with retried := false, initOk := false }
    else s

/-- LANE_EQUALISER_CONVERGED: from `ADAPT` to `ALIGN`, or back to `CHECK` after the refinement. -/
def execLaneEqualiserConverged (lane : Nat) (s : State) : Result :=
  .next <| if s.laneState lane = lsADAPT then s.setLaneState lane (if (s.lane lane).retried then lsCHECK else lsALIGN) else s

/-- The lane's `INIT` block with `READY` (Table 9-3). -/
def State.sendInit (s : State) (lane : Nat) : State :=
  let c := (s.laneCirc lane).getD 0
  let lanes := s.circLanes c
  s.emit (.lane lane cbINIT [s.node, s.lk.inc, if 512 ≤ c then c - 512 else c, lanes.idxOf lane, lanes.length, lanePlane lane, 1])

/-- LANE_ALIGNMENT_FOUND: from `ALIGN` to `INIT`. -/
def execLaneAlignmentFound (lane : Nat) (s : State) : Result :=
  .next <| if s.laneState lane = lsALIGN then (s.setLaneState lane lsINIT).sendInit lane else s

/-- LNK_BER_HIGH: more than 44,800 symbols corrected in 1 ms on an `UP` lane. -/
def execLnkBerHigh (lane symbols : Nat) (s : State) : Result :=
  .next <| if s.laneState lane ≠ lsUP then s
    else
      let s := s.bump F.LNK_LANE_ERR.CORR_SYM lane symbols
      if 44800 < symbols then s.note evBerHigh 1 5 lane [lane, symbols] else s

/-- UNCORRECTABLE_CODEWORD: its blocks, and the packets over them, are discarded and counted. -/
def execUncorrectableCodeword (lane : Nat) (s : State) : Result :=
  .next <|
    let s := s.bump F.LNK_CNT_UNCORR.COUNT
    if s.laneState lane = lsUP then s.bumpSat F.LNK_LANE_ERR.UNCORR lane else s

/-- PACKET_CRC_FAIL: the packet counts and is a gap. -/
def execPacketCrcFail (lane : Nat) (s : State) : Result :=
  .next <|
    if s.laneState lane ≠ lsUP then s
    else match s.laneCirc lane with
      | none => s
      | some c =>
        let s := (s.bump F.LNK_CNT_CRC.COUNT).bumpSat F.LNK_LANE_ERR.CRC_ERR lane
        let l := s.lane lane
        if l.nak then s
        else
          let lanes := s.circLanes c
          let want := l.expect.getD (nextOnLane lanes.length (lanes.idxOf lane) (s.circ c).e)
          (s.setLane lane { l with nak := true }).sendFlow lane c (some want)

/-! ### Failure and resynchronisation (R464 to R471) -/

/-- Packets held in a receive buffer and not yet received go, and their credits return (R465, step 3). -/
def State.dropBuffered (s : State) (c : Nat) : State :=
  (s.circLanes c).foldl (fun (s : State) n =>
    let l := s.lane n
    s.setLane n ((l.buf.foldl (fun (x : Lane) e => x.giveBack (packetClass e.2.type) e.2.pkt.units) { l with buf := [], expect := none })))
    s

/-- R465, steps 1 to 3, for a circuit one of whose lanes has failed. -/
def State.circMoving (s : State) (c : Nat) : State :=
  let st := s.rd F.LNK_CIRC.STATE c
  if st = csTRAINING ∨ st = csUP then
    let x := s.circ c
    let s := s.setCirc c { x with moving := true, before := if x.moving then x.before else x.lanes.length, movedAt := s.opMs,
                                  inMove := if x.moving then x.inMove else 0 }
    (s.dropBuffered c).wr F.LNK_CIRC.STATE csMOVING c
  else s

/-- R471 on entry to `UP`: the far incarnation is recorded; where it differs, both directions start again from 0. -/
def State.meetFar (s : State) (c inc : Nat) : State :=
  let x := s.circ c
  match x.far with
  | none => s.setCirc c { x with far := some inc }
  | some f =>
    if f = inc then s
    else
      let s := s.dropBuffered c
      let s := s.setCirc c { s.circ c with replay := [], ack := 0, tx := 0, e := 0, far := some inc, replays := 0 }
      let s := if c < 512 then s.bump F.LNK_CIRC.RESYNCS c else s
      s.note evResync 1 (if c < 512 then 6 else 7) (if c < 512 then c else c - 512) [c, f, inc, x.replay.length]

/-- A lane enters `UP` with full credits. -/
def State.laneUp (s : State) (lane : Nat) : State :=
  let l := s.lane lane
  ((s.setLaneState lane lsUP).clearLaneErr lane).setLane lane { Lane.init with initOk := l.initOk, farInc := l.farInc }

/-- A circuit whose lanes are all `UP` enters `UP`: incarnations, the reissue of a move (R467) and its record. -/
def State.circEnterUp (s : State) (c : Nat) : State :=
  let far := (s.lane ((s.circLanes c).getD 0 0)).farInc
  let s := s.wr F.LNK_CIRC.STATE csUP c
  let s := s.meetFar c far
  let x := s.circ c
  if x.moving then
    let s := (s.setCirc c { x with moving := false }).bump F.LNK_CIRC.MOVES c
    let s := s.note evCircMoved 1 6 c [c, x.before, x.lanes.length, x.replay.length, x.inMove]
    s.resend c fun _ => true
  else s

/-- A circuit's MAC end goes away with its contents (Table 9-9, R468). -/
def State.circNone (s : State) (c : Nat) : State :=
  let s := (s.circ c).lanes.foldl (fun (s : State) n =>
    ((((s.setLaneState n lsDARK).wr F.LNK_LANE.CIRC_VALID 0 n).wr F.LNK_LANE.CIRC 0 n).wr F.LNK_LANE.LANE_I 0 n).setLane n Lane.init) s
  (s.wreg .LNK_CIRC 0 c).setCirc c Circ.init

/-- A circuit leaves `MOVING`: the time it spent there counts (`LNK_CIRC_MOVED`). -/
def State.leaveMoving (s : State) (c : Nat) : State :=
  let x := s.circ c
  if s.rd F.LNK_CIRC.STATE c = csMOVING then s.setCirc c { x with inMove := x.inMove + (s.opMs - x.movedAt) } else s

/-- A circuit takes a set of lit and verified lanes, in plane order, and trains (R435, Table 9-9). -/
def State.circTrain (s : State) (c far : Nat) (lanes : List Nat) : State :=
  let old := (s.circ c).lanes
  let s := (old.filter fun n => !lanes.contains n).foldl (fun (s : State) n =>
    (((s.setLaneState n lsDARK).wr F.LNK_LANE.CIRC_VALID 0 n).wr F.LNK_LANE.CIRC 0 n).setLane n Lane.init) s
  let s := lanes.foldl (fun (s : State) n =>
    ((((s.setLaneState n lsCDR).wr F.LNK_LANE.CIRC_VALID 1 n).wr F.LNK_LANE.CIRC c n).wr F.LNK_LANE.LANE_I (lanes.idxOf n) n).setLane n Lane.init) s
  let s := (s.leaveMoving c).setCirc c { (s.leaveMoving c).circ c with lanes := lanes }
  (s.wr F.LNK_CIRC.STATE csTRAINING c).wr F.LNK_CIRC.FAR_NODE far c

/-- A circuit without a route (R468): its replay stays. -/
def State.circDown (s : State) (c : Nat) : State :=
  let x := s.circ c
  ((s.leaveMoving c).wr F.LNK_CIRC.STATE csDOWN c).note evCircDown 1 6 c [c, s.rd F.LNK_CIRC.FAR_NODE c, x.replay.length + x.txq.length]

end Sys2Proof.Machine
end

