-- ==== Sys2Proof/Machine/Wiring.lean ====
section
/-! DEFINITION. The wiring plan and the effective wiring (R526 to R535), candidate routes (R494, R497, R552) and the loss
budget (R493). -/

namespace Sys2Proof.Machine

open Sys2Proof

/-! ### The plan (Table 11-4) -/

/-- Bits of the `PRESENT` map. -/
def presentNodes (bs : List (BitVec 8)) : List Nat :=
  (List.range 4096).flatMap fun i =>
    let b := (bs.getD (64 + i) 0).toNat
    if b = 0 then [] else (List.range 8).filterMap fun j => if bitOf b j then some (i * 8 + j) else none

def planExc (bs : List (BitVec 8)) (i : Nat) : PlanExc :=
  let o := 135232 + 8 * i
  ⟨leAt bs o 2 % 2 ^ 15, leAt bs (o + 2) 1 % 32, leAt bs (o + 2) 1 / 32 == 1, leAt bs (o + 4) 2 % 2 ^ 15, leAt bs (o + 3) 1 % 32,
    leAt bs (o + 6) 2⟩

/-- Read a plan from its bytes. -/
def readPlan (bs : List (BitVec 8)) : Plan :=
  let present := presentNodes bs
  { ver := leAt bs 2 2
    blocks := leAt bs 4 1
    crc := leAt bs 8 4
    self := leAt bs 14 2 % 2 ^ 15
    lens := (leAt bs 16 2, leAt bs 18 2, leAt bs 20 2)
    present := present
    fpr := present.filterMap fun n => let f := leAt bs (4160 + 4 * n) 4; if f = 0 then none else some (n, f)
    excs := (List.range (leAt bs 12 2)).map (planExc bs) }

def Plan.has (p : Plan) (n : Nat) : Bool := p.present.contains n

/-! ### The standard rules (Table 11-1) -/

def mkNode (b c m : Nat) : Nat := b * 256 + c % 16 * 16 + m

/-- The tier of a port: 0 cell, 1 block, 2 domain. -/
def portTier (p : Nat) : Nat := if p < 15 then 0 else if p < 21 then 1 else 2

/-- The peer and peer port of (*b*, *c*, *m*) port `p` under Table 11-1, before R530. -/
def standardPeer (blocks n p : Nat) : Option (Nat × Nat) :=
  let b := nodeBlock n
  let c := nodeCell n
  let m := nodeMember n
  if p < 15 then
    let y := if p < m then p else p + 1
    some (mkNode b c y, if y < m then m - 1 else m)
  else if p < 21 then
    let i := (p - 15) / 2
    let d := 1 + (3 * m + i) % 15
    if (p - 15) % 2 = 0 then some (mkNode b (c + d) m, p + 1) else some (mkNode b (c + 16 - d) m, p - 1)
  else if blocks ≤ 1 then none
  else if p = 23 then (if b.xor 1 < blocks then some (mkNode (b.xor 1) c m, 23) else none)
  else if p = 21 ∨ p = 22 then
    let e := 1 + (16 * c + m) % (blocks - 1)
    if p = 21 then some (mkNode ((b + e) % blocks) c m, 22) else some (mkNode ((b + blocks - e) % blocks) c m, 21)
  else none

/-- The exception that names a port. -/
def Plan.excOf (p : Plan) (n port : Nat) : Option PlanExc :=
  p.excs.find? fun e => (e.nodeA == n && e.portA == port) || (!e.open_ && e.nodeB == n && e.portB == port)

/-- The wiring of a port under the plan (R530, R534). -/
def Plan.peer (p : Plan) (n port : Nat) : Option (Nat × Nat) :=
  match p.excOf n port with
  | some e =>
    if e.open_ then none
    else if e.nodeA = n ∧ e.portA = port then some (e.nodeB, e.portB) else some (e.nodeA, e.portA)
  | none => match standardPeer p.blocks n port with
    | some (m, q) => if p.has m then some (m, q) else none
    | none => none

/-- The fibre length of a port's link, in 0.1 m. -/
def Plan.len (p : Plan) (n port : Nat) : Nat :=
  let tier := if portTier port = 0 then p.lens.1 else if portTier port = 1 then p.lens.2.1 else p.lens.2.2
  match p.excOf n port with
  | some e => if e.len = 0 then tier else e.len
  | none => tier

/-- The effective wiring of a port of any module: an accepted swap of this module's port replaces the plan's (R534). -/
def State.wired (s : State) (n port : Nat) : Option (Nat × Nat) :=
  match s.topo.cur with
  | none => none
  | some p => match (if n = s.node then kfind s.topo.swaps port else none) with
    | some x => some x
    | none => p.peer n port

/-- The fibre length assumed for a link: measured where known (R547). -/
def State.linkLen (s : State) (n port : Nat) : Nat :=
  match (if n = s.node then kfind s.topo.lens port else none) with
  | some l => l
  | none => match s.topo.cur with
    | some p => p.len n port
    | none => 0

/-! ### Ports -/

def vNONE : Nat := 0x0
def vPENDING : Nat := 0x1
def vMATCH : Nat := 0x2
def vSWAP_ACCEPTED : Nat := 0x3
def vMISSING : Nat := 0x4
def vUNUSED : Nat := 0x5
def vUNPLANNED : Nat := 0x6
def vFOREIGN : Nat := 0x7
def vSWAPPED : Nat := 0x8
def vTIER : Nat := 0x9
def vASYMMETRIC : Nat := 0xA
def vIDENTITY : Nat := 0xB
def vLOOP : Nat := 0xC
def vFAR_QUAR : Nat := 0xD

def State.verdict (s : State) (port : Nat) : Nat := s.rd F.PTH_DISC_PORT.VERDICT port

/-- The verdict puts the port in use. -/
def verdictUsed (v : Nat) : Bool := v == 2 || v == 3
/-- The verdict quarantines the port (Table 11-7). -/
def verdictQuar (v : Nat) : Bool := decide (6 ≤ v)

/-- A port that the routing table may name: verdict in use and channel `UP` (R549). -/
def State.portUsable (s : State) (port : Nat) : Bool := verdictUsed (s.verdict port) && s.chanUp port

/-- A port that a route may leave by: usable and not lossy (R494). -/
def State.portRoutable (s : State) (port : Nat) : Bool := s.portUsable port && !s.flag F.LAT_PORT.LOSSY port

/-! ### Candidate routes -/

/-- Routes from a node to `far` of at most `fuel` segments over a wiring, never through `seen`. -/
def routesVia (wire : Nat → Nat → Option (Nat × Nat)) (far : Nat) : Nat → Nat → List Nat → List (List Hop)
  | 0, _, _ => []
  | fuel + 1, n, seen =>
    (List.range 24).flatMap fun p =>
      match wire n p with
      | none => []
      | some (m, q) =>
        if seen.contains m then []
        else if m = far then [[⟨p, m, q⟩]]
        else (routesVia wire far fuel m (m :: seen)).map fun r => ⟨p, m, q⟩ :: r

/-- The route that explicit egress ports give. -/
def routeByPorts (wire : Nat → Nat → Option (Nat × Nat)) : Nat → List Nat → Option (List Hop)
  | _, [] => some []
  | n, p :: ps => match wire n p with
    | none => none
    | some (m, q) => (routeByPorts wire m ps).map fun r => ⟨p, m, q⟩ :: r

/-- Links excluded at this module: ports that are not routable. -/
def State.wireFor (s : State) (n p : Nat) : Option (Nat × Nat) :=
  if n = s.node ∧ !s.portRoutable p then none else s.wired n p

/-- The fibre of a route in 0.1 m. -/
def State.routeLen (s : State) : Nat → List Hop → Nat
  | _, [] => 0
  | n, h :: r => s.linkLen n h.egress + s.routeLen h.node r

/-- Rank of a route (R497): over 450 m, intermediate modules, preference of the egress port, first egress port. Margins
and the preferences of other modules' ports are not known before a reservation. -/
def State.routeRank (s : State) (r : List Hop) : List Nat :=
  let first := (r.map Hop.egress).getD 0 0
  [b2n (decide (4500 < s.routeLen s.node r)), r.length - 1, s.rd F.LAT_PORT.PREF first, first]

def lexLe : List Nat → List Nat → Bool
  | [], _ => true
  | _, [] => false
  | a :: as, b :: bs => if a < b then true else if b < a then false else lexLe as bs

/-- Candidate routes to a module in rank order, or the one route given. -/
def State.candidates (s : State) (far hops : Nat) (ports : List Nat) : List (List Hop) :=
  if far = s.node then []
  else if ports.isEmpty then
    (routesVia s.wireFor far (min hops 3 + 1) s.node [s.node]).mergeSort fun a b => lexLe (s.routeRank a) (s.routeRank b)
  else match routeByPorts s.wireFor s.node ports with
    | some r =>
      let ns := s.node :: r.map Hop.node
      if (r.getLast?.map Hop.node) = some far ∧ r.length ≤ min hops 3 + 1 ∧ ns.eraseDups.length = ns.length then [r] else []
    | none => []

/-- The fibres of a route, each by both its ends. -/
def routeFibres : Nat → List Hop → List (Nat × Nat)
  | _, [] => []
  | n, h :: r => (n, h.egress) :: (h.node, h.arrival) :: routeFibres h.node r

/-- The intermediate modules of a route. -/
def routeMids (r : List Hop) : List Nat := (r.dropLast).map Hop.node

/-- A backup shares no fibre and no intermediate module with the primary (R498). -/
def disjointRoutes (self : Nat) (a b : List Hop) : Bool :=
  !((routeFibres self a).any fun f => (routeFibres self b).contains f) &&
    !((routeMids a).any fun m => (routeMids b).contains m)

/-! ### The loss budget (R493, Table 10-4) -/

/-- The penalty in 0.1 dB of a segment whose span loss is `S` (0.1 dB), where it is usable: *P* = −(*S* + 4.0) dBm. -/
def segPenalty (span : Nat) : Option Nat :=
  if span ≤ 50 then some 4 else if span ≤ 90 then some 8 else if span ≤ 140 then some 15 else none

/-- The penalties of a direction, where it passes. -/
def dirPenalty : List Nat → Option Nat
  | [] => some 0
  | x :: xs => match segPenalty x, dirPenalty xs with
    | some a, some b => if a + b ≤ 30 then some (a + b) else none
    | _, _ => none

/-- The margin of a route in 0.1 dB from the spans of both directions, where it passes. -/
def routeMargin (fwd rev : List Nat) : Option Nat :=
  match dirPenalty fwd, dirPenalty rev with
  | some a, some b => some (30 - max a b)
  | _, _ => none

end Sys2Proof.Machine
end

