-- ==== Sys2Proof/Machine/Placement.lean ====
section
/-! DEFINITION. Placement of a job's weights (R393 to R407): the record, the checks of Table 8-2, the free LPDDR6, the
overflow map. -/

namespace Sys2Proof.Machine

open Sys2Proof

def MiB2 : Nat := 2 ^ 21

/-! ### The record (Table 8-1) and its numbers -/

def plJob (r : List (BitVec 8)) : Nat := leAt r 0 2
def plModeReq (r : List (BitVec 8)) : Nat := leAt r 2 1
def plPlanes (r : List (BitVec 8)) : Nat := if leAt r 3 1 = 0 then 4 else leAt r 3 1
def plPartner (r : List (BitVec 8)) : Nat := leAt r 4 2 % 2 ^ 15
def plPartnerValid (r : List (BitVec 8)) : Bool := bitOf (leAt r 4 2) 15
def plW (r : List (BitVec 8)) : Nat := leAt r 8 8
def plR (r : List (BitVec 8)) : Nat := leAt r 16 8
/-- *P* weight pages, *F* frames, *C* cold pages. -/
def plPages (r : List (BitVec 8)) : Nat := (plW r + MiB2 - 1) / MiB2
def plFrames (r : List (BitVec 8)) : Nat := plR r / MiB2
def plCold (r : List (BitVec 8)) : Nat := plPages r - plFrames r

/-- The mode of Table 8-3: 1 `WHOLE`, 2 `OVERFLOW`, 3 `PAIR`, 0 none. -/
def plMode (r : List (BitVec 8)) : Nat :=
  let w := plW r
  let n := plR r
  let q := plModeReq r
  if w ≤ n ∧ (q = 0 ∨ q = 1) then 1
  else if n < w ∧ 8 * w ≤ 9 * n ∧ (q = 0 ∨ q = 2) then 2
  else if (9 * n < 8 * w ∧ w ≤ 2 * n ∧ q = 0) ∨ (w ≤ 2 * n ∧ q = 3) then 3
  else 0

/-- The overflow map's LPDDR6: ⌈8*P* ÷ 2 MiB⌉ units of 2 MiB. -/
def plMapBytes (r : List (BitVec 8)) : Nat := (8 * plPages r + MiB2 - 1) / MiB2 * MiB2

/-- The footprint of Table 8-3. -/
def plFootprint (r : List (BitVec 8)) : Nat :=
  plR r + leAt r 24 8 + leAt r 32 8 + (if plMode r = 2 then plMapBytes r else 0)

def plReserved (r : List (BitVec 8)) : Bool := leAt r 6 2 != 0 || (r.drop 40).any (fun b => b != 0) || decide (3 < plModeReq r) ||
  decide (15 < leAt r 3 1)

/-! ### Free LPDDR6 (R396, R398) -/

/-- The general-use range of Table 6-2. -/
def generalUse : Nat := 0x11FDC000000

/-- LPDDR6 that other jobs hold: their region entries, and the located parts of other placements. -/
def State.takenSpans (s : State) (job : Nat) : List (Nat × Nat) :=
  ((s.ms.regions.map Prod.snd).filter fun r => r.job != job && decide (r.base < generalUse)).map (fun r => (r.base, r.size)) ++
    (s.place.jobs.filter fun p => p.1 != job).flatMap fun p => p.2.spans

/-- What a job's region entries take of the general-use range. -/
def State.regionBytes (s : State) (job : Nat) : Nat :=
  ((s.ms.regions.map Prod.snd).filter fun r => r.job == job && decide (r.base < generalUse)).foldl (fun (n : Nat) r => n + r.size) 0

/-- Free LPDDR6 for `job`: what neither a region entry of another job takes nor another placement holds; entries that a placed job
has committed lie in what its placement holds. -/
def State.freeBytes (s : State) (job : Nat) : Nat :=
  let others := s.place.jobs.filter fun p => p.1 != job
  let entries := (s.ms.regions.map Prod.snd).filter fun r =>
    r.job != job && decide (r.base < generalUse) && !others.any fun p => p.1 == r.job
  generalUse - (entries.foldl (fun (n : Nat) r => n + r.size) 0 +
    others.foldl (fun (n : Nat) p => n + max (plFootprint p.2.record) (s.regionBytes p.1)) 0)

/-- The lowest free place for `size` bytes beside what is taken. -/
def firstFit (taken : List (Nat × Nat)) (size : Nat) : Option Nat :=
  let starts := (0 :: taken.map fun x => (x.1 + x.2 + MiB2 - 1) / MiB2 * MiB2).mergeSort fun a b => decide (a ≤ b)
  starts.find? fun b => decide (b + size ≤ generalUse) && !(taken.any fun x => overlap b size x.1 x.2)

/-- The places of an overflow placement's frames and map. -/
def State.overflowPlace (s : State) (r : List (BitVec 8)) : Option (Nat × Nat) :=
  let taken := s.takenSpans (plJob r)
  match firstFit taken (plR r) with
  | none => none
  | some frames => (firstFit ((frames, plR r) :: taken) (plMapBytes r)).map fun map => (frames, map)

/-! ### The checks of Table 8-2 -/

/-- Rows 1 to 7: status and reason of the first condition that holds. -/
def State.placeCheck (s : State) (r : List (BitVec 8)) : Option (Nat × Nat) :=
  let job := plJob r
  let mode := plMode r
  if s.resident.any fun n => s.ctxJob n == job then some (stRUNNING, 0x01)
  else if plReserved r ∨ plR r = 0 ∨ plR r % MiB2 ≠ 0 ∨ plW r = 0 then some (stPOLICY, 0x02)
  else if 2 * plR r < plW r then some (stPOLICY, 0x03)
  else if mode = 0 ∨ (mode ≠ 1 ∧ !plPartnerValid r) then some (stPOLICY, 0x04)
  else if s.freeBytes job < plFootprint r ∨ (mode = 2 ∧ (s.overflowPlace r).isNone) then some (stPOLICY, 0x05)
  else if mode = 2 ∧ (s.flag F.MEM_OVF_CFG.EN ∨ (s.place.ovfJob.isSome ∧ s.place.ovfJob ≠ some job)) then some (stPOLICY, 0x0A)
  else if mode ≠ 1 ∧ (plPartner r = s.node ∨ plPartner r / 16 ≠ s.node / 16) then some (stPOLICY, 0x06)
  else none

/-- Row 9: the partner's record (its bytes 0 to 39) does not fit this module's. -/
def State.partnerMismatch (s : State) (mine theirs : List (BitVec 8)) : Bool :=
  plJob mine != plJob theirs || plW mine != plW theirs || plR mine != plR theirs || plMode mine != plMode theirs ||
    plPlanes mine != plPlanes theirs || !plPartnerValid theirs || plPartner theirs != s.node

/-! ### Answers (Table 8-4) -/

def Placement.answer (p : Placement) (reason : Nat) (circ : Nat) (ok : Bool) : List (BitVec 8) :=
  if ok then
    leBytes 1 p.mode ++ leBytes 1 0 ++ leBytes 2 circ ++ leBytes 4 (plPages p.record) ++ leBytes 4 (plFrames p.record) ++
      leBytes 4 0 ++ leBytes 8 (if p.mode = 2 then p.frames else 0) ++ leBytes 8 (if p.mode = 2 then p.map else 0)
  else leBytes 1 0 ++ leBytes 1 reason ++ leBytes 30 0

/-- A refusal's payload. -/
def placeRefusal (reason : Nat) : List (BitVec 8) := leBytes 1 0 ++ leBytes 1 reason ++ leBytes 30 0

/-- A placement ends with a refusal. -/
def State.placeFail (s : State) (job status reason : Nat) : State :=
  match kfind s.place.jobs job with
  | none => s
  | some p =>
    let s := { s with place.jobs := kdel s.place.jobs job,
                      place.ovfJob := if s.place.ovfJob = some job then none else s.place.ovfJob }
    s.endTicket p.ticket status reason (p.answer reason 0 false)

/-- A placement is `OK`: it holds its LPDDR6 for 10 s (R398). -/
def State.placeOk (s : State) (job circ : Nat) : State :=
  match kfind s.place.jobs job with
  | none => s
  | some p =>
    let at' := if circ = 0xFFFF then none else some circ
    let s := { s with
      place.jobs := kset s.place.jobs job { p with phase := .held, since := s.opMs, circ := at' }
      place.ovfJob := if p.mode = 2 then some job else s.place.ovfJob }
    s.endTicket p.ticket stOK 0xFFFF (p.answer 0 circ true)

/-- The path engine's outcome for a placement's circuit (Table 8-2, row 10). -/
def State.placeCircuit (s : State) (job status idx : Nat) : State :=
  match kfind s.place.jobs job with
  | some p => if p.phase = .circuit then (if status = stOK then s.placeOk job idx else s.placeFail job status 0x09) else s
  | none => s

/-! ### The overflow map (R399, R400) -/

/-- The cold pages of a partner. -/
def coldPages (r : List (BitVec 8)) (lower : Bool) : Nat × Nat :=
  if lower then (plPages r - plCold r, plPages r) else (plPages r - 2 * plCold r, plPages r - plCold r)

def isCold (r : List (BitVec 8)) (lower : Bool) (p : Nat) : Bool :=
  decide ((coldPages r lower).1 ≤ p) && decide (p < (coldPages r lower).2)

/-- The frame that holds a resident page, in ascending page order. -/
def frameOf (r : List (BitVec 8)) (lower : Bool) (p : Nat) : Nat :=
  if (coldPages r lower).2 ≤ p then p - plCold r else p

/-- Write the map of an overflow placement. -/
def State.writeMap (s : State) (p : Placement) : State :=
  let r := p.record
  let lower := s.node < plPartner r
  let far := (Config.partnerFrames (plPartner r) (plJob r)).toNat
  (List.range (plPages r)).foldl (fun (s : State) i =>
    let e := if isCold r lower i then (far + frameOf r (!lower) i) % 2 ^ 21 * 2 ^ 42
      else (p.frames / MiB2 + frameOf r lower i) % 2 ^ 21 * 2 ^ 21 + 1
    s.memWrite (p.map + 8 * i) (leBytes 8 e)) s

/-- PLACEMENT_HOLD_EXPIRES: 10 s have passed since the `OK`; the space is free again unless region entries hold it. -/
def execPlacementHoldExpires (job : Nat) (s : State) : Result :=
  .next <| match kfind s.place.jobs job with
    | some p => if p.phase = .held then { s with place.jobs := kdel s.place.jobs job } else s
    | none => s

/-- An overflow placement ends with the last context of its job and `MEM_OVF_CFG.EN` = 0 (Table 8-2, row 6). -/
def State.ovfReleased (s : State) : State :=
  match s.place.ovfJob with
  | none => s
  | some job =>
    if !s.flag F.MEM_OVF_CFG.EN ∧ !(s.resident.any fun n => s.ctxJob n == job) then { s with place.ovfJob := none } else s

end Sys2Proof.Machine
end

