-- ==== Sys2Proof/Machine/Coll.lean ====
section
/-! DEFINITION. Collective commands (R372 to R385). A member walks through the numbered steps of its algorithm: in each
it offers ready tokens to the ranks that send to it, sends to the ranks that have offered theirs, and goes on when the
data of the step has come and gone. -/

namespace Sys2Proof.Machine

open Sys2Proof

/-! ### Who sends to whom in which step -/

def CollRun.n (c : CollRun) : Nat := c.nodes.length

/-- A reduction. -/
def CollRun.reduces (c : CollRun) : Bool := c.cop == 0x30 || c.cop == 0x31

/-- The node of a rank, cut to a level: 0 the cell, 1 the block, 2 the domain. -/
def groupKey (level node : Nat) : Nat := if level = 0 then node / 16 else if level = 1 then node / 256 else 0

/-- The lowest rank of the group at a level that holds rank `r` (R382). -/
def CollRun.leader (c : CollRun) (level r : Nat) : Nat :=
  let k := groupKey level (c.nodes.getD r 0)
  (c.nodes.map (groupKey level)).idxOf k

/-- Rank `r` combines for its group at the level below `level`. -/
def CollRun.speaks (c : CollRun) (level r : Nat) : Bool := level == 0 || c.leader (level - 1) r == r

/-- The ranks that a rank speaks for at a level. -/
def CollRun.subtree (c : CollRun) (level r : Nat) : List Nat :=
  if level = 0 then [r] else (List.range c.n).filter fun x => c.leader (level - 1) x == r

/-- The steps of the command. -/
def CollRun.steps (c : CollRun) : Nat :=
  if c.ring then (if c.cop = 0x30 then 2 * (c.n - 1) else c.n - 1) else 6

/-- Hierarchical form: steps 0 to 2 go up the levels, steps 3 to 5 down again. -/
def treeLevel (step : Nat) : Nat := if step < 3 then step else 5 - step

/-- The rank that `r` reports to at a level, where it is another one. -/
def CollRun.parent (c : CollRun) (level r : Nat) : Option Nat :=
  if c.speaks level r ∧ c.leader level r ≠ r then some (c.leader level r) else none

def CollRun.children (c : CollRun) (level r : Nat) : List Nat :=
  if c.leader level r = r then (List.range c.n).filter fun x => c.parent level x == some r else []

/-- A step up of a `BROADCAST` concerns only the ranks that the root's data passes. -/
def CollRun.carries (c : CollRun) (level r : Nat) : Bool := c.cop != 0x33 || (c.subtree level r).contains c.root

/-- The ranks that this member sends to in step `t`. -/
def CollRun.dests (c : CollRun) (t : Nat) : List Nat :=
  if c.ring then
    if c.cop = 0x33 then
      (if (c.rank + c.n - c.root) % c.n = t ∧ t + 1 < c.n then [(c.rank + 1) % c.n] else [])
    else [(c.rank + 1) % c.n]
  else
    let l := treeLevel t
    if t < 3 then (c.parent l c.rank).toList.filter fun _ => c.carries l c.rank else c.children l c.rank

/-- The ranks that send to this member in step `t`. -/
def CollRun.sources (c : CollRun) (t : Nat) : List Nat :=
  if c.ring then
    if c.cop = 0x33 then (if (c.rank + c.n - c.root) % c.n = t + 1 then [(c.rank + c.n - 1) % c.n] else [])
    else [(c.rank + c.n - 1) % c.n]
  else
    let l := treeLevel t
    if t < 3 then (c.children l c.rank).filter (c.carries l) else (c.parent l c.rank).toList

/-! ### What a step carries -/

/-- The elements of chunk `j` as (first, number): a block of the command for `REDUCE_SCATTER`, an *N*th of the vector
for a ring `ALLREDUCE`, all of it otherwise. -/
def CollRun.chunk (c : CollRun) (j : Nat) : Nat × Nat :=
  if c.cop = 0x31 then (j * c.count, c.count)
  else if c.ring then (j * c.count / c.n, (j + 1) * c.count / c.n - j * c.count / c.n)
  else (0, c.count)

/-- The chunks that a reduction works in. -/
def CollRun.chunks (c : CollRun) : List Nat := if c.cop = 0x31 || c.ring then List.range c.n else [0]

/-- Partials of a reduction travel in the combining format; every later phase carries the rounded result (R380). -/
def CollRun.partialStep (c : CollRun) (t : Nat) : Bool := c.reduces && (if c.ring then decide (t + 1 < c.n) else decide (t < 3))

/-- The chunks or blocks that rank `from_` sends to rank `to_` in step `t`. -/
def CollRun.carried (c : CollRun) (t from_ to_ : Nat) : List Nat :=
  if c.ring then
    if c.reduces then
      (if t + 1 < c.n then [(from_ + 2 * c.n - 1 - t) % c.n] else [(from_ + 2 * c.n - (t + 1 - c.n)) % c.n])
    else if c.cop = 0x32 then [(from_ + c.n - t) % c.n]
    else [0]
  else
    let l := treeLevel t
    if c.cop = 0x30 ∨ c.cop = 0x33 then [0]
    else if c.cop = 0x31 then (if t < 3 then List.range c.n else c.subtree l to_)
    else (if t < 3 then c.subtree l from_ else List.range c.n)

/-- The bytes of an element outside a reduction's partials. -/
def CollRun.elem (c : CollRun) : Nat := fmtBits c.fmt / 8

/-- The bytes of one chunk or block in step `t`. -/
def CollRun.chunkBytes (c : CollRun) (t j : Nat) : Nat :=
  let n := if c.cop = 0x32 then c.count else (c.chunk j).2
  n * (if c.partialStep t then 4 else c.elem)

/-- The bytes that rank `from_` sends to `to_` in step `t`. -/
def CollRun.stepBytes (c : CollRun) (t from_ to_ : Nat) : Nat :=
  (c.carried t from_ to_).foldl (fun n j => n + c.chunkBytes t j) 0

/-- Words as little-endian bytes. -/
def wordBytes (ws : List (BitVec 32)) : List (BitVec 8) := ws.flatMap fun w => leBytes 4 w.toNat

/-- The data that this member sends in step `t`. -/
def CollRun.outgoing (c : CollRun) (t to_ : Nat) : List (BitVec 8) :=
  (c.carried t c.rank to_).flatMap fun j =>
    if c.partialStep t then wordBytes (kget c.work j []) else kget c.res j []

/-! ### Combining (R380, R381) -/

/-- One combine: the arriving partial is the left operand. -/
def CollRun.combine (c : CollRun) (a b : BitVec 32) : BitVec 32 :=
  if c.fmt = 9 then
    (if c.op = 0 then a + b else if c.op = 1 then (if b.slt a then b else a) else (if a.slt b then b else a))
  else if c.op = 0 then f32Add a b else if c.op = 1 then f32Min a b else f32Max a b

/-- The elements of bytes as combining words: BF16 exactly to FP32. -/
def CollRun.widen (c : CollRun) (bs : List (BitVec 8)) : List (BitVec 32) :=
  (List.range (bs.length / c.elem)).map fun i =>
    let v := leAt bs (i * c.elem) c.elem
    if c.fmt = 1 then BitVec.ofNat 32 (v * 2 ^ 16) else BitVec.ofNat 32 v

/-- A finished chunk, rounded once to the format. -/
def CollRun.narrow (c : CollRun) (ws : List (BitVec 32)) : List (BitVec 8) :=
  ws.flatMap fun w => leBytes c.elem (if c.fmt = 1 then encodeFmt .nearest false fBF16 (ofF32 w) else w.toNat)

/-- The words of 4-byte partials. -/
def bytesWords (bs : List (BitVec 8)) : List (BitVec 32) :=
  (List.range (bs.length / 4)).map fun i => BitVec.ofNat 32 (leAt bs (4 * i) 4)

/-- Cut a step's bytes into its chunks. -/
def cutChunks : List (Nat × Nat) → List (BitVec 8) → List (Nat × List (BitVec 8))
  | [], _ => []
  | (j, n) :: rest, bs => (j, bs.take n) :: cutChunks rest (bs.drop n)

/-- Take in the bytes that rank `from_` sent in step `t`. -/
def CollRun.takeIn (c : CollRun) (t from_ : Nat) (bs : List (BitVec 8)) : CollRun :=
  let parts := cutChunks ((c.carried t from_ c.rank).map fun j => (j, c.chunkBytes t j)) bs
  if c.partialStep t then
    { c with work := parts.foldl (fun w x => kset w x.1 (List.zipWith c.combine (bytesWords x.2) (kget w x.1 []))) c.work }
  else { c with res := parts.foldl (fun r x => kset r x.1 x.2) c.res }

/-- The last combine of a step may finish chunks: a ring's own chunk, or everything at rank 0 of the hierarchy. -/
def CollRun.finish (c : CollRun) (t : Nat) : CollRun :=
  if !c.reduces then c
  else if c.ring then
    (if t + 2 = c.n then { c with res := kset c.res c.rank (c.narrow (kget c.work c.rank [])) } else c)
  else if t = 2 ∧ c.rank = 0 then { c with res := c.work.foldl (fun r x => kset r x.1 (c.narrow x.2)) c.res }
  else c

/-- The result that goes to `DST`. -/
def CollRun.result (c : CollRun) : List (BitVec 8) :=
  if c.cop = 0x31 then kget c.res c.rank []
  else if c.cop = 0x32 then (List.range c.n).flatMap fun j => kget c.res j []
  else if c.cop = 0x30 then c.chunks.flatMap fun j => kget c.res j []
  else kget c.res 0 []

/-- The source is in: set up partials or blocks. -/
def CollRun.load (c : CollRun) (bs : List (BitVec 8)) : CollRun :=
  let c := { c with loaded := true }
  if c.reduces then
    let ws := c.widen bs
    { c with work := c.chunks.map fun j => (j, (ws.drop (c.chunk j).1).take (c.chunk j).2) }
  else if c.cop = 0x32 then { c with res := kset c.res c.rank bs }
  else if c.rank = c.root then { c with res := [(0, bs)] }
  else c

/-- The four 16-bit parts of `COUNT`, XORed (`CNT_FOLD`). -/
def foldCount (n : Nat) : Nat :=
  Nat.xor (Nat.xor (bitsOf n 15 0) (bitsOf n 31 16)) (Nat.xor (bitsOf n 47 32) (bitsOf n 63 48))

/-- The key of a pair (job ID, `GROUP_ID`) (R374). -/
def pairKey (job group : Nat) : Nat := job * 65536 + group

/-- The command that runs a collective of a pair. -/
def State.collOf (s : State) (job group : Nat) : Option (CmdRef × CollRun) :=
  s.eng.queues.findSome? fun (i, q) => q.cmds.findSome? fun x =>
    match x.work with
    | some (.coll c) => if c.job = job ∧ c.group = group then some (⟨i / 8, i % 8, x.count⟩, c) else none
    | _ => none

/-- A collective's message or packet has no route (R474, R551). -/
def State.collNoRoute (s : State) (r : CmdRef) (node : Nat) : State :=
  s.failSource (s.engineSource r) (node * 2 ^ 42) gcNO_ROUTE false

/-- Send the data of step `t` to a rank, in packets of up to 4 KiB. -/
def State.collSend (s : State) (r : CmdRef) (c : CollRun) (t to_ : Nat) : State :=
  let node := c.nodes.getD to_ 0
  match s.boundCirc node with
  | none => s.collNoRoute r node
  | some k =>
    let bs := c.outgoing t to_
    (List.range (max 1 ((bs.length + 4095) / 4096))).foldl (fun (s : State) i =>
      let d := (bs.drop (i * 4096)).take 4096
      s.enqueue k ptCOLL { Pkt.zero with
        src := s.node, job := c.job, ctx := s.ctxId r.slot, engine := 2, inc := s.lk.inc, group := c.group, cseq := c.seq,
        cop := c.cop, fmt := c.fmt, op := c.op, step := t, cntFold := foldCount c.count, len := d.length, payload := d }) s

/-- Ready tokens of this member for its step (R376). -/
def State.collOffer (s : State) (r : CmdRef) (c : CollRun) : State :=
  (c.sources c.step).foldl (fun (s : State) x =>
    if s.failed r then s
    else
      let node := c.nodes.getD x 0
      let (s, ok) := s.sendPmsg node pkREADY c.group c.seq (leBytes 2 c.step) c.job (s.ctxId r.slot) 2
      if ok then s else s.collNoRoute r node) s

/-- Arrivals of a `BARRIER` go to every other member (R385). -/
def State.collArriveAll (s : State) (r : CmdRef) (c : CollRun) : State :=
  (List.range c.n).foldl (fun (s : State) x =>
    if x = c.rank ∨ s.failed r then s
    else
      let node := c.nodes.getD x 0
      let (s, ok) := s.sendPmsg node pkARRIVE c.group c.seq [] c.job (s.ctxId r.slot) 2
      if ok then s else s.collNoRoute r node) s

/-- Go on with a collective as far as tokens and data allow. -/
def State.collAdvance : Nat → CmdRef → CollRun → State → State
  | 0, r, c, s => s.setWork r (.coll c)
  | fuel + 1, r, c, s =>
    if s.failed r then s
    else if c.cop = 0x34 then
      (if (List.range c.n).all fun x => c.arrived.contains x then s.setWork r (.done stOK 0) else s.setWork r (.coll c))
    else if !c.loaded then
      match joinParts c.parts 0 c.need with
      | none => s.setWork r (.coll c)
      | some bs => State.collAdvance fuel r (c.load bs) s
    else if c.steps ≤ c.step then (s.engineWrite r c.dst c.result).copyDone r c.result.length
    else
      let s := if c.offered then s else s.collOffer r c
      let c := { c with offered := true }
      let ready := (c.dests c.step).filter fun d => !c.sent.contains d && c.tokens.contains (d, c.step)
      let s := ready.foldl (fun (s : State) d => if s.failed r then s else s.collSend r c c.step d) s
      let c := { c with sent := c.sent ++ ready }
      if ((c.dests c.step).all fun d => c.sent.contains d) && ((c.sources c.step).all fun x => c.come.contains x) then
        let c := c.come.foldl (fun (c : CollRun) x => c.takeIn c.step x (kget c.rx x [])) c
        let c := c.finish c.step
        State.collAdvance fuel r { c with step := c.step + 1, offered := false, sent := [], rx := [], come := [] } s
      else s.setWork r (.coll c)

/-- Fuel that takes a collective through all its steps. -/
def CollRun.fuel (c : CollRun) : Nat := 2 * c.n + 16

/-- Nodes of a group descriptor. -/
def groupNodes (bs : List (BitVec 8)) : List Nat :=
  (List.range (leAt bs 2 2)).map fun r => leAt bs (8 + 2 * r) 2 % 2 ^ 15

/-- The source elements of this member. -/
def collSourceElems (cop count n rank root : Nat) : Nat :=
  if cop = 0x31 then n * count else if cop = 0x33 ∧ rank ≠ root then 0 else count

/-- A format that an opcode admits (Table 7-13). -/
def collFmtOk (op fmt : Nat) : Bool :=
  if op = 0x30 ∨ op = 0x31 then fmt == 0 || fmt == 1 || fmt == 9
  else if op = 0x34 then fmt == 0
  else decide (fmt ≤ 4) || (decide (7 ≤ fmt) && decide (fmt ≤ 9))

/-- The run of a collective command whose descriptor is `d`: the next of its pair's sequence, with the tokens and
arrivals that came before it (R373, R374, R376, R383). -/
def State.collNew (s : State) (slot : Nat) (c : Cmd) (op : Nat) (d : List (BitVec 8)) : CollRun :=
  let b := c.bytes
  let n := leAt b 24 8
  let fmt := leAt b 40 1 % 16
  let alg := leAt b 41 1
  let root := leAt b 42 2
  let size := leAt d 2 2
  let rank := leAt d 4 2
  let nodes := groupNodes d
  let job := s.ctxJob slot
  let key := pairKey job (leAt d 0 2)
  let seq := kget s.eng.pairs key 0
  let mine := s.eng.early.filter fun e => e.1 == key && e.2.2.1 == seq
  { job := job, group := leAt d 0 2, seq := seq, rank := rank, nodes := nodes, cop := op, fmt := fmt, op := leAt b 40 1 / 16,
    ring := alg == 1 || (alg == 0 && nodes.all fun x => x / 16 == s.node / 16), count := n, root := root,
    dst := leAt b 16 8,
    need := if op = 0x34 then 0 else collSourceElems op n size rank root * (fmtBits fmt / 8),
    parts := [], loaded := false, step := 0, offered := false,
    tokens := (mine.filter fun e => e.2.2.2 != 65536).map fun e => (nodes.idxOf e.2.1, e.2.2.2),
    sent := [], rx := [], come := [], work := [], res := [],
    arrived := rank :: (mine.filter fun e => e.2.2.2 == 65536).map fun e => nodes.idxOf e.2.1 }

/-- A run takes its place: its pair counts on, and what was kept for it is its own. -/
def State.collTake (s : State) (r : CmdRef) (x : CollRun) : State :=
  let key := pairKey x.job x.group
  ({ s with
    eng.pairs := kset s.eng.pairs key ((x.seq + 1) % 2 ^ 32)
    eng.early := s.eng.early.filter fun e => !(e.1 == key && e.2.2.1 == x.seq) }).setWork r (.coll x)

/-- Read the source of a run, and go on with what came at once. -/
def State.collLoad (s : State) (r : CmdRef) (src : Nat) (x : CollRun) (ecc : EccFinding) : State :=
  s.engineEcc r x.cop src ecc fun s =>
    let (s, ps) := s.readParts r src x.need 0
    if s.failed r then s else State.collAdvance x.fuel r { x with parts := ps } s

/-- The keys under which a descriptor's head and the whole of it are read. -/
def headKey : Nat := 2 ^ 41
def descKey : Nat := 2 ^ 42

/-- Start a collective command: its operands (R373, R374, R379, R383), its place in the pair's sequence, its first step. -/
def State.collStart (s : State) (slot queue count op : Nat) (ecc : EccFinding) : State :=
  s.workOn slot queue count op fun r c s =>
    let b := c.bytes
    let src := leAt b 8 8
    let dst := leAt b 16 8
    let n := leAt b 24 8
    let gaddr := leAt b 32 8
    let fmt := leAt b 40 1 % 16
    let rop := leAt b 40 1 / 16
    let reduces := op = 0x30 ∨ op = 0x31
    let w := fmtBits fmt / 8
    if !collFmtOk op fmt ∨ (reduces ∧ 2 < rop) then s.operandError r c qeBAD_FORMAT
    else if op ≠ 0x34 ∧ n = 0 then s.operandError r c qeBAD_LENGTH
    else if op ≠ 0x34 ∧ src % w ≠ 0 then s.operandError r c qeBAD_ADDR src
    else if op ≠ 0x34 ∧ dst % w ≠ 0 then s.operandError r c qeBAD_ADDR dst
    else if gaddr % 64 ≠ 0 ∨ !s.isLocalAddr gaddr then s.operandError r c qeGROUP
    else match s.fetchBytes r gaddr 8 headKey with
      | (s, none) => s
      | (s, some h) =>
        let size := leAt h 2 2
        let rank := leAt h 4 2
        if size < 2 ∨ 24576 < size ∨ size ≤ rank then s.operandError r c qeGROUP
        else match s.fetchBytes r gaddr (8 + 2 * size) descKey with
          | (s, none) => s
          | (s, some d) =>
            let nodes := groupNodes d
            let job := s.ctxJob slot
            let key := pairKey job (leAt d 0 2)
            if nodes.getD rank 0 ≠ s.node ∨ ((kfind s.eng.pairs key).isNone ∧ 1024 ≤ s.eng.pairs.length) then
              s.operandError r c qeGROUP
            else if reduces ∧ s.aluLive.isEmpty then s.operandError r c qeNO_ALU
            else
              let cr := s.collNew slot c op d
              let s := s.collTake r cr
              if op = 0x34 then State.collAdvance cr.fuel r cr (s.collArriveAll r cr) else s.collLoad r src cr ecc

/-- ALLREDUCE: reduces `COUNT` elements; every member gets the result. -/
def execAllreduce (slot queue count : Nat) (s : State) (ecc : EccFinding := .clean) : Result := .next (s.collStart slot queue count 0x30 ecc)
/-- REDUCE_SCATTER: leaves block `RANK` of the result. -/
def execReduceScatter (slot queue count : Nat) (s : State) (ecc : EccFinding := .clean) : Result := .next (s.collStart slot queue count 0x31 ecc)
/-- ALLGATHER: every member's elements in rank order. -/
def execAllgather (slot queue count : Nat) (s : State) (ecc : EccFinding := .clean) : Result := .next (s.collStart slot queue count 0x32 ecc)
/-- BROADCAST: the root's elements at every member. -/
def execBroadcast (slot queue count : Nat) (s : State) (ecc : EccFinding := .clean) : Result := .next (s.collStart slot queue count 0x33 ecc)
/-- BARRIER: completes once every member has arrived. -/
def execBarrier (slot queue count : Nat) (s : State) : Result := .next (s.collStart slot queue count 0x34 .clean)

/-- A token or arrival for a collective that has not started here is kept for it. -/
def State.keepEarly (s : State) (job group node seq step : Nat) : State :=
  { s with eng.early := s.eng.early ++ [(pairKey job group, node, seq, step)] }

/-- A peer's ready token (R376). -/
def State.collReady (s : State) (src job group seq step : Nat) : State :=
  match s.collOf job group with
  | some (r, c) =>
    if c.seq = seq then State.collAdvance c.fuel r { c with tokens := (c.nodes.idxOf src, step) :: c.tokens } s
    else s.keepEarly job group src seq step
  | none => s.keepEarly job group src seq step

/-- A member's arrival (R385). -/
def State.collArrive (s : State) (src job group seq : Nat) : State :=
  match s.collOf job group with
  | some (r, c) =>
    if c.seq = seq then State.collAdvance c.fuel r { c with arrived := c.nodes.idxOf src :: c.arrived } s
    else s.keepEarly job group src seq 65536
  | none => s.keepEarly job group src seq 65536

/-- COLL_READY: a peer's ready token arrives. -/
def execCollReady (src job key val step : Nat) (s : State) : Result := .next (s.collReady src job key val step)
/-- COLL_ARRIVE: a barrier arrival from a member. -/
def execCollArrive (src job key val : Nat) (s : State) : Result := .next (s.collArrive src job key val)

/-- A reduction ALU's residue error (R252, R254): the lowest-numbered ALU in service recomputes; a second error moves the step
to another ALU. `n` counts the computations whose check failed, 0 to 2. -/
def State.aluResidue (s : State) (n ctx : Nat) : State :=
  if n = 0 then s
  else match s.aluLive with
    | [] => s
    | u :: _ =>
      let s := s.bump F.CHK_CNT_RESID.COUNT
      let s := (s.note evResidue 1 0xB u [u, n - 1] (some ctx)).charge (engUnit u) (min n 2)
      s.chkLast 0 4 0 u false 0 none

/-- A `COLL_DATA` packet reaches the member's collective (R375, R450). -/
def State.collData (s : State) (p : Pkt) (residue : Nat) : State :=
  match s.collOf p.job p.group with
  | none => s
  | some (r, c) =>
    if c.seq ≠ p.cseq then s
    else if c.cop ≠ p.cop ∨ c.fmt ≠ p.fmt ∨ c.op ≠ p.op ∨ foldCount c.count ≠ p.cntFold then
      s.cmdError r qeCOLL_MISMATCH 0 (s.opcodeOf r) 0
    else
      let from_ := c.nodes.idxOf p.src
      if p.step ≠ c.step ∨ c.come.contains from_ ∨ !(c.sources c.step).contains from_ then s
      else
        let s := if c.partialStep c.step then s.aluResidue residue (s.ctxId r.slot) else s
        let bs := kget c.rx from_ [] ++ p.payload
        let c := { c with rx := kset c.rx from_ bs }
        let c := if c.stepBytes c.step from_ c.rank ≤ bs.length then { c with come := c.come ++ [from_] } else c
        State.collAdvance c.fuel r c s

/-- COLL_TIMEOUT: a step has waited longer than `COLL_TO`. -/
def execCollTimeout (slot queue count : Nat) (s : State) : Result :=
  .next <|
    let r : CmdRef := ⟨slot, queue, count⟩
    match s.cmdAt r with
    | some c => match c.work with
      | some (.coll _) => s.cmdError r qeCOLL_TIMEOUT 0 c.opcode 0
      | _ => s
    | none => s

end Sys2Proof.Machine
end

