-- ==== Sys2Proof/Machine/Ring.lean ====
section
/-! DEFINITION. The ring engine (spec/08_sequence_parallel_execution.md, R408 to R432). -/

namespace Sys2Proof.Machine

open Sys2Proof

/-- Forward `t` is required: step `t` + 1 exists at the successor. -/
def RingRun.mustForward (x : RingRun) (t : Nat) : Bool :=
  x.succ.isSome && decide (t + 1 < x.stepsAt ((x.pos + 1) % x.size))

/-- Ring subcodes (Table 8-8). -/
def rsDESC : Nat := 0x01
def rsCIRCUIT : Nat := 0x02
def rsLAYOUT : Nat := 0x03
def rsHELLO_TIMEOUT : Nat := 0x04
def rsSTEP_TIMEOUT : Nat := 0x05
def rsPEER_ABORT : Nat := 0x06
def rsSOURCE : Nat := 0x08
def rsDUPLICATE : Nat := 0x09

/-- A run that is not live any more gives its place back (R413). -/
def State.dropRing (s : State) (n : Nat) : State := { s with eng.rings := kdel s.eng.rings n }

/-- A `RING_RUN` fails with a subcode (R427). -/
def State.ringError (s : State) (r : CmdRef) (sub : Nat) (addr : Nat := 0) : State :=
  s.cmdError r qeRING sub 0x40 addr

/-- A live run of job and `RING_ID`. -/
def State.ringOf (s : State) (job id : Nat) : Option (Nat × RingRun) :=
  s.eng.rings.find? fun x => x.2.job == job && x.2.id == id && x.2.live

/-- The run's context is active and the run live: the engine acts for it. -/
def State.ringActive (s : State) (n : Nat) : Option RingRun :=
  match s.ring n with
  | some x => if x.live && s.ctxState x.cmd.slot == ctxACTIVE then some x else none
  | none => none

/-- R409: the descriptor is malformed; a slot offset off its 4 KiB alignment (Table 8-5) counts so too (DEDUCED,
notes/assumptions/109.md). -/
def State.ringDescBad (s : State) (x : RingRun) (part : Nat) : Bool :=
  let d := x.desc
  let last := x.coreFirst + x.coreSpan
  leAt d 7 1 != 0 || leAt d 38 2 != 0 || leAt d 44 4 != 0 || decide (1 < leAt d 6 1) ||
    decide (x.size < 2) || decide (24576 < x.size) || decide (x.size ≤ x.pos) || x.node x.pos != s.node ||
    ((List.range x.size).any fun r => bitOf (leAt d (64 + 2 * r) 2) 15) ||
    decide (x.coreSpan = 0) || decide (288 < last) ||
    ((List.range x.coreSpan).any fun i => partOf s.partMode (coreQuarter (x.coreFirst + i)) != part) ||
    x.slotBytes % 4096 != 0 || decide (x.slotBytes < 4096) || decide (2 ^ 21 < x.slotBytes) ||
    x.slotOff 0 % 4096 != 0 || x.slotOff 1 % 4096 != 0 ||
    decide (0x600000 < x.slotOff 0 + x.slotBytes) || decide (0x600000 < x.slotOff 1 + x.slotBytes) ||
    overlap (x.slotOff 0) x.slotBytes (x.slotOff 1) x.slotBytes ||
    x.evReady == x.evDone || decide (63 < x.evReady) || decide (63 < x.evDone) || x.doneMult == 0 ||
    x.kvSrc % 4096 != 0 || !s.isLocalAddr x.kvSrc || !(placeOf (bitsOf x.kvSrc 41 0)).isDram

/-- R411: a circuit of the table, lit and verified, with its far end at a node. -/
def State.circuitTo (s : State) (c node : Nat) : Bool :=
  decide (c < 512) && (s.rd F.LAT_CIRC_A.TYPE c == 1 || s.rd F.LAT_CIRC_A.TYPE c == 2) &&
    s.rd F.LAT_CIRC_A.STATE c == 4 && s.rd F.LAT_CIRC_A.NODE c == node

def State.ringCircuitsOk (s : State) (x : RingRun) : Bool :=
  (match x.succ with
    | some n => s.circuitTo x.txCirc n
    | none => true) &&
  (match x.pred with
    | some n => s.circuitTo x.rxCirc n
    | none => true)

/-- A hello agrees with the local descriptor in everything but `POS` and `CORE_FIRST`, and its `POS` is a used
neighbour's (R414). -/
def RingRun.agrees (x : RingRun) (node : Nat) (h : List (BitVec 8)) : Bool :=
  let same (o n : Nat) : Bool := leAt x.desc o n == leAt h o n
  same 0 4 && same 6 2 && same 10 14 && x.neighbours.contains node && x.node (leAt h 4 2) == node &&
    ((x.succ.isSome && leAt h 4 2 == (x.pos + 1) % x.size) || (x.pred.isSome && leAt h 4 2 == (x.pos + x.size - 1) % x.size))

/-- A neighbour's hello reaches its run. -/
def State.ringHello (s : State) (n : Nat) (src : Nat) (h : List (BitVec 8)) : State :=
  match s.ringActive n with
  | none => s
  | some x =>
    if x.state ≠ 0 then s
    else if !x.agrees src h then s.ringError x.cmd rsLAYOUT
    else
      let hs := kset x.hellos src (leAt h 8 2)
      let st := if x.neighbours.all fun m => (kfind hs m).isSome then 1 else 0
      s.setRing n { x with hellos := hs, state := st }

/-- A checked run takes a place, its command runs, hellos go to the used neighbours, and hellos held for it are matched
(R413, R414). -/
def State.ringStart (s : State) (r : CmdRef) (x : RingRun) : State :=
  let s := { s with eng.rings := s.eng.rings.filter fun y => y.2.live }
  let n := ((List.range 16).find? fun i => (kfind s.eng.rings i).isNone).getD 0
  let s := (s.setRing n { x with state := b2n x.neighbours.isEmpty }).setWork r (.ring n)
  let s := x.neighbours.foldl (fun (s : State) m =>
    if s.failed r then s
    else
      let (s, ok) := s.sendPmsg m pkHELLO x.id 0 (x.desc.take 24) x.job (s.ctxId r.slot) 3
      if ok then s else s.collNoRoute r m) s
  let held := s.eng.hellos.filter fun h => h.job == x.job && h.id == x.id
  let s := { s with eng.hellos := s.eng.hellos.filter fun h => !(h.job == x.job && h.id == x.id) }
  held.foldl (fun (s : State) h => s.ringHello n h.src h.desc) s

/-- A descriptor that has been read is checked, and its run starts (R409, R411, R413). -/
def State.ringBegin (s : State) (r : CmdRef) (d : List (BitVec 8)) : State :=
  let job := s.ctxJob r.slot
  let x : RingRun := ⟨r, job, leAt d 0 2, d, 0, [], [], [], [], 0, [], []⟩
  if s.ringDescBad x (s.ctxPart r.slot) then s.ringError r rsDESC
  else if !s.ringCircuitsOk x then s.ringError r rsCIRCUIT
  else if (s.ringOf job x.id).isSome then s.ringError r rsDUPLICATE
  else s.ringStart r x

/-- RING_RUN: reads and checks the descriptor, and sends hellos to the used neighbours. A 17th run does not start. -/
def execRingRun (slot queue count : Nat) (s : State) : Result :=
  .next <|
    if 16 ≤ (s.eng.rings.filter fun x => x.2.live).length then s
    else s.workOn slot queue count 0x40 fun r c s =>
      let a := leAt c.bytes 8 8
      if a % 64 ≠ 0 ∨ !s.isLocalAddr a ∨ !(placeOf (bitsOf a 41 0)).isDram then s.ringError r rsDESC
      else match s.fetchBytes r a 64 headKey with
        | (s, none) => s
        | (s, some h) => match s.fetchBytes r a (64 + 2 * leAt h 2 2) descKey with
          | (s, none) => s
          | (s, some d) => s.ringBegin r d

/-- A hello is matched against its run, kept for one that has not started, or discarded for one that has failed. -/
def State.takeHello (s : State) (src job id : Nat) (desc : List (BitVec 8)) : State :=
  match s.ringOf job id with
  | some (n, _) => s.ringHello n src desc
  | none =>
    if s.eng.rings.any fun x => x.2.job == job && x.2.id == id && x.2.state == 3 then s
    else { s with eng.hellos := s.eng.hellos ++ [⟨src, job, id, desc⟩] }

/-- A token from the successor (R415). -/
def State.takeToken (s : State) (src job id t : Nat) : State :=
  match s.ringOf job id with
  | some (n, x) => if x.succ = some src then s.setRing n { x with tokens := t :: x.tokens } else s
  | none => s

/-- An abort: the run fails with `PEER_ABORT`, and passes it on (R429). -/
def State.takeAbort (s : State) (src job id : Nat) : State :=
  match s.ringOf job id with
  | some (n, x) => (s.setRing n { x with aborts := src :: x.aborts }).ringError x.cmd rsPEER_ABORT
  | none => s

/-- RING_HELLO: a neighbour's hello arrives. -/
def execRingHello (src job key : Nat) (desc : List Nat) (s : State) : Result :=
  .next (s.takeHello src job key (desc.map (BitVec.ofNat 8)))

/-- HELLO_HOLD_EXPIRES: a held hello that no run has claimed goes. -/
def execHelloHoldExpires (src job key : Nat) (s : State) : Result :=
  .next { s with eng.hellos := s.eng.hellos.filter fun h => !(h.src == src && h.job == job && h.id == key) }

/-- RING_TOKEN: the successor permits a forward. -/
def execRingToken (src job key val : Nat) (s : State) : Result := .next (s.takeToken src job key val)

/-- RING_ABORT: an abort from a neighbour. -/
def execRingAbort (src job key : Nat) (s : State) : Result := .next (s.takeAbort src job key)

/-- The kernels have advanced `EV_DONE` through `k` steps. -/
def State.doneSteps (s : State) (x : RingRun) (k : Nat) : Bool :=
  decide (x.doneBase + k * x.doneMult ≤ (s.event x.cmd.slot x.evDone).toNat)

/-- A forward has been sent and every block write of it performed. -/
def State.forwarded (s : State) (n : Nat) (x : RingRun) (t : Nat) : Bool :=
  x.fwd.contains t && !(s.ms.reqs.any fun q => match q.2.dst with
    | .ring run part => run == n && part == t
    | _ => false)

/-- RING_TOKEN_SEND: token `t` goes to the predecessor once its condition holds (Table 8-6). -/
def execRingTokenSend (run token : Nat) (s : State) : Result :=
  .next <| match s.ringActive run with
    | none => s
    | some x => match x.pred with
      | none => s
      | some p =>
        if x.state ≠ 1 ∨ token = 0 ∨ x.steps ≤ token ∨ x.sentTok.contains token then s
        else if 2 ≤ token ∧ !(s.doneSteps x (token - 1) && (!x.mustForward (token - 2) || s.forwarded run x (token - 2))) then s
        else
          let s := s.setRing run { x with sentTok := token :: x.sentTok }
          let (s, ok) := s.sendPmsg p pkTOKEN x.id token [] x.job (s.ctxId x.cmd.slot) 3
          if ok then s else s.collNoRoute x.cmd p

/-- Set `EV_READY` after step `t` (Table 8-6). -/
def State.raiseReady (s : State) (run : Nat) (x : RingRun) (t : Nat) : State :=
  (s.setRing run { x with ready := t + 1 }).updateEvent x.cmd.slot x.evReady false (BitVec.ofNat 64 (x.rdyBase + t + 1))

/-- One granule of a run's own block. -/
def State.ringPiece (s : State) (x : RingRun) (from_ to_ : Nat) : State :=
  let src := s.engineSource x.cmd
  if s.failed x.cmd then s
  else
    let fail (s : State) (ga cause : Nat) : State := (s.gfault src ga cause).ringError x.cmd rsSOURCE ga
    match s.tryAccess src (.read 4096) from_ (.copyTo to_) with
    | (s, .failed cause) => fail s from_ cause
    | (s, .pending _) => s
    | (s, .data bs) => match s.tryAccess src (.write bs) to_ .store with
      | (s, .failed cause) => fail s to_ cause
      | (s, _) => s

/-- A run's own block is copied from `KV_SRC` into slot 0 of its cores, core by core (R412). -/
def State.ringLoad (s : State) (x : RingRun) : State :=
  (List.range x.coreSpan).foldl (fun (s : State) i =>
    (List.range (x.slotBytes / 4096)).foldl (fun (s : State) j =>
      s.ringPiece x (x.kvSrc + i * x.slotBytes + j * 4096)
        (2 ^ 58 + coreStoreBase (x.coreFirst + i) + x.slotOff 0 + j * 4096)) s) s

/-- RING_LOAD_DONE: this position's own block is copied into slot 0 of the span, and step 0 is ready once every byte has
been performed; a load that waits for a gated quarter is looked at again. -/
def execRingLoadDone (run : Nat) (s : State) (ecc : EccFinding := .clean) (residue residue2 : Int := 0) : Result :=
  .next <| match s.ringActive run with
    | none => s
    | some x =>
      if x.state ≠ 1 ∨ x.ready ≠ 0 then s
      else if (kfind x.got 0).isSome then (if s.outstanding x.cmd then s else s.raiseReady run x 0)
      else s.withResidue residue residue2 33 3 (s.ctxId x.cmd.slot) fun s => s.engineEcc x.cmd 0x40 x.kvSrc ecc fun s =>
        let x := { x with got := kset x.got 0 x.block }
        let s := (s.setRing run x).ringLoad x
        if s.failed x.cmd || s.outstanding x.cmd then s else s.raiseReady run x 0

/-- The block of a step goes to the successor's next slot over `TX_CIRCUIT`, granule by granule. -/
def State.ringSend (s : State) (run : Nat) (x : RingRun) (node step : Nat) : State :=
  let src := s.engineSource x.cmd
  let first := kget x.hellos node 0
  (List.range x.coreSpan).foldl (fun (s : State) i =>
    (List.range (x.slotBytes / 4096)).foldl (fun (s : State) j =>
      let here := coreStoreBase (x.coreFirst + i) + x.slotOff step + j * 4096
      let there := coreStoreBase (first + i) + x.slotOff (step + 1) + j * 4096
      (s.sendReq src (.write (s.memRead here 4096)) node there (.ring run step) false (some x.txCirc)).1) s) s

/-- The cores of a run's span whose stores cannot be read yet: their quarter is gated (R102) or they are zeroing (R124). -/
def State.spanAsleep (s : State) (x : RingRun) : List Nat :=
  ((List.range x.coreSpan).map fun i => x.coreFirst + i).filter fun c => s.dozing (coreQuarter c) || (s.core c).zeroing

/-- RING_FORWARD: with step `t` ready here and token `t` + 1 held, the block goes over `TX_CIRCUIT`. -/
def execRingForward (run step : Nat) (ecc : EccFinding) (s : State) (residue residue2 : Int := 0) : Result :=
  .next <| match s.ringActive run with
    | none => s
    | some x => match x.succ with
      | none => s
      | some node =>
        if x.state ≠ 1 ∨ x.ready ≤ step ∨ !x.tokens.contains (step + 1) ∨ x.fwd.contains step ∨ !x.mustForward step then s
        else if !(s.spanAsleep x).isEmpty then
          ((s.spanAsleep x).filter fun c => s.dozing (coreQuarter c)).foldl (fun (s : State) c => s.wakeFor (coreQuarter c) []) s
        else s.withResidue residue residue2 33 3 (s.ctxId x.cmd.slot) fun s =>
          s.engineEcc x.cmd 0x40 (2 ^ 58 + coreStoreBase x.coreFirst + x.slotOff step) ecc fun s =>
          let s := s.setRing run { x with fwd := step :: x.fwd }
          s.ringSend run x node step

/-- RING_READY: every byte of step `t` has been performed in its slot. -/
def execRingReady (run step : Nat) (s : State) : Result :=
  .next <| match s.ringActive run with
    | none => s
    | some x =>
      if x.state = 1 ∧ 1 ≤ step ∧ step < x.steps ∧ x.ready = step ∧ x.block ≤ kget x.got step 0 then s.raiseReady run x step else s

/-- RING_COMPLETE: the complete condition of Table 8-6. -/
def execRingComplete (run : Nat) (s : State) : Result :=
  .next <| match s.ringActive run with
    | none => s
    | some x =>
      if x.state = 1 ∧ x.ready = x.steps ∧ ((List.range x.steps).all fun t => !x.mustForward t || s.forwarded run x t) ∧
          s.doneSteps x x.steps then
        (s.dropRing run).setWork x.cmd (.done stOK x.steps)
      else s

/-- The run is in a wait that `STEP_TO` bounds (R421): a hello; a token, with the rest of its forward's condition met; or the last byte
of a step whose token has been sent. -/
def RingRun.waits (x : RingRun) : RingWait → Bool
  | .hello => x.state == 0
  | .token => x.state == 1 && (List.range x.ready).any fun t => x.mustForward t && !x.tokens.contains (t + 1)
  | .data => x.state == 1 && x.sentTok.any fun t => decide (kget x.got t 0 < x.block)

/-- STEP_TIMEOUT: a wait of the run exceeds `STEP_TO` (R421). -/
def execStepTimeout (run : Nat) (wait : RingWait) (s : State) : Result :=
  .next <| match s.ringActive run with
    | none => s
    | some x => if RingRun.waits x wait then s.ringError x.cmd (if wait = .hello then rsHELLO_TIMEOUT else rsSTEP_TIMEOUT) else s

/-- A circuit has been torn down or lost its light without a move, or its far end has changed: runs that use it fail
(R426). -/
def State.ringCircuitLost (s : State) (c : Nat) : State :=
  s.eng.rings.foldl (fun (s : State) (e : Nat × RingRun) =>
    let x := e.2
    if x.live && ((x.succ.isSome && x.txCirc == c) || (x.pred.isSome && x.rxCirc == c)) then s.ringError x.cmd rsCIRCUIT
    else s) s

end Sys2Proof.Machine
end

