-- ==== Sys2Proof/Machine/Spares.lean ====
section
/-! DEFINITION. Failed hinge positions and the spares that stand in for them (R485, R489). -/

namespace Sys2Proof.Machine

open Sys2Proof

/-- The instance of `LAT_HINGE` of a loop's stage: plane × 16 + stage. -/
def hingeReg (loop : Nat) : Nat := (loop / 180 + 1) * 16 + loop % 180 / 20

/-- The stages whose `LAT_HINGE` differs from its reset value, as (plane, stage). -/
def State.hingeStages (s : State) : List (Nat × Nat) :=
  let base := Reg.LAT_HINGE.off 0
  s.regs.filterMap fun x =>
    if base ≤ x.1 ∧ x.1 < base + 0x400 then some ((x.1 - base) / 64, (x.1 - base) % 64 / 4) else none

/-- Working positions of a stage that have failed and have no spare yet. -/
def State.unsubstituted (s : State) (k : Nat) : List Nat :=
  let out := s.rd F.LAT_HINGE.OUT k
  (List.range 18).filter fun p => bitOf out p && s.rd F.LAT_HINGE.SUB18 k != p && s.rd F.LAT_HINGE.SUB19 k != p

/-- A lit plane path crosses a position (R489). -/
def State.litAcross (s : State) (w st pos : Nat) : Bool :=
  s.path.planes.any fun x => x.plane == w && x.lit && Config.crosses ((w - 1) * 180 + st * 20 + pos) x.inp x.outp

/-- `POS_OUT` and `SPARES_USED` of a plane follow its stages. -/
def State.countPlane (s : State) (w : Nat) : State :=
  let ks := (List.range 9).map fun st => w * 16 + st
  let used := ks.foldl (fun (n : Nat) k => n + (if s.rd F.LAT_HINGE.SUB18 k = 31 then 0 else 1) + (if s.rd F.LAT_HINGE.SUB19 k = 31 then 0 else 1)) 0
  let out := ks.foldl (fun (n : Nat) k => n + (s.unsubstituted k).length) 0
  (s.wr F.LAT_PLANE.SPARES_USED used w).wr F.LAT_PLANE.POS_OUT out w

/-- SPARE_SUBSTITUTION within a stage (R489): each failed working position that no lit path crosses takes its half-stage's
spare, where that is free and has not failed. -/
def State.substStage (s : State) (w st : Nat) : State :=
  let k := w * 16 + st
  (s.unsubstituted k).foldl (fun (s : State) p =>
    if s.litAcross w st p then s
    else if p < 9 then
      (if s.rd F.LAT_HINGE.SUB18 k = 31 ∧ !bitOf (s.rd F.LAT_HINGE.OUT k) 18 then s.wr F.LAT_HINGE.SUB18 p k else s)
    else if s.rd F.LAT_HINGE.SUB19 k = 31 ∧ !bitOf (s.rd F.LAT_HINGE.OUT k) 19 then s.wr F.LAT_HINGE.SUB19 p k else s) s

/-- Every substitution that may be made now. -/
def State.substitute (s : State) : State :=
  s.hingeStages.foldl (fun (s : State) x => (s.substStage x.1 x.2).countPlane x.1) s

/-- `LAT_HINGE_FAILED` (Table 10-16). -/
def evHingeFailed : Nat := 0x0A06

/-- The spare that stands in for position `p` of a stage: 18, 19, or 31 for none. -/
def State.spareFor (s : State) (k p : Nat) : Nat :=
  if s.rd F.LAT_HINGE.SUB18 k = p then 18 else if s.rd F.LAT_HINGE.SUB19 k = p then 19 else 31

/-- A position has failed. -/
def State.failHinge (s : State) (loop : Nat) : State :=
  let k := hingeReg loop
  let p := loop % 20
  let s := s.wr F.LAT_HINGE.OUT (putBit (s.rd F.LAT_HINGE.OUT k) p true) k
  let s := if s.rd F.LAT_HINGE.SUB18 k = p then s.wr F.LAT_HINGE.SUB18 31 k else s
  let s := if s.rd F.LAT_HINGE.SUB19 k = p then s.wr F.LAT_HINGE.SUB19 31 k else s
  let s := s.substitute.countPlane (loop / 180 + 1)
  s.note evHingeFailed 1 8 loop [loop / 180 + 1, loop % 180 / 20, p, s.spareFor k p]

/-- A plane path fails verification (R489): with the second failure in a plane, the one position that every failing path
crosses has failed. A failure while the neighbour of the arrival port was in a chip reset or a power cycle does not count
(R684). -/
def State.verifyFailed (s : State) (w a b : Nat) : State :=
  let quiet := match kfind s.peers.hbs a with
    | some h => decide (h.state = 1 ∨ h.state = 2)
    | none => false
  if quiet then s
  else
    let fs := s.path.fails ++ [(w, a, b)]
    let mine := fs.filter fun x => x.1 == w
    let all := (List.range 180).filter fun i =>
      decide (i % 20 < 18) && mine.all fun x => Config.crosses ((w - 1) * 180 + i) x.2.1 x.2.2
    match mine, all with
    | _ :: _ :: _, [i] => ({ s with path.fails := fs.filter fun x => x.1 != w }).failHinge ((w - 1) * 180 + i)
    | _, _ => { s with path.fails := fs }

end Sys2Proof.Machine
end

