-- ==== Sys2Proof/Machine/Paths.lean ====
section
/-! DEFINITION. The path engine (spec/10_lattice_and_paths.md): plane paths, the circuit table, set-up, teardown, moves,
re-cabling and the path messages; binding of circuits (R551). -/

namespace Sys2Proof

/-- The 24 payload bytes of a path message (Table 10-8). -/
def PathMsg.bytes (m : PathMsg) (code : Nat) : List (BitVec 8) :=
  leBytes 1 code ++ leBytes 1 (m.hop % 8 + (if m.backup then 128 else 0)) ++ leBytes 2 m.origNode ++ leBytes 2 m.origIdx ++
    leBytes 2 m.planes ++ leBytes 1 m.portA ++ leBytes 1 m.portB ++ leBytes 1 m.reason ++
    leBytes 1 ((if m.staged then 1 else 0) + (if m.jobBound then 2 else 0) + (if m.found then 4 else 0)) ++
    leBytes 2 m.job ++ leBytes 1 m.spanA ++ leBytes 1 m.spanB ++ leBytes 6 m.step ++ leBytes 2 m.index
where
  /-- Little-endian bytes (R6). -/
  leBytes : Nat → Nat → List (BitVec 8)
    | 0, _ => []
    | n + 1, v => BitVec.ofNat 8 v :: leBytes n (v / 256)

end Sys2Proof

namespace Sys2Proof.Machine

open Sys2Proof

/-! ### Codes -/

def evSetupFail : Nat := 0x0A00
def evMoveFail : Nat := 0x0A01
def evNoBackup : Nat := 0x0A02
def evCircLost : Nat := 0x0A03
def evAuditRelease : Nat := 0x0A04
def evRecable : Nat := 0x0A05
def evPortLossy : Nat := 0x0A07
def evRtFull : Nat := 0x0B07

/-- Entry types (Table 10-5). -/
def ptyORIG : Nat := 1
def ptyRESP : Nat := 2
def ptyTHRU : Nat := 3
def ptyBACKUP : Nat := 4

/-- Entry states (`LAT_CIRC_A.STATE`). -/
def psROUTING : Nat := 1
def psRESERVING : Nat := 2
def psLIGHTING : Nat := 3
def psLIT : Nat := 4
def psMOVING : Nat := 5
def psDOWN : Nat := 6
def psRELEASING : Nat := 7
def psSTAGED : Nat := 8
def psHELD : Nat := 9

/-- Reasons (Table 10-7). -/
def prFORMAT : Nat := 0x01
def prTABLE_FULL : Nat := 0x02
def prNO_ROUTE : Nat := 0x03
def prNO_PLANES : Nat := 0x04
def prLOSS_BUDGET : Nat := 0x05
def prHOP_SILENT : Nat := 0x06
def prFAR_REFUSED : Nat := 0x07
def prNOT_OWNER : Nat := 0x08
def prUNKNOWN : Nat := 0x09
def prNO_REFERENCE : Nat := 0x0A
def prVERIFY : Nat := 0x0B
def prRECABLE_LATE : Nat := 0x0C
def prRECABLE_LEAD : Nat := 0x0D

/-- The status of a reason (Table 10-7). -/
def reasonStatus (r : Nat) : Nat :=
  if r = 0 then stOK
  else if r = prTABLE_FULL ∨ r = prNO_PLANES ∨ r = prNO_REFERENCE then stBUSY
  else if r = prNO_ROUTE ∨ r = prUNKNOWN then stNOTFOUND
  else if r = prHOP_SILENT ∨ r = prVERIFY ∨ r = prRECABLE_LATE then stTIMEOUT
  else stPOLICY

/-- Message codes (Table 10-8). -/
def pmRESV : Nat := 0x01
def pmRESV_ACK : Nat := 0x02
def pmLIGHT : Nat := 0x03
def pmLIT : Nat := 0x04
def pmRELEASE : Nat := 0x05
def pmRELEASE_ACK : Nat := 0x06
def pmMOVE : Nat := 0x07
def pmCOMMIT : Nat := 0x08
def pmABORT : Nat := 0x09
def pmAUDIT : Nat := 0x0A
def pmAUDIT_REPLY : Nat := 0x0B
def pmEVACUATE : Nat := 0x0C
def pmEVAC_ACK : Nat := 0x0D
def pmTEARDOWN_REQ : Nat := 0x0E
def pmWAKE : Nat := 0x0F
def pmWAKE_ACK : Nat := 0x10

/-- A wake pattern leaves on wavelength 0 of a port (R481): its kind in `Output.ctrl`. -/
def ctrlWake : Nat := 0x100

/-! ### Entries -/

def State.ent (s : State) (i : Nat) : PathEnt := kget s.path.ents i PathEnt.init
def State.setEnt (s : State) (i : Nat) (e : PathEnt) : State := { s with path.ents := kset s.path.ents i e }
def State.ctype (s : State) (i : Nat) : Nat := s.rd F.LAT_CIRC_A.TYPE i
def State.cstate (s : State) (i : Nat) : Nat := s.rd F.LAT_CIRC_A.STATE i
def State.setCstate (s : State) (i v : Nat) : State := s.wr F.LAT_CIRC_A.STATE v i

/-- The lowest entry of type `FREE` (R500). -/
def State.freeIdx (s : State) : Option Nat := (List.range 512).find? fun i => s.ctype i == 0

/-- The entry of a circuit named by its origin, at a module that is not the originator (R499). -/
def State.entOf (s : State) (m : PathMsg) : Option Nat :=
  (List.range 512).find? fun i =>
    decide (2 ≤ s.ctype i) && s.rd F.LAT_CIRC_A.NODE i == m.origNode && s.rd F.LAT_CIRC_A.ORIG_IDX i == m.origIdx

/-- This module's `ORIG` entry that a message names. -/
def State.origOf (s : State) (m : PathMsg) : Option Nat :=
  if m.origNode = s.node ∧ m.origIdx < 512 ∧ s.ctype m.origIdx = ptyORIG then some m.origIdx else none

/-- The planes of a mask, lowest first. -/
def planesOf (mask : Nat) : List Nat := (List.range 16).filter fun w => decide (1 ≤ w) && bitOf mask w

def maskOf (ws : List Nat) : Nat := ws.foldl (fun m w => Nat.lor m (2 ^ w)) 0

/-- Fewest lanes of an entry (Table 10-6). -/
def State.minLanes (s : State) (i : Nat) : Nat :=
  if s.rd F.LAT_CIRC_B.MIN_LANES i = 0 then (s.ent i).lanes else s.rd F.LAT_CIRC_B.MIN_LANES i

/-! ### Plane paths (R484 to R488, R495) -/

def State.inTaken (s : State) (free : List Nat) (w p : Nat) : Bool :=
  s.path.planes.any fun x => x.plane == w && x.inp == p && !free.contains x.own
def State.outTaken (s : State) (free : List Nat) (w p : Nat) : Bool :=
  s.path.planes.any fun x => x.plane == w && x.outp == p && !free.contains x.own

/-- A plane in which a new path can be routed without moving lit ones (R488): always while nothing is lit in it and no
position is out of service; else as the stages' wiring has it, which the spec does not give. -/
def State.unblocked (s : State) (w : Nat) : Bool :=
  (s.rd F.LAT_PLANE.POS_OUT w == 0 && !(s.path.planes.any fun x => x.plane == w && x.lit)) || !Config.planeBlocked s.free w

/-- The lowest free add/drop port of a plane (R496). -/
def State.lowDrop (s : State) (free : List Nat) (w : Nat) : Option Nat :=
  (List.range 12).find? fun d => !s.inTaken free w (24 + d) && !s.outTaken free w (24 + d)

/-- An end module can take a lane of plane `w` on a port. -/
def State.canEnd (s : State) (free : List Nat) (w port : Nat) : Bool :=
  (s.lowDrop free w).isSome && !s.inTaken free w port && !s.outTaken free w port && s.unblocked w

/-- An intermediate module can take a lane of plane `w` between two ports. -/
def State.canThrough (s : State) (w a b : Nat) : Bool :=
  a != b && !s.inTaken [] w a && !s.outTaken [] w a && !s.inTaken [] w b && !s.outTaken [] w b && s.unblocked w

/-- Planes that this end can offer on an egress port. -/
def State.freePlanes (s : State) (free : List Nat) (port mask : Nat) : Nat :=
  if s.portRoutable port then maskOf ((planesOf mask).filter fun w => s.canEnd free w port) else 0

/-- Hold dark the two plane paths of each plane at an end. -/
def State.holdEnd (s : State) (free : List Nat) (i port mask : Nat) (bk : Bool) : State :=
  (planesOf mask).foldl (fun (s : State) w =>
    match s.lowDrop free w with
    | none => s
    | some d => { s with path.planes := s.path.planes ++ [⟨w, 24 + d, port, i, false, false, bk⟩, ⟨w, port, 24 + d, i, false, false, bk⟩] }) s

/-- Hold dark the two plane paths of each plane at an intermediate module. -/
def State.holdThrough (s : State) (i a b mask : Nat) (bk : Bool) : State :=
  { s with path.planes := s.path.planes ++ (planesOf mask).flatMap fun w =>
      [⟨w, a, b, i, false, false, bk⟩, ⟨w, b, a, i, false, false, bk⟩] }

/-- Drop plane paths of an entry. -/
def State.dropPaths (s : State) (i : Nat) (sel : PPath → Bool) : State :=
  { s with path.planes := s.path.planes.filter fun x => !(x.own == i && sel x) }

/-- Light the dark paths of an entry that lie in the planes of a mask. -/
def State.lightPaths (s : State) (i mask : Nat) (bk : Bool) : State :=
  { s with path.planes := s.path.planes.map fun x =>
      if (x.own == i && x.bk == bk && bitOf mask x.plane && !x.lit) then { x with lit := true, ok := false } else x }

/-- A backup's or new route's paths become the circuit's own. -/
def State.promote (s : State) (i : Nat) : State :=
  { s with path.planes := s.path.planes.map fun x => if x.own == i then { x with bk := false } else x }

/-- Planes of an entry's paths. -/
def State.heldPlanes (s : State) (i : Nat) (bk : Bool) : Nat :=
  maskOf ((s.path.planes.filter fun x => x.own == i && x.bk == bk).map PPath.plane)

/-- Every lit path of an entry is verified (R509). -/
def State.allVerified (s : State) (i : Nat) (bk : Bool) : Bool :=
  s.path.planes.all fun x => x.own != i || x.bk != bk || !x.lit || x.ok

/-- `LAT_CIRC_A.PLANES` follows the paths. -/
def State.syncPlanes (s : State) (i : Nat) : State :=
  let a := s.heldPlanes i false
  s.wr F.LAT_CIRC_A.PLANES (if a = 0 then s.heldPlanes i true else a) i

/-- The lanes of an end's paths in plane order (R434, R435). -/
def State.endLanes (s : State) (i : Nat) : List Nat :=
  (((s.path.planes.filter fun x => x.own == i && !x.bk && x.lit && decide (24 ≤ x.inp)).map fun x =>
    (x.plane - 1) * 12 + (x.inp - 24)).mergeSort fun a b => decide (a ≤ b))

/-! ### Messages (R506) -/

/-- What a message of the originator's entry `i` carries. -/
def State.origMsg (s : State) (i : Nat) : PathMsg where
  hop := 0
  backup := false
  origNode := s.node
  origIdx := i
  planes := 0
  portA := 0
  portB := 0
  reason := 0
  staged := (s.ent i).staged
  jobBound := s.flag F.LAT_CIRC_A.JOB_BOUND i
  found := false
  job := s.rd F.LAT_CIRC_B.OWNER_JOB i
  spanA := 0
  spanB := 0
  step := (s.ent i).step
  index := i

/-- What a message of a hop's or responder's entry `i` carries. -/
def State.hopMsg (s : State) (i : Nat) : PathMsg :=
  { s.origMsg i with
    hop := s.rd F.LAT_CIRC_A.HOP i
    backup := s.ctype i == ptyBACKUP
    origNode := s.rd F.LAT_CIRC_A.NODE i
    origIdx := s.rd F.LAT_CIRC_A.ORIG_IDX i }

def State.sendPath (s : State) (dst code : Nat) (m : PathMsg) : State := s.pmsg dst pkSYNC 1 0 (m.bytes code)

/-- The modules of a route as (node, hop, port toward the originator, port toward the far module). -/
def routeStops : List Hop → Nat → List (Nat × Nat × Nat × Nat)
  | [], _ => []
  | [h], _ => [(h.node, 4, h.arrival, 0)]
  | h :: g :: r, n => (h.node, n, h.arrival, g.egress) :: routeStops (g :: r) (n + 1)

/-- Send one message to each module of a route. -/
def State.sendRoute (s : State) (i code planes : Nat) (r : List Hop) (bk : Bool) : State :=
  (routeStops r 1).foldl (fun (s : State) x =>
    s.sendPath x.1 code { s.origMsg i with hop := x.2.1, backup := bk, planes := planes, portA := x.2.2.1, portB := x.2.2.2 }) s

/-! ### Answers (R504, R505) -/

/-- The owner job of a list's circuits (R501). -/
def State.pathOwner (s : State) (j : PathJob) : Nat :=
  match j.src with
  | .cmd r => s.ctxJob r.slot
  | .mailbox _ => 0
  | .placement job => job

/-- The context of a list (R524). -/
def State.pathCtx (s : State) (ref : Option (Nat × Nat)) : Option Nat :=
  match ref with
  | none => none
  | some (j, _) => match kfind s.path.jobs j with
    | some ⟨.cmd r, _, _, _, _, _⟩ => some (s.ctxId r.slot)
    | _ => none

/-- Bytes 19 to 27 of an answer about circuit `c`. -/
def State.pathAnswer (s : State) (c : Nat) : List (BitVec 8) :=
  leBytes 1 (s.rd F.LAT_CIRC_B.HOPS c) ++ leBytes 2 c ++
    leBytes 2 (if s.ctype c = ptyRESP then s.rd F.LAT_CIRC_A.ORIG_IDX c else s.rd F.LAT_CIRC_B.FAR_INDEX c) ++
    leBytes 2 (s.rd F.LAT_CIRC_A.PLANES c) ++ leBytes 1 (s.rd F.LAT_CIRC_B.MARGIN c) ++
    leBytes 1 (if s.flag F.LAT_CIRC_A.BK c then s.rd F.LAT_CIRC_B.BK_HOPS c else 0xFF)

/-- Free values for bytes 19 to 27 of an entry that failed: the spec has them written and gives no values. -/
def State.freeAnswer (s : State) : List (BitVec 8) := (List.range 9).map fun n => Config.byte s.free n

/-- Write bytes 16 to 27 of a list's entry (R504). -/
def State.writeEntry (s : State) (j : PathJob) (k : Nat) (bs : List (BitVec 8)) : State :=
  let off := j.base + 32 * k + 16
  match j.src with
  | .cmd r => (s.engineAccess r (.write bs) (2 ^ 58 + off) .store).1
  | .mailbox _ => s.putLocal off bs
  | .placement _ => s

/-- An entry ends; `circ` names the circuit whose values it reports. -/
def State.endPath (s : State) (ref : Nat × Nat) (reason : Nat) (circ : Option Nat) : State :=
  match kfind s.path.jobs ref.1 with
  | none => s
  | some j => match j.entries[ref.2]? with
    | none => s
    | some e =>
      if e.ended.isSome then s
      else
        let (s, tail) := match circ with
          | some c => (s, s.pathAnswer c)
          | none => (s.tick, s.freeAnswer)
        let e := { e with started := true, ended := some (reasonStatus reason, reason), answer := tail }
        let s := { s with path.jobs := kset s.path.jobs ref.1 { j with entries := j.entries.set ref.2 e } }
        s.writeEntry j ref.2 (leBytes 2 (reasonStatus reason) ++ leBytes 1 reason ++ tail)

def State.endPathOf (s : State) (ref : Option (Nat × Nat)) (reason : Nat) (circ : Option Nat) : State :=
  match ref with
  | none => s
  | some r => s.endPath r reason circ

/-! ### Binding (R551, R553) -/

/-- Routing entries in use: the fixed ones and the `NODE` entries (Table 11-8). -/
def State.rtUsed (s : State) : Nat :=
  let fixed := match s.topo.cur with
    | some p => 30 + (p.blocks - 1)
    | none => 0
  fixed + (s.routes.filter fun e => decide (0x10000 ≤ e.1) && decide (e.1 < 0x20000) && (e.2.bound.isSome || e.2.repl)).length

/-- A new far node finds no free `NODE` entry (R553). -/
def State.rtFullFor (s : State) (node : Nat) : Bool :=
  let e := kget s.routes (nodeKey node) Route.init
  !(e.bound.isSome || e.repl) && decide (4096 ≤ s.rtUsed)

def State.rtFull (s : State) (node : Nat) : State :=
  (s.wr F.PTH_RT_STATUS.FULL_SEEN 1).note evRtFull 1 0 0 [node]

/-- The far node of an entry at either end. -/
def State.circFar (s : State) (c : Nat) : Nat := s.rd F.LAT_CIRC_A.NODE c

/-- Bind a circuit; requests wait until the old one has none in flight. -/
def State.setBound (s : State) (node : Nat) (c : Option Nat) (old : Option Nat) : State :=
  let e := kget s.routes (nodeKey node) Route.init
  match c with
  | none => { s with routes := if e.repl then kset s.routes (nodeKey node) { e with bound := none } else kdel s.routes (nodeKey node) }
  | some n =>
    let s := { s with routes := kset s.routes (nodeKey node) { e with bound := some n } }
    match old with
    | some o => s.setCirc n { s.circ n with after := some o }
    | none => s

/-- A circuit reaches `UP`. -/
def State.bindNode (s : State) (c : Nat) : State :=
  let node := s.circFar c
  match s.boundCirc node with
  | none => s.setBound node (some c) none
  | some o => if o ≠ c ∧ (s.ent c).place ∧ !(s.ent o).place then s.setBound node (some c) (some o) else s

/-- The bound circuit is torn down: the next-lowest `UP` circuit to the node takes its place. -/
def State.unbind (s : State) (c : Nat) : State :=
  let node := s.circFar c
  if s.boundCirc node = some c then
    let ups := (List.range 512).filter fun n =>
      n != c && s.rd F.LNK_CIRC.STATE n == csUP && (s.ctype n == ptyORIG || s.ctype n == ptyRESP) && s.circFar n == node
    s.setBound node ((ups.find? fun n => (s.ent n).place) <|> ups.head?) none
  else s

/-- REBIND: nothing is in flight on the old bound circuit of a node, and the held requests go. -/
def execRebind (node : Nat) (s : State) : Result :=
  .next <| match s.boundCirc node with
    | none => s
    | some c => match (s.circ c).after with
      | none => s
      | some o =>
        let x := s.circ o
        if x.replay.isEmpty && x.txq.isEmpty then s.setCirc c { s.circ c with after := none } else s

/-! ### Release (R512) -/

/-- An entry becomes `FREE`; the teardowns that waited for it end. -/
def State.freeEntry (s : State) (i : Nat) : State :=
  let e := s.ent i
  let s := e.tear.foldl (fun (s : State) r => s.endPath r 0 (some i)) s
  let s := s.dropPaths i fun _ => true
  let s := (s.wreg .LAT_CIRC_A 0 i).wreg .LAT_CIRC_B 0 i
  { s with path.ents := kdel s.path.ents i }

/-- The MAC end of a circuit goes (R468, R426, R551). -/
def State.endMac (s : State) (i : Nat) : State := ((s.unbind i).ringCircuitLost i).circNone i

/-- The originator tears a circuit down: modulators dark, `RELEASE` to every module of both routes. -/
def State.releaseCirc (s : State) (i : Nat) : State :=
  let e := s.ent i
  let s := (s.endMac i).dropPaths i fun _ => true
  let s := s.sendRoute i pmRELEASE 0 e.route false
  let s := s.sendRoute i pmRELEASE 0 e.bk true
  let wait := e.route.map (fun h => (h.node, false)) ++ (routeMids e.bk).map (fun n => (n, true))
  let s := s.setEnt i { e with wait := wait, phase := 0, wake := [], cands := [] }
  if wait.isEmpty then s.freeEntry i else s.setCstate i psRELEASING

/-- Plane paths held for a route are released at its modules and here. -/
def State.dropRoute (s : State) (i : Nat) (r : List Hop) (bk : Bool) : State :=
  ((s.sendRoute i pmRELEASE 0 r bk).dropPaths i fun x => x.bk == bk && !x.lit).syncPlanes i

/-- The backup is given up: its paths go everywhere. -/
def State.dropBackup (s : State) (i : Nat) : State :=
  let e := s.ent i
  let s := s.sendRoute i pmRELEASE 0 e.bk true
  let s := (s.dropPaths i fun x => x.bk).setEnt i { e with bk := [], wait := e.wait.filter fun x => !x.2 }
  (s.wr F.LAT_CIRC_A.BK 0 i).wr F.LAT_CIRC_B.BK_HOPS 0 i

/-- A hop or responder frees its paths and its entry. -/
def State.hopFree (s : State) (i : Nat) : State :=
  (if s.ctype i = ptyRESP then s.endMac i else s).freeEntry i

/-- A set-up entry fails: the event, the answer, and the table entry goes. -/
def State.failSetup (s : State) (i : Nat) : State :=
  let e := s.ent i
  let reason := if e.row = 4 then prVERIFY else if e.reason = 0 then prNO_ROUTE else e.reason
  let s := s.note evSetupFail 0 0 0 [s.circFar i, reason, e.tried] (s.pathCtx e.job)
  (s.endPathOf e.job reason none).freeEntry i

/-! ### Set-up at the originator (R495 to R500, R507, R508, R511) -/

/-- The circuits that the teardown entries of a re-cable release at its tick (R521). -/
def State.claims (s : State) (i : Nat) : List Nat :=
  let e := s.ent i
  if e.staged then
    match e.job with
    | none => []
    | some (j, _) => match kfind s.path.jobs j with
      | none => []
      | some x => x.entries.filterMap fun q =>
          if (bitOf (leAt q.bytes 3 1) 3 && q.started && q.ended.isNone) then q.circ else none
  else []

/-- Send `RESV` to every module of the route, and to the backup's (Table 10-9). -/
def State.sendResv (s : State) (i : Nat) : State :=
  let e := s.ent i
  let s := s.sendRoute i pmRESV e.offered e.route false
  let s := if e.mode = 1 then s.sendRoute i pmRESV (s.heldPlanes i true) e.bk true else s
  let s := s.setEnt i { e with
    wait := e.route.map (fun h => (h.node, false)) ++ (if e.mode = 1 then e.bk.map fun h => (h.node, true) else [])
    acks := [], phase := 1 }
  s.setCstate i psRESERVING

/-- Modules of a route for which there is no next hop (R511). -/
def State.asleep (s : State) (r : List Hop) : List Nat := (r.map Hop.node).filter fun n => (s.nextHops n).isEmpty

/-- A wake pattern leaves on a port whose channel is `DARK`. -/
def State.wakePort (s : State) (port : Nat) : State :=
  if s.laneState (w0Lane port) = lsDARK then s.emit (.ctrl port ctrlWake []) else s

/-- The wake round of the first module still to wake. -/
def State.wakeRound (s : State) (i : Nat) : State :=
  let e := s.ent i
  match e.wake with
  | [] => s
  | n :: _ =>
    let before := e.route.takeWhile fun h => h.node != n
    match e.route.find? fun h => h.node == n with
    | none => s
    | some h => match before.getLast? with
      | none => s.wakePort h.egress
      | some p => s.sendPath p.node pmWAKE { s.origMsg i with portB := h.egress }

/-- A backup route for the primary `r` (R498): disjoint, with enough planes here where it is to be reserved. -/
def State.backupFor (s : State) (i : Nat) (r : List Hop) : List Hop :=
  let e := s.ent i
  if e.mode = 0 then []
  else ((s.candidates (s.circFar i) e.hops []).find? fun b =>
    disjointRoutes s.node r b &&
      (e.mode == 2 || decide (s.minLanes i ≤ (planesOf (s.freePlanes [] ((b.map Hop.egress).getD 0 0) e.mask)).length))).getD []

/-- A route is taken: its own-end paths are held, its backup chosen, sleeping modules woken, `RESV` sent. -/
def State.takeRoute (s : State) (i : Nat) (r : List Hop) (offered : Nat) : State :=
  let port := (r.map Hop.egress).getD 0 0
  let s := s.holdEnd (s.claims i) i port offered false
  let b := s.backupFor i r
  let s := if (s.ent i).mode = 1 ∧ b ≠ [] then
      let bp := (b.map Hop.egress).getD 0 0
      s.holdEnd [] i bp (s.freePlanes [] bp (s.ent i).mask) true
    else s
  let e := s.ent i
  let s := s.setEnt i { e with route := r, bk := b, offered := offered, again := false, wake := s.asleep r, phase := 1, acks := [], wait := [] }
  let s := ((s.wr F.LAT_CIRC_A.PORT_A port i).syncPlanes i).setCstate i psRESERVING
  if s.asleep r = [] then s.sendResv i else s.wakeRound i

/-- The next candidate routes in rank order; none left fails the entry (Table 10-9). -/
def State.tryRoutes (i : Nat) : List (List Hop) → State → State
  | [], s => s.failSetup i
  | r :: rest, s =>
    if s.blk.noRef then (s.setEnt i { s.ent i with reason := prNO_REFERENCE }).failSetup i
    else
    let s := s.tick
    let e := s.ent i
    let s := s.setEnt i { e with cands := rest, tried := e.tried + 1 }
    let offered := s.freePlanes (s.claims i) ((r.map Hop.egress).getD 0 0) e.mask
    if (planesOf offered).length < s.minLanes i then
      State.tryRoutes i rest (s.setEnt i { s.ent i with reason := prNO_PLANES })
    else s.takeRoute i r offered

/-- The route in hand fails with a reason: what is held for it is released, and the next one is tried. -/
def State.routeFail (s : State) (i reason : Nat) : State :=
  let e := s.ent i
  let s := s.sendRoute i pmRELEASE 0 e.route false
  let s := if e.mode = 1 then s.sendRoute i pmRELEASE 0 e.bk true else s
  let s := (s.dropPaths i fun _ => true).setEnt i { e with reason := reason, route := [], bk := [], wait := [], acks := [], wake := [], phase := 0 }
  (s.setCstate i psROUTING).tryRoutes i e.cands

/-! #### Judging the answers -/

/-- The planes that every answer of a route grants. -/
def PathEnt.granted (e : PathEnt) (own : Nat) (bk : Bool) : Nat :=
  (e.acks.filter fun a => a.bk == bk).foldl (fun m a => Nat.land m a.planes) own

def PathEnt.ackOf (e : PathEnt) (bk : Bool) (n : Nat) : PathAck :=
  (e.acks.find? fun a => a.bk == bk && a.node == n).getD ⟨n, bk, 0, 255, 255⟩

/-- R493 on the reported spans. -/
def State.marginOf (s : State) (i : Nat) (r : List Hop) (bk : Bool) : Option Nat :=
  let e := s.ent i
  let fwd := r.map fun h => (e.ackOf bk h.node).spanA
  let rev := (routeMids r).map (fun n => (e.ackOf bk n).spanB) ++ [s.rd F.LAT_PORT.SPAN_LOSS ((r.map Hop.egress).getD 0 0)]
  routeMargin fwd rev

/-- The backup's answers are judged: kept with the planes granted everywhere, or given up. -/
def State.judgeBackup (s : State) (i : Nat) : State :=
  let e := s.ent i
  if e.mode ≠ 1 ∨ e.bk = [] then s
  else
    let g := e.granted (s.heldPlanes i true) true
    if (planesOf g).length < s.minLanes i ∨ (s.marginOf i e.bk true).isNone then s.dropBackup i
    else s.dropPaths i fun x => x.bk && !bitOf g x.plane

/-- `BK` and `BK_HOPS` of a circuit whose backup is settled; without one, `PTH_NO_BACKUP` (R498). -/
def State.reportBackup (s : State) (i : Nat) : State :=
  let e := s.ent i
  if e.mode = 0 then s
  else if e.bk = [] then s.note evNoBackup 1 6 i [i] (s.pathCtx e.job)
  else (s.wr F.LAT_CIRC_A.BK 1 i).wr F.LAT_CIRC_B.BK_HOPS (e.bk.length - 1) i

/-- The planes of R496: the `k` lowest. -/
def chosenPlanes (lanes granted : Nat) : Nat := maskOf ((planesOf granted).take lanes)

/-- A set-up in hand ends for want of a clock reference (R111): no further route is tried. -/
def State.noReference (s : State) (i : Nat) : State := (s.setEnt i { s.ent i with cands := [] }).routeFail i prNO_REFERENCE

/-- All answers to the `RESV` of a set-up are in (Table 10-9). -/
def State.judge (s : State) (i : Nat) : State :=
  let s := s.judgeBackup i
  let e := s.ent i
  let g := e.granted e.offered false
  if s.blk.noRef then s.noReference i
  else match s.marginOf i e.route false with
  | none => s.routeFail i prLOSS_BUDGET
  | some margin =>
    if (planesOf g).length < s.minLanes i then
      if e.again then s.routeFail i prNO_PLANES
      else
        -- R508: the same route once more, for the planes that remain free here
        let port := (e.route.map Hop.egress).getD 0 0
        let s := (s.dropPaths i fun x => !x.bk).tick
        let offered := s.freePlanes (s.claims i) port e.mask
        let s := (s.holdEnd (s.claims i) i port offered false).setEnt i { e with offered := offered, again := true }
        if (planesOf offered).length < s.minLanes i then s.routeFail i prNO_PLANES else s.sendResv i
    else
      let planes := chosenPlanes e.lanes g
      let s := s.dropPaths i fun x => !x.bk && !bitOf planes x.plane
      let s := s |>.syncPlanes i
        |>.wr F.LAT_CIRC_B.MARGIN margin i
        |>.wr F.LAT_CIRC_B.HOPS (e.route.length - 1) i
        |>.wr F.LAT_CIRC_B.FAR_INDEX e.planed i
      if e.staged then (s.setEnt i { s.ent i with phase := 0, offered := planes }).setCstate i psSTAGED
      else
        let s := (s.sendRoute i pmLIGHT planes e.route false).lightPaths i planes false
        (s.setEnt i { s.ent i with phase := 2, offered := planes, wait := e.route.map fun h => (h.node, false) }).setCstate i psLIGHTING

/-! ### Lit and up -/

/-- Every module has verified every plane: the circuit is `LIT` and its MAC trains (Table 10-9). -/
def State.enterLit (s : State) (i : Nat) : State :=
  let e := s.ent i
  let s := (s.setEnt i { e with phase := 0, wait := [], row := 0, staged := false }).setCstate i psLIT
  let s := s.syncPlanes i
  let s := s.circTrain i (s.circFar i) (s.endLanes i)
  s.setCirc i { s.circ i with rcirc := s.rd F.LAT_CIRC_B.FAR_INDEX i }

/-- A move to a backup or a new route has been lit: it becomes the route, and the old one's other modules are released
(R514); evacuating modules hear of it (R519). -/
def State.enterMoved (s : State) (i : Nat) : State :=
  let e := s.ent i
  let keep := e.bk.map Hop.node
  let gone := (routeStops e.route 1).filter fun x => !keep.contains x.1
  let s := gone.foldl (fun (s : State) x => s.sendPath x.1 pmRELEASE { s.origMsg i with hop := x.2.1 }) s
  let s := s.dropPaths i fun x => !x.bk || !x.lit
  let s := s.promote i
  let s := e.evac.foldl (fun (s : State) n => s.sendPath n pmEVAC_ACK (s.origMsg i)) s
  let s := s.setEnt i { e with route := e.bk, bk := [], evac := [] }
  let s := s |>.wr F.LAT_CIRC_A.PORT_A ((e.bk.map Hop.egress).getD 0 0) i
    |>.wr F.LAT_CIRC_B.HOPS (e.bk.length - 1) i
    |>.wr F.LAT_CIRC_A.BK 0 i
    |>.wr F.LAT_CIRC_B.BK_HOPS 0 i
  s.enterLit i

/-- Is the lighting in hand complete? -/
def State.checkLit (s : State) (i : Nat) : State :=
  let e := s.ent i
  if s.ctype i = ptyORIG ∧ e.wait = [] then
    if e.phase = 2 ∧ s.allVerified i false then
      let fresh := s.cstate i == psLIGHTING
      let s := s.enterLit i
      if fresh then s.reportBackup i else s
    else if e.phase = 5 ∧ s.allVerified i true then s.enterMoved i
    else s
  else s

/-! ### Circuit delays (R603, R604) -/

/-- A port's egress and ingress latency, and *A*, in 2⁻⁸ ns (Table 13-3). -/
def State.egress (s : State) (p : Nat) : Int := if s.rd F.TIM_CFG.ASYM_MODE = 0 then 7936 else (s.rd F.TIM_PORT.CAL_EGR p : Int) * 128
def State.ingress (s : State) (p : Nat) : Int := if s.rd F.TIM_CFG.ASYM_MODE = 0 then 20224 else (s.rd F.TIM_PORT.CAL_ING p : Int) * 128
def State.asym (s : State) (p : Nat) : Int :=
  if s.rd F.TIM_CFG.ASYM_MODE = 0 then 0 else toSigned 16 (s.rd F.TIM_PORT.ASYM p) * 256 / 10

/-- `TIM_CIRC_DLY[c]`: it reads 0 in mode 0 (Table 13-3). -/
def State.circDly (s : State) (c : Nat) : BitVec 64 := if s.rd F.TIM_CFG.ASYM_MODE = 0 then 0 else s.rreg .TIM_CIRC_DLY c

/-- The one-way delays of a circuit in whole ns, rounded down: fibre (in 0.1 m) at 4.9 ns per metre, 2 ns for each
intermediate module, the own port's latency and *A*. A responder knows its route only where it is one segment; of a longer
one the delay is a free value. -/
def State.circDelay (s : State) (c : Nat) : State :=
  if s.rd F.TIM_CFG.ASYM_MODE < 2 then s
  else
    let port := s.rd F.LAT_CIRC_A.PORT_A c
    let put (s : State) (tx rx : Int) : State :=
      (s.wr F.TIM_CIRC_DLY.TX_NS (ofSigned 16 tx) c).wr F.TIM_CIRC_DLY.RX_NS (ofSigned 16 rx) c
    let sum (s : State) (len mids : Nat) : State :=
      let base : Int := (len : Int) * 49 * 256 / 100 + 512 * mids
      put s ((base + s.egress port - s.asym port) / 256) ((base + s.ingress port + s.asym port) / 256)
    if s.ctype c = ptyORIG then
      let r := (s.ent c).route
      sum s (s.routeLen s.node r) (r.length - 1)
    else if (s.wired s.node port).map Prod.fst = some (s.circFar c) then sum s (s.linkLen s.node port) 0
    else (put s (Config.word s.free).toNat (Config.word (s.free + 1)).toNat).tick.tick

/-- The MAC reports a circuit `UP`: its set-up entry ends, it may be bound, and its delays are computed. -/
def State.pathUp (s : State) (c : Nat) : State :=
  if s.ctype c = 0 then s
  else
    let s := (s.bindNode c).circDelay c
    let e := s.ent c
    if s.ctype c = ptyORIG then (s.endPathOf e.job 0 (some c)).setEnt c { e with job := none } else s

/-! ### Moves (R513 to R515, R519) -/

/-- No action is left: the circuit is `DOWN` (rows 1 and 6), or stays so. -/
def State.moveOver (s : State) (i row : Nat) : State :=
  let e := s.ent i
  let s := s.setEnt i { e with phase := 0, row := 0, wait := [], acks := [], cands := [], bk := if e.mode = 2 ∨ e.row ≤ 2 then e.bk else [] }
  if s.cstate i = psMOVING then
    let s := ((s.setCstate i psDOWN).circDown i).note evMoveFail 1 6 i [i, row]
    let s := (s.setEnt i { s.ent i with downAt := s.opMs }).ringCircuitLost i
    s.endPathOf (if e.job.isSome ∧ e.row = 4 then e.job else none) prVERIFY none
  else s

/-- Rows 4 and 5: the first route that can be tried is reserved. -/
def State.moveTry (i : Nat) : List (List Hop) → State → State
  | [], s => s.moveOver i 6
  | r :: rest, s =>
    let s := s.tick
    let port := (r.map Hop.egress).getD 0 0
    let offered := s.freePlanes [] port (s.ent i).mask
    if (planesOf offered).length < s.minLanes i then State.moveTry i rest s
    else
      let s := s.holdEnd [] i port offered true
      let s := s.setEnt i { s.ent i with
        cands := rest, bk := r, offered := offered, phase := 4, row := 5, acks := [], wait := r.map fun h => (h.node, true) }
      s.sendRoute i pmRESV offered r true

/-- Rows 4 and 5 of Table 10-12 from their start: the planned backup, then every other route. -/
def State.moveRoutes (s : State) (i : Nat) : State :=
  let e := s.ent i
  let others := (s.candidates (s.circFar i) e.hops []).filter fun r => r != e.route && r != e.bk
  let s := if e.mode = 1 ∧ e.bk ≠ [] then s.dropBackup i else s
  s.moveTry i ((if e.mode = 2 ∧ e.bk ≠ [] then [e.bk] else []) ++ others)

/-- Row 3: the reserved backup. -/
def State.moveBackup (s : State) (i : Nat) : State :=
  let e := s.ent i
  let planes := chosenPlanes e.lanes (s.heldPlanes i true)
  if e.mode = 1 ∧ e.bk ≠ [] ∧ s.minLanes i ≤ (planesOf planes).length then
    let s := s.sendRoute i pmMOVE planes e.bk true
    let s := (s.dropPaths i fun x => !x.bk || !bitOf planes x.plane).lightPaths i planes true
    s.setEnt i { s.ent i with row := 3, phase := 5, offered := planes, wait := e.bk.map fun h => (h.node, true) }
  else s.moveRoutes i

/-- Table 10-12 for a circuit in `MOVING` with failed lanes. -/
def State.moveStart (s : State) (i : Nat) (bad : List Nat) : State :=
  if s.blk.noRef then s.moveOver i 1
  else
    let ws := planesOf (s.heldPlanes i false)
    let left := ws.filter fun w => !((s.path.planes.any fun x => x.own == i && !x.bk && x.plane == w && decide (24 ≤ x.inp) &&
      bad.contains ((x.plane - 1) * 12 + (x.inp - 24))))
    if left.length < ws.length ∧ s.minLanes i ≤ left.length ∧ bad ≠ [] then
      -- row 2
      let s := s.dropPaths i fun x => !x.bk && !left.contains x.plane
      let s := s.sendRoute i pmLIGHT (maskOf left) (s.ent i).route false
      s.setEnt i { s.ent i with row := 2, phase := 2, offered := maskOf left, wait := (s.ent i).route.map fun h => (h.node, false) }
    else s.moveBackup i

/-- The action in hand has failed: the next row or route. -/
def State.moveFail (s : State) (i : Nat) : State :=
  let e := s.ent i
  if s.blk.noRef then s.moveOver i 1
  else if e.row = 2 then s.moveBackup i
  else if e.row = 3 then (s.dropBackup i).moveRoutes i
  else
    let s := s.dropRoute i e.bk true
    let s := (s.dropPaths i fun x => x.bk).setEnt i { s.ent i with bk := [], wait := [], acks := [] }
    s.moveTry i e.cands

/-- A failure report of the MAC (R465, R513). -/
def State.pathFailed (s : State) (i : Nat) (bad : List Nat) : State :=
  if s.ctype i ≠ ptyORIG then s
  else if s.cstate i = psLIT then (s.setCstate i psMOVING).moveStart i bad
  else if s.cstate i = psMOVING ∧ (s.ent i).row = 2 then s.moveFail i
  else s

/-- A move off a module or port while the lanes are still lit: from row 3 (R519, R545). -/
def State.pathLeave (s : State) (i : Nat) : State :=
  if s.ctype i = ptyORIG ∧ s.cstate i = psLIT then
    let s := (s.circMoving i).setCstate i psMOVING
    if s.blk.noRef then s.moveOver i 1 else s.moveBackup i
  else s

/-- The answers of a move's route are in. -/
def State.judgeMove (s : State) (i : Nat) : State :=
  let e := s.ent i
  let g := e.granted e.offered true
  if s.blk.noRef then s.moveFail i
  else match s.marginOf i e.bk true with
  | none => s.moveFail i
  | some margin =>
    if (planesOf g).length < s.minLanes i then s.moveFail i
    else
      let planes := chosenPlanes e.lanes g
      let s := s.dropPaths i fun x => !x.bk || !bitOf planes x.plane
      let s := (s.sendRoute i pmLIGHT planes e.bk true).lightPaths i planes true
      let s := s.wr F.LAT_CIRC_B.MARGIN margin i
      s.setEnt i { s.ent i with phase := 5, offered := planes, wait := e.bk.map fun h => (h.node, true) }

/-- The answers of a backup sought after a move are in (R514). -/
def State.judgeSeek (s : State) (i : Nat) : State :=
  let s := s.judgeBackup i
  (s.setEnt i { s.ent i with phase := 0, wait := [], acks := [] }).reportBackup i

/-! ### Lists at work (R503 to R505, R520 to R523) -/

/-- Fields of a request entry (Table 10-6). -/
def prFar (bs : List (BitVec 8)) : Nat := leAt bs 0 2
def prLanes (bs : List (BitVec 8)) : Nat := leAt bs 2 1 % 16
def prMin (bs : List (BitVec 8)) : Nat := leAt bs 2 1 / 16
def prBackup (bs : List (BitVec 8)) : Nat := leAt bs 3 1 % 4
def prJobBound (bs : List (BitVec 8)) : Bool := bitOf (leAt bs 3 1) 2
def prTearOp (bs : List (BitVec 8)) : Bool := bitOf (leAt bs 3 1) 3
def prHops (bs : List (BitVec 8)) : Nat := bitsOf (leAt bs 3 1) 5 4
def prMask (bs : List (BitVec 8)) : Nat := leAt bs 4 2
def prCirc (bs : List (BitVec 8)) : Nat := leAt bs 6 2
/-- The `ROUTE` bytes that count, as egress ports. -/
def prPorts (bs : List (BitVec 8)) : List Nat :=
  (((List.range 4).map fun n => leAt bs (8 + n) 1).takeWhile fun b => decide (128 ≤ b)).map fun b => b % 32

/-- The entry is a set-up. -/
def isSetup (op : Nat) (bs : List (BitVec 8)) : Bool := op == 0x50 || (op == 0x52 && !prTearOp bs)

/-- Bytes 0 to 15 break Table 10-6. -/
def badRequest (op : Nat) (bs : List (BitVec 8)) : Bool :=
  decide (2 ^ 15 ≤ prFar bs) || prBackup bs == 3 || decide (64 ≤ leAt bs 3 1) || bitOf (prMask bs) 0 || leAt bs 12 4 != 0 ||
    (op != 0x52 && prTearOp bs) || (isSetup op bs && prLanes bs == 0) || (!isSetup op bs && decide (512 ≤ prCirc bs)) ||
    (List.range 4).any (fun n => let b := leAt bs (8 + n) 1
      b / 32 % 4 != 0 || (decide (128 ≤ b) && decide (24 ≤ b % 32)))

/-- The path entry `k` of job `j` changes. -/
def State.setReq (s : State) (j k : Nat) (f : PathReq → PathReq) : State :=
  match kfind s.path.jobs j with
  | none => s
  | some x => { s with path.jobs := kset s.path.jobs j { x with entries := x.entries.modify k f } }

/-- A set-up starts. -/
def State.startSetup (s : State) (j k : Nat) (x : PathJob) (bs : List (BitVec 8)) : State :=
  let far := prFar bs
  let fail (s : State) (r : Nat) : State :=
    (s.note evSetupFail 0 0 0 [far, r, 0] (s.pathCtx (some (j, k)))).endPath (j, k) r none
  if s.blk.noRef then fail s prNO_REFERENCE
  else if !s.flag F.ID_NODE.NODE_VALID then fail s prNO_ROUTE
  else match s.freeIdx with
    | none => fail s prTABLE_FULL
    | some i =>
      if s.rtFullFor far then fail (s.rtFull far) prTABLE_FULL
      else
        let place := match x.src with
          | .placement _ => true
          | _ => false
        let s := s |>.wr F.LAT_CIRC_A.TYPE ptyORIG i
          |>.wr F.LAT_CIRC_A.STATE psROUTING i
          |>.wr F.LAT_CIRC_A.NODE far i
          |>.wr F.LAT_CIRC_A.ORIG_IDX i i
          |>.wr F.LAT_CIRC_A.JOB_BOUND (b2n (prJobBound bs)) i
          |>.wr F.LAT_CIRC_B.OWNER_JOB (s.pathOwner x) i
          |>.wr F.LAT_CIRC_B.MIN_LANES (prMin bs) i
        let s := s.setEnt i { PathEnt.init with
          job := some (j, k), lanes := prLanes bs, mode := prBackup bs, hops := prHops bs, mask := prMask bs, ports := prPorts bs,
          place := place, step := if x.op = 0x52 then x.step else 0, staged := x.op == 0x52 }
        let s := s.setReq j k fun q => { q with circ := some i }
        s.tryRoutes i (s.candidates far (prHops bs) (prPorts bs))

/-- Why a teardown may not go (R501, R505). -/
def State.tearCheck (s : State) (x : PathJob) (c : Nat) : Nat :=
  if 512 ≤ c ∨ (s.ctype c ≠ ptyORIG ∧ s.ctype c ≠ ptyRESP) then prUNKNOWN
  else match x.src with
    | .cmd r =>
      let o := s.rd F.LAT_CIRC_B.OWNER_JOB c
      if o ≠ 0 ∧ o ≠ s.ctxJob r.slot then prNOT_OWNER else 0
    | _ => 0

/-- A circuit is to be torn down for the entry `ref`: at once, when its state ends, or by its originator (R512). -/
def State.tearDown (s : State) (c : Nat) (ref : Option (Nat × Nat)) : State :=
  let e := s.ent c
  let s := s.setEnt c { e with tear := e.tear ++ ref.toList, drop := true }
  if s.ctype c = ptyRESP then s.sendPath (s.circFar c) pmTEARDOWN_REQ (s.hopMsg c)
  else if (s.cstate c = psLIT ∨ s.cstate c = psDOWN) ∧ !s.blk.noRef then s.releaseCirc c
  else s

/-- A teardown that waited for a state to end, or for a clock reference (R111), goes on (R512). -/
def State.tearPending (s : State) : State :=
  (s.path.ents.filter fun e => e.2.drop && !s.blk.noRef).foldl (fun (s : State) e =>
    if s.ctype e.1 = ptyORIG ∧ (s.cstate e.1 = psLIT ∨ s.cstate e.1 = psDOWN) ∧ (s.ent e.1).drop then s.releaseCirc e.1 else s) s

/-- Entry `k` of list `j` starts. -/
def State.startPath (s : State) (j k : Nat) : State :=
  match kfind s.path.jobs j with
  | none => s
  | some x => match x.entries[k]? with
    | none => s
    | some q =>
      let bs := q.bytes
      let s := s.setReq j k fun q => { q with started := true }
      if badRequest x.op bs then s.endPath (j, k) prFORMAT none
      else if isSetup x.op bs then s.startSetup j k x bs
      else
        let c := prCirc bs
        if x.op = 0x53 then
          if s.ctype c = ptyORIG ∨ s.ctype c = ptyRESP then s.endPath (j, k) 0 (some c) else s.endPath (j, k) prUNKNOWN none
        else match s.tearCheck x c with
          | 0 => if s.blk.noRef then s.endPath (j, k) prNO_REFERENCE none
            else if x.op = 0x52 then s.setReq j k fun q => { q with circ := some c } else s.tearDown c (some (j, k))
          | r => s.endPath (j, k) r none

/-- A started entry of a re-cable is prepared: a staged set-up, or a teardown found valid (R521). -/
def State.prepared (s : State) (x : PathJob) (q : PathReq) : Bool :=
  x.op == 0x52 && q.started && q.ended.isNone && (match q.circ with
    | none => false
    | some c => prTearOp q.bytes || s.cstate c == psSTAGED)

/-- Request entries in progress (`PTH_STATUS.ACTIVE`): staged ones wait for their tick and are not worked on. -/
def State.pathActive (s : State) : Nat :=
  (s.path.jobs.map fun e => (e.2.entries.filter fun q => q.started && q.ended.isNone && !s.prepared e.2 q).length).foldl (· + ·) 0

/-- The first entry that has not started. -/
def State.nextEntry (s : State) : Option (Nat × Nat) :=
  s.path.jobs.findSome? fun e =>
    match e.2.entries.findIdx? fun q => !q.started with
    | some k => some (e.1, k)
    | none => none

/-- A list whose entries have all ended is answered (R505). -/
def State.finishList (s : State) (j : Nat) (x : PathJob) : State :=
  let s := { s with path.jobs := kdel s.path.jobs j }
  let okN := (x.entries.filter fun q => match q.ended with
    | some (st, _) => st == stOK
    | none => false).length
  let bad := x.entries.findIdx? fun q => match q.ended with
    | some (st, _) => st != stOK
    | none => false
  let status := match bad with
    | some k => ((x.entries[k]?).bind PathReq.ended).map Prod.fst |>.getD stOK
    | none => stOK
  let s := if x.op = 0x52 then s.note evRecable 0 0 0 [x.step, x.entries.length, status] (match x.src with
      | .cmd r => some (s.ctxId r.slot)
      | _ => none) else s
  match x.src with
  | .cmd r => if s.failed r then s else s.setWork r (.done status okN)
  | .mailbox t => s.endTicket t status (bad.getD 0xFFFF) (leBytes 4 okN)
  | .placement job => s.placeCircuit job status ((x.entries.head?.bind PathReq.circ).getD 0xFFFF)

def State.pathDone (s : State) : State :=
  s.path.jobs.foldl (fun (s : State) e => if e.2.entries.all fun q => q.ended.isSome then s.finishList e.1 e.2 else s) s

/-- Entries start in list order, at most 16 at once (R504); lists that have ended are answered. -/
def State.pathKick : Nat → State → State
  | 0, s => s.tearPending.pathDone
  | f + 1, s =>
    if !s.path.coreUp ∨ 16 ≤ s.pathActive then s.tearPending.pathDone
    else match s.nextEntry with
      | none => s.tearPending.pathDone
      | some (j, k) => State.pathKick f (s.startPath j k)

/-- `THRU` and `BACKUP` entries of the circuit table. -/
def State.transit (s : State) : List Nat :=
  (List.range 512).filter fun i => s.ctype i = ptyTHRU || s.ctype i = ptyBACKUP

/-- The answer of an evacuation (R685). -/
def State.endEvac (s : State) : State :=
  match s.peers.evac with
  | none => s
  | some (t, n) =>
    let left := s.transit.length
    ({ s with peers.evac := none }).endWork t stOK 0xFFFF (leBytes 2 (n - left) ++ leBytes 2 left)

/-- An evacuation ends once no entry remains. -/
def State.evacCheck (s : State) : State :=
  if s.peers.evac.isSome ∧ s.transit = [] then s.endEvac else s

/-- Let the lists go on. -/
def State.kick (s : State) : State :=
  (s.pathKick (s.path.jobs.foldl (fun (n : Nat) e => n + e.2.entries.length) 0)).substitute.evacCheck

/-- A new list. -/
def State.addList (s : State) (x : PathJob) : State :=
  let j := s.path.next
  { s with path.jobs := kset s.path.jobs j x, path.next := j + 1 }

/-- A list with its re-cable lead checked (R520). -/
def State.openList (s : State) (x : PathJob) : State :=
  let j := s.path.next
  let s := s.addList x
  if x.op = 0x52 ∧ x.step < s.time.step + max 2 (s.rd F.PTH_CFG.RECABLE_LEAD) then
    ((List.range x.entries.length).foldl (fun (s : State) k => s.endPath (j, k) prRECABLE_LEAD none) s).kick
  else s.kick

/-- The request entries that a list's bytes spell. -/
def readRequests (bs : List (BitVec 8)) : List PathReq :=
  (List.range (bs.length / 32)).map fun k => ⟨(bs.drop (32 * k)).take 16, false, none, none, []⟩

/-- A path command (R503). -/
def State.pathCmd (s : State) (slot queue count op : Nat) : State :=
  s.leaveDormant.workOn slot queue count op fun r c s =>
    let a := leAt c.bytes 8 8
    let n := leAt c.bytes 16 2
    if a % 32 ≠ 0 ∨ !s.isLocalAddr a ∨ n = 0 ∨ 512 < n ∨ generalUse < bitsOf a 41 0 + 32 * n then s.operandError r c qePATH_CMD a
    else match s.fetchBytes r a (32 * n) 0 with
      | (s, none) => s
      | (s, some bs) => (s.setWork r (.path n)).openList ⟨.cmd r, op, leAt c.bytes 24 6, bitsOf a 41 0, readRequests bs, false⟩

def execPathSetup (slot queue count : Nat) (s : State) : Result := .next (s.pathCmd slot queue count 0x50)
def execPathTeardown (slot queue count : Nat) (s : State) : Result := .next (s.pathCmd slot queue count 0x51)
def execPathRecable (slot queue count : Nat) (s : State) : Result := .next (s.pathCmd slot queue count 0x52)
def execPathQuery (slot queue count : Nat) (s : State) : Result := .next (s.pathCmd slot queue count 0x53)

/-! ### Messages received: hops and responders (Table 10-10) -/

/-- A path message is answered only while the path core runs (R517). -/
def State.pathMsgIn (s : State) (f : State → State) : Result := .next (if s.path.coreUp then (f s).kick else s)

/-- An answer to `RESV`. -/
def State.resvReply (s : State) (m : PathMsg) (planes reason idx : Nat) : State :=
  s.sendPath m.origNode pmRESV_ACK { m with
    planes := planes, reason := reason, spanA := s.rd F.LAT_PORT.SPAN_LOSS m.portA, index := idx,
    spanB := if m.hop = 4 then 0 else s.rd F.LAT_PORT.SPAN_LOSS m.portB }

/-- Planes that this module can grant. -/
def State.grantable (s : State) (m : PathMsg) : Nat :=
  if m.hop = 4 then s.freePlanes [] m.portA m.planes
  else if s.portRoutable m.portA && s.portRoutable m.portB then
    maskOf ((planesOf m.planes).filter fun w => s.canThrough w m.portA m.portB)
  else 0

/-- The plan allows a circuit from a node that it holds. -/
def State.planHas (s : State) (n : Nat) : Bool :=
  match s.topo.cur with
  | some p => p.has n
  | none => false

/-- The paths that a `RESV` grants are held in entry `i`. -/
def State.grant (s : State) (i : Nat) (m : PathMsg) (g : Nat) : State :=
  let s := if m.hop = 4 then s.holdEnd [] i m.portA g m.backup else s.holdThrough i m.portA m.portB g m.backup
  (s.setEnt i { s.ent i with ports := [m.portA, m.portB], step := m.step, staged := m.staged }).syncPlanes i |>.resvReply m g 0 i

/-- RESV. -/
def execResv (_src : Nat) (m : PathMsg) (s : State) : Result :=
  s.pathMsgIn fun s =>
    let s := s.leaveDormant.tick
    if !s.flag F.ID_NODE.NODE_VALID || s.flag F.RST_STATUS.EVACUATED then s.resvReply m 0 prFAR_REFUSED 0
    else if s.blk.noRef then s.resvReply m 0 prNO_REFERENCE 0
    else if m.hop = 4 ∧ (!verdictUsed (s.verdict m.portA) ∨ !s.planHas m.origNode) then s.resvReply m 0 prFAR_REFUSED 0
    else match s.entOf m with
      | some i =>
        let s := s.dropPaths i fun x => x.bk == m.backup && !x.lit
        let g := s.grantable m
        if g = 0 then
          let s := s.resvReply m 0 prNO_PLANES i
          if s.heldPlanes i true = 0 ∧ s.heldPlanes i false = 0 then s.hopFree i else s.syncPlanes i
        else s.grant i m g
      | none => match s.freeIdx with
        | none => s.resvReply m 0 prTABLE_FULL 0
        | some i =>
          if m.hop = 4 ∧ s.rtFullFor m.origNode then (s.rtFull m.origNode).resvReply m 0 prTABLE_FULL 0
          else
            let g := s.grantable m
            if g = 0 then s.resvReply m 0 prNO_PLANES 0
            else
              let s := s |>.wr F.LAT_CIRC_A.TYPE (if m.hop = 4 then ptyRESP else if m.backup then ptyBACKUP else ptyTHRU) i
                |>.wr F.LAT_CIRC_A.STATE psHELD i
                |>.wr F.LAT_CIRC_A.NODE m.origNode i
                |>.wr F.LAT_CIRC_A.ORIG_IDX m.origIdx i
                |>.wr F.LAT_CIRC_A.PORT_A m.portA i
                |>.wr F.LAT_CIRC_A.PORT_B (if m.hop = 4 then 0 else m.portB) i
                |>.wr F.LAT_CIRC_A.HOP m.hop i
                |>.wr F.LAT_CIRC_A.JOB_BOUND (b2n m.jobBound) i
                |>.wr F.LAT_CIRC_B.OWNER_JOB m.job i
              let s := s.setEnt i { PathEnt.init with place := m.hop == 4 && m.jobBound && (kfind s.place.jobs m.job).isSome }
              s.grant i m g

/-- A hop's or responder's lit paths are all verified: it is `LIT` and says so; a responder's lanes train. -/
def State.hopLit (s : State) (i : Nat) : State :=
  if s.cstate i = psLIGHTING ∧ s.allVerified i false then
    let s := (s.setCstate i psLIT).syncPlanes i
    let s := s.sendPath (s.circFar i) pmLIT { s.hopMsg i with planes := s.heldPlanes i false, backup := (s.ent i).row == 1 }
    if s.ctype i = ptyRESP then
      let s := s.circTrain i (s.circFar i) (s.endLanes i)
      s.setCirc i { s.circ i with rcirc := s.rd F.LAT_CIRC_A.ORIG_IDX i }
    else s
  else s

/-- Held paths are lit in the planes chosen; of a backup or a new route, the old route's paths go and it takes their
place. `row` 1 notes that the light is for a move. -/
def State.hopLight (s : State) (i : Nat) (m : PathMsg) : State :=
  let move := m.backup
  let e := s.ent i
  let dark := s.path.planes.any fun x => x.own == i && x.bk == move && !x.lit
  if move ∧ dark then
    let s := s.dropPaths i fun x => !x.bk || !bitOf m.planes x.plane
    let s := s.promote i
    let s := s.lightPaths i m.planes false
    let s := if s.ctype i = ptyBACKUP then s.wr F.LAT_CIRC_A.TYPE ptyTHRU i else s
    let s := s |>.wr F.LAT_CIRC_A.PORT_A (e.ports.getD 0 0) i
      |>.wr F.LAT_CIRC_A.PORT_B (if s.ctype i = ptyRESP then 0 else e.ports.getD 1 0) i
      |>.wr F.LAT_CIRC_A.HOP m.hop i
    ((s.setEnt i { s.ent i with row := 1, staged := false }).setCstate i psLIGHTING).syncPlanes i
  else
    let s := s.dropPaths i fun x => !x.bk && !bitOf m.planes x.plane
    let s := s.lightPaths i m.planes false
    (((s.setEnt i { s.ent i with row := 0, staged := false }).setCstate i psLIGHTING).syncPlanes i).hopLit i

/-- LIGHT. -/
def execLight (_src : Nat) (m : PathMsg) (s : State) : Result :=
  s.pathMsgIn fun s => match s.entOf m with
    | some i => if s.blk.noRef then s else if s.cstate i = psHELD ∨ s.cstate i = psLIT ∨ s.cstate i = psLIGHTING then s.hopLight i m else s
    | none => s

/-- MOVE: the held paths of a reserved backup are lit. -/
def execMove (_src : Nat) (m : PathMsg) (s : State) : Result :=
  s.pathMsgIn fun s => match s.entOf m with
    | some i => if s.blk.noRef then s else s.hopLight i { m with backup := true }
    | none => s

/-- RELEASE: the paths and the entry go; of a responder's or hop's backup alone, only its backup paths. -/
def execRelease (src : Nat) (m : PathMsg) (s : State) : Result :=
  s.pathMsgIn fun s =>
    if s.blk.noRef then s
    else
    let s := match s.entOf m with
      | none => s
      | some i =>
        if m.backup ∧ s.ctype i ≠ ptyBACKUP then
          let s := (s.dropPaths i fun x => x.bk && !x.lit).syncPlanes i
          if (s.path.planes.any fun x => x.own == i) then s else s.hopFree i
        else s.hopFree i
    s.sendPath src pmRELEASE_ACK { m with index := 0 }

/-- COMMIT: staged paths will light, and a lit entry will be released, at the step tick (R522, R523). -/
def execCommit (_src : Nat) (m : PathMsg) (s : State) : Result :=
  s.pathMsgIn fun s => match s.entOf m with
    | none => s
    | some i =>
      if s.cstate i = psHELD ∧ (s.ent i).staged then
        let s := s.dropPaths i fun x => x.bk == m.backup && !bitOf m.planes x.plane
        (s.setEnt i { s.ent i with commit := true, step := m.step }).syncPlanes i
      else s.setEnt i { s.ent i with commit := true, drop := true, step := m.step }

/-- ABORT: a staged preparation is released (R522). -/
def execPathAbort (_src : Nat) (m : PathMsg) (s : State) : Result :=
  s.pathMsgIn fun s => match s.entOf m with
    | none => s
    | some i => if s.cstate i = psHELD ∧ (s.ent i).staged then s.hopFree i else s

/-- HELD_TIMEOUT: 4 × `HOP_TO` without `LIGHT`. -/
def execHeldTimeout (idx : Nat) (s : State) : Result :=
  .next <| if (s.ctype idx = ptyRESP ∨ s.ctype idx = ptyTHRU) ∧ s.cstate idx = psHELD ∧ !(s.ent idx).staged then s.hopFree idx else s

/-- AUDIT: the originator says whether it holds the circuit with the sender on its route (R518). -/
def execAudit (src : Nat) (m : PathMsg) (s : State) : Result :=
  s.pathMsgIn fun s =>
    let found := match s.origOf m with
      | some i => let e := s.ent i
        (e.route ++ e.bk).any fun h => h.node == src
      | none => false
    s.sendPath src pmAUDIT_REPLY { m with found := found }

/-- AUDIT_REPLY: an entry found is kept. -/
def execAuditReply (_src : Nat) (m : PathMsg) (s : State) : Result :=
  s.pathMsgIn fun s => match s.entOf m with
    | some i => if m.found then s.setEnt i { s.ent i with audit := false } else s
    | none => s

/-- AUDIT_TIMEOUT: no `FOUND` reply within 1 s. -/
def execAuditTimeout (idx : Nat) (s : State) : Result :=
  .next <| if (s.ent idx).audit then
      (s.note evAuditRelease 0 6 idx [idx, s.circFar idx, s.rd F.LAT_CIRC_A.ORIG_IDX idx]).hopFree idx
    else s

/-- The path core starts: it answers messages again and audits its entries (R517, R518). -/
def State.pathCoreStart (s : State) : State :=
  let s := ({ s with path.coreUp := true }).wr F.PTH_STATUS.CORE_UP 1
  let s := ((List.range 512).filter fun i => decide (2 ≤ s.ctype i)).foldl (fun (s : State) i =>
    (s.setEnt i { s.ent i with audit := true }).sendPath (s.circFar i) pmAUDIT (s.hopMsg i)) s
  s.kick

/-- `EVACUATE` to the originators of `THRU` and `BACKUP` entries, and of `RESP` entries where `resp` (R519, R545). -/
def State.askEvacuate (s : State) (sel : Nat → Bool) (resp : Bool) : State :=
  ((List.range 512).filter fun i => (decide (3 ≤ s.ctype i) || (resp && s.ctype i == ptyRESP)) && sel i).foldl (fun (s : State) i =>
    s.sendPath (s.circFar i) pmEVACUATE (s.hopMsg i)) s

/-! ### Messages received: the originator -/

/-- RESV_ACK. -/
def execResvAck (src : Nat) (m : PathMsg) (s : State) : Result :=
  s.pathMsgIn fun s => match s.origOf m with
    | none => s
    | some i =>
      let e := s.ent i
      if !e.wait.contains (src, m.backup) ∨ !(e.phase = 1 ∨ e.phase = 3 ∨ e.phase = 4) then s
      else
        let e := { e with
          wait := e.wait.erase (src, m.backup)
          acks := e.acks ++ [⟨src, m.backup, m.planes, m.spanA, m.spanB⟩]
          reason := if m.planes = 0 ∧ !m.backup then m.reason else e.reason
          planed := if m.hop = 4 ∧ m.planes ≠ 0 then m.index else e.planed }
        let s := s.setEnt i e
        if e.wait ≠ [] then s
        else if e.phase = 3 then s.judgeSeek i
        else if e.phase = 4 then s.judgeMove i
        else if e.acks.any fun a => !a.bk && a.planes == 0 && e.reason != prNO_PLANES then s.routeFail i e.reason
        else s.judge i

/-- LIT. -/
def execLit (src : Nat) (m : PathMsg) (s : State) : Result :=
  s.pathMsgIn fun s => match s.origOf m with
    | none => s
    | some i =>
      let e := s.ent i
      let bk := e.phase == 5
      if !(e.phase = 2 ∨ e.phase = 5) ∨ !e.wait.contains (src, bk) then s
      else if Nat.land m.planes e.offered ≠ e.offered then
        (if s.cstate i = psLIGHTING then s.routeFail i prVERIFY else s.moveFail i)
      else (s.setEnt i { e with wait := e.wait.erase (src, bk) }).checkLit i

/-- RELEASE_ACK. -/
def execReleaseAck (src : Nat) (m : PathMsg) (s : State) : Result :=
  s.pathMsgIn fun s => match s.origOf m with
    | none => s
    | some i =>
      if s.cstate i ≠ psRELEASING then s
      else
        let e := s.ent i
        let w := e.wait.filter fun x => x.1 != src
        let s := s.setEnt i { e with wait := w }
        if w.isEmpty then s.freeEntry i else s

/-- TEARDOWN_REQ. -/
def execTeardownReq (_src : Nat) (m : PathMsg) (s : State) : Result :=
  s.pathMsgIn fun s => match s.origOf m with
    | some i => s.tearDown i none
    | none => s

/-- EVACUATE_MSG: a circuit moves off the sender, or its reserved backup is replaced (R519). -/
def execEvacuateMsg (src : Nat) (m : PathMsg) (s : State) : Result :=
  s.pathMsgIn fun s => match s.origOf m with
    | none => s.sendPath src pmEVAC_ACK m
    | some i =>
      let e := s.ent i
      if e.route.any fun h => h.node == src then (s.setEnt i { e with evac := e.evac ++ [src] }).pathLeave i
      else if e.bk.any fun h => h.node == src then (s.dropBackup i).sendPath src pmEVAC_ACK (s.origMsg i)
      else s.sendPath src pmEVAC_ACK (s.origMsg i)

/-- EVAC_ACK: a circuit has left this module; its `RELEASE` frees the entry. -/
def execEvacAck (_src : Nat) (m : PathMsg) (s : State) : Result :=
  s.pathMsgIn fun s => match s.entOf m with
    | some i => s.setEnt i { s.ent i with evac := [] }
    | none => s

/-- WAKE: the wake pattern on `PORT_B`, and an answer (R511). -/
def execWake (src : Nat) (m : PathMsg) (s : State) : Result :=
  s.pathMsgIn fun s => (s.wakePort m.portB).sendPath src pmWAKE_ACK m

/-- WAKE_ACK: a module has sent the wake pattern it was asked for. The round goes on (R511). -/
def execWakeAck (src : Nat) (m : PathMsg) (s : State) : Result :=
  s.pathMsgIn fun s => match s.origOf m with
    | some i => s.setEnt i { s.ent i with wait := (s.ent i).wait.erase (src, false) }
    | none => s

/-- WAKE_ROUND_EXPIRES: 350 ms after a wake pattern. -/
def execWakeRoundExpires (idx : Nat) (s : State) : Result :=
  .next <|
    let e := s.ent idx
    if s.ctype idx ≠ ptyORIG ∨ s.cstate idx ≠ psRESERVING then s
    else match e.wake with
      | [] => s
      | n :: rest =>
        (if (s.nextHops n).isEmpty then s.routeFail idx prHOP_SILENT
        else
          let more := rest.filter fun k => (s.nextHops k).isEmpty
          let s := s.setEnt idx { e with wake := more }
          if more = [] then s.sendResv idx else s.wakeRound idx).kick

/-! ### Time limits (R507, R514, R515) -/

/-- HOP_TIMEOUT: no answer within `HOP_TO`. -/
def execHopTimeout (idx : Nat) (s : State) : Result :=
  .next <|
    let e := s.ent idx
    (if s.ctype idx = ptyRESP then
      (e.tear.foldl (fun (s : State) r => s.endPath r prHOP_SILENT none) s).setEnt idx { e with tear := [], drop := false }
    else if s.ctype idx ≠ ptyORIG ∨ (e.wait = [] ∧ s.cstate idx ≠ psRELEASING) then s
    else if s.cstate idx = psRELEASING then s.freeEntry idx
    else if e.phase = 1 then
      (if e.wait.all fun x => x.2 then (s.dropBackup idx).judge idx else s.routeFail idx prHOP_SILENT)
    else if e.phase = 3 then (s.dropBackup idx).judgeSeek idx
    else if e.phase = 4 ∨ e.phase = 5 ∨ s.cstate idx = psMOVING then s.moveFail idx
    else s).kick

/-- SETUP_TIMEOUT: `SETUP_TO` since the entry started. -/
def execSetupTimeout (idx : Nat) (s : State) : Result :=
  .next <|
    let e := s.ent idx
    let st := s.cstate idx
    if s.ctype idx = ptyORIG ∧ (st = psROUTING ∨ st = psRESERVING ∨ st = psLIGHTING) ∧ e.job.isSome then
      let reason := if st = psLIGHTING ∨ e.row = 4 then prVERIFY else if st = psRESERVING then prHOP_SILENT
        else if e.reason = 0 then prNO_ROUTE else e.reason
      let s := s.note evSetupFail 0 0 0 [s.circFar idx, reason, e.tried] (s.pathCtx e.job)
      let s := (s.endPathOf e.job reason none).setEnt idx { e with job := none }
      (s.releaseCirc idx).kick
    else s

/-- DOWN_RETRY: rows 3 to 5 for a circuit that is `DOWN`. -/
def execDownRetry (idx : Nat) (s : State) : Result :=
  .next <| if s.ctype idx = ptyORIG ∧ s.cstate idx = psDOWN ∧ (s.ent idx).phase = 0 ∧ !s.blk.noRef then (s.moveBackup idx).kick else s

/-- DOWN_HOLD_EXPIRES: the circuit is torn down. -/
def execDownHoldExpires (idx : Nat) (s : State) : Result :=
  .next <| if s.ctype idx = ptyORIG ∧ s.cstate idx = psDOWN ∧ !s.blk.noRef then
      ((s.note evCircLost 1 6 idx [idx, s.circFar idx, s.opMs - (s.ent idx).downAt]).releaseCirc idx).kick
    else s

/-- BACKUP_SEEK: a new backup for a circuit that has moved (R514). -/
def execBackupSeek (idx : Nat) (s : State) : Result :=
  .next <|
    let e := s.ent idx
    if s.blk.noRef ∨ s.ctype idx ≠ ptyORIG ∨ s.cstate idx ≠ psLIT ∨ e.mode = 0 ∨ e.bk ≠ [] ∨ e.phase ≠ 0 then s
    else
      let s := s.tick
      let b := s.backupFor idx e.route
      if b = [] ∨ e.mode = 2 then (s.setEnt idx { e with bk := b }).reportBackup idx
      else
        let port := (b.map Hop.egress).getD 0 0
        let g := s.freePlanes [] port e.mask
        let s := s.holdEnd [] idx port g true
        let s := s.setEnt idx { e with bk := b, phase := 3, acks := [], wait := b.map fun h => (h.node, true) }
        s.sendRoute idx pmRESV g b true

/-- PLANE_PATH_VERIFIED: a lit plane path is found as it should be, or not (R509). -/
def execPlanePathVerified (plane inp outp : Nat) (ok : Bool) (s : State) : Result :=
  .next <|
    match s.path.planes.find? fun x => x.plane == plane && x.inp == inp && x.outp == outp && x.lit with
    | none => s
    | some p =>
      let i := p.own
      let s := if ok then s else s.verifyFailed plane inp outp
      (if ok then
        let s := { s with path.planes := s.path.planes.map fun x => if x = p then { x with ok := true } else x }
        if s.ctype i = ptyORIG then s.checkLit i else s.hopLit i
      else if s.ctype i = ptyORIG then
        (if (s.ent i).phase = 2 ∧ s.cstate i = psLIGHTING then s.routeFail i prVERIFY
        else if (s.ent i).phase = 2 ∨ (s.ent i).phase = 5 then s.moveFail i else s)
      else if s.cstate i = psLIGHTING then
        s.sendPath (s.circFar i) pmLIT { s.hopMsg i with
          reason := prVERIFY, backup := (s.ent i).row == 1,
          planes := maskOf ((planesOf (s.heldPlanes i false)).filter fun w =>
            w != plane && s.path.planes.all fun x => x.own != i || x.plane != w || x.ok) }
      else s).kick

/-! ### Re-cabling (R520 to R523) -/

/-- The circuits of a re-cable: staged set-ups or teardowns. -/
def PathJob.circsOf (x : PathJob) (tear : Bool) : List (Nat × Nat) :=
  (List.range x.entries.length).filterMap fun k => match x.entries[k]? with
    | some q => if prTearOp q.bytes = tear ∧ q.ended.isNone then q.circ.map fun c => (k, c) else none
    | none => none

/-- RECABLE_DEADLINE: step `STEP` − 1. -/
def execRecableDeadline (step : Nat) (s : State) : Result :=
  .next <| ((s.path.jobs.filter fun e => e.2.op == 0x52 && e.2.step == step && !e.2.commit).foldl (fun (s : State) e =>
    let (j, x) := e
    if x.entries.all fun q => s.prepared x q then
      let s := { s with path.jobs := kset s.path.jobs j { x with commit := true } }
      let s := (x.circsOf false).foldl (fun (s : State) kc =>
        let e := s.ent kc.2
        let s := s.sendRoute kc.2 pmCOMMIT e.offered e.route false
        if e.mode = 1 then s.sendRoute kc.2 pmCOMMIT (s.heldPlanes kc.2 true) e.bk true else s) s
      (x.circsOf true).foldl (fun (s : State) kc =>
        let e := s.ent kc.2
        let s := s.setEnt kc.2 { e with step := step }
        if s.ctype kc.2 = ptyORIG then (s.sendRoute kc.2 pmCOMMIT 0 e.route false).sendRoute kc.2 pmCOMMIT 0 e.bk true else s) s
    else
      let s := (x.circsOf false).foldl (fun (s : State) kc =>
        let e := s.ent kc.2
        let s := s.sendRoute kc.2 pmABORT 0 e.route false
        let s := if e.mode = 1 then s.sendRoute kc.2 pmABORT 0 e.bk true else s
        (s.setEnt kc.2 { e with job := none }).freeEntry kc.2) s
      (List.range x.entries.length).foldl (fun (s : State) k => s.endPath (j, k) prRECABLE_LATE none) s) s).kick

/-- The originator's share of a tick: teardowns go first, then staged circuits light. Without a clock reference nothing changes, and
every entry fails (R111). -/
def State.tickOrig (s : State) (j : Nat) (x : PathJob) : State :=
  if s.blk.noRef then
    let s := (x.circsOf false).foldl (fun (s : State) kc => (s.setEnt kc.2 { s.ent kc.2 with job := none }).freeEntry kc.2) s
    (List.range x.entries.length).foldl (fun (s : State) k => s.endPath (j, k) prNO_REFERENCE none) s
  else
  let s := (x.circsOf true).foldl (fun (s : State) kc => s.tearDown kc.2 (some (j, kc.1))) s
  (x.circsOf false).foldl (fun (s : State) kc =>
    let i := kc.2
    let e := s.ent i
    let s := s.lightPaths i e.offered false
    let bk := if e.mode = 2 ∧ e.bk ≠ [] then [e.bk] else []
    let others := (s.candidates (s.circFar i) e.hops []).filter fun r => r != e.route && r != e.bk
    (s.setEnt i { e with phase := 2, row := 4, staged := false, cands := bk ++ others, wait := e.route.map fun h => (h.node, false) }).setCstate i
      psLIGHTING) s

/-- A hop's or responder's share of a tick. -/
def State.tickHop (s : State) (i : Nat) : State :=
  let e := s.ent i
  if e.staged ∧ s.cstate i = psHELD then
    if e.commit ∧ !s.blk.noRef then
      if s.ctype i = ptyBACKUP then s.setEnt i { e with staged := false, commit := false }
      else
        let s := s.lightPaths i (s.heldPlanes i false) false
        (s.setEnt i { e with staged := false, commit := false }).setCstate i psLIGHTING
    else s.hopFree i
  else if e.commit ∧ e.drop ∧ !s.blk.noRef then s.hopFree i
  else s

/-- RECABLE_TICK: tick `STEP`. -/
def execRecableTick (step : Nat) (s : State) : Result :=
  .next <|
    let due := (List.range 512).filter fun i => decide (2 ≤ s.ctype i) && (s.ent i).step == step && ((s.ent i).staged || (s.ent i).commit)
    let drops := due.filter fun i => (s.ent i).drop
    let s := drops.foldl (fun (s : State) i => s.tickHop i) s
    let s := (due.filter fun i => !drops.contains i).foldl (fun (s : State) i => s.tickHop i) s
    ((s.path.jobs.filter fun e => e.2.op == 0x52 && e.2.step == step && e.2.commit).foldl (fun (s : State) e => s.tickOrig e.1 e.2) s).kick

/-! ### Ports and jobs -/

/-- REFERENCE_QUALIFIED: a clock reference is back, and circuit changes that waited for one go on (R111, R595). -/
def execReferenceQualified (tref : Bool) (s : State) : Result := .next (s.referenceBack tref).kick

/-- SPAN_LOSS_MEASURE: the span loss of a port, in 0.1 dB, its gain and whether it is lossy (R491, R492). -/
def execSpanLossMeasure (port loss : Nat) (s : State) : Result :=
  .next <|
    let was := s.flag F.LAT_PORT.LOSSY port
    let lossy : Bool := decide (140 < loss)
    let s := s |>.wr F.LAT_PORT.SPAN_LOSS (min loss 255) port
      |>.wr F.LAT_PORT.GAIN (min 200 (max 60 (60 + loss))) port
      |>.wr F.LAT_PORT.LOSSY (b2n lossy) port
    if (lossy && !was) then s.note evPortLossy 1 7 port [port, loss] else s

/-- The last context of a job has gone: its job-bound circuits are torn down (R502). -/
def State.jobGone (s : State) (job : Nat) : State :=
  ((List.range 512).filter fun i =>
    s.ctype i == ptyORIG && s.flag F.LAT_CIRC_A.JOB_BOUND i && s.rd F.LAT_CIRC_B.OWNER_JOB i == job).foldl (fun (s : State) i =>
      s.tearDown i none) s |>.kick

/-- The path engine's share of a port that fell out of use while plane paths are lit through it (R545). -/
def State.leavePort (s : State) (port : Nat) : State :=
  let on (i : Nat) : Bool := s.path.planes.any fun x => x.own == i && x.lit && (x.inp == port || x.outp == port)
  let s' := ((List.range 512).filter fun i => s.ctype i == ptyORIG && on i).foldl (fun (s : State) i => s.pathLeave i) s
  (s'.askEvacuate on true).kick

end Sys2Proof.Machine
end

