-- ==== Sys2Proof/Machine/LinkRows.lean ====
section
/-! DEFINITION. The commands of chapter 9 whose outcome reaches the path engine or the routing table: bring-up of lanes
(R445 to R447), lane failure (R464, R465) and acknowledgement timeout (R460). -/

namespace Sys2Proof.Machine

open Sys2Proof

/-- A port leaves every next hop at once (R546), and the next hops are due to be rebuilt (R549); a replacement that has lost its hops
ends. -/
def State.unroute (s : State) (port : Nat) : State :=
  let without (h : Option Nat) : Option Nat := if h = some port then none else h
  { s with
    routes := s.routes.map fun e =>
      let r : Route := { e.2 with a := without e.2.a, b := without e.2.b }
      (e.1, { r with repl := r.repl && (r.a.isSome || r.b.isSome) })
    topo.stale := true }

/-- A protected message to a node has failed on both hierarchical next hops: a `NODE` entry takes another usable port in their place
(R549; which one is open, notes/assumptions/61.md), or none is free (R553). -/
def State.replaceFailed (s : State) (dst port : Nat) : State :=
  match (List.range 24).find? fun q => s.portUsable q && q != port with
  | none => s
  | some q =>
    if s.rtFullFor dst then s.rtFull dst
    else { s with routes := kset s.routes (nodeKey dst) { kget s.routes (nodeKey dst) Route.init with repl := true, a := some q, b := none } }

/-- A copy that failed on `port` goes on the other next hop of its destination, where there is one. -/
def State.resendCopy (s : State) (port : Nat) (t : TxPkt) : State :=
  match (s.nextHops t.pkt.dst).find? fun q => q != port with
  | some q =>
    let y := s.circ (chanKey q)
    s.setCirc (chanKey q) { y with txq := y.txq ++ [t] }
  | none => s

/-- Copies that a failed channel strands go on the other next hop (R550); its other contents wait for the channel. -/
def State.strand (s : State) (port : Nat) : State :=
  let x := s.circ (chanKey port)
  let copies := (x.replay ++ x.txq).filter fun t => t.type == ptPMSG
  let s := s.setCirc (chanKey port) { x with txq := x.txq.filter fun t => t.type != ptPMSG }
  copies.foldl (fun (s : State) t =>
    if s.pmsgAged t then s
    else (if (s.nextHops t.pkt.dst).isEmpty then s.replaceFailed t.pkt.dst port else s).resendCopy port t) s

/-- A channel fails: the port leaves the routing table, and the copies it strands go on the other next hop (R546,
R550). -/
def State.chanLost (s : State) (port : Nat) : State := (s.unroute port).strand port

/-- What follows the failure of lanes of one circuit or channel: `MOVING` and the report (R465). -/
def State.lanesLost (s : State) (lanes : List Nat) : State :=
  match lanes with
  | [] => s
  | l :: _ => match s.laneCirc l with
    | none => s
    | some c => if 512 ≤ c then s.chanLost (c - 512) else ((s.circMoving c).pathFailed c lanes).kick

/-- A lane's bring-up fails. -/
def State.trainLost (s : State) (lane cause : Nat) : State := (s.trainFail lane cause).lanesLost [lane]

/-- The number of a condition of Table 9-8. -/
def condCode : LaneFailCond → Nat
  | .signalLoss => 0
  | .fourUncorrectable => 1
  | .hundredUncorrectable => 2
  | .alignmentLost => 3
  | .replayMax => 4

/-- Lanes of one circuit fail under a condition of Table 9-8. -/
def State.failLanes (s : State) (lanes : List Nat) (cond : LaneFailCond) : State :=
  (lanes.foldl (fun (s : State) l =>
    (s.laneFailed l).note evLaneFail 1 5 l [l, condCode cond, (s.laneCirc l).getD 0]) s).lanesLost lanes

/-- LANE_FAIL. -/
def execLaneFail (lane : Nat) (cond : LaneFailCond) (s : State) : Result :=
  .next <|
    let st := s.laneState lane
    if st = lsDARK ∨ st = lsFAILED then s else s.failLanes [lane] cond

/-- LANE_BOUND_EXCEEDED: a bring-up state has lasted too long. -/
def execLaneBoundExceeded (lane : Nat) (s : State) : Result :=
  .next <| if lsCDR ≤ s.laneState lane ∧ s.laneState lane ≤ lsCHECK then s.trainLost lane 0 else s

/-- INIT: the far end's node, incarnation, circuit (or port), which is the `RCIRC` of packets to it, lane number, lane count and plane, and `READY`. Lanes of a circuit
enter `CHECK` together, once each is at `INIT` or later. -/
def execInit (lane node inc circ laneI k plane : Nat) (ready : Bool) (s : State) : Result :=
  .next <|
    if s.laneState lane ≠ lsINIT then s
    else match s.laneCirc lane with
      | none => s
      | some c =>
        let lanes := s.circLanes c
        if c < 512 ∧ (node ≠ s.rd F.LNK_CIRC.FAR_NODE c ∨ plane ≠ lanePlane lane ∨ k ≠ lanes.length ∨ laneI ≠ lanes.idxOf lane) then
          s.trainLost lane 2
        else if !ready then s
        else
          let s := (s.setLane lane { s.lane lane with initOk := true, farInc := inc }).setCirc c { s.circ c with rcirc := circ }
          if lanes.all fun l => decide (lsINIT ≤ s.laneState l) && decide (s.laneState l ≤ lsUP) then
            lanes.foldl (fun (s : State) l =>
              if s.laneState l = lsINIT ∧ (s.lane l).initOk then s.setLaneState l lsCHECK else s) s
          else s

/-- LANE_CHECK_COMPLETE: 6,000 codewords with the symbols corrected and the codewords not correctable. -/
def execLaneCheckComplete (lane corrected uncorr : Nat) (s : State) : Result :=
  .next <|
    if s.laneState lane ≠ lsCHECK then s
    else if corrected ≤ 3264 ∧ uncorr = 0 then
      let s := s.laneUp lane
      match s.laneCirc lane with
      | none => s
      | some c =>
        if 512 ≤ c then { s.meetFar c (s.lane lane).farInc with topo.stale := true }
        else if (s.circLanes c).all fun l => s.laneState l == lsUP then ((s.circEnterUp c).pathUp c).kick
        else s
    else if (s.lane lane).retried then s.trainLost lane 1
    else (s.setLaneState lane lsADAPT).setLane lane { s.lane lane with retried := true }

/-- ACK_TIMEOUT: every unacknowledged packet is resent; the `REPLAY_MAX`th time in a row the lanes fail instead of
waiting longer. -/
def execAckTimeout (circ : Nat) (s : State) : Result :=
  .next <|
    let x := s.circ circ
    if !s.circUp circ ∨ x.replay = [] then s
    else
      let s := (s.bump F.LNK_CNT_REPLAY.COUNT).setCirc circ { x with replays := x.replays + 1 }
      if s.rd1 F.LNK_CFG.REPLAY_MAX ≤ x.replays + 1 then
        (s.setCirc circ { s.circ circ with replays := 0 }).failLanes (s.circLanes circ) .replayMax
      else s.resend circ fun _ => true

end Sys2Proof.Machine
end

