-- ==== Sys2Proof/Machine/Topology.lean ====
section
/-! DEFINITION. Wiring plans, discovery and routing (spec/11_topology_and_discovery.md). -/

namespace Sys2Proof.Machine

open Sys2Proof

def evPortQuar : Nat := 0x0B00
def evPortCleared : Nat := 0x0B01
def evPortMissing : Nat := 0x0B02
def evSwapAccepted : Nat := 0x0B03
def evPlanCommit : Nat := 0x0B04
def evPlanSkew : Nat := 0x0B05
def evPlanUnqualified : Nat := 0x0B06
def evLongFibre : Nat := 0x0B08
def evNodeValid : Nat := 0x0B09

def State.portDisc (s : State) (p : Nat) : PortDisc := kget s.topo.ports p PortDisc.init
def State.setPortDisc (s : State) (p : Nat) (x : PortDisc) : State := { s with topo.ports := kset s.topo.ports p x }

/-- The low 32 bits of this module's fingerprint: its last 4 bytes, big-endian (R696). -/
def State.fprLow (s : State) : Nat :=
  let w := s.rd F.SEC_FPR.FPR 3
  bitsOf w 39 32 * 2 ^ 24 + bitsOf w 47 40 * 2 ^ 16 + bitsOf w 55 48 * 2 ^ 8 + bitsOf w 63 56

/-- Version comparison (R555). -/
def newer (v u : Nat) : Bool :=
  let d := (v + 2 ^ 16 - u % 2 ^ 16) % 2 ^ 16
  decide (1 ≤ d) && decide (d ≤ 32767)

/-! ### Verdicts (Table 11-7, R540 to R543) -/

/-- Some port of this module, of the tier given or of another, has the node as its planned peer. -/
def plannedPeer (p : Plan) (self node : Nat) (tier : Nat → Bool) : Bool :=
  (List.range 24).any fun q => tier q && (match p.peer self q with
    | some (m, _) => m == node
    | none => false)

/-- R543: the swap is in force, or both ends accept it. -/
def State.swapHolds (s : State) (port : Nat) (d : Disc) : Bool :=
  kfind s.topo.swaps port == some (d.node, d.port) ||
    (s.flag F.PTH_DISC_CFG.SWAP_ACCEPT && s.flag F.PTH_DISC_PORT.SWAP_SENT port && decide (3 ≤ (s.portDisc port).accept))

/-- The verdict of a port from three identical blocks (Table 11-7, in its order). -/
def State.judgeDisc (s : State) (port : Nat) (d : Disc) : Nat :=
  match s.topo.cur with
  | none => vNONE
  | some p =>
    let peer := p.peer s.node port
    let isPeer := peer == some (d.node, d.port)
    let fpr := kget p.fpr d.node 0
    let same := fun q => portTier q == portTier port
    if d.planLoaded && d.node == s.node then vLOOP
    else if !d.planLoaded then vPENDING
    else if (s.wired s.node port).isNone then vUNPLANNED
    else if isPeer && s.flag F.PTH_DISC_CFG.IDENT_CHECK && fpr != 0 && d.fpr != fpr then vIDENTITY
    else if isPeer && !(d.heardValid && d.heardNode == s.node && d.heardPort == port) then vASYMMETRIC
    else if isPeer && d.quar then vFAR_QUAR
    else if isPeer then vMATCH
    else if s.swapHolds port d && plannedPeer p s.node d.node same then vSWAP_ACCEPTED
    else if plannedPeer p s.node d.node same then vSWAPPED
    else if plannedPeer p s.node d.node fun q => !same q then vTIER
    else vFOREIGN

/-- R527: enough ports match, and `NODE_VALID` is set. -/
def State.checkNodeValid (s : State) : State :=
  if s.topo.cur.isNone ∨ s.flag F.ID_NODE.NODE_VALID then s
  else
    let conn := ((List.range 24).filter fun p => (s.wired s.node p).isSome).length
    let good := ((List.range 24).filter fun p => verdictUsed (s.verdict p)).length
    if conn ≤ 2 * good then (s.wr F.ID_NODE.NODE_VALID 1).note evNodeValid 0 0 0 [s.node, good] else s

/-- The effective wiring's fields of `PTH_DISC_PORT`. -/
def State.reportPlan (s : State) (port : Nat) : State :=
  match s.wired s.node port with
  | some (n, q) => ((s.wr F.PTH_DISC_PORT.PLAN_NODE n port).wr F.PTH_DISC_PORT.PLAN_CONN 1 port).wr F.PTH_DISC_PORT.PLAN_PORT q port
  | none => ((s.wr F.PTH_DISC_PORT.PLAN_NODE 0 port).wr F.PTH_DISC_PORT.PLAN_CONN 0 port).wr F.PTH_DISC_PORT.PLAN_PORT 0 port

/-- The peer under the effective wiring, or 0. -/
def State.peerNode (s : State) (port : Nat) : Nat := ((s.wired s.node port).map Prod.fst).getD 0

/-- A port takes a verdict: registers, quarantine and `BEACON` (R541, R542), routing (R549) and paths (R545). -/
def State.setVerdict (s : State) (port v : Nat) (d : Option Disc) : State :=
  let old := s.verdict port
  let wasQuar := s.flag F.PTH_DISC_PORT.QUAR port
  let quar := verdictQuar v
  let (n, q, f) := match d with
    | some d => (d.node, d.port, d.fpr)
    | none => (0, 0, 0)
  let plannedNode := s.peerNode port
  let s := if v = vSWAP_ACCEPTED then { s with topo.swaps := kset s.topo.swaps port (n, q) } else s
  let s := (s |>.wr F.PTH_DISC_PORT.VERDICT v port
    |>.wr F.PTH_DISC_PORT.QUAR (b2n quar) port
    |>.wr F.LAT_PORT.QUAR (b2n quar) port
    |>.wr F.PTH_DISC_PORT.SWAP_SENT
        (b2n (v == vSWAP_ACCEPTED || (v == vSWAPPED && s.flag F.PTH_DISC_CFG.SWAP_ACCEPT))) port
    |>.wr F.PTH_DISC_PORT.NEIGH_NODE n port
    |>.wr F.PTH_DISC_PORT.NEIGH_PORT q port
    |>.wr F.PTH_DISC_PORT.NEIGH_VALID (b2n d.isSome) port).reportPlan port
  if v = old then s
  else
    let s := { s with topo.stale := true }
    let s := if quar then
        let up := s.chanUp port
        let s := s.setLaneState (w0Lane port) lsBEACON
        let s := if up then s.chanLost port else s
        s.note evPortQuar 1 7 port [port, v, n, q, f]
      else if wasQuar then
        let s := if s.laneState (w0Lane port) = lsBEACON then s.setLaneState (w0Lane port) lsCDR else s
        if verdictUsed v then s.note evPortCleared 0 7 port [port, v] else s
      else s
    let s := if v = vSWAP_ACCEPTED then s.note evSwapAccepted 1 7 port [port, plannedNode, n] else s
    let s := if v = vMISSING then s.note evPortMissing 1 7 port [port, s.peerNode port] else s
    let s := if verdictUsed old && !verdictUsed v then (s.unroute port).leavePort port else s
    s.checkNodeValid

/-! ### DISC (R539, R540, R544, R546) -/

/-- Two blocks are identical in bytes 1 to 19, ignoring `INC`. -/
def sameDisc (a b : Disc) : Bool := { a with inc := 0 } == { b with inc := 0 }

/-- DISC: a block arrives on a port whose channel is `UP` or in `BEACON`. -/
def execDisc (port : Nat) (blk : Disc) (s : State) : Result :=
  .next <|
    let st := s.laneState (w0Lane port)
    if st ≠ lsUP ∧ st ≠ lsBEACON then s
    else
      let x := s.portDisc port
      let again := match x.last with
        | some l => sameDisc l blk
        | none => false
      let hearsMe := blk.acceptSwap && blk.heardValid && blk.heardNode == s.node && blk.heardPort == port
      let x := { x with last := some blk, same := if again then x.same + 1 else 1, silent := false,
                        accept := if hearsMe then x.accept + 1 else 0 }
      let s := s.setPortDisc port x
      let s := match s.topo.cur with
        | some p =>
          if blk.planLoaded && (blk.planVer != p.ver || blk.planCrc != p.crc) && newer blk.planVer p.ver && !x.skew.contains blk.planVer then
            (s.setPortDisc port { x with skew := blk.planVer :: x.skew }).note evPlanSkew 0 7 port [port, blk.planVer]
          else s
        | none => s
      if 3 ≤ x.same then s.setVerdict port (s.judgeDisc port blk) (some blk) else s

/-- DISC_SEND: the block that a port sends (Table 11-6). -/
def execDiscSend (port : Nat) (s : State) : Result :=
  .next <|
    let st := s.laneState (w0Lane port)
    if st ≠ lsUP ∧ st ≠ lsBEACON then s
    else
      let heard := (s.portDisc port).last
      let (ver, crc) := match s.topo.cur with
        | some p => (p.ver, p.crc)
        | none => (0, 0)
      s.emit (.ctrl port cbDISC [
        b2n s.topo.cur.isSome, s.rd F.ID_NODE.NODE_VALID, s.rd F.PTH_DISC_PORT.QUAR port, s.rd F.PTH_DISC_PORT.SWAP_SENT port,
        b2n heard.isSome, (if s.topo.cur.isSome then s.node else 0), port, s.lk.inc, ver, crc, s.fprLow,
        (heard.map Disc.node).getD 0, (heard.map Disc.port).getD 0, s.verdict port])

/-- DISC_TIMEOUT: no block for `DISC_TO`. -/
def execDiscTimeout (port : Nat) (s : State) : Result :=
  .next <|
    let s := s.setPortDisc port { s.portDisc port with last := none, same := 0, accept := 0, silent := true }
    if s.topo.cur.isNone then s.setVerdict port vNONE none
    else s.setVerdict port (if (s.wired s.node port).isSome then vMISSING else vUNUSED) none

/-! ### Next hops (R549) -/

/-- A gateway: the first port toward it and the near end of its link. -/
structure Gate where
  port : Nat
  link : Nat × Nat
deriving DecidableEq, Repr

/-- This module's usable port to a member of its cell. -/
def State.memberPort (s : State) (m : Nat) : Option Nat :=
  (List.range 15).find? fun p => s.portUsable p && s.peerNode p == s.node / 16 * 16 + m

/-- Links in a port range of a node whose far end satisfies a test; this module's own ports must be usable. -/
def State.linksOf (s : State) (n : Nat) (ports : List Nat) (far : Nat → Bool) : List Nat :=
  ports.filter fun p => (n != s.node || s.portUsable p) && (match s.wired n p with
    | some (m, _) => far m
    | none => false)

/-- Gateways by links of this module, then by members of its cell in order. -/
def State.gatesVia (s : State) (ports : List Nat) (far : Nat → Bool) : List Gate :=
  (s.linksOf s.node ports far).map (fun p => ⟨p, (s.node, p)⟩) ++
    (List.range 16).flatMap fun y =>
      match s.memberPort y with
      | none => []
      | some p =>
        let n := s.node / 16 * 16 + y
        (s.linksOf n ports far).map fun q => ⟨p, (n, q)⟩

def blockPorts : List Nat := (List.range 6).map (15 + ·)
def domainPorts : List Nat := [21, 22, 23]

/-- Gateways to a member of the own cell. -/
def State.memberGates (s : State) (m : Nat) : List Gate :=
  s.gatesVia (List.range 15) fun n => n == s.node / 16 * 16 + m

/-- Gateways to a cell of the own block. -/
def State.cellGates (s : State) (c : Nat) : List Gate := s.gatesVia blockPorts fun n => nodeBlock n == nodeBlock s.node && nodeCell n == c

/-- Gateways to another block: domain links of this module or its cell; then the way to a cell whose members hold one. -/
def State.blockGates (s : State) (b : Nat) : List Gate :=
  s.gatesVia domainPorts (fun n => nodeBlock n == b) ++
    ((List.range 16).filter fun c => c != nodeCell s.node).flatMap fun c =>
      match s.cellGates c with
      | [] => []
      | g :: _ => (List.range 16).flatMap fun y =>
          let n := mkNode (nodeBlock s.node) c y
          (s.linksOf n domainPorts fun m => nodeBlock m == b).map fun q => ⟨g.port, (n, q)⟩

/-- Next hops A and B from gateways in order. -/
def gateHops (gs : List Gate) : Route :=
  match gs with
  | [] => Route.init
  | g :: rest => ⟨none, some g.port, (rest.find? fun h => h.port != g.port && h.link != g.link).map Gate.port, false⟩

/-- ROUTING_REBUILD: the next hops of every fixed entry; `NODE` entries stay. -/
def execRoutingRebuild (s : State) : Result :=
  .next <|
    let keep := s.routes.filter fun e => decide (e.1 < 0x20000)
    let members := ((List.range 16).filter fun m => m != nodeMember s.node).map fun m => (memberKey m, gateHops (s.memberGates m))
    let cells := ((List.range 16).filter fun c => c != nodeCell s.node).map fun c => (cellKey c, gateHops (s.cellGates c))
    let blocks := match s.topo.cur with
      | some p => ((List.range p.blocks).filter fun b => b != nodeBlock s.node).map fun b => (blockKey b, gateHops (s.blockGates b))
      | none => []
    State.orqMirror (if s.topo.cur.isSome then { s with routes := keep ++ members ++ cells ++ blocks, topo.stale := false }
      else { s with routes := keep, topo.stale := false })

/-! ### Loading and committing a plan (R533 to R538) -/

def tierLongest (t : Nat) : Nat := if t = 0 then 50 else if t = 1 then 300 else 3000

/-- The two ends of a link lie in one tier, which agrees with their nodes. -/
def excTierOk (e : PlanExc) : Bool :=
  let t := portTier e.portA
  t == portTier e.portB &&
    (if t = 0 then e.nodeA / 16 == e.nodeB / 16
    else if t = 1 then e.nodeA / 256 == e.nodeB / 256 && e.nodeA / 16 != e.nodeB / 16
    else e.nodeA / 256 != e.nodeB / 256)

/-- The ends that an exception names. -/
def PlanExc.ends (e : PlanExc) : List (Nat × Nat) :=
  if e.open_ then [(e.nodeA, e.portA)] else [(e.nodeA, e.portA), (e.nodeB, e.portB)]

/-- A plan's bytes with a reserved field set. -/
def planReserved (bs : List (BitVec 8)) : Bool :=
  leAt bs 5 3 != 0 || decide (2 ^ 15 ≤ leAt bs 14 2) || ((bs.drop 22).take 42).any (fun b => b != 0) ||
    (List.range (leAt bs 12 2)).any fun i =>
      let o := 135232 + 8 * i
      let open_ := leAt bs (o + 2) 1 / 32 == 1
      decide (2 ^ 15 ≤ leAt bs o 2) || decide (2 ≤ leAt bs (o + 2) 1 / 32) || decide (32 ≤ leAt bs (o + 3) 1) || decide (2 ^ 15 ≤ leAt bs (o + 4) 2) ||
        (open_ && (leAt bs (o + 3) 1 != 0 || leAt bs (o + 4) 2 != 0)) ||
        decide (24 ≤ leAt bs (o + 2) 1 % 32) || decide (24 ≤ leAt bs (o + 3) 1)

/-- The circuit table holds an entry. -/
def State.anyCirc (s : State) : Bool := (List.range 512).any fun i => s.ctype i != 0

/-- R535, R536, R555: the status with which a plan is rejected. -/
def State.planCheck (s : State) (bs : List (BitVec 8)) : Option Nat :=
  let p := readPlan bs
  let ends := p.excs.flatMap PlanExc.ends
  if leAt bs 0 2 ≠ 1 then some stINCOMPATIBLE
  else if bs.length ≠ 135232 + 8 * leAt bs 12 2 ∨ 4096 < leAt bs 12 2 then some stPOLICY
  else if crc32c (bs.drop 64) ≠ p.crc ∨ planReserved bs ∨ p.blocks = 0 ∨ 128 < p.blocks then some stPOLICY
  else if (p.present.any fun n => decide (p.blocks ≤ nodeBlock n)) ∨ !p.has p.self then some stPOLICY
  else if kget p.fpr p.self 0 ≠ 0 ∧ kget p.fpr p.self 0 ≠ s.fprLow then some stPOLICY
  else if ends.eraseDups.length ≠ ends.length ∨ ends.any fun e => !p.has e.1 then some stPOLICY
  else if p.excs.any fun e => (!e.open_ && !excTierOk e) || decide (tierLongest (portTier e.portA) < e.len) then some stPOLICY
  else match s.topo.cur with
    | none => if s.anyCirc ∨ s.resident ≠ [] then some stRUNNING else none
    | some c =>
      if p.self ≠ c.self ∧ (s.anyCirc ∨ s.resident ≠ []) then some stRUNNING
      else if !newer p.ver c.ver then some stPOLICY
      else none

/-- `PTH_PLAN_STATUS` (Table 11-12). -/
def State.reportPlanStatus (s : State) : State :=
  let (v, c, b, k) := match s.topo.cur with
    | some p => (p.ver, 1, p.blocks, p.crc)
    | none => (0, 0, 0, 0)
  s |>.wr F.PTH_PLAN_STATUS.PLAN_VER v
    |>.wr F.PTH_PLAN_STATUS.COMMITTED c
    |>.wr F.PTH_PLAN_STATUS.BLOCKS b
    |>.wr F.PTH_PLAN_STATUS.PREV_HELD (b2n s.topo.prev.isSome)
    |>.wr F.PTH_PLAN_STATUS.PLAN_CRC k

/-- The module's node ID is that of its plan (R527). -/
def State.takeNode (s : State) (node : Nat) : State :=
  if node = s.node then s else (s.wr F.ID_NODE.NODE_ID node).wr F.ID_NODE.NODE_VALID 0

/-- A plan becomes current: every verdict is judged again from the blocks already received (R538), swaps end (R543), and
circuits leave ports whose wiring changed (R545). -/
def State.adoptPlan (s : State) (p prev : Option Plan) : State :=
  let before := (List.range 24).map fun q => (s.wired s.node q, s.verdict q)
  let s := { s with topo.cur := p, topo.prev := prev, topo.swaps := [], topo.stale := true }
  let s := (s.reportPlanStatus).takeNode ((p.map Plan.self).getD s.node)
  let s := (List.range 24).foldl (fun (s : State) q =>
    let x := s.portDisc q
    match x.last with
    | some d => if 3 ≤ x.same then s.setVerdict q (s.judgeDisc q d) (some d) else s.reportPlan q
    | none =>
      if p.isNone then s.setVerdict q vNONE none
      else if x.silent then s.setVerdict q (if (s.wired s.node q).isSome then vMISSING else vUNUSED) none
      else s.reportPlan q) s
  let s := (List.range 24).foldl (fun (s : State) q =>
    let b := before.getD q (none, 0)
    if b.1 ≠ s.wired s.node q ∧ verdictUsed b.2 ∧ verdictUsed (s.verdict q) then s.leavePort q else s) s
  let changed := ((List.range 24).filter fun q => (before.getD q (none, 0)).2 != s.verdict q).length
  let s := match p with
    | some p => s.note evPlanCommit 0 0 0 [p.ver, p.crc, p.blocks, changed]
    | none => s
  s.checkNodeValid

/-- A port's fibre length, in 0.1 m, is measured (R547). -/
def State.noteLength (s : State) (port len : Nat) : State :=
  let s := { s with topo.lens := kset s.topo.lens port len }
  if 11 * tierLongest (portTier port) < 10 * len ∧ (s.wired s.node port).isSome then s.note evLongFibre 1 7 port [port, len] else s

end Sys2Proof.Machine
end

