-- ==== Sys2Proof/Machine/Hinge.lean ====
section
/-! DEFINITION. The hinge control engine (spec/12_hinge_control_engine.md): loops and their fixed-point control law,
groups and their rates, ramps and set-points, holds, and lost feedback. -/

namespace Sys2Proof.Machine

open Sys2Proof

def evGroupHalf : Nat := 0x0C00
def evGroupHold : Nat := 0x0C01
def evRateRestored : Nat := 0x0C02
def evFbHold : Nat := 0x0C03
def evFbRecovered : Nat := 0x0C04
def evRampLate : Nat := 0x0C05
def evHceReject : Nat := 0x0C06

/-- Loop states (`HCE_LOOP_STAT.STATE`). -/
def hsOPEN : Nat := 0
def hsRAMP : Nat := 1
def hsSETTLE : Nat := 2
def hsCLOSED : Nat := 3
def hsHOLD : Nat := 4
def hsFB_HOLD : Nat := 5
def hsGRP_HOLD : Nat := 6

/-- Group rates (`HCE_GRP.RATE`). -/
def grFULL : Nat := 0
def grHALF : Nat := 1
def grHOLD : Nat := 2

/-! ### Loops and groups (R562, R563) -/

def isHinge (i : Nat) : Bool := decide (i < 2700)
def isTxRing (i : Nat) : Bool := decide (2700 ≤ i) && decide (i < 2904)
def isRxRing (i : Nat) : Bool := decide (2904 ≤ i) && decide (i < 3108)
def isPreamp (i : Nat) : Bool := decide (3108 ≤ i) && decide (i < 3132)
def isTec (i : Nat) : Bool := decide (3132 ≤ i) && decide (i < 3148)

def hingePlane (i : Nat) : Nat := i / 180 + 1
def hingeStage (i : Nat) : Nat := i % 180 / 20
def hingePos (i : Nat) : Nat := i % 20
def hingeLoop (w st pos : Nat) : Nat := (w - 1) * 180 + st * 20 + pos

/-- The lane of a ring loop. -/
def ringLane (i : Nat) : Nat := if isTxRing i then i - 2700 else i - 2904
/-- The photonic engine of a lane. -/
def laneEngine (n : Nat) : Nat := if n < 180 then n % 12 / 3 else (n - 180) / 6

/-- The group of a loop (Table 12-1). -/
def loopGroup (i : Nat) : Nat :=
  if isHinge i then i / 180
  else if isTxRing i || isRxRing i then 15 + laneEngine (ringLane i)
  else if isPreamp i then 19
  else 20

/-- The loops of a group, in index order. -/
def groupLoops (g : Nat) : List Nat :=
  if g < 15 then (List.range 180).map fun k => g * 180 + k
  else (List.range 448).filterMap fun k => if loopGroup (2700 + k) = g then some (2700 + k) else none

/-- The lane that runs a group (Table 12-1). -/
def groupLane (g : Nat) : Nat := if g < 15 then g else 15

/-- The physical column of a position, and the position in a column (R563). -/
def posCol (p : Nat) : Nat := if p ≤ 8 then p else if p = 18 then 9 else if p ≤ 17 then p + 1 else 19
def colPos (c : Nat) : Nat := if c ≤ 8 then c else if c = 9 then 18 else if c ≤ 18 then c - 1 else 19

/-- The colour of a hinge. -/
def hingeColour (i : Nat) : Nat := (hingeStage i + posCol (hingePos i)) % 2

/-- The neighbours of a hinge. -/
def hingeNeighbours (i : Nat) : List Nat :=
  let w := hingePlane i
  let st := hingeStage i
  let c := posCol (hingePos i)
  (if 0 < c then [hingeLoop w st (colPos (c - 1))] else []) ++ (if c < 19 then [hingeLoop w st (colPos (c + 1))] else []) ++
    (if 0 < st then [hingeLoop w (st - 1) (colPos c)] else []) ++ (if st < 8 then [hingeLoop w (st + 1) (colPos c)] else [])

/-! ### Fixed point (R565) -/

def sat32 (x : Int) : Int := max (-2147483648) (min 2147483647 x)

/-- *x* ⊗ (*K*, *s*). -/
def mulK (x k : Int) (sh : Nat) : Int := sat32 ((x * k + (if sh = 0 then 0 else (2 : Int) ^ (sh - 1))) / 2 ^ sh)

/-- A 16-bit field as a signed coefficient. -/
def sgn16 (n : Nat) : Int := toSigned 16 n

/-- A drive rounded half up to an actuator code. -/
def roundCode (u : Int) : Int := (u + 32768) / 65536

/-- An actuator code as a drive. -/
def q16 (n : Nat) : Int := (n : Int) * 65536

/-- *W*_c(*n*) of R570. -/
def walsh (c n : Nat) : Int := if popcount 4 (Nat.land c (n % 16)) % 2 = 0 then 1 else -1

/-- cos(π*k* ÷ *T*) times 2^64, by its series. -/
def cosQ (k t : Nat) : Int :=
  let x : Int := 57952155664616982739 * k / t
  let step := fun (acc : Int × Int) (n : Nat) =>
    let term := -(acc.2 * x / 2 ^ 64 * x / 2 ^ 64) / ((2 * n + 1) * (2 * n + 2))
    (acc.1 + term, term)
  ((List.range 18).foldl step ((2 : Int) ^ 64, (2 : Int) ^ 64)).1

/-- R578: the drive at sample `k` of a ramp of `t` samples, rounded half up as R565 rounds. -/
def rampDrive (u0 u1 : Int) (k t : Nat) : Int :=
  if t ≤ k then u1 else u0 + ((u1 - u0) * ((2 : Int) ^ 64 - cosQ k t) + (2 : Int) ^ 64) / 2 ^ 65

/-! ### Loop values -/

def State.hceState (s : State) (i : Nat) : Nat := s.rd F.HCE_LOOP_STAT.STATE i
def State.setHceState (s : State) (i v : Nat) : State := s.wr F.HCE_LOOP_STAT.STATE v i

/-- Feed-forward drives (R569, Table 12-2). -/
def State.ffOf (s : State) (i : Nat) (target : Bool) : Int :=
  q16 (if isHinge i && target then s.rd F.HCE_LOOP_CAL.D_B i else s.rd F.HCE_LOOP_CAL.D_A i)

/-- The gain of R491 that a preamplifier is to have, in 0.01 dB as Q16.16. -/
def State.gainGoal (s : State) (i : Nat) : Int :=
  if isPreamp i then (s.rd F.LAT_PORT.GAIN (i - 3108) : Int) * 10 * 65536 else 0

/-- A loop's working values; one that nothing has touched drives its feed-forward, and aims at the gain in force. -/
def State.loop (s : State) (i : Nat) : Loop :=
  let ff := s.ffOf i (s.flag F.HCE_LOOP_STAT.TARGET i)
  (kfind s.hce.loops i).getD { Loop.init with u := ff, ff := ff, act := roundCode ff, gt := s.gainGoal i }
def State.setLoop (s : State) (i : Nat) (x : Loop) : State := { s with hce.loops := kset s.hce.loops i x }

def State.hceGroup (s : State) (g : Nat) : Group := kget s.hce.groups g Group.init
def State.setHceGroup (s : State) (g : Nat) (x : Group) : State := { s with hce.groups := kset s.hce.groups g x }

/-- The TEC set-point of a wavelength that re-planning has moved stays moved (R744). -/
def State.keepMoved (s : State) (w : Nat) (tenths : Int) : State :=
  if tenths = 0 then s else s.wr F.HCE_LOOP_CAL.D_B (Config.tecCode w tenths).toNat (3132 + w)

/-- A loop takes the calibration values of a new image (R722), once. -/
def State.takeCal (s : State) (i : Nat) : State :=
  if !s.hce.calNew || s.hce.calHas.contains i then s
  else
    let m := rwMask Reg.HCE_LOOP_CAL.fields
    let w := (s.rreg .HCE_LOOP_CAL i &&& ~~~m) ||| (Config.calibration s.runningVer (Reg.HCE_LOOP_CAL.off i) &&& m)
    let s := ({ s with hce.calHas := i :: s.hce.calHas } : State).wreg .HCE_LOOP_CAL w i
    (s.age.moved.filter fun m => 3132 + m.1 == i).foldl (fun (s : State) m => s.keepMoved m.1 m.2) s

/-- Entry to `OPEN` (R566), where a loop takes new calibration values. -/
def State.enterOpen (s : State) (i : Nat) : State :=
  let s := s.takeCal i
  (s.setLoop i { s.loop i with ef := 0, i := 0, once := false }).setHceState i hsOPEN

/-- A loop returns to `CLOSED` from a hold without a bump (R584). -/
def State.bumpless (s : State) (i : Nat) : State :=
  let x := s.loop i
  (s.setLoop i { x with i := sat32 (sat32 (sat32 (x.u - x.ff) - x.c) - x.p), bad := 0, good := 0, once := false }).setHceState i hsCLOSED

/-- The crosstalk term of a hinge (R571). -/
def State.crosstalk (s : State) (i : Nat) : Int :=
  if isHinge i && s.flag F.HCE_CFG.XT_EN then
    let w := hingePlane i
    (hingeNeighbours i).foldl (fun c j =>
      sat32 (c - mulK (sat32 ((s.loop j).u - q16 (s.rd F.HCE_LOOP_CAL.D_A j))) (s.rd F.HCE_XT.X w) (s.rd F.HCE_XT.SX w))) 0
  else 0

/-- Coefficient-set fields of a loop. -/
def State.setSel (s : State) (i : Nat) : Nat := s.rd F.HCE_LOOP_CTL.SET_SEL i

/-- The dither of a loop at sample `n` (R566, R570). -/
def State.ditherOf (s : State) (i n : Nat) : Int :=
  if isHinge i then walsh (hingeStage i + 1) n * q16 (s.rd F.HCE_COEF_B.DITHER (s.setSel i))
  else if isRxRing i then walsh 1 n * q16 (s.rd F.HCE_COEF_B.DITHER (s.setSel i))
  else 0

/-- The error of a loop at sample `n` from what its taps give (R570, Table 12-2). -/
def State.errorOf (s : State) (i n : Nat) (x : Loop) (v : Int) : Int :=
  let m := n + 16 - s.rd F.HCE_COEF_B.DLY (s.setSel i)
  if isHinge i then walsh (hingeStage i + 1) m * v
  else if isRxRing i then walsh 1 m * v
  else if isPreamp i then sat32 (x.gt - v)
  else sat32 (q16 (s.rd F.HCE_LOOP_CAL.D_B i) - v)

/-- R491: a preamplifier's set-point moves towards `GAIN` at 0.1 dB per ms at most. -/
def State.moveGain (s : State) (i : Nat) (x : Loop) : Loop :=
  if isPreamp i then
    let goal := s.gainGoal i
    { x with gt := if x.gt < goal then min goal (x.gt + 3276) else max goal (x.gt - 3276) }
  else x

/-- The law of R566 in one closed sample. -/
def State.control (s : State) (i n : Nat) (x : Loop) (v : Int) : Loop :=
  let k := s.setSel i
  let x := s.moveGain i x
  let e := s.errorOf i n x v
  let ef := sat32 (x.ef + mulK (sat32 (e - x.ef)) (sgn16 (s.rd F.HCE_COEF_B.KF k)) (s.rd F.HCE_COEF_B.SF k))
  let p := mulK ef (sgn16 (s.rd F.HCE_COEF_A.KP k)) (s.rd F.HCE_COEF_A.SP k)
  let di := mulK ef (sgn16 (s.rd F.HCE_COEF_A.KI k)) (s.rd F.HCE_COEF_A.SI k)
  { x with ef := ef, p := p, i := if (x.atMax && decide (0 < di)) || (x.atMin && decide (di < 0)) then x.i else sat32 (x.i + di) }

/-- The drive that goes to the actuator: rounded, clamped, and whether it was clamped. -/
def State.clampOut (s : State) (i n : Nat) (x : Loop) : Loop :=
  let code := roundCode (sat32 (x.u + (if s.hceState i = hsCLOSED then s.ditherOf i n else 0)))
  let low : Int := s.rd F.HCE_LOOP_CAL.UMIN i
  let high : Int := s.rd F.HCE_LOOP_CAL.UMAX i
  { x with act := max low (min high code), atMax := decide (high < code), atMin := decide (code < low) }

/-! ### A sample of one loop -/

/-- A stepped set-point is applied (R581, R582). -/
def State.applyStep (s : State) (i : Nat) (target lit : Bool) : State :=
  let x := s.loop i
  let s := s |>.wr F.HCE_LOOP_STAT.TARGET (b2n target) i
    |>.wr F.HCE_LOOP_STAT.STEPPED 1 i
  let s := s.setLoop i { x with ramp := none, ff := s.ffOf i target, lit := lit, set := 0 }
  let st := s.hceState i
  if st = hsHOLD ∨ st = hsGRP_HOLD then s else (s.wr F.HCE_LOOP_STAT.DEGRADED 0 i).setHceState i hsSETTLE

/-- A ramp begins (R578, R582): in a hold it runs within the hold; from `FB_HOLD` the loop leaves it. -/
def State.beginRamp (s : State) (i : Nat) : State :=
  let x := s.loop i
  match x.ramp with
  | none => s
  | some r =>
    let s := s.setLoop i { x with ramp := some { r with u0 := x.u, k := 0, wait := 0 } }
    let st := s.hceState i
    if st = hsHOLD ∨ st = hsGRP_HOLD then s else (s.wr F.HCE_LOOP_STAT.DEGRADED 0 i).setHceState i hsRAMP

/-- One sample of a ramp, `inc` samples of its time. -/
def State.rampSample (s : State) (i inc : Nat) : State :=
  let x := s.loop i
  match x.ramp with
  | none => s
  | some r =>
    if 0 < r.wait then s.setLoop i { x with ramp := some { r with wait := r.wait - inc } }
    else
      let s := if r.k = 0 then s.beginRamp i else s
      match (s.loop i).ramp with
      | none => s
      | some r =>
        let k := min (r.k + inc) r.len
        let u := rampDrive r.u0 r.u1 k r.len
        let y := { s.loop i with ff := u, ramp := if k = r.len then none else some { r with k := k }, set := 0 }
        let s := s.setLoop i (if s.hceState i = hsRAMP then { y with u := u } else y)
        if k = r.len ∧ s.hceState i = hsRAMP then s.setHceState i hsSETTLE else s

/-- One sample of a loop (R566, R571, Table 12-7): `tap` is what its taps give, if its condition for `CLOSED` holds; `n`
is the group's sample count and `inc` the periods that a sample stands for. -/
def State.sampleLoop (s : State) (i n inc : Nat) (tap : Option Int) : State :=
  let s := match s.hce.steps.find? fun p => p.1 == i with
    | some (_, t, l) => { s with hce.steps := s.hce.steps.filter fun p => p.1 != i }.applyStep i t l
    | none => s
  let st := s.hceState i
  let x := s.loop i
  let ramping : Bool := match x.ramp with
    | some r => r.wait == 0 || decide (st = hsRAMP)
    | none => false
  let s := if x.ramp.isSome then s.rampSample i inc else s
  if ramping ∧ s.hceState i ≠ hsHOLD ∧ s.hceState i ≠ hsGRP_HOLD then s.setLoop i (s.clampOut i n (s.loop i))
  else
    let st := s.hceState i
    let x := s.loop i
    -- transitions of Table 12-7 that taps and time cause
    let s := if st = hsSETTLE then
        (if tap.isSome ∧ (x.lit ∨ !isHinge i) then s.setHceState i hsCLOSED
        else if !x.lit ∧ 8 ≤ x.set + 1 ∧ isHinge i then s.enterOpen i
        else s.setLoop i { x with set := x.set + 1 })
      else if st = hsOPEN ∧ !isHinge i ∧ tap.isSome then s.setHceState i hsCLOSED
      else if st = hsCLOSED ∧ tap.isNone then s.enterOpen i
      else s
    let st := s.hceState i
    let x : Loop := { s.loop i with c := s.crosstalk i }
    let x : Loop := match tap with
      | some v => if st = hsCLOSED then s.control i n x v else x
      | none => x
    let x : Loop := { x with u := if st = hsFB_HOLD then sat32 (x.goodU + x.c) else sat32 (sat32 (sat32 (x.ff + x.c) + x.p) + x.i) }
    let s := s.setLoop i (s.clampOut i n x)
    if st = hsHOLD ∧ x.once then (s.setLoop i { s.loop i with once := false }).bumpless i else s

/-! ### A period (R574 to R576) -/

/-- The groups, and for group 20 the TEC, that are due in period `n` at full rate. -/
def dueAt (n : Nat) (i : Nat) : Bool :=
  if isHinge i || isPreamp i then true
  else if isTec i then n % 200 == i - 3132
  else n % 4 == laneEngine (ringLane i)

/-- Loop `i` is due in period `n` at its group's rate. -/
def State.loopDue (s : State) (n i : Nat) : Bool :=
  dueAt n i && (s.rd F.HCE_GRP.RATE (loopGroup i) != grHALF ||
    (if isTec i then n / 200 else if isTxRing i || isRxRing i then n / 4 else n) % 2 == 0)

/-- The group's account of a period: an overrun (R575), or a clean one. -/
def State.groupPeriod (s : State) (n g : Nat) (late : List Nat) : State :=
  let due := (groupLoops g).filter fun i => s.loopDue n i
  if due.isEmpty then s
  else
    let x := s.hceGroup g
    if due.any fun i => late.contains i then
      let s := (s.bump F.HCE_GRP.OVR_COUNT g).bump F.HCE_CNT_OVR.COUNT
      (s.wr F.HCE_GRP.CONSEC (min 3 (s.rd F.HCE_GRP.CONSEC g + 1)) g).setHceGroup g { x with clean := 0, n := x.n + 1 }
    else (s.wr F.HCE_GRP.CONSEC 0 g).setHceGroup g { x with clean := x.clean + 1, n := x.n + 1 }

/-- HCE_PERIOD: the loops due are computed, those in a ramp first and each kind in ascending index order; those that came
late keep their drive, and so does a group that takes new microcode in this period (R722). -/
def execHcePeriod (taps : List LoopTap) (late : List Nat) (s : State) : Result :=
  .next <|
    if !s.flag F.HCE_STATUS.RUN then s
    else
      let n := s.hce.period
      let fresh := s.hce.ucode
      let due := (List.range 3148).filter fun i => s.loopDue n i && !late.contains i && !fresh.contains (loopGroup i)
      let run (s : State) (i : Nat) : State :=
        let g := loopGroup i
        s.sampleLoop i (s.hceGroup g).n (if s.rd F.HCE_GRP.RATE g = grHALF then 2 else 1)
          ((taps.find? fun t => t.loop == i).map LoopTap.val)
      let first := due.filter fun i => (s.loop i).ramp.isSome
      let s' := first.foldl run s
      let s' := (due.filter fun i => !first.contains i).foldl run s'
      let s' := (List.range 21).foldl (fun (s : State) g => s.groupPeriod n g late) s'
      { s' with hce.period := n + 1, hce.ucode := fresh.filter fun g => !(groupLoops g).any fun i => s.loopDue n i }

/-- A loop leaves or enters `GRP_HOLD` with its group. -/
def State.groupHold (s : State) (g : Nat) : State :=
  (groupLoops g).foldl (fun (s : State) i => if s.hceState i = hsOPEN then s else s.setHceState i hsGRP_HOLD) s

/-- Loops of a group that hold light. -/
def State.groupLit (s : State) (g : Nat) : Nat := ((groupLoops g).filter fun i => isHinge i && (s.loop i).lit).length

/-- GROUP_RATE_DOWN: three due periods in a row have overrun. -/
def execGroupRateDown (group : Nat) (s : State) : Result :=
  .next <|
    if s.rd F.HCE_GRP.CONSEC group < 3 ∨ 21 ≤ group then s
    else
      let s := s.wr F.HCE_GRP.CONSEC 0 group
      if s.rd F.HCE_GRP.RATE group = grFULL then
        (s.wr F.HCE_GRP.RATE grHALF group).note evGroupHalf 1 0 0 [group, s.rd F.HCE_GRP.OVR_COUNT group]
      else if s.rd F.HCE_GRP.RATE group = grHALF then
        let held := ((groupLoops group).filter fun i => s.hceState i != hsOPEN).length
        ((s.wr F.HCE_GRP.RATE grHOLD group).groupHold group).note evGroupHold 1 0 0 [group, held, s.groupLit group]
      else s

/-- A group returns to `FULL`; its loops leave `GRP_HOLD`, bumplessly where their condition holds. -/
def State.groupFull (s : State) (g : Nat) : State :=
  let was := s.rd F.HCE_GRP.RATE g
  let s := if was = grHOLD then
      (groupLoops g).foldl (fun (s : State) i =>
        if s.hceState i = hsGRP_HOLD then (if (s.loop i).lit || !isHinge i then s.bumpless i else s.enterOpen i) else s) s
    else s
  let s := s.setHceGroup g { s.hceGroup g with clean := 0 }
  ((s.wr F.HCE_GRP.RATE grFULL g).wr F.HCE_GRP.CONSEC 0 g).note evRateRestored 0 0 0 [g, was]

/-- GROUP_RATE_RESTORE: 20,000 due periods without overrun at `HALF`. -/
def execGroupRateRestore (group : Nat) (s : State) : Result :=
  .next <| if s.rd F.HCE_GRP.RATE group = grHALF ∧ 20000 ≤ (s.hceGroup group).clean then s.groupFull group else s

/-- GROUP_RESUME: `RESUME` is written. -/
def State.groupResume (s : State) (group : Nat) : State :=
    if group < 21 ∧ s.rd F.HCE_GRP.RATE group ≠ grFULL then s.groupFull group else s

def execGroupResume (group : Nat) (s : State) : Result := .next (s.leaveDormant.groupResume group)

/-! ### Set-points (R577 to R582) -/

/-- Ramp lengths (`HCE_RAMP_CFG`). -/
def State.tSetup (s : State) : Nat := let t := s.rd F.HCE_RAMP_CFG.T_SETUP; if 4 ≤ t ∧ t ≤ 12 then t else 12
def State.tRecable (s : State) : Nat := let t := s.rd F.HCE_RAMP_CFG.T_RECABLE; if 4 ≤ t ∧ t ≤ 24 then t else 12

/-- The loop that a record for a position drives: the spare that stands in for it (R489, R582). -/
def State.standIn (s : State) (i : Nat) : Nat :=
  let w := hingePlane i
  let k := w * 16 + hingeStage i
  if s.rd F.LAT_HINGE.SUB18 k = hingePos i then hingeLoop w (hingeStage i) 18
  else if s.rd F.LAT_HINGE.SUB19 k = hingePos i then hingeLoop w (hingeStage i) 19
  else i

/-- A ramp record takes effect: the ramp replaces one that runs; a stepped set-point in the same sample supersedes it. -/
def State.setRamp (s : State) (r : RampRec) (len wait : Nat) : State :=
  let i := s.standIn r.loop
  if s.hce.steps.any fun p => p.1 == i then s
  else
    let x := s.loop i
    let s := (s.wr F.HCE_LOOP_STAT.TARGET (b2n r.target) i).wr F.HCE_LOOP_STAT.STEPPED 0 i
    s.setLoop i { x with ramp := some ⟨0, len, x.u, s.ffOf i r.target, wait⟩, lit := r.lit }

/-- A record too late (R580); `late` is in µs. -/
def State.rampLate (s : State) (r : RampRec) (late : Nat) : State :=
  (s.bump F.HCE_CNT_LATE.COUNT).note evRampLate 0 8 r.loop [r.loop, r.start, late]

/-- Lateness that R580 accepts, in µs. -/
def State.lateMax (s : State) : Nat := s.rd1 F.HCE_RAMP_CFG.LATE_MAX * 100

/-- RAMP_RECORD: a record arrives, `late` µs after it should have started. -/
def execRampRecord (loop : Nat) (target recable lit : Bool) (start late : Nat) (s : State) : Result :=
  .next <|
    let r : RampRec := ⟨loop, target, lit, start⟩
    if 2700 ≤ loop ∨ 4096 ≤ s.hce.queue.length then s
    else if recable ∧ s.time.step < start then { s with hce.queue := s.hce.queue ++ [r] }
    else if s.lateMax < late then s.rampLate r late
    else s.setRamp r (if recable then s.tRecable else s.tSetup) 0

/-- RAMP_START: the keeper has received tick `step`, `late` µs ago: the records of that tick start, colour 1 after
colour 0. -/
def execRampStart (step late : Nat) (s : State) : Result :=
  .next <|
    let due := s.hce.queue.filter fun r => r.start == step
    let s := { s with hce.queue := s.hce.queue.filter fun r => r.start != step }
    due.foldl (fun (s : State) r =>
      if s.lateMax < late then s.rampLate r late
      else s.setRamp r s.tRecable (if hingeColour (s.standIn r.loop) = 0 then 0 else s.tRecable)) s

/-- A stepped set-point waits for the next sample (R581). -/
def State.stepPoint (s : State) (i : Nat) (target lit : Bool) : State :=
  { s with hce.steps := (s.hce.steps.filter fun p => p.1 != i) ++ [(i, target, lit)] }

/-- A write that the engine drops (R588, R590). -/
def State.hceReject (s : State) (off status : Nat) : State := s.note evHceReject 0 0 0 [off, status]

/-- HCE_SP_GO: `HCE_SP` is written with `GO` = 1. -/
def State.spGo (s : State) (val : Nat) : State :=
    let s := s |>.wr F.HCE_SP.LOOP (bitsOf val 11 0)
      |>.wr F.HCE_SP.TARGET (bitsOf val 12 12)
      |>.wr F.HCE_SP.LIT (bitsOf val 13 13)
    if 2700 ≤ bitsOf val 11 0 then s.hceReject (Reg.HCE_SP.off 0) stPOLICY
    else s.stepPoint (bitsOf val 11 0) (bitOf val 12) (bitOf val 13)

def execHceSpGo (val : Nat) (s : State) : Result := .next (s.leaveDormant.spGo val)

/-! ### Holds (R583, R584, R588, R589) -/

/-- `HOLD` is written 1. -/
def State.loopHoldOn (s : State) (i : Nat) : State :=
  let st := s.hceState i
  let s := (s.wr F.HCE_LOOP_CTL.HOLD 1 i).setLoop i { s.loop i with once := false }
  if st = hsCLOSED ∨ st = hsSETTLE then (s.setLoop i { s.loop i with prior := st }).setHceState i hsHOLD else s

/-- `HOLD` is written 0. -/
def State.loopHoldOff (s : State) (i : Nat) : State :=
  let s := s.wr F.HCE_LOOP_CTL.HOLD 0 i
  if s.hceState i = hsHOLD then
    (if (s.loop i).prior = hsCLOSED then s.bumpless i else s.setHceState i (s.loop i).prior)
  else s

def execLoopHold (loop : Nat) (s : State) : Result := .next (if loop < 3148 then s.leaveDormant.loopHoldOn loop else s)
def execLoopHoldRelease (loop : Nat) (s : State) : Result := .next (if loop < 3148 then s.leaveDormant.loopHoldOff loop else s)

/-- `SET_SEL` is written: a closed loop holds for one sample. -/
def State.selectSet (s : State) (i set : Nat) : State :=
  let s := s.wr F.HCE_LOOP_CTL.SET_SEL (set % 16) i
  if s.hceState i = hsCLOSED then
    (s.setLoop i { s.loop i with once := true, prior := hsCLOSED }).setHceState i hsHOLD
  else s

def execSetSelWrite (loop set : Nat) (s : State) : Result := .next (if loop < 3148 then s.leaveDormant.selectSet loop set else s)

/-- A loop runs: a write to its calibration or to its set is refused (R588). -/
def loopRuns (st : Nat) : Bool := st == hsCLOSED || st == hsRAMP || st == hsSETTLE

/-- Some running loop selects a set. -/
def State.setInUse (s : State) (k : Nat) : Bool := (List.range 3148).any fun i => s.setSel i == k && loopRuns (s.hceState i)

/-! ### Windows (R585 to R587) -/

/-- The lanes that a ring or preamplifier loop serves. -/
def State.lanesServed (s : State) (i : Nat) : List Nat :=
  if isTxRing i || isRxRing i then [ringLane i]
  else if isPreamp i then
    s.path.planes.filterMap fun x => if (x.inp == i - 3108 && decide (24 ≤ x.outp)) then some ((x.plane - 1) * 12 + (x.outp - 24)) else none
  else []

def causeCode : TapCause → Nat
  | .good => 0
  | .lost => 1
  | .frozen => 2
  | .pilotAbsent => 3

/-- One loop's window: good, or bad for the first bad tap. -/
def State.judgeLoop (s : State) (i : Nat) (taps : List WindowTap) : State :=
  let x := s.loop i
  let bad := taps.find? fun t => decide (t.cause ≠ .good)
  if s.hceState i = hsCLOSED then
    match bad with
    | none => s.setLoop i { x with bad := 0, goodU := sat32 (x.u - x.c) }
    | some t =>
      if x.bad + 1 < s.rd1 F.HCE_PILOT_CFG.BAD_WIN then s.setLoop i { x with bad := x.bad + 1 }
      else
        let s := s.setLoop i { x with bad := 0, good := 0, since := s.opMs, u := sat32 (x.goodU + x.c) }
        let s := ((s.bump F.HCE_CNT_FB.COUNT).bump F.HCE_LOOP_STAT.FB_HOLDS i).wr F.HCE_LOOP_STAT.DEGRADED 1 i
        (s.setHceState i hsFB_HOLD).note evFbHold 1 8 i ([i, t.tap, causeCode t.cause] ++ s.lanesServed i)
  else if s.hceState i = hsFB_HOLD then
    match bad with
    | some _ => s.setLoop i { x with good := 0 }
    | none =>
      if x.good + 1 < s.rd1 F.HCE_CFG.RECOVER_WIN then s.setLoop i { x with good := x.good + 1 }
      else
        let s := (s.bumpless i).wr F.HCE_LOOP_STAT.DEGRADED 0 i
        s.note evFbRecovered 0 8 i [i, s.opMs - x.since]
  else s

/-- HCE_WINDOW: the end of a 100 µs window; `judged` gives how each tap of each loop looked. -/
def execHceWindow (judged : List WindowTap) (s : State) : Result :=
  .next <|
    ((judged.map WindowTap.loop).eraseDups.filter fun i => decide (i < 3148)).foldl (fun (s : State) i =>
      s.judgeLoop i (judged.filter fun t => t.loop == i)) s

/-! ### Start of the engine -/

/-- `PD_LATTICE` comes up: every loop starts in `OPEN` with `FF` from the lattice state (Table 12-7). -/
def State.hceStart (s : State) : State :=
  let s := { s with hce.loops := [], hce.groups := [], hce.queue := [], hce.steps := [], hce.period := 0, hce.ucode := [], hce.calNew := false }
  let s := (List.range 3148).foldl (fun (s : State) i =>
    if s.hceState i = hsOPEN then s else (s.setHceState i hsOPEN).wr F.HCE_LOOP_STAT.DEGRADED 0 i) s
  s.wr F.HCE_STATUS.RUN 1

/-- `PD_LATTICE` goes off: the engine stops. -/
def State.hceStop (s : State) : State := s.wr F.HCE_STATUS.RUN 0

end Sys2Proof.Machine
end

