-- ==== Sys2Proof/Machine/TimeBase.lean ====
section
/-! DEFINITION. Time and step alignment (spec/13_time_and_step_alignment.md): the servo, PTP on wavelength 0, PPS, the
step counter and triggers. Times of messages are in 2⁻⁸ ns. -/

namespace Sys2Proof.Machine

open Sys2Proof

def evStepped : Nat := 0x0D00
def evParent : Nat := 0x0D01
def evHoldover : Nat := 0x0D02
def evStepSlip : Nat := 0x0D03
def evStepReset : Nat := 0x0D04
def evTrigDrop : Nat := 0x0D06

/-- `TIM_STATUS.ROLE`. -/
def roFREE : Nat := 0
def roPPS : Nat := 1
def roSLAVE : Nat := 2
def roHOLDOVER : Nat := 3

/-- PTP message types (Table 13-2). -/
def ptpSYNC : Nat := 0x0
def ptpDELAY_REQ : Nat := 0x1
def ptpFOLLOW_UP : Nat := 0x8
def ptpDELAY_RESP : Nat := 0x9
def ptpANNOUNCE : Nat := 0xB

def State.role (s : State) : Nat := s.rd F.TIM_STATUS.ROLE

/-! ### Triggers (R617, R618) -/

/-- A trigger's condition holds. -/
def State.trigHolds (s : State) (t : Trig) : Bool :=
  if bitOf t.ctl 2 then !s.flag F.TIM_STATUS.COARSE && decide (t.target % 2 ^ 48 ≤ s.time.step)
  else
    let c := bitsOf t.ctl 30 22
    let d : Nat := if bitOf t.ctl 3 then F.TIM_CIRC_DLY.TX_NS.of (s.circDly c) else 0
    decide (((t.target : Int) - d) ≤ s.nt)

/-- A trigger fires: `ARM` clears, `FIRED` sets, the action is taken; a trigger of Orquin firmware (R618) acts through the
firmware's own command. -/
def State.trigFire (s : State) (n : Nat) (t : Trig) (late : Bool) : State :=
  let s := { s with time.trigs := kdel s.time.trigs n }
  let s := s |>.wr F.TIM_TRIG_CTL.ARM 0 n
    |>.wr F.TIM_TRIG_CTL.FIRED 1 n
  let s := if late then s.wr F.TIM_TRIG_CTL.LATE 1 n else s
  let ev := bitsOf t.ctl 21 16
  if 12 ≤ n then s
  else if bitOf t.ctl 4 then s.emit (.msix ev)
  else
    let slot := bitsOf t.ctl 15 8
    if s.ctxState slot = ctxACTIVE then s.updateEvent slot ev true 1
    else s.note evTrigDrop 0 0 0 [n, slot]

/-- The control fields of a trigger that a write gives. -/
def State.trigWrite (s : State) (n val : Nat) : State :=
  let s := s |>.wr F.TIM_TRIG_CTL.STEP_KIND (bitsOf val 2 2) n
    |>.wr F.TIM_TRIG_CTL.ARRIVE (bitsOf val 3 3) n
    |>.wr F.TIM_TRIG_CTL.ACTION (bitsOf val 4 4) n
    |>.wr F.TIM_TRIG_CTL.SLOT (bitsOf val 15 8) n
    |>.wr F.TIM_TRIG_CTL.EVENT (bitsOf val 21 16) n
    |>.wr F.TIM_TRIG_CTL.CIRC (bitsOf val 30 22) n
  let s := if bitOf val 5 then s.wr F.TIM_TRIG_CTL.FIRED 0 n else s
  if bitOf val 6 then s.wr F.TIM_TRIG_CTL.LATE 0 n else s

/-- A trigger is armed: it takes the target and the control fields in force, and fires at once with `LATE` where its
condition holds already. -/
def State.trigArm (s : State) (n : Nat) : State :=
  let t : Trig := ⟨s.rd F.TIM_TRIG_TGT.TARGET n, (s.rreg .TIM_TRIG_CTL n).toNat⟩
  if s.trigHolds t then s.trigFire n t true
  else ({ s with time.trigs := kset s.time.trigs n t }).wr F.TIM_TRIG_CTL.ARM 1 n

def State.trigDisarm (s : State) (n : Nat) : State :=
  ({ s with time.trigs := kdel s.time.trigs n }).wr F.TIM_TRIG_CTL.ARM 0 n

/-- The host writes a trigger that belongs to Orquin firmware (R618). -/
def State.trigReject (s : State) (n : Nat) : State := s.noteOffset 5 (Reg.TIM_TRIG_CTL.off n) stPOLICY

/-- TRIGGER_ARM: the host writes `TIM_TRIG_CTL[n]` with `ARM` = 1. -/
def execTriggerArm (n val : Nat) (s : State) : Result :=
  .next <|
    let s := s.leaveDormant
    if 16 ≤ n then s else if 12 ≤ n then s.trigReject n else (s.trigWrite n val).trigArm n

/-- TRIGGER_DISARM: the host writes `TIM_TRIG_CTL[n]` with `DISARM` = 1; the other fields of the word take the write (R12). -/
def execTriggerDisarm (n : Nat) (s : State) (val : Nat := 0) : Result :=
  .next <|
    let s := s.leaveDormant
    if 16 ≤ n then s else if 12 ≤ n then s.trigReject n else (s.trigWrite n val).trigDisarm n

/-- TRIGGER_FIRE: an armed trigger whose condition holds. -/
def execTriggerFire (n : Nat) (s : State) : Result :=
  .next <| match kfind s.time.trigs n with
    | some t => if s.trigHolds t then s.trigFire n t false else s
    | none => s

/-! ### Servo and steps (R594, R606, R607) -/

/-- `ADJ` changes: network time stays continuous (R594). -/
def State.setAdj (s : State) (adj : Int) : State :=
  let t := s.time
  if adj = t.adj then s
  else { s with
    time.ofs := t.ofs + ((t.raw : Int) - t.base) * t.adj / (2 ^ 40 : Nat)
    time.base := t.raw
    time.adj := adj }

/-- ± `SLEW_MAX` in units of 2⁻⁴⁰. -/
def State.slewMax (s : State) : Int := (s.rd1 F.TIM_CFG.SLEW_MAX : Int) * 10 * 2 ^ 40 / 1000000

/-- Time triggers that a step of network time has passed fire at once, late (R617). -/
def State.trigPassed (s : State) : State :=
  s.time.trigs.foldl (fun (s : State) e => if !bitOf e.2.ctl 2 && s.trigHolds e.2 then s.trigFire e.1 e.2 true else s) s

/-- A step by θ ns; `src` 0 servo, 1 `TIM_SET`, 2 PPS. -/
def State.stepTime (s : State) (theta : Int) (src : Nat) : State :=
  let e := (s.time.epoch + 1) % 2 ^ 16
  let s := { s with time.ofs := s.time.ofs - theta, time.epoch := e, time.flashEpoch := e }
  let s := s |>.wr F.TIM_STATUS.EPOCH e
    |>.wr F.TIM_LAST_STEP.VALUE (ofSigned 64 theta)
    |>.wr F.TIM_LAST_STEP_AT.VALUE s.nt
  (s.note evStepped 1 0 0 [ofSigned 64 theta, e, src]).when (decide (theta < 0)) State.trigPassed

/-- R606 on an offset in 2⁻⁸ ns. -/
def State.servo (s : State) (off : Int) (src : Nat) : State :=
  let ns := off / 256
  let s := s.wr F.TIM_STATUS.OFFSET (ofSigned 16 (max (-32767) (min 32767 ns)))
  if 256000000 ≤ off.natAbs then s.stepTime ns src
  else if s.flag F.TIM_SERVO.FREEZE then s
  else
    let x := off * 2 ^ 32
    let i := s.time.srvI - x / 2 ^ s.rd F.TIM_SERVO.KI_SH
    let m := s.slewMax
    ({ s with time.srvI := i }).setAdj (max (-m) (min m (i - x / 2 ^ s.rd F.TIM_SERVO.KP_SH)))

/-- R605: the lock of a slave after an offset. -/
def State.judgeLock (s : State) (off : Int) : State :=
  let a := off.natAbs
  let g := if a < 25600 then s.time.good + 1 else 0
  let b := if 256000 ≤ a then s.time.bad + 1 else 0
  let s := { s with time.good := g, time.bad := b }
  if 4 ≤ b then s.wr F.TIM_STATUS.LOCKED 0 else if 16 ≤ g then s.wr F.TIM_STATUS.LOCKED 1 else s

/-! ### Roles (R600, R601, R605, R609) -/

/-- A port takes part in PTP. -/
def State.ptpPort (s : State) (p : Nat) : Bool := decide (p < 24) && verdictUsed (s.verdict p) && s.chanUp p

/-- The class that this module advertises as grandmaster. -/
def State.clockClass (s : State) : Nat := if s.time.pps = 1 then 6 else if s.time.pps = 2 then 7 else 248

/-- The order of data sets: `priority1`, `clockClass`, grandmaster node and fingerprint, `stepsRemoved`. -/
def AnnounceDs.key (d : AnnounceDs) : List Nat := [d.prio1, d.clockClass, d.gmNode, d.gmFpr, d.stepsRemoved]

/-- This module's own data set as grandmaster. -/
def State.ownDs (s : State) : AnnounceDs :=
  ⟨s.rd F.TIM_CFG.PRIO1, s.clockClass, s.node, s.fprLow, 0, s.node, s.time.epoch⟩

/-- The best announce among the ports that take part: ties by sender, then by port. -/
def State.bestAnnounce (s : State) : Option (Nat × AnnounceDs) :=
  (s.time.anns.filter fun a => s.ptpPort a.1).foldl (fun best a => match best with
    | none => some a
    | some b => if lexLe (AnnounceDs.key b.2 ++ [b.2.sender, b.1]) (AnnounceDs.key a.2 ++ [a.2.sender, a.1]) then best else some a) none

/-- A grandmaster's role and lock. -/
def State.beMaster (s : State) : State :=
  s |>.wr F.TIM_STATUS.ROLE (if s.time.pps = 1 then roPPS else if s.time.pps = 2 then roHOLDOVER else roFREE)
    |>.wr F.TIM_STATUS.LOCKED (if s.time.pps = 2 then 0 else 1)
    |>.wr F.TIM_STATUS.PARENT 0
    |>.wr F.TIM_STATUS.STEPS_REM 0
    |>.wr F.TIM_STATUS.GM 1

/-- The module is no longer grandmaster: its lock and its PPS reference were a grandmaster's (R605, R609). -/
def State.endMastership (s : State) : State := ({ s with time.pps := 0 }).wr F.TIM_STATUS.LOCKED 0

/-- The parent is chosen again. `lost` tells that the parent has fallen silent. -/
def State.selectParent (s : State) (lost : Bool) : State :=
  let was : Nat := if s.role = roSLAVE then s.rd F.TIM_STATUS.PARENT else 31
  match s.bestAnnounce with
  | some (p, d) =>
    if lexLe (AnnounceDs.key s.ownDs) (AnnounceDs.key d) then
      (if s.flag F.TIM_STATUS.GM then s
      else (s.beMaster).note evParent 0 0 0 [was, 31, s.node])
    else
      let s := s |>.wr F.TIM_STATUS.ROLE roSLAVE
        |>.wr F.TIM_STATUS.PARENT p
        |>.wr F.TIM_STATUS.STEPS_REM (min 255 (d.stepsRemoved + 1))
        |>.wr F.TIM_STATUS.GM 0
      if was = p then s
      else
        let s := { s with time.good := 0, time.bad := 0, time.exch := [] }
        (s.when (was == 31) State.endMastership).note evParent 0 0 0 [was, p, d.gmNode]
  | none =>
    if lost ∧ s.role = roSLAVE then
      let s := s |>.wr F.TIM_STATUS.ROLE roHOLDOVER
        |>.wr F.TIM_STATUS.LOCKED 0
        |>.wr F.TIM_STATUS.GM 0
      s.note evHoldover 1 0 0 [0]
    else s

/-- `TIM_PORT.PTP_ROLE` of a port: 0 disabled, 1 master, 2 slave, 3 passive. -/
def State.ptpRole (s : State) (p : Nat) : Nat :=
  if !s.ptpPort p then 0
  else if s.role = roSLAVE then
    (if s.rd F.TIM_STATUS.PARENT = p then 2
    else match kfind s.time.anns p, kfind s.time.anns (s.rd F.TIM_STATUS.PARENT) with
      | some d, some b =>
        let mine := { b with stepsRemoved := b.stepsRemoved + 1 }
        if lexLe (AnnounceDs.key mine ++ [s.node]) (AnnounceDs.key d ++ [d.sender]) then 1 else 3
      | _, _ => 1)
  else 1

/-- What a master port announces. -/
def State.announceDs (s : State) : AnnounceDs :=
  if s.role = roSLAVE then
    match kfind s.time.anns (s.rd F.TIM_STATUS.PARENT) with
    | some d => { d with stepsRemoved := d.stepsRemoved + 1, sender := s.node }
    | none => s.ownDs
  else s.ownDs

/-- A PTP block leaves on a port, unless both references are lost (R595). -/
def State.sendPtp (s : State) (p kind : Nat) (fs : List Int) : State := if s.flag F.TIM_STATUS.COARSE then s else s.emit (.ptp p kind fs)

/-- A transmit stamp of this moment (R599). -/
def State.txStamp (s : State) (p : Nat) : Int := (s.nt : Int) * 256 + s.egress p

/-- SYNC_INTERVAL: a master port sends Sync and Follow_Up, and Announce every 8 intervals (R600). -/
def execSyncInterval (port : Nat) (s : State) : Result :=
  .next <|
    if s.ptpRole port ≠ 1 then s
    else
      let n := kget s.time.syncs port 0
      let dom : Int := s.rd F.TIM_CFG.DOMAIN
      let q : Int := (n % 2 ^ 16 : Nat)
      let s := (s.sendPtp port ptpSYNC [dom, q]).sendPtp port ptpFOLLOW_UP [dom, q, s.txStamp port]
      let d := s.announceDs
      let s := if n % 8 = 0 then
          s.sendPtp port ptpANNOUNCE [dom, (n / 8 % 2 ^ 16 : Nat), d.gmNode, d.gmFpr, d.prio1, d.clockClass, 128, d.stepsRemoved]
        else s
      { s with time.syncs := kset s.time.syncs port (n + 1) }

/-- A port is this module's slave port, and the block is of its domain. -/
def State.slavePort (s : State) (port domain : Nat) : Bool :=
  s.ptpPort port && s.role == roSLAVE && s.rd F.TIM_STATUS.PARENT == port && domain == s.rd F.TIM_CFG.DOMAIN

/-- R602: a complete exchange gives mean path delay and offset. -/
def State.endExchange (s : State) (port : Nat) (x : Exch) : State :=
  match x.t1, x.t4 with
  | some t1, some t4 =>
    let mpd := ((x.t2 - t1) + (t4 - x.t3)) / 2
    let off := (x.t2 - t1) - (mpd + s.asym port)
    let s := { s with time.exch := kdel s.time.exch port }
    let s := s.wr F.TIM_PORT.MPD (min 65535 (mpd.toNat * 10 / 256)) port
    let s := s.noteLength port (mpd.toNat * 100 / (256 * 49))
    (s.judgeLock off).servo off 0
  | _, _ => { s with time.exch := kset s.time.exch port x }

/-- SYNC: the slave port stamps it, and sends Delay_Req. -/
def execSync (port domain seqId : Nat) (t2 : Int) (s : State) : Result :=
  .next <|
    if !s.slavePort port domain then s
    else
      let x : Exch := ⟨seqId, none, t2 - s.ingress port, s.txStamp port, none⟩
      ({ s with time.exch := kset s.time.exch port x }).sendPtp port ptpDELAY_REQ [(domain : Int), (seqId : Int)]

/-- FOLLOW_UP: *t*₁. -/
def execFollowUp (port domain seqId : Nat) (t1 : Int) (s : State) : Result :=
  .next <| if !s.slavePort port domain then s
    else match kfind s.time.exch port with
      | some x => if x.seq = seqId then s.endExchange port { x with t1 := some t1 } else s
      | none => s

/-- DELAY_REQ: a master port stamps it and answers *t*₄. -/
def execDelayReq (port domain seqId : Nat) (t4 : Int) (s : State) : Result :=
  .next <| if s.ptpRole port = 1 ∧ domain = s.rd F.TIM_CFG.DOMAIN then
      s.sendPtp port ptpDELAY_RESP [(domain : Int), (seqId : Int), t4 - s.ingress port]
    else s

/-- DELAY_RESP: *t*₄. -/
def execDelayResp (port domain seqId : Nat) (t4 : Int) (s : State) : Result :=
  .next <| if !s.slavePort port domain then s
    else match kfind s.time.exch port with
      | some x => if x.seq = seqId then s.endExchange port { x with t4 := some t4 } else s
      | none => s

/-- ANNOUNCE: enters the selection (R600, R601). -/
def execAnnounce (port domain : Nat) (ds : AnnounceDs) (s : State) : Result :=
  .next <| if !s.ptpPort port ∨ domain ≠ s.rd F.TIM_CFG.DOMAIN ∨ 255 ≤ ds.stepsRemoved then s
    else ({ s with time.anns := kset s.time.anns port ds }).selectParent false

/-- ANNOUNCE_TIMEOUT: the parent has been silent for 3 intervals (R601). -/
def execAnnounceTimeout (s : State) : Result :=
  .next <| if s.role ≠ roSLAVE then s
    else ({ s with time.anns := kdel s.time.anns (s.rd F.TIM_STATUS.PARENT) }).selectParent true

/-! ### PPS (R609) and `TIM_SET` (R610) -/

/-- An edge is accepted. -/
def State.ppsAccepts (s : State) : Bool :=
  match s.time.ppsAt with
  | none => true
  | some a =>
    let d := s.time.raw - a
    decide (3000000000 ≤ d) || [1, 2, 3].any fun k => decide (k * 1000000000 ≤ d + 100000) && decide (d ≤ k * 1000000000 + 100000)

/-- PPS_EDGE. -/
def execPpsEdge (s : State) : Result :=
  .next <|
    if !s.flag F.TIM_STATUS.GM ∨ !s.flag F.TIM_CFG.PPS_EN ∨ !s.ppsAccepts then s
    else
      let t := s.nt % 1000000000
      let off : Int := if t < 500000000 then t else (t : Int) - 1000000000
      let s := { s with time.ppsAt := some s.time.raw, time.pps := 1 }
      let s := (s.wr F.TIM_PPS.VALUE s.nt).beMaster
      s.servo (off * 256) 2

/-- PPS_TIMEOUT: 3 s without an accepted edge. -/
def execPpsTimeout (s : State) : Result :=
  .next <| if s.role = roPPS then
      let s := { s with time.ppsAt := none, time.pps := 2 }
      (s.beMaster).note evHoldover 1 0 0 [1]
    else s

/-- `PPS_EN` is written 0: the grandmaster runs free. -/
def State.ppsOff (s : State) : State :=
  let s := { s with time.ppsAt := none, time.pps := 0 }
  if s.flag F.TIM_STATUS.GM then s.beMaster else s

/-- TIM_SET_GO. -/
def State.timSet (s : State) : State :=
    if s.flag F.TIM_STATUS.GM then
      (s.stepTime ((s.nt : Int) - s.rd F.TIM_SET.VALUE) 1).wr F.TIM_SET_CTL.STATUS stOK
    else s.wr F.TIM_SET_CTL.STATUS stPOLICY

def execTimSetGo (s : State) : Result := .next s.leaveDormant.timSet

/-- The latch that a 64-bit read of `TIM_NOW` makes (R620). -/
def State.latchNow (s : State) : State :=
  s |>.wr F.TIM_SNAP_RAW.RAW s.time.raw
    |>.wr F.TIM_SNAP_STEP.STEP s.time.step
    |>.wr F.TIM_SNAP_STEP.EPOCH s.time.epoch

/-- TIM_NOW_READ. -/
def execTimNowRead (s : State) : Result := .next (s.leaveDormant.latchNow.emit (.bar0 s.nt))

/-! ### The tick of the block's clock -/

/-- What passes while no command waits: `RAW` counts one reference cycle of 4 ns (R593), or one sleep-clock cycle of 30,518 ns
while both references are lost (R595), as long as the keeper domain has power (notes/assumptions/7.md). -/
def State.idle (s : State) : State :=
  if s.pwr.a.inRange || s.pwr.b.inRange || s.pwr.holdUp then
    { s with time.raw := (s.time.raw + (if s.flag F.TIM_STATUS.COARSE then 30518 else 4)) % 2 ^ 64 }
  else s

/-! ### Step counter (R613 to R615) -/

/-- `RAW` advances, in its steps of 4, to where network time, which runs at 1 + `ADJ` of its rate (R594), passes its next
multiple of 10,000 ns. -/
def State.toNextTick (s : State) : State :=
  let d := 10000 - s.nt % 10000
  let rate := 4 * (2 ^ 40 + s.time.adj).toNat
  { s with time.raw := (s.time.raw + (d * 2 ^ 40 + rate - 1) / rate * 4) % 2 ^ 64 }

/-- STEP_TICK: the counter advances, or holds under R615; every `UP` port sends `TICK`. -/
def execStepTick (s : State) : Result :=
  .next <|
    if s.flag F.TIM_STATUS.COARSE then s
    else
      let s := s.toNextTick
      let s := if 0 < s.time.hold then { s with time.hold := s.time.hold - 1 }
        else { s with time.step := (s.time.step + 1) % 2 ^ 48 }
      ((List.range 24).filter fun p => s.chanUp p).foldl (fun (s : State) p =>
        s.emit (.ctrl p cbTICK [s.time.step, s.rd F.TIM_STATUS.LOCKED])) s

/-- TICK: the parent's count against the own one (Table 13-6); a difference that the ticks still to be held make up is being
corrected already. -/
def execTick (port step : Nat) (_locked : Bool) (s : State) : Result :=
  .next <|
    if !s.ptpPort port ∨ s.role ≠ roSLAVE ∨ s.rd F.TIM_STATUS.PARENT ≠ port then s
    else
      let own := s.time.step
      if own < step then
        ({ s with time.step := step, time.hold := 0 }).note evStepSlip 1 0 0 [step - own, 0]
      else
        let k := own - step
        if k = 0 ∨ k = s.time.hold then s
        else if k ≤ 2 ^ 20 then ({ s with time.hold := k }).note evStepSlip 1 0 0 [k, 1]
        else ({ s with time.step := step, time.hold := 0 }).note evStepReset 1 0 0 [own, step]

end Sys2Proof.Machine
end

