-- ==== Sys2Proof/Machine/Slots.lean ====
section
/-! DEFINITION. Image slots, settings areas and the boot record (R714, R721, R723), two-key endings (R702), as the reset
and the update chapters share them. -/

namespace Sys2Proof.Machine

open Sys2Proof

def evSlotVerified : Nat := 0x1000
def evSlotRejected : Nat := 0x1001
def evUpdActivated : Nat := 0x1002
def evUpdConfirmed : Nat := 0x1003
def evUpdRolledBack : Nat := 0x1004
def evFailedBoot : Nat := 0x1005
def evUpdRecovery : Nat := 0x1006
def evTwoKey : Nat := 0x1007
def evDebug : Nat := 0x1008
def evIdentityFail : Nat := 0x1009

/-- Slot states (`UPD_SLOT.STATE`). -/
def slEMPTY : Nat := 0
def slRECEIVING : Nat := 1
def slRECEIVED : Nat := 2
def slVERIFYING : Nat := 3
def slVERIFIED : Nat := 4
def slINVALID : Nat := 5

def State.setImage (s : State) (k : Nat) (x : Image) : State := { s with upd.images := kset s.upd.images k x }
/-- The confirmed slot. -/
def State.confSlot (s : State) : Nat := s.rd F.UPD_STATE.CONF_SLOT
def State.onTrial (s : State) : Bool := s.flag F.UPD_STATE.ON_TRIAL

/-- The settings area in use, as it lies in flash (R723). -/
def State.settings (s : State) : Settings := ⟨s.mb.cur, s.mb.prev, s.topo.cur, s.topo.prev, s.time.flashEpoch, s.upd.fmt⟩

/-- The area of a slot that never had settings. -/
def Settings.none : Settings := ⟨Option.none, Option.none, Option.none, Option.none, 0, 0⟩

/-- `ORQ_CFG_STATUS` follows the records. -/
def State.reportCfg (s : State) : State :=
  s |>.wr F.ORQ_CFG_STATUS.CUR_VER ((s.mb.cur.map CfgRecord.ver).getD 0)
    |>.wr F.ORQ_CFG_STATUS.PREV_VER ((s.mb.prev.map CfgRecord.ver).getD 0)
    |>.wr F.ORQ_CFG_STATUS.PREV_VALID (b2n s.mb.prev.isSome)
    |>.wr F.ORQ_CFG_STATUS.STAGED s.mb.staging.length

/-- The keeper runs slot `k` from now on: its settings area comes into use, and the other slot's is left as it is; its microcode and
calibration values are for the engine to take (R722). -/
def State.runSlot (s : State) (k : Nat) : State :=
  if s.upd.boot.running = k then s
  else
    let old := s.settings
    let new := s.upd.other.getD Settings.none
    { s with
      upd.boot.running := k
      hce.ucode := List.range 21
      hce.calNew := true
      hce.calHas := []
      upd.other := some old
      upd.fmt := new.fmt
      mb.cur := new.cur
      mb.prev := new.prev
      topo.cur := new.plan
      topo.prev := new.before
      time.flashEpoch := new.epoch }.reportCfg

/-- The trial ends: the confirmed slot is run (R714, R721). -/
def State.clearTrial (s : State) : State :=
  let s := { s with upd.boot.trial := none }
  ((s.wr F.UPD_STATE.ON_TRIAL 0).wr F.UPD_STATE.TRIAL_BOOTS 0).runSlot s.confSlot

/-- SLOT_CHOICE (R714): at a keeper boot and an activation restart. An expired trial reverts, and the member reports it
after its next step 10 (R721). -/
def State.chooseSlot (s : State) : State :=
  match s.upd.boot.trial with
  | none => s.runSlot s.confSlot
  | some t =>
    if s.rd F.UPD_STATE.TRIAL_BOOTS < 3 then
      ((s.bump F.UPD_STATE.TRIAL_BOOTS).wr F.UPD_STATE.ON_TRIAL 1).runSlot t
    else
      let s := s.clearTrial
      match s.upd.group with
      | none => s
      | some g => { s with upd.group := some { g with late := true, fail := g.fail.orElse fun _ => some stTIMEOUT } }

/-- A two-key change ends (R702): its ticket's end lies with the caller; the counter advances and SEV1 is recorded. -/
def State.twoKeyEnd (s : State) (op arg outcome : Nat) : State :=
  let s := { s with upd.pending := none }
  let s := (s.wr F.SEC_STATUS.TK_PENDING 0).wr F.SEC_STATUS.TK_OP 0
  let s := s.bump F.SEC_STATUS.TK_COUNTER
  s.note evTwoKey 1 9 3 [op, arg, outcome, s.rd F.SEC_STATUS.TK_COUNTER]

/-- A pending change ended by a reset (R702): outcome 3. -/
def State.twoKeyReset (s : State) : State :=
  match s.upd.pending with
  | none => s
  | some p => s.twoKeyEnd (leAt p.head 0 2) (leAt p.head 40 8) 3

/-- The recovery mode is entered, with `RECOV_CAUSE`; `UPD_RECOVERY` draws no step (R665). -/
def State.enterRecovery (s : State) (cause : Nat) : State :=
  ((s.wr F.RST_STATUS.MODE mRECOVERY).wr F.UPD_STATE.RECOV_CAUSE cause).note evUpdRecovery 5 0 0 [cause]

/-- RECOV_PIN_IGNORED (R66): the pin is low and `RECOV_PIN_EN` is 0. -/
def State.recovIgnored (s : State) : State :=
  if s.pwr.recovLow && !s.flag F.SEC_POLICY.RECOV_PIN_EN then s.note (Config.eventCode 30) 0 0 0 else s

/-- The pin selects `RECOVERY`. -/
def State.recovPin (s : State) : Bool := s.pwr.recovLow && s.flag F.SEC_POLICY.RECOV_PIN_EN

end Sys2Proof.Machine
end

