-- ==== Sys2Proof/Machine/Reset.lean ====
section
/-! DEFINITION. Resets (spec/15_start_up_reset_and_recovery.md): register resets, context removal, the actions of the
escalation ladder, state collection. -/

namespace Sys2Proof.Machine

open Sys2Proof

def evCtxHang : Nat := 0x0F01
def evEngHang : Nat := 0x0F02
def evOrqHang : Nat := 0x0F04
def evOrqBootFail : Nat := 0x0F05
def evStepLate : Nat := 0x0F06
def evKeeperRestart : Nat := 0x0F07
def evKeeperLoop : Nat := 0x0F08
def evDumpDone : Nat := 0x0F0A
def evReady : Nat := 0x0F0B
def evMirrorSplit : Nat := 0x0F0C
def evMirrorYield : Nat := 0x0F0D

/-! ### Registers (R16) -/

/-- A register that a reset reaches: its volatile fields take their reset values; `none` where that is the whole value. -/
def resetValue (r : Reg) (v : BitVec 64) : Option (BitVec 64) :=
  let m := nvMask r.fields
  let w := (resetWord r.fields &&& ~~~m) ||| (v &&& m)
  if w = resetWord r.fields then none else some w

/-- Reset the registers that `sel` picks. -/
def State.resetRegs (s : State) (sel : Reg → Nat → Bool) : State :=
  { s with regs := s.regs.filterMap fun e =>
      match regAt e.1 with
      | none => some e
      | some (r, i) => if sel r i then (resetValue r e.2).map fun v => (e.1, v) else some e }

/-- The chip domain and those inside it (R15). -/
def Domain.inChip (d : Domain) : Bool := d != Domain.keeper

/-- Change every core that the state lists. -/
def State.mapCores (s : State) (f : Nat → Core → Core) : State := { s with cores := s.cores.map fun c => (c.1, f c.1 c.2) }

/-- A core after a reset of its partition: its store and its self-test record stay. No context counts as having run on it
(`CORE_STATUS.CTX_VALID`), so the store is zeroed before the next one (R124). -/
def Core.restart (k : Core) : Core := { Core.init with testAt := k.testAt, testPer := k.testPer, mustTest := k.mustTest }

/-! ### Context removal (R666) -/

/-- Change a removal in progress. -/
def State.setRemoval (s : State) (slot : Nat) (f : Removal → Removal) : State :=
  { s with rst.removals := s.rst.removals.map fun x => if x.slot = slot then f x else x }

def Removal.start (r : Removal) : Removal := { r with begun := true }
def Removal.noTicket (r : Removal) : Removal := { r with ticket := none }

/-- The removal in progress of a slot. -/
def State.removal (s : State) (slot : Nat) : Option Removal := s.rst.removals.find? fun r => r.slot == slot

/-- A core has work of the context in slot `slot`. -/
def Core.runs (k : Core) (slot : Nat) : Bool :=
  (k.threads.any fun x => x.2.st != .free && x.2.cmd.slot == slot) || (k.reserved.any fun g => g.cmd.slot == slot) ||
    (k.mq.any fun e => e.cmd.slot == slot)

/-- The slots that groups of a context were to take are free again (R124). -/
def Core.releaseSlots (k : Core) (slot : Nat) : Core := { k with reserved := k.reserved.filter fun g => g.cmd.slot != slot }

/-- Steps 1 to 3: the context enters `REMOVING`, its threads halt, its tiles, checked or not, are abandoned, its ring runs fail. -/
def State.beginRemoval (s : State) (slot : Nat) : State :=
  let s := (s.failRuns slot).wr F.QDB_CTX.STATE ctxREMOVING slot
  let s := (List.range 8).foldl (fun (s : State) q =>
    let n := s.rd F.QDB_QCFG.STATE (qi slot q)
    if n = qIDLE ∨ n = qRUN then s.wr F.QDB_QCFG.STATE qERROR (qi slot q) else s) s
  (s.cores.filter fun c => c.2.runs slot).foldl (fun (s : State) c =>
    let s := (s.abandonTile c.1).haltCore c.1
    s.setCore c.1 ((s.core c.1).releaseSlots slot)) s

/-- A core gives up everything of a context. -/
def Core.dropCtx (k : Core) (slot : Nat) : Core :=
  if k.runs slot then
    { k with
      threads := k.threads.filter fun x => x.2.cmd.slot != slot
      reserved := k.reserved.filter fun g => g.cmd.slot != slot
      sb := []
      mq := []
      memq := k.memq.filter fun h => h.thread.isNone
      bars := []
      retain := []
      tile := none }
  else k

/-- The job of a slot has no other resident context: its collective pairs and job-bound circuits go (R372, R502), and an
overflow placement may end. -/
def State.lastOfJob (s : State) (job : Nat) : State :=
  if s.resident.any fun n => s.ctxJob n == job then s
  else
    let mine (k : Nat) : Bool := k / 65536 == job
    let s := { s with
      eng.pairs := s.eng.pairs.filter fun p => !mine p.1
      eng.early := s.eng.early.filter fun t => !mine t.1
      eng.hellos := s.eng.hellos.filter fun h => h.job != job }
    (s.jobGone job).ovfReleased

/-- Steps 4 and 5: threads are `FREE`, events cleared, queues `OFF`, the slot free; SEV0 `RST_CTX_REMOVED`. -/
def State.endRemoval (s : State) (r : Removal) : State :=
  let slot := r.slot
  let id := s.ctxId slot
  let job := s.ctxJob slot
  let s := s.mapCores fun _ k => k.dropCtx slot
  let s := { s with
    eng.events := s.eng.events.filter fun e => e.1 / 64 != slot
    eng.queues := s.eng.queues.filter fun q => q.1 / 8 != slot
    eng.ctxs := kdel s.eng.ctxs slot
    eng.rings := s.eng.rings.filter fun x => x.2.cmd.slot != slot
    ms.reqs := s.ms.reqs.filter fun q => !(q.2.src.cmd.slot == slot && q.2.src.ctx == id && decide (q.2.src.engine < 6) && decide (q.2.src.engine ≠ 4))
    rst.removals := s.rst.removals.filter fun x => x.slot != slot }
  let s := s.resetRegs fun g i => (g == Reg.QDB_TAIL || g == Reg.QDB_HEAD || g == Reg.QDB_QBASE || g == Reg.QDB_QCFG) && i / 8 == slot
  let s := s |>.wr F.QDB_CTX.STATE ctxFree slot
    |>.bump F.RST_CNT_CTX.COUNT
    |>.note evRstCtxRemoved 0 0 0 [id, r.cause, s.opMs - r.startMs] (some id)
  let s := (s.reportLast ⟨2, 0, 0, r.cause, some id, r.kind, r.index, 0, true, none, true⟩ 0 false (s.opMs - r.startMs)).wr F.RST_LAST_TIME.OP_MS r.startMs
  (s.endWork r.ticket stOK 0xFFFF).drainBias.orqMirror.lastOfJob job

/-- CONTEXT_REMOVAL: steps 1 to 3. -/
def execContextRemoval (slot : Nat) (s : State) : Result :=
  .next <| match s.removal slot with
    | some r =>
      if r.begun then s
      else (s.setRemoval slot Removal.start).beginRemoval slot
    | none => s

/-- CONTEXT_REMOVAL_COMPLETE: steps 4 and 5. -/
def execContextRemovalComplete (slot : Nat) (s : State) : Result :=
  .next <| match s.removal slot with
    | some r => if r.begun then s.endRemoval r else s
    | none => s

/-- A context is removed at once, as step 2 of a partition reset. -/
def State.removeNow (s : State) (slot cause : Nat) : State :=
  let r : Removal := (s.removal slot).getD ⟨slot, cause, s.opMs, false, none, 0, 0⟩
  let s := if r.begun then s else s.beginRemoval slot
  s.endRemoval r

/-- Every context is lost without a removal of its own (R669); the tickets of removals ended under R632. -/
def State.dropContexts (s : State) : State :=
  ({ s with eng := Engines.init, rst.removals := [] }).mapCores fun _ k => k.restart

/-! ### Hang detection (R660) -/

/-- A command has started on an engine: the slots and references. -/
def State.startedOn (s : State) (engine : Nat) : List CmdRef :=
  s.eng.queues.filterMap fun q =>
    if s.queueEngine (q.1 / 8) (q.1 % 8) = engine then
      (q.2.cmds.find? fun c => c.work.isSome && !c.ended).map fun c => ⟨q.1 / 8, q.1 % 8, c.count⟩
    else none

/-- ENGINE_STALL: the sequencer has stalled for `ENG_WD` with a command started. -/
def execEngineStall (engine : Nat) (s : State) : Result :=
  .next <| if engine < 5 ∧ s.startedOn engine ≠ [] then
      s.record evEngHang 3 3 engine [engine, 10 * max 1 (s.rd F.RST_CFG.ENG_WD)]
    else s

/-- A queue in `RUN` whose head command is not a wait. -/
def State.queueBusy (s : State) (i : Nat) : Bool :=
  match (s.queue i).cmds.find? fun c => c.count == s.rd F.QDB_HEAD.HEAD i with
  | some c => c.opcode != 0x01 && c.opcode != 0x03 && c.opcode != 0x05
  | none => true

/-- CONTEXT_PROGRESS_TIMEOUT (Table 15-3). -/
def execContextProgressTimeout (slot : Nat) (s : State) : Result :=
  .next <|
    let run := (List.range 8).filter fun q => s.rd F.QDB_QCFG.STATE (qi slot q) == qRUN
    if s.ctxState slot = ctxACTIVE ∧ (s.ctx slot).wd ≠ 0 ∧ run ≠ [] ∧ run.all (fun q => s.queueBusy (qi slot q)) ∧
        (s.ctx slot).progress + (s.ctx slot).wd * 1000 ≤ s.opMs then
      s.record evCtxHang 2 0 0 [s.ctxId slot, run.foldl (fun (n : Nat) q => n + 2 ^ q) 0] (some (s.ctxId slot))
    else s

/-! ### State collection (R676 to R679) -/

/-- The dump reserve's slot base (Table 6-2). -/
def dumpBase (n : Nat) : Nat := 0x11FE0000000 + n * 0x8000000

/-- Units of a step's domain, in ascending unit ID (Table 15-9). -/
def State.domainUnits (s : State) (a : Action) : List Nat :=
  if a.cls = 3 then
    (if a.engine = 0 then (List.range 4).map fun q => 0x200 + q else []) ++ [0x210 + a.engine] ++
      ((s.startedOn a.engine).map fun r => 0x300 + r.slot).eraseDups
  else if a.cls = 4 then
    let qs := s.partQuarters a.part
    (qs.flatMap fun q => (List.range 72).map fun i => q * 72 + i) ++ qs.map (fun q => 0x200 + q) ++
      (s.resident.filter fun n => s.ctxPart n == a.part).map fun n => 0x300 + n
  else
    List.range 288 ++ (List.range 4).map (fun q => 0x200 + q) ++ (List.range 5).map (fun e => 0x210 + e) ++
      (List.range 16).map (fun d => 0x220 + d) ++ [0x240] ++ s.resident.map (fun n => 0x300 + n) ++ [0x400, 0x500]

/-- The unit that a cause names, where Table 15-9 lists it. -/
def namedUnits (a : Action) : List Nat :=
  if a.kind = 1 then [a.index] else if a.kind = 2 then [0x200 + a.index] else if a.kind = 3 then [0x210 + a.index]
  else if a.kind = 4 then [0x220 + a.index] else if a.kind = 5 then [0x240]
  else if a.kind = 0xB then [if a.index < 32 then 0x212 else if a.index = 32 then 0x211 else 0x213] else []

/-- The order of R677. -/
def State.collectOrder (s : State) (a : Action) : List Nat :=
  let first := match a.ctx.bind s.slotOf with
    | some n => [0x300 + n]
    | none => []
  (first ++ namedUnits a ++ s.domainUnits a).eraseDups

/-- The header of a dump (Table 15-8); how many bytes of the slot are used is a free value. -/
def Dump.header (d : Dump) (bytes : Nat) : List (BitVec 8) :=
  let h := leBytes 2 1 ++ leBytes 1 d.step ++ leBytes 1 d.flags ++ leBytes 4 d.seq ++ leBytes 2 d.cause ++
    leBytes 2 (d.ctx.getD 0 + 0x8000 * b2n d.ctx.isSome) ++ leBytes 4 d.units.length ++
    leBytes 4 (d.units.filter fun u => u.2.1 == 1).length ++ leBytes 6 d.opMs ++ leBytes 8 d.nt ++ leBytes 2 d.epoch ++
    leBytes 2 d.node ++ leBytes 6 bytes
  h ++ leBytes 4 (crc32c h)

/-- The units marked `UNREADABLE`. -/
def Dump.unread (d : Dump) : Nat := (d.units.filter fun u => u.2.1 == 1).length

/-- `RST_DUMP` for a dump in a slot. -/
def State.reportDump (s : State) (n : Nat) (d : Dump) : State :=
  (s |>.wr F.RST_DUMP.SLOT n
    |>.wr F.RST_DUMP.VALID 1
    |>.wr F.RST_DUMP.FLASHED 0
    |>.wr F.RST_DUMP.PARTIAL (b2n (d.flags / 2 % 8 ≠ 0))
    |>.wr F.RST_DUMP.UNREAD (min d.unread 2047)
    |>.wr F.RST_DUMP.SEQ (d.seq % 2 ^ 32)
    |>.wr F.RST_DUMP.MIB ((Config.word s.free).toNat % 129)).tick

/-- The copy to the flash dump area completes (R679). -/
def State.copyDone' (s : State) : State :=
  match s.rst.copying with
  | none => s
  | some n =>
    match kfind s.rst.dumps n with
    | none => { s with rst.copying := none }
    | some d =>
      let s := { s with
        rst.flashDumps := kset s.rst.flashDumps s.rst.nextFlash d
        rst.nextFlash := (s.rst.nextFlash + 1) % 2
        rst.copying := none }
      (s.wr F.RST_DUMP.FLASHED 1).note evDumpDone 0 0 0 [n, d.seq, d.units.length, d.unread]

/-- A dump of the running action begins: its slot, its header, every unit of its domain still unread. -/
def State.newDump (s : State) (a : Action) (units : List Nat) (flags : Nat) : Dump :=
  ⟨s.rst.dumpSeq, a.cls, flags, a.cause, a.ctx, units.map fun u => (u, 0, 0xFFFFFFFF), s.opMs, s.nt, s.time.epoch, s.node⟩

/-- The header and the unit index of a dump are written to its slot. -/
def State.writeDump (s : State) (n : Nat) (d : Dump) : State :=
  let s := s.memWrite (dumpBase n) (d.header ((Config.word s.free).toNat % 0x8000001))
  let s := s.tick
  (List.range d.units.length).foldl (fun (s : State) k =>
    match d.units[k]? with
    | some (u, st, bad) =>
      (s.memWrite (dumpBase n + 4096 + 16 * k) (leBytes 2 u ++ leBytes 1 st ++ leBytes 1 0 ++
        leBytes 4 (Config.word s.free).toNat ++ leBytes 4 (Config.word (s.free + 1)).toNat ++ leBytes 4 bad)).tick.tick
    | none => s) s

/-- A dump is closed: header and index are written to the slot, and its copy to flash starts. -/
def State.closeDump (s : State) (n : Nat) (d : Dump) : State :=
  let s := { s with rst.dumps := kset s.rst.dumps n d, rst.copying := some n }
  (s.reportDump n d).writeDump n d

/-- The header of a dump that a preemption closed as partial (R674) is written. -/
def State.writePartial (s : State) : State :=
  match s.rst.copying with
  | none => s
  | some n => match kfind s.rst.dumps n with
    | some d => if d.flags / 8 % 2 = 1 then s.writeDump n d else s
    | none => s

/-- Collection for an action (R676): `none` slot for `NO_DUMP`; after an Orquin hang a keeper-only dump goes straight to
flash. -/
def State.startCollect (s : State) (r : RunAct) : State × Option Nat :=
  if r.act.noDump then (s, none)
  else if r.act.cause = evOrqHang then
    let d := s.newDump r.act [0x400, 0x500] 3
    let s := { s with
      rst.dumpSeq := s.rst.dumpSeq + 1
      rst.flashDumps := kset s.rst.flashDumps s.rst.nextFlash d
      rst.nextFlash := (s.rst.nextFlash + 1) % 2 }
    (((s.wr F.RST_DUMP.VALID 1).wr F.RST_DUMP.FLASHED 1).wr F.RST_DUMP.PARTIAL 1 |>.wr F.RST_DUMP.SEQ (d.seq % 2 ^ 32), none)
  else
    let s := s.writePartial.copyDone'
    let n := s.rst.nextSlot
    let d := s.newDump r.act (s.collectOrder r.act) 0
    let s := { s with rst.dumps := kset s.rst.dumps n d, rst.nextSlot := (n + 1) % 4, rst.dumpSeq := s.rst.dumpSeq + 1 }
    (s.reportDump n d, some n)

/-- The running action's slot is closed where it is still open: every unit was read (`FLAGS` bit 0). -/
def State.finishCollect (s : State) : State :=
  match s.rst.running with
  | some r => match r.slot with
    | some n => match kfind s.rst.dumps n with
      | some d => ({ s with rst.running := some { r with slot := none } }).closeDump n { d with flags := Nat.lor d.flags 1 }
      | none => s
    | none => s
  | none => s

/-- COLLECTION_ACCESS_TIMEOUT: a unit is marked `UNREADABLE` with the access that reached 100 µs. -/
def execCollectionAccessTimeout (unit access : Nat) (s : State) : Result :=
  .next <| match s.rst.running.bind RunAct.slot with
    | none => s
    | some n => match kfind s.rst.dumps n with
      | none => s
      | some d =>
        let d := { d with units := d.units.map fun u => if u.1 = unit ∧ u.2.1 = 0 then (u.1, 1, access) else u }
        ({ s with rst.dumps := kset s.rst.dumps n d }).wr F.RST_DUMP.UNREAD (min d.unread 2047)

/-- COLLECTION_DONE: every unit read, or the bound or a full slot reached, where the units left are `SKIPPED`; how many
were read by then is a free value. -/
def execCollectionDone (reason : CollEnd) (s : State) : Result :=
  .next <| match s.rst.running with
    | none => s
    | some r => match r.slot with
      | none => s
      | some n => match kfind s.rst.dumps n with
        | none => s
        | some d =>
          let s := { s with rst.running := some { r with slot := none } }
          if reason = .allRead then s.closeDump n { d with flags := Nat.lor d.flags 1 }
          else
            let k := (Config.word s.free).toNat % (d.units.length + 1)
            s.tick.closeDump n { d with
              flags := Nat.lor d.flags 4
              units := d.units.take k ++ (d.units.drop k).map fun u => if u.2.1 = 1 then u else (u.1, 2, 0xFFFFFFFF) }

/-- RST_DUMP_DONE: within 2 s of the dump. -/
def execRstDumpDone (s : State) : Result := .next s.copyDone'

/-! ### Actions end -/

/-- The counter of an action's class. -/
def State.countAction (s : State) (cls : Nat) : State :=
  if cls = 3 then s.bump F.RST_CNT_ENG.COUNT
  else if cls = 4 then s.bump F.RST_CNT_PART.COUNT
  else if cls = 5 then s.bump F.RST_CNT_CHIP.COUNT
  else s

/-- The running action completes (R687, Table 15-16). -/
def State.finishAction (s : State) (r : RunAct) : State :=
  let s := s.finishCollect
  let s := ({ s with rst.running := none }).wr F.RST_STATUS.STEP 0
  let s := (s.reportLast r.act 0 r.repeated (s.opMs - r.startMs)).wr F.RST_LAST_TIME.OP_MS r.startMs
  (s.countAction r.act.cls).endWork r.act.ticket stOK 0xFFFF

/-- The first queued action starts once nothing runs (R673). -/
def State.dequeue (s : State) : State :=
  if s.rst.running.isSome then s
  else match s.rst.queue with
    | [] => s
    | a :: q => (s.setQueued q).startAction a

/-- ACTION_DEQUEUE. -/
def execActionDequeue (s : State) : Result := .next s.dequeue

/-- ACTION_LIMIT_EXPIRES: the running action, or with none the oldest removal, has exceeded its limit (Table 15-5); the
next step replaces it. A power cycle has no limit. -/
def execActionLimitExpires (s : State) : Result :=
  .next <| match s.rst.running with
    | some r => if r.act.cls < 6 then (s.closeDumpPartial r).escalate r 0 else s
    | none => match s.rst.removals.filter Removal.begun with
      | [] => s
      | r :: _ =>
        let id := s.ctxId r.slot
        let part := s.ctxPart r.slot
        let c := nextStep r.kind 2
        let s := s.note evRstEscalated c r.kind r.index [2, c, 0] (some id)
        let s := (s.bump F.RST_CNT_CTX.COUNT).endWork r.ticket stINTERNAL c
        let s := s.setRemoval r.slot Removal.noTicket
        s.callAction ⟨c, if r.kind = 3 then r.index else 0, part, r.cause, some id, r.kind, r.index, 0, false, none, true⟩

/-! ### Engine reset (R667) -/

/-- The running action, of a class, whose execution has not begun. -/
def State.calledOf (s : State) (cls : Nat) : Option RunAct :=
  match s.rst.running with
  | some r => if r.act.cls = cls ∧ r.phase = .called then some r else none
  | none => none

/-- The running action's phase and dump slot. -/
def State.runPhase (s : State) (p : ActPhase) (slot : Option Nat) : State :=
  match s.rst.running with
  | some r => { s with rst.running := some { r with phase := p, slot := slot } }
  | none => s

/-- ENGINE_RESET: state is collected, the contexts with started commands fail with `ENGINE_RESET`, and the engine clears its
state; the ring engine's aborts wait until it is out of reset (R431). -/
def execEngineReset (engine : Nat) (s : State) : Result :=
  .next <| match s.calledOf 3 with
    | none => s
    | some r =>
      if r.act.engine ≠ engine then s
      else
        let (s, slot) := s.startCollect r
        let s := s.runPhase .executed slot
        let held := s.lk.held
        let s := (s.startedOn engine).foldl (fun (s : State) c =>
          if s.ctxState c.slot = ctxACTIVE then s.cmdError c qeENGINE_RESET 0 (s.opcodeOf c) 0 else s) s
        let due := s.lk.held.drop held.length
        let s := if engine = 3 then { s with lk.held := held, eng.ringDue := s.eng.ringDue ++ due } else s
        { s with
          eng.arbs := kset s.eng.arbs engine { s.arb engine with held := true }
          ms.reqs := s.ms.reqs.filter fun q => q.2.src.engine != engine
          lk.inbox := if engine = 3 then [] else s.lk.inbox }.drainBias

/-- ENGINE_RESET_COMPLETE: the engine resumes. -/
def execEngineResetComplete (engine : Nat) (s : State) : Result :=
  .next <| match s.rst.running with
    | some r =>
      if r.act.cls = 3 ∧ r.act.engine = engine ∧ r.phase = .executed then
        let s := { s with eng.arbs := kset s.eng.arbs engine { s.arb engine with held := false } }
        let s := if engine = 3 then { s with lk.held := s.lk.held ++ s.eng.ringDue, eng.ringDue := [] } else s
        s.finishAction r
      else s
    | none => s

/-! ### Partition reset (R668) -/

/-- What waits for a quarter is turned away: remote and engine requests fault with `HOME_RESET`, a host read of a per-core
window returns all ones (R119). -/
def State.refuseWaiting (s : State) (ms : List MemReq) : State :=
  ms.foldl (fun (s : State) m => match m.tag with
    | some t => s.failReq t gcHOME_RESET
    | none => match m.kind with
      | .regRead w => s.emit (.bar0 (2 ^ (8 * w) - 1))
      | _ => s) s

/-- The access at its home that a queued request is. -/
def HeldReq.access (h : HeldReq) : Option MemReq :=
  match h.work with
  | .here m => some m
  | _ => none

/-- The cores of a quarter. -/
def quarterCores (q : Nat) : List Nat := (List.range 72).map fun i => q * 72 + i

/-- Change every core of a quarter. -/
def State.mapQuarter (s : State) (q : Nat) (f : Core → Core) : State :=
  (quarterCores q).foldl (fun (s : State) c => s.setCore c (f (s.core c))) s

/-- The quarters of a partition are reset: cores lose everything but their stores. -/
def State.resetQuarter (s : State) (q : Nat) : State :=
  let v := s.quarter q
  let cores := quarterCores q
  let wait := cores.flatMap fun c => (s.core c).waiting ++ ((s.core c).memq.filterMap HeldReq.access)
  let s := s.setQuarter q { v with inReset := true, gating := false, waking := false, waiting := [] }
  let s : State := s.refuseWaiting (v.waiting ++ wait)
  cores.foldl State.tileBoundary (s.mapCores fun c k => if coreQuarter c = q then k.restart else k)

/-- Steps 2 and 3 on partition `p`. -/
def State.resetPartition (s : State) (p cause : Nat) : State :=
  let s := (s.resident.filter fun n => s.ctxPart n == p).foldl (fun (s : State) n => s.removeNow n cause) s
  let qs := s.partQuarters p
  let s := qs.foldl State.resetQuarter s
  s.resetRegs fun r i => r.desc.domain == Domain.partition && r.desc.base ≥ 0x1000000 && qs.contains (coreQuarter i)

/-- PARTITION_RESET: state is collected, the contexts of the partition are removed, its quarters and its share of the
engines are reset. -/
def execPartitionReset (part : Nat) (s : State) : Result :=
  .next <| match s.calledOf 4 with
    | none => s
    | some r =>
      if r.act.part ≠ part then s
      else
        let (s, slot) := s.startCollect r
        (s.runPhase .executed slot).resetPartition part r.act.cause

/-- A gate under R101 takes the supply of quarter `q`'s SRAM die: its core stores and its quarter store are lost. -/
def State.cutSram (s : State) (q : Nat) : State :=
  ((s.memClear (coreStoreBase (q * 72)) (72 * 0x600000)).memClear (quarterStoreBase q) 0x5000000).setSramOff q true

/-- Retired cores of a quarter stay power-gated (R267). -/
def State.gateRetired (s : State) (q : Nat) : State :=
  (s.chk.retire.filter fun r => r.2 == 2 && coreQuarter r.1 == q).foldl (fun (s : State) r => s.setCore r.1 (s.core r.1).loseLogic) s

/-- A quarter starts again: ungated, its SRAM supplied, with the guardband and ceiling that wait (R744); for the coolant it
stays gated (R31). -/
def State.startQuarter (s : State) (q : Nat) : State :=
  let v := s.quarter q
  let s := s.setQuarter q { v with
    inReset := false
    outOfSvc := false
    ceiling := v.ceilNext
    guardMv := v.guardNext
    mhz := min v.mhz v.ceilNext }
  let now := s.opMs
  let per := s.testPeriod
  let s := s.mapQuarter q fun k => { k with testAt := now, testPer := per }
  let s := s.gateRetired q
  if s.pwr.coolStop then (s.setGated q true).cutSram q else (s.setGated q false).setSramOff q false

/-- PARTITION_RESET_COMPLETE: the quarters are restarted and self-tested. -/
def execPartitionResetComplete (part : Nat) (s : State) : Result :=
  .next <| match s.rst.running with
    | some r =>
      if r.act.cls = 4 ∧ r.act.part = part ∧ r.phase = .executed then
        ((s.partQuarters part).foldl State.startQuarter s).finishAction r
      else s
    | none => s

/-! ### `HB` and `MIRROR_HB` (R683, R689) -/

/-- `STATE` of Table 15-11. -/
def State.hbState (s : State) : Nat :=
  match s.rst.running with
  | some r => if r.act.cls = 5 then 1 else if r.act.cls = 6 then 2 else if s.flag F.RST_STATUS.EVACUATED then 3 else
      if s.mode = mTEST then 4 else if s.mode = mNORMAL then 0 else 5
  | none => if s.flag F.RST_STATUS.EVACUATED then 3 else if s.mode = mTEST then 4 else if s.mode = mNORMAL then 0 else 5

/-- An `HB` on each channel in `UP`. -/
def State.sendHb (s : State) : State :=
  ((List.range 24).filter s.chanUp).foldl (fun (s : State) p => s.emit (.ctrl p cbHB [s.hbState, s.node, s.lk.inc])) s

/-- The mirror peer: the buddy, or the module whose regions this one holds (R688). -/
def State.mirrorPeer (s : State) : Option Nat :=
  if s.flag F.MEM_MIRROR_CFG.EN then some (s.rd F.MEM_MIRROR_CFG.BUDDY)
  else if s.ms.regions.any fun r => r.2.mirTgt then some (s.rd F.RST_MIRROR_STATUS.PEER)
  else none

/-- A `MIRROR_HB` to the peer (Table 15-13). -/
def State.sendMirrorHb (s : State) : State :=
  match s.mirrorPeer with
  | none => s
  | some n =>
    let roles := b2n (s.flag F.MEM_MIRROR_CFG.EN) + 2 * b2n (s.ms.regions.any fun r => r.2.mirTgt) + 4 * s.rd F.RST_MIRROR_STATUS.ACTING
    let v := (s.peers.mirSent + 1) % 2 ^ 32
    ({ s with peers.mirSent := v }).pmsg n pkMIRROR 0 v
      (leBytes 1 s.hbState ++ leBytes 1 roles ++ leBytes 2 (s.rd F.MEM_MIRROR_CFG.BUDDY))

/-! ### Chip reset (R669) -/

/-- R632: outstanding tickets whose work has not ended end with `INTERNAL`, 0xFFFE, and their bits are set. The ticket of an
activation group ends when its group ends (R718), which its chip resets do not. -/
def State.endTickets (s : State) : State :=
  let due := (s.mb.tickets.filter fun t => t.2.result.isNone && t.2.cmd != 0x0701).map Prod.fst
  let s := due.foldl (fun (s : State) t => (s.endTicket t stINTERNAL 0xFFFE).postTicket t) s
  if due ≠ [] ∧ s.flag F.ORQ_MB_CFG.IRQ_EN then s.emit (.msix (s.rd F.ORQ_MB_CFG.ASYNC_VEC)) else s

/-- The bytes of a response (Table 14-3). -/
def respBytes (q : Req) (r : Resp) : List (BitVec 8) :=
  leBytes 2 r.status ++ leBytes 2 r.payload.length ++ leBytes 4 q.tag ++ leBytes 2 q.cmd ++ leBytes 1 r.ticket ++ leBytes 1 0 ++
    leBytes 2 r.detail ++ leBytes 2 0 ++ r.payload

/-- A response is placed in the response area; `BUSY` clears, `DONE` sets, the message of R625 follows. -/
def State.placeResp (s : State) (q : Req) (r : Resp) : State :=
  let s := { s with mb.rsp := memPutBytes [] 0 (respBytes q r), mb.taken := none, mb.resp := none }
  let s := s |>.wr F.ORQ_MB_STATUS.BUSY 0
    |>.wr F.ORQ_MB_STATUS.DONE 1
    |>.bump F.ORQ_MB_STATUS.COUNT
  if s.flag F.ORQ_MB_CFG.IRQ_EN then s.emit (.msix (s.rd F.ORQ_MB_CFG.VECTOR)) else s

/-- R632: the request that the service core had taken. -/
def State.answerTaken (s : State) : State :=
  match s.mb.taken with
  | none => s
  | some q => s.placeResp q ⟨stINTERNAL, 0xFF, 0xFFFE, []⟩

/-- What the I/O die and every quarter hold goes: contexts, stores, regions, links and all registers of the chip domain and inside
it; the CXL port, HDM decoders, the lattice and the keeper stay (R659, R680). -/
def State.chipCleared (s : State) : State :=
  let srFail := s.ms.srFail
  let full := s.ms.full
  let s := s.dropContexts
  let s := s.resetRegs fun r _ => r.desc.domain.inChip
  { s with
    mem := s.mem.filter fun c => decide (c.1 < dramTop)
    ms := { Memory.init with hdm := s.ms.hdm, hdmFail := s.ms.hdmFail, linkDown := s.ms.linkDown, srFail := srFail, full := full,
                             poison := s.ms.poison.filter fun g => decide (g.1 * 64 < dramTop), nextTag := s.ms.nextTag }
    lk := { Links.init with inc := (s.lk.inc + 1) % 256 }
    place := Placements.init
    chk := { s.chk with commit := [] }
    mb.staging := []
    topo.loaded := none
    path.coreUp := false
    path.jobs := [] }

/-- Every quarter is held in reset; nothing waits for one. -/
def State.holdQuarters (s : State) : State :=
  (List.range 4).foldl (fun (s : State) q => s.setQuarter q { s.quarter q with inReset := true, gating := false, waking := false, waiting := [] }) s

/-- The I/O die and every quarter are reset, and the registers that tell of them. -/
def State.chipDown (s : State) : State :=
  let s := s.chipCleared.holdQuarters
  s |>.wr F.ID_CAP.PART_MODE (s.rd F.ID_PART_CFG.PART_MODE)
    |>.wr F.PTH_STATUS.CORE_UP 0
    |>.wr F.UPD_XFER.OPEN 0
    |>.reportCfg

/-- The mode that a chip reset selects, its request mode given (Table 15-1, R66). -/
def State.selectMode (s : State) (mode : Nat) : State :=
  let s := s.recovIgnored
  if s.recovPin then s.enterRecovery 1
  else if mode = 2 then s.enterRecovery 2
  else if mode = 1 ∧ s.unlocked then s.wr F.RST_STATUS.MODE mTEST
  else if s.mode = mSTARTUP ∨ s.mode = mRECOVERY then s
  else s.wr F.RST_STATUS.MODE mNORMAL

/-- The mode after a chip reset; where it leaves test mode, EXTEST and INTEST end with it (R78). -/
def State.resetMode (s : State) (mode : Nat) : State := (s.selectMode mode).tapJudge

/-- The Orquin cores stop: no heartbeat counts, the firmware is down. -/
def State.firmwareDown (s : State) : State :=
  { s with
    mb.hbLast := none
    mb.hbStall := false
    mb.hbInPeriod := false
    rst.orqDown := true
    pwr.hbSeen := false }
    |>.wr F.ORQ_MB_STATUS.FW_UP 0
    |>.wr F.ORQ_HB_STATUS.MISSED 0
    |>.wr F.ORQ_HB_STATUS.HANG 0
    |>.wr F.ORQ_HB_STATUS.COUNTING 0

/-- Steps 3 and 4 of a chip reset for an action. -/
def State.chipReset (s : State) (a : Action) : State :=
  let was := s.mode
  let s := if a.auto ∧ s.onTrial then s.chooseSlot else s
  let s := s.resetMode a.mode
  let s := { s with blk.selfRef := true, ms.full := s.ms.srFail || !(was == mNORMAL && s.mode == mNORMAL) }
  let s := s.chipDown.firmwareDown
  s.wr F.RST_STATUS.PHASE (min 3 (s.rd F.RST_STATUS.PHASE))

/-- CHIP_RESET (the level of `RECOV_N` that it samples is `recovLow`, R66): neighbours are told, tickets end, state is collected, and the I/O die and the quarters are reset; steps 4 to
10 of Table 15-2 follow. In `RECOVERY` the action ends here. -/
def execChipReset (s : State) (recovLow : Bool := false) : Result :=
  .next <| match s.calledOf 5 with
    | none => s
    | some r =>
      let s := ({ s with pwr.recovLow := recovLow }).wr F.RST_STATUS.READY 0
      let s := s.sendHb.sendMirrorHb
      let s := if s.flag F.RST_CFG.IRQ_EN then s.emit (.msix (s.rd F.RST_CFG.VECTOR)) else s
      let s := (s.endTickets.answerTaken).twoKeyReset
      let (s, slot) := s.startCollect r
      let s := (s.runPhase .executed slot).finishCollect
      let s := s.chipReset r.act
      if s.mode = mRECOVERY then s.finishAction { r with slot := none } else s

/-! ### Power cycle (R670) -/

/-- POWER_CYCLE: circuits are evacuated and torn down, `HB` state 2 is sent, and the drain starts. -/
def execPowerCycle (s : State) : Result :=
  .next <| match s.calledOf 6 with
    | none => s
    | some _ =>
      let s := s.askEvacuate (fun _ => true) false
      let s := ((List.range 512).filter fun i => s.ctype i == ptyORIG || s.ctype i == ptyRESP).foldl (fun (s : State) i => s.tearDown i none) s
      (s.kick.sendHb).runPhase .draining none

/-- The I/O die is held in reset and the quarters are gated (R670). -/
def State.holdChip (s : State) (a : Action) : State :=
  let s := (s.endTickets.answerTaken).twoKeyReset
  let s := (s.chipReset { a with mode := 0 }).wr F.RST_STATUS.READY 0
  (List.range 4).foldl (fun (s : State) q => s.setGated q true) s

/-- DRAIN_EXPIRES: after `PWRCYC_DRAIN` seconds state is collected and copied to flash, and `PWRCYC_REQ_N` goes low, or with
`PWRCYC_EN` = 0 the module is held. -/
def execDrainExpires (s : State) : Result :=
  .next <| match s.rst.running with
    | some r =>
      if r.act.cls = 6 ∧ r.phase = .draining then
        let (s, slot) := s.startCollect r
        let s := (s.runPhase .executed slot).finishCollect.copyDone'
        if r.cycleEn then
          ({ s with pwr.pwrcycReq := true, pwr.pwrcycReason := r.act.cause % 256 }).alert aPWRCYC true
        else (s.holdChip r.act).runPhase .held none
      else s
    | none => s

end Sys2Proof.Machine
end

