-- ==== Sys2Proof/Machine/HostRegs.lean ====
section
/-! DEFINITION. BAR0 accesses (R7 to R20, R117 to R120, R658, R659): reads and writes of registers, field by field, and the
mailbox's intake (R625 to R627). -/

namespace Sys2Proof.Machine

open Sys2Proof

def evMbDrop : Nat := 0x0E00

/-! ### Which registers are served -/

/-- A per-core window (Table 2-7). -/
def Reg.inWindow (r : Reg) : Bool := decide (0x1000000 ≤ r.desc.base)

/-- A chip reset is being executed, or the module is held (R669, R670). -/
def State.chipResetting (s : State) : Bool :=
  match s.rst.running with
  | some r => decide (5 ≤ r.act.cls) && (r.phase == .executed || r.phase == .held)
  | none => false

/-- R658, R659, R716: keeper-domain registers are served from the end of step 2; others once their block's step is complete
(5, and 7 for the per-core windows), not during a chip reset and not in `RECOVERY`. -/
def State.served (s : State) (r : Reg) : Bool :=
  let phase := s.rd F.RST_STATUS.PHASE
  if r.desc.domain = .keeper then decide (2 ≤ phase)
  else !s.chipResetting && s.mode != mRECOVERY && decide ((if r.inWindow then 7 else 5) ≤ phase)

/-! ### Applying a write field by field (R12, R13) -/

/-- What a write of the bits `m` of `v` makes of one field. -/
def Fld.write (f : Fld) (m v old : BitVec 64) : BitVec 64 :=
  let k := f.mask &&& m
  match f.access with
  | .rw => (old &&& ~~~k) ||| (v &&& k)
  | .w1c => old &&& ~~~(v &&& k)
  | .w1s => old ||| (v &&& k)
  | .ro | .wo | .rwl => old

/-- What a write makes of a register; reserved bits are ignored (R10). -/
def writeWord (fs : List Fld) (m v old : BitVec 64) : BitVec 64 := fs.foldl (fun w f => f.write m v w) old

/-- A class Q write is dropped with the general event of R18. -/
def State.rejectRunning (s : State) (off : Nat) : State := s.noteOffset 1 off stRUNNING

/-- `EN` of `MEM_MIRROR_CFG` goes to 0: the mirror is `OFF`, and writes that wait for the buddy count as performed. -/
def State.mirrorDisable (s : State) : State := (s.ackMirror s.ms.mirWait.length).wr F.MEM_MIRROR_STATUS.STATE mirOFF

/-- `MEM_MIRROR_CFG` takes a word: entering and leaving the mirror follow `EN` (Table 6-7). -/
def State.setMirrorCfg (s : State) (w : BitVec 64) : State :=
  let was := s.flag F.MEM_MIRROR_CFG.EN
  let s := s.wreg .MEM_MIRROR_CFG w
  let on := s.flag F.MEM_MIRROR_CFG.EN
  if on && !was then (s.wr F.MEM_MIRROR_CFG.EN 0).mirrorEnable (s.rd F.MEM_MIRROR_CFG.BUDDY)
  else if was && !on then s.mirrorDisable
  else s

/-- `MEM_OVF_CFG` takes a word: setting `EN` empties the translation cache (R312); a write that
changes nothing is taken without effect (R18). -/
def State.setOvfCfg (s : State) (w : BitVec 64) : State :=
  let was := s.flag F.MEM_OVF_CFG.EN
  if w = s.rreg .MEM_OVF_CFG then s
  else
    let s := s.wreg .MEM_OVF_CFG w
    if s.flag F.MEM_OVF_CFG.EN && !was then { s with ms.ovfCache := [] } else s.ovfReleased

/-- The host may write the engine's registers (R590). -/
def State.hceOpen (s : State) : Bool := s.mode == mTEST || s.unlocked

/-- `HCE_LOOP_CAL` holds set-points within its drive limits (R588). -/
def calOk (w : BitVec 64) : Bool :=
  let a := F.HCE_LOOP_CAL.D_A.of w
  let b := F.HCE_LOOP_CAL.D_B.of w
  let lo := F.HCE_LOOP_CAL.UMIN.of w
  let hi := F.HCE_LOOP_CAL.UMAX.of w
  decide (lo ≤ hi) && decide (lo ≤ a) && decide (a ≤ hi) && decide (lo ≤ b) && decide (b ≤ hi)

/-- A host write to an `HCE_` register (R588 to R590). -/
def State.writeHce (s : State) (r : Reg) (i : Nat) (new : BitVec 64) : State :=
  let old := s.rreg r i
  let off := r.off i
  if !s.hceOpen then s.hceReject off stPOLICY
  else match r with
    | .HCE_SP => if bitOf new.toNat 31 then s.spGo new.toNat else s.wreg r new i
    | .HCE_GRP => if bitOf new.toNat 2 then s.groupResume i else s
    | .HCE_XT => if i = 0 then s else s.wreg r new i
    | .HCE_COEF_A | .HCE_COEF_B =>
      if new = old then s else if s.setInUse i then s.hceReject off stRUNNING else s.wreg r new i
    | .HCE_LOOP_CAL =>
      if new = old then s
      else if loopRuns (s.hceState i) then s.hceReject off stRUNNING
      else if calOk new then s.wreg r new i
      else s.hceReject off stPOLICY
    | .HCE_LOOP_CTL =>
      let set := F.HCE_LOOP_CTL.SET_SEL.of new
      let s := if set = s.setSel i then s else s.selectSet i set
      let hold := F.HCE_LOOP_CTL.HOLD.of new
      if hold = F.HCE_LOOP_CTL.HOLD.of old then s else if hold = 1 then s.loopHoldOn i else s.loopHoldOff i
    | _ => s.wreg r new i

/-- `QDB_QCFG` (Table 7-4, R392). -/
def State.writeQcfg (s : State) (i : Nat) (new : BitVec 64) : State :=
  let slot := i / 8
  let q := i % 8
  if s.ctxState slot ≠ ctxACTIVE then s
  else if bitOf new.toNat 16 then s.queueEnable slot q new.toNat
  else if s.flag F.QDB_QCFG.EN i then
    if qcfgFields new.toNat = qcfgFields (s.rreg .QDB_QCFG i).toNat then s.queueDisable slot q else s.qcfgReject slot q
  else s.wreg .QDB_QCFG new i

/-- `QDB_QBASE` (R392). -/
def State.writeQbase (s : State) (i : Nat) (new : BitVec 64) : State :=
  if s.ctxState (i / 8) ≠ ctxACTIVE ∨ new = s.rreg .QDB_QBASE i then s
  else if s.flag F.QDB_QCFG.EN i then s.qcfgReject (i / 8) (i % 8)
  else s.wreg .QDB_QBASE new i

/-- The request that lies in the request area (Table 14-2). -/
def readRequest (area : List Host.Cell) : Req :=
  let h := memBytes area 0 16
  let len := leAt h 2 2
  ⟨leAt h 0 2, len, leAt h 4 4, leAt h 8 8, memBytes area 16 (min len 4080)⟩

/-- `GO` (R625 to R627, R632): dropped while `BUSY`, answered `BUSY` while the firmware is down or keeper firmware restarts (Table 15-3), else relayed. A held module
still takes a `RESET_REQ` (R670). -/
def State.doorbell (s : State) : State :=
  if s.flag F.ORQ_MB_STATUS.BUSY then s.note evMbDrop 0 0xC 0 [Reg.ORQ_DOORBELL.off 0]
  else
    let q := readRequest s.mb.req
    let held := match s.rst.running with
      | some r => r.phase == .held
      | none => false
    let s := (s.wr F.ORQ_MB_STATUS.BUSY 1).wr F.ORQ_MB_STATUS.DONE 0
    if decide (s.rst.keepBusy ≤ s.opMs) && (s.flag F.ORQ_MB_STATUS.FW_UP || (held && q.cmd == 0x0900)) then { s with mb.taken := some q, mb.resp := none }
    else s.placeResp q ⟨stBUSY, 0xFF, 0xFFFF, []⟩

/-- ORQ_DOORBELL_GO. -/
def execOrqDoorbellGo (s : State) : Result := .next s.leaveDormant.doorbell

/-- A host write of the bits `m` of register `r`, with the effects that its table and rules give it. -/
def State.writeReg (s : State) (r : Reg) (i : Nat) (m v : BitVec 64) : State :=
  let old := s.rreg r i
  let new := writeWord r.fields m v old
  let off := r.off i
  let put := s.wreg r new i
  let changes := (new &&& rwMask r.fields) != (old &&& rwMask r.fields)
  match r with
  | .ID_PART_CFG => if F.ID_PART_CFG.PART_MODE.of new = 3 then s.noteOffset 3 off stPOLICY else put
  | .CORE_CFG => if changes && ((s.core i).live != [] || (s.core i).mq != []) then s.rejectRunning off else put
  | .CHK_CFG => if bitOf (v &&& m).toNat 31 then put.chkCommit else put
  | .CHK_INJECT => s.injectWrite (new ||| (v &&& m &&& F.CHK_INJECT.ARM.mask)).toNat
  | .MEM_CFG => if changes && s.resident != [] then s.rejectRunning off else put
  | .MEM_REGION_COMMIT => if bitOf (v &&& m).toNat 0 then s.regionCommitGo else s
  | .MEM_MIRROR_CFG =>
    if changes && s.flag F.MEM_MIRROR_CFG.EN && F.MEM_MIRROR_CFG.EN.of new = 1 then s.rejectRunning off else s.setMirrorCfg new
  | .MEM_OVF_CFG =>
    if changes && s.flag F.MEM_OVF_CFG.EN && F.MEM_OVF_CFG.EN.of new = 1 then s.rejectRunning off else s.setOvfCfg new
  | .MEM_OVF_BASE => if changes && s.flag F.MEM_OVF_CFG.EN then s.rejectRunning off else put
  | .MEM_BIAS_CMD => s.biasCommand ((new &&& ~~~F.MEM_BIAS_CMD.GO.mask) ||| (v &&& m &&& F.MEM_BIAS_CMD.GO.mask)).toNat
  | .QDB_TAIL => s.tailWrite (i / 8) (i % 8) (bitsOf new.toNat 31 0)
  | .QDB_QBASE => s.writeQbase i new
  | .QDB_QCFG => s.writeQcfg i new
  | .QDB_EVT_VAL => s.evtValWrite ((old &&& ~~~m) ||| (v &&& m)).toNat
  | .HCE_CFG | .HCE_RAMP_CFG | .HCE_PILOT_CFG | .HCE_SP | .HCE_GRP | .HCE_XT | .HCE_COEF_A | .HCE_COEF_B | .HCE_LOOP_CTL
  | .HCE_LOOP_CAL => s.writeHce r i new
  | .TIM_CFG => if s.flag F.TIM_CFG.PPS_EN && F.TIM_CFG.PPS_EN.of new = 0 then put.ppsOff else put
  | .TIM_SET_CTL => if bitOf (v &&& m).toNat 0 then s.timSet else s
  | .TIM_TRIG_TGT => if 12 ≤ i then s.noteOffset 5 off stPOLICY else put
  | .TIM_TRIG_CTL =>
    if 12 ≤ i then s.trigReject i
    else
      let w := ((s.rreg r i &&& ~~~m) ||| (v &&& m)).toNat
      let s := s.trigWrite i (w - w % 128 / 32 * 32 + bitsOf (v &&& m).toNat 6 5 * 32)
      if bitOf (v &&& m).toNat 1 then s.trigDisarm i else if bitOf (v &&& m).toNat 0 then s.trigArm i else s
  | .ORQ_DOORBELL => if bitOf (v &&& m).toNat 0 then s.doorbell else s
  | .EVR_RD_CTL => s.readRecord (F.EVR_RD_CTL.SEQ.of new)
  | _ => put

/-! ### The host's accesses -/

/-- The register and instance of which `off` holds the low word (`false`) or the high word (`true`). -/
def regHalf (off : Nat) : Option (Reg × Nat × Bool) :=
  match regAt off with
  | some (r, i) => some (r, i, false)
  | none => match (if 4 ≤ off then regAt (off - 4) else none) with
    | some (r, i) => if r.desc.width = 64 then some (r, i, true) else none
    | none => none

/-- The registers that an access of `width` bytes meets, with the bits of each and the place of those bits in the access. -/
def accessParts (off width : Nat) : List (Reg × Nat × Nat × Nat) :=
  let half (o at_ : Nat) : List (Reg × Nat × Nat × Nat) :=
    match regHalf o with
    | some (r, i, hi) => [(r, i, if hi then 32 else 0, at_)]
    | none => []
  if width = 8 then half off 0 ++ half (off + 4) 32 else half off 0

/-- The request area (R623, R626). -/
def inRequestArea (off : Nat) : Bool := decide (0x10000 ≤ off) && decide (off < 0x11000)
def inResponseArea (off : Nat) : Bool := decide (0x11000 ≤ off) && decide (off < 0x12000)

/-- A well-formed access (R8). -/
def accessOk (off width : Nat) : Bool := (width == 4 || width == 8) && off % width == 0 && decide (off < 0x4000000)

/-- A quarter's per-core windows in partition reset (R119), or waiting for a wake (R118). -/
def windowCore (off : Nat) : Option Nat := if 0x1000000 ≤ off ∧ off < 0x2200000 then some ((off - 0x1000000) / 0x10000) else none

/-- A write that reaches its registers: whole where one access covers a 64-bit register. -/
def State.writeParts (s : State) (parts : List (Reg × Nat × Nat × Nat)) (val : Nat) : State :=
  match parts with
  | [(r, i, 0, 0), (r', i', 32, 32)] =>
    if r = r' ∧ i = i' then (if s.served r then s.writeReg r i (BitVec.ofNat 64 (2 ^ 64 - 1)) (BitVec.ofNat 64 val) else s)
    else parts.foldl (fun (s : State) p =>
      if s.served p.1 then s.writeReg p.1 p.2.1 (BitVec.ofNat 64 ((2 ^ 32 - 1) * 2 ^ p.2.2.1)) (BitVec.ofNat 64 (val / 2 ^ p.2.2.2 % 2 ^ 32 * 2 ^ p.2.2.1)) else s) s
  | _ => parts.foldl (fun (s : State) p =>
      if s.served p.1 then s.writeReg p.1 p.2.1 (BitVec.ofNat 64 ((2 ^ 32 - 1) * 2 ^ p.2.2.1)) (BitVec.ofNat 64 (val / 2 ^ p.2.2.2 % 2 ^ 32 * 2 ^ p.2.2.1)) else s) s

/-- A well-formed BAR0 write. -/
def State.hostWrite (s : State) (off width val : Nat) : State :=
  if inRequestArea off then
    if s.rd F.RST_STATUS.PHASE < 2 then s
    else if s.flag F.ORQ_MB_STATUS.BUSY then s.note evMbDrop 0 0xC 0 [off]
    else { s with mb.req := memPutBytes s.mb.req (off - 0x10000) (leBytes width val) }
  else match windowCore off with
    | none => s.writeParts (accessParts off width) val
    | some c =>
      let q := coreQuarter c
      let v := s.quarter q
      if v.inReset then s
      else if s.dozing q && s.served Reg.CORE_CFG then s.wakeFor q [⟨off, .regWrite width val, none⟩]
      else s.writeParts (accessParts off width) val

/-- REGISTER_WRITE. A write of the wrong width or alignment is dropped with the event of R8. -/
def execRegisterWrite (off width val : Nat) (s : State) : Result :=
  .next <| if accessOk off width then s.leaveDormant.hostWrite off width (val % 2 ^ (8 * width)) else s.leaveDormant.noteOffset 4 off 0

/-- BAR0_BAD_ACCESS (R8): the wrong width or alignment. -/
def execBar0BadAccess (off width : Nat) (isWrite : Bool) (s : State) : Result :=
  .next <|
    let s := s.leaveDormant
    if accessOk off width then s
    else (s.when (!isWrite) fun s => s.emit (.bar0 (2 ^ (8 * width) - 1))).noteOffset 4 off 0

end Sys2Proof.Machine
end

