-- ==== Sys2Proof/Machine/Views.lean ====
section
/-! DEFINITION. What a read of a BAR0 register returns: the stored word, with the fields that report other state computed
from it (each chapter's register table). A record keeps one home for each value, so these fields are not stored. -/

namespace Sys2Proof.Machine

open Sys2Proof

/-- How many numbers below `n` satisfy `p`. -/
def countBelow (n : Nat) (p : Nat → Bool) : Nat := (List.range n).foldl (fun (k : Nat) i => if p i then k + 1 else k) 0

/-- `LAST_H`: the operating time of the latest of some events, in whole hours. -/
def lastHour (ts : List Nat) : Nat := (ts.foldl max 0) / 3600000

/-- `CHK_CORE[c]` (R271). -/
def State.viewChkCore (s : State) (c : Nat) : BitVec 64 :=
  let u (k : Nat) : Nat := coreUnit c k
  BitVec.ofNat 64 <| F.CHK_CORE.MXA_ST.at (s.unitState (u 0)) + F.CHK_CORE.CKL_ST.at (s.unitState (u 1)) +
    F.CHK_CORE.VEC_ST.at (s.unitState (u 2)) + F.CHK_CORE.SFU_ST.at (s.unitState (u 3)) + F.CHK_CORE.RET.at (s.retire c) +
    F.CHK_CORE.MXA_N.at (s.recentEvents (u 0)) + F.CHK_CORE.CKL_N.at (s.recentEvents (u 1)) +
    F.CHK_CORE.VEC_N.at (s.recentEvents (u 2)) + F.CHK_CORE.SFU_N.at (s.recentEvents (u 3)) +
    F.CHK_CORE.LAST_H.at (lastHour ([0, 1, 2, 3].flatMap fun k => (s.hist (u k)).times))

/-- `CHK_EUNIT[n]`. -/
def State.viewEunit (s : State) (n : Nat) : BitVec 64 :=
  let u := 1152 + n
  BitVec.ofNat 64 <| F.CHK_EUNIT.ST.at (s.unitState u) + F.CHK_EUNIT.OUT.at (b2n (s.hist u).perm) +
    F.CHK_EUNIT.N.at (s.recentEvents u) + F.CHK_EUNIT.LAST_H.at (lastHour (s.hist u).times)

/-- `CHK_STATUS`. -/
def State.viewChkStatus (s : State) : BitVec 64 :=
  let busy (c : Nat) : Bool := (s.core c).tile.isSome || (s.core c).arbFor.isSome
  BitVec.ofNat 64 <| F.CHK_STATUS.RETIRED.at (countBelow 288 fun c => s.retire c == 2) +
    F.CHK_STATUS.PENDING.at (countBelow 288 fun c => s.retire c == 1) + F.CHK_STATUS.IN_ARB.at (countBelow 288 busy)

/-- `LNK_STATUS`. -/
def State.viewLnkStatus (s : State) : BitVec 64 :=
  BitVec.ofNat 64 <| F.LNK_STATUS.LANES_UP.at (countBelow 180 fun n => s.laneState n == lsUP) +
    F.LNK_STATUS.W0_UP.at (countBelow 24 s.chanUp) + F.LNK_STATUS.CIRC_UP.at (countBelow 512 s.circUp) +
    F.LNK_STATUS.INC.at s.lk.inc

/-- `LNK_CIRC[c]`. -/
def State.viewLnkCirc (s : State) (c : Nat) : BitVec 64 :=
  let x := s.circ c
  let w := F.LNK_CIRC.LANES.put (s.rreg .LNK_CIRC c) (min 15 x.lanes.length)
  let w := F.LNK_CIRC.FAR_INC_VALID.put w (b2n x.far.isSome)
  F.LNK_CIRC.FAR_INC.put w (x.far.getD 0)

/-- `LNK_LANE[n]`: wavelength and port by R434. -/
def State.viewLane (s : State) (n : Nat) : BitVec 64 :=
  let w := s.rreg .LNK_LANE n
  if n < 180 then F.LNK_LANE.PORT.put (F.LNK_LANE.WL.put w (n / 12 + 1)) (n % 12) else F.LNK_LANE.PORT.put w (n - 180)

/-- `PTH_STATUS`. -/
def State.viewPthStatus (s : State) : BitVec 64 :=
  let w := F.PTH_STATUS.USED.put (s.rreg .PTH_STATUS 0) (countBelow 512 fun i => s.ctype i != 0)
  let w := F.PTH_STATUS.THRU.put w (countBelow 512 fun i => s.ctype i == ptyTHRU || s.ctype i == ptyBACKUP)
  F.PTH_STATUS.ACTIVE.put w s.pathActive

/-- `LAT_PORT[p]`. -/
def State.viewPort (s : State) (p : Nat) : BitVec 64 :=
  let w := F.LAT_PORT.W0_UP.put (s.rreg .LAT_PORT p) (b2n (s.chanUp p))
  let used (f : PPath → Nat) : Nat := (((s.path.planes.filter fun x => f x == p).map PPath.plane).eraseDups).length
  F.LAT_PORT.OUT_USED.put (F.LAT_PORT.IN_USED.put w (used PPath.inp)) (used PPath.outp)

/-- `LAT_PLANE[w]`. -/
def State.viewPlane (s : State) (w : Nat) : BitVec 64 :=
  if w = 0 then 0
  else
    let mine := s.path.planes.filter fun x => x.plane == w
    let v := F.LAT_PLANE.LIT.put (s.rreg .LAT_PLANE w) (mine.filter PPath.lit).length
    let v := F.LAT_PLANE.HELD.put v (mine.filter fun x => !x.lit).length
    F.LAT_PLANE.DROP_FREE.put v ((List.range 12).foldl (fun (n : Nat) d =>
      if mine.any fun x => x.inp == 24 + d || x.outp == 24 + d then n else n + 2 ^ d) 0)

/-- `LAT_HINGE[w][s]`: planes 1 to 15, stages 0 to 8; the other offsets of the array are undefined and read 0 (R11). -/
def State.viewHinge (s : State) (k : Nat) : BitVec 64 :=
  let w := k / 16
  let st := k % 16
  let bad := decide (1 ≤ w) && decide (st < 9) && (List.range 20).any fun i => s.flag F.HCE_LOOP_STAT.DEGRADED ((w - 1) * 180 + st * 20 + i)
  if w = 0 ∨ 9 ≤ st then 0 else F.LAT_HINGE.DEGRADED.put (s.rreg .LAT_HINGE k) (b2n bad)

/-- `HCE_STATUS`. -/
def State.viewHce (s : State) : BitVec 64 :=
  let loops (v : Nat) : Nat := countBelow 3148 fun i => s.hceState i == v
  let rate (v : Nat) : Nat := countBelow 21 fun g => s.rd F.HCE_GRP.RATE g == v
  BitVec.ofNat 64 <| F.HCE_STATUS.RUN.at (s.rd F.HCE_STATUS.RUN) + F.HCE_STATUS.CLOSED.at (loops hsCLOSED) +
    F.HCE_STATUS.FB_HOLD.at (loops hsFB_HOLD) + F.HCE_STATUS.HOLD.at (loops hsHOLD) + F.HCE_STATUS.GRP_HALF.at (rate grHALF) +
    F.HCE_STATUS.GRP_HOLD.at (rate grHOLD) + F.HCE_STATUS.RAMPING.at (loops hsRAMP)

/-- `EVR_STATUS` and `EVR_RING`. -/
def State.viewEvr (s : State) : BitVec 64 :=
  BitVec.ofNat 64 <| F.EVR_STATUS.NEWEST.at ((s.evr.seq + 2 ^ 32 - 1) % 2 ^ 32) + F.EVR_STATUS.BUF_USED.at s.evr.buf.length +
    F.EVR_STATUS.LATCHED.at (b2n s.evr.latched) + F.EVR_STATUS.COALESCING.at (b2n s.evr.coalescing) +
    F.EVR_STATUS.FLUSHING.at (b2n s.evr.flushing)

def State.viewRing (s : State) : BitVec 64 :=
  BitVec.ofNat 64 <| F.EVR_RING.OLDEST.at s.evr.oldest + F.EVR_RING.USED.at s.evr.ring.length + F.EVR_RING.BAD.at s.evr.bad.length

/-- The key of a quantity. -/
def ageKey (kind index : Nat) : Nat := kind * 4096 + index
/-- Quantities of a kind (Table 17-3). -/
def ageCount (kind : Nat) : Nat :=
  if kind = 0 then 2700 else if kind = 1 then 16 else if kind = 2 then 24 else if kind = 3 then 4 else if kind = 4 then 16 else 0

/-- A quantity's manufacture value: what is kept, else the calibration tables'; that of LPDDR6 is the first training's (R741). -/
def AgeItem.made (x : AgeItem) (kind index : Nat) : Nat :=
  x.mfg.getD (if kind = 4 then 0 else (Config.ageManufacture (ageKey kind index)).toNat)

/-- `AGE_DATA`, of the quantity that `AGE_SEL` names; a value never measured reads 0. -/
def State.viewAge (s : State) : BitVec 64 :=
  let k := s.rd F.AGE_SEL.KIND
  let i := s.rd F.AGE_SEL.INDEX
  if ageCount k ≤ i then 0
  else
    let x := kget s.age.items (ageKey k i) AgeItem.init
    BitVec.ofNat 64 <| F.AGE_DATA.MFG.at (x.made k i) + F.AGE_DATA.LATEST.at x.latest + F.AGE_DATA.AT_REPLAN.at (x.plans.head?.getD 0) +
      F.AGE_DATA.STATE.at x.state

/-- The blocks held in an image slot, its manifest included. -/
def State.blocksHeld (s : State) (k : Nat) : Nat := (s.image k).blocks.length

/-- The slot that a transfer fills (R713): neither the confirmed slot nor on trial. -/
def State.targetSlot (s : State) : Nat := 1 - s.confSlot

/-- What a read of instance `i` of register `r` returns. -/
def State.view (s : State) (r : Reg) (i : Nat) : BitVec 64 :=
  match r with
  | .CHK_CORE => s.viewChkCore i
  | .CHK_EUNIT => s.viewEunit i
  | .CHK_STATUS => s.viewChkStatus
  | .QDB_STATUS => BitVec.ofNat 64 (F.QDB_STATUS.RESIDENT.at s.resident.length + F.QDB_STATUS.ALU_LIVE.at s.aluLive.length)
  | .QDB_EVT_VAL => s.event (s.rd F.QDB_EVT_SEL.SLOT) (s.rd F.QDB_EVT_SEL.EVENT)
  | .LNK_STATUS => s.viewLnkStatus
  | .LNK_CIRC => s.viewLnkCirc i
  | .LNK_CIRC_SEQ => BitVec.ofNat 64 (F.LNK_CIRC_SEQ.TX_NEXT.at (s.circ i).tx + F.LNK_CIRC_SEQ.RX_EXPECT.at (s.circ i).e)
  | .LNK_LANE => s.viewLane i
  | .PTH_STATUS => s.viewPthStatus
  | .LAT_PORT => s.viewPort i
  | .LAT_PLANE => s.viewPlane i
  | .LAT_HINGE => s.viewHinge i
  | .PTH_RT_STATUS =>
    F.PTH_RT_STATUS.BOUND.put (F.PTH_RT_STATUS.USED.put (s.rreg r i) s.rtUsed) (s.routes.filter fun e => e.2.bound.isSome).length
  | .HCE_STATUS => s.viewHce
  | .HCE_GRP => F.HCE_GRP.LANE.put (s.rreg r i) (groupLane i)
  | .HCE_XT => if i = 0 then 0 else s.rreg r i
  | .TIM_CIRC_DLY => s.circDly i
  | .TIM_PORT => F.TIM_PORT.PTP_ROLE.put (s.rreg r i) (s.ptpRole i)
  | .EVR_STATUS => s.viewEvr
  | .EVR_RING => s.viewRing
  | .AGE_DATA => s.viewAge
  | .UPD_XFER => F.UPD_XFER.HELD.put (s.rreg r i) (s.blocksHeld s.targetSlot)
  | .RST_STATUS => F.RST_STATUS.CHIP_RECENT.put (s.rreg r i) (min s.recentChip.length 15)
  | .RST_MIRROR_STATUS =>
    let w := F.RST_MIRROR_STATUS.PRIMARY.put (s.rreg r i) (s.rd F.MEM_MIRROR_CFG.EN)
    F.RST_MIRROR_STATUS.BUDDY.put w (b2n (s.ms.regions.any fun x => x.2.mirTgt))
  | .ORQ_ASYNC_DONE =>
    F.ORQ_ASYNC_DONE.OUTSTANDING.put (s.rreg r i) (s.mb.tickets.foldl (fun (n : Nat) t => n + 2 ^ t.1) 0)
  | _ => s.viewCore r i

/-- What a BAR0 read of `width` bytes returns (R8, R11, R119, R658, R659): all ones for a register that is not served, 0 for an
offset that no table defines. -/
def State.hostRead (s : State) (off width : Nat) : Nat :=
  let ones := 2 ^ (8 * width) - 1
  if !accessOk off width then ones
  else if s.rd F.RST_STATUS.PHASE < 2 then ones
  else if inRequestArea off then leNat (memBytes s.mb.req (off - 0x10000) width)
  else if inResponseArea off then leNat (memBytes s.mb.rsp (off - 0x11000) width)
  else if ((windowCore off).map fun c => (s.quarter (coreQuarter c)).inReset).getD false then ones
  else (accessParts off width).foldl (fun (n : Nat) p =>
    n + (if s.served p.1 then (s.view p.1 p.2.1).toNat / 2 ^ p.2.2.1 % 2 ^ 32 else 2 ^ 32 - 1) * 2 ^ p.2.2.2) 0

end Sys2Proof.Machine
end

