-- ==== Sys2Proof/Machine/Mailbox.lean ====
section
/-! DEFINITION. The Orquin mailbox (spec/14_orquin_mailbox_and_configuration.md): form of requests, responses, tickets,
and the commands of Table 14-5 beside configuration and wiring plans. -/

namespace Sys2Proof.Machine

open Sys2Proof

def evMbTimeout : Nat := 0x0E01
def evSyncUnknown : Nat := 0x0E06

/-! ### Requests (R629) -/

/-- Bytes `a` to `b - 1` of a payload are 0. -/
def zeroBytes (p : List (BitVec 8)) (a b : Nat) : Bool := ((p.take b).drop a).all fun x => x == 0

/-- The bytes that Table 14-5 leaves reserved in a `PATH_REQ`. -/
def pathReqOk (p : List (BitVec 8)) : Bool :=
  let op := leAt p 0 1
  decide (0x50 ≤ op) && decide (op ≤ 0x53) && zeroBytes p 1 8 && zeroBytes p 18 24 && (op == 0x52 || zeroBytes p 24 30)

/-- `CMD` is one of Table 14-4. -/
def knownCmd (c : Nat) : Bool :=
  [0x0001, 0x0002, 0x0100, 0x0101, 0x0102, 0x0200, 0x0201, 0x0202, 0x0203, 0x0204, 0x0300, 0x0301, 0x0302, 0x0400, 0x0500,
    0x0600, 0x0601, 0x0700, 0x0701, 0x0702, 0x0703, 0x0800, 0x0801, 0x0900, 0x0901, 0x0A00].contains c

/-- The third check of R629, with the code fields within the payload that Tables 14-5, 15-12 and 16-3 limit. -/
def payloadOk (cmd : Nat) (p : List (BitVec 8)) : Bool :=
  let n := p.length
  if cmd = 0x0002 then n == 1
  else if cmd = 0x0100 then n == 7 && decide (leAt p 1 1 < 16)
  else if cmd = 0x0101 then n == 2 && decide (leAt p 1 1 < 16)
  else if cmd = 0x0102 then n == 64
  else if cmd = 0x0200 then
    decide (24 ≤ n) && n % 24 == 0 && (List.range (n / 24)).all fun k => zeroBytes p (24 * k + 5) (24 * k + 8)
  else if cmd = 0x0201 then n == 2
  else if cmd = 0x0204 then n == 4 && zeroBytes p 1 2 && decide (leAt p 0 1 < 3)
  else if cmd = 0x0300 then n == 12
  else if cmd = 0x0400 then n == 30 && pathReqOk p
  else if cmd = 0x0600 then decide (464 ≤ n) && zeroBytes p 3 4 && decide (1 ≤ leAt p 0 2) && decide (leAt p 0 2 ≤ 8)
  else if cmd = 0x0701 then
    n == 28 && zeroBytes p 25 26 && decide (leAt p 24 1 < 2) && decide (1 ≤ leAt p 14 2) && decide (leAt p 14 2 ≤ 24576)
  else if cmd = 0x0900 then n == 4 && decide (3 ≤ leAt p 0 1) && decide (leAt p 0 1 ≤ 6)
  else if cmd = 0x0901 then n == 1 && decide (leAt p 0 1 < 2)
  else if cmd = 0x0A00 then n == 1 && decide (leAt p 0 1 < 4)
  else n == 0

/-- The first failure of R629. -/
def Req.refuse (q : Req) : Option Nat :=
  if 4080 < q.len ∨ q.rsvd ≠ 0 then some stPOLICY
  else if !knownCmd q.cmd then some stNOTFOUND
  else if !payloadOk q.cmd q.payload then some stPOLICY
  else none

/-- The request that the service core has taken and not answered, where its `CMD` is `cmd`. -/
def State.taking (s : State) (cmd : Nat) : Option Req :=
  match s.mb.taken with
  | some q => if q.cmd = cmd ∧ s.mb.resp = none ∧ q.refuse = none then some q else none
  | none => none

/-- The service core answers; `MAILBOX_RESPONSE` places the answer. -/
def State.answer (s : State) (status : Nat) (detail : Nat := 0xFFFF) (payload : List (BitVec 8) := []) : State :=
  { s with mb.resp := some ⟨status, 0xFF, detail, payload⟩ }

/-- A command acts on a request of its code that passes R629. -/
def State.serve (s : State) (cmd : Nat) (f : List (BitVec 8) → State → State) : State :=
  match s.taking cmd with
  | some q => f q.payload s
  | none => s

/-- The lowest-numbered free ticket (R630). -/
def State.freeTicket (s : State) : Option Nat := (List.range 16).find? fun t => (kfind s.mb.tickets t).isNone

/-- Deferred work of a command starts on a ticket, or is answered `BUSY` where none is free (R630). -/
def State.accept (s : State) (cmd : Nat) (work : Nat → State → State) : State :=
  match s.freeTicket with
  | none => s.answer stBUSY
  | some t =>
    work t { s with
      mb.tickets := kset s.mb.tickets t ⟨cmd, none, false⟩
      mb.resp := some ⟨stACCEPTED, t, 0xFFFF, []⟩ }

/-! ### Responses and tickets -/

/-- The answer of R629 to the taken request, if the service core has given none. -/
def State.dueResp (s : State) (q : Req) : Option Resp :=
  match s.mb.resp with
  | some r => some r
  | none => q.refuse.map fun st => ⟨st, 0xFF, 0xFFFF, []⟩

/-- MAILBOX_RESPONSE: the answer is placed (R625); a request that fails R629 is answered with its first failure. -/
def execMailboxResponse (s : State) : Result :=
  .next <| match s.mb.taken with
    | none => s
    | some q => match s.dueResp q with
      | some r => s.placeResp q r
      | none => s

/-- MAILBOX_TIMEOUT: 100 ms without an answer (R628); what the service core answers later is discarded. -/
def execMailboxTimeout (s : State) : Result :=
  .next <| match s.mb.taken with
    | none => s
    | some q => (s.placeResp q ⟨stTIMEOUT, 0xFF, 0xFFFF, []⟩).note evMbTimeout 1 0xC 0 [q.cmd, q.tag]

/-- DEFERRED_WORK_END: the keeper posts a ticket whose work has ended (R630). -/
def execDeferredWorkEnd (ticket : Nat) (s : State) : Result :=
  .next <| match kfind s.mb.tickets ticket with
    | none => s
    | some k =>
      if k.result.isSome ∧ !k.posted then
        let s := s.postTicket ticket
        if s.flag F.ORQ_MB_CFG.IRQ_EN then s.emit (.msix (s.rd F.ORQ_MB_CFG.ASYNC_VEC)) else s
      else s

/-- The version of a part in the running image (Table 16-6). -/
def State.partVersion (s : State) (part : Nat) : Nat :=
  let m := s.manifest s.upd.boot.running
  match (List.range 5).find? fun i => leAt m (64 + 48 * i) 1 == part with
  | some i => leAt m (64 + 48 * i + 12) 4
  | none => 0

/-- GET_INFO (R634). -/
def execGetInfo (s : State) : Result :=
  .next <| s.serve 0x0001 fun _ s => s.answer stOK 0xFFFF <|
    leBytes 4 (s.partVersion 1) ++ leBytes 4 (s.partVersion 2) ++ leBytes 4 (s.partVersion 3) ++ leBytes 4 (s.partVersion 4) ++
      leBytes 2 ((s.mb.cur.map CfgRecord.ver).getD 0) ++ leBytes 2 ((s.topo.cur.map Plan.ver).getD 0) ++
      leBytes 1 (s.rd F.ORQ_HB_STATUS.ALIVE)

/-- GET_RESULT (R631). -/
def execGetResult (s : State) : Result :=
  .next <| s.serve 0x0002 fun p s =>
    let t := leAt p 0 1
    if 15 < t then s.answer stPOLICY
    else match kfind s.mb.tickets t with
      | none => s.answer stNOTFOUND
      | some k => match k.result with
        | none => s.answer stBUSY
        | some r =>
          ({ s with mb.tickets := kdel s.mb.tickets t }).wr F.ORQ_ASYNC_DONE.DONE
            (putBit (s.rd F.ORQ_ASYNC_DONE.DONE) t false) |>.answer r.status r.detail r.payload

/-! ### Contexts -/

/-- A partition is out of service (R331): a quarter's `Q_LIVE` bit is 0, or it is taken out under R116. -/
def State.partOut (s : State) (p : Nat) : Bool :=
  (s.partQuarters p).any fun q => !bitOf (s.rd F.ID_CAP.Q_LIVE) q || (s.quarter q).outOfSvc

/-- A partition is unavailable for a time (R331): in reset, or held gated for the coolant. -/
def State.partAway (s : State) (p : Nat) : Bool := s.pwr.coolStop || (s.partQuarters p).any fun q => (s.quarter q).inReset

/-- Two quarter store shares overlap. -/
def sharesMeet (a n b m : Nat) : Bool := decide (0 < n) && decide (0 < m) && overlap a n b m

/-- The status of R331 for a creation, or none where it is accepted. -/
def State.createStatus (s : State) (id part first mib : Nat) : Option Nat :=
  if 256 ≤ s.resident.length then some stBUSY
  else if (s.slotOf id).isSome ∨ !s.partExists part then some stPOLICY
  else if s.partOut part then some stPOLICY
  else if s.partAway part then some stBUSY
  else if 80 < first + mib then some stPOLICY
  else if s.resident.any fun n => s.ctxPart n == part && sharesMeet first mib (s.ctx n).qsFirst (s.ctx n).qsMib then some stPOLICY
  else none

/-- The share is zeroed in quarter `q`, with valid check bits (R168). -/
def State.zeroShare (s : State) (first mib q : Nat) : State :=
  let a := quarterStoreBase q + first * 2 ^ 20
  let n := mib * 2 ^ 20
  let s := s.memClear a n
  { s with ms.poison := s.ms.poison.filter fun g => !overlap (g.1 * 64) 64 a n }

/-- The registers of slot `slot` take their reset values (R333). -/
def State.resetSlot (s : State) (slot : Nat) : State :=
  s.resetRegs fun r i =>
    ((r == Reg.QDB_CTX || r == Reg.QDB_ERR || r == Reg.QDB_ERR_ADDR) && i == slot) ||
      ((r == Reg.QDB_TAIL || r == Reg.QDB_HEAD || r == Reg.QDB_QBASE || r == Reg.QDB_QCFG) && i / 8 == slot)

/-- A context is made in a slot (R330, R333). -/
def State.createCtx (s : State) (slot id job part first mib : Nat) : State :=
  let s := (s.partQuarters part).foldl (fun (s : State) q => s.zeroShare first mib q) (s.resetSlot slot)
  let s := { s with
    eng.ctxs := kset s.eng.ctxs slot ⟨first, mib, s.opMs, s.rd F.RST_CFG.CTX_WD_S⟩
    eng.events := s.eng.events.filter fun e => e.1 / 64 != slot
    eng.queues := s.eng.queues.filter fun q => q.1 / 8 != slot }
  s |>.wr F.QDB_CTX.CTX_ID id slot
    |>.wr F.QDB_CTX.JOB_ID job slot
    |>.wr F.QDB_CTX.PART part slot
    |>.wr F.QDB_CTX.STATE ctxACTIVE slot

/-- CTX_CREATE (R330, R331, R333). -/
def execCtxCreate (s : State) : Result :=
  .next <| s.serve 0x0100 fun p s =>
    let id := leAt p 0 2
    let part := leAt p 4 1
    let first := leAt p 5 1
    let mib := leAt p 6 1
    match s.createStatus id part first mib with
    | some st => s.answer st
    | none => match (List.range 256).find? fun n => s.ctxState n == ctxFree with
      | some slot => (s.createCtx slot id (leAt p 2 2) part first mib).orqMirror.answer stOK 0xFFFF (leBytes 1 slot)
      | none => s.answer stBUSY

/-- The ticket of a removal. -/
def Removal.withTicket (r : Removal) (t : Nat) : Removal := { r with ticket := some t }

/-- CTX_REMOVE (R634, R666): the removal begins, or one in progress takes the ticket. -/
def execCtxRemove (s : State) : Result :=
  .next <| s.serve 0x0101 fun p s =>
    match s.slotOf (leAt p 0 2) with
    | none => s.answer stNOTFOUND
    | some slot => match s.removal slot with
      | none => s.accept 0x0101 fun t s => s.callRemoval slot (Config.eventCode 32) (some t)
      | some r =>
        if r.ticket.isSome then s.answer stBUSY
        else s.accept 0x0101 fun t s => s.setRemoval slot fun x => x.withTicket t

/-! ### Path requests and the proof test -/

/-- `PATH_REQ` with an opcode (R503 to R505, R634). The list must lie 32-aligned in this module's LPDDR6; its owner is job 0. -/
def State.pathReq (s : State) (op : Nat) : State :=
  s.serve 0x0400 fun p s =>
    let a := leAt p 8 8
    let n := leAt p 16 2
    let off := bitsOf a 41 0
    if leAt p 0 1 ≠ op then s
    else if n = 0 ∨ 512 < n ∨ a % 32 ≠ 0 ∨ !s.isLocalAddr a ∨ generalUse < off + 32 * n then s.answer stPOLICY
    else s.accept 0x0400 fun t s => s.openList ⟨.mailbox t, op, leAt p 24 6, off, readRequests (s.memRead off (32 * n)), false⟩

def execPathReqSetup (s : State) : Result := .next (s.pathReq 0x50)
def execPathReqTeardown (s : State) : Result := .next (s.pathReq 0x51)
def execPathReqRecable (s : State) : Result := .next (s.pathReq 0x52)
def execPathReqQuery (s : State) : Result := .next (s.pathReq 0x53)

/-- PROOF_TEST: the test starts on a ticket, or is rejected (R52, R57, R58). -/
def execProofTest (s : State) : Result :=
  .next <| s.serve 0x0500 fun _ s =>
    if (s.startProof none).isNone then s.answer stPOLICY
    else s.accept 0x0500 fun t s => (s.startProof (some t)).getD s

/-! ### Placement (R396 to R400, R640) -/

/-- A placement that needs a partner has its record: the map is written and the circuit requested, or it fails. -/
def State.placePartner (s : State) (job : Nat) (rec : List (BitVec 8)) : State :=
  match kfind s.place.jobs job with
  | none => s
  | some p =>
    if s.partnerMismatch p.record rec then s.placeFail job stPOLICY 0x08
    else
      let s := if p.mode = 2 then s.writeMap p else s
      let s := { s with place.jobs := kset s.place.jobs job { p with phase := .circuit } }
      let bs := leBytes 2 (plPartner p.record) ++ leBytes 1 (plPlanes p.record) ++ leBytes 1 4 ++ leBytes 12 0
      s.openList ⟨.placement job, 0x50, 0, 0, [⟨bs, false, none, none, []⟩], false⟩

/-- The record that partner `n` sent within the last second (R640). -/
def State.heldRecord (s : State) (n job : Nat) : Option HeldRec :=
  s.place.recs.find? fun r => r.src == n && plJob r.record == job && decide (s.opMs ≤ r.born + 1000)

/-- A placement passes rows 1 to 7 of Table 8-2. -/
def State.placeStart (s : State) (r : List (BitVec 8)) (t : Nat) : State :=
  let job := plJob r
  let mode := plMode r
  let (frames, map) := if mode = 2 then (s.overflowPlace r).getD (0, 0) else (0, 0)
  let spans := if mode = 2 then [(frames, plR r), (map, plMapBytes r)] else []
  let s := { s with place.jobs := kset s.place.jobs job ⟨r, t, mode, frames, map, spans, .partner, s.opMs, none⟩ }
  if mode = 1 then s.placeOk job 0xFFFF
  else
    let n := plPartner r
    let s := s.pmsg n pkSYNC 2 1 (r.take 40)
    match s.heldRecord n job with
    | some h => ({ s with place.recs := s.place.recs.filter fun x => !(x.src == n && plJob x.record == job) }).placePartner job h.record
    | none => s

/-- A placement of the job is at work. -/
def State.placing (s : State) (job : Nat) : Bool := ((kfind s.place.jobs job).map fun p => p.phase != .held).getD false

/-- PLACEMENT (R396). -/
def execPlacement (s : State) : Result :=
  .next <| s.serve 0x0102 fun p s =>
    if s.placing (plJob p) then s.answer stBUSY
    else match s.placeCheck p with
      | some (st, reason) => s.answer st reason (placeRefusal reason)
      | none => s.accept 0x0102 fun t s => s.placeStart p t

/-- PARTNER_RECORD (R640): it meets a placement that waits for it, or is held for 1 s. -/
def execPartnerRecord (src : Nat) (rec : List Nat) (s : State) : Result :=
  .next <|
    let bs := rec.map (BitVec.ofNat 8)
    match s.place.jobs.find? fun p => p.2.phase == .partner && plPartner p.2.record == src && (p.1 == plJob bs) with
    | some p => s.placePartner p.1 bs
    | none =>
      match s.place.jobs.find? fun p => p.2.phase == .partner && plPartner p.2.record == src with
      | some p => s.placePartner p.1 bs
      | none => { s with place.recs := (s.place.recs.filter fun x => decide (s.opMs ≤ x.born + 1000)) ++ [⟨src, s.opMs, bs⟩] }

/-- The placement that has waited longest for its partner. -/
def State.oldestPlacing (s : State) : Option Nat :=
  ((s.place.jobs.filter fun p => p.2.phase == .partner).foldl (fun (o : Option (Nat × Nat)) p => match o with
    | some (t, _) => if p.2.since < t then some (p.2.since, p.1) else o
    | none => some (p.2.since, p.1)) none).map Prod.snd

/-- PARTNER_SILENT: no record within 1 s (Table 8-2, row 8). -/
def execPartnerSilent (s : State) : Result :=
  .next <| match s.oldestPlacing with
    | some job => s.placeFail job stTIMEOUT 0x07
    | none => s

/-! ### The recorder's latch (R738, R739) -/

/-- EVR_LATCH. -/
def execEvrLatch (s : State) : Result :=
  .next <| s.serve 0x0800 fun _ s =>
    let pay := leBytes 4 s.evr.oldest ++ leBytes 4 s.evr.newest ++ leBytes 4 s.evr.ring.length
    let s := if s.evr.latched then s
      else ({ s with evr.latched := true, evr.flushing := false }).note evLatched 0 0 0 [s.evr.newest]
    s.answer stOK 0xFFFF pay

/-- EVR_RELEASE. -/
def execEvrRelease (s : State) : Result :=
  .next <| s.serve 0x0801 fun _ s => if s.evr.latched then (s.releaseLatch 0).answer stOK else s.answer stNOTFOUND

/-! ### Reset requests and evacuation (R685 to R687) -/

/-- The action that a `RESET_REQ` payload asks for. -/
def resetAction (p : List (BitVec 8)) (t : Nat) : Action where
  cls := leAt p 0 1
  engine := if leAt p 0 1 = 3 then leAt p 1 1 else 0
  part := if leAt p 0 1 = 4 then leAt p 1 1 else 0
  cause := Config.eventCode 31
  ctx := none
  kind := if leAt p 0 1 = 3 then 3 else if leAt p 0 1 = 4 then 2 else 0xC
  index := if leAt p 0 1 ≤ 4 then leAt p 1 1 else 0
  mode := leAt p 2 1
  noDump := bitOf (leAt p 3 1) 0
  ticket := if leAt p 0 1 ≤ 4 then some t else none
  auto := false

/-- A requested action joins the queue of R673: it starts where nothing runs, and is subsumed by an action that holds its
target. -/
def State.requestAction (s : State) (a : Action) : State :=
  match s.rst.running with
  | none => s.startAction a
  | some r => if a.inside r.act then (s.reportLast a 2 false 0).endWork a.ticket stINTERNAL r.act.cls else s.waitAction r a

/-- The module is held under R670. -/
def State.heldDown (s : State) : Bool :=
  match s.rst.running with
  | some r => r.phase == .held
  | none => false

/-- A held module goes on: its power cycle action ends. -/
def State.endHold (s : State) : State :=
  match s.rst.running with
  | some r => if r.phase = .held then s.finishAction r else s
  | none => s

/-- An invalid field of Table 15-12. -/
def State.resetBad (s : State) (p : List (BitVec 8)) : Bool :=
  let step := leAt p 0 1
  let target := leAt p 1 1
  decide (2 ≤ leAt p 3 1) || (step == 3 && decide (4 < target)) || (step == 4 && !s.partExists target) ||
    (decide (5 ≤ step) && target != 0) || (step == 5 && decide (2 < leAt p 2 1)) || (step != 5 && leAt p 2 1 != 0)

/-- An action of SEV5 or SEV6 runs or is queued. -/
def State.bigAction (s : State) : Bool :=
  (match s.rst.running with
  | some r => decide (5 ≤ r.act.cls) && r.phase != .held
  | none => false) || s.rst.queue.any fun a => decide (5 ≤ a.cls)

/-- `RESET_REQ` with a `STEP` (R687). -/
def State.resetReq (s : State) (step : Nat) : State :=
  s.serve 0x0900 fun p s =>
    if leAt p 0 1 ≠ step then s
    else if s.resetBad p then s.answer stPOLICY
    else if step = 5 ∧ leAt p 2 1 = 1 ∧ !s.unlocked then s.answer stAUTH
    else if s.bigAction then s.answer stBUSY
    else s.accept 0x0900 fun t s => s.endHold.requestAction (resetAction p t)

def execResetReqEngine (s : State) : Result := .next (s.resetReq 3)
def execResetReqPartition (s : State) : Result := .next (s.resetReq 4)
def execResetReqChip (s : State) : Result := .next (s.resetReq 5)
def execResetReqPowerCycle (s : State) : Result := .next (s.resetReq 6)

/-- EVACUATE with `OP` 0 (R685). -/
def execEvacuate (s : State) : Result :=
  .next <| s.serve 0x0901 fun p s =>
    if leAt p 0 1 ≠ 0 then s
    else if s.peers.evac.isSome then s.answer stBUSY
    else s.accept 0x0901 fun t s =>
      let s := (s.wr F.RST_STATUS.EVACUATED 1).sendHb
      let s := { s with peers.evac := some (some t, s.transit.length) }
      ((s.askEvacuate (fun _ => true) false).kick).evacCheck

/-- EVACUATE with `OP` 1. -/
def execEvacuateClear (s : State) : Result :=
  .next <| s.serve 0x0901 fun p s =>
    if leAt p 0 1 ≠ 1 then s
    else s.accept 0x0901 fun t s => (s.wr F.RST_STATUS.EVACUATED 0).sendHb.endTicket t stOK 0xFFFF

/-- EVACUATE_TIMEOUT: 10 s have passed. -/
def execEvacuateTimeout (s : State) : Result := .next s.endEvac

/-! ### Messages between modules (R639) -/

/-- ORQ_SYNC_UNKNOWN: a `KEY` outside Table 14-6. -/
def execOrqSyncUnknown (src key : Nat) (s : State) : Result :=
  .next <| if 1 ≤ key ∧ key ≤ 3 then s else s.note evSyncUnknown 0 9 1 [src, key]

end Sys2Proof.Machine
end

