-- ==== Sys2Proof/Machine/Settings.lean ====
section
/-! DEFINITION. Stored configuration (R641 to R651) and wiring plans (R635). -/

namespace Sys2Proof.Machine

open Sys2Proof

def evCfgCommit : Nat := 0x0E03
def evCfgRevert : Nat := 0x0E04
def evCfgLoadFail : Nat := 0x0E05

/-! ### Persistent fields (R641) -/

/-- The registers of Table 14-7. -/
def persRegs : List Reg :=
  [.ID_PART_CFG, .ID_PWR_CFG, .CHK_CFG, .CHK_ST_CFG, .MEM_MIRROR_CFG, .PTH_CFG, .PTH_DISC_CFG, .TIM_CFG, .TIM_SERVO, .TIM_PORT,
    .MEM_CFG, .LNK_CFG, .QDB_CFG, .QDB_PART_SHARE]

/-- Their instances. -/
def persInsts : List (Reg × Nat) :=
  persRegs.flatMap fun r => if r.desc.stride = 0 then [(r, 0)] else (List.range r.desc.count).map fun i => (r, i)

/-- The persistent register at an offset, of a width in bytes. -/
def persAt (off width : Nat) : Option (Reg × Nat) :=
  match regAt off with
  | some (r, i) => if persRegs.contains r ∧ r.desc.width = 8 * width then some (r, i) else none
  | none => none

/-- Entry `k` of a payload (Table 14-8). -/
def readCfgEntry (p : List (BitVec 8)) (k : Nat) : CfgEntry :=
  ⟨leAt p (24 * k) 4, leAt p (24 * k + 4) 1, leAt p (24 * k + 8) 8, leAt p (24 * k + 16) 8⟩

/-- Its bytes. -/
def CfgEntry.bytes (e : CfgEntry) : List (BitVec 8) :=
  leBytes 4 e.off ++ leBytes 1 e.width ++ leBytes 3 0 ++ leBytes 8 e.value ++ leBytes 8 e.mask

/-- An entry that R644 refuses. -/
def CfgEntry.bad (e : CfgEntry) : Bool :=
  match persAt e.off e.width with
  | none => true
  | some (r, _) => BitVec.ofNat 64 e.mask &&& ~~~(rwMask r.fields) != 0

/-- The bits of `v` and of the mask that entry `e` replaces in entry `t`. -/
def CfgEntry.mergeOver (e t : CfgEntry) : CfgEntry :=
  let m := BitVec.ofNat 64 e.mask
  { t with
    value := ((BitVec.ofNat 64 t.value &&& ~~~m) ||| (BitVec.ofNat 64 e.value &&& m)).toNat
    mask := (BitVec.ofNat 64 t.mask ||| m).toNat }

/-- R644: an entry merges into a set; one with `MASK` 0 removes its offset. -/
def mergeEntry (set : List CfgEntry) (e : CfgEntry) : List CfgEntry :=
  if e.mask = 0 then set.filter fun t => t.off != e.off
  else if set.any fun t => t.off == e.off then set.map fun t => if t.off = e.off then e.mergeOver t else t
  else set ++ [{ e with value := (BitVec.ofNat 64 e.value &&& BitVec.ofNat 64 e.mask).toNat }]

/-- The word that a configuration gives a register: the bits of its entry, reset values elsewhere (R642). -/
def cfgWord (c : List CfgEntry) (r : Reg) (i : Nat) : BitVec 64 :=
  match c.find? fun e => e.off == r.off i with
  | none => resetWord r.fields
  | some e =>
    let m := BitVec.ofNat 64 e.mask
    (resetWord r.fields &&& ~~~m) ||| (BitVec.ofNat 64 e.value &&& m)

/-- The persistent fields in which two configurations differ, as a mask. -/
def changedMask (old new : List CfgEntry) (r : Reg) (i : Nat) : BitVec 64 :=
  let a := cfgWord old r i
  let b := cfgWord new r i
  r.fields.foldl (fun m f => if f.access = .rw ∧ f.of a ≠ f.of b then m ||| f.mask else m) 0

/-- The entries of a record. -/
def cfgEntries (c : Option CfgRecord) : List CfgEntry := (c.map CfgRecord.entries).getD []
def cfgVer (c : Option CfgRecord) : Nat := (c.map CfgRecord.ver).getD 0

/-- A change of a class Q register while its block runs (R646, step 3). -/
def State.cfgConflict (s : State) (old new : List CfgEntry) (r : Reg) (i : Nat) : Bool :=
  changedMask old new r i != 0 &&
    match r with
    | .MEM_CFG => s.resident != []
    | .MEM_MIRROR_CFG =>
      s.flag F.MEM_MIRROR_CFG.EN &&
        F.MEM_MIRROR_CFG.EN.of (writeWord r.fields (changedMask old new r i) (cfgWord new r i) (s.rreg r i)) == 1
    | _ => false

/-- Step 5 of R646: each changed field is written and takes effect by its class. -/
def State.applyChanges (s : State) (old new : List CfgEntry) : State :=
  persInsts.foldl (fun (s : State) x =>
    let m := changedMask old new x.1 x.2
    if m = 0 then s
    else
      let s := s.writeReg x.1 x.2 m (cfgWord new x.1 x.2)
      if x.1 = Reg.CHK_CFG then s.chkCommit else s) s

/-- The stored configuration is applied whole to the registers of a domain (R642). -/
def State.applyStored (s : State) (keeper : Bool) : State :=
  (persInsts.filter fun x => (x.1.desc.domain == .keeper) == keeper).foldl (fun (s : State) x =>
    let m := rwMask x.1.fields
    let w := (s.rreg x.1 x.2 &&& ~~~m) ||| (cfgWord (cfgEntries s.mb.cur) x.1 x.2 &&& m)
    if x.1 = Reg.MEM_MIRROR_CFG then s.setMirrorCfg w
    else if x.1 = Reg.CHK_CFG then (s.wreg x.1 w x.2).chkCommit
    else s.wreg x.1 w x.2) s

/-- An activation group is between `GO` and its end (R722). -/
def State.groupHolds (s : State) : Bool := s.rd F.UPD_STATE.GROUP_STATE == 2 || s.rd F.UPD_STATE.GROUP_STATE == 3

/-! ### Staging (R644, R645) -/

/-- CFG_STAGE. -/
def execCfgStage (s : State) : Result :=
  .next <| s.serve 0x0200 fun p s =>
    let es := (List.range (p.length / 24)).map (readCfgEntry p)
    match es.findIdx? CfgEntry.bad with
    | some k => s.answer stPOLICY k
    | none =>
      let set := es.foldl mergeEntry s.mb.staging
      if 512 < set.length then s.answer stPOLICY
      else ({ s with mb.staging := set }).reportCfg.answer stOK

/-- CFG_DISCARD. -/
def execCfgDiscard (s : State) : Result :=
  .next <| s.serve 0x0202 fun _ s => ({ s with mb.staging := [] }).reportCfg.answer stOK

/-! ### Commit and revert (R646 to R651) -/

/-- The first staged entry that conflicts. -/
def State.stagedConflict (s : State) (old new : List CfgEntry) : Option Nat :=
  s.mb.staging.findIdx? fun e => match persAt e.off e.width with
    | some (r, i) => s.cfgConflict old new r i
    | none => false

/-- The steps of R646 for version `v`. -/
def State.cfgCommit (s : State) (v t : Nat) (flashOk : Bool) : State :=
  let old := cfgEntries s.mb.cur
  let new := s.mb.staging.foldl mergeEntry old
  if !newer v (cfgVer s.mb.cur) then s.endTicket t stPOLICY 0xFFFF
  else match s.stagedConflict old new with
    | some k => s.endTicket t stRUNNING k
    | none =>
      if !flashOk then s.endTicket t stINTERNAL 0xFFFF
      else
        let from_ := cfgVer s.mb.cur
        let n := s.mb.staging.length
        let s := { s with mb.prev := s.mb.cur, mb.cur := some ⟨v, new⟩ }
        let s := s.applyChanges old new
        let s := ({ s with mb.staging := [] }).reportCfg
        (s.note evCfgCommit 0 9 1 [from_, v, n]).endTicket t stOK 0xFFFF

/-- CFG_COMMIT; `flashOk` tells whether the flash write succeeds. -/
def execCfgCommit (flashOk : Bool) (s : State) : Result :=
  .next <| s.serve 0x0201 fun p s =>
    if s.groupHolds then s.answer stBUSY
    else s.accept 0x0201 fun t s => s.cfgCommit (leAt p 0 2) t flashOk

/-- The steps of R649. -/
def State.cfgRevert (s : State) (t : Nat) : State :=
  match s.mb.prev with
  | none => s.endTicket t stNOTFOUND 0xFFFF
  | some r =>
    let old := cfgEntries s.mb.cur
    if persInsts.any fun x => s.cfgConflict old r.entries x.1 x.2 then s.endTicket t stRUNNING 0xFFFF
    else
      let from_ := cfgVer s.mb.cur
      let s := { s with mb.cur := some r, mb.prev := none }
      let s := (s.applyChanges old r.entries).reportCfg
      (s.note evCfgRevert 0 9 1 [from_, r.ver]).endTicket t stOK 0xFFFF (leBytes 2 r.ver)

/-- CFG_REVERT. -/
def execCfgRevert (s : State) : Result :=
  .next <| s.serve 0x0203 fun _ s =>
    if s.groupHolds then s.answer stBUSY else s.accept 0x0203 fun t s => s.cfgRevert t

/-- CFG_READ (Table 14-5). -/
def execCfgRead (s : State) : Result :=
  .next <| s.serve 0x0204 fun p s =>
    let which := leAt p 0 1
    let first := leAt p 2 2
    if which = 1 ∧ s.mb.prev.isNone then s.answer stNOTFOUND
    else
      let es := if which = 0 then cfgEntries s.mb.cur else if which = 1 then cfgEntries s.mb.prev else s.mb.staging
      let ver := if which = 1 then cfgVer s.mb.prev else cfgVer s.mb.cur
      let out := (es.drop first).take 169
      s.answer stOK 0xFFFF (leBytes 2 ver ++ leBytes 2 es.length ++ leBytes 2 out.length ++ leBytes 2 0 ++ out.flatMap CfgEntry.bytes)

/-! ### Wiring plans (R635) -/

/-- The plan's bytes, as far as the longest plan goes: host memory, or this module's LPDDR6; a failed read has a status that no
rule names. -/
def State.readPlanBytes (s : State) (a n : Nat) (hostData : List Nat) : Except Nat (List (BitVec 8)) :=
  let failed : Nat := openFailure (Config.word s.free)
  if bitOf a 63 then
    if s.ms.linkDown || s.pwr.perstLow || decide (hostData.length < n) then .error failed
    else .ok ((hostData.take n).map (BitVec.ofNat 8))
  else
    let off := bitsOf a 41 0
    let n := min n 168001
    if s.poisoned off n then .error failed else .ok (s.memRead off n)

/-- PLAN_LOAD. -/
def execPlanLoad (hostData : List Nat) (s : State) : Result :=
  .next <| s.serve 0x0300 fun p s =>
    let a := leAt p 0 8
    let n := leAt p 8 4
    if !(bitOf a 63 || (s.isLocalAddr a && decide (bitsOf a 41 0 + n ≤ dramTop))) then s.answer stPOLICY
    else s.accept 0x0300 fun t s =>
      let s := if bitOf a 63 then s.emit (.hostRead (bitsOf a 51 0) n) else s
      match s.readPlanBytes a n hostData with
      | .error st => s.tick.endTicket t st 0xFFFF
      | .ok bs => match s.planCheck bs with
        | some st => s.endTicket t st 0xFFFF
        | none =>
          let pl := readPlan bs
          let s := { s with topo.loaded := some pl }
          let s := if 96 < pl.blocks then s.note evPlanUnqualified 1 0 0 [pl.blocks] else s
          s.endTicket t stOK 0xFFFF

/-- PLAN_COMMIT. -/
def execPlanCommit (s : State) : Result :=
  .next <| s.serve 0x0301 fun _ s =>
    if s.groupHolds then s.answer stBUSY
    else s.accept 0x0301 fun t s => match s.topo.loaded with
      | none => s.endTicket t stNOTFOUND 0xFFFF
      | some pl =>
        if (match s.topo.cur with | some c => !newer pl.ver c.ver | none => false) then s.endTicket t stPOLICY 0xFFFF
        else ((({ s with topo.loaded := none }).adoptPlan (some pl) s.topo.cur).kick).endTicket t stOK 0xFFFF

/-- PLAN_REVERT. -/
def execPlanRevert (s : State) : Result :=
  .next <| s.serve 0x0302 fun _ s =>
    if s.groupHolds then s.answer stBUSY
    else s.accept 0x0302 fun t s => match s.topo.prev with
      | none => s.endTicket t stNOTFOUND 0xFFFF
      | some pl => ((s.adoptPlan (some pl) none).kick).endTicket t stOK 0xFFFF

end Sys2Proof.Machine
end

