-- ==== Sys2Proof/Machine/Watch.lean ====
section
/-! DEFINITION. Heartbeats and watchdogs (R636 to R638, R656, R660, R661), failed boots (R715), the lattice record (R681),
`HB` (R683, R684) and the mirror pair (R688 to R690). -/

namespace Sys2Proof.Machine

open Sys2Proof

def evCoreStall : Nat := 0x0E02

/-- The Orquin cores have been released: step 4 of Table 15-2 is due or done, outside `RECOVERY` and a hold (R655, R670, R716). -/
def State.orqReleased (s : State) : Bool := decide (2 ≤ s.rd F.RST_STATUS.PHASE) && s.mode != mRECOVERY && !s.heldDown

/-- HEARTBEAT (R636, R637). -/
def execHeartbeat (seq alive : Nat) (s : State) : Result :=
  .next <|
    if !s.orqReleased then s
    else
      let seq := seq % 256
      let alive := alive % 16
      let s := s.wr F.ORQ_HB_STATUS.ALIVE alive
      if alive ≠ 15 then
        if s.mb.hbStall then s else ({ s with mb.hbStall := true }).note evCoreStall 1 9 2 [alive, seq]
      else
        let s := { s with mb.hbStall := false }
        if s.mb.hbLast = some seq then s
        else
          let s := s |>.wr F.ORQ_HB_STATUS.SEQ seq
            |>.wr F.ORQ_HB_STATUS.MISSED 0
            |>.wr F.ORQ_HB_STATUS.COUNTING 1
          { s with mb.hbLast := some seq, mb.hbInPeriod := true, pwr.hbOut := !s.pwr.hbOut }

/-- WATCHDOG_PERIOD (R638, Table 15-3). -/
def execWatchdogPeriod (s : State) : Result :=
  .next <|
    if !s.flag F.ORQ_HB_STATUS.COUNTING ∨ s.flag F.ORQ_HB_STATUS.HANG then s
    else if s.mb.hbInPeriod then { s with mb.hbInPeriod := false }
    else
      let s := s.bumpSat F.ORQ_HB_STATUS.MISSED
      if s.rd F.ORQ_HB_STATUS.MISSED < 20 then s
      else (s.wr F.ORQ_HB_STATUS.HANG 1).record evOrqHang 5 9 2 [s.rd F.ORQ_HB_STATUS.ALIVE]

/-- KEEPER_WATCHDOG: keeper firmware restarts from ROM, and the mailbox answers `BUSY` for up to 300 ms, how long is a free value
(Table 15-3); the third restart within an hour is SEV6 (R661). -/
def execKeeperWatchdog (s : State) : Result :=
  .next <|
    let now := s.opMs
    let ts := (s.rst.keepTimes.filter fun t => decide (now < t + 3600000)) ++ [now]
    let busy := now + (Config.word s.free).toNat % 301
    let s := ({ s with rst.keepTimes := ts, rst.keepBusy := busy }).tick.bump F.RST_STATUS.KEEPER_RESTARTS
    if 3 ≤ ts.length then s.record evKeeperLoop 6 0 0 else s.record evKeeperRestart 1 0 0 [ts.length]

/-! ### Failed boots (R656, R715) -/

/-- The status that a trial which fails without one of its own reports. -/
def State.groupFail (s : State) (status : Nat) : State :=
  match s.upd.group with
  | none => s
  | some g => { s with upd.group := some { g with late := true, fail := g.fail.orElse fun _ => some status } }

/-- R715: a failed boot, for cause 0 the checks of R709, 1 no first heartbeat, 2 a step exceeded its bound. -/
def State.failedBoot (s : State) (cause : Nat) : State :=
  let run := s.upd.boot.running
  let n := min 3 (s.rd F.UPD_STATE.FAILED_BOOTS + 1)
  let s := (s.wr F.UPD_STATE.FAILED_BOOTS n).note evFailedBoot 1 0 0 [run, cause, n]
  let other := 1 - s.confSlot
  let s :=
    if s.upd.boot.trial = some run then s.clearTrial.groupFail stINTERNAL
    else if s.rd F.UPD_SLOT.STATE other = slVERIFIED ∧ s.flag F.UPD_SLOT.CONFIRMED other then
      (s.wr F.UPD_STATE.CONF_SLOT other).runSlot other
    else s
  if n = 3 ∧ s.mode ≠ mRECOVERY then s.enterRecovery 3 else s

/-- The step of Table 15-2 that is due or in progress (R655). -/
def State.stepDue (s : State) (step : Nat) : Bool :=
  let p := s.rd F.RST_STATUS.PHASE
  !s.flag F.RST_STATUS.READY && !s.heldDown &&
    (if step = 3 then decide (2 ≤ p) && decide (p ≤ 8) && !s.flag F.HCE_STATUS.RUN
     else if s.mode = mRECOVERY then step == 6 && (p == 2 || p == 3)
     else if step = 4 then p == 2 || p == 3
     else if step = 9 then p == 8 && s.flag F.HCE_STATUS.RUN
     else p + 1 == step && decide (step ≤ 10))

/-- RST_STEP_LATE: a step other than 4 exceeds its bound (R656). -/
def execRstStepLate (step : Nat) (s : State) : Result :=
  .next <| if s.stepDue step ∧ step ≠ 4 then (s.record evStepLate 5 0 0 [step]).failedBoot 2 else s

/-- RST_ORQ_BOOT_FAIL: step 4 brings no heartbeat within its bound (R656). -/
def execRstOrqBootFail (s : State) : Result :=
  .next <| if s.stepDue 4 && !s.flag F.ORQ_HB_STATUS.COUNTING then (s.record evOrqBootFail 5 9 2 [s.opMs - s.rst.startMs]).failedBoot 1 else s

/-! ### The lattice record (R681) -/

/-- The entries, plane paths and hinge targets in force. -/
def State.latRecord (s : State) : LatRecord :=
  let idx := (List.range 512).filter fun i => s.ctype i ≠ 0
  ⟨idx.map fun i => (i, s.ent i), idx.map fun i => (i, s.rreg .LAT_CIRC_A i, s.rreg .LAT_CIRC_B i), s.path.planes,
    (List.range 2700).filter fun k => s.flag F.HCE_LOOP_STAT.TARGET k⟩

/-- LATTICE_RECORD_WRITE. -/
def execLatticeRecordWrite (s : State) : Result := .next { s with peers.lattice := some s.latRecord }

/-! ### `HB` (R683, R684) -/

/-- HB_SEND: an `HB` on each channel, and a `MIRROR_HB` to a mirror peer. -/
def execHbSend (s : State) : Result := .next s.sendHb.sendMirrorHb

/-- HB. -/
def execHb (port state node inc : Nat) (s : State) : Result :=
  .next <| if port < 24 ∧ s.chanUp port then { s with peers.hbs := kset s.peers.hbs port ⟨state, node, inc⟩ } else s

/-! ### The mirror pair (R688 to R690) -/

/-- This module holds mirror targets. -/
def State.isBuddy (s : State) : Bool := s.ms.regions.any fun r => r.2.mirTgt

/-- Both paths are back: `ACTING` is cleared, the copy takes its primary's writes again, and a frozen primary resynchronises where its
buddy holds targets and runs. -/
def State.mirrorBack (s : State) (peerHolds : Bool) : State :=
  if s.flag F.RST_MIRROR_STATUS.P1_UP && s.flag F.RST_MIRROR_STATUS.P2_UP then
    let s := ({ s with ms.frozen := false }).wr F.RST_MIRROR_STATUS.ACTING 0
    let st := s.rd F.RST_MIRROR_STATUS.PEER_STATE
    if s.flag F.MEM_MIRROR_CFG.EN && s.rd F.MEM_MIRROR_STATUS.STATE == mirFROZEN && peerHolds && (st == 0 || st == 3 || st == 4) then
      s.resync
    else s
  else s

/-- MIRROR_HB: accepted from the buddy, or from the module whose regions this one holds. Path 1 is up while the circuit bound
to the peer is, with no write that waits for it. -/
def execMirrorHb (src _val state roles buddy : Nat) (s : State) : Result :=
  .next <|
    let mine := s.flag F.MEM_MIRROR_CFG.EN && src == s.rd F.MEM_MIRROR_CFG.BUDDY
    let theirs := s.isBuddy && bitOf roles 0 && buddy == s.node
    if !(mine || theirs) then s
    else
      let s := s |>.wr F.RST_MIRROR_STATUS.PEER src
        |>.wr F.RST_MIRROR_STATUS.PEER_STATE state
        |>.wr F.RST_MIRROR_STATUS.P2_UP 1
      let up := ((s.boundCirc src).map s.circUp).getD false
      let s := if up && s.ms.mirWait == [] then s.wr F.RST_MIRROR_STATUS.P1_UP 1 else s
      s.mirrorBack (bitOf roles 1)

/-- The primary freezes: writes that wait for the buddy count as performed (Table 6-7). -/
def State.mirrorFreeze (s : State) : State :=
  if s.flag F.MEM_MIRROR_CFG.EN && s.rd F.MEM_MIRROR_STATUS.STATE ≠ mirFROZEN then
    (s.ackMirror s.ms.mirWait.length).wr F.MEM_MIRROR_STATUS.STATE mirFROZEN
  else s

/-- The primary yields: every context of a job that owns a mirror region fails. -/
def State.mirrorYield (s : State) (peer : Nat) : State :=
  let jobs := ((s.ms.regions.filter fun r => r.2.mirror).map fun r => r.2.job).eraseDups
  (s.resident.filter fun n => jobs.contains (s.ctxJob n)).foldl (fun (s : State) n =>
    s.record evMirrorYield 2 0 0 [peer, s.ctxJob n] (some (s.ctxId n))) s

/-- Table 15-14 for both directions; `row` is 2 to 4. The role kept has bit 0 for a primary that continues, bit 1 for a frozen
copy, bit 2 for acting primary. -/
def State.mirrorSplit (s : State) (peer row : Nat) : State :=
  let lower := decide (s.node < peer)
  let prim := s.flag F.MEM_MIRROR_CFG.EN
  let bud := s.isBuddy
  let acts := row == 4 && lower && bud
  let s := s.mirrorFreeze
  let s := if prim && row == 4 && !lower then s.mirrorYield peer else s
  let s := if bud then { s with ms.frozen := true } else s
  let s := if bud && !acts then s.note evMemMirrorFrozen 1 0 0 [s.node] else s
  let s := if acts then s.wr F.RST_MIRROR_STATUS.ACTING 1 else s
  (s.wr F.RST_MIRROR_STATUS.SPLIT row).note evMirrorSplit 1 0 0
    [peer, row, b2n (prim && (row != 4 || lower)) + 2 * b2n (bud && !acts) + 4 * b2n acts]

/-- The pair has split already, with this outcome. -/
def State.splitAs (s : State) (row : Nat) : Bool :=
  s.rd F.RST_MIRROR_STATUS.SPLIT == row && (!s.flag F.MEM_MIRROR_CFG.EN || s.rd F.MEM_MIRROR_STATUS.STATE == mirFROZEN) &&
    (!s.isBuddy || s.ms.frozen)

/-- MIRROR_PATH_LOST: path 1 or path 2 times out, and the pair splits while path 1 is lost (R690); a split that stands is not
made again. -/
def execMirrorPathLost (path1 : Bool) (s : State) : Result :=
  .next <| match s.mirrorPeer with
    | none => s
    | some peer =>
      let s := if path1 then s.wr F.RST_MIRROR_STATUS.P1_UP 0 else s.wr F.RST_MIRROR_STATUS.P2_UP 0
      if s.flag F.RST_MIRROR_STATUS.P1_UP then s
      else
        let st := s.rd F.RST_MIRROR_STATUS.PEER_STATE
        let row := if !s.flag F.RST_MIRROR_STATUS.P2_UP then 4 else if st = 1 ∨ st = 2 ∨ st = 5 then 3 else 2
        if s.splitAs row then s else s.mirrorSplit peer row

end Sys2Proof.Machine
end

