-- ==== Sys2Proof/Machine/Ageing.lean ====
section
/-! DEFINITION. Ageing measurement and re-planning (R741 to R746). -/

namespace Sys2Proof.Machine

open Sys2Proof

def evReplanned : Nat := 0x1105
def evHingeRetired : Nat := 0x1106
def evLaserLimit : Nat := 0x1107
def evAmpLimit : Nat := 0x1108
def evClockLimited : Nat := 0x1109
def evDramMargin : Nat := 0x110A

/-! ### Measurement (R741, R742) -/

def State.ageItem (s : State) (kind index : Nat) : Option AgeItem := kfind s.age.items (ageKey kind index)

/-- The quantity can be measured now: a hinge that has closed, a preamplifier in `CLOSED`, a quarter that is ungated. -/
def State.measurable (s : State) (kind index : Nat) : Bool :=
  decide (index < ageCount kind) && (kind != 0 || s.hceState index == hsCLOSED) && (kind != 2 || s.hceState (3108 + index) == hsCLOSED) && (kind != 3 || !s.gated index)

/-- A measured value is kept; the manufacture value is the calibration tables', or for LPDDR6 the first training's. -/
def AgeItem.measured (x : AgeItem) (kind index val : Nat) : AgeItem :=
  { x with
    mfg := some (if kind = 4 then x.mfg.getD val else x.made kind index)
    latest := val }

/-- The latest value of a quantity is kept (R742). -/
def State.keepMeasured (s : State) (kind index val : Nat) : State :=
  let x := (s.ageItem kind index).getD AgeItem.init
  { s with age.items := kset s.age.items (ageKey kind index) (x.measured kind index (min val 65535)) }

/-- Heater power per π, in 0.01 mW: 20.0 mW for each 32,768 codes between the converged drives of the two states. -/
def heaterPower (cross bar : Int) : Nat := ((cross - bar) * 2000 / (32768 * 65536 : Nat)).toNat

/-- A hinge has closed in the state that it is driven to: its converged drive is kept, and with that of the other state gives its
heater power (Table 17-3). -/
def State.measureHinge (s : State) (i : Nat) : State :=
  let s : State := { s with age.drives := kset s.age.drives (2 * i + s.rd F.HCE_LOOP_STAT.TARGET i) (s.loop i).u }
  match kfind s.age.drives (2 * i + 1), kfind s.age.drives (2 * i) with
  | some cross, some bar => s.keepMeasured 0 i (heaterPower cross bar)
  | _, _ => s

/-- AGEING_MEASUREMENT: a hinge's quantity is computed from its drives, any other is what the health core has measured. -/
def execAgeingMeasurement (kind index val : Nat) (s : State) : Result :=
  .next <|
    if !s.measurable kind index then s
    else if kind = 0 then s.measureHinge index
    else s.keepMeasured kind index val

/-! ### The rules of Table 17-4 -/

/-- *r* lies above `p` percent. -/
def AgeItem.above (x : AgeItem) (p : Nat) : Bool :=
  match x.mfg with
  | some m => decide (m * (100 + p) < x.latest * 100)
  | none => false

/-- ⌈*r*⌉, where *r* is positive. -/
def AgeItem.ceilRise (x : AgeItem) : Nat :=
  match x.mfg with
  | some m => if m < x.latest ∧ 0 < m then ((x.latest - m) * 100 + m - 1) / m else 0
  | none => 0

/-- *r* in whole percent. -/
def AgeItem.rise (x : AgeItem) : Nat :=
  match x.mfg with
  | some m => if m < x.latest ∧ 0 < m then (x.latest - m) * 100 / m else 0
  | none => 0

/-- How many steps of 100 MHz the ceiling falls: one for each 2 % or part of it beyond 8 %, where the guardband is 40 mV. -/
def AgeItem.clockSteps (x : AgeItem) : Nat :=
  match x.mfg with
  | some m => if m * 108 < x.latest * 100 ∧ 0 < m then ((x.latest * 100 - m * 108) + 2 * m - 1) / (2 * m) else 0
  | none => 0

/-- A state of Table 17-4; `LIMIT` stays (R745). -/
def AgeItem.judge (x : AgeItem) (aged limit : Bool) : Nat := if x.state = 2 ∨ limit then 2 else if aged then 1 else 0

/-- What a re-plan has done so far: changes, hinges retired, quarters whose ceiling it has lowered. -/
structure ReplanSum where
  changes : Nat
  hinges  : Nat
  clocks  : Nat
deriving DecidableEq, Repr

/-- A quantity's state and value at this re-plan. -/
def State.settleItem (s : State) (kind index state : Nat) : State :=
  match s.ageItem kind index with
  | some x => { s with age.items := kset s.age.items (ageKey kind index) { x with state := state, plans := (x.latest :: x.plans).take 8 } }
  | none => s

/-- A quarter: guardband and ceiling for its next wake or reset. An automatic re-plan only raises the one and lowers the other. -/
def State.replanQuarter (s : State) (p : ReplanSum) (x : AgeItem) (q : Nat) (relax : Bool) : State × ReplanSum :=
  let v := s.quarter q
  let guard := min 40 (5 * x.ceilRise)
  let ceil := 1800 - 100 * x.clockSteps
  let guard := if relax then guard else max v.guardNext guard
  let ceil := if relax then ceil else min v.ceilNext ceil
  let lower := decide (ceil < v.ceilNext)
  let diff := decide (ceil ≠ v.ceilNext) || decide (guard ≠ v.guardNext)
  let s := s.setQuarter q { v with guardNext := guard, ceilNext := ceil }
  let s := s.wr F.AGE_STATUS.CLK_LIMITED (putBit (s.rd F.AGE_STATUS.CLK_LIMITED) q (decide (ceil < 1800)))
  let s := if lower then s.note evClockLimited 1 2 q [q, ceil] else s
  (s.settleItem 3 q (x.judge (x.above 0) (decide (40 < 5 * x.ceilRise))),
    { p with changes := p.changes + b2n diff, clocks := p.clocks + b2n lower })

/-- The loop's converged drive for `CROSS` exceeds 0.95 × `UMAX`. -/
def State.driveHigh (s : State) (i : Nat) : Bool :=
  match kfind s.age.drives (2 * i + 1) with
  | some u => decide ((s.rd F.HCE_LOOP_CAL.UMAX i : Int) * 65536 * 95 < u * 100)
  | none => false

/-- A hinge: at `LIMIT` its position is retired, for good, and counts as failed (R489, R745). -/
def State.replanHinge (s : State) (p : ReplanSum) (x : AgeItem) (i : Nat) : State × ReplanSum :=
  let st := x.judge (x.above 15) (x.above 30 || s.driveHigh i)
  let s := s.settleItem 0 i st
  if st = 2 ∧ !s.age.retired.contains i then
    let s : State := { s with age.retired := s.age.retired ++ [i] }
    let s := s.wr F.AGE_STATUS.RETIRED (min 1023 s.age.retired.length)
    ((s.note evHingeRetired 1 8 i [i, x.rise]).failHinge i, { p with changes := p.changes + 1, hinges := p.hinges + 1 })
  else (s, p)

/-- How far a re-plan moves a TEC set-point, in 0.1 °C: at most 5, toward a mean drive that the module measures and the manual
does not give (a free choice), and never past 30 from the manufacture set-point. -/
def State.tecMove (s : State) (w : Nat) : Int :=
  let d : Int := ((Config.word (s.free + w)).toNat % 11 : Nat) - 5
  let old := (kfind s.age.moved w).getD 0
  max (-30) (min 30 (old + d)) - old

/-- The health core writes `D_B` of a TEC loop, held where it must be (R746); a code outside `UMIN` to `UMAX` is dropped (R588). -/
def State.writeTec (s : State) (w : Nat) (code : Nat) : State :=
  let i := 3132 + w
  if code < s.rd F.HCE_LOOP_CAL.UMIN i ∨ s.rd F.HCE_LOOP_CAL.UMAX i < code then s.hceReject (Reg.HCE_LOOP_CAL.off i) stPOLICY
  else if loopRuns (s.hceState i) then ((s.loopHoldOn i).wr F.HCE_LOOP_CAL.D_B code i).loopHoldOff i
  else s.wr F.HCE_LOOP_CAL.D_B code i

/-- A laser: from `AGED` on, its TEC set-point moves. -/
def State.replanLaser (s : State) (p : ReplanSum) (x : AgeItem) (w : Nat) : State × ReplanSum :=
  let st := x.judge (x.above 25) (x.above 50)
  let s := s.settleItem 1 w st
  let s := if st = 2 ∧ x.state ≠ 2 then s.note evLaserLimit 1 0 0 [w, x.rise] else s
  let d := s.tecMove w
  if st = 0 ∨ d = 0 then (s, p)
  else
    let m := (kfind s.age.moved w).getD 0 + d
    let s : State := { s with age.moved := kset s.age.moved w m }
    (s.writeTec w (Config.tecCode w m).toNat, { p with changes := p.changes + 1 })

/-- A preamplifier: the port's route preference. -/
def State.replanAmp (s : State) (p : ReplanSum) (x : AgeItem) (port : Nat) : State × ReplanSum :=
  let st := x.judge (x.above 20) (x.above 40)
  let s := s.settleItem 2 port st
  let s := if st = 2 ∧ x.state ≠ 2 then s.note evAmpLimit 1 7 port [port, x.rise] else s
  let pref := min 0xFF (0x80 + 4 * (s.rd F.LAT_PORT.SPAN_LOSS port / 10) + (if st = 1 then 0x20 else 0) + (if st = 2 then 0x40 else 0))
  (s.wr F.LAT_PORT.PREF pref port, { p with changes := p.changes + b2n (s.rd F.LAT_PORT.PREF port != pref) })

/-- An LPDDR6 device: its reference levels are trained again at the next training. -/
def State.replanDram (s : State) (p : ReplanSum) (x : AgeItem) (d : Nat) : State × ReplanSum :=
  let st := x.judge (decide (x.latest < 150)) (decide (x.latest < 80))
  let s := s.settleItem 4 d st
  let s := if st = 2 ∧ x.state ≠ 2 then s.note evDramMargin 1 4 d [d, x.latest] else s
  (s, { p with changes := p.changes + b2n (st != 0) })

/-- The rule of one quantity. -/
def State.replanItem (s : State) (p : ReplanSum) (key : Nat) (x : AgeItem) (relax : Bool) : State × ReplanSum :=
  let kind := key / 4096
  let i := key % 4096
  if kind = 0 then s.replanHinge p x i
  else if kind = 1 then s.replanLaser p x i
  else if kind = 2 then s.replanAmp p x i
  else if kind = 3 then s.replanQuarter p x i relax
  else s.replanDram p x i

/-- A re-plan over every quantity measured so far; `cause` is 0 due, 1 request (R743, R746). -/
def State.replan (s : State) (cause : Nat) (relax : Bool) : State × ReplanSum :=
  let (s, p) := s.age.items.foldl (fun (a : State × ReplanSum) e => a.1.replanItem a.2 e.1 e.2 relax) (s, ⟨0, 0, 0⟩)
  let s : State := { s with free := s.free + 16 }
  let s := s.wr F.AGE_STATUS.LAST_H (s.opMs / 3600000)
  ((s.wr F.AGE_STATUS.DEFERRED 0).note evReplanned 0 9 2 [cause, p.changes, b2n relax], p)

/-- The result payload (R743). -/
def ReplanSum.bytes (p : ReplanSum) : List (BitVec 8) := leBytes 2 p.changes ++ leBytes 2 p.hinges ++ leBytes 1 p.clocks

/-- AGE_REPLAN: bit 0 `RELAX`, bit 1 `DRY_RUN`. -/
def execAgeReplan (s : State) : Result :=
  .next <| s.serve 0x0A00 fun p s =>
    if s.groupHolds then s.answer stBUSY
    else s.accept 0x0A00 fun t s =>
      let b := leAt p 0 1
      let (s', r) := s.replan 1 (bitOf b 0)
      (if bitOf b 1 then s else s').endTicket t stOK 0xFFFF r.bytes

/-- REPLAN_DUE: 1,000 hours of operating time after the last one a re-plan runs, or waits for the end of an activation group. -/
def execReplanDue (s : State) : Result :=
  .next (if s.opMs / 3600000 < s.rd F.AGE_STATUS.LAST_H + 1000 then s else if s.groupHolds then s.wr F.AGE_STATUS.DEFERRED 1 else (s.replan 0 false).1)

/-- A re-plan that waited for the group's end runs (R743). -/
def State.replanDeferred (s : State) : State := if s.flag F.AGE_STATUS.DEFERRED then (s.replan 0 false).1 else s

end Sys2Proof.Machine
end

