-- ==== Sys2Proof/Machine/Group.lean ====
section
/-! DEFINITION. The activation group (R717 to R722): what members and the coordinator do, and the revert of a trial. -/

namespace Sys2Proof.Machine

open Sys2Proof

/-! ### Group states (`UPD_STATE.GROUP_STATE`) and codes (Table 16-9) -/

def gsSCHEDULED : Nat := 1
def gsGO : Nat := 2
def gsTRIAL : Nat := 3
def gsCONFIRMED : Nat := 4
def gsROLLED_BACK : Nat := 5
def gsABORTED : Nat := 6

def gmREADY : Nat := 0x01
def gmNOT_READY : Nat := 0x02
def gmGO : Nat := 0x03
def gmABORT : Nat := 0x04
def gmTRIAL_OK : Nat := 0x05
def gmTRIAL_FAIL : Nat := 0x06
def gmALL_OK : Nat := 0x07
def gmROLLBACK : Nat := 0x08
def gmQUERY : Nat := 0x09

def State.groupState (s : State) : Nat := s.rd F.UPD_STATE.GROUP_STATE
def State.groupId (s : State) : Nat := s.rd F.UPD_GROUP.GROUP_ID
def State.groupT (s : State) : Nat := s.rd F.UPD_GROUP_T.T
def State.isCoord (s : State) : Bool := s.flag F.UPD_GROUP.IS_COORD
/-- A group is open: scheduled, past `GO`, or on trial. -/
def State.groupOpen (s : State) : Bool := decide (1 ≤ s.groupState) && decide (s.groupState ≤ 3)

/-- Change the group. -/
def State.setGroup (s : State) (f : ActGroup → ActGroup) : State := { s with upd.group := s.upd.group.map f }

/-- A group message (R719). -/
def State.sendGroup (s : State) (dst code status : Nat) : State :=
  s.pmsg dst pkSYNC 3 s.groupId
    (leBytes 2 code ++ leBytes 2 status ++ leBytes 4 (s.rd F.UPD_SLOT.IMAGE_VER s.targetSlot) ++ leBytes 8 s.groupT)

/-! ### Reverts and confirmation (R714, R720, R721) -/

/-- A chip reset that firmware makes for itself, without collection; it takes the place of a chip reset under way. -/
def State.ownChipReset (s : State) (cause : Nat) : State :=
  let s := match s.rst.running with
    | some r => if r.act.cls = 5 then { (s.reportLast r.act 1 r.repeated (s.opMs - r.startMs)) with rst.running := none } else s
    | none => s
  s.callAction ⟨5, 0, 0, cause, none, 9, 3, 0, true, none, false⟩

/-- Keeper firmware restarts for an activation or a revert, which R661 does not count (R722). -/
def State.restartKeeper (s : State) : State := s.bump F.RST_STATUS.KEEPER_RESTARTS

/-- A revert (R721). -/
def State.revert (s : State) : State := (s.clearTrial.restartKeeper).ownChipReset evUpdRolledBack

/-- The group ends with a state and a status of its ticket (R718). The coordinator keeps its decision (R722). -/
def State.endGroup (s : State) (state status : Nat) : State :=
  let t := s.upd.group.bind ActGroup.ticket
  let s := (s.endWork t status 0xFFFF).setGroup fun g => { g with ticket := none }
  let s := { s with time.trigs := kdel s.time.trigs 12 }
  (((s.wr F.TIM_TRIG_CTL.ARM 0 12).wr F.UPD_STATE.GROUP_STATE state).wr F.UPD_STATE.LAST_STATUS status).replanDeferred

/-- The slot on trial is confirmed. -/
def State.confirmTrial (s : State) : State :=
  match s.upd.boot.trial with
  | none => s
  | some k =>
    let s := { s with upd.boot.trial := none }
    (s |>.wr F.UPD_STATE.CONF_SLOT k
      |>.wr F.UPD_SLOT.CONFIRMED 1 k
      |>.wr F.UPD_STATE.ON_TRIAL 0
      |>.wr F.UPD_STATE.TRIAL_BOOTS 0).note evUpdConfirmed 0 9 3 [s.groupId, k]

/-! ### What a member does on a message of the coordinator (Table 16-10) -/

/-- `GO`: settings are copied (R723), the group goes to flash, trigger 12 is armed for `T`. -/
def State.memberGo (s : State) : State :=
  if s.groupState = gsSCHEDULED then
    let s := { s with upd.other := some s.settings, time.trigs := kset s.time.trigs 12 ⟨s.groupT, 0⟩ }
    ((s.wreg .TIM_TRIG_TGT (BitVec.ofNat 64 s.groupT) 12).wr F.TIM_TRIG_CTL.ARM 1 12).wr F.UPD_STATE.GROUP_STATE gsGO
  else s

/-- `ABORT`. -/
def State.memberAbort (s : State) : State :=
  if s.groupState = gsSCHEDULED ∨ s.groupState = gsGO then s.endGroup gsABORTED stRUNNING else s

/-- `ALL_OK`: the trial slot is confirmed. -/
def State.memberAllOk (s : State) : State :=
  if s.groupState = gsTRIAL ∧ s.onTrial then s.confirmTrial.endGroup gsCONFIRMED stOK else s

/-- The ticket's status after a rollback: a member that knows no cause learns none, so which of the two statuses of R718
stands is a free value. -/
def State.rollbackStatus (s : State) : Nat :=
  match s.upd.group.bind ActGroup.fail with
  | some st => if st = stINCOMPATIBLE then stINCOMPATIBLE else stRUNNING
  | none => if (Config.word s.free).toNat % 2 = 0 then stINCOMPATIBLE else stRUNNING

/-- `ROLLBACK`: the member reverts, and the group ends. -/
def State.memberRollback (s : State) : State :=
  if s.groupOpen then
    let st := s.rollbackStatus
    let node := (s.upd.group.map ActGroup.node).getD 0
    let s := s.tick.note evUpdRolledBack 1 9 3 [s.groupId, st, node]
    let s := if s.onTrial then s.revert else s
    s.endGroup gsROLLED_BACK st
  else s

/-! ### What the coordinator does -/

/-- A decision goes to every member of the list; the coordinator acts on it as the member that it is. -/
def State.decide_ (s : State) (code : Nat) : State :=
  let list := (s.upd.group.map ActGroup.list).getD []
  let now := s.opMs
  let s := s.setGroup fun g => { g with decision := code, decided := now }
  let s := (list.filter fun n => n != s.node).foldl (fun (s : State) n => s.sendGroup n code 0) s
  if code = gmGO then ((s.setGroup fun g => { g with oks := [] }).wr F.UPD_GROUP.REPORTED 0).memberGo
  else if code = gmABORT then s.memberAbort
  else if code = gmALL_OK then s.memberAllOk
  else s.memberRollback

def ActGroup.addVer (g : ActGroup) (n v : Nat) : ActGroup := { g with vers := kset g.vers n v }
def ActGroup.addNot (g : ActGroup) (n : Nat) : ActGroup := { g with notReady := n :: g.notReady.erase n }
def ActGroup.addOk (g : ActGroup) (n : Nat) : ActGroup := { g with oks := n :: g.oks.erase n }
def ActGroup.failedAt (g : ActGroup) (n st : Nat) : ActGroup := { g with fail := g.fail.orElse fun _ => some st, node := n }

/-- The coordinator of the group with an ID, and what it keeps of the group. -/
def State.coordOf (s : State) (id : Nat) : Option ActGroup := if s.isCoord ∧ s.groupId = id then s.upd.group else none

/-- READY. -/
def State.coordReady (s : State) (src id ver : Nat) : State :=
  match s.coordOf id with
  | some g =>
    if g.decision = 0 ∧ g.list.contains src then
      (s.setGroup fun g => g.addVer src ver).wr F.UPD_GROUP.REPORTED (g.addVer src ver).vers.length
    else s
  | none => s

/-- NOT_READY. -/
def State.coordNotReady (s : State) (src id : Nat) : State :=
  match s.coordOf id with
  | some g => if g.decision = 0 ∧ g.list.contains src then s.setGroup fun g => g.addNot src else s
  | none => s

/-- TRIAL_OK; `ALL_OK` once every member has reported. -/
def State.coordOk (s : State) (src id : Nat) : State :=
  match s.coordOf id with
  | some g =>
    if g.decision = gmGO ∧ g.list.contains src then
      let g := g.addOk src
      let s := (s.setGroup fun x => x.addOk src).wr F.UPD_GROUP.REPORTED g.oks.length
      if g.list.all fun n => g.oks.contains n then s.decide_ gmALL_OK else s
    else s
  | none => s

/-- TRIAL_FAIL; `ROLLBACK` follows. -/
def State.coordFail (s : State) (src id status : Nat) : State :=
  match s.coordOf id with
  | some g => if g.decision = gmGO ∧ g.list.contains src then (s.setGroup fun x => x.failedAt src status).decide_ gmROLLBACK else s
  | none => s

/-- The coordinator's decision at *T* − 2 s. -/
def State.coordDecide (s : State) : State :=
  match s.coordOf s.groupId with
  | some g =>
    if g.decision = 0 ∧ s.groupState = gsSCHEDULED then
      let vs := g.list.map fun n => kfind g.vers n
      let ready := vs.all Option.isSome && decide (vs.eraseDups.length ≤ 1) && g.notReady.isEmpty
      s.decide_ (if ready then gmGO else gmABORT)
    else s
  | none => s

/-! ### What a member reports -/

/-- A report goes to the coordinator, which may be this module. -/
def State.report (s : State) (code status : Nat) : State :=
  if s.isCoord then
    let ver := s.rd F.UPD_SLOT.IMAGE_VER s.targetSlot
    if code = gmREADY then s.coordReady s.node s.groupId ver
    else if code = gmNOT_READY then s.coordNotReady s.node s.groupId
    else if code = gmTRIAL_OK then s.coordOk s.node s.groupId
    else if code = gmTRIAL_FAIL then s.coordFail s.node s.groupId status
    else s
  else s.sendGroup (s.rd F.UPD_GROUP.COORD) code status

def ActGroup.failing (g : ActGroup) (st n : Nat) : ActGroup := { g with fail := some st, node := n, late := false }
def ActGroup.saidOk (g : ActGroup) : ActGroup := { g with sentOk := true }
def ActGroup.confirmedBy (g : ActGroup) : ActGroup := { g with hostOk := true }

/-- The trial fails: `TRIAL_FAIL`, then the revert at once (Table 16-10). -/
def State.trialFail (s : State) (status : Nat) : State :=
  let s := (s.setGroup fun g => g.failing status s.node).report gmTRIAL_FAIL status
  if s.onTrial then s.revert else { s with time.trigs := kdel s.time.trigs 12 }

/-- `TRIAL_OK`, once, when step 10 has been reached on the target and any host confirmation has come. -/
def State.trialReport (s : State) : State :=
  match s.upd.group with
  | some g =>
    if s.groupState = gsTRIAL ∧ s.onTrial ∧ s.flag F.RST_STATUS.READY ∧ !g.sentOk ∧ (!g.confirm ∨ g.hostOk) then
      (s.setGroup ActGroup.saidOk).report gmTRIAL_OK 0
    else s
  | none => s

/-- What a member reports after a step 10: a trial that was ended before, a `T` that has passed, or `TRIAL_OK`. -/
def State.afterStart (s : State) : State :=
  match s.upd.group with
  | some g =>
    if !s.groupOpen then s
    else if g.late then
      let st := g.fail.getD stTIMEOUT
      (s.setGroup fun g => g.failing st s.node).report gmTRIAL_FAIL st
    else if s.groupState = gsGO ∧ decide ((s.groupT : Int) ≤ s.nt) then s.trialFail stTIMEOUT
    else s.trialReport
  | none => s

/-- The activation at *T* (Table 16-10): the target goes on trial, keeper firmware restarts, a chip reset follows. -/
def State.activate (s : State) : State :=
  let k := s.targetSlot
  let s := ({ s with upd.boot.trial := some k, time.trigs := kdel s.time.trigs 12 }).wr F.UPD_STATE.TRIAL_BOOTS 0
  let s := (s.wr F.UPD_STATE.GROUP_STATE gsTRIAL).chooseSlot.restartKeeper
  (s.note evUpdActivated 0 9 3 [s.groupId, k, s.rd F.UPD_STATE.TRIAL_BOOTS]).ownChipReset evUpdActivated

end Sys2Proof.Machine
end

