-- ==== Sys2Proof/Machine/Crypto.lean ====
section
/-! DEFINITION. The published cryptography that chapter 16 uses: SHA-256 (R696, R709), HMAC and the key derivation of Table 16-14,
the fingerprint, and the verification of RSASSA-PSS
with SHA-256, MGF1 with SHA-256 and a 32-byte salt under an RSA-3072 key (Table 16-2). The standards are outside the spec
(PRESUMED, notes/assumptions/40.md). -/

namespace Sys2Proof.Machine

open Sys2Proof

/-! ### SHA-256

The standard gives its constants as fractions of roots of the first primes, and so they are computed here. -/

/-- The first 64 primes. -/
def shaPrimes : List Nat := (List.range 312).filter fun n => decide (2 ≤ n) && (List.range n).all fun d => decide (d < 2) || n % d != 0

/-- The first 32 bits of the fraction of the `k`-th root of `p` (`p` below 512), found bit by bit. -/
def rootFraction (k p : Nat) : BitVec 32 :=
  BitVec.ofNat 32 ((List.range 36).foldl (fun (r i : Nat) =>
    let next := r + 2 ^ (35 - i)
    if next ^ k ≤ p * 2 ^ (32 * k) then next else r) 0)

/-- The number that big-endian bytes spell. -/
def beNat (bs : List (BitVec 8)) : Nat := bs.foldl (fun n b => 256 * n + b.toNat) 0
/-- The big-endian bytes of `v`. -/
def beBytes (n v : Nat) : List (BitVec 8) := (leBytes n v).reverse

/-- A word turned right by each of these amounts, all combined by exclusive or. -/
def turned (w : BitVec 32) (by_ : List Nat) : BitVec 32 := by_.foldl (fun acc k => acc ^^^ w.rotateRight k) 0

/-- The schedule grown by `n` words; it is held newest word first. -/
def shaSchedule : Nat → List (BitVec 32) → List (BitVec 32)
  | 0, ws => ws
  | n + 1, ws =>
    let back (k : Nat) : BitVec 32 := ws.getD (k - 1) 0
    let mixed := [(back 2, [17, 19], 10), (back 15, [7, 18], 3)].map fun m => turned m.1 m.2.1 ^^^ (m.1 >>> m.2.2)
    shaSchedule n ((back 7 + back 16 + mixed.foldl (fun acc w => acc + w) 0) :: ws)

/-- One round on the eight working words, the first of them first. -/
def shaStep (ws : List (BitVec 32)) (constAndWord : BitVec 32 × BitVec 32) : List (BitVec 32) :=
  match ws with
  | [p, q, r, s, t, u, v, w] =>
    let chosen := (t &&& u) ||| (~~~t &&& v)
    let most := (p &&& q) ||| (r &&& (p ||| q))
    let new := constAndWord.1 + constAndWord.2 + chosen + turned t [6, 11, 25] + w
    [new + most + turned p [2, 13, 22], p, q, r, s + new, t, u, v]
  | _ => ws

/-- The chain after one more block of 64 bytes. -/
def shaChain (chain : List (BitVec 32)) (blk : List (BitVec 8)) : List (BitVec 32) :=
  let first := (List.range 16).foldl (fun (ws : List (BitVec 32)) i => BitVec.ofNat 32 (beNat ((blk.drop (4 * i)).take 4)) :: ws) []
  let rounds := List.zip (shaPrimes.map (rootFraction 3)) (shaSchedule 48 first).reverse
  List.zipWith (fun x y => x + y) chain (rounds.foldl shaStep chain)

/-- The SHA-256 digest, 32 bytes: the message is closed by a 1 bit, zeros, and its length in bits as the last eight bytes of a block. -/
def sha256 (m : List (BitVec 8)) : List (BitVec 8) :=
  let blocks := (m.length + 8) / 64 + 1
  let closed := m ++ [0x80] ++ List.replicate (64 * blocks - m.length - 9) 0 ++ beBytes 8 (8 * m.length)
  let start := (shaPrimes.take 8).map (rootFraction 2)
  let last := (List.range blocks).foldl (fun chain i => shaChain chain ((closed.drop (64 * i)).take 64)) start
  last.flatMap fun w => beBytes 4 w.toNat

/-! ### Keys and fingerprint (R693, R695, R696) -/

/-- HMAC-SHA-256 under a key of at most 64 bytes. -/
def hmac (key msg : List (BitVec 8)) : List (BitVec 8) :=
  let padded := key ++ List.replicate (64 - key.length) 0
  let with_ (b : BitVec 8) : List (BitVec 8) := padded.map fun x => x ^^^ b
  sha256 (with_ 0x5C ++ sha256 (with_ 0x36 ++ msg))

/-- A key derived from the root key: SP 800-108 in counter mode, one block of 256 bits, with an empty context. -/
def derivedKey (label : List (BitVec 8)) : List (BitVec 8) :=
  hmac Config.rootKey (beBytes 4 1 ++ label ++ [0] ++ beBytes 4 256)

/-- The labels "WRAP" and "KEYRING". -/
def wrapLabel : List (BitVec 8) := [0x57, 0x52, 0x41, 0x50]
def ringLabel : List (BitVec 8) := [0x4B, 0x45, 0x59, 0x52, 0x49, 0x4E, 0x47]

/-- Bytes 0 to 31 of the fingerprint: the digest of the identity public key's SubjectPublicKeyInfo. -/
@[irreducible] def fprBytes : List (BitVec 8) := sha256 Config.identityKeyInfo

/-! ### RSASSA-PSS -/

/-- `b` to the power `e` modulo `m`, over the low `n` bits of `e`. -/
def powMod (m : Nat) : Nat → Nat → Nat → Nat
  | 0, _, _ => 1 % m
  | n + 1, b, e =>
    let r := powMod m n (b * b % m) (e / 2)
    if e % 2 = 1 then b * r % m else r

/-- MGF1 with SHA-256: the first `n` bytes. -/
def mgf1 (seed : List (BitVec 8)) (n : Nat) : List (BitVec 8) :=
  ((List.range ((n + 31) / 32)).flatMap fun k => sha256 (seed ++ beBytes 4 k)).take n

/-- The encoded message `em` of 384 bytes (3,071 bits) verifies for a digest. -/
def pssVerify (digest em : List (BitVec 8)) : Bool :=
  let masked := em.take 351
  let h := (em.drop 351).take 32
  let db := List.zipWith (fun (x y : BitVec 8) => x ^^^ y) masked (mgf1 h 351)
  let db := (db.take 1).map (fun x => x &&& 0x7F) ++ db.drop 1
  decide (em.getD 383 0 = 0xBC) && decide (masked.getD 0 0 &&& 0x80 = 0) && (db.take 318).all (fun x => x == 0) &&
    decide (db.getD 318 0 = 1) && decide (h = sha256 (leBytes 8 0 ++ digest ++ (db.drop 319)))

/-- A public key as the keyring holds it: a 384-byte modulus and a 4-byte exponent, both big-endian (Table 16-3). -/
def keyModulus (k : List (BitVec 8)) : Nat := beNat (k.take 384)
def keyExponent (k : List (BitVec 8)) : Nat := beNat ((k.drop 384).take 4)

/-- A signature verifies under a key: the key is an RSA-3072 key. -/
def rsaVerify (key msg sig : List (BitVec 8)) : Bool :=
  let m := keyModulus key
  let s := beNat sig
  decide (2 ^ 3071 ≤ m) && decide (sig.length = 384) && decide (s < m) &&
    pssVerify (sha256 msg) (beBytes 384 (powMod m 32 s (keyExponent key)))

end Sys2Proof.Machine
end

