-- ==== Sys2Proof/Machine/Boot.lean ====
section
/-! DEFINITION. Keeper resets, the power-on sequence (R654 to R657, Table 15-2), and the loss of both feeds (R43 to R46). -/

namespace Sys2Proof.Machine

open Sys2Proof

/-! ### The keeper reset (R16, R46, R700) -/

/-- A unit's history as its flash holds it. -/
def Hist.restored (h : Hist) : Hist := { h with times := h.flash, perm := h.flashPerm, dirty := false }

/-- An image slot after a keeper reset: a slot that was receiving is empty (R713), one under verification is received (R724). -/
def State.bootSlot (s : State) (k : Nat) : State :=
  let st := s.rd F.UPD_SLOT.STATE k
  if st = slRECEIVING then
    (({ s with upd.images := kdel s.upd.images k }).wreg .UPD_SLOT 0 k).wr F.UPD_SLOT.STATE slEMPTY k
  else if st = slVERIFYING then s.wr F.UPD_SLOT.STATE slRECEIVED k
  else s

/-- A group is lost before `GO`, and kept from then on (R724). -/
def State.bootGroup (s : State) : State :=
  if s.groupState = gsSCHEDULED then ({ s with upd.group := none }).wr F.UPD_STATE.GROUP_STATE 0
  else s.setGroup fun g => { g with ticket := none }

/-- What ageing re-planning has set for a quarter stays (R742, `AGE_STATUS.CLK_LIMITED`). -/
def Quarter.restored (q : Quarter) : Quarter :=
  { Quarter.init with mhz := q.ceilNext, ceiling := q.ceilNext, ceilNext := q.ceilNext, guardMv := q.guardNext, guardNext := q.guardNext }

/-- The operating time from which the keeper resumes (R729). -/
def Recorder.resumeMs (e : Recorder) : Nat := e.ring.foldl (fun (m : Nat) r => max m r.opMs) e.ckOpMs

/-- The keeper domain is reset: what lies in flash stays, and so do the input pins and, where `powered`, the input stages with
their waits and ramps (the stage in standby of a proof test that the reset cuts off waits for its share again, R56), and a
power-cycle request, which stays asserted until the module loses power (R81). Operating time goes on from where it stands
(R25): the keeper writes its checkpoint at the last moment before the reset (DESIGN CHOICE, notes/assumptions/92.md). -/
def State.keeperReset (s : State) (powered : Bool) : State :=
  let s := s.twoKeyReset
  let stage (f : Feed) : Feed := if powered then { f with waiting := f.waiting || (f.good && !f.carrying && s.pwr.proof.isSome) } else Feed.init
  let pwr : Power := { Power.init with
    a := stage s.pwr.a
    b := stage s.pwr.b
    ramping := powered && s.pwr.ramping
    domains := powered && s.pwr.domains
    pwrcycReason := if powered then s.pwr.pwrcycReason else 0
    pwrcycReq := powered && s.pwr.pwrcycReq
    sensors := s.pwr.sensors
    recovLow := s.pwr.recovLow
    perstLow := s.pwr.perstLow }
  let t : State := { State.reset with
    pending := s.pending
    free := s.free
    regs := (s.resetRegs fun _ _ => true).regs
    out := s.out
    evr := { Recorder.init with seq := s.evr.seq, pwrCyc := s.evr.pwrCyc, ring := s.evr.ring, bad := s.evr.bad,
                                ckOpMs := max s.evr.ckOpMs s.opMs, ckSummary := s.holdUpSummary }
    rst := { ResetCtl.init with flashDumps := s.rst.flashDumps, nextFlash := s.rst.nextFlash, dumpSeq := s.rst.dumpSeq }
    pwr := pwr
    blk := { Block.init with quarters := s.blk.quarters.map fun q => (q.1, q.2.restored), lattice := powered && s.blk.lattice }
    time := { Time.init with flashEpoch := s.time.flashEpoch, opBase := max s.evr.resumeMs s.opMs }
    mb := { Mailbox.init with cur := s.mb.cur, prev := s.mb.prev }
    chk := { Check.init with hist := s.chk.hist.map fun h => (h.1, h.2.restored) }
    lk := { Links.init with inc := s.lk.inc }
    topo := { Topology.init with cur := s.topo.cur, prev := s.topo.prev }
    peers := { Peers.init with lattice := s.peers.lattice }
    upd := { s.upd with pending := none, keepWait := false, wrapKey := [], ringKey := [] }
    age := s.age }
  let t := { t with pwr.status := BitVec.ofNat 16 ((List.range 10).foldl (fun (n : Nat) k => if t.alertCause k then n + 2 ^ k else n) 0) }
  ((t.bootSlot 0).bootSlot 1).bootGroup

/-- HOLD_UP_EXPIRES (R46). -/
def execHoldUpExpires (s : State) : Result := .next (if s.pwr.holdUp then s.keeperReset false else s)

/-- KEEPER_RESET_EXECUTE: 100 ms after a completed two-key `KEEPER_RESET` (R700); step 1 of Table 15-2 stands as done. -/
def execKeeperResetExecute (s : State) : Result :=
  .next <| if s.upd.keepWait then (s.keeperReset true).wr F.RST_STATUS.PHASE (b2n s.pwr.domains) else s

/-! ### Step 2: the keeper boots -/

/-- Keyring slots 0 to 5: the keys, an empty slot as zeros. -/
def State.ringSlots (s : State) : List (BitVec 8) := (List.range 6).flatMap fun i => kget s.upd.keys i (leBytes 388 0)

/-- What the keyring's HMAC protects (R698): slots 0 to 5 and the policy of slot 7. -/
def State.ringBytes (s : State) : List (BitVec 8) := s.ringSlots ++ leBytes 4 (s.view .SEC_POLICY 0).toNat

/-- A changed keyring is protected anew under the keyring key (R698). -/
def State.sealRing (s : State) : State := { s with upd.ringTag := hmac s.upd.ringKey s.ringBytes }

/-- The keyring passes its integrity check (R697); one as it was made at manufacture has no tag of its own here. -/
def State.ringIntact (s : State) : Bool := s.upd.ringTag.isEmpty || s.upd.ringTag == hmac s.upd.ringKey s.ringBytes

/-- The keys that the keeper derives from the root key at its boot (R693), where it could reconstruct that. -/
def State.deriveKeys (s : State) (pufOk : Bool) : State :=
  { s with
    upd.wrapKey := if pufOk then derivedKey wrapLabel else []
    upd.ringKey := if pufOk then derivedKey ringLabel else [] }

/-- The recorder at a keeper boot: operating time, `PWR_CYC`, and the first record where a hold-up left a summary (R729, R733). -/
def State.bootRecorder (s : State) : State :=
  let sum := s.evr.ckSummary
  let s : State := { s with
    time.opBase := s.evr.resumeMs
    evr.pwrCyc := (s.evr.pwrCyc + 1) % 2 ^ 32
    evr.ckSummary := none }
  match sum with
  | none => s
  | some l => s.writeLost l

/-- The firmware of the running image reads a record. -/
def State.readable (s : State) (c : CfgRecord) : Bool :=
  Config.readsSettings (leAt (s.manifest s.upd.boot.running) 16 4) s.upd.fmt (c.entries.map CfgEntry.off)

/-- R651: the current record is the readable one; with none, reset values stand and SEV1 is recorded. -/
def State.loadConfig (s : State) : State :=
  let cur := s.mb.cur.filter s.readable
  let prev := s.mb.prev.filter s.readable
  let found := b2n s.mb.cur.isSome + b2n s.mb.prev.isSome
  match cur, prev with
  | some c, p => { s with mb.cur := some c, mb.prev := p }.reportCfg
  | none, some p => { s with mb.cur := some p, mb.prev := none }.reportCfg
  | none, none => ({ s with mb.cur := none, mb.prev := none }.reportCfg).note evCfgLoadFail 1 9 1 [found, found]

/-- The settings copy of a trial that its firmware cannot read (R723). -/
def State.settingsBad (s : State) : Bool := s.onTrial && (match s.mb.cur with | some c => !s.readable c | none => false)

/-- The lattice record is loaded: entries that were `LIT` and `BACKUP` holds come back dark, and every other entry is dropped
(R681). -/
def State.loadLattice (s : State) : State :=
  match s.peers.lattice with
  | none => s
  | some r =>
    let keep := r.words.filter fun w => F.LAT_CIRC_A.TYPE.of w.2.1 == ptyBACKUP || F.LAT_CIRC_A.STATE.of w.2.1 == psLIT
    let idx := keep.map Prod.fst
    let s := keep.foldl (fun (s : State) w => (s.wreg .LAT_CIRC_A w.2.1 w.1).wreg .LAT_CIRC_B w.2.2 w.1) s
    let s := { s with
      path.ents := r.ents.filter fun e => idx.contains e.1
      path.planes := (r.planes.filter fun x => idx.contains x.own).map fun x => { x with lit := false, ok := false } }
    r.targets.foldl (fun (s : State) k => s.wr F.HCE_LOOP_STAT.TARGET 1 k) s

/-- The committed wiring plan is loaded (R527). -/
def State.loadPlan (s : State) : State :=
  let s := { s with topo.stale := true }
  let s := (s.reportPlanStatus).takeNode ((s.topo.cur.map Plan.self).getD 0)
  ((List.range 24).foldl (fun (s : State) q => s.reportPlan q) (s.wr F.ID_NODE.NODE_VALID 0)).checkNodeValid

/-- Which slot boots, or `RECOVERY` (R66, R697, R714, R715). -/
def State.bootChoice (s : State) (idOk slotOk : Bool) : State :=
  let s := s.recovIgnored
  if !idOk then s.enterRecovery 4
  else
    if s.recovPin then s.enterRecovery 1
    else if s.rd F.UPD_STATE.FAILED_BOOTS = 3 then s.enterRecovery 3
    else
      let s := s.chooseSlot
      if slotOk then s else s.failedBoot 0

/-- The registers whose "From flash" fields take the photonic calibration tables of the running image (R592, R603), and the
mask of those fields. -/
def calRegs : List (Reg × BitVec 64) :=
  [(.HCE_XT, rwMask Reg.HCE_XT.fields), (.HCE_COEF_A, rwMask Reg.HCE_COEF_A.fields), (.HCE_COEF_B, rwMask Reg.HCE_COEF_B.fields),
    (.HCE_LOOP_CTL, F.HCE_LOOP_CTL.SET_SEL.mask), (.HCE_LOOP_CAL, rwMask Reg.HCE_LOOP_CAL.fields),
    (.TIM_PORT, F.TIM_PORT.CAL_EGR.mask ||| F.TIM_PORT.CAL_ING.mask)]

/-- The calibration tables are loaded; TEC set-points that re-planning has moved stay moved (R744). -/
def State.loadCalibration (s : State) : State :=
  let ver := s.runningVer
  let s := calRegs.foldl (fun (s : State) r =>
    (List.range r.1.desc.count).foldl (fun (s : State) i =>
      s.wreg r.1 ((s.rreg r.1 i &&& ~~~r.2) ||| (Config.calibration ver (r.1.off i) &&& r.2)) i) s) s
  s.age.moved.foldl (fun (s : State) m => s.keepMoved m.1 m.2) s

/-- The unit history as flash holds it is read: cores with a permanent unit have retired (R268). -/
def State.readHistory (s : State) : State :=
  (s.chk.hist.filter fun h => h.2.perm && decide (h.1 < 1152)).foldl (fun (s : State) h =>
    if s.retire (h.1 / 4) = 0 then s.setRetire (h.1 / 4) 2 else s) s

/-- KEEPER_BOOT: step 2 of Table 15-2; `keyringOk` tells that the keyring and the wrapped key read back whole, `recovLow` is the level of `RECOV_N` that the keeper samples (R66). -/
def execKeeperBoot (pufOk keyringOk slotOk : Bool) (s : State) (recovLow : Bool := false) : Result :=
  .next <|
    if s.pwr.started || !s.pwr.domains then s
    else
      let s := s.bootRecorder
      let e := (s.time.flashEpoch + 1) % 2 ^ 16
      let s := { s with
        pwr.started := true
        pwr.recovLow := recovLow
        time.epoch := e
        time.flashEpoch := e
        lk.inc := (s.lk.inc + 1) % 256
        rst.startMs := s.opMs
        ms.full := true }
      let s := s.deriveKeys pufOk
      let ringOk := keyringOk && (!pufOk || s.ringIntact)
      let s := ((s.wr F.TIM_STATUS.EPOCH e).wr F.SEC_STATUS.PUF_OK (b2n pufOk)).wr F.SEC_STATUS.KEYRING_OK (b2n ringOk)
      let s := (List.range 4).foldl (fun (s : State) k => s.wr F.SEC_FPR.FPR (if pufOk then leAt fprBytes (8 * k) 8 else 0) k) s
      let idOk := pufOk && ringOk
      let s := if idOk then s else s.note evIdentityFail 6 0 0 [b2n pufOk, b2n ringOk]
      let s := s.bootChoice idOk slotOk
      let s := if s.settingsBad then s.clearTrial.groupFail stINCOMPATIBLE else s
      let s := (s.readHistory.loadCalibration.loadConfig.applyStored true).loadPlan.loadLattice
      let s := s.beMaster
      let s := if s.pwr.sharing then s else s.alert aFEED_REDUND true
      let s := if s.groupState = gsGO then
          ({ s with time.trigs := kset s.time.trigs 12 ⟨s.groupT, 0⟩ }).wr F.TIM_TRIG_CTL.ARM 1 12
        else s
      s.wr F.RST_STATUS.PHASE 2

/-! ### Steps 3 to 10 -/

/-- Step 3: lasers and TECs come back, and every entry that was `LIT` is relit by stepped set-points (R581, R681). -/
def State.relight (s : State) : State :=
  let lit (x : PPath) : Bool := !x.bk && s.ctype x.own != ptyBACKUP && s.cstate x.own == psLIT
  let s := { s with path.planes := s.path.planes.map fun x => if lit x then { x with lit := true, ok := false } else x }
  let s := s.hceStart
  ((List.range 2700).filter fun k => s.flag F.HCE_LOOP_STAT.TARGET k).foldl (fun (s : State) k => s.stepPoint k true true) s

/-- Step 4: the service core answers the mailbox. -/
def State.orqUp (s : State) : State := ({ s with rst.orqDown := false }).wr F.ORQ_MB_STATUS.FW_UP 1

/-- Step 5: the chip-domain persistent fields are applied. On a trial whose settings copy cannot be read, the trial fails
(R723); firmware that can read them may bring its own copy to a newer form. -/
def State.startBlocks (s : State) : State :=
  if s.settingsBad then s.trialFail stINCOMPATIBLE
  else
    let m := s.manifest s.upd.boot.running
    let f := max (leAt m 24 2) (min (leAt m 26 2) (Config.settingsForm (leAt m 16 4) s.upd.fmt))
    (if s.onTrial then { s with upd.fmt := f } else s).applyStored false

/-- Step 6: LPDDR6 is trained (R284 to R288); `failed` names devices that did not train. -/
def State.train (s : State) (failed ms : Nat) : State :=
  let full := s.ms.full
  let s := if full then
      { s with mem := s.mem.filter fun c => decide (dramTop ≤ c.1), ms.poison := s.ms.poison.filter fun g => decide (dramTop ≤ g.1 * 64) }
    else s
  let s := { s with ms.srFail := false, blk.selfRef := false }
  let s := s |>.wr F.MEM_STATUS.KEPT (b2n !full)
    |>.wr F.MEM_STATUS.LAST_TRAIN (if full then 2 else 1)
    |>.wr F.MEM_STATUS.TRAIN_MS (min ms 65535)
    |>.wr F.MEM_STATUS.DEV_FAIL (failed % 65536)
    |>.wr F.MEM_STATUS.DRAM_OK (b2n (failed % 65536 == 0))
  ((List.range 16).filter fun d => bitOf failed d).foldl (fun (s : State) d =>
    s.tick.note evMemDeviceFail 5 4 d [d, (Config.word s.free).toNat % 256]) s

/-- Quarter `q` starts with fewer cores in service than `Q_MIN`, and is still in `Q_LIVE`: R269 applies. -/
def State.checkMin (s : State) (q : Nat) : State :=
  if bitOf (s.rd F.ID_CAP.Q_LIVE) q then s.fellBelow q s.qMin else s

/-- Step 7: the unit history is read (R268), and the quarters start; retired cores stay gated (R267), and a quarter short of cores
leaves service (R269). -/
def State.startQuarters (s : State) : State :=
  let s := (List.range 4).foldl State.startQuarter s.readHistory
  (List.range 4).foldl State.checkMin s

/-- Step 8: the wavelength-0 channels and the lanes of lit circuits train (Table 9-4). -/
def State.trainLinks (s : State) : State :=
  let s := (List.range 24).foldl (fun (s : State) p =>
    if s.laneState (w0Lane p) = lsDARK then s.setLaneState (w0Lane p) (if s.flag F.PTH_DISC_PORT.QUAR p then lsBEACON else lsCDR) else s) s
  ((List.range 512).filter fun i => (s.ctype i == ptyORIG || s.ctype i == ptyRESP) && s.cstate i == psLIT).foldl (fun (s : State) i =>
    if s.rd F.LNK_CIRC.STATE i = csNONE then s.circTrain i (s.circFar i) (s.endLanes i) else s) s

/-- An originator's entry whose lanes did not come back is `DOWN` (R682). -/
def State.startDown (s : State) (i : Nat) : State :=
  if s.circUp i || s.cstate i == psDOWN then s
  else
    let s := (s.setCstate i psDOWN).circDown i
    s.setEnt i { s.ent i with downAt := s.opMs, phase := 0, row := 0, wait := [], acks := [], cands := [], wake := [], job := none }

/-- Step 9: the path core starts, and R682 applies. -/
def State.startPaths (s : State) : State :=
  let s := s.checkNodeValid.pathCoreStart
  let orig (s : State) : List Nat := (List.range 512).filter fun i => s.ctype i == ptyORIG
  let s := ((orig s).filter fun i => s.flag F.LAT_CIRC_A.JOB_BOUND i).foldl (fun (s : State) i => s.tearDown i none) s
  ((orig s).filter fun i => s.cstate i != psRELEASING).foldl (fun (s : State) i => s.startDown i) s |>.kick

/-- Step 10: the module is ready, and the CXL `Memory_Active` bit is set; a chip reset has ended. -/
def State.becomeReady (s : State) : State :=
  let s := ({ s with pwr.memActive := true } : State)
  let s := (if s.mode = mSTARTUP then s.wr F.RST_STATUS.MODE mNORMAL else s) |>.wr F.RST_STATUS.READY 1
    |>.wr F.RST_STATUS.MEM_DROPPED 0
    |>.wr F.UPD_STATE.FAILED_BOOTS 0
  let t0 := match s.rst.running with
    | some r => if r.act.cls = 5 then r.startMs else s.rst.startMs
    | none => s.rst.startMs
  let s := s.note evReady 0 0 0 [s.mode, s.opMs - t0, s.rd F.MEM_STATUS.LAST_TRAIN]
  let s := match s.rst.running with
    | some r => if r.act.cls = 5 ∧ r.phase = ActPhase.executed then s.finishAction r else s
    | none => s
  s.afterStart

/-- The action of a step of Table 15-2. -/
def State.stepDone (s : State) (step failed ms : Nat) : State :=
  if step = 3 then s.relight
  else if step = 4 then s.orqUp
  else if step = 5 then s.startBlocks
  else if step = 6 then s.train failed ms
  else if step = 7 then s.startQuarters
  else if step = 8 then s.trainLinks
  else if step = 9 then s.startPaths
  else if step = 10 then s.becomeReady
  else s

/-- POWER_ON_STEP_COMPLETE: a step that is due completes; step 4 does so with the first heartbeat. Step 2 is KEEPER_BOOT's. -/
def execPowerOnStepComplete (step failDevs trainMs : Nat) (s : State) : Result :=
  .next <| if s.pwr.domains && s.stepDue step && step != 2 && (step != 4 || s.flag F.ORQ_HB_STATUS.COUNTING) then
      (s.wr F.RST_STATUS.PHASE (max step (s.rd F.RST_STATUS.PHASE))).stepDone step failDevs trainMs
    else s

/-! ### Both feeds lost -/

/-- Every domain except the keeper's loses power (R43, Table 2-3): no quarter and no SRAM die is supplied, the light goes dark, actions end (R675), and all that the I/O die and the
quarters hold goes with LPDDR6. -/
def State.loseDomains (s : State) : State :=
  let s := (s.endTickets.answerTaken).twoKeyReset
  let s := { s with rst.running := none, rst.removals := [] }
  let s := (s.setQueued []).chipDown
  let s : State := { s with
    mem := []
    ms.full := true
    ms.poison := []
    ms.linkDown := true
    pwr.domains := false
    pwr.proof := none
    blk.lattice := false
    blk.ioHold := false
    blk.selfRef := false
    blk.entering := false
    blk.exiting := false
    path.planes := s.path.planes.map fun x => { x with lit := false, ok := false } }
  let s := (s.wr F.ID_PWR_STATE.Q_GATED 15).wr F.ID_PWR_STATE.Q_SRAM_OFF 15
  s.hceStop.firmwareDown |>.wr F.ID_PWR_STATE.MOD_STATE 1
    |>.wr F.RST_STATUS.STEP 0
    |>.wr F.RST_STATUS.READY 0
    |>.wr F.RST_STATUS.PHASE 0

/-- BOTH_FEEDS_LOST (R43, R44): no stage carries the load. With both feeds out of range the hold-up flush runs, of `flushed`
records; with a feed in range the keeper runs on. The SEV6 names the cause: 0 both feeds out of range, 1 both stages failed. A
keeper that runs on with both stages failed has recorded its SEV6; where its feed then leaves range too, the hold-up begins and
no second SEV6 is recorded (DEDUCED, notes/assumptions/91.md). -/
def execBothFeedsLost (flushed : Nat) (s : State) : Result :=
  .next <|
    let out := !s.pwr.a.inRange && !s.pwr.b.inRange
    if s.pwr.a.carrying || s.pwr.b.carrying || s.pwr.holdUp || !(s.pwr.domains || (s.pwr.started && out)) then s
    else
      let s := if s.pwr.domains then (s.note evPowerLost 6 0 0 [b2n !out]).loseDomains else s
      if out then ({ s with pwr.holdUp := true }).holdUpFlush flushed else s

/-- FEED_RETURNS_IN_HOLD_UP (R45). -/
def execFeedReturnsInHoldUp (feed : Side) (cv : Nat) (s : State) : Result :=
  .next <|
    if !s.pwr.holdUp || !entersRange cv then s
    else
      let s := s.sawVolts feed cv
      let f := s.feed feed
      let s := ({ s with pwr.holdUp := false }).holdUpOver
      if f.fault then s.setFeed feed { f with inRange := true } else s.stageJoins feed { f with inRange := true }

/-- PERST_ASSERT (R67): the CXL port, its HDM decoders and its configuration space are reset. -/
def execPerstAssert (s : State) : Result := .next ({ s with pwr.perstLow := true, pwr.cxlCfg := [], pwr.memActive := false, ms.hdm := [], ms.hdmFail := [] }).hostLost

end Sys2Proof.Machine
end

