-- ==== Sys2Proof/Machine/TwoKey.lean ====
section
/-! DEFINITION. The keyring and two-key changes (R698 to R704, R270, R740). -/

namespace Sys2Proof.Machine

open Sys2Proof

/-! ### The authorisation (Table 16-2) -/

def tkOp (h : List (BitVec 8)) : Nat := leAt h 0 2
def tkArg (h : List (BitVec 8)) : Nat := leAt h 40 8
def tkDigest (h : List (BitVec 8)) : List (BitVec 8) := (h.drop 48).take 32

/-- `ARG` is valid for the operation (Table 16-3). -/
def tkArgOk (op arg : Nat) : Bool :=
  if op = 1 then decide (arg ≤ 5)
  else if op = 2 then decide (arg < 8)
  else if op = 3 then decide (arg < 2 ^ 16)
  else if op = 6 then decide (arg < 288) || (decide (0x200 ≤ arg) && decide (arg < 0x200 + 34))
  else arg == 0

/-- The form of an authorisation: its holder, its `ARG`, and data only where the operation takes some. -/
def tkFormOk (p : List (BitVec 8)) : Bool :=
  let op := leAt p 0 2
  (leAt p 2 1 == 4 || leAt p 2 1 == 5) && tkArgOk op (leAt p 40 8) &&
    (if op = 1 then p.length == 464 || p.length == 464 + 388 else p.length == 464 && zeroBytes p 48 80)

def State.key (s : State) (slot : Nat) : Option (List (BitVec 8)) := kfind s.upd.keys slot

/-- The fingerprint's 32 bytes, as an authorisation and a manifest carry them (R700, R707). -/
def isOwnFpr (bs : List (BitVec 8)) : Bool := bs == fprBytes

/-- Signature, counter and fingerprint of an authorisation hold, and attached data matches its digest. -/
def State.tkAuthOk (s : State) (p : List (BitVec 8)) : Bool :=
  let data := p.drop 464
  (match s.key (leAt p 2 1) with
  | some k => rsaVerify k (p.take 80) ((p.drop 80).take 384)
  | none => false) &&
    leAt p 4 4 == s.rd F.SEC_STATUS.TK_COUNTER && isOwnFpr ((p.drop 8).take 32) &&
    (data.isEmpty || sha256 data == tkDigest p)

/-! ### What a change does (Table 16-3) -/

/-- The image signing slot is named by the manifest of a verified slot (R699). -/
def State.keyInUse (s : State) (slot : Nat) : Bool :=
  [0, 1].any fun k => s.rd F.UPD_SLOT.STATE k == slVERIFIED && leAt (s.manifest k) 28 1 == slot

/-- `KEY_REPLACE`: the status with which the change cannot be applied, or the changed state. -/
def State.keyReplace (s : State) (slot : Nat) (data : List (BitVec 8)) : Except Nat State :=
  if slot ≤ 3 ∧ s.keyInUse slot then .error stPOLICY
  else if keyModulus data = 0 then
    if slot ≤ 3 then .ok ({ s with upd.keys := kdel s.upd.keys slot } : State).sealRing else .error stPOLICY
  else .ok ({ s with upd.keys := kset s.upd.keys slot data } : State).sealRing

/-- A status that no rule names: a failure of Table 0-6. -/
def State.openStatus (s : State) : Nat := openFailure (Config.word s.free)

/-- `MIN_SVN` is raised, not above the running slot's `SEC_VER` (R702). -/
def State.raiseMinSvn (s : State) (v : Nat) : Except Nat State :=
  if v < s.rd F.SEC_POLICY.MIN_SVN ∨ leAt (s.manifest s.upd.boot.running) 12 4 < v then .error s.openStatus
  else .ok (s.wr F.SEC_POLICY.MIN_SVN v).sealRing

/-- The unit has a history. -/
def Hist.any (h : Hist) : Bool := !h.times.isEmpty || h.perm

/-- A quarter that has as many cores in service as `Q_MIN` asks for again is back in `Q_LIVE` (DEDUCED, notes/assumptions/108.md). -/
def State.backLive (s : State) (q : Nat) : State :=
  if s.qMin ≤ s.inService q then s.wr F.ID_CAP.Q_LIVE (putBit (s.rd F.ID_CAP.Q_LIVE) q true) else s

/-- `UNIT_RESTORE` of a core: its units' histories go, and it returns to service after a self-test (R270). -/
def State.restoreCore (s : State) (c : Nat) : Except Nat State :=
  let us := [uMXA, uCKL, uVEC, uSFU].map (coreUnit c)
  if s.retire c = 0 ∧ !us.any fun u => (s.hist u).any then .error s.openStatus
  else
    let s := us.foldl (fun (s : State) u => s.setHist u Hist.init) s
    let was := s.retire c
    let s := (s.setRetire c 0).setCore c { s.core c with mustTest := true, gate := if was = 2 then .run else (s.core c).gate }
    .ok (s.backLive (coreQuarter c))

/-- `UNIT_RESTORE` of an engine unit. -/
def State.restoreEunit (s : State) (n : Nat) : Except Nat State :=
  if (s.hist (engUnit n)).any then .ok (s.setHist (engUnit n) Hist.init) else .error s.openStatus

/-- A debug unlock ends; in `TEST` a chip reset with `MODE` 0 follows (R704, Table 15-1). -/
def State.debugEnd (s : State) : State :=
  if s.unlocked then
    let s := ((s.wr F.SEC_STATUS.DEBUG 0).note evDebug 1 9 3 [1]).tapJudge
    if s.mode = mTEST then s.callAction ⟨5, 0, 0, evDebug, none, 9, 3, 0, false, none, false⟩ else s
  else s

/-! ### The two requests (R700 to R702) -/

/-- Both tickets of a change end, and the counter advances. -/
def State.tkFinish (s : State) (h : List (BitVec 8)) (first second status outcome : Nat) : State :=
  (((s.endTicket first status 0xFFFF).endTicket second status 0xFFFF).tick).twoKeyEnd (tkOp h) (tkArg h) outcome

/-- A change is made, or ends with the status of what forbids it. -/
def State.tkMake (s : State) (p : TwoKey) (second : Nat) (apply : State → Except Nat State) : State :=
  match apply s with
  | .ok s => s.tkFinish p.head p.ticket second stOK 0
  | .error st => s.tkFinish p.head p.ticket second st 2

/-- Two authorisations agree in bytes 0 to 1 and 4 to 79. -/
def tkAgree (a b : List (BitVec 8)) : Bool := a.take 2 == b.take 2 && (a.take 80).drop 4 == (b.take 80).drop 4

/-- R701 for a request of operation `op`; `apply` gets `ARG` and the attached data. -/
def State.twoKey (s : State) (op : Nat) (apply : Nat → List (BitVec 8) → State → Except Nat State) : State :=
  s.serve 0x0600 fun p s =>
    if leAt p 0 2 ≠ op then s
    else if !tkFormOk p then s.answer stPOLICY
    else if s.groupHolds then s.answer stBUSY
    else if !s.tkAuthOk p then s.answer stAUTH
    else match s.upd.pending with
      | none => s.accept 0x0600 fun t s =>
        (({ s with upd.pending := some ⟨p.take 80, leAt p 2 1, t, p.drop 464, s.opMs⟩ }).wr F.SEC_STATUS.TK_PENDING 1).wr F.SEC_STATUS.TK_OP op
      | some q =>
        if tkAgree p q.head ∧ q.holder ≠ leAt p 2 1 then
          let data := if q.data.isEmpty then p.drop 464 else q.data
          if op = 1 ∧ data.isEmpty then s.answer stAUTH
          else s.accept 0x0600 fun t s => s.tkMake q t (apply (tkArg p) data)
        else if q.holder = leAt p 2 1 then s.answer stAUTH
        else s.answer stBUSY

/-- KEY_REPLACE (R698, R699). -/
def execKeyReplace (s : State) : Result := .next (s.twoKey 1 fun arg data s => s.keyReplace arg data)

/-- POLICY_SET. -/
def execPolicySet (s : State) : Result :=
  .next (s.twoKey 2 fun arg _ s => .ok (s |>.wr F.SEC_POLICY.UNBOUND_OK (arg % 2)
    |>.wr F.SEC_POLICY.RECOV_PIN_EN (arg / 2 % 2)
    |>.wr F.SEC_POLICY.SPDM_EN (arg / 4 % 2)).sealRing)

/-- MIN_SVN. -/
def execMinSvn (s : State) : Result := .next (s.twoKey 3 fun arg _ s => s.raiseMinSvn arg)

/-- DEBUG_UNLOCK (R78, R704). -/
def execDebugUnlock (s : State) : Result :=
  .next (s.twoKey 4 fun _ _ s => .ok ((s.wr F.SEC_STATUS.DEBUG 1).note evDebug 1 9 3 [0]))

/-- DEBUG_RELOCK (R704). -/
def execDebugRelock (s : State) : Result := .next (s.twoKey 5 fun _ _ s => .ok s.debugEnd)

/-- UNIT_RESTORE (R270). -/
def execUnitRestore (s : State) : Result :=
  .next (s.twoKey 6 fun arg _ s => if arg < 288 then s.restoreCore arg else s.restoreEunit (arg - 0x200))

/-- EVR_CLEAR (R740). -/
def execEvrClear (s : State) : Result := .next (s.twoKey 7 fun _ _ s => .ok (s.clearRecorder (s.rd F.SEC_STATUS.TK_COUNTER)))

/-- KEEPER_RESET: the keeper is reset 100 ms later. -/
def execKeeperReset (s : State) : Result := .next (s.twoKey 8 fun _ _ s => .ok { s with upd.keepWait := true })

/-- TWOKEY_TIMEOUT: 10 minutes without the second authorisation (R702). -/
def execTwokeyTimeout (s : State) : Result :=
  .next <| match s.upd.pending with
    | none => s
    | some p => (s.endTicket p.ticket stTIMEOUT 0xFFFF).twoKeyEnd (tkOp p.head) (tkArg p.head) 1

/-- TWOKEY_STATUS (R703). -/
def execTwokeyStatus (s : State) : Result :=
  .next <| s.serve 0x0601 fun _ s =>
    let (op, holder, left) := match s.upd.pending with
      | none => (0, 0, 0)
      | some p => (tkOp p.head, p.holder, (p.since + 600000 - s.opMs) / 1000)
    s.answer stOK 0xFFFF (leBytes 4 (s.rd F.SEC_STATUS.TK_COUNTER) ++ leBytes 2 op ++ leBytes 1 holder ++ leBytes 1 0 ++ leBytes 2 left)

end Sys2Proof.Machine
end

