-- ==== Sys2Proof/Machine/Update.lean ====
section
/-! DEFINITION. Images and their delivery (R707 to R713), the service port (R710), attestation (R705, R706), the mailbox
commands of the update chapter, and the messages of an activation group (R717 to R722). -/

namespace Sys2Proof.Machine

open Sys2Proof

/-! ### Manifests (R707, R708) -/

/-- Entry `i` of `PART`: (`PART_ID`, first block, length, digest). -/
def manPart (m : List (BitVec 8)) (i : Nat) : Nat × Nat × Nat × List (BitVec 8) :=
  let o := 64 + 48 * i
  (leAt m o 1, leAt m (o + 4) 4, leAt m (o + 8) 4, (m.drop (o + 16)).take 32)

/-- The parts are complete and lie within the body blocks. -/
def manPartsOk (m : List (BitVec 8)) : Bool :=
  let n := leAt m 20 4
  let ps := (List.range 5).map (manPart m)
  ((List.range 5).all fun i => (ps.filter fun p => p.1 == i + 1).length == 1) &&
    ps.all fun p => decide (p.2.1 * 65536 + p.2.2.1 ≤ n * 65536)

/-- The form of a manifest that this module reads: `MAGIC`, `FORMAT`, `HW_TYPE`, the revision masks and the parts. -/
def manFormOk (m : List (BitVec 8)) : Bool :=
  leAt m 0 4 == 0x4E414D42 && leAt m 4 2 == 1 && leAt m 6 2 == 0x5C24 && bitOf (leAt m 8 2) Config.siRev.toNat &&
    bitOf (leAt m 10 2) Config.modRev.toNat && manPartsOk m

/-- The identity stands (R697): without it the module accepts no image. -/
def State.idOk (s : State) : Bool := s.flag F.SEC_STATUS.PUF_OK && s.flag F.SEC_STATUS.KEYRING_OK

/-- What authorises a manifest: its binding, its signature and its security version, under an intact keyring. -/
def State.manAuthOk (s : State) (m : List (BitVec 8)) : Bool :=
  s.idOk &&
  let fpr := (m.drop 32).take 32
  let zero := fpr.all fun x => x == 0
  ((zero && s.flag F.SEC_POLICY.UNBOUND_OK) || (!zero && isOwnFpr fpr)) &&
    (match if leAt m 28 1 ≤ 3 then s.key (leAt m 28 1) else none with
    | some k => rsaVerify k (m.take 65152) ((m.drop 65152).take 384)
    | none => false) && decide (s.rd F.SEC_POLICY.MIN_SVN ≤ leAt m 12 4)

/-- The status with which an unacceptable manifest is rejected (R708, R712). -/
def State.manReject (s : State) (m : List (BitVec 8)) : Option Nat :=
  if m.length ≠ 65536 ∨ !manFormOk m then some stINCOMPATIBLE
  else if !s.manAuthOk m then some stAUTH
  else none

/-- The contents of a part of a slot's image. -/
def State.partBytes (s : State) (k first len : Nat) : List (BitVec 8) :=
  ((List.range ((len + 65535) / 65536)).flatMap fun i => kget (s.image k).blocks (first + 1 + i) []).take len

/-- The SHA-256 of each part equals its digest (R709). -/
def State.partsMatch (s : State) (k : Nat) : Bool :=
  (List.range 5).all fun i =>
    let p := manPart (s.manifest k) i
    sha256 (s.partBytes k p.2.1 p.2.2.1) == p.2.2.2

/-- UPD_SLOT_VERIFIED: the verification of a slot ends (R709). -/
def execUpdSlotVerified (slot : Nat) (s : State) : Result :=
  .next <|
    if 2 ≤ slot ∨ s.rd F.UPD_SLOT.STATE slot ≠ slVERIFYING then s
    else
      let m := s.manifest slot
      let bad := (s.manReject m).isSome
      if !bad && s.partsMatch slot then
        (s |>.wr F.UPD_SLOT.STATE slVERIFIED slot
          |>.wr F.UPD_SLOT.IMAGE_VER (leAt m 16 4) slot
          |>.wr F.UPD_SLOT.SEC_VER (leAt m 12 4) slot).note evSlotVerified 0 9 3 [slot, leAt m 16 4, leAt m 12 4]
      else (s.wr F.UPD_SLOT.STATE slINVALID slot).note evSlotRejected 1 9 3 [slot, b2n !bad]

/-! ### Transfers (R711 to R713) -/

/-- A reply: `OP` with bit 7, `SESSION`, `BLOCK`, `FRAG`, `LEN`, `STATUS`, payload. -/
def State.xferReply (s : State) (op session block frag status : Nat) (payload : List (BitVec 8) := []) : State :=
  s.emit (.svc (op + 0x80) ([session, block, frag, payload.length, status] ++ payload.map BitVec.toNat))

/-- A reply whose status no rule gives. -/
def State.xferOpen (s : State) (op session block frag : Nat) : State := s.tick.xferReply op session block frag s.openStatus

/-- The keeper serves the service port. -/
def State.portServed (s : State) : Bool := s.pwr.started

/-- The message names the open session. -/
def State.inSession (s : State) (session : Nat) : Bool :=
  s.flag F.UPD_XFER.OPEN && s.rd F.UPD_XFER.SESSION == session % 2 ^ 16

/-- The first block of the transfer that is not held. -/
def State.firstMissing (s : State) : Nat :=
  let x := s.image s.targetSlot
  let n := s.rd F.UPD_XFER.TOTAL
  ((List.range n).find? fun b => (kfind x.blocks b).isNone).getD n

/-- The target slot is emptied to receive an image; the mark of an image that goes away goes with it. -/
def State.startReceiving (s : State) : State :=
  let k := s.targetSlot
  (({ s with upd.images := kdel s.upd.images k }).wreg .UPD_SLOT 0 k).wr F.UPD_SLOT.STATE slRECEIVING k

/-- The status with which `OPEN` is refused (R713). -/
def State.openRefused (s : State) : Option Nat :=
  if s.mode ≠ mRECOVERY ∧ !s.flag F.UPD_CTL.RX_EN then some stPOLICY
  else if s.onTrial ∨ s.groupOpen ∨ s.flag F.UPD_XFER.OPEN then some stBUSY
  else none

/-- OPEN (R713); the number of a session is the module's to choose. -/
def execXferOpen (resume : Bool) (blocks : Nat) (s : State) : Result :=
  .next <|
    if !s.portServed then s
    else match s.openRefused with
      | some st => s.xferReply 0x01 0 0 0 st
      | none =>
        let s := if resume ∧ s.rd F.UPD_SLOT.STATE s.targetSlot = slRECEIVING then s else s.startReceiving
        let id := (Config.word s.free).toNat % 2 ^ 16
        let s := s.tick |>.wr F.UPD_XFER.TOTAL blocks
          |>.wr F.UPD_XFER.SESSION id
          |>.wr F.UPD_XFER.OPEN 1
        s.xferReply 0x01 id (if resume then s.firstMissing else 0) 0 stOK

/-- DATA: one fragment of 1,024 bytes is placed. -/
def execXferData (session block frag : Nat) (data : List Nat) (s : State) : Result :=
  .next <|
    if !s.portServed then s
    else if s.inSession session ∧ frag < 64 ∧ data.length = 1024 ∧ block < s.rd F.UPD_XFER.TOTAL then
      let k := s.targetSlot
      let x := s.image k
      (s.setImage k { x with frags := kset x.frags (block * 64 + frag) (data.map (BitVec.ofNat 8)) }).xferReply 0x02 session block frag stOK
    else s.xferOpen 0x02 session block frag

/-- The fragments of a block, those placed since its last check over those held; none where one is missing. -/
def Image.gather (x : Image) (block : Nat) : Option (List (BitVec 8)) :=
  let held := kfind x.blocks block
  (List.range 64).foldl (fun (o : Option (List (BitVec 8))) f => match o with
    | none => none
    | some bs => match (kfind x.frags (block * 64 + f)).orElse fun _ => held.map fun h => (h.drop (1024 * f)).take 1024 with
      | some d => some (bs ++ d)
      | none => none) (some [])

/-- Without the fragments of a block. -/
def Image.settled (x : Image) (block : Nat) : Image := { x with frags := x.frags.filter fun f => f.1 / 64 != block }
def Image.hold (x : Image) (block : Nat) (bs : List (BitVec 8)) : Image := { x.settled block with blocks := kset x.blocks block bs }
def Image.discard (x : Image) (block : Nat) : Image := { x.settled block with blocks := kdel x.blocks block }

/-- A manifest arrives: it is checked under R708, and a bad one ends the session (R712). -/
def State.endManifest (s : State) (session : Nat) (bs : List (BitVec 8)) : State :=
  let k := s.targetSlot
  match s.manReject bs with
  | none =>
    let s := s.setImage k ((s.image k).hold 0 bs)
    (s |>.wr F.UPD_SLOT.IMAGE_VER (leAt bs 16 4) k
      |>.wr F.UPD_SLOT.SEC_VER (leAt bs 12 4) k).xferReply 0x03 session 0 0 stOK
  | some st =>
    let s := (s.setImage k ((s.image k).discard 0)).wr F.UPD_XFER.OPEN 0
    (s.note evSlotRejected 1 9 3 [k, 0]).xferReply 0x03 session 0 0 st

/-- A body block arrives: it is checked against `BLOCK_CRC` (R712). -/
def State.endBody (s : State) (session block : Nat) (bs : List (BitVec 8)) : State :=
  let k := s.targetSlot
  if crc32c bs = leAt (s.manifest k) (1024 + 4 * (block - 1)) 4 ∧ (kfind (s.image k).blocks 0).isSome then
    (s.setImage k ((s.image k).hold block bs)).xferReply 0x03 session block 0 stOK
  else (s.setImage k ((s.image k).discard block)).xferReply 0x03 session block 0 stINCOMPATIBLE

/-- BLOCK_END (R711, R712). -/
def execBlockEnd (session block : Nat) (s : State) : Result :=
  .next <|
    if !s.portServed then s
    else if s.inSession session ∧ block < s.rd F.UPD_XFER.TOTAL then
      let k := s.targetSlot
      match (s.image k).gather block with
      | none => (s.setImage k ((s.image k).discard block)).xferReply 0x03 session block 0 stINCOMPATIBLE
      | some bs => if block = 0 then s.endManifest session bs else s.endBody session block bs
    else s.xferOpen 0x03 session block 0

/-- CLOSE: verification starts once all blocks are held; a slot received earlier is verified again (R711, R724). -/
def execXferClose (session : Nat) (s : State) : Result :=
  .next <|
    if !s.portServed then s
    else
      let k := s.targetSlot
      if s.inSession session then
        if s.firstMissing = s.rd F.UPD_XFER.TOTAL then
          ((s.wr F.UPD_XFER.OPEN 0).wr F.UPD_SLOT.STATE slVERIFYING k).xferReply 0x04 session 0 0 stOK
        else s.xferOpen 0x04 session 0 0
      else if s.rd F.UPD_SLOT.STATE k = slRECEIVED ∧ !s.flag F.UPD_XFER.OPEN then
        (s.wr F.UPD_SLOT.STATE slVERIFYING k).xferReply 0x04 session 0 0 stOK
      else s.xferOpen 0x04 session 0 0

/-- XFER_STATUS: `UPD_STATE` and the two slots. -/
def execXferStatus (session : Nat) (s : State) : Result :=
  .next <|
    if !s.portServed then s
    else s.xferReply 0x05 session 0 0 stOK
      (leBytes 8 (s.view .UPD_STATE 0).toNat ++ leBytes 8 (s.view .UPD_SLOT 0).toNat ++ leBytes 8 (s.view .UPD_SLOT 1).toNat)

/-- BOOT: in `RECOVERY` a verified slot boots as the trial slot (R716), which needs an intact identity (R697, R709); start-up goes on
from step 2. -/
def execBoot (slot : Nat) (s : State) : Result :=
  .next <|
    if !s.portServed then s
    else if s.mode = mRECOVERY ∧ s.idOk ∧ slot < 2 ∧ s.rd F.UPD_SLOT.STATE slot = slVERIFIED then
      let s := ({ s with upd.boot.trial := some slot, ms.full := true }).wr F.UPD_STATE.TRIAL_BOOTS 0
      let s := (s.chooseSlot.wr F.UPD_STATE.RECOV_CAUSE 0).resumeStartup
      s.xferReply 0x06 0 0 0 stOK
    else s.xferOpen 0x06 0 0 0

/-- SESSION_IDLE_TIMEOUT: 30 s without a message (R713); blocks already held are kept. -/
def execSessionIdleTimeout (s : State) : Result := .next (s.wr F.UPD_XFER.OPEN 0)

/-! ### IPv6 (R710) -/

/-- The MAC address (R74, R696: 0x02 and the low 40 bits of the fingerprint, its last five bytes), and the link-local address
made from it by modified EUI-64. -/
def macBytes : List Nat := 2 :: (fprBytes.drop 27).map BitVec.toNat
def linkLocal : List Nat :=
  [0xFE, 0x80, 0, 0, 0, 0, 0, 0] ++ [Nat.xor (macBytes.getD 0 0) 2] ++ (macBytes.drop 1).take 2 ++ [0xFF, 0xFE] ++ macBytes.drop 3

/-- NEIGHBOUR_SOLICITATION: a solicitation of this module's address is answered; one from the unspecified address is answered to
all nodes. The output has the ICMPv6 type above 0x100, the destination, and the advertisement's target and link address. -/
def execNeighbourSolicitation (src target : List Nat) (s : State) : Result :=
  .next <|
    if !s.portServed ∨ target ≠ linkLocal then s
    else
      let dst := if src.all fun x => x == 0 then [0xFF, 2] ++ List.replicate 13 0 ++ [1] else src
      s.emit (.svc (0x100 + 136) (dst ++ linkLocal ++ macBytes))

/-- ECHO_REQUEST: the payload goes back in an echo reply. -/
def execEchoRequest (src payload : List Nat) (s : State) : Result :=
  .next (if s.portServed then s.emit (.svc (0x100 + 129) (src ++ payload)) else s)

/-! ### Attestation (R705, R706) -/

def spBusy : Nat := 0x03
def spInvalid : Nat := 0x01
def spUnsupported : Nat := 0x07

def State.spdmError (s : State) (code data : Nat) : State := s.emit (.spdm 0x7F [code, data])

/-- The security core does not answer SPDM requests: before step 4 of Table 15-2, during a chip reset, in `RECOVERY`. -/
def State.spdmBusy (s : State) : Bool := s.mode == mRECOVERY || s.rst.orqDown || !s.flag F.ORQ_MB_STATUS.FW_UP

/-- A request is answered with `ERROR` while the core is away or `SPDM_EN` is 0. -/
def State.spdm (s : State) (code : Nat) (f : State → State) : State :=
  if s.spdmBusy then s.spdmError spBusy 0
  else if !s.flag F.SEC_POLICY.SPDM_EN then s.spdmError spUnsupported code
  else f s

/-- GET_VERSION: version 1.2. -/
def execGetVersion (s : State) : Result := .next (s.spdm 0x84 fun s => s.emit (.spdm 0x04 [0x1200]))

/-- GET_CAPABILITIES: `CERT_CAP`, `CHAL_CAP`, `MEAS_CAP` = 10b, `MEAS_FRESH_CAP`, in bits 1, 2, 4:3 and 5. -/
def execGetCapabilities (s : State) : Result := .next (s.spdm 0xE1 fun s => s.emit (.spdm 0x61 [0x36]))

/-- NEGOTIATE_ALGORITHMS: TPM_ALG_RSAPSS_3072 (bit 3), SHA-256 (bit 0), measurements by SHA-256 (bit 1). -/
def execNegotiateAlgorithms (s : State) : Result := .next (s.spdm 0xE3 fun s => s.emit (.spdm 0x63 [8, 1, 2]))

/-- GET_DIGESTS: slot 0 alone. -/
def execGetDigests (s : State) : Result :=
  .next (s.spdm 0x81 fun s => s.emit (.spdm 0x01 (1 :: (sha256 Config.certChain).map BitVec.toNat)))

/-- GET_CERTIFICATE: a portion of the chain of slot 0, and how much follows. -/
def execGetCertificate (slot off len : Nat) (s : State) : Result :=
  .next <| s.spdm 0x82 fun s =>
    if slot ≠ 0 ∨ Config.certChain.length ≤ off then s.spdmError spInvalid 0
    else
      let p := (Config.certChain.drop off).take len
      s.emit (.spdm 0x02 ([0, p.length, Config.certChain.length - off - p.length] ++ p.map BitVec.toNat))

/-- A signature of the identity key over a message. -/
def State.signed (s : State) (m : List (BitVec 8)) : List Nat := (Config.identitySign s.free m).map BitVec.toNat

/-- CHALLENGE: slot, digest of the chain, nonce of the requester and a signature over them. -/
def execChallenge (slot : Nat) (nonce : List Nat) (s : State) : Result :=
  .next <| s.spdm 0x83 fun s =>
    if slot ≠ 0 then s.spdmError spInvalid 0
    else
      let d := sha256 Config.certChain
      (s.emit (.spdm 0x03 ([0, 1] ++ d.map BitVec.toNat ++ s.signed (d ++ nonce.map (BitVec.ofNat 8))))).tick

/-- What measurement `index` of Table 16-5 measures. -/
def State.measured (s : State) (index : Nat) : List (BitVec 8) :=
  let k := s.upd.boot.running
  if index = 1 then Config.bootRom
  else if index ≤ 6 then
    match (List.range 5).find? fun i => (manPart (s.manifest k) i).1 == index - 1 with
    | some i => s.partBytes k (manPart (s.manifest k) i).2.1 (manPart (s.manifest k) i).2.2.1
    | none => []
  else if index = 7 then (s.manifest k).take 65152
  else if index = 8 then s.ringSlots
  else leBytes 4 (s.view .SEC_POLICY 0).toNat ++ leBytes 8 (F.SEC_STATUS.DEBUG.at (s.rd F.SEC_STATUS.DEBUG))

/-- A measurement block: its index and digest. -/
def State.measurement (s : State) (index : Nat) : List (BitVec 8) := BitVec.ofNat 8 index :: sha256 (s.measured index)

/-- GET_MEASUREMENTS: index 0 asks for their number, 0xFF for all, 1 to 9 for one. -/
def execGetMeasurements (index : Nat) (signed : Bool) (nonce : List Nat) (s : State) : Result :=
  .next <| s.spdm 0xE0 fun s =>
    if 9 < index ∧ index ≠ 0xFF then s.spdmError spInvalid 0
    else
      let is := if index = 0 then [] else if index = 0xFF then (List.range 9).map (· + 1) else [index]
      let n := if index = 0 then 9 else is.length
      let bs := is.flatMap s.measurement
      let sig := if signed then s.signed (BitVec.ofNat 8 n :: bs ++ nonce.map (BitVec.ofNat 8)) else []
      (s.emit (.spdm 0x60 (n :: bs.map BitVec.toNat ++ sig))).tick

/-- SPDM_UNSUPPORTED_REQUEST. -/
def execSpdmUnsupportedRequest (code : Nat) (s : State) : Result :=
  .next (s.spdm code fun s => s.spdmError spUnsupported code)

/-! ### Mailbox commands (R633, R717, R718, R720, R722) -/

/-- UPD_STATUS. -/
def execUpdStatus (s : State) : Result :=
  .next <| s.serve 0x0700 fun _ s =>
    s.answer stOK 0xFFFF (Config.updStatus (s.view .UPD_STATE 0) (s.view .UPD_SLOT 0) (s.view .UPD_SLOT 1))

/-- The member list of a schedule, which the coordinator alone reads: host memory gives `hostList`, and a failed read has a
status that no rule names. -/
def State.readMembers (s : State) (a n : Nat) (hostList : List Nat) : Except Nat (List Nat) :=
  let off := bitsOf a 41 0
  if bitOf a 63 then
    if s.ms.linkDown || s.pwr.perstLow || decide (hostList.length < n) then .error s.openStatus else .ok (hostList.take n)
  else if !s.isLocalAddr a || decide (dramTop < off + 2 * n) then .error stPOLICY
  else if s.poisoned off (2 * n) then .error s.openStatus
  else .ok ((List.range n).map fun k => leNat (s.memRead (off + 2 * k) 2))

/-- The status of R718, or none where the member accepts. -/
def State.scheduleStatus (s : State) (t : Nat) : Option Nat :=
  let k := s.targetSlot
  let m := s.manifest k
  if s.groupOpen then some stBUSY
  else if t < s.nt + 10000000000 ∨ !s.flag F.TIM_STATUS.LOCKED then some stPOLICY
  else if s.rd F.UPD_SLOT.STATE k ≠ slVERIFIED then some stNOTFOUND
  else if s.upd.fmt < leAt m 24 2 ∨ leAt m 26 2 < s.upd.fmt then some stINCOMPATIBLE
  else none

/-- A member joins a group and reports `READY`. -/
def State.joinGroup (s : State) (p : List (BitVec 8)) (list : List Nat) (ticket : Nat) : State :=
  let w := leAt p 26 2
  let g : ActGroup := {
    count := leAt p 14 2
    list := list
    confirm := bitOf (leAt p 24 1) 0
    window := if w = 0 then 60 else w
    ticket := some ticket
    vers := []
    notReady := []
    oks := []
    decision := 0
    decided := 0
    sentOk := false
    hostOk := false
    fail := none
    node := 0
    late := false }
  let s := { s with upd.group := some g }
  (s |>.wr F.UPD_GROUP.GROUP_ID (leAt p 0 4)
    |>.wr F.UPD_GROUP.COORD (leAt p 12 2)
    |>.wr F.UPD_GROUP.IS_COORD (b2n (leAt p 12 2 == s.node))
    |>.wr F.UPD_GROUP.REPORTED 0
    |>.wr F.UPD_GROUP_T.T (leAt p 4 8)
    |>.wr F.UPD_STATE.GROUP_STATE gsSCHEDULED).report gmREADY 0

/-- UPD_SCHEDULE (R718). -/
def execUpdSchedule (hostList : List Nat) (s : State) : Result :=
  .next <| s.serve 0x0701 fun p s =>
    match s.scheduleStatus (leAt p 4 8) with
    | some st => s.answer st
    | none =>
      let coord := leAt p 12 2 == s.node
      let a := leAt p 16 8
      let n := leAt p 14 2
      let s := if coord ∧ bitOf a 63 then s.emit (.hostRead (bitsOf a 51 0) (2 * n)) else s
      match if coord then s.readMembers a n hostList else .ok [] with
      | .error st => s.tick.answer st
      | .ok list => s.accept 0x0701 fun t s => s.joinGroup p list t

/-- UPD_CONFIRM: a group's member may now report `TRIAL_OK`; a trial that `BOOT` started is confirmed (R716, R720). -/
def execUpdConfirm (s : State) : Result :=
  .next <| s.serve 0x0702 fun _ s =>
    if !s.onTrial then s.answer stNOTFOUND
    else s.accept 0x0702 fun t s =>
      let s := if s.groupOpen then (s.setGroup ActGroup.confirmedBy).trialReport else s.confirmTrial
      s.endTicket t stOK 0xFFFF

/-- UPD_CANCEL (R722). -/
def execUpdCancel (s : State) : Result :=
  .next <| s.serve 0x0703 fun _ s =>
    if !s.groupOpen then s.answer stNOTFOUND
    else s.accept 0x0703 fun t s =>
      let s := if s.groupState = gsSCHEDULED then s.report gmNOT_READY stRUNNING else s.trialFail stRUNNING
      s.endTicket t stOK 0xFFFF

/-! ### Messages of a group (Table 16-10) -/

/-- A message of this member's coordinator about its group. -/
def State.fromCoord (s : State) (src group : Nat) : Bool := s.rd F.UPD_GROUP.COORD == src && s.groupId == group && !s.isCoord

/-- READY, at the coordinator. -/
def execReady (src group imageVer : Nat) (s : State) : Result := .next (s.coordReady src group imageVer)

/-- NOT_READY, at the coordinator. -/
def execNotReady (src group _status : Nat) (s : State) : Result :=
  .next (s.coordNotReady src group)

/-- GO_DECISION: *T* − 2 s at the coordinator. -/
def execGoDecision (s : State) : Result := .next s.coordDecide

/-- GO, at a member; its `T` is the schedule's. -/
def execGo (src group t : Nat) (s : State) : Result := .next (if s.fromCoord src group ∧ t = s.groupT then s.memberGo else s)

/-- GROUP_ABORT, at a member. -/
def execGroupAbort (src group : Nat) (s : State) : Result := .next (if s.fromCoord src group then s.memberAbort else s)

/-- The trial has failed already, before *T* (R722). -/
def State.trialLost (s : State) : Bool := (s.upd.group.bind ActGroup.fail).isSome

/-- ACTIVATION_AT_T: with `GO` held the member activates, unless `UPD_CANCEL` has failed the trial; without it the member reports
`TIMEOUT`. -/
def execActivationAtT (s : State) : Result :=
  .next <|
    if s.groupState = gsGO then (if s.trialLost then s else s.activate)
    else if s.groupState = gsSCHEDULED then s.report gmTRIAL_FAIL stTIMEOUT
    else s

/-- TRIAL_OK, at the coordinator. -/
def execTrialOk (src group : Nat) (s : State) : Result := .next (s.coordOk src group)

/-- TRIAL_FAIL, at the coordinator. -/
def execTrialFail (src group status : Nat) (s : State) : Result := .next (s.coordFail src group status)

/-- ALL_OK, at a member. -/
def execAllOk (src group : Nat) (s : State) : Result := .next (if s.fromCoord src group then s.memberAllOk else s)

/-- ROLLBACK, at a member. -/
def execRollback (src group : Nat) (s : State) : Result := .next (if s.fromCoord src group then s.memberRollback else s)

/-- QUERY: the coordinator repeats its decision, which it keeps for 24 hours of operating time (R722). -/
def execQuery (src group : Nat) (s : State) : Result :=
  .next <| match s.coordOf group with
    | some g => if g.decision ≠ 0 ∧ s.opMs < g.decided + 86400000 ∧ g.list.contains src then s.sendGroup src g.decision 0 else s
    | none => s

/-- QUERY_RESEND: every second while a member that has sent `TRIAL_OK` holds no decision. -/
def execQueryResend (s : State) : Result :=
  .next <| match s.upd.group with
    | some g => if g.sentOk ∧ s.groupState = gsTRIAL ∧ !s.isCoord then s.sendGroup (s.rd F.UPD_GROUP.COORD) gmQUERY 0 else s
    | none => s

/-- TRIAL_WINDOW_EXPIRES: *T* + `WINDOW` without all `TRIAL_OK`. -/
def execTrialWindowExpires (s : State) : Result :=
  .next <| match s.coordOf s.groupId with
    | some g => if g.decision = gmGO then s.decide_ gmROLLBACK else s
    | none => s

end Sys2Proof.Machine
end

