-- ==== Sys2Proof/Machine/Block.lean ====
section
/-! DEFINITION. Quarter gating and the module power states (R100 to R108, R116, R118, R31, R481). -/

namespace Sys2Proof.Machine

open Sys2Proof

/-- Quarter `q` has groups of a dispatch still to start. -/
def State.dispatchWants (s : State) (q : Nat) : Bool :=
  s.resident.any fun slot => (List.range 8).any fun j => (s.queue (qi slot j)).cmds.any fun c =>
    match c.work with
    | some (.dispatch d) => decide (d.next < c.groups) && c.span.any fun x => coreQuarter x == q
    | _ => false

/-- The addresses that a copy command, a collective or a memory wait names as its operands (Table 7-12, Table 7-15). -/
def Cmd.places (c : Cmd) : List Nat :=
  let a := leAt c.bytes 8 8
  let b := leAt c.bytes 16 8
  let op := c.opcode
  if op = 0x22 ∨ op = 0x05 then [b]
  else if op = 0x20 ∨ op = 0x21 ∨ (0x30 ≤ op ∧ op ≤ 0x33) then [a, b]
  else if op = 0x23 then [a, b, leAt c.bytes 40 8]
  else []

/-- A global address lies in the SRAM of quarter `q` of this module. -/
def State.inQuarter (s : State) (q ga : Nat) : Bool :=
  s.isLocalAddr ga && (placeOf (bitsOf ga 41 0)).sramQuarter == some q

/-- An engine has work addressed to quarter `q`: a started command that has not ended with an operand there, a copy under way to it, or
a live ring run whose span meets it. -/
def State.engineWants (s : State) (q : Nat) : Bool :=
  (s.resident.any fun slot => (List.range 8).any fun j => (s.queue (qi slot j)).cmds.any fun c =>
    (match c.work with
    | none | some (.done _ _) => false
    | _ => !c.ended) && c.places.any (s.inQuarter q)) ||
  (s.ms.reqs.any fun r => match r.2.dst with
    | .copyTo dst => s.inQuarter q dst
    | _ => false) ||
  s.eng.rings.any fun r => match s.ringActive r.1 with
    | some x => (List.range x.coreSpan).any fun i => coreQuarter (x.coreFirst + i) == q
    | none => false

/-- R100: no core of the quarter has a runnable thread, and no engine has work addressed to it. A core counts here while it is
not idle (R178), since the gate loses what it holds (DEDUCED, notes/assumptions/60.md). -/
def State.quarterQuiet (s : State) (q : Nat) : Bool :=
  (quarterCores q).all (fun c => s.coreIdle c && !(s.core c).zeroing && (s.core c).waiting.isEmpty && (s.core c).tile.isNone) &&
    (s.quarter q).waiting.isEmpty && !(s.quarter q).waking && !s.dispatchWants q && !s.engineWants q

/-- QUARTER_GATE (R100): the compute die goes off, the SRAM die keeps its contents. With `finished` the gate is complete; without
it the gate has begun and is in progress, until it completes or a wake request aborts it (R103). -/
def execQuarterGate (quarter : Nat) (s : State) (finished : Bool := true) : Result :=
  .next <|
    if quarter < 4 ∧ !s.gated quarter ∧ !(s.quarter quarter).inReset ∧ s.quarterQuiet quarter then
      let s := s.setQuarter quarter { s.quarter quarter with gating := !finished }
      if finished then
        (s.mapQuarter quarter Core.loseLogic).setGated quarter true
      else s
    else s

/-- QUARTER_OVERHEAT_GATE (R31, R101, R116): at 110 °C (junction in 0.1 °C) quarter and SRAM lose their supply, and SEV4 calls
for the partition reset. -/
def execQuarterOverheatGate (quarter : Nat) (junction : Int) (s : State) : Result :=
  .next <|
    if quarter < 4 ∧ 1100 ≤ junction ∧ !(s.gated quarter && bitOf (s.rd F.ID_PWR_STATE.Q_SRAM_OFF) quarter) then
      let s := s.mapQuarter quarter fun k => { k.restart with gate := .power, waiting := k.waiting }
      let s := (s.setGated quarter true).cutSram quarter
      let s := s.setQuarter quarter { s.quarter quarter with outOfSvc := true, gating := false }
      s.record evOverheat 4 2 quarter [quarter, ofSigned 16 junction]
    else s

/-- An access that waited for the wake is performed, or waits on for a zeroing core (R124). -/
def State.afterWake (s : State) (m : MemReq) : State :=
  match m.kind with
  | .regRead w => s.emit (.bar0 (s.hostRead m.addr w))
  | .regWrite w v => s.writeParts (accessParts m.addr w) v
  | _ => match placeOf m.addr with
    | .core c =>
      let k := s.core c
      if k.zeroing then s.setCore c { k with waiting := k.waiting ++ [m] } else s.performReq m
    | _ => s.performReq m

/-- QUARTER_WAKE (R102, R103, R118): work for a quarter that is gated, or being gated, asks it to wake, and the access waits for
that. An access to a quarter that is awake is performed; in a partition reset it is turned away (R119). -/
def execQuarterWake (quarter : Nat) (access : Option MemReq) (s : State) : Result :=
  .next <|
    if 4 ≤ quarter then s
    else if (s.quarter quarter).inReset then s.refuseWaiting access.toList
    else if s.dozing quarter then s.wakeFor quarter access.toList
    else access.toList.foldl State.afterWake s

/-- QUARTER_READY (R102): the quarter is ungated; accesses that waited are performed in their order, and reserved groups start
on cores that need no zeroing. A quarter without SRAM, or one held gated for the coolant, does not wake. -/
def execQuarterReady (quarter : Nat) (s : State) : Result :=
  .next <|
    let v := s.quarter quarter
    if 4 ≤ quarter ∨ !v.waking ∨ v.inReset ∨ v.outOfSvc ∨ s.pwr.coolStop then s
    else
      let s := s.setQuarter quarter { v with
        waking := false
        waiting := []
        ceiling := v.ceilNext
        guardMv := v.guardNext
        mhz := min v.mhz v.ceilNext }
      let s := if s.gated quarter then s.setGated quarter false else s
      let s := v.waiting.foldl State.afterWake s
      ((quarterCores quarter).filter fun c => !(s.core c).zeroing && !(s.core c).reserved.isEmpty).foldl State.startReserved s

/-! ### `DORMANT` (R104 to R108) -/

/-- The conditions of R105. -/
def State.dormantOk (s : State) : Bool :=
  s.rd F.ID_PWR_STATE.MOD_STATE == 1 && (List.range 512).all (fun i => s.ctype i == 0) && s.resident.isEmpty &&
    s.flag F.ID_PWR_CFG.DORMANT_EN && s.mode == mNORMAL && s.rd F.RST_STATUS.STEP == 0 && !s.blk.exiting

/-- DORMANT_ENTRY: `PD_LATTICE` goes off, `PD_IO` enters its low-power hold and LPDDR6 self-refresh; the channels are dark but for
the low-power detectors (R104, R107, R481). With `finished` the entry is complete; without it the entry has begun and is in
progress, until it completes or an event of R106 aborts it (R108). -/
def execDormantEntry (s : State) (finished : Bool := true) : Result :=
  .next <|
    if s.dormantOk then
      if finished then
        let s := ({ s with blk.entering := false, blk.lattice := false, blk.ioHold := true, blk.selfRef := true }).wr
          F.ID_PWR_STATE.MOD_STATE 2
        (List.range 24).foldl (fun (s : State) p => s.setLaneState (w0Lane p) lsDARK) s.hceStop
      else { s with blk.entering := true }
    else s

/-- DORMANT_EXIT (R106, R108). -/
def execDormantExit (_cause : DormantCause) (s : State) : Result := .next s.leaveDormant

/-- WAKE_PATTERN: a neighbour's wake pattern is the exit event of R106 (R481). -/
def execWakePattern (_port : Nat) (s : State) : Result := .next s.leaveDormant

/-- DORMANT_EXIT_READY (R107): lasers and TECs are back, and the channels train again. -/
def execDormantExitReady (s : State) : Result :=
  .next <| if s.blk.exiting then ({ s with blk.exiting := false }).hceStart.trainLinks else s

end Sys2Proof.Machine
end

