-- ==== Sys2Proof/Machine/Receive.lean ====
section
/-! DEFINITION. Received packets (R450 to R458): requests at their home (R291 to R296, R304), responses at their requester
(R455), and relayed protected messages (R477, R479, R549). -/

namespace Sys2Proof.Machine

open Sys2Proof

/-! ### Requests at their home -/

/-- A remote requester: `part` keeps its engine code and `thread` its node. -/
def remoteSource (p : Pkt) : Source := ⟨7, p.job, p.ctx, p.engine, p.core, p.src, ⟨0, p.queue, p.cmdIdx⟩, 0⟩

/-- Mirror traffic of this module's primary (R315): the module whose buddy this one is, under R688 its own buddy too. A frozen copy
takes none (Table 6-7). -/
def State.fromPrimary (s : State) (p : Pkt) : Bool :=
  p.mirror && !s.ms.frozen &&
    (p.src == s.rd F.RST_MIRROR_STATUS.PEER || (s.flag F.MEM_MIRROR_CFG.EN && p.src == s.rd F.MEM_MIRROR_CFG.BUDDY))

/-- The answer's packet, its data to come; `aop` 1 marks an atomic's, and `dst` keeps the requester's node. -/
def State.answerPkt (s : State) (p : Pkt) (atomic : Bool) : Pkt :=
  { Pkt.zero with
    src := s.node, job := p.job, ctx := p.ctx, engine := p.engine, rtag := p.rtag, inc := s.lk.inc, dst := p.src
    fetch := p.fetch, aop := b2n atomic }

/-- The answer `a` of a request that fails with a cause. -/
def State.homeFail (s : State) (c : Nat) (a : Pkt) (rsp cause : Nat) : State :=
  s.enqueue c rsp { (answered a []) with status := cause, len := 0, payload := [] }

/-- A request is checked and performed, and answered with packet type `rsp` on the circuit it came on. -/
def State.homeRequest (s : State) (c : Nat) (p : Pkt) (k : MemKind) (rsp : Nat) : State :=
  let a := s.answerPkt p k.isAtom
  let refuse (s : State) (cause : Nat) : State := s.homeFail c a rsp cause
  match s.checkAccess p.job true (s.fromPrimary p) (p.engine == 6) k p.addr with
  | some cause =>
    let s := if cause = gcPOISON then
        s.record evMemEccUncorr 2 4 (deviceOf p.addr) [deviceOf p.addr, deviceAddr p.addr, p.engine] (some p.ctx)
      else s
    refuse s cause
  | none => match s.homeAccess (remoteSource p) k p.addr (.reply c a rsp) with
    | (s, .data bs) => (s.when k.writes fun s => s.ringCount p.src p.addr k.size).enqueue c rsp (answered a bs)
    | (s, .failed cause) => refuse s cause
    | (s, .pending _) => s

/-- The atomic operation of an `AOP` code. -/
def atomOfCode (n : Nat) : AtomOp :=
  if n = 0 then .add64 else if n = 1 then .cas64 else if n = 2 then .min64 else if n = 3 then .max64 else .fadd32

/-- The codes under which an ECC finding travels with a packet. -/
def eccCode : EccFinding → Nat
  | .clean => 0
  | .wrongGranule => 1
  | .errors n => n + 2

/-- And back. -/
def eccOf (n : Nat) : EccFinding := if n = 0 then .clean else if n = 1 then .wrongGranule else .errors (n - 2)

/-- A request at its home, with what ECC finds on the granule that it reads, or writes in part. A two-bit error of on-package SRAM
fails the requester, with `POISON` as its cause (notes/assumptions/62.md). -/
def State.takeRequest (s : State) (c : Nat) (p : Pkt) (k : MemKind) (rsp note : Nat) : State :=
  let run (s : State) : State := s.homeRequest c p k rsp
  if (s.checkAccess p.job true (s.fromPrimary p) (p.engine == 6) k p.addr).isSome then run s
  else match (placeOf p.addr).sramKind with
    | some kind =>
      s.sramEcc 6 c kind p.addr (eccOf note) (some p.ctx) run fun s => s.homeFail c (s.answerPkt p k.isAtom) rsp gcPOISON
    | none => run (s.eccFound (s.framed p.addr) (eccOf note) (some p.ctx))

/-- A write at its home. -/
def State.takeWR (s : State) (c : Nat) (p : Pkt) (note : Nat) : State := s.takeRequest c p (.write p.payload) ptCPL note

/-- A read at its home. -/
def State.takeRD (s : State) (c : Nat) (p : Pkt) (note : Nat) : State := s.takeRequest c p (.read p.len) ptRDRSP note

/-- An atomic at its home. -/
def State.takeATOM (s : State) (c : Nat) (p : Pkt) (note : Nat) : State :=
  s.takeRequest c p (.atom (atomOfCode p.aop) (BitVec.ofNat 64 (leAt p.payload 0 8)) (BitVec.ofNat 64 (leAt p.payload 8 8)))
    ptATOMRSP note

/-! ### Responses at their requester (R455) -/

/-- The outstanding request of a tag. -/
def State.reqOfTag (s : State) (rtag : Nat) : Option (Nat × OutReq) :=
  s.ms.reqs.find? fun r => r.1 % 2 ^ 16 == rtag && (match r.2.loc with
    | .node _ | .buddy => true
    | _ => false)

/-- A response: late ones are counted. The acknowledgement of a mirror write answers the write (R316). -/
def State.takeRSP (s : State) (p : Pkt) : State :=
  match s.reqOfTag p.rtag with
  | none => s.bump F.LNK_CNT_LATE.COUNT
  | some r =>
    let bs := (kfind s.ms.mirWait r.1).getD p.payload
    let s : State := { s with ms.mirWait := s.ms.mirWait.filter fun t => t.1 != r.1 }
    if p.status = 0 then (s.answerReq r.1 bs).resyncPct else s.failReq r.1 p.status

/-! ### Protected messages -/

/-- A message of this module has come back: a `NODE` entry with replacement next hops is installed (R549), or none is free (R553).
The replacement is the other next hop (DESIGN CHOICE, notes/assumptions/61.md). -/
def State.replaceHops (s : State) (p : Pkt) : State :=
  let r := s.routeOf p.dst
  let e := kget s.routes (nodeKey p.dst) Route.init
  if e.repl then s
  else if s.rtFullFor p.dst then s.rtFull p.dst
  else
    let e : Route := { e with repl := true, a := if p.copyB then r.a else r.b, b := none }
    { s with routes := kset s.routes (nodeKey p.dst) e }

/-- A protected message: for another node it is relayed; for this one its number is judged (R477), and the message's own
command delivers it. -/
def State.takePMSG (s : State) (p : Pkt) : State :=
  if p.dst = s.node then (s.acceptPmsg p).1
  else (if p.src = s.node then s.replaceHops p else s).relayPmsg p

/-! ### The consumers, by packet type -/

/-- A received packet goes to its consumer. -/
def State.takePacket (c : Nat) (t : TxPkt) (s : State) : State :=
  if t.type = ptWR then s.takeWR c t.pkt t.born
  else if t.type = ptRD then s.takeRD c t.pkt t.born
  else if t.type = ptATOM then s.takeATOM c t.pkt t.born
  else if t.type = ptCOLL then s.collData t.pkt t.born
  else if t.type = ptRDRSP ∨ t.type = ptATOMRSP ∨ t.type = ptCPL then s.takeRSP t.pkt
  else if t.type = ptPMSG then s.takePMSG t.pkt
  else s

/-- WR: performed at its home, answered with `CPL`; `ecc` is what ECC finds on the granule. -/
def execWr (lane : Nat) (pkt : Pkt) (s : State) (ecc : EccFinding := .clean) : Result :=
  .next (s.receive lane ptWR pkt (eccCode ecc) State.takePacket)

/-- RD: answered with `RD_RSP`. -/
def execRd (lane : Nat) (pkt : Pkt) (ecc : EccFinding) (s : State) : Result :=
  .next (s.receive lane ptRD pkt (eccCode ecc) State.takePacket)

/-- ATOM: performed once, answered with `ATOM_RSP`. -/
def execAtom (lane : Nat) (pkt : Pkt) (s : State) (ecc : EccFinding := .clean) : Result :=
  .next (s.receive lane ptATOM pkt (eccCode ecc) State.takePacket)

/-- COLL_DATA: `residue` and `residue2` are the arithmetic errors of the reduction ALU's computation and of its repeat (R252, R255). -/
def execCollData (lane : Nat) (pkt : Pkt) (residue : Int) (s : State) (residue2 : Int := 0) : Result :=
  let failed := if !residueSees residue then 0 else if !residueSees residue2 then 1 else 2
  .next (s.receive lane ptCOLL pkt failed State.takePacket)

/-- RD_RSP. -/
def execRdRsp (lane : Nat) (pkt : Pkt) (s : State) : Result := .next (s.receive lane ptRDRSP pkt 0 State.takePacket)
/-- ATOM_RSP. -/
def execAtomRsp (lane : Nat) (pkt : Pkt) (s : State) : Result := .next (s.receive lane ptATOMRSP pkt 0 State.takePacket)
/-- CPL. -/
def execCpl (lane : Nat) (pkt : Pkt) (s : State) : Result := .next (s.receive lane ptCPL pkt 0 State.takePacket)
/-- VOID: its number is taken and nothing is consumed. -/
def execVoid (lane : Nat) (pkt : Pkt) (s : State) : Result := .next (s.receive lane ptVOID pkt 0 State.takePacket)
/-- PMSG_RELAY. -/
def execPmsgRelay (lane : Nat) (pkt : Pkt) (s : State) : Result := .next (s.receive lane ptPMSG pkt 0 State.takePacket)

end Sys2Proof.Machine
end

