-- ==== Sys2Proof/Machine/Dispatch.lean ====
section
/-! DEFINITION. The dispatch of a command to its meaning: one arm per constructor of `Instr`. -/

namespace Sys2Proof.Machine

/-- The effect of a command on everything but the queue. -/
def exec (i : Instr) (s : State) : Host.Outcome State Fault Refusal :=
  match i with
  | .registerWrite off width val => Sys2Proof.Machine.execRegisterWrite off width val s
  | .bar0BadAccess off width isWrite => Sys2Proof.Machine.execBar0BadAccess off width isWrite s
  | .computeClockStep inlet quarter => Sys2Proof.Machine.execComputeClockStep inlet quarter s
  | .inletOverLimit inlet => Sys2Proof.Machine.execInletOverLimit inlet s
  | .inletRecovered inlet => Sys2Proof.Machine.execInletRecovered inlet s
  | .quarterOverheatGate quarter junction => Sys2Proof.Machine.execQuarterOverheatGate quarter junction s
  | .powerLimitClockStep watts quarter => Sys2Proof.Machine.execPowerLimitClockStep watts quarter s
  | .feedEntersRange feed cv => Sys2Proof.Machine.execFeedEntersRange feed cv s
  | .feedLeavesRange feed cv => Sys2Proof.Machine.execFeedLeavesRange feed cv s
  | .stageFault feed => Sys2Proof.Machine.execStageFault feed s
  | .stageFaultClears feed => Sys2Proof.Machine.execStageFaultClears feed s
  | .feedReturnWaitExpires feed => Sys2Proof.Machine.execFeedReturnWaitExpires feed s
  | .shareRampComplete => Sys2Proof.Machine.execShareRampComplete s
  | .feedRedundStartCheck => Sys2Proof.Machine.execFeedRedundStartCheck s
  | .bothFeedsLost flushed => Sys2Proof.Machine.execBothFeedsLost flushed s
  | .feedReturnsInHoldUp feed cv => Sys2Proof.Machine.execFeedReturnsInHoldUp feed cv s
  | .holdUpExpires => Sys2Proof.Machine.execHoldUpExpires s
  | .feedHealthHeartbeat busRead => Sys2Proof.Machine.execFeedHealthHeartbeat s busRead
  | .monPathLost => Sys2Proof.Machine.execMonPathLost s
  | .proofTestPhaseEnd vmin tpk => Sys2Proof.Machine.execProofTestPhaseEnd vmin tpk s
  | .smbStatus => Sys2Proof.Machine.execSmbStatus s
  | .smbAlertClear mask pecOk => Sys2Proof.Machine.execSmbAlertClear mask s pecOk
  | .smbAlertMask isWrite val pecOk => Sys2Proof.Machine.execSmbAlertMask isWrite val s pecOk
  | .feedAV => Sys2Proof.Machine.execFeedAV s
  | .feedAI => Sys2Proof.Machine.execFeedAI s
  | .feedBV => Sys2Proof.Machine.execFeedBV s
  | .feedBI => Sys2Proof.Machine.execFeedBI s
  | .inputPower => Sys2Proof.Machine.execInputPower s
  | .inletTemp => Sys2Proof.Machine.execInletTemp s
  | .outletTemp => Sys2Proof.Machine.execOutletTemp s
  | .hbCount => Sys2Proof.Machine.execHbCount s
  | .smbProofTest val pecOk => Sys2Proof.Machine.execSmbProofTest val s pecOk
  | .proofResult => Sys2Proof.Machine.execProofResult s
  | .pwrcycReason => Sys2Proof.Machine.execPwrcycReason s
  | .smbUnknownCommand code => Sys2Proof.Machine.execSmbUnknownCommand code s
  | .smbAlertResponse => Sys2Proof.Machine.execSmbAlertResponse s
  | .perstAssert => Sys2Proof.Machine.execPerstAssert s
  | .perstDeassert => Sys2Proof.Machine.execPerstDeassert s
  | .cxlConfigRequest off isWrite val => Sys2Proof.Machine.execCxlConfigRequest off isWrite val s
  | .trefLost => Sys2Proof.Machine.execTrefLost s
  | .trefRestored => Sys2Proof.Machine.execTrefRestored s
  | .tapBypass => Sys2Proof.Machine.execTapBypass s
  | .tapIdcode => Sys2Proof.Machine.execTapIdcode s
  | .tapExtest scan => Sys2Proof.Machine.execTapExtest s scan
  | .tapIntest scan => Sys2Proof.Machine.execTapIntest s scan
  | .tapOtherInstruction code => Sys2Proof.Machine.execTapOtherInstruction code s
  | .powerCycleNotExecuted => Sys2Proof.Machine.execPowerCycleNotExecuted s
  | .quarterGate quarter finished => Sys2Proof.Machine.execQuarterGate quarter s finished
  | .quarterWake quarter access => Sys2Proof.Machine.execQuarterWake quarter access s
  | .quarterReady quarter => Sys2Proof.Machine.execQuarterReady quarter s
  | .dormantEntry finished => Sys2Proof.Machine.execDormantEntry s finished
  | .dormantExit cause => Sys2Proof.Machine.execDormantExit cause s
  | .dormantExitReady => Sys2Proof.Machine.execDormantExitReady s
  | .referencesLost => Sys2Proof.Machine.execReferencesLost s
  | .referenceQualified tref => Sys2Proof.Machine.execReferenceQualified tref s
  | .scalarInstruction core thread op parity => Sys2Proof.Machine.execScalarInstruction core thread op parity s
  | .vectorInstruction core thread op parity => Sys2Proof.Machine.execVectorInstruction core thread op parity s
  | .laneReduction core thread op fp rd ra pr parity => Sys2Proof.Machine.execLaneReduction core thread op fp rd ra pr s parity
  | .cvt core thread rd rs ra src dst ctrl pr parity => Sys2Proof.Machine.execCvt core thread rd rs ra src dst ctrl pr s parity
  | .srseed core thread rs parity => Sys2Proof.Machine.execSrseed core thread rs s parity
  | .exp2 core thread rd ra pr parity => Sys2Proof.Machine.execExp2 core thread rd ra pr s parity
  | .log2 core thread rd ra pr parity => Sys2Proof.Machine.execLog2 core thread rd ra pr s parity
  | .rcp core thread rd ra pr parity => Sys2Proof.Machine.execRcp core thread rd ra pr s parity
  | .rsqrt core thread rd ra pr parity => Sys2Proof.Machine.execRsqrt core thread rd ra pr s parity
  | .sqrt core thread rd ra pr parity => Sys2Proof.Machine.execSqrt core thread rd ra pr s parity
  | .sin core thread rd ra pr parity => Sys2Proof.Machine.execSin core thread rd ra pr s parity
  | .cos core thread rd ra pr parity => Sys2Proof.Machine.execCos core thread rd ra pr s parity
  | .tanh core thread rd ra pr parity => Sys2Proof.Machine.execTanh core thread rd ra pr s parity
  | .coreStoreLoad core thread acc ecc parity => Sys2Proof.Machine.execCoreStoreLoad core thread acc ecc s parity
  | .coreStoreStore core thread acc parity => Sys2Proof.Machine.execCoreStoreStore core thread acc s parity
  | .quarterStoreAccess core thread isStore acc ecc parity => Sys2Proof.Machine.execQuarterStoreAccess core thread isStore acc ecc s parity
  | .globalLoad core thread acc ecc parity => Sys2Proof.Machine.execGlobalLoad core thread acc ecc s parity
  | .globalStore core thread acc ecc parity => Sys2Proof.Machine.execGlobalStore core thread acc s ecc parity
  | .gather core thread sp rd ra base pr ecc parity => Sys2Proof.Machine.execGather core thread sp rd ra base pr s ecc parity
  | .scatter core thread sp rs ra base pr ecc parity => Sys2Proof.Machine.execScatter core thread sp rs ra base pr s ecc parity
  | .add64 core thread acc ecc parity => Sys2Proof.Machine.execAdd64 core thread acc s ecc parity
  | .cas64 core thread acc ecc parity => Sys2Proof.Machine.execCas64 core thread acc s ecc parity
  | .min64 core thread acc ecc parity => Sys2Proof.Machine.execMin64 core thread acc s ecc parity
  | .max64 core thread acc ecc parity => Sys2Proof.Machine.execMax64 core thread acc s ecc parity
  | .fadd32 core thread acc ecc parity => Sys2Proof.Machine.execFadd32 core thread acc s ecc parity
  | .mload core thread spec ecc => Sys2Proof.Machine.execMload core thread spec ecc s
  | .mma core thread spec => Sys2Proof.Machine.execMma core thread spec s
  | .mstore core thread spec ecc parity => Sys2Proof.Machine.execMstore core thread spec ecc s parity
  | .bar core thread b n => Sys2Proof.Machine.execBar core thread b n s
  | .ewait core thread e rs parity => Sys2Proof.Machine.execEwait core thread e rs s parity
  | .esignal core thread e isAdd rs parity => Sys2Proof.Machine.execEsignal core thread e isAdd rs s parity
  | .fenceAcq core thread => Sys2Proof.Machine.execFenceAcq core thread s
  | .fenceRel core thread => Sys2Proof.Machine.execFenceRel core thread s
  | .yield core thread => Sys2Proof.Machine.execYield core thread s
  | .yieldHoldExpires core thread => Sys2Proof.Machine.execYieldHoldExpires core thread s
  | .exit core thread => Sys2Proof.Machine.execExit core thread s
  | .loadResultWritten core thread tag => Sys2Proof.Machine.execLoadResultWritten core thread tag s
  | .mloadBankFilled core => Sys2Proof.Machine.execMloadBankFilled core s
  | .mstoreComplete core => Sys2Proof.Machine.execMstoreComplete core s
  | .tileVerdict core upset residue ecc => Sys2Proof.Machine.execTileVerdict core upset residue s ecc
  | .replayVerdict core upset residue ecc => Sys2Proof.Machine.execReplayVerdict core upset residue s ecc
  | .siblingStart core uncorrectable => Sys2Proof.Machine.execSiblingStart core uncorrectable s
  | .arbiterVerdict core upset upset2 residue residue2 => Sys2Proof.Machine.execArbiterVerdict core upset upset2 s residue residue2
  | .resultTransferComplete core digestOk => Sys2Proof.Machine.execResultTransferComplete core digestOk s
  | .arbWaitExpires core => Sys2Proof.Machine.execArbWaitExpires core s
  | .coreZeroingComplete core => Sys2Proof.Machine.execCoreZeroingComplete core s
  | .heldWritePerformed core => Sys2Proof.Machine.execHeldWritePerformed core s
  | .coreClockGate core cycles finished => Sys2Proof.Machine.execCoreClockGate core cycles s finished
  | .corePowerGate core micros finished => Sys2Proof.Machine.execCorePowerGate core micros s finished
  | .coreWake core => Sys2Proof.Machine.execCoreWake core s
  | .coreSelfTest core unit fails => Sys2Proof.Machine.execCoreSelfTest core unit fails s
  | .historyFlashWrite unit ok => Sys2Proof.Machine.execHistoryFlashWrite unit ok s
  | .historyWriteRetry unit ok => Sys2Proof.Machine.execHistoryWriteRetry unit ok s
  | .coreRetired core => Sys2Proof.Machine.execCoreRetired core s
  | .chkCfgCommit => Sys2Proof.Machine.execChkCfgCommit s
  | .chkInjectArm val => Sys2Proof.Machine.execChkInjectArm val s
  | .remoteTimeout rtag => Sys2Proof.Machine.execRemoteTimeout rtag s
  | .patrolScrub granule ecc => Sys2Proof.Machine.execPatrolScrub granule ecc s
  | .selfRefreshTimeout devices => Sys2Proof.Machine.execSelfRefreshTimeout devices s
  | .memRegionCommitGo => Sys2Proof.Machine.execMemRegionCommitGo s
  | .regionCommitDone => Sys2Proof.Machine.execRegionCommitDone s
  | .memBiasGo val => Sys2Proof.Machine.execMemBiasGo val s
  | .biasChangeComplete => Sys2Proof.Machine.execBiasChangeComplete s
  | .cxlMemRead hpa ecc => Sys2Proof.Machine.execCxlMemRead hpa ecc s
  | .cxlMemWrite hpa data be => Sys2Proof.Machine.execCxlMemWrite hpa data be s
  | .hdmDecoderCommit idx base size skip => Sys2Proof.Machine.execHdmDecoderCommit idx base size skip s
  | .mirrorAck count => Sys2Proof.Machine.execMirrorAck count s
  | .mirrorEnable buddy => Sys2Proof.Machine.execMirrorEnable buddy s
  | .resyncComplete => Sys2Proof.Machine.execResyncComplete s
  | .qdbTailWrite slot queue val => Sys2Proof.Machine.execQdbTailWrite slot queue val s
  | .queueEnable slot queue val => Sys2Proof.Machine.execQueueEnable slot queue val s
  | .queueDisable slot queue => Sys2Proof.Machine.execQueueDisable slot queue s
  | .commandFetch slot queue hostRec ecc => Sys2Proof.Machine.execCommandFetch slot queue hostRec s ecc
  | .commandStart engine => Sys2Proof.Machine.execCommandStart engine s
  | .nop slot queue count => Sys2Proof.Machine.execNop slot queue count s
  | .eventWait slot queue count => Sys2Proof.Machine.execEventWait slot queue count s
  | .eventSignalSet slot queue count => Sys2Proof.Machine.execEventSignalSet slot queue count s
  | .eventSignalAdd slot queue count => Sys2Proof.Machine.execEventSignalAdd slot queue count s
  | .stepWait slot queue count => Sys2Proof.Machine.execStepWait slot queue count s
  | .timestamp slot queue count => Sys2Proof.Machine.execTimestamp slot queue count s
  | .memWait slot queue count ecc => Sys2Proof.Machine.execMemWait slot queue count s ecc
  | .memWaitPoll slot queue count ecc => Sys2Proof.Machine.execMemWaitPoll slot queue count s ecc
  | .dispatch slot queue count => Sys2Proof.Machine.execDispatch slot queue count s
  | .dispatchGroupStart slot queue count => Sys2Proof.Machine.execDispatchGroupStart slot queue count s
  | .copy slot queue count ecc residue residue2 => Sys2Proof.Machine.execCopy slot queue count ecc residue s residue2
  | .copy2d slot queue count ecc residue residue2 => Sys2Proof.Machine.execCopy2d slot queue count ecc residue s residue2
  | .fill slot queue count residue residue2 => Sys2Proof.Machine.execFill slot queue count residue s residue2
  | .convert slot queue count ecc residue residue2 => Sys2Proof.Machine.execConvert slot queue count ecc residue s residue2
  | .pageIn slot queue count residue residue2 => Sys2Proof.Machine.execPageIn slot queue count s residue residue2
  | .pageOut slot queue count => Sys2Proof.Machine.execPageOut slot queue count s
  | .allreduce slot queue count ecc => Sys2Proof.Machine.execAllreduce slot queue count s ecc
  | .reduceScatter slot queue count ecc => Sys2Proof.Machine.execReduceScatter slot queue count s ecc
  | .allgather slot queue count ecc => Sys2Proof.Machine.execAllgather slot queue count s ecc
  | .broadcast slot queue count ecc => Sys2Proof.Machine.execBroadcast slot queue count s ecc
  | .barrier slot queue count => Sys2Proof.Machine.execBarrier slot queue count s
  | .ringRun slot queue count => Sys2Proof.Machine.execRingRun slot queue count s
  | .pathSetup slot queue count => Sys2Proof.Machine.execPathSetup slot queue count s
  | .pathTeardown slot queue count => Sys2Proof.Machine.execPathTeardown slot queue count s
  | .pathRecable slot queue count => Sys2Proof.Machine.execPathRecable slot queue count s
  | .pathQuery slot queue count => Sys2Proof.Machine.execPathQuery slot queue count s
  | .commandComplete slot queue count => Sys2Proof.Machine.execCommandComplete slot queue count s
  | .qdbEvtValWrite val => Sys2Proof.Machine.execQdbEvtValWrite val s
  | .collTimeout slot queue count => Sys2Proof.Machine.execCollTimeout slot queue count s
  | .placement => Sys2Proof.Machine.execPlacement s
  | .partnerRecord src rec => Sys2Proof.Machine.execPartnerRecord src rec s
  | .partnerSilent => Sys2Proof.Machine.execPartnerSilent s
  | .placementHoldExpires job => Sys2Proof.Machine.execPlacementHoldExpires job s
  | .ringHello src job key desc => Sys2Proof.Machine.execRingHello src job key desc s
  | .helloHoldExpires src job key => Sys2Proof.Machine.execHelloHoldExpires src job key s
  | .ringToken src job key val => Sys2Proof.Machine.execRingToken src job key val s
  | .ringTokenSend run token => Sys2Proof.Machine.execRingTokenSend run token s
  | .ringLoadDone run ecc residue residue2 => Sys2Proof.Machine.execRingLoadDone run s ecc residue residue2
  | .ringForward run step ecc residue residue2 => Sys2Proof.Machine.execRingForward run step ecc s residue residue2
  | .ringReady run step => Sys2Proof.Machine.execRingReady run step s
  | .ringComplete run => Sys2Proof.Machine.execRingComplete run s
  | .ringAbort src job key => Sys2Proof.Machine.execRingAbort src job key s
  | .stepTimeout run wait => Sys2Proof.Machine.execStepTimeout run wait s
  | .laneClockRecovered lane => Sys2Proof.Machine.execLaneClockRecovered lane s
  | .laneEqualiserConverged lane => Sys2Proof.Machine.execLaneEqualiserConverged lane s
  | .laneAlignmentFound lane => Sys2Proof.Machine.execLaneAlignmentFound lane s
  | .init lane node inc circ laneI k plane ready => Sys2Proof.Machine.execInit lane node inc circ laneI k plane ready s
  | .laneCheckComplete lane corrected uncorr => Sys2Proof.Machine.execLaneCheckComplete lane corrected uncorr s
  | .laneBoundExceeded lane => Sys2Proof.Machine.execLaneBoundExceeded lane s
  | .flow lane ack req rsp pmsg nakSeq nakValid => Sys2Proof.Machine.execFlow lane ack req rsp pmsg nakSeq nakValid s
  | .lnkBerHigh lane symbols => Sys2Proof.Machine.execLnkBerHigh lane symbols s
  | .laneFail lane cond => Sys2Proof.Machine.execLaneFail lane cond s
  | .packetSend circ => Sys2Proof.Machine.execPacketSend circ s
  | .ackTimeout circ => Sys2Proof.Machine.execAckTimeout circ s
  | .wr lane pkt ecc => Sys2Proof.Machine.execWr lane pkt s ecc
  | .rd lane pkt ecc => Sys2Proof.Machine.execRd lane pkt ecc s
  | .atom lane pkt ecc => Sys2Proof.Machine.execAtom lane pkt s ecc
  | .collData lane pkt residue residue2 => Sys2Proof.Machine.execCollData lane pkt residue s residue2
  | .rdRsp lane pkt => Sys2Proof.Machine.execRdRsp lane pkt s
  | .atomRsp lane pkt => Sys2Proof.Machine.execAtomRsp lane pkt s
  | .cpl lane pkt => Sys2Proof.Machine.execCpl lane pkt s
  | .void lane pkt => Sys2Proof.Machine.execVoid lane pkt s
  | .pmsgRelay lane pkt => Sys2Proof.Machine.execPmsgRelay lane pkt s
  | .pmsgRelayDiscard port => Sys2Proof.Machine.execPmsgRelayDiscard port s
  | .collReady src job key val step => Sys2Proof.Machine.execCollReady src job key val step s
  | .collArrive src job key val => Sys2Proof.Machine.execCollArrive src job key val s
  | .orqSyncUnknown src key => Sys2Proof.Machine.execOrqSyncUnknown src key s
  | .wakePattern port => Sys2Proof.Machine.execWakePattern port s
  | .resv src msg => Sys2Proof.Machine.execResv src msg s
  | .resvAck src msg => Sys2Proof.Machine.execResvAck src msg s
  | .light src msg => Sys2Proof.Machine.execLight src msg s
  | .lit src msg => Sys2Proof.Machine.execLit src msg s
  | .release src msg => Sys2Proof.Machine.execRelease src msg s
  | .releaseAck src msg => Sys2Proof.Machine.execReleaseAck src msg s
  | .move src msg => Sys2Proof.Machine.execMove src msg s
  | .commit src msg => Sys2Proof.Machine.execCommit src msg s
  | .pathAbort src msg => Sys2Proof.Machine.execPathAbort src msg s
  | .audit src msg => Sys2Proof.Machine.execAudit src msg s
  | .auditReply src msg => Sys2Proof.Machine.execAuditReply src msg s
  | .auditTimeout idx => Sys2Proof.Machine.execAuditTimeout idx s
  | .evacuateMsg src msg => Sys2Proof.Machine.execEvacuateMsg src msg s
  | .evacAck src msg => Sys2Proof.Machine.execEvacAck src msg s
  | .teardownReq src msg => Sys2Proof.Machine.execTeardownReq src msg s
  | .wake src msg => Sys2Proof.Machine.execWake src msg s
  | .wakeAck src msg => Sys2Proof.Machine.execWakeAck src msg s
  | .wakeRoundExpires idx => Sys2Proof.Machine.execWakeRoundExpires idx s
  | .hopTimeout idx => Sys2Proof.Machine.execHopTimeout idx s
  | .setupTimeout idx => Sys2Proof.Machine.execSetupTimeout idx s
  | .heldTimeout idx => Sys2Proof.Machine.execHeldTimeout idx s
  | .planePathVerified plane inp outp ok => Sys2Proof.Machine.execPlanePathVerified plane inp outp ok s
  | .backupSeek idx => Sys2Proof.Machine.execBackupSeek idx s
  | .downRetry idx => Sys2Proof.Machine.execDownRetry idx s
  | .downHoldExpires idx => Sys2Proof.Machine.execDownHoldExpires idx s
  | .recableDeadline step => Sys2Proof.Machine.execRecableDeadline step s
  | .recableTick step => Sys2Proof.Machine.execRecableTick step s
  | .spanLossMeasure port loss => Sys2Proof.Machine.execSpanLossMeasure port loss s
  | .disc port blk => Sys2Proof.Machine.execDisc port blk s
  | .discSend port => Sys2Proof.Machine.execDiscSend port s
  | .discTimeout port => Sys2Proof.Machine.execDiscTimeout port s
  | .routingRebuild => Sys2Proof.Machine.execRoutingRebuild s
  | .rebind node => Sys2Proof.Machine.execRebind node s
  | .hcePeriod taps late => Sys2Proof.Machine.execHcePeriod taps late s
  | .groupRateDown group => Sys2Proof.Machine.execGroupRateDown group s
  | .groupRateRestore group => Sys2Proof.Machine.execGroupRateRestore group s
  | .groupResume group => Sys2Proof.Machine.execGroupResume group s
  | .hceWindow judged => Sys2Proof.Machine.execHceWindow judged s
  | .rampRecord loop target recable lit start late => Sys2Proof.Machine.execRampRecord loop target recable lit start late s
  | .rampStart step late => Sys2Proof.Machine.execRampStart step late s
  | .hceSpGo val => Sys2Proof.Machine.execHceSpGo val s
  | .loopHold loop => Sys2Proof.Machine.execLoopHold loop s
  | .loopHoldRelease loop => Sys2Proof.Machine.execLoopHoldRelease loop s
  | .setSelWrite loop set => Sys2Proof.Machine.execSetSelWrite loop set s
  | .stepTick => Sys2Proof.Machine.execStepTick s
  | .tick port step locked => Sys2Proof.Machine.execTick port step locked s
  | .syncInterval port => Sys2Proof.Machine.execSyncInterval port s
  | .sync port domain seqId t2 => Sys2Proof.Machine.execSync port domain seqId t2 s
  | .followUp port domain seqId t1 => Sys2Proof.Machine.execFollowUp port domain seqId t1 s
  | .delayReq port domain seqId t4 => Sys2Proof.Machine.execDelayReq port domain seqId t4 s
  | .delayResp port domain seqId t4 => Sys2Proof.Machine.execDelayResp port domain seqId t4 s
  | .announce port domain ds => Sys2Proof.Machine.execAnnounce port domain ds s
  | .announceTimeout => Sys2Proof.Machine.execAnnounceTimeout s
  | .ppsEdge => Sys2Proof.Machine.execPpsEdge s
  | .ppsTimeout => Sys2Proof.Machine.execPpsTimeout s
  | .timSetGo => Sys2Proof.Machine.execTimSetGo s
  | .timNowRead => Sys2Proof.Machine.execTimNowRead s
  | .triggerArm n val => Sys2Proof.Machine.execTriggerArm n val s
  | .triggerDisarm n val => Sys2Proof.Machine.execTriggerDisarm n s val
  | .triggerFire n => Sys2Proof.Machine.execTriggerFire n s
  | .opTimeCheckpoint => Sys2Proof.Machine.execOpTimeCheckpoint s
  | .orqDoorbellGo => Sys2Proof.Machine.execOrqDoorbellGo s
  | .mailboxResponse => Sys2Proof.Machine.execMailboxResponse s
  | .mailboxTimeout => Sys2Proof.Machine.execMailboxTimeout s
  | .deferredWorkEnd ticket => Sys2Proof.Machine.execDeferredWorkEnd ticket s
  | .getInfo => Sys2Proof.Machine.execGetInfo s
  | .getResult => Sys2Proof.Machine.execGetResult s
  | .ctxCreate => Sys2Proof.Machine.execCtxCreate s
  | .ctxRemove => Sys2Proof.Machine.execCtxRemove s
  | .cfgStage => Sys2Proof.Machine.execCfgStage s
  | .cfgCommit flashOk => Sys2Proof.Machine.execCfgCommit flashOk s
  | .cfgDiscard => Sys2Proof.Machine.execCfgDiscard s
  | .cfgRevert => Sys2Proof.Machine.execCfgRevert s
  | .cfgRead => Sys2Proof.Machine.execCfgRead s
  | .planLoad hostData => Sys2Proof.Machine.execPlanLoad hostData s
  | .planCommit => Sys2Proof.Machine.execPlanCommit s
  | .planRevert => Sys2Proof.Machine.execPlanRevert s
  | .pathReqSetup => Sys2Proof.Machine.execPathReqSetup s
  | .pathReqTeardown => Sys2Proof.Machine.execPathReqTeardown s
  | .pathReqRecable => Sys2Proof.Machine.execPathReqRecable s
  | .pathReqQuery => Sys2Proof.Machine.execPathReqQuery s
  | .proofTest => Sys2Proof.Machine.execProofTest s
  | .twokeyStatus => Sys2Proof.Machine.execTwokeyStatus s
  | .keyReplace => Sys2Proof.Machine.execKeyReplace s
  | .policySet => Sys2Proof.Machine.execPolicySet s
  | .minSvn => Sys2Proof.Machine.execMinSvn s
  | .debugUnlock => Sys2Proof.Machine.execDebugUnlock s
  | .debugRelock => Sys2Proof.Machine.execDebugRelock s
  | .unitRestore => Sys2Proof.Machine.execUnitRestore s
  | .evrClear => Sys2Proof.Machine.execEvrClear s
  | .keeperReset => Sys2Proof.Machine.execKeeperReset s
  | .keeperResetExecute => Sys2Proof.Machine.execKeeperResetExecute s
  | .twokeyTimeout => Sys2Proof.Machine.execTwokeyTimeout s
  | .updStatus => Sys2Proof.Machine.execUpdStatus s
  | .updSchedule hostList => Sys2Proof.Machine.execUpdSchedule hostList s
  | .updConfirm => Sys2Proof.Machine.execUpdConfirm s
  | .updCancel => Sys2Proof.Machine.execUpdCancel s
  | .evrLatch => Sys2Proof.Machine.execEvrLatch s
  | .evrRelease => Sys2Proof.Machine.execEvrRelease s
  | .resetReqEngine => Sys2Proof.Machine.execResetReqEngine s
  | .resetReqPartition => Sys2Proof.Machine.execResetReqPartition s
  | .resetReqChip => Sys2Proof.Machine.execResetReqChip s
  | .resetReqPowerCycle => Sys2Proof.Machine.execResetReqPowerCycle s
  | .evacuate => Sys2Proof.Machine.execEvacuate s
  | .evacuateClear => Sys2Proof.Machine.execEvacuateClear s
  | .evacuateTimeout => Sys2Proof.Machine.execEvacuateTimeout s
  | .ageReplan => Sys2Proof.Machine.execAgeReplan s
  | .heartbeat seq alive => Sys2Proof.Machine.execHeartbeat seq alive s
  | .watchdogPeriod => Sys2Proof.Machine.execWatchdogPeriod s
  | .keeperBoot pufOk keyringOk slotOk recovLow => Sys2Proof.Machine.execKeeperBoot pufOk keyringOk slotOk s recovLow
  | .powerOnStepComplete step failDevs trainMs => Sys2Proof.Machine.execPowerOnStepComplete step failDevs trainMs s
  | .rstStepLate step => Sys2Proof.Machine.execRstStepLate step s
  | .rstOrqBootFail => Sys2Proof.Machine.execRstOrqBootFail s
  | .keeperWatchdog => Sys2Proof.Machine.execKeeperWatchdog s
  | .engineStall engine => Sys2Proof.Machine.execEngineStall engine s
  | .contextProgressTimeout slot => Sys2Proof.Machine.execContextProgressTimeout slot s
  | .contextRemoval slot => Sys2Proof.Machine.execContextRemoval slot s
  | .contextRemovalComplete slot => Sys2Proof.Machine.execContextRemovalComplete slot s
  | .engineReset engine => Sys2Proof.Machine.execEngineReset engine s
  | .engineResetComplete engine => Sys2Proof.Machine.execEngineResetComplete engine s
  | .partitionReset part => Sys2Proof.Machine.execPartitionReset part s
  | .partitionResetComplete part => Sys2Proof.Machine.execPartitionResetComplete part s
  | .chipReset recovLow => Sys2Proof.Machine.execChipReset s recovLow
  | .powerCycle => Sys2Proof.Machine.execPowerCycle s
  | .drainExpires => Sys2Proof.Machine.execDrainExpires s
  | .actionLimitExpires => Sys2Proof.Machine.execActionLimitExpires s
  | .actionDequeue => Sys2Proof.Machine.execActionDequeue s
  | .collectionAccessTimeout unit access => Sys2Proof.Machine.execCollectionAccessTimeout unit access s
  | .collectionDone reason => Sys2Proof.Machine.execCollectionDone reason s
  | .rstDumpDone => Sys2Proof.Machine.execRstDumpDone s
  | .latticeRecordWrite => Sys2Proof.Machine.execLatticeRecordWrite s
  | .hbSend => Sys2Proof.Machine.execHbSend s
  | .hb port state node inc => Sys2Proof.Machine.execHb port state node inc s
  | .mirrorHb src val state roles buddy => Sys2Proof.Machine.execMirrorHb src val state roles buddy s
  | .mirrorPathLost path1 => Sys2Proof.Machine.execMirrorPathLost path1 s
  | .xferOpen resume blocks => Sys2Proof.Machine.execXferOpen resume blocks s
  | .xferData session block frag data => Sys2Proof.Machine.execXferData session block frag data s
  | .blockEnd session block => Sys2Proof.Machine.execBlockEnd session block s
  | .xferClose session => Sys2Proof.Machine.execXferClose session s
  | .xferStatus session => Sys2Proof.Machine.execXferStatus session s
  | .boot slot => Sys2Proof.Machine.execBoot slot s
  | .neighbourSolicitation src target => Sys2Proof.Machine.execNeighbourSolicitation src target s
  | .echoRequest src payload => Sys2Proof.Machine.execEchoRequest src payload s
  | .sessionIdleTimeout => Sys2Proof.Machine.execSessionIdleTimeout s
  | .updSlotVerified slot => Sys2Proof.Machine.execUpdSlotVerified slot s
  | .getVersion => Sys2Proof.Machine.execGetVersion s
  | .getCapabilities => Sys2Proof.Machine.execGetCapabilities s
  | .negotiateAlgorithms => Sys2Proof.Machine.execNegotiateAlgorithms s
  | .getDigests => Sys2Proof.Machine.execGetDigests s
  | .getCertificate slot off len => Sys2Proof.Machine.execGetCertificate slot off len s
  | .challenge slot nonce => Sys2Proof.Machine.execChallenge slot nonce s
  | .getMeasurements index signed nonce => Sys2Proof.Machine.execGetMeasurements index signed nonce s
  | .spdmUnsupportedRequest code => Sys2Proof.Machine.execSpdmUnsupportedRequest code s
  | .ready src group imageVer => Sys2Proof.Machine.execReady src group imageVer s
  | .notReady src group status => Sys2Proof.Machine.execNotReady src group status s
  | .goDecision => Sys2Proof.Machine.execGoDecision s
  | .go src group t => Sys2Proof.Machine.execGo src group t s
  | .groupAbort src group => Sys2Proof.Machine.execGroupAbort src group s
  | .activationAtT => Sys2Proof.Machine.execActivationAtT s
  | .trialOk src group => Sys2Proof.Machine.execTrialOk src group s
  | .trialFail src group status => Sys2Proof.Machine.execTrialFail src group status s
  | .allOk src group => Sys2Proof.Machine.execAllOk src group s
  | .rollback src group => Sys2Proof.Machine.execRollback src group s
  | .query src group => Sys2Proof.Machine.execQuery src group s
  | .queryResend => Sys2Proof.Machine.execQueryResend s
  | .trialWindowExpires => Sys2Proof.Machine.execTrialWindowExpires s
  | .flush count bad => Sys2Proof.Machine.execFlush count bad s
  | .evrRdCtlWrite seq => Sys2Proof.Machine.execEvrRdCtlWrite seq s
  | .latchExpires => Sys2Proof.Machine.execLatchExpires s
  | .ageingMeasurement kind index val => Sys2Proof.Machine.execAgeingMeasurement kind index val s
  | .replanDue => Sys2Proof.Machine.execReplanDue s
  | .inletBandChange inlet => Sys2Proof.Machine.execInletBandChange inlet s
  | .uncorrectableCodeword lane => Sys2Proof.Machine.execUncorrectableCodeword lane s
  | .packetCrcFail lane => Sys2Proof.Machine.execPacketCrcFail lane s
  | .pmsgEntryExpires src => Sys2Proof.Machine.execPmsgEntryExpires src s
  | .cxlCacheResponse rtag data err => Sys2Proof.Machine.execCxlCacheResponse rtag data err s
  | .cxlLinkDown => Sys2Proof.Machine.execCxlLinkDown s

end Sys2Proof.Machine
end

