-- ==== Sys2Proof/Safety.lean ====
section
/-! DEFINITION. What counts as a safe run of the block, and the terms in which the statements speak of one: the state
invariant, what a command may only add to, and an event on record. -/

namespace Sys2Proof.Safety

open Sys2Proof.Machine

/-- A state whose memory is in its canonical form: equal memories are equal lists. -/
def Canonical (s : State) : Prop := Memory.wf s.mem = true

/-- What a command may only add to: everything sent outward stays sent, in its order, and free values are drawn afresh. -/
def Extends (s t : State) : Prop := s.out <+: t.out ∧ s.free ≤ t.free

/-- The parts of the state beside the queue: one for each field of `State`. -/
inductive Part where
  /-- The count of free values drawn. -/
  | free
  /-- The register file. -/
  | regs
  /-- The bytes of LPDDR6 and of the stores of the cores and quarters. -/
  | mem
  /-- What has been sent outward. -/
  | out
  /-- The event recorder. -/
  | evr
  /-- The reset controller. -/
  | rst
  /-- The feeds, the power supply and its alerts. -/
  | pwr
  /-- The references, the quarters' power and clocks, the coolant. -/
  | blk
  /-- Time. -/
  | time
  /-- The mailbox and the tickets. -/
  | mb
  /-- The compute cores. -/
  | cores
  /-- The checks of compute. -/
  | chk
  /-- The memory system: accesses under way, poison, CXL, the mirror. -/
  | ms
  /-- The queue engines, contexts, events, collectives and rings. -/
  | eng
  /-- Lanes and circuits. -/
  | lk
  /-- The routing table. -/
  | routes
  /-- The placements. -/
  | place
  /-- The path core. -/
  | path
  /-- The topology plans. -/
  | topo
  /-- The hinge control engine. -/
  | hce
  /-- What is known of other modules. -/
  | peers
  /-- The image slots, the keys, the group update. -/
  | upd
  /-- The ageing models. -/
  | age
deriving DecidableEq, Repr

/-- A part of `t` is as it is in `s`. -/
def Part.same (p : Part) (s t : State) : Prop :=
  match p with
  | .free => t.free = s.free
  | .regs => t.regs = s.regs
  | .mem => t.mem = s.mem
  | .out => t.out = s.out
  | .evr => t.evr = s.evr
  | .rst => t.rst = s.rst
  | .pwr => t.pwr = s.pwr
  | .blk => t.blk = s.blk
  | .time => t.time = s.time
  | .mb => t.mb = s.mb
  | .cores => t.cores = s.cores
  | .chk => t.chk = s.chk
  | .ms => t.ms = s.ms
  | .eng => t.eng = s.eng
  | .lk => t.lk = s.lk
  | .routes => t.routes = s.routes
  | .place => t.place = s.place
  | .path => t.path = s.path
  | .topo => t.topo = s.topo
  | .hce => t.hce = s.hce
  | .peers => t.peers = s.peers
  | .upd => t.upd = s.upd
  | .age => t.age = s.age

/-- The parts of the state that a command may change, command by command; every other part it leaves as it is. -/
def reach : Instr → List Part
  | .registerWrite .. | .quarterWake .. | .quarterReady .. | .cfgCommit .. | .cfgRevert =>
    [.free, .regs, .mem, .out, .evr, .rst, .pwr, .blk, .time, .mb, .cores, .chk, .ms, .eng, .lk, .place, .hce]
  | .bar0BadAccess .. => [.regs, .out, .evr, .pwr, .blk]
  | .computeClockStep .. | .feedReturnsInHoldUp .. | .trefLost | .referencesLost | .chkInjectArm .. | .queueDisable .. =>
    [.regs, .evr, .pwr, .blk]
  | .inletOverLimit .. | .watchdogPeriod | .engineStall .. | .contextProgressTimeout .. | .actionLimitExpires =>
    [.regs, .evr, .rst, .pwr, .mb]
  | .inletRecovered .. => [.regs, .pwr]
  | .quarterOverheatGate .. => [.regs, .mem, .evr, .rst, .pwr, .blk, .mb, .cores]
  | .powerLimitClockStep .. | .inletBandChange .. => [.pwr, .blk]
  | .feedEntersRange .. => [.regs, .rst, .pwr, .blk]
  | .feedLeavesRange .. | .stageFault .. | .proofTestPhaseEnd .. | .evrLatch | .evrRelease | .heartbeat .. =>
    [.regs, .evr, .pwr, .mb]
  | .stageFaultClears .. => [.regs, .pwr, .blk]
  | .feedReturnWaitExpires .. | .shareRampComplete | .feedHealthHeartbeat .. => [.pwr]
  | .feedRedundStartCheck | .monPathLost | .powerCycleNotExecuted | .resyncComplete | .lnkBerHigh ..
  | .orqSyncUnknown .. | .spanLossMeasure .. | .groupRateDown .. | .updSlotVerified .. | .flush .. | .latchExpires =>
    [.regs, .evr, .pwr]
  | .bothFeedsLost .. =>
    [.regs, .mem, .out, .evr, .rst, .pwr, .blk, .mb, .cores, .chk, .ms, .eng, .lk, .place, .path, .topo, .upd]
  | .holdUpExpires | .keeperResetExecute | .powerOnStepComplete .. =>
    [.free, .regs, .mem, .out, .evr, .rst, .pwr, .blk, .time, .mb, .cores, .chk, .ms, .eng, .lk, .routes, .place, .path, .topo, .hce, .peers, .upd, .age]
  | .smbStatus | .hbCount | .proofResult | .pwrcycReason | .smbUnknownCommand .. | .smbAlertResponse | .discSend ..
  | .delayReq .. | .xferStatus .. | .neighbourSolicitation .. | .echoRequest .. | .getVersion | .getCapabilities
  | .negotiateAlgorithms | .getDigests | .getCertificate .. | .spdmUnsupportedRequest .. => [.out]
  | .smbAlertClear .. | .smbAlertMask .. | .tapBypass | .tapIdcode | .tapExtest .. | .tapIntest ..
  | .tapOtherInstruction .. => [.out, .pwr]
  | .feedAV | .feedAI | .feedBV | .feedBI | .inputPower | .inletTemp | .outletTemp | .smbProofTest ..
  | .cxlConfigRequest .. => [.free, .out, .pwr]
  | .perstAssert | .coreZeroingComplete .. | .heldWritePerformed .. | .mirrorAck .. | .engineReset ..
  | .mirrorPathLost .. | .cxlCacheResponse .. | .cxlLinkDown =>
    [.free, .regs, .mem, .out, .evr, .rst, .pwr, .blk, .mb, .cores, .ms, .eng, .lk]
  | .perstDeassert => [.pwr, .ms]
  | .trefRestored | .dormantEntry .. | .dormantExit .. | .wakePattern .. | .evrRdCtlWrite .. => [.regs, .blk]
  | .quarterGate .. => [.regs, .blk, .cores]
  | .dormantExitReady => [.regs, .blk, .lk, .hce]
  | .referenceQualified .. | .pathSetup .. | .pathTeardown .. | .pathRecable .. | .pathQuery .. | .placement
  | .partnerRecord .. | .resv .. | .resvAck .. | .light .. | .lit .. | .release .. | .releaseAck .. | .move ..
  | .commit .. | .pathAbort .. | .audit .. | .auditReply .. | .evacuateMsg .. | .evacAck .. | .teardownReq ..
  | .wake .. | .wakeAck .. | .wakeRoundExpires .. | .hopTimeout .. | .setupTimeout .. | .planePathVerified ..
  | .downRetry .. | .downHoldExpires .. | .recableDeadline .. | .recableTick .. | .pathReqSetup | .pathReqTeardown
  | .pathReqRecable | .pathReqQuery | .evacuate | .contextRemovalComplete .. | .powerCycle =>
    [.free, .regs, .mem, .out, .evr, .rst, .pwr, .blk, .mb, .cores, .ms, .eng, .lk, .routes, .place, .path, .peers]
  | .scalarInstruction .. | .vectorInstruction .. | .laneReduction .. | .cvt .. | .srseed .. | .exp2 .. | .log2 ..
  | .rcp .. | .rsqrt .. | .sqrt .. | .sin .. | .cos .. | .tanh .. | .mstore .. | .ewait .. | .esignal .. =>
    [.regs, .out, .evr, .rst, .pwr, .mb, .cores, .chk, .ms, .eng, .lk]
  | .coreStoreLoad .. | .coreStoreStore .. | .quarterStoreAccess .. | .globalStore .. | .scatter .. | .add64 ..
  | .cas64 .. | .min64 .. | .max64 .. | .fadd32 .. | .fill .. | .convert .. | .pageIn .. | .ringLoadDone .. =>
    [.regs, .mem, .out, .evr, .rst, .pwr, .blk, .mb, .cores, .chk, .ms, .eng, .lk]
  | .globalLoad .. | .gather .. | .mloadBankFilled .. | .mstoreComplete .. | .tileVerdict .. | .replayVerdict ..
  | .siblingStart .. | .arbiterVerdict .. | .resultTransferComplete .. | .arbWaitExpires .. | .copy .. | .copy2d ..
  | .contextRemoval .. => [.free, .regs, .mem, .out, .evr, .rst, .pwr, .blk, .mb, .cores, .chk, .ms, .eng, .lk]
  | .mload .. | .mma .. | .bar .. | .remoteTimeout .. | .ringTokenSend .. =>
    [.regs, .out, .evr, .rst, .pwr, .mb, .cores, .ms, .eng, .lk]
  | .fenceAcq .. | .fenceRel .. | .exit .. => [.regs, .cores, .ms]
  | .yield .. => [.regs, .cores]
  | .yieldHoldExpires .. | .coreClockGate .. | .corePowerGate .. | .coreWake .. => [.cores]
  | .loadResultWritten .. => [.cores, .ms]
  | .coreSelfTest .. => [.regs, .evr, .pwr, .cores, .chk]
  | .historyFlashWrite .. => [.regs, .evr, .pwr, .chk]
  | .historyWriteRetry .. => [.chk]
  | .coreRetired .. => [.regs, .evr, .rst, .pwr, .mb, .cores, .chk]
  | .chkCfgCommit => [.regs, .blk, .chk]
  | .patrolScrub .. | .selfRefreshTimeout .. => [.regs, .evr, .pwr, .ms]
  | .memRegionCommitGo | .memBiasGo .. => [.regs, .evr, .pwr, .blk, .ms]
  | .regionCommitDone | .biasChangeComplete => [.regs, .ms]
  | .cxlMemRead .. => [.regs, .out, .evr, .pwr, .blk, .ms]
  | .cxlMemWrite .. => [.regs, .mem, .evr, .pwr, .blk, .cores, .ms]
  | .hdmDecoderCommit .. => [.ms]
  | .mirrorEnable .. => [.regs, .blk, .ms, .lk]
  | .qdbTailWrite .. => [.regs, .out, .evr, .rst, .pwr, .blk, .mb, .eng, .lk]
  | .queueEnable .. => [.regs, .evr, .pwr, .blk, .eng]
  | .commandFetch .. | .timestamp .. | .memWait .. | .memWaitPoll .. | .allreduce .. | .reduceScatter ..
  | .allgather .. | .broadcast .. | .barrier .. | .ringRun .. | .commandComplete .. | .collReady .. | .collArrive .. =>
    [.regs, .mem, .out, .evr, .rst, .pwr, .blk, .mb, .cores, .ms, .eng, .lk]
  | .commandStart .. | .eventWait .. | .dispatch .. | .collTimeout .. | .ringHello .. | .ringAbort ..
  | .stepTimeout .. => [.regs, .out, .evr, .rst, .pwr, .mb, .eng, .lk]
  | .nop .. | .stepWait .. | .helloHoldExpires .. | .ringToken .. | .ringComplete .. => [.eng]
  | .eventSignalSet .. | .eventSignalAdd .. => [.regs, .out, .evr, .rst, .pwr, .mb, .cores, .eng, .lk]
  | .dispatchGroupStart .. => [.blk, .cores, .eng]
  | .pageOut .. => [.regs, .mem, .out, .evr, .rst, .pwr, .mb, .ms, .eng, .lk]
  | .qdbEvtValWrite .. => [.regs, .blk, .cores, .eng]
  | .partnerSilent => [.mb, .place]
  | .placementHoldExpires .. => [.place]
  | .ringForward .. => [.regs, .out, .evr, .rst, .pwr, .blk, .mb, .chk, .ms, .eng, .lk]
  | .ringReady .. => [.cores, .eng]
  | .laneClockRecovered .. => [.regs, .lk]
  | .laneEqualiserConverged .. | .sessionIdleTimeout | .uncorrectableCodeword .. => [.regs]
  | .laneAlignmentFound .. => [.regs, .out]
  | .init .. | .laneCheckComplete .. | .laneBoundExceeded .. | .laneFail .. | .ackTimeout .. | .disc ..
  | .discTimeout .. | .planCommit | .planRevert =>
    [.free, .regs, .mem, .out, .evr, .rst, .pwr, .blk, .mb, .cores, .ms, .eng, .lk, .routes, .place, .path, .topo, .peers]
  | .flow .. => [.out, .lk]
  | .packetSend .. | .query .. | .queryResend => [.regs, .out, .evr, .pwr, .lk]
  | .wr .. | .rd .. | .atom .. | .collData .. | .rdRsp .. | .atomRsp .. | .cpl .. | .void .. | .pmsgRelay .. =>
    [.free, .regs, .mem, .out, .evr, .rst, .pwr, .blk, .mb, .cores, .chk, .ms, .eng, .lk, .routes]
  | .pmsgRelayDiscard .. | .rebind .. | .pmsgEntryExpires .. => [.lk]
  | .auditTimeout .. | .heldTimeout .. =>
    [.free, .regs, .mem, .out, .evr, .rst, .pwr, .blk, .mb, .cores, .ms, .eng, .lk, .routes, .path]
  | .backupSeek .. => [.free, .regs, .out, .evr, .pwr, .lk, .path]
  | .routingRebuild => [.free, .ms, .lk, .routes, .topo]
  | .hcePeriod .. => [.regs, .hce]
  | .groupRateRestore .. | .hceWindow .. | .rampRecord .. | .rampStart .. => [.regs, .evr, .pwr, .hce]
  | .groupResume .. | .hceSpGo .. => [.regs, .evr, .pwr, .blk, .hce]
  | .loopHold .. | .loopHoldRelease .. | .setSelWrite .. => [.regs, .blk, .hce]
  | .stepTick | .syncInterval .. | .sync .. => [.out, .time]
  | .tick .. | .announce .. | .announceTimeout | .ppsTimeout => [.regs, .evr, .pwr, .time]
  | .followUp .. | .delayResp .. => [.regs, .out, .evr, .pwr, .time, .cores, .eng, .topo]
  | .ppsEdge | .triggerFire .. => [.regs, .out, .evr, .pwr, .time, .cores, .eng]
  | .timSetGo | .triggerArm .. => [.regs, .out, .evr, .pwr, .blk, .time, .cores, .eng]
  | .timNowRead => [.regs, .out, .blk]
  | .triggerDisarm .. => [.regs, .evr, .pwr, .blk, .time]
  | .opTimeCheckpoint => [.evr]
  | .orqDoorbellGo => [.regs, .out, .evr, .pwr, .blk, .mb]
  | .mailboxResponse | .deferredWorkEnd .. | .evacuateClear => [.regs, .out, .mb]
  | .mailboxTimeout => [.regs, .out, .evr, .pwr, .mb]
  | .getInfo | .cfgRead | .twokeyStatus | .updStatus => [.mb]
  | .getResult | .cfgStage | .cfgDiscard => [.regs, .mb]
  | .ctxCreate => [.free, .regs, .mem, .mb, .ms, .eng, .lk]
  | .ctxRemove => [.rst, .mb]
  | .planLoad .. => [.free, .regs, .out, .evr, .pwr, .mb, .topo]
  | .proofTest => [.free, .pwr, .mb]
  | .keyReplace | .policySet | .minSvn | .debugUnlock | .evrClear | .keeperReset =>
    [.free, .regs, .evr, .pwr, .mb, .upd]
  | .debugRelock => [.free, .regs, .evr, .rst, .pwr, .mb, .upd]
  | .unitRestore => [.free, .regs, .evr, .pwr, .mb, .cores, .chk, .upd]
  | .twokeyTimeout => [.regs, .evr, .pwr, .mb, .upd]
  | .updSchedule .. | .updConfirm | .updCancel | .goDecision | .activationAtT | .trialOk .. | .trialFail ..
  | .trialWindowExpires => [.free, .regs, .out, .evr, .rst, .pwr, .blk, .time, .mb, .lk, .topo, .hce, .upd, .age]
  | .resetReqEngine | .resetReqPartition | .resetReqChip | .resetReqPowerCycle =>
    [.free, .regs, .mem, .evr, .rst, .pwr, .mb]
  | .evacuateTimeout => [.mb, .peers]
  | .ageReplan => [.free, .regs, .evr, .pwr, .blk, .mb, .hce, .age]
  | .keeperBoot .. =>
    [.free, .regs, .mem, .out, .evr, .rst, .pwr, .blk, .time, .mb, .cores, .chk, .ms, .eng, .lk, .path, .topo, .hce, .upd]
  | .rstStepLate .. | .rstOrqBootFail => [.regs, .evr, .rst, .pwr, .time, .mb, .topo, .hce, .upd]
  | .keeperWatchdog => [.free, .regs, .evr, .rst, .pwr, .mb]
  | .engineResetComplete .. => [.free, .regs, .mem, .rst, .mb, .eng, .lk]
  | .partitionReset .. =>
    [.free, .regs, .mem, .out, .evr, .rst, .pwr, .blk, .mb, .cores, .chk, .ms, .eng, .lk, .routes, .place, .path, .peers]
  | .partitionResetComplete .. => [.free, .regs, .mem, .rst, .blk, .mb, .cores]
  | .chipReset .. =>
    [.free, .regs, .mem, .out, .evr, .rst, .pwr, .blk, .time, .mb, .cores, .chk, .ms, .eng, .lk, .place, .path, .topo, .hce, .peers, .upd]
  | .drainExpires =>
    [.free, .regs, .mem, .out, .evr, .rst, .pwr, .blk, .time, .mb, .cores, .chk, .ms, .eng, .lk, .place, .path, .topo, .hce, .upd]
  | .actionDequeue | .rstDumpDone => [.regs, .evr, .rst, .pwr]
  | .collectionAccessTimeout .. => [.regs, .rst]
  | .collectionDone .. => [.free, .regs, .mem, .rst]
  | .latticeRecordWrite | .hb .. => [.peers]
  | .hbSend => [.regs, .out, .evr, .pwr, .lk, .peers]
  | .mirrorHb .. => [.regs, .ms, .lk]
  | .xferOpen .. => [.free, .regs, .out, .upd]
  | .xferData .. => [.free, .out, .upd]
  | .blockEnd .. => [.free, .regs, .out, .evr, .pwr, .upd]
  | .xferClose .. => [.free, .regs, .out]
  | .boot .. => [.free, .regs, .out, .time, .mb, .ms, .topo, .hce, .upd]
  | .challenge .. | .getMeasurements .. => [.free, .out]
  | .ready .. => [.regs, .upd]
  | .notReady .. => [.upd]
  | .go .. => [.regs, .time, .upd]
  | .groupAbort .. | .allOk .. => [.free, .regs, .evr, .pwr, .blk, .time, .mb, .hce, .upd, .age]
  | .rollback .. => [.free, .regs, .evr, .rst, .pwr, .blk, .time, .mb, .topo, .hce, .upd, .age]
  | .ageingMeasurement .. => [.age]
  | .replanDue => [.free, .regs, .evr, .pwr, .blk, .hce, .age]
  | .packetCrcFail .. => [.regs, .out, .lk]

/-- The state after `n` steps; none where a step stops. -/
def after : Nat → State → Option State
  | 0, s => some s
  | n + 1, s => match step s with
    | .next t => after n t
    | _ => none

/-- Between `s` and `t` no field of any register changed, but for those of the registers listed, the recorder's two counts
and the reset controller's reports (0x0080_0008 to 0x0080_004F). -/
def RegistersKept (s t : State) (rs : List Reg) : Prop :=
  ∀ f i, (f.reg.off i < 0x800008 ∨ 0x800050 ≤ f.reg.off i) →
    (∀ r ∈ .EVR_CNT_LOST :: .EVR_CNT_COAL :: rs, ∀ j, r.off j ≠ f.reg.off i) → t.rd f i = s.rd f i

/-- The block runs on: a step neither faults nor refuses. -/
def Runs (s : State) : Prop := ∃ t, step s = .next t

/-- The recorder takes every event: it runs, it does not coalesce, and its buffer is short of its first limit
(R732, R735). -/
abbrev Roomy (s : State) : Prop :=
  s.evr.stopped = false ∧ s.evr.coalescing = false ∧ s.evr.buf.length < 3000

/-- Between `s` and `t` an event of this code, severity and source went on record, behind everything recorded before. -/
def Noted (s t : State) (code sev kind index : Nat) : Prop :=
  ∃ r, s.evr.buf ++ [r] <+: t.evr.buf ∧ r.code = code ∧ r.sev = sev ∧ r.kind = kind ∧ r.index = index

/-- While the recorder takes every event, an event of this code, severity and source goes on record between `s` and `t`. -/
def Recorded (s t : State) (code sev kind index : Nat) : Prop := Roomy s → Noted s t code sev kind index

/-- A queue command of this opcode is started and its context is `ACTIVE`: the step that does its work may run (R344). -/
abbrev Started (s : State) (r : CmdRef) (op : Nat) (c : Cmd) : Prop :=
  s.cmdAt r = some c ∧ c.opcode = op ∧ c.work = some .started ∧ s.ctxState r.slot = ctxACTIVE

/-- A queue command of this opcode may go on, and its context is `ACTIVE` (R344). -/
abbrev Working (s : State) (r : CmdRef) (op : Nat) (c : Cmd) : Prop :=
  s.cmdAt r = some c ∧ c.opcode = op ∧ s.cmdReady r c = true ∧ s.ctxState r.slot = ctxACTIVE

/-- The first bytes of the descriptor that a command names at `ga`, as its engine reads them. -/
def headAt (s : State) (r : CmdRef) (ga n : Nat) : List (BitVec 8) := (s.fetchBytes r ga n headKey).2.getD []

/-- The whole descriptor, whose length its head gives. -/
def descAt (s : State) (r : CmdRef) (ga h n : Nat) : List (BitVec 8) :=
  ((s.fetchBytes r ga h headKey).1.fetchBytes r ga n descKey).2.getD []

/-- The state in which the descriptor has been read. -/
def descRead (s : State) (r : CmdRef) (ga h n : Nat) : State :=
  ((s.fetchBytes r ga h headKey).1.fetchBytes r ga n descKey).1

/-- The descriptor can be read now, every byte of it (R293, R303). -/
abbrev Readable (s : State) (r : CmdRef) (ga h n : Nat) : Prop :=
  (s.fetchBytes r ga h headKey).2.isSome = true ∧
    ((s.fetchBytes r ga h headKey).1.fetchBytes r ga n descKey).2.isSome = true

/-- The length of a collective command's group descriptor: its size says how many ranks follow (Table 7-12). -/
def groupSpan (s : State) (r : CmdRef) (c : Cmd) : Nat := 8 + 2 * leAt (headAt s r (leAt c.bytes 32 8) 8) 2 2

/-- The bytes of a collective command's group descriptor. -/
def groupDesc (s : State) (r : CmdRef) (c : Cmd) : List (BitVec 8) := descAt s r (leAt c.bytes 32 8) 8 (groupSpan s r c)

/-- The state in which a collective command's group descriptor has been read. -/
def groupRead (s : State) (r : CmdRef) (c : Cmd) : State := descRead s r (leAt c.bytes 32 8) 8 (groupSpan s r c)

/-- The operands of a collective command are legal, and its group descriptor is readable, names this module at its rank
and finds room for its pair (R373, R374, R379). -/
abbrev GroupLegal (s : State) (r : CmdRef) (op : Nat) (c : Cmd) : Prop :=
  collFmtOk op (leAt c.bytes 40 1 % 16) = true ∧
    (op = 0x34 ∨ leAt c.bytes 24 8 ≠ 0 ∧ leAt c.bytes 8 8 % (fmtBits (leAt c.bytes 40 1 % 16) / 8) = 0 ∧
      leAt c.bytes 16 8 % (fmtBits (leAt c.bytes 40 1 % 16) / 8) = 0) ∧
    leAt c.bytes 32 8 % 64 = 0 ∧ s.isLocalAddr (leAt c.bytes 32 8) = true ∧
    Readable s r (leAt c.bytes 32 8) 8 (groupSpan s r c) ∧
    2 ≤ leAt (headAt s r (leAt c.bytes 32 8) 8) 2 2 ∧ leAt (headAt s r (leAt c.bytes 32 8) 8) 2 2 ≤ 24576 ∧
    leAt (headAt s r (leAt c.bytes 32 8) 8) 4 2 < leAt (headAt s r (leAt c.bytes 32 8) 8) 2 2 ∧
    (groupNodes (groupDesc s r c)).getD (leAt (headAt s r (leAt c.bytes 32 8) 8) 4 2) 0 = (groupRead s r c).node ∧
    ((kfind (groupRead s r c).eng.pairs (pairKey ((groupRead s r c).ctxJob r.slot) (leAt (groupDesc s r c) 0 2))).isNone = false ∨
      (groupRead s r c).eng.pairs.length < 1024)

/-- A reduction has an operation that Table 7-13 lists and an ALU in service (R384); the others need neither. -/
abbrev Reducible (s : State) (r : CmdRef) (op : Nat) (c : Cmd) : Prop :=
  ¬ (op = 0x30 ∨ op = 0x31) ∨ leAt c.bytes 40 1 / 16 ≤ 2 ∧ (groupRead s r c).aluLive.isEmpty = false

/-- The run of a collective command whose descriptor has been read. -/
def groupNew (s : State) (r : CmdRef) (op : Nat) (c : Cmd) : CollRun := (groupRead s r c).collNew r.slot c op (groupDesc s r c)

/-- The length of a `RING_RUN`'s descriptor (Table 8-5). -/
def ringSpan (s : State) (r : CmdRef) (c : Cmd) : Nat := 64 + 2 * leAt (headAt s r (leAt c.bytes 8 8) 64) 2 2

/-- The state in which a `RING_RUN`'s descriptor has been read. -/
def ringRead (s : State) (r : CmdRef) (c : Cmd) : State := descRead s r (leAt c.bytes 8 8) 64 (ringSpan s r c)

/-- The run of a `RING_RUN` command before its first hello: its descriptor is what memory holds. -/
def ringNew (s : State) (r : CmdRef) (c : Cmd) : RingRun :=
  let d := descAt s r (leAt c.bytes 8 8) 64 (ringSpan s r c)
  ⟨r, (ringRead s r c).ctxJob r.slot, leAt d 0 2, d, 0, [], [], [], [], 0, [], []⟩

/-- The descriptor of a `RING_RUN` is aligned, in this module's LPDDR6, and readable (R408, R409). -/
abbrev RingReadable (s : State) (r : CmdRef) (c : Cmd) : Prop :=
  leAt c.bytes 8 8 % 64 = 0 ∧ s.isLocalAddr (leAt c.bytes 8 8) = true ∧ (placeOf (bitsOf (leAt c.bytes 8 8) 41 0)).isDram = true ∧
    Readable s r (leAt c.bytes 8 8) 64 (ringSpan s r c)

/-- An instruction with these needs issues: nothing of Table 3-7 holds it (R134 to R143). -/
abbrev Issues (s : State) (c k : Nat) (n : Needs) : Prop :=
  s.canIssue c k = true ∧ (n.regs.filter fun r => ((s.core c).pendingRegs k).contains r) = [] ∧
    (n.matrix = false ∨ (s.core c).mq.length < 4) ∧
    (n.memory = false ∨ (s.core c).queued < 32) ∧
    (n.entry = false ∨ (s.core c).entryFree k = true)

/-- The state in which an issued instruction acts: its thread is ready, and the issue is counted. -/
def issued (s : State) (c k : Nat) : State :=
  (s.setThread c k { s.thread c k with st := .ready, wait := none }).bump F.CORE_PERF_ISSUE.COUNT c

/-- Between `s` and `t` thread `k` of core `c` issued and retired one instruction that changed its registers by `f`;
its pc moved past the instruction, and no other thread, no memory and nothing outside the core changed. -/
def Retired (s t : State) (c k : Nat) (f : Thread → Thread) : Prop :=
  t.thread c k = { f { s.thread c k with st := .ready, wait := none } with pc := ((s.thread c k).pc + 8) % 2 ^ 64 } ∧
    (∀ c' k', (c', k') ≠ (c, k) → t.thread c' k' = s.thread c' k') ∧
    t.regs = (s.bump F.CORE_PERF_ISSUE.COUNT c).regs ∧ t.mem = s.mem ∧ t.out = s.out ∧ t.evr = s.evr ∧ t.eng = s.eng ∧
    t.ms = s.ms

/-- The values of a tile of core `c` are in its working copies, the lines that were not compared are counted, and the free
values it drew are past. -/
def computed (s : State) (c : Nat) (b : Bank) (m : MmaSpec) (vals : List (Nat × List (BitVec 32))) : State :=
  let u := s.tick.tick.bump F.CHK_CNT_UNCHK.COUNT 0 (tileCheck (s.core c) b s.free m vals).2
  u.setCore c ((u.core c).putWork (pairInt b.a.fmt) vals)

/-- A command that the service core accepts as ticket `n` (R630). -/
def accepted (s : State) (cmd n : Nat) : State :=
  { s with
    mb.tickets := kset s.mb.tickets n ⟨cmd, none, false⟩
    mb.resp := some ⟨stACCEPTED, n, 0xFFFF, []⟩ }

/-- A well-formed, valid authorisation of an operation has arrived, and a ticket is free (R700, R701). -/
abbrev KeyValid (s : State) (op : Nat) (q : Req) (n : Nat) : Prop :=
  s.taking 0x0600 = some q ∧ leAt q.payload 0 2 = op ∧ tkFormOk q.payload = true ∧ s.groupHolds = false ∧
    s.tkAuthOk q.payload = true ∧ s.freeTicket = some n

/-- It is the second authorisation of the pending change `w`, by the other holder. -/
abbrev SecondKey (s : State) (op : Nat) (q : Req) (n : Nat) (w : TwoKey) : Prop :=
  KeyValid s op q n ∧ s.upd.pending = some w ∧ tkAgree q.payload w.head = true ∧ w.holder ≠ leAt q.payload 2 1

/-- A packet that lane `lane` of an `UP` one-lane circuit or channel `c` may take next: its header is sound and its number is
the one expected (R451, R457). -/
abbrev Receivable (s : State) (lane c type : Nat) (p : Pkt) : Prop :=
  s.laneCirc lane = some c ∧ s.laneState lane = lsUP ∧ s.circUp c = true ∧ s.circLanes c = [lane] ∧
    (s.lane lane).buf = [] ∧ ((s.lane lane).expect = none ∨ (s.lane lane).expect = some (s.circ c).e) ∧ (s.circ c).e < 2 ^ 24 ∧
    p.seq = (s.circ c).e ∧ s.badHeader c type p = false

/-- The state in which that packet's consumer gets it: the next number is expected, the packet's credits are returned, and
its number is taken (R453, R457, R458). -/
def received (s : State) (lane c type : Nat) (p : Pkt) : State :=
  (s.setLane lane (({ s.lane lane with expect := some ((p.seq + 1) % 2 ^ 24), nak := false } : Machine.Lane).giveBack
    (packetClass type) p.units)).setCirc c { s.circ c with e := (p.seq + 1) % 2 ^ 24 }

/-- The state in which a transmitter of circuit `c` chooses: held messages that may go have left, and copies past `PMSG_AGE`
are gone (R475, R476). -/
def offered (s : State) (c : Nat) : State :=
  s.releaseHeld.setCirc c { s.releaseHeld.circ c with txq := (s.releaseHeld.circ c).txq.filter fun t => !s.releaseHeld.pmsgAged t }

end Sys2Proof.Safety
end

