-- ==== Sys2Proof/Certificates/Slice0/Obligations.lean ====
section
/-! DEFINITION. The statements for the provers: what each command of the block does by the rules of the specification,
what reset leaves, and what every command and every step keeps. -/

set_option autoImplicit false

open Sys2Proof Sys2Proof.Machine Sys2Proof.Safety

/-- A feed that comes into range runs its stage: while the other stage carries the load it starts its 1 s wait,
and with no stage carrying it takes the load at once and powers the domains. A feed that leaves range stops its
stage, sets its alert bit and goes on record at SEV1; a stage that faults stops and goes on record. Where the
other stage can, it carries the load from then on. A cleared fault starts the wait of a stage that joins a
carrying one, the end of the wait starts the share ramp, and the end of the ramp has every running stage carry the
load; with both, FEED_REDUND is cleared. The check 5 s after start records lost redundancy. (R36, R37, R38, R39,
R40, R41, R42, spec/01_module_and_pins.md.) -/
def Obligations.FeedRows : Prop :=
    (∀ (s : State) (x : Side) (cv : Nat), 4550 ≤ cv → cv ≤ 5900 → (s.feed x).inRange = false → s.pwr.holdUp = false →
      (s.feed x).fault = false → (s.feed (otherSide x)).carrying = true →
      ∃ t, exec (.feedEntersRange x cv) s = .next t ∧ t.feed x =
        { s.feed x with inRange := true, up := true, waiting := true } ∧ t.feed (otherSide x) = s.feed (otherSide x)
        ∧ t.regs = s.regs ∧ t.mem = s.mem) ∧
    (∀ (s : State) (x : Side) (cv : Nat), 4550 ≤ cv → cv ≤ 5900 → (s.feed x).inRange = false → s.pwr.holdUp = false →
      (s.feed x).fault = false → (s.feed (otherSide x)).carrying = false →
      ∃ t, exec (.feedEntersRange x cv) s = .next t ∧ t.feed x =
        { s.feed x with inRange := true, up := true, carrying := true, waiting := false } ∧ t.pwr.domains = true ∧
        t.feed (otherSide x) = s.feed (otherSide x) ∧ t.mem = s.mem) ∧
    (∀ (s : State) (x : Side) (cv : Nat), 4550 ≤ cv → cv ≤ 5900 → (s.feed x).inRange = false → s.pwr.holdUp = false →
      (s.feed x).fault = true →
      ∃ t, exec (.feedEntersRange x cv) s = .next t ∧ t.feed x = { s.feed x with inRange := true } ∧ t.feed
        (otherSide x) = s.feed (otherSide x) ∧ t.regs = s.regs ∧ t.mem = s.mem) ∧
    (∀ (s : State) (x : Side) (cv : Nat), (cv < 4400 ∨ 6000 < cv) → (s.feed x).inRange = true →
      ∃ t, exec (.feedLeavesRange x cv) s = .next t ∧ t.feed x =
        { s.feed x with inRange := false, up := false, carrying := false, waiting := false } ∧ ((s.feed (otherSide
        x)).good = true → t.feed (otherSide x) = { s.feed (otherSide x) with carrying := true, waiting := false } ∧
        t.alertBit aFEED_REDUND = true) ∧ t.alertBit (sideIndex x) = true ∧ t.mem = s.mem ∧ Recorded s t evFeedLost
        1 0xA (sideIndex x)) ∧
    (∀ (s : State) (x : Side), (s.feed x).fault = false →
      ∃ t, exec (.stageFault x) s = .next t ∧ t.feed x =
        { s.feed x with fault := true, up := false, carrying := false, waiting := false } ∧ ((s.feed (otherSide
        x)).good = true → t.feed (otherSide x) = { s.feed (otherSide x) with carrying := true, waiting := false } ∧
        t.alertBit aFEED_REDUND = true) ∧ t.mem = s.mem ∧ Recorded s t evFeedLost 1 0xA (sideIndex x)) ∧
    (∀ (s : State) (x : Side), (s.feed x).fault = true → (s.feed x).inRange = true → (s.feed (otherSide x)).carrying =
      true →
      ∃ t, exec (.stageFaultClears x) s = .next t ∧ t.feed x =
        { s.feed x with fault := false, up := true, waiting := true } ∧ t.feed (otherSide x) = s.feed (otherSide x)
        ∧ t.regs = s.regs ∧ t.mem = s.mem) ∧
    (∀ (s : State) (x : Side), (s.feed x).fault = true → (s.feed x).inRange = false →
      ∃ t, exec (.stageFaultClears x) s = .next t ∧ t.feed x = { s.feed x with fault := false } ∧ t.feed (otherSide
        x) = s.feed (otherSide x) ∧ t.regs = s.regs ∧ t.mem = s.mem) ∧
    (∀ (s : State) (x : Side), (s.feed x).waiting = true → (s.feed x).good = true →
      ∃ t, exec (.feedReturnWaitExpires x) s = .next t ∧ t.feed x = { s.feed x with waiting := false } ∧
        t.pwr.ramping = true ∧ t.feed (otherSide x) = s.feed (otherSide x) ∧ t.regs = s.regs ∧ t.mem = s.mem) ∧
    (∀ (s : State), s.pwr.ramping = true →
      ∃ t, exec .shareRampComplete s = .next t ∧ t.pwr.ramping = false ∧ t.pwr.a.carrying = ((s.pwr.a.good) &&
        !s.pwr.a.waiting) ∧ t.pwr.b.carrying = ((s.pwr.b.good) && !s.pwr.b.waiting) ∧ (t.pwr.a.carrying = true →
        t.pwr.b.carrying = true → t.alertBit aFEED_REDUND = false ∧ t.pwr.startCheck = false) ∧ t.regs = s.regs ∧
        t.mem = s.mem) ∧
    (∀ (s : State), s.pwr.startCheck = true → s.pwr.sharing = false →
      ∃ t, exec .feedRedundStartCheck s = .next t ∧ t.pwr.startCheck = false ∧ t.mem = s.mem ∧ Recorded s t
        evRedundLost 1 0 0) ∧
    (∀ (s : State), s.pwr.startCheck = true → s.pwr.sharing = true →
      ∃ t, exec .feedRedundStartCheck s = .next t ∧ t = { s with pwr.startCheck := false })

/-- A started module's feed-health heartbeat advances its 16-bit count by one, and a health core that runs reads
it on the keeper bus; a health core that has read an advance and finds the path silent sets MON_PATH and records
SEV1. A phase of the proof test that ends starts the next: the hold phase of a stage stores what it measured and
fails the stage below 46.0 V or above 105.0 degrees, and the end of the last wait ends the test with its result. A
power cycle still not executed after 2 s is recorded at SEV6 while the request stands. (R47, R53, R54, R55, R56,
R83, spec/01_module_and_pins.md.) -/
def Obligations.PowerWatchRows : Prop :=
    (∀ (s : State) (read : Bool), s.pwr.started = true →
      ∃ t, exec (.feedHealthHeartbeat read) s = .next t ∧ t.pwr.hbCount = (s.pwr.hbCount + 1) % 0x10000 ∧
        t.pwr.hbSeen = (s.pwr.hbSeen || (read && !s.rst.orqDown)) ∧ t.pwr.monSilent = (s.pwr.monSilent && !(read &&
        !s.rst.orqDown)) ∧ t.regs = s.regs ∧ t.mem = s.mem ∧ t.out = s.out) ∧
    (∀ (s : State), s.rst.orqDown = false → s.pwr.hbSeen = true →
      ∃ t, exec .monPathLost s = .next t ∧ t.pwr.monSilent = true ∧ t.alertBit aMON_PATH = true ∧ t.mem = s.mem ∧
        Recorded s t evMonPath 1 9 2) ∧
    (∀ (s : State) (p : Proof) (vmin : Nat) (tpk : Int), s.pwr.proof = some p → p.phase = .rampA →
      ∃ t, exec (.proofTestPhaseEnd vmin tpk) s = .next t ∧ t.pwr.proof = some { p with phase := .holdA } ∧
        t.pwr.a.carrying = s.pwr.a.good ∧ t.pwr.b.carrying = (!s.pwr.a.good && s.pwr.b.good) ∧ t.regs = s.regs ∧
        t.mem = s.mem) ∧
    (∀ (s : State) (p : Proof) (vmin : Nat) (tpk : Int), s.pwr.proof = some p → p.phase = .holdA →
      ∃ t, exec (.proofTestPhaseEnd vmin tpk) s = .next t ∧ t.pwr.proof = some
        { p with phase := .returnA, vminA := vmin, tpkA := tpk, failA := p.failA || (decide (vmin < 4600) || decide (1050 < tpk)) }
        ∧ t.regs = s.regs ∧ t.mem = s.mem) ∧
    (∀ (s : State) (p : Proof) (vmin : Nat) (tpk : Int), s.pwr.proof = some p → p.phase = .returnA →
      ∃ t, exec (.proofTestPhaseEnd vmin tpk) s = .next t ∧ t.pwr.proof = some { p with phase := .waitA } ∧
        t.pwr.a.carrying = (s.pwr.a.good && !s.pwr.a.waiting) ∧ t.pwr.b.carrying = (s.pwr.b.good &&
        !s.pwr.b.waiting) ∧ t.regs = s.regs ∧ t.mem = s.mem) ∧
    (∀ (s : State) (p : Proof) (vmin : Nat) (tpk : Int), s.pwr.proof = some p → p.phase = .waitA →
      ∃ t, exec (.proofTestPhaseEnd vmin tpk) s = .next t ∧ t.pwr.proof = some { p with phase := .rampB } ∧ t.regs =
        s.regs ∧ t.mem = s.mem) ∧
    (∀ (s : State) (p : Proof) (vmin : Nat) (tpk : Int), s.pwr.proof = some p → p.phase = .rampB →
      ∃ t, exec (.proofTestPhaseEnd vmin tpk) s = .next t ∧ t.pwr.proof = some { p with phase := .holdB } ∧
        t.pwr.b.carrying = s.pwr.b.good ∧ t.pwr.a.carrying = (!s.pwr.b.good && s.pwr.a.good) ∧ t.regs = s.regs ∧
        t.mem = s.mem) ∧
    (∀ (s : State) (p : Proof) (vmin : Nat) (tpk : Int), s.pwr.proof = some p → p.phase = .holdB →
      ∃ t, exec (.proofTestPhaseEnd vmin tpk) s = .next t ∧ t.pwr.proof = some
        { p with phase := .returnB, vminB := vmin, tpkB := tpk, failB := p.failB || (decide (vmin < 4600) || decide (1050 < tpk)) }
        ∧ t.regs = s.regs ∧ t.mem = s.mem) ∧
    (∀ (s : State) (p : Proof) (vmin : Nat) (tpk : Int), s.pwr.proof = some p → p.phase = .returnB →
      ∃ t, exec (.proofTestPhaseEnd vmin tpk) s = .next t ∧ t.pwr.proof = some { p with phase := .waitB } ∧
        t.pwr.a.carrying = (s.pwr.a.good && !s.pwr.a.waiting) ∧ t.pwr.b.carrying = (s.pwr.b.good &&
        !s.pwr.b.waiting) ∧ t.regs = s.regs ∧ t.mem = s.mem) ∧
    (∀ (s : State) (p : Proof) (vmin : Nat) (tpk : Int), s.pwr.proof = some p → p.phase = .waitB → p.failA = false →
      p.failB = false →
      ∃ t, exec (.proofTestPhaseEnd vmin tpk) s = .next t ∧ t.pwr.proof = none ∧ t.pwr.proofResult = 1 ∧
        t.pwr.suspect = false ∧ t.mem = s.mem ∧ Recorded s t evProofPass 0 0 0) ∧
    (∀ (s : State) (p : Proof) (vmin : Nat) (tpk : Int), s.pwr.proof = some p → p.phase = .waitB → (p.failA = true ∨
      p.failB = true) →
      ∃ t, exec (.proofTestPhaseEnd vmin tpk) s = .next t ∧ t.pwr.proof = none ∧ t.pwr.proofResult = 2 ∧
        t.pwr.suspect = true ∧ t.alertBit aFEED_SUSPECT = true ∧ t.mem = s.mem ∧ Recorded s t evProofFail 1 0xA (if
        p.failA then 0 else 1)) ∧
    (∀ (s : State), s.pwr.pwrcycReq = true →
      ∃ t, exec .powerCycleNotExecuted s = .next t ∧ t.pwr.pwrcycReq = true ∧ t.mem = s.mem ∧ Recorded s t
        evPwrcycNot 6 0 0)

/-- Each read command of Table 1-6 puts out its code and its word: STATUS, ALERT_MASK, HB_COUNT, PROOF_RESULT and
PWRCYC_REASON from state, the seven sensor words as what the sensor measures at that moment (a free value, which
the state keeps). ALERT_MASK can be written; ALERT_CLEAR leaves a bit outside its mask as it is and clears one
whose cause has ended; PROOF_TEST 0x01 starts a test where both feeds are in range and healthy and no test runs,
and reads back 3 otherwise; a write with a wrong PEC is not acknowledged and has no effect; an unknown code is not
acknowledged; the alert response address is answered only while ALERT_N is low. (R79, R80, R52,
spec/01_module_and_pins.md (Table 1-6).) -/
def Obligations.SmbusRows : Prop :=
    (∀ (s : State),
      ∃ t, exec .smbStatus s = .next t ∧ t.out = s.out ++ [Output.smb 0x01 (s.pwr.status.toNat % 0x10000)] ∧ t.regs
        = s.regs ∧ t.mem = s.mem) ∧
    (∀ (s : State),
      ∃ t, exec .hbCount s = .next t ∧ t.out = s.out ++ [Output.smb 0x28 (s.pwr.hbCount % 0x10000)] ∧ t.regs =
        s.regs ∧ t.mem = s.mem) ∧
    (∀ (s : State),
      ∃ t, exec .proofResult s = .next t ∧ t.out = s.out ++ [Output.smb 0x31 (s.pwr.proofResult % 0x10000)] ∧ t.regs
        = s.regs ∧ t.mem = s.mem) ∧
    (∀ (s : State),
      ∃ t, exec .pwrcycReason s = .next t ∧ t.out = s.out ++ [Output.smb 0x38 (s.pwr.pwrcycReason % 256)] ∧ t.regs =
        s.regs ∧ t.mem = s.mem) ∧
    (∀ (s : State),
      ∃ t, exec .feedAV s = .next t ∧ t.out = s.out ++ [Output.smb 0x10 (Config.sensor s.free % 0x10000)] ∧
        t.pwr.sensors.feedAV = Config.sensor s.free % 0x10000 ∧ t.free = s.free + 1 ∧ t.regs = s.regs ∧ t.mem =
        s.mem) ∧
    (∀ (s : State),
      ∃ t, exec .feedAI s = .next t ∧ t.out = s.out ++ [Output.smb 0x11 (Config.sensor s.free % 0x10000)] ∧
        t.pwr.sensors.feedAI = Config.sensor s.free % 0x10000 ∧ t.free = s.free + 1 ∧ t.regs = s.regs ∧ t.mem =
        s.mem) ∧
    (∀ (s : State),
      ∃ t, exec .feedBV s = .next t ∧ t.out = s.out ++ [Output.smb 0x12 (Config.sensor s.free % 0x10000)] ∧
        t.pwr.sensors.feedBV = Config.sensor s.free % 0x10000 ∧ t.free = s.free + 1 ∧ t.regs = s.regs ∧ t.mem =
        s.mem) ∧
    (∀ (s : State),
      ∃ t, exec .feedBI s = .next t ∧ t.out = s.out ++ [Output.smb 0x13 (Config.sensor s.free % 0x10000)] ∧
        t.pwr.sensors.feedBI = Config.sensor s.free % 0x10000 ∧ t.free = s.free + 1 ∧ t.regs = s.regs ∧ t.mem =
        s.mem) ∧
    (∀ (s : State),
      ∃ t, exec .inputPower s = .next t ∧ t.out = s.out ++ [Output.smb 0x14 (Config.sensor s.free % 0x10000)] ∧
        t.pwr.sensors.power = Config.sensor s.free % 0x10000 ∧ t.free = s.free + 1 ∧ t.regs = s.regs ∧ t.mem = s.mem) ∧
    (∀ (s : State),
      ∃ t, exec .inletTemp s = .next t ∧ t.out = s.out ++ [Output.smb 0x20 (Config.sensor s.free % 0x10000)] ∧
        t.pwr.sensors.inlet = Config.sensor s.free % 0x10000 ∧ t.free = s.free + 1 ∧ t.regs = s.regs ∧ t.mem = s.mem) ∧
    (∀ (s : State),
      ∃ t, exec .outletTemp s = .next t ∧ t.out = s.out ++ [Output.smb 0x21 (Config.sensor s.free % 0x10000)] ∧
        t.pwr.sensors.outlet = Config.sensor s.free % 0x10000 ∧ t.free = s.free + 1 ∧ t.regs = s.regs ∧ t.mem =
        s.mem) ∧
    (∀ (s : State) (v : Nat),
      ∃ t, exec (.smbAlertMask true v true) s = .next t ∧ t.pwr.mask = BitVec.ofNat 16 v ∧ t.pwr.status =
        s.pwr.status ∧ t.out = s.out ∧ t.regs = s.regs) ∧
    (∀ (s : State) (v : Nat) (pec : Bool),
      ∃ t, exec (.smbAlertMask false v pec) s = .next t ∧ t.out = s.out ++ [Output.smb 0x03 (s.pwr.mask.toNat %
        0x10000)] ∧ t.pwr = s.pwr ∧ t.regs = s.regs) ∧
    (∀ (s : State) (m n : Nat), n < 10 → bitOf m n = false →
      ∃ t, exec (.smbAlertClear m true) s = .next t ∧ t.alertBit n = s.alertBit n ∧ t.regs = s.regs ∧ t.mem = s.mem
        ∧ t.out = s.out) ∧
    (∀ (s : State) (m n : Nat), n < 10 → bitOf m n = true → s.alertCause n = false →
      ∃ t, exec (.smbAlertClear m true) s = .next t ∧ t.alertBit n = false ∧ t.regs = s.regs ∧ t.mem = s.mem ∧ t.out
        = s.out) ∧
    (∀ (s : State), s.pwr.a.good = true → s.pwr.b.good = true → s.pwr.proof = none →
      ∃ t, exec (.smbProofTest 1 true) s = .next t ∧ t.pwr.proofResult = 5 ∧ (t.pwr.proof.map fun p => (p.phase,
        p.ticket, p.failA, p.failB)) = some (.rampA, none, false, false) ∧ t.regs = s.regs ∧ t.mem = s.mem) ∧
    (∀ (s : State), (s.pwr.a.good = false ∨ s.pwr.b.good = false ∨ s.pwr.proof.isNone = false) →
      ∃ t, exec (.smbProofTest 1 true) s = .next t ∧ t.pwr.proofResult = 3 ∧ t.pwr.proof = s.pwr.proof ∧ t.regs =
        s.regs ∧ t.mem = s.mem) ∧
    (∀ (s : State) (c : Nat),
      ∃ t, exec (.smbUnknownCommand c) s = .next t ∧ t.out = s.out ++ [Output.smbNack] ∧ t.pwr = s.pwr ∧ t.regs =
        s.regs) ∧
    (∀ (s : State), s.alertLow = true →
      ∃ t, exec .smbAlertResponse s = .next t ∧ t.out = s.out ++ [Output.smbAlertAddr 0x4C] ∧ t.pwr = s.pwr ∧ t.regs
        = s.regs) ∧
    (∀ (s : State) (v : Nat), v ≠ 1 → exec (.smbProofTest v true) s = .next s) ∧
    (∀ (s : State) (v : Nat), exec (.smbAlertMask true v false) s = .next (s.emit .smbNack) ∧ exec (.smbAlertClear v
      false) s = .next (s.emit .smbNack) ∧ exec (.smbProofTest v false) s = .next (s.emit .smbNack)) ∧
    (∀ (s : State), s.alertLow = false → exec .smbAlertResponse s = .next (s.emit .smbNack))

/-- In the 40 to 48 degree band a quarter's clock falls by one 100 MHz step and COOL_WARN is set, and the first
step after the band was entered goes on record at SEV1; above 48 degrees COOL_STOP is set, every partition goes on
record at SEV4, and the stop holds until the inlet has recovered to 45 degrees, when the SRAM dies are supplied
again; an inlet that falls to 40 degrees gives every quarter its ceiling again; and an average input power above
2,000 W lowers a quarter's clock by one step. (R31, R88, spec/01_module_and_pins.md.) -/
def Obligations.CoolantRows : Prop :=
    (∀ (s : State) (i : Int) (q : Nat), 400 < i → i ≤ 480 → q < 4 →
      ∃ t, exec (.computeClockStep i q) s = .next t ∧ (t.quarter q).mhz = (s.quarter q).mhz - 100 ∧ t.alertBit
        aCOOL_WARN = true ∧ t.pwr.coolBand = true ∧ t.pwr.coolStepped = true ∧ t.mem = s.mem ∧ (s.pwr.coolStepped =
        false → Recorded s t evClockStep 1 2 q)) ∧
    (∀ (s : State) (i : Int), 480 < i →
      ∃ t, exec (.inletOverLimit i) s = .next t ∧ t.pwr.coolStop = true ∧ t.alertBit aCOOL_STOP = true ∧ t.alertBit
        aCOOL_WARN = true ∧ t.mem = s.mem ∧ t.out = s.out ∧ (s.partExists 0 = true → Recorded s t evCoolStop 4 2 0)) ∧
    (∀ (s : State) (i : Int), i ≤ 450 → s.pwr.coolStop = true →
      ∃ t, exec (.inletRecovered i) s = .next t ∧ t.pwr = { s.pwr with coolStop := false } ∧ (∀ q, q < 4 → bitOf
        (t.rd F.ID_PWR_STATE.Q_SRAM_OFF) q = (bitOf (s.rd F.ID_PWR_STATE.Q_SRAM_OFF) q && (s.quarter q).outOfSvc)) ∧
        t.mem = s.mem) ∧
    (∀ (s : State) (i : Int), s.pwr.coolStop = false → exec (.inletRecovered i) s = .next s) ∧
    (∀ (s : State) (i : Int), i ≤ 400 →
      ∃ t, exec (.inletBandChange i) s = .next t ∧ t.pwr.coolBand = false ∧ t.pwr.coolStepped = false ∧ (∀ q v,
        kfind s.blk.quarters q = some v → kfind t.blk.quarters q = some { v with mhz := v.ceiling }) ∧ t.regs =
        s.regs ∧ t.mem = s.mem) ∧
    (∀ (s : State) (i : Int), 400 < i →
      ∃ t, exec (.inletBandChange i) s = .next t ∧ t.pwr.coolBand = true ∧ t.alertBit aCOOL_WARN = true ∧ t.blk =
        s.blk ∧ t.regs = s.regs ∧ t.mem = s.mem) ∧
    (∀ (s : State) (w q : Nat), 2000 < w → q < 4 →
      ∃ t, exec (.powerLimitClockStep w q) s = .next t ∧ (t.quarter q).mhz = (s.quarter q).mhz - 100 ∧
        t.pwr.sensors.power = w ∧ t.regs = s.regs ∧ t.mem = s.mem)

/-- Loss of TREF moves the module to its oscillator (REF_SRC 1), sets TREF_LOST and records SEV1; its return moves
it back; loss of both references sets COARSE and NO_REF and records SEV5 TIM_COARSE, and a qualified reference
clears both, after which circuit changes that waited for one go on. PERST_N high starts the port; a configuration
write to a ready port is kept and read back, a request to a port that is not configured is answered with retry.
BYPASS and IDCODE always work; EXTEST and INTEST put the shifted boundary register out in TEST mode under a debug
unlock and act as BYPASS otherwise, and any other instruction needs the unlock. (R71, R76, R77, R78, R111, R595,
R657, spec/01_module_and_pins.md.) -/
def Obligations.ReferenceAndPinRows : Prop :=
    (∀ (s : State), s.blk.trefOk = true → s.blk.oscOk = true →
      ∃ t, exec .trefLost s = .next t ∧ t.blk.trefOk = false ∧ t.rd F.ID_PWR_STATE.REF_SRC = 1 ∧ t.alertBit
        aTREF_LOST = true ∧ t.mem = s.mem ∧ Recorded s t evTrefLost 1 0 0) ∧
    (∀ (s : State), (s.blk.trefOk = false ∨ s.blk.oscOk = false) →
      exec .trefLost s = .next { s with blk.trefOk := false }) ∧
    (∀ (s : State), s.blk.noRef = false →
      ∃ t, exec .trefRestored s = .next t ∧ t.blk.trefOk = true ∧ t.rd F.ID_PWR_STATE.REF_SRC = 0 ∧ t.mem = s.mem ∧
        t.out = s.out) ∧
    (∀ (s : State), s.blk.noRef = false →
      ∃ t, exec .referencesLost s = .next t ∧ t.blk.noRef = true ∧ t.rd F.TIM_STATUS.COARSE = 1 ∧ t.rd
        F.PTH_STATUS.NO_REF = 1 ∧ t.mem = s.mem ∧ Recorded s t evTimCoarse 5 0 0) ∧
    (∀ (s : State), s.blk.noRef = true →
      ∃ t : State, exec (.referenceQualified true) s = .next t.kick ∧ t.blk.noRef = false ∧ t.blk.trefOk = true ∧
        t.rd F.ID_PWR_STATE.REF_SRC = 0 ∧ t.rd F.TIM_STATUS.COARSE = 0 ∧ t.rd F.PTH_STATUS.NO_REF = 0 ∧ t.mem =
        s.mem ∧ t.path = s.path) ∧
    (∀ (s : State), s.blk.noRef = true →
      ∃ t : State, exec (.referenceQualified false) s = .next t.kick ∧ t.blk.noRef = false ∧ t.blk.oscOk = true ∧
        t.rd F.ID_PWR_STATE.REF_SRC = 1 ∧ t.rd F.TIM_STATUS.COARSE = 0 ∧ t.rd F.PTH_STATUS.NO_REF = 0 ∧ t.mem =
        s.mem ∧ t.path = s.path) ∧
    (∀ (s : State), s.pwr.perstLow = true →
      ∃ t, exec .perstDeassert s = .next t ∧ t.pwr.perstLow = false ∧ t.pwr.perstAt = s.opMs ∧ t.ms.linkDown = false
        ∧ t.regs = s.regs ∧ t.mem = s.mem) ∧
    (∀ (s : State) (off v : Nat), s.cxlReady = true →
      ∃ t, exec (.cxlConfigRequest off true v) s = .next t ∧ kget t.pwr.cxlCfg off 0 = v % 2 ^ 32 ∧ t.out = s.out ∧
        t.regs = s.regs ∧ t.mem = s.mem) ∧
    (∀ (s : State) (off v w : Nat), s.cxlReady = true → kfind s.pwr.cxlCfg off = some w →
      ∃ t, exec (.cxlConfigRequest off false v) s = .next t ∧ t.out = s.out ++ [Output.cxlConfig w] ∧ t.pwr = s.pwr
        ∧ t.regs = s.regs ∧ t.mem = s.mem) ∧
    (∀ (s : State) (off v : Nat), s.cxlReady = true → kfind s.pwr.cxlCfg off = none →
      ∃ t w, exec (.cxlConfigRequest off false v) s = .next t ∧ t.out = s.out ++ [Output.cxlConfig w] ∧ w < 2 ^ 32 ∧
        t.pwr = s.pwr ∧ t.regs = s.regs ∧ t.mem = s.mem) ∧
    (∀ (s : State) (off v : Nat) (w : Bool), s.pwr.perstLow = false → s.cxlReady = false →
      ∃ t, exec (.cxlConfigRequest off w v) s = .next t ∧ t.out = s.out ++ [Output.cxlRetry] ∧ t.pwr = s.pwr ∧
        t.regs = s.regs ∧ t.mem = s.mem) ∧
    (∀ (s : State),
      ∃ t, exec .tapBypass s = .next t ∧ t.pwr.tap = .bypass ∧ t.out = s.out ++ [Output.tap 0 0] ∧ t.regs = s.regs ∧
        t.mem = s.mem) ∧
    (∀ (s : State),
      ∃ t, exec .tapIdcode s = .next t ∧ t.pwr.tap = .idcode ∧ t.out = s.out ++ [Output.tap 1 (Config.siRev ++
        Config.idcodeLow).toNat] ∧ t.regs = s.regs ∧ t.mem = s.mem) ∧
    (∀ (s : State) (scan : Nat), s.rd F.SEC_STATUS.DEBUG = 1 → s.rd F.RST_STATUS.MODE = mTEST →
      ∃ t, exec (.tapExtest scan) s = .next t ∧ t.pwr.tap = .extest ∧ t.pwr.boundary = scan % 2 ^ 128 ∧ t.out =
        s.out ++ [Output.tap 2 (scan % 2 ^ 128)] ∧ t.regs = s.regs ∧ t.mem = s.mem) ∧
    (∀ (s : State) (scan : Nat), (s.rd F.SEC_STATUS.DEBUG ≠ 1 ∨ s.rd F.RST_STATUS.MODE ≠ mTEST) →
      ∃ t, exec (.tapExtest scan) s = .next t ∧ t.pwr.tap = .bypass ∧ t.out = s.out ++ [Output.tap 0 0] ∧ t.regs =
        s.regs ∧ t.mem = s.mem) ∧
    (∀ (s : State) (scan : Nat), s.rd F.SEC_STATUS.DEBUG = 1 → s.rd F.RST_STATUS.MODE = mTEST →
      ∃ t, exec (.tapIntest scan) s = .next t ∧ t.pwr.tap = .intest ∧ t.pwr.boundary = scan % 2 ^ 128 ∧ t.out =
        s.out ++ [Output.tap 3 (scan % 2 ^ 128)] ∧ t.regs = s.regs ∧ t.mem = s.mem) ∧
    (∀ (s : State) (scan : Nat), (s.rd F.SEC_STATUS.DEBUG ≠ 1 ∨ s.rd F.RST_STATUS.MODE ≠ mTEST) →
      ∃ t, exec (.tapIntest scan) s = .next t ∧ t.pwr.tap = .bypass ∧ t.out = s.out ++ [Output.tap 0 0] ∧ t.regs =
        s.regs ∧ t.mem = s.mem) ∧
    (∀ (s : State) (c : Nat), s.rd F.SEC_STATUS.DEBUG = 1 →
      ∃ t, exec (.tapOtherInstruction c) s = .next t ∧ t.pwr.tap = .other c ∧ t.out = s.out ++ [Output.tap (4 + c)
        0] ∧ t.regs = s.regs ∧ t.mem = s.mem) ∧
    (∀ (s : State) (c : Nat), s.rd F.SEC_STATUS.DEBUG ≠ 1 →
      ∃ t, exec (.tapOtherInstruction c) s = .next t ∧ t.pwr.tap = .bypass ∧ t.out = s.out ++ [Output.tap 0 0] ∧
        t.regs = s.regs ∧ t.mem = s.mem)

/-- A quiet, ungated quarter begins to be gated, and with its gate complete it is gated with its SRAM kept; a
quarter at 110 degrees or more loses its supply and its SRAM, is out of service and goes on record at SEV4; a
quarter that is gated or being gated and is asked to wake is waking, with the access that asked kept behind those
that wait, and the gate in progress is aborted; a waking quarter that becomes ready is ungated and serves what
waits. The conditions of R105 met, the module enters DORMANT with its loop engine stopped; an exit event makes it
IDLE and exiting, or aborts an entry in progress, and the end of the exit restarts the loops and the links. (R31,
R100, R101, R102, R103, R104, R105, R106, R107, R108, spec/02_block_structure.md.) -/
def Obligations.QuarterPowerRows : Prop :=
    (∀ (s : State) (q : Nat), q < 4 → s.gated q = false → (s.quarter q).inReset = false → s.quarterQuiet q = true →
      ∃ t, exec (.quarterGate q true) s = .next t ∧ t.gated q = true ∧ (t.quarter q).gating = false ∧ (∀ c ∈
        quarterCores q, t.core c = (s.core c).loseLogic) ∧ t.mem = s.mem ∧ t.out = s.out) ∧
    (∀ (s : State) (q : Nat), q < 4 → s.gated q = false → (s.quarter q).inReset = false → s.quarterQuiet q = true →
      exec (.quarterGate q false) s = .next (s.setQuarter q { s.quarter q with gating := true })) ∧
    (∀ (s : State) (q : Nat) (f : Bool), (s.gated q = true ∨ (s.quarter q).inReset = true ∨ s.quarterQuiet q = false) →
      exec (.quarterGate q f) s = .next s) ∧
    (∀ (s : State) (q : Nat) (j : Int), q < 4 → 1100 ≤ j → (s.gated q = false ∨ bitOf (s.rd F.ID_PWR_STATE.Q_SRAM_OFF) q
      = false) →
      ∃ t, exec (.quarterOverheatGate q j) s = .next t ∧ (t.quarter q).outOfSvc = true ∧ (t.quarter q).gating =
        false ∧ t.mem = memZero (memZero s.mem (coreStoreBase (q * 72)) (72 * 0x600000)) (quarterStoreBase q)
        0x5000000 ∧ t.out = s.out ∧ Recorded s t evOverheat 4 2 q) ∧
    (∀ (s : State) (q : Nat) (a : Option MemReq), q < 4 → s.dozing q = true → (s.quarter q).inReset = false →
      ∃ t, exec (.quarterWake q a) s = .next t ∧ (t.quarter q).waking = true ∧ (t.quarter q).gating = false ∧
        (t.quarter q).waiting = (s.quarter q).waiting ++ a.toList ∧ t.regs = s.regs ∧ t.mem = s.mem) ∧
    (∀ (s : State) (q : Nat) (a : Option MemReq), q < 4 → s.dozing q = false → (s.quarter q).inReset = false →
      exec (.quarterWake q a) s = .next (a.toList.foldl State.afterWake s)) ∧
    (∀ (s : State) (q : Nat) (a : Option MemReq), q < 4 → (s.quarter q).inReset = true →
      exec (.quarterWake q a) s = .next (s.refuseWaiting a.toList)) ∧
    (∀ (s : State) (q : Nat), q < 4 → (s.quarter q).waking = true → (s.quarter q).inReset = false → (s.quarter
      q).outOfSvc = false → s.pwr.coolStop = false →
      ∃ u v : State, exec (.quarterReady q) s = .next (((quarterCores q).filter fun c => !(v.core c).zeroing &&
        !(v.core c).reserved.isEmpty).foldl State.startReserved v) ∧ v = (s.quarter q).waiting.foldl State.afterWake
        u ∧ u.gated q = false ∧ (u.quarter q).waking = false ∧ (u.quarter q).waiting = [] ∧ (u.quarter q).ceiling =
        (s.quarter q).ceilNext ∧ (u.quarter q).mhz ≤ (s.quarter q).ceilNext ∧ u.mem = s.mem ∧ u.cores = s.cores) ∧
    (∀ (s : State), s.dormantOk = true →
      ∃ t, exec (.dormantEntry true) s = .next t ∧ t.rd F.ID_PWR_STATE.MOD_STATE = 2 ∧ t.rd F.HCE_STATUS.RUN = 0 ∧
        (∀ p < 24, t.rd F.LNK_LANE.STATE (w0Lane p) = lsDARK) ∧ t.blk.entering = false ∧ t.blk.lattice = false ∧
        t.blk.ioHold = true ∧ t.blk.selfRef = true ∧ t.mem = s.mem) ∧
    (∀ (s : State), s.dormantOk = true → exec (.dormantEntry false) s = .next { s with blk.entering := true }) ∧
    (∀ (s : State) (f : Bool), s.dormantOk = false → exec (.dormantEntry f) s = .next s) ∧
    (∀ (s : State) (c : DormantCause), s.rd F.ID_PWR_STATE.MOD_STATE = 2 →
      ∃ t, exec (.dormantExit c) s = .next t ∧ t.rd F.ID_PWR_STATE.MOD_STATE = 1 ∧ t.blk.exiting = true ∧
        t.blk.lattice = true ∧ t.blk.ioHold = false ∧ t.blk.selfRef = false ∧ t.mem = s.mem ∧ t.out = s.out) ∧
    (∀ (s : State) (p : Nat), s.rd F.ID_PWR_STATE.MOD_STATE = 2 →
      ∃ t, exec (.wakePattern p) s = .next t ∧ t.rd F.ID_PWR_STATE.MOD_STATE = 1 ∧ t.blk.exiting = true ∧
        t.blk.lattice = true ∧ t.blk.ioHold = false ∧ t.blk.selfRef = false ∧ t.mem = s.mem ∧ t.out = s.out) ∧
    (∀ (s : State) (c : DormantCause) (p : Nat), s.rd F.ID_PWR_STATE.MOD_STATE ≠ 2 →
      exec (.dormantExit c) s = .next { s with blk.entering := false } ∧ exec (.wakePattern p) s = .next
        { s with blk.entering := false }) ∧
    (∀ (s : State), s.blk.exiting = true → exec .dormantExitReady s = .next
      (({ s with blk.exiting := false }).hceStart.trainLinks))

/-- A scrub read of a granule with up to three bytes in error is counted and recorded with their number, and of an
uncorrectable one poisons the granule; devices that do not report self-refresh are recorded at SEV5 and force full
training. A region commit takes the staged table and ends with the status the table earns, in force where that
status is OK; a bias command starts a change over its range, whose end gives the range to the device; a decoder
that meets the conditions maps its range and is locked, one that does not says so; a request unanswered for
REMOTE_TO ends with TIMEOUT. (R282, R283, R286, R292, R303, R320, R322, spec/06_memory_and_addressing.md.) -/
def Obligations.MemoryUnitRows : Prop :=
    (∀ (s : State) (g n : Nat), s.rd F.MEM_CFG.SCRUB_EN = 1 → (placeOf (g * 64)).isDram = true → 1 ≤ n → n ≤ 3 →
      ∃ t, exec (.patrolScrub g (.errors n)) s = .next t ∧ t.rd F.MEM_ECC_CNT_CORR.COUNT = (s.rd
        F.MEM_ECC_CNT_CORR.COUNT + 1) % 2 ^ 64 ∧ t.mem = s.mem ∧ t.ms = s.ms ∧ Recorded s t evMemEccCorr 1 4
        (deviceOf (g * 64))) ∧
    (∀ (s : State) (g : Nat) (e : EccFinding), s.rd F.MEM_CFG.SCRUB_EN = 1 → (placeOf (g * 64)).isDram = true → kfind
      s.ms.poison g = none → EccFinding.dram e = .uncorrectable →
      ∃ t, exec (.patrolScrub g e) s = .next t ∧ kfind t.ms.poison g = some () ∧ t.rd F.MEM_ECC_CNT_UNCORR.COUNT =
        (s.rd F.MEM_ECC_CNT_UNCORR.COUNT + 1) % 2 ^ 64 ∧ t.mem = s.mem ∧ Recorded s t evMemScrubUncorr 1 4 (deviceOf
        (g * 64))) ∧
    (∀ (s : State) (g : Nat), exec (.patrolScrub g .clean) s = .next s) ∧
    (∀ (s : State) (g : Nat) (e : EccFinding), s.rd F.MEM_CFG.SCRUB_EN = 0 →
      ∃ t, exec (.patrolScrub g e) s = .next t ∧ t = s) ∧
    (∀ (s : State) (d : Nat), d ≠ 0 →
      ∃ t, exec (.selfRefreshTimeout d) s = .next t ∧ t.ms.srFail = true ∧ t.ms.full = true ∧ t.mem = s.mem ∧
        Recorded s t evMemSrFail 5 0 0) ∧
    (∀ (s : State), s.rd F.MEM_REGION_COMMIT.BUSY = 0 →
      ∃ t, exec .memRegionCommitGo s = .next t ∧ t.rd F.MEM_REGION_COMMIT.BUSY = 1 ∧ t.ms.commit = some
        s.stagedRegions ∧ t.ms.regions = s.ms.regions ∧ t.mem = s.mem) ∧
    (∀ (s : State) (new : List (Nat × Region)), s.ms.commit = some new → s.commitStatus new = stOK →
      ∃ t, exec .regionCommitDone s = .next t ∧ t.ms.regions = new ∧ t.ms.commit = none ∧ t.rd
        F.MEM_REGION_COMMIT.STATUS = stOK ∧ t.rd F.MEM_REGION_COMMIT.BUSY = 0 ∧ t.mem = s.mem) ∧
    (∀ (s : State) (new : List (Nat × Region)), s.ms.commit = some new → s.commitStatus new ≠ stOK →
      ∃ t, exec .regionCommitDone s = .next t ∧ t.ms.regions = s.ms.regions ∧ t.ms.commit = none ∧ t.rd
        F.MEM_REGION_COMMIT.STATUS = s.commitStatus new % 2 ^ 16 ∧ t.rd F.MEM_REGION_COMMIT.BUSY = 0 ∧ t.mem = s.mem) ∧
    (∀ (s : State) (v : Nat), s.rd F.MEM_BIAS_STATUS.BUSY = 0 → bitOf v 63 = true →
      ∃ t, exec (.memBiasGo v) s = .next t ∧ t.rd F.MEM_BIAS_STATUS.BUSY = 1 ∧ t.ms.biasRun = some ⟨bitsOf v 19 0,
        bitsOf v 39 20, bitOf v 40⟩ ∧ t.mem = s.mem) ∧
    (∀ (s : State) (st n : Nat), s.ms.biasRun = some ⟨st, n, true⟩ → n ≠ 0 → st + n ≤ 589824 →
      ∃ t, exec .biasChangeComplete s = .next t ∧ (∀ g ∈ t.ms.hostBias, ¬ (st ≤ g.1 ∧ g.1 < st + n)) ∧ t.ms.biasRun
        = none ∧ t.rd F.MEM_BIAS_STATUS.STATUS = stOK ∧ t.rd F.MEM_BIAS_STATUS.BUSY = 0 ∧ t.mem = s.mem) ∧
    (∀ (s : State) (base size skip : Nat), kfind s.ms.hdm 0 = none → s.hdmBad 0 base size skip = false →
      ∃ t, exec (.hdmDecoderCommit 0 base size skip) s = .next t ∧ kfind t.ms.hdm 0 = some ⟨base, size, skip⟩ ∧ 0 ∉
        t.ms.hdmFail ∧ t.regs = s.regs ∧ t.mem = s.mem) ∧
    (∀ (s : State) (base size skip : Nat) (d : Hdm), kfind s.ms.hdm 0 = some d → kfind s.ms.hdm 1 = none → s.hdmBad 1
      base size (d.dpa + d.size + skip) = false →
      ∃ t, exec (.hdmDecoderCommit 1 base size skip) s = .next t ∧ kfind t.ms.hdm 1 = some ⟨base, size, d.dpa +
        d.size + skip⟩ ∧ 1 ∉ t.ms.hdmFail ∧ t.regs = s.regs ∧ t.mem = s.mem) ∧
    (∀ (s : State) (base size skip : Nat), kfind s.ms.hdm 0 = none → s.hdmBad 0 base size skip = true →
      ∃ t, exec (.hdmDecoderCommit 0 base size skip) s = .next t ∧ t.ms.hdm = s.ms.hdm ∧ 0 ∈ t.ms.hdmFail ∧ t.regs =
        s.regs ∧ t.mem = s.mem) ∧
    (∀ (s : State) (i base size skip : Nat), (kfind s.ms.hdm i).isSome = true →
      exec (.hdmDecoderCommit i base size skip) s = .next s) ∧
    (∀ (s : State) (st n : Nat) (dev : Bool), s.ms.biasRun = some ⟨st, n, dev⟩ → (n = 0 ∨ 589824 < st + n) →
      ∃ t, exec .biasChangeComplete s = .next t ∧ t.ms.hostBias = s.ms.hostBias ∧ t.ms.biasRun = none ∧ t.rd
        F.MEM_BIAS_STATUS.STATUS = stPOLICY ∧ t.rd F.MEM_BIAS_STATUS.BUSY = 0 ∧ t.mem = s.mem) ∧
    (∀ (s : State) (st n g : Nat), s.ms.biasRun = some ⟨st, n, false⟩ → n ≠ 0 → st + n ≤ 589824 → st ≤ g → g < st + n →
      ∃ t, exec .biasChangeComplete s = .next t ∧ kfind t.ms.hostBias g = some () ∧ t.ms.biasRun = none ∧ t.rd
        F.MEM_BIAS_STATUS.STATUS = stOK ∧ t.rd F.MEM_BIAS_STATUS.BUSY = 0 ∧ t.mem = s.mem) ∧
    (∀ (s : State) (r tag : Nat) (x : OutReq), ((s.ms.reqs.find? fun y => y.1 % 2 ^ 16 == r && y.2.loc.isNode) = some
      (tag, x)) →
      exec (.remoteTimeout r) s = .next (s.failReq tag gcTIMEOUT))

/-- A read through a committed decoder answers the 64 bytes of its line and whether the granule is poisoned; a
write of a whole line into LPDDR6 that is neither reserved nor sealed is performed; before READY a read answers
all ones with poison, and each is counted as dropped. A host answer ends the access that waits for it, a line that
the host gives up goes to the accesses that wait for it, an answer in error or a lost link ends them with
HOST_DOWN. An acknowledgement from the buddy counts the oldest writes as performed, enabling the mirror starts a
resynchronisation, and its end makes the pair mirrored. (R315, R316, R318, R319, R321, R323, R659,
spec/06_memory_and_addressing.md.) -/
def Obligations.HostMemoryRows : Prop :=
    (∀ (s : State) (hpa o : Nat) (e : EccFinding), s.rd F.RST_STATUS.READY = 1 → s.hdmLookup hpa = some o → s.rd
      F.MEM_STATUS.DRAM_OK = 1 → EccFinding.dram e = .clean →
      ∃ t, exec (.cxlMemRead hpa e) s = .next t ∧ t.out = s.out ++ [Output.cxlData (s.memRead (o / 64 * 64) 64)
        (kfind s.ms.poison (o / 64)).isSome] ∧ t.regs = s.leaveDormant.regs ∧ t.mem = s.mem) ∧
    (∀ (s : State) (hpa o n : Nat), s.rd F.RST_STATUS.READY = 1 → s.hdmLookup hpa = some o → s.rd F.MEM_STATUS.DRAM_OK =
      1 → 1 ≤ n → n ≤ 3 →
      ∃ t, exec (.cxlMemRead hpa (.errors n)) s = .next t ∧ t.out = s.out ++ [Output.cxlData (s.memRead (o / 64 *
        64) 64) (kfind s.ms.poison (o / 64)).isSome] ∧ t.mem = s.mem ∧ Recorded s t evMemEccCorr 1 4 (deviceOf (o /
        64 * 64))) ∧
    (∀ (s : State) (hpa o : Nat) (e : EccFinding), s.rd F.RST_STATUS.READY = 1 → s.hdmLookup hpa = some o → s.rd
      F.MEM_STATUS.DRAM_OK = 1 → EccFinding.dram e = .uncorrectable → kfind s.ms.poison (o / 64) = none →
      ∃ t, exec (.cxlMemRead hpa e) s = .next t ∧ t.out = s.out ++ [Output.cxlData (s.memRead (o / 64 * 64) 64)
        true] ∧ kfind t.ms.poison (o / 64) = some () ∧ t.mem = s.mem ∧ Recorded s t evMemEccUncorr 2 4 (deviceOf (o
        / 64 * 64))) ∧
    (∀ (s : State) (hpa o : Nat) (e : EccFinding), s.rd F.RST_STATUS.READY = 1 → s.hdmLookup hpa = some o → s.rd
      F.MEM_STATUS.DRAM_OK ≠ 1 →
      ∃ t, exec (.cxlMemRead hpa e) s = .next t ∧ t.out = s.out ++ [Output.cxlData (s.memRead (o / 64 * 64) 64)
        true] ∧ t.regs = s.leaveDormant.regs ∧ t.mem = s.mem) ∧
    (∀ (s : State) (hpa be : Nat) (e : EccFinding) (d : List Nat), s.rd F.RST_STATUS.READY = 1 → s.hdmLookup hpa = none →
      exec (.cxlMemRead hpa e) s = .next s.leaveDormant ∧ exec (.cxlMemWrite hpa d be) s = .next s.leaveDormant) ∧
    (∀ (s : State) (hpa : Nat) (e : EccFinding), s.rd F.RST_STATUS.READY ≠ 1 →
      ∃ t, exec (.cxlMemRead hpa e) s = .next t ∧ t.out = s.out ++ [Output.cxlData (List.replicate 64 0xFF) true] ∧
        t.mem = s.mem ∧ t.ms = s.ms) ∧
    (∀ (s : State) (hpa o be : Nat) (d : List Nat), s.rd F.RST_STATUS.READY = 1 → s.hdmLookup hpa = some o → s.rd
      F.MEM_STATUS.DRAM_OK = 1 → placeOf (o / 64 * 64) ≠ .mirrorArea → placeOf (o / 64 * 64) ≠ .dump →
      ((s.ms.regions.any fun r => r.2.sealed_ && r.2.holds (o / 64 * 64) 64) = false) → (kfind s.ms.poison (o / 64)
      = none ∨ be % 2 ^ 64 = 2 ^ 64 - 1) →
      exec (.cxlMemWrite hpa d be) s = .next (s.leaveDormant.putLocal (o / 64 * 64) (mergeLine (s.memRead (o / 64 *
        64) 64) (d.map (BitVec.ofNat 8)) be))) ∧
    (∀ (s : State) (hpa o be : Nat) (d : List Nat), s.rd F.RST_STATUS.READY = 1 → s.hdmLookup hpa = some o → s.rd
      F.MEM_STATUS.DRAM_OK = 1 → (placeOf (o / 64 * 64) = .mirrorArea ∨ placeOf (o / 64 * 64) = .dump) →
      ∃ t, exec (.cxlMemWrite hpa d be) s = .next t ∧ t.mem = s.mem ∧ t.out = s.out ∧ Recorded s t
        evMemReservedWrite 0 0xC 0) ∧
    (∀ (s : State) (hpa o be : Nat) (d : List Nat), s.rd F.RST_STATUS.READY = 1 → s.hdmLookup hpa = some o → s.rd
      F.MEM_STATUS.DRAM_OK = 1 → placeOf (o / 64 * 64) ≠ .mirrorArea → placeOf (o / 64 * 64) ≠ .dump →
      ((s.ms.regions.any fun r => r.2.sealed_ && r.2.holds (o / 64 * 64) 64) = true) →
      ∃ t, exec (.cxlMemWrite hpa d be) s = .next t ∧ t.mem = s.mem ∧ t.out = s.out ∧ Recorded s t evMemSealedWrite
        0 0xC 0) ∧
    (∀ (s : State) (hpa be : Nat) (d : List Nat), s.rd F.RST_STATUS.READY ≠ 1 →
      ∃ t, exec (.cxlMemWrite hpa d be) s = .next t ∧ t.mem = s.mem ∧ t.ms = s.ms ∧ t.out = s.out) ∧
    (∀ (s : State) (r : Nat) (d : List Nat) (x : OutReq), kfind s.ms.reqs r = some x → x.loc = .host →
      exec (.cxlCacheResponse r d false) s = .next (s.answerReq r (if x.kind.writes then [] else (d.map
        (BitVec.ofNat 8)).take x.kind.size))) ∧
    (∀ (s : State) (r : Nat) (d : List Nat) (x : OutReq), kfind s.ms.reqs r = some x → x.loc = .host →
      exec (.cxlCacheResponse r d true) s = .next (s.failReq r gcHOST_DOWN)) ∧
    (∀ (s : State) (r : Nat) (d : List Nat) (x : OutReq), kfind s.ms.reqs r = some x → x.loc = .bias →
      exec (.cxlCacheResponse r d false) s = .next (s.biasLine r (d.map (BitVec.ofNat 8)))) ∧
    (∀ (s : State) (r : Nat) (d : List Nat) (x : OutReq), kfind s.ms.reqs r = some x → x.loc = .bias →
      ∃ u : State, exec (.cxlCacheResponse r d true) s = .next ((u.failReq r gcHOST_DOWN).drainBias.drainAll) ∧ u =
        { s with ms.biasWait := s.ms.biasWait.filter fun w => w.1 != r }) ∧
    (∀ (s : State), exec .cxlLinkDown s = .next (({ s with ms.linkDown := true }).hostLost)) ∧
    (∀ (s : State) (n : Nat), exec (.mirrorAck n) s = .next (s.ackMirror n)) ∧
    (∀ (s : State) (b : Nat), s.rd F.MEM_MIRROR_CFG.EN = 0 →
      ∃ t, exec (.mirrorEnable b) s = .next t ∧ t.rd F.MEM_MIRROR_CFG.EN = 1 ∧ t.rd F.MEM_MIRROR_CFG.BUDDY = b % 2 ^
        15 ∧ t.rd F.MEM_MIRROR_STATUS.STATE = mirRESYNC ∧ t.rd F.MEM_MIRROR_STATUS.RESYNC_PCT = 0 ∧ t.mem = s.mem) ∧
    (∀ (s : State), s.rd F.MEM_MIRROR_STATUS.STATE = mirRESYNC →
      ∃ t, exec .resyncComplete s = .next t ∧ t.rd F.MEM_MIRROR_STATUS.STATE = mirMIRRORED ∧ t.rd
        F.MEM_MIRROR_STATUS.RESYNC_PCT = 100 ∧ t.mem = s.mem ∧ Recorded s t evMemMirrorSynced 0 0 0)

/-- A well-formed 4-byte write to a served register without a rule of its own, in whichever half it lies, applies
its bits field by field by their access codes, and a well-formed 8-byte write to a 64-bit one applies all of them;
nothing else changes but that the access takes the module out of DORMANT. Partition mode 3 and a class Q field of
a running block are rejected. A write into the request area while the mailbox is idle puts its bytes there and
while it is busy is dropped and recorded; a write of the wrong width or alignment changes nothing and is recorded;
a bad read answers all ones. GO with the firmware up takes the request and sets BUSY; GO while BUSY takes nothing
and is recorded. (R7, R8, R10, R12, R13, R18, R106, R625, R626, R627, spec/00_scope.md.) -/
def Obligations.Bar0Rows : Prop :=
    (∀ (s : State) (off v i : Nat) (r : Reg) (hi : Bool), r ∉ ([.ID_PART_CFG, .CORE_CFG, .CHK_CFG, .CHK_INJECT, .MEM_CFG,
      .MEM_REGION_COMMIT, .MEM_MIRROR_CFG, .MEM_OVF_CFG, .MEM_OVF_BASE, .MEM_BIAS_CMD, .QDB_TAIL, .QDB_QBASE,
      .QDB_QCFG, .QDB_EVT_VAL, .HCE_CFG, .HCE_RAMP_CFG, .HCE_PILOT_CFG, .HCE_SP, .HCE_GRP, .HCE_XT, .HCE_COEF_A,
      .HCE_COEF_B, .HCE_LOOP_CTL, .HCE_LOOP_CAL, .TIM_CFG, .TIM_SET_CTL, .TIM_TRIG_TGT, .TIM_TRIG_CTL,
      .ORQ_DOORBELL, .EVR_RD_CTL] : List Reg) → regHalf off = some (r, i, hi) → accessOk off 4 = true →
      inRequestArea off = false → (∀ c, windowCore off = some c → (s.quarter (coreQuarter c)).inReset = false ∧
      s.dozing (coreQuarter c) = false) → s.served r = true →
      exec (.registerWrite off 4 v) s = .next (s.leaveDormant.wreg r (writeWord r.fields (BitVec.ofNat 64 ((2 ^ 32 -
        1) * 2 ^ (if hi then 32 else 0))) (BitVec.ofNat 64 (v % 2 ^ 32 * 2 ^ (if hi then 32 else 0)))
        (s.leaveDormant.rreg r i)) i)) ∧
    (∀ (s : State) (off v i : Nat) (r : Reg), r ∉ ([.ID_PART_CFG, .CORE_CFG, .CHK_CFG, .CHK_INJECT, .MEM_CFG,
      .MEM_REGION_COMMIT, .MEM_MIRROR_CFG, .MEM_OVF_CFG, .MEM_OVF_BASE, .MEM_BIAS_CMD, .QDB_TAIL, .QDB_QBASE,
      .QDB_QCFG, .QDB_EVT_VAL, .HCE_CFG, .HCE_RAMP_CFG, .HCE_PILOT_CFG, .HCE_SP, .HCE_GRP, .HCE_XT, .HCE_COEF_A,
      .HCE_COEF_B, .HCE_LOOP_CTL, .HCE_LOOP_CAL, .TIM_CFG, .TIM_SET_CTL, .TIM_TRIG_TGT, .TIM_TRIG_CTL,
      .ORQ_DOORBELL, .EVR_RD_CTL] : List Reg) → accessParts off 8 = [(r, i, 0, 0), (r, i, 32, 32)] → accessOk off 8
      = true → inRequestArea off = false → (∀ c, windowCore off = some c → (s.quarter (coreQuarter c)).inReset =
      false ∧ s.dozing (coreQuarter c) = false) → s.served r = true →
      exec (.registerWrite off 8 v) s = .next (s.leaveDormant.wreg r (writeWord r.fields (BitVec.ofNat 64 (2 ^ 64 -
        1)) (BitVec.ofNat 64 (v % 2 ^ 64)) (s.leaveDormant.rreg r i)) i)) ∧
    (∀ (s : State) (off w v : Nat), accessOk off w = true → inRequestArea off = false → regHalf off = none → w = 4 →
      windowCore off = none →
      exec (.registerWrite off w v) s = .next s.leaveDormant) ∧
    (∀ (s : State) (v : Nat), s.served .ID_PART_CFG = true → v % 4 = 3 →
      ∃ t, exec (.registerWrite (Reg.ID_PART_CFG.off 0) 4 v) s = .next t ∧ t.rreg .ID_PART_CFG 0 = s.rreg
        .ID_PART_CFG 0 ∧ t.mem = s.mem ∧ Recorded s t (Config.eventCode 3) 0 0xC 0) ∧
    (∀ (s : State) (v n : Nat), s.served .MEM_CFG = true → n < 256 → s.ctxState n ≠ 0 → (writeWord Reg.MEM_CFG.fields
      (BitVec.ofNat 64 (2 ^ 32 - 1)) (BitVec.ofNat 64 (v % 2 ^ 32)) (s.rreg .MEM_CFG 0)) &&& rwMask
      Reg.MEM_CFG.fields ≠ (s.rreg .MEM_CFG 0) &&& rwMask Reg.MEM_CFG.fields →
      ∃ t, exec (.registerWrite (Reg.MEM_CFG.off 0) 4 v) s = .next t ∧ t.rreg .MEM_CFG 0 = s.rreg .MEM_CFG 0 ∧ t.mem
        = s.mem ∧ Recorded s t (Config.eventCode 1) 0 0xC 0) ∧
    (∀ (s : State) (off w v : Nat), accessOk off w = true → inRequestArea off = true → 2 ≤ s.rd F.RST_STATUS.PHASE → s.rd
      F.ORQ_MB_STATUS.BUSY = 0 →
      ∃ t, exec (.registerWrite off w v) s = .next t ∧ t.mb.req = memPutBytes s.mb.req (off - 0x10000) (leBytes w (v
        % 2 ^ (8 * w))) ∧ t.regs = s.leaveDormant.regs ∧ t.mem = s.mem) ∧
    (∀ (s : State) (off w v : Nat), accessOk off w = true → inRequestArea off = true → 2 ≤ s.rd F.RST_STATUS.PHASE → s.rd
      F.ORQ_MB_STATUS.BUSY = 1 →
      ∃ t, exec (.registerWrite off w v) s = .next t ∧ t.mb = s.mb ∧ t.mem = s.mem ∧ Recorded s t evMbDrop 0 0xC 0) ∧
    (∀ (s : State) (off w v : Nat), accessOk off w = false →
      ∃ t, exec (.registerWrite off w v) s = .next t ∧ t.mem = s.mem ∧ t.out = s.out ∧ Recorded s t
        (Config.eventCode 4) 0 0xC 0) ∧
    (∀ (s : State) (off w : Nat), accessOk off w = false →
      ∃ t, exec (.bar0BadAccess off w false) s = .next t ∧ t.out = s.out ++ [Output.bar0 (2 ^ (8 * w) - 1)] ∧ t.mem
        = s.mem ∧ Recorded s t (Config.eventCode 4) 0 0xC 0) ∧
    (∀ (s : State) (off w : Nat), accessOk off w = false →
      ∃ t, exec (.bar0BadAccess off w true) s = .next t ∧ t.out = s.out ∧ t.mem = s.mem ∧ Recorded s t
        (Config.eventCode 4) 0 0xC 0) ∧
    (∀ (s : State), s.rd F.ORQ_MB_STATUS.BUSY = 0 → s.rd F.ORQ_MB_STATUS.FW_UP = 1 → s.rst.keepBusy ≤ s.opMs →
      ∃ t, exec .orqDoorbellGo s = .next t ∧ t.mb.taken = some (readRequest s.mb.req) ∧ t.mb.resp = none ∧ t.rd
        F.ORQ_MB_STATUS.BUSY = 1 ∧ t.rd F.ORQ_MB_STATUS.DONE = 0 ∧ t.mem = s.mem ∧ t.out = s.out) ∧
    (∀ (s : State), s.rd F.ORQ_MB_STATUS.BUSY = 1 →
      ∃ t, exec .orqDoorbellGo s = .next t ∧ t.mb = s.mb ∧ t.mem = s.mem ∧ t.out = s.out ∧ Recorded s t evMbDrop 0
        0xC 0)

/-- A flush of one record moves the oldest buffered record to the ring and takes none while the ring is latched;
the checkpoint stores the operating time; an expired latch is released and recorded; a read of a buffered SEQ
finds it in the buffer and gives its 64 bytes in the eight data registers. (R729, R732, R734, R737, R738, R739,
spec/17_event_recorder_and_ageing.md.) -/
def Obligations.RecorderRows : Prop :=
    (∀ (s : State) (r : EvRec), s.evr.buf = [r] → s.evr.latched = false → s.evr.stopped = false → s.evr.lost = none →
      s.evr.coalescing = false → s.evr.ring.length < s.evr.capacity →
      ∃ t, exec (.flush 1 []) s = .next t ∧ t.evr.ring = s.evr.ring ++ [r] ∧ t.evr.buf = [] ∧ t.evr.flushing = false
        ∧ t.regs = s.regs ∧ t.mem = s.mem) ∧
    (∀ (s : State) (n : Nat) (bad : List Nat), s.evr.latched = true →
      exec (.flush n bad) s = .next s) ∧
    (∀ (s : State),
      ∃ t, exec .opTimeCheckpoint s = .next t ∧ t.evr.ckOpMs = s.opMs ∧ t.regs = s.regs ∧ t.mem = s.mem) ∧
    (∀ (s : State), s.evr.latched = true →
      ∃ t, exec .latchExpires s = .next t ∧ t.evr.latched = false ∧ t.mem = s.mem ∧ Recorded s t evReleased 0 0 0) ∧
    (∀ (s : State) (q : Nat), s.evr.buf.find? (fun r => r.seq == q % 2 ^ 32) = none → s.evr.ring.find? (fun r => r.seq ==
      q % 2 ^ 32) = none →
      ∃ t, exec (.evrRdCtlWrite q) s = .next t ∧ t.rd F.EVR_RD_CTL.FOUND = 0 ∧ t.rd F.EVR_RD_CTL.IN_BUFFER = 0 ∧
        t.rd F.EVR_RD_CTL.SEQ = q % 2 ^ 32 ∧ t.evr = s.evr ∧ t.mem = s.mem) ∧
    (∀ (s : State) (q : Nat) (r : EvRec), s.evr.buf.find? (fun r => r.seq == q % 2 ^ 32) = some r →
      ∃ t, exec (.evrRdCtlWrite q) s = .next t ∧ t.rd F.EVR_RD_CTL.FOUND = 1 ∧ t.rd F.EVR_RD_CTL.IN_BUFFER = 1 ∧
        t.rd F.EVR_RD_CTL.SEQ = q % 2 ^ 32 ∧ (∀ k < 8, t.rreg .EVR_RD_DATA k = BitVec.ofNat 64 (leAt r.bytes (8 * k)
        8)) ∧ t.evr = s.evr ∧ t.mem = s.mem)

/-- A first heartbeat with every core alive starts the counting and is kept; a repeated one changes nothing but
ALIVE; one with a core missing is recorded once. A watchdog period without a heartbeat counts one missed, and the
twentieth is an Orquin hang at SEV5. A keeper restart is counted and recorded. A stalled engine is recorded at
SEV3 and a context without progress at SEV2. A late step and a boot without heartbeat are recorded and count as a
failed boot. (R636, R637, R638, R656, R660, R661, R715, spec/15_start_up_reset_and_recovery.md.) -/
def Obligations.HangRows : Prop :=
    (∀ (s : State) (q a : Nat), s.orqReleased = true → a % 16 = 15 → s.mb.hbLast ≠ some (q % 256) →
      ∃ t, exec (.heartbeat q a) s = .next t ∧ t.rd F.ORQ_HB_STATUS.ALIVE = 15 ∧ t.rd F.ORQ_HB_STATUS.SEQ = q % 256
        ∧ t.rd F.ORQ_HB_STATUS.MISSED = 0 ∧ t.rd F.ORQ_HB_STATUS.COUNTING = 1 ∧ t.mb.hbLast = some (q % 256) ∧
        t.mb.hbInPeriod = true ∧ t.pwr.hbOut = !s.pwr.hbOut ∧ t.mem = s.mem) ∧
    (∀ (s : State) (q a : Nat), s.orqReleased = true → a % 16 ≠ 15 → s.mb.hbStall = false →
      ∃ t, exec (.heartbeat q a) s = .next t ∧ t.mb.hbStall = true ∧ t.mb.hbLast = s.mb.hbLast ∧ t.mem = s.mem ∧
        Recorded s t evCoreStall 1 9 2) ∧
    (∀ (s : State), s.rd F.ORQ_HB_STATUS.COUNTING = 1 → s.rd F.ORQ_HB_STATUS.HANG = 0 → s.mb.hbInPeriod = true →
      ∃ t, exec .watchdogPeriod s = .next t ∧ t = { s with mb.hbInPeriod := false }) ∧
    (∀ (s : State), s.rd F.ORQ_HB_STATUS.COUNTING = 1 → s.rd F.ORQ_HB_STATUS.HANG = 0 → s.mb.hbInPeriod = false → s.rd
      F.ORQ_HB_STATUS.MISSED = 19 →
      ∃ t, exec .watchdogPeriod s = .next t ∧ t.rd F.ORQ_HB_STATUS.HANG = 1 ∧ t.rd F.ORQ_HB_STATUS.MISSED = 20 ∧
        t.mem = s.mem ∧ Recorded s t evOrqHang 5 9 2) ∧
    (∀ (s : State), s.rd F.ORQ_HB_STATUS.COUNTING = 1 → s.rd F.ORQ_HB_STATUS.HANG = 0 → s.mb.hbInPeriod = false → s.rd
      F.ORQ_HB_STATUS.MISSED < 19 →
      ∃ t, exec .watchdogPeriod s = .next t ∧ t.rd F.ORQ_HB_STATUS.HANG = 0 ∧ t.rd F.ORQ_HB_STATUS.MISSED = s.rd
        F.ORQ_HB_STATUS.MISSED + 1 ∧ t.mem = s.mem ∧ t.evr = s.evr) ∧
    (∀ (s : State), s.rst.keepTimes = [] →
      ∃ t, exec .keeperWatchdog s = .next t ∧ t.rst.keepTimes = [s.opMs] ∧ t.rd F.RST_STATUS.KEEPER_RESTARTS = (s.rd
        F.RST_STATUS.KEEPER_RESTARTS + 1) % 2 ^ (F.RST_STATUS.KEEPER_RESTARTS.hi + 1 -
        F.RST_STATUS.KEEPER_RESTARTS.lo) ∧ t.mem = s.mem ∧ Recorded s t evKeeperRestart 1 0 0) ∧
    (∀ (s : State) (e : Nat), e < 5 → s.startedOn e ≠ [] → exec (.engineStall e) s = .next (s.record evEngHang 3 3 e [e,
      10 * max 1 (s.rd F.RST_CFG.ENG_WD)])) ∧
    (∀ (s : State) (n : Nat), s.ctxState n = ctxACTIVE → (s.ctx n).wd ≠ 0 → (((List.range 8).filter fun q => s.rd
      F.QDB_QCFG.STATE (qi n q) == qRUN) = [0]) → s.queueBusy (qi n 0) = true → (s.ctx n).progress + (s.ctx n).wd *
      1000 ≤ s.opMs →
      exec (.contextProgressTimeout n) s = .next (s.record evCtxHang 2 0 0 [s.ctxId n, 1] (some (s.ctxId n)))) ∧
    (∀ (s : State) (k : Nat), s.stepDue k = true → k ≠ 4 → exec (.rstStepLate k) s = .next ((s.record evStepLate 5 0 0
      [k]).failedBoot 2)) ∧
    (∀ (s : State), s.stepDue 4 = true → s.rd F.ORQ_HB_STATUS.COUNTING = 0 →
      exec .rstOrqBootFail s = .next ((s.record evOrqBootFail 5 9 2 [s.opMs - s.rst.startMs]).failedBoot 1))

/-- The lattice record takes the entries, plane paths and targets in force. An HB from a neighbour on a channel
that is up is kept with its state, node and incarnation; a MIRROR_HB from the buddy names the peer and its state
and brings path 2 up; HB_SEND sends both. A path that times out is down; with path 1 still up the pair does not
split, and with both down it splits by row 4: the copy is frozen, and the module of the lower node acts for its
primary. (R681, R683, R684, R688, R689, R690, spec/15_start_up_reset_and_recovery.md.) -/
def Obligations.MirrorHeartbeatRows : Prop :=
    (∀ (s : State),
      ∃ t, exec .latticeRecordWrite s = .next t ∧ t.peers.lattice = some s.latRecord ∧ t.regs = s.regs ∧ t.mem =
        s.mem) ∧
    (∀ (s : State), exec .hbSend s = .next (s.sendHb.sendMirrorHb)) ∧
    (∀ (s : State) (p st n i : Nat), p < 24 → s.chanUp p = true →
      ∃ t, exec (.hb p st n i) s = .next t ∧ kfind t.peers.hbs p = some ⟨st, n, i⟩ ∧ t.regs = s.regs ∧ t.mem = s.mem) ∧
    (∀ (s : State) (src v st ro b : Nat), s.rd F.MEM_MIRROR_CFG.EN = 1 → src = s.rd F.MEM_MIRROR_CFG.BUDDY → s.rd
      F.RST_MIRROR_STATUS.P1_UP = 0 → s.boundCirc src = none →
      ∃ t, exec (.mirrorHb src v st ro b) s = .next t ∧ t.rd F.RST_MIRROR_STATUS.PEER = src % 2 ^ 15 ∧ t.rd
        F.RST_MIRROR_STATUS.PEER_STATE = st % 2 ^ 3 ∧ t.rd F.RST_MIRROR_STATUS.P2_UP = 1 ∧ t.mem = s.mem ∧ t.out =
        s.out) ∧
    (∀ (s : State) (n : Nat), s.mirrorPeer = some n → s.rd F.RST_MIRROR_STATUS.P1_UP = 1 →
      ∃ t, exec (.mirrorPathLost false) s = .next t ∧ t.rd F.RST_MIRROR_STATUS.P2_UP = 0 ∧ t.rd
        F.RST_MIRROR_STATUS.P1_UP = 1 ∧ t.mem = s.mem ∧ t.out = s.out) ∧
    (∀ (s : State) (n : Nat), s.mirrorPeer = some n → s.rd F.RST_MIRROR_STATUS.P2_UP = 0 → s.splitAs 4 = false →
      ∃ t, exec (.mirrorPathLost true) s = .next t ∧ t.rd F.RST_MIRROR_STATUS.P1_UP = 0 ∧ t.rd
        F.RST_MIRROR_STATUS.SPLIT = 4 ∧ (s.isBuddy = true → t.ms.frozen = true ∧ (s.node < n → t.rd
        F.RST_MIRROR_STATUS.ACTING = 1)) ∧ Recorded s t evMirrorSplit 1 0 0)

/-- A removal called for begins with the context in REMOVING and its ring runs failed, and ends with the slot
free; an engine, partition or chip reset that is called collects state and executes on its own unit alone, and its
completion ends the action; a power cycle drains, and at the end of the drain with PWRCYC_EN set the request goes
out with the cause. An access of 100 microseconds marks its unit unreadable; the end of the collection closes the
slot; the first queued action starts once none runs; an exceeded limit closes the slot as partial and escalates.
(R666, R667, R668, R669, R670, R671, R673, R676, R677, R679, R687, spec/15_start_up_reset_and_recovery.md.) -/
def Obligations.ResetActionRows : Prop :=
    (∀ (s : State) (n : Nat) (r : Removal), s.removal n = some r → r.begun = false →
      exec (.contextRemoval n) s = .next ((s.setRemoval n Removal.start).beginRemoval n)) ∧
    (∀ (s : State) (n : Nat) (r : Removal), s.removal n = some r → r.begun = true →
      exec (.contextRemovalComplete n) s = .next (s.endRemoval r)) ∧
    (∀ (s : State) (u a n : Nat) (r : RunAct) (d : Dump), s.rst.running = some r → r.slot = some n → kfind s.rst.dumps n
      = some d →
      ∃ t, exec (.collectionAccessTimeout u a) s = .next t ∧ kfind t.rst.dumps n = some
        { d with units := d.units.map fun x => if x.1 = u ∧ x.2.1 = 0 then (x.1, 1, a) else x } ∧ t.rst.running =
        some r ∧ t.mem = s.mem ∧ t.out = s.out) ∧
    (∀ (s : State) (n : Nat) (r : RunAct) (d : Dump), s.rst.running = some r → r.slot = some n → kfind s.rst.dumps n =
      some d →
      exec (.collectionDone .allRead) s = .next (({ s with rst.running := some { r with slot := none } }).closeDump
        n { d with flags := Nat.lor d.flags 1 })) ∧
    (∀ (s : State) (n : Nat) (d : Dump), s.rst.copying = some n → kfind s.rst.dumps n = some d →
      ∃ t, exec .rstDumpDone s = .next t ∧ t.rst.copying = none ∧ kfind t.rst.flashDumps s.rst.nextFlash = some d ∧
        t.rst.nextFlash = (s.rst.nextFlash + 1) % 2 ∧ t.rd F.RST_DUMP.FLASHED = 1 ∧ t.mem = s.mem ∧ Recorded s t
        evDumpDone 0 0 0) ∧
    (∀ (s : State) (a : Action) (q : List Action), s.rst.running = none → s.rst.queue = a :: q →
      exec .actionDequeue s = .next ((s.setQueued q).startAction a)) ∧
    (∀ (s : State) (r : RunAct), s.rst.running = some r → r.act.cls < 6 →
      exec .actionLimitExpires s = .next ((s.closeDumpPartial r).escalate r 0)) ∧
    (∀ (s : State) (e : Nat) (r : RunAct), s.rst.running = some r → r.act.cls = 3 → r.phase = .called → r.act.engine = e
      →
      ∃ t, exec (.engineReset e) s = .next t ∧ (t.arb e).held = true) ∧
    (∀ (s : State) (e : Nat) (r : RunAct), s.startedOn e = [] → s.ms.biasWait = [] → s.rst.running = some r → r.act.cls =
      3 → r.phase = .called → r.act.engine = e →
      ∃ t, exec (.engineReset e) s = .next t ∧ (t.arb e).held = true ∧ t.ms.reqs = s.ms.reqs.filter (fun q =>
        q.2.src.engine != e)) ∧
    (∀ (s : State) (e : Nat) (r : RunAct), s.rst.running = some r → r.act.cls = 3 → r.phase = .executed → r.act.engine =
      e → e ≠ 3 →
      exec (.engineResetComplete e) s = .next
        (({ s with eng.arbs := kset s.eng.arbs e { s.arb e with held := false } }).finishAction r)) ∧
    (∀ (s : State) (p : Nat) (r : RunAct), s.rst.running = some r → r.act.cls = 4 → r.phase = .called → r.act.part = p →
      exec (.partitionReset p) s = .next (((s.startCollect r).1.runPhase .executed (s.startCollect
        r).2).resetPartition p r.act.cause)) ∧
    (∀ (s : State) (p : Nat) (r : RunAct), s.rst.running = some r → r.act.cls = 4 → r.phase = .executed → r.act.part = p
      →
      exec (.partitionResetComplete p) s = .next (((s.partQuarters p).foldl State.startQuarter s).finishAction r)) ∧
    (∀ (s : State) (r : RunAct) (l : Bool), s.rst.running = some r → r.act.cls = 5 → r.phase = .called →
      ∃ t, exec (.chipReset l) s = .next t ∧ t.ms.regions = [] ∧ t.ms.reqs = [] ∧ t.mb.hbLast = none ∧ t.mb.staging
        = [] ∧ t.rst.orqDown = true ∧ t.rd F.ORQ_MB_STATUS.FW_UP = 0 ∧ t.rd F.ORQ_HB_STATUS.COUNTING = 0) ∧
    (∀ (s : State) (r : RunAct), s.rst.running = some r → r.act.cls = 6 → r.phase = .called →
      exec .powerCycle s = .next (
        let u := s.askEvacuate (fun _ => true) false;
        ((((List.range 512).filter fun i => u.ctype i == ptyORIG || u.ctype i == ptyRESP).foldl (fun s i =>
          s.tearDown i none) u).kick.sendHb).runPhase .draining none)) ∧
    (∀ (s : State) (r : RunAct), s.rst.running = some r → r.act.cls = 6 → r.phase = .draining → r.cycleEn = true →
      ∃ t, exec .drainExpires s = .next t ∧ t.pwr.pwrcycReq = true ∧ t.pwr.pwrcycReason = r.act.cause % 256 ∧
        t.alertBit aPWRCYC = true ∧ t.out = s.out)

/-- With no stage carrying the load and both feeds out of range the domains go, the recorder stops and the hold-up
runs; a feed that returns within it ends it, gives the domains back and keeps the recorder; when it expires, or a
two-key keeper reset executes, the keeper resets as State.keeperReset says. A keeper boot starts the keeper and
ends step 2; a step that is due advances PHASE and does the step's work. PERST_N low resets the port and ends what
waits on the host. (R43, R44, R45, R46, R67, R654, R655, R657, R700, spec/15_start_up_reset_and_recovery.md,
spec/01_module_and_pins.md.) -/
def Obligations.KeeperRows : Prop :=
    (∀ (s : State) (n : Nat), s.pwr.a.carrying = false → s.pwr.b.carrying = false → s.pwr.domains = true →
      s.pwr.a.inRange = false → s.pwr.b.inRange = false → s.pwr.holdUp = false →
      exec (.bothFeedsLost n) s = .next (({ (s.note evPowerLost 6 0 0 [0]).loseDomains with pwr.holdUp := true } :
        State).holdUpFlush n)) ∧
    (∀ (s : State) (n : Nat), s.pwr.a.carrying = false → s.pwr.b.carrying = false → s.pwr.domains = true →
      s.pwr.a.inRange = true → s.pwr.holdUp = false →
      exec (.bothFeedsLost n) s = .next ((s.note evPowerLost 6 0 0 [1]).loseDomains)) ∧
    (∀ (s : State) (x : Side) (cv : Nat), s.pwr.holdUp = true → 4550 ≤ cv → cv ≤ 5900 → (s.feed x).fault = false →
      (s.feed (otherSide x)).carrying = false →
      ∃ t, exec (.feedReturnsInHoldUp x cv) s = .next t ∧ (t.feed x).inRange = true ∧ (t.feed x).carrying = true ∧
        t.pwr.holdUp = false ∧ t.pwr.domains = true ∧ t.evr.stopped = false ∧ t.mem = s.mem) ∧
    (∀ (s : State), s.pwr.holdUp = true → exec .holdUpExpires s = .next (s.keeperReset false)) ∧
    (∀ (s : State), s.upd.keepWait = true → exec .keeperResetExecute s = .next ((s.keeperReset true).wr
      F.RST_STATUS.PHASE (b2n s.pwr.domains))) ∧
    (∀ (s : State) (p k l r : Bool), s.pwr.started = false → s.pwr.domains = true →
      ∃ t, exec (.keeperBoot p k l r) s = .next t ∧ t.rd F.RST_STATUS.PHASE = 2) ∧
    (∀ (s : State) (k f m : Nat), s.pwr.domains = true → s.stepDue k = true → k ≠ 2 → k ≠ 4 →
      exec (.powerOnStepComplete k f m) s = .next ((s.wr F.RST_STATUS.PHASE (max k (s.rd
        F.RST_STATUS.PHASE))).stepDone k f m)) ∧
    (∀ (s : State) (f m : Nat), s.pwr.domains = true → s.stepDue 4 = true → s.rd F.ORQ_HB_STATUS.COUNTING = 1 →
      ∃ t, exec (.powerOnStepComplete 4 f m) s = .next t ∧ t.rd F.ORQ_MB_STATUS.FW_UP = 1 ∧ t.rst.orqDown = false ∧
        t.mem = s.mem ∧ t.out = s.out) ∧
    (∀ (s : State) (m : Nat), s.pwr.domains = true → s.stepDue 6 = true → s.ms.full = false →
      ∃ t, exec (.powerOnStepComplete 6 0 m) s = .next t ∧ t.rd F.MEM_STATUS.DRAM_OK = 1 ∧ t.rd F.MEM_STATUS.KEPT =
        1 ∧ t.rd F.MEM_STATUS.LAST_TRAIN = 1 ∧ t.mem = s.mem ∧ t.ms.srFail = false) ∧
    (∀ (s : State),
      ∃ t, exec .perstAssert s = .next t ∧ t.pwr.perstLow = true ∧ t.pwr.cxlCfg = [] ∧ t.ms.hdm = [] ∧ t.ms.hdmFail
        = [] ∧ t = State.hostLost
        { s with pwr.perstLow := true, pwr.cxlCfg := [], pwr.memActive := false, ms.hdm := [], ms.hdmFail := [] })

/-- A tail write of an active context's queue that is not OFF sets the tail and makes an idle queue run; out of
range it is the queue error TAIL_RANGE; to an OFF queue it is dropped and recorded. Enabling a queue with a legal
configuration makes it IDLE with head and tail 0; disabling an idle one turns it OFF and a running one is rejected
and recorded. An engine fetches a record from this module's memory, starts the queue its arbiter chose, and
completes a command whose work is done. (R334, R337, R338, R340, R345, R346, R365, R392,
spec/07_engines_and_command_lists.md.) -/
def Obligations.QueueRows : Prop :=
    (∀ (s : State) (slot queue v : Nat), queue < 8 → v < 2 ^ 32 → s.ctxState slot = ctxACTIVE → s.rd F.QDB_QCFG.STATE (qi
      slot queue) = qOFF →
      ∃ t, exec (.qdbTailWrite slot queue v) s = .next t ∧ t.eng = s.eng ∧ t.mem = s.mem ∧ Recorded s t
        evEngTailDrop 0 3 (s.queueEngine slot queue)) ∧
    (∀ (s : State) (slot queue v : Nat), queue < 8 → v < 2 ^ 32 → s.ctxState slot = ctxACTIVE → s.rd F.QDB_QCFG.STATE (qi
      slot queue) = qIDLE → s.rd F.QDB_HEAD.HEAD (qi slot queue) = 0 → s.rd F.QDB_TAIL.TAIL (qi slot queue) = 0 → 0
      < v → v ≤ s.depth (qi slot queue) → s.depth (qi slot queue) ≤ 65536 →
      ∃ t, exec (.qdbTailWrite slot queue v) s = .next t ∧ t.rd F.QDB_TAIL.TAIL (qi slot queue) = v ∧ t.rd
        F.QDB_QCFG.STATE (qi slot queue) = qRUN ∧ t.mem = s.mem ∧ t.evr = s.evr) ∧
    (∀ (s : State) (slot queue v : Nat), queue < 8 → v < 2 ^ 32 → s.ctxState slot = ctxACTIVE → s.rd F.QDB_QCFG.STATE (qi
      slot queue) ≠ qOFF → s.rd F.QDB_HEAD.HEAD (qi slot queue) = 0 → s.rd F.QDB_TAIL.TAIL (qi slot queue) = 0 →
      s.depth (qi slot queue) < v → s.depth (qi slot queue) ≤ 65536 →
      exec (.qdbTailWrite slot queue v) s = .next (s.leaveDormant.queueError slot queue 0 (s.queueEngine slot queue)
        qeTAIL_RANGE 0 0 0)) ∧
    (∀ (s : State) (slot queue v : Nat), s.ctxState slot = ctxACTIVE → s.rd F.QDB_QCFG.EN (qi slot queue) = 0 → 6 ≤
      bitsOf v 7 3 → bitsOf v 7 3 ≤ 16 → bitsOf v 2 0 ≤ 4 → s.areaOk (s.queueBase (qi slot queue)) (2 ^ bitsOf v 7
      3) = true →
      exec (.queueEnable slot queue v) s = .next (((((((((((s.leaveDormant.wr F.QDB_QCFG.ENGINE (bitsOf v 2 0) (qi
        slot queue)).wr F.QDB_QCFG.LOG2_DEPTH (bitsOf v 7 3) (qi slot queue)).wr F.QDB_QCFG.VECTOR (bitsOf v 13 8)
        (qi slot queue)).wr F.QDB_QCFG.PRIO (bitsOf v 15 14) (qi slot queue)).wr F.QDB_QCFG.EN 1 (qi slot queue)).wr
        F.QDB_QCFG.CFG_ERR 0 (qi slot queue)).wr F.QDB_QCFG.STATE qIDLE (qi slot queue)).wr F.QDB_HEAD.HEAD 0 (qi
        slot queue)).wr F.QDB_TAIL.TAIL 0 (qi slot queue)).setQueue (qi slot queue) Queue.init).setQEn slot queue
        true)) ∧
    (∀ (s : State) (slot queue : Nat), s.ctxState slot = ctxACTIVE → s.rd F.QDB_QCFG.STATE (qi slot queue) = qIDLE →
      exec (.queueDisable slot queue) s = .next (((s.leaveDormant.wr F.QDB_QCFG.EN 0 (qi slot queue)).wr
        F.QDB_QCFG.STATE qOFF (qi slot queue)).setQEn slot queue false)) ∧
    (∀ (s : State) (slot queue : Nat), s.ctxState slot = ctxACTIVE → s.rd F.QDB_QCFG.STATE (qi slot queue) = qRUN →
      ∃ t, exec (.queueDisable slot queue) s = .next t ∧ t.eng = s.eng ∧ t.mem = s.mem ∧ Recorded s t
        evEngQcfgReject 0 3 (s.queueEngine slot queue)) ∧
    (∀ (s : State) (slot queue : Nat) (bs : List (BitVec 8)), s.ctxState slot = ctxACTIVE → s.rd F.QDB_QCFG.STATE (qi
      slot queue) = qRUN → (s.queue (qi slot queue)).fetched ≠ s.rd F.QDB_TAIL.TAIL (qi slot queue) → (((s.queue (qi
      slot queue)).cmds.filter fun c => c.work.isNone).length < 16) → s.fetching1 slot queue = false → bitOf
      (s.queueBase (qi slot queue) + (s.queue (qi slot queue)).fetched % s.depth (qi slot queue) * 64) 63 = false →
      s.areaFault (s.ctxJob slot) (bitsOf (s.queueBase (qi slot queue) + (s.queue (qi slot queue)).fetched % s.depth
      (qi slot queue) * 64) 41 0) (.read 64) = none → s.localAccess (s.engineSource ⟨slot, queue, (s.queue (qi slot
      queue)).fetched⟩) (.read 64) (bitsOf (s.queueBase (qi slot queue) + (s.queue (qi slot queue)).fetched %
      s.depth (qi slot queue) * 64) 41 0) .fetch = (s, .data bs) →
      exec (.commandFetch slot queue none .clean) s = .next (s.setQueue (qi slot queue)
        { s.queue (qi slot queue) with fetched := ((s.queue (qi slot queue)).fetched + 1) % 2 ^ 32, cmds := (s.queue (qi slot queue)).cmds ++ [⟨(s.queue (qi slot queue)).fetched, bs, none, false⟩] })) ∧
    (∀ (s : State) (slot queue : Nat) (l : List Nat) (e : EccFinding), s.ctxState slot = ctxACTIVE → s.rd
      F.QDB_QCFG.STATE (qi slot queue) = qRUN → (s.queue (qi slot queue)).fetched ≠ s.rd F.QDB_TAIL.TAIL (qi slot
      queue) → (((s.queue (qi slot queue)).cmds.filter fun c => c.work.isNone).length < 16) → s.fetching1 slot queue
      = false → bitOf (s.queueBase (qi slot queue) + (s.queue (qi slot queue)).fetched % s.depth (qi slot queue) *
      64) 63 = true → s.ms.linkDown = false → s.pwr.perstLow = false →
      ∃ t, exec (.commandFetch slot queue (some l) e) s = .next t ∧ (t.queue (qi slot queue)).fetched = ((s.queue
        (qi slot queue)).fetched + 1) % 2 ^ 32 ∧ (t.queue (qi slot queue)).cmds = (s.queue (qi slot queue)).cmds ++
        [⟨(s.queue (qi slot queue)).fetched, (l.map (BitVec.ofNat 8)).take 64, none, false⟩] ∧ t.out = s.out ++
        [Output.hostRead (bitsOf (s.queueBase (qi slot queue) + (s.queue (qi slot queue)).fetched % s.depth (qi slot
        queue) * 64) 51 0) 64] ∧ t.mem = s.mem) ∧
    (∀ (s : State) (e i : Nat) (a : Arb) (c : Cmd), (s.arb e).held = false → s.chooseQueue e = some (i, a) → (s.queue
      i).startable = some c → recordError e c.bytes = none →
      exec (.commandStart e) s = .next (({ s with eng.arbs := kset s.eng.arbs e a } : State).setWork ⟨i / 8, i % 8,
        c.count⟩ .started)) ∧
    (∀ (s : State) (e i code : Nat) (a : Arb) (c : Cmd), (s.arb e).held = false → s.chooseQueue e = some (i, a) →
      (s.queue i).startable = some c → recordError e c.bytes = some code →
      exec (.commandStart e) s = .next (({ s with eng.arbs := kset s.eng.arbs e a } : State).cmdError ⟨i / 8, i % 8,
        c.count⟩ code 0 c.opcode 0)) ∧
    (∀ (s : State) (v : Nat), s.ctxState (s.rd F.QDB_EVT_SEL.SLOT) = ctxACTIVE →
      exec (.qdbEvtValWrite v) s = .next (s.leaveDormant.updateEvent (s.rd F.QDB_EVT_SEL.SLOT) (s.rd
        F.QDB_EVT_SEL.EVENT) false (BitVec.ofNat 64 v))) ∧
    (∀ (s : State) (slot queue count x y : Nat) (c : Cmd), s.ctxState slot = ctxACTIVE → s.cmdAt ⟨slot, queue, count⟩ =
      some c → c.work = some (.done x y) → c.ended = false → s.outstanding ⟨slot, queue, count⟩ = false → bitOf
      (leAt c.bytes 1 1) 1 = false → bitOf (leAt c.bytes 1 1) 2 = false →
      ∃ t, exec (.commandComplete slot queue count) s = .next t ∧ t = (s.setQueue (qi slot queue)
        { s.queue (qi slot queue) with cmds := (s.queue (qi slot queue)).cmds.map fun z => if z.count = count then { z with ended := true } else z }).advanceHead
        ⟨slot, queue, count⟩)

/-- Given a started command of an ACTIVE context: NOP is done with status OK; a wait whose condition holds is done
and one whose condition does not hold waits; a signal updates its event once and is done; TIMESTAMP writes its 16
bytes and is done; MEM_WAIT and its poll are done where the 64-bit word read has reached VALUE and wait where it
has not, and a misaligned or remote address is BAD_ADDR; an event above 63 is the queue error BAD_EVENT. (R350,
R352, R366, R367, spec/07_engines_and_command_lists.md.) -/
def Obligations.CommonCommandRows : Prop :=
    (∀ (s : State) (slot queue count : Nat) (c : Cmd), Started s ⟨slot, queue, count⟩ 0x00 c →
      exec (.nop slot queue count) s = .next (s.setWork ⟨slot, queue, count⟩ (.done stOK 0))) ∧
    (∀ (s : State) (slot queue count : Nat) (c : Cmd), Started s ⟨slot, queue, count⟩ 0x01 c → leAt c.bytes 8 1 ≤ 63 →
      leAt c.bytes 16 8 ≤ (s.event slot (leAt c.bytes 8 1)).toNat →
      exec (.eventWait slot queue count) s = .next (s.setWork ⟨slot, queue, count⟩ (.done stOK 0))) ∧
    (∀ (s : State) (slot queue count : Nat) (c : Cmd), Started s ⟨slot, queue, count⟩ 0x01 c → leAt c.bytes 8 1 ≤ 63 →
      (s.event slot (leAt c.bytes 8 1)).toNat < leAt c.bytes 16 8 →
      exec (.eventWait slot queue count) s = .next (s.setWork ⟨slot, queue, count⟩ .waiting)) ∧
    (∀ (s : State) (slot queue count : Nat) (c : Cmd), Started s ⟨slot, queue, count⟩ 0x01 c → 63 < leAt c.bytes 8 1 →
      exec (.eventWait slot queue count) s = .next (s.cmdError ⟨slot, queue, count⟩ qeBAD_EVENT 0 c.opcode 0)) ∧
    (∀ (s : State) (slot queue count : Nat) (c : Cmd), Started s ⟨slot, queue, count⟩ 0x02 c → leAt c.bytes 9 1 = 0 →
      leAt c.bytes 8 1 ≤ 63 →
      exec (.eventSignalSet slot queue count) s = .next ((s.updateEvent slot (leAt c.bytes 8 1) false (BitVec.ofNat
        64 (leAt c.bytes 16 8))).setWork ⟨slot, queue, count⟩ (.done stOK 0))) ∧
    (∀ (s : State) (slot queue count : Nat) (c : Cmd), Started s ⟨slot, queue, count⟩ 0x02 c → leAt c.bytes 9 1 = 1 →
      leAt c.bytes 8 1 ≤ 63 →
      exec (.eventSignalAdd slot queue count) s = .next ((s.updateEvent slot (leAt c.bytes 8 1) true (BitVec.ofNat
        64 (leAt c.bytes 16 8))).setWork ⟨slot, queue, count⟩ (.done stOK 0))) ∧
    (∀ (s : State) (slot queue count : Nat) (c : Cmd), Started s ⟨slot, queue, count⟩ 0x03 c → leAt c.bytes 16 6 ≤
      s.time.step →
      exec (.stepWait slot queue count) s = .next (s.setWork ⟨slot, queue, count⟩ (.done stOK 0))) ∧
    (∀ (s : State) (slot queue count : Nat) (c : Cmd), Started s ⟨slot, queue, count⟩ 0x03 c → s.time.step < leAt c.bytes
      16 6 →
      exec (.stepWait slot queue count) s = .next (s.setWork ⟨slot, queue, count⟩ .waiting)) ∧
    (∀ (s : State) (slot queue count : Nat) (c : Cmd) (d : List (BitVec 8)), Started s ⟨slot, queue, count⟩ 0x04 c → leAt
      c.bytes 16 8 % 16 = 0 → (s.engineAccess ⟨slot, queue, count⟩ (.write (leBytes 4 s.nt ++ leBytes 2 s.time.epoch
      ++ leBytes 2 0 ++ leBytes 6 s.time.step ++ leBytes 2 0)) (leAt c.bytes 16 8) .store).2 = .data d →
      exec (.timestamp slot queue count) s = .next ((s.engineAccess ⟨slot, queue, count⟩ (.write (leBytes 4 s.nt ++
        leBytes 2 s.time.epoch ++ leBytes 2 0 ++ leBytes 6 s.time.step ++ leBytes 2 0)) (leAt c.bytes 16 8)
        .store).1.setWork ⟨slot, queue, count⟩ (.done stOK 0))) ∧
    (∀ (s : State) (slot queue count : Nat) (c : Cmd) (bs : List (BitVec 8)), Started s ⟨slot, queue, count⟩ 0x05 c →
      leAt c.bytes 16 8 % 8 = 0 → s.isLocalAddr (leAt c.bytes 16 8) = true → (s.engineAccess ⟨slot, queue, count⟩
      (.read 8) (leAt c.bytes 16 8) (.cmd 0)) = (s, .data bs) →
      exec (.memWait slot queue count .clean) s = .next (s.setWork ⟨slot, queue, count⟩ (if leAt c.bytes 24 8 ≤
        leNat bs then .done stOK 0 else .waiting))) ∧
    (∀ (s : State) (slot queue count : Nat) (c : Cmd) (e : EccFinding), Started s ⟨slot, queue, count⟩ 0x05 c → (leAt
      c.bytes 16 8 % 8 ≠ 0 ∨ s.isLocalAddr (leAt c.bytes 16 8) = false) →
      exec (.memWait slot queue count e) s = .next (s.cmdError ⟨slot, queue, count⟩ qeBAD_ADDR 0 c.opcode (leAt
        c.bytes 16 8))) ∧
    (∀ (s : State) (slot queue count : Nat) (c : Cmd) (bs : List (BitVec 8)), s.cmdAt ⟨slot, queue, count⟩ = some c →
      c.opcode = 0x05 → c.work = some .waiting → s.ctxState slot = ctxACTIVE → ((s.ms.reqs.any fun q => q.2.src.cmd
      == ⟨slot, queue, count⟩ && q.2.src.engine != 5) = false) → (s.engineAccess ⟨slot, queue, count⟩ (.read 8)
      (leAt c.bytes 16 8) (.cmd 0)) = (s, .data bs) →
      exec (.memWaitPoll slot queue count .clean) s = .next (s.setWork ⟨slot, queue, count⟩ (if leAt c.bytes 24 8 ≤
        leNat bs then .done stOK 0 else .waiting))) ∧
    (∀ (s : State) (slot queue count : Nat) (c : Cmd) (e : EccFinding) (ps : List (Nat × List (BitVec 8))), s.cmdAt
      ⟨slot, queue, count⟩ = some c → c.opcode = 0x05 → c.work = some (.convert ps) → s.ctxState slot = ctxACTIVE →
      exec (.memWaitPoll slot queue count e) s = .next (s.setWork ⟨slot, queue, count⟩ (if leAt c.bytes 24 8 ≤ leNat
        ((kfind ps 0).getD []) then .done stOK 0 else .waiting)))

/-- A started DISPATCH with legal cores and kernel base becomes a dispatch run with no group started; illegal
cores are BAD_CORES and a misaligned base BAD_ADDR. The next group takes the first eligible core of the span: the
run advances, the core's context becomes the command's, and its slots are reserved until it is zeroed; a core that
last ran this context starts them at once. When a zeroing ends the core store reads 0 and the reserved groups
start. (R353, R354, R356, R124, R258, spec/07_engines_and_command_lists.md, spec/03_cores_and_threads.md.) -/
def Obligations.DispatchRows : Prop :=
    (∀ (s : State) (slot queue count : Nat) (c : Cmd), Started s ⟨slot, queue, count⟩ 0x10 c → 1 ≤ c.threads → c.threads
      ≤ 64 → c.groups ≠ 0 → c.coreFirst + c.coreSpan ≤ 288 → c.span.any (fun x => partOf s.partMode (coreQuarter x)
      != s.ctxPart slot) = false → c.span.all (fun x => s.retire x == 2) = false → c.kernelBase % 256 = 0 →
      exec (.dispatch slot queue count) s = .next (s.setWork ⟨slot, queue, count⟩ (.dispatch ⟨0, c.coreFirst, []⟩))) ∧
    (∀ (s : State) (slot queue count : Nat) (c : Cmd), Started s ⟨slot, queue, count⟩ 0x10 c → 64 < c.threads →
      exec (.dispatch slot queue count) s = .next (s.cmdError ⟨slot, queue, count⟩ qeBAD_CORES 0 c.opcode 0)) ∧
    (∀ (s : State) (slot queue count x : Nat) (c : Cmd) (d : DispRun), s.cmdAt ⟨slot, queue, count⟩ = some c → c.work =
      some (.dispatch d) → s.ctxState slot = ctxACTIVE → d.next < c.groups → (s.arb 0).held = false → (((List.range
      c.coreSpan).map fun i => c.coreFirst + (d.from_ - c.coreFirst + i) % c.coreSpan).find? (fun y => s.eligible y
      c.threads (s.ctxId slot)) = some x) → (s.core x).lastCtx ≠ some (s.ctxId slot) → s.dozing (coreQuarter x) =
      false →
      exec (.dispatchGroupStart slot queue count) s = .next ((s.setWork ⟨slot, queue, count⟩ (.dispatch ⟨d.next + 1,
        x + 1, if d.cores.contains x then d.cores else d.cores ++ [x]⟩)).setCore x
        { s.core x with lastCtx := some (s.ctxId slot), entering := false, zeroing := true, rcache := [], banks := [], acc := [], gate := .run, reserved := (s.core x).reserved ++ [⟨(s.core x).freeSlots.take c.threads, d.next, c.prio, s.ctxId slot, c.entry, c.idx, (List.range 4).map fun i => BitVec.ofNat 64 (leAt c.bytes (32 + 8 * i) 8), ⟨slot, queue, count⟩⟩] })) ∧
    (∀ (s : State) (slot queue count x : Nat) (c : Cmd) (d : DispRun), s.cmdAt ⟨slot, queue, count⟩ = some c → c.work =
      some (.dispatch d) → s.ctxState slot = ctxACTIVE → d.next < c.groups → (s.arb 0).held = false → (((List.range
      c.coreSpan).map fun i => c.coreFirst + (d.from_ - c.coreFirst + i) % c.coreSpan).find? (fun y => s.eligible y
      c.threads (s.ctxId slot)) = some x) → (s.core x).lastCtx = some (s.ctxId slot) → (s.core x).zeroing = false →
      s.dozing (coreQuarter x) = false →
      exec (.dispatchGroupStart slot queue count) s = .next (((s.setWork ⟨slot, queue, count⟩ (.dispatch ⟨d.next +
        1, x + 1, if d.cores.contains x then d.cores else d.cores ++ [x]⟩)).setCore x
        { s.core x with entering := false, reserved := (s.core x).reserved ++ [⟨(s.core x).freeSlots.take c.threads, d.next, c.prio, s.ctxId slot, c.entry, c.idx, (List.range 4).map fun i => BitVec.ofNat 64 (leAt c.bytes (32 + 8 * i) 8), ⟨slot, queue, count⟩⟩] }).startReserved
        x)) ∧
    (∀ (s : State) (k : Nat), (s.core k).zeroing = true → s.gated (coreQuarter k) = false → (s.core k).waiting = [] →
      exec (.coreZeroingComplete k) s = .next (((s.memClear (coreStoreBase k) 0x600000).setCore k
        { s.core k with zeroing := false, waiting := [] }).startReserved k))

/-- A started copy engine command with legal operands and no residue does its work and is done with its byte
count; a length of 0 is BAD_LENGTH; a page that is resident is done at once, one that is not starts its transfer,
and one going out clears RES. An address whose residue is wrong twice is recorded, and the command does not go on.
(R358, R359, R361, R362, R313, spec/07_engines_and_command_lists.md, spec/06_memory_and_addressing.md.) -/
def Obligations.CopyRows : Prop :=
    (∀ (s : State) (slot queue count : Nat) (c : Cmd) (e e2 : Int), Started s ⟨slot, queue, count⟩ 0x20 c → 1 ≤ leAt
      c.bytes 24 8 → leAt c.bytes 24 8 ≤ 2 ^ 36 → residueSees e = false → (s.hist (engUnit 32)).perm = false →
      exec (.copy slot queue count .clean e e2) s = .next ((s.copyRange ⟨slot, queue, count⟩ (s.sameBytes (leAt
        c.bytes 8 8) (leAt c.bytes 16 8) (leAt c.bytes 24 8)) (leAt c.bytes 8 8) (leAt c.bytes 16 8) (leAt c.bytes
        24 8)).copyDone ⟨slot, queue, count⟩ (leAt c.bytes 24 8))) ∧
    (∀ (s : State) (slot queue count : Nat) (c : Cmd) (f : EccFinding) (e e2 : Int), Started s ⟨slot, queue, count⟩ 0x20
      c → leAt c.bytes 24 8 = 0 →
      exec (.copy slot queue count f e e2) s = .next (s.cmdError ⟨slot, queue, count⟩ qeBAD_LENGTH 0 c.opcode 0)) ∧
    (∀ (s : State) (slot queue count : Nat) (c : Cmd) (k : Nat) (f : EccFinding) (e e2 : Int), Started s ⟨slot, queue,
      count⟩ 0x20 c → 1 ≤ leAt c.bytes 24 8 → leAt c.bytes 24 8 ≤ 2 ^ 36 → EccFinding.sram f = .uncorrectable →
      residueSees e = false → (s.hist (engUnit 32)).perm = false → s.isLocalAddr (leAt c.bytes 8 8) = true →
      s.checkAccess (s.ctxJob slot) false false false (.read 1) (bitsOf (leAt c.bytes 8 8) 41 0) = none → (placeOf
      (bitsOf (leAt c.bytes 8 8) 41 0)).sramKind = some k →
      exec (.copy slot queue count f e e2) s = .next ((s.record evEccFatal 2 3 1 [k, bitsOf (leAt c.bytes 8 8) 41 0]
        (some (s.ctxId slot))).cmdError ⟨slot, queue, count⟩ qeSTORE_ECC 0 c.opcode (bitsOf (leAt c.bytes 8 8) 41
        0))) ∧
    (∀ (s : State) (slot queue count : Nat) (c : Cmd) (e e2 : Int), Started s ⟨slot, queue, count⟩ 0x21 c → residueSees e
      = false → (s.hist (engUnit 32)).perm = false → leAt c.bytes 24 4 ≠ 0 → leAt c.bytes 28 4 ≠ 0 →
      exec (.copy2d slot queue count .clean e e2) s = .next (
        let o := (List.range (leAt c.bytes 28 4)).any fun i => (List.range (leAt c.bytes 28 4)).any fun j =>
          s.sameBytes ((leAt c.bytes 8 8 + i * leAt c.bytes 32 8) % 2 ^ 64) ((leAt c.bytes 16 8 + j * leAt c.bytes
          40 8) % 2 ^ 64) (leAt c.bytes 24 4);
        ((List.range (leAt c.bytes 28 4)).foldl (fun (s : State) i => if s.failed ⟨slot, queue, count⟩ then s else
          s.copyRange ⟨slot, queue, count⟩ o ((leAt c.bytes 8 8 + i * leAt c.bytes 32 8) % 2 ^ 64) ((leAt c.bytes 16
          8 + i * leAt c.bytes 40 8) % 2 ^ 64) (leAt c.bytes 24 4)) s).copyDone ⟨slot, queue, count⟩ (leAt c.bytes
          24 4 * leAt c.bytes 28 4))) ∧
    (∀ (s : State) (slot queue count : Nat) (c : Cmd) (e e2 : Int), Started s ⟨slot, queue, count⟩ 0x22 c → residueSees e
      = false → (s.hist (engUnit 32)).perm = false → leAt c.bytes 16 8 % 8 = 0 → leAt c.bytes 24 8 ≠ 0 → leAt
      c.bytes 24 8 % 8 = 0 →
      exec (.fill slot queue count e e2) s = .next (((splitCopy (leAt c.bytes 24 8 + 1) (leAt c.bytes 16 8) (leAt
        c.bytes 16 8) (leAt c.bytes 24 8)).foldl (fun (s : State) p => if s.failed ⟨slot, queue, count⟩ then s else
        (s.engineAccess ⟨slot, queue, count⟩ (.write ((List.replicate (p.2.2 / 8) ((c.bytes.drop 32).take
        8)).flatten)) p.1 .store).1) s).copyDone ⟨slot, queue, count⟩ (leAt c.bytes 24 8))) ∧
    (∀ (s : State) (slot queue count : Nat) (c : Cmd) (e e2 : Int), Started s ⟨slot, queue, count⟩ 0x23 c → residueSees e
      = false → (s.hist (engUnit 32)).perm = false → leAt c.bytes 32 1 = 0x10 → ctrlRnd (leAt c.bytes 33 1) = false
      → leAt c.bytes 24 8 ≠ 0 → leAt c.bytes 8 8 % 4 = 0 → leAt c.bytes 16 8 % 2 = 0 → ((s.setWork ⟨slot, queue,
      count⟩ (.convert [])).readParts ⟨slot, queue, count⟩ (leAt c.bytes 8 8) (leAt c.bytes 24 8 * 32 / 8)
      0).1.failed ⟨slot, queue, count⟩ = false →
      exec (.convert slot queue count .clean e e2) s = .next (((s.setWork ⟨slot, queue, count⟩ (.convert
        [])).readParts ⟨slot, queue, count⟩ (leAt c.bytes 8 8) (leAt c.bytes 24 8 * 32 / 8) 0).1.convertFinish
        ⟨slot, queue, count⟩ c ((s.setWork ⟨slot, queue, count⟩ (.convert [])).readParts ⟨slot, queue, count⟩ (leAt
        c.bytes 8 8) (leAt c.bytes 24 8 * 32 / 8) 0).2)) ∧
    (∀ (s : State) (slot queue count : Nat) (c : Cmd) (p : Nat) (e e2 : Int), Started s ⟨slot, queue, count⟩ 0x24 c →
      leAt c.bytes 16 8 % 2 ^ 21 = 0 → leAt c.bytes 16 8 + 2 ^ 21 ≤ dramTop → s.pageOf c = some p → bitOf (leNat
      (s.memRead (s.ovfSlot p) 8)) 0 = true →
      exec (.pageIn slot queue count e e2) s = .next (s.setWork ⟨slot, queue, count⟩ (.done stOK 0))) ∧
    (∀ (s : State) (slot queue count : Nat) (c : Cmd) (p : Nat) (e e2 : Int), Started s ⟨slot, queue, count⟩ 0x24 c →
      leAt c.bytes 16 8 % 2 ^ 21 = 0 → leAt c.bytes 16 8 + 2 ^ 21 ≤ dramTop → s.pageOf c = some p → bitOf (leNat
      (s.memRead (s.ovfSlot p) 8)) 0 = false → bitOf (leNat (s.memRead (s.ovfSlot p) 8)) 1 = false → residueSees e =
      false → (s.hist (engUnit 32)).perm = false →
      exec (.pageIn slot queue count e e2) s = .next (((s.setOvf p (putBit (leNat (s.memRead (s.ovfSlot p) 8)) 1
        true)).setWork ⟨slot, queue, count⟩ .waiting).readPage ⟨slot, queue, count⟩ (((s.setOvf p (putBit (leNat
        (s.memRead (s.ovfSlot p) 8)) 1 true)).setWork ⟨slot, queue, count⟩ .waiting).rd F.MEM_OVF_CFG.PARTNER * 2 ^
        42 + bitsOf (leNat (s.memRead (s.ovfSlot p) 8)) 62 42 * 2 ^ 21) (leAt c.bytes 16 8))) ∧
    (∀ (s : State) (slot queue count : Nat) (c : Cmd) (p : Nat), Started s ⟨slot, queue, count⟩ 0x25 c → s.pageOf c =
      some p → bitOf (leNat (s.memRead (s.ovfSlot p) 8)) 0 = false → bitOf (leNat (s.memRead (s.ovfSlot p) 8)) 1 =
      false →
      exec (.pageOut slot queue count) s = .next (s.setWork ⟨slot, queue, count⟩ (.done stOK 0))) ∧
    (∀ (s : State) (slot queue count : Nat) (c : Cmd) (p : Nat), Started s ⟨slot, queue, count⟩ 0x25 c → s.pageOf c =
      some p → bitOf (leNat (s.memRead (s.ovfSlot p) 8)) 0 = true → bitOf (leNat (s.memRead (s.ovfSlot p) 8)) 1 =
      false →
      exec (.pageOut slot queue count) s = .next ((s.setOvf p (putBit (putBit (leNat (s.memRead (s.ovfSlot p) 8)) 0
        false) 1 true)).setWork ⟨slot, queue, count⟩ .waiting)) ∧
    (∀ (s : State) (slot queue count : Nat) (c : Cmd) (f : EccFinding) (e e2 : Int), Started s ⟨slot, queue, count⟩ 0x20
      c → 1 ≤ leAt c.bytes 24 8 → leAt c.bytes 24 8 ≤ 2 ^ 36 → residueSees e = true → residueSees e2 = true →
      (s.hist (engUnit 32)).perm = false →
      ∃ t, exec (.copy slot queue count f e e2) s = .next t ∧ t.mem = s.mem ∧ Recorded s t evResidue 1 0xB 32)

/-- A started collective command with legal operands and a readable group descriptor takes its place in its pair's
sequence as State.collNew says once every byte of the descriptor is there, reads its source and starts its first
step; a format or operation that no table lists is BAD_FORMAT, and a BARRIER announces its arrival to every other
member. A token or an arrival for the running command of its pair and sequence joins that command; one for a
command that has not started is kept. A step that waits too long is the queue error COLL_TIMEOUT. (R373, R374,
R376, R379, R385, spec/07_engines_and_command_lists.md.) -/
def Obligations.CollectiveRows : Prop :=
    (∀ (s : State) (slot queue count : Nat) (c : Cmd) (e : EccFinding), Working s ⟨slot, queue, count⟩ 0x30 c →
      GroupLegal s ⟨slot, queue, count⟩ 0x30 c → Reducible s ⟨slot, queue, count⟩ 0x30 c →
      exec (.allreduce slot queue count e) s = .next (((groupRead s ⟨slot, queue, count⟩ c).collTake ⟨slot, queue,
        count⟩ (groupNew s ⟨slot, queue, count⟩ 0x30 c)).collLoad ⟨slot, queue, count⟩ (leAt c.bytes 8 8) (groupNew
        s ⟨slot, queue, count⟩ 0x30 c) e)) ∧
    (∀ (s : State) (slot queue count : Nat) (c : Cmd) (e : EccFinding), Working s ⟨slot, queue, count⟩ 0x31 c →
      GroupLegal s ⟨slot, queue, count⟩ 0x31 c → Reducible s ⟨slot, queue, count⟩ 0x31 c →
      exec (.reduceScatter slot queue count e) s = .next (((groupRead s ⟨slot, queue, count⟩ c).collTake ⟨slot,
        queue, count⟩ (groupNew s ⟨slot, queue, count⟩ 0x31 c)).collLoad ⟨slot, queue, count⟩ (leAt c.bytes 8 8)
        (groupNew s ⟨slot, queue, count⟩ 0x31 c) e)) ∧
    (∀ (s : State) (slot queue count : Nat) (c : Cmd) (e : EccFinding), Working s ⟨slot, queue, count⟩ 0x32 c →
      GroupLegal s ⟨slot, queue, count⟩ 0x32 c →
      exec (.allgather slot queue count e) s = .next (((groupRead s ⟨slot, queue, count⟩ c).collTake ⟨slot, queue,
        count⟩ (groupNew s ⟨slot, queue, count⟩ 0x32 c)).collLoad ⟨slot, queue, count⟩ (leAt c.bytes 8 8) (groupNew
        s ⟨slot, queue, count⟩ 0x32 c) e)) ∧
    (∀ (s : State) (slot queue count : Nat) (c : Cmd) (e : EccFinding), Working s ⟨slot, queue, count⟩ 0x33 c →
      GroupLegal s ⟨slot, queue, count⟩ 0x33 c →
      exec (.broadcast slot queue count e) s = .next (((groupRead s ⟨slot, queue, count⟩ c).collTake ⟨slot, queue,
        count⟩ (groupNew s ⟨slot, queue, count⟩ 0x33 c)).collLoad ⟨slot, queue, count⟩ (leAt c.bytes 8 8) (groupNew
        s ⟨slot, queue, count⟩ 0x33 c) e)) ∧
    (∀ (s : State) (slot queue count : Nat) (c : Cmd), Working s ⟨slot, queue, count⟩ 0x34 c → GroupLegal s ⟨slot, queue,
      count⟩ 0x34 c →
      exec (.barrier slot queue count) s = .next (State.collAdvance (groupNew s ⟨slot, queue, count⟩ 0x34 c).fuel
        ⟨slot, queue, count⟩ (groupNew s ⟨slot, queue, count⟩ 0x34 c) (((groupRead s ⟨slot, queue, count⟩
        c).collTake ⟨slot, queue, count⟩ (groupNew s ⟨slot, queue, count⟩ 0x34 c)).collArriveAll ⟨slot, queue,
        count⟩ (groupNew s ⟨slot, queue, count⟩ 0x34 c)))) ∧
    (∀ (s : State) (slot queue count : Nat) (c : Cmd) (x : CollRun), s.cmdAt ⟨slot, queue, count⟩ = some c → c.work =
      some (.coll x) →
      exec (.collTimeout slot queue count) s = .next (s.cmdError ⟨slot, queue, count⟩ qeCOLL_TIMEOUT 0 c.opcode 0)) ∧
    (∀ (s : State) (src job group seq step : Nat), s.collOf job group = none →
      exec (.collReady src job group seq step) s = .next
        ({ s with eng.early := s.eng.early ++ [(pairKey job group, src, seq, step)] })) ∧
    (∀ (s : State) (src job group seq step : Nat) (r : CmdRef) (x : CollRun), s.collOf job group = some (r, x) → x.seq =
      seq →
      exec (.collReady src job group seq step) s = .next (State.collAdvance x.fuel r
        { x with tokens := (x.nodes.idxOf src, step) :: x.tokens } s)) ∧
    (∀ (s : State) (src job group seq : Nat), s.collOf job group = none →
      exec (.collArrive src job group seq) s = .next
        ({ s with eng.early := s.eng.early ++ [(pairKey job group, src, seq, 65536)] })) ∧
    (∀ (s : State) (src job group seq : Nat) (r : CmdRef) (x : CollRun), s.collOf job group = some (r, x) → x.seq = seq →
      exec (.collArrive src job group seq) s = .next (State.collAdvance x.fuel r
        { x with arrived := x.nodes.idxOf src :: x.arrived } s)) ∧
    (∀ (s : State) (slot queue count : Nat) (c : Cmd) (e : EccFinding), Working s ⟨slot, queue, count⟩ 0x30 c →
      (collFmtOk 0x30 (leAt c.bytes 40 1 % 16) = false ∨ 2 < leAt c.bytes 40 1 / 16) →
      exec (.allreduce slot queue count e) s = .next (s.cmdError ⟨slot, queue, count⟩ qeBAD_FORMAT 0 c.opcode 0))

/-- A RING_RUN with a legal descriptor and lit circuits starts as State.ringStart says; a malformed one fails with
DESC. A hello that agrees is kept and starts the rotation once every used neighbour's is there; one that disagrees
fails the run with LAYOUT. A token of the successor joins the run; an abort fails it with PEER_ABORT. A required
token goes to the predecessor, the load and the forward move the block, readiness updates EV_READY, and a run
whose every condition holds ends with its step count. A forward from a gated quarter wakes it first. A wait that
is too long fails the run. (R408, R412, R414, R415, R421, R427, R429, spec/08_sequence_parallel_execution.md.) -/
def Obligations.RingRows : Prop :=
    (∀ (s : State) (slot queue count : Nat) (c : Cmd), Working s ⟨slot, queue, count⟩ 0x40 c → RingReadable s ⟨slot,
      queue, count⟩ c → ((s.eng.rings.filter fun x => x.2.live).length < 16) → (ringRead s ⟨slot, queue, count⟩
      c).ringDescBad (ringNew s ⟨slot, queue, count⟩ c) ((ringRead s ⟨slot, queue, count⟩ c).ctxPart slot) = false →
      (ringRead s ⟨slot, queue, count⟩ c).ringCircuitsOk (ringNew s ⟨slot, queue, count⟩ c) = true → (ringRead s
      ⟨slot, queue, count⟩ c).ringOf ((ringRead s ⟨slot, queue, count⟩ c).ctxJob slot) (ringNew s ⟨slot, queue,
      count⟩ c).id = none →
      exec (.ringRun slot queue count) s = .next ((ringRead s ⟨slot, queue, count⟩ c).ringStart ⟨slot, queue, count⟩
        (ringNew s ⟨slot, queue, count⟩ c))) ∧
    (∀ (s : State) (slot queue count : Nat) (c : Cmd), Working s ⟨slot, queue, count⟩ 0x40 c → leAt c.bytes 8 8 % 64 ≠ 0
      → ((s.eng.rings.filter fun x => x.2.live).length < 16) →
      exec (.ringRun slot queue count) s = .next (s.ringError ⟨slot, queue, count⟩ rsDESC)) ∧
    (∀ (s : State) (src job key n : Nat) (d : List Nat) (x : RingRun), s.ringOf job key = some (n, x) → s.ringActive n =
      some x → x.state = 0 → x.agrees src (d.map (BitVec.ofNat 8)) = true →
      exec (.ringHello src job key d) s = .next (s.setRing n
        { x with hellos := kset x.hellos src (leAt (d.map (BitVec.ofNat 8)) 8 2), state := if x.neighbours.all fun m => (kfind (kset x.hellos src (leAt (d.map (BitVec.ofNat 8)) 8 2)) m).isSome then 1 else 0 })) ∧
    (∀ (s : State) (src job key n : Nat) (d : List Nat) (x : RingRun), s.ringOf job key = some (n, x) → s.ringActive n =
      some x → x.state = 0 → x.agrees src (d.map (BitVec.ofNat 8)) = false →
      exec (.ringHello src job key d) s = .next (s.ringError x.cmd rsLAYOUT)) ∧
    (∀ (s : State) (src job key : Nat),
      ∃ t, exec (.helloHoldExpires src job key) s = .next t ∧ (∀ h ∈ t.eng.hellos, ¬ (h.src = src ∧ h.job = job ∧
        h.id = key)) ∧ t.eng.rings = s.eng.rings ∧ t.mem = s.mem ∧ t.regs = s.regs) ∧
    (∀ (s : State) (src job key v n : Nat) (x : RingRun), s.ringOf job key = some (n, x) → x.succ = some src →
      exec (.ringToken src job key v) s = .next (s.setRing n { x with tokens := v :: x.tokens })) ∧
    (∀ (s : State) (src job key n : Nat) (x : RingRun), s.ringOf job key = some (n, x) →
      exec (.ringAbort src job key) s = .next ((s.setRing n { x with aborts := src :: x.aborts }).ringError x.cmd
        rsPEER_ABORT)) ∧
    (∀ (s : State) (n p : Nat) (x : RingRun), s.ringActive n = some x → x.pred = some p → x.state = 1 → 1 < x.steps →
      x.sentTok.contains 1 = false → s.nextHops p ≠ [] →
      exec (.ringTokenSend n 1) s = .next (((s.setRing n { x with sentTok := 1 :: x.sentTok }).sendPmsg p pkTOKEN
        x.id 1 [] x.job (s.ctxId x.cmd.slot) 3).1)) ∧
    (∀ (s : State) (n : Nat) (e e2 : Int) (x : RingRun), s.ringActive n = some x → x.state = 1 → x.ready = 0 → kfind
      x.got 0 = none → residueSees e = false → (s.hist (engUnit 33)).perm = false → ((s.setRing n
      { x with got := kset x.got 0 x.block }).ringLoad { x with got := kset x.got 0 x.block }).failed x.cmd = false
      → ((s.setRing n { x with got := kset x.got 0 x.block }).ringLoad
      { x with got := kset x.got 0 x.block }).outstanding x.cmd = false →
      exec (.ringLoadDone n .clean e e2) s = .next (((s.setRing n { x with got := kset x.got 0 x.block }).ringLoad
        { x with got := kset x.got 0 x.block }).raiseReady n { x with got := kset x.got 0 x.block } 0)) ∧
    (∀ (s : State) (n step node : Nat) (e e2 : Int) (x : RingRun), s.ringActive n = some x → x.succ = some node → x.state
      = 1 → step < x.ready → x.tokens.contains (step + 1) = true → x.fwd.contains step = false → x.mustForward step
      = true → s.spanAsleep x = [] → residueSees e = false → (s.hist (engUnit 33)).perm = false →
      exec (.ringForward n step .clean e e2) s = .next ((s.setRing n { x with fwd := step :: x.fwd }).ringSend n x
        node step)) ∧
    (∀ (s : State) (n step node : Nat) (f : EccFinding) (e e2 : Int) (x : RingRun), s.ringActive n = some x → x.succ =
      some node → x.state = 1 → step < x.ready → x.tokens.contains (step + 1) = true → x.fwd.contains step = false →
      x.mustForward step = true → s.spanAsleep x = [x.coreFirst] → s.dozing (coreQuarter x.coreFirst) = true →
      exec (.ringForward n step f e e2) s = .next (s.wakeFor (coreQuarter x.coreFirst) [])) ∧
    (∀ (s : State) (n step : Nat) (x : RingRun), s.ringActive n = some x → x.state = 1 → 1 ≤ step → step < x.steps →
      x.ready = step → x.block ≤ kget x.got step 0 →
      exec (.ringReady n step) s = .next ((s.setRing n { x with ready := step + 1 }).updateEvent x.cmd.slot
        x.evReady false (BitVec.ofNat 64 (x.rdyBase + step + 1)))) ∧
    (∀ (s : State) (n : Nat) (x : RingRun), s.ringActive n = some x → x.state = 1 → x.ready = x.steps → (List.range
      x.steps).all (fun t => !x.mustForward t || s.forwarded n x t) = true → s.doneSteps x x.steps = true →
      exec (.ringComplete n) s = .next ((s.dropRing n).setWork x.cmd (.done stOK x.steps))) ∧
    (∀ (s : State) (n : Nat) (x : RingRun), s.ringActive n = some x → x.state = 0 →
      exec (.stepTimeout n .hello) s = .next (s.ringError x.cmd rsHELLO_TIMEOUT)) ∧
    (∀ (s : State) (n : Nat) (w : RingWait) (x : RingRun), s.ringActive n = some x → x.state = 1 → w ≠ .hello →
      RingRun.waits x w = true →
      exec (.stepTimeout n w) s = .next (s.ringError x.cmd rsSTEP_TIMEOUT))

/-- A scalar instruction that issues writes its one destination (a scalar register, a predicate register or one
bit of one), moves the pc past itself and changes nothing else; a branch whose comparison holds goes to the pc
plus its displacement and one whose comparison fails to the next instruction; a reserved instruction faults with
ILLEGAL_OP and a failed fetch with IFETCH. A line that is fetched again after a parity error leaves the thread at
its instruction and is recorded; a register that reads clean again lets its instruction proceed and is recorded,
and one that does not faults the thread. (R128, R134, R158, R174, R227, R256, spec/03_cores_and_threads.md.) -/
def Obligations.ScalarRows : Prop :=
    (∀ (s : State) (core thread : Nat) (g : ScalarFn) (rd ra rb : Nat), Issues s core thread ⟨ScalarOp.regs (.alu g rd ra
      rb), false, false, false⟩ →
      ∃ t, exec (.scalarInstruction core thread (.alu g rd ra rb) .none) s = .next t ∧ Retired s t core thread (fun
        x => x.setS rd (scalarFn g (x.sreg ra) (x.sreg rb)))) ∧
    (∀ (s : State) (core thread : Nat) (g : ScalarFn) (rd ra : Nat) (i : BitVec 64), Issues s core thread ⟨ScalarOp.regs
      (.aluImm g rd ra i), false, false, false⟩ →
      ∃ t, exec (.scalarInstruction core thread (.aluImm g rd ra i) .none) s = .next t ∧ Retired s t core thread
        (fun x => x.setS rd (scalarFn g (x.sreg ra) i))) ∧
    (∀ (s : State) (core thread : Nat) (q : Cmp) (pd lane ra rb : Nat), Issues s core thread ⟨ScalarOp.regs (.cmp q pd
      lane ra rb), false, false, false⟩ →
      ∃ t, exec (.scalarInstruction core thread (.cmp q pd lane ra rb) .none) s = .next t ∧ Retired s t core thread
        (fun x => x.setP pd (setPredBit (x.preg pd) lane (intCmp q (x.sreg ra) (x.sreg rb))))) ∧
    (∀ (s : State) (core thread : Nat) (pd ra : Nat), Issues s core thread ⟨ScalarOp.regs (.predSet pd ra), false, false,
      false⟩ →
      ∃ t, exec (.scalarInstruction core thread (.predSet pd ra) .none) s = .next t ∧ Retired s t core thread (fun x
        => x.setP pd (x.sreg ra))) ∧
    (∀ (s : State) (core thread : Nat) (rd pa : Nat), Issues s core thread ⟨ScalarOp.regs (.predGet rd pa), false, false,
      false⟩ →
      ∃ t, exec (.scalarInstruction core thread (.predGet rd pa) .none) s = .next t ∧ Retired s t core thread (fun x
        => x.setS rd (x.preg pa))) ∧
    (∀ (s : State) (core thread : Nat) (q : Cmp) (ra rb : Nat) (d : Int), Issues s core thread ⟨ScalarOp.regs (.branch q
      ra rb d), false, false, false⟩ → intCmp q ((s.thread core thread).sreg ra) ((s.thread core thread).sreg rb) =
      true →
      ∃ t, exec (.scalarInstruction core thread (.branch q ra rb d) .none) s = .next t ∧ t.thread core thread =
        { s.thread core thread with st := .ready, wait := none, pc := ofSigned 64 (((s.thread core thread).pc : Int) + d) % 2 ^ 64 }
        ∧ t.mem = s.mem ∧ t.out = s.out ∧ t.evr = s.evr) ∧
    (∀ (s : State) (core thread : Nat) (p : ParityFinding), Issues s core thread ⟨ScalarOp.regs (.illegal), false, false,
      false⟩ →
      exec (.scalarInstruction core thread .illegal p) s = .next ((issued s core thread).threadFault core thread
        fcILLEGAL_OP (s.thread core thread).pc)) ∧
    (∀ (s : State) (core thread : Nat) (q : Cmp) (ra rb : Nat) (d : Int), Issues s core thread ⟨ScalarOp.regs (.branch q
      ra rb d), false, false, false⟩ → intCmp q ((s.thread core thread).sreg ra) ((s.thread core thread).sreg rb) =
      false →
      ∃ t, exec (.scalarInstruction core thread (.branch q ra rb d) .none) s = .next t ∧ Retired s t core thread
        (fun x => x)) ∧
    (∀ (s : State) (core thread : Nat) (p : ParityFinding), Issues s core thread ⟨ScalarOp.regs (.ifetch), false, false,
      false⟩ →
      exec (.scalarInstruction core thread .ifetch p) s = .next ((issued s core thread).threadFault core thread
        fcIFETCH (s.thread core thread).pc)) ∧
    (∀ (s : State) (core thread : Nat) (p : ParityFinding), Issues s core thread ⟨ScalarOp.regs (.refetch), false, false,
      false⟩ →
      ∃ t, exec (.scalarInstruction core thread .refetch p) s = .next t ∧ t.thread core thread =
        { s.thread core thread with st := .ready, wait := none } ∧ t.mem = s.mem ∧ t.out = s.out ∧ Recorded s t
        evParityCorr 1 1 core) ∧
    (∀ (s : State) (core thread : Nat) (g : ScalarFn) (rd ra rb : Nat) (r : RegName), Issues s core thread ⟨ScalarOp.regs
      (.alu g rd ra rb), false, false, false⟩ →
      exec (.scalarInstruction core thread (.alu g rd ra rb) (.reg r false)) s = .next ((((issued s core
        thread).parityCount core true).note evParityCorr 1 1 core [core, thread, RegName.number r] (some (((issued s
        core thread).parityCount core true).thread core thread).ctx)).retireInstr core thread fun x => x.setS rd
        (scalarFn g (x.sreg ra) (x.sreg rb)))) ∧
    (∀ (s : State) (core thread : Nat) (g : ScalarFn) (rd ra rb : Nat) (r : RegName), Issues s core thread ⟨ScalarOp.regs
      (.alu g rd ra rb), false, false, false⟩ →
      exec (.scalarInstruction core thread (.alu g rd ra rb) (.reg r true)) s = .next (((issued s core
        thread).parityCount core true).parityFatal core thread (RegName.number r)))

/-- A vector instruction that issues writes the lanes of its destination that are on, as VectorOp.apply says, and
nothing else; a lane reduction writes the result of its tree to every lane that is on; CVT writes each lane that
is on with the converted code, and faults with ILLEGAL_OP on a pair or control that is not accepted; SRSEED loads
the generator. A special function takes a scoreboard entry that holds its results and moves on. (R158, R160, R205,
R211, R216, spec/03_cores_and_threads.md, spec/04_number_formats.md.) -/
def Obligations.VectorRows : Prop :=
    (∀ (s : State) (core thread : Nat) (op : VectorOp), Issues s core thread ⟨VectorOp.regs op, false, false, false⟩ →
      ∃ t, exec (.vectorInstruction core thread op .none) s = .next t ∧ Retired s t core thread (VectorOp.apply op)) ∧
    (∀ (s : State) (core thread : Nat) (op : RedOp) (fp : Bool) (rd ra pr : Nat), Issues s core thread ⟨[.v (rd % 16), .v
      (ra % 16)], false, false, false⟩ →
      ∃ t, exec (.laneReduction core thread op fp rd ra pr .none) s = .next t ∧ Retired s t core thread (fun x =>
        x.writeLanes rd pr fun _ => redTree (redOp op fp) ((List.range 64).map fun l => if x.on pr l then x.vreg ra
        l else redNeutral op fp))) ∧
    (∀ (s : State) (core thread : Nat) (rd rs ra src dst ctrl pr : Nat), Issues s core thread ⟨[.v (rd % 16), .v (ra %
      16)] ++ (if isMx src || isMx dst then [.s (rs % 32)] else []), false, false, false⟩ → cvtAccepts src dst =
      true → ctrlReserved ctrl = false → isMx dst = false → isMx src = false → ctrlRnd ctrl = false →
      ∃ t, exec (.cvt core thread rd rs ra src dst ctrl pr .none) s = .next t ∧ Retired s t core thread (fun x =>
        x.writeLanes rd pr fun l => BitVec.ofNat 32 (convertNum (laneRnd false x.rng l) (ctrlSat ctrl) src dst
        (decodeFmt src (x.vreg ra l).toNat)))) ∧
    (∀ (s : State) (core thread : Nat) (rd rs ra src dst ctrl pr : Nat) (p : ParityFinding), Issues s core thread ⟨[.v
      (rd % 16), .v (ra % 16)] ++ (if isMx src || isMx dst then [.s (rs % 32)] else []), false, false, false⟩ →
      (cvtAccepts src dst = false ∨ ctrlReserved ctrl = true) →
      exec (.cvt core thread rd rs ra src dst ctrl pr p) s = .next ((issued s core thread).threadFault core thread
        fcILLEGAL_OP (s.thread core thread).pc)) ∧
    (∀ (s : State) (core thread rd rs ra src dst ctrl pr : Nat), Issues s core thread ⟨[.v (rd % 16), .v (ra % 16)] ++
      (if isMx src || isMx dst then [.s (rs % 32)] else []), false, false, false⟩ → cvtAccepts src dst = true →
      ctrlReserved ctrl = false →
      ∃ t, exec (.cvt core thread rd rs ra src dst ctrl pr .none) s = .next t ∧ Retired s t core thread (fun x =>
        x.convert rd rs ra src dst ctrl pr)) ∧
    (∀ (s : State) (core thread : Nat) (rs : Nat), Issues s core thread ⟨[.s (rs % 32)], false, false, false⟩ →
      ∃ t, exec (.srseed core thread rs .none) s = .next t ∧ Retired s t core thread (fun x =>
        { x with rng := srLoad (x.sreg rs) })) ∧
    (∀ (s : State) (core thread : Nat) (rd ra pr : Nat), Issues s core thread ⟨[.v (rd % 16), .v (ra % 16)], true, false,
      false⟩ →
      exec (.exp2 core thread rd ra pr .none) s = .next (((issued s core thread).allocEntry core thread .sfu
        (.vector (rd % 16) ((s.thread core thread).lanesOn pr)) (((s.thread core thread).lanesOn pr).map fun l => (4
        * l, leBytes 4 (sfuResult .exp2 ((s.thread core thread).vreg ra l)).toNat)) 0).1.next core thread)) ∧
    (∀ (s : State) (core thread : Nat) (rd ra pr : Nat), Issues s core thread ⟨[.v (rd % 16), .v (ra % 16)], true, false,
      false⟩ →
      exec (.log2 core thread rd ra pr .none) s = .next (((issued s core thread).allocEntry core thread .sfu
        (.vector (rd % 16) ((s.thread core thread).lanesOn pr)) (((s.thread core thread).lanesOn pr).map fun l => (4
        * l, leBytes 4 (sfuResult .log2 ((s.thread core thread).vreg ra l)).toNat)) 0).1.next core thread)) ∧
    (∀ (s : State) (core thread : Nat) (rd ra pr : Nat), Issues s core thread ⟨[.v (rd % 16), .v (ra % 16)], true, false,
      false⟩ →
      exec (.rcp core thread rd ra pr .none) s = .next (((issued s core thread).allocEntry core thread .sfu (.vector
        (rd % 16) ((s.thread core thread).lanesOn pr)) (((s.thread core thread).lanesOn pr).map fun l => (4 * l,
        leBytes 4 (sfuResult .rcp ((s.thread core thread).vreg ra l)).toNat)) 0).1.next core thread)) ∧
    (∀ (s : State) (core thread : Nat) (rd ra pr : Nat), Issues s core thread ⟨[.v (rd % 16), .v (ra % 16)], true, false,
      false⟩ →
      exec (.rsqrt core thread rd ra pr .none) s = .next (((issued s core thread).allocEntry core thread .sfu
        (.vector (rd % 16) ((s.thread core thread).lanesOn pr)) (((s.thread core thread).lanesOn pr).map fun l => (4
        * l, leBytes 4 (sfuResult .rsqrt ((s.thread core thread).vreg ra l)).toNat)) 0).1.next core thread)) ∧
    (∀ (s : State) (core thread : Nat) (rd ra pr : Nat), Issues s core thread ⟨[.v (rd % 16), .v (ra % 16)], true, false,
      false⟩ →
      exec (.sqrt core thread rd ra pr .none) s = .next (((issued s core thread).allocEntry core thread .sfu
        (.vector (rd % 16) ((s.thread core thread).lanesOn pr)) (((s.thread core thread).lanesOn pr).map fun l => (4
        * l, leBytes 4 (sfuResult .sqrt ((s.thread core thread).vreg ra l)).toNat)) 0).1.next core thread)) ∧
    (∀ (s : State) (core thread : Nat) (rd ra pr : Nat), Issues s core thread ⟨[.v (rd % 16), .v (ra % 16)], true, false,
      false⟩ →
      exec (.sin core thread rd ra pr .none) s = .next (((issued s core thread).allocEntry core thread .sfu (.vector
        (rd % 16) ((s.thread core thread).lanesOn pr)) (((s.thread core thread).lanesOn pr).map fun l => (4 * l,
        leBytes 4 (sfuResult .sin ((s.thread core thread).vreg ra l)).toNat)) 0).1.next core thread)) ∧
    (∀ (s : State) (core thread : Nat) (rd ra pr : Nat), Issues s core thread ⟨[.v (rd % 16), .v (ra % 16)], true, false,
      false⟩ →
      exec (.cos core thread rd ra pr .none) s = .next (((issued s core thread).allocEntry core thread .sfu (.vector
        (rd % 16) ((s.thread core thread).lanesOn pr)) (((s.thread core thread).lanesOn pr).map fun l => (4 * l,
        leBytes 4 (sfuResult .cos ((s.thread core thread).vreg ra l)).toNat)) 0).1.next core thread)) ∧
    (∀ (s : State) (core thread : Nat) (rd ra pr : Nat), Issues s core thread ⟨[.v (rd % 16), .v (ra % 16)], true, false,
      false⟩ →
      exec (.tanh core thread rd ra pr .none) s = .next (((issued s core thread).allocEntry core thread .sfu
        (.vector (rd % 16) ((s.thread core thread).lanesOn pr)) (((s.thread core thread).lanesOn pr).map fun l => (4
        * l, leBytes 4 (sfuResult .tanh ((s.thread core thread).vreg ra l)).toNat)) 0).1.next core thread))

/-- An aligned access inside its space that issues is made at the address of its form: a load takes a scoreboard
entry for its destination, a store writes its parts, an atomic takes an entry and acts once on its operand. A
misaligned access faults with MISALIGNED, one beyond the core store with CS_RANGE, one outside the context's share
with QS_RANGE; the fault address is the access's. (R165, R168, R169, R172, R174, R294,
spec/03_cores_and_threads.md, spec/06_memory_and_addressing.md.) -/
def Obligations.CoreMemoryRows : Prop :=
    (∀ (s : State) (core thread : Nat) (acc : AccessForm), Issues s core thread ⟨AccessForm.regs acc, true, false, true⟩
      → AccessForm.aligned acc ((s.thread core thread).addr acc.ra acc.disp) = true → ((s.thread core thread).addr
      acc.ra acc.disp) + AccessForm.bytes acc ≤ 0x600000 →
      exec (.coreStoreLoad core thread acc .clean .none) s = .next ((issued s core thread).storeLoad core thread
        ((s.thread core thread).loadDest acc) [(0, coreStoreBase core + ((s.thread core thread).addr acc.ra
        acc.disp), AccessForm.bytes acc)])) ∧
    (∀ (s : State) (core thread : Nat) (acc : AccessForm) (e : EccFinding), Issues s core thread ⟨AccessForm.regs acc,
      true, false, true⟩ → AccessForm.aligned acc ((s.thread core thread).addr acc.ra acc.disp) = false →
      exec (.coreStoreLoad core thread acc e .none) s = .next ((issued s core thread).threadFault core thread
        fcMISALIGNED ((s.thread core thread).addr acc.ra acc.disp))) ∧
    (∀ (s : State) (core thread : Nat) (acc : AccessForm), Issues s core thread ⟨AccessForm.regs acc, false, false, true⟩
      → AccessForm.aligned acc ((s.thread core thread).addr acc.ra acc.disp) = true → ((s.thread core thread).addr
      acc.ra acc.disp) + AccessForm.bytes acc ≤ 0x600000 →
      exec (.coreStoreStore core thread acc .none) s = .next ((issued s core thread).storeStore core thread
        (((s.thread core thread).storeParts acc).map fun (o, bs) => (coreStoreBase core + ((s.thread core
        thread).addr acc.ra acc.disp) + o, bs)))) ∧
    (∀ (s : State) (core thread : Nat) (acc : AccessForm), Issues s core thread ⟨AccessForm.regs acc, false, false, true⟩
      → AccessForm.aligned acc ((s.thread core thread).addr acc.ra acc.disp) = true → 0x600000 < ((s.thread core
      thread).addr acc.ra acc.disp) + AccessForm.bytes acc →
      exec (.coreStoreStore core thread acc .none) s = .next ((issued s core thread).threadFault core thread
        fcCS_RANGE ((s.thread core thread).addr acc.ra acc.disp))) ∧
    (∀ (s : State) (core thread : Nat) (acc : AccessForm), Issues s core thread ⟨AccessForm.regs acc, true, false, true⟩
      → AccessForm.aligned acc ((s.thread core thread).addr acc.ra acc.disp) = true → s.inShare (s.thread core
      thread).cmd.slot ((s.thread core thread).addr acc.ra acc.disp) (AccessForm.bytes acc) = true →
      exec (.quarterStoreAccess core thread false acc .clean .none) s = .next ((issued s core thread).storeLoad core
        thread ((s.thread core thread).loadDest acc) [(0, quarterStoreBase (coreQuarter core) + ((s.thread core
        thread).addr acc.ra acc.disp), AccessForm.bytes acc)])) ∧
    (∀ (s : State) (core thread : Nat) (acc : AccessForm) (e : EccFinding), Issues s core thread ⟨AccessForm.regs acc,
      false, false, true⟩ → AccessForm.aligned acc ((s.thread core thread).addr acc.ra acc.disp) = true → s.inShare
      (s.thread core thread).cmd.slot ((s.thread core thread).addr acc.ra acc.disp) (AccessForm.bytes acc) = true →
      exec (.quarterStoreAccess core thread true acc e .none) s = .next ((issued s core thread).storeStore core
        thread (((s.thread core thread).storeParts acc).map fun (o, bs) => (quarterStoreBase (coreQuarter core) +
        ((s.thread core thread).addr acc.ra acc.disp) + o, bs)))) ∧
    (∀ (s : State) (core thread : Nat) (acc : AccessForm) (e : EccFinding), Issues s core thread ⟨AccessForm.regs acc,
      false, false, true⟩ → AccessForm.aligned acc ((s.thread core thread).addr acc.ra acc.disp) = true → s.inShare
      (s.thread core thread).cmd.slot ((s.thread core thread).addr acc.ra acc.disp) (AccessForm.bytes acc) = false →
      exec (.quarterStoreAccess core thread true acc e .none) s = .next ((issued s core thread).threadFault core
        thread fcQS_RANGE ((s.thread core thread).addr acc.ra acc.disp))) ∧
    (∀ (s : State) (core thread : Nat) (acc : AccessForm), Issues s core thread ⟨AccessForm.regs acc, true, false, true⟩
      → AccessForm.aligned acc ((s.thread core thread).addr acc.ra acc.disp) = true →
      exec (.globalLoad core thread acc .clean .none) s = .next ((((issued s core thread).allocEntry core thread
        .load ((s.thread core thread).loadDest acc) [] 1).1.askLoad ((issued s core thread).threadSource core
        thread) ((issued s core thread).allocEntry core thread .load ((s.thread core thread).loadDest acc) [] 1).2 0
        ((s.thread core thread).addr acc.ra acc.disp) (AccessForm.bytes acc) acc.bypass).next core thread)) ∧
    (∀ (s : State) (core thread : Nat) (acc : AccessForm), Issues s core thread ⟨AccessForm.regs acc, false, false, true⟩
      → AccessForm.aligned acc ((s.thread core thread).addr acc.ra acc.disp) = true →
      exec (.globalStore core thread acc .clean .none) s = .next (((issued s core thread).storeGlobal ((issued s
        core thread).threadSource core thread) (((s.thread core thread).storeParts acc).map fun (o, bs) =>
        (((s.thread core thread).addr acc.ra acc.disp) + o, bs))).next core thread)) ∧
    (∀ (s : State) (core thread : Nat) (sp : MemSpace) (rd ra base pr : Nat), Issues s core thread ⟨[.v (rd % 16), .v (ra
      % 16), .s (base % 32)], true, false, true⟩ → s.laneFault (s.thread core thread).cmd.slot sp ((s.thread core
      thread).laneAddrs base ra pr) = none → sp ≠ .global →
      exec (.gather core thread sp rd ra base pr [] .none) s = .next ((issued s core thread).storeLoad core thread
        (.vector (rd % 16) ((s.thread core thread).lanesOn pr)) (((s.thread core thread).laneAddrs base ra pr).map
        fun (l, a) => (4 * l, spaceBase core sp + a, 4)))) ∧
    (∀ (s : State) (core thread : Nat) (rd ra base pr : Nat), Issues s core thread ⟨[.v (rd % 16), .v (ra % 16), .s (base
      % 32)], true, false, true⟩ → s.laneFault (s.thread core thread).cmd.slot .global ((s.thread core
      thread).laneAddrs base ra pr) = none →
      exec (.gather core thread .global rd ra base pr [] .none) s = .next ((((issued s core thread).allocEntry core
        thread .load (.vector (rd % 16) ((s.thread core thread).lanesOn pr)) [] ((s.thread core thread).laneAddrs
        base ra pr).length).1.loadLanes ((issued s core thread).threadSource core thread) ((issued s core
        thread).allocEntry core thread .load (.vector (rd % 16) ((s.thread core thread).lanesOn pr)) [] ((s.thread
        core thread).laneAddrs base ra pr).length).2 ((s.thread core thread).laneAddrs base ra pr)).next core
        thread)) ∧
    (∀ (s : State) (core thread : Nat) (sp : MemSpace) (rd ra base pr f a : Nat), Issues s core thread ⟨[.v (rd % 16), .v
      (ra % 16), .s (base % 32)], true, false, true⟩ → s.laneFault (s.thread core thread).cmd.slot sp ((s.thread
      core thread).laneAddrs base ra pr) = some (f, a) →
      exec (.gather core thread sp rd ra base pr [] .none) s = .next ((issued s core thread).threadFault core thread
        f a)) ∧
    (∀ (s : State) (core thread : Nat) (sp : MemSpace) (rs ra base pr : Nat), Issues s core thread ⟨[.v (rs % 16), .v (ra
      % 16), .s (base % 32)], false, false, true⟩ → s.laneFault (s.thread core thread).cmd.slot sp ((s.thread core
      thread).laneAddrs base ra pr) = none → sp ≠ .global →
      exec (.scatter core thread sp rs ra base pr [] .none) s = .next ((issued s core thread).storeStore core thread
        (((s.thread core thread).laneAddrs base ra pr).map fun (l, a) => (spaceBase core sp + a, leBytes 4
        ((s.thread core thread).vreg rs l).toNat)))) ∧
    (∀ (s : State) (core thread : Nat) (rs ra base pr : Nat), Issues s core thread ⟨[.v (rs % 16), .v (ra % 16), .s (base
      % 32)], false, false, true⟩ → s.laneFault (s.thread core thread).cmd.slot .global ((s.thread core
      thread).laneAddrs base ra pr) = none →
      exec (.scatter core thread .global rs ra base pr [] .none) s = .next (((issued s core thread).storeGlobal
        ((issued s core thread).threadSource core thread) (((s.thread core thread).laneAddrs base ra pr).map fun (l,
        a) => (a, leBytes 4 ((s.thread core thread).vreg rs l).toNat))).next core thread)) ∧
    (∀ (s : State) (core thread : Nat) (acc : AtomicForm), Issues s core thread ⟨[RegName.s (acc.ra % 32), .s (acc.rv %
      32), .s (acc.rc % 32)] ++ (if acc.fetch then [RegName.s (acc.rd % 32)] else []), true, false, true⟩ →
      ((s.thread core thread).addr acc.ra acc.disp) % 8 = 0 → acc.sp = .global →
      exec (.add64 core thread acc .clean .none) s = .next ((issued s core thread).atomicGlobal core thread acc
        (.atom .add64 ((s.thread core thread).sreg acc.rv) ((s.thread core thread).sreg acc.rc)) 8 ((s.thread core
        thread).addr acc.ra acc.disp))) ∧
    (∀ (s : State) (core thread : Nat) (acc : AtomicForm), Issues s core thread ⟨[RegName.s (acc.ra % 32), .s (acc.rv %
      32), .s (acc.rc % 32)] ++ (if acc.fetch then [RegName.s (acc.rd % 32)] else []), true, false, true⟩ →
      ((s.thread core thread).addr acc.ra acc.disp) % 8 = 0 → acc.sp = .core → inCoreStore ((s.thread core
      thread).addr acc.ra acc.disp) 8 = true →
      exec (.add64 core thread acc .clean .none) s = .next ((issued s core thread).atomicLocal core thread acc
        (.atom .add64 ((s.thread core thread).sreg acc.rv) ((s.thread core thread).sreg acc.rc)) 8 (coreStoreBase
        core + ((s.thread core thread).addr acc.ra acc.disp)))) ∧
    (∀ (s : State) (core thread : Nat) (acc : AtomicForm), Issues s core thread ⟨[RegName.s (acc.ra % 32), .s (acc.rv %
      32), .s (acc.rc % 32)] ++ (if acc.fetch then [RegName.s (acc.rd % 32)] else []), true, false, true⟩ →
      ((s.thread core thread).addr acc.ra acc.disp) % 8 = 0 → acc.sp = .global →
      exec (.cas64 core thread acc .clean .none) s = .next ((issued s core thread).atomicGlobal core thread acc
        (.atom .cas64 ((s.thread core thread).sreg acc.rv) ((s.thread core thread).sreg acc.rc)) 8 ((s.thread core
        thread).addr acc.ra acc.disp))) ∧
    (∀ (s : State) (core thread : Nat) (acc : AtomicForm), Issues s core thread ⟨[RegName.s (acc.ra % 32), .s (acc.rv %
      32), .s (acc.rc % 32)] ++ (if acc.fetch then [RegName.s (acc.rd % 32)] else []), true, false, true⟩ →
      ((s.thread core thread).addr acc.ra acc.disp) % 8 = 0 → acc.sp = .core → inCoreStore ((s.thread core
      thread).addr acc.ra acc.disp) 8 = true →
      exec (.cas64 core thread acc .clean .none) s = .next ((issued s core thread).atomicLocal core thread acc
        (.atom .cas64 ((s.thread core thread).sreg acc.rv) ((s.thread core thread).sreg acc.rc)) 8 (coreStoreBase
        core + ((s.thread core thread).addr acc.ra acc.disp)))) ∧
    (∀ (s : State) (core thread : Nat) (acc : AtomicForm), Issues s core thread ⟨[RegName.s (acc.ra % 32), .s (acc.rv %
      32), .s (acc.rc % 32)] ++ (if acc.fetch then [RegName.s (acc.rd % 32)] else []), true, false, true⟩ →
      ((s.thread core thread).addr acc.ra acc.disp) % 8 = 0 → acc.sp = .global →
      exec (.min64 core thread acc .clean .none) s = .next ((issued s core thread).atomicGlobal core thread acc
        (.atom .min64 ((s.thread core thread).sreg acc.rv) ((s.thread core thread).sreg acc.rc)) 8 ((s.thread core
        thread).addr acc.ra acc.disp))) ∧
    (∀ (s : State) (core thread : Nat) (acc : AtomicForm), Issues s core thread ⟨[RegName.s (acc.ra % 32), .s (acc.rv %
      32), .s (acc.rc % 32)] ++ (if acc.fetch then [RegName.s (acc.rd % 32)] else []), true, false, true⟩ →
      ((s.thread core thread).addr acc.ra acc.disp) % 8 = 0 → acc.sp = .core → inCoreStore ((s.thread core
      thread).addr acc.ra acc.disp) 8 = true →
      exec (.min64 core thread acc .clean .none) s = .next ((issued s core thread).atomicLocal core thread acc
        (.atom .min64 ((s.thread core thread).sreg acc.rv) ((s.thread core thread).sreg acc.rc)) 8 (coreStoreBase
        core + ((s.thread core thread).addr acc.ra acc.disp)))) ∧
    (∀ (s : State) (core thread : Nat) (acc : AtomicForm), Issues s core thread ⟨[RegName.s (acc.ra % 32), .s (acc.rv %
      32), .s (acc.rc % 32)] ++ (if acc.fetch then [RegName.s (acc.rd % 32)] else []), true, false, true⟩ →
      ((s.thread core thread).addr acc.ra acc.disp) % 8 = 0 → acc.sp = .global →
      exec (.max64 core thread acc .clean .none) s = .next ((issued s core thread).atomicGlobal core thread acc
        (.atom .max64 ((s.thread core thread).sreg acc.rv) ((s.thread core thread).sreg acc.rc)) 8 ((s.thread core
        thread).addr acc.ra acc.disp))) ∧
    (∀ (s : State) (core thread : Nat) (acc : AtomicForm), Issues s core thread ⟨[RegName.s (acc.ra % 32), .s (acc.rv %
      32), .s (acc.rc % 32)] ++ (if acc.fetch then [RegName.s (acc.rd % 32)] else []), true, false, true⟩ →
      ((s.thread core thread).addr acc.ra acc.disp) % 8 = 0 → acc.sp = .core → inCoreStore ((s.thread core
      thread).addr acc.ra acc.disp) 8 = true →
      exec (.max64 core thread acc .clean .none) s = .next ((issued s core thread).atomicLocal core thread acc
        (.atom .max64 ((s.thread core thread).sreg acc.rv) ((s.thread core thread).sreg acc.rc)) 8 (coreStoreBase
        core + ((s.thread core thread).addr acc.ra acc.disp)))) ∧
    (∀ (s : State) (core thread : Nat) (acc : AtomicForm), Issues s core thread ⟨[RegName.s (acc.ra % 32), .s (acc.rv %
      32), .s (acc.rc % 32)] ++ (if acc.fetch then [RegName.s (acc.rd % 32)] else []), true, false, true⟩ →
      ((s.thread core thread).addr acc.ra acc.disp) % 4 = 0 → acc.sp = .global →
      exec (.fadd32 core thread acc .clean .none) s = .next ((issued s core thread).atomicGlobal core thread acc
        (.atom .fadd32 ((s.thread core thread).sreg acc.rv) ((s.thread core thread).sreg acc.rc)) 4 ((s.thread core
        thread).addr acc.ra acc.disp))) ∧
    (∀ (s : State) (core thread : Nat) (acc : AtomicForm), Issues s core thread ⟨[RegName.s (acc.ra % 32), .s (acc.rv %
      32), .s (acc.rc % 32)] ++ (if acc.fetch then [RegName.s (acc.rd % 32)] else []), true, false, true⟩ →
      ((s.thread core thread).addr acc.ra acc.disp) % 4 = 0 → acc.sp = .core → inCoreStore ((s.thread core
      thread).addr acc.ra acc.disp) 4 = true →
      exec (.fadd32 core thread acc .clean .none) s = .next ((issued s core thread).atomicLocal core thread acc
        (.atom .fadd32 ((s.thread core thread).sreg acc.rv) ((s.thread core thread).sreg acc.rc)) 4 (coreStoreBase
        core + ((s.thread core thread).addr acc.ra acc.disp)))) ∧
    (∀ (s : State) (core thread : Nat) (acc : AtomicForm), Issues s core thread ⟨[RegName.s (acc.ra % 32), .s (acc.rv %
      32), .s (acc.rc % 32)] ++ (if acc.fetch then [RegName.s (acc.rd % 32)] else []), true, false, true⟩ →
      ((s.thread core thread).addr acc.ra acc.disp) % 8 ≠ 0 →
      exec (.add64 core thread acc .clean .none) s = .next ((issued s core thread).threadFault core thread
        fcMISALIGNED ((s.thread core thread).addr acc.ra acc.disp)))

/-- An MLOAD of a legal shape, bank, source and strides enters the matrix queue with a scoreboard entry, and its
spans enter the retention table; an MMA of a legal shape enters the queue with the load it reads; an MSTORE of a
legal block and target does so too, and with RND moves the generator on. An illegal shape faults with
MATRIX_SHAPE. (R144, R146, R147, R151, R155, spec/04_number_formats.md, spec/03_cores_and_threads.md.) -/
def Obligations.MatrixIssueRows : Prop :=
    (∀ (s : State) (core thread : Nat) (m : MloadSpec), Issues s core thread ⟨[], true, true, false⟩ → MloadSpec.shapeOk
      m = true → m.bank < 2 → m.aGlobal = false → (MloadSpec.spans m 0).find? (fun sp => !sp.inStore) = none →
      m.aStride % 4 = 0 → m.bStride % 4 = 0 →
      exec (.mload core thread m .clean) s = .next ((((issued s core thread).pushMatrix core thread (.mload m)
        .mload 0).1.setCore core (((issued s core thread).pushMatrix core thread (.mload m) .mload 0).1.core
        core).enterSpans).next core thread)) ∧
    (∀ (s : State) (core thread : Nat) (m : MloadSpec) (e : EccFinding), Issues s core thread ⟨[], true, true, false⟩ →
      MloadSpec.shapeOk m = false →
      exec (.mload core thread m e) s = .next ((issued s core thread).threadFault core thread fcMATRIX_SHAPE
        (s.thread core thread).pc)) ∧
    (∀ (s : State) (core thread : Nat) (m : MmaSpec), Issues s core thread ⟨[], true, true, false⟩ → MmaSpec.shapeOk m
      (((s.core core).loadFor m.bank).map Prod.snd) = true →
      exec (.mma core thread m) s = .next (((issued s core thread).pushMatrix core thread (.mma m) .mma ((((s.core
        core).loadFor m.bank).map Prod.fst).getD 0)).1.next core thread)) ∧
    (∀ (s : State) (core thread : Nat) (m : MstoreSpec), Issues s core thread ⟨[], true, true, false⟩ → ctrlReserved
      m.ctrl = false → MstoreSpec.shapeOk m = true → (MstoreSpec.ranges m).find? (fun r => decide (0x600000 < r.1 +
      r.2)) = none → ctrlRnd m.ctrl = false →
      exec (.mstore core thread m .clean .none) s = .next (((issued s core thread).pushMatrix core thread (.mstore
        m) .mstore 0).1.next core thread)) ∧
    (∀ (s : State) (core thread : Nat) (m : MstoreSpec) (e : EccFinding) (p : ParityFinding), Issues s core thread ⟨[],
      true, true, false⟩ → ctrlReserved m.ctrl = false → MstoreSpec.shapeOk m = false →
      exec (.mstore core thread m e p) s = .next ((issued s core thread).threadFault core thread fcMATRIX_SHAPE
        (s.thread core thread).pc)) ∧
    (∀ (s : State) (core thread : Nat) (m : MstoreSpec), Issues s core thread ⟨[], true, true, false⟩ → ctrlReserved
      m.ctrl = false → MstoreSpec.shapeOk m = true → (MstoreSpec.ranges m).find? (fun r => decide (0x600000 < r.1 +
      r.2)) = none → ctrlRnd m.ctrl = true →
      exec (.mstore core thread m .clean .none) s = .next ((((issued s core thread).pushMatrix core thread (.mstore
        m) .mstore 0).1.setThread core thread
        { ((issued s core thread).pushMatrix core thread (.mstore m) .mstore 0).1.thread core thread with rng := srSteps (64 * ((m.m * m.n + 63) / 64)) (((issued s core thread).pushMatrix core thread (.mstore m) .mstore 0).1.thread core thread).rng }).next
        core thread))

/-- An arrival at a barrier that is not complete waits there, one with another count faults, and a barrier of one,
or the last arrival at one, releases it. EWAIT goes on where its event is already reached and waits where it is
not; ESIGNAL updates its event once; both fences and EXIT wait for the thread's outstanding work; YIELD holds the
thread until its hold expires. The result of a complete entry is written to its destination and the entry is
released. (R130, R138, R141, R173, R300, R368, R369, spec/03_cores_and_threads.md.) -/
def Obligations.SynchronisationRows : Prop :=
    (∀ (s : State) (core thread : Nat) (b n : Nat), Issues s core thread ⟨[], false, false, false⟩ → kfind (s.core
      core).bars (b % 8) = none → 1 < n →
      exec (.bar core thread b n) s = .next (((((issued s core thread).next core thread).stall core thread .waitSync
        (.bar (b % 8))).setCore core
        { (((issued s core thread).next core thread).stall core thread .waitSync (.bar (b % 8))).core core with bars := kset ((((issued s core thread).next core thread).stall core thread .waitSync (.bar (b % 8))).core core).bars (b % 8) ⟨n, [thread]⟩ }))) ∧
    (∀ (s : State) (core thread : Nat) (b n : Nat), Issues s core thread ⟨[], false, false, false⟩ → kfind (s.core
      core).bars (b % 8) = none → n ≤ 1 →
      exec (.bar core thread b n) s = .next ((issued s core thread).next core thread)) ∧
    (∀ (s : State) (core thread : Nat) (e rs : Nat), Issues s core thread ⟨[.s (rs % 32)], false, false, false⟩ →
      ((s.thread core thread).sreg rs).toNat ≤ (s.event (s.thread core thread).cmd.slot (e % 64)).toNat →
      exec (.ewait core thread e rs .none) s = .next ((issued s core thread).next core thread)) ∧
    (∀ (s : State) (core thread : Nat) (e rs : Nat), Issues s core thread ⟨[.s (rs % 32)], false, false, false⟩ →
      (s.event (s.thread core thread).cmd.slot (e % 64)).toNat < ((s.thread core thread).sreg rs).toNat →
      exec (.ewait core thread e rs .none) s = .next (((issued s core thread).next core thread).stall core thread
        .waitSync (.event (e % 64) ((s.thread core thread).sreg rs)))) ∧
    (∀ (s : State) (core thread : Nat) (e rs : Nat) (b : Bool), Issues s core thread ⟨[.s (rs % 32)], false, false,
      false⟩ →
      exec (.esignal core thread e b rs .none) s = .next (((issued s core thread).next core thread).updateEvent
        (s.thread core thread).cmd.slot (e % 64) b ((s.thread core thread).sreg rs))) ∧
    (∀ (s : State) (core thread : Nat), Issues s core thread ⟨[], false, false, false⟩ →
      exec (.fenceAcq core thread) s = .next ((((issued s core thread).next core thread).stall core thread .waitSync
        .acq).settle core)) ∧
    (∀ (s : State) (core thread : Nat), Issues s core thread ⟨[], false, false, false⟩ →
      exec (.fenceRel core thread) s = .next ((((issued s core thread).next core thread).stall core thread .waitSync
        .rel).settle core)) ∧
    (∀ (s : State) (core thread : Nat), Issues s core thread ⟨[], false, false, false⟩ →
      ∃ t, exec (.yield core thread) s = .next t ∧ Retired s t core thread (fun x => { x with hold := true })) ∧
    (∀ (s : State) (core thread : Nat),
      ∃ t, exec (.yieldHoldExpires core thread) s = .next t ∧ t.thread core thread =
        { s.thread core thread with hold := false } ∧ t.mem = s.mem ∧ t.regs = s.regs) ∧
    (∀ (s : State) (core thread : Nat), Issues s core thread ⟨[], false, false, false⟩ →
      exec (.exit core thread) s = .next (((issued s core thread).stall core thread .waitDep .exit).settle core)) ∧
    (∀ (s : State) (core thread tag : Nat) (x : SbEntry), (s.core core).sb.find? (fun e => e.tag == tag && e.thread ==
      thread) = some x → x.await = 0 → (x.kind = .load ∨ x.kind = .sfu) →
      exec (.loadResultWritten core thread tag) s = .next ((s.setThread core thread (x.write (s.thread core
        thread))).releaseEntry core tag)) ∧
    (∀ (s : State) (core thread : Nat) (b n : Nat) (r : Barrier), Issues s core thread ⟨[], false, false, false⟩ → kfind
      (s.core core).bars (b % 8) = some r → r.n = n → n ≤ r.arrived.length + 1 →
      ∃ t, exec (.bar core thread b n) s = .next t ∧ kfind (t.core core).bars (b % 8) = none ∧ (∀ x ∈ (t.core
        core).threads, ¬ (x.2.st = .waitSync ∧ x.2.wait = some (.bar (b % 8)))) ∧ t.mem = s.mem ∧ t.out = s.out) ∧
    (∀ (s : State) (core thread : Nat) (b n : Nat) (r : Barrier), Issues s core thread ⟨[], false, false, false⟩ → kfind
      (s.core core).bars (b % 8) = some r → r.n ≠ n →
      exec (.bar core thread b n) s = .next ((issued s core thread).threadFault core thread fcBARRIER_MISMATCH (b %
        8)))

/-- The first MLOAD that nothing holds back fills its bank with what the core store holds and leaves the queue. A
tile with no injected error is computed; when every line passes its copies exchange roles and it leaves the queue,
and when one fails its digest is kept and it waits for replay, and so it does where the checksum unit's residue is
wrong; a stale bank faults the issuing thread. The first MSTORE that nothing holds back writes its bytes and
leaves the queue; an accumulator that does not take its target faults the thread. (R141, R144, R157, R237, R238,
R242, spec/05_result_checking.md, spec/03_cores_and_threads.md.) -/
def Obligations.TileRows : Prop :=
    (∀ (s : State) (core : Nat) (e : MatEntry) (m : MloadSpec), firstFree MatOp.isMload [] (s.core core).mq = some e →
      e.op = .mload m → (s.core core).stopped = false →
      exec (.mloadBankFilled core) s = .next ((s.setCore core ((s.core core).setBank m.bank (s.readBank core m
        e.tag))).popMatrix core e.tag)) ∧
    (∀ (s : State) (core : Nat) (ups : List TileUpset) (e : MatEntry) (m : MmaSpec), (s.core core).headTile = some (e, m)
      → ((s.core core).bank m.bank).filled = true → ((s.core core).bank m.bank).stale = false → (s.core core).tile =
      none → (s.core core).arbFor = none → s.rd F.CHK_INJECT.ARM = 0 → e.orphan = false → (s.hist (coreUnit core
      uMXA)).perm = false → (s.hist (coreUnit core uCKL)).perm = false →
      exec (.tileVerdict core ups 0 .clean) s = .next (if (tileCheck (s.core core) ((s.core core).bank m.bank)
        s.free m (tileValues (s.core core) ((s.core core).bank m.bank) s.free m ups)).1 = true then (((computed s
        core ((s.core core).bank m.bank) m (tileValues (s.core core) ((s.core core).bank m.bank) s.free m
        ups)).setCore core ((computed s core ((s.core core).bank m.bank) m (tileValues (s.core core) ((s.core
        core).bank m.bank) s.free m ups)).core core |>.swapRoles m)).popMatrix core e.tag) else ((((computed s core
        ((s.core core).bank m.bank) m (tileValues (s.core core) ((s.core core).bank m.bank) s.free m ups)).bump
        F.CHK_CNT_FAIL.COUNT).bump F.CHK_CNT_REPLAY.COUNT).setCore core
        { (computed s core ((s.core core).bank m.bank) m (tileValues (s.core core) ((s.core core).bank m.bank) s.free m ups)).core core with tile := some ⟨.replay, s.free, false, 0, 0, false, false, digest (tileValues (s.core core) ((s.core core).bank m.bank) s.free m ups), 0, true, none, [], 0, 0, 0⟩ }))) ∧
    (∀ (s : State) (core : Nat) (ups : List TileUpset) (r : Int) (e : MatEntry) (m : MmaSpec), (s.core core).headTile =
      some (e, m) → ((s.core core).bank m.bank).filled = true → ((s.core core).bank m.bank).stale = false → (s.core
      core).tile = none → (s.core core).arbFor = none → s.rd F.CHK_INJECT.ARM = 0 → e.orphan = false → (s.hist
      (coreUnit core uMXA)).perm = false → (s.hist (coreUnit core uCKL)).perm = false → residueSees r = true →
      ∃ t, exec (.tileVerdict core ups r .clean) s = .next t ∧ ((t.core core).tile.map fun x => (x.phase, x.oVoid,
        x.resDue)) = some (.replay, true, true) ∧ t.mem = s.mem ∧ t.evr = s.evr) ∧
    (∀ (s : State) (core : Nat) (ups : List TileUpset) (r : Int) (f : EccFinding) (e : MatEntry) (m : MmaSpec), (s.core
      core).headTile = some (e, m) → ((s.core core).bank m.bank).filled = true → ((s.core core).bank m.bank).stale =
      true → (s.core core).tile = none → (s.core core).arbFor = none →
      exec (.tileVerdict core ups r f) s = .next (s.threadFault core e.thread fcMATRIX_STALE e.pc (some e.pc))) ∧
    (∀ (s : State) (core : Nat) (e : MatEntry) (m : MstoreSpec), firstFree MatOp.isMstore [] (s.core core).mq = some e →
      e.op = .mstore m → (s.core core).stopped = false → (((MstoreSpec.ranges m).any fun r => ((s.core
      core).retain.filter fun sp => !((s.core core).mq.any fun x => x.tag == sp.tag)).any fun sp => overlap r.1 r.2
      sp.addr sp.len) = false) → (((MstoreSpec.subs m).any fun b => !mstoreAccepts ((s.core core).sub b).ckptInt
      m.fmt) = false) →
      exec (.mstoreComplete core) s = .next (((mstoreWrites (s.core core) e m).foldl (fun (s : State) w =>
        s.putLocal (coreStoreBase core + w.1) w.2) s).popMatrix core e.tag)) ∧
    (∀ (s : State) (core : Nat) (e : MatEntry) (m : MstoreSpec), firstFree MatOp.isMstore [] (s.core core).mq = some e →
      e.op = .mstore m → (s.core core).stopped = false → (((MstoreSpec.ranges m).any fun r => ((s.core
      core).retain.filter fun sp => !((s.core core).mq.any fun x => x.tag == sp.tag)).any fun sp => overlap r.1 r.2
      sp.addr sp.len) = false) → (((MstoreSpec.subs m).any fun b => !mstoreAccepts ((s.core core).sub b).ckptInt
      m.fmt) = true) →
      exec (.mstoreComplete core) s = .next (s.threadFault core e.thread fcMATRIX_SHAPE e.pc (some e.pc))) ∧
    (∀ (s : State) (core : Nat), exec (.heldWritePerformed core) s = .next (s.drainHeld core))

/-- A replay that passes with another digest is accepted as outcome 1; one that fails, or gives the same digest,
asks for a sibling. An uncorrectable error in what the replay reads leaves it unresolved. A sibling of Table 5-3
takes the tile; without one within ARB_WAIT the tile is unresolved with outcome 0xA. A sibling whose two runs both
fail leaves it unresolved; otherwise its result is accepted where it agrees with the one held, and is transferred
where it does not. A transfer whose digest holds is accepted; a first failure is tried again and a second leaves
the tile unresolved. (R242, R244, R245, R246, R247, R248, spec/05_result_checking.md.) -/
def Obligations.ReplayRows : Prop :=
    (∀ (s : State) (core : Nat) (ups : List TileUpset) (e : MatEntry) (m : MmaSpec) (x : Tile), (s.core core).tile = some
      x → (s.core core).headTile = some (e, m) → x.phase = .replay → x.inj = 0 → x.oVoid = false → x.resDue = false
      → e.orphan = false →
      exec (.replayVerdict core ups 0 .clean) s = .next (
        let b := s.reread core m.bank;
        let v := tileValues (s.core core) b x.free m ups;
        let u := s.tick.bump F.CHK_CNT_UNCHK.COUNT 0 (tileCheck (s.core core) b x.free m v).2;
        let w := u.setCore core (((u.core core).setBank m.bank b).putWork (pairInt b.a.fmt) v);
        if (tileCheck (s.core core) b x.free m v).1 = true ∧ digest v ≠ x.digO then w.acceptTile core e m
          { x with digP := digest v, pFail := false, resDue := false } 1 else (w.bump F.CHK_CNT_ARB.COUNT).setCore
          core
          { w.core core with tile := some { x with digP := digest v, pFail := !(tileCheck (s.core core) b x.free m v).1, resDue := false, phase := .wantSibling } })) ∧
    (∀ (s : State) (core : Nat) (ups : List TileUpset) (r : Int) (f : EccFinding) (e : MatEntry) (m : MmaSpec) (x :
      Tile), (s.core core).tile = some x → (s.core core).headTile = some (e, m) → x.phase = .replay →
      EccFinding.sram f = .uncorrectable →
      exec (.replayVerdict core ups r f) s = .next (s.endTile core e m x 0xA none 4)) ∧
    (∀ (s : State) (core : Nat) (e : MatEntry) (m : MmaSpec) (x : Tile) (y : Nat), (s.core core).tile = some x → (s.core
      core).headTile = some (e, m) → x.phase = .wantSibling → s.sibling core e.ctx = some y →
      exec (.siblingStart core false) s = .next ((s.setCore y
        { s.core y with arbFor := some core, pausing := (s.core y).executing.map MatEntry.tag, gate := .run, entering := false }).setCore
        core
        { (s.setCore y { s.core y with arbFor := some core, pausing := (s.core y).executing.map MatEntry.tag, gate := .run, entering := false }).core core with tile := some { x with sibling := some y, phase := .arbitrating } })) ∧
    (∀ (s : State) (core : Nat) (e : MatEntry) (m : MmaSpec) (x : Tile) (y : Nat), (s.core core).tile = some x → (s.core
      core).headTile = some (e, m) → x.phase = .wantSibling → s.sibling core e.ctx = some y →
      exec (.siblingStart core true) s = .next ((s.setCore y
        { s.core y with arbFor := some core, pausing := (s.core y).executing.map MatEntry.tag, gate := .run, entering := false }).endTile
        core e m { x with sibling := some y, phase := .arbitrating } 0xA none 4)) ∧
    (∀ (s : State) (core : Nat) (u1 u2 : List TileUpset) (r2 : Int) (e : MatEntry) (m : MmaSpec) (x : Tile) (y : Nat),
      (s.core core).tile = some x → (s.core core).headTile = some (e, m) → x.phase = .arbitrating → x.sibling = some
      y → (s.core y).pausing = none → x.direct = false →
      ∃ t, exec (.arbiterVerdict core u1 u2 0 r2) s = .next t ∧ ((tileCheck (s.core core) (s.reread core m.bank) x.free m (tileValues (s.core core) (s.reread core m.bank) x.free m u1)).1 = true → t = (
        let b := s.reread core m.bank;
        let v := tileValues (s.core core) b x.free m u1;
        let u := s.tick.bump F.CHK_CNT_UNCHK.COUNT 0 (tileCheck (s.core core) b x.free m v).2;
        let w := u.setCore y ((u.core y).putWork (pairInt b.a.fmt) v);
        let tl := { x with q := v, digQ := digest v, outcome := arbOutcome x (digest v) };
        if digest v = x.digP then w.acceptTile core e m tl (arbOutcome x (digest v)) else w.setCore core
          { w.core core with tile := some { tl with phase := .transfer } }))) ∧
    (∀ (s : State) (core : Nat) (u1 u2 : List TileUpset) (e : MatEntry) (m : MmaSpec) (x : Tile) (y : Nat), (s.core
      core).tile = some x → (s.core core).headTile = some (e, m) → x.phase = .arbitrating → x.sibling = some y →
      (s.core y).pausing = none → x.direct = false →
      ∃ t, exec (.arbiterVerdict core u1 u2 0 0) s = .next t ∧ ((tileCheck (s.core core) (s.reread core m.bank)
        x.free m (tileValues (s.core core) (s.reread core m.bank) x.free m u1)).1 = false → (tileCheck (s.core core)
        (s.reread core m.bank) x.free m (tileValues (s.core core) (s.reread core m.bank) x.free m u2)).1 = false → t
        = State.endTile ((s.tick.bump F.CHK_CNT_UNCHK.COUNT 0 (tileCheck (s.core core) (s.reread core m.bank) x.free
        m (tileValues (s.core core) (s.reread core m.bank) x.free m u1)).2).tick.bump F.CHK_CNT_UNCHK.COUNT 0
        (tileCheck (s.core core) (s.reread core m.bank) x.free m (tileValues (s.core core) (s.reread core m.bank)
        x.free m u2)).2) core e m x 0xA none 1)) ∧
    (∀ (s : State) (core : Nat) (e : MatEntry) (m : MmaSpec) (x : Tile), (s.core core).tile = some x → (s.core
      core).headTile = some (e, m) → x.phase = .transfer → x.direct = false →
      exec (.resultTransferComplete core true) s = .next ((s.setCore core ((s.core core).putWork (pairInt ((s.core
        core).bank m.bank).a.fmt) x.q)).acceptTile core e m x x.outcome)) ∧
    (∀ (s : State) (core : Nat) (e : MatEntry) (m : MmaSpec) (x : Tile), (s.core core).tile = some x → (s.core
      core).headTile = some (e, m) → x.phase = .transfer → x.tries = 0 →
      exec (.resultTransferComplete core false) s = .next (s.setCore core
        { s.core core with tile := some { x with tries := 1 } })) ∧
    (∀ (s : State) (core : Nat) (e : MatEntry) (m : MmaSpec) (x : Tile), (s.core core).tile = some x → (s.core
      core).headTile = some (e, m) → x.phase = .transfer → x.tries ≠ 0 →
      exec (.resultTransferComplete core false) s = .next (s.endTile core e m x 0xA none 2)) ∧
    (∀ (s : State) (core : Nat) (e : MatEntry) (m : MmaSpec) (x : Tile), (s.core core).tile = some x → (s.core
      core).headTile = some (e, m) → x.phase = .wantSibling →
      exec (.arbWaitExpires core) s = .next (s.endTile core e m x 0xA none 3))

/-- An idle core gates its clock, or its logic's power, once the configured time has passed; a dispatch wakes it.
A due self-test that fails is recorded and charged to its unit. A dirty history is written to flash, and a failed
write is recorded. A retire-pending core with nothing queued is retired, and a quarter that falls below its
minimum leaves Q_LIVE. The staged checking settings come into force together; an injection is armed in test mode
only. A measured quantity is kept; a due re-plan runs, or waits for an activation group; AGE_REPLAN is accepted on
a ticket that its result ends. (R179, R181, R182, R257, R260, R261, R262, R266, R269, R741, R743,
spec/05_result_checking.md.) -/
def Obligations.CoreUpkeepRows : Prop :=
    (∀ (s : State) (core : Nat) (n : Nat) (f : Bool), s.coreIdle core = true → (s.core core).gate = .run → s.rd
      F.CORE_GATE_CFG.CG_IDLE core ≠ 0 → s.rd F.CORE_GATE_CFG.CG_IDLE core ≤ n →
      exec (.coreClockGate core n f) s = .next (s.setCore core (if f then
        { s.core core with gate := .clock, entering := false } else { s.core core with entering := true }))) ∧
    (∀ (s : State) (core : Nat) (n : Nat) (f : Bool), s.coreIdle core = true → (s.core core).gate ≠ .power → s.rd
      F.CORE_GATE_CFG.PG_IDLE core ≠ 0 → s.rd F.CORE_GATE_CFG.PG_IDLE core ≤ n →
      exec (.corePowerGate core n f) s = .next (s.setCore core (if f then
        { s.core core with threads := [], banks := [], acc := [], rcache := [], gate := .power, entering := false }
        else { s.core core with entering := true }))) ∧
    (∀ (s : State) (core : Nat), s.retire core ≠ 2 → exec (.coreWake core) s = .next (s.setCore core
      { s.core core with gate := .run, entering := false })) ∧
    (∀ (s : State) (core : Nat) (r1 r2 : SelfTestRun), s.coreIdle core = true → s.testDue core = true → s.gated
      (coreQuarter core) = false → SelfTestRun.failing r1 = [] →
      exec (.coreSelfTest core r1 r2) s = .next (s.setCore core
        { s.core core with testAt := s.opMs, testPer := s.testPeriod, mustTest := false })) ∧
    (∀ (s : State) (core : Nat) (r1 r2 : SelfTestRun) (u : Nat), s.coreIdle core = true → s.testDue core = true → s.gated
      (coreQuarter core) = false → (s.core core).mustTest = false → SelfTestRun.failing r1 = [u] →
      SelfTestRun.failing r2 = [] →
      exec (.coreSelfTest core r1 r2) s = .next ((((s.setCore core
        { s.core core with testAt := s.opMs, testPer := s.testPeriod, mustTest := false }).chkLast core u 0 0 false
        0 none).note evSelftestFail 1 1 core [core, u, 1]).charge (coreUnit core u) 1)) ∧
    (∀ (s : State) (u : Nat), (s.hist u).dirty = true →
      ∃ t, exec (.historyFlashWrite u true) s = .next t ∧ t.hist u =
        { s.hist u with flash := (s.hist u).times, flashPerm := (s.hist u).perm, dirty := false } ∧ t.mem = s.mem ∧
        t.regs = s.regs) ∧
    (∀ (s : State) (u : Nat), (s.hist u).dirty = true →
      ∃ t, exec (.historyFlashWrite u false) s = .next t ∧ t.chk = s.chk ∧ t.mem = s.mem ∧ Recorded s t
        evHistWriteFail 1 0 0) ∧
    (∀ (s : State) (u : Nat), (s.hist u).dirty = true →
      ∃ t, exec (.historyWriteRetry u true) s = .next t ∧ t.hist u =
        { s.hist u with flash := (s.hist u).times, flashPerm := (s.hist u).perm, dirty := false } ∧ t.mem = s.mem ∧
        t.regs = s.regs) ∧
    (∀ (s : State) (core : Nat), s.retire core = 1 → (s.core core).live = [] → (s.core core).mq = [] → (s.core
      core).reserved = [] → (s.inService (coreQuarter core) < s.qMin ∨ s.qMin ≤ (s.setRetire core 2).inService
      (coreQuarter core)) →
      exec (.coreRetired core) s = .next ((((s.setRetire core 2).setCore core (s.core core).loseLogic).note
        evCoreRetired 1 1 core [core, ((s.setRetire core 2).setCore core (s.core core).loseLogic).inService
        (coreQuarter core)]))) ∧
    (∀ (s : State) (core : Nat), s.retire core = 1 → (s.core core).live = [] → (s.core core).mq = [] → (s.core
      core).reserved = [] → s.qMin ≤ s.inService (coreQuarter core) → (s.setRetire core 2).inService (coreQuarter
      core) < s.qMin →
      ∃ t, exec (.coreRetired core) s = .next t ∧ t.retire core = 2 ∧ (t.core core).gate = .power ∧ bitOf (t.rd
        F.ID_CAP.Q_LIVE) (coreQuarter core) = false) ∧
    (∀ (s : State), ((s.cores.filter fun c => c.2.tile.isSome || c.2.executing.isSome) = []) →
      ∃ t, exec .chkCfgCommit s = .next t ∧ t.chk.qMin = s.rd F.CHK_CFG.Q_MIN ∧ t.chk.arbWait = s.rd
        F.CHK_CFG.ARB_WAIT ∧ t.rd F.CHK_CFG.COMMIT = 0 ∧ t.mem = s.mem) ∧
    (∀ (s : State), ((s.cores.filter fun c => c.2.tile.isSome || c.2.executing.isSome) ≠ []) →
      ∃ t, exec .chkCfgCommit s = .next t ∧ t.chk.qMin = s.chk.qMin ∧ t.chk.arbWait = s.chk.arbWait ∧ t.chk.commit =
        (s.cores.filter fun c => c.2.tile.isSome || c.2.executing.isSome).map Prod.fst ∧ t.rd F.CHK_CFG.COMMIT = 1 ∧
        t.mem = s.mem) ∧
    (∀ (s : State) (v : Nat), (s.mode = mTEST ∨ s.rd F.SEC_STATUS.DEBUG = 1) → bitOf v 31 = true →
      ∃ t, exec (.chkInjectArm v) s = .next t ∧ t.rd F.CHK_INJECT.CORE = bitsOf v 8 0 % 2 ^ 9 ∧ t.rd
        F.CHK_INJECT.KIND = bitsOf v 10 9 % 2 ^ 2 ∧ t.rd F.CHK_INJECT.ARM = 1 ∧ t.mem = s.mem) ∧
    (∀ (s : State) (v : Nat), s.mode ≠ mTEST → s.rd F.SEC_STATUS.DEBUG = 0 →
      ∃ t, exec (.chkInjectArm v) s = .next t ∧ t.mem = s.mem ∧ Recorded s t (Config.eventCode 0) 0 0xC 0) ∧
    (∀ (s : State) (k i v : Nat), s.measurable k i = true → k ≠ 0 →
      exec (.ageingMeasurement k i v) s = .next
        ({ s with age.items := kset s.age.items (ageKey k i) (((s.ageItem k i).getD AgeItem.init).measured k i (min v 65535)) })) ∧
    (∀ (s : State) (i v : Nat) (cr ba : Int), s.measurable 0 i = true → kfind (kset s.age.drives (2 * i + s.rd
      F.HCE_LOOP_STAT.TARGET i) (s.loop i).u) (2 * i + 1) = some cr → kfind (kset s.age.drives (2 * i + s.rd
      F.HCE_LOOP_STAT.TARGET i) (s.loop i).u) (2 * i) = some ba →
      exec (.ageingMeasurement 0 i v) s = .next
        { s with age.drives := kset s.age.drives (2 * i + s.rd F.HCE_LOOP_STAT.TARGET i) (s.loop i).u, age.items := kset s.age.items (ageKey 0 i) (((s.ageItem 0 i).getD AgeItem.init).measured 0 i (min (heaterPower cr ba) 65535)) }) ∧
    (∀ (s : State), s.groupHolds = true → s.rd F.AGE_STATUS.LAST_H + 1000 ≤ s.opMs / 3600000 →
      ∃ t, exec .replanDue s = .next t ∧ t.rd F.AGE_STATUS.DEFERRED = 1 ∧ t.age = s.age ∧ t.mem = s.mem) ∧
    (∀ (s : State), s.groupHolds = false → s.rd F.AGE_STATUS.LAST_H + 1000 ≤ s.opMs / 3600000 →
      exec .replanDue s = .next ((s.replan 0 false).1)) ∧
    (∀ (s : State) (q : Req) (n : Nat), s.taking 0x0A00 = some q → s.groupHolds = false → s.freeTicket = some n → bitOf
      (leAt q.payload 0 1) 1 = false →
      exec .ageReplan s = .next (((accepted s 0x0A00 n).replan 1 (bitOf (leAt q.payload 0 1) 0)).1.endTicket n stOK
        0xFFFF ((accepted s 0x0A00 n).replan 1 (bitOf (leAt q.payload 0 1) 0)).2.bytes)) ∧
    (∀ (s : State) (q : Req), s.taking 0x0A00 = some q → s.groupHolds = true →
      exec .ageReplan s = .next (s.answer stBUSY))

/-- A response that is due is placed in the response area with the request's TAG, COUNT advances, BUSY clears and
DONE sets; 100 ms without one answers TIMEOUT and records SEV1. Ended deferred work sets its ticket's bit;
GET_RESULT answers the result, frees the ticket and clears the bit, and is BUSY while the work goes on. GET_INFO
answers the running versions. A SYNC message of an unknown KEY is recorded at SEV0 and one of a known KEY changes
nothing. The latch is set and recorded once; a release without one is NOT_FOUND. (R625, R628, R629, R630, R631,
R634, R639, R738, R739, spec/14_orquin_mailbox_and_configuration.md.) -/
def Obligations.MailboxRows : Prop :=
    (∀ (s : State) (q : Req) (r : Resp), s.mb.taken = some q → s.dueResp q = some r →
      ∃ t, exec .mailboxResponse s = .next t ∧ t.mb.rsp = memPutBytes [] 0 (respBytes q r) ∧ t.mb.taken = none ∧
        t.mb.resp = none ∧ t.rd F.ORQ_MB_STATUS.BUSY = 0 ∧ t.rd F.ORQ_MB_STATUS.DONE = 1 ∧ t.mem = s.mem ∧ t.out =
        s.out ++ (if s.flag F.ORQ_MB_CFG.IRQ_EN then [Output.msix (s.rd F.ORQ_MB_CFG.VECTOR)] else [])) ∧
    (∀ (s : State) (q : Req), s.mb.taken = some q →
      ∃ t, exec .mailboxTimeout s = .next t ∧ t.mb.rsp = memPutBytes [] 0 (respBytes q ⟨stTIMEOUT, 0xFF, 0xFFFF,
        []⟩) ∧ t.mb.taken = none ∧ t.rd F.ORQ_MB_STATUS.BUSY = 0 ∧ t.rd F.ORQ_MB_STATUS.DONE = 1 ∧ t.mem = s.mem ∧
        Recorded s t evMbTimeout 1 0xC 0) ∧
    (∀ (s : State) (n : Nat) (k : Ticket) (r : WorkResult), n < 16 → kfind s.mb.tickets n = some k → k.result = some r →
      k.posted = false →
      ∃ t, exec (.deferredWorkEnd n) s = .next t ∧ bitOf (t.rd F.ORQ_ASYNC_DONE.DONE) n = true ∧ kfind t.mb.tickets
        n = some { k with posted := true } ∧ t.mem = s.mem ∧ t.out = s.out ++ (if s.flag F.ORQ_MB_CFG.IRQ_EN then
        [Output.msix (s.rd F.ORQ_MB_CFG.ASYNC_VEC)] else [])) ∧
    (∀ (s : State) (q : Req), s.taking 0x0001 = some q → exec .getInfo s = .next (s.answer stOK 0xFFFF (leBytes 4
      (s.partVersion 1) ++ leBytes 4 (s.partVersion 2) ++ leBytes 4 (s.partVersion 3) ++ leBytes 4 (s.partVersion 4)
      ++ leBytes 2 ((s.mb.cur.map CfgRecord.ver).getD 0) ++ leBytes 2 ((s.topo.cur.map Plan.ver).getD 0) ++ leBytes
      1 (s.rd F.ORQ_HB_STATUS.ALIVE)))) ∧
    (∀ (s : State) (q : Req) (k : Ticket) (r : WorkResult), s.taking 2 = some q → leAt q.payload 0 1 < 16 → kfind
      s.mb.tickets (leAt q.payload 0 1) = some k → k.result = some r →
      ∃ t, exec .getResult s = .next t ∧ kfind t.mb.tickets (leAt q.payload 0 1) = none ∧ bitOf (t.rd
        F.ORQ_ASYNC_DONE.DONE) (leAt q.payload 0 1) = false ∧ t.mb.resp = some ⟨r.status, 0xFF, r.detail, r.payload⟩
        ∧ t.mem = s.mem ∧ t.evr = s.evr) ∧
    (∀ (s : State) (q : Req) (k : Ticket), s.taking 0x0002 = some q → leAt q.payload 0 1 < 16 → kfind s.mb.tickets (leAt
      q.payload 0 1) = some k → k.result = none →
      exec .getResult s = .next (s.answer stBUSY)) ∧
    (∀ (s : State) (src key : Nat), (key = 0 ∨ 3 < key) →
      ∃ t, exec (.orqSyncUnknown src key) s = .next t ∧ t.mb = s.mb ∧ t.mem = s.mem ∧ t.out = s.out ∧ Recorded s t
        evSyncUnknown 0 9 1) ∧
    (∀ (s : State) (src key : Nat), 1 ≤ key → key ≤ 3 → exec (.orqSyncUnknown src key) s = .next (s)) ∧
    (∀ (s : State) (q : Req), s.taking 0x0800 = some q → s.evr.latched = false →
      ∃ t, exec .evrLatch s = .next t ∧ t.evr.latched = true ∧ t.mb.resp = some ⟨stOK, 0xFF, 0xFFFF, leBytes 4
        s.evr.oldest ++ leBytes 4 s.evr.newest ++ leBytes 4 s.evr.ring.length⟩ ∧ t.mem = s.mem ∧ Recorded s t
        evLatched 0 0 0) ∧
    (∀ (s : State) (q : Req), s.taking 0x0800 = some q → s.evr.latched = true →
      exec .evrLatch s = .next (s.answer stOK 0xFFFF (leBytes 4 s.evr.oldest ++ leBytes 4 s.evr.newest ++ leBytes 4
        s.evr.ring.length))) ∧
    (∀ (s : State) (q : Req), s.taking 0x0801 = some q → s.evr.latched = true →
      exec .evrRelease s = .next ((s.releaseLatch 0).answer stOK)) ∧
    (∀ (s : State) (q : Req), s.taking 0x0801 = some q → s.evr.latched = false →
      exec .evrRelease s = .next (s.answer stNOTFOUND))

/-- A creation that R331 accepts makes the context in the lowest free slot and answers OK with that slot; a
refused one answers the status R331 gives and changes nothing else. A removal of a resident context, a path
request with a legal list, a proof test that may start, a legal reset request with no greater action at work, and
an evacuation while none goes on are accepted on the lowest free ticket and their work starts; an unaligned or
empty list, an illegal target and a locked module are answered with the status the rule gives. An evacuation that
has lasted 10 s ends OK with its two counts. (R52, R330, R331, R503, R504, R505, R634, R666, R685, R687,
spec/14_orquin_mailbox_and_configuration.md, spec/15_start_up_reset_and_recovery.md.) -/
def Obligations.ServiceRows : Prop :=
    (∀ (s : State) (q : Req) (slot : Nat), s.taking 0x0100 = some q → s.createStatus (leAt q.payload 0 2) (leAt q.payload
      4 1) (leAt q.payload 5 1) (leAt q.payload 6 1) = none → (List.range 256).find? (fun n => s.ctxState n ==
      ctxFree) = some slot →
      exec .ctxCreate s = .next ((s.createCtx slot (leAt q.payload 0 2) (leAt q.payload 2 2) (leAt q.payload 4 1)
        (leAt q.payload 5 1) (leAt q.payload 6 1)).orqMirror.answer stOK 0xFFFF (leBytes 1 slot))) ∧
    (∀ (s : State) (q : Req) (st : Nat), s.taking 0x0100 = some q → s.createStatus (leAt q.payload 0 2) (leAt q.payload 4
      1) (leAt q.payload 5 1) (leAt q.payload 6 1) = some st →
      exec .ctxCreate s = .next (s.answer st)) ∧
    (∀ (s : State) (q : Req) (slot n : Nat), s.taking 0x0101 = some q → s.slotOf (leAt q.payload 0 2) = some slot →
      s.removal slot = none → s.freeTicket = some n →
      exec .ctxRemove s = .next ((accepted s 0x0101 n).callRemoval slot (Config.eventCode 32) (some n))) ∧
    (∀ (s : State) (q : Req), s.taking 0x0101 = some q → s.slotOf (leAt q.payload 0 2) = none →
      exec .ctxRemove s = .next (s.answer stNOTFOUND)) ∧
    (∀ (s : State) (q : Req) (n : Nat), s.taking 0x0400 = some q → leAt q.payload 0 1 = 0x50 → 1 ≤ leAt q.payload 16 2 →
      leAt q.payload 16 2 ≤ 512 → leAt q.payload 8 8 % 32 = 0 → s.isLocalAddr (leAt q.payload 8 8) = true → bitsOf
      (leAt q.payload 8 8) 41 0 + 32 * leAt q.payload 16 2 ≤ generalUse → s.freeTicket = some n →
      exec .pathReqSetup s = .next ((accepted s 0x0400 n).openList ⟨.mailbox n, 0x50, leAt q.payload 24 6, bitsOf
        (leAt q.payload 8 8) 41 0, readRequests (s.memRead (bitsOf (leAt q.payload 8 8) 41 0) (32 * leAt q.payload
        16 2)), false⟩)) ∧
    (∀ (s : State) (q : Req) (n : Nat), s.taking 0x0400 = some q → leAt q.payload 0 1 = 0x51 → 1 ≤ leAt q.payload 16 2 →
      leAt q.payload 16 2 ≤ 512 → leAt q.payload 8 8 % 32 = 0 → s.isLocalAddr (leAt q.payload 8 8) = true → bitsOf
      (leAt q.payload 8 8) 41 0 + 32 * leAt q.payload 16 2 ≤ generalUse → s.freeTicket = some n →
      exec .pathReqTeardown s = .next ((accepted s 0x0400 n).openList ⟨.mailbox n, 0x51, leAt q.payload 24 6, bitsOf
        (leAt q.payload 8 8) 41 0, readRequests (s.memRead (bitsOf (leAt q.payload 8 8) 41 0) (32 * leAt q.payload
        16 2)), false⟩)) ∧
    (∀ (s : State) (q : Req) (n : Nat), s.taking 0x0400 = some q → leAt q.payload 0 1 = 0x52 → 1 ≤ leAt q.payload 16 2 →
      leAt q.payload 16 2 ≤ 512 → leAt q.payload 8 8 % 32 = 0 → s.isLocalAddr (leAt q.payload 8 8) = true → bitsOf
      (leAt q.payload 8 8) 41 0 + 32 * leAt q.payload 16 2 ≤ generalUse → s.freeTicket = some n →
      exec .pathReqRecable s = .next ((accepted s 0x0400 n).openList ⟨.mailbox n, 0x52, leAt q.payload 24 6, bitsOf
        (leAt q.payload 8 8) 41 0, readRequests (s.memRead (bitsOf (leAt q.payload 8 8) 41 0) (32 * leAt q.payload
        16 2)), false⟩)) ∧
    (∀ (s : State) (q : Req) (n : Nat), s.taking 0x0400 = some q → leAt q.payload 0 1 = 0x53 → 1 ≤ leAt q.payload 16 2 →
      leAt q.payload 16 2 ≤ 512 → leAt q.payload 8 8 % 32 = 0 → s.isLocalAddr (leAt q.payload 8 8) = true → bitsOf
      (leAt q.payload 8 8) 41 0 + 32 * leAt q.payload 16 2 ≤ generalUse → s.freeTicket = some n →
      exec .pathReqQuery s = .next ((accepted s 0x0400 n).openList ⟨.mailbox n, 0x53, leAt q.payload 24 6, bitsOf
        (leAt q.payload 8 8) 41 0, readRequests (s.memRead (bitsOf (leAt q.payload 8 8) 41 0) (32 * leAt q.payload
        16 2)), false⟩)) ∧
    (∀ (s : State) (q : Req) (n : Nat), s.taking 0x0500 = some q → (s.startProof none).isNone = false → s.freeTicket =
      some n →
      exec .proofTest s = .next (((accepted s 0x0500 n).startProof (some n)).getD (accepted s 0x0500 n))) ∧
    (∀ (s : State) (q : Req), s.taking 0x0500 = some q → (s.startProof none).isNone = true →
      exec .proofTest s = .next (s.answer stPOLICY)) ∧
    (∀ (s : State) (q : Req) (n : Nat), s.taking 0x0900 = some q → leAt q.payload 0 1 = 3 → s.resetBad q.payload = false
      → s.bigAction = false → s.freeTicket = some n →
      exec .resetReqEngine s = .next ((accepted s 0x0900 n).endHold.requestAction (resetAction q.payload n))) ∧
    (∀ (s : State) (q : Req) (n : Nat), s.taking 0x0900 = some q → leAt q.payload 0 1 = 4 → s.resetBad q.payload = false
      → s.bigAction = false → s.freeTicket = some n →
      exec .resetReqPartition s = .next ((accepted s 0x0900 n).endHold.requestAction (resetAction q.payload n))) ∧
    (∀ (s : State) (q : Req) (n : Nat), s.taking 0x0900 = some q → leAt q.payload 0 1 = 5 → s.resetBad q.payload = false
      → (leAt q.payload 2 1 ≠ 1 ∨ s.unlocked = true) → s.bigAction = false → s.freeTicket = some n →
      exec .resetReqChip s = .next ((accepted s 0x0900 n).endHold.requestAction (resetAction q.payload n))) ∧
    (∀ (s : State) (q : Req) (n : Nat), s.taking 0x0900 = some q → leAt q.payload 0 1 = 6 → s.resetBad q.payload = false
      → s.bigAction = false → s.freeTicket = some n →
      exec .resetReqPowerCycle s = .next ((accepted s 0x0900 n).endHold.requestAction (resetAction q.payload n))) ∧
    (∀ (s : State) (q : Req), s.taking 0x0900 = some q → leAt q.payload 0 1 = 5 → s.resetBad q.payload = false → leAt
      q.payload 2 1 = 1 → s.unlocked = false →
      exec .resetReqChip s = .next (s.answer stAUTH)) ∧
    (∀ (s : State) (q : Req), s.taking 0x0900 = some q → leAt q.payload 0 1 = 3 → s.resetBad q.payload = true →
      exec .resetReqEngine s = .next (s.answer stPOLICY)) ∧
    (∀ (s : State) (q : Req) (n : Nat), s.taking 0x0901 = some q → leAt q.payload 0 1 = 0 → s.peers.evac = none →
      s.freeTicket = some n →
      exec .evacuate s = .next
        (((({ (((accepted s 0x0901 n).wr F.RST_STATUS.EVACUATED 1).sendHb) with peers.evac := some (some n, (((accepted s 0x0901 n).wr F.RST_STATUS.EVACUATED 1).sendHb).transit.length) }
        : State).askEvacuate (fun _ => true) false).kick).evacCheck)) ∧
    (∀ (s : State) (q : Req), s.taking 0x0901 = some q → leAt q.payload 0 1 = 0 → s.peers.evac.isSome = true →
      exec .evacuate s = .next (s.answer stBUSY)) ∧
    (∀ (s : State) (q : Req) (n : Nat), s.taking 0x0901 = some q → leAt q.payload 0 1 = 1 → s.freeTicket = some n →
      exec .evacuateClear s = .next (((accepted s 0x0901 n).wr F.RST_STATUS.EVACUATED 0).sendHb.endTicket n stOK
        0xFFFF)) ∧
    (∀ (s : State) (ticket : Option Nat) (n : Nat), s.peers.evac = some (ticket, n) →
      exec .evacuateTimeout s = .next (({ s with peers.evac := none } : State).endWork ticket stOK 0xFFFF (leBytes 2
        (n - s.transit.length) ++ leBytes 2 s.transit.length)))

/-- A placement that a condition of Table 8-2 refuses is answered with its status and its REASON; one that passes
rows 1 to 7 starts on the lowest free ticket. A partner's record that no placement waits for is held; the partner
of the placement that waits for it lets that placement go on. A partner silent for 1 s ends the placement with
TIMEOUT and reason 0x07. A hold of 10 s that expires frees the space. (R396, R398, R640,
spec/08_sequence_parallel_execution.md.) -/
def Obligations.PlacementRows : Prop :=
    (∀ (s : State) (q : Req) (st reason : Nat), s.taking 0x0102 = some q → s.placing (plJob q.payload) = false →
      s.placeCheck q.payload = some (st, reason) →
      exec .placement s = .next (s.answer st reason (placeRefusal reason))) ∧
    (∀ (s : State) (q : Req) (n : Nat), s.taking 0x0102 = some q → s.placing (plJob q.payload) = false → s.placeCheck
      q.payload = none → s.freeTicket = some n →
      exec .placement s = .next ((accepted s 0x0102 n).placeStart q.payload n)) ∧
    (∀ (s : State) (src : Nat) (rec : List Nat), ((s.place.jobs.find? fun p => p.2.phase == .partner && plPartner
      p.2.record == src) = none) → ((s.place.jobs.find? fun p => p.2.phase == .partner && plPartner p.2.record ==
      src && (p.1 == plJob (rec.map (BitVec.ofNat 8)))) = none) →
      exec (.partnerRecord src rec) s = .next
        ({ s with place.recs := (s.place.recs.filter fun x => decide (s.opMs ≤ x.born + 1000)) ++ [⟨src, s.opMs, rec.map (BitVec.ofNat 8)⟩] })) ∧
    (∀ (s : State) (src : Nat) (rec : List Nat) (p : Nat × Placement), ((s.place.jobs.find? fun p => p.2.phase ==
      .partner && plPartner p.2.record == src && (p.1 == plJob (rec.map (BitVec.ofNat 8)))) = some p) →
      exec (.partnerRecord src rec) s = .next (s.placePartner p.1 (rec.map (BitVec.ofNat 8)))) ∧
    (∀ (s : State) (job : Nat), s.oldestPlacing = some job → exec .partnerSilent s = .next (s.placeFail job stTIMEOUT
      0x07)) ∧
    (∀ (s : State) (job : Nat) (p : Placement), kfind s.place.jobs job = some p → p.phase = .held →
      exec (.placementHoldExpires job) s = .next ({ s with place.jobs := kdel s.place.jobs job }))

/-- The first valid authorisation of a change is kept and its ticket waits. The second, by the other holder, makes
the change, ends both tickets OK, advances the counter and records it: a key is replaced or removed unless a
verified slot names it, the keyring, the policy and MIN_SVN being sealed anew, the three policy bits take ARG,
MIN_SVN rises to at most the running SEC_VER, debug is unlocked or relocked, a unit's history goes, and a retired
core returns to be tested first, the recorder is cleared, or the keeper is reset later. Ten minutes without the
second end the first with TIMEOUT. The status answers the counter, the operation, the holder and the time left.
(R78, R270, R698, R699, R700, R701, R702, R703, R704, R740, spec/16_update_and_protection.md.) -/
def Obligations.TwoKeyRows : Prop :=
    (∀ (s : State) (q : Req) (n : Nat) (w : TwoKey) (data : List (BitVec 8)), SecondKey s 1 q n w → (data = if
      w.data.isEmpty then q.payload.drop 464 else w.data) → data.isEmpty = false → (¬ (tkArg q.payload ≤ 3 ∧
      s.keyInUse (tkArg q.payload) = true)) → keyModulus data ≠ 0 →
      exec .keyReplace s = .next (({ (accepted s 0x0600 n) with upd.keys := kset s.upd.keys (tkArg q.payload) data }
        : State).sealRing.tkFinish w.head w.ticket n stOK 0)) ∧
    (∀ (s : State) (q : Req) (n : Nat) (w : TwoKey) (data : List (BitVec 8)), SecondKey s 1 q n w → (data = if
      w.data.isEmpty then q.payload.drop 464 else w.data) → data.isEmpty = false → tkArg q.payload ≤ 3 → s.keyInUse
      (tkArg q.payload) = false → keyModulus data = 0 →
      exec .keyReplace s = .next (({ (accepted s 0x0600 n) with upd.keys := kdel s.upd.keys (tkArg q.payload) } :
        State).sealRing.tkFinish w.head w.ticket n stOK 0)) ∧
    (∀ (s : State) (q : Req) (n : Nat) (w : TwoKey), SecondKey s 2 q n w →
      exec .policySet s = .next (((accepted s 0x0600 n) |>.wr F.SEC_POLICY.UNBOUND_OK (tkArg q.payload % 2) |>.wr
        F.SEC_POLICY.RECOV_PIN_EN (tkArg q.payload / 2 % 2) |>.wr F.SEC_POLICY.SPDM_EN (tkArg q.payload / 4 %
        2)).sealRing.tkFinish w.head w.ticket n stOK 0)) ∧
    (∀ (s : State) (q : Req) (n : Nat) (w : TwoKey), SecondKey s 3 q n w → s.rd F.SEC_POLICY.MIN_SVN ≤ tkArg q.payload →
      tkArg q.payload ≤ leAt (s.manifest s.upd.boot.running) 12 4 →
      exec .minSvn s = .next (((accepted s 0x0600 n).wr F.SEC_POLICY.MIN_SVN (tkArg q.payload)).sealRing.tkFinish
        w.head w.ticket n stOK 0)) ∧
    (∀ (s : State) (q : Req) (n : Nat) (w : TwoKey), SecondKey s 4 q n w →
      exec .debugUnlock s = .next ((((accepted s 0x0600 n).wr F.SEC_STATUS.DEBUG 1).note evDebug 1 9 3 [0]).tkFinish
        w.head w.ticket n stOK 0)) ∧
    (∀ (s : State) (q : Req) (n : Nat) (w : TwoKey), SecondKey s 5 q n w →
      exec .debugRelock s = .next (((accepted s 0x0600 n).debugEnd).tkFinish w.head w.ticket n stOK 0)) ∧
    (∀ (s : State) (q : Req) (n : Nat) (w : TwoKey), SecondKey s 6 q n w → 288 ≤ tkArg q.payload → (s.hist (engUnit
      (tkArg q.payload - 0x200))).any = true →
      exec .unitRestore s = .next (((accepted s 0x0600 n).setHist (engUnit (tkArg q.payload - 0x200))
        Hist.init).tkFinish w.head w.ticket n stOK 0)) ∧
    (∀ (s : State) (q : Req) (n : Nat) (w : TwoKey) (c : Nat), SecondKey s 6 q n w → tkArg q.payload = c → c < 288 →
      (s.retire c ≠ 0 ∨ (s.hist (coreUnit c uMXA)).any = true ∨ (s.hist (coreUnit c uCKL)).any = true ∨ (s.hist
      (coreUnit c uVEC)).any = true ∨ (s.hist (coreUnit c uSFU)).any = true) →
      exec .unitRestore s = .next ((((((((accepted s 0x0600 n).setHist (coreUnit c uMXA) Hist.init).setHist
        (coreUnit c uCKL) Hist.init).setHist (coreUnit c uVEC) Hist.init).setHist (coreUnit c uSFU)
        Hist.init).setRetire c 0).setCore c
        { s.core c with mustTest := true, gate := if s.retire c = 2 then .run else (s.core c).gate }).backLive
        (coreQuarter c) |>.tkFinish w.head w.ticket n stOK 0)) ∧
    (∀ (s : State) (q : Req) (n : Nat) (w : TwoKey), SecondKey s 7 q n w →
      exec .evrClear s = .next (((accepted s 0x0600 n).clearRecorder (s.rd F.SEC_STATUS.TK_COUNTER)).tkFinish w.head
        w.ticket n stOK 0)) ∧
    (∀ (s : State) (q : Req) (n : Nat) (w : TwoKey), SecondKey s 8 q n w →
      exec .keeperReset s = .next (({ (accepted s 0x0600 n) with upd.keepWait := true }).tkFinish w.head w.ticket n
        stOK 0)) ∧
    (∀ (s : State) (q : Req) (n : Nat), KeyValid s 4 q n → s.upd.pending = none →
      exec .debugUnlock s = .next
        ((({ accepted s 0x0600 n with upd.pending := some ⟨q.payload.take 80, leAt q.payload 2 1, n, q.payload.drop 464, s.opMs⟩ }).wr
        F.SEC_STATUS.TK_PENDING 1).wr F.SEC_STATUS.TK_OP 4)) ∧
    (∀ (s : State) (w : TwoKey), s.upd.pending = some w → exec .twokeyTimeout s = .next ((s.endTicket w.ticket stTIMEOUT
      0xFFFF).twoKeyEnd (tkOp w.head) (tkArg w.head) 1)) ∧
    (∀ (s : State) (q : Req) (w : TwoKey), s.taking 0x0601 = some q → s.upd.pending = some w →
      exec .twokeyStatus s = .next (s.answer stOK 0xFFFF (leBytes 4 (s.rd F.SEC_STATUS.TK_COUNTER) ++ leBytes 2
        (tkOp w.head) ++ leBytes 1 w.holder ++ leBytes 1 0 ++ leBytes 2 ((w.since + 600000 - s.opMs) / 1000)))) ∧
    (∀ (s : State) (q : Req), s.taking 0x0601 = some q → s.upd.pending = none →
      exec .twokeyStatus s = .next (s.answer stOK 0xFFFF (leBytes 4 (s.rd F.SEC_STATUS.TK_COUNTER) ++ leBytes 6 0)))

/-- Entries that are all legal merge in order into the staging set; an illegal one is answered POLICY with its
index and nothing is staged; a discard empties the set. A commit or a revert, outside an activation group's
change, is accepted on a ticket and takes its steps: a version that is not newer ends POLICY, a conflicting field
RUNNING, a revert without a previous configuration NOT_FOUND. A read answers the version, the number of entries
and up to 169 of them. A legal plan is loaded, a loaded plan that is newer becomes current, and a revert without a
previous plan ends NOT_FOUND; a plan in host memory is read from there. (R635, R644, R645, R646, R649, R650, R651,
spec/14_orquin_mailbox_and_configuration.md.) -/
def Obligations.SettingsRows : Prop :=
    (∀ (s : State) (q : Req), s.taking 0x0200 = some q → ((List.range (q.payload.length / 24)).map (readCfgEntry
      q.payload)).findIdx? CfgEntry.bad = none → (((List.range (q.payload.length / 24)).map (readCfgEntry
      q.payload)).foldl mergeEntry s.mb.staging).length ≤ 512 →
      exec .cfgStage s = .next
        (({ s with mb.staging := ((List.range (q.payload.length / 24)).map (readCfgEntry q.payload)).foldl mergeEntry s.mb.staging }
        : State).reportCfg.answer stOK)) ∧
    (∀ (s : State) (q : Req) (k : Nat), s.taking 0x0200 = some q → ((List.range (q.payload.length / 24)).map
      (readCfgEntry q.payload)).findIdx? CfgEntry.bad = some k →
      exec .cfgStage s = .next (s.answer stPOLICY k)) ∧
    (∀ (s : State) (q : Req), s.taking 0x0202 = some q → exec .cfgDiscard s = .next (({ s with mb.staging := [] } :
      State).reportCfg.answer stOK)) ∧
    (∀ (s : State) (q : Req) (flashOk : Bool) (n : Nat), s.taking 0x0201 = some q → s.groupHolds = false → s.freeTicket =
      some n →
      exec (.cfgCommit flashOk) s = .next ((accepted s 0x0201 n).cfgCommit (leAt q.payload 0 2) n flashOk)) ∧
    (∀ (s : State) (q : Req) (flashOk : Bool) (n : Nat), s.taking 0x0201 = some q → s.groupHolds = false → s.freeTicket =
      some n → newer (leAt q.payload 0 2) (cfgVer s.mb.cur) = false →
      exec (.cfgCommit flashOk) s = .next ((accepted s 0x0201 n).endTicket n stPOLICY 0xFFFF)) ∧
    (∀ (s : State) (q : Req) (n : Nat), s.taking 0x0201 = some q → s.groupHolds = false → s.freeTicket = some n → newer
      (leAt q.payload 0 2) (cfgVer s.mb.cur) = true → s.stagedConflict (cfgEntries s.mb.cur) (s.mb.staging.foldl
      mergeEntry (cfgEntries s.mb.cur)) = none →
      exec (.cfgCommit true) s = .next
        (((({ (({ accepted s 0x0201 n with mb.prev := s.mb.cur, mb.cur := some ⟨leAt q.payload 0 2, s.mb.staging.foldl mergeEntry (cfgEntries s.mb.cur)⟩ } : State).applyChanges (cfgEntries s.mb.cur) (s.mb.staging.foldl mergeEntry (cfgEntries s.mb.cur))) with mb.staging := [] }
        : State).reportCfg).note evCfgCommit 0 9 1 [cfgVer s.mb.cur, leAt q.payload 0 2,
        s.mb.staging.length]).endTicket n stOK 0xFFFF)) ∧
    (∀ (s : State) (q : Req) (n : Nat), s.taking 0x0203 = some q → s.groupHolds = false → s.freeTicket = some n →
      s.mb.prev = none →
      exec .cfgRevert s = .next ((accepted s 0x0203 n).endTicket n stNOTFOUND 0xFFFF)) ∧
    (∀ (s : State) (q : Req) (n : Nat), s.taking 0x0203 = some q → s.groupHolds = false → s.freeTicket = some n →
      exec .cfgRevert s = .next ((accepted s 0x0203 n).cfgRevert n)) ∧
    (∀ (s : State) (q : Req), s.taking 0x0204 = some q → leAt q.payload 0 1 = 0 →
      exec .cfgRead s = .next (s.answer stOK 0xFFFF (leBytes 2 (cfgVer s.mb.cur) ++ leBytes 2 (cfgEntries
        s.mb.cur).length ++ leBytes 2 (((cfgEntries s.mb.cur).drop (leAt q.payload 2 2)).take 169).length ++ leBytes
        2 0 ++ (((cfgEntries s.mb.cur).drop (leAt q.payload 2 2)).take 169).flatMap CfgEntry.bytes))) ∧
    (∀ (s : State) (q : Req), s.taking 0x0204 = some q → leAt q.payload 0 1 = 1 → s.mb.prev.isNone = true →
      exec .cfgRead s = .next (s.answer stNOTFOUND)) ∧
    (∀ (s : State) (q : Req) (host : List Nat) (n : Nat) (bs : List (BitVec 8)), s.taking 0x0300 = some q → bitOf (leAt
      q.payload 0 8) 63 = false → s.isLocalAddr (leAt q.payload 0 8) = true → bitsOf (leAt q.payload 0 8) 41 0 +
      leAt q.payload 8 4 ≤ dramTop → s.freeTicket = some n → s.readPlanBytes (leAt q.payload 0 8) (leAt q.payload 8
      4) host = .ok bs →
      exec (.planLoad host) s = .next (
        match s.planCheck bs with
        | some st => (accepted s 0x0300 n).endTicket n st 0xFFFF
        | none => (if 96 < (readPlan bs).blocks then ({ accepted s 0x0300 n with topo.loaded := some (readPlan bs) }
          : State).note evPlanUnqualified 1 0 0 [(readPlan bs).blocks] else
          ({ accepted s 0x0300 n with topo.loaded := some (readPlan bs) } : State)).endTicket n stOK 0xFFFF)) ∧
    (∀ (s : State) (q : Req) (host : List Nat), s.taking 0x0300 = some q → bitOf (leAt q.payload 0 8) 63 = false →
      s.isLocalAddr (leAt q.payload 0 8) = false →
      exec (.planLoad host) s = .next (s.answer stPOLICY)) ∧
    (∀ (s : State) (q : Req) (n : Nat), s.taking 0x0301 = some q → s.groupHolds = false → s.freeTicket = some n →
      s.topo.loaded = none →
      exec .planCommit s = .next ((accepted s 0x0301 n).endTicket n stNOTFOUND 0xFFFF)) ∧
    (∀ (s : State) (q : Req) (n : Nat) (pl : Plan), s.taking 0x0301 = some q → s.groupHolds = false → s.freeTicket = some
      n → s.topo.loaded = some pl → s.topo.cur = none →
      exec .planCommit s = .next (((({ accepted s 0x0301 n with topo.loaded := none } : State).adoptPlan (some pl)
        none).kick).endTicket n stOK 0xFFFF)) ∧
    (∀ (s : State) (q : Req) (n : Nat), s.taking 0x0302 = some q → s.groupHolds = false → s.freeTicket = some n →
      s.topo.prev = none →
      exec .planRevert s = .next ((accepted s 0x0302 n).endTicket n stNOTFOUND 0xFFFF)) ∧
    (∀ (s : State) (q : Req) (n : Nat) (pl : Plan), s.taking 0x0302 = some q → s.groupHolds = false → s.freeTicket = some
      n → s.topo.prev = some pl →
      exec .planRevert s = .next ((((accepted s 0x0302 n).adoptPlan (some pl) none).kick).endTicket n stOK 0xFFFF)) ∧
    (∀ (s : State) (q : Req) (n : Nat) (r : CfgRecord), s.taking 0x0203 = some q → s.groupHolds = false → s.freeTicket =
      some n → s.mb.prev = some r → (∀ x ∈ persInsts, s.cfgConflict (cfgEntries s.mb.cur) r.entries x.1 x.2 = false)
      →
      exec .cfgRevert s = .next (((({ accepted s 0x0203 n with mb.cur := some r, mb.prev := none } :
        State).applyChanges (cfgEntries s.mb.cur) r.entries).reportCfg.note evCfgRevert 0 9 1 [cfgVer s.mb.cur,
        r.ver]).endTicket n stOK 0xFFFF (leBytes 2 r.ver))) ∧
    (∀ (s : State) (q : Req) (n : Nat) (pl c : Plan), s.taking 0x0301 = some q → s.groupHolds = false → s.freeTicket =
      some n → s.topo.loaded = some pl → s.topo.cur = some c → newer pl.ver c.ver = true →
      exec .planCommit s = .next (((({ accepted s 0x0301 n with topo.loaded := none } : State).adoptPlan (some pl)
        (some c)).kick).endTicket n stOK 0xFFFF)) ∧
    (∀ (s : State) (q : Req) (host : List Nat) (n : Nat) (bs : List (BitVec 8)), s.taking 0x0300 = some q → bitOf (leAt
      q.payload 0 8) 63 = true → s.freeTicket = some n → s.readPlanBytes (leAt q.payload 0 8) (leAt q.payload 8 4)
      host = .ok bs →
      exec (.planLoad host) s = .next (
        match s.planCheck bs with
        | some st => ((accepted s 0x0300 n).emit (.hostRead (bitsOf (leAt q.payload 0 8) 51 0) (leAt q.payload 8
          4))).endTicket n st 0xFFFF
        | none => (if 96 < (readPlan bs).blocks then
          ({ (accepted s 0x0300 n).emit (.hostRead (bitsOf (leAt q.payload 0 8) 51 0) (leAt q.payload 8 4)) with topo.loaded := some (readPlan bs) }
          : State).note evPlanUnqualified 1 0 0 [(readPlan bs).blocks] else
          { (accepted s 0x0300 n).emit (.hostRead (bitsOf (leAt q.payload 0 8) 51 0) (leAt q.payload 8 4)) with topo.loaded := some (readPlan bs) }).endTicket
          n stOK 0xFFFF))

/-- A step tick advances the counter by one, or uses up one held tick, and every port whose channel is up sends
TICK; the parent's count pulls the own one forward, holds it, or resets it. A master port sends Sync and Follow_Up
each interval and Announce every eighth. A slave port stamps a Sync and asks for the delay; the two times that
follow complete the exchange, which gives the path delay and the offset that the servo takes. An announce enters
the selection and the parent's silence leaves it. A PPS edge of an enabled grandmaster is taken; three seconds
without one is holdover. TIM_SET steps a grandmaster's time and is refused elsewhere. A read of TIM_NOW latches
the counters. A trigger arms, fires at once and late where its condition holds already, disarms, and fires when
its condition holds, with its interrupt or its event update, which is dropped and recorded where no context is
active; firmware's triggers refuse the host. (R594, R600, R601, R602, R605, R606, R609, R610, R613, R615, R617,
R618.) -/
def Obligations.TimeRows : Prop :=
    (∀ (s : State), s.flag F.TIM_STATUS.COARSE = false → s.time.hold = 0 →
      ∃ t, exec .stepTick s = .next t ∧ t.time.step = (s.time.step + 1) % 2 ^ 48 ∧ t.time.hold = 0 ∧ (∀ p, p < 24 →
        s.chanUp p = true → Output.ctrl p cbTICK [t.time.step, s.rd F.TIM_STATUS.LOCKED] ∈ t.out) ∧ t.mem = s.mem ∧
        t.regs = s.regs) ∧
    (∀ (s : State), s.flag F.TIM_STATUS.COARSE = false → 0 < s.time.hold →
      ∃ t, exec .stepTick s = .next t ∧ t.time.step = s.time.step ∧ t.time.hold = s.time.hold - 1 ∧ (∀ p, p < 24 →
        s.chanUp p = true → Output.ctrl p cbTICK [t.time.step, s.rd F.TIM_STATUS.LOCKED] ∈ t.out) ∧ t.mem = s.mem ∧
        t.regs = s.regs) ∧
    (∀ (s : State) (port step : Nat) (locked : Bool), s.ptpPort port = true → s.role = roSLAVE → s.rd F.TIM_STATUS.PARENT
      = port → s.time.step < step →
      exec (.tick port step locked) s = .next (({ s with time.step := step, time.hold := 0 } : State).note
        evStepSlip 1 0 0 [step - s.time.step, 0])) ∧
    (∀ (s : State) (port step : Nat) (locked : Bool), s.ptpPort port = true → s.role = roSLAVE → s.rd F.TIM_STATUS.PARENT
      = port → step < s.time.step → s.time.step - step ≠ s.time.hold → s.time.step - step ≤ 2 ^ 20 →
      exec (.tick port step locked) s = .next (({ s with time.hold := s.time.step - step } : State).note evStepSlip
        1 0 0 [s.time.step - step, 1])) ∧
    (∀ (s : State) (port step : Nat) (locked : Bool), s.ptpPort port = true → s.role = roSLAVE → s.rd F.TIM_STATUS.PARENT
      = port → step < s.time.step → s.time.step - step ≠ s.time.hold → 2 ^ 20 < s.time.step - step →
      exec (.tick port step locked) s = .next (({ s with time.step := step, time.hold := 0 } : State).note
        evStepReset 1 0 0 [s.time.step, step])) ∧
    (∀ (s : State) (port step : Nat) (locked : Bool), s.ptpPort port = true → s.role = roSLAVE → s.rd F.TIM_STATUS.PARENT
      = port → (step = s.time.step ∨ (step < s.time.step ∧ s.time.step - step = s.time.hold)) →
      exec (.tick port step locked) s = .next s) ∧
    (∀ (s : State) (port : Nat), s.ptpRole port = 1 → s.flag F.TIM_STATUS.COARSE = false → kget s.time.syncs port 0 % 8 ≠
      0 →
      exec (.syncInterval port) s = .next
        ({ s with out := s.out ++ [Output.ptp port ptpSYNC [(s.rd F.TIM_CFG.DOMAIN : Int), ((kget s.time.syncs port 0 % 2 ^ 16 : Nat) : Int)]] ++ [Output.ptp port ptpFOLLOW_UP [(s.rd F.TIM_CFG.DOMAIN : Int), ((kget s.time.syncs port 0 % 2 ^ 16 : Nat) : Int), s.txStamp port]], time.syncs := kset s.time.syncs port (kget s.time.syncs port 0 + 1) })) ∧
    (∀ (s : State) (port : Nat), s.ptpRole port = 1 → s.flag F.TIM_STATUS.COARSE = false → kget s.time.syncs port 0 % 8 =
      0 →
      exec (.syncInterval port) s = .next
        ({ s with out := s.out ++ [Output.ptp port ptpSYNC [(s.rd F.TIM_CFG.DOMAIN : Int), ((kget s.time.syncs port 0 % 2 ^ 16 : Nat) : Int)]] ++ [Output.ptp port ptpFOLLOW_UP [(s.rd F.TIM_CFG.DOMAIN : Int), ((kget s.time.syncs port 0 % 2 ^ 16 : Nat) : Int), s.txStamp port]] ++ [Output.ptp port ptpANNOUNCE [(s.rd F.TIM_CFG.DOMAIN : Int), ((kget s.time.syncs port 0 / 8 % 2 ^ 16 : Nat) : Int), (s.announceDs.gmNode : Int), (s.announceDs.gmFpr : Int), (s.announceDs.prio1 : Int), (s.announceDs.clockClass : Int), 128, (s.announceDs.stepsRemoved : Int)]], time.syncs := kset s.time.syncs port (kget s.time.syncs port 0 + 1) })) ∧
    (∀ (s : State) (port domain seqId : Nat) (t2 : Int), s.slavePort port domain = true → s.flag F.TIM_STATUS.COARSE =
      false →
      exec (.sync port domain seqId t2) s = .next
        ({ s with time.exch := kset s.time.exch port ⟨seqId, none, t2 - s.ingress port, s.txStamp port, none⟩, out := s.out ++ [Output.ptp port ptpDELAY_REQ [(domain : Int), (seqId : Int)]] })) ∧
    (∀ (s : State) (port domain seqId : Nat) (v : Int) (x : Exch), s.slavePort port domain = true → kfind s.time.exch
      port = some x → x.seq = seqId → x.t4 = none →
      exec (.followUp port domain seqId v) s = .next
        ({ s with time.exch := kset s.time.exch port { x with t1 := some v } })) ∧
    (∀ (s : State) (port domain seqId : Nat) (v w : Int) (x : Exch), s.slavePort port domain = true → kfind s.time.exch
      port = some x → x.seq = seqId → x.t4 = some w →
      exec (.followUp port domain seqId v) s = .next (((((({ s with time.exch := kdel s.time.exch port } : State).wr
        F.TIM_PORT.MPD (min 65535 ((((x.t2 - v) + (w - x.t3)) / 2).toNat * 10 / 256)) port).noteLength port ((((x.t2
        - v) + (w - x.t3)) / 2).toNat * 100 / (256 * 49))).judgeLock ((x.t2 - v) - ((((x.t2 - v) + (w - x.t3)) / 2)
        + s.asym port))).servo ((x.t2 - v) - ((((x.t2 - v) + (w - x.t3)) / 2) + s.asym port)) 0))) ∧
    (∀ (s : State) (port domain seqId : Nat) (v : Int) (x : Exch), s.slavePort port domain = true → kfind s.time.exch
      port = some x → x.seq = seqId → x.t1 = none →
      exec (.delayResp port domain seqId v) s = .next
        ({ s with time.exch := kset s.time.exch port { x with t4 := some v } })) ∧
    (∀ (s : State) (port domain seqId : Nat) (v w : Int) (x : Exch), s.slavePort port domain = true → kfind s.time.exch
      port = some x → x.seq = seqId → x.t1 = some w →
      exec (.delayResp port domain seqId v) s = .next (((((({ s with time.exch := kdel s.time.exch port } :
        State).wr F.TIM_PORT.MPD (min 65535 ((((x.t2 - w) + (v - x.t3)) / 2).toNat * 10 / 256)) port).noteLength
        port ((((x.t2 - w) + (v - x.t3)) / 2).toNat * 100 / (256 * 49))).judgeLock ((x.t2 - w) - ((((x.t2 - w) + (v
        - x.t3)) / 2) + s.asym port))).servo ((x.t2 - w) - ((((x.t2 - w) + (v - x.t3)) / 2) + s.asym port)) 0))) ∧
    (∀ (s : State) (port domain seqId : Nat) (t4 : Int), s.ptpRole port = 1 → domain = s.rd F.TIM_CFG.DOMAIN → s.flag
      F.TIM_STATUS.COARSE = false →
      exec (.delayReq port domain seqId t4) s = .next (s.emit (.ptp port ptpDELAY_RESP [(domain : Int), (seqId :
        Int), t4 - s.ingress port]))) ∧
    (∀ (s : State) (port domain : Nat) (ds : AnnounceDs), s.ptpPort port = true → domain = s.rd F.TIM_CFG.DOMAIN →
      ds.stepsRemoved < 255 →
      exec (.announce port domain ds) s = .next (({ s with time.anns := kset s.time.anns port ds } :
        State).selectParent false)) ∧
    (∀ (s : State), s.role = roSLAVE → exec .announceTimeout s = .next
      (({ s with time.anns := kdel s.time.anns (s.rd F.TIM_STATUS.PARENT) } : State).selectParent true)) ∧
    (∀ (s : State), s.flag F.TIM_STATUS.GM = true → s.flag F.TIM_CFG.PPS_EN = true → s.ppsAccepts = true → s.nt %
      1000000000 < 500000000 →
      exec .ppsEdge s = .next (((({ s with time.ppsAt := some s.time.raw, time.pps := 1 } : State).wr
        F.TIM_PPS.VALUE s.nt).beMaster).servo (((s.nt % 1000000000 : Nat) : Int) * 256) 2)) ∧
    (∀ (s : State), s.flag F.TIM_STATUS.GM = true → s.flag F.TIM_CFG.PPS_EN = true → s.ppsAccepts = true → 500000000 ≤
      s.nt % 1000000000 →
      exec .ppsEdge s = .next (((({ s with time.ppsAt := some s.time.raw, time.pps := 1 } : State).wr
        F.TIM_PPS.VALUE s.nt).beMaster).servo ((((s.nt % 1000000000 : Nat) : Int) - 1000000000) * 256) 2)) ∧
    (∀ (s : State), s.role = roPPS → exec .ppsTimeout s = .next ((({ s with time.ppsAt := none, time.pps := 2 } :
      State).beMaster).note evHoldover 1 0 0 [1])) ∧
    (∀ (s : State), s.flag F.TIM_STATUS.GM = true → exec .timSetGo s = .next ((s.leaveDormant.stepTime ((s.nt : Int) -
      s.rd F.TIM_SET.VALUE) 1).wr F.TIM_SET_CTL.STATUS stOK)) ∧
    (∀ (s : State), s.flag F.TIM_STATUS.GM = false → exec .timSetGo s = .next (s.leaveDormant.wr F.TIM_SET_CTL.STATUS
      stPOLICY)) ∧
    (∀ (s : State),
      ∃ t, exec .timNowRead s = .next t ∧ t.out = s.out ++ [Output.bar0 s.nt] ∧ t.rd F.TIM_SNAP_RAW.RAW = s.time.raw
        % 2 ^ 64 ∧ t.rd F.TIM_SNAP_STEP.STEP = s.time.step % 2 ^ 48 ∧ t.rd F.TIM_SNAP_STEP.EPOCH = s.time.epoch % 2
        ^ 16 ∧ t.mem = s.mem) ∧
    (∀ (s : State) (n val : Nat) (x : Trig), n < 12 → x = ⟨(s.leaveDormant.trigWrite n val).rd F.TIM_TRIG_TGT.TARGET n,
      ((s.leaveDormant.trigWrite n val).rreg .TIM_TRIG_CTL n).toNat⟩ → (s.leaveDormant.trigWrite n val).trigHolds x
      = false →
      exec (.triggerArm n val) s = .next
        (({ s.leaveDormant.trigWrite n val with time.trigs := kset s.time.trigs n x } : State).wr F.TIM_TRIG_CTL.ARM
        1 n)) ∧
    (∀ (s : State) (n val : Nat) (x : Trig), n < 12 → x = ⟨(s.leaveDormant.trigWrite n val).rd F.TIM_TRIG_TGT.TARGET n,
      ((s.leaveDormant.trigWrite n val).rreg .TIM_TRIG_CTL n).toNat⟩ → (s.leaveDormant.trigWrite n val).trigHolds x
      = true → bitOf x.ctl 4 = true →
      exec (.triggerArm n val) s = .next
        ((((({ s.leaveDormant.trigWrite n val with time.trigs := kdel s.time.trigs n } : State).wr
        F.TIM_TRIG_CTL.ARM 0 n).wr F.TIM_TRIG_CTL.FIRED 1 n).wr F.TIM_TRIG_CTL.LATE 1 n).emit (.msix (bitsOf x.ctl
        21 16)))) ∧
    (∀ (s : State) (n val : Nat), 12 ≤ n → n < 16 → exec (.triggerArm n val) s = .next (s.leaveDormant.trigReject n)) ∧
    (∀ (s : State) (n val : Nat), n < 12 → exec (.triggerDisarm n val) s = .next
      (({ s.leaveDormant.trigWrite n val with time.trigs := kdel s.time.trigs n } : State).wr F.TIM_TRIG_CTL.ARM 0
      n)) ∧
    (∀ (s : State) (n val : Nat), 12 ≤ n → n < 16 → exec (.triggerDisarm n val) s = .next (s.leaveDormant.trigReject n)) ∧
    (∀ (s : State) (n : Nat) (x : Trig), kfind s.time.trigs n = some x → s.trigHolds x = true → n < 12 → bitOf x.ctl 4 =
      true →
      exec (.triggerFire n) s = .next (((({ s with time.trigs := kdel s.time.trigs n } : State).wr
        F.TIM_TRIG_CTL.ARM 0 n).wr F.TIM_TRIG_CTL.FIRED 1 n).emit (.msix (bitsOf x.ctl 21 16)))) ∧
    (∀ (s : State) (n : Nat) (x : Trig), kfind s.time.trigs n = some x → s.trigHolds x = true → n < 12 → bitOf x.ctl 4 =
      false → s.ctxState (bitsOf x.ctl 15 8) = ctxACTIVE →
      exec (.triggerFire n) s = .next (((({ s with time.trigs := kdel s.time.trigs n } : State).wr
        F.TIM_TRIG_CTL.ARM 0 n).wr F.TIM_TRIG_CTL.FIRED 1 n).updateEvent (bitsOf x.ctl 15 8) (bitsOf x.ctl 21 16)
        true 1)) ∧
    (∀ (s : State) (n : Nat) (x : Trig), kfind s.time.trigs n = some x → s.trigHolds x = true → n < 12 → bitOf x.ctl 4 =
      false → s.ctxState (bitsOf x.ctl 15 8) ≠ ctxACTIVE →
      exec (.triggerFire n) s = .next (((({ s with time.trigs := kdel s.time.trigs n } : State).wr
        F.TIM_TRIG_CTL.ARM 0 n).wr F.TIM_TRIG_CTL.FIRED 1 n).note evTrigDrop 0 0 0 [n, bitsOf x.ctl 15 8])) ∧
    (∀ (s : State) (n : Nat) (x : Trig), kfind s.time.trigs n = some x → s.trigHolds x = true → 12 ≤ n → n < 16 →
      exec (.triggerFire n) s = .next ((({ s with time.trigs := kdel s.time.trigs n } : State).wr F.TIM_TRIG_CTL.ARM
        0 n).wr F.TIM_TRIG_CTL.FIRED 1 n))

/-- A discovery block on a port whose channel is up or in BEACON is kept; the first of a kind is counted as one
and judges nothing, and the third identical one in a row gives the port its verdict, MATCH where it comes from the
planned peer and hears this port. A neighbour with a newer plan is recorded once per version. A port sends its own
block. A port without a block for DISC_TO forgets the neighbour and becomes NONE without a plan, MISSING where the
plan wires it, or UNUSED. A rebuild makes every member, cell and block entry anew from the usable ports, leaves
the node entries, and without a plan leaves the node entries alone; it is mirrored to the buddy. (R539, R540,
R541, R544, R546, R549, R551, spec/11_topology_and_discovery.md.) -/
def Obligations.TopologyRows : Prop :=
    (∀ (s : State) (port : Nat) (blk : Disc), (s.laneState (w0Lane port) = lsUP ∨ s.laneState (w0Lane port) = lsBEACON) →
      (s.portDisc port).last = none → s.topo.cur = none →
      exec (.disc port blk) s = .next (s.setPortDisc port
        { s.portDisc port with last := some blk, same := 1, silent := false, accept := if (blk.acceptSwap && blk.heardValid && blk.heardNode == s.node && blk.heardPort == port) = true then (s.portDisc port).accept + 1 else 0 })) ∧
    (∀ (s : State) (port : Nat) (blk l : Disc), (s.laneState (w0Lane port) = lsUP ∨ s.laneState (w0Lane port) = lsBEACON)
      → (s.portDisc port).last = some l → sameDisc l blk = false → s.topo.cur = none →
      exec (.disc port blk) s = .next (s.setPortDisc port
        { s.portDisc port with last := some blk, same := 1, silent := false, accept := if (blk.acceptSwap && blk.heardValid && blk.heardNode == s.node && blk.heardPort == port) = true then (s.portDisc port).accept + 1 else 0 })) ∧
    (∀ (s : State) (port : Nat) (blk l : Disc) (p : Plan), (s.laneState (w0Lane port) = lsUP ∨ s.laneState (w0Lane port)
      = lsBEACON) → (s.portDisc port).last = some l → sameDisc l blk = true → 2 ≤ (s.portDisc port).same →
      s.topo.cur = some p → s.topo.swaps = [] → p.peer s.node port = some (blk.node, blk.port) → blk.planLoaded =
      true → blk.planVer = p.ver → blk.planCrc = p.crc → blk.node ≠ s.node → (s.flag F.PTH_DISC_CFG.IDENT_CHECK =
      false ∨ kget p.fpr blk.node 0 = 0 ∨ blk.fpr = kget p.fpr blk.node 0) → (blk.heardValid = true ∧ blk.heardNode
      = s.node ∧ blk.heardPort = port) → blk.quar = false →
      exec (.disc port blk) s = .next ((s.setPortDisc port
        { s.portDisc port with last := some blk, same := (s.portDisc port).same + 1, silent := false, accept := if (blk.acceptSwap && blk.heardValid && blk.heardNode == s.node && blk.heardPort == port) = true then (s.portDisc port).accept + 1 else 0 }).setVerdict
        port vMATCH (some blk))) ∧
    (∀ (s : State) (port : Nat) (blk : Disc) (p : Plan), (s.laneState (w0Lane port) = lsUP ∨ s.laneState (w0Lane port) =
      lsBEACON) → (s.portDisc port).last = none → s.topo.cur = some p → blk.planLoaded = true → newer blk.planVer
      p.ver = true → blk.planVer ≠ p.ver → blk.planVer ∉ (s.portDisc port).skew →
      exec (.disc port blk) s = .next ((s.setPortDisc port
        { s.portDisc port with last := some blk, same := 1, silent := false, skew := blk.planVer :: (s.portDisc port).skew, accept := if (blk.acceptSwap && blk.heardValid && blk.heardNode == s.node && blk.heardPort == port) = true then (s.portDisc port).accept + 1 else 0 }).note
        evPlanSkew 0 7 port [port, blk.planVer])) ∧
    (∀ (s : State) (port : Nat) (blk l : Disc), (s.laneState (w0Lane port) = lsUP ∨ s.laneState (w0Lane port) = lsBEACON)
      → (s.portDisc port).last = some l → sameDisc l blk = true → 2 ≤ (s.portDisc port).same → s.topo.cur = none →
      exec (.disc port blk) s = .next ((s.setPortDisc port
        { s.portDisc port with last := some blk, same := (s.portDisc port).same + 1, silent := false, accept := if (blk.acceptSwap && blk.heardValid && blk.heardNode == s.node && blk.heardPort == port) = true then (s.portDisc port).accept + 1 else 0 }).setVerdict
        port vNONE (some blk))) ∧
    (∀ (s : State) (port : Nat), (s.laneState (w0Lane port) = lsUP ∨ s.laneState (w0Lane port) = lsBEACON) → s.topo.cur =
      none → (s.portDisc port).last = none →
      ∃ t, exec (.discSend port) s = .next t ∧ t = s.emit (.ctrl port cbDISC [0, s.rd F.ID_NODE.NODE_VALID, s.rd
        F.PTH_DISC_PORT.QUAR port, s.rd F.PTH_DISC_PORT.SWAP_SENT port, 0, 0, port, s.lk.inc, 0, 0, s.fprLow, 0, 0,
        s.verdict port])) ∧
    (∀ (s : State) (port : Nat), s.topo.cur = none → exec (.discTimeout port) s = .next ((s.setPortDisc port
      { s.portDisc port with last := none, same := 0, accept := 0, silent := true }).setVerdict port vNONE none)) ∧
    (∀ (s : State) (port : Nat) (pl : Plan) (w : Nat × Nat), s.topo.cur = some pl → s.wired s.node port = some w →
      exec (.discTimeout port) s = .next ((s.setPortDisc port
        { s.portDisc port with last := none, same := 0, accept := 0, silent := true }).setVerdict port vMISSING
        none)) ∧
    (∀ (s : State) (pl : Plan), s.topo.cur = some pl →
      ∃ t, exec .routingRebuild s = .next t ∧ t.topo.stale = false ∧ t.routes = (s.routes.filter fun e => decide
        (e.1 < 0x20000)) ++ (((List.range 16).filter fun m => m != nodeMember s.node).map fun m => (memberKey m,
        gateHops (s.memberGates m))) ++ (((List.range 16).filter fun c => c != nodeCell s.node).map fun c =>
        (cellKey c, gateHops (s.cellGates c))) ++ (((List.range pl.blocks).filter fun b => b != nodeBlock
        s.node).map fun b => (blockKey b, gateHops (s.blockGates b))) ∧ t.mem = s.mem) ∧
    (∀ (s : State), s.topo.cur = none → exec .routingRebuild s = .next
      ({ s with routes := s.routes.filter fun e => decide (e.1 < 0x20000), topo.stale := false } : State).orqMirror)

/-- A period of the running engine counts as one. A group with three late periods in a row goes from FULL to HALF
and from HALF to HOLD, recorded at SEV1, and 20,000 clean ones return it from HALF to FULL; a resume returns it at
once. A ramp record that came in time sets the loop's ramp, a re-cable record waits for its tick, and a late one
is dropped and counted. A set-point by register waits for the loop's next sample; an index that is no hinge is
refused and recorded. A hold stops a closed loop and its release restores it without a bump. Feedback that is bad
for enough windows holds the loop at its last good drive, and enough good windows end that. (R574, R575, R576,
R577, R579, R580, R581, R583, R584, R585, R586, spec/12_hinge_control_engine.md.) -/
def Obligations.HingeRows : Prop :=
    (∀ (s : State) (taps : List LoopTap) (late : List Nat), s.flag F.HCE_STATUS.RUN = true →
      ∃ t, exec (.hcePeriod taps late) s = .next t ∧ t.hce.period = s.hce.period + 1) ∧
    (∀ (s : State) (taps : List LoopTap) (late : List Nat), s.flag F.HCE_STATUS.RUN = false →
      exec (.hcePeriod taps late) s = .next (s)) ∧
    (∀ (s : State) (group : Nat), group < 21 → 3 ≤ s.rd F.HCE_GRP.CONSEC group → s.rd F.HCE_GRP.RATE group = grFULL →
      exec (.groupRateDown group) s = .next (((s.wr F.HCE_GRP.CONSEC 0 group).wr F.HCE_GRP.RATE grHALF group).note
        evGroupHalf 1 0 0 [group, s.rd F.HCE_GRP.OVR_COUNT group])) ∧
    (∀ (s : State) (group : Nat), group < 21 → 3 ≤ s.rd F.HCE_GRP.CONSEC group → s.rd F.HCE_GRP.RATE group = grHALF →
      exec (.groupRateDown group) s = .next ((((s.wr F.HCE_GRP.CONSEC 0 group).wr F.HCE_GRP.RATE grHOLD
        group).groupHold group).note evGroupHold 1 0 0 [group, ((groupLoops group).filter fun i => s.hceState i !=
        hsOPEN).length, s.groupLit group])) ∧
    (∀ (s : State) (group : Nat), s.rd F.HCE_GRP.RATE group = grHALF → 20000 ≤ (s.hceGroup group).clean →
      exec (.groupRateRestore group) s = .next ((((s.setHceGroup group { s.hceGroup group with clean := 0 }).wr
        F.HCE_GRP.RATE grFULL group).wr F.HCE_GRP.CONSEC 0 group).note evRateRestored 0 0 0 [group, grHALF])) ∧
    (∀ (s : State) (group : Nat), group < 21 → s.rd F.HCE_GRP.RATE group ≠ grFULL →
      exec (.groupResume group) s = .next (s.leaveDormant.groupFull group)) ∧
    (∀ (s : State) (loop : Nat) (target lit : Bool) (start late : Nat), loop < 2700 → s.hce.queue.length < 4096 → late ≤
      s.lateMax →
      exec (.rampRecord loop target false lit start late) s = .next (s.setRamp ⟨loop, target, lit, start⟩ s.tSetup
        0)) ∧
    (∀ (s : State) (loop : Nat) (target recable lit : Bool) (start late : Nat), loop < 2700 → s.hce.queue.length < 4096 →
      (recable = false ∨ start ≤ s.time.step) → s.lateMax < late →
      exec (.rampRecord loop target recable lit start late) s = .next ((s.bump F.HCE_CNT_LATE.COUNT).note evRampLate
        0 8 loop [loop, start, late])) ∧
    (∀ (s : State) (loop : Nat) (target lit : Bool) (start late : Nat), loop < 2700 → s.hce.queue.length < 4096 →
      s.time.step < start →
      exec (.rampRecord loop target true lit start late) s = .next
        ({ s with hce.queue := s.hce.queue ++ [⟨loop, target, lit, start⟩] })) ∧
    (∀ (s : State) (step late : Nat) (r : RampRec), ((s.hce.queue.filter fun r => r.start == step) = [r]) → late ≤
      s.lateMax → hingeColour (s.standIn r.loop) = 0 →
      exec (.rampStart step late) s = .next (({ s with hce.queue := s.hce.queue.filter fun r => r.start != step } :
        State).setRamp r s.tRecable 0)) ∧
    (∀ (s : State) (val : Nat), bitsOf val 11 0 < 2700 → exec (.hceSpGo val) s = .next ((((s.leaveDormant.wr
      F.HCE_SP.LOOP (bitsOf val 11 0)).wr F.HCE_SP.TARGET (bitsOf val 12 12)).wr F.HCE_SP.LIT (bitsOf val 13
      13)).stepPoint (bitsOf val 11 0) (bitOf val 12) (bitOf val 13))) ∧
    (∀ (s : State) (val : Nat), 2700 ≤ bitsOf val 11 0 →
      ∃ t, exec (.hceSpGo val) s = .next t ∧ t.hce = s.hce ∧ t.mem = s.mem ∧ Recorded s t evHceReject 0 0 0) ∧
    (∀ (s : State) (loop : Nat), loop < 3148 → s.hceState loop = hsCLOSED →
      exec (.loopHold loop) s = .next ((((s.leaveDormant.wr F.HCE_LOOP_CTL.HOLD 1 loop).setLoop loop
        { s.loop loop with once := false }).setLoop loop
        { s.loop loop with once := false, prior := hsCLOSED }).setHceState loop hsHOLD)) ∧
    (∀ (s : State) (loop : Nat), loop < 3148 → s.hceState loop = hsHOLD → (s.loop loop).prior = hsCLOSED →
      exec (.loopHoldRelease loop) s = .next ((s.leaveDormant.wr F.HCE_LOOP_CTL.HOLD 0 loop).bumpless loop)) ∧
    (∀ (s : State) (loop : Nat), loop < 3148 → s.hceState loop = hsHOLD → (s.loop loop).prior = hsSETTLE →
      exec (.loopHoldRelease loop) s = .next ((s.leaveDormant.wr F.HCE_LOOP_CTL.HOLD 0 loop).setHceState loop
        hsSETTLE)) ∧
    (∀ (s : State) (loop set : Nat), loop < 3148 → s.hceState loop = hsCLOSED →
      exec (.setSelWrite loop set) s = .next (((s.leaveDormant.wr F.HCE_LOOP_CTL.SET_SEL (set % 16) loop).setLoop
        loop
        { (s.wr F.HCE_LOOP_CTL.SET_SEL (set % 16) loop).loop loop with once := true, prior := hsCLOSED }).setHceState
        loop hsHOLD)) ∧
    (∀ (s : State) (loop set : Nat), loop < 3148 → s.hceState loop ≠ hsCLOSED →
      exec (.setSelWrite loop set) s = .next (s.leaveDormant.wr F.HCE_LOOP_CTL.SET_SEL (set % 16) loop)) ∧
    (∀ (s : State) (judged : List WindowTap) (i : Nat), (((judged.map WindowTap.loop).eraseDups.filter fun i => decide (i
      < 3148)) = [i]) → s.hceState i = hsCLOSED → (((judged.filter fun t => t.loop == i).find? fun t => decide
      (t.cause ≠ .good)) = none) →
      exec (.hceWindow judged) s = .next (s.setLoop i
        { s.loop i with bad := 0, goodU := sat32 ((s.loop i).u - (s.loop i).c) })) ∧
    (∀ (s : State) (judged : List WindowTap) (i : Nat) (w : WindowTap), (((judged.map WindowTap.loop).eraseDups.filter
      fun i => decide (i < 3148)) = [i]) → s.hceState i = hsCLOSED → (((judged.filter fun t => t.loop == i).find?
      fun t => decide (t.cause ≠ .good)) = some w) → s.rd1 F.HCE_PILOT_CFG.BAD_WIN ≤ (s.loop i).bad + 1 →
      exec (.hceWindow judged) s = .next (((((((s.setLoop i
        { s.loop i with bad := 0, good := 0, since := s.opMs, u := sat32 ((s.loop i).goodU + (s.loop i).c) }).bump
        F.HCE_CNT_FB.COUNT).bump F.HCE_LOOP_STAT.FB_HOLDS i).wr F.HCE_LOOP_STAT.DEGRADED 1 i).setHceState i
        hsFB_HOLD).note evFbHold 1 8 i ([i, w.tap, causeCode w.cause] ++ ((((s.setLoop i
        { s.loop i with bad := 0, good := 0, since := s.opMs, u := sat32 ((s.loop i).goodU + (s.loop i).c) }).bump
        F.HCE_CNT_FB.COUNT).bump F.HCE_LOOP_STAT.FB_HOLDS i).wr F.HCE_LOOP_STAT.DEGRADED 1 i).lanesServed i)))) ∧
    (∀ (s : State) (judged : List WindowTap) (i : Nat), (((judged.map WindowTap.loop).eraseDups.filter fun i => decide (i
      < 3148)) = [i]) → s.hceState i = hsFB_HOLD → (((judged.filter fun t => t.loop == i).find? fun t => decide
      (t.cause ≠ .good)) = none) → s.rd1 F.HCE_CFG.RECOVER_WIN ≤ (s.loop i).good + 1 →
      exec (.hceWindow judged) s = .next ((((s.bumpless i).wr F.HCE_LOOP_STAT.DEGRADED 0 i).note evFbRecovered 0 8 i
        [i, s.opMs - (s.loop i).since])))

/-- A lane goes from CDR to ADAPT when its clock is recovered, to ALIGN or back to CHECK when its equaliser has
converged, and to INIT at its alignment, when it sends its INIT block; a failed wavelength-0 channel trains again,
or sends its beacon while its port is quarantined. A wrong far end fails a circuit's lane; a good one that is not
ready waits, and a ready one names the RCIRC of packets to it. 6,000 codewords with at most 3,264 corrected
symbols and none uncorrectable bring a lane up, and its circuit with its last lane; the first failure of the check
adapts once more, the second fails the lane, as does a state that lasts too long. Each condition of Table 9-8
fails a lane in use. A flow block gives its credits back and frees what it acknowledges, and a gap it names is
sent again. An acknowledgement that does not come sends everything again, and at REPLAY_MAX in a row fails the
lanes. Bit errors, uncorrectable codewords and packet CRC errors are counted and a gap is answered once. A packet
goes to the next lane in turn with its number, the peer's RCIRC and its 32-byte header. (R445, R446, R447, R448,
R451, R454, R459, R460, R464, R465, R477, spec/09_fezen_links.md.) -/
def Obligations.LaneRows : Prop :=
    (∀ (s : State) (lane : Nat), s.laneState lane = lsCDR → exec (.laneClockRecovered lane) s = .next ((s.setLaneState
      lane lsADAPT).setLane lane { s.lane lane with retried := false, initOk := false })) ∧
    (∀ (s : State) (lane : Nat), 180 ≤ lane → s.laneState lane = lsFAILED → s.flag F.LAT_PORT.QUAR (lane - 180) = true →
      exec (.laneClockRecovered lane) s = .next (s.setLaneState lane lsBEACON)) ∧
    (∀ (s : State) (lane : Nat), 180 ≤ lane → s.laneState lane = lsFAILED → s.flag F.LAT_PORT.QUAR (lane - 180) = false →
      exec (.laneClockRecovered lane) s = .next ((s.setLaneState lane lsADAPT).setLane lane
        { s.lane lane with retried := false, initOk := false })) ∧
    (∀ (s : State) (lane : Nat), s.laneState lane = lsADAPT → exec (.laneEqualiserConverged lane) s = .next
      (s.setLaneState lane (if (s.lane lane).retried then lsCHECK else lsALIGN))) ∧
    (∀ (s : State) (lane c : Nat), s.laneState lane = lsALIGN → s.laneCirc lane = some c →
      exec (.laneAlignmentFound lane) s = .next ((s.setLaneState lane lsINIT).emit (.lane lane cbINIT [s.node,
        s.lk.inc, if 512 ≤ c then c - 512 else c, (s.circLanes c).idxOf lane, (s.circLanes c).length, lanePlane
        lane, 1]))) ∧
    (∀ (s : State) (lane node inc circ laneI k plane : Nat) (ready : Bool) (c : Nat), s.laneState lane = lsINIT →
      s.laneCirc lane = some c → c < 512 → (node ≠ s.rd F.LNK_CIRC.FAR_NODE c ∨ plane ≠ lanePlane lane ∨ k ≠
      (s.circLanes c).length ∨ laneI ≠ (s.circLanes c).idxOf lane) →
      exec (.init lane node inc circ laneI k plane ready) s = .next (s.trainLost lane 2)) ∧
    (∀ (s : State) (lane node inc circ laneI k plane : Nat) (ready : Bool) (c : Nat), s.laneState lane = lsINIT →
      s.laneCirc lane = some c → (512 ≤ c ∨ (node = s.rd F.LNK_CIRC.FAR_NODE c ∧ plane = lanePlane lane ∧ k =
      (s.circLanes c).length ∧ laneI = (s.circLanes c).idxOf lane)) → ready = true → s.circLanes c = [lane] →
      exec (.init lane node inc circ laneI k plane ready) s = .next (((s.setLane lane
        { s.lane lane with initOk := true, farInc := inc }).setCirc c { s.circ c with rcirc := circ }).setLaneState
        lane lsCHECK)) ∧
    (∀ (s : State) (lane node inc circ laneI k plane : Nat) (c : Nat), s.laneState lane = lsINIT → s.laneCirc lane = some
      c → (512 ≤ c ∨ (node = s.rd F.LNK_CIRC.FAR_NODE c ∧ plane = lanePlane lane ∧ k = (s.circLanes c).length ∧
      laneI = (s.circLanes c).idxOf lane)) →
      exec (.init lane node inc circ laneI k plane false) s = .next s) ∧
    (∀ (s : State) (lane corrected uncorr : Nat), s.laneState lane = lsCHECK → corrected ≤ 3264 → uncorr = 0 → 180 ≤ lane
      →
      exec (.laneCheckComplete lane corrected uncorr) s = .next
        ({ (s.laneUp lane).meetFar (chanKey (lane - 180)) (s.lane lane).farInc with topo.stale := true })) ∧
    (∀ (s : State) (lane corrected uncorr c : Nat), s.laneState lane = lsCHECK → corrected ≤ 3264 → uncorr = 0 → lane <
      180 → s.laneCirc lane = some c → c < 512 → (∀ l ∈ s.circLanes c, l = lane ∨ s.laneState l = lsUP) →
      exec (.laneCheckComplete lane corrected uncorr) s = .next ((((s.laneUp lane).circEnterUp c).pathUp c).kick)) ∧
    (∀ (s : State) (lane corrected uncorr c l : Nat), s.laneState lane = lsCHECK → corrected ≤ 3264 → uncorr = 0 →
      s.laneCirc lane = some c → c < 512 → l ∈ s.circLanes c → l ≠ lane → s.laneState l ≠ lsUP →
      exec (.laneCheckComplete lane corrected uncorr) s = .next (s.laneUp lane)) ∧
    (∀ (s : State) (lane corrected uncorr : Nat), s.laneState lane = lsCHECK → (3264 < corrected ∨ uncorr ≠ 0) → (s.lane
      lane).retried = false →
      exec (.laneCheckComplete lane corrected uncorr) s = .next ((s.setLaneState lane lsADAPT).setLane lane
        { s.lane lane with retried := true })) ∧
    (∀ (s : State) (lane corrected uncorr : Nat), s.laneState lane = lsCHECK → (3264 < corrected ∨ uncorr ≠ 0) → (s.lane
      lane).retried = true →
      exec (.laneCheckComplete lane corrected uncorr) s = .next (s.trainLost lane 1)) ∧
    (∀ (s : State) (lane : Nat), lsCDR ≤ s.laneState lane → s.laneState lane ≤ lsCHECK →
      exec (.laneBoundExceeded lane) s = .next (s.trainLost lane 0)) ∧
    (∀ (s : State) (lane : Nat) (cond : LaneFailCond), s.laneState lane ≠ lsDARK → s.laneState lane ≠ lsFAILED →
      exec (.laneFail lane cond) s = .next (((s.laneFailed lane).note evLaneFail 1 5 lane [lane, condCode cond,
        (s.laneCirc lane).getD 0]).lanesLost [lane])) ∧
    (∀ (s : State) (lane ack req rsp pmsg nakSeq c : Nat), s.laneState lane = lsUP → s.laneCirc lane = some c →
      exec (.flow lane ack req rsp pmsg nakSeq false) s = .next ((s.setLane lane
        { s.lane lane with usedReq := returnCredit (s.lane lane).usedReq (s.lane lane).seenReq req, seenReq := req, usedRsp := returnCredit (s.lane lane).usedRsp (s.lane lane).seenRsp rsp, seenRsp := rsp, usedPmsg := returnCredit (s.lane lane).usedPmsg (s.lane lane).seenPmsg pmsg, seenPmsg := pmsg }).takeAck
        c ack)) ∧
    (∀ (s : State) (lane ack req rsp pmsg nakSeq c : Nat), s.laneState lane = lsUP → s.laneCirc lane = some c →
      exec (.flow lane ack req rsp pmsg nakSeq true) s = .next ((s.setLane lane
        { s.lane lane with usedReq := returnCredit (s.lane lane).usedReq (s.lane lane).seenReq req, seenReq := req, usedRsp := returnCredit (s.lane lane).usedRsp (s.lane lane).seenRsp rsp, seenRsp := rsp, usedPmsg := returnCredit (s.lane lane).usedPmsg (s.lane lane).seenPmsg pmsg, seenPmsg := pmsg }).takeAck
        c ack |>.resend c (fun t => t.pkt.seq % (s.circLanes c).length == (s.circLanes c).idxOf lane && !seqBefore
        t.pkt.seq nakSeq))) ∧
    (∀ (s : State) (lane symbols : Nat), s.laneState lane = lsUP → 44800 < symbols →
      exec (.lnkBerHigh lane symbols) s = .next ((s.bump F.LNK_LANE_ERR.CORR_SYM lane symbols).note evBerHigh 1 5
        lane [lane, symbols])) ∧
    (∀ (s : State) (lane symbols : Nat), s.laneState lane = lsUP → symbols ≤ 44800 →
      exec (.lnkBerHigh lane symbols) s = .next (s.bump F.LNK_LANE_ERR.CORR_SYM lane symbols)) ∧
    (∀ (s : State) (lane : Nat), s.laneState lane = lsUP → exec (.uncorrectableCodeword lane) s = .next ((s.bump
      F.LNK_CNT_UNCORR.COUNT).bumpSat F.LNK_LANE_ERR.UNCORR lane)) ∧
    (∀ (s : State) (lane c : Nat), s.laneState lane = lsUP → s.laneCirc lane = some c → (s.lane lane).nak = true →
      exec (.packetCrcFail lane) s = .next ((s.bump F.LNK_CNT_CRC.COUNT).bumpSat F.LNK_LANE_ERR.CRC_ERR lane)) ∧
    (∀ (s : State) (lane c : Nat), s.laneState lane = lsUP → s.laneCirc lane = some c → (s.lane lane).nak = false →
      exec (.packetCrcFail lane) s = .next ((((s.bump F.LNK_CNT_CRC.COUNT).bumpSat F.LNK_LANE_ERR.CRC_ERR
        lane).setLane lane { s.lane lane with nak := true }).sendFlow lane c (some ((s.lane lane).expect.getD
        (nextOnLane (s.circLanes c).length ((s.circLanes c).idxOf lane) (s.circ c).e))))) ∧
    (∀ (s : State) (src : Nat), exec (.pmsgEntryExpires src) s = .next ({ s with lk.wins := kdel s.lk.wins src })) ∧
    (∀ (s : State) (port : Nat) (x : TxPkt), (s.circ (chanKey port)).txq.find? (fun t => t.type == ptPMSG && t.pkt.src !=
      s.node) = some x →
      exec (.pmsgRelayDiscard port) s = .next (s.setCirc (chanKey port)
        { s.circ (chanKey port) with txq := (s.circ (chanKey port)).txq.erase x })) ∧
    (∀ (s : State) (circ : Nat) (b r : List TxPkt) (x : TxPkt), (offered s circ).circUp circ = true → (offered s
      circ).pick circ = some (b, x, r) →
      exec (.packetSend circ) s = .next ((((offered s circ).setLane (((offered s circ).circLanes circ).getD
        (((offered s circ).circ circ).tx % ((offered s circ).circLanes circ).length) 0) (((offered s circ).lane
        (((offered s circ).circLanes circ).getD (((offered s circ).circ circ).tx % ((offered s circ).circLanes
        circ).length) 0)).use (packetClass x.type) x.pkt.units)).setCirc circ
        { (offered s circ).circ circ with txq := b ++ r, replay := ((offered s circ).circ circ).replay ++ [{ x with pkt := { x.pkt with seq := ((offered s circ).circ circ).tx, rcirc := ((offered s circ).circ circ).rcirc } }], tx := (((offered s circ).circ circ).tx + 1) % 2 ^ 24 }).putOnLine
        circ
        { x with pkt := { x.pkt with seq := ((offered s circ).circ circ).tx, rcirc := ((offered s circ).circ circ).rcirc } })) ∧
    (∀ (s : State) (circ : Nat), s.circUp circ = true → (s.circ circ).replay ≠ [] → (s.circ circ).replays + 1 < s.rd1
      F.LNK_CFG.REPLAY_MAX →
      exec (.ackTimeout circ) s = .next (((s.bump F.LNK_CNT_REPLAY.COUNT).setCirc circ
        { s.circ circ with replays := (s.circ circ).replays + 1 }).resend circ (fun _ => true))) ∧
    (∀ (s : State) (circ : Nat), s.circUp circ = true → (s.circ circ).replay ≠ [] → s.rd1 F.LNK_CFG.REPLAY_MAX ≤ (s.circ
      circ).replays + 1 →
      exec (.ackTimeout circ) s = .next ((((s.bump F.LNK_CNT_REPLAY.COUNT).setCirc circ
        { s.circ circ with replays := (s.circ circ).replays + 1 }).setCirc circ
        { s.circ circ with replays := 0 }).failLanes (s.circLanes circ) .replayMax))

/-- A packet whose turn it is gives its credits back, takes its number and goes to its consumer, and a FLOW block
answers it. A write, a read or an atomic whose access checks pass, mirror traffic being the primary's, is
performed at its home and answered on the circuit it came on with CPL, RD_RSP or ATOM_RSP; one that has to wait is
answered later, one that fails its check is answered with the cause, and a poisoned granule is recorded too. ECC
errors that it meets are corrected and recorded, or fail it with POISON where they cannot be. A response goes to
the request of its tag, an error fails that request, and a late one only counts. Collective data goes to the
command that waits for it. A VOID is only counted off. A protected message for another node is relayed, one that
came back gives its destination a replacement first, and one for this node is judged by its number. A packet on a
lane of no circuit does nothing. (R450, R455, R457, R458, R477, R479, R549, R229, R282, R291, R292, R304.) -/
def Obligations.ReceiveRows : Prop :=
    (∀ (s r u : State) (lane c : Nat) (pkt : Pkt) (k : MemKind) (a : Pkt) (bs : List (BitVec 8)), Receivable s lane c
      ptWR pkt → r = received s lane c ptWR pkt → k = MemKind.write pkt.payload → a = r.answerPkt pkt false →
      r.checkAccess pkt.job true (r.fromPrimary pkt) (pkt.engine == 6) k pkt.addr = none → r.homeAccess
      (remoteSource pkt) k pkt.addr (.reply c a ptCPL) = (u, .data bs) →
      exec (.wr lane pkt .clean) s = .next (((u.ringCount pkt.src pkt.addr k.size).enqueue c ptCPL (answered a
        bs)).sendFlow lane c none)) ∧
    (∀ (s r u : State) (lane c t : Nat) (pkt : Pkt) (k : MemKind) (a : Pkt), Receivable s lane c ptWR pkt → r = received
      s lane c ptWR pkt → k = MemKind.write pkt.payload → a = r.answerPkt pkt false → r.checkAccess pkt.job true
      (r.fromPrimary pkt) (pkt.engine == 6) k pkt.addr = none → r.homeAccess (remoteSource pkt) k pkt.addr (.reply c
      a ptCPL) = (u, .pending t) →
      exec (.wr lane pkt .clean) s = .next (u.sendFlow lane c none)) ∧
    (∀ (s r : State) (lane c : Nat) (pkt : Pkt) (ecc : EccFinding) (k : MemKind) (a : Pkt) (cause : Nat), Receivable s
      lane c ptWR pkt → r = received s lane c ptWR pkt → k = MemKind.write pkt.payload → a = r.answerPkt pkt false →
      r.checkAccess pkt.job true (r.fromPrimary pkt) (pkt.engine == 6) k pkt.addr = some cause → cause ≠ gcPOISON →
      exec (.wr lane pkt ecc) s = .next ((r.homeFail c a ptCPL cause).sendFlow lane c none)) ∧
    (∀ (s r : State) (lane c : Nat) (pkt : Pkt) (ecc : EccFinding) (k : MemKind) (a : Pkt) (kind : Nat), Receivable s
      lane c ptWR pkt → r = received s lane c ptWR pkt → k = MemKind.write pkt.payload → a = r.answerPkt pkt false →
      r.checkAccess pkt.job true (r.fromPrimary pkt) (pkt.engine == 6) k pkt.addr = none → (placeOf
      pkt.addr).sramKind = some kind → Machine.EccFinding.sram ecc = .uncorrectable →
      exec (.wr lane pkt ecc) s = .next (((r.record evEccFatal 2 6 c [kind, pkt.addr] (some pkt.ctx)).homeFail c a
        ptCPL gcPOISON).sendFlow lane c none)) ∧
    (∀ (s r v u : State) (lane c : Nat) (pkt : Pkt) (ecc : EccFinding) (k : MemKind) (a : Pkt) (bs : List (BitVec 8)),
      Receivable s lane c ptWR pkt → r = received s lane c ptWR pkt → k = MemKind.write pkt.payload → a =
      r.answerPkt pkt false → r.checkAccess pkt.job true (r.fromPrimary pkt) (pkt.engine == 6) k pkt.addr = none →
      (placeOf pkt.addr).sramKind = none → v = r.eccFound (r.framed pkt.addr) ecc (some pkt.ctx) → v.checkAccess
      pkt.job true (v.fromPrimary pkt) (pkt.engine == 6) k pkt.addr = none → v.homeAccess (remoteSource pkt) k
      pkt.addr (.reply c a ptCPL) = (u, .data bs) →
      exec (.wr lane pkt ecc) s = .next (((u.ringCount pkt.src pkt.addr k.size).enqueue c ptCPL (answered a
        bs)).sendFlow lane c none)) ∧
    (∀ (s r u : State) (lane c : Nat) (pkt : Pkt) (k : MemKind) (a : Pkt) (bs : List (BitVec 8)), Receivable s lane c
      ptRD pkt → r = received s lane c ptRD pkt → k = MemKind.read pkt.len → a = r.answerPkt pkt false →
      r.checkAccess pkt.job true (r.fromPrimary pkt) (pkt.engine == 6) k pkt.addr = none → r.homeAccess
      (remoteSource pkt) k pkt.addr (.reply c a ptRDRSP) = (u, .data bs) →
      exec (.rd lane pkt .clean) s = .next ((u.enqueue c ptRDRSP (answered a bs)).sendFlow lane c none)) ∧
    (∀ (s r u : State) (lane c t : Nat) (pkt : Pkt) (k : MemKind) (a : Pkt), Receivable s lane c ptRD pkt → r = received
      s lane c ptRD pkt → k = MemKind.read pkt.len → a = r.answerPkt pkt false → r.checkAccess pkt.job true
      (r.fromPrimary pkt) (pkt.engine == 6) k pkt.addr = none → r.homeAccess (remoteSource pkt) k pkt.addr (.reply c
      a ptRDRSP) = (u, .pending t) →
      exec (.rd lane pkt .clean) s = .next (u.sendFlow lane c none)) ∧
    (∀ (s r : State) (lane c : Nat) (pkt : Pkt) (ecc : EccFinding) (k : MemKind) (a : Pkt) (cause : Nat), Receivable s
      lane c ptRD pkt → r = received s lane c ptRD pkt → k = MemKind.read pkt.len → a = r.answerPkt pkt false →
      r.checkAccess pkt.job true (r.fromPrimary pkt) (pkt.engine == 6) k pkt.addr = some cause → cause ≠ gcPOISON →
      exec (.rd lane pkt ecc) s = .next ((r.homeFail c a ptRDRSP cause).sendFlow lane c none)) ∧
    (∀ (s r : State) (lane c : Nat) (pkt : Pkt) (ecc : EccFinding) (k : MemKind) (a : Pkt) (kind : Nat), Receivable s
      lane c ptRD pkt → r = received s lane c ptRD pkt → k = MemKind.read pkt.len → a = r.answerPkt pkt false →
      r.checkAccess pkt.job true (r.fromPrimary pkt) (pkt.engine == 6) k pkt.addr = none → (placeOf
      pkt.addr).sramKind = some kind → Machine.EccFinding.sram ecc = .uncorrectable →
      exec (.rd lane pkt ecc) s = .next (((r.record evEccFatal 2 6 c [kind, pkt.addr] (some pkt.ctx)).homeFail c a
        ptRDRSP gcPOISON).sendFlow lane c none)) ∧
    (∀ (s r v u : State) (lane c : Nat) (pkt : Pkt) (ecc : EccFinding) (k : MemKind) (a : Pkt) (bs : List (BitVec 8)),
      Receivable s lane c ptRD pkt → r = received s lane c ptRD pkt → k = MemKind.read pkt.len → a = r.answerPkt pkt
      false → r.checkAccess pkt.job true (r.fromPrimary pkt) (pkt.engine == 6) k pkt.addr = none → (placeOf
      pkt.addr).sramKind = none → v = r.eccFound (r.framed pkt.addr) ecc (some pkt.ctx) → v.checkAccess pkt.job true
      (v.fromPrimary pkt) (pkt.engine == 6) k pkt.addr = none → v.homeAccess (remoteSource pkt) k pkt.addr (.reply c
      a ptRDRSP) = (u, .data bs) →
      exec (.rd lane pkt ecc) s = .next ((u.enqueue c ptRDRSP (answered a bs)).sendFlow lane c none)) ∧
    (∀ (s r : State) (lane c : Nat) (pkt : Pkt) (ecc : EccFinding) (k : MemKind) (a : Pkt), Receivable s lane c ptRD pkt
      → r = received s lane c ptRD pkt → k = MemKind.read pkt.len → a = r.answerPkt pkt false → r.checkAccess
      pkt.job true (r.fromPrimary pkt) (pkt.engine == 6) k pkt.addr = some gcPOISON →
      exec (.rd lane pkt ecc) s = .next (((r.record evMemEccUncorr 2 4 (deviceOf pkt.addr) [deviceOf pkt.addr,
        deviceAddr pkt.addr, pkt.engine] (some pkt.ctx)).homeFail c a ptRDRSP gcPOISON).sendFlow lane c none)) ∧
    (∀ (s r u : State) (lane c : Nat) (pkt : Pkt) (k : MemKind) (a : Pkt) (bs : List (BitVec 8)), Receivable s lane c
      ptATOM pkt → r = received s lane c ptATOM pkt → k = MemKind.atom (atomOfCode pkt.aop) (BitVec.ofNat 64 (leAt
      pkt.payload 0 8)) (BitVec.ofNat 64 (leAt pkt.payload 8 8)) → a = r.answerPkt pkt true → r.checkAccess pkt.job
      true (r.fromPrimary pkt) (pkt.engine == 6) k pkt.addr = none → r.homeAccess (remoteSource pkt) k pkt.addr
      (.reply c a ptATOMRSP) = (u, .data bs) →
      exec (.atom lane pkt .clean) s = .next (((u.ringCount pkt.src pkt.addr k.size).enqueue c ptATOMRSP (answered a
        bs)).sendFlow lane c none)) ∧
    (∀ (s r u : State) (lane c t : Nat) (pkt : Pkt) (k : MemKind) (a : Pkt), Receivable s lane c ptATOM pkt → r =
      received s lane c ptATOM pkt → k = MemKind.atom (atomOfCode pkt.aop) (BitVec.ofNat 64 (leAt pkt.payload 0 8))
      (BitVec.ofNat 64 (leAt pkt.payload 8 8)) → a = r.answerPkt pkt true → r.checkAccess pkt.job true
      (r.fromPrimary pkt) (pkt.engine == 6) k pkt.addr = none → r.homeAccess (remoteSource pkt) k pkt.addr (.reply c
      a ptATOMRSP) = (u, .pending t) →
      exec (.atom lane pkt .clean) s = .next (u.sendFlow lane c none)) ∧
    (∀ (s r : State) (lane c : Nat) (pkt : Pkt) (ecc : EccFinding) (k : MemKind) (a : Pkt) (cause : Nat), Receivable s
      lane c ptATOM pkt → r = received s lane c ptATOM pkt → k = MemKind.atom (atomOfCode pkt.aop) (BitVec.ofNat 64
      (leAt pkt.payload 0 8)) (BitVec.ofNat 64 (leAt pkt.payload 8 8)) → a = r.answerPkt pkt true → r.checkAccess
      pkt.job true (r.fromPrimary pkt) (pkt.engine == 6) k pkt.addr = some cause → cause ≠ gcPOISON →
      exec (.atom lane pkt ecc) s = .next ((r.homeFail c a ptATOMRSP cause).sendFlow lane c none)) ∧
    (∀ (s r : State) (lane c : Nat) (pkt : Pkt) (ecc : EccFinding) (k : MemKind) (a : Pkt) (kind : Nat), Receivable s
      lane c ptATOM pkt → r = received s lane c ptATOM pkt → k = MemKind.atom (atomOfCode pkt.aop) (BitVec.ofNat 64
      (leAt pkt.payload 0 8)) (BitVec.ofNat 64 (leAt pkt.payload 8 8)) → a = r.answerPkt pkt true → r.checkAccess
      pkt.job true (r.fromPrimary pkt) (pkt.engine == 6) k pkt.addr = none → (placeOf pkt.addr).sramKind = some kind
      → Machine.EccFinding.sram ecc = .uncorrectable →
      exec (.atom lane pkt ecc) s = .next (((r.record evEccFatal 2 6 c [kind, pkt.addr] (some pkt.ctx)).homeFail c a
        ptATOMRSP gcPOISON).sendFlow lane c none)) ∧
    (∀ (s r v u : State) (lane c : Nat) (pkt : Pkt) (ecc : EccFinding) (k : MemKind) (a : Pkt) (bs : List (BitVec 8)),
      Receivable s lane c ptATOM pkt → r = received s lane c ptATOM pkt → k = MemKind.atom (atomOfCode pkt.aop)
      (BitVec.ofNat 64 (leAt pkt.payload 0 8)) (BitVec.ofNat 64 (leAt pkt.payload 8 8)) → a = r.answerPkt pkt true →
      r.checkAccess pkt.job true (r.fromPrimary pkt) (pkt.engine == 6) k pkt.addr = none → (placeOf
      pkt.addr).sramKind = none → v = r.eccFound (r.framed pkt.addr) ecc (some pkt.ctx) → v.checkAccess pkt.job true
      (v.fromPrimary pkt) (pkt.engine == 6) k pkt.addr = none → v.homeAccess (remoteSource pkt) k pkt.addr (.reply c
      a ptATOMRSP) = (u, .data bs) →
      exec (.atom lane pkt ecc) s = .next (((u.ringCount pkt.src pkt.addr k.size).enqueue c ptATOMRSP (answered a
        bs)).sendFlow lane c none)) ∧
    (∀ (s : State) (lane c : Nat) (residue residue2 : Int) (pkt : Pkt), Receivable s lane c ptCOLL pkt →
      exec (.collData lane pkt residue residue2) s = .next (((received s lane c ptCOLL pkt).collData pkt (if
        !residueSees residue then 0 else if !residueSees residue2 then 1 else 2)).sendFlow lane c none)) ∧
    (∀ (s : State) (lane c : Nat) (pkt : Pkt), Receivable s lane c ptRDRSP pkt → s.reqOfTag pkt.rtag = none →
      exec (.rdRsp lane pkt) s = .next (((received s lane c ptRDRSP pkt).bump F.LNK_CNT_LATE.COUNT).sendFlow lane c
        none)) ∧
    (∀ (s : State) (lane c : Nat) (pkt : Pkt) (r : Nat × OutReq), Receivable s lane c ptRDRSP pkt → s.reqOfTag pkt.rtag =
      some r → pkt.status = 0 →
      exec (.rdRsp lane pkt) s = .next
        ((({ (received s lane c ptRDRSP pkt) with ms.mirWait := s.ms.mirWait.filter fun t => t.1 != r.1 } :
        State).answerReq r.1 ((kfind s.ms.mirWait r.1).getD pkt.payload)).resyncPct.sendFlow lane c none)) ∧
    (∀ (s : State) (lane c : Nat) (pkt : Pkt) (r : Nat × OutReq), Receivable s lane c ptRDRSP pkt → s.reqOfTag pkt.rtag =
      some r → pkt.status ≠ 0 →
      exec (.rdRsp lane pkt) s = .next
        ((({ (received s lane c ptRDRSP pkt) with ms.mirWait := s.ms.mirWait.filter fun t => t.1 != r.1 } :
        State).failReq r.1 pkt.status).sendFlow lane c none)) ∧
    (∀ (s : State) (lane c : Nat) (pkt : Pkt), Receivable s lane c ptATOMRSP pkt → s.reqOfTag pkt.rtag = none →
      exec (.atomRsp lane pkt) s = .next (((received s lane c ptATOMRSP pkt).bump F.LNK_CNT_LATE.COUNT).sendFlow
        lane c none)) ∧
    (∀ (s : State) (lane c : Nat) (pkt : Pkt) (r : Nat × OutReq), Receivable s lane c ptATOMRSP pkt → s.reqOfTag pkt.rtag
      = some r → pkt.status = 0 →
      exec (.atomRsp lane pkt) s = .next
        ((({ (received s lane c ptATOMRSP pkt) with ms.mirWait := s.ms.mirWait.filter fun t => t.1 != r.1 } :
        State).answerReq r.1 ((kfind s.ms.mirWait r.1).getD pkt.payload)).resyncPct.sendFlow lane c none)) ∧
    (∀ (s : State) (lane c : Nat) (pkt : Pkt) (r : Nat × OutReq), Receivable s lane c ptATOMRSP pkt → s.reqOfTag pkt.rtag
      = some r → pkt.status ≠ 0 →
      exec (.atomRsp lane pkt) s = .next
        ((({ (received s lane c ptATOMRSP pkt) with ms.mirWait := s.ms.mirWait.filter fun t => t.1 != r.1 } :
        State).failReq r.1 pkt.status).sendFlow lane c none)) ∧
    (∀ (s : State) (lane c : Nat) (pkt : Pkt), Receivable s lane c ptCPL pkt → s.reqOfTag pkt.rtag = none →
      exec (.cpl lane pkt) s = .next (((received s lane c ptCPL pkt).bump F.LNK_CNT_LATE.COUNT).sendFlow lane c
        none)) ∧
    (∀ (s : State) (lane c : Nat) (pkt : Pkt) (r : Nat × OutReq), Receivable s lane c ptCPL pkt → s.reqOfTag pkt.rtag =
      some r → pkt.status = 0 →
      exec (.cpl lane pkt) s = .next
        ((({ (received s lane c ptCPL pkt) with ms.mirWait := s.ms.mirWait.filter fun t => t.1 != r.1 } :
        State).answerReq r.1 ((kfind s.ms.mirWait r.1).getD pkt.payload)).resyncPct.sendFlow lane c none)) ∧
    (∀ (s : State) (lane c : Nat) (pkt : Pkt) (r : Nat × OutReq), Receivable s lane c ptCPL pkt → s.reqOfTag pkt.rtag =
      some r → pkt.status ≠ 0 →
      exec (.cpl lane pkt) s = .next
        ((({ (received s lane c ptCPL pkt) with ms.mirWait := s.ms.mirWait.filter fun t => t.1 != r.1 } :
        State).failReq r.1 pkt.status).sendFlow lane c none)) ∧
    (∀ (s : State) (lane c : Nat) (pkt : Pkt), Receivable s lane c ptVOID pkt →
      exec (.void lane pkt) s = .next ((received s lane c ptVOID pkt).sendFlow lane c none)) ∧
    (∀ (s : State) (lane c : Nat) (pkt : Pkt), Receivable s lane c ptPMSG pkt → pkt.dst ≠ s.node → pkt.src ≠ s.node →
      exec (.pmsgRelay lane pkt) s = .next (((received s lane c ptPMSG pkt).relayPmsg pkt).sendFlow lane c none)) ∧
    (∀ (s : State) (lane c : Nat) (pkt : Pkt), Receivable s lane c ptPMSG pkt → pkt.dst ≠ s.node → pkt.src = s.node →
      exec (.pmsgRelay lane pkt) s = .next ((((received s lane c ptPMSG pkt).replaceHops pkt).relayPmsg
        pkt).sendFlow lane c none)) ∧
    (∀ (s : State) (lane c : Nat) (pkt : Pkt), Receivable s lane c ptPMSG pkt → pkt.dst = s.node →
      exec (.pmsgRelay lane pkt) s = .next (((received s lane c ptPMSG pkt).acceptPmsg pkt).1.sendFlow lane c none)) ∧
    (∀ (s : State) (lane : Nat) (pkt : Pkt), s.laneCirc lane = none →
      exec (.void lane pkt) s = .next s ∧ exec (.cpl lane pkt) s = .next s ∧ exec (.rdRsp lane pkt) s = .next s ∧
        exec (.atomRsp lane pkt) s = .next s ∧ exec (.pmsgRelay lane pkt) s = .next s ∧ (∀ ecc, exec (.wr lane pkt
        ecc) s = .next s ∧ exec (.rd lane pkt ecc) s = .next s ∧ exec (.atom lane pkt ecc) s = .next s) ∧ ∀ residue
        residue2, exec (.collData lane pkt residue residue2) s = .next s)

/-- On a served port: OPEN starts a session for a number of blocks and empties the target slot, or resumes with
the first missing block, or is refused with the status R713 gives. DATA places one fragment of 1,024 bytes.
BLOCK_END with a fragment missing discards the block; a manifest is held with its versions or ends the session; a
body block whose CRC is the manifest's is held; one whose CRC differs is discarded. CLOSE with every block held
ends the session and starts verification. XFER_STATUS answers UPD_STATE and the two slots. In RECOVERY and with an
intact identity, BOOT takes a verified slot as the trial slot. Thirty idle seconds end a session. A verification
that succeeds makes the slot VERIFIED and is recorded, and one that fails makes it INVALID. A solicitation of the
module's address and an echo request are answered. (R707, R708, R709, R710, R711, R712, R713, R716, R724,
spec/16_update_and_protection.md.) -/
def Obligations.ImageRows : Prop :=
    (∀ (s : State) (resume : Bool) (blocks st : Nat), s.portServed = true → s.openRefused = some st →
      exec (.xferOpen resume blocks) s = .next (s.xferReply 0x01 0 0 0 st)) ∧
    (∀ (s : State) (blocks : Nat), s.portServed = true → s.openRefused = none →
      exec (.xferOpen false blocks) s = .next (((((s.startReceiving.tick).wr F.UPD_XFER.TOTAL blocks).wr
        F.UPD_XFER.SESSION ((Config.word s.free).toNat % 2 ^ 16)).wr F.UPD_XFER.OPEN 1).xferReply 0x01 ((Config.word
        s.free).toNat % 2 ^ 16) 0 0 stOK)) ∧
    (∀ (s : State) (blocks : Nat), s.portServed = true → s.openRefused = none → s.rd F.UPD_SLOT.STATE s.targetSlot =
      slRECEIVING →
      exec (.xferOpen true blocks) s = .next ((((s.tick.wr F.UPD_XFER.TOTAL blocks).wr F.UPD_XFER.SESSION
        ((Config.word s.free).toNat % 2 ^ 16)).wr F.UPD_XFER.OPEN 1).xferReply 0x01 ((Config.word s.free).toNat % 2
        ^ 16) (((s.tick.wr F.UPD_XFER.TOTAL blocks).wr F.UPD_XFER.SESSION ((Config.word s.free).toNat % 2 ^ 16)).wr
        F.UPD_XFER.OPEN 1).firstMissing 0 stOK)) ∧
    (∀ (s : State) (session block frag : Nat) (data : List Nat), s.portServed = true → s.inSession session = true → frag
      < 64 → data.length = 1024 → block < s.rd F.UPD_XFER.TOTAL →
      exec (.xferData session block frag data) s = .next ((s.setImage s.targetSlot
        { s.image s.targetSlot with frags := kset (s.image s.targetSlot).frags (block * 64 + frag) (data.map (BitVec.ofNat 8)) }).xferReply
        0x02 session block frag stOK)) ∧
    (∀ (s : State) (session block : Nat), s.portServed = true → s.inSession session = true → block < s.rd
      F.UPD_XFER.TOTAL → (s.image s.targetSlot).gather block = none →
      exec (.blockEnd session block) s = .next ((s.setImage s.targetSlot ((s.image s.targetSlot).discard
        block)).xferReply 0x03 session block 0 stINCOMPATIBLE)) ∧
    (∀ (s : State) (session block : Nat) (bs : List (BitVec 8)), s.portServed = true → s.inSession session = true → block
      < s.rd F.UPD_XFER.TOTAL → (s.image s.targetSlot).gather block = some bs → block ≠ 0 → crc32c bs = leAt
      (s.manifest s.targetSlot) (1024 + 4 * (block - 1)) 4 → (kfind (s.image s.targetSlot).blocks 0).isSome = true →
      exec (.blockEnd session block) s = .next ((s.setImage s.targetSlot ((s.image s.targetSlot).hold block
        bs)).xferReply 0x03 session block 0 stOK)) ∧
    (∀ (s : State) (session block : Nat) (bs : List (BitVec 8)), s.portServed = true → s.inSession session = true → block
      < s.rd F.UPD_XFER.TOTAL → (s.image s.targetSlot).gather block = some bs → block ≠ 0 → crc32c bs ≠ leAt
      (s.manifest s.targetSlot) (1024 + 4 * (block - 1)) 4 →
      exec (.blockEnd session block) s = .next ((s.setImage s.targetSlot ((s.image s.targetSlot).discard
        block)).xferReply 0x03 session block 0 stINCOMPATIBLE)) ∧
    (∀ (s : State) (session : Nat) (bs : List (BitVec 8)), s.portServed = true → s.inSession session = true → 0 < s.rd
      F.UPD_XFER.TOTAL → (s.image s.targetSlot).gather 0 = some bs →
      exec (.blockEnd session 0) s = .next (
        match s.manReject bs with
        | none => ((((s.setImage s.targetSlot ((s.image s.targetSlot).hold 0 bs)).wr F.UPD_SLOT.IMAGE_VER (leAt bs
          16 4) s.targetSlot).wr F.UPD_SLOT.SEC_VER (leAt bs 12 4) s.targetSlot).xferReply 0x03 session 0 0 stOK)
        | some st => ((((s.setImage s.targetSlot ((s.image s.targetSlot).discard 0)).wr F.UPD_XFER.OPEN 0).note
          evSlotRejected 1 9 3 [s.targetSlot, 0]).xferReply 0x03 session 0 0 st))) ∧
    (∀ (s : State) (session : Nat), s.portServed = true → s.inSession session = true → s.firstMissing = s.rd
      F.UPD_XFER.TOTAL →
      exec (.xferClose session) s = .next (((s.wr F.UPD_XFER.OPEN 0).wr F.UPD_SLOT.STATE slVERIFYING
        s.targetSlot).xferReply 0x04 session 0 0 stOK)) ∧
    (∀ (s : State) (session : Nat), s.portServed = true → s.flag F.UPD_XFER.OPEN = false → s.rd F.UPD_SLOT.STATE
      s.targetSlot = slRECEIVED → s.inSession session = false →
      exec (.xferClose session) s = .next ((s.wr F.UPD_SLOT.STATE slVERIFYING s.targetSlot).xferReply 0x04 session 0
        0 stOK)) ∧
    (∀ (s : State) (session : Nat), s.portServed = true → exec (.xferStatus session) s = .next (s.xferReply 0x05 session
      0 0 stOK (leBytes 8 (s.view .UPD_STATE 0).toNat ++ leBytes 8 (s.view .UPD_SLOT 0).toNat ++ leBytes 8 (s.view
      .UPD_SLOT 1).toNat))) ∧
    (∀ (s : State) (slot : Nat), s.portServed = true → s.mode = mRECOVERY → s.idOk = true → slot < 2 → s.rd
      F.UPD_SLOT.STATE slot = slVERIFIED →
      exec (.boot slot) s = .next (((((({ s with upd.boot.trial := some slot, ms.full := true } : State).wr
        F.UPD_STATE.TRIAL_BOOTS 0).chooseSlot.wr F.UPD_STATE.RECOV_CAUSE 0).resumeStartup).xferReply 0x06 0 0 0
        stOK))) ∧
    (∀ (s : State),
      ∃ t, exec .sessionIdleTimeout s = .next t ∧ t.rd F.UPD_XFER.OPEN = 0 ∧ t.upd = s.upd ∧ t.mem = s.mem ∧ t.out =
        s.out) ∧
    (∀ (s : State) (slot : Nat), slot < 2 → s.rd F.UPD_SLOT.STATE slot = slVERIFYING →
      exec (.updSlotVerified slot) s = .next (if s.manReject (s.manifest slot) = none ∧ s.partsMatch slot = true
        then (((s.wr F.UPD_SLOT.STATE slVERIFIED slot).wr F.UPD_SLOT.IMAGE_VER (leAt (s.manifest slot) 16 4)
        slot).wr F.UPD_SLOT.SEC_VER (leAt (s.manifest slot) 12 4) slot).note evSlotVerified 0 9 3 [slot, leAt
        (s.manifest slot) 16 4, leAt (s.manifest slot) 12 4] else (s.wr F.UPD_SLOT.STATE slINVALID slot).note
        evSlotRejected 1 9 3 [slot, b2n (s.manReject (s.manifest slot)).isNone])) ∧
    (∀ (s : State) (src : List Nat), s.portServed = true → exec (.neighbourSolicitation src linkLocal) s = .next (s.emit
      (.svc (0x100 + 136) ((if src.all (fun x => x == 0) then [0xFF, 2] ++ List.replicate 13 0 ++ [1] else src) ++
      linkLocal ++ macBytes)))) ∧
    (∀ (s : State) (src payload : List Nat), s.portServed = true →
      exec (.echoRequest src payload) s = .next (s.emit (.svc (0x100 + 129) (src ++ payload))))

/-- With SPDM enabled and the security core running, each request is answered: the version is 1.2, the
capabilities and algorithms are those of R705, the digest is that of the chain in slot 0, a portion of the chain
is followed by how much remains, a challenge of slot 0 is signed over the chain's digest and the nonce, and
measurements, one, all nine or their number, signed where that is asked, are the digests of what Table 16-5 lists.
Another slot or an index that the table does not have is an error. While the core is away the answer is BUSY; with
SPDM disabled every request is unsupported. None of them changes the memory or a register. (R705, R706,
spec/16_update_and_protection.md.) -/
def Obligations.AttestationRows : Prop :=
    (∀ (s : State), s.spdmBusy = false → s.flag F.SEC_POLICY.SPDM_EN = true →
      exec .getVersion s = .next (s.emit (.spdm 0x04 [0x1200]))) ∧
    (∀ (s : State), s.spdmBusy = false → s.flag F.SEC_POLICY.SPDM_EN = true →
      exec .getCapabilities s = .next (s.emit (.spdm 0x61 [0x36]))) ∧
    (∀ (s : State), s.spdmBusy = false → s.flag F.SEC_POLICY.SPDM_EN = true →
      exec .negotiateAlgorithms s = .next (s.emit (.spdm 0x63 [8, 1, 2]))) ∧
    (∀ (s : State), s.spdmBusy = false → s.flag F.SEC_POLICY.SPDM_EN = true →
      exec .getDigests s = .next (s.emit (.spdm 0x01 (1 :: (sha256 Config.certChain).map BitVec.toNat)))) ∧
    (∀ (s : State) (slot off len : Nat), s.spdmBusy = false → s.flag F.SEC_POLICY.SPDM_EN = true → slot = 0 →
      exec (.getCertificate slot off len) s = .next (if Config.certChain.length ≤ off then s.spdmError spInvalid 0
        else s.emit (.spdm 0x02 ([0, ((Config.certChain.drop off).take len).length, Config.certChain.length - off -
        ((Config.certChain.drop off).take len).length] ++ ((Config.certChain.drop off).take len).map BitVec.toNat)))) ∧
    (∀ (s : State) (slot off len : Nat), s.spdmBusy = false → s.flag F.SEC_POLICY.SPDM_EN = true → slot ≠ 0 →
      exec (.getCertificate slot off len) s = .next (s.spdmError spInvalid 0)) ∧
    (∀ (s : State) (slot : Nat) (nonce : List Nat), s.spdmBusy = false → s.flag F.SEC_POLICY.SPDM_EN = true → slot = 0 →
      exec (.challenge slot nonce) s = .next ((s.emit (.spdm 0x03 ([0, 1] ++ (sha256 Config.certChain).map
        BitVec.toNat ++ s.signed (sha256 Config.certChain ++ nonce.map (BitVec.ofNat 8))))).tick)) ∧
    (∀ (s : State) (slot : Nat) (nonce : List Nat), s.spdmBusy = false → s.flag F.SEC_POLICY.SPDM_EN = true → slot ≠ 0 →
      exec (.challenge slot nonce) s = .next (s.spdmError spInvalid 0)) ∧
    (∀ (s : State) (index : Nat) (nonce : List Nat), s.spdmBusy = false → s.flag F.SEC_POLICY.SPDM_EN = true → 1 ≤ index
      → index ≤ 9 →
      exec (.getMeasurements index false nonce) s = .next ((s.emit (.spdm 0x60 (1 :: (s.measurement index).map
        BitVec.toNat))).tick)) ∧
    (∀ (s : State) (index : Nat) (nonce : List Nat), s.spdmBusy = false → s.flag F.SEC_POLICY.SPDM_EN = true → 1 ≤ index
      → index ≤ 9 →
      exec (.getMeasurements index true nonce) s = .next ((s.emit (.spdm 0x60 (1 :: (s.measurement index).map
        BitVec.toNat ++ s.signed (BitVec.ofNat 8 1 :: s.measurement index ++ nonce.map (BitVec.ofNat 8))))).tick)) ∧
    (∀ (s : State) (nonce : List Nat), s.spdmBusy = false → s.flag F.SEC_POLICY.SPDM_EN = true →
      exec (.getMeasurements 0 false nonce) s = .next ((s.emit (.spdm 0x60 [9])).tick) ∧ exec (.getMeasurements 0xFF
        false nonce) s = .next ((s.emit (.spdm 0x60 (9 :: ((List.range 9).flatMap fun i => s.measurement (i +
        1)).map BitVec.toNat))).tick)) ∧
    (∀ (s : State) (index : Nat) (signed : Bool) (nonce : List Nat), s.spdmBusy = false → s.flag F.SEC_POLICY.SPDM_EN =
      true → 9 < index → index ≠ 0xFF →
      exec (.getMeasurements index signed nonce) s = .next (s.spdmError spInvalid 0)) ∧
    (∀ (s : State) (code : Nat), s.spdmBusy = false → s.flag F.SEC_POLICY.SPDM_EN = true →
      exec (.spdmUnsupportedRequest code) s = .next (s.spdmError spUnsupported code)) ∧
    (∀ (s : State) (slot off len index code : Nat) (signed : Bool) (nonce : List Nat), s.spdmBusy = true →
      exec .getVersion s = .next (s.spdmError spBusy 0) ∧ exec .getCapabilities s = .next (s.spdmError spBusy 0) ∧
        exec .negotiateAlgorithms s = .next (s.spdmError spBusy 0) ∧ exec .getDigests s = .next (s.spdmError spBusy
        0) ∧ exec (.getCertificate slot off len) s = .next (s.spdmError spBusy 0) ∧ exec (.challenge slot nonce) s =
        .next (s.spdmError spBusy 0) ∧ exec (.getMeasurements index signed nonce) s = .next (s.spdmError spBusy 0) ∧
        exec (.spdmUnsupportedRequest code) s = .next (s.spdmError spBusy 0)) ∧
    (∀ (s : State) (slot off len index code : Nat) (signed : Bool) (nonce : List Nat), s.spdmBusy = false → s.flag
      F.SEC_POLICY.SPDM_EN = false →
      exec .getVersion s = .next (s.spdmError spUnsupported 0x84) ∧ exec .getCapabilities s = .next (s.spdmError
        spUnsupported 0xE1) ∧ exec .negotiateAlgorithms s = .next (s.spdmError spUnsupported 0xE3) ∧ exec
        .getDigests s = .next (s.spdmError spUnsupported 0x81) ∧ exec (.getCertificate slot off len) s = .next
        (s.spdmError spUnsupported 0x82) ∧ exec (.challenge slot nonce) s = .next (s.spdmError spUnsupported 0x83) ∧
        exec (.getMeasurements index signed nonce) s = .next (s.spdmError spUnsupported 0xE0) ∧ exec
        (.spdmUnsupportedRequest code) s = .next (s.spdmError spUnsupported code))

/-- A schedule that R718 accepts starts the group on the lowest free ticket, and one that it refuses is answered
with its status. The coordinator counts READY, NOT_READY and TRIAL_OK of its members, decides GO or ABORT at T
minus 2 s, ALL_OK when every member has reported, and ROLLBACK when one fails or the window ends; it repeats a
decision, for 24 hours, to a member that asks. A member takes GO by copying its settings and arming trigger 12 for
T, activates at T unless a cancellation has failed its trial, and ends the group on ABORT, ALL_OK or ROLLBACK. The
coordinator reads its member list. A confirmation or a cancellation by the host is accepted while the group is
open and NOT_FOUND without one. (R714, R717, R718, R719, R720, R721, R722, R723,
spec/16_update_and_protection.md.) -/
def Obligations.GroupRows : Prop :=
    (∀ (s : State) (q : Req), s.taking 0x0700 = some q → exec .updStatus s = .next (s.answer stOK 0xFFFF
      (Config.updStatus (s.view .UPD_STATE 0) (s.view .UPD_SLOT 0) (s.view .UPD_SLOT 1)))) ∧
    (∀ (s : State) (q : Req) (host : List Nat) (st : Nat), s.taking 0x0701 = some q → s.scheduleStatus (leAt q.payload 4
      8) = some st →
      exec (.updSchedule host) s = .next (s.answer st)) ∧
    (∀ (s : State) (q : Req) (host : List Nat) (n : Nat), s.taking 0x0701 = some q → s.scheduleStatus (leAt q.payload 4
      8) = none → leAt q.payload 12 2 ≠ s.node → s.freeTicket = some n →
      exec (.updSchedule host) s = .next ((accepted s 0x0701 n).joinGroup q.payload [] n)) ∧
    (∀ (s : State) (q : Req) (host list : List Nat) (n : Nat), s.taking 0x0701 = some q → s.scheduleStatus (leAt
      q.payload 4 8) = none → leAt q.payload 12 2 = s.node → bitOf (leAt q.payload 16 8) 63 = true → s.readMembers
      (leAt q.payload 16 8) (leAt q.payload 14 2) host = .ok list → s.freeTicket = some n →
      exec (.updSchedule host) s = .next ((accepted (s.emit (.hostRead (bitsOf (leAt q.payload 16 8) 51 0) (2 * leAt
        q.payload 14 2))) 0x0701 n).joinGroup q.payload list n)) ∧
    (∀ (s : State) (q : Req) (host list : List Nat) (n : Nat), s.taking 0x0701 = some q → s.scheduleStatus (leAt
      q.payload 4 8) = none → leAt q.payload 12 2 = s.node → bitOf (leAt q.payload 16 8) 63 = false → s.readMembers
      (leAt q.payload 16 8) (leAt q.payload 14 2) host = .ok list → s.freeTicket = some n →
      exec (.updSchedule host) s = .next ((accepted s 0x0701 n).joinGroup q.payload list n)) ∧
    (∀ (s : State) (q : Req) (n : Nat), s.taking 0x0702 = some q → s.onTrial = true → s.groupOpen = false → s.freeTicket
      = some n →
      exec .updConfirm s = .next (((accepted s 0x0702 n).confirmTrial).endTicket n stOK 0xFFFF)) ∧
    (∀ (s : State) (q : Req) (n : Nat), s.taking 0x0702 = some q → s.onTrial = true → s.groupOpen = true → s.freeTicket =
      some n →
      exec .updConfirm s = .next ((((accepted s 0x0702 n).setGroup ActGroup.confirmedBy).trialReport).endTicket n
        stOK 0xFFFF)) ∧
    (∀ (s : State) (q : Req), s.taking 0x0702 = some q → s.onTrial = false →
      exec .updConfirm s = .next (s.answer stNOTFOUND)) ∧
    (∀ (s : State) (q : Req) (n : Nat), s.taking 0x0703 = some q → s.groupState = gsSCHEDULED → s.freeTicket = some n →
      exec .updCancel s = .next (((accepted s 0x0703 n).report gmNOT_READY stRUNNING).endTicket n stOK 0xFFFF)) ∧
    (∀ (s : State) (q : Req) (n : Nat), s.taking 0x0703 = some q → (s.groupState = gsGO ∨ s.groupState = gsTRIAL) →
      s.freeTicket = some n →
      exec .updCancel s = .next (((accepted s 0x0703 n).trialFail stRUNNING).endTicket n stOK 0xFFFF)) ∧
    (∀ (s : State) (q : Req), s.taking 0x0703 = some q → s.groupOpen = false →
      exec .updCancel s = .next (s.answer stNOTFOUND)) ∧
    (∀ (s : State) (src group ver : Nat) (g : ActGroup), s.coordOf group = some g → g.decision = 0 → g.list.contains src
      = true →
      exec (.ready src group ver) s = .next ((s.setGroup fun g => g.addVer src ver).wr F.UPD_GROUP.REPORTED
        (g.addVer src ver).vers.length)) ∧
    (∀ (s : State) (src group st : Nat) (g : ActGroup), s.coordOf group = some g → g.decision = 0 → g.list.contains src =
      true →
      exec (.notReady src group st) s = .next (s.setGroup fun g => g.addNot src)) ∧
    (∀ (s : State) (g : ActGroup), s.coordOf s.groupId = some g → g.decision = 0 → s.groupState = gsSCHEDULED →
      exec .goDecision s = .next (s.decide_ (if ((g.list.map fun n => kfind g.vers n).all Option.isSome && decide
        ((g.list.map fun n => kfind g.vers n).eraseDups.length ≤ 1) && g.notReady.isEmpty) = true then gmGO else
        gmABORT))) ∧
    (∀ (s : State) (src group v : Nat), s.fromCoord src group = true → v = s.groupT → s.groupState = gsSCHEDULED →
      ∃ t, exec (.go src group v) s = .next t ∧ t.rd F.UPD_STATE.GROUP_STATE = gsGO ∧ t.upd.other = some s.settings
        ∧ kfind t.time.trigs 12 = some ⟨s.groupT, 0⟩ ∧ t.rd F.TIM_TRIG_CTL.ARM 12 = 1 ∧ t.mem = s.mem ∧ t.evr =
        s.evr) ∧
    (∀ (s : State) (src group : Nat), s.fromCoord src group = true → (s.groupState = gsSCHEDULED ∨ s.groupState = gsGO) →
      exec (.groupAbort src group) s = .next (s.endGroup gsABORTED stRUNNING)) ∧
    (∀ (s : State), s.groupState = gsGO → s.trialLost = false → exec .activationAtT s = .next
      (((((({ s with upd.boot.trial := some s.targetSlot, time.trigs := kdel s.time.trigs 12 } : State).wr
      F.UPD_STATE.TRIAL_BOOTS 0).wr F.UPD_STATE.GROUP_STATE gsTRIAL).chooseSlot.restartKeeper).note evUpdActivated 0
      9 3 [((((({ s with upd.boot.trial := some s.targetSlot, time.trigs := kdel s.time.trigs 12 } : State).wr
      F.UPD_STATE.TRIAL_BOOTS 0).wr F.UPD_STATE.GROUP_STATE gsTRIAL).chooseSlot.restartKeeper)).groupId,
      s.targetSlot, ((((({ s with upd.boot.trial := some s.targetSlot, time.trigs := kdel s.time.trigs 12 } :
      State).wr F.UPD_STATE.TRIAL_BOOTS 0).wr F.UPD_STATE.GROUP_STATE gsTRIAL).chooseSlot.restartKeeper)).rd
      F.UPD_STATE.TRIAL_BOOTS]).ownChipReset evUpdActivated)) ∧
    (∀ (s : State), s.groupState = gsGO → s.trialLost = true → exec .activationAtT s = .next s) ∧
    (∀ (s : State), s.groupState = gsSCHEDULED → exec .activationAtT s = .next (s.report gmTRIAL_FAIL stTIMEOUT)) ∧
    (∀ (s : State) (src group : Nat) (g : ActGroup), s.coordOf group = some g → g.decision = gmGO → g.list.contains src =
      true →
      exec (.trialOk src group) s = .next (if ((g.addOk src).list.all fun n => (g.addOk src).oks.contains n) = true
        then ((s.setGroup fun x => x.addOk src).wr F.UPD_GROUP.REPORTED (g.addOk src).oks.length).decide_ gmALL_OK
        else (s.setGroup fun x => x.addOk src).wr F.UPD_GROUP.REPORTED (g.addOk src).oks.length)) ∧
    (∀ (s : State) (src group st : Nat) (g : ActGroup), s.coordOf group = some g → g.decision = gmGO → g.list.contains
      src = true →
      exec (.trialFail src group st) s = .next ((s.setGroup fun x => x.failedAt src st).decide_ gmROLLBACK)) ∧
    (∀ (s : State) (src group : Nat), s.fromCoord src group = true → s.groupState = gsTRIAL → s.onTrial = true →
      exec (.allOk src group) s = .next (s.confirmTrial.endGroup gsCONFIRMED stOK)) ∧
    (∀ (s : State) (src group : Nat), s.fromCoord src group = true → s.groupOpen = true → s.onTrial = true →
      exec (.rollback src group) s = .next (((s.tick.note evUpdRolledBack 1 9 3 [s.groupId, s.rollbackStatus,
        (s.upd.group.map ActGroup.node).getD 0]).revert).endGroup gsROLLED_BACK s.rollbackStatus)) ∧
    (∀ (s : State) (src group : Nat) (g : ActGroup), s.coordOf group = some g → g.decision ≠ 0 → s.opMs < g.decided +
      86400000 → g.list.contains src = true →
      exec (.query src group) s = .next (s.sendGroup src g.decision 0)) ∧
    (∀ (s : State) (src group : Nat) (g : ActGroup), s.coordOf group = some g → g.decided + 86400000 ≤ s.opMs →
      exec (.query src group) s = .next s) ∧
    (∀ (s : State) (g : ActGroup), s.upd.group = some g → g.sentOk = true → s.groupState = gsTRIAL → s.isCoord = false →
      exec .queryResend s = .next (s.sendGroup (s.rd F.UPD_GROUP.COORD) gmQUERY 0)) ∧
    (∀ (s : State) (g : ActGroup), s.coordOf s.groupId = some g → g.decision = gmGO →
      exec .trialWindowExpires s = .next (s.decide_ gmROLLBACK))

/-- A path command whose list is aligned, local, readable and of 1 to 512 entries leaves DORMANT and opens its
list once every byte of it is there; any other list is the queue error PATH_CMD. The time limits act on what they
watch: a hop that stays silent, a set-up past SETUP_TO, a held entry never lit, an audit without a reply, a
circuit held DOWN too long. A retry and a search for a backup start where their conditions hold. A re-cable that
is prepared in time is committed, and one that is not ends RECABLE_LATE; at the tick a committed hop lights. A
plane path that is verified is marked, and one that is not fails its route; a lossy span is recorded once, and
requests go to a new binding once the old circuit is empty. (R491, R492, R503, R504, R507, R512, R514, R515, R520,
R522, R523, R551.) -/
def Obligations.PathCommandRows : Prop :=
    (∀ (s u : State) (slot queue count : Nat) (c : Cmd) (bs : List (BitVec 8)), Working s ⟨slot, queue, count⟩ 0x50 c →
      leAt c.bytes 8 8 % 32 = 0 → s.isLocalAddr (leAt c.bytes 8 8) = true → 1 ≤ leAt c.bytes 16 2 → leAt c.bytes 16
      2 ≤ 512 → bitsOf (leAt c.bytes 8 8) 41 0 + 32 * leAt c.bytes 16 2 ≤ generalUse → s.leaveDormant.fetchBytes
      ⟨slot, queue, count⟩ (leAt c.bytes 8 8) (32 * leAt c.bytes 16 2) 0 = (u, some bs) →
      exec (.pathSetup slot queue count) s = .next ((u.setWork ⟨slot, queue, count⟩ (.path (leAt c.bytes 16
        2))).openList ⟨.cmd ⟨slot, queue, count⟩, 0x50, leAt c.bytes 24 6, bitsOf (leAt c.bytes 8 8) 41 0,
        readRequests bs, false⟩)) ∧
    (∀ (s u : State) (slot queue count : Nat) (c : Cmd), Working s ⟨slot, queue, count⟩ 0x50 c → leAt c.bytes 8 8 % 32 =
      0 → s.isLocalAddr (leAt c.bytes 8 8) = true → 1 ≤ leAt c.bytes 16 2 → leAt c.bytes 16 2 ≤ 512 → bitsOf (leAt
      c.bytes 8 8) 41 0 + 32 * leAt c.bytes 16 2 ≤ generalUse → s.leaveDormant.fetchBytes ⟨slot, queue, count⟩ (leAt
      c.bytes 8 8) (32 * leAt c.bytes 16 2) 0 = (u, none) →
      exec (.pathSetup slot queue count) s = .next u) ∧
    (∀ (s : State) (slot queue count : Nat) (c : Cmd), Working s ⟨slot, queue, count⟩ 0x50 c → (leAt c.bytes 8 8 % 32 ≠ 0
      ∨ s.isLocalAddr (leAt c.bytes 8 8) = false ∨ leAt c.bytes 16 2 = 0 ∨ 512 < leAt c.bytes 16 2 ∨ generalUse <
      bitsOf (leAt c.bytes 8 8) 41 0 + 32 * leAt c.bytes 16 2) →
      exec (.pathSetup slot queue count) s = .next (s.leaveDormant.operandError ⟨slot, queue, count⟩ c qePATH_CMD
        (leAt c.bytes 8 8))) ∧
    (∀ (s u : State) (slot queue count : Nat) (c : Cmd) (bs : List (BitVec 8)), Working s ⟨slot, queue, count⟩ 0x51 c →
      leAt c.bytes 8 8 % 32 = 0 → s.isLocalAddr (leAt c.bytes 8 8) = true → 1 ≤ leAt c.bytes 16 2 → leAt c.bytes 16
      2 ≤ 512 → bitsOf (leAt c.bytes 8 8) 41 0 + 32 * leAt c.bytes 16 2 ≤ generalUse → s.leaveDormant.fetchBytes
      ⟨slot, queue, count⟩ (leAt c.bytes 8 8) (32 * leAt c.bytes 16 2) 0 = (u, some bs) →
      exec (.pathTeardown slot queue count) s = .next ((u.setWork ⟨slot, queue, count⟩ (.path (leAt c.bytes 16
        2))).openList ⟨.cmd ⟨slot, queue, count⟩, 0x51, leAt c.bytes 24 6, bitsOf (leAt c.bytes 8 8) 41 0,
        readRequests bs, false⟩)) ∧
    (∀ (s u : State) (slot queue count : Nat) (c : Cmd), Working s ⟨slot, queue, count⟩ 0x51 c → leAt c.bytes 8 8 % 32 =
      0 → s.isLocalAddr (leAt c.bytes 8 8) = true → 1 ≤ leAt c.bytes 16 2 → leAt c.bytes 16 2 ≤ 512 → bitsOf (leAt
      c.bytes 8 8) 41 0 + 32 * leAt c.bytes 16 2 ≤ generalUse → s.leaveDormant.fetchBytes ⟨slot, queue, count⟩ (leAt
      c.bytes 8 8) (32 * leAt c.bytes 16 2) 0 = (u, none) →
      exec (.pathTeardown slot queue count) s = .next u) ∧
    (∀ (s : State) (slot queue count : Nat) (c : Cmd), Working s ⟨slot, queue, count⟩ 0x51 c → (leAt c.bytes 8 8 % 32 ≠ 0
      ∨ s.isLocalAddr (leAt c.bytes 8 8) = false ∨ leAt c.bytes 16 2 = 0 ∨ 512 < leAt c.bytes 16 2 ∨ generalUse <
      bitsOf (leAt c.bytes 8 8) 41 0 + 32 * leAt c.bytes 16 2) →
      exec (.pathTeardown slot queue count) s = .next (s.leaveDormant.operandError ⟨slot, queue, count⟩ c qePATH_CMD
        (leAt c.bytes 8 8))) ∧
    (∀ (s u : State) (slot queue count : Nat) (c : Cmd) (bs : List (BitVec 8)), Working s ⟨slot, queue, count⟩ 0x52 c →
      leAt c.bytes 8 8 % 32 = 0 → s.isLocalAddr (leAt c.bytes 8 8) = true → 1 ≤ leAt c.bytes 16 2 → leAt c.bytes 16
      2 ≤ 512 → bitsOf (leAt c.bytes 8 8) 41 0 + 32 * leAt c.bytes 16 2 ≤ generalUse → s.leaveDormant.fetchBytes
      ⟨slot, queue, count⟩ (leAt c.bytes 8 8) (32 * leAt c.bytes 16 2) 0 = (u, some bs) →
      exec (.pathRecable slot queue count) s = .next ((u.setWork ⟨slot, queue, count⟩ (.path (leAt c.bytes 16
        2))).openList ⟨.cmd ⟨slot, queue, count⟩, 0x52, leAt c.bytes 24 6, bitsOf (leAt c.bytes 8 8) 41 0,
        readRequests bs, false⟩)) ∧
    (∀ (s u : State) (slot queue count : Nat) (c : Cmd), Working s ⟨slot, queue, count⟩ 0x52 c → leAt c.bytes 8 8 % 32 =
      0 → s.isLocalAddr (leAt c.bytes 8 8) = true → 1 ≤ leAt c.bytes 16 2 → leAt c.bytes 16 2 ≤ 512 → bitsOf (leAt
      c.bytes 8 8) 41 0 + 32 * leAt c.bytes 16 2 ≤ generalUse → s.leaveDormant.fetchBytes ⟨slot, queue, count⟩ (leAt
      c.bytes 8 8) (32 * leAt c.bytes 16 2) 0 = (u, none) →
      exec (.pathRecable slot queue count) s = .next u) ∧
    (∀ (s : State) (slot queue count : Nat) (c : Cmd), Working s ⟨slot, queue, count⟩ 0x52 c → (leAt c.bytes 8 8 % 32 ≠ 0
      ∨ s.isLocalAddr (leAt c.bytes 8 8) = false ∨ leAt c.bytes 16 2 = 0 ∨ 512 < leAt c.bytes 16 2 ∨ generalUse <
      bitsOf (leAt c.bytes 8 8) 41 0 + 32 * leAt c.bytes 16 2) →
      exec (.pathRecable slot queue count) s = .next (s.leaveDormant.operandError ⟨slot, queue, count⟩ c qePATH_CMD
        (leAt c.bytes 8 8))) ∧
    (∀ (s u : State) (slot queue count : Nat) (c : Cmd) (bs : List (BitVec 8)), Working s ⟨slot, queue, count⟩ 0x53 c →
      leAt c.bytes 8 8 % 32 = 0 → s.isLocalAddr (leAt c.bytes 8 8) = true → 1 ≤ leAt c.bytes 16 2 → leAt c.bytes 16
      2 ≤ 512 → bitsOf (leAt c.bytes 8 8) 41 0 + 32 * leAt c.bytes 16 2 ≤ generalUse → s.leaveDormant.fetchBytes
      ⟨slot, queue, count⟩ (leAt c.bytes 8 8) (32 * leAt c.bytes 16 2) 0 = (u, some bs) →
      exec (.pathQuery slot queue count) s = .next ((u.setWork ⟨slot, queue, count⟩ (.path (leAt c.bytes 16
        2))).openList ⟨.cmd ⟨slot, queue, count⟩, 0x53, leAt c.bytes 24 6, bitsOf (leAt c.bytes 8 8) 41 0,
        readRequests bs, false⟩)) ∧
    (∀ (s u : State) (slot queue count : Nat) (c : Cmd), Working s ⟨slot, queue, count⟩ 0x53 c → leAt c.bytes 8 8 % 32 =
      0 → s.isLocalAddr (leAt c.bytes 8 8) = true → 1 ≤ leAt c.bytes 16 2 → leAt c.bytes 16 2 ≤ 512 → bitsOf (leAt
      c.bytes 8 8) 41 0 + 32 * leAt c.bytes 16 2 ≤ generalUse → s.leaveDormant.fetchBytes ⟨slot, queue, count⟩ (leAt
      c.bytes 8 8) (32 * leAt c.bytes 16 2) 0 = (u, none) →
      exec (.pathQuery slot queue count) s = .next u) ∧
    (∀ (s : State) (slot queue count : Nat) (c : Cmd), Working s ⟨slot, queue, count⟩ 0x53 c → (leAt c.bytes 8 8 % 32 ≠ 0
      ∨ s.isLocalAddr (leAt c.bytes 8 8) = false ∨ leAt c.bytes 16 2 = 0 ∨ 512 < leAt c.bytes 16 2 ∨ generalUse <
      bitsOf (leAt c.bytes 8 8) 41 0 + 32 * leAt c.bytes 16 2) →
      exec (.pathQuery slot queue count) s = .next (s.leaveDormant.operandError ⟨slot, queue, count⟩ c qePATH_CMD
        (leAt c.bytes 8 8))) ∧
    (∀ (s : State) (idx : Nat), (s.ent idx).audit = true → exec (.auditTimeout idx) s = .next ((s.note evAuditRelease 0 6
      idx [idx, s.circFar idx, s.rd F.LAT_CIRC_A.ORIG_IDX idx]).hopFree idx)) ∧
    (∀ (s : State) (idx : Nat), (s.ctype idx = ptyRESP ∨ s.ctype idx = ptyTHRU) → s.cstate idx = psHELD → (s.ent
      idx).staged = false →
      exec (.heldTimeout idx) s = .next (s.hopFree idx)) ∧
    (∀ (s : State) (idx : Nat), s.ctype idx = ptyORIG → s.cstate idx = psRELEASING →
      exec (.hopTimeout idx) s = .next ((s.freeEntry idx).kick)) ∧
    (∀ (s : State) (idx : Nat), s.ctype idx = ptyORIG → s.cstate idx = psRESERVING → (s.ent idx).phase = 1 → (((s.ent
      idx).wait.all fun x => x.2) = false) →
      exec (.hopTimeout idx) s = .next ((s.routeFail idx prHOP_SILENT).kick)) ∧
    (∀ (s : State) (idx : Nat), s.ctype idx = ptyORIG → s.cstate idx = psRESERVING → (s.ent idx).phase = 1 → (s.ent
      idx).wait ≠ [] → (((s.ent idx).wait.all fun x => x.2) = true) →
      exec (.hopTimeout idx) s = .next (((s.dropBackup idx).judge idx).kick)) ∧
    (∀ (s : State) (idx : Nat), s.ctype idx = ptyORIG → (s.cstate idx = psLIT ∨ s.cstate idx = psDOWN) → ((s.ent
      idx).phase = 4 ∨ (s.ent idx).phase = 5) → (s.ent idx).wait ≠ [] →
      exec (.hopTimeout idx) s = .next ((s.moveFail idx).kick)) ∧
    (∀ (s : State) (idx : Nat) (r : Nat × Nat), s.ctype idx = ptyRESP → (s.ent idx).tear = [r] →
      exec (.hopTimeout idx) s = .next (((s.endPath r prHOP_SILENT none).setEnt idx
        { s.ent idx with tear := [], drop := false }).kick)) ∧
    (∀ (s : State) (idx : Nat) (ref : Nat × Nat), s.ctype idx = ptyORIG → s.cstate idx = psLIGHTING → (s.ent idx).job =
      some ref →
      exec (.setupTimeout idx) s = .next ((((((s.note evSetupFail 0 0 0 [s.circFar idx, prVERIFY, (s.ent idx).tried]
        (s.pathCtx (some ref))).endPathOf (some ref) prVERIFY none).setEnt idx
        { s.ent idx with job := none }).releaseCirc idx).kick))) ∧
    (∀ (s : State) (idx : Nat), s.ctype idx = ptyORIG → s.cstate idx = psDOWN → (s.ent idx).phase = 0 → s.blk.noRef =
      false →
      exec (.downRetry idx) s = .next ((s.moveBackup idx).kick)) ∧
    (∀ (s : State) (idx : Nat), s.ctype idx = ptyORIG → s.cstate idx = psDOWN → s.blk.noRef = false →
      exec (.downHoldExpires idx) s = .next (((s.note evCircLost 1 6 idx [idx, s.circFar idx, s.opMs - (s.ent
        idx).downAt]).releaseCirc idx).kick)) ∧
    (∀ (s : State) (idx : Nat), s.blk.noRef = false → s.ctype idx = ptyORIG → s.cstate idx = psLIT → (s.ent idx).mode ≠ 0
      → (s.ent idx).bk = [] → (s.ent idx).phase = 0 → s.tick.backupFor idx (s.ent idx).route = [] →
      exec (.backupSeek idx) s = .next ((s.tick.setEnt idx { s.ent idx with bk := [] }).reportBackup idx)) ∧
    (∀ (s : State) (idx : Nat), s.blk.noRef = false → s.ctype idx = ptyORIG → s.cstate idx = psLIT → (s.ent idx).mode = 2
      → (s.ent idx).bk = [] → (s.ent idx).phase = 0 →
      exec (.backupSeek idx) s = .next ((s.tick.setEnt idx
        { s.ent idx with bk := s.tick.backupFor idx (s.ent idx).route }).reportBackup idx)) ∧
    (∀ (s : State) (plane inp outp : Nat) (p : PPath), ((s.path.planes.find? fun x => x.plane == plane && x.inp == inp &&
      x.outp == outp && x.lit) = some p) → s.ctype p.own = ptyORIG →
      exec (.planePathVerified plane inp outp true) s = .next
        ((({ s with path.planes := s.path.planes.map fun x => if x = p then { x with ok := true } else x } :
        State).checkLit p.own).kick)) ∧
    (∀ (s : State) (plane inp outp : Nat) (p : PPath), ((s.path.planes.find? fun x => x.plane == plane && x.inp == inp &&
      x.outp == outp && x.lit) = some p) → s.ctype p.own ≠ ptyORIG →
      exec (.planePathVerified plane inp outp true) s = .next
        ((({ s with path.planes := s.path.planes.map fun x => if x = p then { x with ok := true } else x } :
        State).hopLit p.own).kick)) ∧
    (∀ (s v : State) (plane inp outp : Nat) (p : PPath), ((s.path.planes.find? fun x => x.plane == plane && x.inp == inp
      && x.outp == outp && x.lit) = some p) → v = s.verifyFailed plane inp outp → v.ctype p.own = ptyORIG → (v.ent
      p.own).phase = 2 → v.cstate p.own = psLIGHTING →
      exec (.planePathVerified plane inp outp false) s = .next ((v.routeFail p.own prVERIFY).kick)) ∧
    (∀ (s : State) (step j : Nat) (x : PathJob) (q : PathReq), ((s.path.jobs.filter fun e => e.2.op == 0x52 && e.2.step
      == step && !e.2.commit) = [(j, x)]) → x.entries = [q] → s.prepared x q = false → x.circsOf false = [] →
      exec (.recableDeadline step) s = .next ((s.endPath (j, 0) prRECABLE_LATE none).kick)) ∧
    (∀ (s : State) (step j k i : Nat) (x : PathJob), ((s.path.jobs.filter fun e => e.2.op == 0x52 && e.2.step == step &&
      !e.2.commit) = [(j, x)]) → ((x.entries.all fun q => s.prepared x q) = true) → x.circsOf false = [(k, i)] →
      x.circsOf true = [] → (s.ent i).mode ≠ 1 →
      exec (.recableDeadline step) s = .next ((({ s with path.jobs := kset s.path.jobs j { x with commit := true } }
        : State).sendRoute i pmCOMMIT (s.ent i).offered (s.ent i).route false).kick)) ∧
    (∀ (s : State) (step i : Nat), (((List.range 512).filter fun i => decide (2 ≤ s.ctype i) && (s.ent i).step == step &&
      ((s.ent i).staged || (s.ent i).commit)) = [i]) → (s.ent i).drop = false → (∀ e ∈ (s.tickHop i).path.jobs,
      (e.2.op == 0x52 && e.2.step == step && e.2.commit) = false) →
      exec (.recableTick step) s = .next ((s.tickHop i).kick)) ∧
    (∀ (s : State) (port loss : Nat), loss ≤ 140 → exec (.spanLossMeasure port loss) s = .next ((((s.wr
      F.LAT_PORT.SPAN_LOSS (min loss 255) port).wr F.LAT_PORT.GAIN (min 200 (max 60 (60 + loss))) port).wr
      F.LAT_PORT.LOSSY 0 port))) ∧
    (∀ (s : State) (port loss : Nat), 140 < loss → s.flag F.LAT_PORT.LOSSY port = false →
      exec (.spanLossMeasure port loss) s = .next (((((s.wr F.LAT_PORT.SPAN_LOSS (min loss 255) port).wr
        F.LAT_PORT.GAIN (min 200 (max 60 (60 + loss))) port).wr F.LAT_PORT.LOSSY 1 port)).note evPortLossy 1 7 port
        [port, loss])) ∧
    (∀ (s : State) (node c o : Nat), s.boundCirc node = some c → (s.circ c).after = some o → (s.circ o).replay = [] →
      (s.circ o).txq = [] →
      exec (.rebind node) s = .next (s.setCirc c { s.circ c with after := none })) ∧
    (∀ (s : State) (idx n : Nat), s.ctype idx = ptyORIG → s.cstate idx = psRESERVING → (s.ent idx).wake = [n] →
      (s.nextHops n).isEmpty = true →
      exec (.wakeRoundExpires idx) s = .next ((s.routeFail idx prHOP_SILENT).kick)) ∧
    (∀ (s : State) (idx n : Nat), s.ctype idx = ptyORIG → s.cstate idx = psRESERVING → (s.ent idx).wake = [n] →
      (s.nextHops n).isEmpty = false →
      exec (.wakeRoundExpires idx) s = .next (((s.setEnt idx { s.ent idx with wake := [] }).sendResv idx).kick))

/-- A path message is taken only while the path core runs. A RESV takes the module out of DORMANT; it is refused
by a module that evacuates or has no reference, and otherwise takes the lowest free entry, holds the planes it can
grant and answers. Without a reference LIGHT, MOVE and RELEASE change nothing; else LIGHT and MOVE light what is
held, COMMIT and ABORT act on what is staged, RELEASE frees the entry and is answered. The originator takes
RESV_ACK, LIT and RELEASE_ACK off the modules it waits for and goes on once none is left; TEARDOWN_REQ tears the
circuit down, EVACUATE is answered when the sender is not on a route, AUDIT is answered with whether the circuit
is held, and WAKE sends the wake pattern. (R499, R506, R507, R508, R509, R511, R512, R517, R518, R519, R522,
spec/10_lattice_and_paths.md.) -/
def Obligations.PathMessageRows : Prop :=
    (∀ (s : State) (src : Nat) (m : PathMsg), s.path.coreUp = true → s.flag F.RST_STATUS.EVACUATED = true →
      exec (.resv src m) s = .next ((s.leaveDormant.tick.resvReply m 0 prFAR_REFUSED 0).kick)) ∧
    (∀ (s : State) (src : Nat) (m : PathMsg), s.path.coreUp = true → s.flag F.ID_NODE.NODE_VALID = true → s.flag
      F.RST_STATUS.EVACUATED = false → s.blk.noRef = true →
      exec (.resv src m) s = .next ((s.leaveDormant.tick.resvReply m 0 prNO_REFERENCE 0).kick)) ∧
    (∀ (s : State) (src : Nat) (m : PathMsg) (i : Nat), s.path.coreUp = true → s.flag F.ID_NODE.NODE_VALID = true →
      s.flag F.RST_STATUS.EVACUATED = false → s.blk.noRef = false → m.hop ≠ 4 → s.entOf m = none → s.freeIdx = some
      i → s.leaveDormant.tick.grantable m ≠ 0 →
      exec (.resv src m) s = .next ((((((((((((s.leaveDormant.tick.wr F.LAT_CIRC_A.TYPE (if m.backup then ptyBACKUP
        else ptyTHRU) i).wr F.LAT_CIRC_A.STATE psHELD i).wr F.LAT_CIRC_A.NODE m.origNode i).wr F.LAT_CIRC_A.ORIG_IDX
        m.origIdx i).wr F.LAT_CIRC_A.PORT_A m.portA i).wr F.LAT_CIRC_A.PORT_B m.portB i).wr F.LAT_CIRC_A.HOP m.hop
        i).wr F.LAT_CIRC_A.JOB_BOUND (b2n m.jobBound) i).wr F.LAT_CIRC_B.OWNER_JOB m.job i).setEnt i
        PathEnt.init).grant i m (s.leaveDormant.tick.grantable m)).kick)) ∧
    (∀ (s : State) (src : Nat) (m : PathMsg) (i : Nat), s.path.coreUp = true → s.origOf m = some i → (s.ent
      i).wait.contains (src, m.backup) = true → (s.ent i).phase = 1 → (s.ent i).wait.erase (src, m.backup) ≠ [] →
      exec (.resvAck src m) s = .next ((s.setEnt i
        { s.ent i with wait := (s.ent i).wait.erase (src, m.backup), acks := (s.ent i).acks ++ [⟨src, m.backup, m.planes, m.spanA, m.spanB⟩], reason := if m.planes = 0 ∧ !m.backup then m.reason else (s.ent i).reason, planed := if m.hop = 4 ∧ m.planes ≠ 0 then m.index else (s.ent i).planed }).kick)) ∧
    (∀ (s : State) (src : Nat) (m : PathMsg) (i : Nat), s.path.coreUp = true → s.origOf m = some i → (s.ent
      i).wait.contains (src, m.backup) = true → (s.ent i).phase = 3 → (s.ent i).wait.erase (src, m.backup) = [] →
      exec (.resvAck src m) s = .next (((s.setEnt i
        { s.ent i with wait := (s.ent i).wait.erase (src, m.backup), acks := (s.ent i).acks ++ [⟨src, m.backup, m.planes, m.spanA, m.spanB⟩], reason := if m.planes = 0 ∧ !m.backup then m.reason else (s.ent i).reason, planed := if m.hop = 4 ∧ m.planes ≠ 0 then m.index else (s.ent i).planed }).judgeSeek
        i).kick)) ∧
    (∀ (s : State) (src : Nat) (m : PathMsg) (i : Nat), s.path.coreUp = true → s.blk.noRef = false → s.entOf m = some i →
      (s.cstate i = psHELD ∨ s.cstate i = psLIT ∨ s.cstate i = psLIGHTING) →
      exec (.light src m) s = .next ((s.hopLight i m).kick)) ∧
    (∀ (s : State) (src : Nat) (m : PathMsg) (i : Nat), s.path.coreUp = true → s.origOf m = some i → (s.ent i).phase = 2
      → (s.ent i).wait.contains (src, false) = true → Nat.land m.planes (s.ent i).offered = (s.ent i).offered →
      exec (.lit src m) s = .next (((s.setEnt i { s.ent i with wait := (s.ent i).wait.erase (src, false) }).checkLit
        i).kick)) ∧
    (∀ (s : State) (src : Nat) (m : PathMsg) (i : Nat), s.path.coreUp = true → s.origOf m = some i → (s.ent i).phase = 2
      → (s.ent i).wait.contains (src, false) = true → Nat.land m.planes (s.ent i).offered ≠ (s.ent i).offered →
      s.cstate i = psLIGHTING →
      exec (.lit src m) s = .next ((s.routeFail i prVERIFY).kick)) ∧
    (∀ (s : State) (src : Nat) (m : PathMsg) (i : Nat), s.path.coreUp = true → s.blk.noRef = false → s.entOf m = some i →
      m.backup = false →
      exec (.release src m) s = .next (((s.hopFree i).sendPath src pmRELEASE_ACK { m with index := 0 }).kick)) ∧
    (∀ (s : State) (src : Nat) (m : PathMsg) (i : Nat), s.path.coreUp = true → s.origOf m = some i → s.cstate i =
      psRELEASING → (((s.ent i).wait.filter fun x => x.1 != src) = []) →
      exec (.releaseAck src m) s = .next (((s.setEnt i { s.ent i with wait := [] }).freeEntry i).kick)) ∧
    (∀ (s : State) (src : Nat) (m : PathMsg) (i : Nat), s.path.coreUp = true → s.origOf m = some i → s.cstate i =
      psRELEASING → (((s.ent i).wait.filter fun x => x.1 != src) ≠ []) →
      exec (.releaseAck src m) s = .next ((s.setEnt i
        { s.ent i with wait := (s.ent i).wait.filter fun x => x.1 != src }).kick)) ∧
    (∀ (s : State) (src : Nat) (m : PathMsg) (i : Nat), s.path.coreUp = true → s.blk.noRef = false → s.entOf m = some i →
      exec (.move src m) s = .next ((s.hopLight i { m with backup := true }).kick)) ∧
    (∀ (s : State) (src : Nat) (m : PathMsg) (i : Nat), s.path.coreUp = true → s.entOf m = some i → s.cstate i = psHELD →
      (s.ent i).staged = true →
      exec (.commit src m) s = .next ((((s.dropPaths i fun x => x.bk == m.backup && !bitOf m.planes x.plane).setEnt
        i { s.ent i with commit := true, step := m.step }).syncPlanes i).kick)) ∧
    (∀ (s : State) (src : Nat) (m : PathMsg) (i : Nat), s.path.coreUp = true → s.entOf m = some i → s.cstate i ≠ psHELD →
      exec (.commit src m) s = .next ((s.setEnt i
        { s.ent i with commit := true, drop := true, step := m.step }).kick)) ∧
    (∀ (s : State) (src : Nat) (m : PathMsg) (i : Nat), s.path.coreUp = true → s.entOf m = some i → s.cstate i = psHELD →
      (s.ent i).staged = true →
      exec (.pathAbort src m) s = .next ((s.hopFree i).kick)) ∧
    (∀ (s : State) (src : Nat) (m : PathMsg) (i : Nat), s.path.coreUp = true → s.origOf m = some i →
      exec (.audit src m) s = .next ((s.sendPath src pmAUDIT_REPLY
        { m with found := ((s.ent i).route ++ (s.ent i).bk).any fun h => h.node == src }).kick)) ∧
    (∀ (s : State) (src : Nat) (m : PathMsg), s.path.coreUp = true → s.origOf m = none →
      exec (.audit src m) s = .next ((s.sendPath src pmAUDIT_REPLY { m with found := false }).kick)) ∧
    (∀ (s : State) (src : Nat) (m : PathMsg) (i : Nat), s.path.coreUp = true → s.entOf m = some i → m.found = true →
      exec (.auditReply src m) s = .next ((s.setEnt i { s.ent i with audit := false }).kick)) ∧
    (∀ (s : State) (src : Nat) (m : PathMsg), s.path.coreUp = true → s.origOf m = none →
      exec (.evacuateMsg src m) s = .next ((s.sendPath src pmEVAC_ACK m).kick)) ∧
    (∀ (s : State) (src : Nat) (m : PathMsg) (i : Nat), s.path.coreUp = true → s.origOf m = some i → (((s.ent
      i).route.any fun h => h.node == src) = true) →
      exec (.evacuateMsg src m) s = .next (((s.setEnt i { s.ent i with evac := (s.ent i).evac ++ [src] }).pathLeave
        i).kick)) ∧
    (∀ (s : State) (src : Nat) (m : PathMsg) (i : Nat), s.path.coreUp = true → s.entOf m = some i →
      exec (.evacAck src m) s = .next ((s.setEnt i { s.ent i with evac := [] }).kick)) ∧
    (∀ (s : State) (src : Nat) (m : PathMsg) (i : Nat), s.path.coreUp = true → s.origOf m = some i →
      exec (.teardownReq src m) s = .next ((s.tearDown i none).kick)) ∧
    (∀ (s : State) (src : Nat) (m : PathMsg), s.path.coreUp = true →
      exec (.wake src m) s = .next (((s.wakePort m.portB).sendPath src pmWAKE_ACK m).kick)) ∧
    (∀ (s : State) (src : Nat) (m : PathMsg) (i : Nat), s.path.coreUp = true → s.origOf m = some i →
      exec (.wakeAck src m) s = .next ((s.setEnt i { s.ent i with wait := (s.ent i).wait.erase (src, false) }).kick)) ∧
    (∀ (s : State) (src : Nat) (m : PathMsg), s.path.coreUp = false →
      exec (.resv src m) s = .next s ∧ exec (.resvAck src m) s = .next s ∧ exec (.light src m) s = .next s ∧ exec
        (.lit src m) s = .next s ∧ exec (.release src m) s = .next s ∧ exec (.releaseAck src m) s = .next s ∧ exec
        (.move src m) s = .next s ∧ exec (.commit src m) s = .next s ∧ exec (.pathAbort src m) s = .next s ∧ exec
        (.audit src m) s = .next s ∧ exec (.auditReply src m) s = .next s ∧ exec (.evacuateMsg src m) s = .next s ∧
        exec (.evacAck src m) s = .next s ∧ exec (.teardownReq src m) s = .next s ∧ exec (.wake src m) s = .next s ∧
        exec (.wakeAck src m) s = .next s) ∧
    (∀ (s : State) (src : Nat) (m : PathMsg), s.path.coreUp = true → s.blk.noRef = true →
      exec (.light src m) s = .next s.kick ∧ exec (.move src m) s = .next s.kick ∧ exec (.release src m) s = .next
        s.kick)

/-- With a command at the front of the queue, one step is exec of that command on the state whose queue is the
rest; with an empty queue the step is next, and changes nothing but the time counter, by one tick while the keeper
is powered (a choice of the model: notes/assumptions/7). (spec/02_block_structure.md.) -/
def Obligations.StepRunsTheFrontCommand : Prop :=
    (∀ (s : State) (c : Instr) (rest : List Instr), s.pending = c :: rest → Machine.step s = exec c
      { s with pending := rest }) ∧ (∀ (s : State), s.pending = [] → Machine.step s = .next s.idle ∧ s.idle =
      { s with time.raw := s.idle.time.raw } ∧ s.idle.time.raw = if s.pwr.a.inRange || s.pwr.b.inRange ||
      s.pwr.holdUp then (s.time.raw + if s.flag F.TIM_STATUS.COARSE then 30518 else 4) % 2 ^ 64 else s.time.raw)

/-- Recording an event keeps memory, the cores, the engines, the links, the paths, the topology, the hinges, the
queue and every other part but the registers, the recorder, the reset controller, the alerts and the tickets.
Every register field but the recorder's two counts and the reset controller's reports reads as before. Every
record already buffered stays in its place, and no alert below SEV_HIGH changes. (R21, R664,
spec/17_event_recorder_and_ageing.md, spec/15_start_up_reset_and_recovery.md.) -/
def Obligations.RecordingKeepsTheRest : Prop :=
    ∀ (s : State) (code sev kind index : Nat) (payload : List Nat) (ctx : Option Nat) (injected : Bool), (∀ p ∉
      [Part.regs, .evr, .rst, .pwr, .mb], p.same s (s.record code sev kind index payload ctx injected)) ∧ (s.record
      code sev kind index payload ctx injected).pending = s.pending ∧ RegistersKept s (s.record code sev kind index
      payload ctx injected) [] ∧ s.evr.buf <+: (s.record code sev kind index payload ctx injected).evr.buf ∧ ∀ n <
      9, (s.record code sev kind index payload ctx injected).alertBit n = s.alertBit n

/-- Every command answers a next state from every state, and of every part of the state that the table reach does
not list for it the next state has what was there: memory byte for byte, the threads of the cores, the engines,
the links, the routes, the images and keys, and so on. The queue is never changed by a command.
(spec/95_what_each_step_holds.md, spec/02_block_structure.md.) -/
def Obligations.CommandsReachTheirParts : Prop :=
    ∀ (c : Instr) (s : State), ∃ t, exec c s = .next t ∧ (∀ p ∉ reach c, p.same s t) ∧ t.pending = s.pending ∧
      (Part.mem ∉ reach c → ∀ a n, t.memRead a n = s.memRead a n)

/-- For every state whose memory is canonical, a step that answers next leaves memory canonical, the queue without
its first command, everything that had been sent outward in place and in order, and the count of free values not
lower. (spec/06_memory_and_addressing.md, spec/02_block_structure.md.) -/
def Obligations.CommandsKeepTheState : Prop :=
    ∀ (s t : State), Canonical s → Machine.step s = .next t → Canonical t ∧ t.pending = s.pending.tail ∧ Extends s t

/-- From every state, whatever commands wait in its queue, as many steps as commands wait all answer next; after
them the queue is empty, all that was sent is still in place, and memory is canonical if it was.
(spec/95_what_each_step_holds.md, spec/98_reader.md.) -/
def Obligations.QueueRunsToItsEnd : Prop :=
    ∀ (s : State), ∃ t, after s.pending.length s = some t ∧ t.pending = [] ∧ Extends s t ∧ (Canonical s → Canonical
      t)

/-- Right after a keeper reset memory is canonical, no command waits and nothing has been sent; the module is in
mode STARTUP, and these registers read the reset values of their tables: DEV_CODE, Q_LIVE, DRAM_GIB, MOD_STATE,
Q_GATED, W_MATRIX, ARB_WAIT, PERIOD_S, REMOTE_TO, COLL_TO, LOG2_DEPTH of every queue, ACK_TO, REPLAY_MAX,
PMSG_AGE, HOP_TO, SETUP_TO, PRIO1, GM, PWRCYC_DRAIN and IDLE_S. Every core thread is FREE and every context slot
is free. (R15, R16, R654, spec/00_scope.md, spec/02_block_structure.md, spec/07_engines_and_command_lists.md,
spec/13_time_and_step_alignment.md.) -/
def Obligations.ResetState : Prop :=
    Canonical State.reset ∧ State.reset.pending = [] ∧ State.reset.out = [] ∧ State.reset.mode = mSTARTUP ∧
      State.reset.rd F.ID_DEVICE.DEV_CODE = 0x5C24 ∧ State.reset.rd F.ID_CAP.Q_LIVE = 0xF ∧ State.reset.rd
      F.ID_CAP.DRAM_GIB = 0x480 ∧ State.reset.rd F.ID_PWR_STATE.MOD_STATE = 1 ∧ State.reset.rd
      F.ID_PWR_STATE.Q_GATED = 0xF ∧ State.reset.rd F.CORE_CFG.W_MATRIX = 8 ∧ State.reset.rd F.CHK_CFG.ARB_WAIT = 10
      ∧ State.reset.rd F.CHK_ST_CFG.PERIOD_S = 3600 ∧ State.reset.rd F.MEM_CFG.REMOTE_TO = 10 ∧ State.reset.rd
      F.QDB_CFG.COLL_TO = 200 ∧ (∀ i, State.reset.rd F.QDB_QCFG.LOG2_DEPTH i = 6) ∧ State.reset.rd F.LNK_CFG.ACK_TO
      = 20 ∧ State.reset.rd F.LNK_CFG.REPLAY_MAX = 8 ∧ State.reset.rd F.LNK_CFG.PMSG_AGE = 100 ∧ State.reset.rd
      F.PTH_CFG.HOP_TO = 10 ∧ State.reset.rd F.PTH_CFG.SETUP_TO = 10 ∧ State.reset.rd F.TIM_CFG.PRIO1 = 128 ∧
      State.reset.rd F.TIM_STATUS.GM = 1 ∧ State.reset.rd F.RST_CFG.PWRCYC_DRAIN = 15 ∧ State.reset.rd
      F.EVR_CFG.IDLE_S = 60 ∧ (∀ c k, (State.reset.thread c k).st = .free) ∧ ∀ n, State.reset.ctxState n = ctxFree

/-- Writing a value to a field of a register makes that field read the value modulo its width, and leaves every
bit of every other field as it was: of the same register where the two fields share no bit, and of every register
at another offset. (R5, R10, spec/02_block_structure.md.) -/
def Obligations.RegisterFieldsHoldTheirBits : Prop :=
    ∀ (s : State) (f g : Fld) (v i j : Nat), f.lo ≤ f.hi → f.hi < 64 → (s.wr f v i).rd f i = v % 2 ^ (f.hi + 1 -
      f.lo) ∧ ((f.reg.off i ≠ g.reg.off j ∨ f.reg = g.reg ∧ (f.hi < g.lo ∨ g.hi < f.lo)) → (s.wr f v i).rd g j =
      s.rd g j)

/-- After bytes are written from an address on, each of those addresses reads its byte and every other address
reads as before; the canonical form is kept. The same holds where memory is cleared: the cleared bytes read as
bytes never written do, and no other changes. (R6, spec/06_memory_and_addressing.md.) -/
def Obligations.StoredBytesReadBack : Prop :=
    ∀ (s : State) (a : Nat) (bs : List (BitVec 8)), Canonical s → (∀ b, memByte (s.memWrite a bs).mem b = if a ≤ b ∧
      b < a + bs.length then bs.getD (b - a) 0 else memByte s.mem b) ∧ (∀ b n, memByte (s.memClear a n).mem b = if a
      ≤ b ∧ b < a + n then memDefault else memByte s.mem b) ∧ Canonical (s.memWrite a bs) ∧ ∀ n, Canonical
      (s.memClear a n)

/-- An action joins a queue ordered by class behind every action of its own class or a higher one and before every
action of a lower class; the queue stays ordered, keeps every action it held in their order, and holds one more.
(R673, spec/15_start_up_reset_and_recovery.md.) -/
def Obligations.ResetActionsQueueByClass : Prop :=
    ∀ (a : Action) (q : List Action), q.Pairwise (fun x y => y.cls ≤ x.cls) → (insertAction a q).Pairwise (fun x y
      => y.cls ≤ x.cls) ∧ q.Sublist (insertAction a q) ∧ insertAction a q = q.takeWhile (fun b => a.cls ≤ b.cls) ++
      a :: q.dropWhile (fun b => a.cls ≤ b.cls)

/-- For all FP32 values: where either operand is NaN, minimum and maximum give the canonical NaN 0x7FC0_0000,
every compare but not-equal is false, and not-equal is true. Of −0 and +0 in either order the minimum is −0 and
the maximum +0. (R207.) -/
def Obligations.MinimumMaximumAndCompare : Prop :=
    (∀ (a b : BitVec 32), (ofF32 a).isNan = true ∨ (ofF32 b).isNan = true → fpFn .min a b = 0x7FC00000 ∧ fpFn .max a
      b = 0x7FC00000 ∧ f32Cmp .ne a b = true ∧ ∀ c, c ≠ .ne → f32Cmp c a b = false) ∧ (∀ (a b : BitVec 32), (a =
      0x80000000 ∧ b = 0) ∨ (a = 0 ∧ b = 0x80000000) → fpFn .min a b = 0x80000000 ∧ fpFn .max a b = 0)

/-- The sum, difference and product of two INT32 lanes are the exact results modulo 2³², read as signed or as
unsigned numbers; each shift by any count is the shift by that count modulo 32. (R209.) -/
def Obligations.VectorIntegersWrap : Prop :=
    ∀ (a b : BitVec 32), (intFn .add a b).toNat = (a.toNat + b.toNat) % 2 ^ 32 ∧ (intFn .add a b).toInt = (a.toInt +
      b.toInt).bmod (2 ^ 32) ∧ (intFn .sub a b).toInt = (a.toInt - b.toInt).bmod (2 ^ 32) ∧ (intFn .mulLo a b).toNat
      = (a.toNat * b.toNat) % 2 ^ 32 ∧ (intFn .mulLo a b).toInt = (a.toInt * b.toInt).bmod (2 ^ 32) ∧ (intFn .shl a
      b).toNat = (a.toNat * 2 ^ (b.toNat % 32)) % 2 ^ 32 ∧ (intFn .shr a b).toNat = a.toNat / 2 ^ (b.toNat % 32) ∧
      (intFn .sar a b).toInt = a.toInt / 2 ^ (b.toNat % 32) ∧ ∀ f ∈ [IntFn.shl, .shr, .sar], intFn f a b = intFn f a
      (b &&& 31)

/-- With the request asserted, the command POWER_CYCLE_NOT_EXECUTED records the event at SEV6, leaves the request
asserted and leaves every part but the recorder, its registers and the alerts as it was. (R83.) -/
def Obligations.PowerCycleRefused : Prop :=
    ∀ (s : State), s.pwr.pwrcycReq = true → ∃ t, exec .powerCycleNotExecuted s = .next t ∧ Recorded s t evPwrcycNot
      6 0 0 ∧ t.pwr.pwrcycReq = true ∧ (∀ p ∉ [Part.regs, .evr, .pwr], p.same s t) ∧ RegistersKept s t []

/-- For every list of earlier restarts: where two or more of them lie within the hour before this one, the restart
records RST_KEEPER_LOOP at SEV6; with fewer it records RST_KEEPER_RESTART at SEV1, and this restart is remembered
after those of the hour. (R661.) -/
def Obligations.KeeperRestartsThriceInAnHour : Prop :=
    ∀ (s : State), ∃ t, exec .keeperWatchdog s = .next t ∧ (if 2 ≤ (s.rst.keepTimes.filter fun u => decide (s.opMs <
      u + 3600000)).length then Recorded s t evKeeperLoop 6 0 0 else Recorded s t evKeeperRestart 1 0 0) ∧
      t.rst.keepTimes = (s.rst.keepTimes.filter fun u => decide (s.opMs < u + 3600000)) ++ [s.opMs]

/-- Of a started command: EVENT_WAIT and both forms of EVENT_SIGNAL with an event above 63 end in the queue error
BAD_EVENT; TIMESTAMP with an address that is not 16-byte aligned, and MEM_WAIT with one that is not 8-byte aligned
or lies on another module, in BAD_ADDR, which records the address. (R351.) -/
def Obligations.EventAndAddressOperands : Prop :=
    ∀ (s : State) (slot queue count : Nat) (c : Cmd), (Started s ⟨slot, queue, count⟩ 0x01 c → 63 < leAt c.bytes 8 1
      → exec (.eventWait slot queue count) s = .next (s.operandError ⟨slot, queue, count⟩ c qeBAD_EVENT)) ∧ (Started
      s ⟨slot, queue, count⟩ 0x02 c → 63 < leAt c.bytes 8 1 → leAt c.bytes 9 1 = 0 → exec (.eventSignalSet slot
      queue count) s = .next (s.operandError ⟨slot, queue, count⟩ c qeBAD_EVENT)) ∧ (Started s ⟨slot, queue, count⟩
      0x02 c → 63 < leAt c.bytes 8 1 → leAt c.bytes 9 1 = 1 → exec (.eventSignalAdd slot queue count) s = .next
      (s.operandError ⟨slot, queue, count⟩ c qeBAD_EVENT)) ∧ (Started s ⟨slot, queue, count⟩ 0x04 c → leAt c.bytes
      16 8 % 16 ≠ 0 → exec (.timestamp slot queue count) s = .next (s.operandError ⟨slot, queue, count⟩ c qeBAD_ADDR
      (leAt c.bytes 16 8))) ∧ (Started s ⟨slot, queue, count⟩ 0x05 c → (leAt c.bytes 16 8 % 8 ≠ 0 ∨ s.isLocalAddr
      (leAt c.bytes 16 8) = false) → ∀ e, exec (.memWait slot queue count e) s = .next (s.operandError ⟨slot, queue,
      count⟩ c qeBAD_ADDR (leAt c.bytes 16 8)))

/-- A request TWOKEY_STATUS that passes the checks of R629 is answered OK with a payload whose bytes 0 to 3 read
TK_COUNTER; bytes 4 and 5 read the pending operation, byte 6 its holder and bytes 8 and 9 the whole seconds left
of its 10 minutes, and 0 each with nothing pending. Nothing but the answer changes. (R703.) -/
def Obligations.TwoKeyStatusPayload : Prop :=
    (∀ (s : State) (q : Req) (x : TwoKey), s.taking 0x0601 = some q → s.upd.pending = some x → ∃ p, exec
      .twokeyStatus s = .next { s with mb.resp := some ⟨stOK, 0xFF, 0xFFFF, p⟩ } ∧ leAt p 0 4 = s.rd
      F.SEC_STATUS.TK_COUNTER ∧ leAt p 4 2 = tkOp x.head % 2 ^ 16 ∧ leAt p 6 1 = x.holder % 2 ^ 8 ∧ leAt p 8 2 =
      (x.since + 600000 - s.opMs) / 1000 % 2 ^ 16) ∧ (∀ (s : State) (q : Req), s.taking 0x0601 = some q →
      s.upd.pending = none → ∃ p, exec .twokeyStatus s = .next { s with mb.resp := some ⟨stOK, 0xFF, 0xFFFF, p⟩ } ∧
      leAt p 0 4 = s.rd F.SEC_STATUS.TK_COUNTER ∧ leAt p 4 2 = 0 ∧ leAt p 6 1 = 0 ∧ leAt p 8 2 = 0)

/-- Each of the commands named, wherever it answers a next state, leaves every field of every register as it was
but for those of the registers listed with it, the counts of the recorder and the reports of the reset controller:
the feeds, clocks and references (a qualified reference up to the path work that then goes on), the overheat gate,
the scrubber, bias and mirror commands, the recorder, the watchdogs, the mailbox, the history and the lanes. (R10,
spec/01_module_and_pins.md, spec/02_block_structure.md, spec/05_result_checking.md,
spec/06_memory_and_addressing.md, spec/09_fezen_links.md, spec/14_orquin_mailbox_and_configuration.md,
spec/15_start_up_reset_and_recovery.md, spec/17_event_recorder_and_ageing.md.) -/
def Obligations.CommandsWriteTheirRegisters : Prop :=
    (∀ (s : State) (t : State), exec .feedRedundStartCheck s = .next t →
      RegistersKept s t []) ∧
    (∀ (s : State) (t : State), exec .powerCycleNotExecuted s = .next t →
      RegistersKept s t []) ∧
    (∀ (s : State) (i : Int) (q : Nat) (t : State), exec (.computeClockStep i q) s = .next t →
      RegistersKept s t []) ∧
    (∀ (s : State) (t : State), exec .trefLost s = .next t → RegistersKept s t [.ID_PWR_STATE]) ∧
    (∀ (s : State) (t : State), exec .referencesLost s = .next t →
      RegistersKept s t [.TIM_STATUS, .PTH_STATUS]) ∧
    (∀ (s : State) (b : Bool) (t : State), exec (.referenceQualified b) s = .next t →
      ∃ u : State, t = u.kick ∧ RegistersKept s u [.ID_PWR_STATE, .TIM_STATUS, .PTH_STATUS]) ∧
    (∀ (s : State) (q : Nat) (j : Int) (t : State), exec (.quarterOverheatGate q j) s = .next t →
      RegistersKept s t [.ID_PWR_STATE]) ∧
    (∀ (s : State) (g : Nat) (e : EccFinding) (t : State), exec (.patrolScrub g e) s = .next t →
      RegistersKept s t [.MEM_ECC_CNT_CORR, .MEM_ECC_CNT_UNCORR]) ∧
    (∀ (s : State) (d : Nat) (t : State), exec (.selfRefreshTimeout d) s = .next t →
      RegistersKept s t []) ∧
    (∀ (s : State) (t : State), exec .biasChangeComplete s = .next t →
      RegistersKept s t [.MEM_BIAS_CMD, .MEM_BIAS_STATUS]) ∧
    (∀ (s : State) (b : Nat) (t : State), exec (.mirrorEnable b) s = .next t →
      RegistersKept s t [.MEM_MIRROR_CFG, .MEM_MIRROR_STATUS, .ID_PWR_STATE]) ∧
    (∀ (s : State) (t : State), exec .resyncComplete s = .next t →
      RegistersKept s t [.MEM_MIRROR_STATUS]) ∧
    (∀ (s : State) (t : State), exec .latchExpires s = .next t → RegistersKept s t []) ∧
    (∀ (s : State) (t : State), exec .watchdogPeriod s = .next t →
      RegistersKept s t [.ORQ_HB_STATUS]) ∧
    (∀ (s : State) (t : State), exec .keeperWatchdog s = .next t →
      RegistersKept s t []) ∧
    (∀ (s : State) (t : State), exec .rstDumpDone s = .next t → RegistersKept s t []) ∧
    (∀ (s : State) (a b : Nat) (t : State), exec (.queueDisable a b) s = .next t →
      RegistersKept s t [.QDB_QCFG, .QDB_CTX, .ID_PWR_STATE]) ∧
    (∀ (s : State) (u : Nat) (ok : Bool) (t : State), exec (.historyFlashWrite u ok) s = .next t →
      RegistersKept s t []) ∧
    (∀ (s : State) (v : Nat) (t : State), exec (.chkInjectArm v) s = .next t →
      RegistersKept s t [.CHK_INJECT, .ID_PWR_STATE]) ∧
    (∀ (s : State) (t : State), exec .mailboxTimeout s = .next t →
      RegistersKept s t [.ORQ_MB_STATUS]) ∧
    (∀ (s : State) (t : State), exec .getResult s = .next t → RegistersKept s t [.ORQ_ASYNC_DONE]) ∧
    (∀ (s : State) (t : State), exec .evrLatch s = .next t → RegistersKept s t []) ∧
    (∀ (s : State) (v : Nat) (t : State), exec (.hceSpGo v) s = .next t →
      RegistersKept s t [.HCE_SP, .ID_PWR_STATE]) ∧
    (∀ (s : State) (l n : Nat) (t : State), exec (.lnkBerHigh l n) s = .next t →
      RegistersKept s t [.LNK_LANE_ERR])
end

