-- ==== Sys2Proof/Laws/State.lean ====
section
/-! SUPPORT. What each named update leaves alone, field by field, and the laws of the register file: a field reads back
what was written, and a write of one field is not seen in another. -/

set_option Elab.async false
namespace Sys2Proof.Machine
open Sys2Proof

/-! ### Named updates, field by field -/
@[simp] theorem State.wreg_pending (s : State) (r : Reg) (v : BitVec 64) (i : Nat) : (s.wreg r v i).pending = s.pending := rfl
@[simp] theorem State.wreg_free (s : State) (r : Reg) (v : BitVec 64) (i : Nat) : (s.wreg r v i).free = s.free := rfl
@[simp] theorem State.wreg_mem (s : State) (r : Reg) (v : BitVec 64) (i : Nat) : (s.wreg r v i).mem = s.mem := rfl
@[simp] theorem State.wreg_out (s : State) (r : Reg) (v : BitVec 64) (i : Nat) : (s.wreg r v i).out = s.out := rfl
@[simp] theorem State.wreg_evr (s : State) (r : Reg) (v : BitVec 64) (i : Nat) : (s.wreg r v i).evr = s.evr := rfl
@[simp] theorem State.wreg_rst (s : State) (r : Reg) (v : BitVec 64) (i : Nat) : (s.wreg r v i).rst = s.rst := rfl
@[simp] theorem State.wreg_pwr (s : State) (r : Reg) (v : BitVec 64) (i : Nat) : (s.wreg r v i).pwr = s.pwr := rfl
@[simp] theorem State.wreg_blk (s : State) (r : Reg) (v : BitVec 64) (i : Nat) : (s.wreg r v i).blk = s.blk := rfl
@[simp] theorem State.wreg_time (s : State) (r : Reg) (v : BitVec 64) (i : Nat) : (s.wreg r v i).time = s.time := rfl
@[simp] theorem State.wreg_mb (s : State) (r : Reg) (v : BitVec 64) (i : Nat) : (s.wreg r v i).mb = s.mb := rfl
@[simp] theorem State.wreg_cores (s : State) (r : Reg) (v : BitVec 64) (i : Nat) : (s.wreg r v i).cores = s.cores := rfl
@[simp] theorem State.wreg_chk (s : State) (r : Reg) (v : BitVec 64) (i : Nat) : (s.wreg r v i).chk = s.chk := rfl
@[simp] theorem State.wreg_ms (s : State) (r : Reg) (v : BitVec 64) (i : Nat) : (s.wreg r v i).ms = s.ms := rfl
@[simp] theorem State.wreg_eng (s : State) (r : Reg) (v : BitVec 64) (i : Nat) : (s.wreg r v i).eng = s.eng := rfl
@[simp] theorem State.wreg_lk (s : State) (r : Reg) (v : BitVec 64) (i : Nat) : (s.wreg r v i).lk = s.lk := rfl
@[simp] theorem State.wreg_routes (s : State) (r : Reg) (v : BitVec 64) (i : Nat) : (s.wreg r v i).routes = s.routes := rfl
@[simp] theorem State.wreg_place (s : State) (r : Reg) (v : BitVec 64) (i : Nat) : (s.wreg r v i).place = s.place := rfl
@[simp] theorem State.wreg_path (s : State) (r : Reg) (v : BitVec 64) (i : Nat) : (s.wreg r v i).path = s.path := rfl
@[simp] theorem State.wreg_topo (s : State) (r : Reg) (v : BitVec 64) (i : Nat) : (s.wreg r v i).topo = s.topo := rfl
@[simp] theorem State.wreg_hce (s : State) (r : Reg) (v : BitVec 64) (i : Nat) : (s.wreg r v i).hce = s.hce := rfl
@[simp] theorem State.wreg_peers (s : State) (r : Reg) (v : BitVec 64) (i : Nat) : (s.wreg r v i).peers = s.peers := rfl
@[simp] theorem State.wreg_upd (s : State) (r : Reg) (v : BitVec 64) (i : Nat) : (s.wreg r v i).upd = s.upd := rfl
@[simp] theorem State.wreg_age (s : State) (r : Reg) (v : BitVec 64) (i : Nat) : (s.wreg r v i).age = s.age := rfl

@[simp] theorem State.wr_pending (s : State) (f : Fld) (v i : Nat) : (s.wr f v i).pending = s.pending := rfl
@[simp] theorem State.wr_free (s : State) (f : Fld) (v i : Nat) : (s.wr f v i).free = s.free := rfl
@[simp] theorem State.wr_mem (s : State) (f : Fld) (v i : Nat) : (s.wr f v i).mem = s.mem := rfl
@[simp] theorem State.wr_out (s : State) (f : Fld) (v i : Nat) : (s.wr f v i).out = s.out := rfl
@[simp] theorem State.wr_evr (s : State) (f : Fld) (v i : Nat) : (s.wr f v i).evr = s.evr := rfl
@[simp] theorem State.wr_rst (s : State) (f : Fld) (v i : Nat) : (s.wr f v i).rst = s.rst := rfl
@[simp] theorem State.wr_pwr (s : State) (f : Fld) (v i : Nat) : (s.wr f v i).pwr = s.pwr := rfl
@[simp] theorem State.wr_blk (s : State) (f : Fld) (v i : Nat) : (s.wr f v i).blk = s.blk := rfl
@[simp] theorem State.wr_time (s : State) (f : Fld) (v i : Nat) : (s.wr f v i).time = s.time := rfl
@[simp] theorem State.wr_mb (s : State) (f : Fld) (v i : Nat) : (s.wr f v i).mb = s.mb := rfl
@[simp] theorem State.wr_cores (s : State) (f : Fld) (v i : Nat) : (s.wr f v i).cores = s.cores := rfl
@[simp] theorem State.wr_chk (s : State) (f : Fld) (v i : Nat) : (s.wr f v i).chk = s.chk := rfl
@[simp] theorem State.wr_ms (s : State) (f : Fld) (v i : Nat) : (s.wr f v i).ms = s.ms := rfl
@[simp] theorem State.wr_eng (s : State) (f : Fld) (v i : Nat) : (s.wr f v i).eng = s.eng := rfl
@[simp] theorem State.wr_lk (s : State) (f : Fld) (v i : Nat) : (s.wr f v i).lk = s.lk := rfl
@[simp] theorem State.wr_routes (s : State) (f : Fld) (v i : Nat) : (s.wr f v i).routes = s.routes := rfl
@[simp] theorem State.wr_place (s : State) (f : Fld) (v i : Nat) : (s.wr f v i).place = s.place := rfl
@[simp] theorem State.wr_path (s : State) (f : Fld) (v i : Nat) : (s.wr f v i).path = s.path := rfl
@[simp] theorem State.wr_topo (s : State) (f : Fld) (v i : Nat) : (s.wr f v i).topo = s.topo := rfl
@[simp] theorem State.wr_hce (s : State) (f : Fld) (v i : Nat) : (s.wr f v i).hce = s.hce := rfl
@[simp] theorem State.wr_peers (s : State) (f : Fld) (v i : Nat) : (s.wr f v i).peers = s.peers := rfl
@[simp] theorem State.wr_upd (s : State) (f : Fld) (v i : Nat) : (s.wr f v i).upd = s.upd := rfl
@[simp] theorem State.wr_age (s : State) (f : Fld) (v i : Nat) : (s.wr f v i).age = s.age := rfl

@[simp] theorem State.bump_pending (s : State) (f : Fld) (i n : Nat) : (s.bump f i n).pending = s.pending := rfl
@[simp] theorem State.bump_free (s : State) (f : Fld) (i n : Nat) : (s.bump f i n).free = s.free := rfl
@[simp] theorem State.bump_mem (s : State) (f : Fld) (i n : Nat) : (s.bump f i n).mem = s.mem := rfl
@[simp] theorem State.bump_out (s : State) (f : Fld) (i n : Nat) : (s.bump f i n).out = s.out := rfl
@[simp] theorem State.bump_evr (s : State) (f : Fld) (i n : Nat) : (s.bump f i n).evr = s.evr := rfl
@[simp] theorem State.bump_rst (s : State) (f : Fld) (i n : Nat) : (s.bump f i n).rst = s.rst := rfl
@[simp] theorem State.bump_pwr (s : State) (f : Fld) (i n : Nat) : (s.bump f i n).pwr = s.pwr := rfl
@[simp] theorem State.bump_blk (s : State) (f : Fld) (i n : Nat) : (s.bump f i n).blk = s.blk := rfl
@[simp] theorem State.bump_time (s : State) (f : Fld) (i n : Nat) : (s.bump f i n).time = s.time := rfl
@[simp] theorem State.bump_mb (s : State) (f : Fld) (i n : Nat) : (s.bump f i n).mb = s.mb := rfl
@[simp] theorem State.bump_cores (s : State) (f : Fld) (i n : Nat) : (s.bump f i n).cores = s.cores := rfl
@[simp] theorem State.bump_chk (s : State) (f : Fld) (i n : Nat) : (s.bump f i n).chk = s.chk := rfl
@[simp] theorem State.bump_ms (s : State) (f : Fld) (i n : Nat) : (s.bump f i n).ms = s.ms := rfl
@[simp] theorem State.bump_eng (s : State) (f : Fld) (i n : Nat) : (s.bump f i n).eng = s.eng := rfl
@[simp] theorem State.bump_lk (s : State) (f : Fld) (i n : Nat) : (s.bump f i n).lk = s.lk := rfl
@[simp] theorem State.bump_routes (s : State) (f : Fld) (i n : Nat) : (s.bump f i n).routes = s.routes := rfl
@[simp] theorem State.bump_place (s : State) (f : Fld) (i n : Nat) : (s.bump f i n).place = s.place := rfl
@[simp] theorem State.bump_path (s : State) (f : Fld) (i n : Nat) : (s.bump f i n).path = s.path := rfl
@[simp] theorem State.bump_topo (s : State) (f : Fld) (i n : Nat) : (s.bump f i n).topo = s.topo := rfl
@[simp] theorem State.bump_hce (s : State) (f : Fld) (i n : Nat) : (s.bump f i n).hce = s.hce := rfl
@[simp] theorem State.bump_peers (s : State) (f : Fld) (i n : Nat) : (s.bump f i n).peers = s.peers := rfl
@[simp] theorem State.bump_upd (s : State) (f : Fld) (i n : Nat) : (s.bump f i n).upd = s.upd := rfl
@[simp] theorem State.bump_age (s : State) (f : Fld) (i n : Nat) : (s.bump f i n).age = s.age := rfl

@[simp] theorem State.bumpSat_pending (s : State) (f : Fld) (i : Nat) : (s.bumpSat f i).pending = s.pending := rfl
@[simp] theorem State.bumpSat_free (s : State) (f : Fld) (i : Nat) : (s.bumpSat f i).free = s.free := rfl
@[simp] theorem State.bumpSat_mem (s : State) (f : Fld) (i : Nat) : (s.bumpSat f i).mem = s.mem := rfl
@[simp] theorem State.bumpSat_out (s : State) (f : Fld) (i : Nat) : (s.bumpSat f i).out = s.out := rfl
@[simp] theorem State.bumpSat_evr (s : State) (f : Fld) (i : Nat) : (s.bumpSat f i).evr = s.evr := rfl
@[simp] theorem State.bumpSat_rst (s : State) (f : Fld) (i : Nat) : (s.bumpSat f i).rst = s.rst := rfl
@[simp] theorem State.bumpSat_pwr (s : State) (f : Fld) (i : Nat) : (s.bumpSat f i).pwr = s.pwr := rfl
@[simp] theorem State.bumpSat_blk (s : State) (f : Fld) (i : Nat) : (s.bumpSat f i).blk = s.blk := rfl
@[simp] theorem State.bumpSat_time (s : State) (f : Fld) (i : Nat) : (s.bumpSat f i).time = s.time := rfl
@[simp] theorem State.bumpSat_mb (s : State) (f : Fld) (i : Nat) : (s.bumpSat f i).mb = s.mb := rfl
@[simp] theorem State.bumpSat_cores (s : State) (f : Fld) (i : Nat) : (s.bumpSat f i).cores = s.cores := rfl
@[simp] theorem State.bumpSat_chk (s : State) (f : Fld) (i : Nat) : (s.bumpSat f i).chk = s.chk := rfl
@[simp] theorem State.bumpSat_ms (s : State) (f : Fld) (i : Nat) : (s.bumpSat f i).ms = s.ms := rfl
@[simp] theorem State.bumpSat_eng (s : State) (f : Fld) (i : Nat) : (s.bumpSat f i).eng = s.eng := rfl
@[simp] theorem State.bumpSat_lk (s : State) (f : Fld) (i : Nat) : (s.bumpSat f i).lk = s.lk := rfl
@[simp] theorem State.bumpSat_routes (s : State) (f : Fld) (i : Nat) : (s.bumpSat f i).routes = s.routes := rfl
@[simp] theorem State.bumpSat_place (s : State) (f : Fld) (i : Nat) : (s.bumpSat f i).place = s.place := rfl
@[simp] theorem State.bumpSat_path (s : State) (f : Fld) (i : Nat) : (s.bumpSat f i).path = s.path := rfl
@[simp] theorem State.bumpSat_topo (s : State) (f : Fld) (i : Nat) : (s.bumpSat f i).topo = s.topo := rfl
@[simp] theorem State.bumpSat_hce (s : State) (f : Fld) (i : Nat) : (s.bumpSat f i).hce = s.hce := rfl
@[simp] theorem State.bumpSat_peers (s : State) (f : Fld) (i : Nat) : (s.bumpSat f i).peers = s.peers := rfl
@[simp] theorem State.bumpSat_upd (s : State) (f : Fld) (i : Nat) : (s.bumpSat f i).upd = s.upd := rfl
@[simp] theorem State.bumpSat_age (s : State) (f : Fld) (i : Nat) : (s.bumpSat f i).age = s.age := rfl

@[simp] theorem State.memWrite_pending (s : State) (a : Nat) (bs : List (BitVec 8)) : (s.memWrite a bs).pending = s.pending := rfl
@[simp] theorem State.memWrite_free (s : State) (a : Nat) (bs : List (BitVec 8)) : (s.memWrite a bs).free = s.free := rfl
@[simp] theorem State.memWrite_regs (s : State) (a : Nat) (bs : List (BitVec 8)) : (s.memWrite a bs).regs = s.regs := rfl
@[simp] theorem State.memWrite_out (s : State) (a : Nat) (bs : List (BitVec 8)) : (s.memWrite a bs).out = s.out := rfl
@[simp] theorem State.memWrite_evr (s : State) (a : Nat) (bs : List (BitVec 8)) : (s.memWrite a bs).evr = s.evr := rfl
@[simp] theorem State.memWrite_rst (s : State) (a : Nat) (bs : List (BitVec 8)) : (s.memWrite a bs).rst = s.rst := rfl
@[simp] theorem State.memWrite_pwr (s : State) (a : Nat) (bs : List (BitVec 8)) : (s.memWrite a bs).pwr = s.pwr := rfl
@[simp] theorem State.memWrite_blk (s : State) (a : Nat) (bs : List (BitVec 8)) : (s.memWrite a bs).blk = s.blk := rfl
@[simp] theorem State.memWrite_time (s : State) (a : Nat) (bs : List (BitVec 8)) : (s.memWrite a bs).time = s.time := rfl
@[simp] theorem State.memWrite_mb (s : State) (a : Nat) (bs : List (BitVec 8)) : (s.memWrite a bs).mb = s.mb := rfl
@[simp] theorem State.memWrite_cores (s : State) (a : Nat) (bs : List (BitVec 8)) : (s.memWrite a bs).cores = s.cores := rfl
@[simp] theorem State.memWrite_chk (s : State) (a : Nat) (bs : List (BitVec 8)) : (s.memWrite a bs).chk = s.chk := rfl
@[simp] theorem State.memWrite_ms (s : State) (a : Nat) (bs : List (BitVec 8)) : (s.memWrite a bs).ms = s.ms := rfl
@[simp] theorem State.memWrite_eng (s : State) (a : Nat) (bs : List (BitVec 8)) : (s.memWrite a bs).eng = s.eng := rfl
@[simp] theorem State.memWrite_lk (s : State) (a : Nat) (bs : List (BitVec 8)) : (s.memWrite a bs).lk = s.lk := rfl
@[simp] theorem State.memWrite_routes (s : State) (a : Nat) (bs : List (BitVec 8)) : (s.memWrite a bs).routes = s.routes := rfl
@[simp] theorem State.memWrite_place (s : State) (a : Nat) (bs : List (BitVec 8)) : (s.memWrite a bs).place = s.place := rfl
@[simp] theorem State.memWrite_path (s : State) (a : Nat) (bs : List (BitVec 8)) : (s.memWrite a bs).path = s.path := rfl
@[simp] theorem State.memWrite_topo (s : State) (a : Nat) (bs : List (BitVec 8)) : (s.memWrite a bs).topo = s.topo := rfl
@[simp] theorem State.memWrite_hce (s : State) (a : Nat) (bs : List (BitVec 8)) : (s.memWrite a bs).hce = s.hce := rfl
@[simp] theorem State.memWrite_peers (s : State) (a : Nat) (bs : List (BitVec 8)) : (s.memWrite a bs).peers = s.peers := rfl
@[simp] theorem State.memWrite_upd (s : State) (a : Nat) (bs : List (BitVec 8)) : (s.memWrite a bs).upd = s.upd := rfl
@[simp] theorem State.memWrite_age (s : State) (a : Nat) (bs : List (BitVec 8)) : (s.memWrite a bs).age = s.age := rfl

@[simp] theorem State.memClear_pending (s : State) (a n : Nat) : (s.memClear a n).pending = s.pending := rfl
@[simp] theorem State.memClear_free (s : State) (a n : Nat) : (s.memClear a n).free = s.free := rfl
@[simp] theorem State.memClear_regs (s : State) (a n : Nat) : (s.memClear a n).regs = s.regs := rfl
@[simp] theorem State.memClear_out (s : State) (a n : Nat) : (s.memClear a n).out = s.out := rfl
@[simp] theorem State.memClear_evr (s : State) (a n : Nat) : (s.memClear a n).evr = s.evr := rfl
@[simp] theorem State.memClear_rst (s : State) (a n : Nat) : (s.memClear a n).rst = s.rst := rfl
@[simp] theorem State.memClear_pwr (s : State) (a n : Nat) : (s.memClear a n).pwr = s.pwr := rfl
@[simp] theorem State.memClear_blk (s : State) (a n : Nat) : (s.memClear a n).blk = s.blk := rfl
@[simp] theorem State.memClear_time (s : State) (a n : Nat) : (s.memClear a n).time = s.time := rfl
@[simp] theorem State.memClear_mb (s : State) (a n : Nat) : (s.memClear a n).mb = s.mb := rfl
@[simp] theorem State.memClear_cores (s : State) (a n : Nat) : (s.memClear a n).cores = s.cores := rfl
@[simp] theorem State.memClear_chk (s : State) (a n : Nat) : (s.memClear a n).chk = s.chk := rfl
@[simp] theorem State.memClear_ms (s : State) (a n : Nat) : (s.memClear a n).ms = s.ms := rfl
@[simp] theorem State.memClear_eng (s : State) (a n : Nat) : (s.memClear a n).eng = s.eng := rfl
@[simp] theorem State.memClear_lk (s : State) (a n : Nat) : (s.memClear a n).lk = s.lk := rfl
@[simp] theorem State.memClear_routes (s : State) (a n : Nat) : (s.memClear a n).routes = s.routes := rfl
@[simp] theorem State.memClear_place (s : State) (a n : Nat) : (s.memClear a n).place = s.place := rfl
@[simp] theorem State.memClear_path (s : State) (a n : Nat) : (s.memClear a n).path = s.path := rfl
@[simp] theorem State.memClear_topo (s : State) (a n : Nat) : (s.memClear a n).topo = s.topo := rfl
@[simp] theorem State.memClear_hce (s : State) (a n : Nat) : (s.memClear a n).hce = s.hce := rfl
@[simp] theorem State.memClear_peers (s : State) (a n : Nat) : (s.memClear a n).peers = s.peers := rfl
@[simp] theorem State.memClear_upd (s : State) (a n : Nat) : (s.memClear a n).upd = s.upd := rfl
@[simp] theorem State.memClear_age (s : State) (a n : Nat) : (s.memClear a n).age = s.age := rfl

@[simp] theorem State.emit_pending (s : State) (x : Output) : (s.emit x).pending = s.pending := rfl
@[simp] theorem State.emit_free (s : State) (x : Output) : (s.emit x).free = s.free := rfl
@[simp] theorem State.emit_regs (s : State) (x : Output) : (s.emit x).regs = s.regs := rfl
@[simp] theorem State.emit_mem (s : State) (x : Output) : (s.emit x).mem = s.mem := rfl
@[simp] theorem State.emit_evr (s : State) (x : Output) : (s.emit x).evr = s.evr := rfl
@[simp] theorem State.emit_rst (s : State) (x : Output) : (s.emit x).rst = s.rst := rfl
@[simp] theorem State.emit_pwr (s : State) (x : Output) : (s.emit x).pwr = s.pwr := rfl
@[simp] theorem State.emit_blk (s : State) (x : Output) : (s.emit x).blk = s.blk := rfl
@[simp] theorem State.emit_time (s : State) (x : Output) : (s.emit x).time = s.time := rfl
@[simp] theorem State.emit_mb (s : State) (x : Output) : (s.emit x).mb = s.mb := rfl
@[simp] theorem State.emit_cores (s : State) (x : Output) : (s.emit x).cores = s.cores := rfl
@[simp] theorem State.emit_chk (s : State) (x : Output) : (s.emit x).chk = s.chk := rfl
@[simp] theorem State.emit_ms (s : State) (x : Output) : (s.emit x).ms = s.ms := rfl
@[simp] theorem State.emit_eng (s : State) (x : Output) : (s.emit x).eng = s.eng := rfl
@[simp] theorem State.emit_lk (s : State) (x : Output) : (s.emit x).lk = s.lk := rfl
@[simp] theorem State.emit_routes (s : State) (x : Output) : (s.emit x).routes = s.routes := rfl
@[simp] theorem State.emit_place (s : State) (x : Output) : (s.emit x).place = s.place := rfl
@[simp] theorem State.emit_path (s : State) (x : Output) : (s.emit x).path = s.path := rfl
@[simp] theorem State.emit_topo (s : State) (x : Output) : (s.emit x).topo = s.topo := rfl
@[simp] theorem State.emit_hce (s : State) (x : Output) : (s.emit x).hce = s.hce := rfl
@[simp] theorem State.emit_peers (s : State) (x : Output) : (s.emit x).peers = s.peers := rfl
@[simp] theorem State.emit_upd (s : State) (x : Output) : (s.emit x).upd = s.upd := rfl
@[simp] theorem State.emit_age (s : State) (x : Output) : (s.emit x).age = s.age := rfl

@[simp] theorem State.tick_pending (s : State) : (s.tick).pending = s.pending := rfl
@[simp] theorem State.tick_regs (s : State) : (s.tick).regs = s.regs := rfl
@[simp] theorem State.tick_mem (s : State) : (s.tick).mem = s.mem := rfl
@[simp] theorem State.tick_out (s : State) : (s.tick).out = s.out := rfl
@[simp] theorem State.tick_evr (s : State) : (s.tick).evr = s.evr := rfl
@[simp] theorem State.tick_rst (s : State) : (s.tick).rst = s.rst := rfl
@[simp] theorem State.tick_pwr (s : State) : (s.tick).pwr = s.pwr := rfl
@[simp] theorem State.tick_blk (s : State) : (s.tick).blk = s.blk := rfl
@[simp] theorem State.tick_time (s : State) : (s.tick).time = s.time := rfl
@[simp] theorem State.tick_mb (s : State) : (s.tick).mb = s.mb := rfl
@[simp] theorem State.tick_cores (s : State) : (s.tick).cores = s.cores := rfl
@[simp] theorem State.tick_chk (s : State) : (s.tick).chk = s.chk := rfl
@[simp] theorem State.tick_ms (s : State) : (s.tick).ms = s.ms := rfl
@[simp] theorem State.tick_eng (s : State) : (s.tick).eng = s.eng := rfl
@[simp] theorem State.tick_lk (s : State) : (s.tick).lk = s.lk := rfl
@[simp] theorem State.tick_routes (s : State) : (s.tick).routes = s.routes := rfl
@[simp] theorem State.tick_place (s : State) : (s.tick).place = s.place := rfl
@[simp] theorem State.tick_path (s : State) : (s.tick).path = s.path := rfl
@[simp] theorem State.tick_topo (s : State) : (s.tick).topo = s.topo := rfl
@[simp] theorem State.tick_hce (s : State) : (s.tick).hce = s.hce := rfl
@[simp] theorem State.tick_peers (s : State) : (s.tick).peers = s.peers := rfl
@[simp] theorem State.tick_upd (s : State) : (s.tick).upd = s.upd := rfl
@[simp] theorem State.tick_age (s : State) : (s.tick).age = s.age := rfl

@[simp] theorem State.setQuarter_pending (s : State) (q : Nat) (v : Quarter) : (s.setQuarter q v).pending = s.pending := rfl
@[simp] theorem State.setQuarter_free (s : State) (q : Nat) (v : Quarter) : (s.setQuarter q v).free = s.free := rfl
@[simp] theorem State.setQuarter_regs (s : State) (q : Nat) (v : Quarter) : (s.setQuarter q v).regs = s.regs := rfl
@[simp] theorem State.setQuarter_mem (s : State) (q : Nat) (v : Quarter) : (s.setQuarter q v).mem = s.mem := rfl
@[simp] theorem State.setQuarter_out (s : State) (q : Nat) (v : Quarter) : (s.setQuarter q v).out = s.out := rfl
@[simp] theorem State.setQuarter_evr (s : State) (q : Nat) (v : Quarter) : (s.setQuarter q v).evr = s.evr := rfl
@[simp] theorem State.setQuarter_rst (s : State) (q : Nat) (v : Quarter) : (s.setQuarter q v).rst = s.rst := rfl
@[simp] theorem State.setQuarter_pwr (s : State) (q : Nat) (v : Quarter) : (s.setQuarter q v).pwr = s.pwr := rfl
@[simp] theorem State.setQuarter_time (s : State) (q : Nat) (v : Quarter) : (s.setQuarter q v).time = s.time := rfl
@[simp] theorem State.setQuarter_mb (s : State) (q : Nat) (v : Quarter) : (s.setQuarter q v).mb = s.mb := rfl
@[simp] theorem State.setQuarter_cores (s : State) (q : Nat) (v : Quarter) : (s.setQuarter q v).cores = s.cores := rfl
@[simp] theorem State.setQuarter_chk (s : State) (q : Nat) (v : Quarter) : (s.setQuarter q v).chk = s.chk := rfl
@[simp] theorem State.setQuarter_ms (s : State) (q : Nat) (v : Quarter) : (s.setQuarter q v).ms = s.ms := rfl
@[simp] theorem State.setQuarter_eng (s : State) (q : Nat) (v : Quarter) : (s.setQuarter q v).eng = s.eng := rfl
@[simp] theorem State.setQuarter_lk (s : State) (q : Nat) (v : Quarter) : (s.setQuarter q v).lk = s.lk := rfl
@[simp] theorem State.setQuarter_routes (s : State) (q : Nat) (v : Quarter) : (s.setQuarter q v).routes = s.routes := rfl
@[simp] theorem State.setQuarter_place (s : State) (q : Nat) (v : Quarter) : (s.setQuarter q v).place = s.place := rfl
@[simp] theorem State.setQuarter_path (s : State) (q : Nat) (v : Quarter) : (s.setQuarter q v).path = s.path := rfl
@[simp] theorem State.setQuarter_topo (s : State) (q : Nat) (v : Quarter) : (s.setQuarter q v).topo = s.topo := rfl
@[simp] theorem State.setQuarter_hce (s : State) (q : Nat) (v : Quarter) : (s.setQuarter q v).hce = s.hce := rfl
@[simp] theorem State.setQuarter_peers (s : State) (q : Nat) (v : Quarter) : (s.setQuarter q v).peers = s.peers := rfl
@[simp] theorem State.setQuarter_upd (s : State) (q : Nat) (v : Quarter) : (s.setQuarter q v).upd = s.upd := rfl
@[simp] theorem State.setQuarter_age (s : State) (q : Nat) (v : Quarter) : (s.setQuarter q v).age = s.age := rfl

@[simp] theorem State.alert_pending (s : State) (n : Nat) (b : Bool) : (s.alert n b).pending = s.pending := rfl
@[simp] theorem State.alert_free (s : State) (n : Nat) (b : Bool) : (s.alert n b).free = s.free := rfl
@[simp] theorem State.alert_regs (s : State) (n : Nat) (b : Bool) : (s.alert n b).regs = s.regs := rfl
@[simp] theorem State.alert_mem (s : State) (n : Nat) (b : Bool) : (s.alert n b).mem = s.mem := rfl
@[simp] theorem State.alert_out (s : State) (n : Nat) (b : Bool) : (s.alert n b).out = s.out := rfl
@[simp] theorem State.alert_evr (s : State) (n : Nat) (b : Bool) : (s.alert n b).evr = s.evr := rfl
@[simp] theorem State.alert_rst (s : State) (n : Nat) (b : Bool) : (s.alert n b).rst = s.rst := rfl
@[simp] theorem State.alert_blk (s : State) (n : Nat) (b : Bool) : (s.alert n b).blk = s.blk := rfl
@[simp] theorem State.alert_time (s : State) (n : Nat) (b : Bool) : (s.alert n b).time = s.time := rfl
@[simp] theorem State.alert_mb (s : State) (n : Nat) (b : Bool) : (s.alert n b).mb = s.mb := rfl
@[simp] theorem State.alert_cores (s : State) (n : Nat) (b : Bool) : (s.alert n b).cores = s.cores := rfl
@[simp] theorem State.alert_chk (s : State) (n : Nat) (b : Bool) : (s.alert n b).chk = s.chk := rfl
@[simp] theorem State.alert_ms (s : State) (n : Nat) (b : Bool) : (s.alert n b).ms = s.ms := rfl
@[simp] theorem State.alert_eng (s : State) (n : Nat) (b : Bool) : (s.alert n b).eng = s.eng := rfl
@[simp] theorem State.alert_lk (s : State) (n : Nat) (b : Bool) : (s.alert n b).lk = s.lk := rfl
@[simp] theorem State.alert_routes (s : State) (n : Nat) (b : Bool) : (s.alert n b).routes = s.routes := rfl
@[simp] theorem State.alert_place (s : State) (n : Nat) (b : Bool) : (s.alert n b).place = s.place := rfl
@[simp] theorem State.alert_path (s : State) (n : Nat) (b : Bool) : (s.alert n b).path = s.path := rfl
@[simp] theorem State.alert_topo (s : State) (n : Nat) (b : Bool) : (s.alert n b).topo = s.topo := rfl
@[simp] theorem State.alert_hce (s : State) (n : Nat) (b : Bool) : (s.alert n b).hce = s.hce := rfl
@[simp] theorem State.alert_peers (s : State) (n : Nat) (b : Bool) : (s.alert n b).peers = s.peers := rfl
@[simp] theorem State.alert_upd (s : State) (n : Nat) (b : Bool) : (s.alert n b).upd = s.upd := rfl
@[simp] theorem State.alert_age (s : State) (n : Nat) (b : Bool) : (s.alert n b).age = s.age := rfl

@[simp] theorem State.loseRecord_pending (s : State) (v : Nat) (a b c : Bool) : (s.loseRecord v a b c).pending = s.pending := rfl
@[simp] theorem State.loseRecord_free (s : State) (v : Nat) (a b c : Bool) : (s.loseRecord v a b c).free = s.free := rfl
@[simp] theorem State.loseRecord_mem (s : State) (v : Nat) (a b c : Bool) : (s.loseRecord v a b c).mem = s.mem := rfl
@[simp] theorem State.loseRecord_out (s : State) (v : Nat) (a b c : Bool) : (s.loseRecord v a b c).out = s.out := rfl
@[simp] theorem State.loseRecord_rst (s : State) (v : Nat) (a b c : Bool) : (s.loseRecord v a b c).rst = s.rst := rfl
@[simp] theorem State.loseRecord_pwr (s : State) (v : Nat) (a b c : Bool) : (s.loseRecord v a b c).pwr = s.pwr := rfl
@[simp] theorem State.loseRecord_blk (s : State) (v : Nat) (a b c : Bool) : (s.loseRecord v a b c).blk = s.blk := rfl
@[simp] theorem State.loseRecord_time (s : State) (v : Nat) (a b c : Bool) : (s.loseRecord v a b c).time = s.time := rfl
@[simp] theorem State.loseRecord_mb (s : State) (v : Nat) (a b c : Bool) : (s.loseRecord v a b c).mb = s.mb := rfl
@[simp] theorem State.loseRecord_cores (s : State) (v : Nat) (a b c : Bool) : (s.loseRecord v a b c).cores = s.cores := rfl
@[simp] theorem State.loseRecord_chk (s : State) (v : Nat) (a b c : Bool) : (s.loseRecord v a b c).chk = s.chk := rfl
@[simp] theorem State.loseRecord_ms (s : State) (v : Nat) (a b c : Bool) : (s.loseRecord v a b c).ms = s.ms := rfl
@[simp] theorem State.loseRecord_eng (s : State) (v : Nat) (a b c : Bool) : (s.loseRecord v a b c).eng = s.eng := rfl
@[simp] theorem State.loseRecord_lk (s : State) (v : Nat) (a b c : Bool) : (s.loseRecord v a b c).lk = s.lk := rfl
@[simp] theorem State.loseRecord_routes (s : State) (v : Nat) (a b c : Bool) : (s.loseRecord v a b c).routes = s.routes := rfl
@[simp] theorem State.loseRecord_place (s : State) (v : Nat) (a b c : Bool) : (s.loseRecord v a b c).place = s.place := rfl
@[simp] theorem State.loseRecord_path (s : State) (v : Nat) (a b c : Bool) : (s.loseRecord v a b c).path = s.path := rfl
@[simp] theorem State.loseRecord_topo (s : State) (v : Nat) (a b c : Bool) : (s.loseRecord v a b c).topo = s.topo := rfl
@[simp] theorem State.loseRecord_hce (s : State) (v : Nat) (a b c : Bool) : (s.loseRecord v a b c).hce = s.hce := rfl
@[simp] theorem State.loseRecord_peers (s : State) (v : Nat) (a b c : Bool) : (s.loseRecord v a b c).peers = s.peers := rfl
@[simp] theorem State.loseRecord_upd (s : State) (v : Nat) (a b c : Bool) : (s.loseRecord v a b c).upd = s.upd := rfl
@[simp] theorem State.loseRecord_age (s : State) (v : Nat) (a b c : Bool) : (s.loseRecord v a b c).age = s.age := rfl

@[simp] theorem State.bufferRecord_pending (s : State) (r : EvRec) : (s.bufferRecord r).pending = s.pending := rfl
@[simp] theorem State.bufferRecord_free (s : State) (r : EvRec) : (s.bufferRecord r).free = s.free := rfl
@[simp] theorem State.bufferRecord_regs (s : State) (r : EvRec) : (s.bufferRecord r).regs = s.regs := rfl
@[simp] theorem State.bufferRecord_mem (s : State) (r : EvRec) : (s.bufferRecord r).mem = s.mem := rfl
@[simp] theorem State.bufferRecord_out (s : State) (r : EvRec) : (s.bufferRecord r).out = s.out := rfl
@[simp] theorem State.bufferRecord_rst (s : State) (r : EvRec) : (s.bufferRecord r).rst = s.rst := rfl
@[simp] theorem State.bufferRecord_pwr (s : State) (r : EvRec) : (s.bufferRecord r).pwr = s.pwr := rfl
@[simp] theorem State.bufferRecord_blk (s : State) (r : EvRec) : (s.bufferRecord r).blk = s.blk := rfl
@[simp] theorem State.bufferRecord_time (s : State) (r : EvRec) : (s.bufferRecord r).time = s.time := rfl
@[simp] theorem State.bufferRecord_mb (s : State) (r : EvRec) : (s.bufferRecord r).mb = s.mb := rfl
@[simp] theorem State.bufferRecord_cores (s : State) (r : EvRec) : (s.bufferRecord r).cores = s.cores := rfl
@[simp] theorem State.bufferRecord_chk (s : State) (r : EvRec) : (s.bufferRecord r).chk = s.chk := rfl
@[simp] theorem State.bufferRecord_ms (s : State) (r : EvRec) : (s.bufferRecord r).ms = s.ms := rfl
@[simp] theorem State.bufferRecord_eng (s : State) (r : EvRec) : (s.bufferRecord r).eng = s.eng := rfl
@[simp] theorem State.bufferRecord_lk (s : State) (r : EvRec) : (s.bufferRecord r).lk = s.lk := rfl
@[simp] theorem State.bufferRecord_routes (s : State) (r : EvRec) : (s.bufferRecord r).routes = s.routes := rfl
@[simp] theorem State.bufferRecord_place (s : State) (r : EvRec) : (s.bufferRecord r).place = s.place := rfl
@[simp] theorem State.bufferRecord_path (s : State) (r : EvRec) : (s.bufferRecord r).path = s.path := rfl
@[simp] theorem State.bufferRecord_topo (s : State) (r : EvRec) : (s.bufferRecord r).topo = s.topo := rfl
@[simp] theorem State.bufferRecord_hce (s : State) (r : EvRec) : (s.bufferRecord r).hce = s.hce := rfl
@[simp] theorem State.bufferRecord_peers (s : State) (r : EvRec) : (s.bufferRecord r).peers = s.peers := rfl
@[simp] theorem State.bufferRecord_upd (s : State) (r : EvRec) : (s.bufferRecord r).upd = s.upd := rfl
@[simp] theorem State.bufferRecord_age (s : State) (r : EvRec) : (s.bufferRecord r).age = s.age := rfl

@[simp] theorem State.coalesce_pending (s : State) (r : EvRec) : (s.coalesce r).pending = s.pending := by
  unfold State.coalesce
  repeat' split
  all_goals rfl
@[simp] theorem State.coalesce_free (s : State) (r : EvRec) : (s.coalesce r).free = s.free := by
  unfold State.coalesce
  repeat' split
  all_goals rfl
@[simp] theorem State.coalesce_mem (s : State) (r : EvRec) : (s.coalesce r).mem = s.mem := by
  unfold State.coalesce
  repeat' split
  all_goals rfl
@[simp] theorem State.coalesce_out (s : State) (r : EvRec) : (s.coalesce r).out = s.out := by
  unfold State.coalesce
  repeat' split
  all_goals rfl
@[simp] theorem State.coalesce_rst (s : State) (r : EvRec) : (s.coalesce r).rst = s.rst := by
  unfold State.coalesce
  repeat' split
  all_goals rfl
@[simp] theorem State.coalesce_pwr (s : State) (r : EvRec) : (s.coalesce r).pwr = s.pwr := by
  unfold State.coalesce
  repeat' split
  all_goals rfl
@[simp] theorem State.coalesce_blk (s : State) (r : EvRec) : (s.coalesce r).blk = s.blk := by
  unfold State.coalesce
  repeat' split
  all_goals rfl
@[simp] theorem State.coalesce_time (s : State) (r : EvRec) : (s.coalesce r).time = s.time := by
  unfold State.coalesce
  repeat' split
  all_goals rfl
@[simp] theorem State.coalesce_mb (s : State) (r : EvRec) : (s.coalesce r).mb = s.mb := by
  unfold State.coalesce
  repeat' split
  all_goals rfl
@[simp] theorem State.coalesce_cores (s : State) (r : EvRec) : (s.coalesce r).cores = s.cores := by
  unfold State.coalesce
  repeat' split
  all_goals rfl
@[simp] theorem State.coalesce_chk (s : State) (r : EvRec) : (s.coalesce r).chk = s.chk := by
  unfold State.coalesce
  repeat' split
  all_goals rfl
@[simp] theorem State.coalesce_ms (s : State) (r : EvRec) : (s.coalesce r).ms = s.ms := by
  unfold State.coalesce
  repeat' split
  all_goals rfl
@[simp] theorem State.coalesce_eng (s : State) (r : EvRec) : (s.coalesce r).eng = s.eng := by
  unfold State.coalesce
  repeat' split
  all_goals rfl
@[simp] theorem State.coalesce_lk (s : State) (r : EvRec) : (s.coalesce r).lk = s.lk := by
  unfold State.coalesce
  repeat' split
  all_goals rfl
@[simp] theorem State.coalesce_routes (s : State) (r : EvRec) : (s.coalesce r).routes = s.routes := by
  unfold State.coalesce
  repeat' split
  all_goals rfl
@[simp] theorem State.coalesce_place (s : State) (r : EvRec) : (s.coalesce r).place = s.place := by
  unfold State.coalesce
  repeat' split
  all_goals rfl
@[simp] theorem State.coalesce_path (s : State) (r : EvRec) : (s.coalesce r).path = s.path := by
  unfold State.coalesce
  repeat' split
  all_goals rfl
@[simp] theorem State.coalesce_topo (s : State) (r : EvRec) : (s.coalesce r).topo = s.topo := by
  unfold State.coalesce
  repeat' split
  all_goals rfl
@[simp] theorem State.coalesce_hce (s : State) (r : EvRec) : (s.coalesce r).hce = s.hce := by
  unfold State.coalesce
  repeat' split
  all_goals rfl
@[simp] theorem State.coalesce_peers (s : State) (r : EvRec) : (s.coalesce r).peers = s.peers := by
  unfold State.coalesce
  repeat' split
  all_goals rfl
@[simp] theorem State.coalesce_upd (s : State) (r : EvRec) : (s.coalesce r).upd = s.upd := by
  unfold State.coalesce
  repeat' split
  all_goals rfl
@[simp] theorem State.coalesce_age (s : State) (r : EvRec) : (s.coalesce r).age = s.age := by
  unfold State.coalesce
  repeat' split
  all_goals rfl

@[simp] theorem State.note_pending (s : State) (c v k i : Nat) (p : List Nat) (x : Option Nat) (j : Bool) : (s.note c v k i p x j).pending = s.pending := by
  unfold State.note
  dsimp only
  repeat' split
  all_goals simp
@[simp] theorem State.note_free (s : State) (c v k i : Nat) (p : List Nat) (x : Option Nat) (j : Bool) : (s.note c v k i p x j).free = s.free := by
  unfold State.note
  dsimp only
  repeat' split
  all_goals simp
@[simp] theorem State.note_mem (s : State) (c v k i : Nat) (p : List Nat) (x : Option Nat) (j : Bool) : (s.note c v k i p x j).mem = s.mem := by
  unfold State.note
  dsimp only
  repeat' split
  all_goals simp
@[simp] theorem State.note_out (s : State) (c v k i : Nat) (p : List Nat) (x : Option Nat) (j : Bool) : (s.note c v k i p x j).out = s.out := by
  unfold State.note
  dsimp only
  repeat' split
  all_goals simp
@[simp] theorem State.note_rst (s : State) (c v k i : Nat) (p : List Nat) (x : Option Nat) (j : Bool) : (s.note c v k i p x j).rst = s.rst := by
  unfold State.note
  dsimp only
  repeat' split
  all_goals simp
@[simp] theorem State.note_blk (s : State) (c v k i : Nat) (p : List Nat) (x : Option Nat) (j : Bool) : (s.note c v k i p x j).blk = s.blk := by
  unfold State.note
  dsimp only
  repeat' split
  all_goals simp
@[simp] theorem State.note_time (s : State) (c v k i : Nat) (p : List Nat) (x : Option Nat) (j : Bool) : (s.note c v k i p x j).time = s.time := by
  unfold State.note
  dsimp only
  repeat' split
  all_goals simp
@[simp] theorem State.note_mb (s : State) (c v k i : Nat) (p : List Nat) (x : Option Nat) (j : Bool) : (s.note c v k i p x j).mb = s.mb := by
  unfold State.note
  dsimp only
  repeat' split
  all_goals simp
@[simp] theorem State.note_cores (s : State) (c v k i : Nat) (p : List Nat) (x : Option Nat) (j : Bool) : (s.note c v k i p x j).cores = s.cores := by
  unfold State.note
  dsimp only
  repeat' split
  all_goals simp
@[simp] theorem State.note_chk (s : State) (c v k i : Nat) (p : List Nat) (x : Option Nat) (j : Bool) : (s.note c v k i p x j).chk = s.chk := by
  unfold State.note
  dsimp only
  repeat' split
  all_goals simp
@[simp] theorem State.note_ms (s : State) (c v k i : Nat) (p : List Nat) (x : Option Nat) (j : Bool) : (s.note c v k i p x j).ms = s.ms := by
  unfold State.note
  dsimp only
  repeat' split
  all_goals simp
@[simp] theorem State.note_eng (s : State) (c v k i : Nat) (p : List Nat) (x : Option Nat) (j : Bool) : (s.note c v k i p x j).eng = s.eng := by
  unfold State.note
  dsimp only
  repeat' split
  all_goals simp
@[simp] theorem State.note_lk (s : State) (c v k i : Nat) (p : List Nat) (x : Option Nat) (j : Bool) : (s.note c v k i p x j).lk = s.lk := by
  unfold State.note
  dsimp only
  repeat' split
  all_goals simp
@[simp] theorem State.note_routes (s : State) (c v k i : Nat) (p : List Nat) (x : Option Nat) (j : Bool) : (s.note c v k i p x j).routes = s.routes := by
  unfold State.note
  dsimp only
  repeat' split
  all_goals simp
@[simp] theorem State.note_place (s : State) (c v k i : Nat) (p : List Nat) (x : Option Nat) (j : Bool) : (s.note c v k i p x j).place = s.place := by
  unfold State.note
  dsimp only
  repeat' split
  all_goals simp
@[simp] theorem State.note_path (s : State) (c v k i : Nat) (p : List Nat) (x : Option Nat) (j : Bool) : (s.note c v k i p x j).path = s.path := by
  unfold State.note
  dsimp only
  repeat' split
  all_goals simp
@[simp] theorem State.note_topo (s : State) (c v k i : Nat) (p : List Nat) (x : Option Nat) (j : Bool) : (s.note c v k i p x j).topo = s.topo := by
  unfold State.note
  dsimp only
  repeat' split
  all_goals simp
@[simp] theorem State.note_hce (s : State) (c v k i : Nat) (p : List Nat) (x : Option Nat) (j : Bool) : (s.note c v k i p x j).hce = s.hce := by
  unfold State.note
  dsimp only
  repeat' split
  all_goals simp
@[simp] theorem State.note_peers (s : State) (c v k i : Nat) (p : List Nat) (x : Option Nat) (j : Bool) : (s.note c v k i p x j).peers = s.peers := by
  unfold State.note
  dsimp only
  repeat' split
  all_goals simp
@[simp] theorem State.note_upd (s : State) (c v k i : Nat) (p : List Nat) (x : Option Nat) (j : Bool) : (s.note c v k i p x j).upd = s.upd := by
  unfold State.note
  dsimp only
  repeat' split
  all_goals simp
@[simp] theorem State.note_age (s : State) (c v k i : Nat) (p : List Nat) (x : Option Nat) (j : Bool) : (s.note c v k i p x j).age = s.age := by
  unfold State.note
  dsimp only
  repeat' split
  all_goals simp

@[simp] theorem State.endTicket_pending (s : State) (t st d : Nat) (p : List (BitVec 8)) : (s.endTicket t st d p).pending = s.pending := by
  unfold State.endTicket
  repeat' split
  all_goals rfl
@[simp] theorem State.endTicket_free (s : State) (t st d : Nat) (p : List (BitVec 8)) : (s.endTicket t st d p).free = s.free := by
  unfold State.endTicket
  repeat' split
  all_goals rfl
@[simp] theorem State.endTicket_regs (s : State) (t st d : Nat) (p : List (BitVec 8)) : (s.endTicket t st d p).regs = s.regs := by
  unfold State.endTicket
  repeat' split
  all_goals rfl
@[simp] theorem State.endTicket_mem (s : State) (t st d : Nat) (p : List (BitVec 8)) : (s.endTicket t st d p).mem = s.mem := by
  unfold State.endTicket
  repeat' split
  all_goals rfl
@[simp] theorem State.endTicket_out (s : State) (t st d : Nat) (p : List (BitVec 8)) : (s.endTicket t st d p).out = s.out := by
  unfold State.endTicket
  repeat' split
  all_goals rfl
@[simp] theorem State.endTicket_evr (s : State) (t st d : Nat) (p : List (BitVec 8)) : (s.endTicket t st d p).evr = s.evr := by
  unfold State.endTicket
  repeat' split
  all_goals rfl
@[simp] theorem State.endTicket_rst (s : State) (t st d : Nat) (p : List (BitVec 8)) : (s.endTicket t st d p).rst = s.rst := by
  unfold State.endTicket
  repeat' split
  all_goals rfl
@[simp] theorem State.endTicket_pwr (s : State) (t st d : Nat) (p : List (BitVec 8)) : (s.endTicket t st d p).pwr = s.pwr := by
  unfold State.endTicket
  repeat' split
  all_goals rfl
@[simp] theorem State.endTicket_blk (s : State) (t st d : Nat) (p : List (BitVec 8)) : (s.endTicket t st d p).blk = s.blk := by
  unfold State.endTicket
  repeat' split
  all_goals rfl
@[simp] theorem State.endTicket_time (s : State) (t st d : Nat) (p : List (BitVec 8)) : (s.endTicket t st d p).time = s.time := by
  unfold State.endTicket
  repeat' split
  all_goals rfl
@[simp] theorem State.endTicket_cores (s : State) (t st d : Nat) (p : List (BitVec 8)) : (s.endTicket t st d p).cores = s.cores := by
  unfold State.endTicket
  repeat' split
  all_goals rfl
@[simp] theorem State.endTicket_chk (s : State) (t st d : Nat) (p : List (BitVec 8)) : (s.endTicket t st d p).chk = s.chk := by
  unfold State.endTicket
  repeat' split
  all_goals rfl
@[simp] theorem State.endTicket_ms (s : State) (t st d : Nat) (p : List (BitVec 8)) : (s.endTicket t st d p).ms = s.ms := by
  unfold State.endTicket
  repeat' split
  all_goals rfl
@[simp] theorem State.endTicket_eng (s : State) (t st d : Nat) (p : List (BitVec 8)) : (s.endTicket t st d p).eng = s.eng := by
  unfold State.endTicket
  repeat' split
  all_goals rfl
@[simp] theorem State.endTicket_lk (s : State) (t st d : Nat) (p : List (BitVec 8)) : (s.endTicket t st d p).lk = s.lk := by
  unfold State.endTicket
  repeat' split
  all_goals rfl
@[simp] theorem State.endTicket_routes (s : State) (t st d : Nat) (p : List (BitVec 8)) : (s.endTicket t st d p).routes = s.routes := by
  unfold State.endTicket
  repeat' split
  all_goals rfl
@[simp] theorem State.endTicket_place (s : State) (t st d : Nat) (p : List (BitVec 8)) : (s.endTicket t st d p).place = s.place := by
  unfold State.endTicket
  repeat' split
  all_goals rfl
@[simp] theorem State.endTicket_path (s : State) (t st d : Nat) (p : List (BitVec 8)) : (s.endTicket t st d p).path = s.path := by
  unfold State.endTicket
  repeat' split
  all_goals rfl
@[simp] theorem State.endTicket_topo (s : State) (t st d : Nat) (p : List (BitVec 8)) : (s.endTicket t st d p).topo = s.topo := by
  unfold State.endTicket
  repeat' split
  all_goals rfl
@[simp] theorem State.endTicket_hce (s : State) (t st d : Nat) (p : List (BitVec 8)) : (s.endTicket t st d p).hce = s.hce := by
  unfold State.endTicket
  repeat' split
  all_goals rfl
@[simp] theorem State.endTicket_peers (s : State) (t st d : Nat) (p : List (BitVec 8)) : (s.endTicket t st d p).peers = s.peers := by
  unfold State.endTicket
  repeat' split
  all_goals rfl
@[simp] theorem State.endTicket_upd (s : State) (t st d : Nat) (p : List (BitVec 8)) : (s.endTicket t st d p).upd = s.upd := by
  unfold State.endTicket
  repeat' split
  all_goals rfl
@[simp] theorem State.endTicket_age (s : State) (t st d : Nat) (p : List (BitVec 8)) : (s.endTicket t st d p).age = s.age := by
  unfold State.endTicket
  repeat' split
  all_goals rfl

@[simp] theorem State.endWork_pending (s : State) (t : Option Nat) (st d : Nat) (p : List (BitVec 8)) : (s.endWork t st d p).pending = s.pending := by cases t <;> simp [State.endWork]
@[simp] theorem State.endWork_free (s : State) (t : Option Nat) (st d : Nat) (p : List (BitVec 8)) : (s.endWork t st d p).free = s.free := by cases t <;> simp [State.endWork]
@[simp] theorem State.endWork_regs (s : State) (t : Option Nat) (st d : Nat) (p : List (BitVec 8)) : (s.endWork t st d p).regs = s.regs := by cases t <;> simp [State.endWork]
@[simp] theorem State.endWork_mem (s : State) (t : Option Nat) (st d : Nat) (p : List (BitVec 8)) : (s.endWork t st d p).mem = s.mem := by cases t <;> simp [State.endWork]
@[simp] theorem State.endWork_out (s : State) (t : Option Nat) (st d : Nat) (p : List (BitVec 8)) : (s.endWork t st d p).out = s.out := by cases t <;> simp [State.endWork]
@[simp] theorem State.endWork_evr (s : State) (t : Option Nat) (st d : Nat) (p : List (BitVec 8)) : (s.endWork t st d p).evr = s.evr := by cases t <;> simp [State.endWork]
@[simp] theorem State.endWork_rst (s : State) (t : Option Nat) (st d : Nat) (p : List (BitVec 8)) : (s.endWork t st d p).rst = s.rst := by cases t <;> simp [State.endWork]
@[simp] theorem State.endWork_pwr (s : State) (t : Option Nat) (st d : Nat) (p : List (BitVec 8)) : (s.endWork t st d p).pwr = s.pwr := by cases t <;> simp [State.endWork]
@[simp] theorem State.endWork_blk (s : State) (t : Option Nat) (st d : Nat) (p : List (BitVec 8)) : (s.endWork t st d p).blk = s.blk := by cases t <;> simp [State.endWork]
@[simp] theorem State.endWork_time (s : State) (t : Option Nat) (st d : Nat) (p : List (BitVec 8)) : (s.endWork t st d p).time = s.time := by cases t <;> simp [State.endWork]
@[simp] theorem State.endWork_cores (s : State) (t : Option Nat) (st d : Nat) (p : List (BitVec 8)) : (s.endWork t st d p).cores = s.cores := by cases t <;> simp [State.endWork]
@[simp] theorem State.endWork_chk (s : State) (t : Option Nat) (st d : Nat) (p : List (BitVec 8)) : (s.endWork t st d p).chk = s.chk := by cases t <;> simp [State.endWork]
@[simp] theorem State.endWork_ms (s : State) (t : Option Nat) (st d : Nat) (p : List (BitVec 8)) : (s.endWork t st d p).ms = s.ms := by cases t <;> simp [State.endWork]
@[simp] theorem State.endWork_eng (s : State) (t : Option Nat) (st d : Nat) (p : List (BitVec 8)) : (s.endWork t st d p).eng = s.eng := by cases t <;> simp [State.endWork]
@[simp] theorem State.endWork_lk (s : State) (t : Option Nat) (st d : Nat) (p : List (BitVec 8)) : (s.endWork t st d p).lk = s.lk := by cases t <;> simp [State.endWork]
@[simp] theorem State.endWork_routes (s : State) (t : Option Nat) (st d : Nat) (p : List (BitVec 8)) : (s.endWork t st d p).routes = s.routes := by cases t <;> simp [State.endWork]
@[simp] theorem State.endWork_place (s : State) (t : Option Nat) (st d : Nat) (p : List (BitVec 8)) : (s.endWork t st d p).place = s.place := by cases t <;> simp [State.endWork]
@[simp] theorem State.endWork_path (s : State) (t : Option Nat) (st d : Nat) (p : List (BitVec 8)) : (s.endWork t st d p).path = s.path := by cases t <;> simp [State.endWork]
@[simp] theorem State.endWork_topo (s : State) (t : Option Nat) (st d : Nat) (p : List (BitVec 8)) : (s.endWork t st d p).topo = s.topo := by cases t <;> simp [State.endWork]
@[simp] theorem State.endWork_hce (s : State) (t : Option Nat) (st d : Nat) (p : List (BitVec 8)) : (s.endWork t st d p).hce = s.hce := by cases t <;> simp [State.endWork]
@[simp] theorem State.endWork_peers (s : State) (t : Option Nat) (st d : Nat) (p : List (BitVec 8)) : (s.endWork t st d p).peers = s.peers := by cases t <;> simp [State.endWork]
@[simp] theorem State.endWork_upd (s : State) (t : Option Nat) (st d : Nat) (p : List (BitVec 8)) : (s.endWork t st d p).upd = s.upd := by cases t <;> simp [State.endWork]
@[simp] theorem State.endWork_age (s : State) (t : Option Nat) (st d : Nat) (p : List (BitVec 8)) : (s.endWork t st d p).age = s.age := by cases t <;> simp [State.endWork]

@[simp] theorem State.wreg_regs (s : State) (r : Reg) (v : BitVec 64) (i : Nat) :
    (s.wreg r v i).regs = kset s.regs (r.off i) v := rfl
@[simp] theorem State.memWrite_mem (s : State) (a : Nat) (bs : List (BitVec 8)) :
    (s.memWrite a bs).mem = memPutBytes s.mem a bs := rfl
@[simp] theorem State.memClear_mem (s : State) (a n : Nat) : (s.memClear a n).mem = memZero s.mem a n := rfl
@[simp] theorem State.emit_out (s : State) (x : Output) : (s.emit x).out = s.out ++ [x] := rfl
@[simp] theorem State.tick_free (s : State) : s.tick.free = s.free + 1 := rfl

/-! ### Keyed lists -/

@[simp] theorem kfind_kdel_same {α : Type} (m : List (Nat × α)) (k : Nat) : kfind (kdel m k) k = none := by
  induction m with
  | nil => rfl
  | cons x m ih =>
    obtain ⟨j, v⟩ := x
    by_cases h : j = k
    · simpa [kdel, h] using ih
    · simp [kdel, kfind, h, ih]

theorem kfind_kdel_ne {α : Type} (m : List (Nat × α)) (k j : Nat) (h : k ≠ j) : kfind (kdel m k) j = kfind m j := by
  induction m with
  | nil => rfl
  | cons x m ih =>
    obtain ⟨i, v⟩ := x
    by_cases hi : i = k
    · have hj : ¬ i = j := fun e => h (hi.symm.trans e)
      rw [kdel, if_pos hi, kfind, if_neg hj, ih]
    · simp only [kdel, hi, if_false, kfind, ih]

theorem kfind_kset_same {α : Type} (m : List (Nat × α)) (k : Nat) (v : α) : kfind (kset m k v) k = some v := by
  induction m with
  | nil => simp [kset, kfind]
  | cons e m ih =>
    obtain ⟨j, w⟩ := e
    unfold kset
    split
    · simp [kfind]
    · split
      · simp [kfind]
      · rename_i h _
        simp [kfind, h, ih]

theorem kfind_kset_ne {α : Type} (m : List (Nat × α)) (k j : Nat) (v : α) (h : k ≠ j) :
    kfind (kset m k v) j = kfind m j := by
  induction m with
  | nil => simp [kset, kfind, h]
  | cons e m ih =>
    obtain ⟨a, w⟩ := e
    unfold kset
    split
    · rename_i e
      subst e
      simp [kfind, h]
    · split
      · simp [kfind, h]
      · simp [kfind, ih]

@[simp] theorem kget_kset_same {α : Type} (m : List (Nat × α)) (k : Nat) (v d : α) : kget (kset m k v) k d = v := by
  simp [kget, kfind_kset_same]

theorem kget_kset_ne {α : Type} (m : List (Nat × α)) (k j : Nat) (v d : α) (h : k ≠ j) :
    kget (kset m k v) j d = kget m j d := by
  simp [kget, kfind_kset_ne m k j v h]

/-! ### Bits -/

theorem bitOf_eq_testBit (v n : Nat) : bitOf v n = v.testBit n := by
  simp [bitOf, Nat.testBit_eq_decide_div_mod_eq]

theorem bitOf_putBit_same (v n : Nat) (b : Bool) : bitOf (putBit v n b) n = b := by
  unfold putBit
  split
  · assumption
  · rename_i h
    cases b
    · have hb : v.testBit n = true := by simpa [bitOf_eq_testBit] using h
      have hd : v / 2 ^ n % 2 = 1 := by simpa [Nat.testBit_eq_decide_div_mod_eq] using hb
      have e : (v - 2 ^ n) / 2 ^ n = v / 2 ^ n - 1 := by
        rw [← Nat.sub_mul_div v (2 ^ n) 1, Nat.mul_one]
      simp only [bitOf, if_neg (by decide : ¬ false = true), e]
      have : (v / 2 ^ n - 1) % 2 = 0 := by omega
      simp [this]
    · have hb : v.testBit n = false := by simpa [bitOf_eq_testBit] using h
      have hd : v / 2 ^ n % 2 = 0 := by
        have : ¬ v / 2 ^ n % 2 = 1 := by simpa [Nat.testBit_eq_decide_div_mod_eq] using hb
        omega
      have e : (v + 2 ^ n) / 2 ^ n = v / 2 ^ n + 1 := Nat.add_div_right _ (Nat.two_pow_pos n)
      simp only [bitOf, if_true, e]
      have : (v / 2 ^ n + 1) % 2 = 1 := by omega
      simp [this]

theorem bitOf_ofNat16 (v n : Nat) (h : n < 16) : bitOf (BitVec.ofNat 16 v).toNat n = bitOf v n := by
  rw [bitOf_eq_testBit, bitOf_eq_testBit, BitVec.toNat_ofNat, Nat.testBit_mod_two_pow]
  simp [h]

/-- An alert bit reads what was written to it. -/
theorem State.alertBit_alert_same (s : State) (n : Nat) (b : Bool) (h : n < 16) : (s.alert n b).alertBit n = b := by
  simp only [State.alertBit, State.alert]
  rw [bitOf_ofNat16 _ _ h, bitOf_putBit_same]

theorem testBit_add_two_pow (v n m : Nat) (h : n ≠ m) (hv : v.testBit n = false) :
    (v + 2 ^ n).testBit m = v.testBit m := by
  have hd : v / 2 ^ n % 2 = 0 := by
    have : ¬ v / 2 ^ n % 2 = 1 := by simpa [Nat.testBit_eq_decide_div_mod_eq] using hv
    omega
  by_cases hm : m < n
  · have e : (v + 2 ^ n) % 2 ^ n = v % 2 ^ n := Nat.add_mod_right _ _
    have := congrArg (fun x => Nat.testBit x m) e
    simp only [Nat.testBit_mod_two_pow, hm, decide_true, Bool.true_and] at this
    exact this
  · obtain ⟨k, rfl⟩ : ∃ k, m = n + 1 + k := ⟨m - (n + 1), by omega⟩
    have e : (v + 2 ^ n) / 2 ^ (n + 1) = v / 2 ^ (n + 1) := by
      rw [Nat.pow_succ, ← Nat.div_div_eq_div_mul, ← Nat.div_div_eq_div_mul, Nat.add_div_right _ (Nat.two_pow_pos n)]
      omega
    have := congrArg (fun x => Nat.testBit x k) e
    simp only [Nat.testBit_div_two_pow] at this
    rwa [Nat.add_comm k] at this

theorem bitOf_putBit_ne (v n m : Nat) (b : Bool) (h : n ≠ m) : bitOf (putBit v n b) m = bitOf v m := by
  unfold putBit
  split
  · rfl
  · rename_i hb
    simp only [bitOf_eq_testBit] at *
    cases b
    · have hb' : v.testBit n = true := by simpa using hb
      have hle : 2 ^ n ≤ v := Nat.ge_two_pow_of_testBit hb'
      have hv : (v - 2 ^ n).testBit n = false := by
        have := bitOf_putBit_same v n false
        simpa [putBit, bitOf_eq_testBit, hb'] using this
      have key := testBit_add_two_pow (v - 2 ^ n) n m h hv
      rw [Nat.sub_add_cancel hle] at key
      simp only [Bool.false_eq_true, if_false]
      exact key.symm
    · simp only [if_true]
      exact testBit_add_two_pow v n m h (by simpa using hb)

theorem State.alertBit_alert_ne (s : State) (n m : Nat) (b : Bool) (h : m < 16) (hn : n ≠ m) :
    (s.alert n b).alertBit m = s.alertBit m := by
  simp only [State.alertBit, State.alert]
  rw [bitOf_ofNat16 _ _ h, bitOf_putBit_ne _ _ _ _ hn]

/-- Of the alert bits an event moves bit 9 alone (`SEV_HIGH`), and nothing else of the power unit. -/
theorem State.note_pwr (s : State) (c v k x : Nat) (p : List Nat) (y : Option Nat) (z : Bool) :
    (s.note c v k x p y z).pwr = if 4 ≤ v then (s.alert 9 true).pwr else s.pwr := by
  unfold State.note
  dsimp only
  repeat' split
  all_goals first | rfl | simp

/-! ### Fields of registers -/

/-- A field lies within a 64-bit register. -/
def Fld.good (f : Fld) : Bool := decide (f.lo ≤ f.hi) && decide (f.hi < 64)

/-- Two fields share no bit of one register instance. -/
def Fld.apart (f : Fld) (i : Nat) (g : Fld) (j : Nat) : Bool :=
  !decide (f.reg.off i = g.reg.off j) || (decide (f.reg = g.reg) && (decide (f.hi < g.lo) || decide (g.hi < f.lo)))

theorem Fld.mask_getLsbD (f : Fld) (hf : f.good = true) (n : Nat) :
    f.mask.getLsbD n = (decide (f.lo ≤ n) && decide (n ≤ f.hi)) := by
  simp only [Fld.good, Bool.and_eq_true, decide_eq_true_eq] at hf
  simp only [Fld.mask, BitVec.getLsbD_ofNat]
  rw [Nat.testBit_mul_two_pow, Nat.testBit_two_pow_sub_one]
  by_cases h1 : f.lo ≤ n <;> by_cases h2 : n ≤ f.hi <;> simp [h1, h2] <;> omega

theorem Fld.of_testBit (f : Fld) (w : BitVec 64) (k : Nat) :
    (f.of w).testBit k = (decide (k < f.hi + 1 - f.lo) && w.getLsbD (f.lo + k)) := by
  simp only [Fld.of, bitsOf, Nat.testBit_mod_two_pow, Nat.testBit_div_two_pow, BitVec.getLsbD,
    Nat.add_comm k f.lo]

theorem Fld.put_getLsbD (f : Fld) (hf : f.good = true) (w : BitVec 64) (v n : Nat) (hn : n < 64) :
    (f.put w v).getLsbD n = if f.lo ≤ n ∧ n ≤ f.hi then v.testBit (n - f.lo) else w.getLsbD n := by
  simp only [Fld.put, BitVec.getLsbD_or, BitVec.getLsbD_and, BitVec.getLsbD_not, Fld.mask_getLsbD f hf,
    BitVec.getLsbD_ofNat, Nat.testBit_mul_two_pow, hn]
  by_cases h1 : f.lo ≤ n <;> by_cases h2 : n ≤ f.hi <;> simp [h1, h2]

theorem Fld.of_put_same (f : Fld) (hf : f.good = true) (w : BitVec 64) (v : Nat) :
    f.of (f.put w v) = v % 2 ^ (f.hi + 1 - f.lo) := by
  have hp := Fld.put_getLsbD f hf w v
  simp only [Fld.good, Bool.and_eq_true, decide_eq_true_eq] at hf
  apply Nat.eq_of_testBit_eq
  intro k
  rw [Fld.of_testBit, Nat.testBit_mod_two_pow]
  by_cases hk : k < f.hi + 1 - f.lo
  · rw [hp _ (by omega), if_pos (by omega), Nat.add_sub_cancel_left]
  · simp [hk]

theorem Fld.of_put_apart (f g : Fld) (hf : f.good = true) (h : f.hi < g.lo ∨ g.hi < f.lo) (w : BitVec 64) (v : Nat) :
    g.of (f.put w v) = g.of w := by
  have hp := Fld.put_getLsbD f hf w v
  apply Nat.eq_of_testBit_eq
  intro k
  rw [Fld.of_testBit, Fld.of_testBit]
  by_cases hk : k < g.hi + 1 - g.lo
  · by_cases h2 : g.lo + k < 64
    · rw [hp _ h2, if_neg (by omega)]
    · simp [BitVec.getLsbD_of_ge _ _ (Nat.le_of_not_lt h2)]
  · simp [hk]

theorem State.rd_wr_same (s : State) (f : Fld) (v i : Nat) (hf : f.good = true) :
    (s.wr f v i).rd f i = v % 2 ^ (f.hi + 1 - f.lo) := by
  simp [State.rd, State.rreg, State.wr, State.wreg, Fld.of_put_same f hf]

theorem State.rd_wr_apart (s : State) (f g : Fld) (v i j : Nat) (hf : f.good = true) (h : f.apart i g j = true) :
    (s.wr f v i).rd g j = s.rd g j := by
  simp only [Fld.apart, Bool.or_eq_true, Bool.and_eq_true, Bool.not_eq_true', decide_eq_false_iff_not,
    decide_eq_true_eq] at h
  by_cases e : f.reg.off i = g.reg.off j
  · obtain h | ⟨h1, h2⟩ := h
    · exact absurd e h
    · have hb := Fld.of_put_apart f g hf h2
      simp only [State.rd, State.rreg, State.wr, State.wreg]
      rw [h1] at e ⊢
      rw [e, kget_kset_same]
      exact hb _ _
  · simp [State.rd, State.rreg, State.wr, State.wreg, kget_kset_ne _ _ _ _ _ e]

/-- Two fields share no bit whatever instance of their registers they are taken of. -/
def Fld.away (f g : Fld) : Bool :=
  if f.reg = g.reg then decide (f.hi < g.lo) || decide (g.hi < f.lo)
  else f.reg.desc.stride == g.reg.desc.stride &&
    !decide (f.reg.desc.base % f.reg.desc.stride = g.reg.desc.base % f.reg.desc.stride)

theorem Fld.apart_of_away {f g : Fld} (h : f.away g = true) (i j : Nat) : f.apart i g j = true := by
  unfold Fld.away at h
  unfold Fld.apart
  split at h
  · rename_i e
    simp only [e, decide_true, Bool.true_and, h, Bool.or_true]
  · simp only [Bool.and_eq_true, beq_iff_eq, Bool.not_eq_true', decide_eq_false_iff_not] at h
    have hne : ¬ f.reg.off i = g.reg.off j := by
      intro e
      apply h.2
      simp only [Reg.off] at e
      have := congrArg (· % f.reg.desc.stride) e
      simpa [← h.1] using this
    simp [hne]

theorem State.rd_wr_away (s : State) (f g : Fld) (v i j : Nat) (hf : f.good = true) (h : f.away g = true) :
    (s.wr f v i).rd g j = s.rd g j := s.rd_wr_apart f g v i j hf (Fld.apart_of_away h i j)

/-- Two fields of one register, or of two registers laid out with one stride, that share no bit in any instance. -/
def Fld.beside (f g : Fld) : Bool :=
  if f.reg = g.reg then decide (f.hi < g.lo) || decide (g.hi < f.lo)
  else f.reg.desc.stride == g.reg.desc.stride && !decide (f.reg.desc.base = g.reg.desc.base)

theorem State.rd_wr_beside (s : State) (f g : Fld) (v i : Nat) (hf : f.good = true) (h : f.beside g = true) :
    (s.wr f v i).rd g i = s.rd g i := by
  apply s.rd_wr_apart f g v i i hf
  unfold Fld.beside at h
  unfold Fld.apart
  split at h
  · rename_i e
    simp only [e, decide_true, Bool.true_and, h, Bool.or_true]
  · simp only [Bool.and_eq_true, beq_iff_eq, Bool.not_eq_true', decide_eq_false_iff_not] at h
    have hne : ¬ f.reg.off i = g.reg.off i := by
      simp only [Reg.off, h.1]
      omega
    simp [hne]

/-- The one instance of a register that lies below every instance of another. -/
def Fld.below (f g : Fld) : Bool :=
  decide (g.reg.desc.stride = 0) && decide (g.reg.desc.base < f.reg.desc.base)

theorem State.rd_wr_below (s : State) (f g : Fld) (v i j : Nat) (hf : f.good = true) (h : f.below g = true) :
    (s.wr f v i).rd g j = s.rd g j := by
  apply s.rd_wr_apart f g v i j hf
  simp only [Fld.below, Bool.and_eq_true, decide_eq_true_eq] at h
  have hne : ¬ f.reg.off i = g.reg.off j := by
    simp only [Reg.off, h.1, Nat.mul_zero, Nat.add_zero]
    omega
  simp [Fld.apart, hne]

theorem State.rd_wr_other (s : State) (f : Fld) (v i j : Nat) (hs : f.reg.desc.stride ≠ 0) (h : i ≠ j) :
    (s.wr f v i).rd f j = s.rd f j := by
  have e : f.reg.off i ≠ f.reg.off j := by
    simp only [Reg.off]
    intro e
    exact h (Nat.eq_of_mul_eq_mul_right (Nat.pos_of_ne_zero hs) (Nat.add_left_cancel e))
  simp [State.rd, State.rreg, State.wr, State.wreg, kget_kset_ne _ _ _ _ _ e]

theorem State.rd_wreg_ne (s : State) (r : Reg) (v : BitVec 64) (i : Nat) (g : Fld) (j : Nat) (h : r.off i ≠ g.reg.off j) :
    (s.wreg r v i).rd g j = s.rd g j := by
  simp [State.rd, State.rreg, State.wreg, kget_kset_ne _ _ _ _ _ h]

theorem State.rreg_wreg_same (s : State) (r : Reg) (v : BitVec 64) (i : Nat) : (s.wreg r v i).rreg r i = v := by
  simp [State.rreg, State.wreg]

theorem State.rreg_wreg_ne (s : State) (r q : Reg) (v : BitVec 64) (i j : Nat) (h : r.off i ≠ q.off j) :
    (s.wreg r v i).rreg q j = s.rreg q j := by
  simp [State.rreg, State.wreg, kget_kset_ne _ _ _ _ _ h]

theorem State.rreg_wr_ne (s : State) (f : Fld) (q : Reg) (v i j : Nat) (h : f.reg.off i ≠ q.off j) :
    (s.wr f v i).rreg q j = s.rreg q j := by
  simp [State.rreg, State.wr, State.wreg, kget_kset_ne _ _ _ _ _ h]

/-- Reading a register of which the operation writes nothing. -/
theorem State.rd_congr {s t : State} (h : t.regs = s.regs) (f : Fld) (i : Nat) : t.rd f i = s.rd f i := by
  simp [State.rd, State.rreg, h]

/-- A state is read as a register field only through its register file. -/
@[simp] theorem State.rd_mk (e : State) {x0 x1 x2 x3 x4 x5 x6 x7 x8 x9 x10 x11 x12 x13 x14 x15 x16 x17 x18 x19 x20 x21 x22} (f : Fld) (i : Nat) :
    State.rd ⟨x0, x1, e.regs, x2, x3, x4, x5, x6, x7, x8, x9, x10, x11, x12, x13, x14, x15, x16, x17, x18, x19, x20, x21, x22⟩ f i = e.rd f i := rfl
@[simp] theorem State.rd_memWrite (s : State) (a : Nat) (bs : List (BitVec 8)) (f : Fld) (ix : Nat) : (s.memWrite a bs).rd f ix = s.rd f ix :=
  State.rd_congr (by simp) f ix
@[simp] theorem State.rd_memClear (s : State) (a n : Nat) (f : Fld) (ix : Nat) : (s.memClear a n).rd f ix = s.rd f ix :=
  State.rd_congr (by simp) f ix
@[simp] theorem State.rd_emit (s : State) (x : Output) (f : Fld) (ix : Nat) : (s.emit x).rd f ix = s.rd f ix :=
  State.rd_congr (by simp) f ix
@[simp] theorem State.rd_tick (s : State)  (f : Fld) (ix : Nat) : (s.tick ).rd f ix = s.rd f ix :=
  State.rd_congr (by simp) f ix
@[simp] theorem State.rd_setQuarter (s : State) (q : Nat) (v : Quarter) (f : Fld) (ix : Nat) : (s.setQuarter q v).rd f ix = s.rd f ix :=
  State.rd_congr (by simp) f ix
@[simp] theorem State.rd_alert (s : State) (n : Nat) (b : Bool) (f : Fld) (ix : Nat) : (s.alert n b).rd f ix = s.rd f ix :=
  State.rd_congr (by simp) f ix
@[simp] theorem State.rd_bufferRecord (s : State) (r : EvRec) (f : Fld) (ix : Nat) : (s.bufferRecord r).rd f ix = s.rd f ix :=
  State.rd_congr (by simp) f ix
@[simp] theorem State.rd_endTicket (s : State) (t st d : Nat) (p : List (BitVec 8)) (f : Fld) (ix : Nat) : (s.endTicket t st d p).rd f ix = s.rd f ix :=
  State.rd_congr (by simp) f ix
@[simp] theorem State.rd_endWork (s : State) (t : Option Nat) (st d : Nat) (p : List (BitVec 8)) (f : Fld) (ix : Nat) : (s.endWork t st d p).rd f ix = s.rd f ix :=
  State.rd_congr (by simp) f ix

/-! ### The recorder's intake as the register file sees it -/

/-- A field that is none of the recorder's two counters. -/
def Fld.notCount (g : Fld) (j : Nat) : Bool :=
  F.EVR_CNT_LOST.COUNT.apart 0 g j && F.EVR_CNT_COAL.COUNT.apart 0 g j

theorem State.rd_loseRecord (s : State) (v : Nat) (a b c : Bool) (g : Fld) (j : Nat) (h : g.notCount j = true) :
    (s.loseRecord v a b c).rd g j = s.rd g j := by
  simp only [Fld.notCount, Bool.and_eq_true] at h
  unfold State.loseRecord State.bump
  rw [State.rd_wr_apart _ _ _ _ _ _ rfl h.1]
  rfl

theorem State.rd_coalesce (s : State) (r : EvRec) (g : Fld) (j : Nat) (h : g.notCount j = true) :
    (s.coalesce r).rd g j = s.rd g j := by
  have h' := h
  simp only [Fld.notCount, Bool.and_eq_true] at h
  unfold State.coalesce State.bump
  split
  · rw [State.rd_wr_apart _ _ _ _ _ _ rfl h.2]
    rfl
  · split
    · rfl
    · exact State.rd_loseRecord _ _ _ _ _ _ _ h'

/-- An event is recorded without touching a register other than the recorder's own counters. -/
theorem State.rd_note (s : State) (c v k x : Nat) (p : List Nat) (y : Option Nat) (z : Bool) (g : Fld) (j : Nat)
    (h : g.notCount j = true) : (s.note c v k x p y z).rd g j = s.rd g j := by
  unfold State.note
  dsimp only
  repeat' split
  all_goals simp [State.rd_loseRecord, State.rd_coalesce, h]

@[simp] theorem State.opMs_note (s : State) (c v k x : Nat) (p : List Nat) (y : Option Nat) (z : Bool) :
    (s.note c v k x p y z).opMs = s.opMs := by simp [State.opMs]

end Sys2Proof.Machine
end

