-- ==== Sys2Proof/Laws/Events.lean ====
section
/-! SUPPORT. What recording an event does: it goes on record behind everything before it, and beyond the recorder the
event draws on the reset controller alone. -/

set_option Elab.async false
namespace Sys2Proof.Machine
open Sys2Proof Safety

/-! ### The recorder -/

theorem State.note_buf (s : State) (c v k x : Nat) (p : List Nat) (y : Option Nat) (z : Bool) (h : Roomy s) :
    (s.note c v k x p y z).evr.buf = s.evr.buf ++ [{ s.mkRecord c v k x p y z with seq := s.evr.seq }] := by
  obtain ⟨h1, h2, h3⟩ := h
  have h4 : s.evr.buf.length < 4096 := by omega
  unfold State.note State.bufferRecord
  dsimp only
  repeat' split
  all_goals simp_all

theorem State.note_buf_prefix (s : State) (c v k x : Nat) (p : List Nat) (y : Option Nat) (z : Bool) :
    s.evr.buf <+: (s.note c v k x p y z).evr.buf := by
  unfold State.note State.loseRecord State.coalesce State.bufferRecord State.loseRecord State.bump State.alert
  dsimp only
  repeat' split
  all_goals first | exact List.prefix_rfl | exact List.prefix_append _ _

theorem noted_note {s e t : State} {c v k x : Nat} {p : List Nat} {y : Option Nat} {z : Bool} (hr : Roomy s)
    (he : e.evr = s.evr) (ht : (e.note c v k x p y z).evr.buf <+: t.evr.buf) : Noted s t c v k x := by
  have hb : e.evr.buf = s.evr.buf := by rw [he]
  have hr' : Roomy e := by unfold Roomy at *; rw [he]; exact hr
  rw [State.note_buf _ _ _ _ _ _ _ _ hr', hb] at ht
  exact ⟨_, ht, rfl, rfl, rfl, rfl⟩

/-- The event just recorded. -/
theorem noted_self {s e : State} {c v k x : Nat} {p : List Nat} {y : Option Nat} {z : Bool} (hr : Roomy s)
    (he : e.evr = s.evr) : Noted s (e.note c v k x p y z) c v k x := noted_note hr he List.prefix_rfl

/-- What was recorded stays so. -/
theorem noted_more {s e t : State} {c v k x : Nat} (h : Noted s e c v k x) (ht : e.evr.buf <+: t.evr.buf) :
    Noted s t c v k x := by
  obtain ⟨r, h1, h2⟩ := h
  exact ⟨r, h1.trans ht, h2⟩

@[simp] theorem noted_wr {s e : State} {c v k x : Nat} {f : Fld} {n i : Nat} :
    Noted s (e.wr f n i) c v k x ↔ Noted s e c v k x := Iff.rfl
@[simp] theorem noted_alert {s e : State} {c v k x n : Nat} {b : Bool} :
    Noted s (e.alert n b) c v k x ↔ Noted s e c v k x := Iff.rfl
@[simp] theorem noted_emit {s e : State} {c v k x : Nat} {o : Output} :
    Noted s (e.emit o) c v k x ↔ Noted s e c v k x := Iff.rfl
@[simp] theorem noted_mk {s e : State} {c v k x : Nat} {x0 x1 x2 x3 x4 x5 x6 x7 x8 x9 x10 x11 x12 x13 x14 x15 x16 x17 x18 x19 x20 x21 x22} :
    Noted s ⟨x0, x1, x2, x3, x4, e.evr, x5, x6, x7, x8, x9, x10, x11, x12, x13, x14, x15, x16, x17, x18, x19, x20, x21, x22⟩ c v k x ↔ Noted s e c v k x := Iff.rfl
@[simp] theorem State.alertBit_mk {x0 x1 x2 x3 x4 x5 x6 x7 x8 x9 x10 x11 x12 x13 x14 x15 x16 x17 x18 x19 x20 x21 x22} (P : Power) (n : Nat) :
    State.alertBit ⟨x0, x1, x2, x3, x4, x5, x6, P, x7, x8, x9, x10, x11, x12, x13, x14, x15, x16, x17, x18, x19, x20, x21, x22⟩ n = bitOf P.status.toNat n := rfl
theorem State.alertBit_fold (s : State) (n : Nat) : bitOf s.pwr.status.toNat n = s.alertBit n := rfl

@[simp] theorem State.note_latched (s : State) (c v k x : Nat) (p : List Nat) (y : Option Nat) (z : Bool) :
    (s.note c v k x p y z).evr.latched = s.evr.latched := by
  unfold State.note State.loseRecord State.coalesce State.bufferRecord State.loseRecord State.bump State.alert
  dsimp only
  repeat' split
  all_goals rfl


/-! ### The reset controller's response -/

/-- A field that neither the recorder's counters nor the reset controller's registers hold. -/
def Fld.plain (g : Fld) (j : Nat) : Bool :=
  g.notCount j && (decide (g.reg.off j < 0x800008) || decide (0x800050 ≤ g.reg.off j))

theorem Fld.notCount_of_plain {g : Fld} {j : Nat} (h : g.plain j = true) : g.notCount j = true := by
  simp only [Fld.plain, Bool.and_eq_true] at h
  exact h.1

/-- A field of the reset controller's registers that an action writes. -/
def Fld.ofRst (f : Fld) : Bool := f.good && decide (0x800008 ≤ f.reg.off 0) && decide (f.reg.off 0 < 0x800050)

/-- `t` is `s` but for the recorder, the reset controller, their registers, the alerts and the tickets. -/
def Aside (s t : State) : Prop :=
  t = { s with regs := t.regs, evr := t.evr, rst := t.rst, pwr := t.pwr, mb := t.mb } ∧
    (∀ g j, g.plain j = true → t.rd g j = s.rd g j) ∧ s.evr.buf <+: t.evr.buf ∧
    t.pwr = { s.pwr with status := t.pwr.status } ∧ (∀ n, n < 9 → t.alertBit n = s.alertBit n) ∧
    t.rst.orqDown = s.rst.orqDown

theorem State.eq_of_fields {a b : State} (h0 : a.pending = b.pending) (h1 : a.free = b.free) (h2 : a.regs = b.regs) (h3 : a.mem = b.mem) (h4 : a.out = b.out) (h5 : a.evr = b.evr) (h6 : a.rst = b.rst) (h7 : a.pwr = b.pwr) (h8 : a.blk = b.blk) (h9 : a.time = b.time) (h10 : a.mb = b.mb) (h11 : a.cores = b.cores) (h12 : a.chk = b.chk) (h13 : a.ms = b.ms) (h14 : a.eng = b.eng) (h15 : a.lk = b.lk) (h16 : a.routes = b.routes) (h17 : a.place = b.place) (h18 : a.path = b.path) (h19 : a.topo = b.topo) (h20 : a.hce = b.hce) (h21 : a.peers = b.peers) (h22 : a.upd = b.upd) (h23 : a.age = b.age) : a = b := by
  cases a
  cases b
  simp_all

theorem Aside.refl (s : State) : Aside s s := ⟨rfl, fun _ _ _ => rfl, List.prefix_rfl, rfl, fun _ _ => rfl, rfl⟩

theorem Aside.trans {s t u : State} (h : Aside s t) (k : Aside t u) : Aside s u := by
  refine ⟨?_, fun g j hg => (k.2.1 g j hg).trans (h.2.1 g j hg), h.2.2.1.trans k.2.2.1, ?_,
    fun n hn => (k.2.2.2.2.1 n hn).trans (h.2.2.2.2.1 n hn), k.2.2.2.2.2.trans h.2.2.2.2.2⟩
  · rw [k.1, h.1]
  · rw [k.2.2.2.1, h.2.2.2.1]

theorem Aside.wr {s t : State} (h : Aside s t) {f : Fld} {v : Nat} (hf : f.ofRst = true) : Aside s (t.wr f v) := by
  refine h.trans ⟨rfl, fun g j hg => ?_, List.prefix_rfl, rfl, fun _ _ => rfl, rfl⟩
  simp only [Fld.ofRst, Bool.and_eq_true, decide_eq_true_eq] at hf
  apply State.rd_wr_apart _ _ _ _ _ _ hf.1.1
  have hne : ¬ f.reg.off 0 = g.reg.off j := by
    simp only [Fld.plain, Bool.and_eq_true, Bool.or_eq_true, decide_eq_true_eq] at hg
    omega
  simp [Fld.apart, hne]

theorem Aside.note {s t : State} (h : Aside s t) {c v k x : Nat} {p : List Nat} {y : Option Nat} {z : Bool} :
    Aside s (t.note c v k x p y z) :=
  h.trans ⟨by apply State.eq_of_fields <;> simp, fun _ _ hg => State.rd_note _ _ _ _ _ _ _ _ _ _ (Fld.notCount_of_plain hg),
    State.note_buf_prefix .., by rw [State.note_pwr]; split <;> rfl, fun n hn => by
      simp only [State.alertBit, State.note_pwr]
      split
      · exact State.alertBit_alert_ne t 9 n true (by omega) (by omega)
      · rfl, by simp⟩

theorem Aside.endWork {s t : State} (h : Aside s t) {n : Option Nat} {a d : Nat} {p : List (BitVec 8)} :
    Aside s (t.endWork n a d p) :=
  h.trans ⟨by apply State.eq_of_fields <;> simp, fun _ _ _ => by simp, by simp, by simp, fun _ _ => by simp [State.alertBit], by simp⟩

theorem Aside.rst {s t : State} (h : Aside s t) {r : ResetCtl} (hr : r.orqDown = t.rst.orqDown) : Aside s { t with rst := r } :=
  h.trans ⟨rfl, fun _ _ _ => rfl, List.prefix_rfl, rfl, fun _ _ => rfl, hr⟩

theorem Aside.ite {s a b : State} {c : Prop} [Decidable c] (ha : Aside s a) (hb : Aside s b) :
    Aside s (if c then a else b) := by split <;> assumption

theorem aside_reportLast {s t : State} {a : Action} {x : Nat} {r : Bool} {m : Nat} (h : Aside s t) :
    Aside s (t.reportLast a x r m) :=
  (((((((((h.wr rfl).wr rfl).wr rfl).wr rfl).wr rfl).wr rfl).wr rfl).wr rfl).wr rfl)

theorem Aside.chip {s t : State} (h : Aside s t) {v : Nat} {l : List Nat} :
    Aside s (({ t with rst.chipTimes := l } : State).wr F.RST_STATUS.CHIP_RECENT v) := Aside.wr (Aside.rst h (by rfl)) (by rfl)

theorem aside_startAction {s t : State} {a : Action} {r : Bool} (h : Aside s t) : Aside s (t.startAction a r) := by
  unfold State.startAction
  refine Aside.rst (Aside.wr (aside_reportLast (Aside.wr ?_ (by rfl))) (by rfl)) (by rfl)
  refine Aside.ite (Aside.wr ?_ rfl) ?_
  · exact Aside.ite (Aside.chip (Aside.ite h.note h)) (Aside.ite h.note h)
  · exact Aside.ite (Aside.chip (Aside.ite h.note h)) (Aside.ite h.note h)

theorem aside_setQueued {s t : State} {q : List Action} (h : Aside s t) : Aside s (t.setQueued q) :=
  Aside.wr (Aside.rst h (by rfl)) (by rfl)

theorem aside_closeDumpPartial {s t : State} {r : RunAct} (h : Aside s t) : Aside s (t.closeDumpPartial r) := by
  unfold State.closeDumpPartial
  repeat' split
  · exact h
  · exact h
  · exact Aside.wr (Aside.rst h (by rfl)) (by rfl)

theorem aside_enqueueAction {s t : State} {a : Action} (h : Aside s t) : Aside s (t.enqueueAction a) :=
  Aside.ite (Aside.endWork (aside_reportLast h)) (aside_setQueued h)

theorem aside_preempt {s t : State} {r : RunAct} {a : Action} (h : Aside s t) : Aside s (t.preempt r a) :=
  aside_startAction (Aside.ite (Aside.endWork (aside_reportLast (aside_closeDumpPartial h)))
    (aside_enqueueAction (aside_closeDumpPartial h)))

theorem aside_waitAction {s t : State} {r : RunAct} {a : Action} (h : Aside s t) : Aside s (t.waitAction r a) :=
  Aside.ite (aside_preempt (Aside.endWork h)) (aside_enqueueAction h)

theorem aside_escalate {s t : State} {r : RunAct} {c : Nat} (h : Aside s t) : Aside s (t.escalate r c) := by
  unfold State.escalate
  refine aside_startAction (Aside.endWork ?_)
  exact Aside.ite (Aside.wr h.note rfl) (Aside.ite (Aside.wr h.note rfl) (Aside.ite (Aside.wr h.note rfl) h.note))

theorem aside_callAction {s t : State} {a : Action} (h : Aside s t) : Aside s (t.callAction a) := by
  unfold State.callAction
  split
  · exact aside_startAction h
  · exact Aside.ite (aside_escalate h) (Aside.ite (Aside.endWork (aside_reportLast h)) (Aside.ite (aside_preempt h)
      (aside_waitAction h)))

theorem aside_callRemoval {s t : State} {n c k i : Nat} {y : Option Nat} (h : Aside s t) :
    Aside s (t.callRemoval n c y k i) := by
  unfold State.callRemoval
  exact Aside.ite h (Aside.rst h (by rfl))

theorem aside_respond {s t : State} {c v k x : Nat} {y : Option Nat} (h : Aside s t) :
    Aside s (t.respond c v k x y) := by
  unfold State.respond
  refine Aside.ite h (Aside.ite h (Aside.ite ?_ (aside_callAction h)))
  split
  · exact h
  · split
    · exact h
    · exact Aside.ite (aside_reportLast h) (aside_callRemoval h)

/-- An event is recorded and draws its response: beyond the recorder and the reset controller nothing changes. -/
theorem aside_record {s t : State} {c v k x : Nat} {p : List Nat} {y : Option Nat} {z : Bool} (h : Aside s t) :
    Aside s (t.record c v k x p y z) := aside_respond h.note

/-! ### The same, field by field -/

@[simp] theorem State.callRemoval_pending (s : State) (n c : Nat) (y : Option Nat) (k i : Nat) : (s.callRemoval n c y k i).pending = s.pending := by
  rw [(aside_callRemoval (Aside.refl s)).1]
@[simp] theorem State.callRemoval_free (s : State) (n c : Nat) (y : Option Nat) (k i : Nat) : (s.callRemoval n c y k i).free = s.free := by
  rw [(aside_callRemoval (Aside.refl s)).1]
@[simp] theorem State.callRemoval_mem (s : State) (n c : Nat) (y : Option Nat) (k i : Nat) : (s.callRemoval n c y k i).mem = s.mem := by
  rw [(aside_callRemoval (Aside.refl s)).1]
@[simp] theorem State.callRemoval_out (s : State) (n c : Nat) (y : Option Nat) (k i : Nat) : (s.callRemoval n c y k i).out = s.out := by
  rw [(aside_callRemoval (Aside.refl s)).1]
@[simp] theorem State.callRemoval_blk (s : State) (n c : Nat) (y : Option Nat) (k i : Nat) : (s.callRemoval n c y k i).blk = s.blk := by
  rw [(aside_callRemoval (Aside.refl s)).1]
@[simp] theorem State.callRemoval_time (s : State) (n c : Nat) (y : Option Nat) (k i : Nat) : (s.callRemoval n c y k i).time = s.time := by
  rw [(aside_callRemoval (Aside.refl s)).1]
@[simp] theorem State.callRemoval_cores (s : State) (n c : Nat) (y : Option Nat) (k i : Nat) : (s.callRemoval n c y k i).cores = s.cores := by
  rw [(aside_callRemoval (Aside.refl s)).1]
@[simp] theorem State.callRemoval_chk (s : State) (n c : Nat) (y : Option Nat) (k i : Nat) : (s.callRemoval n c y k i).chk = s.chk := by
  rw [(aside_callRemoval (Aside.refl s)).1]
@[simp] theorem State.callRemoval_ms (s : State) (n c : Nat) (y : Option Nat) (k i : Nat) : (s.callRemoval n c y k i).ms = s.ms := by
  rw [(aside_callRemoval (Aside.refl s)).1]
@[simp] theorem State.callRemoval_eng (s : State) (n c : Nat) (y : Option Nat) (k i : Nat) : (s.callRemoval n c y k i).eng = s.eng := by
  rw [(aside_callRemoval (Aside.refl s)).1]
@[simp] theorem State.callRemoval_lk (s : State) (n c : Nat) (y : Option Nat) (k i : Nat) : (s.callRemoval n c y k i).lk = s.lk := by
  rw [(aside_callRemoval (Aside.refl s)).1]
@[simp] theorem State.callRemoval_routes (s : State) (n c : Nat) (y : Option Nat) (k i : Nat) : (s.callRemoval n c y k i).routes = s.routes := by
  rw [(aside_callRemoval (Aside.refl s)).1]
@[simp] theorem State.callRemoval_place (s : State) (n c : Nat) (y : Option Nat) (k i : Nat) : (s.callRemoval n c y k i).place = s.place := by
  rw [(aside_callRemoval (Aside.refl s)).1]
@[simp] theorem State.callRemoval_path (s : State) (n c : Nat) (y : Option Nat) (k i : Nat) : (s.callRemoval n c y k i).path = s.path := by
  rw [(aside_callRemoval (Aside.refl s)).1]
@[simp] theorem State.callRemoval_topo (s : State) (n c : Nat) (y : Option Nat) (k i : Nat) : (s.callRemoval n c y k i).topo = s.topo := by
  rw [(aside_callRemoval (Aside.refl s)).1]
@[simp] theorem State.callRemoval_hce (s : State) (n c : Nat) (y : Option Nat) (k i : Nat) : (s.callRemoval n c y k i).hce = s.hce := by
  rw [(aside_callRemoval (Aside.refl s)).1]
@[simp] theorem State.callRemoval_peers (s : State) (n c : Nat) (y : Option Nat) (k i : Nat) : (s.callRemoval n c y k i).peers = s.peers := by
  rw [(aside_callRemoval (Aside.refl s)).1]
@[simp] theorem State.callRemoval_upd (s : State) (n c : Nat) (y : Option Nat) (k i : Nat) : (s.callRemoval n c y k i).upd = s.upd := by
  rw [(aside_callRemoval (Aside.refl s)).1]
@[simp] theorem State.callRemoval_age (s : State) (n c : Nat) (y : Option Nat) (k i : Nat) : (s.callRemoval n c y k i).age = s.age := by
  rw [(aside_callRemoval (Aside.refl s)).1]
theorem State.rd_callRemoval (s : State) (n c : Nat) (y : Option Nat) (k i : Nat) (g : Fld) (j : Nat) (h : g.plain j = true) :
    (s.callRemoval n c y k i).rd g j = s.rd g j := (aside_callRemoval (Aside.refl s)).2.1 g j h

@[simp] theorem State.callAction_pending (s : State) (a : Action) : (s.callAction a).pending = s.pending := by
  rw [(aside_callAction (Aside.refl s)).1]
@[simp] theorem State.callAction_free (s : State) (a : Action) : (s.callAction a).free = s.free := by
  rw [(aside_callAction (Aside.refl s)).1]
@[simp] theorem State.callAction_mem (s : State) (a : Action) : (s.callAction a).mem = s.mem := by
  rw [(aside_callAction (Aside.refl s)).1]
@[simp] theorem State.callAction_out (s : State) (a : Action) : (s.callAction a).out = s.out := by
  rw [(aside_callAction (Aside.refl s)).1]
@[simp] theorem State.callAction_blk (s : State) (a : Action) : (s.callAction a).blk = s.blk := by
  rw [(aside_callAction (Aside.refl s)).1]
@[simp] theorem State.callAction_time (s : State) (a : Action) : (s.callAction a).time = s.time := by
  rw [(aside_callAction (Aside.refl s)).1]
@[simp] theorem State.callAction_cores (s : State) (a : Action) : (s.callAction a).cores = s.cores := by
  rw [(aside_callAction (Aside.refl s)).1]
@[simp] theorem State.callAction_chk (s : State) (a : Action) : (s.callAction a).chk = s.chk := by
  rw [(aside_callAction (Aside.refl s)).1]
@[simp] theorem State.callAction_ms (s : State) (a : Action) : (s.callAction a).ms = s.ms := by
  rw [(aside_callAction (Aside.refl s)).1]
@[simp] theorem State.callAction_eng (s : State) (a : Action) : (s.callAction a).eng = s.eng := by
  rw [(aside_callAction (Aside.refl s)).1]
@[simp] theorem State.callAction_lk (s : State) (a : Action) : (s.callAction a).lk = s.lk := by
  rw [(aside_callAction (Aside.refl s)).1]
@[simp] theorem State.callAction_routes (s : State) (a : Action) : (s.callAction a).routes = s.routes := by
  rw [(aside_callAction (Aside.refl s)).1]
@[simp] theorem State.callAction_place (s : State) (a : Action) : (s.callAction a).place = s.place := by
  rw [(aside_callAction (Aside.refl s)).1]
@[simp] theorem State.callAction_path (s : State) (a : Action) : (s.callAction a).path = s.path := by
  rw [(aside_callAction (Aside.refl s)).1]
@[simp] theorem State.callAction_topo (s : State) (a : Action) : (s.callAction a).topo = s.topo := by
  rw [(aside_callAction (Aside.refl s)).1]
@[simp] theorem State.callAction_hce (s : State) (a : Action) : (s.callAction a).hce = s.hce := by
  rw [(aside_callAction (Aside.refl s)).1]
@[simp] theorem State.callAction_peers (s : State) (a : Action) : (s.callAction a).peers = s.peers := by
  rw [(aside_callAction (Aside.refl s)).1]
@[simp] theorem State.callAction_upd (s : State) (a : Action) : (s.callAction a).upd = s.upd := by
  rw [(aside_callAction (Aside.refl s)).1]
@[simp] theorem State.callAction_age (s : State) (a : Action) : (s.callAction a).age = s.age := by
  rw [(aside_callAction (Aside.refl s)).1]
theorem State.rd_callAction (s : State) (a : Action) (g : Fld) (j : Nat) (h : g.plain j = true) :
    (s.callAction a).rd g j = s.rd g j := (aside_callAction (Aside.refl s)).2.1 g j h

@[simp] theorem State.respond_pending (s : State) (c v k x : Nat) (y : Option Nat) : (s.respond c v k x y).pending = s.pending := by
  rw [(aside_respond (Aside.refl s)).1]
@[simp] theorem State.respond_free (s : State) (c v k x : Nat) (y : Option Nat) : (s.respond c v k x y).free = s.free := by
  rw [(aside_respond (Aside.refl s)).1]
@[simp] theorem State.respond_mem (s : State) (c v k x : Nat) (y : Option Nat) : (s.respond c v k x y).mem = s.mem := by
  rw [(aside_respond (Aside.refl s)).1]
@[simp] theorem State.respond_out (s : State) (c v k x : Nat) (y : Option Nat) : (s.respond c v k x y).out = s.out := by
  rw [(aside_respond (Aside.refl s)).1]
@[simp] theorem State.respond_blk (s : State) (c v k x : Nat) (y : Option Nat) : (s.respond c v k x y).blk = s.blk := by
  rw [(aside_respond (Aside.refl s)).1]
@[simp] theorem State.respond_time (s : State) (c v k x : Nat) (y : Option Nat) : (s.respond c v k x y).time = s.time := by
  rw [(aside_respond (Aside.refl s)).1]
@[simp] theorem State.respond_cores (s : State) (c v k x : Nat) (y : Option Nat) : (s.respond c v k x y).cores = s.cores := by
  rw [(aside_respond (Aside.refl s)).1]
@[simp] theorem State.respond_chk (s : State) (c v k x : Nat) (y : Option Nat) : (s.respond c v k x y).chk = s.chk := by
  rw [(aside_respond (Aside.refl s)).1]
@[simp] theorem State.respond_ms (s : State) (c v k x : Nat) (y : Option Nat) : (s.respond c v k x y).ms = s.ms := by
  rw [(aside_respond (Aside.refl s)).1]
@[simp] theorem State.respond_eng (s : State) (c v k x : Nat) (y : Option Nat) : (s.respond c v k x y).eng = s.eng := by
  rw [(aside_respond (Aside.refl s)).1]
@[simp] theorem State.respond_lk (s : State) (c v k x : Nat) (y : Option Nat) : (s.respond c v k x y).lk = s.lk := by
  rw [(aside_respond (Aside.refl s)).1]
@[simp] theorem State.respond_routes (s : State) (c v k x : Nat) (y : Option Nat) : (s.respond c v k x y).routes = s.routes := by
  rw [(aside_respond (Aside.refl s)).1]
@[simp] theorem State.respond_place (s : State) (c v k x : Nat) (y : Option Nat) : (s.respond c v k x y).place = s.place := by
  rw [(aside_respond (Aside.refl s)).1]
@[simp] theorem State.respond_path (s : State) (c v k x : Nat) (y : Option Nat) : (s.respond c v k x y).path = s.path := by
  rw [(aside_respond (Aside.refl s)).1]
@[simp] theorem State.respond_topo (s : State) (c v k x : Nat) (y : Option Nat) : (s.respond c v k x y).topo = s.topo := by
  rw [(aside_respond (Aside.refl s)).1]
@[simp] theorem State.respond_hce (s : State) (c v k x : Nat) (y : Option Nat) : (s.respond c v k x y).hce = s.hce := by
  rw [(aside_respond (Aside.refl s)).1]
@[simp] theorem State.respond_peers (s : State) (c v k x : Nat) (y : Option Nat) : (s.respond c v k x y).peers = s.peers := by
  rw [(aside_respond (Aside.refl s)).1]
@[simp] theorem State.respond_upd (s : State) (c v k x : Nat) (y : Option Nat) : (s.respond c v k x y).upd = s.upd := by
  rw [(aside_respond (Aside.refl s)).1]
@[simp] theorem State.respond_age (s : State) (c v k x : Nat) (y : Option Nat) : (s.respond c v k x y).age = s.age := by
  rw [(aside_respond (Aside.refl s)).1]
theorem State.rd_respond (s : State) (c v k x : Nat) (y : Option Nat) (g : Fld) (j : Nat) (h : g.plain j = true) :
    (s.respond c v k x y).rd g j = s.rd g j := (aside_respond (Aside.refl s)).2.1 g j h

@[simp] theorem State.record_pending (s : State) (c v k x : Nat) (p : List Nat) (y : Option Nat) (z : Bool) : (s.record c v k x p y z).pending = s.pending := by
  rw [(aside_record (Aside.refl s)).1]
@[simp] theorem State.record_free (s : State) (c v k x : Nat) (p : List Nat) (y : Option Nat) (z : Bool) : (s.record c v k x p y z).free = s.free := by
  rw [(aside_record (Aside.refl s)).1]
@[simp] theorem State.record_mem (s : State) (c v k x : Nat) (p : List Nat) (y : Option Nat) (z : Bool) : (s.record c v k x p y z).mem = s.mem := by
  rw [(aside_record (Aside.refl s)).1]
@[simp] theorem State.record_out (s : State) (c v k x : Nat) (p : List Nat) (y : Option Nat) (z : Bool) : (s.record c v k x p y z).out = s.out := by
  rw [(aside_record (Aside.refl s)).1]
@[simp] theorem State.record_blk (s : State) (c v k x : Nat) (p : List Nat) (y : Option Nat) (z : Bool) : (s.record c v k x p y z).blk = s.blk := by
  rw [(aside_record (Aside.refl s)).1]
@[simp] theorem State.record_time (s : State) (c v k x : Nat) (p : List Nat) (y : Option Nat) (z : Bool) : (s.record c v k x p y z).time = s.time := by
  rw [(aside_record (Aside.refl s)).1]
@[simp] theorem State.record_cores (s : State) (c v k x : Nat) (p : List Nat) (y : Option Nat) (z : Bool) : (s.record c v k x p y z).cores = s.cores := by
  rw [(aside_record (Aside.refl s)).1]
@[simp] theorem State.record_chk (s : State) (c v k x : Nat) (p : List Nat) (y : Option Nat) (z : Bool) : (s.record c v k x p y z).chk = s.chk := by
  rw [(aside_record (Aside.refl s)).1]
@[simp] theorem State.record_ms (s : State) (c v k x : Nat) (p : List Nat) (y : Option Nat) (z : Bool) : (s.record c v k x p y z).ms = s.ms := by
  rw [(aside_record (Aside.refl s)).1]
@[simp] theorem State.record_eng (s : State) (c v k x : Nat) (p : List Nat) (y : Option Nat) (z : Bool) : (s.record c v k x p y z).eng = s.eng := by
  rw [(aside_record (Aside.refl s)).1]
@[simp] theorem State.record_lk (s : State) (c v k x : Nat) (p : List Nat) (y : Option Nat) (z : Bool) : (s.record c v k x p y z).lk = s.lk := by
  rw [(aside_record (Aside.refl s)).1]
@[simp] theorem State.record_routes (s : State) (c v k x : Nat) (p : List Nat) (y : Option Nat) (z : Bool) : (s.record c v k x p y z).routes = s.routes := by
  rw [(aside_record (Aside.refl s)).1]
@[simp] theorem State.record_place (s : State) (c v k x : Nat) (p : List Nat) (y : Option Nat) (z : Bool) : (s.record c v k x p y z).place = s.place := by
  rw [(aside_record (Aside.refl s)).1]
@[simp] theorem State.record_path (s : State) (c v k x : Nat) (p : List Nat) (y : Option Nat) (z : Bool) : (s.record c v k x p y z).path = s.path := by
  rw [(aside_record (Aside.refl s)).1]
@[simp] theorem State.record_topo (s : State) (c v k x : Nat) (p : List Nat) (y : Option Nat) (z : Bool) : (s.record c v k x p y z).topo = s.topo := by
  rw [(aside_record (Aside.refl s)).1]
@[simp] theorem State.record_hce (s : State) (c v k x : Nat) (p : List Nat) (y : Option Nat) (z : Bool) : (s.record c v k x p y z).hce = s.hce := by
  rw [(aside_record (Aside.refl s)).1]
@[simp] theorem State.record_peers (s : State) (c v k x : Nat) (p : List Nat) (y : Option Nat) (z : Bool) : (s.record c v k x p y z).peers = s.peers := by
  rw [(aside_record (Aside.refl s)).1]
@[simp] theorem State.record_upd (s : State) (c v k x : Nat) (p : List Nat) (y : Option Nat) (z : Bool) : (s.record c v k x p y z).upd = s.upd := by
  rw [(aside_record (Aside.refl s)).1]
@[simp] theorem State.record_age (s : State) (c v k x : Nat) (p : List Nat) (y : Option Nat) (z : Bool) : (s.record c v k x p y z).age = s.age := by
  rw [(aside_record (Aside.refl s)).1]
theorem State.rd_record (s : State) (c v k x : Nat) (p : List Nat) (y : Option Nat) (z : Bool) (g : Fld) (j : Nat) (h : g.plain j = true) :
    (s.record c v k x p y z).rd g j = s.rd g j := (aside_record (Aside.refl s)).2.1 g j h

@[simp] theorem State.callRemoval_pwr_a (s : State) (n c : Nat) (y : Option Nat) (k i : Nat) : (s.callRemoval n c y k i).pwr.a = s.pwr.a := by
  rw [(aside_callRemoval (Aside.refl s)).2.2.2.1]
@[simp] theorem State.callRemoval_pwr_b (s : State) (n c : Nat) (y : Option Nat) (k i : Nat) : (s.callRemoval n c y k i).pwr.b = s.pwr.b := by
  rw [(aside_callRemoval (Aside.refl s)).2.2.2.1]
@[simp] theorem State.callRemoval_pwr_ramping (s : State) (n c : Nat) (y : Option Nat) (k i : Nat) : (s.callRemoval n c y k i).pwr.ramping = s.pwr.ramping := by
  rw [(aside_callRemoval (Aside.refl s)).2.2.2.1]
@[simp] theorem State.callRemoval_pwr_startCheck (s : State) (n c : Nat) (y : Option Nat) (k i : Nat) : (s.callRemoval n c y k i).pwr.startCheck = s.pwr.startCheck := by
  rw [(aside_callRemoval (Aside.refl s)).2.2.2.1]
@[simp] theorem State.callRemoval_pwr_started (s : State) (n c : Nat) (y : Option Nat) (k i : Nat) : (s.callRemoval n c y k i).pwr.started = s.pwr.started := by
  rw [(aside_callRemoval (Aside.refl s)).2.2.2.1]
@[simp] theorem State.callRemoval_pwr_holdUp (s : State) (n c : Nat) (y : Option Nat) (k i : Nat) : (s.callRemoval n c y k i).pwr.holdUp = s.pwr.holdUp := by
  rw [(aside_callRemoval (Aside.refl s)).2.2.2.1]
@[simp] theorem State.callRemoval_pwr_domains (s : State) (n c : Nat) (y : Option Nat) (k i : Nat) : (s.callRemoval n c y k i).pwr.domains = s.pwr.domains := by
  rw [(aside_callRemoval (Aside.refl s)).2.2.2.1]
@[simp] theorem State.callRemoval_pwr_proof (s : State) (n c : Nat) (y : Option Nat) (k i : Nat) : (s.callRemoval n c y k i).pwr.proof = s.pwr.proof := by
  rw [(aside_callRemoval (Aside.refl s)).2.2.2.1]
@[simp] theorem State.callRemoval_pwr_proofResult (s : State) (n c : Nat) (y : Option Nat) (k i : Nat) : (s.callRemoval n c y k i).pwr.proofResult = s.pwr.proofResult := by
  rw [(aside_callRemoval (Aside.refl s)).2.2.2.1]
@[simp] theorem State.callRemoval_pwr_mask (s : State) (n c : Nat) (y : Option Nat) (k i : Nat) : (s.callRemoval n c y k i).pwr.mask = s.pwr.mask := by
  rw [(aside_callRemoval (Aside.refl s)).2.2.2.1]
@[simp] theorem State.callRemoval_pwr_hbCount (s : State) (n c : Nat) (y : Option Nat) (k i : Nat) : (s.callRemoval n c y k i).pwr.hbCount = s.pwr.hbCount := by
  rw [(aside_callRemoval (Aside.refl s)).2.2.2.1]
@[simp] theorem State.callRemoval_pwr_hbSeen (s : State) (n c : Nat) (y : Option Nat) (k i : Nat) : (s.callRemoval n c y k i).pwr.hbSeen = s.pwr.hbSeen := by
  rw [(aside_callRemoval (Aside.refl s)).2.2.2.1]
@[simp] theorem State.callRemoval_pwr_pwrcycReason (s : State) (n c : Nat) (y : Option Nat) (k i : Nat) : (s.callRemoval n c y k i).pwr.pwrcycReason = s.pwr.pwrcycReason := by
  rw [(aside_callRemoval (Aside.refl s)).2.2.2.1]
@[simp] theorem State.callRemoval_pwr_pwrcycReq (s : State) (n c : Nat) (y : Option Nat) (k i : Nat) : (s.callRemoval n c y k i).pwr.pwrcycReq = s.pwr.pwrcycReq := by
  rw [(aside_callRemoval (Aside.refl s)).2.2.2.1]
@[simp] theorem State.callRemoval_pwr_sensors (s : State) (n c : Nat) (y : Option Nat) (k i : Nat) : (s.callRemoval n c y k i).pwr.sensors = s.pwr.sensors := by
  rw [(aside_callRemoval (Aside.refl s)).2.2.2.1]
@[simp] theorem State.callRemoval_pwr_suspect (s : State) (n c : Nat) (y : Option Nat) (k i : Nat) : (s.callRemoval n c y k i).pwr.suspect = s.pwr.suspect := by
  rw [(aside_callRemoval (Aside.refl s)).2.2.2.1]
@[simp] theorem State.callRemoval_pwr_monSilent (s : State) (n c : Nat) (y : Option Nat) (k i : Nat) : (s.callRemoval n c y k i).pwr.monSilent = s.pwr.monSilent := by
  rw [(aside_callRemoval (Aside.refl s)).2.2.2.1]
@[simp] theorem State.callRemoval_pwr_coolBand (s : State) (n c : Nat) (y : Option Nat) (k i : Nat) : (s.callRemoval n c y k i).pwr.coolBand = s.pwr.coolBand := by
  rw [(aside_callRemoval (Aside.refl s)).2.2.2.1]
@[simp] theorem State.callRemoval_pwr_coolStepped (s : State) (n c : Nat) (y : Option Nat) (k i : Nat) : (s.callRemoval n c y k i).pwr.coolStepped = s.pwr.coolStepped := by
  rw [(aside_callRemoval (Aside.refl s)).2.2.2.1]
@[simp] theorem State.callRemoval_pwr_coolStop (s : State) (n c : Nat) (y : Option Nat) (k i : Nat) : (s.callRemoval n c y k i).pwr.coolStop = s.pwr.coolStop := by
  rw [(aside_callRemoval (Aside.refl s)).2.2.2.1]
@[simp] theorem State.callRemoval_pwr_hbOut (s : State) (n c : Nat) (y : Option Nat) (k i : Nat) : (s.callRemoval n c y k i).pwr.hbOut = s.pwr.hbOut := by
  rw [(aside_callRemoval (Aside.refl s)).2.2.2.1]
@[simp] theorem State.callRemoval_pwr_recovLow (s : State) (n c : Nat) (y : Option Nat) (k i : Nat) : (s.callRemoval n c y k i).pwr.recovLow = s.pwr.recovLow := by
  rw [(aside_callRemoval (Aside.refl s)).2.2.2.1]
@[simp] theorem State.callRemoval_pwr_perstLow (s : State) (n c : Nat) (y : Option Nat) (k i : Nat) : (s.callRemoval n c y k i).pwr.perstLow = s.pwr.perstLow := by
  rw [(aside_callRemoval (Aside.refl s)).2.2.2.1]
@[simp] theorem State.callRemoval_pwr_perstAt (s : State) (n c : Nat) (y : Option Nat) (k i : Nat) : (s.callRemoval n c y k i).pwr.perstAt = s.pwr.perstAt := by
  rw [(aside_callRemoval (Aside.refl s)).2.2.2.1]
@[simp] theorem State.callRemoval_pwr_cxlCfg (s : State) (n c : Nat) (y : Option Nat) (k i : Nat) : (s.callRemoval n c y k i).pwr.cxlCfg = s.pwr.cxlCfg := by
  rw [(aside_callRemoval (Aside.refl s)).2.2.2.1]
@[simp] theorem State.callRemoval_pwr_tap (s : State) (n c : Nat) (y : Option Nat) (k i : Nat) : (s.callRemoval n c y k i).pwr.tap = s.pwr.tap := by
  rw [(aside_callRemoval (Aside.refl s)).2.2.2.1]
@[simp] theorem State.callRemoval_orqDown (s : State) (n c : Nat) (y : Option Nat) (k i : Nat) : (s.callRemoval n c y k i).rst.orqDown = s.rst.orqDown :=
  (aside_callRemoval (Aside.refl s)).2.2.2.2.2
theorem State.callRemoval_alertBit (s : State) (n c : Nat) (y : Option Nat) (k i : Nat) (j : Nat) (h : j < 9) : (s.callRemoval n c y k i).alertBit j = s.alertBit j :=
  (aside_callRemoval (Aside.refl s)).2.2.2.2.1 j h

@[simp] theorem State.callAction_pwr_a (s : State) (a : Action) : (s.callAction a).pwr.a = s.pwr.a := by
  rw [(aside_callAction (Aside.refl s)).2.2.2.1]
@[simp] theorem State.callAction_pwr_b (s : State) (a : Action) : (s.callAction a).pwr.b = s.pwr.b := by
  rw [(aside_callAction (Aside.refl s)).2.2.2.1]
@[simp] theorem State.callAction_pwr_ramping (s : State) (a : Action) : (s.callAction a).pwr.ramping = s.pwr.ramping := by
  rw [(aside_callAction (Aside.refl s)).2.2.2.1]
@[simp] theorem State.callAction_pwr_startCheck (s : State) (a : Action) : (s.callAction a).pwr.startCheck = s.pwr.startCheck := by
  rw [(aside_callAction (Aside.refl s)).2.2.2.1]
@[simp] theorem State.callAction_pwr_started (s : State) (a : Action) : (s.callAction a).pwr.started = s.pwr.started := by
  rw [(aside_callAction (Aside.refl s)).2.2.2.1]
@[simp] theorem State.callAction_pwr_holdUp (s : State) (a : Action) : (s.callAction a).pwr.holdUp = s.pwr.holdUp := by
  rw [(aside_callAction (Aside.refl s)).2.2.2.1]
@[simp] theorem State.callAction_pwr_domains (s : State) (a : Action) : (s.callAction a).pwr.domains = s.pwr.domains := by
  rw [(aside_callAction (Aside.refl s)).2.2.2.1]
@[simp] theorem State.callAction_pwr_proof (s : State) (a : Action) : (s.callAction a).pwr.proof = s.pwr.proof := by
  rw [(aside_callAction (Aside.refl s)).2.2.2.1]
@[simp] theorem State.callAction_pwr_proofResult (s : State) (a : Action) : (s.callAction a).pwr.proofResult = s.pwr.proofResult := by
  rw [(aside_callAction (Aside.refl s)).2.2.2.1]
@[simp] theorem State.callAction_pwr_mask (s : State) (a : Action) : (s.callAction a).pwr.mask = s.pwr.mask := by
  rw [(aside_callAction (Aside.refl s)).2.2.2.1]
@[simp] theorem State.callAction_pwr_hbCount (s : State) (a : Action) : (s.callAction a).pwr.hbCount = s.pwr.hbCount := by
  rw [(aside_callAction (Aside.refl s)).2.2.2.1]
@[simp] theorem State.callAction_pwr_hbSeen (s : State) (a : Action) : (s.callAction a).pwr.hbSeen = s.pwr.hbSeen := by
  rw [(aside_callAction (Aside.refl s)).2.2.2.1]
@[simp] theorem State.callAction_pwr_pwrcycReason (s : State) (a : Action) : (s.callAction a).pwr.pwrcycReason = s.pwr.pwrcycReason := by
  rw [(aside_callAction (Aside.refl s)).2.2.2.1]
@[simp] theorem State.callAction_pwr_pwrcycReq (s : State) (a : Action) : (s.callAction a).pwr.pwrcycReq = s.pwr.pwrcycReq := by
  rw [(aside_callAction (Aside.refl s)).2.2.2.1]
@[simp] theorem State.callAction_pwr_sensors (s : State) (a : Action) : (s.callAction a).pwr.sensors = s.pwr.sensors := by
  rw [(aside_callAction (Aside.refl s)).2.2.2.1]
@[simp] theorem State.callAction_pwr_suspect (s : State) (a : Action) : (s.callAction a).pwr.suspect = s.pwr.suspect := by
  rw [(aside_callAction (Aside.refl s)).2.2.2.1]
@[simp] theorem State.callAction_pwr_monSilent (s : State) (a : Action) : (s.callAction a).pwr.monSilent = s.pwr.monSilent := by
  rw [(aside_callAction (Aside.refl s)).2.2.2.1]
@[simp] theorem State.callAction_pwr_coolBand (s : State) (a : Action) : (s.callAction a).pwr.coolBand = s.pwr.coolBand := by
  rw [(aside_callAction (Aside.refl s)).2.2.2.1]
@[simp] theorem State.callAction_pwr_coolStepped (s : State) (a : Action) : (s.callAction a).pwr.coolStepped = s.pwr.coolStepped := by
  rw [(aside_callAction (Aside.refl s)).2.2.2.1]
@[simp] theorem State.callAction_pwr_coolStop (s : State) (a : Action) : (s.callAction a).pwr.coolStop = s.pwr.coolStop := by
  rw [(aside_callAction (Aside.refl s)).2.2.2.1]
@[simp] theorem State.callAction_pwr_hbOut (s : State) (a : Action) : (s.callAction a).pwr.hbOut = s.pwr.hbOut := by
  rw [(aside_callAction (Aside.refl s)).2.2.2.1]
@[simp] theorem State.callAction_pwr_recovLow (s : State) (a : Action) : (s.callAction a).pwr.recovLow = s.pwr.recovLow := by
  rw [(aside_callAction (Aside.refl s)).2.2.2.1]
@[simp] theorem State.callAction_pwr_perstLow (s : State) (a : Action) : (s.callAction a).pwr.perstLow = s.pwr.perstLow := by
  rw [(aside_callAction (Aside.refl s)).2.2.2.1]
@[simp] theorem State.callAction_pwr_perstAt (s : State) (a : Action) : (s.callAction a).pwr.perstAt = s.pwr.perstAt := by
  rw [(aside_callAction (Aside.refl s)).2.2.2.1]
@[simp] theorem State.callAction_pwr_cxlCfg (s : State) (a : Action) : (s.callAction a).pwr.cxlCfg = s.pwr.cxlCfg := by
  rw [(aside_callAction (Aside.refl s)).2.2.2.1]
@[simp] theorem State.callAction_pwr_tap (s : State) (a : Action) : (s.callAction a).pwr.tap = s.pwr.tap := by
  rw [(aside_callAction (Aside.refl s)).2.2.2.1]
@[simp] theorem State.callAction_orqDown (s : State) (a : Action) : (s.callAction a).rst.orqDown = s.rst.orqDown :=
  (aside_callAction (Aside.refl s)).2.2.2.2.2
theorem State.callAction_alertBit (s : State) (a : Action) (j : Nat) (h : j < 9) : (s.callAction a).alertBit j = s.alertBit j :=
  (aside_callAction (Aside.refl s)).2.2.2.2.1 j h

@[simp] theorem State.respond_pwr_a (s : State) (c v k x : Nat) (y : Option Nat) : (s.respond c v k x y).pwr.a = s.pwr.a := by
  rw [(aside_respond (Aside.refl s)).2.2.2.1]
@[simp] theorem State.respond_pwr_b (s : State) (c v k x : Nat) (y : Option Nat) : (s.respond c v k x y).pwr.b = s.pwr.b := by
  rw [(aside_respond (Aside.refl s)).2.2.2.1]
@[simp] theorem State.respond_pwr_ramping (s : State) (c v k x : Nat) (y : Option Nat) : (s.respond c v k x y).pwr.ramping = s.pwr.ramping := by
  rw [(aside_respond (Aside.refl s)).2.2.2.1]
@[simp] theorem State.respond_pwr_startCheck (s : State) (c v k x : Nat) (y : Option Nat) : (s.respond c v k x y).pwr.startCheck = s.pwr.startCheck := by
  rw [(aside_respond (Aside.refl s)).2.2.2.1]
@[simp] theorem State.respond_pwr_started (s : State) (c v k x : Nat) (y : Option Nat) : (s.respond c v k x y).pwr.started = s.pwr.started := by
  rw [(aside_respond (Aside.refl s)).2.2.2.1]
@[simp] theorem State.respond_pwr_holdUp (s : State) (c v k x : Nat) (y : Option Nat) : (s.respond c v k x y).pwr.holdUp = s.pwr.holdUp := by
  rw [(aside_respond (Aside.refl s)).2.2.2.1]
@[simp] theorem State.respond_pwr_domains (s : State) (c v k x : Nat) (y : Option Nat) : (s.respond c v k x y).pwr.domains = s.pwr.domains := by
  rw [(aside_respond (Aside.refl s)).2.2.2.1]
@[simp] theorem State.respond_pwr_proof (s : State) (c v k x : Nat) (y : Option Nat) : (s.respond c v k x y).pwr.proof = s.pwr.proof := by
  rw [(aside_respond (Aside.refl s)).2.2.2.1]
@[simp] theorem State.respond_pwr_proofResult (s : State) (c v k x : Nat) (y : Option Nat) : (s.respond c v k x y).pwr.proofResult = s.pwr.proofResult := by
  rw [(aside_respond (Aside.refl s)).2.2.2.1]
@[simp] theorem State.respond_pwr_mask (s : State) (c v k x : Nat) (y : Option Nat) : (s.respond c v k x y).pwr.mask = s.pwr.mask := by
  rw [(aside_respond (Aside.refl s)).2.2.2.1]
@[simp] theorem State.respond_pwr_hbCount (s : State) (c v k x : Nat) (y : Option Nat) : (s.respond c v k x y).pwr.hbCount = s.pwr.hbCount := by
  rw [(aside_respond (Aside.refl s)).2.2.2.1]
@[simp] theorem State.respond_pwr_hbSeen (s : State) (c v k x : Nat) (y : Option Nat) : (s.respond c v k x y).pwr.hbSeen = s.pwr.hbSeen := by
  rw [(aside_respond (Aside.refl s)).2.2.2.1]
@[simp] theorem State.respond_pwr_pwrcycReason (s : State) (c v k x : Nat) (y : Option Nat) : (s.respond c v k x y).pwr.pwrcycReason = s.pwr.pwrcycReason := by
  rw [(aside_respond (Aside.refl s)).2.2.2.1]
@[simp] theorem State.respond_pwr_pwrcycReq (s : State) (c v k x : Nat) (y : Option Nat) : (s.respond c v k x y).pwr.pwrcycReq = s.pwr.pwrcycReq := by
  rw [(aside_respond (Aside.refl s)).2.2.2.1]
@[simp] theorem State.respond_pwr_sensors (s : State) (c v k x : Nat) (y : Option Nat) : (s.respond c v k x y).pwr.sensors = s.pwr.sensors := by
  rw [(aside_respond (Aside.refl s)).2.2.2.1]
@[simp] theorem State.respond_pwr_suspect (s : State) (c v k x : Nat) (y : Option Nat) : (s.respond c v k x y).pwr.suspect = s.pwr.suspect := by
  rw [(aside_respond (Aside.refl s)).2.2.2.1]
@[simp] theorem State.respond_pwr_monSilent (s : State) (c v k x : Nat) (y : Option Nat) : (s.respond c v k x y).pwr.monSilent = s.pwr.monSilent := by
  rw [(aside_respond (Aside.refl s)).2.2.2.1]
@[simp] theorem State.respond_pwr_coolBand (s : State) (c v k x : Nat) (y : Option Nat) : (s.respond c v k x y).pwr.coolBand = s.pwr.coolBand := by
  rw [(aside_respond (Aside.refl s)).2.2.2.1]
@[simp] theorem State.respond_pwr_coolStepped (s : State) (c v k x : Nat) (y : Option Nat) : (s.respond c v k x y).pwr.coolStepped = s.pwr.coolStepped := by
  rw [(aside_respond (Aside.refl s)).2.2.2.1]
@[simp] theorem State.respond_pwr_coolStop (s : State) (c v k x : Nat) (y : Option Nat) : (s.respond c v k x y).pwr.coolStop = s.pwr.coolStop := by
  rw [(aside_respond (Aside.refl s)).2.2.2.1]
@[simp] theorem State.respond_pwr_hbOut (s : State) (c v k x : Nat) (y : Option Nat) : (s.respond c v k x y).pwr.hbOut = s.pwr.hbOut := by
  rw [(aside_respond (Aside.refl s)).2.2.2.1]
@[simp] theorem State.respond_pwr_recovLow (s : State) (c v k x : Nat) (y : Option Nat) : (s.respond c v k x y).pwr.recovLow = s.pwr.recovLow := by
  rw [(aside_respond (Aside.refl s)).2.2.2.1]
@[simp] theorem State.respond_pwr_perstLow (s : State) (c v k x : Nat) (y : Option Nat) : (s.respond c v k x y).pwr.perstLow = s.pwr.perstLow := by
  rw [(aside_respond (Aside.refl s)).2.2.2.1]
@[simp] theorem State.respond_pwr_perstAt (s : State) (c v k x : Nat) (y : Option Nat) : (s.respond c v k x y).pwr.perstAt = s.pwr.perstAt := by
  rw [(aside_respond (Aside.refl s)).2.2.2.1]
@[simp] theorem State.respond_pwr_cxlCfg (s : State) (c v k x : Nat) (y : Option Nat) : (s.respond c v k x y).pwr.cxlCfg = s.pwr.cxlCfg := by
  rw [(aside_respond (Aside.refl s)).2.2.2.1]
@[simp] theorem State.respond_pwr_tap (s : State) (c v k x : Nat) (y : Option Nat) : (s.respond c v k x y).pwr.tap = s.pwr.tap := by
  rw [(aside_respond (Aside.refl s)).2.2.2.1]
@[simp] theorem State.respond_orqDown (s : State) (c v k x : Nat) (y : Option Nat) : (s.respond c v k x y).rst.orqDown = s.rst.orqDown :=
  (aside_respond (Aside.refl s)).2.2.2.2.2
theorem State.respond_alertBit (s : State) (c v k x : Nat) (y : Option Nat) (j : Nat) (h : j < 9) : (s.respond c v k x y).alertBit j = s.alertBit j :=
  (aside_respond (Aside.refl s)).2.2.2.2.1 j h

@[simp] theorem State.record_pwr_a (s : State) (c v k x : Nat) (p : List Nat) (y : Option Nat) (z : Bool) : (s.record c v k x p y z).pwr.a = s.pwr.a := by
  rw [(aside_record (Aside.refl s)).2.2.2.1]
@[simp] theorem State.record_pwr_b (s : State) (c v k x : Nat) (p : List Nat) (y : Option Nat) (z : Bool) : (s.record c v k x p y z).pwr.b = s.pwr.b := by
  rw [(aside_record (Aside.refl s)).2.2.2.1]
@[simp] theorem State.record_pwr_ramping (s : State) (c v k x : Nat) (p : List Nat) (y : Option Nat) (z : Bool) : (s.record c v k x p y z).pwr.ramping = s.pwr.ramping := by
  rw [(aside_record (Aside.refl s)).2.2.2.1]
@[simp] theorem State.record_pwr_startCheck (s : State) (c v k x : Nat) (p : List Nat) (y : Option Nat) (z : Bool) : (s.record c v k x p y z).pwr.startCheck = s.pwr.startCheck := by
  rw [(aside_record (Aside.refl s)).2.2.2.1]
@[simp] theorem State.record_pwr_started (s : State) (c v k x : Nat) (p : List Nat) (y : Option Nat) (z : Bool) : (s.record c v k x p y z).pwr.started = s.pwr.started := by
  rw [(aside_record (Aside.refl s)).2.2.2.1]
@[simp] theorem State.record_pwr_holdUp (s : State) (c v k x : Nat) (p : List Nat) (y : Option Nat) (z : Bool) : (s.record c v k x p y z).pwr.holdUp = s.pwr.holdUp := by
  rw [(aside_record (Aside.refl s)).2.2.2.1]
@[simp] theorem State.record_pwr_domains (s : State) (c v k x : Nat) (p : List Nat) (y : Option Nat) (z : Bool) : (s.record c v k x p y z).pwr.domains = s.pwr.domains := by
  rw [(aside_record (Aside.refl s)).2.2.2.1]
@[simp] theorem State.record_pwr_proof (s : State) (c v k x : Nat) (p : List Nat) (y : Option Nat) (z : Bool) : (s.record c v k x p y z).pwr.proof = s.pwr.proof := by
  rw [(aside_record (Aside.refl s)).2.2.2.1]
@[simp] theorem State.record_pwr_proofResult (s : State) (c v k x : Nat) (p : List Nat) (y : Option Nat) (z : Bool) : (s.record c v k x p y z).pwr.proofResult = s.pwr.proofResult := by
  rw [(aside_record (Aside.refl s)).2.2.2.1]
@[simp] theorem State.record_pwr_mask (s : State) (c v k x : Nat) (p : List Nat) (y : Option Nat) (z : Bool) : (s.record c v k x p y z).pwr.mask = s.pwr.mask := by
  rw [(aside_record (Aside.refl s)).2.2.2.1]
@[simp] theorem State.record_pwr_hbCount (s : State) (c v k x : Nat) (p : List Nat) (y : Option Nat) (z : Bool) : (s.record c v k x p y z).pwr.hbCount = s.pwr.hbCount := by
  rw [(aside_record (Aside.refl s)).2.2.2.1]
@[simp] theorem State.record_pwr_hbSeen (s : State) (c v k x : Nat) (p : List Nat) (y : Option Nat) (z : Bool) : (s.record c v k x p y z).pwr.hbSeen = s.pwr.hbSeen := by
  rw [(aside_record (Aside.refl s)).2.2.2.1]
@[simp] theorem State.record_pwr_pwrcycReason (s : State) (c v k x : Nat) (p : List Nat) (y : Option Nat) (z : Bool) : (s.record c v k x p y z).pwr.pwrcycReason = s.pwr.pwrcycReason := by
  rw [(aside_record (Aside.refl s)).2.2.2.1]
@[simp] theorem State.record_pwr_pwrcycReq (s : State) (c v k x : Nat) (p : List Nat) (y : Option Nat) (z : Bool) : (s.record c v k x p y z).pwr.pwrcycReq = s.pwr.pwrcycReq := by
  rw [(aside_record (Aside.refl s)).2.2.2.1]
@[simp] theorem State.record_pwr_sensors (s : State) (c v k x : Nat) (p : List Nat) (y : Option Nat) (z : Bool) : (s.record c v k x p y z).pwr.sensors = s.pwr.sensors := by
  rw [(aside_record (Aside.refl s)).2.2.2.1]
@[simp] theorem State.record_pwr_suspect (s : State) (c v k x : Nat) (p : List Nat) (y : Option Nat) (z : Bool) : (s.record c v k x p y z).pwr.suspect = s.pwr.suspect := by
  rw [(aside_record (Aside.refl s)).2.2.2.1]
@[simp] theorem State.record_pwr_monSilent (s : State) (c v k x : Nat) (p : List Nat) (y : Option Nat) (z : Bool) : (s.record c v k x p y z).pwr.monSilent = s.pwr.monSilent := by
  rw [(aside_record (Aside.refl s)).2.2.2.1]
@[simp] theorem State.record_pwr_coolBand (s : State) (c v k x : Nat) (p : List Nat) (y : Option Nat) (z : Bool) : (s.record c v k x p y z).pwr.coolBand = s.pwr.coolBand := by
  rw [(aside_record (Aside.refl s)).2.2.2.1]
@[simp] theorem State.record_pwr_coolStepped (s : State) (c v k x : Nat) (p : List Nat) (y : Option Nat) (z : Bool) : (s.record c v k x p y z).pwr.coolStepped = s.pwr.coolStepped := by
  rw [(aside_record (Aside.refl s)).2.2.2.1]
@[simp] theorem State.record_pwr_coolStop (s : State) (c v k x : Nat) (p : List Nat) (y : Option Nat) (z : Bool) : (s.record c v k x p y z).pwr.coolStop = s.pwr.coolStop := by
  rw [(aside_record (Aside.refl s)).2.2.2.1]
@[simp] theorem State.record_pwr_hbOut (s : State) (c v k x : Nat) (p : List Nat) (y : Option Nat) (z : Bool) : (s.record c v k x p y z).pwr.hbOut = s.pwr.hbOut := by
  rw [(aside_record (Aside.refl s)).2.2.2.1]
@[simp] theorem State.record_pwr_recovLow (s : State) (c v k x : Nat) (p : List Nat) (y : Option Nat) (z : Bool) : (s.record c v k x p y z).pwr.recovLow = s.pwr.recovLow := by
  rw [(aside_record (Aside.refl s)).2.2.2.1]
@[simp] theorem State.record_pwr_perstLow (s : State) (c v k x : Nat) (p : List Nat) (y : Option Nat) (z : Bool) : (s.record c v k x p y z).pwr.perstLow = s.pwr.perstLow := by
  rw [(aside_record (Aside.refl s)).2.2.2.1]
@[simp] theorem State.record_pwr_perstAt (s : State) (c v k x : Nat) (p : List Nat) (y : Option Nat) (z : Bool) : (s.record c v k x p y z).pwr.perstAt = s.pwr.perstAt := by
  rw [(aside_record (Aside.refl s)).2.2.2.1]
@[simp] theorem State.record_pwr_cxlCfg (s : State) (c v k x : Nat) (p : List Nat) (y : Option Nat) (z : Bool) : (s.record c v k x p y z).pwr.cxlCfg = s.pwr.cxlCfg := by
  rw [(aside_record (Aside.refl s)).2.2.2.1]
@[simp] theorem State.record_pwr_tap (s : State) (c v k x : Nat) (p : List Nat) (y : Option Nat) (z : Bool) : (s.record c v k x p y z).pwr.tap = s.pwr.tap := by
  rw [(aside_record (Aside.refl s)).2.2.2.1]
@[simp] theorem State.record_orqDown (s : State) (c v k x : Nat) (p : List Nat) (y : Option Nat) (z : Bool) : (s.record c v k x p y z).rst.orqDown = s.rst.orqDown :=
  (aside_record (Aside.refl s)).2.2.2.2.2
theorem State.record_alertBit (s : State) (c v k x : Nat) (p : List Nat) (y : Option Nat) (z : Bool) (j : Nat) (h : j < 9) : (s.record c v k x p y z).alertBit j = s.alertBit j :=
  (aside_record (Aside.refl s)).2.2.2.2.1 j h

@[simp] theorem State.note_pwr_a (s : State) (c v k x : Nat) (p : List Nat) (y : Option Nat) (z : Bool) : (s.note c v k x p y z).pwr.a = s.pwr.a := by
  rw [State.note_pwr]
  split <;> rfl
@[simp] theorem State.alert_pwr_a (s : State) (n : Nat) (b : Bool) : (s.alert n b).pwr.a = s.pwr.a := rfl
@[simp] theorem State.note_pwr_b (s : State) (c v k x : Nat) (p : List Nat) (y : Option Nat) (z : Bool) : (s.note c v k x p y z).pwr.b = s.pwr.b := by
  rw [State.note_pwr]
  split <;> rfl
@[simp] theorem State.alert_pwr_b (s : State) (n : Nat) (b : Bool) : (s.alert n b).pwr.b = s.pwr.b := rfl
@[simp] theorem State.note_pwr_ramping (s : State) (c v k x : Nat) (p : List Nat) (y : Option Nat) (z : Bool) : (s.note c v k x p y z).pwr.ramping = s.pwr.ramping := by
  rw [State.note_pwr]
  split <;> rfl
@[simp] theorem State.alert_pwr_ramping (s : State) (n : Nat) (b : Bool) : (s.alert n b).pwr.ramping = s.pwr.ramping := rfl
@[simp] theorem State.note_pwr_startCheck (s : State) (c v k x : Nat) (p : List Nat) (y : Option Nat) (z : Bool) : (s.note c v k x p y z).pwr.startCheck = s.pwr.startCheck := by
  rw [State.note_pwr]
  split <;> rfl
@[simp] theorem State.alert_pwr_startCheck (s : State) (n : Nat) (b : Bool) : (s.alert n b).pwr.startCheck = s.pwr.startCheck := rfl
@[simp] theorem State.note_pwr_started (s : State) (c v k x : Nat) (p : List Nat) (y : Option Nat) (z : Bool) : (s.note c v k x p y z).pwr.started = s.pwr.started := by
  rw [State.note_pwr]
  split <;> rfl
@[simp] theorem State.alert_pwr_started (s : State) (n : Nat) (b : Bool) : (s.alert n b).pwr.started = s.pwr.started := rfl
@[simp] theorem State.note_pwr_holdUp (s : State) (c v k x : Nat) (p : List Nat) (y : Option Nat) (z : Bool) : (s.note c v k x p y z).pwr.holdUp = s.pwr.holdUp := by
  rw [State.note_pwr]
  split <;> rfl
@[simp] theorem State.alert_pwr_holdUp (s : State) (n : Nat) (b : Bool) : (s.alert n b).pwr.holdUp = s.pwr.holdUp := rfl
@[simp] theorem State.note_pwr_domains (s : State) (c v k x : Nat) (p : List Nat) (y : Option Nat) (z : Bool) : (s.note c v k x p y z).pwr.domains = s.pwr.domains := by
  rw [State.note_pwr]
  split <;> rfl
@[simp] theorem State.alert_pwr_domains (s : State) (n : Nat) (b : Bool) : (s.alert n b).pwr.domains = s.pwr.domains := rfl
@[simp] theorem State.note_pwr_proof (s : State) (c v k x : Nat) (p : List Nat) (y : Option Nat) (z : Bool) : (s.note c v k x p y z).pwr.proof = s.pwr.proof := by
  rw [State.note_pwr]
  split <;> rfl
@[simp] theorem State.alert_pwr_proof (s : State) (n : Nat) (b : Bool) : (s.alert n b).pwr.proof = s.pwr.proof := rfl
@[simp] theorem State.note_pwr_proofResult (s : State) (c v k x : Nat) (p : List Nat) (y : Option Nat) (z : Bool) : (s.note c v k x p y z).pwr.proofResult = s.pwr.proofResult := by
  rw [State.note_pwr]
  split <;> rfl
@[simp] theorem State.alert_pwr_proofResult (s : State) (n : Nat) (b : Bool) : (s.alert n b).pwr.proofResult = s.pwr.proofResult := rfl
@[simp] theorem State.note_pwr_mask (s : State) (c v k x : Nat) (p : List Nat) (y : Option Nat) (z : Bool) : (s.note c v k x p y z).pwr.mask = s.pwr.mask := by
  rw [State.note_pwr]
  split <;> rfl
@[simp] theorem State.alert_pwr_mask (s : State) (n : Nat) (b : Bool) : (s.alert n b).pwr.mask = s.pwr.mask := rfl
@[simp] theorem State.note_pwr_hbCount (s : State) (c v k x : Nat) (p : List Nat) (y : Option Nat) (z : Bool) : (s.note c v k x p y z).pwr.hbCount = s.pwr.hbCount := by
  rw [State.note_pwr]
  split <;> rfl
@[simp] theorem State.alert_pwr_hbCount (s : State) (n : Nat) (b : Bool) : (s.alert n b).pwr.hbCount = s.pwr.hbCount := rfl
@[simp] theorem State.note_pwr_hbSeen (s : State) (c v k x : Nat) (p : List Nat) (y : Option Nat) (z : Bool) : (s.note c v k x p y z).pwr.hbSeen = s.pwr.hbSeen := by
  rw [State.note_pwr]
  split <;> rfl
@[simp] theorem State.alert_pwr_hbSeen (s : State) (n : Nat) (b : Bool) : (s.alert n b).pwr.hbSeen = s.pwr.hbSeen := rfl
@[simp] theorem State.note_pwr_pwrcycReason (s : State) (c v k x : Nat) (p : List Nat) (y : Option Nat) (z : Bool) : (s.note c v k x p y z).pwr.pwrcycReason = s.pwr.pwrcycReason := by
  rw [State.note_pwr]
  split <;> rfl
@[simp] theorem State.alert_pwr_pwrcycReason (s : State) (n : Nat) (b : Bool) : (s.alert n b).pwr.pwrcycReason = s.pwr.pwrcycReason := rfl
@[simp] theorem State.note_pwr_pwrcycReq (s : State) (c v k x : Nat) (p : List Nat) (y : Option Nat) (z : Bool) : (s.note c v k x p y z).pwr.pwrcycReq = s.pwr.pwrcycReq := by
  rw [State.note_pwr]
  split <;> rfl
@[simp] theorem State.alert_pwr_pwrcycReq (s : State) (n : Nat) (b : Bool) : (s.alert n b).pwr.pwrcycReq = s.pwr.pwrcycReq := rfl
@[simp] theorem State.note_pwr_sensors (s : State) (c v k x : Nat) (p : List Nat) (y : Option Nat) (z : Bool) : (s.note c v k x p y z).pwr.sensors = s.pwr.sensors := by
  rw [State.note_pwr]
  split <;> rfl
@[simp] theorem State.alert_pwr_sensors (s : State) (n : Nat) (b : Bool) : (s.alert n b).pwr.sensors = s.pwr.sensors := rfl
@[simp] theorem State.note_pwr_suspect (s : State) (c v k x : Nat) (p : List Nat) (y : Option Nat) (z : Bool) : (s.note c v k x p y z).pwr.suspect = s.pwr.suspect := by
  rw [State.note_pwr]
  split <;> rfl
@[simp] theorem State.alert_pwr_suspect (s : State) (n : Nat) (b : Bool) : (s.alert n b).pwr.suspect = s.pwr.suspect := rfl
@[simp] theorem State.note_pwr_monSilent (s : State) (c v k x : Nat) (p : List Nat) (y : Option Nat) (z : Bool) : (s.note c v k x p y z).pwr.monSilent = s.pwr.monSilent := by
  rw [State.note_pwr]
  split <;> rfl
@[simp] theorem State.alert_pwr_monSilent (s : State) (n : Nat) (b : Bool) : (s.alert n b).pwr.monSilent = s.pwr.monSilent := rfl
@[simp] theorem State.note_pwr_coolBand (s : State) (c v k x : Nat) (p : List Nat) (y : Option Nat) (z : Bool) : (s.note c v k x p y z).pwr.coolBand = s.pwr.coolBand := by
  rw [State.note_pwr]
  split <;> rfl
@[simp] theorem State.alert_pwr_coolBand (s : State) (n : Nat) (b : Bool) : (s.alert n b).pwr.coolBand = s.pwr.coolBand := rfl
@[simp] theorem State.note_pwr_coolStepped (s : State) (c v k x : Nat) (p : List Nat) (y : Option Nat) (z : Bool) : (s.note c v k x p y z).pwr.coolStepped = s.pwr.coolStepped := by
  rw [State.note_pwr]
  split <;> rfl
@[simp] theorem State.alert_pwr_coolStepped (s : State) (n : Nat) (b : Bool) : (s.alert n b).pwr.coolStepped = s.pwr.coolStepped := rfl
@[simp] theorem State.note_pwr_coolStop (s : State) (c v k x : Nat) (p : List Nat) (y : Option Nat) (z : Bool) : (s.note c v k x p y z).pwr.coolStop = s.pwr.coolStop := by
  rw [State.note_pwr]
  split <;> rfl
@[simp] theorem State.alert_pwr_coolStop (s : State) (n : Nat) (b : Bool) : (s.alert n b).pwr.coolStop = s.pwr.coolStop := rfl
@[simp] theorem State.note_pwr_hbOut (s : State) (c v k x : Nat) (p : List Nat) (y : Option Nat) (z : Bool) : (s.note c v k x p y z).pwr.hbOut = s.pwr.hbOut := by
  rw [State.note_pwr]
  split <;> rfl
@[simp] theorem State.alert_pwr_hbOut (s : State) (n : Nat) (b : Bool) : (s.alert n b).pwr.hbOut = s.pwr.hbOut := rfl
@[simp] theorem State.note_pwr_recovLow (s : State) (c v k x : Nat) (p : List Nat) (y : Option Nat) (z : Bool) : (s.note c v k x p y z).pwr.recovLow = s.pwr.recovLow := by
  rw [State.note_pwr]
  split <;> rfl
@[simp] theorem State.alert_pwr_recovLow (s : State) (n : Nat) (b : Bool) : (s.alert n b).pwr.recovLow = s.pwr.recovLow := rfl
@[simp] theorem State.note_pwr_perstLow (s : State) (c v k x : Nat) (p : List Nat) (y : Option Nat) (z : Bool) : (s.note c v k x p y z).pwr.perstLow = s.pwr.perstLow := by
  rw [State.note_pwr]
  split <;> rfl
@[simp] theorem State.alert_pwr_perstLow (s : State) (n : Nat) (b : Bool) : (s.alert n b).pwr.perstLow = s.pwr.perstLow := rfl
@[simp] theorem State.note_pwr_perstAt (s : State) (c v k x : Nat) (p : List Nat) (y : Option Nat) (z : Bool) : (s.note c v k x p y z).pwr.perstAt = s.pwr.perstAt := by
  rw [State.note_pwr]
  split <;> rfl
@[simp] theorem State.alert_pwr_perstAt (s : State) (n : Nat) (b : Bool) : (s.alert n b).pwr.perstAt = s.pwr.perstAt := rfl
@[simp] theorem State.note_pwr_cxlCfg (s : State) (c v k x : Nat) (p : List Nat) (y : Option Nat) (z : Bool) : (s.note c v k x p y z).pwr.cxlCfg = s.pwr.cxlCfg := by
  rw [State.note_pwr]
  split <;> rfl
@[simp] theorem State.alert_pwr_cxlCfg (s : State) (n : Nat) (b : Bool) : (s.alert n b).pwr.cxlCfg = s.pwr.cxlCfg := rfl
@[simp] theorem State.note_pwr_tap (s : State) (c v k x : Nat) (p : List Nat) (y : Option Nat) (z : Bool) : (s.note c v k x p y z).pwr.tap = s.pwr.tap := by
  rw [State.note_pwr]
  split <;> rfl
@[simp] theorem State.alert_pwr_tap (s : State) (n : Nat) (b : Bool) : (s.alert n b).pwr.tap = s.pwr.tap := rfl

theorem State.note_alertBit (s : State) (c v k x : Nat) (p : List Nat) (y : Option Nat) (z : Bool) (j : Nat) (h : j < 9) :
    (s.note c v k x p y z).alertBit j = s.alertBit j := (Aside.refl s).note.2.2.2.2.1 j h

theorem State.record_buf_prefix (s : State) (c v k x : Nat) (p : List Nat) (y : Option Nat) (z : Bool) :
    (s.note c v k x p y z).evr.buf <+: (s.record c v k x p y z).evr.buf := (aside_respond (Aside.refl _)).2.2.1

/-- The event just recorded, its response drawn. -/
theorem noted_record_self {s e : State} {c v k x : Nat} {p : List Nat} {y : Option Nat} {z : Bool} (hr : Roomy s)
    (he : e.evr = s.evr) : Noted s (e.record c v k x p y z) c v k x :=
  noted_more (noted_self hr he) (State.record_buf_prefix ..)

theorem noted_record {s e t : State} {c v k x : Nat} {p : List Nat} {y : Option Nat} {z : Bool} (hr : Roomy s)
    (he : e.evr = s.evr) (ht : (e.record c v k x p y z).evr.buf <+: t.evr.buf) : Noted s t c v k x :=
  noted_note hr he ((State.record_buf_prefix ..).trans ht)

end Sys2Proof.Machine
end

