-- ==== Sys2Proof/Laws/Rows.lean ====
section
/-! SUPPORT. What the shared operations behind several commands do: clearing alerts, recording for each partition,
changing every entry of a keyed list. -/

set_option Elab.async false
namespace Sys2Proof.Machine
open Sys2Proof Safety

theorem kfind_map {α β : Type} (f : α → β) (m : List (Nat × α)) (k : Nat) :
    kfind (m.map fun x => (x.1, f x.2)) k = (kfind m k).map f := by
  induction m with
  | nil => rfl
  | cons e m ih =>
    simp only [List.map_cons, kfind]
    split
    · rfl
    · exact ih

theorem State.alertCause_alert (s : State) (n m : Nat) (b : Bool) : (s.alert n b).alertCause m = s.alertCause m := rfl

theorem State.alertBit_clear (m n : Nat) (hn : n < 16) (l : List Nat) (hl : ∀ k ∈ l, k < 16) (s : State) :
    (l.foldl (fun s k => if bitOf m k && !s.alertCause k then s.alert k false else s) s).alertBit n =
      (s.alertBit n && !(decide (n ∈ l) && bitOf m n && !s.alertCause n)) := by
  induction l generalizing s with
  | nil => simp
  | cons k l ih =>
    have hl' : ∀ j ∈ l, j < 16 := fun j hj => hl j (List.mem_cons_of_mem _ hj)
    have hk : k < 16 := hl k List.mem_cons_self
    rw [List.foldl_cons, ih hl']
    by_cases e : k = n
    · subst e
      by_cases h : (bitOf m k && !s.alertCause k) = true
      · rw [if_pos h, State.alertBit_alert_same _ _ _ hn]
        simp [State.alertCause_alert, h]
      · rw [if_neg h]
        have h' : (bitOf m k && !s.alertCause k) = false := by simpa using h
        simp [Bool.and_assoc, h']
    · have e' : n ≠ k := fun h => e h.symm
      split
      · rw [State.alertBit_alert_ne _ _ _ _ hn e]
        simp [State.alertCause_alert, e']
      · simp [e']

theorem State.clear_frame (m : Nat) (l : List Nat) (s : State) :
    (l.foldl (fun s k => if bitOf m k && !s.alertCause k then s.alert k false else s) s) =
      { s with pwr := (l.foldl (fun s k => if bitOf m k && !s.alertCause k then s.alert k false else s) s).pwr } := by
  induction l generalizing s with
  | nil => rfl
  | cons k l ih =>
    rw [List.foldl_cons]
    split
    · rw [ih]; rfl
    · exact ih s

/-- Recording one event for each of a list of units leaves what a single record leaves. -/
theorem aside_recordEach (l : List Nat) (c v k : Nat) (p : List Nat) (s t : State) (h : Aside s t) :
    Aside s (l.foldl (fun s x => s.record c v k x p) t) := by
  induction l generalizing t with
  | nil => exact h
  | cons x l ih => exact ih _ (aside_record h)

theorem bitOf_mod (v n w : Nat) (h : n < w) : bitOf (v % 2 ^ w) n = bitOf v n := by
  simp [bitOf_eq_testBit, Nat.testBit_mod_two_pow, h]

/-- A quarter's gating reads as it was set. -/
theorem gated_setGated (s : State) (q : Nat) (b : Bool) (h : q < 4) : (s.setGated q b).gated q = b := by
  have hk : ∀ t : State, t.judgePower.rd F.ID_PWR_STATE.Q_GATED = t.rd F.ID_PWR_STATE.Q_GATED := by
    intro t
    unfold State.judgePower State.leaveDormant
    repeat' split
    all_goals first
      | rfl
      | exact State.rd_wr_apart _ _ _ _ _ _ (by decide) (by decide)
      | exact (State.rd_wr_apart _ _ _ _ _ _ (by decide) (by decide)).trans (State.rd_wr_apart _ _ _ _ _ _ (by decide) (by decide))
  unfold State.gated State.setGated
  rw [hk, State.rd_wr_same _ _ _ _ (by decide)]
  exact (bitOf_mod _ _ _ h).trans (bitOf_putBit_same _ _ _)

@[simp] theorem quarter_setQuarter (s : State) (q : Nat) (v : Quarter) : (s.setQuarter q v).quarter q = v := by
  simp [State.quarter, State.setQuarter]

theorem quarter_of_blk {s t : State} (h : t.blk = s.blk) (q : Nat) : t.quarter q = s.quarter q := by
  simp [State.quarter, h]

@[simp] theorem State.setGated_quarter (s : State) (q : Nat) (b : Bool) (r : Nat) : (s.setGated q b).quarter r = s.quarter r := by
  unfold State.setGated State.judgePower State.leaveDormant
  repeat' split
  all_goals rfl
@[simp] theorem State.setGated_mem (s : State) (q : Nat) (b : Bool) : (s.setGated q b).mem = s.mem := by
  unfold State.setGated State.judgePower State.leaveDormant
  repeat' split
  all_goals rfl
@[simp] theorem State.setGated_out (s : State) (q : Nat) (b : Bool) : (s.setGated q b).out = s.out := by
  unfold State.setGated State.judgePower State.leaveDormant
  repeat' split
  all_goals rfl
@[simp] theorem State.setGated_evr (s : State) (q : Nat) (b : Bool) : (s.setGated q b).evr = s.evr := by
  unfold State.setGated State.judgePower State.leaveDormant
  repeat' split
  all_goals rfl
@[simp] theorem State.setGated_cores (s : State) (q : Nat) (b : Bool) : (s.setGated q b).cores = s.cores := by
  unfold State.setGated State.judgePower State.leaveDormant
  repeat' split
  all_goals rfl

/-- Writing one register leaves the staged regions, which have registers of their own. -/
theorem stagedRegions_wr (s : State) (f : Fld) (v : Nat) (hf : f.reg = .MEM_REGION_COMMIT) (hg : f.good = true) :
    (s.wr f v 0).stagedRegions = s.stagedRegions := by
  have key : ∀ g : Fld, ∀ n, (g.reg = .MEM_REGION_LO ∨ g.reg = .MEM_REGION_HI) → (s.wr f v 0).rd g n = s.rd g n := by
    intro g n hr
    apply State.rd_wr_apart _ _ _ _ _ _ hg
    have hne : ¬ f.reg.off 0 = g.reg.off n := by
      obtain h | h := hr <;> simp only [Reg.off, Reg.desc, hf, h] <;> omega
    simp [Fld.apart, hne]
  have one : ∀ n, (s.wr f v 0).stagedRegion n = s.stagedRegion n := by
    intro n
    simp (disch := decide) [State.stagedRegion, State.flag, key]
  simp [State.stagedRegions, one]

theorem State.rd_wr_lit (s : State) (f : Fld) (v i : Nat) (hf : f.good = true) (hv : v < 2 ^ (f.hi + 1 - f.lo)) :
    (s.wr f v i).rd f i = v := by
  rw [State.rd_wr_same _ _ _ _ hf, Nat.mod_eq_of_lt hv]

/-! ### State collection -/

/-- `t` is `s` but for memory, free values, the recorder, the reset controller and its registers. -/
def Collected (s t : State) : Prop :=
  (∀ g j, g.plain j = true → t.rd g j = s.rd g j) ∧ t.rst.orqDown = s.rst.orqDown ∧ t.mb = s.mb ∧ t.ms = s.ms ∧
    t.lk = s.lk ∧ t.eng = s.eng ∧ t.cores = s.cores ∧ t.out = s.out

theorem Collected.refl (s : State) : Collected s s :=
  ⟨fun _ _ _ => rfl, rfl, rfl, rfl, rfl, rfl, rfl, rfl⟩

theorem Collected.trans {s t u : State} (h : Collected s t) (k : Collected t u) : Collected s u :=
  ⟨fun g j hg => (k.1 g j hg).trans (h.1 g j hg), k.2.1.trans h.2.1, k.2.2.1.trans h.2.2.1, k.2.2.2.1.trans h.2.2.2.1,
    k.2.2.2.2.1.trans h.2.2.2.2.1, k.2.2.2.2.2.1.trans h.2.2.2.2.2.1, k.2.2.2.2.2.2.1.trans h.2.2.2.2.2.2.1,
    k.2.2.2.2.2.2.2.trans h.2.2.2.2.2.2.2⟩

theorem Collected.wr {s t : State} (h : Collected s t) {f : Fld} {v : Nat} (hf : f.ofRst = true) :
    Collected s (t.wr f v) :=
  h.trans ⟨fun g j hg => ((Aside.refl t).wr hf).2.1 g j hg, rfl, rfl, rfl, rfl, rfl, rfl, rfl⟩

theorem Collected.note {s t : State} (h : Collected s t) {c v k x : Nat} {p : List Nat} {y : Option Nat} {z : Bool} :
    Collected s (t.note c v k x p y z) :=
  h.trans ⟨fun g j hg => (Aside.refl t).note.2.1 g j hg, by simp, by simp, by simp, by simp, by simp, by simp, by simp⟩

theorem Collected.rst {s t : State} (h : Collected s t) {r : ResetCtl} (hr : r.orqDown = t.rst.orqDown) :
    Collected s { t with rst := r } := h.trans ⟨fun _ _ _ => rfl, hr, rfl, rfl, rfl, rfl, rfl, rfl⟩

theorem Collected.memWrite {s t : State} (h : Collected s t) {a : Nat} {bs : List (BitVec 8)} :
    Collected s (t.memWrite a bs) := h.trans ⟨fun _ _ _ => rfl, rfl, rfl, rfl, rfl, rfl, rfl, rfl⟩

theorem Collected.tick {s t : State} (h : Collected s t) : Collected s t.tick :=
  h.trans ⟨fun _ _ _ => rfl, rfl, rfl, rfl, rfl, rfl, rfl, rfl⟩

theorem Collected.foldl {α : Type} {s : State} {f : State → α → State} (l : List α)
    (hf : ∀ t a, Collected s t → Collected s (f t a)) (t : State) (h : Collected s t) : Collected s (l.foldl f t) := by
  induction l generalizing t with
  | nil => exact h
  | cons a l ih => exact ih _ (hf _ _ h)

theorem collected_reportDump {s t : State} {n : Nat} {d : Dump} (h : Collected s t) : Collected s (t.reportDump n d) :=
  Collected.tick (((((((h.wr rfl).wr rfl).wr rfl).wr rfl).wr rfl).wr rfl).wr rfl)

theorem collected_copyDone {s t : State} (h : Collected s t) : Collected s t.copyDone' := by
  unfold State.copyDone'
  repeat' split
  · exact h
  · exact h.rst (by rfl)
  · exact ((h.rst (by rfl)).wr (by rfl)).note

theorem collected_writeDump {s t : State} {n : Nat} {d : Dump} (h : Collected s t) : Collected s (t.writeDump n d) := by
  unfold State.writeDump
  refine Collected.foldl _ ?_ _ (Collected.tick (Collected.memWrite h))
  intro t k ht
  split
  · exact ht.memWrite.tick.tick
  · exact ht

theorem collected_closeDump {s t : State} {n : Nat} {d : Dump} (h : Collected s t) : Collected s (t.closeDump n d) :=
  collected_writeDump (collected_reportDump (h.rst (by rfl)))

theorem collected_writePartial {s t : State} (h : Collected s t) : Collected s t.writePartial := by
  unfold State.writePartial
  repeat' split
  · exact h
  · exact collected_writeDump h
  · exact h
  · exact h

theorem collected_finishCollect {s t : State} (h : Collected s t) : Collected s t.finishCollect := by
  unfold State.finishCollect
  repeat' split
  · exact collected_closeDump (h.rst (by rfl))
  all_goals exact h

theorem collected_runPhase {s t : State} {p : ActPhase} {n : Option Nat} (h : Collected s t) :
    Collected s (t.runPhase p n) := by
  unfold State.runPhase
  split
  · exact h.rst (by rfl)
  · exact h

theorem collected_startCollect {s t : State} {r : RunAct} (h : Collected s t) : Collected s (t.startCollect r).1 := by
  unfold State.startCollect
  repeat' split
  · exact h
  · exact ((((h.rst (by rfl)).wr (by rfl)).wr (by rfl)).wr (by rfl)).wr (by rfl)
  · exact collected_reportDump ((collected_copyDone (collected_writePartial h)).rst (by rfl))

theorem collected_reportLast {s t : State} {a : Action} {x : Nat} {b : Bool} {m : Nat} (h : Collected s t) :
    Collected s (t.reportLast a x b m) :=
  ((((((((h.wr rfl).wr rfl).wr rfl).wr rfl).wr rfl).wr rfl).wr rfl).wr rfl).wr rfl

theorem Collected.endWork {s t : State} (n : Option Nat) (a d : Nat) (p : List (BitVec 8)) (h : Collected s t) :
    (t.endWork n a d p).ms = s.ms ∧ (t.endWork n a d p).mb.hbLast = s.mb.hbLast ∧
      (t.endWork n a d p).mb.staging = s.mb.staging ∧ (t.endWork n a d p).rst.orqDown = s.rst.orqDown ∧
      ∀ g j, g.plain j = true → (t.endWork n a d p).rd g j = s.rd g j := by
  have e : ∀ u : State, u.mb = s.mb → (u.endWork n a d p).mb.hbLast = s.mb.hbLast ∧ (u.endWork n a d p).mb.staging = s.mb.staging := by
    intro u hu
    cases n with
    | none => simp [State.endWork, hu]
    | some n =>
      unfold State.endWork State.endTicket
      dsimp only
      repeat' split
      all_goals simp [hu]
  refine ⟨?_, (e t h.2.2.1).1, (e t h.2.2.1).2, ?_, ?_⟩
  · rw [State.endWork_ms]; exact h.2.2.2.1
  · rw [State.endWork_rst]; exact h.2.1
  · intro g j hg
    rw [State.rd_endWork]; exact h.1 g j hg

/-- An action that ends leaves memory's unit, the mailbox's staging and every plain register. -/
theorem collected_finishAction {s t : State} {r : RunAct} (h : Collected s t) :
    (t.finishAction r).ms = s.ms ∧ (t.finishAction r).mb.hbLast = s.mb.hbLast ∧
      (t.finishAction r).mb.staging = s.mb.staging ∧ (t.finishAction r).rst.orqDown = s.rst.orqDown ∧
      ∀ g j, g.plain j = true → (t.finishAction r).rd g j = s.rd g j := by
  unfold State.finishAction
  apply Collected.endWork
  have k : Collected s (((({ t.finishCollect with rst.running := none } : State).wr F.RST_STATUS.STEP 0).reportLast r.act 0 r.repeated
      (State.opMs (({ t.finishCollect with rst.running := none } : State).wr F.RST_STATUS.STEP 0) - r.startMs)).wr F.RST_LAST_TIME.OP_MS r.startMs) :=
    Collected.wr (collected_reportLast (((collected_finishCollect h).rst (by rfl)).wr (by rfl))) (by rfl)
  unfold State.countAction
  repeat' split
  · exact k.wr (by rfl)
  · exact k.wr (by rfl)
  · exact k.wr (by rfl)
  · exact k

theorem holdQuarters_facts (u : State) : u.holdQuarters.ms = u.ms ∧ u.holdQuarters.mb = u.mb := by
  unfold State.holdQuarters
  generalize List.range 4 = l
  induction l generalizing u with
  | nil => exact ⟨rfl, rfl⟩
  | cons q l ih => exact ⟨(ih _).1.trans rfl, (ih _).2.trans rfl⟩

theorem chipCleared_facts (u : State) :
    u.chipCleared.ms.regions = [] ∧ u.chipCleared.ms.reqs = [] ∧ u.chipCleared.mb.staging = [] := ⟨rfl, rfl, rfl⟩

theorem chipDown_facts (u : State) :
    u.chipDown.ms.regions = [] ∧ u.chipDown.ms.reqs = [] ∧ u.chipDown.mb.staging = [] := by
  have h1 : u.chipDown.ms = u.chipCleared.ms := by
    simp only [State.chipDown, State.reportCfg, State.wr_ms, (holdQuarters_facts _).1]
  have h2 : u.chipDown.mb = u.chipCleared.mb := by
    simp only [State.chipDown, State.reportCfg, State.wr_mb, (holdQuarters_facts _).2]
  rw [h1, h2]
  exact chipCleared_facts u

theorem firmwareDown_facts (s : State) :
    s.firmwareDown.ms = s.ms ∧ s.firmwareDown.mb.hbLast = none ∧ s.firmwareDown.mb.staging = s.mb.staging ∧
      s.firmwareDown.rst.orqDown = true ∧ s.firmwareDown.rd F.ORQ_MB_STATUS.FW_UP = 0 ∧
      s.firmwareDown.rd F.ORQ_HB_STATUS.COUNTING = 0 := by
  refine ⟨rfl, rfl, rfl, rfl, ?_, ?_⟩ <;>
    simp (disch := decide) [State.firmwareDown, State.rd_wr_apart, State.rd_wr_lit]

/-- A chip reset empties the region table and the requests, drops what is staged, and takes the firmware down. -/
theorem chipReset_facts (s : State) (a : Action) :
    (s.chipReset a).ms.regions = [] ∧ (s.chipReset a).ms.reqs = [] ∧ (s.chipReset a).mb.hbLast = none ∧
      (s.chipReset a).mb.staging = [] ∧ (s.chipReset a).rst.orqDown = true ∧
      (s.chipReset a).rd F.ORQ_MB_STATUS.FW_UP = 0 ∧ (s.chipReset a).rd F.ORQ_HB_STATUS.COUNTING = 0 := by
  unfold State.chipReset
  dsimp only
  generalize ({ State.resetMode _ a.mode with blk.selfRef := _, ms.full := _ } : State) = u
  have k := firmwareDown_facts u.chipDown
  have d := chipDown_facts u
  rw [State.wr_ms, State.wr_mb, State.wr_rst, k.1, k.2.2.1, k.2.1, k.2.2.2.1,
    State.rd_wr_apart _ _ _ _ _ _ (by decide) (by decide), State.rd_wr_apart _ _ _ _ _ _ (by decide) (by decide)]
  exact ⟨d.1, d.2.1, rfl, d.2.2, rfl, k.2.2.2.2.1, k.2.2.2.2.2⟩

/-! ### Mailbox commands -/

theorem State.serve_taking {s : State} {cmd : Nat} {q : Req} (h : s.taking cmd = some q) (f : List (BitVec 8) → State → State) :
    s.serve cmd f = f q.payload s := by
  unfold State.serve
  rw [h]

theorem State.accept_free {s : State} {n : Nat} (h : s.freeTicket = some n) (cmd : Nat) (work : Nat → State → State) :
    s.accept cmd work = work n (accepted s cmd n) := by
  unfold State.accept
  rw [h]
  rfl

theorem State.accept_full {s : State} (h : s.freeTicket = none) (cmd : Nat) (work : Nat → State → State) :
    s.accept cmd work = s.answer stBUSY := by
  unfold State.accept
  rw [h]

/-- The first authorisation of a change is kept, and its ticket waits for the second. -/
theorem State.twoKey_first {s : State} {op : Nat} {q : Req} {n : Nat} (h : KeyValid s op q n) (hp : s.upd.pending = none)
    (apply : Nat → List (BitVec 8) → State → Except Nat State) :
    s.twoKey op apply = (({ accepted s 0x0600 n with
      upd.pending := some ⟨q.payload.take 80, leAt q.payload 2 1, n, q.payload.drop 464, s.opMs⟩ }).wr
        F.SEC_STATUS.TK_PENDING 1).wr F.SEC_STATUS.TK_OP op := by
  obtain ⟨h1, h2, h3, h4, h5, h6⟩ := h
  unfold State.twoKey
  rw [State.serve_taking h1, if_neg (fun h => h h2), h3, h4, h5, hp]
  dsimp only
  rw [State.accept_free h6]
  rfl

/-- The second authorisation makes the change, with the data that either of the two carried. -/
theorem State.twoKey_second {s : State} {op : Nat} {q : Req} {n : Nat} {w : TwoKey} (h : SecondKey s op q n w)
    (apply : Nat → List (BitVec 8) → State → Except Nat State)
    (hd : op = 1 → (if w.data.isEmpty then q.payload.drop 464 else w.data).isEmpty = false) :
    s.twoKey op apply = (accepted s 0x0600 n).tkMake w n
      (apply (tkArg q.payload) (if w.data.isEmpty then q.payload.drop 464 else w.data)) := by
  obtain ⟨⟨h1, h2, h3, h4, h5, h6⟩, h7, h8, h9⟩ := h
  have hd' : ¬ (op = 1 ∧ (if w.data.isEmpty then q.payload.drop 464 else w.data).isEmpty = true) := by
    rintro ⟨a, b⟩
    rw [hd a] at b
    exact absurd b (by decide)
  unfold State.twoKey
  rw [State.serve_taking h1, if_neg (fun h => h h2), h3, h4, h5, h7]
  dsimp only
  rw [if_neg (show ¬ (!true) = true by decide), if_neg (show ¬ false = true by decide),
    if_neg (show ¬ (!true) = true by decide), if_pos (And.intro h8 h9), if_neg hd', State.accept_free h6]

/-- A change that can be applied is made, and both tickets end. -/
theorem State.tkMake_ok {s u : State} {w : TwoKey} {n : Nat} {apply : State → Except Nat State} (h : apply s = .ok u) :
    s.tkMake w n apply = u.tkFinish w.head w.ticket n stOK 0 := by
  unfold State.tkMake
  rw [h]

/-! ### Engines -/

@[simp] theorem State.eccFound_clean (s : State) (off : Nat) (x : Option Nat) : s.eccFound off .clean x = s := by
  unfold State.eccFound
  split <;> rfl

@[simp] theorem State.engineEcc_clean (s : State) (r : CmdRef) (op ga : Nat) (run : State → State) :
    s.engineEcc r op ga .clean run = run s := by
  unfold State.engineEcc
  dsimp only
  repeat' split
  · rfl
  · rfl
  · rw [State.eccFound_clean]

/-- An error of two bits or more at an SRAM source is recorded, and is the queue error `STORE_ECC`. -/
theorem State.engineEcc_lost (s : State) (r : CmdRef) (op ga k : Nat) (ecc : EccFinding) (run : State → State)
    (h : s.isLocalAddr ga = true)
    (h5 : s.checkAccess (s.ctxJob r.slot) false false false (.read 1) (bitsOf ga 41 0) = none)
    (h6 : (placeOf (bitsOf ga 41 0)).sramKind = some k) (h7 : EccFinding.sram ecc = .uncorrectable) :
    s.engineEcc r op ga ecc run =
      (s.record evEccFatal 2 3 (s.queueEngine r.slot r.queue) [k, bitsOf ga 41 0] (some (s.ctxId r.slot))).cmdError
         r qeSTORE_ECC 0 op (bitsOf ga 41 0) := by
  unfold State.engineEcc
  dsimp only
  rw [h, h5, h6]
  simp only [Bool.not_true, Option.isSome_none, Bool.or_self, Bool.false_eq_true, if_false]
  unfold State.sramEcc
  rw [h7]

/-- An address generator in service that finds no residue error goes on (R252, R265). -/
theorem State.withResidue_zero (s : State) (e2 : Int) (u g x : Nat) (run : State → State)
    (h : (s.hist (engUnit u)).perm = false) : s.withResidue 0 e2 u g x run = run s := by
  unfold State.withResidue
  rw [if_neg (by rw [h]; decide), if_pos (by decide)]

end Sys2Proof.Machine
end

