-- ==== Sys2Proof/Laws/Engines.lean ====
section
/-! SUPPORT. What starts a collective command or a ring run whose operands are legal. -/
namespace Sys2Proof.Machine
open Sys2Proof Safety

/-- A command that may go on does its work. -/
theorem State.workOn_ok (s : State) (slot queue count op : Nat) (c : Cmd) (h : Working s ⟨slot, queue, count⟩ op c)
    (f : CmdRef → Cmd → State → State) : s.workOn slot queue count op f = f ⟨slot, queue, count⟩ c s := by
  obtain ⟨hc, ho, hw, hs⟩ := h
  unfold State.workOn
  simp [hc, ho, hw, hs]

/-- A started command does its work. -/
theorem State.work_ok (s : State) (slot queue count op : Nat) (c : Cmd) (h : Started s ⟨slot, queue, count⟩ op c)
    (f : CmdRef → Cmd → State → State) : s.work slot queue count op f = f ⟨slot, queue, count⟩ c s := by
  obtain ⟨hc, ho, hw, hs⟩ := h
  unfold State.work
  simp [hc, ho, hw, hs]

/-- Bytes that are there are there as they are read. -/
theorem fetched_ok {s : State} {r : CmdRef} {ga n key : Nat} (h : (s.fetchBytes r ga n key).2.isSome = true) :
    s.fetchBytes r ga n key = ((s.fetchBytes r ga n key).1, some ((s.fetchBytes r ga n key).2.getD [])) := by
  obtain ⟨x, hx⟩ := Option.isSome_iff_exists.mp h
  rw [hx]
  exact Prod.ext rfl hx

/-- A collective command with legal operands takes its place and starts its first step. -/
theorem State.collStart_ok (s : State) (slot queue count op : Nat) (ecc : EccFinding) (c : Cmd)
    (h1 : Working s ⟨slot, queue, count⟩ op c) (h2 : GroupLegal s ⟨slot, queue, count⟩ op c)
    (h3 : Reducible s ⟨slot, queue, count⟩ op c) :
    s.collStart slot queue count op ecc =
      (if op = 0x34 then State.collAdvance (groupNew s ⟨slot, queue, count⟩ op c).fuel ⟨slot, queue, count⟩
          (groupNew s ⟨slot, queue, count⟩ op c) (((groupRead s ⟨slot, queue, count⟩ c).collTake ⟨slot, queue, count⟩
            (groupNew s ⟨slot, queue, count⟩ op c)).collArriveAll ⟨slot, queue, count⟩ (groupNew s ⟨slot, queue, count⟩ op c))
       else ((groupRead s ⟨slot, queue, count⟩ c).collTake ⟨slot, queue, count⟩ (groupNew s ⟨slot, queue, count⟩ op c)).collLoad
          ⟨slot, queue, count⟩ (leAt c.bytes 8 8) (groupNew s ⟨slot, queue, count⟩ op c) ecc) := by
  obtain ⟨g1, g2, g3, g4, g5, g6, g7, g8, g10, g11⟩ := h2
  have r1 := fetched_ok g5.1
  have r2 := fetched_ok g5.2
  have e1 : ¬ ((!collFmtOk op (leAt c.bytes 40 1 % 16)) = true ∨ ((op = 0x30 ∨ op = 0x31) ∧ 2 < leAt c.bytes 40 1 / 16)) := by
    simp only [g1, Bool.not_true, Bool.false_eq_true, false_or]
    rintro ⟨a, b⟩
    obtain h | h := h3
    · exact h a
    · omega
  have e2 : ¬ (op ≠ 0x34 ∧ leAt c.bytes 24 8 = 0) := by
    rintro ⟨a, b⟩
    obtain h | h := g2
    · exact a h
    · exact h.1 b
  have e3 : ¬ (op ≠ 0x34 ∧ leAt c.bytes 8 8 % (fmtBits (leAt c.bytes 40 1 % 16) / 8) ≠ 0) := by
    rintro ⟨a, b⟩
    obtain h | h := g2
    · exact a h
    · exact b h.2.1
  have e4 : ¬ (op ≠ 0x34 ∧ leAt c.bytes 16 8 % (fmtBits (leAt c.bytes 40 1 % 16) / 8) ≠ 0) := by
    rintro ⟨a, b⟩
    obtain h | h := g2
    · exact a h
    · exact b h.2.2
  have e5 : ¬ (leAt c.bytes 32 8 % 64 ≠ 0 ∨ (!s.isLocalAddr (leAt c.bytes 32 8)) = true) := by simp [g3, g4]
  have e6 : ¬ (leAt (headAt s ⟨slot, queue, count⟩ (leAt c.bytes 32 8) 8) 2 2 < 2 ∨
      24576 < leAt (headAt s ⟨slot, queue, count⟩ (leAt c.bytes 32 8) 8) 2 2 ∨
      leAt (headAt s ⟨slot, queue, count⟩ (leAt c.bytes 32 8) 8) 2 2 ≤ leAt (headAt s ⟨slot, queue, count⟩ (leAt c.bytes 32 8) 8) 4 2) := by
    omega
  have e7 : ¬ ((groupNodes (groupDesc s ⟨slot, queue, count⟩ c)).getD (leAt (headAt s ⟨slot, queue, count⟩ (leAt c.bytes 32 8) 8) 4 2) 0 ≠
        (groupRead s ⟨slot, queue, count⟩ c).node ∨
      ((kfind (groupRead s ⟨slot, queue, count⟩ c).eng.pairs (pairKey ((groupRead s ⟨slot, queue, count⟩ c).ctxJob slot)
          (leAt (groupDesc s ⟨slot, queue, count⟩ c) 0 2))).isNone = true ∧
        1024 ≤ (groupRead s ⟨slot, queue, count⟩ c).eng.pairs.length)) := by
    rintro (h | ⟨a, b⟩)
    · exact h g10
    · obtain h | h := g11
      · rw [h] at a
        exact absurd a (by decide)
      · omega
  have e8 : ¬ ((op = 0x30 ∨ op = 0x31) ∧ (groupRead s ⟨slot, queue, count⟩ c).aluLive.isEmpty = true) := by
    rintro ⟨a, b⟩
    obtain h | h := h3
    · exact h a
    · rw [h.2] at b
      exact absurd b (by decide)
  change _ = (_, some (headAt s ⟨slot, queue, count⟩ (leAt c.bytes 32 8) 8)) at r1
  change (s.fetchBytes ⟨slot, queue, count⟩ (leAt c.bytes 32 8) 8 headKey).1.fetchBytes ⟨slot, queue, count⟩ (leAt c.bytes 32 8)
    (8 + 2 * leAt (headAt s ⟨slot, queue, count⟩ (leAt c.bytes 32 8) 8) 2 2) descKey =
    (groupRead s ⟨slot, queue, count⟩ c, some (groupDesc s ⟨slot, queue, count⟩ c)) at r2
  unfold State.collStart
  rw [State.workOn_ok s slot queue count op c h1]
  dsimp only
  rw [if_neg e1, if_neg e2, if_neg e3, if_neg e4, if_neg e5, r1]
  dsimp only
  rw [if_neg e6]
  rw [r2]
  dsimp only
  rw [if_neg e7, if_neg e8]
  rfl

end Sys2Proof.Machine
end

