-- ==== Sys2Proof/Laws/Memory.lean ====
section
/-! SUPPORT. Memory: every operation keeps the canonical form, and what a byte reads as afterwards. -/

namespace Sys2Proof.Machine

/-- `a` lies below every address of `m`. -/
def Memory.below (a : Nat) : List Host.Cell → Bool
  | [] => true
  | (c, _) :: _ => decide (a < c)

theorem Memory.wf_cons (a : Nat) (b : BitVec 8) (m : List Host.Cell) :
    Memory.wf ((a, b) :: m) = (b != memDefault && Memory.below a m && Memory.wf m) := by
  cases m with
  | nil => rfl
  | cons c m => cases c; rfl

theorem Memory.below_mono {a b : Nat} (h : a ≤ b) (m : List Host.Cell) (hb : Memory.below b m = true) :
    Memory.below a m = true := by
  cases m with
  | nil => rfl
  | cons c m => obtain ⟨c, v⟩ := c; simp only [Memory.below, decide_eq_true_eq] at *; omega

theorem memPut_below {a k : Nat} (h : a < k) (v : BitVec 8) (m : List Host.Cell) (hm : Memory.below a m = true)
    (hw : Memory.wf m = true) : Memory.below a (memPut m k v) = true := by
  cases m with
  | nil => simp only [memPut]; split <;> simp [Memory.below, h]
  | cons c m =>
    obtain ⟨c, w⟩ := c
    simp only [Memory.below, decide_eq_true_eq] at hm
    rw [Memory.wf_cons] at hw
    simp only [Bool.and_eq_true] at hw
    have hc := Memory.below_mono (Nat.le_of_lt hm) m hw.1.2
    simp only [memPut]
    split
    · split
      · exact hc
      · simp [Memory.below, h]
    · split
      · split <;> simp [Memory.below, h, hm]
      · simp [Memory.below, hm]

/-- Writing a byte keeps the canonical form. -/
theorem memPut_wf (m : List Host.Cell) (k : Nat) (v : BitVec 8) (h : Memory.wf m = true) :
    Memory.wf (memPut m k v) = true := by
  induction m with
  | nil =>
    simp only [memPut]
    split
    · rfl
    · next hv => simp [Memory.wf, hv]
  | cons c m ih =>
    obtain ⟨a, b⟩ := c
    rw [Memory.wf_cons] at h
    simp only [Bool.and_eq_true] at h
    obtain ⟨⟨hb, hl⟩, hm⟩ := h
    simp only [memPut]
    split
    · next hk =>
      subst hk
      split
      · exact hm
      · next hv => rw [Memory.wf_cons]; simp [hv, hl, hm]
    · next hne =>
      split
      · next hlt =>
        split
        · rw [Memory.wf_cons, Bool.and_eq_true, Bool.and_eq_true]
          exact ⟨⟨hb, hl⟩, hm⟩
        · next hv =>
          rw [Memory.wf_cons, Memory.wf_cons, Bool.and_eq_true, Bool.and_eq_true, Bool.and_eq_true, Bool.and_eq_true]
          exact ⟨⟨by simpa using hv, by simpa [Memory.below] using hlt⟩, ⟨hb, hl⟩, hm⟩
      · next hge =>
        rw [Memory.wf_cons]
        simp only [Bool.and_eq_true]
        exact ⟨⟨hb, memPut_below (by omega) v m hl hm⟩, ih hm⟩

/-- Writing bytes keeps the canonical form. -/
theorem memPutBytes_wf (m : List Host.Cell) (a : Nat) (bs : List (BitVec 8)) (h : Memory.wf m = true) :
    Memory.wf (memPutBytes m a bs) = true := by
  induction bs generalizing m a with
  | nil => exact h
  | cons b bs ih => exact ih _ _ (memPut_wf m a b h)

theorem filter_below {a : Nat} (p : Host.Cell → Bool) (m : List Host.Cell) (hm : Memory.below a m = true)
    (hw : Memory.wf m = true) : Memory.below a (m.filter p) = true := by
  induction m with
  | nil => rfl
  | cons c m ih =>
    obtain ⟨c, w⟩ := c
    rw [Memory.wf_cons] at hw
    simp only [Bool.and_eq_true] at hw
    simp only [Memory.below, decide_eq_true_eq] at hm
    rw [List.filter_cons]
    split
    · simp [Memory.below, hm]
    · exact ih (Memory.below_mono (Nat.le_of_lt hm) m hw.1.2) hw.2

/-- Dropping cells keeps the canonical form. -/
theorem filter_wf (p : Host.Cell → Bool) (m : List Host.Cell) (h : Memory.wf m = true) :
    Memory.wf (m.filter p) = true := by
  induction m with
  | nil => rfl
  | cons c m ih =>
    obtain ⟨a, b⟩ := c
    rw [Memory.wf_cons] at h
    simp only [Bool.and_eq_true] at h
    rw [List.filter_cons]
    split
    · rw [Memory.wf_cons]
      simp only [Bool.and_eq_true]
      exact ⟨⟨h.1.1, filter_below p m h.1.2 h.2⟩, ih h.2⟩
    · exact ih h.2

/-- Clearing a range keeps the canonical form. -/
theorem memZero_wf (m : List Host.Cell) (a n : Nat) (h : Memory.wf m = true) : Memory.wf (memZero m a n) = true :=
  filter_wf _ m h

/-- Below the first listed address every byte reads as the default. -/
theorem memByte_below (m : List Host.Cell) (k : Nat) (h : Memory.below k m = true) : memByte m k = memDefault := by
  cases m with
  | nil => rfl
  | cons c m =>
    obtain ⟨c, v⟩ := c
    simp only [Memory.below, decide_eq_true_eq] at h
    simp only [memByte]
    rw [if_neg (by omega), if_pos h]

/-- A byte reads as what was written. -/
theorem memByte_memPut_same (m : List Host.Cell) (k : Nat) (v : BitVec 8) (h : Memory.wf m = true) :
    memByte (memPut m k v) k = v := by
  induction m with
  | nil =>
    simp only [memPut]
    split
    · next hv => rw [hv]; rfl
    · simp [memByte]
  | cons c m ih =>
    obtain ⟨a, b⟩ := c
    rw [Memory.wf_cons] at h
    simp only [Bool.and_eq_true] at h
    simp only [memPut]
    split
    · next hk =>
      subst hk
      split
      · next hv => rw [memByte_below m a h.1.2, hv]
      · simp [memByte]
    · next hne =>
      split
      · next hlt =>
        split
        · next hv => simp only [memByte]; rw [if_neg hne, if_pos hlt, hv]
        · simp [memByte]
      · next hge =>
        simp only [memByte]
        rw [if_neg hne, if_neg hge]
        exact ih h.2

/-- Every other byte reads as before. -/
theorem memByte_memPut_ne (m : List Host.Cell) {k j : Nat} (v : BitVec 8) (h : Memory.wf m = true) (hj : j ≠ k) :
    memByte (memPut m k v) j = memByte m j := by
  induction m with
  | nil =>
    simp only [memPut]
    split
    · rfl
    · simp only [memByte]
      rw [if_neg (Ne.symm hj)]
      split <;> rfl
  | cons c m ih =>
    obtain ⟨a, b⟩ := c
    rw [Memory.wf_cons] at h
    simp only [Bool.and_eq_true] at h
    simp only [memPut]
    split
    · next hk =>
      subst hk
      split
      · simp only [memByte]
        rw [if_neg (Ne.symm hj)]
        split
        · next hlt => exact memByte_below m j (Memory.below_mono (Nat.le_of_lt hlt) m h.1.2)
        · rfl
      · simp [memByte, Ne.symm hj]
    · next hne =>
      split
      · next hlt =>
        split
        · rfl
        · simp only [memByte]
          rw [if_neg (Ne.symm hj)]
          split
          · next hjk => rw [if_neg (by omega), if_pos (by omega)]
          · rfl
      · next hge =>
        simp only [memByte]
        rw [ih h.2]

/-- Bytes outside the range written read as before. -/
theorem memByte_memPutBytes_out (m : List Host.Cell) (a : Nat) (bs : List (BitVec 8)) (k : Nat) (h : Memory.wf m = true)
    (hk : k < a ∨ a + bs.length ≤ k) : memByte (memPutBytes m a bs) k = memByte m k := by
  induction bs generalizing m a with
  | nil => rfl
  | cons b bs ih =>
    simp only [List.length_cons] at hk
    rw [memPutBytes, ih _ _ (memPut_wf m a b h) (by omega), memByte_memPut_ne m b h (by omega)]

/-- Bytes inside the range read as what was written. -/
theorem memByte_memPutBytes_in (m : List Host.Cell) (a : Nat) (bs : List (BitVec 8)) (i : Nat) (h : Memory.wf m = true)
    (hi : i < bs.length) : memByte (memPutBytes m a bs) (a + i) = bs[i] := by
  induction bs generalizing m a i with
  | nil => simp at hi
  | cons b bs ih =>
    rw [memPutBytes]
    cases i with
    | zero =>
      rw [memByte_memPutBytes_out _ _ _ _ (memPut_wf m a b h) (by omega)]
      simp [memByte_memPut_same m a b h]
    | succ i =>
      have := ih (memPut m a b) (a + 1) i (memPut_wf m a b h) (by simpa using hi)
      rw [show a + (i + 1) = a + 1 + i by omega, this]
      simp

/-- What a byte reads as after a range is cleared. -/
theorem memByte_memZero (m : List Host.Cell) (a n k : Nat) (h : Memory.wf m = true) :
    memByte (memZero m a n) k = if a ≤ k ∧ k < a + n then memDefault else memByte m k := by
  unfold memZero
  induction m with
  | nil => simp [memByte]
  | cons c m ih =>
    obtain ⟨c, v⟩ := c
    rw [Memory.wf_cons] at h
    simp only [Bool.and_eq_true] at h
    have ih := ih h.2
    rw [List.filter_cons]
    split
    · next hp =>
      simp only [Bool.or_eq_true, decide_eq_true_eq] at hp
      simp only [memByte]
      by_cases h1 : c = k
      · rw [if_pos h1, if_pos h1, if_neg (by omega)]
      · rw [if_neg h1, if_neg h1]
        by_cases h2 : k < c
        · rw [if_pos h2, if_pos h2]; split <;> rfl
        · rw [if_neg h2, if_neg h2, ih]
    · next hp =>
      simp only [Bool.or_eq_true, decide_eq_true_eq, not_or, Nat.not_lt, Nat.not_le] at hp
      rw [ih]
      simp only [memByte]
      by_cases h1 : a ≤ k ∧ k < a + n
      · rw [if_pos h1, if_pos h1]
      · rw [if_neg h1, if_neg h1, if_neg (by omega)]
        split
        · next h2 => exact memByte_below m k (Memory.below_mono (Nat.le_of_lt h2) m h.1.2)
        · rfl

end Sys2Proof.Machine
end

