-- ==== Sys2Proof/Laws/Kept.lean ====
section
/-! SUPPORT. What every operation changes: `Within m s t` says that `t` keeps the queue of `s`, the canonical form of its
memory and its outputs, draws free values afresh, and differs from it in the parts of `m` alone. A property that survives
such changes survives every operation: the files Kept<part>.lean say it once for every operation and every command, with
the parts that the operation reaches. -/
namespace Sys2Proof.Machine
open Sys2Proof

/-- `t` keeps what every operation keeps of `s`, and differs from it in the parts whose bits `m` sets alone. -/
structure Within (m : Nat) (s t : State) : Prop where
  pending : t.pending = s.pending
  wf : Memory.wf s.mem = true → Memory.wf t.mem = true
  drawn : s.free ≤ t.free
  sent : s.out <+: t.out
  free : m.testBit 0 = true ∨ t.free = s.free
  regs : m.testBit 1 = true ∨ t.regs = s.regs
  mem : m.testBit 2 = true ∨ t.mem = s.mem
  out : m.testBit 3 = true ∨ t.out = s.out
  evr : m.testBit 4 = true ∨ t.evr = s.evr
  rst : m.testBit 5 = true ∨ t.rst = s.rst
  pwr : m.testBit 6 = true ∨ t.pwr = s.pwr
  blk : m.testBit 7 = true ∨ t.blk = s.blk
  time : m.testBit 8 = true ∨ t.time = s.time
  mb : m.testBit 9 = true ∨ t.mb = s.mb
  cores : m.testBit 10 = true ∨ t.cores = s.cores
  chk : m.testBit 11 = true ∨ t.chk = s.chk
  ms : m.testBit 12 = true ∨ t.ms = s.ms
  eng : m.testBit 13 = true ∨ t.eng = s.eng
  lk : m.testBit 14 = true ∨ t.lk = s.lk
  routes : m.testBit 15 = true ∨ t.routes = s.routes
  place : m.testBit 16 = true ∨ t.place = s.place
  path : m.testBit 17 = true ∨ t.path = s.path
  topo : m.testBit 18 = true ∨ t.topo = s.topo
  hce : m.testBit 19 = true ∨ t.hce = s.hce
  peers : m.testBit 20 = true ∨ t.peers = s.peers
  upd : m.testBit 21 = true ∨ t.upd = s.upd
  age : m.testBit 22 = true ∨ t.age = s.age

theorem Within.refl (m : Nat) (s : State) : Within m s s := by
  constructor <;> first | exact Or.inr rfl | exact rfl | exact id | exact Nat.le_refl _ | exact List.prefix_rfl

theorem Within.trans {m : Nat} {s t u : State} (h : Within m s t) (k : Within m t u) : Within m s u where
  pending := k.pending.trans h.pending
  wf := fun w => k.wf (h.wf w)
  drawn := Nat.le_trans h.drawn k.drawn
  sent := h.sent.trans k.sent
  free := k.free.elim .inl fun y => h.free.elim .inl fun x => .inr (y.trans x)
  regs := k.regs.elim .inl fun y => h.regs.elim .inl fun x => .inr (y.trans x)
  mem := k.mem.elim .inl fun y => h.mem.elim .inl fun x => .inr (y.trans x)
  out := k.out.elim .inl fun y => h.out.elim .inl fun x => .inr (y.trans x)
  evr := k.evr.elim .inl fun y => h.evr.elim .inl fun x => .inr (y.trans x)
  rst := k.rst.elim .inl fun y => h.rst.elim .inl fun x => .inr (y.trans x)
  pwr := k.pwr.elim .inl fun y => h.pwr.elim .inl fun x => .inr (y.trans x)
  blk := k.blk.elim .inl fun y => h.blk.elim .inl fun x => .inr (y.trans x)
  time := k.time.elim .inl fun y => h.time.elim .inl fun x => .inr (y.trans x)
  mb := k.mb.elim .inl fun y => h.mb.elim .inl fun x => .inr (y.trans x)
  cores := k.cores.elim .inl fun y => h.cores.elim .inl fun x => .inr (y.trans x)
  chk := k.chk.elim .inl fun y => h.chk.elim .inl fun x => .inr (y.trans x)
  ms := k.ms.elim .inl fun y => h.ms.elim .inl fun x => .inr (y.trans x)
  eng := k.eng.elim .inl fun y => h.eng.elim .inl fun x => .inr (y.trans x)
  lk := k.lk.elim .inl fun y => h.lk.elim .inl fun x => .inr (y.trans x)
  routes := k.routes.elim .inl fun y => h.routes.elim .inl fun x => .inr (y.trans x)
  place := k.place.elim .inl fun y => h.place.elim .inl fun x => .inr (y.trans x)
  path := k.path.elim .inl fun y => h.path.elim .inl fun x => .inr (y.trans x)
  topo := k.topo.elim .inl fun y => h.topo.elim .inl fun x => .inr (y.trans x)
  hce := k.hce.elim .inl fun y => h.hce.elim .inl fun x => .inr (y.trans x)
  peers := k.peers.elim .inl fun y => h.peers.elim .inl fun x => .inr (y.trans x)
  upd := k.upd.elim .inl fun y => h.upd.elim .inl fun x => .inr (y.trans x)
  age := k.age.elim .inl fun y => h.age.elim .inl fun x => .inr (y.trans x)

theorem Within.mono {m n : Nat} {s t : State} (h : Within m s t) (hm : Nat.lor m n = n) : Within n s t :=
  have e (i : Nat) : m.testBit i = true → n.testBit i = true := fun hi => by
    rw [← hm]
    exact (Nat.testBit_or m n i).trans (by rw [hi, Bool.true_or])
  { pending := h.pending, wf := h.wf, drawn := h.drawn, sent := h.sent,
    free := h.free.imp_left (e 0),
    regs := h.regs.imp_left (e 1),
    mem := h.mem.imp_left (e 2),
    out := h.out.imp_left (e 3),
    evr := h.evr.imp_left (e 4),
    rst := h.rst.imp_left (e 5),
    pwr := h.pwr.imp_left (e 6),
    blk := h.blk.imp_left (e 7),
    time := h.time.imp_left (e 8),
    mb := h.mb.imp_left (e 9),
    cores := h.cores.imp_left (e 10),
    chk := h.chk.imp_left (e 11),
    ms := h.ms.imp_left (e 12),
    eng := h.eng.imp_left (e 13),
    lk := h.lk.imp_left (e 14),
    routes := h.routes.imp_left (e 15),
    place := h.place.imp_left (e 16),
    path := h.path.imp_left (e 17),
    topo := h.topo.imp_left (e 18),
    hce := h.hce.imp_left (e 19),
    peers := h.peers.imp_left (e 20),
    upd := h.upd.imp_left (e 21),
    age := h.age.imp_left (e 22) }

/-- A property that changes within the parts of `m` do not disturb. -/
def Keeps (P : State → Prop) (m : Nat) : Prop := ∀ s t, Within m s t → P s → P t

theorem Keeps.le {P : State → Prop} {m n : Nat} (hk : Keeps P n) (hm : Nat.lor m n = n) : Keeps P m :=
  fun s t w h => hk s t (w.mono hm) h

theorem Keeps.upd {P : State → Prop} {m : Nat} (hk : Keeps P m) {s t : State} (h : P s) (w : Within m s t := by
    constructor <;> first | exact Or.inl rfl | exact Or.inr rfl | exact rfl | exact (fun w => w) | exact Nat.le_refl _ | exact List.prefix_rfl | exact Nat.le_add_right _ _ | exact List.prefix_append _ _ | exact (fun w => filter_wf _ _ w) | exact (fun _ => rfl)) : P t :=
  hk s t w h

theorem keeps_within (m : Nat) (s : State) : Keeps (Within m s) m := fun _ _ w h => h.trans w

/-- The part `p` of a `Within` whose bit is clear is as before. -/
theorem Within.same {m : Nat} {s t : State} (h : Within m s t) (p : Safety.Part) (hp : m.testBit p.ctorIdx = false) :
    p.same s t := by
  cases p
  · exact h.free.resolve_left (fun e => absurd (e.symm.trans hp) (by decide))
  · exact h.regs.resolve_left (fun e => absurd (e.symm.trans hp) (by decide))
  · exact h.mem.resolve_left (fun e => absurd (e.symm.trans hp) (by decide))
  · exact h.out.resolve_left (fun e => absurd (e.symm.trans hp) (by decide))
  · exact h.evr.resolve_left (fun e => absurd (e.symm.trans hp) (by decide))
  · exact h.rst.resolve_left (fun e => absurd (e.symm.trans hp) (by decide))
  · exact h.pwr.resolve_left (fun e => absurd (e.symm.trans hp) (by decide))
  · exact h.blk.resolve_left (fun e => absurd (e.symm.trans hp) (by decide))
  · exact h.time.resolve_left (fun e => absurd (e.symm.trans hp) (by decide))
  · exact h.mb.resolve_left (fun e => absurd (e.symm.trans hp) (by decide))
  · exact h.cores.resolve_left (fun e => absurd (e.symm.trans hp) (by decide))
  · exact h.chk.resolve_left (fun e => absurd (e.symm.trans hp) (by decide))
  · exact h.ms.resolve_left (fun e => absurd (e.symm.trans hp) (by decide))
  · exact h.eng.resolve_left (fun e => absurd (e.symm.trans hp) (by decide))
  · exact h.lk.resolve_left (fun e => absurd (e.symm.trans hp) (by decide))
  · exact h.routes.resolve_left (fun e => absurd (e.symm.trans hp) (by decide))
  · exact h.place.resolve_left (fun e => absurd (e.symm.trans hp) (by decide))
  · exact h.path.resolve_left (fun e => absurd (e.symm.trans hp) (by decide))
  · exact h.topo.resolve_left (fun e => absurd (e.symm.trans hp) (by decide))
  · exact h.hce.resolve_left (fun e => absurd (e.symm.trans hp) (by decide))
  · exact h.peers.resolve_left (fun e => absurd (e.symm.trans hp) (by decide))
  · exact h.upd.resolve_left (fun e => absurd (e.symm.trans hp) (by decide))
  · exact h.age.resolve_left (fun e => absurd (e.symm.trans hp) (by decide))

variable {P : State → Prop}

theorem kept_ite {c : Prop} [Decidable c] {a b : State} (ha : P a) (hb : P b) : P (if c then a else b) := by split <;> assumption
theorem kept_ite1 {α} {c : Prop} [Decidable c] {a b : State × α} (ha : P a.1) (hb : P b.1) : P (if c then a else b).1 := by split <;> assumption
theorem kept_foldl {α} {f : State → α → State} {l : List α} {s : State} (h : P s) (hf : ∀ s a, P s → P (f s a)) : P (l.foldl f s) := by
  induction l generalizing s with
  | nil => exact h
  | cons a l ih => exact ih (hf _ _ h)
theorem kept_foldl1 {α β} {f : State × β → α → State × β} {l : List α} {s : State × β} (h : P s.1) (hf : ∀ s a, P s.1 → P (f s a).1) : P (l.foldl f s).1 := by
  induction l generalizing s with
  | nil => exact h
  | cons a l ih => exact ih (hf _ _ h)
theorem kept_foldr {α} {f : α → State → State} {l : List α} {s : State} (h : P s) (hf : ∀ s a, P s → P (f a s)) : P (l.foldr f s) := by
  induction l generalizing s with
  | nil => exact h
  | cons a l ih => exact hf _ _ (ih h)

end Sys2Proof.Machine
end

