-- ==== Sys2Proof/Laws/KeptState.lean ====
section
/-! SUPPORT. What the operations of the shared operations, the memory operations and the history keep and change (`Keeps`), one lemma each. -/

set_option Elab.async false
namespace Sys2Proof.Machine
open Sys2Proof

variable {P : State → Prop}

theorem kept_memWrite (hk : Keeps P 0x4) {s : State} {a : Nat} {bs : List (BitVec 8)} (h : P s) :
    P (State.memWrite s a bs) := by
  exact hk.upd h ⟨rfl, fun w => memPutBytes_wf _ _ _ w, Nat.le_refl _, List.prefix_rfl, .inr rfl, .inr rfl, .inl rfl, .inr rfl, .inr rfl, .inr rfl, .inr rfl, .inr rfl, .inr rfl, .inr rfl, .inr rfl, .inr rfl, .inr rfl, .inr rfl, .inr rfl, .inr rfl, .inr rfl, .inr rfl, .inr rfl, .inr rfl, .inr rfl, .inr rfl, .inr rfl⟩

theorem kept_memClear (hk : Keeps P 0x4) {s : State} {a : Nat} {n0 : Nat} (h : P s) :
    P (State.memClear s a n0) := by
  exact hk.upd h ⟨rfl, fun w => memZero_wf _ _ _ w, Nat.le_refl _, List.prefix_rfl, .inr rfl, .inr rfl, .inl rfl, .inr rfl, .inr rfl, .inr rfl, .inr rfl, .inr rfl, .inr rfl, .inr rfl, .inr rfl, .inr rfl, .inr rfl, .inr rfl, .inr rfl, .inr rfl, .inr rfl, .inr rfl, .inr rfl, .inr rfl, .inr rfl, .inr rfl, .inr rfl⟩

theorem kept_wreg (hk : Keeps P 0x2) {s : State} {r : Reg} {v : BitVec 64} {i : Nat} (h : P s) :
    P (State.wreg s r v i) := by
  unfold State.wreg
  exact (hk.upd h)

theorem kept_wr (hk : Keeps P 0x2) {s : State} {f : Fld} {v : Nat} {i : Nat} (h : P s) :
    P (State.wr s f v i) := by
  unfold State.wr
  exact (kept_wreg (hk.le rfl) h)

theorem kept_bump (hk : Keeps P 0x2) {s : State} {f : Fld} {i : Nat} {n0 : Nat} (h : P s) :
    P (State.bump s f i n0) := by
  unfold State.bump
  exact (kept_wr (hk.le rfl) h)

theorem kept_bumpSat (hk : Keeps P 0x2) {s : State} {f : Fld} {i : Nat} (h : P s) :
    P (State.bumpSat s f i) := by
  unfold State.bumpSat
  exact (kept_wr (hk.le rfl) h)

theorem kept_when (_hk : Keeps P 0x0) {s : State} {c : Bool} {f : State → State} (h : P s) (hf : ∀ a0, P a0 → P (f a0)) :
    P (State.when s c f) := by
  unfold State.when
  exact (kept_ite (hf _ h) h)

theorem kept_emit (hk : Keeps P 0x8) {s : State} {o0 : Output} (h : P s) :
    P (State.emit s o0) := by
  unfold State.emit
  exact (hk.upd h)

theorem kept_tick (hk : Keeps P 0x1) {s : State} (h : P s) :
    P (State.tick s) := by
  unfold State.tick
  exact (hk.upd h)

theorem kept_setQuarter (hk : Keeps P 0x80) {s : State} {q0 : Nat} {v : Quarter} (h : P s) :
    P (State.setQuarter s q0 v) := by
  unfold State.setQuarter
  exact (hk.upd h)

theorem kept_alert (hk : Keeps P 0x40) {s : State} {n0 : Nat} {b : Bool} (h : P s) :
    P (State.alert s n0 b) := by
  unfold State.alert
  exact (hk.upd h)

theorem kept_endTicket (hk : Keeps P 0x200) {s : State} {t0 : Nat} {status : Nat} {detail : Nat} {payload : List (BitVec 8)} (h : P s) :
    P (State.endTicket s t0 status detail payload) := by
  unfold State.endTicket
  split
  · rename_i y0 y1
    exact h
  · rename_i y2 y3 y4
    split
    · rename_i y5 y6 y7
      exact h
    · rename_i y8 y9
      exact (hk.upd h)

theorem kept_endWork (hk : Keeps P 0x200) {s : State} {t0 : Option Nat} {status : Nat} {detail : Nat} {payload : List (BitVec 8)} (h : P s) :
    P (State.endWork s t0 status detail payload) := by
  unfold State.endWork
  split
  · rename_i y0
    exact h
  · rename_i y1 y2
    exact (kept_endTicket (hk.le rfl) h)

theorem kept_postTicket (hk : Keeps P 0x202) {s : State} {t0 : Nat} (h : P s) :
    P (State.postTicket s t0) := by
  unfold State.postTicket
  split
  · rename_i y0 y1
    exact h
  · rename_i y2 y3 y4
    exact (kept_wr (hk.le rfl) (hk.upd h))

theorem kept_resumeStartup (hk : Keeps P 0x2) {s : State} (h : P s) :
    P (State.resumeStartup s) := by
  unfold State.resumeStartup
  exact (kept_wr (hk.le rfl) (kept_wr (hk.le rfl) (kept_wr (hk.le rfl) h)))

theorem kept_loseRecord (hk : Keeps P 0x12) {s : State} {sev : Nat} {full : Bool} {reserve : Bool} {holdUp : Bool} (h : P s) :
    P (State.loseRecord s sev full reserve holdUp) := by
  unfold State.loseRecord
  exact (kept_bump (hk.le rfl) (hk.upd h))

theorem kept_coalesce (hk : Keeps P 0x12) {s : State} {r : EvRec} (h : P s) :
    P (State.coalesce s r) := by
  unfold State.coalesce
  exact (kept_ite (kept_bump (hk.le rfl) (hk.upd h)) (kept_ite (hk.upd h) (kept_loseRecord (hk.le rfl) h)))

theorem kept_bufferRecord (hk : Keeps P 0x10) {s : State} {r : EvRec} (h : P s) :
    P (State.bufferRecord s r) := by
  unfold State.bufferRecord
  extract_lets v0 v1
  clear_value v0 v1
  exact (hk.upd h)

theorem kept_note (hk : Keeps P 0x52) {s : State} {code : Nat} {sev : Nat} {kind : Nat} {index : Nat} {payload : List Nat} {ctx : Option Nat} {injected : Bool} (h : P s) :
    P (State.note s code sev kind index payload ctx injected) := by
  unfold State.note
  extract_lets v0 v1
  have k2 : P v1 := (kept_ite (kept_alert (hk.le rfl) h) h)
  clear_value v0 v1
  exact (kept_ite (kept_loseRecord (hk.le rfl) k2) (kept_ite (kept_ite (kept_coalesce (hk.le rfl) k2) (kept_bufferRecord (hk.le rfl) k2)) (kept_ite (kept_bufferRecord (hk.le rfl) k2) (kept_loseRecord (hk.le rfl) k2))))

theorem kept_reportLast (hk : Keeps P 0x2) {s : State} {a : Action} {outcome : Nat} {rep : Bool} {ms : Nat} (h : P s) :
    P (State.reportLast s a outcome rep ms) := by
  unfold State.reportLast
  exact (kept_wr (hk.le rfl) (kept_wr (hk.le rfl) (kept_wr (hk.le rfl) (kept_wr (hk.le rfl) (kept_wr (hk.le rfl) (kept_wr (hk.le rfl) (kept_wr (hk.le rfl) (kept_wr (hk.le rfl) (kept_wr (hk.le rfl) h)))))))))

theorem kept_reportStart (hk : Keeps P 0x2) {s : State} {a : Action} {rep : Bool} (h : P s) :
    P (State.reportStart s a rep) := by
  unfold State.reportStart
  exact (kept_wr (hk.le rfl) (kept_reportLast (hk.le rfl) h))

theorem kept_startAction (hk : Keeps P 0x72) {s : State} {a : Action} {rep : Bool} (h : P s) :
    P (State.startAction s a rep) := by
  unfold State.startAction
  extract_lets v0 v1 v2 v3 v4 v5 v6 v7 v8 v9 v10
  have k11 : P v2 := (kept_ite (kept_note (hk.le rfl) h) h)
  have k12 : P v6 := (kept_ite (kept_wr (hk.le rfl) (hk.upd k11)) k11)
  have k13 : P v7 := (kept_ite (kept_wr (hk.le rfl) k12) k12)
  have k14 : P v8 := (kept_wr (hk.le rfl) k13)
  have k15 : P v9 := (kept_reportStart (hk.le rfl) k14)
  clear_value v0 v1 v2 v3 v4 v5 v6 v7 v8 v9 v10
  exact (hk.upd k15)

theorem kept_closeDumpPartial (hk : Keeps P 0x22) {s : State} {r : RunAct} (h : P s) :
    P (State.closeDumpPartial s r) := by
  unfold State.closeDumpPartial
  split
  · rename_i y0 y1
    exact h
  · rename_i y2 y3 y4
    split
    · rename_i y5 y6
      exact h
    · rename_i y7 y8 y9
      exact (kept_wr (hk.le rfl) (hk.upd h))

theorem kept_setQueued (hk : Keeps P 0x22) {s : State} {q0 : List Action} (h : P s) :
    P (State.setQueued s q0) := by
  unfold State.setQueued
  exact (kept_wr (hk.le rfl) (hk.upd h))

theorem kept_enqueueAction (hk : Keeps P 0x222) {s : State} {a : Action} (h : P s) :
    P (State.enqueueAction s a) := by
  unfold State.enqueueAction
  exact (kept_ite (kept_endWork (hk.le rfl) (kept_reportLast (hk.le rfl) h)) (kept_setQueued (hk.le rfl) h))

theorem kept_escalate (hk : Keeps P 0x272) {s : State} {r : RunAct} {cause : Nat} (h : P s) :
    P (State.escalate s r cause) := by
  unfold State.escalate
  extract_lets v0 v1 v2 v3 v4
  have k5 : P v1 := (kept_note (hk.le rfl) h)
  have k6 : P v2 := (kept_ite (kept_bump (hk.le rfl) k5) (kept_ite (kept_bump (hk.le rfl) k5) (kept_ite (kept_bump (hk.le rfl) k5) k5)))
  have k7 : P v3 := (kept_endWork (hk.le rfl) k6)
  clear_value v0 v1 v2 v3 v4
  exact (kept_startAction (hk.le rfl) k7)

theorem kept_preempt (hk : Keeps P 0x272) {s : State} {r : RunAct} {a : Action} (h : P s) :
    P (State.preempt s r a) := by
  unfold State.preempt
  extract_lets v0 v1
  have k2 : P v0 := (kept_closeDumpPartial (hk.le rfl) h)
  have k3 : P v1 := (kept_ite (kept_endWork (hk.le rfl) (kept_reportLast (hk.le rfl) k2)) (kept_enqueueAction (hk.le rfl) k2))
  clear_value v0 v1
  exact (kept_startAction (hk.le rfl) k3)

theorem kept_waitAction (hk : Keeps P 0x272) {s : State} {r : RunAct} {a : Action} (h : P s) :
    P (State.waitAction s r a) := by
  unfold State.waitAction
  exact (kept_ite (kept_preempt (hk.le rfl) (kept_endWork (hk.le rfl) h)) (kept_enqueueAction (hk.le rfl) h))

theorem kept_callAction (hk : Keeps P 0x272) {s : State} {a : Action} (h : P s) :
    P (State.callAction s a) := by
  unfold State.callAction
  split
  · rename_i y0 y1
    exact (kept_startAction (hk.le rfl) h)
  · rename_i y2 y3 y4
    exact (kept_ite (kept_escalate (hk.le rfl) h) (kept_ite (kept_endWork (hk.le rfl) (kept_reportLast (hk.le rfl) h)) (kept_ite (kept_preempt (hk.le rfl) h) (kept_waitAction (hk.le rfl) h))))

theorem kept_callRemoval (hk : Keeps P 0x20) {s : State} {slot : Nat} {cause : Nat} {ticket : Option Nat} {kind : Nat} {index : Nat} (h : P s) :
    P (State.callRemoval s slot cause ticket kind index) := by
  unfold State.callRemoval
  exact (kept_ite h (hk.upd h))

theorem kept_respond (hk : Keeps P 0x272) {s : State} {code : Nat} {sev : Nat} {kind : Nat} {index : Nat} {ctx : Option Nat} (h : P s) :
    P (State.respond s code sev kind index ctx) := by
  unfold State.respond
  refine kept_ite ?_ ?_
  · exact h
  · refine kept_ite ?_ ?_
    · exact h
    · refine kept_ite ?_ ?_
      · split
        · rename_i y0
          exact h
        · rename_i y1 y2
          split
          · rename_i y3 y4
            exact h
          · rename_i y5 y6 y7
            exact (kept_ite (kept_reportLast (hk.le rfl) h) (kept_callRemoval (hk.le rfl) h))
      · extract_lets v8
        clear_value v8
        exact (kept_callAction (hk.le rfl) h)

theorem kept_record (hk : Keeps P 0x272) {s : State} {code : Nat} {sev : Nat} {kind : Nat} {index : Nat} {payload : List Nat} {ctx : Option Nat} {injected : Bool} (h : P s) :
    P (State.record s code sev kind index payload ctx injected) := by
  unfold State.record
  exact (kept_respond (hk.le rfl) (kept_note (hk.le rfl) h))

theorem kept_noteOffset (hk : Keeps P 0x52) {s : State} {why : Nat} {off : Nat} {status : Nat} (h : P s) :
    P (State.noteOffset s why off status) := by
  unfold State.noteOffset
  exact (kept_note (hk.le rfl) h)

theorem kept_tapJudge (hk : Keeps P 0x40) {s : State} (h : P s) :
    P (State.tapJudge s) := by
  unfold State.tapJudge
  extract_lets v0 v1
  clear_value v0 v1
  exact (kept_ite h (hk.upd h))

theorem kept_clearAlerts (hk : Keeps P 0x40) {s : State} {mask : Nat} (h : P s) :
    P (State.clearAlerts s mask) := by
  unfold State.clearAlerts
  refine kept_foldl ?_ ?_
  · exact h
  · intro x0 x1 h2
    exact (kept_ite (kept_alert (hk.le rfl) h2) h2)

theorem kept_leaveDormant (hk : Keeps P 0x82) {s : State} (h : P s) :
    P (State.leaveDormant s) := by
  unfold State.leaveDormant
  exact (kept_ite (kept_wr (hk.le rfl) (hk.upd h)) (kept_ite (hk.upd h) h))

theorem kept_judgePower (hk : Keeps P 0x82) {s : State} (h : P s) :
    P (State.judgePower s) := by
  unfold State.judgePower
  exact (kept_ite (kept_ite h (kept_wr (hk.le rfl) h)) (kept_wr (hk.le rfl) (kept_leaveDormant (hk.le rfl) h)))

theorem kept_wakeFor (hk : Keeps P 0x80) {s : State} {q0 : Nat} {ms : List MemReq} (h : P s) :
    P (State.wakeFor s q0 ms) := by
  unfold State.wakeFor
  extract_lets v0
  clear_value v0
  exact (kept_setQuarter (hk.le rfl) h)

theorem kept_setGated (hk : Keeps P 0x82) {s : State} {q0 : Nat} {b : Bool} (h : P s) :
    P (State.setGated s q0 b) := by
  unfold State.setGated
  exact (kept_judgePower (hk.le rfl) (kept_wr (hk.le rfl) h))

theorem kept_setSramOff (hk : Keeps P 0x2) {s : State} {q0 : Nat} {b : Bool} (h : P s) :
    P (State.setSramOff s q0 b) := by
  unfold State.setSramOff
  exact (kept_wr (hk.le rfl) h)

theorem kept_setCore (hk : Keeps P 0x400) {s : State} {c : Nat} {k0 : Core} (h : P s) :
    P (State.setCore s c k0) := by
  unfold State.setCore
  exact (hk.upd h)

theorem kept_setThread (hk : Keeps P 0x400) {s : State} {c : Nat} {t0 : Nat} {th : Thread} (h : P s) :
    P (State.setThread s c t0 th) := by
  unfold State.setThread
  exact (kept_setCore (hk.le rfl) h)

theorem kept_setRetire (hk : Keeps P 0x800) {s : State} {c : Nat} {v : Nat} (h : P s) :
    P (State.setRetire s c v) := by
  unfold State.setRetire
  exact (hk.upd h)

theorem kept_setQueue (hk : Keeps P 0x2000) {s : State} {i : Nat} {q0 : Queue} (h : P s) :
    P (State.setQueue s i q0) := by
  unfold State.setQueue
  exact (hk.upd h)

theorem kept_failRun (hk : Keeps P 0x6000) {s : State} {n0 : Nat} (h : P s) :
    P (State.failRun s n0) := by
  unfold State.failRun
  split
  · rename_i y0 y1
    exact h
  · rename_i y2 y3 y4
    refine kept_ite ?_ ?_
    · exact h
    · extract_lets v5 v6 v7
      clear_value v5 v6 v7
      exact (hk.upd h)

theorem kept_failRuns (hk : Keeps P 0x6000) {s : State} {slot : Nat} (h : P s) :
    P (State.failRuns s slot) := by
  unfold State.failRuns
  refine kept_foldl ?_ ?_
  · exact h
  · intro x0 x1 h2
    exact (kept_ite (kept_failRun (hk.le rfl) h2) h2)

theorem kept_queueError (hk : Keeps P 0x627a) {s : State} {slot : Nat} {queue : Nat} {idx : Nat} {engine : Nat} {code : Nat} {cause : Nat} {opcode : Nat} {addr : Nat} (h : P s) :
    P (State.queueError s slot queue idx engine code cause opcode addr) := by
  unfold State.queueError
  extract_lets v0 v1 v2 v3 v4 v5
  have k6 : P v2 := (kept_ite (kept_wr (hk.le rfl) h) (kept_wr (hk.le rfl) (kept_wr (hk.le rfl) (kept_wr (hk.le rfl) (kept_wr (hk.le rfl) (kept_wr (hk.le rfl) (kept_wr (hk.le rfl) (kept_wr (hk.le rfl) (kept_wr (hk.le rfl) h)))))))))
  have k7 : P v3 := (kept_wr (hk.le rfl) (kept_failRuns (hk.le rfl) k6))
  have k8 : P v4 := by
    dsimp -zeta only [v4]
    refine kept_foldl ?_ ?_
    · exact k7
    · intro x9 x10 h11
      extract_lets v12
      clear_value v12
      exact (kept_ite (kept_wr (hk.le rfl) h11) h11)
  have k13 : P v5 := (kept_ite (kept_emit (hk.le rfl) k8) k6)
  clear_value v0 v1 v2 v3 v4 v5
  exact (kept_ite (kept_record (hk.le rfl) k13) h)

theorem kept_cmdError (hk : Keeps P 0x627a) {s : State} {r : CmdRef} {code : Nat} {cause : Nat} {opcode : Nat} {addr : Nat} (h : P s) :
    P (State.cmdError s r code cause opcode addr) := by
  unfold State.cmdError
  exact (kept_queueError (hk.le rfl) h)

theorem kept_setWork (hk : Keeps P 0x2000) {s : State} {r : CmdRef} {w : CmdWork} (h : P s) :
    P (State.setWork s r w) := by
  unfold State.setWork
  extract_lets v0
  clear_value v0
  exact (kept_setQueue (hk.le rfl) h)

theorem kept_progressed (hk : Keeps P 0x2000) {s : State} {slot : Nat} (h : P s) :
    P (State.progressed s slot) := by
  unfold State.progressed
  exact (hk.upd h)

theorem kept_tailWrite (hk : Keeps P 0x627a) {s : State} {slot : Nat} {queue : Nat} {val : Nat} (h : P s) :
    P (State.tailWrite s slot queue val) := by
  unfold State.tailWrite
  extract_lets v0 v1 v2 v3 v4 v5 v6
  have k7 : P v6 := (kept_wr (hk.le rfl) h)
  clear_value v0 v1 v2 v3 v4 v5 v6
  exact (kept_ite h (kept_ite (kept_note (hk.le rfl) h) (kept_ite (kept_ite h (kept_ite (kept_progressed (hk.le rfl) (kept_wr (hk.le rfl) k7)) k7)) (kept_queueError (hk.le rfl) h))))

theorem kept_releaseEvent (hk : Keeps P 0x2400) {s : State} {slot : Nat} {e0 : Nat} (h : P s) :
    P (State.releaseEvent s slot e0) := by
  unfold State.releaseEvent
  extract_lets v0 v1 v2 v3 v4
  clear_value v0 v1 v2 v3 v4
  exact (hk.upd h)

theorem kept_updateEvent (hk : Keeps P 0x2400) {s : State} {slot : Nat} {e0 : Nat} {add : Bool} {v : BitVec 64} (h : P s) :
    P (State.updateEvent s slot e0 add v) := by
  unfold State.updateEvent
  refine kept_ite ?_ ?_
  · exact h
  · extract_lets v0 v1
    clear_value v0 v1
    exact (kept_releaseEvent (hk.le rfl) (hk.upd h))

theorem kept_haltCore (hk : Keeps P 0x1400) {s : State} {c : Nat} (h : P s) :
    P (State.haltCore s c) := by
  unfold State.haltCore
  extract_lets v0 v1 v2
  clear_value v0 v1 v2
  exact (kept_setCore (hk.le rfl) (hk.upd h))

theorem kept_threadFault (hk : Keeps P 0x767a) {s : State} {c : Nat} {t0 : Nat} {fcode : Nat} {addr : Nat} {pc : Option Nat} (h : P s) :
    P (State.threadFault s c t0 fcode addr pc) := by
  unfold State.threadFault
  extract_lets v0 v1 v2 v3
  have k4 : P v1 := (kept_ite (kept_wr (hk.le rfl) h) (kept_wr (hk.le rfl) (kept_wr (hk.le rfl) (kept_wr (hk.le rfl) (kept_wr (hk.le rfl) (kept_wr (hk.le rfl) (kept_wr (hk.le rfl) (kept_wr (hk.le rfl) (kept_wr (hk.le rfl) h)))))))))
  have k5 : P v2 := (kept_haltCore (hk.le rfl) (kept_setThread (hk.le rfl) k4))
  clear_value v0 v1 v2 v3
  exact (kept_ite h (kept_cmdError (hk.le rfl) k5))

theorem kept_gfault (hk : Keeps P 0x272) {s : State} {x : Source} {addr : Nat} {cause : Nat} (h : P s) :
    P (State.gfault s x addr cause) := by
  unfold State.gfault
  extract_lets v0 v1 v2
  have k3 : P v2 := (kept_ite (kept_wr (hk.le rfl) h) (kept_wr (hk.le rfl) (kept_wr (hk.le rfl) (kept_wr (hk.le rfl) (kept_wr (hk.le rfl) (kept_wr (hk.le rfl) (kept_wr (hk.le rfl) (kept_wr (hk.le rfl) (kept_wr (hk.le rfl) h)))))))))
  clear_value v0 v1 v2
  exact (kept_record (hk.le rfl) k3)

theorem kept_failSource (hk : Keeps P 0x767a) {s : State} {x : Source} {addr : Nat} {cause : Nat} {atomic : Bool} {code : Nat} (h : P s) :
    P (State.failSource s x addr cause atomic code) := by
  unfold State.failSource
  refine kept_ite ?_ ?_
  · exact h
  · refine kept_ite ?_ ?_
    · exact h
    · extract_lets v0 v1
      have k2 : P v1 := (kept_gfault (hk.le rfl) h)
      clear_value v0 v1
      exact (kept_ite (kept_threadFault (hk.le rfl) k2) (kept_cmdError (hk.le rfl) k2))

theorem kept_putLocal (hk : Keeps P 0x1404) {s : State} {off : Nat} {bs : List (BitVec 8)} (h : P s) :
    P (State.putLocal s off bs) := by
  unfold State.putLocal
  extract_lets v0 v1 v2 v3
  have k4 : P v1 := (kept_memWrite (hk.le rfl) h)
  have k5 : P v3 := (hk.upd k4)
  clear_value v0 v1 v2 v3
  split
  · rename_i y6 y7 y8
    exact (kept_setCore (hk.le rfl) k5)
  · rename_i y9 y10
    exact k5

theorem kept_perform (hk : Keeps P 0x1404) {s : State} {k0 : MemKind} {off : Nat} (h : P s) :
    P (State.perform s k0 off).1 := by
  unfold State.perform
  split
  · rename_i y0 y1
    exact h
  · rename_i y2 y3
    exact (kept_putLocal (hk.le rfl) h)
  · rename_i y4 y5 y6 y7
    extract_lets v8
    clear_value v8
    exact (kept_putLocal (hk.le rfl) h)
  · rename_i y9 y10
    exact h
  · rename_i y11 y12 y13
    exact h

theorem kept_setCirc (hk : Keeps P 0x4000) {s : State} {c : Nat} {x : Circ} (h : P s) :
    P (State.setCirc s c x) := by
  unfold State.setCirc
  exact (hk.upd h)

theorem kept_enqueue (hk : Keeps P 0x4000) {s : State} {c : Nat} {type : Nat} {p0 : Pkt} (h : P s) :
    P (State.enqueue s c type p0) := by
  unfold State.enqueue
  extract_lets v0
  clear_value v0
  exact (kept_setCirc (hk.le rfl) h)

theorem kept_addReq (hk : Keeps P 0x1000) {s : State} {r : OutReq} (h : P s) :
    P (State.addReq s r).1 := by
  unfold State.addReq
  extract_lets v0 v1
  clear_value v0 v1
  exact (hk.upd h)

theorem kept_mirrorWrite (hk : Keeps P 0x5000) {s : State} {x : Source} {off : Nat} {n0 : Nat} {bs : List (BitVec 8)} {dst : ReqDst} (h : P s) :
    P (State.mirrorWrite s x off n0 bs dst).1 := by
  unfold State.mirrorWrite
  extract_lets v0
  clear_value v0
  split
  · rename_i y1 y2 y3 y4
    have k5 : P y2 := by
      have e6 := congrArg Prod.fst y4
      dsimp only at e6
      rw [← e6]
      exact (kept_addReq (hk.le rfl) h)
    extract_lets v7 v8
    have k9 : P v8 := (hk.upd k5)
    clear_value v7 v8
    split
    · rename_i y10 y11 y12
      split
      · rename_i y13 y14 y15 y16
        exact (kept_enqueue (hk.le rfl) k9)
    · rename_i y17 y18
      exact k9

theorem kept_orqMirror (hk : Keeps P 0x5001) {s : State} (h : P s) :
    P (State.orqMirror s) := by
  unfold State.orqMirror
  extract_lets v0 v1 v2 v3
  clear_value v0 v1 v2 v3
  refine kept_ite ?_ ?_
  · split
    · rename_i y4 y5 y6 y7
      have k8 : P y5 := by
        have e9 := congrArg Prod.fst y7
        dsimp only at e9
        rw [← e9]
        exact (kept_addReq (hk.le rfl) (kept_tick (hk.le rfl) h))
      extract_lets v10 v11
      have k12 : P v11 := (hk.upd k8)
      clear_value v10 v11
      split
      · rename_i y13 y14 y15
        split
        · rename_i y16 y17 y18 y19
          exact (kept_enqueue (hk.le rfl) k12)
      · rename_i y20 y21
        exact k12
  · exact h

theorem kept_performAs (hk : Keeps P 0x5404) {s : State} {x : Source} {k0 : MemKind} {off : Nat} {dst : ReqDst} (h : P s) :
    P (State.performAs s x k0 off dst).1 := by
  unfold State.performAs
  split
  · rename_i y0 y1 y2 y3
    have k4 : P y1 := by
      have e5 := congrArg Prod.fst y3
      dsimp only at e5
      rw [← e5]
      exact (kept_perform (hk.le rfl) h)
    exact (kept_ite1 (kept_mirrorWrite (hk.le rfl) k4) k4)

theorem kept_hold (hk : Keeps P 0x400) {s : State} {c : Nat} {t0 : Option Nat} {x : Source} {w : HeldWork} (h : P s) :
    P (State.hold s c t0 x w) := by
  unfold State.hold
  extract_lets v0
  clear_value v0
  exact (kept_setCore (hk.le rfl) h)

theorem kept_park (hk : Keeps P 0x1000) {s : State} {loc : ReqAt} {x : Source} {k0 : MemKind} {off : Nat} {dst : ReqDst} (h : P s) :
    P (State.park s loc x k0 off dst).1 := by
  unfold State.park
  exact (kept_addReq (hk.le rfl) h)

theorem kept_localAccess (hk : Keeps P 0x548c) {s : State} {x : Source} {k0 : MemKind} {off : Nat} {dst : ReqDst} (h : P s) :
    P (State.localAccess s x k0 off dst).1 := by
  unfold State.localAccess
  split
  · rename_i y0 y1 y2 y3
    have k4 : P y1 := by
      have e5 := congrArg Prod.fst y3
      dsimp only at e5
      rw [← e5]
      exact (kept_park (hk.le rfl) h)
    extract_lets v6 v7
    clear_value v6 v7
    refine kept_ite1 ?_ ?_
    · exact (kept_hold (hk.le rfl) k4)
    · split
      · rename_i y8 y9 y10
        exact (kept_ite1 (kept_wakeFor (hk.le rfl) k4) (kept_ite1 (kept_setCore (hk.le rfl) k4) (kept_ite1 (kept_hold (hk.le rfl) k4) (kept_performAs (hk.le rfl) h))))
      · rename_i y11 y12 y13
        exact (kept_ite1 (kept_wakeFor (hk.le rfl) k4) (kept_performAs (hk.le rfl) h))
      · rename_i y14 y15 y16
        refine kept_ite1 ?_ ?_
        · exact (kept_performAs (hk.le rfl) h)
        · refine kept_ite1 ?_ ?_
          · exact h
          · split
            · rename_i y17 y18 y19 y20
              have k21 : P y18 := by
                have e22 := congrArg Prod.fst y20
                dsimp only at e22
                rw [← e22]
                exact (kept_park (hk.le rfl) h)
              dsimp -zeta only
              refine kept_foldl ?_ ?_
              · exact (hk.upd k21)
              · intro x23 x24 h25
                exact (kept_emit (hk.le rfl) h25)

theorem kept_sendReq (hk : Keeps P 0x5000) {s : State} {x : Source} {k0 : MemKind} {n0 : Nat} {off : Nat} {dst : ReqDst} {fetch : Bool} {circ : Option Nat} (h : P s) :
    P (State.sendReq s x k0 n0 off dst fetch circ).1 := by
  unfold State.sendReq
  split
  · rename_i y0 y1
    exact h
  · rename_i y2 y3 y4
    split
    · rename_i y5 y6 y7 y8
      have k9 : P y6 := by
        have e10 := congrArg Prod.fst y8
        dsimp only at e10
        rw [← e10]
        exact (kept_addReq (hk.le rfl) h)
      split
      · rename_i y11 y12 y13 y14
        exact (kept_enqueue (hk.le rfl) k9)

theorem kept_ovfEntry (hk : Keeps P 0x1000) {s : State} {page : Nat} (h : P s) :
    P (State.ovfEntry s page).1 := by
  unfold State.ovfEntry
  split
  · rename_i y0 y1 y2
    exact h
  · rename_i y3 y4
    extract_lets v5 v6 v7
    clear_value v5 v6 v7
    exact (hk.upd h)

theorem kept_homeAccess (hk : Keeps P 0x548c) {s : State} {x : Source} {k0 : MemKind} {off : Nat} {dst : ReqDst} (h : P s) :
    P (State.homeAccess s x k0 off dst).1 := by
  unfold State.homeAccess
  split
  · rename_i y0 y1
    refine kept_ite1 ?_ ?_
    · exact h
    · split
      · rename_i y2 y3
        exact h
      · rename_i y4 y5 y6
        refine kept_ite1 ?_ ?_
        · exact h
        · split
          · rename_i y7 y8 y9 y10
            have k11 : P y8 := by
              have e12 := congrArg Prod.fst y10
              dsimp only at e12
              rw [← e12]
              exact (kept_ovfEntry (hk.le rfl) h)
            refine kept_ite1 ?_ ?_
            · extract_lets v13
              clear_value v13
              exact (kept_ite1 k11 (kept_localAccess (hk.le rfl) k11))
            · split
              · rename_i y14 y15
                exact (kept_sendReq (hk.le rfl) k11)
              · rename_i y16 y17
                exact k11
  · rename_i y18 y19
    exact (kept_localAccess (hk.le rfl) h)

theorem kept_apertureWrite (hk : Keeps P 0x627a) {s : State} {x : Source} {a : Nat} {d : List (BitVec 8)} (h : P s) :
    P (State.apertureWrite s x a d).1 := by
  unfold State.apertureWrite
  exact (kept_ite1 (kept_tailWrite (hk.le rfl) h) h)

theorem kept_apertureAccess (hk : Keeps P 0x627a) {s : State} {x : Source} {k0 : MemKind} {off : Nat} (h : P s) :
    P (State.apertureAccess s x k0 off).1 := by
  unfold State.apertureAccess
  split
  · rename_i y0 y1
    exact h
  · rename_i y2 y3
    exact (kept_apertureWrite (hk.le rfl) h)
  · rename_i y4 y5 y6
    exact h

theorem kept_tryAccess (hk : Keeps P 0x76fe) {s : State} {x : Source} {k0 : MemKind} {ga : Nat} {dst : ReqDst} {fetch : Bool} (h : P s) :
    P (State.tryAccess s x k0 ga dst fetch).1 := by
  unfold State.tryAccess
  refine kept_ite1 ?_ ?_
  · refine kept_ite1 ?_ ?_
    · exact h
    · refine kept_ite1 ?_ ?_
      · exact h
      · refine kept_ite1 ?_ ?_
        · exact h
        · split
          · rename_i y0 y1 y2 y3
            have k4 : P y1 := by
              have e5 := congrArg Prod.fst y3
              dsimp only at e5
              rw [← e5]
              exact (kept_addReq (hk.le rfl) h)
            extract_lets v6
            clear_value v6
            exact (kept_emit (hk.le rfl) k4)
  · extract_lets v7 v8 v9
    clear_value v7 v8 v9
    refine kept_ite1 ?_ ?_
    · exact h
    · refine kept_ite1 ?_ ?_
      · refine kept_ite1 ?_ ?_
        · exact (kept_ite1 h (kept_apertureAccess (hk.le rfl) h))
        · split
          · rename_i y10 y11 y12
            exact h
          · rename_i y13 y14
            exact (kept_homeAccess (hk.le rfl) h)
      · exact (kept_ite1 h (kept_sendReq (hk.le rfl) h))

theorem kept_sourceFails (hk : Keeps P 0x767a) {s : State} {x : Source} {ga : Nat} {cause : Nat} {atomic : Bool} (h : P s) :
    P (State.sourceFails s x ga cause atomic) := by
  unfold State.sourceFails
  exact (kept_ite (kept_cmdError (hk.le rfl) (kept_gfault (hk.le rfl) h)) (kept_failSource (hk.le rfl) h))

theorem kept_access (hk : Keeps P 0x76fe) {s : State} {x : Source} {k0 : MemKind} {ga : Nat} {dst : ReqDst} {fetch : Bool} (h : P s) :
    P (State.access s x k0 ga dst fetch).1 := by
  unfold State.access
  split
  · rename_i y0 y1 y2 y3
    have k4 : P y1 := by
      have e5 := congrArg Prod.fst y3
      dsimp only at e5
      rw [← e5]
      exact (kept_tryAccess (hk.le rfl) h)
    exact (kept_sourceFails (hk.le rfl) k4)
  · rename_i y6 y7
    exact (kept_tryAccess (hk.le rfl) h)

theorem kept_invalidateCache (hk : Keeps P 0x1400) {s : State} {c : Nat} (h : P s) :
    P (State.invalidateCache s c) := by
  unfold State.invalidateCache
  extract_lets v0 v1 v2
  have k3 : P v1 := (kept_setCore (hk.le rfl) h)
  clear_value v0 v1 v2
  exact (hk.upd k3)

theorem kept_settle (hk : Keeps P 0x1400) {s : State} {c : Nat} (h : P s) :
    P (State.settle s c) := by
  unfold State.settle
  refine kept_foldl ?_ ?_
  · exact h
  · intro x0 x1 h2
    extract_lets v3 v4
    clear_value v3 v4
    refine kept_ite ?_ ?_
    · split
      · rename_i y5 y6
        exact (kept_setThread (hk.le rfl) h2)
      · rename_i y7 y8
        exact (kept_setThread (hk.le rfl) (kept_invalidateCache (hk.le rfl) h2))
      · rename_i y9 y10 y11
        exact (kept_setThread (hk.le rfl) h2)
    · exact h2

theorem kept_setRing (hk : Keeps P 0x2000) {s : State} {n0 : Nat} {x : RingRun} (h : P s) :
    P (State.setRing s n0 x) := by
  unfold State.setRing
  exact (hk.upd h)

theorem kept_ringCount (hk : Keeps P 0x2000) {s : State} {src : Nat} {off : Nat} {n0 : Nat} (h : P s) :
    P (State.ringCount s src off n0) := by
  unfold State.ringCount
  refine kept_foldl ?_ ?_
  · exact h
  · intro x0 x1 h2
    extract_lets v3
    clear_value v3
    split
    · rename_i y4 y5 y6
      extract_lets v7 v8
      clear_value v7 v8
      refine kept_ite ?_ ?_
      · split
        · rename_i y9 y10 y11
          exact (kept_setRing (hk.le rfl) h2)
        · rename_i y12 y13
          exact h2
      · exact h2
    · rename_i y14 y15
      exact h2

theorem kept_installLines (hk : Keeps P 0x401) {s : State} {c : Nat} {ga : Nat} {bs : List (BitVec 8)} (h : P s) :
    P (State.installLines s c ga bs) := by
  unfold State.installLines
  refine kept_foldl ?_ ?_
  · exact h
  · intro x0 x1 h2
    extract_lets v3 v4 v5 v6
    clear_value v3 v4 v5 v6
    exact (kept_tick (hk.le rfl) (kept_setCore (hk.le rfl) h2))

theorem kept_fillEntry (hk : Keeps P 0x400) {s : State} {c : Nat} {tag : Nat} {part : Nat} {bs : List (BitVec 8)} (h : P s) :
    P (State.fillEntry s c tag part bs) := by
  unfold State.fillEntry
  extract_lets v0
  clear_value v0
  exact (kept_setCore (hk.le rfl) h)

theorem kept_cmdPart (hk : Keeps P 0x2000) {s : State} {r : CmdRef} {part : Nat} {bs : List (BitVec 8)} (h : P s) :
    P (State.cmdPart s r part bs) := by
  unfold State.cmdPart
  split
  · rename_i y0 y1 y2
    split
    · rename_i y3 y4 y5
      exact (kept_setWork (hk.le rfl) h)
    · rename_i y6 y7 y8
      exact (kept_setWork (hk.le rfl) h)
    · rename_i y9 y10
      exact (kept_setWork (hk.le rfl) h)
    · rename_i y11 y12 y13 y14
      exact h
  · rename_i y15 y16
    exact h

theorem kept_areaAccess (hk : Keeps P 0x76fe) {s : State} {r : CmdRef} {ga : Nat} {k0 : MemKind} {dst : ReqDst} (h : P s) :
    P (State.areaAccess s r ga k0 dst).1 := by
  unfold State.areaAccess
  extract_lets v0
  clear_value v0
  split
  · rename_i y1 y2 y3 y4
    have k5 : P y2 := by
      have e6 := congrArg Prod.fst y4
      dsimp only at e6
      rw [← e6]
      refine kept_ite1 ?_ ?_
      · exact (kept_tryAccess (hk.le rfl) h)
      · split
        · rename_i y7 y8 y9
          exact h
        · rename_i y10 y11
          exact (kept_localAccess (hk.le rfl) h)
    split
    · rename_i y12 y13
      exact (kept_failSource (hk.le rfl) k5)
    · rename_i y14 y15
      exact k5

theorem kept_fetched (hk : Keeps P 0x2000) {s : State} {r : CmdRef} {bs : List (BitVec 8)} (h : P s) :
    P (State.fetched s r bs) := by
  unfold State.fetched
  extract_lets v0 v1
  clear_value v0 v1
  exact (kept_ite h (kept_setQueue (hk.le rfl) h))

theorem kept_advanceHead (hk : Keeps P 0x76fe) {s : State} {r : CmdRef} (h : P s) :
    P (State.advanceHead s r) := by
  unfold State.advanceHead
  extract_lets v0 v1 v2 v3 v4 v5
  have k6 : P v4 := (kept_progressed (hk.le rfl) (kept_wr (hk.le rfl) (kept_setQueue (hk.le rfl) h)))
  have k7 : P v5 := (kept_areaAccess (hk.le rfl) k6)
  clear_value v0 v1 v2 v3 v4 v5
  exact (kept_ite h (kept_ite (kept_wr (hk.le rfl) k7) k7))

theorem kept_endCommand (hk : Keeps P 0x76fe) {s : State} {r : CmdRef} (h : P s) :
    P (State.endCommand s r) := by
  unfold State.endCommand
  extract_lets v0 v1 v2
  have k3 : P v2 := (kept_setQueue (hk.le rfl) h)
  clear_value v0 v1 v2
  split
  · rename_i y4 y5
    exact h
  · rename_i y6 y7 y8
    exact (kept_ite h (kept_advanceHead (hk.le rfl) (kept_when (hk.le rfl) k3 (fun x9 h10 => (kept_emit (hk.le rfl) h10)))))

theorem kept_giveAnswer (hk : Keeps P 0x76ff) {s : State} {r : OutReq} {bs : List (BitVec 8)} (h : P s) :
    P (State.giveAnswer s r bs) := by
  unfold State.giveAnswer
  extract_lets v0 v1 v2
  have k3 : P v2 := by
    dsimp -zeta only [v2]
    split
    · rename_i y4 y5 y6 y7 y8 y9 y10 y11
      extract_lets v12
      have k13 : P v12 := by
        dsimp -zeta only [v12]
        split
        · rename_i y14 y15
          exact (kept_installLines (hk.le rfl) h)
        · rename_i y16
          exact h
      clear_value v12
      exact (kept_fillEntry (hk.le rfl) k13)
    · rename_i y17 y18
      exact h
    · rename_i y19 y20 y21
      exact (kept_access (hk.le rfl) h)
    · rename_i y22 y23 y24
      exact (kept_cmdPart (hk.le rfl) h)
    · rename_i y25 y26
      exact (kept_fetched (hk.le rfl) h)
    · rename_i y27 y28
      exact (kept_endCommand (hk.le rfl) h)
    · rename_i y29 y30
      exact h
    · rename_i y31 y32 y33 y34
      exact (hk.upd h)
    · rename_i y35 y36 y37 y38 y39
      exact (kept_enqueue (hk.le rfl) (kept_when (hk.le rfl) h (fun x40 h41 => (kept_ringCount (hk.le rfl) h41))))
    · rename_i y42 y43
      exact (kept_ite h (kept_emit (hk.le rfl) h))
  clear_value v0 v1 v2
  exact (kept_settle (hk.le rfl) k3)

theorem kept_deliver (hk : Keeps P 0x76ff) {s : State} {tag : Nat} {bs : List (BitVec 8)} (h : P s) :
    P (State.deliver s tag bs) := by
  unfold State.deliver
  split
  · rename_i y0 y1
    exact h
  · rename_i y2 y3 y4
    exact (kept_giveAnswer (hk.le rfl) (hk.upd h))

theorem kept_failReq (hk : Keeps P 0x767a) {s : State} {tag : Nat} {cause : Nat} (h : P s) :
    P (State.failReq s tag cause) := by
  unfold State.failReq
  split
  · rename_i y0 y1
    exact h
  · rename_i y2 y3 y4
    extract_lets v5 v6 v7
    have k8 : P v6 := (hk.upd h)
    clear_value v5 v6 v7
    split
    · rename_i y9 y10 y11 y12 y13
      exact (kept_enqueue (hk.le rfl) k8)
    · rename_i y14 y15
      exact k8
    · rename_i y16 y17 y18 y19
      exact (kept_ite k8 (kept_cmdError (hk.le rfl) (kept_gfault (hk.le rfl) k8)))
    · rename_i y20 y21
      exact (kept_failSource (hk.le rfl) k8)
    · rename_i y22 y23
      exact (kept_failSource (hk.le rfl) k8)
    · rename_i y24 y25
      exact (kept_failSource (hk.le rfl) k8)
    · rename_i y26 y27 y28
      exact (kept_ite (kept_cmdError (hk.le rfl) k8) (kept_failSource (hk.le rfl) k8))
    · rename_i y29 y30 y31 y32 y33 y34 y35 y36
      exact (kept_settle (hk.le rfl) (kept_sourceFails (hk.le rfl) k8))

theorem kept_performReq (hk : Keeps P 0x76ff) {s : State} {m0 : MemReq} (h : P s) :
    P (State.performReq s m0) := by
  unfold State.performReq
  split
  · rename_i y0 y1
    split
    · rename_i y2 y3 y4 y5
      have k6 : P y3 := by
        have e7 := congrArg Prod.fst y5
        dsimp only at e7
        rw [← e7]
        exact (kept_perform (hk.le rfl) h)
      split
      · rename_i y8 y9 y10
        exact (kept_emit (hk.le rfl) k6)
      · rename_i y11 y12 y13
        exact (kept_emit (hk.le rfl) k6)
      · rename_i y14 y15 y16
        exact k6
  · rename_i y17 y18 y19
    split
    · rename_i y20 y21
      exact (kept_perform (hk.le rfl) h)
    · rename_i y22 y23 y24
      refine kept_ite ?_ ?_
      · exact (kept_failReq (hk.le rfl) h)
      · split
        · rename_i y25 y26 y27 y28
          have k29 : P y26 := by
            have e30 := congrArg Prod.fst y28
            dsimp only at e30
            rw [← e30]
            exact (kept_performAs (hk.le rfl) (hk.upd h))
          exact (kept_giveAnswer (hk.le rfl) k29)
        · rename_i y31 y32 y33 y34 y35
          have k36 : P y32 := by
            have e37 := congrArg Prod.fst y35
            dsimp only at e37
            rw [← e37]
            exact (kept_performAs (hk.le rfl) (hk.upd h))
          exact k36

theorem kept_drainBias (hk : Keeps P 0x76ff) {s : State} (h : P s) :
    P (State.drainBias s) := by
  unfold State.drainBias
  refine kept_foldl1 ?_ ?_
  · exact h
  · intro x0 x1 h2
    split
    · rename_i y3 y4
      dsimp -zeta only
      extract_lets v5 v6
      have k7 : P v5 := h2
      clear_value v5 v6
      exact (hk.upd k7)
    · rename_i y8 y9 y10
      refine kept_ite1 ?_ ?_
      · dsimp -zeta only
        refine kept_performReq (hk.le rfl) ?_
        extract_lets v11 v12
        have k13 : P v11 := h2
        clear_value v11 v12
        exact (hk.upd k13)
      · exact h2

theorem kept_setHist (hk : Keeps P 0x800) {s : State} {u : Nat} {h0 : Hist} (h : P s) :
    P (State.setHist s u h0) := by
  unfold State.setHist
  exact (hk.upd h)

theorem kept_unitPermanent (hk : Keeps P 0x852) {s : State} {u : Nat} {times : List Nat} (h : P s) :
    P (State.unitPermanent s u times) := by
  unfold State.unitPermanent
  refine kept_ite ?_ ?_
  · extract_lets v0 v1
    have k2 : P v1 := (kept_note (hk.le rfl) h)
    clear_value v0 v1
    exact (kept_ite (kept_setRetire (hk.le rfl) k2) k2)
  · extract_lets v3 v4 v5
    have k6 : P v4 := (kept_note (hk.le rfl) h)
    have k7 : P v5 := (kept_note (hk.le rfl) k6)
    clear_value v3 v4 v5
    exact (kept_ite (kept_note (hk.le rfl) k7) k7)

theorem kept_charge1 (hk : Keeps P 0x852) {s : State} {u : Nat} (h : P s) :
    P (State.charge1 s u) := by
  unfold State.charge1
  extract_lets v0 v1 v2 v3
  have k4 : P v3 := (kept_setHist (hk.le rfl) h)
  clear_value v0 v1 v2 v3
  split
  · rename_i y5 y6
    exact (kept_ite k4 (kept_unitPermanent (hk.le rfl) k4))
  · rename_i y7
    exact k4

theorem kept_charge (hk : Keeps P 0x852) {s : State} {u : Nat} {x2 : Nat} (h : P s) :
    P (State.charge s u x2) := by
  unfold State.charge
  split
  · rename_i y0
    exact h
  · rename_i y1 y2
    exact (kept_charge (hk.le rfl) (kept_charge1 (hk.le rfl) h))

theorem kept_chkLast (hk : Keeps P 0x2) {s : State} {core : Nat} {unit : Nat} {outcome : Nat} {eunit : Nat} {injected : Bool} {digO : Nat} {ctx : Option (Nat × CmdRef)} (h : P s) :
    P (State.chkLast s core unit outcome eunit injected digO ctx) := by
  unfold State.chkLast
  extract_lets v0
  have k1 : P v0 := (kept_wr (hk.le rfl) (kept_wr (hk.le rfl) (kept_wr (hk.le rfl) (kept_wr (hk.le rfl) (kept_wr (hk.le rfl) (kept_wr (hk.le rfl) (kept_wr (hk.le rfl) h)))))))
  clear_value v0
  split
  · rename_i y2
    exact (kept_wr (hk.le rfl) (kept_wr (hk.le rfl) (kept_wr (hk.le rfl) k1)))
  · rename_i y3 y4 y5
    exact (kept_wr (hk.le rfl) (kept_wr (hk.le rfl) (kept_wr (hk.le rfl) k1)))

end Sys2Proof.Machine
end

