-- ==== Sys2Proof/Laws/KeptCores.lean ====
section
/-! SUPPORT. What the operations of power, the core threads, the checks and the memory system keep and change (`Keeps`), one lemma each. -/

set_option Elab.async false
namespace Sys2Proof.Machine
open Sys2Proof

variable {P : State → Prop}

theorem kept_setFeed (hk : Keeps P 0x40) {s : State} {x : Side} {f : Feed} (h : P s) :
    P (State.setFeed s x f) := by
  unfold State.setFeed
  split
  · rename_i y0
    exact (hk.upd h)
  · rename_i y1
    exact (hk.upd h)

theorem kept_sawVolts (hk : Keeps P 0x40) {s : State} {x : Side} {cv : Nat} (h : P s) :
    P (State.sawVolts s x cv) := by
  unfold State.sawVolts
  split
  · rename_i y0
    exact (hk.upd h)
  · rename_i y1
    exact (hk.upd h)

theorem kept_endProof (hk : Keeps P 0x252) {s : State} {p0 : Proof} {code : Nat} (h : P s) :
    P (State.endProof s p0 code) := by
  unfold State.endProof
  extract_lets v0 v1 v2 v3 v4 v5 v6
  have k7 : P v1 := (hk.upd h)
  have k8 : P v2 := by
    dsimp -zeta only [v2]
    split
    · rename_i y9 y10
      exact k7
    · rename_i y11 y12 y13
      exact (kept_endTicket (hk.le rfl) k7)
  have k14 : P v4 := (kept_ite (kept_note (hk.le rfl) k8) k8)
  have k15 : P v5 := (kept_ite (kept_note (hk.le rfl) k14) k14)
  clear_value v0 v1 v2 v3 v4 v5 v6
  exact (kept_ite (kept_note (hk.le rfl) (hk.upd k8)) (kept_ite (kept_alert (hk.le rfl) (hk.upd k15)) (kept_note (hk.le rfl) k8)))

theorem kept_abortProof (hk : Keeps P 0x252) {s : State} (h : P s) :
    P (State.abortProof s) := by
  unfold State.abortProof
  split
  · rename_i y0 y1
    exact h
  · rename_i y2 y3 y4
    exact (kept_endProof (hk.le rfl) h)

theorem kept_startProof (hk : Keeps P 0x41) {s : State} {ticket : Option Nat} (h : P s) :
    ∀ t, State.startProof s ticket = some t → P t := by
  intro t0 e0
  unfold State.startProof at e0
  split at e0
  · rename_i y0
    cases e0
    exact (kept_tick (hk.le rfl) (hk.upd h))
  · rename_i y1
    cases e0

theorem kept_lostRedundancy (hk : Keeps P 0x52) {s : State} (h : P s) :
    P (State.lostRedundancy s) := by
  unfold State.lostRedundancy
  exact (kept_ite h (kept_note (hk.le rfl) (kept_alert (hk.le rfl) h)))

theorem kept_startsAlone (hk : Keeps P 0x40) {s : State} (h : P s) :
    P (State.startsAlone s) := by
  unfold State.startsAlone
  refine kept_ite ?_ ?_
  · exact h
  · extract_lets v0 v1
    have k2 : P v0 := (kept_alert (hk.le rfl) h)
    clear_value v0 v1
    exact (hk.upd k2)

theorem kept_transferTo (hk : Keeps P 0x52) {s : State} {x : Side} (h : P s) :
    P (State.transferTo s x) := by
  unfold State.transferTo
  extract_lets v0
  clear_value v0
  exact (kept_ite (kept_lostRedundancy (hk.le rfl) (kept_setFeed (hk.le rfl) h)) h)

theorem kept_stageJoins (hk : Keeps P 0xc2) {s : State} {x : Side} {f : Feed} (h : P s) :
    P (State.stageJoins s x f) := by
  unfold State.stageJoins
  refine kept_ite ?_ ?_
  · exact (kept_setFeed (hk.le rfl) h)
  · extract_lets v0 v1 v2 v3 v4
    have k5 : P v0 := (kept_setFeed (hk.le rfl) h)
    have k6 : P v4 := (hk.upd k5)
    clear_value v0 v1 v2 v3 v4
    exact (kept_ite (kept_ite (kept_resumeStartup (hk.le rfl) (kept_startsAlone (hk.le rfl) k6)) k6) k6)

theorem kept_execFeedEntersRange (hk : Keeps P 0xe2) {feed : Side} {cv : Nat} {s : State} (h : P s) :
    ∃ t, execFeedEntersRange feed cv s = .next t ∧ P t := by
  unfold execFeedEntersRange
  refine ⟨_, rfl, ?_⟩
  extract_lets v0 v1 v2 v3 v4 v5
  have k6 : P v2 := (kept_sawVolts (hk.le rfl) h)
  have k7 : P v5 := (hk.upd k6)
  clear_value v0 v1 v2 v3 v4 v5
  exact (kept_ite h (kept_ite (kept_setFeed (hk.le rfl) k7) (kept_stageJoins (hk.le rfl) k7)))

theorem kept_execFeedLeavesRange (hk : Keeps P 0x252) {feed : Side} {cv : Nat} {s : State} (h : P s) :
    ∃ t, execFeedLeavesRange feed cv s = .next t ∧ P t := by
  unfold execFeedLeavesRange
  refine ⟨_, rfl, ?_⟩
  extract_lets v0 v1 v2 v3 v4 v5 v6
  have k7 : P v1 := (kept_sawVolts (hk.le rfl) h)
  have k8 : P v2 := (kept_setFeed (hk.le rfl) k7)
  have k9 : P v3 := (kept_alert (hk.le rfl) k8)
  have k10 : P v5 := (hk.upd k9)
  have k11 : P v6 := (kept_note (hk.le rfl) k10)
  clear_value v0 v1 v2 v3 v4 v5 v6
  exact (kept_ite h (kept_transferTo (hk.le rfl) (kept_abortProof (hk.le rfl) k11)))

theorem kept_execStageFault (hk : Keeps P 0x252) {feed : Side} {s : State} (h : P s) :
    ∃ t, execStageFault feed s = .next t ∧ P t := by
  unfold execStageFault
  refine ⟨_, rfl, ?_⟩
  extract_lets v0 v1 v2 v3 v4 v5 v6
  have k7 : P v1 := (kept_setFeed (hk.le rfl) h)
  have k8 : P v3 := (hk.upd k7)
  have k9 : P v4 := (kept_note (hk.le rfl) k8)
  have k10 : P v6 := by
    dsimp -zeta only [v6]
    split
    · rename_i y11 y12
      exact k9
    · rename_i y13 y14 y15
      refine kept_ite ?_ ?_
      · split
        · rename_i y16
          exact (hk.upd k9)
        · rename_i y17
          exact (hk.upd k9)
      · split
        · rename_i y18
          exact (kept_endProof (hk.le rfl) k9)
        · rename_i y19
          exact (kept_endProof (hk.le rfl) k9)
  clear_value v0 v1 v2 v3 v4 v5 v6
  exact (kept_ite h (kept_transferTo (hk.le rfl) k10))

theorem kept_execStageFaultClears (hk : Keeps P 0xc2) {feed : Side} {s : State} (h : P s) :
    ∃ t, execStageFaultClears feed s = .next t ∧ P t := by
  unfold execStageFaultClears
  refine ⟨_, rfl, ?_⟩
  extract_lets v0
  clear_value v0
  exact (kept_ite h (kept_ite (kept_setFeed (hk.le rfl) h) (kept_stageJoins (hk.le rfl) h)))

theorem kept_execFeedReturnWaitExpires (hk : Keeps P 0x40) {feed : Side} {s : State} (h : P s) :
    ∃ t, execFeedReturnWaitExpires feed s = .next t ∧ P t := by
  unfold execFeedReturnWaitExpires
  refine ⟨_, rfl, ?_⟩
  extract_lets v0 v1 v2
  have k3 : P v1 := (kept_setFeed (hk.le rfl) h)
  clear_value v0 v1 v2
  exact (kept_ite (hk.upd k3) h)

theorem kept_share (hk : Keeps P 0x40) {s : State} (h : P s) :
    P (State.share s) := by
  unfold State.share
  extract_lets v0 v1 v2 v3 v4 v5
  have k6 : P v3 := (hk.upd h)
  have k7 : P v4 := (kept_alert (hk.le rfl) k6)
  clear_value v0 v1 v2 v3 v4 v5
  exact (kept_ite (hk.upd k7) k6)

theorem kept_execShareRampComplete (hk : Keeps P 0x40) {s : State} (h : P s) :
    ∃ t, execShareRampComplete s = .next t ∧ P t := by
  unfold execShareRampComplete
  refine ⟨_, rfl, ?_⟩
  exact (kept_ite (kept_share (hk.le rfl) (hk.upd h)) h)

theorem kept_execFeedRedundStartCheck (hk : Keeps P 0x52) {s : State} (h : P s) :
    ∃ t, execFeedRedundStartCheck s = .next t ∧ P t := by
  unfold execFeedRedundStartCheck
  refine ⟨_, rfl, ?_⟩
  refine kept_ite ?_ ?_
  · extract_lets v0 v1
    have k2 : P v1 := (hk.upd h)
    clear_value v0 v1
    exact (kept_ite k2 (kept_note (hk.le rfl) k2))
  · exact h

theorem kept_execFeedHealthHeartbeat (hk : Keeps P 0x40) {busRead : Bool} {s : State} (h : P s) :
    ∃ t, execFeedHealthHeartbeat s busRead = .next t ∧ P t := by
  unfold execFeedHealthHeartbeat
  refine ⟨_, rfl, ?_⟩
  refine kept_ite ?_ ?_
  · extract_lets v0 v1
    clear_value v0 v1
    exact (hk.upd h)
  · exact h

theorem kept_execMonPathLost (hk : Keeps P 0x52) {s : State} (h : P s) :
    ∃ t, execMonPathLost s = .next t ∧ P t := by
  unfold execMonPathLost
  refine ⟨_, rfl, ?_⟩
  exact (kept_ite (kept_alert (hk.le rfl) (kept_note (hk.le rfl) (hk.upd h))) h)

theorem kept_carryAlone (hk : Keeps P 0x40) {s : State} {x : Side} (h : P s) :
    P (State.carryAlone s x) := by
  unfold State.carryAlone
  extract_lets v0 v1
  clear_value v0 v1
  exact (kept_setFeed (hk.le rfl) (kept_setFeed (hk.le rfl) h))

theorem kept_execProofTestPhaseEnd (hk : Keeps P 0x252) {vmin : Nat} {tpk : Int} {s : State} (h : P s) :
    ∃ t, execProofTestPhaseEnd vmin tpk s = .next t ∧ P t := by
  unfold execProofTestPhaseEnd
  refine ⟨_, rfl, ?_⟩
  split
  · rename_i y0 y1
    exact h
  · rename_i y2 y3 y4
    extract_lets v5 v6
    clear_value v5 v6
    split
    · rename_i y7 y8
      exact (kept_carryAlone (hk.le rfl) (hk.upd h))
    · rename_i y9 y10
      exact (hk.upd h)
    · rename_i y11 y12
      exact (kept_share (hk.le rfl) (hk.upd h))
    · rename_i y13 y14
      exact (hk.upd h)
    · rename_i y15 y16
      exact (kept_carryAlone (hk.le rfl) (hk.upd h))
    · rename_i y17 y18
      exact (hk.upd h)
    · rename_i y19 y20
      exact (kept_share (hk.le rfl) (hk.upd h))
    · rename_i y21 y22
      exact (kept_endProof (hk.le rfl) h)

theorem kept_smbReply (hk : Keeps P 0x8) {s : State} {code : Nat} {value : Nat} (h : P s) :
    P (State.smbReply s code value) := by
  unfold State.smbReply
  exact (kept_emit (hk.le rfl) h)

theorem kept_smbWrite (hk : Keeps P 0x8) {s : State} {pecOk : Bool} {f : State → State} (h : P s) (hf : ∀ a0, P a0 → P (f a0)) :
    P (State.smbWrite s pecOk f) := by
  unfold State.smbWrite
  exact (kept_ite (hf _ h) (kept_emit (hk.le rfl) h))

theorem kept_execSmbStatus (hk : Keeps P 0x8) {s : State} (h : P s) :
    ∃ t, execSmbStatus s = .next t ∧ P t := by
  unfold execSmbStatus
  refine ⟨_, rfl, ?_⟩
  exact (kept_smbReply (hk.le rfl) h)

theorem kept_execSmbAlertClear (hk : Keeps P 0x48) {mask : Nat} {pecOk : Bool} {s : State} (h : P s) :
    ∃ t, execSmbAlertClear mask s pecOk = .next t ∧ P t := by
  unfold execSmbAlertClear
  refine ⟨_, rfl, ?_⟩
  exact (kept_smbWrite (hk.le rfl) h (fun x0 h1 => (kept_clearAlerts (hk.le rfl) h1)))

theorem kept_execSmbAlertMask (hk : Keeps P 0x48) {isWrite : Bool} {val : Nat} {pecOk : Bool} {s : State} (h : P s) :
    ∃ t, execSmbAlertMask isWrite val s pecOk = .next t ∧ P t := by
  unfold execSmbAlertMask
  refine ⟨_, rfl, ?_⟩
  exact (kept_ite (kept_smbWrite (hk.le rfl) h (fun x0 h1 => (hk.upd h1))) (kept_smbReply (hk.le rfl) h))

theorem kept_execFeedAV (hk : Keeps P 0x49) {s : State} (h : P s) :
    ∃ t, execFeedAV s = .next t ∧ P t := by
  unfold execFeedAV
  refine ⟨_, rfl, ?_⟩
  exact (kept_smbReply (hk.le rfl) (kept_tick (hk.le rfl) (hk.upd h)))

theorem kept_execFeedAI (hk : Keeps P 0x49) {s : State} (h : P s) :
    ∃ t, execFeedAI s = .next t ∧ P t := by
  unfold execFeedAI
  refine ⟨_, rfl, ?_⟩
  exact (kept_smbReply (hk.le rfl) (kept_tick (hk.le rfl) (hk.upd h)))

theorem kept_execFeedBV (hk : Keeps P 0x49) {s : State} (h : P s) :
    ∃ t, execFeedBV s = .next t ∧ P t := by
  unfold execFeedBV
  refine ⟨_, rfl, ?_⟩
  exact (kept_smbReply (hk.le rfl) (kept_tick (hk.le rfl) (hk.upd h)))

theorem kept_execFeedBI (hk : Keeps P 0x49) {s : State} (h : P s) :
    ∃ t, execFeedBI s = .next t ∧ P t := by
  unfold execFeedBI
  refine ⟨_, rfl, ?_⟩
  exact (kept_smbReply (hk.le rfl) (kept_tick (hk.le rfl) (hk.upd h)))

theorem kept_execInputPower (hk : Keeps P 0x49) {s : State} (h : P s) :
    ∃ t, execInputPower s = .next t ∧ P t := by
  unfold execInputPower
  refine ⟨_, rfl, ?_⟩
  exact (kept_smbReply (hk.le rfl) (kept_tick (hk.le rfl) (hk.upd h)))

theorem kept_execInletTemp (hk : Keeps P 0x49) {s : State} (h : P s) :
    ∃ t, execInletTemp s = .next t ∧ P t := by
  unfold execInletTemp
  refine ⟨_, rfl, ?_⟩
  exact (kept_smbReply (hk.le rfl) (kept_tick (hk.le rfl) (hk.upd h)))

theorem kept_execOutletTemp (hk : Keeps P 0x49) {s : State} (h : P s) :
    ∃ t, execOutletTemp s = .next t ∧ P t := by
  unfold execOutletTemp
  refine ⟨_, rfl, ?_⟩
  exact (kept_smbReply (hk.le rfl) (kept_tick (hk.le rfl) (hk.upd h)))

theorem kept_execHbCount (hk : Keeps P 0x8) {s : State} (h : P s) :
    ∃ t, execHbCount s = .next t ∧ P t := by
  unfold execHbCount
  refine ⟨_, rfl, ?_⟩
  exact (kept_smbReply (hk.le rfl) h)

theorem kept_execSmbProofTest (hk : Keeps P 0x49) {val : Nat} {pecOk : Bool} {s : State} (h : P s) :
    ∃ t, execSmbProofTest val s pecOk = .next t ∧ P t := by
  unfold execSmbProofTest
  refine ⟨_, rfl, kept_smbWrite (hk.le rfl) h fun z h2 => kept_ite ?_ h2⟩
  cases e : z.startProof none with
  | none => exact hk.upd h2
  | some t => exact kept_startProof (hk.le rfl) h2 _ e

theorem kept_execProofResult (hk : Keeps P 0x8) {s : State} (h : P s) :
    ∃ t, execProofResult s = .next t ∧ P t := by
  unfold execProofResult
  refine ⟨_, rfl, ?_⟩
  exact (kept_smbReply (hk.le rfl) h)

theorem kept_execPwrcycReason (hk : Keeps P 0x8) {s : State} (h : P s) :
    ∃ t, execPwrcycReason s = .next t ∧ P t := by
  unfold execPwrcycReason
  refine ⟨_, rfl, ?_⟩
  exact (kept_smbReply (hk.le rfl) h)

theorem kept_execSmbUnknownCommand (hk : Keeps P 0x8) {x0 : Nat} {s : State} (h : P s) :
    ∃ t, execSmbUnknownCommand x0 s = .next t ∧ P t := by
  unfold execSmbUnknownCommand
  refine ⟨_, rfl, ?_⟩
  exact (kept_emit (hk.le rfl) h)

theorem kept_execSmbAlertResponse (hk : Keeps P 0x8) {s : State} (h : P s) :
    ∃ t, execSmbAlertResponse s = .next t ∧ P t := by
  unfold execSmbAlertResponse
  refine ⟨_, rfl, ?_⟩
  exact (kept_ite (kept_emit (hk.le rfl) h) (kept_emit (hk.le rfl) h))

theorem kept_clockDown (hk : Keeps P 0x80) {s : State} {q0 : Nat} (h : P s) :
    P (State.clockDown s q0) := by
  unfold State.clockDown
  extract_lets v0
  clear_value v0
  exact (kept_setQuarter (hk.le rfl) h)

theorem kept_execComputeClockStep (hk : Keeps P 0xd2) {inlet : Int} {quarter : Nat} {s : State} (h : P s) :
    ∃ t, execComputeClockStep inlet quarter s = .next t ∧ P t := by
  unfold execComputeClockStep
  refine ⟨_, rfl, ?_⟩
  refine kept_ite ?_ ?_
  · extract_lets v0 v1 v2 v3
    have k4 : P v1 := (kept_alert (hk.le rfl) (hk.upd h))
    have k5 : P v2 := (kept_clockDown (hk.le rfl) k4)
    clear_value v0 v1 v2 v3
    exact (kept_ite k5 (kept_note (hk.le rfl) (hk.upd k5)))
  · exact h

theorem kept_execInletOverLimit (hk : Keeps P 0x272) {inlet : Int} {s : State} (h : P s) :
    ∃ t, execInletOverLimit inlet s = .next t ∧ P t := by
  unfold execInletOverLimit
  refine ⟨_, rfl, ?_⟩
  refine kept_ite ?_ ?_
  · extract_lets v0 v1 v2
    have k3 : P v1 := (kept_alert (hk.le rfl) (hk.upd h))
    have k4 : P v2 := (kept_alert (hk.le rfl) k3)
    clear_value v0 v1 v2
    refine kept_foldl ?_ ?_
    · exact k4
    · intro x5 x6 h7
      exact (kept_record (hk.le rfl) h7)
  · exact h

theorem kept_execInletRecovered (hk : Keeps P 0x42) {inlet : Int} {s : State} (h : P s) :
    ∃ t, execInletRecovered inlet s = .next t ∧ P t := by
  unfold execInletRecovered
  refine ⟨_, rfl, ?_⟩
  refine kept_ite ?_ ?_
  · refine kept_foldl ?_ ?_
    · exact (hk.upd h)
    · intro x0 x1 h2
      exact (kept_setSramOff (hk.le rfl) h2)
  · exact h

theorem kept_execInletBandChange (hk : Keeps P 0xc0) {inlet : Int} {s : State} (h : P s) :
    ∃ t, execInletBandChange inlet s = .next t ∧ P t := by
  unfold execInletBandChange
  refine ⟨_, rfl, ?_⟩
  exact (kept_ite (hk.upd h) (kept_alert (hk.le rfl) (hk.upd h)))

theorem kept_execPowerLimitClockStep (hk : Keeps P 0xc0) {watts : Nat} {quarter : Nat} {s : State} (h : P s) :
    ∃ t, execPowerLimitClockStep watts quarter s = .next t ∧ P t := by
  unfold execPowerLimitClockStep
  refine ⟨_, rfl, ?_⟩
  exact (kept_ite (kept_clockDown (hk.le rfl) (hk.upd h)) h)

theorem kept_execPowerCycleNotExecuted (hk : Keeps P 0x52) {s : State} (h : P s) :
    ∃ t, execPowerCycleNotExecuted s = .next t ∧ P t := by
  unfold execPowerCycleNotExecuted
  refine ⟨_, rfl, ?_⟩
  exact (kept_ite (kept_note (hk.le rfl) h) h)

theorem kept_execTrefLost (hk : Keeps P 0xd2) {s : State} (h : P s) :
    ∃ t, execTrefLost s = .next t ∧ P t := by
  unfold execTrefLost
  refine ⟨_, rfl, ?_⟩
  refine kept_ite ?_ ?_
  · extract_lets v0 v1 v2
    have k3 : P v1 := (hk.upd h)
    have k4 : P v2 := (kept_alert (hk.le rfl) (kept_wr (hk.le rfl) k3))
    clear_value v0 v1 v2
    exact (kept_note (hk.le rfl) k4)
  · exact (hk.upd h)

theorem kept_execTrefRestored (hk : Keeps P 0x82) {s : State} (h : P s) :
    ∃ t, execTrefRestored s = .next t ∧ P t := by
  unfold execTrefRestored
  refine ⟨_, rfl, ?_⟩
  exact (kept_ite h (kept_wr (hk.le rfl) (hk.upd h)))

theorem kept_execReferencesLost (hk : Keeps P 0xd2) {s : State} (h : P s) :
    ∃ t, execReferencesLost s = .next t ∧ P t := by
  unfold execReferencesLost
  refine ⟨_, rfl, ?_⟩
  refine kept_ite ?_ ?_
  · exact h
  · extract_lets v0 v1 v2
    have k3 : P v1 := (hk.upd h)
    have k4 : P v2 := (kept_wr (hk.le rfl) (kept_wr (hk.le rfl) k3))
    clear_value v0 v1 v2
    exact (kept_note (hk.le rfl) k4)

theorem kept_referenceBack (hk : Keeps P 0xc2) {s : State} {tref : Bool} (h : P s) :
    P (State.referenceBack s tref) := by
  unfold State.referenceBack
  refine kept_ite ?_ ?_
  · extract_lets v0 v1 v2
    have k3 : P v1 := (kept_ite (kept_wr (hk.le rfl) (hk.upd h)) (kept_alert (hk.le rfl) (kept_wr (hk.le rfl) (hk.upd h))))
    clear_value v0 v1 v2
    exact (kept_wr (hk.le rfl) (kept_wr (hk.le rfl) (hk.upd k3)))
  · exact (kept_ite (kept_wr (hk.le rfl) (hk.upd h)) (hk.upd h))

theorem kept_execPerstDeassert (hk : Keeps P 0x1040) {s : State} (h : P s) :
    ∃ t, execPerstDeassert s = .next t ∧ P t := by
  unfold execPerstDeassert
  refine ⟨_, rfl, ?_⟩
  exact (kept_ite (hk.upd h) h)

theorem kept_execCxlConfigRequest (hk : Keeps P 0x49) {off : Nat} {isWrite : Bool} {val : Nat} {s : State} (h : P s) :
    ∃ t, execCxlConfigRequest off isWrite val s = .next t ∧ P t := by
  unfold execCxlConfigRequest
  refine ⟨_, rfl, ?_⟩
  refine kept_ite ?_ ?_
  · exact h
  · extract_lets v0 v1
    have k2 : P v0 := (kept_tick (hk.le rfl) h)
    clear_value v0 v1
    exact (kept_ite (kept_ite (hk.upd k2) (kept_emit (hk.le rfl) k2)) (kept_emit (hk.le rfl) k2))

theorem kept_execTapBypass (hk : Keeps P 0x48) {s : State} (h : P s) :
    ∃ t, execTapBypass s = .next t ∧ P t := by
  unfold execTapBypass
  refine ⟨_, rfl, ?_⟩
  exact (kept_emit (hk.le rfl) (hk.upd h))

theorem kept_execTapIdcode (hk : Keeps P 0x48) {s : State} (h : P s) :
    ∃ t, execTapIdcode s = .next t ∧ P t := by
  unfold execTapIdcode
  refine ⟨_, rfl, ?_⟩
  exact (kept_emit (hk.le rfl) (hk.upd h))

theorem kept_tapTest (hk : Keeps P 0x48) {s : State} {scan : Nat} {i : TapInstr} {n0 : Nat} (h : P s) :
    P (State.tapTest s scan i n0) := by
  unfold State.tapTest
  exact (kept_ite (kept_emit (hk.le rfl) (hk.upd h)) (kept_emit (hk.le rfl) (hk.upd h)))

theorem kept_tapIf (hk : Keeps P 0x48) {s : State} {ok : Bool} {i : TapInstr} {n0 : Nat} (h : P s) :
    P (State.tapIf s ok i n0) := by
  unfold State.tapIf
  exact (kept_ite (kept_emit (hk.le rfl) (hk.upd h)) (kept_emit (hk.le rfl) (hk.upd h)))

theorem kept_execTapExtest (hk : Keeps P 0x48) {scan : Nat} {s : State} (h : P s) :
    ∃ t, execTapExtest s scan = .next t ∧ P t := by
  unfold execTapExtest
  refine ⟨_, rfl, ?_⟩
  exact (kept_tapTest (hk.le rfl) h)

theorem kept_execTapIntest (hk : Keeps P 0x48) {scan : Nat} {s : State} (h : P s) :
    ∃ t, execTapIntest s scan = .next t ∧ P t := by
  unfold execTapIntest
  refine ⟨_, rfl, ?_⟩
  exact (kept_tapTest (hk.le rfl) h)

theorem kept_execTapOtherInstruction (hk : Keeps P 0x48) {code : Nat} {s : State} (h : P s) :
    ∃ t, execTapOtherInstruction code s = .next t ∧ P t := by
  unfold execTapOtherInstruction
  refine ⟨_, rfl, ?_⟩
  exact (kept_tapIf (hk.le rfl) h)

theorem kept_stall (hk : Keeps P 0x400) {s : State} {c : Nat} {t0 : Nat} {st : ThrSt} {w : Wait} (h : P s) :
    P (State.stall s c t0 st w) := by
  unfold State.stall
  exact (kept_setThread (hk.le rfl) h)

theorem kept_next (hk : Keeps P 0x400) {s : State} {c : Nat} {t0 : Nat} {jump : Option Nat} (h : P s) :
    P (State.next s c t0 jump) := by
  unfold State.next
  extract_lets v0
  clear_value v0
  exact (kept_ite h (kept_setThread (hk.le rfl) h))

theorem kept_issue (hk : Keeps P 0x402) {s : State} {c : Nat} {t0 : Nat} {n0 : Needs} {run : State → State} (h : P s) (hrun : ∀ a0, P a0 → P (run a0)) :
    P (State.issue s c t0 n0 run) := by
  unfold State.issue
  refine kept_ite ?_ ?_
  · exact h
  · extract_lets v0 v1 v2 v3
    have k4 : P v3 := (kept_setThread (hk.le rfl) h)
    clear_value v0 v1 v2 v3
    exact (kept_ite (kept_stall (hk.le rfl) h) (kept_ite (kept_stall (hk.le rfl) h) (kept_ite (kept_stall (hk.le rfl) h) (kept_ite (kept_stall (hk.le rfl) h) (hrun _ (kept_bump (hk.le rfl) k4))))))

theorem kept_parityCount (hk : Keeps P 0x852) {s : State} {c : Nat} {charged : Bool} (h : P s) :
    P (State.parityCount s c charged) := by
  unfold State.parityCount
  exact (kept_charge (hk.le rfl) (kept_bump (hk.le rfl) h))

theorem kept_parityFatal (hk : Keeps P 0x767a) {s : State} {c : Nat} {t0 : Nat} {reg : Nat} (h : P s) :
    P (State.parityFatal s c t0 reg) := by
  unfold State.parityFatal
  extract_lets v0
  clear_value v0
  exact (kept_threadFault (hk.le rfl) (kept_record (hk.le rfl) h))

theorem kept_lineParity (hk : Keeps P 0x852) {s : State} {c : Nat} {t0 : Nat} (h : P s) :
    P (State.lineParity s c t0) := by
  unfold State.lineParity
  exact (kept_note (hk.le rfl) (kept_parityCount (hk.le rfl) h))

theorem kept_withParity (hk : Keeps P 0x7e7a) {s : State} {c : Nat} {t0 : Nat} {parity : ParityFinding} {run : State → State} (h : P s) (hrun : ∀ a0, P a0 → P (run a0)) :
    P (State.withParity s c t0 parity run) := by
  unfold State.withParity
  split
  · rename_i y0
    exact (hrun _ h)
  · rename_i y1 y2 y3
    extract_lets v4
    have k5 : P v4 := (kept_parityCount (hk.le rfl) h)
    clear_value v4
    exact (kept_ite (kept_parityFatal (hk.le rfl) k5) (hrun _ (kept_note (hk.le rfl) k5)))
  · rename_i y6
    exact (kept_parityFatal (hk.le rfl) (kept_parityCount (hk.le rfl) h))
  · rename_i y7
    exact (hrun _ h)

theorem kept_cacheParity (hk : Keeps P 0x852) {s : State} {c : Nat} {t0 : Nat} {parity : ParityFinding} {hit : Bool} {drop : State → State} (h : P s) (hdrop : ∀ a0, P a0 → P (drop a0)) :
    P (State.cacheParity s c t0 parity hit drop) := by
  unfold State.cacheParity
  exact (kept_ite (hdrop _ (kept_lineParity (hk.le rfl) h)) h)

theorem kept_retireInstr (hk : Keeps P 0x400) {s : State} {c : Nat} {t0 : Nat} {f : Thread → Thread} (h : P s) :
    P (State.retireInstr s c t0 f) := by
  unfold State.retireInstr
  exact (kept_next (hk.le rfl) (kept_setThread (hk.le rfl) h))

theorem kept_faultHere (hk : Keeps P 0x767a) {s : State} {c : Nat} {t0 : Nat} {fcode : Nat} (h : P s) :
    P (State.faultHere s c t0 fcode) := by
  unfold State.faultHere
  exact (kept_threadFault (hk.le rfl) h)

theorem kept_execScalarInstruction (hk : Keeps P 0x7e7a) {core : Nat} {thread : Nat} {op : ScalarOp} {parity : ParityFinding} {s : State} (h : P s) :
    ∃ t, execScalarInstruction core thread op parity s = .next t ∧ P t := by
  unfold execScalarInstruction
  refine ⟨_, rfl, ?_⟩
  refine kept_issue (hk.le rfl) h ?_
  intro x4 h5
  split
  · rename_i y6
    exact (kept_faultHere (hk.le rfl) h5)
  · rename_i y7
    exact (kept_faultHere (hk.le rfl) h5)
  · rename_i y8
    exact (kept_lineParity (hk.le rfl) h5)
  · rename_i y9 y10 y11 y12 y13
    exact (kept_withParity (hk.le rfl) h5 (fun x14 h15 => (kept_retireInstr (hk.le rfl) h15)))
  · rename_i y16 y17 y18 y19 y20
    exact (kept_withParity (hk.le rfl) h5 (fun x21 h22 => (kept_retireInstr (hk.le rfl) h22)))
  · rename_i y23 y24 y25 y26 y27 y28
    exact (kept_withParity (hk.le rfl) h5 (fun x29 h30 => (kept_retireInstr (hk.le rfl) h30)))
  · rename_i y31 y32 y33
    exact (kept_withParity (hk.le rfl) h5 (fun x34 h35 => (kept_retireInstr (hk.le rfl) h35)))
  · rename_i y36 y37 y38
    exact (kept_withParity (hk.le rfl) h5 (fun x39 h40 => (kept_retireInstr (hk.le rfl) h40)))
  · rename_i y41 y42 y43 y44 y45
    refine kept_withParity (hk.le rfl) h5 ?_
    intro x50 h51
    extract_lets v52
    clear_value v52
    exact (kept_ite (kept_next (hk.le rfl) h51) (kept_next (hk.le rfl) h51))

theorem kept_execVectorInstruction (hk : Keeps P 0x7e7a) {core : Nat} {thread : Nat} {op : VectorOp} {parity : ParityFinding} {s : State} (h : P s) :
    ∃ t, execVectorInstruction core thread op parity s = .next t ∧ P t := by
  unfold execVectorInstruction
  refine ⟨_, rfl, ?_⟩
  exact (kept_issue (hk.le rfl) h (fun x0 h1 => (kept_withParity (hk.le rfl) h1 (fun x2 h3 => (kept_retireInstr (hk.le rfl) h3)))))

theorem kept_execLaneReduction (hk : Keeps P 0x7e7a) {core : Nat} {thread : Nat} {op : RedOp} {fp : Bool} {rd : Nat} {ra : Nat} {pr : Nat} {parity : ParityFinding} {s : State} (h : P s) :
    ∃ t, execLaneReduction core thread op fp rd ra pr s parity = .next t ∧ P t := by
  unfold execLaneReduction
  refine ⟨_, rfl, ?_⟩
  exact (kept_issue (hk.le rfl) h (fun x0 h1 => (kept_withParity (hk.le rfl) h1 (fun x2 h3 => (kept_retireInstr (hk.le rfl) h3)))))

theorem kept_execCvt (hk : Keeps P 0x7e7a) {core : Nat} {thread : Nat} {rd : Nat} {rs : Nat} {ra : Nat} {src : Nat} {dst : Nat} {ctrl : Nat} {pr : Nat} {parity : ParityFinding} {s : State} (h : P s) :
    ∃ t, execCvt core thread rd rs ra src dst ctrl pr s parity = .next t ∧ P t := by
  unfold execCvt
  refine ⟨_, rfl, ?_⟩
  exact (kept_issue (hk.le rfl) h (fun x0 h1 => (kept_ite (kept_faultHere (hk.le rfl) h1) (kept_withParity (hk.le rfl) h1 (fun x2 h3 => (kept_retireInstr (hk.le rfl) h3))))))

theorem kept_execSrseed (hk : Keeps P 0x7e7a) {core : Nat} {thread : Nat} {rs : Nat} {parity : ParityFinding} {s : State} (h : P s) :
    ∃ t, execSrseed core thread rs s parity = .next t ∧ P t := by
  unfold execSrseed
  refine ⟨_, rfl, ?_⟩
  exact (kept_issue (hk.le rfl) h (fun x0 h1 => (kept_withParity (hk.le rfl) h1 (fun x2 h3 => (kept_retireInstr (hk.le rfl) h3)))))

theorem kept_allocEntry (hk : Keeps P 0x400) {s : State} {c : Nat} {t0 : Nat} {kind : SbKind} {dest : SbDest} {parts : List (Nat × List (BitVec 8))} {await : Nat} (h : P s) :
    P (State.allocEntry s c t0 kind dest parts await).1 := by
  unfold State.allocEntry
  extract_lets v0
  clear_value v0
  exact (kept_setCore (hk.le rfl) h)

theorem kept_releaseEntry (hk : Keeps P 0x1400) {s : State} {c : Nat} {tag : Nat} (h : P s) :
    P (State.releaseEntry s c tag) := by
  unfold State.releaseEntry
  extract_lets v0
  clear_value v0
  exact (kept_settle (hk.le rfl) (kept_setCore (hk.le rfl) h))

theorem kept_sfu (hk : Keeps P 0x7e7a) {s : State} {c : Nat} {t0 : Nat} {f : Sfu} {rd : Nat} {ra : Nat} {pr : Nat} {parity : ParityFinding} (h : P s) :
    P (State.sfu s c t0 f rd ra pr parity) := by
  unfold State.sfu
  refine kept_issue (hk.le rfl) h ?_
  intro x8 h9
  refine kept_withParity (hk.le rfl) h9 ?_
  intro x14 h15
  extract_lets v16 v17 v18
  clear_value v16 v17 v18
  exact (kept_next (hk.le rfl) (kept_allocEntry (hk.le rfl) h15))

theorem kept_execExp2 (hk : Keeps P 0x7e7a) {core : Nat} {thread : Nat} {rd : Nat} {ra : Nat} {pr : Nat} {parity : ParityFinding} {s : State} (h : P s) :
    ∃ t, execExp2 core thread rd ra pr s parity = .next t ∧ P t := by
  unfold execExp2
  refine ⟨_, rfl, ?_⟩
  exact (kept_sfu (hk.le rfl) h)

theorem kept_execLog2 (hk : Keeps P 0x7e7a) {core : Nat} {thread : Nat} {rd : Nat} {ra : Nat} {pr : Nat} {parity : ParityFinding} {s : State} (h : P s) :
    ∃ t, execLog2 core thread rd ra pr s parity = .next t ∧ P t := by
  unfold execLog2
  refine ⟨_, rfl, ?_⟩
  exact (kept_sfu (hk.le rfl) h)

theorem kept_execRcp (hk : Keeps P 0x7e7a) {core : Nat} {thread : Nat} {rd : Nat} {ra : Nat} {pr : Nat} {parity : ParityFinding} {s : State} (h : P s) :
    ∃ t, execRcp core thread rd ra pr s parity = .next t ∧ P t := by
  unfold execRcp
  refine ⟨_, rfl, ?_⟩
  exact (kept_sfu (hk.le rfl) h)

theorem kept_execRsqrt (hk : Keeps P 0x7e7a) {core : Nat} {thread : Nat} {rd : Nat} {ra : Nat} {pr : Nat} {parity : ParityFinding} {s : State} (h : P s) :
    ∃ t, execRsqrt core thread rd ra pr s parity = .next t ∧ P t := by
  unfold execRsqrt
  refine ⟨_, rfl, ?_⟩
  exact (kept_sfu (hk.le rfl) h)

theorem kept_execSqrt (hk : Keeps P 0x7e7a) {core : Nat} {thread : Nat} {rd : Nat} {ra : Nat} {pr : Nat} {parity : ParityFinding} {s : State} (h : P s) :
    ∃ t, execSqrt core thread rd ra pr s parity = .next t ∧ P t := by
  unfold execSqrt
  refine ⟨_, rfl, ?_⟩
  exact (kept_sfu (hk.le rfl) h)

theorem kept_execSin (hk : Keeps P 0x7e7a) {core : Nat} {thread : Nat} {rd : Nat} {ra : Nat} {pr : Nat} {parity : ParityFinding} {s : State} (h : P s) :
    ∃ t, execSin core thread rd ra pr s parity = .next t ∧ P t := by
  unfold execSin
  refine ⟨_, rfl, ?_⟩
  exact (kept_sfu (hk.le rfl) h)

theorem kept_execCos (hk : Keeps P 0x7e7a) {core : Nat} {thread : Nat} {rd : Nat} {ra : Nat} {pr : Nat} {parity : ParityFinding} {s : State} (h : P s) :
    ∃ t, execCos core thread rd ra pr s parity = .next t ∧ P t := by
  unfold execCos
  refine ⟨_, rfl, ?_⟩
  exact (kept_sfu (hk.le rfl) h)

theorem kept_execTanh (hk : Keeps P 0x7e7a) {core : Nat} {thread : Nat} {rd : Nat} {ra : Nat} {pr : Nat} {parity : ParityFinding} {s : State} (h : P s) :
    ∃ t, execTanh core thread rd ra pr s parity = .next t ∧ P t := by
  unfold execTanh
  refine ⟨_, rfl, ?_⟩
  exact (kept_sfu (hk.le rfl) h)

theorem kept_gotPart (hk : Keeps P 0x400) {s : State} {c : Nat} {tag : Nat} {part : Nat} {skip : Nat} {len : Nat} {g : Got} (h : P s) :
    P (State.gotPart s c tag part skip len g) := by
  unfold State.gotPart
  split
  · rename_i y0 y1
    exact (kept_fillEntry (hk.le rfl) h)
  · rename_i y2 y3
    exact h
  · rename_i y4 y5
    exact h

theorem kept_sramEcc (hk : Keeps P 0x272) {s : State} {src : Nat} {index : Nat} {kind : Nat} {addr : Nat} {ecc : EccFinding} {ctx : Option Nat} {run : State → State} {lost : State → State} (h : P s) (hrun : ∀ a0, P a0 → P (run a0)) (hlost : ∀ a0, P a0 → P (lost a0)) :
    P (State.sramEcc s src index kind addr ecc ctx run lost) := by
  unfold State.sramEcc
  split
  · rename_i y0 y1
    exact (hrun _ h)
  · rename_i y2 y3 y4
    exact (hrun _ (kept_note (hk.le rfl) h))
  · rename_i y5 y6
    exact (hlost _ (kept_record (hk.le rfl) h))

theorem kept_threadEcc (hk : Keeps P 0x767a) {s : State} {c : Nat} {t0 : Nat} {kind : Nat} {addr : Nat} {ecc : EccFinding} {run : State → State} (h : P s) (hrun : ∀ a0, P a0 → P (run a0)) :
    P (State.threadEcc s c t0 kind addr ecc run) := by
  unfold State.threadEcc
  exact (kept_sramEcc (hk.le rfl) h (fun x0 h1 => (hrun _ h1)) (fun x2 h3 => (kept_faultHere (hk.le rfl) h3)))

theorem kept_storeLoad (hk : Keeps P 0x548c) {s : State} {c : Nat} {t0 : Nat} {dest : SbDest} {reqs : List (Nat × Nat × Nat)} (h : P s) :
    P (State.storeLoad s c t0 dest reqs) := by
  unfold State.storeLoad
  extract_lets v0
  clear_value v0
  split
  · rename_i y1 y2 y3 y4
    have k5 : P y2 := by
      have e6 := congrArg Prod.fst y4
      dsimp only at e6
      rw [← e6]
      exact (kept_allocEntry (hk.le rfl) h)
    refine kept_next (hk.le rfl) ?_
    refine kept_foldl ?_ ?_
    · exact k5
    · intro x7 x8 h9
      split
      · rename_i y10 y11 y12 y13
        have k14 : P y11 := by
          have e15 := congrArg Prod.fst y13
          dsimp only at e15
          rw [← e15]
          exact (kept_localAccess (hk.le rfl) h9)
        exact (kept_gotPart (hk.le rfl) k14)

theorem kept_storeStore (hk : Keeps P 0x548c) {s : State} {c : Nat} {t0 : Nat} {reqs : List (Nat × List (BitVec 8))} (h : P s) :
    P (State.storeStore s c t0 reqs) := by
  unfold State.storeStore
  extract_lets v0
  clear_value v0
  refine kept_next (hk.le rfl) ?_
  refine kept_foldl ?_ ?_
  · exact h
  · intro x1 x2 h3
    exact (kept_localAccess (hk.le rfl) h3)

theorem kept_execCoreStoreLoad (hk : Keeps P 0x7efe) {core : Nat} {thread : Nat} {acc : AccessForm} {ecc : EccFinding} {parity : ParityFinding} {s : State} (h : P s) :
    ∃ t, execCoreStoreLoad core thread acc ecc s parity = .next t ∧ P t := by
  unfold execCoreStoreLoad
  refine ⟨_, rfl, ?_⟩
  refine kept_issue (hk.le rfl) h ?_
  intro x8 h9
  refine kept_withParity (hk.le rfl) h9 ?_
  intro x14 h15
  extract_lets v16 v17
  clear_value v16 v17
  exact (kept_ite (kept_threadFault (hk.le rfl) h15) (kept_ite (kept_threadFault (hk.le rfl) h15) (kept_threadEcc (hk.le rfl) h15 (fun x18 h19 => (kept_storeLoad (hk.le rfl) h19)))))

theorem kept_execCoreStoreStore (hk : Keeps P 0x7efe) {core : Nat} {thread : Nat} {acc : AccessForm} {parity : ParityFinding} {s : State} (h : P s) :
    ∃ t, execCoreStoreStore core thread acc s parity = .next t ∧ P t := by
  unfold execCoreStoreStore
  refine ⟨_, rfl, ?_⟩
  refine kept_issue (hk.le rfl) h ?_
  intro x8 h9
  refine kept_withParity (hk.le rfl) h9 ?_
  intro x14 h15
  extract_lets v16 v17
  clear_value v16 v17
  exact (kept_ite (kept_threadFault (hk.le rfl) h15) (kept_ite (kept_threadFault (hk.le rfl) h15) (kept_storeStore (hk.le rfl) h15)))

theorem kept_execQuarterStoreAccess (hk : Keeps P 0x7efe) {core : Nat} {thread : Nat} {isStore : Bool} {acc : AccessForm} {ecc : EccFinding} {parity : ParityFinding} {s : State} (h : P s) :
    ∃ t, execQuarterStoreAccess core thread isStore acc ecc s parity = .next t ∧ P t := by
  unfold execQuarterStoreAccess
  refine ⟨_, rfl, ?_⟩
  refine kept_issue (hk.le rfl) h ?_
  intro x8 h9
  refine kept_withParity (hk.le rfl) h9 ?_
  intro x14 h15
  extract_lets v16 v17 v18
  clear_value v16 v17 v18
  exact (kept_ite (kept_threadFault (hk.le rfl) h15) (kept_ite (kept_threadFault (hk.le rfl) h15) (kept_ite (kept_storeStore (hk.le rfl) h15) (kept_threadEcc (hk.le rfl) h15 (fun x19 h20 => (kept_storeLoad (hk.le rfl) h20))))))

theorem kept_eccFound (hk : Keeps P 0x1052) {s : State} {off : Nat} {ecc : EccFinding} {ctx : Option Nat} (h : P s) :
    P (State.eccFound s off ecc ctx) := by
  unfold State.eccFound
  refine kept_ite ?_ ?_
  · exact h
  · split
    · rename_i y0 y1
      exact h
    · rename_i y2 y3 y4
      exact (kept_note (hk.le rfl) (kept_bump (hk.le rfl) h))
    · rename_i y5 y6
      exact (kept_ite h (kept_bump (hk.le rfl) (hk.upd h)))

theorem kept_homeEcc (hk : Keeps P 0x767a) {s : State} {c : Nat} {t0 : Nat} {k0 : MemKind} {ga : Nat} {ecc : EccFinding} {run : State → State} (h : P s) (hrun : ∀ a0, P a0 → P (run a0)) :
    P (State.homeEcc s c t0 k0 ga ecc run) := by
  unfold State.homeEcc
  extract_lets v0
  clear_value v0
  refine kept_ite ?_ ?_
  · exact (hrun _ h)
  · split
    · rename_i y1 y2 y3
      exact (kept_threadEcc (hk.le rfl) h (fun x4 h5 => (hrun _ h5)))
    · rename_i y6 y7
      exact (hrun _ (kept_eccFound (hk.le rfl) h))

theorem kept_poisonEvent (hk : Keeps P 0x272) {s : State} {off : Nat} {x : Source} (h : P s) :
    P (State.poisonEvent s off x) := by
  unfold State.poisonEvent
  exact (kept_record (hk.le rfl) h)

theorem kept_threadAccess (hk : Keeps P 0x76fe) {s : State} {x : Source} {k0 : MemKind} {ga : Nat} {dst : ReqDst} {fetch : Bool} (h : P s) :
    P (State.threadAccess s x k0 ga dst fetch).1 := by
  unfold State.threadAccess
  split
  · rename_i y0 y1 y2 y3
    have k4 : P y1 := by
      have e5 := congrArg Prod.fst y3
      dsimp only at e5
      rw [← e5]
      exact (kept_tryAccess (hk.le rfl) h)
    extract_lets v6
    have k7 : P v6 := (kept_ite (kept_poisonEvent (hk.le rfl) k4) k4)
    clear_value v6
    exact (kept_failSource (hk.le rfl) k7)
  · rename_i y8 y9
    exact (kept_tryAccess (hk.le rfl) h)

theorem kept_loadPart (hk : Keeps P 0x76ff) {s : State} {x : Source} {tag : Nat} {part : Nat} {ga : Nat} {n0 : Nat} {bypass : Bool} (h : P s) :
    P (State.loadPart s x tag part ga n0 bypass) := by
  unfold State.loadPart
  extract_lets v0 v1 v2 v3 v4 v5
  have k6 : P v2 := (kept_bump (hk.le rfl) h)
  clear_value v0 v1 v2 v3 v4 v5
  refine kept_ite ?_ ?_
  · split
    · rename_i y7 y8 y9
      exact (kept_fillEntry (hk.le rfl) (kept_bump (hk.le rfl) h))
    · rename_i y10 y11
      refine kept_ite ?_ ?_
      · split
        · rename_i y12 y13 y14 y15
          have k16 : P y13 := by
            have e17 := congrArg Prod.fst y15
            dsimp only at e17
            rw [← e17]
            exact (kept_threadAccess (hk.le rfl) k6)
          split
          · rename_i y18 y19
            extract_lets v20
            have k21 : P v20 := (kept_gotPart (hk.le rfl) k16)
            clear_value v20
            split
            · rename_i y22 y23 y24
              exact (kept_installLines (hk.le rfl) k21)
            · rename_i y25 y26
              exact k21
          · rename_i y27 y28
            exact k16
      · split
        · rename_i y29 y30 y31 y32
          have k33 : P y30 := by
            have e34 := congrArg Prod.fst y32
            dsimp only at e34
            rw [← e34]
            exact (kept_threadAccess (hk.le rfl) k6)
          exact (kept_gotPart (hk.le rfl) k33)
  · split
    · rename_i y35 y36 y37 y38
      have k39 : P y36 := by
        have e40 := congrArg Prod.fst y38
        dsimp only at e40
        rw [← e40]
        exact (kept_threadAccess (hk.le rfl) h)
      exact (kept_gotPart (hk.le rfl) k39)

theorem kept_askLoad (hk : Keeps P 0x76ff) {s : State} {x : Source} {tag : Nat} {part : Nat} {ga : Nat} {n0 : Nat} {bypass : Bool} (h : P s) :
    P (State.askLoad s x tag part ga n0 bypass) := by
  unfold State.askLoad
  exact (kept_ite (kept_hold (hk.le rfl) h) (kept_loadPart (hk.le rfl) h))

theorem kept_dropLines (hk : Keeps P 0x1400) {s : State} {c : Nat} {ga : Nat} {n0 : Nat} (h : P s) :
    P (State.dropLines s c ga n0) := by
  unfold State.dropLines
  refine kept_ite ?_ ?_
  · exact h
  · extract_lets v0 v1 v2 v3
    have k4 : P v2 := (kept_setCore (hk.le rfl) h)
    clear_value v0 v1 v2 v3
    exact (hk.upd k4)

theorem kept_execGlobalLoad (hk : Keeps P 0x7eff) {core : Nat} {thread : Nat} {acc : AccessForm} {ecc : EccFinding} {parity : ParityFinding} {s : State} (h : P s) :
    ∃ t, execGlobalLoad core thread acc ecc s parity = .next t ∧ P t := by
  unfold execGlobalLoad
  refine ⟨_, rfl, ?_⟩
  refine kept_issue (hk.le rfl) h ?_
  intro x8 h9
  refine kept_withParity (hk.le rfl) h9 ?_
  intro x14 h15
  extract_lets v16 v17 v18 v19 v20 v21
  have k22 : P v20 := (kept_cacheParity (hk.le rfl) h15 (fun x23 h24 => (kept_dropLines (hk.le rfl) h24)))
  have k25 : ∀ b26, P b26 → P (v21 b26) := by
    intro h29 h30
    dsimp -zeta only [v21]
    exact (kept_next (hk.le rfl) (kept_askLoad (hk.le rfl) (kept_allocEntry (hk.le rfl) h30)))
  clear_value v16 v17 v18 v19 v20 v21
  exact (kept_ite (kept_threadFault (hk.le rfl) h15) (kept_ite (k25 _ k22) (kept_homeEcc (hk.le rfl) k22 (fun x31 h32 => (k25 _ h32)))))

theorem kept_storeGlobal (hk : Keeps P 0x76fe) {s : State} {x : Source} {parts : List (Nat × List (BitVec 8))} (h : P s) :
    P (State.storeGlobal s x parts) := by
  unfold State.storeGlobal
  refine kept_foldl ?_ ?_
  · exact h
  · intro x0 x1 h2
    split
    · rename_i y3 y4 y5
      exact (kept_ite (kept_hold (hk.le rfl) h2) (kept_threadAccess (hk.le rfl) (kept_dropLines (hk.le rfl) h2)))

theorem kept_execGlobalStore (hk : Keeps P 0x7efe) {core : Nat} {thread : Nat} {acc : AccessForm} {ecc : EccFinding} {parity : ParityFinding} {s : State} (h : P s) :
    ∃ t, execGlobalStore core thread acc s ecc parity = .next t ∧ P t := by
  unfold execGlobalStore
  refine ⟨_, rfl, ?_⟩
  refine kept_issue (hk.le rfl) h ?_
  intro x8 h9
  refine kept_withParity (hk.le rfl) h9 ?_
  intro x14 h15
  extract_lets v16 v17
  clear_value v16 v17
  exact (kept_ite (kept_threadFault (hk.le rfl) h15) (kept_homeEcc (hk.le rfl) h15 (fun x18 h19 => (kept_next (hk.le rfl) (kept_storeGlobal (hk.le rfl) h19)))))

theorem kept_loadLanes (hk : Keeps P 0x76ff) {s : State} {x : Source} {tag : Nat} {ls : List (Nat × Nat)} (h : P s) :
    P (State.loadLanes s x tag ls) := by
  unfold State.loadLanes
  refine kept_foldl ?_ ?_
  · exact h
  · intro x0 x1 h2
    split
    · rename_i y3 y4 y5
      exact (kept_askLoad (hk.le rfl) h2)

theorem kept_laneEcc (hk : Keeps P 0x767a) {s : State} {c : Nat} {t0 : Nat} {sp : MemSpace} {k0 : MemKind} {ls : List (Nat × Nat)} {run : State → State} {x7 : List (Nat × EccFinding)} (h : P s) (hrun : ∀ a0, P a0 → P (run a0)) :
    P (State.laneEcc s c t0 sp k0 ls run x7) := by
  unfold State.laneEcc
  split
  · rename_i y0
    exact (hrun _ h)
  · rename_i y1 y2 y3 y4
    extract_lets v5
    have k6 : ∀ b7, P b7 → P (v5 b7) := (fun x8 h9 => (kept_laneEcc (hk.le rfl) h9 (fun x10 h11 => (hrun _ h11))))
    clear_value v5
    split
    · rename_i y12 y13
      exact (k6 _ h)
    · rename_i y14 y15 y16
      split
      · rename_i y17
        exact (kept_threadEcc (hk.le rfl) h (fun x18 h19 => (k6 _ h19)))
      · rename_i y20
        exact (kept_threadEcc (hk.le rfl) h (fun x21 h22 => (k6 _ h22)))
      · rename_i y23
        exact (kept_homeEcc (hk.le rfl) h (fun x24 h25 => (k6 _ h25)))

theorem kept_execGather (hk : Keeps P 0x7eff) {core : Nat} {thread : Nat} {sp : MemSpace} {rd : Nat} {ra : Nat} {base : Nat} {pr : Nat} {ecc : List (Nat × EccFinding)} {parity : ParityFinding} {s : State} (h : P s) :
    ∃ t, execGather core thread sp rd ra base pr s ecc parity = .next t ∧ P t := by
  unfold execGather
  refine ⟨_, rfl, ?_⟩
  refine kept_issue (hk.le rfl) h ?_
  intro x8 h9
  refine kept_withParity (hk.le rfl) h9 ?_
  intro x14 h15
  extract_lets v16 v17 v18 v19 v20
  have k21 : P v19 := by
    dsimp -zeta only [v19]
    refine kept_cacheParity (hk.le rfl) h15 ?_
    intro x28 h29
    refine kept_foldl ?_ ?_
    · exact h29
    · intro x30 x31 h32
      exact (kept_dropLines (hk.le rfl) h32)
  clear_value v16 v17 v18 v19 v20
  split
  · rename_i y33 y34 y35 y36
    exact (kept_threadFault (hk.le rfl) h15)
  · rename_i y37 y38
    refine kept_laneEcc (hk.le rfl) k21 ?_
    intro x43 h44
    split
    · rename_i y45
      split
      · rename_i y46 y47 y48 y49
        have k50 : P y47 := by
          have e51 := congrArg Prod.fst y49
          dsimp only at e51
          rw [← e51]
          exact (kept_allocEntry (hk.le rfl) h44)
        exact (kept_next (hk.le rfl) (kept_loadLanes (hk.le rfl) k50))
    · rename_i y52 y53
      exact (kept_storeLoad (hk.le rfl) h44)

theorem kept_execScatter (hk : Keeps P 0x7efe) {core : Nat} {thread : Nat} {sp : MemSpace} {rs : Nat} {ra : Nat} {base : Nat} {pr : Nat} {ecc : List (Nat × EccFinding)} {parity : ParityFinding} {s : State} (h : P s) :
    ∃ t, execScatter core thread sp rs ra base pr s ecc parity = .next t ∧ P t := by
  unfold execScatter
  refine ⟨_, rfl, ?_⟩
  refine kept_issue (hk.le rfl) h ?_
  intro x8 h9
  refine kept_withParity (hk.le rfl) h9 ?_
  intro x14 h15
  extract_lets v16 v17 v18
  clear_value v16 v17 v18
  split
  · rename_i y19 y20 y21 y22
    exact (kept_threadFault (hk.le rfl) h15)
  · rename_i y23 y24
    refine kept_laneEcc (hk.le rfl) h15 ?_
    intro x29 h30
    split
    · rename_i y31
      exact (kept_next (hk.le rfl) (kept_storeGlobal (hk.le rfl) h30))
    · rename_i y32 y33
      exact (kept_storeStore (hk.le rfl) h30)

theorem kept_atomicLocal (hk : Keeps P 0x548c) {s : State} {c : Nat} {t0 : Nat} {acc : AtomicForm} {k0 : MemKind} {n0 : Nat} {home : Nat} (h : P s) :
    P (State.atomicLocal s c t0 acc k0 n0 home) := by
  unfold State.atomicLocal
  extract_lets v0 v1
  clear_value v0 v1
  split
  · rename_i y2 y3 y4 y5
    have k6 : P y3 := by
      have e7 := congrArg Prod.fst y5
      dsimp only at e7
      rw [← e7]
      exact (kept_allocEntry (hk.le rfl) h)
    split
    · rename_i y8 y9 y10 y11
      have k12 : P y9 := by
        have e13 := congrArg Prod.fst y11
        dsimp only at e13
        rw [← e13]
        exact (kept_localAccess (hk.le rfl) k6)
      exact (kept_next (hk.le rfl) (kept_gotPart (hk.le rfl) k12))

theorem kept_askAtom (hk : Keeps P 0x76fe) {s : State} {x : Source} {tag : Nat} {a : Nat} {len : Nat} {k0 : MemKind} {fetch : Bool} (h : P s) :
    P (State.askAtom s x tag a len k0 fetch) := by
  unfold State.askAtom
  refine kept_ite ?_ ?_
  · exact (kept_hold (hk.le rfl) h)
  · split
    · rename_i y0 y1 y2 y3
      have k4 : P y1 := by
        have e5 := congrArg Prod.fst y3
        dsimp only at e5
        rw [← e5]
        exact (kept_threadAccess (hk.le rfl) (kept_dropLines (hk.le rfl) h))
      exact (kept_gotPart (hk.le rfl) k4)

theorem kept_atomicGlobal (hk : Keeps P 0x76fe) {s : State} {c : Nat} {t0 : Nat} {acc : AtomicForm} {k0 : MemKind} {n0 : Nat} {a : Nat} (h : P s) :
    P (State.atomicGlobal s c t0 acc k0 n0 a) := by
  unfold State.atomicGlobal
  extract_lets v0
  clear_value v0
  split
  · rename_i y1 y2 y3 y4
    have k5 : P y2 := by
      have e6 := congrArg Prod.fst y4
      dsimp only at e6
      rw [← e6]
      exact (kept_allocEntry (hk.le rfl) h)
    exact (kept_next (hk.le rfl) (kept_askAtom (hk.le rfl) k5))

theorem kept_atomic (hk : Keeps P 0x7efe) {s : State} {c : Nat} {t0 : Nat} {op : AtomOp} {acc : AtomicForm} {ecc : EccFinding} {parity : ParityFinding} (h : P s) :
    P (State.atomic s c t0 op acc ecc parity) := by
  unfold State.atomic
  refine kept_issue (hk.le rfl) h ?_
  intro x8 h9
  refine kept_withParity (hk.le rfl) h9 ?_
  intro x14 h15
  extract_lets v16 v17 v18 v19
  clear_value v16 v17 v18 v19
  refine kept_ite ?_ ?_
  · exact (kept_threadFault (hk.le rfl) h15)
  · split
    · rename_i y20 y21
      exact (kept_ite (kept_threadEcc (hk.le rfl) h15 (fun x22 h23 => (kept_atomicLocal (hk.le rfl) h23))) (kept_threadFault (hk.le rfl) h15))
    · rename_i y24 y25
      exact (kept_ite (kept_threadEcc (hk.le rfl) h15 (fun x26 h27 => (kept_atomicLocal (hk.le rfl) h27))) (kept_threadFault (hk.le rfl) h15))
    · rename_i y28 y29
      exact (kept_homeEcc (hk.le rfl) h15 (fun x30 h31 => (kept_atomicGlobal (hk.le rfl) h31)))

theorem kept_execAdd64 (hk : Keeps P 0x7efe) {core : Nat} {thread : Nat} {acc : AtomicForm} {ecc : EccFinding} {parity : ParityFinding} {s : State} (h : P s) :
    ∃ t, execAdd64 core thread acc s ecc parity = .next t ∧ P t := by
  unfold execAdd64
  refine ⟨_, rfl, ?_⟩
  exact (kept_atomic (hk.le rfl) h)

theorem kept_execCas64 (hk : Keeps P 0x7efe) {core : Nat} {thread : Nat} {acc : AtomicForm} {ecc : EccFinding} {parity : ParityFinding} {s : State} (h : P s) :
    ∃ t, execCas64 core thread acc s ecc parity = .next t ∧ P t := by
  unfold execCas64
  refine ⟨_, rfl, ?_⟩
  exact (kept_atomic (hk.le rfl) h)

theorem kept_execMin64 (hk : Keeps P 0x7efe) {core : Nat} {thread : Nat} {acc : AtomicForm} {ecc : EccFinding} {parity : ParityFinding} {s : State} (h : P s) :
    ∃ t, execMin64 core thread acc s ecc parity = .next t ∧ P t := by
  unfold execMin64
  refine ⟨_, rfl, ?_⟩
  exact (kept_atomic (hk.le rfl) h)

theorem kept_execMax64 (hk : Keeps P 0x7efe) {core : Nat} {thread : Nat} {acc : AtomicForm} {ecc : EccFinding} {parity : ParityFinding} {s : State} (h : P s) :
    ∃ t, execMax64 core thread acc s ecc parity = .next t ∧ P t := by
  unfold execMax64
  refine ⟨_, rfl, ?_⟩
  exact (kept_atomic (hk.le rfl) h)

theorem kept_execFadd32 (hk : Keeps P 0x7efe) {core : Nat} {thread : Nat} {acc : AtomicForm} {ecc : EccFinding} {parity : ParityFinding} {s : State} (h : P s) :
    ∃ t, execFadd32 core thread acc s ecc parity = .next t ∧ P t := by
  unfold execFadd32
  refine ⟨_, rfl, ?_⟩
  exact (kept_atomic (hk.le rfl) h)

theorem kept_runHeld (hk : Keeps P 0x76ff) {s : State} {x : Source} {w : HeldWork} (h : P s) :
    P (State.runHeld s x w) := by
  unfold State.runHeld
  split
  · rename_i y0 y1
    exact (kept_performReq (hk.le rfl) h)
  · rename_i y2 y3 y4 y5 y6 y7
    exact (kept_loadPart (hk.le rfl) h)
  · rename_i y8 y9 y10
    exact (kept_storeGlobal (hk.le rfl) h)
  · rename_i y11 y12 y13 y14 y15 y16
    exact (kept_askAtom (hk.le rfl) h)

theorem kept_drainHeld (hk : Keeps P 0x76ff) {s : State} {c : Nat} (h : P s) :
    P (State.drainHeld s c) := by
  unfold State.drainHeld
  refine kept_settle (hk.le rfl) ?_
  refine kept_foldl ?_ ?_
  · exact (kept_setCore (hk.le rfl) h)
  · intro x0 x1 h2
    exact (kept_ite h2 (kept_ite (kept_runHeld (hk.le rfl) h2) (kept_hold (hk.le rfl) h2)))

theorem kept_answerReq (hk : Keeps P 0x76ff) {s : State} {tag : Nat} {bs : List (BitVec 8)} (h : P s) :
    P (State.answerReq s tag bs) := by
  unfold State.answerReq
  split
  · rename_i y0 y1
    exact h
  · rename_i y2 y3 y4
    exact (kept_ite (kept_drainHeld (hk.le rfl) (kept_deliver (hk.le rfl) h)) (kept_deliver (hk.le rfl) h))

theorem kept_pushMatrix (hk : Keeps P 0x400) {s : State} {c : Nat} {t0 : Nat} {op : MatOp} {kind : SbKind} {src : Nat} (h : P s) :
    P (State.pushMatrix s c t0 op kind src).1 := by
  unfold State.pushMatrix
  extract_lets v0
  clear_value v0
  split
  · rename_i y1 y2 y3 y4
    have k5 : P y2 := by
      have e6 := congrArg Prod.fst y4
      dsimp only at e6
      rw [← e6]
      exact (kept_allocEntry (hk.le rfl) h)
    extract_lets v7
    clear_value v7
    exact (kept_setCore (hk.le rfl) k5)

theorem kept_execMload (hk : Keeps P 0x767a) {core : Nat} {thread : Nat} {spec : MloadSpec} {ecc : EccFinding} {s : State} (h : P s) :
    ∃ t, execMload core thread spec ecc s = .next t ∧ P t := by
  unfold execMload
  refine ⟨_, rfl, ?_⟩
  refine kept_issue (hk.le rfl) h ?_
  intro x4 h5
  extract_lets v6
  clear_value v6
  refine kept_ite ?_ ?_
  · exact (kept_faultHere (hk.le rfl) h5)
  · refine kept_ite ?_ ?_
    · exact (kept_threadFault (hk.le rfl) h5)
    · refine kept_ite ?_ ?_
      · exact (kept_threadFault (hk.le rfl) h5)
      · refine kept_ite ?_ ?_
        · exact (kept_threadFault (hk.le rfl) h5)
        · refine kept_threadEcc (hk.le rfl) h5 ?_
          intro x19 h20
          extract_lets v21
          have k22 : P v21 := (kept_pushMatrix (hk.le rfl) h20)
          clear_value v21
          exact (kept_next (hk.le rfl) (kept_setCore (hk.le rfl) k22))

theorem kept_execMma (hk : Keeps P 0x767a) {core : Nat} {thread : Nat} {spec : MmaSpec} {s : State} (h : P s) :
    ∃ t, execMma core thread spec s = .next t ∧ P t := by
  unfold execMma
  refine ⟨_, rfl, ?_⟩
  refine kept_issue (hk.le rfl) h ?_
  intro x4 h5
  extract_lets v6
  clear_value v6
  exact (kept_ite (kept_faultHere (hk.le rfl) h5) (kept_next (hk.le rfl) (kept_pushMatrix (hk.le rfl) h5)))

theorem kept_execMstore (hk : Keeps P 0x7e7a) {core : Nat} {thread : Nat} {spec : MstoreSpec} {ecc : EccFinding} {parity : ParityFinding} {s : State} (h : P s) :
    ∃ t, execMstore core thread spec ecc s parity = .next t ∧ P t := by
  unfold execMstore
  refine ⟨_, rfl, ?_⟩
  refine kept_issue (hk.le rfl) h ?_
  intro x4 h5
  refine kept_ite ?_ ?_
  · exact (kept_faultHere (hk.le rfl) h5)
  · refine kept_ite ?_ ?_
    · exact (kept_faultHere (hk.le rfl) h5)
    · split
      · rename_i y6 y7 y8
        exact (kept_threadFault (hk.le rfl) h5)
      · rename_i y9 y10
        refine kept_withParity (hk.le rfl) h5 ?_
        intro x19 h20
        refine kept_sramEcc (hk.le rfl) h20 ?_ (fun x25 h26 => h26)
        intro x27 h28
        extract_lets v29 v30 v31
        have k32 : P v29 := (kept_pushMatrix (hk.le rfl) h28)
        have k33 : P v31 := (kept_ite (kept_setThread (hk.le rfl) k32) k32)
        clear_value v29 v30 v31
        exact (kept_next (hk.le rfl) k33)

theorem kept_execBar (hk : Keeps P 0x767a) {core : Nat} {thread : Nat} {b : Nat} {n0 : Nat} {s : State} (h : P s) :
    ∃ t, execBar core thread b n0 s = .next t ∧ P t := by
  unfold execBar
  refine ⟨_, rfl, ?_⟩
  refine kept_issue (hk.le rfl) h ?_
  intro x4 h5
  extract_lets v6 v7 v8 v9 v10 v11
  have k12 : P v8 := (kept_next (hk.le rfl) h5)
  have k13 : P v10 := (kept_stall (hk.le rfl) k12)
  clear_value v6 v7 v8 v9 v10 v11
  split
  · rename_i y14 y15 y16
    exact (kept_ite (kept_threadFault (hk.le rfl) h5) (kept_ite (kept_setCore (hk.le rfl) k12) (kept_setCore (hk.le rfl) k13)))
  · rename_i y17 y18
    exact (kept_ite (kept_next (hk.le rfl) h5) (kept_setCore (hk.le rfl) k13))

theorem kept_execEwait (hk : Keeps P 0x7e7a) {core : Nat} {thread : Nat} {e0 : Nat} {rs : Nat} {parity : ParityFinding} {s : State} (h : P s) :
    ∃ t, execEwait core thread e0 rs s parity = .next t ∧ P t := by
  unfold execEwait
  refine ⟨_, rfl, ?_⟩
  refine kept_issue (hk.le rfl) h ?_
  intro x8 h9
  refine kept_withParity (hk.le rfl) h9 ?_
  intro x14 h15
  extract_lets v16 v17 v18
  have k19 : P v18 := (kept_next (hk.le rfl) h15)
  clear_value v16 v17 v18
  exact (kept_ite k19 (kept_stall (hk.le rfl) k19))

theorem kept_execEsignal (hk : Keeps P 0x7e7a) {core : Nat} {thread : Nat} {e0 : Nat} {isAdd : Bool} {rs : Nat} {parity : ParityFinding} {s : State} (h : P s) :
    ∃ t, execEsignal core thread e0 isAdd rs s parity = .next t ∧ P t := by
  unfold execEsignal
  refine ⟨_, rfl, ?_⟩
  refine kept_issue (hk.le rfl) h ?_
  intro x8 h9
  refine kept_withParity (hk.le rfl) h9 ?_
  intro x14 h15
  extract_lets v16
  clear_value v16
  exact (kept_updateEvent (hk.le rfl) (kept_next (hk.le rfl) h15))

theorem kept_execFenceAcq (hk : Keeps P 0x1402) {core : Nat} {thread : Nat} {s : State} (h : P s) :
    ∃ t, execFenceAcq core thread s = .next t ∧ P t := by
  unfold execFenceAcq
  refine ⟨_, rfl, ?_⟩
  exact (kept_issue (hk.le rfl) h (fun x0 h1 => (kept_settle (hk.le rfl) (kept_stall (hk.le rfl) (kept_next (hk.le rfl) h1)))))

theorem kept_execFenceRel (hk : Keeps P 0x1402) {core : Nat} {thread : Nat} {s : State} (h : P s) :
    ∃ t, execFenceRel core thread s = .next t ∧ P t := by
  unfold execFenceRel
  refine ⟨_, rfl, ?_⟩
  exact (kept_issue (hk.le rfl) h (fun x0 h1 => (kept_settle (hk.le rfl) (kept_stall (hk.le rfl) (kept_next (hk.le rfl) h1)))))

theorem kept_execYield (hk : Keeps P 0x402) {core : Nat} {thread : Nat} {s : State} (h : P s) :
    ∃ t, execYield core thread s = .next t ∧ P t := by
  unfold execYield
  refine ⟨_, rfl, ?_⟩
  exact (kept_issue (hk.le rfl) h (fun x0 h1 => (kept_retireInstr (hk.le rfl) h1)))

theorem kept_execYieldHoldExpires (hk : Keeps P 0x400) {core : Nat} {thread : Nat} {s : State} (h : P s) :
    ∃ t, execYieldHoldExpires core thread s = .next t ∧ P t := by
  unfold execYieldHoldExpires
  refine ⟨_, rfl, ?_⟩
  exact (kept_setThread (hk.le rfl) h)

theorem kept_execExit (hk : Keeps P 0x1402) {core : Nat} {thread : Nat} {s : State} (h : P s) :
    ∃ t, execExit core thread s = .next t ∧ P t := by
  unfold execExit
  refine ⟨_, rfl, ?_⟩
  exact (kept_issue (hk.le rfl) h (fun x0 h1 => (kept_settle (hk.le rfl) (kept_stall (hk.le rfl) h1))))

theorem kept_execLoadResultWritten (hk : Keeps P 0x1400) {core : Nat} {thread : Nat} {tag : Nat} {s : State} (h : P s) :
    ∃ t, execLoadResultWritten core thread tag s = .next t ∧ P t := by
  unfold execLoadResultWritten
  refine ⟨_, rfl, ?_⟩
  split
  · rename_i y0 y1
    exact h
  · rename_i y2 y3 y4
    exact (kept_ite (kept_releaseEntry (hk.le rfl) (kept_setThread (hk.le rfl) h)) h)

theorem kept_chkApply (hk : Keeps P 0x802) {s : State} (h : P s) :
    P (State.chkApply s) := by
  unfold State.chkApply
  exact (kept_wr (hk.le rfl) (hk.upd h))

theorem kept_tileBoundary (hk : Keeps P 0x802) {s : State} {c : Nat} (h : P s) :
    P (State.tileBoundary s c) := by
  unfold State.tileBoundary
  refine kept_ite ?_ ?_
  · exact h
  · extract_lets v0 v1
    clear_value v0 v1
    exact (kept_ite (kept_chkApply (hk.le rfl) h) (hk.upd h))

theorem kept_popMatrix (hk : Keeps P 0x7eff) {s : State} {c : Nat} {tag : Nat} (h : P s) :
    P (State.popMatrix s c tag) := by
  unfold State.popMatrix
  extract_lets v0 v1 v2
  clear_value v0 v1 v2
  exact (kept_when (hk.le rfl) (kept_settle (hk.le rfl) (kept_drainHeld (hk.le rfl) (kept_setCore (hk.le rfl) h))) (fun x3 h4 => (kept_tileBoundary (hk.le rfl) h4)))

theorem kept_execMloadBankFilled (hk : Keeps P 0x7eff) {core : Nat} {s : State} (h : P s) :
    ∃ t, execMloadBankFilled core s = .next t ∧ P t := by
  unfold execMloadBankFilled
  refine ⟨_, rfl, ?_⟩
  refine kept_ite ?_ ?_
  · exact h
  · split
    · rename_i y0 y1 y2
      split
      · rename_i y3 y4 y5
        extract_lets v6
        have k7 : P v6 := (kept_setCore (hk.le rfl) h)
        clear_value v6
        exact (kept_popMatrix (hk.le rfl) k7)
      · rename_i y8 y9
        exact h
    · rename_i y10 y11
      exact h

theorem kept_freeSibling (hk : Keeps P 0x400) {s : State} {sib : Nat} {ctx : Nat} {m0 : MmaSpec} (h : P s) :
    P (State.freeSibling s sib ctx m0) := by
  unfold State.freeSibling
  extract_lets v0 v1 v2
  clear_value v0 v1 v2
  exact (kept_setCore (hk.le rfl) h)

theorem kept_endTile (hk : Keeps P 0x7eff) {s : State} {c : Nat} {e0 : MatEntry} {m0 : MmaSpec} {tl : Tile} {outcome : Nat} {charges : Option (Nat × Nat)} {cause : Nat} (h : P s) :
    P (State.endTile s c e0 m0 tl outcome charges cause) := by
  unfold State.endTile
  extract_lets v0 v1 v2 v3 v4
  have k5 : P v1 := (kept_chkLast (hk.le rfl) h)
  have k6 : P v4 := by
    dsimp -zeta only [v4]
    split
    · rename_i y7 y8 y9
      exact (kept_freeSibling (hk.le rfl) k5)
    · rename_i y10 y11
      exact k5
  clear_value v0 v1 v2 v3 v4
  split
  · rename_i y12 y13 y14 y15
    extract_lets v16 v17 v18 v19 v20
    have k21 : P v16 := (kept_ite k6 (kept_charge (hk.le rfl) (kept_charge (hk.le rfl) k6)))
    have k22 : P v17 := (kept_when (hk.le rfl) k21 (fun x23 h24 => (kept_note (hk.le rfl) h24)))
    have k25 : P v19 := (kept_setCore (hk.le rfl) k22)
    have k26 : P v20 := (kept_popMatrix (hk.le rfl) k25)
    clear_value v16 v17 v18 v19 v20
    exact (kept_ite (kept_record (hk.le rfl) (kept_bump (hk.le rfl) k26)) (kept_note (hk.le rfl) k26))

theorem kept_acceptTile (hk : Keeps P 0x7eff) {s : State} {c : Nat} {e0 : MatEntry} {m0 : MmaSpec} {tl : Tile} {outcome : Nat} {charges : Option (Nat × Nat)} (h : P s) :
    P (State.acceptTile s c e0 m0 tl outcome charges) := by
  unfold State.acceptTile
  exact (kept_endTile (hk.le rfl) (kept_setCore (hk.le rfl) h))

theorem kept_tileVerdict (hk : Keeps P 0x3) {s : State} {k0 : Core} {b : Bank} {free : Nat} {m0 : MmaSpec} {vals : List (Nat × List (BitVec 32))} {e0 : Int} (h : P s) :
    P (State.tileVerdict s k0 b free m0 vals e0).1 := by
  unfold State.tileVerdict
  split
  · rename_i y0 y1 y2 y3
    extract_lets v4 v5 v6
    have k7 : P v6 := (kept_bump (hk.le rfl) (kept_tick (hk.le rfl) h))
    clear_value v4 v5 v6
    exact (kept_when (hk.le rfl) k7 (fun x8 h9 => (kept_bump (hk.le rfl) h9)))

theorem kept_execTileVerdict (hk : Keeps P 0x7eff) {core : Nat} {upset : List TileUpset} {residue : Int} {ecc : EccFinding} {s : State} (h : P s) :
    ∃ t, execTileVerdict core upset residue s ecc = .next t ∧ P t := by
  unfold execTileVerdict
  refine ⟨_, rfl, ?_⟩
  extract_lets v0
  clear_value v0
  split
  · rename_i y1 y2
    exact h
  · rename_i y3 y4 y5 y6
    extract_lets v7
    clear_value v7
    refine kept_ite ?_ ?_
    · exact h
    · refine kept_ite ?_ ?_
      · exact (kept_threadFault (hk.le rfl) h)
      · refine kept_sramEcc (hk.le rfl) h ?_ (fun x16 h17 => h17)
        intro x18 h19
        extract_lets v20 v21
        have k22 : P v21 := (kept_tick (hk.le rfl) h19)
        clear_value v20 v21
        split
        · rename_i y23 y24 y25 y26
          extract_lets v27 v28
          have k29 : P v27 := (kept_when (hk.le rfl) k22 (fun x30 h31 => (kept_wr (hk.le rfl) h31)))
          clear_value v27 v28
          split
          · rename_i y32 y33 y34 y35 y36
            have k37 : P y33 := by
              have e38 := congrArg Prod.fst y36
              dsimp only at e38
              rw [← e38]
              exact (kept_tileVerdict (hk.le rfl) k29)
            extract_lets v39 v40 v41 v42
            have k43 : P v39 := (kept_setCore (hk.le rfl) k37)
            have k44 : P v40 := (kept_bump (hk.le rfl) k43)
            clear_value v39 v40 v41 v42
            exact (kept_ite (kept_popMatrix (hk.le rfl) (kept_setCore (hk.le rfl) k43)) (kept_ite (kept_endTile (hk.le rfl) k44) (kept_ite (kept_setCore (hk.le rfl) (kept_bump (hk.le rfl) k44)) (kept_setCore (hk.le rfl) (kept_bump (hk.le rfl) k44)))))

theorem kept_execReplayVerdict (hk : Keeps P 0x7eff) {core : Nat} {upset : List TileUpset} {residue : Int} {ecc : EccFinding} {s : State} (h : P s) :
    ∃ t, execReplayVerdict core upset residue s ecc = .next t ∧ P t := by
  unfold execReplayVerdict
  refine ⟨_, rfl, ?_⟩
  extract_lets v0
  clear_value v0
  split
  · rename_i y1 y2 y3 y4 y5 y6 y7
    refine kept_ite ?_ ?_
    · exact h
    · refine kept_ite ?_ ?_
      · exact (kept_endTile (hk.le rfl) h)
      · refine kept_sramEcc (hk.le rfl) h ?_ (fun x16 h17 => h17)
        intro x18 h19
        extract_lets v20 v21 v22 v23
        clear_value v20 v21 v22 v23
        split
        · rename_i y24 y25 y26 y27 y28
          have k29 : P y25 := by
            have e30 := congrArg Prod.fst y28
            dsimp only at e30
            rw [← e30]
            exact (kept_tileVerdict (hk.le rfl) h19)
          extract_lets v31 v32 v33 v34
          have k35 : P v31 := (kept_when (hk.le rfl) k29 (fun x36 h37 => (kept_note (hk.le rfl) h37)))
          have k38 : P v32 := (kept_setCore (hk.le rfl) k35)
          clear_value v31 v32 v33 v34
          exact (kept_ite (kept_acceptTile (hk.le rfl) k38) (kept_ite (kept_acceptTile (hk.le rfl) k38) (kept_ite (kept_endTile (hk.le rfl) k38) (kept_setCore (hk.le rfl) (kept_bump (hk.le rfl) k38)))))
  · rename_i y39 y40 y41
    exact h

theorem kept_execSiblingStart (hk : Keeps P 0x7eff) {core : Nat} {uncorrectable : Bool} {s : State} (h : P s) :
    ∃ t, execSiblingStart core uncorrectable s = .next t ∧ P t := by
  unfold execSiblingStart
  refine ⟨_, rfl, ?_⟩
  extract_lets v0
  clear_value v0
  split
  · rename_i y1 y2 y3 y4 y5 y6 y7
    refine kept_ite ?_ ?_
    · exact h
    · split
      · rename_i y8 y9
        exact h
      · rename_i y10 y11 y12
        extract_lets v13 v14 v15 v16
        have k17 : P v15 := (kept_setCore (hk.le rfl) h)
        clear_value v13 v14 v15 v16
        exact (kept_ite (kept_endTile (hk.le rfl) k17) (kept_setCore (hk.le rfl) k17))
  · rename_i y18 y19 y20
    exact h

theorem kept_arbResidue (hk : Keeps P 0x52) {s : State} {x : Nat} {ctx : Nat} {void : Bool} {result : Nat} (h : P s) :
    P (State.arbResidue s x ctx void result) := by
  unfold State.arbResidue
  exact (kept_when (hk.le rfl) h (fun x0 h1 => (kept_note (hk.le rfl) h1)))

theorem kept_execArbiterVerdict (hk : Keeps P 0x7eff) {core : Nat} {upset : List TileUpset} {upset2 : List TileUpset} {residue : Int} {residue2 : Int} {s : State} (h : P s) :
    ∃ t, execArbiterVerdict core upset upset2 s residue residue2 = .next t ∧ P t := by
  unfold execArbiterVerdict
  refine ⟨_, rfl, ?_⟩
  extract_lets v0
  clear_value v0
  split
  · rename_i y1 y2 y3 y4 y5 y6 y7
    split
    · rename_i y8 y9 y10 y11 y12
      refine kept_ite ?_ ?_
      · exact h
      · extract_lets v13 v14 v15 v16
        clear_value v13 v14 v15 v16
        split
        · rename_i y17 y18 y19 y20 y21
          have k22 : P y18 := by
            have e23 := congrArg Prod.fst y21
            dsimp only at e23
            rw [← e23]
            exact (kept_tileVerdict (hk.le rfl) h)
          extract_lets v24 v25 v26 v27 v28 v29
          clear_value v24 v25 v26 v27 v28 v29
          split
          · rename_i y30 y31 y32 y33 y34
            have k35 : P y31 := by
              have e36 := congrArg Prod.fst y34
              dsimp only at e36
              rw [← e36]
              exact (kept_tileVerdict (hk.le rfl) k22)
            extract_lets v37 v38 v39 v40
            have k41 : P v37 := (kept_arbResidue (hk.le rfl) (kept_ite k35 k22))
            have k42 : P v38 := (kept_arbResidue (hk.le rfl) k41)
            have k43 : P v39 := (kept_setCore (hk.le rfl) k42)
            clear_value v37 v38 v39 v40
            exact (kept_ite (kept_endTile (hk.le rfl) k42) (kept_ite (kept_acceptTile (hk.le rfl) k43) (kept_setCore (hk.le rfl) k43)))
    · rename_i y44 y45 y46
      exact h
  · rename_i y47 y48 y49
    exact h

theorem kept_execResultTransferComplete (hk : Keeps P 0x7eff) {core : Nat} {digestOk : Bool} {s : State} (h : P s) :
    ∃ t, execResultTransferComplete core digestOk s = .next t ∧ P t := by
  unfold execResultTransferComplete
  refine ⟨_, rfl, ?_⟩
  extract_lets v0
  clear_value v0
  split
  · rename_i y1 y2 y3 y4 y5 y6 y7
    refine kept_ite ?_ ?_
    · exact h
    · refine kept_ite ?_ ?_
      · extract_lets v8
        have k9 : P v8 := (kept_setCore (hk.le rfl) h)
        clear_value v8
        exact (kept_acceptTile (hk.le rfl) k9)
      · exact (kept_ite (kept_setCore (hk.le rfl) h) (kept_endTile (hk.le rfl) h))
  · rename_i y10 y11 y12
    exact h

theorem kept_execArbWaitExpires (hk : Keeps P 0x7eff) {core : Nat} {s : State} (h : P s) :
    ∃ t, execArbWaitExpires core s = .next t ∧ P t := by
  unfold execArbWaitExpires
  refine ⟨_, rfl, ?_⟩
  extract_lets v0
  clear_value v0
  split
  · rename_i y1 y2 y3 y4 y5 y6 y7
    exact (kept_ite (kept_endTile (hk.le rfl) h) h)
  · rename_i y8 y9 y10
    exact h

theorem kept_abandonTile (hk : Keeps P 0x7eff) {s : State} {c : Nat} (h : P s) :
    P (State.abandonTile s c) := by
  unfold State.abandonTile
  extract_lets v0
  clear_value v0
  split
  · rename_i y1 y2 y3 y4 y5 y6 y7
    exact (kept_endTile (hk.le rfl) h)
  · rename_i y8 y9 y10 y11 y12 y13
    exact (kept_ite (kept_endTile (hk.le rfl) h) h)
  · rename_i y14 y15 y16
    exact (kept_setCore (hk.le rfl) h)

theorem kept_execMstoreComplete (hk : Keeps P 0x7eff) {core : Nat} {s : State} (h : P s) :
    ∃ t, execMstoreComplete core s = .next t ∧ P t := by
  unfold execMstoreComplete
  refine ⟨_, rfl, ?_⟩
  extract_lets v0 v1
  clear_value v0 v1
  refine kept_ite ?_ ?_
  · exact h
  · split
    · rename_i y2 y3 y4
      split
      · rename_i y5 y6 y7
        refine kept_ite ?_ ?_
        · exact h
        · refine kept_ite ?_ ?_
          · exact (kept_threadFault (hk.le rfl) h)
          · extract_lets v8
            have k9 : P v8 := by
              dsimp -zeta only [v8]
              refine kept_foldl ?_ ?_
              · exact h
              · intro x10 x11 h12
                exact (kept_putLocal (hk.le rfl) h12)
            clear_value v8
            exact (kept_popMatrix (hk.le rfl) k9)
      · rename_i y13 y14
        exact h
    · rename_i y15 y16
      exact h

theorem kept_execHeldWritePerformed (hk : Keeps P 0x76ff) {core : Nat} {s : State} (h : P s) :
    ∃ t, execHeldWritePerformed core s = .next t ∧ P t := by
  unfold execHeldWritePerformed
  refine ⟨_, rfl, ?_⟩
  exact (kept_drainHeld (hk.le rfl) h)

theorem kept_testFailed (hk : Keeps P 0x852) {s : State} {core : Nat} {u : Nat} {n0 : Nat} (h : P s) :
    P (State.testFailed s core u n0) := by
  unfold State.testFailed
  exact (kept_charge (hk.le rfl) (kept_note (hk.le rfl) (kept_chkLast (hk.le rfl) h)))

theorem kept_execCoreSelfTest (hk : Keeps P 0xc52) {core : Nat} {run1 : SelfTestRun} {run2 : SelfTestRun} {s : State} (h : P s) :
    ∃ t, execCoreSelfTest core run1 run2 s = .next t ∧ P t := by
  unfold execCoreSelfTest
  refine ⟨_, rfl, ?_⟩
  refine kept_ite ?_ ?_
  · exact h
  · extract_lets v0 v1 v2 v3 v4 v5
    have k6 : P v2 := (kept_setCore (hk.le rfl) h)
    have k7 : P v5 := by
      dsimp -zeta only [v5]
      refine kept_foldl ?_ ?_
      · exact k6
      · intro x8 x9 h10
        exact (kept_testFailed (hk.le rfl) h10)
    clear_value v0 v1 v2 v3 v4 v5
    exact (kept_ite k6 (kept_ite (kept_setRetire (hk.le rfl) k7) k7))

theorem kept_execHistoryFlashWrite (hk : Keeps P 0x852) {unit : Nat} {ok : Bool} {s : State} (h : P s) :
    ∃ t, execHistoryFlashWrite unit ok s = .next t ∧ P t := by
  unfold execHistoryFlashWrite
  refine ⟨_, rfl, ?_⟩
  extract_lets v0
  clear_value v0
  exact (kept_ite h (kept_ite (kept_setHist (hk.le rfl) h) (kept_note (hk.le rfl) h)))

theorem kept_execHistoryWriteRetry (hk : Keeps P 0x800) {unit : Nat} {ok : Bool} {s : State} (h : P s) :
    ∃ t, execHistoryWriteRetry unit ok s = .next t ∧ P t := by
  unfold execHistoryWriteRetry
  refine ⟨_, rfl, ?_⟩
  extract_lets v0
  clear_value v0
  exact (kept_ite (kept_setHist (hk.le rfl) h) h)

theorem kept_fellBelow (hk : Keeps P 0x272) {s : State} {q0 : Nat} {before : Nat} (h : P s) :
    P (State.fellBelow s q0 before) := by
  unfold State.fellBelow
  exact (kept_ite (kept_record (hk.le rfl) (kept_wr (hk.le rfl) h)) h)

theorem kept_execCoreRetired (hk : Keeps P 0xe72) {core : Nat} {s : State} (h : P s) :
    ∃ t, execCoreRetired core s = .next t ∧ P t := by
  unfold execCoreRetired
  refine ⟨_, rfl, ?_⟩
  extract_lets v0 v1 v2 v3
  have k4 : P v3 := (kept_setCore (hk.le rfl) (kept_setRetire (hk.le rfl) h))
  clear_value v0 v1 v2 v3
  exact (kept_ite h (kept_fellBelow (hk.le rfl) (kept_note (hk.le rfl) k4)))

theorem kept_chkCommit (hk : Keeps P 0x802) {s : State} (h : P s) :
    P (State.chkCommit s) := by
  unfold State.chkCommit
  extract_lets v0 v1
  clear_value v0 v1
  exact (kept_ite (kept_chkApply (hk.le rfl) h) (kept_wr (hk.le rfl) (hk.upd h)))

theorem kept_execChkCfgCommit (hk : Keeps P 0x882) {s : State} (h : P s) :
    ∃ t, execChkCfgCommit s = .next t ∧ P t := by
  unfold execChkCfgCommit
  refine ⟨_, rfl, ?_⟩
  exact (kept_chkCommit (hk.le rfl) (kept_leaveDormant (hk.le rfl) h))

theorem kept_injectWrite (hk : Keeps P 0x52) {s : State} {val : Nat} (h : P s) :
    P (State.injectWrite s val) := by
  unfold State.injectWrite
  exact (kept_ite (kept_when (hk.le rfl) (kept_wr (hk.le rfl) (kept_wr (hk.le rfl) h)) (fun x0 h1 => (kept_wr (hk.le rfl) h1))) (kept_noteOffset (hk.le rfl) h))

theorem kept_execChkInjectArm (hk : Keeps P 0xd2) {val : Nat} {s : State} (h : P s) :
    ∃ t, execChkInjectArm val s = .next t ∧ P t := by
  unfold execChkInjectArm
  refine ⟨_, rfl, ?_⟩
  exact (kept_injectWrite (hk.le rfl) (kept_leaveDormant (hk.le rfl) h))

theorem kept_gateCore (hk : Keeps P 0x400) {s : State} {c : Nat} {g : Core → Core} {finished : Bool} (h : P s) :
    P (State.gateCore s c g finished) := by
  unfold State.gateCore
  exact (kept_setCore (hk.le rfl) h)

theorem kept_execCoreClockGate (hk : Keeps P 0x400) {core : Nat} {cycles : Nat} {finished : Bool} {s : State} (h : P s) :
    ∃ t, execCoreClockGate core cycles s finished = .next t ∧ P t := by
  unfold execCoreClockGate
  refine ⟨_, rfl, ?_⟩
  extract_lets v0
  clear_value v0
  exact (kept_ite (kept_gateCore (hk.le rfl) h) h)

theorem kept_execCorePowerGate (hk : Keeps P 0x400) {core : Nat} {micros : Nat} {finished : Bool} {s : State} (h : P s) :
    ∃ t, execCorePowerGate core micros s finished = .next t ∧ P t := by
  unfold execCorePowerGate
  refine ⟨_, rfl, ?_⟩
  extract_lets v0
  clear_value v0
  exact (kept_ite (kept_gateCore (hk.le rfl) h) h)

theorem kept_execCoreWake (hk : Keeps P 0x400) {core : Nat} {s : State} (h : P s) :
    ∃ t, execCoreWake core s = .next t ∧ P t := by
  unfold execCoreWake
  refine ⟨_, rfl, ?_⟩
  exact (kept_ite h (kept_setCore (hk.le rfl) h))

theorem kept_execRemoteTimeout (hk : Keeps P 0x767a) {rtag : Nat} {s : State} (h : P s) :
    ∃ t, execRemoteTimeout rtag s = .next t ∧ P t := by
  unfold execRemoteTimeout
  refine ⟨_, rfl, ?_⟩
  split
  · rename_i y0 y1 y2
    exact (kept_failReq (hk.le rfl) h)
  · rename_i y3 y4
    exact h

theorem kept_poisonGranule (hk : Keeps P 0x1002) {s : State} {g : Nat} (h : P s) :
    P (State.poisonGranule s g) := by
  unfold State.poisonGranule
  exact (kept_ite h (kept_bump (hk.le rfl) (hk.upd h)))

theorem kept_execPatrolScrub (hk : Keeps P 0x1052) {granule : Nat} {ecc : EccFinding} {s : State} (h : P s) :
    ∃ t, execPatrolScrub granule ecc s = .next t ∧ P t := by
  unfold execPatrolScrub
  refine ⟨_, rfl, ?_⟩
  extract_lets v0
  clear_value v0
  refine kept_ite ?_ ?_
  · exact h
  · split
    · rename_i y1 y2
      exact h
    · rename_i y3 y4 y5
      exact (kept_note (hk.le rfl) (kept_bump (hk.le rfl) h))
    · rename_i y6 y7
      exact (kept_note (hk.le rfl) (kept_poisonGranule (hk.le rfl) h))

theorem kept_execSelfRefreshTimeout (hk : Keeps P 0x1052) {devices : Nat} {s : State} (h : P s) :
    ∃ t, execSelfRefreshTimeout devices s = .next t ∧ P t := by
  unfold execSelfRefreshTimeout
  refine ⟨_, rfl, ?_⟩
  exact (kept_ite h (kept_note (hk.le rfl) (hk.upd h)))

theorem kept_regionCommitGo (hk : Keeps P 0x1052) {s : State} (h : P s) :
    P (State.regionCommitGo s) := by
  unfold State.regionCommitGo
  refine kept_ite ?_ ?_
  · exact (kept_noteOffset (hk.le rfl) h)
  · extract_lets v0 v1
    have k2 : P v0 := (kept_wr (hk.le rfl) (kept_wr (hk.le rfl) h))
    clear_value v0 v1
    exact (hk.upd k2)

theorem kept_execMemRegionCommitGo (hk : Keeps P 0x10d2) {s : State} (h : P s) :
    ∃ t, execMemRegionCommitGo s = .next t ∧ P t := by
  unfold execMemRegionCommitGo
  refine ⟨_, rfl, ?_⟩
  exact (kept_regionCommitGo (hk.le rfl) (kept_leaveDormant (hk.le rfl) h))

theorem kept_execRegionCommitDone (hk : Keeps P 0x1002) {s : State} (h : P s) :
    ∃ t, execRegionCommitDone s = .next t ∧ P t := by
  unfold execRegionCommitDone
  refine ⟨_, rfl, ?_⟩
  split
  · rename_i y0 y1
    exact h
  · rename_i y2 y3 y4
    extract_lets v5 v6 v7 v8
    have k9 : P v7 := (kept_ite (hk.upd h) h)
    clear_value v5 v6 v7 v8
    exact (kept_wr (hk.le rfl) (kept_wr (hk.le rfl) (kept_wr (hk.le rfl) (hk.upd k9))))

theorem kept_biasCommand (hk : Keeps P 0x1052) {s : State} {val : Nat} (h : P s) :
    P (State.biasCommand s val) := by
  unfold State.biasCommand
  extract_lets v0 v1 v2
  have k3 : P v0 := (kept_wr (hk.le rfl) (kept_wr (hk.le rfl) (kept_wr (hk.le rfl) h)))
  have k4 : P v1 := (kept_wr (hk.le rfl) (kept_wr (hk.le rfl) k3))
  clear_value v0 v1 v2
  exact (kept_ite k3 (kept_ite (kept_noteOffset (hk.le rfl) k3) (hk.upd k4)))

theorem kept_execMemBiasGo (hk : Keeps P 0x10d2) {val : Nat} {s : State} (h : P s) :
    ∃ t, execMemBiasGo val s = .next t ∧ P t := by
  unfold execMemBiasGo
  refine ⟨_, rfl, ?_⟩
  exact (kept_biasCommand (hk.le rfl) (kept_leaveDormant (hk.le rfl) h))

theorem kept_execBiasChangeComplete (hk : Keeps P 0x1002) {s : State} (h : P s) :
    ∃ t, execBiasChangeComplete s = .next t ∧ P t := by
  unfold execBiasChangeComplete
  refine ⟨_, rfl, ?_⟩
  split
  · rename_i y0 y1
    exact h
  · rename_i y2 y3 y4
    extract_lets v5 v6 v7 v8
    exact (kept_wr (hk.le rfl) (kept_wr (hk.le rfl) (kept_wr (hk.le rfl) (hk.upd h))))

theorem kept_cxlDropped (hk : Keeps P 0x2) {s : State} (h : P s) :
    P (State.cxlDropped s) := by
  unfold State.cxlDropped
  exact (kept_bumpSat (hk.le rfl) h)

theorem kept_execCxlMemRead (hk : Keeps P 0x10da) {hpa : Nat} {ecc : EccFinding} {s : State} (h : P s) :
    ∃ t, execCxlMemRead hpa ecc s = .next t ∧ P t := by
  unfold execCxlMemRead
  refine ⟨_, rfl, ?_⟩
  extract_lets v0
  have k1 : P v0 := (kept_leaveDormant (hk.le rfl) h)
  clear_value v0
  refine kept_ite ?_ ?_
  · exact (kept_emit (hk.le rfl) (kept_cxlDropped (hk.le rfl) k1))
  · split
    · rename_i y2 y3
      exact k1
    · rename_i y4 y5 y6
      extract_lets v7 v8 v9
      have k10 : P v9 := by
        dsimp -zeta only [v9]
        split
        · rename_i y11 y12
          exact k1
        · rename_i y13 y14 y15
          exact (kept_note (hk.le rfl) (kept_bump (hk.le rfl) k1))
        · rename_i y16 y17
          exact (kept_ite k1 (kept_note (hk.le rfl) (kept_poisonGranule (hk.le rfl) k1)))
      clear_value v7 v8 v9
      exact (kept_ite (kept_emit (hk.le rfl) k1) (kept_emit (hk.le rfl) k10))

theorem kept_execCxlMemWrite (hk : Keeps P 0x14d6) {hpa : Nat} {data : List Nat} {be : Nat} {s : State} (h : P s) :
    ∃ t, execCxlMemWrite hpa data be s = .next t ∧ P t := by
  unfold execCxlMemWrite
  refine ⟨_, rfl, ?_⟩
  extract_lets v0 v1
  have k2 : P v0 := (kept_leaveDormant (hk.le rfl) h)
  refine kept_ite ?_ ?_
  · exact (kept_cxlDropped (hk.le rfl) k2)
  · split
    · rename_i y3 y4
      exact k2
    · rename_i y5 y6 y7
      extract_lets v8
      clear_value v8
      exact (kept_ite k2 (kept_ite (kept_note (hk.le rfl) k2) (kept_ite (kept_note (hk.le rfl) k2) (kept_ite k2 (kept_putLocal (hk.le rfl) k2)))))

theorem kept_execHdmDecoderCommit (hk : Keeps P 0x1000) {idx : Nat} {base : Nat} {size : Nat} {skip : Nat} {s : State} (h : P s) :
    ∃ t, execHdmDecoderCommit idx base size skip s = .next t ∧ P t := by
  unfold execHdmDecoderCommit
  refine ⟨_, rfl, ?_⟩
  extract_lets v0 v1
  clear_value v0 v1
  exact (kept_ite h (kept_ite (hk.upd h) (hk.upd h)))

theorem kept_drainAll (hk : Keeps P 0x76ff) {s : State} (h : P s) :
    P (State.drainAll s) := by
  unfold State.drainAll
  refine kept_foldl ?_ ?_
  · exact h
  · intro x0 x1 h2
    exact (kept_ite h2 (kept_drainHeld (hk.le rfl) h2))

theorem kept_biasLine (hk : Keeps P 0x76ff) {s : State} {rtag : Nat} {data : List (BitVec 8)} (h : P s) :
    P (State.biasLine s rtag data) := by
  unfold State.biasLine
  split
  · rename_i y0 y1
    exact h
  · rename_i y2 y3 y4 y5
    extract_lets v6 v7
    have k8 : P v6 := (kept_ite h (kept_memWrite (hk.le rfl) h))
    clear_value v6 v7
    exact (kept_drainAll (hk.le rfl) (kept_drainBias (hk.le rfl) (hk.upd k8)))

theorem kept_execCxlCacheResponse (hk : Keeps P 0x76ff) {rtag : Nat} {data : List Nat} {err : Bool} {s : State} (h : P s) :
    ∃ t, execCxlCacheResponse rtag data err s = .next t ∧ P t := by
  unfold execCxlCacheResponse
  refine ⟨_, rfl, ?_⟩
  split
  · rename_i y0 y1
    exact h
  · rename_i y2 y3 y4
    split
    · rename_i y5 y6
      exact (kept_ite (kept_failReq (hk.le rfl) h) (kept_answerReq (hk.le rfl) h))
    · rename_i y7 y8
      exact (kept_ite (kept_drainAll (hk.le rfl) (kept_drainBias (hk.le rfl) (kept_failReq (hk.le rfl) (hk.upd h)))) (kept_biasLine (hk.le rfl) h))
    · rename_i y9 y10 y11
      exact h

theorem kept_faultedAtOnce (hk : Keeps P 0x2) {s : State} {s0 : State} (h : P s) (h1 : P s0) :
    P (State.faultedAtOnce s s0) := by
  unfold State.faultedAtOnce
  refine kept_foldl ?_ ?_
  · exact h
  · intro x0 x1 h2
    exact (kept_ite h2 (kept_wr (hk.le rfl) (kept_wr (hk.le rfl) h2)))

theorem kept_hostLost (hk : Keeps P 0x76ff) {s : State} (h : P s) :
    P (State.hostLost s) := by
  unfold State.hostLost
  extract_lets v0 v1
  have k2 : P v1 := (hk.upd h)
  clear_value v0 v1
  refine kept_drainAll (hk.le rfl) ?_
  refine kept_faultedAtOnce (hk.le rfl) ?_ h
  refine kept_foldl ?_ ?_
  · exact k2
  · intro x3 x4 h5
    exact (kept_failReq (hk.le rfl) h5)

theorem kept_execCxlLinkDown (hk : Keeps P 0x76ff) {s : State} (h : P s) :
    ∃ t, execCxlLinkDown s = .next t ∧ P t := by
  unfold execCxlLinkDown
  refine ⟨_, rfl, ?_⟩
  exact (kept_hostLost (hk.le rfl) (hk.upd h))

theorem kept_resyncPct (hk : Keeps P 0x2) {s : State} (h : P s) :
    P (State.resyncPct s) := by
  unfold State.resyncPct
  extract_lets v0
  clear_value v0
  exact (kept_ite h (kept_wr (hk.le rfl) h))

theorem kept_resync (hk : Keeps P 0x5002) {s : State} (h : P s) :
    P (State.resync s) := by
  unfold State.resync
  extract_lets v0 v1
  have k2 : P v0 := (kept_wr (hk.le rfl) (kept_wr (hk.le rfl) h))
  clear_value v0 v1
  refine kept_foldl ?_ ?_
  · exact k2
  · intro x3 x4 h5
    refine kept_foldl ?_ ?_
    · exact h5
    · intro x6 x7 h8
      exact (kept_mirrorWrite (hk.le rfl) h8)

theorem kept_ackMirror (hk : Keeps P 0x76ff) {s : State} {n0 : Nat} (h : P s) :
    P (State.ackMirror s n0) := by
  unfold State.ackMirror
  extract_lets v0 v1 v2
  have k3 : P v2 := (hk.upd h)
  clear_value v0 v1 v2
  refine kept_resyncPct (hk.le rfl) ?_
  refine kept_foldl ?_ ?_
  · exact k3
  · intro x4 x5 h6
    exact (kept_answerReq (hk.le rfl) h6)

theorem kept_execMirrorAck (hk : Keeps P 0x76ff) {count : Nat} {s : State} (h : P s) :
    ∃ t, execMirrorAck count s = .next t ∧ P t := by
  unfold execMirrorAck
  refine ⟨_, rfl, ?_⟩
  exact (kept_ackMirror (hk.le rfl) h)

theorem kept_mirrorEnable (hk : Keeps P 0x5002) {s : State} {buddy : Nat} (h : P s) :
    P (State.mirrorEnable s buddy) := by
  unfold State.mirrorEnable
  exact (kept_ite h (kept_resync (hk.le rfl) (kept_wr (hk.le rfl) (kept_wr (hk.le rfl) h))))

theorem kept_execMirrorEnable (hk : Keeps P 0x5082) {buddy : Nat} {s : State} (h : P s) :
    ∃ t, execMirrorEnable buddy s = .next t ∧ P t := by
  unfold execMirrorEnable
  refine ⟨_, rfl, ?_⟩
  exact (kept_mirrorEnable (hk.le rfl) (kept_leaveDormant (hk.le rfl) h))

theorem kept_execResyncComplete (hk : Keeps P 0x52) {s : State} (h : P s) :
    ∃ t, execResyncComplete s = .next t ∧ P t := by
  unfold execResyncComplete
  refine ⟨_, rfl, ?_⟩
  exact (kept_ite h (kept_note (hk.le rfl) (kept_wr (hk.le rfl) (kept_wr (hk.le rfl) h))))

end Sys2Proof.Machine
end

