-- ==== Sys2Proof/Laws/KeptFabric.lean ====
section
/-! SUPPORT. What the operations of the engines, the links, the collectives, the rings, the spares and the placements keep and change (`Keeps`), one lemma each. -/

set_option Elab.async false
namespace Sys2Proof.Machine
open Sys2Proof

variable {P : State → Prop}

theorem kept_setQEn (hk : Keeps P 0x2) {s : State} {slot : Nat} {queue : Nat} {b : Bool} (h : P s) :
    P (State.setQEn s slot queue b) := by
  unfold State.setQEn
  exact (kept_wr (hk.le rfl) h)

theorem kept_qcfgReject (hk : Keeps P 0x52) {s : State} {slot : Nat} {queue : Nat} (h : P s) :
    P (State.qcfgReject s slot queue) := by
  unfold State.qcfgReject
  exact (kept_note (hk.le rfl) h)

theorem kept_execQdbTailWrite (hk : Keeps P 0x62fa) {slot : Nat} {queue : Nat} {val : Nat} {s : State} (h : P s) :
    ∃ t, execQdbTailWrite slot queue val s = .next t ∧ P t := by
  unfold execQdbTailWrite
  refine ⟨_, rfl, ?_⟩
  exact (kept_tailWrite (hk.le rfl) (kept_leaveDormant (hk.le rfl) h))

theorem kept_queueEnable (hk : Keeps P 0x2052) {s : State} {slot : Nat} {queue : Nat} {val : Nat} (h : P s) :
    P (State.queueEnable s slot queue val) := by
  unfold State.queueEnable
  extract_lets v0 v1 v2 v3 v4
  have k5 : P v2 := (kept_wr (hk.le rfl) (kept_wr (hk.le rfl) (kept_wr (hk.le rfl) (kept_wr (hk.le rfl) h))))
  have k6 : P v4 := (kept_wr (hk.le rfl) (kept_wr (hk.le rfl) (kept_wr (hk.le rfl) (kept_wr (hk.le rfl) (kept_wr (hk.le rfl) k5)))))
  clear_value v0 v1 v2 v3 v4
  exact (kept_ite h (kept_ite (kept_ite h (kept_qcfgReject (hk.le rfl) h)) (kept_ite (kept_setQEn (hk.le rfl) (kept_setQueue (hk.le rfl) k6)) (kept_wr (hk.le rfl) k5))))

theorem kept_execQueueEnable (hk : Keeps P 0x20d2) {slot : Nat} {queue : Nat} {val : Nat} {s : State} (h : P s) :
    ∃ t, execQueueEnable slot queue val s = .next t ∧ P t := by
  unfold execQueueEnable
  refine ⟨_, rfl, ?_⟩
  exact (kept_queueEnable (hk.le rfl) (kept_leaveDormant (hk.le rfl) h))

theorem kept_queueDisable (hk : Keeps P 0x52) {s : State} {slot : Nat} {queue : Nat} (h : P s) :
    P (State.queueDisable s slot queue) := by
  unfold State.queueDisable
  extract_lets v0 v1
  clear_value v0 v1
  exact (kept_ite h (kept_ite (kept_setQEn (hk.le rfl) (kept_wr (hk.le rfl) (kept_wr (hk.le rfl) h))) (kept_ite (kept_qcfgReject (hk.le rfl) h) h)))

theorem kept_execQueueDisable (hk : Keeps P 0xd2) {slot : Nat} {queue : Nat} {s : State} (h : P s) :
    ∃ t, execQueueDisable slot queue s = .next t ∧ P t := by
  unfold execQueueDisable
  refine ⟨_, rfl, ?_⟩
  exact (kept_queueDisable (hk.le rfl) (kept_leaveDormant (hk.le rfl) h))

theorem kept_engineEcc (hk : Keeps P 0x727a) {s : State} {r : CmdRef} {op : Nat} {ga : Nat} {ecc : EccFinding} {run : State → State} (h : P s) (hrun : ∀ a0, P a0 → P (run a0)) :
    P (State.engineEcc s r op ga ecc run) := by
  unfold State.engineEcc
  extract_lets v0 v1
  clear_value v0 v1
  refine kept_ite ?_ ?_
  · exact (hrun _ h)
  · split
    · rename_i y2 y3 y4
      exact (kept_sramEcc (hk.le rfl) h (fun x5 h6 => (hrun _ h6)) (fun x7 h8 => (kept_cmdError (hk.le rfl) h8)))
    · rename_i y9 y10
      exact (hrun _ (kept_eccFound (hk.le rfl) h))

theorem kept_execCommandFetch (hk : Keeps P 0x76fe) {slot : Nat} {queue : Nat} {hostRec : Option (List Nat)} {ecc : EccFinding} {s : State} (h : P s) :
    ∃ t, execCommandFetch slot queue hostRec s ecc = .next t ∧ P t := by
  unfold execCommandFetch
  refine ⟨_, rfl, ?_⟩
  extract_lets v0 v1 v2 v3 v4 v5
  clear_value v0 v1 v2 v3 v4 v5
  refine kept_ite ?_ ?_
  · exact h
  · refine kept_ite ?_ ?_
    · split
      · rename_i y6 y7
        exact (kept_ite (kept_failSource (hk.le rfl) h) (kept_fetched (hk.le rfl) (kept_emit (hk.le rfl) h)))
      · rename_i y8
        exact (kept_failSource (hk.le rfl) h)
    · refine kept_engineEcc (hk.le rfl) h ?_
      intro x13 h14
      split
      · rename_i y15 y16 y17 y18
        have k19 : P y16 := by
          have e20 := congrArg Prod.fst y18
          dsimp only at e20
          rw [← e20]
          exact (kept_areaAccess (hk.le rfl) h14)
        exact (kept_fetched (hk.le rfl) k19)
      · rename_i y21 y22 y23 y24
        have k25 : P y22 := by
          have e26 := congrArg Prod.fst y24
          dsimp only at e26
          rw [← e26]
          exact (kept_areaAccess (hk.le rfl) h14)
        exact (kept_when (hk.le rfl) k25 (fun x27 h28 => (kept_poisonEvent (hk.le rfl) h28)))
      · rename_i y29 y30 y31 y32
        have k33 : P y30 := by
          have e34 := congrArg Prod.fst y32
          dsimp only at e34
          rw [← e34]
          exact (kept_areaAccess (hk.le rfl) h14)
        exact k33

theorem kept_execCommandStart (hk : Keeps P 0x627a) {engine : Nat} {s : State} (h : P s) :
    ∃ t, execCommandStart engine s = .next t ∧ P t := by
  unfold execCommandStart
  refine ⟨_, rfl, ?_⟩
  refine kept_ite ?_ ?_
  · exact h
  · split
    · rename_i y0 y1
      exact h
    · rename_i y2 y3 y4 y5
      split
      · rename_i y6 y7
        exact h
      · rename_i y8 y9 y10
        extract_lets v11 v12 v13
        have k14 : P v12 := (hk.upd h)
        clear_value v11 v12 v13
        split
        · rename_i y15 y16 y17
          exact (kept_cmdError (hk.le rfl) k14)
        · rename_i y18 y19
          exact (kept_setWork (hk.le rfl) k14)

theorem kept_work (_hk : Keeps P 0x0) {s : State} {slot : Nat} {queue : Nat} {count : Nat} {op : Nat} {f : CmdRef → Cmd → State → State} (h : P s) (hf : ∀ a0 a1 a2, P a2 → P (f a0 a1 a2)) :
    P (State.work s slot queue count op f) := by
  unfold State.work
  extract_lets v0
  clear_value v0
  split
  · rename_i y1 y2
    exact h
  · rename_i y3 y4 y5
    exact (kept_ite (hf _ _ _ h) h)

theorem kept_workOn (_hk : Keeps P 0x0) {s : State} {slot : Nat} {queue : Nat} {count : Nat} {op : Nat} {f : CmdRef → Cmd → State → State} (h : P s) (hf : ∀ a0 a1 a2, P a2 → P (f a0 a1 a2)) :
    P (State.workOn s slot queue count op f) := by
  unfold State.workOn
  extract_lets v0
  clear_value v0
  split
  · rename_i y1 y2
    exact h
  · rename_i y3 y4 y5
    exact (kept_ite (hf _ _ _ h) h)

theorem kept_operandError (hk : Keeps P 0x627a) {s : State} {r : CmdRef} {c : Cmd} {code : Nat} {addr : Nat} (h : P s) :
    P (State.operandError s r c code addr) := by
  unfold State.operandError
  exact (kept_cmdError (hk.le rfl) h)

theorem kept_engineAccess (hk : Keeps P 0x76fe) {s : State} {r : CmdRef} {k0 : MemKind} {ga : Nat} {dst : ReqDst} (h : P s) :
    P (State.engineAccess s r k0 ga dst).1 := by
  unfold State.engineAccess
  refine kept_ite1 ?_ ?_
  · split
    · rename_i y0 y1 y2 y3
      have k4 : P y1 := by
        have e5 := congrArg Prod.fst y3
        dsimp only at e5
        rw [← e5]
        exact (kept_tryAccess (hk.le rfl) h)
      exact (kept_cmdError (hk.le rfl) k4)
    · rename_i y6 y7
      exact (kept_tryAccess (hk.le rfl) h)
  · exact (kept_threadAccess (hk.le rfl) h)

theorem kept_execNop (hk : Keeps P 0x2000) {slot : Nat} {queue : Nat} {count : Nat} {s : State} (h : P s) :
    ∃ t, execNop slot queue count s = .next t ∧ P t := by
  unfold execNop
  refine ⟨_, rfl, ?_⟩
  exact (kept_work (hk.le rfl) h (fun x0 x1 x2 h3 => (kept_setWork (hk.le rfl) h3)))

theorem kept_execEventWait (hk : Keeps P 0x627a) {slot : Nat} {queue : Nat} {count : Nat} {s : State} (h : P s) :
    ∃ t, execEventWait slot queue count s = .next t ∧ P t := by
  unfold execEventWait
  refine ⟨_, rfl, ?_⟩
  refine kept_work (hk.le rfl) h ?_
  intro x8 x9 x10 h11
  extract_lets v12
  clear_value v12
  exact (kept_ite (kept_operandError (hk.le rfl) h11) (kept_ite (kept_setWork (hk.le rfl) h11) (kept_setWork (hk.le rfl) h11)))

theorem kept_eventSignal (hk : Keeps P 0x667a) {s : State} {slot : Nat} {queue : Nat} {count : Nat} {add : Bool} (h : P s) :
    P (State.eventSignal s slot queue count add) := by
  unfold State.eventSignal
  refine kept_work (hk.le rfl) h ?_
  intro x8 x9 x10 h11
  extract_lets v12
  clear_value v12
  exact (kept_ite h11 (kept_ite (kept_operandError (hk.le rfl) h11) (kept_setWork (hk.le rfl) (kept_updateEvent (hk.le rfl) h11))))

theorem kept_execEventSignalSet (hk : Keeps P 0x667a) {slot : Nat} {queue : Nat} {count : Nat} {s : State} (h : P s) :
    ∃ t, execEventSignalSet slot queue count s = .next t ∧ P t := by
  unfold execEventSignalSet
  refine ⟨_, rfl, ?_⟩
  exact (kept_eventSignal (hk.le rfl) h)

theorem kept_execEventSignalAdd (hk : Keeps P 0x667a) {slot : Nat} {queue : Nat} {count : Nat} {s : State} (h : P s) :
    ∃ t, execEventSignalAdd slot queue count s = .next t ∧ P t := by
  unfold execEventSignalAdd
  refine ⟨_, rfl, ?_⟩
  exact (kept_eventSignal (hk.le rfl) h)

theorem kept_execStepWait (hk : Keeps P 0x2000) {slot : Nat} {queue : Nat} {count : Nat} {s : State} (h : P s) :
    ∃ t, execStepWait slot queue count s = .next t ∧ P t := by
  unfold execStepWait
  refine ⟨_, rfl, ?_⟩
  extract_lets v0
  clear_value v0
  split
  · rename_i y1 y2
    exact h
  · rename_i y3 y4 y5
    exact (kept_ite (kept_ite (kept_setWork (hk.le rfl) h) (kept_setWork (hk.le rfl) h)) h)

theorem kept_execTimestamp (hk : Keeps P 0x76fe) {slot : Nat} {queue : Nat} {count : Nat} {s : State} (h : P s) :
    ∃ t, execTimestamp slot queue count s = .next t ∧ P t := by
  unfold execTimestamp
  refine ⟨_, rfl, ?_⟩
  refine kept_work (hk.le rfl) h ?_
  intro x8 x9 x10 h11
  extract_lets v12 v13
  clear_value v12 v13
  refine kept_ite ?_ ?_
  · exact (kept_operandError (hk.le rfl) h11)
  · split
    · rename_i y14 y15 y16 y17
      have k18 : P y15 := by
        have e19 := congrArg Prod.fst y17
        dsimp only at e19
        rw [← e19]
        exact (kept_engineAccess (hk.le rfl) h11)
      split
      · rename_i y20 y21
        exact k18
      · rename_i y22 y23
        exact (kept_setWork (hk.le rfl) k18)

theorem kept_memWaitLook (hk : Keeps P 0x76fe) {s : State} {r : CmdRef} {c : Cmd} (h : P s) :
    P (State.memWaitLook s r c) := by
  unfold State.memWaitLook
  split
  · rename_i y0 y1 y2 y3
    have k4 : P y1 := by
      have e5 := congrArg Prod.fst y3
      dsimp only at e5
      rw [← e5]
      exact (kept_engineAccess (hk.le rfl) h)
    split
    · rename_i y6 y7
      exact (kept_ite (kept_setWork (hk.le rfl) k4) (kept_setWork (hk.le rfl) k4))
    · rename_i y8 y9
      exact (kept_setWork (hk.le rfl) k4)
    · rename_i y10 y11
      exact k4

theorem kept_execMemWait (hk : Keeps P 0x76fe) {slot : Nat} {queue : Nat} {count : Nat} {ecc : EccFinding} {s : State} (h : P s) :
    ∃ t, execMemWait slot queue count s ecc = .next t ∧ P t := by
  unfold execMemWait
  refine ⟨_, rfl, ?_⟩
  refine kept_work (hk.le rfl) h ?_
  intro x8 x9 x10 h11
  extract_lets v12
  clear_value v12
  exact (kept_ite (kept_operandError (hk.le rfl) h11) (kept_engineEcc (hk.le rfl) h11 (fun x13 h14 => (kept_memWaitLook (hk.le rfl) h14))))

theorem kept_execMemWaitPoll (hk : Keeps P 0x76fe) {slot : Nat} {queue : Nat} {count : Nat} {ecc : EccFinding} {s : State} (h : P s) :
    ∃ t, execMemWaitPoll slot queue count s ecc = .next t ∧ P t := by
  unfold execMemWaitPoll
  refine ⟨_, rfl, ?_⟩
  extract_lets v0
  clear_value v0
  split
  · rename_i y1 y2
    exact h
  · rename_i y3 y4 y5
    refine kept_ite ?_ ?_
    · exact h
    · split
      · rename_i y6 y7
        exact (kept_ite h (kept_engineEcc (hk.le rfl) h (fun x8 h9 => (kept_memWaitLook (hk.le rfl) h9))))
      · rename_i y10 y11 y12
        exact (kept_ite (kept_setWork (hk.le rfl) h) (kept_setWork (hk.le rfl) h))
      · rename_i y13 y14 y15
        exact h

theorem kept_evtValWrite (hk : Keeps P 0x2400) {s : State} {val : Nat} (h : P s) :
    P (State.evtValWrite s val) := by
  unfold State.evtValWrite
  extract_lets v0
  clear_value v0
  exact (kept_ite (kept_updateEvent (hk.le rfl) h) h)

theorem kept_execQdbEvtValWrite (hk : Keeps P 0x2482) {val : Nat} {s : State} (h : P s) :
    ∃ t, execQdbEvtValWrite val s = .next t ∧ P t := by
  unfold execQdbEvtValWrite
  refine ⟨_, rfl, ?_⟩
  exact (kept_evtValWrite (hk.le rfl) (kept_leaveDormant (hk.le rfl) h))

theorem kept_execDispatch (hk : Keeps P 0x627a) {slot : Nat} {queue : Nat} {count : Nat} {s : State} (h : P s) :
    ∃ t, execDispatch slot queue count s = .next t ∧ P t := by
  unfold execDispatch
  refine ⟨_, rfl, ?_⟩
  refine kept_work (hk.le rfl) h ?_
  intro x8 x9 x10 h11
  extract_lets v12
  clear_value v12
  exact (kept_ite (kept_operandError (hk.le rfl) h11) (kept_ite (kept_operandError (hk.le rfl) h11) (kept_setWork (hk.le rfl) h11)))

theorem kept_startGroup (hk : Keeps P 0x400) {s : State} {c : Nat} {g : GroupStart} (h : P s) :
    P (State.startGroup s c g) := by
  unfold State.startGroup
  extract_lets v0 v1 v2 v3 v4
  clear_value v0 v1 v2 v3 v4
  exact (kept_setCore (hk.le rfl) h)

theorem kept_startReserved (hk : Keeps P 0x400) {s : State} {c : Nat} (h : P s) :
    P (State.startReserved s c) := by
  unfold State.startReserved
  extract_lets v0 v1 v2
  have k3 : P v2 := (kept_setCore (hk.le rfl) h)
  clear_value v0 v1 v2
  refine kept_foldl ?_ ?_
  · exact k3
  · intro x4 x5 h6
    exact (kept_startGroup (hk.le rfl) h6)

theorem kept_execDispatchGroupStart (hk : Keeps P 0x2480) {slot : Nat} {queue : Nat} {count : Nat} {s : State} (h : P s) :
    ∃ t, execDispatchGroupStart slot queue count s = .next t ∧ P t := by
  unfold execDispatchGroupStart
  refine ⟨_, rfl, ?_⟩
  extract_lets v0 v1
  clear_value v0 v1
  split
  · rename_i y2 y3
    exact h
  · rename_i y4 y5 y6
    split
    · rename_i y7 y8 y9
      refine kept_ite ?_ ?_
      · exact h
      · extract_lets v10
        clear_value v10
        split
        · rename_i y11 y12
          exact h
        · rename_i y13 y14 y15
          extract_lets v16 v17 v18 v19 v20 v21 v22 v23 v24
          have k25 : P v21 := (kept_setWork (hk.le rfl) h)
          have k26 : P v24 := (kept_setCore (hk.le rfl) k25)
          clear_value v16 v17 v18 v19 v20 v21 v22 v23 v24
          exact (kept_ite (kept_wakeFor (hk.le rfl) k26) (kept_ite k26 (kept_startReserved (hk.le rfl) k26)))
    · rename_i y27 y28
      exact h

theorem kept_execCoreZeroingComplete (hk : Keeps P 0x76ff) {core : Nat} {s : State} (h : P s) :
    ∃ t, execCoreZeroingComplete core s = .next t ∧ P t := by
  unfold execCoreZeroingComplete
  refine ⟨_, rfl, ?_⟩
  extract_lets v0 v1 v2
  have k3 : P v1 := (kept_memClear (hk.le rfl) h)
  have k4 : P v2 := (kept_startReserved (hk.le rfl) (kept_setCore (hk.le rfl) k3))
  clear_value v0 v1 v2
  refine kept_ite ?_ ?_
  · exact h
  · refine kept_foldl ?_ ?_
    · exact k4
    · intro x5 x6 h7
      exact (kept_performReq (hk.le rfl) h7)

theorem kept_copyPiece (hk : Keeps P 0x76fe) {s : State} {r : CmdRef} {p0 : Nat × Nat × Nat} (h : P s) :
    P (State.copyPiece s r p0) := by
  unfold State.copyPiece
  refine kept_ite ?_ ?_
  · exact h
  · split
    · rename_i y0 y1 y2 y3
      have k4 : P y1 := by
        have e5 := congrArg Prod.fst y3
        dsimp only at e5
        rw [← e5]
        exact (kept_engineAccess (hk.le rfl) h)
      split
      · rename_i y6 y7
        exact (kept_engineAccess (hk.le rfl) k4)
      · rename_i y8 y9
        exact k4

theorem kept_copyRange (hk : Keeps P 0x76ff) {s : State} {r : CmdRef} {open_ : Bool} {src : Nat} {dst : Nat} {len : Nat} (h : P s) :
    P (State.copyRange s r open_ src dst len) := by
  unfold State.copyRange
  extract_lets v0
  clear_value v0
  refine kept_ite ?_ ?_
  · refine kept_tick (hk.le rfl) ?_
    refine kept_foldl ?_ ?_
    · exact h
    · intro x1 x2 h3
      refine kept_ite ?_ ?_
      · exact h3
      · split
        · rename_i y4 y5 y6 y7
          have k8 : P y5 := by
            have e9 := congrArg Prod.fst y7
            dsimp only at e9
            rw [← e9]
            exact (kept_engineAccess (hk.le rfl) h3)
          split
          · rename_i y10 y11
            exact k8
          · rename_i y12 y13
            exact (kept_engineAccess (hk.le rfl) k8)
  · refine kept_foldl ?_ ?_
    · exact h
    · intro x14 x15 h16
      exact (kept_copyPiece (hk.le rfl) h16)

theorem kept_withResidue (hk : Keeps P 0xa72) {s : State} {e0 : Int} {e2 : Int} {unit : Nat} {engine : Nat} {ctx : Nat} {run : State → State} (h : P s) (hrun : ∀ a0, P a0 → P (run a0)) :
    P (State.withResidue s e0 e2 unit engine ctx run) := by
  unfold State.withResidue
  refine kept_ite ?_ ?_
  · exact h
  · refine kept_ite ?_ ?_
    · exact (hrun _ h)
    · extract_lets v0 v1 v2 v3
      have k4 : P v1 := (kept_bump (hk.le rfl) h)
      have k5 : P v2 := (kept_charge (hk.le rfl) (kept_note (hk.le rfl) k4))
      have k6 : P v3 := (kept_chkLast (hk.le rfl) k5)
      clear_value v0 v1 v2 v3
      exact (kept_ite (kept_record (hk.le rfl) k6) (hrun _ k6))

theorem kept_copyDone (hk : Keeps P 0x2000) {s : State} {r : CmdRef} {bytes : Nat} (h : P s) :
    P (State.copyDone s r bytes) := by
  unfold State.copyDone
  exact (kept_ite h (kept_setWork (hk.le rfl) h))

theorem kept_execCopy (hk : Keeps P 0x7eff) {slot : Nat} {queue : Nat} {count : Nat} {ecc : EccFinding} {residue : Int} {residue2 : Int} {s : State} (h : P s) :
    ∃ t, execCopy slot queue count ecc residue s residue2 = .next t ∧ P t := by
  unfold execCopy
  refine ⟨_, rfl, ?_⟩
  refine kept_work (hk.le rfl) h ?_
  intro x8 x9 x10 h11
  extract_lets v12 v13 v14
  clear_value v12 v13 v14
  exact (kept_ite (kept_operandError (hk.le rfl) h11) (kept_withResidue (hk.le rfl) h11 (fun x15 h16 => (kept_engineEcc (hk.le rfl) h16 (fun x17 h18 => (kept_copyDone (hk.le rfl) (kept_copyRange (hk.le rfl) h18)))))))

theorem kept_execCopy2d (hk : Keeps P 0x7eff) {slot : Nat} {queue : Nat} {count : Nat} {ecc : EccFinding} {residue : Int} {residue2 : Int} {s : State} (h : P s) :
    ∃ t, execCopy2d slot queue count ecc residue s residue2 = .next t ∧ P t := by
  unfold execCopy2d
  refine ⟨_, rfl, ?_⟩
  refine kept_work (hk.le rfl) h ?_
  intro x8 x9 x10 h11
  extract_lets v12 v13 v14 v15 v16 v17
  clear_value v12 v13 v14 v15 v16 v17
  refine kept_ite ?_ ?_
  · exact (kept_operandError (hk.le rfl) h11)
  · refine kept_withResidue (hk.le rfl) h11 ?_
    intro x30 h31
    refine kept_engineEcc (hk.le rfl) h31 ?_
    intro x36 h37
    extract_lets v38
    clear_value v38
    refine kept_copyDone (hk.le rfl) ?_
    refine kept_foldl ?_ ?_
    · exact h37
    · intro x39 x40 h41
      exact (kept_ite h41 (kept_copyRange (hk.le rfl) h41))

theorem kept_engineWrite (hk : Keeps P 0x76fe) {s : State} {r : CmdRef} {ga : Nat} {bs : List (BitVec 8)} (h : P s) :
    P (State.engineWrite s r ga bs) := by
  unfold State.engineWrite
  refine kept_foldl ?_ ?_
  · exact h
  · intro x0 x1 h2
    exact (kept_ite h2 (kept_engineAccess (hk.le rfl) h2))

theorem kept_execFill (hk : Keeps P 0x7efe) {slot : Nat} {queue : Nat} {count : Nat} {residue : Int} {residue2 : Int} {s : State} (h : P s) :
    ∃ t, execFill slot queue count residue s residue2 = .next t ∧ P t := by
  unfold execFill
  refine ⟨_, rfl, ?_⟩
  refine kept_work (hk.le rfl) h ?_
  intro x8 x9 x10 h11
  extract_lets v12 v13 v14
  clear_value v12 v13 v14
  refine kept_ite ?_ ?_
  · exact (kept_operandError (hk.le rfl) h11)
  · refine kept_ite ?_ ?_
    · exact (kept_operandError (hk.le rfl) h11)
    · refine kept_withResidue (hk.le rfl) h11 ?_
      intro x23 h24
      refine kept_copyDone (hk.le rfl) ?_
      refine kept_foldl ?_ ?_
      · exact h24
      · intro x25 x26 h27
        exact (kept_ite h27 (kept_engineAccess (hk.le rfl) h27))

theorem kept_readParts (hk : Keeps P 0x76fe) {s : State} {r : CmdRef} {ga : Nat} {n0 : Nat} {key : Nat} (h : P s) :
    P (State.readParts s r ga n0 key).1 := by
  unfold State.readParts
  refine kept_foldl1 h ?_
  · intro x0 x1 h2
    extract_lets v3
    clear_value v3
    split
    · rename_i y4 y5 y6
      refine kept_ite1 ?_ ?_
      · exact h2
      · split
        · rename_i y7 y8 y9 y10
          have k11 : P y8 := by
            have e12 := congrArg Prod.fst y10
            dsimp only at e12
            rw [← e12]
            exact (kept_engineAccess (hk.le rfl) h2)
          split
          · rename_i y13 y14
            exact k11
          · rename_i y15 y16
            exact k11

theorem kept_convertFinish (hk : Keeps P 0x76fe) {s : State} {r : CmdRef} {c : Cmd} {ps : List (Nat × List (BitVec 8))} (h : P s) :
    P (State.convertFinish s r c ps) := by
  unfold State.convertFinish
  extract_lets v0 v1 v2 v3
  clear_value v0 v1 v2 v3
  split
  · rename_i y4 y5 y6 y7 y8 y9
    split
    · rename_i y10 y11 y12 y13
      extract_lets v14 v15
      have k16 : P v14 := (kept_engineWrite (hk.le rfl) h)
      have k17 : P v15 := (kept_engineWrite (hk.le rfl) k16)
      clear_value v14 v15
      exact (kept_copyDone (hk.le rfl) k17)
  · rename_i y18 y19 y20
    exact (kept_setWork (hk.le rfl) h)

theorem kept_execConvert (hk : Keeps P 0x7efe) {slot : Nat} {queue : Nat} {count : Nat} {ecc : EccFinding} {residue : Int} {residue2 : Int} {s : State} (h : P s) :
    ∃ t, execConvert slot queue count ecc residue s residue2 = .next t ∧ P t := by
  unfold execConvert
  refine ⟨_, rfl, ?_⟩
  refine kept_work (hk.le rfl) h ?_
  intro x8 x9 x10 h11
  extract_lets v12 v13 v14 v15 v16 v17 v18
  clear_value v12 v13 v14 v15 v16 v17 v18
  refine kept_ite ?_ ?_
  · exact (kept_operandError (hk.le rfl) h11)
  · refine kept_ite ?_ ?_
    · exact (kept_operandError (hk.le rfl) h11)
    · refine kept_ite ?_ ?_
      · exact (kept_operandError (hk.le rfl) h11)
      · refine kept_withResidue (hk.le rfl) h11 ?_
        intro x39 h40
        refine kept_engineEcc (hk.le rfl) h40 ?_
        intro x45 h46
        extract_lets v47
        have k48 : P v47 := (kept_setWork (hk.le rfl) h46)
        clear_value v47
        split
        · rename_i y49 y50 y51 y52
          have k53 : P y50 := by
            have e54 := congrArg Prod.fst y52
            dsimp only at e54
            rw [← e54]
            exact (kept_readParts (hk.le rfl) k48)
          split
          · rename_i y55 y56 y57 y58
            have k59 : P y56 := by
              have e60 := congrArg Prod.fst y58
              dsimp only at e60
              rw [← e60]
              exact (kept_ite1 (kept_readParts (hk.le rfl) k53) k53)
            exact (kept_ite k59 (kept_convertFinish (hk.le rfl) k59))

theorem kept_setOvf (hk : Keeps P 0x1004) {s : State} {page : Nat} {e0 : Nat} (h : P s) :
    P (State.setOvf s page e0) := by
  unfold State.setOvf
  extract_lets v0 v1
  have k2 : P v0 := (kept_memWrite (hk.le rfl) h)
  clear_value v0 v1
  split
  · rename_i y3 y4 y5
    exact (hk.upd k2)
  · rename_i y6 y7
    exact k2

theorem kept_readPage (hk : Keeps P 0x76fe) {s : State} {r : CmdRef} {src : Nat} {frame : Nat} (h : P s) :
    P (State.readPage s r src frame) := by
  unfold State.readPage
  refine kept_foldl ?_ ?_
  · exact h
  · intro x0 x1 h2
    exact (kept_ite h2 (kept_engineAccess (hk.le rfl) h2))

theorem kept_fetchBytes (hk : Keeps P 0x76fe) {s : State} {r : CmdRef} {ga : Nat} {n0 : Nat} {key : Nat} (h : P s) :
    P (State.fetchBytes s r ga n0 key).1 := by
  unfold State.fetchBytes
  extract_lets v0
  clear_value v0
  split
  · rename_i y1 y2 y3
    exact h
  · rename_i y4 y5
    split
    · rename_i y6 y7 y8 y9
      have k10 : P y7 := by
        have e11 := congrArg Prod.fst y9
        dsimp only at e11
        rw [← e11]
        exact (kept_readParts (hk.le rfl) (kept_setWork (hk.le rfl) h))
      exact (kept_ite1 k10 (kept_setWork (hk.le rfl) k10))

theorem kept_execPageIn (hk : Keeps P 0x7efe) {slot : Nat} {queue : Nat} {count : Nat} {residue : Int} {residue2 : Int} {s : State} (h : P s) :
    ∃ t, execPageIn slot queue count s residue residue2 = .next t ∧ P t := by
  unfold execPageIn
  refine ⟨_, rfl, ?_⟩
  refine kept_work (hk.le rfl) h ?_
  intro x8 x9 x10 h11
  extract_lets v12
  clear_value v12
  refine kept_ite ?_ ?_
  · exact (kept_operandError (hk.le rfl) h11)
  · split
    · rename_i y13 y14
      exact (kept_operandError (hk.le rfl) h11)
    · rename_i y15 y16 y17
      extract_lets v18
      clear_value v18
      refine kept_ite ?_ ?_
      · exact (kept_setWork (hk.le rfl) h11)
      · refine kept_ite ?_ ?_
        · exact h11
        · refine kept_withResidue (hk.le rfl) h11 ?_
          intro x27 h28
          extract_lets v29 v30
          have k31 : P v29 := (kept_setWork (hk.le rfl) (kept_setOvf (hk.le rfl) h28))
          clear_value v29 v30
          exact (kept_readPage (hk.le rfl) k31)

theorem kept_execPageOut (hk : Keeps P 0x727e) {slot : Nat} {queue : Nat} {count : Nat} {s : State} (h : P s) :
    ∃ t, execPageOut slot queue count s = .next t ∧ P t := by
  unfold execPageOut
  refine ⟨_, rfl, ?_⟩
  refine kept_work (hk.le rfl) h ?_
  intro x8 x9 x10 h11
  split
  · rename_i y12 y13
    exact (kept_operandError (hk.le rfl) h11)
  · rename_i y14 y15 y16
    extract_lets v17
    clear_value v17
    exact (kept_ite h11 (kept_ite (kept_setWork (hk.le rfl) h11) (kept_setWork (hk.le rfl) (kept_setOvf (hk.le rfl) h11))))

theorem kept_finishCmd (hk : Keeps P 0x76fe) {s : State} {r : CmdRef} (h : P s) :
    P (State.finishCmd s r) := by
  unfold State.finishCmd
  split
  · rename_i y0 y1
    exact h
  · rename_i y2 y3 y4
    split
    · rename_i y5 y6 y7
      exact (kept_ite (kept_convertFinish (hk.le rfl) h) h)
    · rename_i y8 y9
      refine kept_ite ?_ ?_
      · exact (kept_ite (kept_setWork (hk.le rfl) h) h)
      · refine kept_ite ?_ ?_
        · exact h
        · split
          · rename_i y10 y11
            exact h
          · rename_i y12 y13 y14
            extract_lets v15 v16 v17
            clear_value v15 v16 v17
            exact (kept_ite (kept_setWork (hk.le rfl) (kept_setOvf (hk.le rfl) h)) (kept_ite (kept_ite h (kept_setWork (hk.le rfl) (kept_setOvf (hk.le rfl) h))) h))
    · rename_i y18 y19 y20
      exact (kept_ite (kept_setWork (hk.le rfl) h) h)
    · rename_i y21 y22 y23 y24
      exact h

theorem kept_execCommandComplete (hk : Keeps P 0x76fe) {slot : Nat} {queue : Nat} {count : Nat} {s : State} (h : P s) :
    ∃ t, execCommandComplete slot queue count s = .next t ∧ P t := by
  unfold execCommandComplete
  refine ⟨_, rfl, ?_⟩
  extract_lets v0 v1 v2 v3
  have k4 : P v1 := (kept_finishCmd (hk.le rfl) h)
  clear_value v0 v1 v2 v3
  refine kept_ite ?_ ?_
  · exact h
  · split
    · rename_i y5 y6
      exact k4
    · rename_i y7 y8 y9
      split
      · rename_i y10 y11 y12 y13
        refine kept_ite ?_ ?_
        · exact k4
        · refine kept_ite ?_ ?_
          · split
            · rename_i y14 y15 y16 y17
              have k18 : P y15 := by
                have e19 := congrArg Prod.fst y17
                dsimp only at e19
                rw [← e19]
                exact (kept_areaAccess (hk.le rfl) k4)
              exact (kept_endCommand (hk.le rfl) k18)
            · rename_i y20 y21 y22 y23 y24
              have k25 : P y21 := by
                have e26 := congrArg Prod.fst y24
                dsimp only at e26
                rw [← e26]
                exact (kept_areaAccess (hk.le rfl) k4)
              exact k25
          · exact (kept_endCommand (hk.le rfl) k4)
      · rename_i y27 y28
        exact k4

theorem kept_setLane (hk : Keeps P 0x4000) {s : State} {n0 : Nat} {x : Lane} (h : P s) :
    P (State.setLane s n0 x) := by
  unfold State.setLane
  exact (hk.upd h)

theorem kept_setLaneState (hk : Keeps P 0x2) {s : State} {n0 : Nat} {v : Nat} (h : P s) :
    P (State.setLaneState s n0 v) := by
  unfold State.setLaneState
  exact (kept_wr (hk.le rfl) h)

theorem kept_putOnLine (hk : Keeps P 0x8) {s : State} {c : Nat} {t0 : TxPkt} (h : P s) :
    P (State.putOnLine s c t0) := by
  unfold State.putOnLine
  exact (kept_emit (hk.le rfl) h)

theorem kept_launch (hk : Keeps P 0x4052) {s : State} {p0 : Pkt} (h : P s) :
    P (State.launch s p0) := by
  unfold State.launch
  extract_lets v0 v1 v2 v3 v4
  have k5 : P v4 := (hk.upd h)
  clear_value v0 v1 v2 v3 v4
  split
  · rename_i y6 y7
    exact k5
  · rename_i y8 y9 y10
    extract_lets v11 v12
    have k13 : P v11 := (kept_enqueue (hk.le rfl) k5)
    clear_value v11 v12
    split
    · rename_i y14 y15 y16
      exact (kept_ite k13 (kept_note (hk.le rfl) (hk.upd k13)))
    · rename_i y17 y18
      exact (kept_note (hk.le rfl) (hk.upd k13))
  · rename_i y19 y20 y21 y22 y23
    exact (kept_enqueue (hk.le rfl) (kept_enqueue (hk.le rfl) k5))

theorem kept_sendPmsg (hk : Keeps P 0x405a) {s : State} {dst : Nat} {kind : Nat} {key : Nat} {value : Nat} {payload : List (BitVec 8)} {job : Nat} {ctx : Nat} {engine : Nat} (h : P s) :
    P (State.sendPmsg s dst kind key value payload job ctx engine).1 := by
  unfold State.sendPmsg
  refine kept_ite1 ?_ ?_
  · exact h
  · extract_lets v0 v1 v2 v3
    have k4 : P v2 := (kept_emit (hk.le rfl) h)
    clear_value v0 v1 v2 v3
    exact (kept_ite1 (hk.upd k4) (kept_launch (hk.le rfl) k4))

theorem kept_pmsg (hk : Keeps P 0x405a) {s : State} {dst : Nat} {kind : Nat} {key : Nat} {value : Nat} {payload : List (BitVec 8)} {job : Nat} {ctx : Nat} {engine : Nat} (h : P s) :
    P (State.pmsg s dst kind key value payload job ctx engine) := by
  unfold State.pmsg
  exact (kept_sendPmsg (hk.le rfl) h)

theorem kept_releaseHeld (hk : Keeps P 0x4052) {s : State} (h : P s) :
    P (State.releaseHeld s) := by
  unfold State.releaseHeld
  refine kept_foldl ?_ ?_
  · exact (hk.upd h)
  · intro x0 x1 h2
    exact (kept_ite (hk.upd h2) (kept_launch (hk.le rfl) h2))

theorem kept_execPacketSend (hk : Keeps P 0x405a) {circ : Nat} {s : State} (h : P s) :
    ∃ t, execPacketSend circ s = .next t ∧ P t := by
  unfold execPacketSend
  refine ⟨_, rfl, ?_⟩
  extract_lets v0 v1 v2 v3 v4 v5
  have k6 : P v0 := (kept_releaseHeld (hk.le rfl) h)
  have k7 : P v2 := (kept_setCirc (hk.le rfl) k6)
  clear_value v0 v1 v2 v3 v4 v5
  refine kept_ite ?_ ?_
  · exact k7
  · split
    · rename_i y8 y9
      exact k7
    · rename_i y10 y11 y12 y13 y14
      extract_lets v15 v16 v17
      have k18 : P v17 := (kept_setLane (hk.le rfl) k7)
      clear_value v15 v16 v17
      exact (kept_putOnLine (hk.le rfl) (kept_setCirc (hk.le rfl) k18))

theorem kept_resend (hk : Keeps P 0x4008) {s : State} {c : Nat} {sel : TxPkt → Bool} (h : P s) :
    P (State.resend s c sel) := by
  unfold State.resend
  extract_lets v0 v1
  clear_value v0 v1
  refine kept_foldl ?_ ?_
  · exact (kept_setCirc (hk.le rfl) h)
  · intro x2 x3 h4
    exact (kept_putOnLine (hk.le rfl) h4)

theorem kept_takeAck (hk : Keeps P 0x4000) {s : State} {c : Nat} {ack : Nat} (h : P s) :
    P (State.takeAck s c ack) := by
  unfold State.takeAck
  extract_lets v0
  clear_value v0
  exact (kept_ite (kept_setCirc (hk.le rfl) h) h)

theorem kept_execFlow (hk : Keeps P 0x4008) {lane : Nat} {ack : Nat} {req : Nat} {rsp : Nat} {pmsg : Nat} {nakSeq : Nat} {nakValid : Bool} {s : State} (h : P s) :
    ∃ t, execFlow lane ack req rsp pmsg nakSeq nakValid s = .next t ∧ P t := by
  unfold execFlow
  refine ⟨_, rfl, ?_⟩
  refine kept_ite ?_ ?_
  · exact h
  · split
    · rename_i y0 y1
      exact h
    · rename_i y2 y3 y4
      extract_lets v5 v6 v7 v8 v9
      have k10 : P v6 := (kept_setLane (hk.le rfl) h)
      have k11 : P v7 := (kept_takeAck (hk.le rfl) k10)
      clear_value v5 v6 v7 v8 v9
      exact (kept_ite (kept_resend (hk.le rfl) k11) k11)

theorem kept_protoError (hk : Keeps P 0x52) {s : State} {lane : Nat} {type : Nat} {p0 : Pkt} (h : P s) :
    P (State.protoError s lane type p0) := by
  unfold State.protoError
  exact (kept_note (hk.le rfl) (kept_bump (hk.le rfl) h))

theorem kept_sendFlow (hk : Keeps P 0x8) {s : State} {lane : Nat} {c : Nat} {nak : Option Nat} (h : P s) :
    P (State.sendFlow s lane c nak) := by
  unfold State.sendFlow
  extract_lets v0
  clear_value v0
  exact (kept_emit (hk.le rfl) h)

theorem kept_arrive (hk : Keeps P 0x405a) {s : State} {lane : Nat} {c : Nat} {type : Nat} {p0 : Pkt} {note : Nat} (h : P s) :
    P (State.arrive s lane c type p0 note) := by
  unfold State.arrive
  extract_lets v0 v1 v2 v3 v4 v5 v6 v7 v8 v9
  have k10 : P v7 := (kept_ite (kept_protoError (hk.le rfl) h) h)
  have k11 : P v9 := (kept_ite (kept_protoError (hk.le rfl) h) h)
  clear_value v0 v1 v2 v3 v4 v5 v6 v7 v8 v9
  exact (kept_ite (kept_bump (hk.le rfl) h) (kept_ite (kept_setLane (hk.le rfl) k10) (kept_ite k11 (kept_sendFlow (hk.le rfl) (kept_setLane (hk.le rfl) k11)))))

theorem kept_deliverAll (hk : Keeps P 0x4000) {consume : Nat → TxPkt → State → State} {x1 : Nat} {x2 : Nat} {x3 : State} (h : P x3) (hconsume : ∀ a0 a1 a2, P a2 → P (consume a0 a1 a2)) :
    P (State.deliverAll consume x1 x2 x3) := by
  unfold State.deliverAll
  split
  · rename_i y0 y1 y2
    exact h
  · rename_i y3 y4 y5 y6
    extract_lets v7 v8 v9 v10
    clear_value v7 v8 v9 v10
    split
    · rename_i y11 y12
      exact h
    · rename_i y13 y14 y15
      extract_lets v16 v17
      have k18 : P v16 := (kept_setLane (hk.le rfl) h)
      have k19 : P v17 := (kept_setCirc (hk.le rfl) k18)
      clear_value v16 v17
      exact (kept_deliverAll (hk.le rfl) (hconsume _ _ _ k19) (fun x20 x21 x22 h23 => (hconsume _ _ _ h23)))

theorem kept_receive (hk : Keeps P 0x405a) {s : State} {lane : Nat} {type : Nat} {p0 : Pkt} {note : Nat} {consume : Nat → TxPkt → State → State} (h : P s) (hconsume : ∀ a0 a1 a2, P a2 → P (consume a0 a1 a2)) :
    P (State.receive s lane type p0 note consume) := by
  unfold State.receive
  split
  · rename_i y0 y1
    exact h
  · rename_i y2 y3 y4
    refine kept_ite ?_ ?_
    · exact h
    · extract_lets v5 v6
      have k7 : P v5 := (kept_arrive (hk.le rfl) h)
      clear_value v5 v6
      exact (kept_sendFlow (hk.le rfl) (kept_deliverAll (hk.le rfl) k7 (fun x8 x9 x10 h11 => (hconsume _ _ _ h11))))

theorem kept_acceptPmsg (hk : Keeps P 0x4002) {s : State} {p0 : Pkt} (h : P s) :
    P (State.acceptPmsg s p0).1 := by
  unfold State.acceptPmsg
  extract_lets v0 v1 v2
  have k3 : ∀ b4, P (v2 b4) := (fun x5 => (hk.upd h))
  clear_value v0 v1 v2
  split
  · rename_i y6 y7
    exact (k3 _)
  · rename_i y8 y9 y10
    extract_lets v11 v12 v13 v14
    exact (kept_ite1 (k3 _) (kept_ite1 (kept_bump (hk.le rfl) h) (kept_ite1 (k3 _) (kept_ite1 (kept_ite1 (kept_bump (hk.le rfl) h) (k3 _)) (kept_bump (hk.le rfl) h)))))

theorem kept_execPmsgEntryExpires (hk : Keeps P 0x4000) {src : Nat} {s : State} (h : P s) :
    ∃ t, execPmsgEntryExpires src s = .next t ∧ P t := by
  unfold execPmsgEntryExpires
  refine ⟨_, rfl, ?_⟩
  exact (hk.upd h)

theorem kept_execPmsgRelayDiscard (hk : Keeps P 0x4000) {port : Nat} {s : State} (h : P s) :
    ∃ t, execPmsgRelayDiscard port s = .next t ∧ P t := by
  unfold execPmsgRelayDiscard
  refine ⟨_, rfl, ?_⟩
  extract_lets v0
  clear_value v0
  split
  · rename_i y1 y2 y3
    exact (kept_setCirc (hk.le rfl) h)
  · rename_i y4 y5
    exact h

theorem kept_relayPmsg (hk : Keeps P 0x4000) {s : State} {p0 : Pkt} (h : P s) :
    P (State.relayPmsg s p0) := by
  unfold State.relayPmsg
  extract_lets v0
  clear_value v0
  split
  · rename_i y1 y2
    exact h
  · rename_i y3 y4 y5
    extract_lets v6
    clear_value v6
    exact (kept_ite h (kept_enqueue (hk.le rfl) h))

theorem kept_clearLaneErr (hk : Keeps P 0x2) {s : State} {lane : Nat} (h : P s) :
    P (State.clearLaneErr s lane) := by
  unfold State.clearLaneErr
  exact (kept_wreg (hk.le rfl) h)

theorem kept_laneFailed (hk : Keeps P 0x2) {s : State} {lane : Nat} (h : P s) :
    P (State.laneFailed s lane) := by
  unfold State.laneFailed
  exact (kept_bump (hk.le rfl) (kept_setLaneState (hk.le rfl) h))

theorem kept_trainFail (hk : Keeps P 0x52) {s : State} {lane : Nat} {cause : Nat} (h : P s) :
    P (State.trainFail s lane cause) := by
  unfold State.trainFail
  exact (kept_note (hk.le rfl) (kept_laneFailed (hk.le rfl) h))

theorem kept_execLaneClockRecovered (hk : Keeps P 0x4002) {lane : Nat} {s : State} (h : P s) :
    ∃ t, execLaneClockRecovered lane s = .next t ∧ P t := by
  unfold execLaneClockRecovered
  refine ⟨_, rfl, ?_⟩
  extract_lets v0 v1
  clear_value v0 v1
  exact (kept_ite (kept_setLaneState (hk.le rfl) h) (kept_ite (kept_setLane (hk.le rfl) (kept_setLaneState (hk.le rfl) h)) h))

theorem kept_execLaneEqualiserConverged (hk : Keeps P 0x2) {lane : Nat} {s : State} (h : P s) :
    ∃ t, execLaneEqualiserConverged lane s = .next t ∧ P t := by
  unfold execLaneEqualiserConverged
  refine ⟨_, rfl, ?_⟩
  exact (kept_ite (kept_setLaneState (hk.le rfl) h) h)

theorem kept_sendInit (hk : Keeps P 0x8) {s : State} {lane : Nat} (h : P s) :
    P (State.sendInit s lane) := by
  unfold State.sendInit
  extract_lets v0 v1
  clear_value v0 v1
  exact (kept_emit (hk.le rfl) h)

theorem kept_execLaneAlignmentFound (hk : Keeps P 0xa) {lane : Nat} {s : State} (h : P s) :
    ∃ t, execLaneAlignmentFound lane s = .next t ∧ P t := by
  unfold execLaneAlignmentFound
  refine ⟨_, rfl, ?_⟩
  exact (kept_ite (kept_sendInit (hk.le rfl) (kept_setLaneState (hk.le rfl) h)) h)

theorem kept_execLnkBerHigh (hk : Keeps P 0x52) {lane : Nat} {symbols : Nat} {s : State} (h : P s) :
    ∃ t, execLnkBerHigh lane symbols s = .next t ∧ P t := by
  unfold execLnkBerHigh
  refine ⟨_, rfl, ?_⟩
  refine kept_ite ?_ ?_
  · exact h
  · extract_lets v0
    have k1 : P v0 := (kept_bump (hk.le rfl) h)
    clear_value v0
    exact (kept_ite (kept_note (hk.le rfl) k1) k1)

theorem kept_execUncorrectableCodeword (hk : Keeps P 0x2) {lane : Nat} {s : State} (h : P s) :
    ∃ t, execUncorrectableCodeword lane s = .next t ∧ P t := by
  unfold execUncorrectableCodeword
  refine ⟨_, rfl, ?_⟩
  extract_lets v0
  have k1 : P v0 := (kept_bump (hk.le rfl) h)
  clear_value v0
  exact (kept_ite (kept_bumpSat (hk.le rfl) k1) k1)

theorem kept_execPacketCrcFail (hk : Keeps P 0x400a) {lane : Nat} {s : State} (h : P s) :
    ∃ t, execPacketCrcFail lane s = .next t ∧ P t := by
  unfold execPacketCrcFail
  refine ⟨_, rfl, ?_⟩
  refine kept_ite ?_ ?_
  · exact h
  · split
    · rename_i y0 y1
      exact h
    · rename_i y2 y3 y4
      extract_lets v5 v6 v7 v8
      have k9 : P v5 := (kept_bumpSat (hk.le rfl) (kept_bump (hk.le rfl) h))
      clear_value v5 v6 v7 v8
      exact (kept_ite k9 (kept_sendFlow (hk.le rfl) (kept_setLane (hk.le rfl) k9)))

theorem kept_dropBuffered (hk : Keeps P 0x4000) {s : State} {c : Nat} (h : P s) :
    P (State.dropBuffered s c) := by
  unfold State.dropBuffered
  refine kept_foldl ?_ ?_
  · exact h
  · intro x0 x1 h2
    extract_lets v3
    clear_value v3
    exact (kept_setLane (hk.le rfl) h2)

theorem kept_circMoving (hk : Keeps P 0x4002) {s : State} {c : Nat} (h : P s) :
    P (State.circMoving s c) := by
  unfold State.circMoving
  extract_lets v0 v1 v2
  have k3 : P v2 := (kept_setCirc (hk.le rfl) h)
  clear_value v0 v1 v2
  exact (kept_ite (kept_wr (hk.le rfl) (kept_dropBuffered (hk.le rfl) k3)) h)

theorem kept_meetFar (hk : Keeps P 0x4052) {s : State} {c : Nat} {inc : Nat} (h : P s) :
    P (State.meetFar s c inc) := by
  unfold State.meetFar
  extract_lets v0 v1 v2 v3 v4
  have k5 : P v1 := (kept_dropBuffered (hk.le rfl) h)
  have k6 : P v3 := (kept_setCirc (hk.le rfl) k5)
  have k7 : P v4 := (kept_ite (kept_bump (hk.le rfl) k6) k6)
  clear_value v0 v1 v2 v3 v4
  split
  · rename_i y8 y9
    exact (kept_setCirc (hk.le rfl) h)
  · rename_i y10 y11 y12
    exact (kept_ite h (kept_note (hk.le rfl) k7))

theorem kept_laneUp (hk : Keeps P 0x4002) {s : State} {lane : Nat} (h : P s) :
    P (State.laneUp s lane) := by
  unfold State.laneUp
  extract_lets v0 v1
  clear_value v0 v1
  exact (kept_setLane (hk.le rfl) (kept_clearLaneErr (hk.le rfl) (kept_setLaneState (hk.le rfl) h)))

theorem kept_circEnterUp (hk : Keeps P 0x405a) {s : State} {c : Nat} (h : P s) :
    P (State.circEnterUp s c) := by
  unfold State.circEnterUp
  extract_lets v0 v1 v2 v3 v4 v5
  have k6 : P v1 := (kept_wr (hk.le rfl) h)
  have k7 : P v2 := (kept_meetFar (hk.le rfl) k6)
  have k8 : P v4 := (kept_bump (hk.le rfl) (kept_setCirc (hk.le rfl) k7))
  have k9 : P v5 := (kept_note (hk.le rfl) k8)
  clear_value v0 v1 v2 v3 v4 v5
  exact (kept_ite (kept_resend (hk.le rfl) k9) k7)

theorem kept_circNone (hk : Keeps P 0x4002) {s : State} {c : Nat} (h : P s) :
    P (State.circNone s c) := by
  unfold State.circNone
  extract_lets v0
  have k1 : P v0 := by
    dsimp -zeta only [v0]
    refine kept_foldl ?_ ?_
    · exact h
    · intro x2 x3 h4
      exact (kept_setLane (hk.le rfl) (kept_wr (hk.le rfl) (kept_wr (hk.le rfl) (kept_wr (hk.le rfl) (kept_setLaneState (hk.le rfl) h4)))))
  clear_value v0
  exact (kept_setCirc (hk.le rfl) (kept_wreg (hk.le rfl) k1))

theorem kept_leaveMoving (hk : Keeps P 0x4000) {s : State} {c : Nat} (h : P s) :
    P (State.leaveMoving s c) := by
  unfold State.leaveMoving
  extract_lets v0
  clear_value v0
  exact (kept_ite (kept_setCirc (hk.le rfl) h) h)

theorem kept_circTrain (hk : Keeps P 0x4002) {s : State} {c : Nat} {far : Nat} {lanes : List Nat} (h : P s) :
    P (State.circTrain s c far lanes) := by
  unfold State.circTrain
  extract_lets v0 v1 v2 v3 v4
  have k5 : P v1 := by
    dsimp -zeta only [v1]
    refine kept_foldl ?_ ?_
    · exact h
    · intro x6 x7 h8
      exact (kept_setLane (hk.le rfl) (kept_wr (hk.le rfl) (kept_wr (hk.le rfl) (kept_setLaneState (hk.le rfl) h8))))
  have k9 : P v2 := by
    dsimp -zeta only [v2]
    refine kept_foldl ?_ ?_
    · exact k5
    · intro x10 x11 h12
      exact (kept_setLane (hk.le rfl) (kept_wr (hk.le rfl) (kept_wr (hk.le rfl) (kept_wr (hk.le rfl) (kept_setLaneState (hk.le rfl) h12)))))
  have k13 : P v4 := (kept_setCirc (hk.le rfl) (kept_leaveMoving (hk.le rfl) k9))
  clear_value v0 v1 v2 v3 v4
  exact (kept_wr (hk.le rfl) (kept_wr (hk.le rfl) k13))

theorem kept_circDown (hk : Keeps P 0x4052) {s : State} {c : Nat} (h : P s) :
    P (State.circDown s c) := by
  unfold State.circDown
  extract_lets v0
  clear_value v0
  exact (kept_note (hk.le rfl) (kept_wr (hk.le rfl) (kept_leaveMoving (hk.le rfl) h)))

theorem kept_collNoRoute (hk : Keeps P 0x767a) {s : State} {r : CmdRef} {node : Nat} (h : P s) :
    P (State.collNoRoute s r node) := by
  unfold State.collNoRoute
  exact (kept_failSource (hk.le rfl) h)

theorem kept_collSend (hk : Keeps P 0x767a) {s : State} {r : CmdRef} {c : CollRun} {t0 : Nat} {to_ : Nat} (h : P s) :
    P (State.collSend s r c t0 to_) := by
  unfold State.collSend
  extract_lets v0 v1 v2
  clear_value v0 v1 v2
  split
  · rename_i y3 y4
    exact (kept_collNoRoute (hk.le rfl) h)
  · rename_i y5 y6 y7
    refine kept_foldl ?_ ?_
    · exact h
    · intro x8 x9 h10
      extract_lets v11
      clear_value v11
      exact (kept_enqueue (hk.le rfl) h10)

theorem kept_collOffer (hk : Keeps P 0x767a) {s : State} {r : CmdRef} {c : CollRun} (h : P s) :
    P (State.collOffer s r c) := by
  unfold State.collOffer
  refine kept_foldl ?_ ?_
  · exact h
  · intro x0 x1 h2
    refine kept_ite ?_ ?_
    · exact h2
    · extract_lets v3
      clear_value v3
      split
      · rename_i y4 y5 y6 y7
        have k8 : P y5 := by
          have e9 := congrArg Prod.fst y7
          dsimp only at e9
          rw [← e9]
          exact (kept_sendPmsg (hk.le rfl) h2)
        exact (kept_ite k8 (kept_collNoRoute (hk.le rfl) k8))

theorem kept_collArriveAll (hk : Keeps P 0x767a) {s : State} {r : CmdRef} {c : CollRun} (h : P s) :
    P (State.collArriveAll s r c) := by
  unfold State.collArriveAll
  refine kept_foldl ?_ ?_
  · exact h
  · intro x0 x1 h2
    refine kept_ite ?_ ?_
    · exact h2
    · extract_lets v3
      clear_value v3
      split
      · rename_i y4 y5 y6 y7
        have k8 : P y5 := by
          have e9 := congrArg Prod.fst y7
          dsimp only at e9
          rw [← e9]
          exact (kept_sendPmsg (hk.le rfl) h2)
        exact (kept_ite k8 (kept_collNoRoute (hk.le rfl) k8))

theorem kept_collAdvance (hk : Keeps P 0x76fe) {x0 : Nat} {x1 : CmdRef} {x2 : CollRun} {x3 : State} (h : P x3) :
    P (State.collAdvance x0 x1 x2 x3) := by
  unfold State.collAdvance
  split
  · rename_i y0 y1 y2 y3
    exact (kept_setWork (hk.le rfl) h)
  · rename_i y4 y5 y6 y7 y8
    refine kept_ite ?_ ?_
    · exact h
    · refine kept_ite ?_ ?_
      · exact (kept_ite (kept_setWork (hk.le rfl) h) (kept_setWork (hk.le rfl) h))
      · refine kept_ite ?_ ?_
        · split
          · rename_i y9 y10
            exact (kept_setWork (hk.le rfl) h)
          · rename_i y11 y12 y13
            exact (kept_collAdvance (hk.le rfl) h)
        · refine kept_ite ?_ ?_
          · exact (kept_copyDone (hk.le rfl) (kept_engineWrite (hk.le rfl) h))
          · extract_lets v14 v15 v16 v17 v18 v19 v20
            have k21 : P v14 := (kept_ite h (kept_collOffer (hk.le rfl) h))
            have k22 : P v17 := by
              dsimp -zeta only [v17]
              refine kept_foldl ?_ ?_
              · exact k21
              · intro x23 x24 h25
                exact (kept_ite h25 (kept_collSend (hk.le rfl) h25))
            clear_value v14 v15 v16 v17 v18 v19 v20
            exact (kept_ite (kept_collAdvance (hk.le rfl) k22) (kept_setWork (hk.le rfl) k22))

theorem kept_collTake (hk : Keeps P 0x2000) {s : State} {r : CmdRef} {x : CollRun} (h : P s) :
    P (State.collTake s r x) := by
  unfold State.collTake
  extract_lets v0 v1
  clear_value v0 v1
  exact (kept_setWork (hk.le rfl) (hk.upd h))

theorem kept_collLoad (hk : Keeps P 0x76fe) {s : State} {r : CmdRef} {src : Nat} {x : CollRun} {ecc : EccFinding} (h : P s) :
    P (State.collLoad s r src x ecc) := by
  unfold State.collLoad
  refine kept_engineEcc (hk.le rfl) h ?_
  intro x4 h5
  split
  · rename_i y6 y7 y8 y9
    have k10 : P y7 := by
      have e11 := congrArg Prod.fst y9
      dsimp only at e11
      rw [← e11]
      exact (kept_readParts (hk.le rfl) h5)
    exact (kept_ite k10 (kept_collAdvance (hk.le rfl) k10))

theorem kept_collStart (hk : Keeps P 0x76fe) {s : State} {slot : Nat} {queue : Nat} {count : Nat} {op : Nat} {ecc : EccFinding} (h : P s) :
    P (State.collStart s slot queue count op ecc) := by
  unfold State.collStart
  refine kept_workOn (hk.le rfl) h ?_
  intro x8 x9 x10 h11
  extract_lets v12 v13 v14 v15 v16 v17 v18 v19 v20
  refine kept_ite ?_ ?_
  · exact (kept_operandError (hk.le rfl) h11)
  · refine kept_ite ?_ ?_
    · exact (kept_operandError (hk.le rfl) h11)
    · refine kept_ite ?_ ?_
      · exact (kept_operandError (hk.le rfl) h11)
      · refine kept_ite ?_ ?_
        · exact (kept_operandError (hk.le rfl) h11)
        · refine kept_ite ?_ ?_
          · exact (kept_operandError (hk.le rfl) h11)
          · split
            · rename_i y21 y22 y23
              have k24 : P y22 := by
                have e25 := congrArg Prod.fst y23
                dsimp only at e25
                rw [← e25]
                exact (kept_fetchBytes (hk.le rfl) h11)
              exact k24
            · rename_i y26 y27 y28 y29
              have k30 : P y27 := by
                have e31 := congrArg Prod.fst y29
                dsimp only at e31
                rw [← e31]
                exact (kept_fetchBytes (hk.le rfl) h11)
              extract_lets v32 v33
              clear_value v32 v33
              refine kept_ite ?_ ?_
              · exact (kept_operandError (hk.le rfl) k30)
              · split
                · rename_i y34 y35 y36
                  have k37 : P y35 := by
                    have e38 := congrArg Prod.fst y36
                    dsimp only at e38
                    rw [← e38]
                    exact (kept_fetchBytes (hk.le rfl) k30)
                  exact k37
                · rename_i y39 y40 y41 y42
                  have k43 : P y40 := by
                    have e44 := congrArg Prod.fst y42
                    dsimp only at e44
                    rw [← e44]
                    exact (kept_fetchBytes (hk.le rfl) k30)
                  extract_lets v45 v46 v47 v48 v49
                  have k50 : P v49 := (kept_collTake (hk.le rfl) k43)
                  clear_value v45 v46 v47 v48 v49
                  exact (kept_ite (kept_operandError (hk.le rfl) k43) (kept_ite (kept_operandError (hk.le rfl) k43) (kept_ite (kept_collAdvance (hk.le rfl) (kept_collArriveAll (hk.le rfl) k50)) (kept_collLoad (hk.le rfl) k50))))

theorem kept_execAllreduce (hk : Keeps P 0x76fe) {slot : Nat} {queue : Nat} {count : Nat} {ecc : EccFinding} {s : State} (h : P s) :
    ∃ t, execAllreduce slot queue count s ecc = .next t ∧ P t := by
  unfold execAllreduce
  refine ⟨_, rfl, ?_⟩
  exact (kept_collStart (hk.le rfl) h)

theorem kept_execReduceScatter (hk : Keeps P 0x76fe) {slot : Nat} {queue : Nat} {count : Nat} {ecc : EccFinding} {s : State} (h : P s) :
    ∃ t, execReduceScatter slot queue count s ecc = .next t ∧ P t := by
  unfold execReduceScatter
  refine ⟨_, rfl, ?_⟩
  exact (kept_collStart (hk.le rfl) h)

theorem kept_execAllgather (hk : Keeps P 0x76fe) {slot : Nat} {queue : Nat} {count : Nat} {ecc : EccFinding} {s : State} (h : P s) :
    ∃ t, execAllgather slot queue count s ecc = .next t ∧ P t := by
  unfold execAllgather
  refine ⟨_, rfl, ?_⟩
  exact (kept_collStart (hk.le rfl) h)

theorem kept_execBroadcast (hk : Keeps P 0x76fe) {slot : Nat} {queue : Nat} {count : Nat} {ecc : EccFinding} {s : State} (h : P s) :
    ∃ t, execBroadcast slot queue count s ecc = .next t ∧ P t := by
  unfold execBroadcast
  refine ⟨_, rfl, ?_⟩
  exact (kept_collStart (hk.le rfl) h)

theorem kept_execBarrier (hk : Keeps P 0x76fe) {slot : Nat} {queue : Nat} {count : Nat} {s : State} (h : P s) :
    ∃ t, execBarrier slot queue count s = .next t ∧ P t := by
  unfold execBarrier
  refine ⟨_, rfl, ?_⟩
  exact (kept_collStart (hk.le rfl) h)

theorem kept_keepEarly (hk : Keeps P 0x2000) {s : State} {job : Nat} {group : Nat} {node : Nat} {seq : Nat} {step : Nat} (h : P s) :
    P (State.keepEarly s job group node seq step) := by
  unfold State.keepEarly
  exact (hk.upd h)

theorem kept_collReady (hk : Keeps P 0x76fe) {s : State} {src : Nat} {job : Nat} {group : Nat} {seq : Nat} {step : Nat} (h : P s) :
    P (State.collReady s src job group seq step) := by
  unfold State.collReady
  split
  · rename_i y0 y1 y2 y3
    exact (kept_ite (kept_collAdvance (hk.le rfl) h) (kept_keepEarly (hk.le rfl) h))
  · rename_i y4 y5
    exact (kept_keepEarly (hk.le rfl) h)

theorem kept_collArrive (hk : Keeps P 0x76fe) {s : State} {src : Nat} {job : Nat} {group : Nat} {seq : Nat} (h : P s) :
    P (State.collArrive s src job group seq) := by
  unfold State.collArrive
  split
  · rename_i y0 y1 y2 y3
    exact (kept_ite (kept_collAdvance (hk.le rfl) h) (kept_keepEarly (hk.le rfl) h))
  · rename_i y4 y5
    exact (kept_keepEarly (hk.le rfl) h)

theorem kept_execCollReady (hk : Keeps P 0x76fe) {src : Nat} {job : Nat} {key : Nat} {val : Nat} {step : Nat} {s : State} (h : P s) :
    ∃ t, execCollReady src job key val step s = .next t ∧ P t := by
  unfold execCollReady
  refine ⟨_, rfl, ?_⟩
  exact (kept_collReady (hk.le rfl) h)

theorem kept_execCollArrive (hk : Keeps P 0x76fe) {src : Nat} {job : Nat} {key : Nat} {val : Nat} {s : State} (h : P s) :
    ∃ t, execCollArrive src job key val s = .next t ∧ P t := by
  unfold execCollArrive
  refine ⟨_, rfl, ?_⟩
  exact (kept_collArrive (hk.le rfl) h)

theorem kept_aluResidue (hk : Keeps P 0x852) {s : State} {n0 : Nat} {ctx : Nat} (h : P s) :
    P (State.aluResidue s n0 ctx) := by
  unfold State.aluResidue
  refine kept_ite ?_ ?_
  · exact h
  · split
    · rename_i y0 y1
      exact h
    · rename_i y2 y3 y4 y5
      extract_lets v6 v7
      have k8 : P v6 := (kept_bump (hk.le rfl) h)
      have k9 : P v7 := (kept_charge (hk.le rfl) (kept_note (hk.le rfl) k8))
      clear_value v6 v7
      exact (kept_chkLast (hk.le rfl) k9)

theorem kept_collData (hk : Keeps P 0x7efe) {s : State} {p0 : Pkt} {residue : Nat} (h : P s) :
    P (State.collData s p0 residue) := by
  unfold State.collData
  split
  · rename_i y0 y1
    exact h
  · rename_i y2 y3 y4 y5
    refine kept_ite ?_ ?_
    · exact h
    · refine kept_ite ?_ ?_
      · exact (kept_cmdError (hk.le rfl) h)
      · extract_lets v6 v7 v8 v9 v10
        have k11 : P v7 := (kept_ite (kept_aluResidue (hk.le rfl) h) h)
        clear_value v6 v7 v8 v9 v10
        exact (kept_ite h (kept_collAdvance (hk.le rfl) k11))

theorem kept_execCollTimeout (hk : Keeps P 0x627a) {slot : Nat} {queue : Nat} {count : Nat} {s : State} (h : P s) :
    ∃ t, execCollTimeout slot queue count s = .next t ∧ P t := by
  unfold execCollTimeout
  refine ⟨_, rfl, ?_⟩
  extract_lets v0
  clear_value v0
  split
  · rename_i y1 y2 y3
    split
    · rename_i y4 y5 y6
      exact (kept_cmdError (hk.le rfl) h)
    · rename_i y7 y8
      exact h
  · rename_i y9 y10
    exact h

theorem kept_dropRing (hk : Keeps P 0x2000) {s : State} {n0 : Nat} (h : P s) :
    P (State.dropRing s n0) := by
  unfold State.dropRing
  exact (hk.upd h)

theorem kept_ringError (hk : Keeps P 0x627a) {s : State} {r : CmdRef} {sub : Nat} {addr : Nat} (h : P s) :
    P (State.ringError s r sub addr) := by
  unfold State.ringError
  exact (kept_cmdError (hk.le rfl) h)

theorem kept_ringHello (hk : Keeps P 0x627a) {s : State} {n0 : Nat} {src : Nat} {h0 : List (BitVec 8)} (h : P s) :
    P (State.ringHello s n0 src h0) := by
  unfold State.ringHello
  split
  · rename_i y0 y1
    exact h
  · rename_i y2 y3 y4
    refine kept_ite ?_ ?_
    · exact h
    · refine kept_ite ?_ ?_
      · exact (kept_ringError (hk.le rfl) h)
      · extract_lets v5 v6
        clear_value v5 v6
        exact (kept_setRing (hk.le rfl) h)

theorem kept_ringStart (hk : Keeps P 0x767a) {s : State} {r : CmdRef} {x : RingRun} (h : P s) :
    P (State.ringStart s r x) := by
  unfold State.ringStart
  extract_lets v0 v1 v2 v3 v4 v5 v6 v7
  have k8 : P v1 := (hk.upd h)
  have k9 : P v3 := (kept_setWork (hk.le rfl) (kept_setRing (hk.le rfl) k8))
  have k10 : P v4 := by
    dsimp -zeta only [v4]
    refine kept_foldl ?_ ?_
    · exact k9
    · intro x11 x12 h13
      exact (kept_ite h13 (kept_ite (kept_sendPmsg (hk.le rfl) h13) (kept_collNoRoute (hk.le rfl) (kept_sendPmsg (hk.le rfl) h13))))
  have k14 : P v7 := (hk.upd k10)
  clear_value v0 v1 v2 v3 v4 v5 v6 v7
  refine kept_foldl ?_ ?_
  · exact k14
  · intro x15 x16 h17
    exact (kept_ringHello (hk.le rfl) h17)

theorem kept_ringBegin (hk : Keeps P 0x767a) {s : State} {r : CmdRef} {d : List (BitVec 8)} (h : P s) :
    P (State.ringBegin s r d) := by
  unfold State.ringBegin
  extract_lets v0 v1
  clear_value v0 v1
  exact (kept_ite (kept_ringError (hk.le rfl) h) (kept_ite (kept_ringError (hk.le rfl) h) (kept_ite (kept_ringError (hk.le rfl) h) (kept_ringStart (hk.le rfl) h))))

theorem kept_execRingRun (hk : Keeps P 0x76fe) {slot : Nat} {queue : Nat} {count : Nat} {s : State} (h : P s) :
    ∃ t, execRingRun slot queue count s = .next t ∧ P t := by
  unfold execRingRun
  refine ⟨_, rfl, ?_⟩
  refine kept_ite ?_ ?_
  · exact h
  · refine kept_workOn (hk.le rfl) h ?_
    intro x12 x13 x14 h15
    extract_lets v16
    clear_value v16
    refine kept_ite ?_ ?_
    · exact (kept_ringError (hk.le rfl) h15)
    · split
      · rename_i y17 y18 y19
        have k20 : P y18 := by
          have e21 := congrArg Prod.fst y19
          dsimp only at e21
          rw [← e21]
          exact (kept_fetchBytes (hk.le rfl) h15)
        exact k20
      · rename_i y22 y23 y24 y25
        have k26 : P y23 := by
          have e27 := congrArg Prod.fst y25
          dsimp only at e27
          rw [← e27]
          exact (kept_fetchBytes (hk.le rfl) h15)
        split
        · rename_i y28 y29 y30
          have k31 : P y29 := by
            have e32 := congrArg Prod.fst y30
            dsimp only at e32
            rw [← e32]
            exact (kept_fetchBytes (hk.le rfl) k26)
          exact k31
        · rename_i y33 y34 y35 y36
          have k37 : P y34 := by
            have e38 := congrArg Prod.fst y36
            dsimp only at e38
            rw [← e38]
            exact (kept_fetchBytes (hk.le rfl) k26)
          exact (kept_ringBegin (hk.le rfl) k37)

theorem kept_takeHello (hk : Keeps P 0x627a) {s : State} {src : Nat} {job : Nat} {id : Nat} {desc : List (BitVec 8)} (h : P s) :
    P (State.takeHello s src job id desc) := by
  unfold State.takeHello
  split
  · rename_i y0 y1 y2 y3
    exact (kept_ringHello (hk.le rfl) h)
  · rename_i y4 y5
    exact (kept_ite h (hk.upd h))

theorem kept_takeToken (hk : Keeps P 0x2000) {s : State} {src : Nat} {job : Nat} {id : Nat} {t0 : Nat} (h : P s) :
    P (State.takeToken s src job id t0) := by
  unfold State.takeToken
  split
  · rename_i y0 y1 y2 y3
    exact (kept_ite (kept_setRing (hk.le rfl) h) h)
  · rename_i y4 y5
    exact h

theorem kept_takeAbort (hk : Keeps P 0x627a) {s : State} {src : Nat} {job : Nat} {id : Nat} (h : P s) :
    P (State.takeAbort s src job id) := by
  unfold State.takeAbort
  split
  · rename_i y0 y1 y2 y3
    exact (kept_ringError (hk.le rfl) (kept_setRing (hk.le rfl) h))
  · rename_i y4 y5
    exact h

theorem kept_execRingHello (hk : Keeps P 0x627a) {src : Nat} {job : Nat} {key : Nat} {desc : List Nat} {s : State} (h : P s) :
    ∃ t, execRingHello src job key desc s = .next t ∧ P t := by
  unfold execRingHello
  refine ⟨_, rfl, ?_⟩
  exact (kept_takeHello (hk.le rfl) h)

theorem kept_execHelloHoldExpires (hk : Keeps P 0x2000) {src : Nat} {job : Nat} {key : Nat} {s : State} (h : P s) :
    ∃ t, execHelloHoldExpires src job key s = .next t ∧ P t := by
  unfold execHelloHoldExpires
  refine ⟨_, rfl, ?_⟩
  exact (hk.upd h)

theorem kept_execRingToken (hk : Keeps P 0x2000) {src : Nat} {job : Nat} {key : Nat} {val : Nat} {s : State} (h : P s) :
    ∃ t, execRingToken src job key val s = .next t ∧ P t := by
  unfold execRingToken
  refine ⟨_, rfl, ?_⟩
  exact (kept_takeToken (hk.le rfl) h)

theorem kept_execRingAbort (hk : Keeps P 0x627a) {src : Nat} {job : Nat} {key : Nat} {s : State} (h : P s) :
    ∃ t, execRingAbort src job key s = .next t ∧ P t := by
  unfold execRingAbort
  refine ⟨_, rfl, ?_⟩
  exact (kept_takeAbort (hk.le rfl) h)

theorem kept_execRingTokenSend (hk : Keeps P 0x767a) {run : Nat} {token : Nat} {s : State} (h : P s) :
    ∃ t, execRingTokenSend run token s = .next t ∧ P t := by
  unfold execRingTokenSend
  refine ⟨_, rfl, ?_⟩
  split
  · rename_i y0 y1
    exact h
  · rename_i y2 y3 y4
    split
    · rename_i y5 y6
      exact h
    · rename_i y7 y8 y9
      refine kept_ite ?_ ?_
      · exact h
      · refine kept_ite ?_ ?_
        · exact h
        · extract_lets v10
          have k11 : P v10 := (kept_setRing (hk.le rfl) h)
          clear_value v10
          split
          · rename_i y12 y13 y14 y15
            have k16 : P y13 := by
              have e17 := congrArg Prod.fst y15
              dsimp only at e17
              rw [← e17]
              exact (kept_sendPmsg (hk.le rfl) k11)
            exact (kept_ite k16 (kept_collNoRoute (hk.le rfl) k16))

theorem kept_raiseReady (hk : Keeps P 0x2400) {s : State} {run : Nat} {x : RingRun} {t0 : Nat} (h : P s) :
    P (State.raiseReady s run x t0) := by
  unfold State.raiseReady
  exact (kept_updateEvent (hk.le rfl) (kept_setRing (hk.le rfl) h))

theorem kept_ringPiece (hk : Keeps P 0x76fe) {s : State} {x : RingRun} {from_ : Nat} {to_ : Nat} (h : P s) :
    P (State.ringPiece s x from_ to_) := by
  unfold State.ringPiece
  extract_lets v0 v1
  have k2 : ∀ b3 b4 b5, P b3 → P (v1 b3 b4 b5) := (fun x6 x7 x8 h9 => (kept_ringError (hk.le rfl) (kept_gfault (hk.le rfl) h9)))
  clear_value v0 v1
  refine kept_ite ?_ ?_
  · exact h
  · split
    · rename_i y10 y11 y12 y13
      have k14 : P y11 := by
        have e15 := congrArg Prod.fst y13
        dsimp only at e15
        rw [← e15]
        exact (kept_tryAccess (hk.le rfl) h)
      exact (k2 _ _ _ k14)
    · rename_i y16 y17 y18 y19
      have k20 : P y17 := by
        have e21 := congrArg Prod.fst y19
        dsimp only at e21
        rw [← e21]
        exact (kept_tryAccess (hk.le rfl) h)
      exact k20
    · rename_i y22 y23 y24 y25
      have k26 : P y23 := by
        have e27 := congrArg Prod.fst y25
        dsimp only at e27
        rw [← e27]
        exact (kept_tryAccess (hk.le rfl) h)
      split
      · rename_i y28 y29 y30 y31
        have k32 : P y29 := by
          have e33 := congrArg Prod.fst y31
          dsimp only at e33
          rw [← e33]
          exact (kept_tryAccess (hk.le rfl) k26)
        exact (k2 _ _ _ k32)
      · rename_i y34 y35 y36 y37 y38
        have k39 : P y35 := by
          have e40 := congrArg Prod.fst y38
          dsimp only at e40
          rw [← e40]
          exact (kept_tryAccess (hk.le rfl) k26)
        exact k39

theorem kept_ringLoad (hk : Keeps P 0x76fe) {s : State} {x : RingRun} (h : P s) :
    P (State.ringLoad s x) := by
  unfold State.ringLoad
  refine kept_foldl ?_ ?_
  · exact h
  · intro x0 x1 h2
    refine kept_foldl ?_ ?_
    · exact h2
    · intro x3 x4 h5
      exact (kept_ringPiece (hk.le rfl) h5)

theorem kept_execRingLoadDone (hk : Keeps P 0x7efe) {run : Nat} {ecc : EccFinding} {residue : Int} {residue2 : Int} {s : State} (h : P s) :
    ∃ t, execRingLoadDone run s ecc residue residue2 = .next t ∧ P t := by
  unfold execRingLoadDone
  refine ⟨_, rfl, ?_⟩
  split
  · rename_i y0 y1
    exact h
  · rename_i y2 y3 y4
    refine kept_ite ?_ ?_
    · exact h
    · refine kept_ite ?_ ?_
      · exact (kept_ite h (kept_raiseReady (hk.le rfl) h))
      · refine kept_withResidue (hk.le rfl) h ?_
        intro x21 h22
        refine kept_engineEcc (hk.le rfl) h22 ?_
        intro x27 h28
        extract_lets v29 v30
        have k31 : P v30 := (kept_ringLoad (hk.le rfl) (kept_setRing (hk.le rfl) h28))
        clear_value v29 v30
        exact (kept_ite k31 (kept_raiseReady (hk.le rfl) k31))

theorem kept_ringSend (hk : Keeps P 0x5000) {s : State} {run : Nat} {x : RingRun} {node : Nat} {step : Nat} (h : P s) :
    P (State.ringSend s run x node step) := by
  unfold State.ringSend
  extract_lets v0 v1
  clear_value v0 v1
  refine kept_foldl ?_ ?_
  · exact h
  · intro x2 x3 h4
    refine kept_foldl ?_ ?_
    · exact h4
    · intro x5 x6 h7
      extract_lets v8 v9
      clear_value v8 v9
      exact (kept_sendReq (hk.le rfl) h7)

theorem kept_execRingForward (hk : Keeps P 0x7afa) {run : Nat} {step : Nat} {ecc : EccFinding} {residue : Int} {residue2 : Int} {s : State} (h : P s) :
    ∃ t, execRingForward run step ecc s residue residue2 = .next t ∧ P t := by
  unfold execRingForward
  refine ⟨_, rfl, ?_⟩
  split
  · rename_i y0 y1
    exact h
  · rename_i y2 y3 y4
    split
    · rename_i y5 y6
      exact h
    · rename_i y7 y8 y9
      refine kept_ite ?_ ?_
      · exact h
      · refine kept_ite ?_ ?_
        · refine kept_foldl ?_ ?_
          · exact h
          · intro x10 x11 h12
            exact (kept_wakeFor (hk.le rfl) h12)
        · refine kept_withResidue (hk.le rfl) h ?_
          intro x21 h22
          refine kept_engineEcc (hk.le rfl) h22 ?_
          intro x27 h28
          extract_lets v29
          have k30 : P v29 := (kept_setRing (hk.le rfl) h28)
          clear_value v29
          exact (kept_ringSend (hk.le rfl) k30)

theorem kept_execRingReady (hk : Keeps P 0x2400) {run : Nat} {step : Nat} {s : State} (h : P s) :
    ∃ t, execRingReady run step s = .next t ∧ P t := by
  unfold execRingReady
  refine ⟨_, rfl, ?_⟩
  split
  · rename_i y0 y1
    exact h
  · rename_i y2 y3 y4
    exact (kept_ite (kept_raiseReady (hk.le rfl) h) h)

theorem kept_execRingComplete (hk : Keeps P 0x2000) {run : Nat} {s : State} (h : P s) :
    ∃ t, execRingComplete run s = .next t ∧ P t := by
  unfold execRingComplete
  refine ⟨_, rfl, ?_⟩
  split
  · rename_i y0 y1
    exact h
  · rename_i y2 y3 y4
    exact (kept_ite (kept_setWork (hk.le rfl) (kept_dropRing (hk.le rfl) h)) h)

theorem kept_execStepTimeout (hk : Keeps P 0x627a) {run : Nat} {wait : RingWait} {s : State} (h : P s) :
    ∃ t, execStepTimeout run wait s = .next t ∧ P t := by
  unfold execStepTimeout
  refine ⟨_, rfl, ?_⟩
  split
  · rename_i y0 y1
    exact h
  · rename_i y2 y3 y4
    exact (kept_ite (kept_ringError (hk.le rfl) h) h)

theorem kept_ringCircuitLost (hk : Keeps P 0x627a) {s : State} {c : Nat} (h : P s) :
    P (State.ringCircuitLost s c) := by
  unfold State.ringCircuitLost
  refine kept_foldl ?_ ?_
  · exact h
  · intro x0 x1 h2
    extract_lets v3
    clear_value v3
    exact (kept_ite (kept_ringError (hk.le rfl) h2) h2)

theorem kept_countPlane (hk : Keeps P 0x2) {s : State} {w : Nat} (h : P s) :
    P (State.countPlane s w) := by
  unfold State.countPlane
  extract_lets v0 v1 v2
  clear_value v0 v1 v2
  exact (kept_wr (hk.le rfl) (kept_wr (hk.le rfl) h))

theorem kept_substStage (hk : Keeps P 0x2) {s : State} {w : Nat} {st : Nat} (h : P s) :
    P (State.substStage s w st) := by
  unfold State.substStage
  extract_lets v0
  clear_value v0
  refine kept_foldl ?_ ?_
  · exact h
  · intro x1 x2 h3
    exact (kept_ite h3 (kept_ite (kept_ite (kept_wr (hk.le rfl) h3) h3) (kept_ite (kept_wr (hk.le rfl) h3) h3)))

theorem kept_substitute (hk : Keeps P 0x2) {s : State} (h : P s) :
    P (State.substitute s) := by
  unfold State.substitute
  refine kept_foldl ?_ ?_
  · exact h
  · intro x0 x1 h2
    exact (kept_countPlane (hk.le rfl) (kept_substStage (hk.le rfl) h2))

theorem kept_failHinge (hk : Keeps P 0x52) {s : State} {loop : Nat} (h : P s) :
    P (State.failHinge s loop) := by
  unfold State.failHinge
  extract_lets v0 v1 v2 v3 v4 v5
  have k6 : P v2 := (kept_wr (hk.le rfl) h)
  have k7 : P v3 := (kept_ite (kept_wr (hk.le rfl) k6) k6)
  have k8 : P v4 := (kept_ite (kept_wr (hk.le rfl) k7) k7)
  have k9 : P v5 := (kept_countPlane (hk.le rfl) (kept_substitute (hk.le rfl) k8))
  clear_value v0 v1 v2 v3 v4 v5
  exact (kept_note (hk.le rfl) k9)

theorem kept_verifyFailed (hk : Keeps P 0x20052) {s : State} {w : Nat} {a : Nat} {b : Nat} (h : P s) :
    P (State.verifyFailed s w a b) := by
  unfold State.verifyFailed
  extract_lets v0 v1 v2 v3 v4
  clear_value v0 v1 v2 v3 v4
  refine kept_ite ?_ ?_
  · exact h
  · split
    · rename_i y5 y6 y7 y8 y9 y10
      exact (kept_failHinge (hk.le rfl) (hk.upd h))
    · rename_i y11 y12 y13
      exact (hk.upd h)

theorem kept_placeFail (hk : Keeps P 0x10200) {s : State} {job : Nat} {status : Nat} {reason : Nat} (h : P s) :
    P (State.placeFail s job status reason) := by
  unfold State.placeFail
  split
  · rename_i y0 y1
    exact h
  · rename_i y2 y3 y4
    extract_lets v5 v6
    have k7 : P v6 := (hk.upd h)
    clear_value v5 v6
    exact (kept_endTicket (hk.le rfl) k7)

theorem kept_placeOk (hk : Keeps P 0x10200) {s : State} {job : Nat} {circ : Nat} (h : P s) :
    P (State.placeOk s job circ) := by
  unfold State.placeOk
  split
  · rename_i y0 y1
    exact h
  · rename_i y2 y3 y4
    extract_lets v5 v6 v7
    have k8 : P v7 := (hk.upd h)
    clear_value v5 v6 v7
    exact (kept_endTicket (hk.le rfl) k8)

theorem kept_placeCircuit (hk : Keeps P 0x10200) {s : State} {job : Nat} {status : Nat} {idx : Nat} (h : P s) :
    P (State.placeCircuit s job status idx) := by
  unfold State.placeCircuit
  split
  · rename_i y0 y1 y2
    exact (kept_ite (kept_ite (kept_placeOk (hk.le rfl) h) (kept_placeFail (hk.le rfl) h)) h)
  · rename_i y3 y4
    exact h

theorem kept_writeMap (hk : Keeps P 0x4) {s : State} {p0 : Placement} (h : P s) :
    P (State.writeMap s p0) := by
  unfold State.writeMap
  extract_lets v0 v1 v2
  refine kept_foldl ?_ ?_
  · exact h
  · intro x3 x4 h5
    extract_lets v6
    clear_value v6
    exact (kept_memWrite (hk.le rfl) h5)

theorem kept_execPlacementHoldExpires (hk : Keeps P 0x10000) {job : Nat} {s : State} (h : P s) :
    ∃ t, execPlacementHoldExpires job s = .next t ∧ P t := by
  unfold execPlacementHoldExpires
  refine ⟨_, rfl, ?_⟩
  split
  · rename_i y0 y1 y2
    exact (kept_ite (hk.upd h) h)
  · rename_i y3 y4
    exact h

theorem kept_ovfReleased (hk : Keeps P 0x10000) {s : State} (h : P s) :
    P (State.ovfReleased s) := by
  unfold State.ovfReleased
  split
  · rename_i y0 y1
    exact h
  · rename_i y2 y3 y4
    exact (kept_ite (hk.upd h) h)

end Sys2Proof.Machine
end

