-- ==== Sys2Proof/Laws/KeptPaths.lean ====
section
/-! SUPPORT. What the operations of the paths, the link rows, the topology, the hinge and the time base keep and change (`Keeps`), one lemma each. -/

set_option Elab.async false
namespace Sys2Proof.Machine
open Sys2Proof

variable {P : State → Prop}

theorem kept_setEnt (hk : Keeps P 0x20000) {s : State} {i : Nat} {e0 : PathEnt} (h : P s) :
    P (State.setEnt s i e0) := by
  unfold State.setEnt
  exact (hk.upd h)

theorem kept_setCstate (hk : Keeps P 0x2) {s : State} {i : Nat} {v : Nat} (h : P s) :
    P (State.setCstate s i v) := by
  unfold State.setCstate
  exact (kept_wr (hk.le rfl) h)

theorem kept_holdEnd (hk : Keeps P 0x20000) {s : State} {free : List Nat} {i : Nat} {port : Nat} {mask : Nat} {bk : Bool} (h : P s) :
    P (State.holdEnd s free i port mask bk) := by
  unfold State.holdEnd
  refine kept_foldl ?_ ?_
  · exact h
  · intro x0 x1 h2
    split
    · rename_i y3 y4
      exact h2
    · rename_i y5 y6 y7
      exact (hk.upd h2)

theorem kept_holdThrough (hk : Keeps P 0x20000) {s : State} {i : Nat} {a : Nat} {b : Nat} {mask : Nat} {bk : Bool} (h : P s) :
    P (State.holdThrough s i a b mask bk) := by
  unfold State.holdThrough
  exact (hk.upd h)

theorem kept_dropPaths (hk : Keeps P 0x20000) {s : State} {i : Nat} {sel : PPath → Bool} (h : P s) :
    P (State.dropPaths s i sel) := by
  unfold State.dropPaths
  exact (hk.upd h)

theorem kept_lightPaths (hk : Keeps P 0x20000) {s : State} {i : Nat} {mask : Nat} {bk : Bool} (h : P s) :
    P (State.lightPaths s i mask bk) := by
  unfold State.lightPaths
  exact (hk.upd h)

theorem kept_promote (hk : Keeps P 0x20000) {s : State} {i : Nat} (h : P s) :
    P (State.promote s i) := by
  unfold State.promote
  exact (hk.upd h)

theorem kept_syncPlanes (hk : Keeps P 0x2) {s : State} {i : Nat} (h : P s) :
    P (State.syncPlanes s i) := by
  unfold State.syncPlanes
  extract_lets v0
  clear_value v0
  exact (kept_wr (hk.le rfl) h)

theorem kept_sendPath (hk : Keeps P 0x405a) {s : State} {dst : Nat} {code : Nat} {m0 : PathMsg} (h : P s) :
    P (State.sendPath s dst code m0) := by
  unfold State.sendPath
  exact (kept_pmsg (hk.le rfl) h)

theorem kept_sendRoute (hk : Keeps P 0x405a) {s : State} {i : Nat} {code : Nat} {planes : Nat} {r : List Hop} {bk : Bool} (h : P s) :
    P (State.sendRoute s i code planes r bk) := by
  unfold State.sendRoute
  refine kept_foldl ?_ ?_
  · exact h
  · intro x0 x1 h2
    exact (kept_sendPath (hk.le rfl) h2)

theorem kept_writeEntry (hk : Keeps P 0x76fe) {s : State} {j : PathJob} {k0 : Nat} {bs : List (BitVec 8)} (h : P s) :
    P (State.writeEntry s j k0 bs) := by
  unfold State.writeEntry
  extract_lets v0
  clear_value v0
  split
  · rename_i y1 y2 y3
    exact (kept_engineAccess (hk.le rfl) h)
  · rename_i y4 y5 y6
    exact (kept_putLocal (hk.le rfl) h)
  · rename_i y7 y8 y9
    exact h

theorem kept_endPath (hk : Keeps P 0x276ff) {s : State} {ref : Nat × Nat} {reason : Nat} {circ : Option Nat} (h : P s) :
    P (State.endPath s ref reason circ) := by
  unfold State.endPath
  split
  · rename_i y0 y1
    exact h
  · rename_i y2 y3 y4
    split
    · rename_i y5 y6
      exact h
    · rename_i y7 y8 y9
      refine kept_ite ?_ ?_
      · exact h
      · split
        · rename_i y10 y11 y12 y13
          have k14 : P y11 := by
            have e15 := congrArg Prod.fst y13
            dsimp only at e15
            rw [← e15]
            split
            · rename_i y16 y17
              exact h
            · rename_i y18
              exact (kept_tick (hk.le rfl) h)
          extract_lets v19 v20 v21
          have k22 : P v21 := (hk.upd k14)
          clear_value v19 v20 v21
          exact (kept_writeEntry (hk.le rfl) k22)

theorem kept_endPathOf (hk : Keeps P 0x276ff) {s : State} {ref : Option (Nat × Nat)} {reason : Nat} {circ : Option Nat} (h : P s) :
    P (State.endPathOf s ref reason circ) := by
  unfold State.endPathOf
  split
  · rename_i y0
    exact h
  · rename_i y1 y2
    exact (kept_endPath (hk.le rfl) h)

theorem kept_rtFull (hk : Keeps P 0x52) {s : State} {node : Nat} (h : P s) :
    P (State.rtFull s node) := by
  unfold State.rtFull
  exact (kept_note (hk.le rfl) (kept_wr (hk.le rfl) h))

theorem kept_setBound (hk : Keeps P 0xc000) {s : State} {node : Nat} {c : Option Nat} {old : Option Nat} (h : P s) :
    P (State.setBound s node c old) := by
  unfold State.setBound
  extract_lets v0
  clear_value v0
  split
  · rename_i y1
    exact (hk.upd h)
  · rename_i y2 y3
    extract_lets v4 v5
    have k6 : P v4 := (hk.upd h)
    clear_value v4 v5
    split
    · rename_i y7 y8
      exact (kept_setCirc (hk.le rfl) k6)
    · rename_i y9
      exact k6

theorem kept_bindNode (hk : Keeps P 0xc000) {s : State} {c : Nat} (h : P s) :
    P (State.bindNode s c) := by
  unfold State.bindNode
  extract_lets v0
  clear_value v0
  split
  · rename_i y1 y2
    exact (kept_setBound (hk.le rfl) h)
  · rename_i y3 y4 y5
    exact (kept_ite (kept_setBound (hk.le rfl) h) h)

theorem kept_unbind (hk : Keeps P 0xc000) {s : State} {c : Nat} (h : P s) :
    P (State.unbind s c) := by
  unfold State.unbind
  extract_lets v0 v1
  clear_value v0 v1
  exact (kept_ite (kept_setBound (hk.le rfl) h) h)

theorem kept_execRebind (hk : Keeps P 0x4000) {node : Nat} {s : State} (h : P s) :
    ∃ t, execRebind node s = .next t ∧ P t := by
  unfold execRebind
  refine ⟨_, rfl, ?_⟩
  split
  · rename_i y0 y1
    exact h
  · rename_i y2 y3 y4
    split
    · rename_i y5 y6
      exact h
    · rename_i y7 y8 y9
      extract_lets v10 v11
      clear_value v10 v11
      exact (kept_ite (kept_setCirc (hk.le rfl) h) h)

theorem kept_freeEntry (hk : Keeps P 0x276ff) {s : State} {i : Nat} (h : P s) :
    P (State.freeEntry s i) := by
  unfold State.freeEntry
  extract_lets v0 v1 v2 v3 v4
  have k5 : P v1 := by
    dsimp -zeta only [v1]
    refine kept_foldl ?_ ?_
    · exact h
    · intro x6 x7 h8
      exact (kept_endPath (hk.le rfl) h8)
  have k9 : P v2 := (kept_dropPaths (hk.le rfl) k5)
  have k10 : P v3 := (kept_wreg (hk.le rfl) (kept_wreg (hk.le rfl) k9))
  clear_value v0 v1 v2 v3 v4
  exact (hk.upd k10)

theorem kept_endMac (hk : Keeps P 0xe27a) {s : State} {i : Nat} (h : P s) :
    P (State.endMac s i) := by
  unfold State.endMac
  exact (kept_circNone (hk.le rfl) (kept_ringCircuitLost (hk.le rfl) (kept_unbind (hk.le rfl) h)))

theorem kept_releaseCirc (hk : Keeps P 0x2f6ff) {s : State} {i : Nat} (h : P s) :
    P (State.releaseCirc s i) := by
  unfold State.releaseCirc
  extract_lets v0 v1 v2 v3 v4 v5
  have k6 : P v1 := (kept_dropPaths (hk.le rfl) (kept_endMac (hk.le rfl) h))
  have k7 : P v2 := (kept_sendRoute (hk.le rfl) k6)
  have k8 : P v3 := (kept_sendRoute (hk.le rfl) k7)
  have k9 : P v5 := (kept_setEnt (hk.le rfl) k8)
  clear_value v0 v1 v2 v3 v4 v5
  exact (kept_ite (kept_freeEntry (hk.le rfl) k9) (kept_setCstate (hk.le rfl) k9))

theorem kept_dropRoute (hk : Keeps P 0x2405a) {s : State} {i : Nat} {r : List Hop} {bk : Bool} (h : P s) :
    P (State.dropRoute s i r bk) := by
  unfold State.dropRoute
  exact (kept_syncPlanes (hk.le rfl) (kept_dropPaths (hk.le rfl) (kept_sendRoute (hk.le rfl) h)))

theorem kept_dropBackup (hk : Keeps P 0x2405a) {s : State} {i : Nat} (h : P s) :
    P (State.dropBackup s i) := by
  unfold State.dropBackup
  extract_lets v0 v1 v2
  have k3 : P v1 := (kept_sendRoute (hk.le rfl) h)
  have k4 : P v2 := (kept_setEnt (hk.le rfl) (kept_dropPaths (hk.le rfl) k3))
  clear_value v0 v1 v2
  exact (kept_wr (hk.le rfl) (kept_wr (hk.le rfl) k4))

theorem kept_hopFree (hk : Keeps P 0x2f6ff) {s : State} {i : Nat} (h : P s) :
    P (State.hopFree s i) := by
  unfold State.hopFree
  exact (kept_freeEntry (hk.le rfl) (kept_ite (kept_endMac (hk.le rfl) h) h))

theorem kept_failSetup (hk : Keeps P 0x276ff) {s : State} {i : Nat} (h : P s) :
    P (State.failSetup s i) := by
  unfold State.failSetup
  extract_lets v0 v1 v2
  have k3 : P v2 := (kept_note (hk.le rfl) h)
  clear_value v0 v1 v2
  exact (kept_freeEntry (hk.le rfl) (kept_endPathOf (hk.le rfl) k3))

theorem kept_sendResv (hk : Keeps P 0x2405a) {s : State} {i : Nat} (h : P s) :
    P (State.sendResv s i) := by
  unfold State.sendResv
  extract_lets v0 v1 v2 v3
  have k4 : P v1 := (kept_sendRoute (hk.le rfl) h)
  have k5 : P v2 := (kept_ite (kept_sendRoute (hk.le rfl) k4) k4)
  have k6 : P v3 := (kept_setEnt (hk.le rfl) k5)
  clear_value v0 v1 v2 v3
  exact (kept_setCstate (hk.le rfl) k6)

theorem kept_wakePort (hk : Keeps P 0x8) {s : State} {port : Nat} (h : P s) :
    P (State.wakePort s port) := by
  unfold State.wakePort
  exact (kept_ite (kept_emit (hk.le rfl) h) h)

theorem kept_wakeRound (hk : Keeps P 0x405a) {s : State} {i : Nat} (h : P s) :
    P (State.wakeRound s i) := by
  unfold State.wakeRound
  extract_lets v0 v1
  clear_value v0 v1
  split
  · rename_i y2 y3
    exact h
  · rename_i y4 y5 y6 y7
    extract_lets v8
    clear_value v8
    split
    · rename_i y9 y10
      exact h
    · rename_i y11 y12 y13
      split
      · rename_i y14 y15
        exact (kept_wakePort (hk.le rfl) h)
      · rename_i y16 y17 y18
        exact (kept_sendPath (hk.le rfl) h)

theorem kept_takeRoute (hk : Keeps P 0x2405a) {s : State} {i : Nat} {r : List Hop} {offered : Nat} (h : P s) :
    P (State.takeRoute s i r offered) := by
  unfold State.takeRoute
  extract_lets v0 v1 v2 v3 v4 v5 v6 v7
  have k8 : P v1 := (kept_holdEnd (hk.le rfl) h)
  have k9 : P v4 := (kept_ite (kept_holdEnd (hk.le rfl) k8) k8)
  have k10 : P v6 := (kept_setEnt (hk.le rfl) k9)
  have k11 : P v7 := (kept_setCstate (hk.le rfl) (kept_syncPlanes (hk.le rfl) (kept_wr (hk.le rfl) k10)))
  clear_value v0 v1 v2 v3 v4 v5 v6 v7
  exact (kept_ite (kept_sendResv (hk.le rfl) k11) (kept_wakeRound (hk.le rfl) k11))

theorem kept_tryRoutes (hk : Keeps P 0x276ff) {i : Nat} {x1 : List (List Hop)} {x2 : State} (h : P x2) :
    P (State.tryRoutes i x1 x2) := by
  unfold State.tryRoutes
  split
  · rename_i y0 y1
    exact (kept_failSetup (hk.le rfl) h)
  · rename_i y2 y3 y4 y5
    refine kept_ite ?_ ?_
    · exact (kept_failSetup (hk.le rfl) (kept_setEnt (hk.le rfl) h))
    · extract_lets v6 v7 v8 v9 v10
      have k11 : P v6 := (kept_tick (hk.le rfl) h)
      have k12 : P v8 := (kept_setEnt (hk.le rfl) k11)
      clear_value v6 v7 v8 v9 v10
      exact (kept_ite (kept_tryRoutes (hk.le rfl) (kept_setEnt (hk.le rfl) k12)) (kept_takeRoute (hk.le rfl) k12))

theorem kept_routeFail (hk : Keeps P 0x276ff) {s : State} {i : Nat} {reason : Nat} (h : P s) :
    P (State.routeFail s i reason) := by
  unfold State.routeFail
  extract_lets v0 v1 v2 v3
  have k4 : P v1 := (kept_sendRoute (hk.le rfl) h)
  have k5 : P v2 := (kept_ite (kept_sendRoute (hk.le rfl) k4) k4)
  have k6 : P v3 := (kept_setEnt (hk.le rfl) (kept_dropPaths (hk.le rfl) k5))
  clear_value v0 v1 v2 v3
  exact (kept_tryRoutes (hk.le rfl) (kept_setCstate (hk.le rfl) k6))

theorem kept_judgeBackup (hk : Keeps P 0x2405a) {s : State} {i : Nat} (h : P s) :
    P (State.judgeBackup s i) := by
  unfold State.judgeBackup
  extract_lets v0 v1
  clear_value v0 v1
  exact (kept_ite h (kept_ite (kept_dropBackup (hk.le rfl) h) (kept_dropPaths (hk.le rfl) h)))

theorem kept_reportBackup (hk : Keeps P 0x52) {s : State} {i : Nat} (h : P s) :
    P (State.reportBackup s i) := by
  unfold State.reportBackup
  extract_lets v0
  clear_value v0
  exact (kept_ite h (kept_ite (kept_note (hk.le rfl) h) (kept_wr (hk.le rfl) (kept_wr (hk.le rfl) h))))

theorem kept_noReference (hk : Keeps P 0x276ff) {s : State} {i : Nat} (h : P s) :
    P (State.noReference s i) := by
  unfold State.noReference
  exact (kept_routeFail (hk.le rfl) (kept_setEnt (hk.le rfl) h))

theorem kept_judge (hk : Keeps P 0x276ff) {s : State} {i : Nat} (h : P s) :
    P (State.judge s i) := by
  unfold State.judge
  extract_lets v0 v1 v2 v3 v4 v5 v6 v7 v8
  have k9 : P v0 := (kept_judgeBackup (hk.le rfl) h)
  have k10 : P v4 := (kept_tick (hk.le rfl) (kept_dropPaths (hk.le rfl) k9))
  have k11 : P v6 := (kept_setEnt (hk.le rfl) (kept_holdEnd (hk.le rfl) k10))
  have k12 : P v8 := (kept_dropPaths (hk.le rfl) k9)
  clear_value v0 v1 v2 v3 v4 v5 v6 v7 v8
  refine kept_ite ?_ ?_
  · exact (kept_noReference (hk.le rfl) k9)
  · split
    · rename_i y13 y14
      exact (kept_routeFail (hk.le rfl) k9)
    · rename_i y15 y16 y17
      refine kept_ite ?_ ?_
      · exact (kept_ite (kept_routeFail (hk.le rfl) k9) (kept_ite (kept_routeFail (hk.le rfl) k11) (kept_sendResv (hk.le rfl) k11)))
      · extract_lets v18 v19 v20 v21
        have k22 : P v18 := (kept_wr (hk.le rfl) (kept_wr (hk.le rfl) (kept_wr (hk.le rfl) (kept_syncPlanes (hk.le rfl) k12))))
        have k23 : P v20 := (kept_lightPaths (hk.le rfl) (kept_sendRoute (hk.le rfl) k22))
        clear_value v18 v19 v20 v21
        exact (kept_ite (kept_setCstate (hk.le rfl) (kept_setEnt (hk.le rfl) k22)) (kept_setCstate (hk.le rfl) (kept_setEnt (hk.le rfl) k23)))

theorem kept_enterLit (hk : Keeps P 0x24002) {s : State} {i : Nat} (h : P s) :
    P (State.enterLit s i) := by
  unfold State.enterLit
  extract_lets v0 v1 v2 v3 v4
  have k5 : P v1 := (kept_setCstate (hk.le rfl) (kept_setEnt (hk.le rfl) h))
  have k6 : P v2 := (kept_syncPlanes (hk.le rfl) k5)
  have k7 : P v3 := (kept_circTrain (hk.le rfl) k6)
  clear_value v0 v1 v2 v3 v4
  exact (kept_setCirc (hk.le rfl) k7)

theorem kept_enterMoved (hk : Keeps P 0x2405a) {s : State} {i : Nat} (h : P s) :
    P (State.enterMoved s i) := by
  unfold State.enterMoved
  extract_lets v0 v1 v2 v3 v4 v5 v6 v7 v8
  have k9 : P v3 := by
    dsimp -zeta only [v3]
    refine kept_foldl ?_ ?_
    · exact h
    · intro x10 x11 h12
      exact (kept_sendPath (hk.le rfl) h12)
  have k13 : P v4 := (kept_dropPaths (hk.le rfl) k9)
  have k14 : P v5 := (kept_promote (hk.le rfl) k13)
  have k15 : P v6 := by
    dsimp -zeta only [v6]
    refine kept_foldl ?_ ?_
    · exact k14
    · intro x16 x17 h18
      exact (kept_sendPath (hk.le rfl) h18)
  have k19 : P v7 := (kept_setEnt (hk.le rfl) k15)
  have k20 : P v8 := (kept_wr (hk.le rfl) (kept_wr (hk.le rfl) (kept_wr (hk.le rfl) (kept_wr (hk.le rfl) k19))))
  clear_value v0 v1 v2 v3 v4 v5 v6 v7 v8
  exact (kept_enterLit (hk.le rfl) k20)

theorem kept_checkLit (hk : Keeps P 0x2405a) {s : State} {i : Nat} (h : P s) :
    P (State.checkLit s i) := by
  unfold State.checkLit
  extract_lets v0 v1 v2
  have k3 : P v2 := (kept_enterLit (hk.le rfl) h)
  clear_value v0 v1 v2
  exact (kept_ite (kept_ite (kept_ite (kept_reportBackup (hk.le rfl) k3) k3) (kept_ite (kept_enterMoved (hk.le rfl) h) h)) h)

theorem kept_circDelay (hk : Keeps P 0x3) {s : State} {c : Nat} (h : P s) :
    P (State.circDelay s c) := by
  unfold State.circDelay
  refine kept_ite ?_ ?_
  · exact h
  · extract_lets v0 v1 v2 v3
    have k4 : ∀ b5 b6 b7, P b5 → P (v1 b5 b6 b7) := (fun x8 x9 x10 h11 => (kept_wr (hk.le rfl) (kept_wr (hk.le rfl) h11)))
    have k12 : ∀ b13 b14 b15, P b13 → P (v2 b13 b14 b15) := by
      intro h20 h21 h22 h23
      dsimp -zeta only [v2]
      extract_lets v24
      clear_value v24
      exact (k4 _ _ _ h23)
    clear_value v0 v1 v2 v3
    exact (kept_ite (k12 _ _ _ h) (kept_ite (k12 _ _ _ h) (kept_tick (hk.le rfl) (kept_tick (hk.le rfl) (k4 _ _ _ h)))))

theorem kept_pathUp (hk : Keeps P 0x2f6ff) {s : State} {c : Nat} (h : P s) :
    P (State.pathUp s c) := by
  unfold State.pathUp
  refine kept_ite ?_ ?_
  · exact h
  · extract_lets v0 v1
    have k2 : P v0 := (kept_circDelay (hk.le rfl) (kept_bindNode (hk.le rfl) h))
    clear_value v0 v1
    exact (kept_ite (kept_setEnt (hk.le rfl) (kept_endPathOf (hk.le rfl) k2)) k2)

theorem kept_moveOver (hk : Keeps P 0x276ff) {s : State} {i : Nat} {row : Nat} (h : P s) :
    P (State.moveOver s i row) := by
  unfold State.moveOver
  extract_lets v0 v1 v2 v3 v4
  have k5 : P v1 := (kept_setEnt (hk.le rfl) h)
  have k6 : P v2 := (kept_note (hk.le rfl) (kept_circDown (hk.le rfl) (kept_setCstate (hk.le rfl) k5)))
  have k7 : P v4 := (kept_ringCircuitLost (hk.le rfl) (kept_setEnt (hk.le rfl) k6))
  clear_value v0 v1 v2 v3 v4
  exact (kept_ite (kept_endPathOf (hk.le rfl) k7) k5)

theorem kept_moveTry (hk : Keeps P 0x276ff) {i : Nat} {x1 : List (List Hop)} {x2 : State} (h : P x2) :
    P (State.moveTry i x1 x2) := by
  unfold State.moveTry
  split
  · rename_i y0 y1
    exact (kept_moveOver (hk.le rfl) h)
  · rename_i y2 y3 y4 y5
    extract_lets v6 v7 v8 v9 v10 v11
    have k12 : P v6 := (kept_tick (hk.le rfl) h)
    have k13 : P v9 := (kept_holdEnd (hk.le rfl) k12)
    have k14 : P v11 := (kept_setEnt (hk.le rfl) k13)
    clear_value v6 v7 v8 v9 v10 v11
    exact (kept_ite (kept_moveTry (hk.le rfl) k12) (kept_sendRoute (hk.le rfl) k14))

theorem kept_moveRoutes (hk : Keeps P 0x276ff) {s : State} {i : Nat} (h : P s) :
    P (State.moveRoutes s i) := by
  unfold State.moveRoutes
  extract_lets v0 v1 v2
  have k3 : P v2 := (kept_ite (kept_dropBackup (hk.le rfl) h) h)
  clear_value v0 v1 v2
  exact (kept_moveTry (hk.le rfl) k3)

theorem kept_moveBackup (hk : Keeps P 0x276ff) {s : State} {i : Nat} (h : P s) :
    P (State.moveBackup s i) := by
  unfold State.moveBackup
  extract_lets v0 v1 v2 v3 v4
  have k5 : P v2 := (kept_sendRoute (hk.le rfl) h)
  have k6 : P v3 := (kept_lightPaths (hk.le rfl) (kept_dropPaths (hk.le rfl) k5))
  clear_value v0 v1 v2 v3 v4
  exact (kept_ite (kept_setEnt (hk.le rfl) k6) (kept_moveRoutes (hk.le rfl) h))

theorem kept_moveStart (hk : Keeps P 0x276ff) {s : State} {i : Nat} {bad : List Nat} (h : P s) :
    P (State.moveStart s i bad) := by
  unfold State.moveStart
  refine kept_ite ?_ ?_
  · exact (kept_moveOver (hk.le rfl) h)
  · extract_lets v0 v1 v2 v3 v4
    have k5 : P v2 := (kept_dropPaths (hk.le rfl) h)
    have k6 : P v3 := (kept_sendRoute (hk.le rfl) k5)
    clear_value v0 v1 v2 v3 v4
    exact (kept_ite (kept_setEnt (hk.le rfl) k6) (kept_moveBackup (hk.le rfl) h))

theorem kept_moveFail (hk : Keeps P 0x276ff) {s : State} {i : Nat} (h : P s) :
    P (State.moveFail s i) := by
  unfold State.moveFail
  extract_lets v0 v1 v2 v3
  have k4 : P v1 := (kept_dropRoute (hk.le rfl) h)
  have k5 : P v3 := (kept_setEnt (hk.le rfl) (kept_dropPaths (hk.le rfl) k4))
  clear_value v0 v1 v2 v3
  exact (kept_ite (kept_moveOver (hk.le rfl) h) (kept_ite (kept_moveBackup (hk.le rfl) h) (kept_ite (kept_moveRoutes (hk.le rfl) (kept_dropBackup (hk.le rfl) h)) (kept_moveTry (hk.le rfl) k5))))

theorem kept_pathFailed (hk : Keeps P 0x276ff) {s : State} {i : Nat} {bad : List Nat} (h : P s) :
    P (State.pathFailed s i bad) := by
  unfold State.pathFailed
  exact (kept_ite h (kept_ite (kept_moveStart (hk.le rfl) (kept_setCstate (hk.le rfl) h)) (kept_ite (kept_moveFail (hk.le rfl) h) h)))

theorem kept_pathLeave (hk : Keeps P 0x276ff) {s : State} {i : Nat} (h : P s) :
    P (State.pathLeave s i) := by
  unfold State.pathLeave
  refine kept_ite ?_ ?_
  · extract_lets v0
    have k1 : P v0 := (kept_setCstate (hk.le rfl) (kept_circMoving (hk.le rfl) h))
    clear_value v0
    exact (kept_ite (kept_moveOver (hk.le rfl) k1) (kept_moveBackup (hk.le rfl) k1))
  · exact h

theorem kept_judgeMove (hk : Keeps P 0x276ff) {s : State} {i : Nat} (h : P s) :
    P (State.judgeMove s i) := by
  unfold State.judgeMove
  extract_lets v0 v1 v2 v3 v4
  have k5 : P v3 := (kept_dropPaths (hk.le rfl) h)
  have k6 : P v4 := (kept_lightPaths (hk.le rfl) (kept_sendRoute (hk.le rfl) k5))
  clear_value v0 v1 v2 v3 v4
  refine kept_ite ?_ ?_
  · exact (kept_moveFail (hk.le rfl) h)
  · split
    · rename_i y7 y8
      exact (kept_moveFail (hk.le rfl) h)
    · rename_i y9 y10 y11
      refine kept_ite ?_ ?_
      · exact (kept_moveFail (hk.le rfl) h)
      · extract_lets v12 v13
        have k14 : P v12 := (kept_wr (hk.le rfl) k6)
        clear_value v12 v13
        exact (kept_setEnt (hk.le rfl) k14)

theorem kept_judgeSeek (hk : Keeps P 0x2405a) {s : State} {i : Nat} (h : P s) :
    P (State.judgeSeek s i) := by
  unfold State.judgeSeek
  extract_lets v0 v1
  have k2 : P v0 := (kept_judgeBackup (hk.le rfl) h)
  clear_value v0 v1
  exact (kept_reportBackup (hk.le rfl) (kept_setEnt (hk.le rfl) k2))

theorem kept_setReq (hk : Keeps P 0x20000) {s : State} {j : Nat} {k0 : Nat} {f : PathReq → PathReq} (h : P s) :
    P (State.setReq s j k0 f) := by
  unfold State.setReq
  split
  · rename_i y0 y1
    exact h
  · rename_i y2 y3 y4
    exact (hk.upd h)

theorem kept_startSetup (hk : Keeps P 0x276ff) {s : State} {j : Nat} {k0 : Nat} {x : PathJob} {bs : List (BitVec 8)} (h : P s) :
    P (State.startSetup s j k0 x bs) := by
  unfold State.startSetup
  extract_lets v0 v1 v2 v3
  have k4 : ∀ b5 b6, P b5 → P (v1 b5 b6) := (fun x7 x8 h9 => (kept_endPath (hk.le rfl) (kept_note (hk.le rfl) h9)))
  clear_value v0 v1 v2 v3
  refine kept_ite ?_ ?_
  · exact (k4 _ _ h)
  · refine kept_ite ?_ ?_
    · exact (k4 _ _ h)
    · split
      · rename_i y10 y11
        exact (k4 _ _ h)
      · rename_i y12 y13 y14
        refine kept_ite ?_ ?_
        · exact (k4 _ _ (kept_rtFull (hk.le rfl) h))
        · extract_lets v15 v16 v17
          have k18 : P v15 := (kept_wr (hk.le rfl) (kept_wr (hk.le rfl) (kept_wr (hk.le rfl) (kept_wr (hk.le rfl) (kept_wr (hk.le rfl) (kept_wr (hk.le rfl) (kept_wr (hk.le rfl) h)))))))
          have k19 : P v16 := (kept_setEnt (hk.le rfl) k18)
          have k20 : P v17 := (kept_setReq (hk.le rfl) k19)
          clear_value v15 v16 v17
          exact (kept_tryRoutes (hk.le rfl) k20)

theorem kept_tearDown (hk : Keeps P 0x2f6ff) {s : State} {c : Nat} {ref : Option (Nat × Nat)} (h : P s) :
    P (State.tearDown s c ref) := by
  unfold State.tearDown
  extract_lets v0 v1
  have k2 : P v1 := (kept_setEnt (hk.le rfl) h)
  clear_value v0 v1
  exact (kept_ite (kept_sendPath (hk.le rfl) k2) (kept_ite (kept_releaseCirc (hk.le rfl) k2) k2))

theorem kept_tearPending (hk : Keeps P 0x2f6ff) {s : State} (h : P s) :
    P (State.tearPending s) := by
  unfold State.tearPending
  refine kept_foldl ?_ ?_
  · exact h
  · intro x0 x1 h2
    exact (kept_ite (kept_releaseCirc (hk.le rfl) h2) h2)

theorem kept_startPath (hk : Keeps P 0x2f6ff) {s : State} {j : Nat} {k0 : Nat} (h : P s) :
    P (State.startPath s j k0) := by
  unfold State.startPath
  split
  · rename_i y0 y1
    exact h
  · rename_i y2 y3 y4
    split
    · rename_i y5 y6
      exact h
    · rename_i y7 y8 y9
      extract_lets v10 v11 v12
      have k13 : P v11 := (kept_setReq (hk.le rfl) h)
      clear_value v10 v11 v12
      refine kept_ite ?_ ?_
      · exact (kept_endPath (hk.le rfl) k13)
      · refine kept_ite ?_ ?_
        · exact (kept_startSetup (hk.le rfl) k13)
        · refine kept_ite ?_ ?_
          · exact (kept_ite (kept_endPath (hk.le rfl) k13) (kept_endPath (hk.le rfl) k13))
          · split
            · rename_i y14 y15
              exact (kept_ite (kept_endPath (hk.le rfl) k13) (kept_ite (kept_setReq (hk.le rfl) k13) (kept_tearDown (hk.le rfl) k13)))
            · rename_i y16 y17
              exact (kept_endPath (hk.le rfl) k13)

theorem kept_finishList (hk : Keeps P 0x32252) {s : State} {j : Nat} {x : PathJob} (h : P s) :
    P (State.finishList s j x) := by
  unfold State.finishList
  extract_lets v0 v1 v2 v3 v4 v5
  have k6 : P v1 := (hk.upd h)
  have k7 : P v5 := (kept_ite (kept_note (hk.le rfl) k6) k6)
  clear_value v0 v1 v2 v3 v4 v5
  split
  · rename_i y8 y9 y10
    exact (kept_ite k7 (kept_setWork (hk.le rfl) k7))
  · rename_i y11 y12 y13
    exact (kept_endTicket (hk.le rfl) k7)
  · rename_i y14 y15 y16
    exact (kept_placeCircuit (hk.le rfl) k7)

theorem kept_pathDone (hk : Keeps P 0x32252) {s : State} (h : P s) :
    P (State.pathDone s) := by
  unfold State.pathDone
  refine kept_foldl ?_ ?_
  · exact h
  · intro x0 x1 h2
    exact (kept_ite (kept_finishList (hk.le rfl) h2) h2)

theorem kept_pathKick (hk : Keeps P 0x3f6ff) {x0 : Nat} {x1 : State} (h : P x1) :
    P (State.pathKick x0 x1) := by
  unfold State.pathKick
  split
  · rename_i y0 y1
    exact (kept_pathDone (hk.le rfl) (kept_tearPending (hk.le rfl) h))
  · rename_i y2 y3 y4
    refine kept_ite ?_ ?_
    · exact (kept_pathDone (hk.le rfl) (kept_tearPending (hk.le rfl) h))
    · split
      · rename_i y5 y6
        exact (kept_pathDone (hk.le rfl) (kept_tearPending (hk.le rfl) h))
      · rename_i y7 y8 y9 y10
        exact (kept_pathKick (hk.le rfl) (kept_startPath (hk.le rfl) h))

theorem kept_endEvac (hk : Keeps P 0x100200) {s : State} (h : P s) :
    P (State.endEvac s) := by
  unfold State.endEvac
  split
  · rename_i y0 y1
    exact h
  · rename_i y2 y3 y4 y5
    extract_lets v6 v7
    clear_value v6 v7
    exact (kept_endWork (hk.le rfl) (hk.upd h))

theorem kept_evacCheck (hk : Keeps P 0x100200) {s : State} (h : P s) :
    P (State.evacCheck s) := by
  unfold State.evacCheck
  exact (kept_ite (kept_endEvac (hk.le rfl) h) h)

theorem kept_kick (hk : Keeps P 0x13f6ff) {s : State} (h : P s) :
    P (State.kick s) := by
  unfold State.kick
  exact (kept_evacCheck (hk.le rfl) (kept_substitute (hk.le rfl) (kept_pathKick (hk.le rfl) h)))

theorem kept_addList (hk : Keeps P 0x20000) {s : State} {x : PathJob} (h : P s) :
    P (State.addList s x) := by
  unfold State.addList
  extract_lets v0 v1
  clear_value v0 v1
  exact (hk.upd h)

theorem kept_openList (hk : Keeps P 0x13f6ff) {s : State} {x : PathJob} (h : P s) :
    P (State.openList s x) := by
  unfold State.openList
  extract_lets v0 v1
  have k2 : P v1 := (kept_addList (hk.le rfl) h)
  clear_value v0 v1
  refine kept_ite ?_ ?_
  · refine kept_kick (hk.le rfl) ?_
    refine kept_foldl ?_ ?_
    · exact k2
    · intro x3 x4 h5
      exact (kept_endPath (hk.le rfl) h5)
  · exact (kept_kick (hk.le rfl) k2)

theorem kept_pathCmd (hk : Keeps P 0x13f6ff) {s : State} {slot : Nat} {queue : Nat} {count : Nat} {op : Nat} (h : P s) :
    P (State.pathCmd s slot queue count op) := by
  unfold State.pathCmd
  refine kept_workOn (hk.le rfl) (kept_leaveDormant (hk.le rfl) h) ?_
  intro x8 x9 x10 h11
  extract_lets v12 v13
  clear_value v12 v13
  refine kept_ite ?_ ?_
  · exact (kept_operandError (hk.le rfl) h11)
  · split
    · rename_i y14 y15 y16
      have k17 : P y15 := by
        have e18 := congrArg Prod.fst y16
        dsimp only at e18
        rw [← e18]
        exact (kept_fetchBytes (hk.le rfl) h11)
      exact k17
    · rename_i y19 y20 y21 y22
      have k23 : P y20 := by
        have e24 := congrArg Prod.fst y22
        dsimp only at e24
        rw [← e24]
        exact (kept_fetchBytes (hk.le rfl) h11)
      exact (kept_openList (hk.le rfl) (kept_setWork (hk.le rfl) k23))

theorem kept_execPathSetup (hk : Keeps P 0x13f6ff) {slot : Nat} {queue : Nat} {count : Nat} {s : State} (h : P s) :
    ∃ t, execPathSetup slot queue count s = .next t ∧ P t := by
  unfold execPathSetup
  refine ⟨_, rfl, ?_⟩
  exact (kept_pathCmd (hk.le rfl) h)

theorem kept_execPathTeardown (hk : Keeps P 0x13f6ff) {slot : Nat} {queue : Nat} {count : Nat} {s : State} (h : P s) :
    ∃ t, execPathTeardown slot queue count s = .next t ∧ P t := by
  unfold execPathTeardown
  refine ⟨_, rfl, ?_⟩
  exact (kept_pathCmd (hk.le rfl) h)

theorem kept_execPathRecable (hk : Keeps P 0x13f6ff) {slot : Nat} {queue : Nat} {count : Nat} {s : State} (h : P s) :
    ∃ t, execPathRecable slot queue count s = .next t ∧ P t := by
  unfold execPathRecable
  refine ⟨_, rfl, ?_⟩
  exact (kept_pathCmd (hk.le rfl) h)

theorem kept_execPathQuery (hk : Keeps P 0x13f6ff) {slot : Nat} {queue : Nat} {count : Nat} {s : State} (h : P s) :
    ∃ t, execPathQuery slot queue count s = .next t ∧ P t := by
  unfold execPathQuery
  refine ⟨_, rfl, ?_⟩
  exact (kept_pathCmd (hk.le rfl) h)

theorem kept_pathMsgIn (hk : Keeps P 0x13f6ff) {s : State} {f : State → State} (h : P s) (hf : ∀ a0, P a0 → P (f a0)) :
    ∃ t, State.pathMsgIn s f = .next t ∧ P t := by
  unfold State.pathMsgIn
  refine ⟨_, rfl, ?_⟩
  exact (kept_ite (kept_kick (hk.le rfl) (hf _ h)) h)

theorem kept_resvReply (hk : Keeps P 0x405a) {s : State} {m0 : PathMsg} {planes : Nat} {reason : Nat} {idx : Nat} (h : P s) :
    P (State.resvReply s m0 planes reason idx) := by
  unfold State.resvReply
  exact (kept_sendPath (hk.le rfl) h)

theorem kept_grant (hk : Keeps P 0x2405a) {s : State} {i : Nat} {m0 : PathMsg} {g : Nat} (h : P s) :
    P (State.grant s i m0 g) := by
  unfold State.grant
  extract_lets v0 v1
  have k2 : P v0 := (kept_ite (kept_holdEnd (hk.le rfl) h) (kept_holdThrough (hk.le rfl) h))
  clear_value v0 v1
  exact (kept_resvReply (hk.le rfl) (kept_syncPlanes (hk.le rfl) (kept_setEnt (hk.le rfl) k2)))

theorem kept_execResv (hk : Keeps P 0x13f6ff) {x0 : Nat} {m0 : PathMsg} {s : State} (h : P s) :
    ∃ t, execResv x0 m0 s = .next t ∧ P t := by
  unfold execResv
  refine kept_pathMsgIn (hk.le rfl) ?_ ?_
  · exact h
  · intro x2 h3
    extract_lets v4 v5 v6
    have k7 : P v4 := (kept_tick (hk.le rfl) (kept_leaveDormant (hk.le rfl) h3))
    clear_value v4 v5 v6
    refine kept_ite ?_ ?_
    · exact (kept_resvReply (hk.le rfl) k7)
    · refine kept_ite ?_ ?_
      · exact (kept_resvReply (hk.le rfl) k7)
      · refine kept_ite ?_ ?_
        · exact (kept_resvReply (hk.le rfl) k7)
        · split
          · rename_i y8 y9 y10
            extract_lets v11 v12 v13
            have k14 : P v11 := (kept_dropPaths (hk.le rfl) k7)
            have k15 : P v13 := (kept_resvReply (hk.le rfl) k14)
            clear_value v11 v12 v13
            exact (kept_ite (kept_ite (kept_hopFree (hk.le rfl) k15) (kept_syncPlanes (hk.le rfl) k15)) (kept_grant (hk.le rfl) k14))
          · rename_i y16 y17
            split
            · rename_i y18 y19
              exact (kept_resvReply (hk.le rfl) k7)
            · rename_i y20 y21 y22
              refine kept_ite ?_ ?_
              · exact (kept_resvReply (hk.le rfl) (kept_rtFull (hk.le rfl) k7))
              · refine kept_ite ?_ ?_
                · exact (kept_resvReply (hk.le rfl) k7)
                · extract_lets v23 v24
                  have k25 : P v23 := (kept_wr (hk.le rfl) (kept_wr (hk.le rfl) (kept_wr (hk.le rfl) (kept_wr (hk.le rfl) (kept_wr (hk.le rfl) (kept_wr (hk.le rfl) (kept_wr (hk.le rfl) (kept_wr (hk.le rfl) (kept_wr (hk.le rfl) k7)))))))))
                  have k26 : P v24 := (kept_setEnt (hk.le rfl) k25)
                  clear_value v23 v24
                  exact (kept_grant (hk.le rfl) k26)

theorem kept_hopLit (hk : Keeps P 0x405a) {s : State} {i : Nat} (h : P s) :
    P (State.hopLit s i) := by
  unfold State.hopLit
  refine kept_ite ?_ ?_
  · extract_lets v0 v1 v2 v3 v4
    have k5 : P v0 := (kept_syncPlanes (hk.le rfl) (kept_setCstate (hk.le rfl) h))
    have k6 : P v2 := (kept_sendPath (hk.le rfl) k5)
    have k7 : P v3 := (kept_circTrain (hk.le rfl) k6)
    clear_value v0 v1 v2 v3 v4
    exact (kept_ite (kept_setCirc (hk.le rfl) k7) k6)
  · exact h

theorem kept_hopLight (hk : Keeps P 0x2405a) {s : State} {i : Nat} {m0 : PathMsg} (h : P s) :
    P (State.hopLight s i m0) := by
  unfold State.hopLight
  extract_lets v0 v1 v2 v3 v4 v5 v6 v7 v8 v9 v10 v11
  have k12 : P v3 := (kept_dropPaths (hk.le rfl) h)
  have k13 : P v4 := (kept_promote (hk.le rfl) k12)
  have k14 : P v5 := (kept_lightPaths (hk.le rfl) k13)
  have k15 : P v6 := (kept_ite (kept_wr (hk.le rfl) k14) k14)
  have k16 : P v7 := (kept_wr (hk.le rfl) (kept_wr (hk.le rfl) (kept_wr (hk.le rfl) k15)))
  have k17 : P v9 := (kept_dropPaths (hk.le rfl) h)
  have k18 : P v10 := (kept_lightPaths (hk.le rfl) k17)
  clear_value v0 v1 v2 v3 v4 v5 v6 v7 v8 v9 v10 v11
  exact (kept_ite (kept_syncPlanes (hk.le rfl) (kept_setCstate (hk.le rfl) (kept_setEnt (hk.le rfl) k16))) (kept_hopLit (hk.le rfl) (kept_syncPlanes (hk.le rfl) (kept_setCstate (hk.le rfl) (kept_setEnt (hk.le rfl) k18)))))

theorem kept_execLight (hk : Keeps P 0x13f6ff) {x0 : Nat} {m0 : PathMsg} {s : State} (h : P s) :
    ∃ t, execLight x0 m0 s = .next t ∧ P t := by
  unfold execLight
  refine kept_pathMsgIn (hk.le rfl) ?_ ?_
  · exact h
  · intro x2 h3
    split
    · rename_i y4 y5 y6
      exact (kept_ite h3 (kept_ite (kept_hopLight (hk.le rfl) h3) h3))
    · rename_i y7 y8
      exact h3

theorem kept_execMove (hk : Keeps P 0x13f6ff) {x0 : Nat} {m0 : PathMsg} {s : State} (h : P s) :
    ∃ t, execMove x0 m0 s = .next t ∧ P t := by
  unfold execMove
  refine kept_pathMsgIn (hk.le rfl) ?_ ?_
  · exact h
  · intro x2 h3
    split
    · rename_i y4 y5 y6
      exact (kept_ite h3 (kept_hopLight (hk.le rfl) h3))
    · rename_i y7 y8
      exact h3

theorem kept_execRelease (hk : Keeps P 0x13f6ff) {src : Nat} {m0 : PathMsg} {s : State} (h : P s) :
    ∃ t, execRelease src m0 s = .next t ∧ P t := by
  unfold execRelease
  refine kept_pathMsgIn (hk.le rfl) ?_ ?_
  · exact h
  · intro x2 h3
    refine kept_ite ?_ ?_
    · exact h3
    · extract_lets v4
      have k5 : P v4 := by
        dsimp -zeta only [v4]
        split
        · rename_i y6 y7
          exact h3
        · rename_i y8 y9 y10
          refine kept_ite ?_ ?_
          · extract_lets v11
            have k12 : P v11 := (kept_syncPlanes (hk.le rfl) (kept_dropPaths (hk.le rfl) h3))
            clear_value v11
            exact (kept_ite k12 (kept_hopFree (hk.le rfl) k12))
          · exact (kept_hopFree (hk.le rfl) h3)
      clear_value v4
      exact (kept_sendPath (hk.le rfl) k5)

theorem kept_execCommit (hk : Keeps P 0x13f6ff) {x0 : Nat} {m0 : PathMsg} {s : State} (h : P s) :
    ∃ t, execCommit x0 m0 s = .next t ∧ P t := by
  unfold execCommit
  refine kept_pathMsgIn (hk.le rfl) ?_ ?_
  · exact h
  · intro x2 h3
    split
    · rename_i y4 y5
      exact h3
    · rename_i y6 y7 y8
      refine kept_ite ?_ ?_
      · extract_lets v9 v10
        have k11 : P v9 := (kept_dropPaths (hk.le rfl) h3)
        clear_value v9 v10
        exact (kept_syncPlanes (hk.le rfl) (kept_setEnt (hk.le rfl) k11))
      · exact (kept_setEnt (hk.le rfl) h3)

theorem kept_execPathAbort (hk : Keeps P 0x13f6ff) {x0 : Nat} {m0 : PathMsg} {s : State} (h : P s) :
    ∃ t, execPathAbort x0 m0 s = .next t ∧ P t := by
  unfold execPathAbort
  refine kept_pathMsgIn (hk.le rfl) ?_ ?_
  · exact h
  · intro x2 h3
    split
    · rename_i y4 y5
      exact h3
    · rename_i y6 y7 y8
      exact (kept_ite (kept_hopFree (hk.le rfl) h3) h3)

theorem kept_execHeldTimeout (hk : Keeps P 0x2f6ff) {idx : Nat} {s : State} (h : P s) :
    ∃ t, execHeldTimeout idx s = .next t ∧ P t := by
  unfold execHeldTimeout
  refine ⟨_, rfl, ?_⟩
  exact (kept_ite (kept_hopFree (hk.le rfl) h) h)

theorem kept_execAudit (hk : Keeps P 0x13f6ff) {src : Nat} {m0 : PathMsg} {s : State} (h : P s) :
    ∃ t, execAudit src m0 s = .next t ∧ P t := by
  unfold execAudit
  refine kept_pathMsgIn (hk.le rfl) ?_ ?_
  · exact h
  · intro x2 h3
    extract_lets v4
    clear_value v4
    exact (kept_sendPath (hk.le rfl) h3)

theorem kept_execAuditReply (hk : Keeps P 0x13f6ff) {x0 : Nat} {m0 : PathMsg} {s : State} (h : P s) :
    ∃ t, execAuditReply x0 m0 s = .next t ∧ P t := by
  unfold execAuditReply
  refine kept_pathMsgIn (hk.le rfl) ?_ ?_
  · exact h
  · intro x2 h3
    split
    · rename_i y4 y5 y6
      exact (kept_ite (kept_setEnt (hk.le rfl) h3) h3)
    · rename_i y7 y8
      exact h3

theorem kept_execAuditTimeout (hk : Keeps P 0x2f6ff) {idx : Nat} {s : State} (h : P s) :
    ∃ t, execAuditTimeout idx s = .next t ∧ P t := by
  unfold execAuditTimeout
  refine ⟨_, rfl, ?_⟩
  exact (kept_ite (kept_hopFree (hk.le rfl) (kept_note (hk.le rfl) h)) h)

theorem kept_pathCoreStart (hk : Keeps P 0x13f6ff) {s : State} (h : P s) :
    P (State.pathCoreStart s) := by
  unfold State.pathCoreStart
  extract_lets v0 v1 v2
  have k3 : P v1 := (kept_wr (hk.le rfl) (hk.upd h))
  have k4 : P v2 := by
    dsimp -zeta only [v2]
    refine kept_foldl ?_ ?_
    · exact k3
    · intro x5 x6 h7
      exact (kept_sendPath (hk.le rfl) (kept_setEnt (hk.le rfl) h7))
  clear_value v0 v1 v2
  exact (kept_kick (hk.le rfl) k4)

theorem kept_askEvacuate (hk : Keeps P 0x405a) {s : State} {sel : Nat → Bool} {resp : Bool} (h : P s) :
    P (State.askEvacuate s sel resp) := by
  unfold State.askEvacuate
  refine kept_foldl ?_ ?_
  · exact h
  · intro x0 x1 h2
    exact (kept_sendPath (hk.le rfl) h2)

theorem kept_execResvAck (hk : Keeps P 0x13f6ff) {src : Nat} {m0 : PathMsg} {s : State} (h : P s) :
    ∃ t, execResvAck src m0 s = .next t ∧ P t := by
  unfold execResvAck
  refine kept_pathMsgIn (hk.le rfl) ?_ ?_
  · exact h
  · intro x2 h3
    split
    · rename_i y4 y5
      exact h3
    · rename_i y6 y7 y8
      extract_lets v9 v10 v11
      have k12 : P v11 := (kept_setEnt (hk.le rfl) h3)
      clear_value v9 v10 v11
      exact (kept_ite h3 (kept_ite k12 (kept_ite (kept_judgeSeek (hk.le rfl) k12) (kept_ite (kept_judgeMove (hk.le rfl) k12) (kept_ite (kept_routeFail (hk.le rfl) k12) (kept_judge (hk.le rfl) k12))))))

theorem kept_execLit (hk : Keeps P 0x13f6ff) {src : Nat} {m0 : PathMsg} {s : State} (h : P s) :
    ∃ t, execLit src m0 s = .next t ∧ P t := by
  unfold execLit
  refine kept_pathMsgIn (hk.le rfl) ?_ ?_
  · exact h
  · intro x2 h3
    split
    · rename_i y4 y5
      exact h3
    · rename_i y6 y7 y8
      extract_lets v9 v10
      clear_value v9 v10
      exact (kept_ite h3 (kept_ite (kept_ite (kept_routeFail (hk.le rfl) h3) (kept_moveFail (hk.le rfl) h3)) (kept_checkLit (hk.le rfl) (kept_setEnt (hk.le rfl) h3))))

theorem kept_execReleaseAck (hk : Keeps P 0x13f6ff) {src : Nat} {m0 : PathMsg} {s : State} (h : P s) :
    ∃ t, execReleaseAck src m0 s = .next t ∧ P t := by
  unfold execReleaseAck
  refine kept_pathMsgIn (hk.le rfl) ?_ ?_
  · exact h
  · intro x2 h3
    split
    · rename_i y4 y5
      exact h3
    · rename_i y6 y7 y8
      refine kept_ite ?_ ?_
      · exact h3
      · extract_lets v9 v10 v11
        have k12 : P v11 := (kept_setEnt (hk.le rfl) h3)
        clear_value v9 v10 v11
        exact (kept_ite (kept_freeEntry (hk.le rfl) k12) k12)

theorem kept_execTeardownReq (hk : Keeps P 0x13f6ff) {x0 : Nat} {m0 : PathMsg} {s : State} (h : P s) :
    ∃ t, execTeardownReq x0 m0 s = .next t ∧ P t := by
  unfold execTeardownReq
  refine kept_pathMsgIn (hk.le rfl) ?_ ?_
  · exact h
  · intro x2 h3
    split
    · rename_i y4 y5 y6
      exact (kept_tearDown (hk.le rfl) h3)
    · rename_i y7 y8
      exact h3

theorem kept_execEvacuateMsg (hk : Keeps P 0x13f6ff) {src : Nat} {m0 : PathMsg} {s : State} (h : P s) :
    ∃ t, execEvacuateMsg src m0 s = .next t ∧ P t := by
  unfold execEvacuateMsg
  refine kept_pathMsgIn (hk.le rfl) ?_ ?_
  · exact h
  · intro x2 h3
    split
    · rename_i y4 y5
      exact (kept_sendPath (hk.le rfl) h3)
    · rename_i y6 y7 y8
      extract_lets v9
      clear_value v9
      exact (kept_ite (kept_pathLeave (hk.le rfl) (kept_setEnt (hk.le rfl) h3)) (kept_ite (kept_sendPath (hk.le rfl) (kept_dropBackup (hk.le rfl) h3)) (kept_sendPath (hk.le rfl) h3)))

theorem kept_execEvacAck (hk : Keeps P 0x13f6ff) {x0 : Nat} {m0 : PathMsg} {s : State} (h : P s) :
    ∃ t, execEvacAck x0 m0 s = .next t ∧ P t := by
  unfold execEvacAck
  refine kept_pathMsgIn (hk.le rfl) ?_ ?_
  · exact h
  · intro x2 h3
    split
    · rename_i y4 y5 y6
      exact (kept_setEnt (hk.le rfl) h3)
    · rename_i y7 y8
      exact h3

theorem kept_execWake (hk : Keeps P 0x13f6ff) {src : Nat} {m0 : PathMsg} {s : State} (h : P s) :
    ∃ t, execWake src m0 s = .next t ∧ P t := by
  unfold execWake
  exact (kept_pathMsgIn (hk.le rfl) h (fun x0 h1 => (kept_sendPath (hk.le rfl) (kept_wakePort (hk.le rfl) h1))))

theorem kept_execWakeAck (hk : Keeps P 0x13f6ff) {src : Nat} {m0 : PathMsg} {s : State} (h : P s) :
    ∃ t, execWakeAck src m0 s = .next t ∧ P t := by
  unfold execWakeAck
  refine kept_pathMsgIn (hk.le rfl) ?_ ?_
  · exact h
  · intro x2 h3
    split
    · rename_i y4 y5 y6
      exact (kept_setEnt (hk.le rfl) h3)
    · rename_i y7 y8
      exact h3

theorem kept_execWakeRoundExpires (hk : Keeps P 0x13f6ff) {idx : Nat} {s : State} (h : P s) :
    ∃ t, execWakeRoundExpires idx s = .next t ∧ P t := by
  unfold execWakeRoundExpires
  refine ⟨_, rfl, ?_⟩
  extract_lets v0
  clear_value v0
  refine kept_ite ?_ ?_
  · exact h
  · split
    · rename_i y1 y2
      exact h
    · rename_i y3 y4 y5 y6
      refine kept_kick (hk.le rfl) ?_
      refine kept_ite ?_ ?_
      · exact (kept_routeFail (hk.le rfl) h)
      · extract_lets v7 v8
        have k9 : P v8 := (kept_setEnt (hk.le rfl) h)
        clear_value v7 v8
        exact (kept_ite (kept_sendResv (hk.le rfl) k9) (kept_wakeRound (hk.le rfl) k9))

theorem kept_execHopTimeout (hk : Keeps P 0x13f6ff) {idx : Nat} {s : State} (h : P s) :
    ∃ t, execHopTimeout idx s = .next t ∧ P t := by
  unfold execHopTimeout
  refine ⟨_, rfl, ?_⟩
  extract_lets v0
  clear_value v0
  refine kept_kick (hk.le rfl) ?_
  refine kept_ite ?_ ?_
  · refine kept_setEnt (hk.le rfl) ?_
    refine kept_foldl ?_ ?_
    · exact h
    · intro x1 x2 h3
      exact (kept_endPath (hk.le rfl) h3)
  · exact (kept_ite h (kept_ite (kept_freeEntry (hk.le rfl) h) (kept_ite (kept_ite (kept_judge (hk.le rfl) (kept_dropBackup (hk.le rfl) h)) (kept_routeFail (hk.le rfl) h)) (kept_ite (kept_judgeSeek (hk.le rfl) (kept_dropBackup (hk.le rfl) h)) (kept_ite (kept_moveFail (hk.le rfl) h) h)))))

theorem kept_execSetupTimeout (hk : Keeps P 0x13f6ff) {idx : Nat} {s : State} (h : P s) :
    ∃ t, execSetupTimeout idx s = .next t ∧ P t := by
  unfold execSetupTimeout
  refine ⟨_, rfl, ?_⟩
  extract_lets v0 v1 v2 v3 v4
  have k5 : P v3 := (kept_note (hk.le rfl) h)
  have k6 : P v4 := (kept_setEnt (hk.le rfl) (kept_endPathOf (hk.le rfl) k5))
  clear_value v0 v1 v2 v3 v4
  exact (kept_ite (kept_kick (hk.le rfl) (kept_releaseCirc (hk.le rfl) k6)) h)

theorem kept_execDownRetry (hk : Keeps P 0x13f6ff) {idx : Nat} {s : State} (h : P s) :
    ∃ t, execDownRetry idx s = .next t ∧ P t := by
  unfold execDownRetry
  refine ⟨_, rfl, ?_⟩
  exact (kept_ite (kept_kick (hk.le rfl) (kept_moveBackup (hk.le rfl) h)) h)

theorem kept_execDownHoldExpires (hk : Keeps P 0x13f6ff) {idx : Nat} {s : State} (h : P s) :
    ∃ t, execDownHoldExpires idx s = .next t ∧ P t := by
  unfold execDownHoldExpires
  refine ⟨_, rfl, ?_⟩
  exact (kept_ite (kept_kick (hk.le rfl) (kept_releaseCirc (hk.le rfl) (kept_note (hk.le rfl) h))) h)

theorem kept_execBackupSeek (hk : Keeps P 0x2405b) {idx : Nat} {s : State} (h : P s) :
    ∃ t, execBackupSeek idx s = .next t ∧ P t := by
  unfold execBackupSeek
  refine ⟨_, rfl, ?_⟩
  extract_lets v0 v1 v2 v3 v4 v5 v6
  have k7 : P v1 := (kept_tick (hk.le rfl) h)
  have k8 : P v5 := (kept_holdEnd (hk.le rfl) k7)
  have k9 : P v6 := (kept_setEnt (hk.le rfl) k8)
  clear_value v0 v1 v2 v3 v4 v5 v6
  exact (kept_ite h (kept_ite (kept_reportBackup (hk.le rfl) (kept_setEnt (hk.le rfl) k7)) (kept_sendRoute (hk.le rfl) k9)))

theorem kept_execPlanePathVerified (hk : Keeps P 0x13f6ff) {plane : Nat} {inp : Nat} {outp : Nat} {ok : Bool} {s : State} (h : P s) :
    ∃ t, execPlanePathVerified plane inp outp ok s = .next t ∧ P t := by
  unfold execPlanePathVerified
  refine ⟨_, rfl, ?_⟩
  split
  · rename_i y0 y1
    exact h
  · rename_i y2 y3 y4
    extract_lets v5 v6 v7 v8 v9
    have k10 : P v6 := (kept_ite h (kept_verifyFailed (hk.le rfl) h))
    have k11 : P v8 := (hk.upd k10)
    clear_value v5 v6 v7 v8 v9
    exact (kept_kick (hk.le rfl) (kept_ite (kept_ite (kept_checkLit (hk.le rfl) k11) (kept_hopLit (hk.le rfl) k11)) (kept_ite (kept_ite (kept_routeFail (hk.le rfl) k10) (kept_ite (kept_moveFail (hk.le rfl) k10) k10)) (kept_ite (kept_sendPath (hk.le rfl) k10) k10))))

theorem kept_execRecableDeadline (hk : Keeps P 0x13f6ff) {step : Nat} {s : State} (h : P s) :
    ∃ t, execRecableDeadline step s = .next t ∧ P t := by
  unfold execRecableDeadline
  refine ⟨_, rfl, ?_⟩
  refine kept_kick (hk.le rfl) ?_
  refine kept_foldl ?_ ?_
  · exact h
  · intro x0 x1 h2
    split
    · rename_i y3 y4 y5
      refine kept_ite ?_ ?_
      · extract_lets v6 v7 v8
        have k9 : P v7 := (hk.upd h2)
        have k10 : P v8 := by
          dsimp -zeta only [v8]
          refine kept_foldl ?_ ?_
          · exact k9
          · intro x11 x12 h13
            extract_lets v14 v15
            have k16 : P v15 := (kept_sendRoute (hk.le rfl) h13)
            clear_value v14 v15
            exact (kept_ite (kept_sendRoute (hk.le rfl) k16) k16)
        clear_value v6 v7 v8
        refine kept_foldl ?_ ?_
        · exact k10
        · intro x17 x18 h19
          extract_lets v20 v21
          have k22 : P v21 := (kept_setEnt (hk.le rfl) h19)
          clear_value v20 v21
          exact (kept_ite (kept_sendRoute (hk.le rfl) (kept_sendRoute (hk.le rfl) k22)) k22)
      · extract_lets v23
        have k24 : P v23 := by
          dsimp -zeta only [v23]
          refine kept_foldl ?_ ?_
          · exact h2
          · intro x25 x26 h27
            extract_lets v28 v29 v30
            have k31 : P v29 := (kept_sendRoute (hk.le rfl) h27)
            have k32 : P v30 := (kept_ite (kept_sendRoute (hk.le rfl) k31) k31)
            clear_value v28 v29 v30
            exact (kept_freeEntry (hk.le rfl) (kept_setEnt (hk.le rfl) k32))
        clear_value v23
        refine kept_foldl ?_ ?_
        · exact k24
        · intro x33 x34 h35
          exact (kept_endPath (hk.le rfl) h35)

theorem kept_tickOrig (hk : Keeps P 0x2f6ff) {s : State} {j : Nat} {x : PathJob} (h : P s) :
    P (State.tickOrig s j x) := by
  unfold State.tickOrig
  refine kept_ite ?_ ?_
  · extract_lets v0
    have k1 : P v0 := by
      dsimp -zeta only [v0]
      refine kept_foldl ?_ ?_
      · exact h
      · intro x2 x3 h4
        exact (kept_freeEntry (hk.le rfl) (kept_setEnt (hk.le rfl) h4))
    clear_value v0
    refine kept_foldl ?_ ?_
    · exact k1
    · intro x5 x6 h7
      exact (kept_endPath (hk.le rfl) h7)
  · extract_lets v8
    have k9 : P v8 := by
      dsimp -zeta only [v8]
      refine kept_foldl ?_ ?_
      · exact h
      · intro x10 x11 h12
        exact (kept_tearDown (hk.le rfl) h12)
    clear_value v8
    refine kept_foldl ?_ ?_
    · exact k9
    · intro x13 x14 h15
      extract_lets v16 v17 v18 v19 v20
      have k21 : P v18 := (kept_lightPaths (hk.le rfl) h15)
      clear_value v16 v17 v18 v19 v20
      exact (kept_setCstate (hk.le rfl) (kept_setEnt (hk.le rfl) k21))

theorem kept_tickHop (hk : Keeps P 0x2f6ff) {s : State} {i : Nat} (h : P s) :
    P (State.tickHop s i) := by
  unfold State.tickHop
  extract_lets v0 v1
  have k2 : P v1 := (kept_lightPaths (hk.le rfl) h)
  clear_value v0 v1
  exact (kept_ite (kept_ite (kept_ite (kept_setEnt (hk.le rfl) h) (kept_setCstate (hk.le rfl) (kept_setEnt (hk.le rfl) k2))) (kept_hopFree (hk.le rfl) h)) (kept_ite (kept_hopFree (hk.le rfl) h) h))

theorem kept_execRecableTick (hk : Keeps P 0x13f6ff) {step : Nat} {s : State} (h : P s) :
    ∃ t, execRecableTick step s = .next t ∧ P t := by
  unfold execRecableTick
  refine ⟨_, rfl, ?_⟩
  extract_lets v0 v1 v2 v3
  have k4 : P v2 := by
    dsimp -zeta only [v2]
    refine kept_foldl ?_ ?_
    · exact h
    · intro x5 x6 h7
      exact (kept_tickHop (hk.le rfl) h7)
  have k8 : P v3 := by
    dsimp -zeta only [v3]
    refine kept_foldl ?_ ?_
    · exact k4
    · intro x9 x10 h11
      exact (kept_tickHop (hk.le rfl) h11)
  clear_value v0 v1 v2 v3
  refine kept_kick (hk.le rfl) ?_
  refine kept_foldl ?_ ?_
  · exact k8
  · intro x12 x13 h14
    exact (kept_tickOrig (hk.le rfl) h14)

theorem kept_execReferenceQualified (hk : Keeps P 0x13f6ff) {tref : Bool} {s : State} (h : P s) :
    ∃ t, execReferenceQualified tref s = .next t ∧ P t := by
  unfold execReferenceQualified
  refine ⟨_, rfl, ?_⟩
  exact (kept_kick (hk.le rfl) (kept_referenceBack (hk.le rfl) h))

theorem kept_execSpanLossMeasure (hk : Keeps P 0x52) {port : Nat} {loss : Nat} {s : State} (h : P s) :
    ∃ t, execSpanLossMeasure port loss s = .next t ∧ P t := by
  unfold execSpanLossMeasure
  refine ⟨_, rfl, ?_⟩
  extract_lets v0 v1 v2
  have k3 : P v2 := (kept_wr (hk.le rfl) (kept_wr (hk.le rfl) (kept_wr (hk.le rfl) h)))
  clear_value v0 v1 v2
  exact (kept_ite (kept_note (hk.le rfl) k3) k3)

theorem kept_jobGone (hk : Keeps P 0x13f6ff) {s : State} {job : Nat} (h : P s) :
    P (State.jobGone s job) := by
  unfold State.jobGone
  refine kept_kick (hk.le rfl) ?_
  refine kept_foldl ?_ ?_
  · exact h
  · intro x0 x1 h2
    exact (kept_tearDown (hk.le rfl) h2)

theorem kept_leavePort (hk : Keeps P 0x13f6ff) {s : State} {port : Nat} (h : P s) :
    P (State.leavePort s port) := by
  unfold State.leavePort
  extract_lets v0 v1
  have k2 : P v1 := by
    dsimp -zeta only [v1]
    refine kept_foldl ?_ ?_
    · exact h
    · intro x3 x4 h5
      exact (kept_pathLeave (hk.le rfl) h5)
  clear_value v0 v1
  exact (kept_kick (hk.le rfl) (kept_askEvacuate (hk.le rfl) k2))

theorem kept_unroute (hk : Keeps P 0x48000) {s : State} {port : Nat} (h : P s) :
    P (State.unroute s port) := by
  unfold State.unroute
  extract_lets v0 v1
  clear_value v0 v1
  exact (hk.upd h)

theorem kept_replaceFailed (hk : Keeps P 0x8052) {s : State} {dst : Nat} {port : Nat} (h : P s) :
    P (State.replaceFailed s dst port) := by
  unfold State.replaceFailed
  split
  · rename_i y0 y1
    exact h
  · rename_i y2 y3 y4
    exact (kept_ite (kept_rtFull (hk.le rfl) h) (hk.upd h))

theorem kept_resendCopy (hk : Keeps P 0x4000) {s : State} {port : Nat} {t0 : TxPkt} (h : P s) :
    P (State.resendCopy s port t0) := by
  unfold State.resendCopy
  split
  · rename_i y0 y1 y2
    extract_lets v3
    clear_value v3
    exact (kept_setCirc (hk.le rfl) h)
  · rename_i y4 y5
    exact h

theorem kept_strand (hk : Keeps P 0xc052) {s : State} {port : Nat} (h : P s) :
    P (State.strand s port) := by
  unfold State.strand
  extract_lets v0 v1 v2
  have k3 : P v2 := (kept_setCirc (hk.le rfl) h)
  clear_value v0 v1 v2
  refine kept_foldl ?_ ?_
  · exact k3
  · intro x4 x5 h6
    exact (kept_ite h6 (kept_resendCopy (hk.le rfl) (kept_ite (kept_replaceFailed (hk.le rfl) h6) h6)))

theorem kept_chanLost (hk : Keeps P 0x4c052) {s : State} {port : Nat} (h : P s) :
    P (State.chanLost s port) := by
  unfold State.chanLost
  exact (kept_strand (hk.le rfl) (kept_unroute (hk.le rfl) h))

theorem kept_lanesLost (hk : Keeps P 0x17f6ff) {s : State} {lanes : List Nat} (h : P s) :
    P (State.lanesLost s lanes) := by
  unfold State.lanesLost
  split
  · rename_i y0
    exact h
  · rename_i y1 y2 y3
    split
    · rename_i y4 y5
      exact h
    · rename_i y6 y7 y8
      exact (kept_ite (kept_chanLost (hk.le rfl) h) (kept_kick (hk.le rfl) (kept_pathFailed (hk.le rfl) (kept_circMoving (hk.le rfl) h))))

theorem kept_trainLost (hk : Keeps P 0x17f6ff) {s : State} {lane : Nat} {cause : Nat} (h : P s) :
    P (State.trainLost s lane cause) := by
  unfold State.trainLost
  exact (kept_lanesLost (hk.le rfl) (kept_trainFail (hk.le rfl) h))

theorem kept_failLanes (hk : Keeps P 0x17f6ff) {s : State} {lanes : List Nat} {cond : LaneFailCond} (h : P s) :
    P (State.failLanes s lanes cond) := by
  unfold State.failLanes
  refine kept_lanesLost (hk.le rfl) ?_
  refine kept_foldl ?_ ?_
  · exact h
  · intro x0 x1 h2
    exact (kept_note (hk.le rfl) (kept_laneFailed (hk.le rfl) h2))

theorem kept_execLaneFail (hk : Keeps P 0x17f6ff) {lane : Nat} {cond : LaneFailCond} {s : State} (h : P s) :
    ∃ t, execLaneFail lane cond s = .next t ∧ P t := by
  unfold execLaneFail
  refine ⟨_, rfl, ?_⟩
  extract_lets v0
  clear_value v0
  exact (kept_ite h (kept_failLanes (hk.le rfl) h))

theorem kept_execLaneBoundExceeded (hk : Keeps P 0x17f6ff) {lane : Nat} {s : State} (h : P s) :
    ∃ t, execLaneBoundExceeded lane s = .next t ∧ P t := by
  unfold execLaneBoundExceeded
  refine ⟨_, rfl, ?_⟩
  exact (kept_ite (kept_trainLost (hk.le rfl) h) h)

theorem kept_execInit (hk : Keeps P 0x17f6ff) {lane : Nat} {node : Nat} {inc : Nat} {circ : Nat} {laneI : Nat} {k0 : Nat} {plane : Nat} {ready : Bool} {s : State} (h : P s) :
    ∃ t, execInit lane node inc circ laneI k0 plane ready s = .next t ∧ P t := by
  unfold execInit
  refine ⟨_, rfl, ?_⟩
  refine kept_ite ?_ ?_
  · exact h
  · split
    · rename_i y0 y1
      exact h
    · rename_i y2 y3 y4
      extract_lets v5 v6 v7 v8
      have k9 : P v8 := (kept_setCirc (hk.le rfl) (kept_setLane (hk.le rfl) h))
      clear_value v5 v6 v7 v8
      refine kept_ite ?_ ?_
      · exact (kept_trainLost (hk.le rfl) h)
      · refine kept_ite ?_ ?_
        · exact h
        · refine kept_ite ?_ ?_
          · refine kept_foldl ?_ ?_
            · exact k9
            · intro x10 x11 h12
              exact (kept_ite (kept_setLaneState (hk.le rfl) h12) h12)
          · exact k9

theorem kept_execLaneCheckComplete (hk : Keeps P 0x17f6ff) {lane : Nat} {corrected : Nat} {uncorr : Nat} {s : State} (h : P s) :
    ∃ t, execLaneCheckComplete lane corrected uncorr s = .next t ∧ P t := by
  unfold execLaneCheckComplete
  refine ⟨_, rfl, ?_⟩
  refine kept_ite ?_ ?_
  · exact h
  · refine kept_ite ?_ ?_
    · extract_lets v0
      have k1 : P v0 := (kept_laneUp (hk.le rfl) h)
      clear_value v0
      split
      · rename_i y2 y3
        exact k1
      · rename_i y4 y5 y6
        refine kept_ite ?_ ?_
        · extract_lets v7 v8
          have k9 : P v7 := (kept_meetFar (hk.le rfl) k1)
          clear_value v7 v8
          exact (hk.upd k9)
        · exact (kept_ite (kept_kick (hk.le rfl) (kept_pathUp (hk.le rfl) (kept_circEnterUp (hk.le rfl) k1))) k1)
    · exact (kept_ite (kept_trainLost (hk.le rfl) h) (kept_setLane (hk.le rfl) (kept_setLaneState (hk.le rfl) h)))

theorem kept_execAckTimeout (hk : Keeps P 0x17f6ff) {circ : Nat} {s : State} (h : P s) :
    ∃ t, execAckTimeout circ s = .next t ∧ P t := by
  unfold execAckTimeout
  refine ⟨_, rfl, ?_⟩
  extract_lets v0 v1 v2
  have k3 : P v1 := (kept_setCirc (hk.le rfl) (kept_bump (hk.le rfl) h))
  clear_value v0 v1 v2
  exact (kept_ite h (kept_ite (kept_failLanes (hk.le rfl) (kept_setCirc (hk.le rfl) k3)) (kept_resend (hk.le rfl) k3)))

theorem kept_setPortDisc (hk : Keeps P 0x40000) {s : State} {p0 : Nat} {x : PortDisc} (h : P s) :
    P (State.setPortDisc s p0 x) := by
  unfold State.setPortDisc
  exact (hk.upd h)

theorem kept_checkNodeValid (hk : Keeps P 0x52) {s : State} (h : P s) :
    P (State.checkNodeValid s) := by
  unfold State.checkNodeValid
  refine kept_ite ?_ ?_
  · exact h
  · extract_lets v0 v1
    clear_value v0 v1
    exact (kept_ite (kept_note (hk.le rfl) (kept_wr (hk.le rfl) h)) h)

theorem kept_reportPlan (hk : Keeps P 0x2) {s : State} {port : Nat} (h : P s) :
    P (State.reportPlan s port) := by
  unfold State.reportPlan
  split
  · rename_i y0 y1 y2 y3
    exact (kept_wr (hk.le rfl) (kept_wr (hk.le rfl) (kept_wr (hk.le rfl) h)))
  · rename_i y4 y5
    exact (kept_wr (hk.le rfl) (kept_wr (hk.le rfl) (kept_wr (hk.le rfl) h)))

theorem kept_setVerdict (hk : Keeps P 0x17f6ff) {s : State} {port : Nat} {v : Nat} {d : Option Disc} (h : P s) :
    P (State.setVerdict s port v d) := by
  unfold State.setVerdict
  extract_lets v0 v1 v2 v3 v4
  clear_value v0 v1 v2 v3 v4
  split
  · rename_i y5 y6 y7 y8 y9
    extract_lets v10 v11 v12 v13 v14 v15 v16 v17 v18 v19 v20 v21
    have k22 : P v10 := (kept_ite (hk.upd h) h)
    have k23 : P v11 := (kept_reportPlan (hk.le rfl) (kept_wr (hk.le rfl) (kept_wr (hk.le rfl) (kept_wr (hk.le rfl) (kept_wr (hk.le rfl) (kept_wr (hk.le rfl) (kept_wr (hk.le rfl) (kept_wr (hk.le rfl) k22))))))))
    have k24 : P v13 := (hk.upd k23)
    have k25 : P v15 := (kept_setLaneState (hk.le rfl) k24)
    have k26 : P v16 := (kept_ite (kept_chanLost (hk.le rfl) k25) k25)
    have k27 : P v17 := (kept_ite (kept_setLaneState (hk.le rfl) k24) k24)
    have k28 : P v18 := (kept_ite (kept_note (hk.le rfl) k26) (kept_ite (kept_ite (kept_note (hk.le rfl) k27) k27) k24))
    have k29 : P v19 := (kept_ite (kept_note (hk.le rfl) k28) k28)
    have k30 : P v20 := (kept_ite (kept_note (hk.le rfl) k29) k29)
    have k31 : P v21 := (kept_ite (kept_leavePort (hk.le rfl) (kept_unroute (hk.le rfl) k30)) k30)
    clear_value v10 v11 v12 v13 v14 v15 v16 v17 v18 v19 v20 v21
    exact (kept_ite k23 (kept_checkNodeValid (hk.le rfl) k31))

theorem kept_execDisc (hk : Keeps P 0x17f6ff) {port : Nat} {blk : Disc} {s : State} (h : P s) :
    ∃ t, execDisc port blk s = .next t ∧ P t := by
  unfold execDisc
  refine ⟨_, rfl, ?_⟩
  extract_lets v0 v1 v2 v3 v4 v5 v6
  have k7 : P v5 := (kept_setPortDisc (hk.le rfl) h)
  have k8 : P v6 := by
    dsimp -zeta only [v6]
    split
    · rename_i y9 y10 y11
      exact (kept_ite (kept_note (hk.le rfl) (kept_setPortDisc (hk.le rfl) k7)) k7)
    · rename_i y12 y13
      exact k7
  clear_value v0 v1 v2 v3 v4 v5 v6
  exact (kept_ite h (kept_ite (kept_setVerdict (hk.le rfl) k8) k8))

theorem kept_execDiscSend (hk : Keeps P 0x8) {port : Nat} {s : State} (h : P s) :
    ∃ t, execDiscSend port s = .next t ∧ P t := by
  unfold execDiscSend
  refine ⟨_, rfl, ?_⟩
  extract_lets v0 v1
  clear_value v0 v1
  refine kept_ite ?_ ?_
  · exact h
  · split
    · rename_i y2 y3 y4 y5
      exact (kept_emit (hk.le rfl) h)

theorem kept_execDiscTimeout (hk : Keeps P 0x17f6ff) {port : Nat} {s : State} (h : P s) :
    ∃ t, execDiscTimeout port s = .next t ∧ P t := by
  unfold execDiscTimeout
  refine ⟨_, rfl, ?_⟩
  extract_lets v0 v1
  have k2 : P v1 := (kept_setPortDisc (hk.le rfl) h)
  clear_value v0 v1
  exact (kept_ite (kept_setVerdict (hk.le rfl) k2) (kept_setVerdict (hk.le rfl) k2))

theorem kept_execRoutingRebuild (hk : Keeps P 0x4d001) {s : State} (h : P s) :
    ∃ t, execRoutingRebuild s = .next t ∧ P t := by
  unfold execRoutingRebuild
  refine ⟨_, rfl, ?_⟩
  extract_lets v0 v1 v2 v3 v4
  clear_value v0 v1 v2 v3 v4
  exact (kept_orqMirror (hk.le rfl) (kept_ite (hk.upd h) (hk.upd h)))

theorem kept_reportPlanStatus (hk : Keeps P 0x2) {s : State} (h : P s) :
    P (State.reportPlanStatus s) := by
  unfold State.reportPlanStatus
  split
  · rename_i y0 y1 y2 y3 y4 y5
    exact (kept_wr (hk.le rfl) (kept_wr (hk.le rfl) (kept_wr (hk.le rfl) (kept_wr (hk.le rfl) (kept_wr (hk.le rfl) h)))))

theorem kept_takeNode (hk : Keeps P 0x2) {s : State} {node : Nat} (h : P s) :
    P (State.takeNode s node) := by
  unfold State.takeNode
  exact (kept_ite h (kept_wr (hk.le rfl) (kept_wr (hk.le rfl) h)))

theorem kept_adoptPlan (hk : Keeps P 0x17f6ff) {s : State} {p0 : Option Plan} {prev : Option Plan} (h : P s) :
    P (State.adoptPlan s p0 prev) := by
  unfold State.adoptPlan
  extract_lets v0 v1 v2 v3 v4 v5 v6 v7
  have k8 : P v2 := (hk.upd h)
  have k9 : P v3 := (kept_takeNode (hk.le rfl) (kept_reportPlanStatus (hk.le rfl) k8))
  have k10 : P v4 := by
    dsimp -zeta only [v4]
    refine kept_foldl ?_ ?_
    · exact k9
    · intro x11 x12 h13
      extract_lets v14
      clear_value v14
      split
      · rename_i y15 y16 y17
        exact (kept_ite (kept_setVerdict (hk.le rfl) h13) (kept_reportPlan (hk.le rfl) h13))
      · rename_i y18 y19
        exact (kept_ite (kept_setVerdict (hk.le rfl) h13) (kept_ite (kept_setVerdict (hk.le rfl) h13) (kept_reportPlan (hk.le rfl) h13)))
  have k20 : P v5 := by
    dsimp -zeta only [v5]
    refine kept_foldl ?_ ?_
    · exact k10
    · intro x21 x22 h23
      extract_lets v24
      clear_value v24
      exact (kept_ite (kept_leavePort (hk.le rfl) h23) h23)
  have k25 : P v7 := by
    dsimp -zeta only [v7]
    split
    · rename_i y26 y27
      exact (kept_note (hk.le rfl) k20)
    · rename_i y28
      exact k20
  clear_value v0 v1 v2 v3 v4 v5 v6 v7
  exact (kept_checkNodeValid (hk.le rfl) k25)

theorem kept_noteLength (hk : Keeps P 0x40052) {s : State} {port : Nat} {len : Nat} (h : P s) :
    P (State.noteLength s port len) := by
  unfold State.noteLength
  extract_lets v0 v1
  have k2 : P v1 := (hk.upd h)
  exact (kept_ite (kept_note (hk.le rfl) k2) k2)

theorem kept_setHceState (hk : Keeps P 0x2) {s : State} {i : Nat} {v : Nat} (h : P s) :
    P (State.setHceState s i v) := by
  unfold State.setHceState
  exact (kept_wr (hk.le rfl) h)

theorem kept_setLoop (hk : Keeps P 0x80000) {s : State} {i : Nat} {x : Loop} (h : P s) :
    P (State.setLoop s i x) := by
  unfold State.setLoop
  exact (hk.upd h)

theorem kept_setHceGroup (hk : Keeps P 0x80000) {s : State} {g : Nat} {x : Group} (h : P s) :
    P (State.setHceGroup s g x) := by
  unfold State.setHceGroup
  exact (hk.upd h)

theorem kept_keepMoved (hk : Keeps P 0x2) {s : State} {w : Nat} {tenths : Int} (h : P s) :
    P (State.keepMoved s w tenths) := by
  unfold State.keepMoved
  exact (kept_ite h (kept_wr (hk.le rfl) h))

theorem kept_takeCal (hk : Keeps P 0x80002) {s : State} {i : Nat} (h : P s) :
    P (State.takeCal s i) := by
  unfold State.takeCal
  refine kept_ite ?_ ?_
  · exact h
  · extract_lets v0 v1 v2 v3
    have k4 : P v3 := (kept_wreg (hk.le rfl) (hk.upd h))
    clear_value v0 v1 v2 v3
    refine kept_foldl ?_ ?_
    · exact k4
    · intro x5 x6 h7
      exact (kept_keepMoved (hk.le rfl) h7)

theorem kept_enterOpen (hk : Keeps P 0x80002) {s : State} {i : Nat} (h : P s) :
    P (State.enterOpen s i) := by
  unfold State.enterOpen
  extract_lets v0 v1
  have k2 : P v0 := (kept_takeCal (hk.le rfl) h)
  clear_value v0 v1
  exact (kept_setHceState (hk.le rfl) (kept_setLoop (hk.le rfl) k2))

theorem kept_bumpless (hk : Keeps P 0x80002) {s : State} {i : Nat} (h : P s) :
    P (State.bumpless s i) := by
  unfold State.bumpless
  extract_lets v0
  clear_value v0
  exact (kept_setHceState (hk.le rfl) (kept_setLoop (hk.le rfl) h))

theorem kept_applyStep (hk : Keeps P 0x80002) {s : State} {i : Nat} {target : Bool} {lit : Bool} (h : P s) :
    P (State.applyStep s i target lit) := by
  unfold State.applyStep
  extract_lets v0 v1 v2 v3
  have k4 : P v1 := (kept_wr (hk.le rfl) (kept_wr (hk.le rfl) h))
  have k5 : P v2 := (kept_setLoop (hk.le rfl) k4)
  clear_value v0 v1 v2 v3
  exact (kept_ite k5 (kept_setHceState (hk.le rfl) (kept_wr (hk.le rfl) k5)))

theorem kept_beginRamp (hk : Keeps P 0x80002) {s : State} {i : Nat} (h : P s) :
    P (State.beginRamp s i) := by
  unfold State.beginRamp
  extract_lets v0
  clear_value v0
  split
  · rename_i y1 y2
    exact h
  · rename_i y3 y4 y5
    extract_lets v6 v7
    have k8 : P v6 := (kept_setLoop (hk.le rfl) h)
    clear_value v6 v7
    exact (kept_ite k8 (kept_setHceState (hk.le rfl) (kept_wr (hk.le rfl) k8)))

theorem kept_rampSample (hk : Keeps P 0x80002) {s : State} {i : Nat} {inc : Nat} (h : P s) :
    P (State.rampSample s i inc) := by
  unfold State.rampSample
  extract_lets v0
  clear_value v0
  split
  · rename_i y1 y2
    exact h
  · rename_i y3 y4 y5
    refine kept_ite ?_ ?_
    · exact (kept_setLoop (hk.le rfl) h)
    · extract_lets v6 v7
      have k8 : P v6 := (kept_ite (kept_beginRamp (hk.le rfl) h) h)
      clear_value v6 v7
      split
      · rename_i y9 y10
        exact k8
      · rename_i y11 y12 y13
        extract_lets v14 v15 v16 v17
        have k18 : P v17 := (kept_setLoop (hk.le rfl) k8)
        clear_value v14 v15 v16 v17
        exact (kept_ite (kept_setHceState (hk.le rfl) k18) k18)

theorem kept_sampleLoop (hk : Keeps P 0x80002) {s : State} {i : Nat} {n0 : Nat} {inc : Nat} {tap : Option Int} (h : P s) :
    P (State.sampleLoop s i n0 inc tap) := by
  unfold State.sampleLoop
  extract_lets v0 v1 v2 v3 v4 v5 v6 v7 v8 v9 v10 v11 v12 v13 v14 v15
  have k16 : P v1 := by
    dsimp -zeta only [v1]
    split
    · rename_i y17 y18 y19 y20 y21
      exact (kept_applyStep (hk.le rfl) (hk.upd h))
    · rename_i y22 y23
      exact h
  have k24 : P v5 := (kept_ite (kept_rampSample (hk.le rfl) k16) k16)
  have k25 : P v8 := (kept_ite (kept_ite (kept_setHceState (hk.le rfl) k24) (kept_ite (kept_enterOpen (hk.le rfl) k24) (kept_setLoop (hk.le rfl) k24))) (kept_ite (kept_setHceState (hk.le rfl) k24) (kept_ite (kept_enterOpen (hk.le rfl) k24) k24)))
  have k26 : P v14 := (kept_setLoop (hk.le rfl) k25)
  exact (kept_ite (kept_setLoop (hk.le rfl) k24) (kept_ite (kept_bumpless (hk.le rfl) (kept_setLoop (hk.le rfl) k26)) k26))

theorem kept_groupPeriod (hk : Keeps P 0x80002) {s : State} {n0 : Nat} {g : Nat} {late : List Nat} (h : P s) :
    P (State.groupPeriod s n0 g late) := by
  unfold State.groupPeriod
  extract_lets v0 v1 v2
  have k3 : P v2 := (kept_bump (hk.le rfl) (kept_bump (hk.le rfl) h))
  clear_value v0 v1 v2
  exact (kept_ite h (kept_ite (kept_setHceGroup (hk.le rfl) (kept_wr (hk.le rfl) k3)) (kept_setHceGroup (hk.le rfl) (kept_wr (hk.le rfl) h))))

theorem kept_execHcePeriod (hk : Keeps P 0x80002) {taps : List LoopTap} {late : List Nat} {s : State} (h : P s) :
    ∃ t, execHcePeriod taps late s = .next t ∧ P t := by
  unfold execHcePeriod
  refine ⟨_, rfl, ?_⟩
  refine kept_ite ?_ ?_
  · exact h
  · extract_lets v0 v1 v2 v3 v4 v5 v6 v7 v8
    have k9 : ∀ b10 b11, P b10 → P (v3 b10 b11) := by
      intro h15 h16 h17
      dsimp -zeta only [v3]
      extract_lets v18
      clear_value v18
      exact (kept_sampleLoop (hk.le rfl) h17)
    have k19 : P v5 := by
      dsimp -zeta only [v5]
      refine kept_foldl ?_ ?_
      · exact h
      · intro x20 x21 h22
        exact (k9 _ _ h22)
    have k23 : P v6 := by
      dsimp -zeta only [v6]
      refine kept_foldl ?_ ?_
      · exact k19
      · intro x24 x25 h26
        exact (k9 _ _ h26)
    have k27 : P v7 := by
      dsimp -zeta only [v7]
      refine kept_foldl ?_ ?_
      · exact k23
      · intro x28 x29 h30
        exact (kept_groupPeriod (hk.le rfl) h30)
    clear_value v0 v1 v2 v3 v4 v5 v6 v7 v8
    exact (hk.upd k27)

theorem kept_groupHold (hk : Keeps P 0x2) {s : State} {g : Nat} (h : P s) :
    P (State.groupHold s g) := by
  unfold State.groupHold
  refine kept_foldl ?_ ?_
  · exact h
  · intro x0 x1 h2
    exact (kept_ite h2 (kept_setHceState (hk.le rfl) h2))

theorem kept_execGroupRateDown (hk : Keeps P 0x52) {group : Nat} {s : State} (h : P s) :
    ∃ t, execGroupRateDown group s = .next t ∧ P t := by
  unfold execGroupRateDown
  refine ⟨_, rfl, ?_⟩
  refine kept_ite ?_ ?_
  · exact h
  · extract_lets v0 v1
    have k2 : P v0 := (kept_wr (hk.le rfl) h)
    clear_value v0 v1
    exact (kept_ite (kept_note (hk.le rfl) (kept_wr (hk.le rfl) k2)) (kept_ite (kept_note (hk.le rfl) (kept_groupHold (hk.le rfl) (kept_wr (hk.le rfl) k2))) k2))

theorem kept_groupFull (hk : Keeps P 0x80052) {s : State} {g : Nat} (h : P s) :
    P (State.groupFull s g) := by
  unfold State.groupFull
  extract_lets v0 v1 v2 v3
  have k4 : P v1 := by
    dsimp -zeta only [v1]
    refine kept_ite ?_ ?_
    · refine kept_foldl ?_ ?_
      · exact h
      · intro x5 x6 h7
        exact (kept_ite (kept_ite (kept_bumpless (hk.le rfl) h7) (kept_enterOpen (hk.le rfl) h7)) h7)
    · exact h
  have k8 : P v3 := (kept_setHceGroup (hk.le rfl) k4)
  clear_value v0 v1 v2 v3
  exact (kept_note (hk.le rfl) (kept_wr (hk.le rfl) (kept_wr (hk.le rfl) k8)))

theorem kept_execGroupRateRestore (hk : Keeps P 0x80052) {group : Nat} {s : State} (h : P s) :
    ∃ t, execGroupRateRestore group s = .next t ∧ P t := by
  unfold execGroupRateRestore
  refine ⟨_, rfl, ?_⟩
  exact (kept_ite (kept_groupFull (hk.le rfl) h) h)

theorem kept_groupResume (hk : Keeps P 0x80052) {s : State} {group : Nat} (h : P s) :
    P (State.groupResume s group) := by
  unfold State.groupResume
  exact (kept_ite (kept_groupFull (hk.le rfl) h) h)

theorem kept_execGroupResume (hk : Keeps P 0x800d2) {group : Nat} {s : State} (h : P s) :
    ∃ t, execGroupResume group s = .next t ∧ P t := by
  unfold execGroupResume
  refine ⟨_, rfl, ?_⟩
  exact (kept_groupResume (hk.le rfl) (kept_leaveDormant (hk.le rfl) h))

theorem kept_setRamp (hk : Keeps P 0x80002) {s : State} {r : RampRec} {len : Nat} {wait : Nat} (h : P s) :
    P (State.setRamp s r len wait) := by
  unfold State.setRamp
  extract_lets v0 v1 v2
  have k3 : P v2 := (kept_wr (hk.le rfl) (kept_wr (hk.le rfl) h))
  clear_value v0 v1 v2
  exact (kept_ite h (kept_setLoop (hk.le rfl) k3))

theorem kept_rampLate (hk : Keeps P 0x52) {s : State} {r : RampRec} {late : Nat} (h : P s) :
    P (State.rampLate s r late) := by
  unfold State.rampLate
  exact (kept_note (hk.le rfl) (kept_bump (hk.le rfl) h))

theorem kept_execRampRecord (hk : Keeps P 0x80052) {loop : Nat} {target : Bool} {recable : Bool} {lit : Bool} {start : Nat} {late : Nat} {s : State} (h : P s) :
    ∃ t, execRampRecord loop target recable lit start late s = .next t ∧ P t := by
  unfold execRampRecord
  refine ⟨_, rfl, ?_⟩
  extract_lets v0 v1
  clear_value v0 v1
  exact (kept_ite h (kept_ite (hk.upd h) (kept_ite (kept_rampLate (hk.le rfl) h) (kept_setRamp (hk.le rfl) h))))

theorem kept_execRampStart (hk : Keeps P 0x80052) {step : Nat} {late : Nat} {s : State} (h : P s) :
    ∃ t, execRampStart step late s = .next t ∧ P t := by
  unfold execRampStart
  refine ⟨_, rfl, ?_⟩
  extract_lets v0 v1 v2
  have k3 : P v2 := (hk.upd h)
  clear_value v0 v1 v2
  refine kept_foldl ?_ ?_
  · exact k3
  · intro x4 x5 h6
    exact (kept_ite (kept_rampLate (hk.le rfl) h6) (kept_setRamp (hk.le rfl) h6))

theorem kept_stepPoint (hk : Keeps P 0x80000) {s : State} {i : Nat} {target : Bool} {lit : Bool} (h : P s) :
    P (State.stepPoint s i target lit) := by
  unfold State.stepPoint
  exact (hk.upd h)

theorem kept_hceReject (hk : Keeps P 0x52) {s : State} {off : Nat} {status : Nat} (h : P s) :
    P (State.hceReject s off status) := by
  unfold State.hceReject
  exact (kept_note (hk.le rfl) h)

theorem kept_spGo (hk : Keeps P 0x80052) {s : State} {val : Nat} (h : P s) :
    P (State.spGo s val) := by
  unfold State.spGo
  extract_lets v0
  have k1 : P v0 := (kept_wr (hk.le rfl) (kept_wr (hk.le rfl) (kept_wr (hk.le rfl) h)))
  clear_value v0
  exact (kept_ite (kept_hceReject (hk.le rfl) k1) (kept_stepPoint (hk.le rfl) k1))

theorem kept_execHceSpGo (hk : Keeps P 0x800d2) {val : Nat} {s : State} (h : P s) :
    ∃ t, execHceSpGo val s = .next t ∧ P t := by
  unfold execHceSpGo
  refine ⟨_, rfl, ?_⟩
  exact (kept_spGo (hk.le rfl) (kept_leaveDormant (hk.le rfl) h))

theorem kept_loopHoldOn (hk : Keeps P 0x80002) {s : State} {i : Nat} (h : P s) :
    P (State.loopHoldOn s i) := by
  unfold State.loopHoldOn
  extract_lets v0 v1 v2 v3
  have k4 : P v2 := (kept_setLoop (hk.le rfl) (kept_wr (hk.le rfl) h))
  clear_value v0 v1 v2 v3
  exact (kept_ite (kept_setHceState (hk.le rfl) (kept_setLoop (hk.le rfl) k4)) k4)

theorem kept_loopHoldOff (hk : Keeps P 0x80002) {s : State} {i : Nat} (h : P s) :
    P (State.loopHoldOff s i) := by
  unfold State.loopHoldOff
  extract_lets v0
  have k1 : P v0 := (kept_wr (hk.le rfl) h)
  clear_value v0
  exact (kept_ite (kept_ite (kept_bumpless (hk.le rfl) k1) (kept_setHceState (hk.le rfl) k1)) k1)

theorem kept_execLoopHold (hk : Keeps P 0x80082) {loop : Nat} {s : State} (h : P s) :
    ∃ t, execLoopHold loop s = .next t ∧ P t := by
  unfold execLoopHold
  refine ⟨_, rfl, ?_⟩
  exact (kept_ite (kept_loopHoldOn (hk.le rfl) (kept_leaveDormant (hk.le rfl) h)) h)

theorem kept_execLoopHoldRelease (hk : Keeps P 0x80082) {loop : Nat} {s : State} (h : P s) :
    ∃ t, execLoopHoldRelease loop s = .next t ∧ P t := by
  unfold execLoopHoldRelease
  refine ⟨_, rfl, ?_⟩
  exact (kept_ite (kept_loopHoldOff (hk.le rfl) (kept_leaveDormant (hk.le rfl) h)) h)

theorem kept_selectSet (hk : Keeps P 0x80002) {s : State} {i : Nat} {set : Nat} (h : P s) :
    P (State.selectSet s i set) := by
  unfold State.selectSet
  extract_lets v0 v1
  have k2 : P v0 := (kept_wr (hk.le rfl) h)
  clear_value v0 v1
  exact (kept_ite (kept_setHceState (hk.le rfl) (kept_setLoop (hk.le rfl) k2)) k2)

theorem kept_execSetSelWrite (hk : Keeps P 0x80082) {loop : Nat} {set : Nat} {s : State} (h : P s) :
    ∃ t, execSetSelWrite loop set s = .next t ∧ P t := by
  unfold execSetSelWrite
  refine ⟨_, rfl, ?_⟩
  exact (kept_ite (kept_selectSet (hk.le rfl) (kept_leaveDormant (hk.le rfl) h)) h)

theorem kept_judgeLoop (hk : Keeps P 0x80052) {s : State} {i : Nat} {taps : List WindowTap} (h : P s) :
    P (State.judgeLoop s i taps) := by
  unfold State.judgeLoop
  extract_lets v0 v1 v2 v3 v4
  have k5 : P v2 := (kept_setLoop (hk.le rfl) h)
  have k6 : P v3 := (kept_wr (hk.le rfl) (kept_bump (hk.le rfl) (kept_bump (hk.le rfl) k5)))
  have k7 : P v4 := (kept_wr (hk.le rfl) (kept_bumpless (hk.le rfl) h))
  clear_value v0 v1 v2 v3 v4
  refine kept_ite ?_ ?_
  · split
    · rename_i y8
      exact (kept_setLoop (hk.le rfl) h)
    · rename_i y9 y10
      exact (kept_ite (kept_setLoop (hk.le rfl) h) (kept_note (hk.le rfl) (kept_setHceState (hk.le rfl) k6)))
  · refine kept_ite ?_ ?_
    · split
      · rename_i y11 y12
        exact (kept_setLoop (hk.le rfl) h)
      · rename_i y13
        exact (kept_ite (kept_setLoop (hk.le rfl) h) (kept_note (hk.le rfl) k7))
    · exact h

theorem kept_execHceWindow (hk : Keeps P 0x80052) {judged : List WindowTap} {s : State} (h : P s) :
    ∃ t, execHceWindow judged s = .next t ∧ P t := by
  unfold execHceWindow
  refine ⟨_, rfl, ?_⟩
  refine kept_foldl ?_ ?_
  · exact h
  · intro x0 x1 h2
    exact (kept_judgeLoop (hk.le rfl) h2)

theorem kept_hceStart (hk : Keeps P 0x80002) {s : State} (h : P s) :
    P (State.hceStart s) := by
  unfold State.hceStart
  extract_lets v0 v1 v2
  have k3 : P v1 := (hk.upd h)
  have k4 : P v2 := by
    dsimp -zeta only [v2]
    refine kept_foldl ?_ ?_
    · exact k3
    · intro x5 x6 h7
      exact (kept_ite h7 (kept_wr (hk.le rfl) (kept_setHceState (hk.le rfl) h7)))
  clear_value v0 v1 v2
  exact (kept_wr (hk.le rfl) k4)

theorem kept_hceStop (hk : Keeps P 0x2) {s : State} (h : P s) :
    P (State.hceStop s) := by
  unfold State.hceStop
  exact (kept_wr (hk.le rfl) h)

theorem kept_trigFire (hk : Keeps P 0x255a) {s : State} {n0 : Nat} {t0 : Trig} {late : Bool} (h : P s) :
    P (State.trigFire s n0 t0 late) := by
  unfold State.trigFire
  extract_lets v0 v1 v2 v3 v4 v5
  have k6 : P v1 := (hk.upd h)
  have k7 : P v2 := (kept_wr (hk.le rfl) (kept_wr (hk.le rfl) k6))
  have k8 : P v3 := (kept_ite (kept_wr (hk.le rfl) k7) k7)
  clear_value v0 v1 v2 v3 v4 v5
  exact (kept_ite k8 (kept_ite (kept_emit (hk.le rfl) k8) (kept_ite (kept_updateEvent (hk.le rfl) k8) (kept_note (hk.le rfl) k8))))

theorem kept_trigWrite (hk : Keeps P 0x2) {s : State} {n0 : Nat} {val : Nat} (h : P s) :
    P (State.trigWrite s n0 val) := by
  unfold State.trigWrite
  extract_lets v0 v1
  have k2 : P v0 := (kept_wr (hk.le rfl) (kept_wr (hk.le rfl) (kept_wr (hk.le rfl) (kept_wr (hk.le rfl) (kept_wr (hk.le rfl) (kept_wr (hk.le rfl) h))))))
  have k3 : P v1 := (kept_ite (kept_wr (hk.le rfl) k2) k2)
  clear_value v0 v1
  exact (kept_ite (kept_wr (hk.le rfl) k3) k3)

theorem kept_trigArm (hk : Keeps P 0x255a) {s : State} {n0 : Nat} (h : P s) :
    P (State.trigArm s n0) := by
  unfold State.trigArm
  extract_lets v0 v1
  clear_value v0 v1
  exact (kept_ite (kept_trigFire (hk.le rfl) h) (kept_wr (hk.le rfl) (hk.upd h)))

theorem kept_trigDisarm (hk : Keeps P 0x102) {s : State} {n0 : Nat} (h : P s) :
    P (State.trigDisarm s n0) := by
  unfold State.trigDisarm
  exact (kept_wr (hk.le rfl) (hk.upd h))

theorem kept_trigReject (hk : Keeps P 0x52) {s : State} {n0 : Nat} (h : P s) :
    P (State.trigReject s n0) := by
  unfold State.trigReject
  exact (kept_noteOffset (hk.le rfl) h)

theorem kept_execTriggerArm (hk : Keeps P 0x25da) {n0 : Nat} {val : Nat} {s : State} (h : P s) :
    ∃ t, execTriggerArm n0 val s = .next t ∧ P t := by
  unfold execTriggerArm
  refine ⟨_, rfl, ?_⟩
  extract_lets v0
  have k1 : P v0 := (kept_leaveDormant (hk.le rfl) h)
  clear_value v0
  exact (kept_ite k1 (kept_ite (kept_trigReject (hk.le rfl) k1) (kept_trigArm (hk.le rfl) (kept_trigWrite (hk.le rfl) k1))))

theorem kept_execTriggerDisarm (hk : Keeps P 0x1d2) {n0 : Nat} {val : Nat} {s : State} (h : P s) :
    ∃ t, execTriggerDisarm n0 s val = .next t ∧ P t := by
  unfold execTriggerDisarm
  refine ⟨_, rfl, ?_⟩
  extract_lets v0
  have k1 : P v0 := (kept_leaveDormant (hk.le rfl) h)
  clear_value v0
  exact (kept_ite k1 (kept_ite (kept_trigReject (hk.le rfl) k1) (kept_trigDisarm (hk.le rfl) (kept_trigWrite (hk.le rfl) k1))))

theorem kept_execTriggerFire (hk : Keeps P 0x255a) {n0 : Nat} {s : State} (h : P s) :
    ∃ t, execTriggerFire n0 s = .next t ∧ P t := by
  unfold execTriggerFire
  refine ⟨_, rfl, ?_⟩
  split
  · rename_i y0 y1 y2
    exact (kept_ite (kept_trigFire (hk.le rfl) h) h)
  · rename_i y3 y4
    exact h

theorem kept_setAdj (hk : Keeps P 0x100) {s : State} {adj : Int} (h : P s) :
    P (State.setAdj s adj) := by
  unfold State.setAdj
  extract_lets v0
  clear_value v0
  exact (kept_ite h (hk.upd h))

theorem kept_trigPassed (hk : Keeps P 0x255a) {s : State} (h : P s) :
    P (State.trigPassed s) := by
  unfold State.trigPassed
  refine kept_foldl ?_ ?_
  · exact h
  · intro x0 x1 h2
    exact (kept_ite (kept_trigFire (hk.le rfl) h2) h2)

theorem kept_stepTime (hk : Keeps P 0x255a) {s : State} {theta : Int} {src : Nat} (h : P s) :
    P (State.stepTime s theta src) := by
  unfold State.stepTime
  extract_lets v0 v1 v2 v3
  have k4 : P v2 := (hk.upd h)
  have k5 : P v3 := (kept_wr (hk.le rfl) (kept_wr (hk.le rfl) (kept_wr (hk.le rfl) k4)))
  clear_value v0 v1 v2 v3
  exact (kept_when (hk.le rfl) (kept_note (hk.le rfl) k5) (fun x6 h7 => (kept_trigPassed (hk.le rfl) h7)))

theorem kept_servo (hk : Keeps P 0x255a) {s : State} {off : Int} {src : Nat} (h : P s) :
    P (State.servo s off src) := by
  unfold State.servo
  extract_lets v0 v1 v2 v3 v4 v5
  have k6 : P v1 := (kept_wr (hk.le rfl) h)
  clear_value v0 v1 v2 v3 v4 v5
  exact (kept_ite (kept_stepTime (hk.le rfl) k6) (kept_ite k6 (kept_setAdj (hk.le rfl) (hk.upd k6))))

theorem kept_judgeLock (hk : Keeps P 0x102) {s : State} {off : Int} (h : P s) :
    P (State.judgeLock s off) := by
  unfold State.judgeLock
  extract_lets v0 v1 v2 v3 v4
  have k5 : P v4 := (hk.upd h)
  clear_value v0 v1 v2 v3 v4
  exact (kept_ite (kept_wr (hk.le rfl) k5) (kept_ite (kept_wr (hk.le rfl) k5) k5))

theorem kept_beMaster (hk : Keeps P 0x2) {s : State} (h : P s) :
    P (State.beMaster s) := by
  unfold State.beMaster
  exact (kept_wr (hk.le rfl) (kept_wr (hk.le rfl) (kept_wr (hk.le rfl) (kept_wr (hk.le rfl) (kept_wr (hk.le rfl) h)))))

theorem kept_endMastership (hk : Keeps P 0x102) {s : State} (h : P s) :
    P (State.endMastership s) := by
  unfold State.endMastership
  exact (kept_wr (hk.le rfl) (hk.upd h))

theorem kept_selectParent (hk : Keeps P 0x152) {s : State} {lost : Bool} (h : P s) :
    P (State.selectParent s lost) := by
  unfold State.selectParent
  extract_lets v0 v1
  have k2 : P v1 := (kept_wr (hk.le rfl) (kept_wr (hk.le rfl) (kept_wr (hk.le rfl) h)))
  clear_value v0 v1
  split
  · rename_i y3 y4 y5 y6
    refine kept_ite ?_ ?_
    · exact (kept_ite h (kept_note (hk.le rfl) (kept_beMaster (hk.le rfl) h)))
    · extract_lets v7 v8 v9
      have k10 : P v7 := (kept_wr (hk.le rfl) (kept_wr (hk.le rfl) (kept_wr (hk.le rfl) (kept_wr (hk.le rfl) h))))
      have k11 : P v9 := (hk.upd k10)
      clear_value v7 v8 v9
      exact (kept_ite k10 (kept_note (hk.le rfl) (kept_when (hk.le rfl) k11 (fun x12 h13 => (kept_endMastership (hk.le rfl) h13)))))
  · rename_i y14 y15
    exact (kept_ite (kept_note (hk.le rfl) k2) h)

theorem kept_sendPtp (hk : Keeps P 0x8) {s : State} {p0 : Nat} {kind : Nat} {fs : List Int} (h : P s) :
    P (State.sendPtp s p0 kind fs) := by
  unfold State.sendPtp
  exact (kept_ite h (kept_emit (hk.le rfl) h))

theorem kept_execSyncInterval (hk : Keeps P 0x108) {port : Nat} {s : State} (h : P s) :
    ∃ t, execSyncInterval port s = .next t ∧ P t := by
  unfold execSyncInterval
  refine ⟨_, rfl, ?_⟩
  refine kept_ite ?_ ?_
  · exact h
  · extract_lets v0 v1 v2 v3 v4 v5 v6
    have k7 : P v3 := (kept_sendPtp (hk.le rfl) (kept_sendPtp (hk.le rfl) h))
    have k8 : P v5 := (kept_ite (kept_sendPtp (hk.le rfl) k7) k7)
    clear_value v0 v1 v2 v3 v4 v5 v6
    exact (hk.upd k8)

theorem kept_endExchange (hk : Keeps P 0x4255a) {s : State} {port : Nat} {x : Exch} (h : P s) :
    P (State.endExchange s port x) := by
  unfold State.endExchange
  split
  · rename_i y0 y1 y2 y3 y4 y5
    extract_lets v6 v7 v8 v9 v10 v11
    have k12 : P v9 := (hk.upd h)
    have k13 : P v10 := (kept_wr (hk.le rfl) k12)
    have k14 : P v11 := (kept_noteLength (hk.le rfl) k13)
    clear_value v6 v7 v8 v9 v10 v11
    exact (kept_servo (hk.le rfl) (kept_judgeLock (hk.le rfl) k14))
  · rename_i y15 y16 y17
    exact (hk.upd h)

theorem kept_execSync (hk : Keeps P 0x108) {port : Nat} {domain : Nat} {seqId : Nat} {t2 : Int} {s : State} (h : P s) :
    ∃ t, execSync port domain seqId t2 s = .next t ∧ P t := by
  unfold execSync
  refine ⟨_, rfl, ?_⟩
  refine kept_ite ?_ ?_
  · exact h
  · extract_lets v0 v1
    clear_value v0 v1
    exact (kept_sendPtp (hk.le rfl) (hk.upd h))

theorem kept_execFollowUp (hk : Keeps P 0x4255a) {port : Nat} {domain : Nat} {seqId : Nat} {t1 : Int} {s : State} (h : P s) :
    ∃ t, execFollowUp port domain seqId t1 s = .next t ∧ P t := by
  unfold execFollowUp
  refine ⟨_, rfl, ?_⟩
  refine kept_ite ?_ ?_
  · exact h
  · split
    · rename_i y0 y1 y2
      exact (kept_ite (kept_endExchange (hk.le rfl) h) h)
    · rename_i y3 y4
      exact h

theorem kept_execDelayReq (hk : Keeps P 0x8) {port : Nat} {domain : Nat} {seqId : Nat} {t4 : Int} {s : State} (h : P s) :
    ∃ t, execDelayReq port domain seqId t4 s = .next t ∧ P t := by
  unfold execDelayReq
  refine ⟨_, rfl, ?_⟩
  exact (kept_ite (kept_sendPtp (hk.le rfl) h) h)

theorem kept_execDelayResp (hk : Keeps P 0x4255a) {port : Nat} {domain : Nat} {seqId : Nat} {t4 : Int} {s : State} (h : P s) :
    ∃ t, execDelayResp port domain seqId t4 s = .next t ∧ P t := by
  unfold execDelayResp
  refine ⟨_, rfl, ?_⟩
  refine kept_ite ?_ ?_
  · exact h
  · split
    · rename_i y0 y1 y2
      exact (kept_ite (kept_endExchange (hk.le rfl) h) h)
    · rename_i y3 y4
      exact h

theorem kept_execAnnounce (hk : Keeps P 0x152) {port : Nat} {domain : Nat} {ds : AnnounceDs} {s : State} (h : P s) :
    ∃ t, execAnnounce port domain ds s = .next t ∧ P t := by
  unfold execAnnounce
  refine ⟨_, rfl, ?_⟩
  exact (kept_ite h (kept_selectParent (hk.le rfl) (hk.upd h)))

theorem kept_execAnnounceTimeout (hk : Keeps P 0x152) {s : State} (h : P s) :
    ∃ t, execAnnounceTimeout s = .next t ∧ P t := by
  unfold execAnnounceTimeout
  refine ⟨_, rfl, ?_⟩
  exact (kept_ite h (kept_selectParent (hk.le rfl) (hk.upd h)))

theorem kept_execPpsEdge (hk : Keeps P 0x255a) {s : State} (h : P s) :
    ∃ t, execPpsEdge s = .next t ∧ P t := by
  unfold execPpsEdge
  refine ⟨_, rfl, ?_⟩
  refine kept_ite ?_ ?_
  · exact h
  · extract_lets v0 v1 v2 v3 v4
    have k5 : P v3 := (hk.upd h)
    have k6 : P v4 := (kept_beMaster (hk.le rfl) (kept_wr (hk.le rfl) k5))
    clear_value v0 v1 v2 v3 v4
    exact (kept_servo (hk.le rfl) k6)

theorem kept_execPpsTimeout (hk : Keeps P 0x152) {s : State} (h : P s) :
    ∃ t, execPpsTimeout s = .next t ∧ P t := by
  unfold execPpsTimeout
  refine ⟨_, rfl, ?_⟩
  refine kept_ite ?_ ?_
  · extract_lets v0 v1
    have k2 : P v1 := (hk.upd h)
    clear_value v0 v1
    exact (kept_note (hk.le rfl) (kept_beMaster (hk.le rfl) k2))
  · exact h

theorem kept_ppsOff (hk : Keeps P 0x102) {s : State} (h : P s) :
    P (State.ppsOff s) := by
  unfold State.ppsOff
  extract_lets v0 v1
  have k2 : P v1 := (hk.upd h)
  clear_value v0 v1
  exact (kept_ite (kept_beMaster (hk.le rfl) k2) k2)

theorem kept_timSet (hk : Keeps P 0x255a) {s : State} (h : P s) :
    P (State.timSet s) := by
  unfold State.timSet
  exact (kept_ite (kept_wr (hk.le rfl) (kept_stepTime (hk.le rfl) h)) (kept_wr (hk.le rfl) h))

theorem kept_execTimSetGo (hk : Keeps P 0x25da) {s : State} (h : P s) :
    ∃ t, execTimSetGo s = .next t ∧ P t := by
  unfold execTimSetGo
  refine ⟨_, rfl, ?_⟩
  exact (kept_timSet (hk.le rfl) (kept_leaveDormant (hk.le rfl) h))

theorem kept_latchNow (hk : Keeps P 0x2) {s : State} (h : P s) :
    P (State.latchNow s) := by
  unfold State.latchNow
  exact (kept_wr (hk.le rfl) (kept_wr (hk.le rfl) (kept_wr (hk.le rfl) h)))

theorem kept_execTimNowRead (hk : Keeps P 0x8a) {s : State} (h : P s) :
    ∃ t, execTimNowRead s = .next t ∧ P t := by
  unfold execTimNowRead
  refine ⟨_, rfl, ?_⟩
  exact (kept_emit (hk.le rfl) (kept_latchNow (hk.le rfl) (kept_leaveDormant (hk.le rfl) h)))

theorem kept_idle (hk : Keeps P 0x100) {s : State} (h : P s) :
    P (State.idle s) := by
  unfold State.idle
  exact (kept_ite (hk.upd h) h)

theorem kept_toNextTick (hk : Keeps P 0x100) {s : State} (h : P s) :
    P (State.toNextTick s) := by
  unfold State.toNextTick
  extract_lets v0 v1 v2
  clear_value v0 v1 v2
  exact (hk.upd h)

theorem kept_execStepTick (hk : Keeps P 0x108) {s : State} (h : P s) :
    ∃ t, execStepTick s = .next t ∧ P t := by
  unfold execStepTick
  refine ⟨_, rfl, ?_⟩
  refine kept_ite ?_ ?_
  · exact h
  · extract_lets v0 v1 v2
    have k3 : P v0 := (kept_toNextTick (hk.le rfl) h)
    have k4 : P v2 := (kept_ite (hk.upd k3) (hk.upd k3))
    clear_value v0 v1 v2
    refine kept_foldl ?_ ?_
    · exact k4
    · intro x5 x6 h7
      exact (kept_emit (hk.le rfl) h7)

theorem kept_execTick (hk : Keeps P 0x152) {port : Nat} {step : Nat} {x2 : Bool} {s : State} (h : P s) :
    ∃ t, execTick port step x2 s = .next t ∧ P t := by
  unfold execTick
  refine ⟨_, rfl, ?_⟩
  refine kept_ite ?_ ?_
  · exact h
  · extract_lets v0 v1 v2
    clear_value v0 v1 v2
    exact (kept_ite (kept_note (hk.le rfl) (hk.upd h)) (kept_ite h (kept_ite (kept_note (hk.le rfl) (hk.upd h)) (kept_note (hk.le rfl) (hk.upd h)))))

end Sys2Proof.Machine
end

