-- ==== Sys2Proof/Laws/KeptSystem.lean ====
section
/-! SUPPORT. What the operations of the recorder, the slots, the resets, the host registers, the mailbox, the settings, the watches, ageing and the group keep and change (`Keeps`), one lemma each. -/

set_option Elab.async false
namespace Sys2Proof.Machine
open Sys2Proof

variable {P : State → Prop}

theorem kept_writeLost (hk : Keeps P 0x10) {s : State} {l : LostSum} (h : P s) :
    P (State.writeLost s l) := by
  unfold State.writeLost
  exact (kept_bufferRecord (hk.le rfl) h)

theorem kept_reportLost (hk : Keeps P 0x10) {s : State} (h : P s) :
    P (State.reportLost s) := by
  unfold State.reportLost
  split
  · rename_i y0 y1
    exact h
  · rename_i y2 y3 y4
    exact (kept_writeLost (hk.le rfl) (hk.upd h))

theorem kept_leaveCoalescing (hk : Keeps P 0x10) {s : State} (h : P s) :
    P (State.leaveCoalescing s) := by
  unfold State.leaveCoalescing
  refine kept_ite ?_ ?_
  · refine kept_foldl ?_ ?_
    · exact (hk.upd h)
    · intro x0 x1 h2
      exact (kept_bufferRecord (hk.le rfl) h2)
  · exact h

theorem kept_slotsFreed (hk : Keeps P 0x10) {s : State} (h : P s) :
    P (State.slotsFreed s) := by
  unfold State.slotsFreed
  exact (kept_leaveCoalescing (hk.le rfl) (kept_reportLost (hk.le rfl) h))

theorem kept_badSector (hk : Keeps P 0x52) {s : State} {k0 : Nat} (h : P s) :
    P (State.badSector s k0) := by
  unfold State.badSector
  refine kept_ite ?_ ?_
  · exact h
  · extract_lets v0 v1
    clear_value v0 v1
    exact (kept_note (hk.le rfl) (hk.upd h))

theorem kept_flushSome (hk : Keeps P 0x10) {s : State} {n0 : Nat} {sel : EvRec → Bool} (h : P s) :
    P (State.flushSome s n0 sel) := by
  unfold State.flushSome
  extract_lets v0 v1 v2
  clear_value v0 v1 v2
  exact (kept_ite h (hk.upd h))

theorem kept_execFlush (hk : Keeps P 0x52) {count : Nat} {bad : List Nat} {s : State} (h : P s) :
    ∃ t, execFlush count bad s = .next t ∧ P t := by
  unfold execFlush
  refine ⟨_, rfl, ?_⟩
  refine kept_ite ?_ ?_
  · exact h
  · extract_lets v0 v1 v2 v3
    have k4 : P v0 := by
      dsimp -zeta only [v0]
      refine kept_foldl ?_ ?_
      · exact h
      · intro x5 x6 h7
        exact (kept_badSector (hk.le rfl) h7)
    have k8 : P v1 := (kept_flushSome (hk.le rfl) k4)
    have k9 : P v2 := (kept_ite k8 (kept_slotsFreed (hk.le rfl) k8))
    clear_value v0 v1 v2 v3
    exact (hk.upd k9)

theorem kept_checkpoint (hk : Keeps P 0x10) {s : State} (h : P s) :
    P (State.checkpoint s) := by
  unfold State.checkpoint
  exact (hk.upd h)

theorem kept_execOpTimeCheckpoint (hk : Keeps P 0x10) {s : State} (h : P s) :
    ∃ t, execOpTimeCheckpoint s = .next t ∧ P t := by
  unfold execOpTimeCheckpoint
  refine ⟨_, rfl, ?_⟩
  exact (kept_checkpoint (hk.le rfl) h)

theorem kept_releaseLatch (hk : Keeps P 0x52) {s : State} {cause : Nat} (h : P s) :
    P (State.releaseLatch s cause) := by
  unfold State.releaseLatch
  refine kept_ite ?_ ?_
  · extract_lets v0 v1 v2 v3
    have k4 : P v1 := (hk.upd h)
    have k5 : P v2 := (kept_note (hk.le rfl) k4)
    clear_value v0 v1 v2 v3
    exact (hk.upd k5)
  · exact h

theorem kept_execLatchExpires (hk : Keeps P 0x52) {s : State} (h : P s) :
    ∃ t, execLatchExpires s = .next t ∧ P t := by
  unfold execLatchExpires
  refine ⟨_, rfl, ?_⟩
  exact (kept_releaseLatch (hk.le rfl) h)

theorem kept_readRecord (hk : Keeps P 0x2) {s : State} {seq : Nat} (h : P s) :
    P (State.readRecord s seq) := by
  unfold State.readRecord
  extract_lets v0 v1 v2
  have k3 : P v2 := (kept_wr (hk.le rfl) (kept_wr (hk.le rfl) (kept_wr (hk.le rfl) h)))
  clear_value v0 v1 v2
  refine kept_foldl ?_ ?_
  · exact k3
  · intro x4 x5 h6
    exact (kept_wreg (hk.le rfl) h6)

theorem kept_execEvrRdCtlWrite (hk : Keeps P 0x82) {seq : Nat} {s : State} (h : P s) :
    ∃ t, execEvrRdCtlWrite seq s = .next t ∧ P t := by
  unfold execEvrRdCtlWrite
  refine ⟨_, rfl, ?_⟩
  exact (kept_readRecord (hk.le rfl) (kept_leaveDormant (hk.le rfl) h))

theorem kept_clearRecorder (hk : Keeps P 0x10) {s : State} {counter : Nat} (h : P s) :
    P (State.clearRecorder s counter) := by
  unfold State.clearRecorder
  extract_lets v0 v1 v2 v3 v4
  have k5 : P v4 := (hk.upd h)
  clear_value v0 v1 v2 v3 v4
  exact (kept_slotsFreed (hk.le rfl) (kept_bufferRecord (hk.le rfl) k5))

theorem kept_holdUpFlush (hk : Keeps P 0x52) {s : State} {flushed : Nat} (h : P s) :
    P (State.holdUpFlush s flushed) := by
  unfold State.holdUpFlush
  extract_lets v0 v1 v2 v3 v4 v5
  have k6 : P v0 := (kept_checkpoint (hk.le rfl) (kept_releaseLatch (hk.le rfl) h))
  have k7 : P v3 := (kept_flushSome (hk.le rfl) k6)
  have k8 : P v4 := (kept_flushSome (hk.le rfl) k7)
  clear_value v0 v1 v2 v3 v4 v5
  exact (hk.upd k8)

theorem kept_holdUpOver (hk : Keeps P 0x10) {s : State} (h : P s) :
    P (State.holdUpOver s) := by
  unfold State.holdUpOver
  extract_lets v0 v1 v2 v3
  have k4 : P v1 := (hk.upd h)
  have k5 : P v2 := (kept_ite (kept_reportLost (hk.le rfl) k4) k4)
  clear_value v0 v1 v2 v3
  exact (hk.upd k5)

theorem kept_setImage (hk : Keeps P 0x200000) {s : State} {k0 : Nat} {x : Image} (h : P s) :
    P (State.setImage s k0 x) := by
  unfold State.setImage
  exact (hk.upd h)

theorem kept_reportCfg (hk : Keeps P 0x2) {s : State} (h : P s) :
    P (State.reportCfg s) := by
  unfold State.reportCfg
  exact (kept_wr (hk.le rfl) (kept_wr (hk.le rfl) (kept_wr (hk.le rfl) (kept_wr (hk.le rfl) h))))

theorem kept_runSlot (hk : Keeps P 0x2c0302) {s : State} {k0 : Nat} (h : P s) :
    P (State.runSlot s k0) := by
  unfold State.runSlot
  refine kept_ite ?_ ?_
  · exact h
  · extract_lets v0 v1 v2 v3 v4 v5 v6 v7
    clear_value v0 v1 v2 v3 v4 v5 v6 v7
    exact (kept_reportCfg (hk.le rfl) (hk.upd h))

theorem kept_clearTrial (hk : Keeps P 0x2c0302) {s : State} (h : P s) :
    P (State.clearTrial s) := by
  unfold State.clearTrial
  extract_lets v0 v1 v2
  have k3 : P v2 := (hk.upd h)
  clear_value v0 v1 v2
  exact (kept_runSlot (hk.le rfl) (kept_wr (hk.le rfl) (kept_wr (hk.le rfl) k3)))

theorem kept_chooseSlot (hk : Keeps P 0x2c0302) {s : State} (h : P s) :
    P (State.chooseSlot s) := by
  unfold State.chooseSlot
  split
  · rename_i y0 y1
    exact (kept_runSlot (hk.le rfl) h)
  · rename_i y2 y3 y4
    refine kept_ite ?_ ?_
    · exact (kept_runSlot (hk.le rfl) (kept_wr (hk.le rfl) (kept_bump (hk.le rfl) h)))
    · extract_lets v5 v6
      have k7 : P v5 := (kept_clearTrial (hk.le rfl) h)
      clear_value v5 v6
      split
      · rename_i y8 y9
        exact k7
      · rename_i y10 y11 y12
        exact (hk.upd k7)

theorem kept_twoKeyEnd (hk : Keeps P 0x200052) {s : State} {op : Nat} {arg : Nat} {outcome : Nat} (h : P s) :
    P (State.twoKeyEnd s op arg outcome) := by
  unfold State.twoKeyEnd
  extract_lets v0 v1 v2 v3
  have k4 : P v1 := (hk.upd h)
  have k5 : P v2 := (kept_wr (hk.le rfl) (kept_wr (hk.le rfl) k4))
  have k6 : P v3 := (kept_bump (hk.le rfl) k5)
  clear_value v0 v1 v2 v3
  exact (kept_note (hk.le rfl) k6)

theorem kept_twoKeyReset (hk : Keeps P 0x200052) {s : State} (h : P s) :
    P (State.twoKeyReset s) := by
  unfold State.twoKeyReset
  split
  · rename_i y0 y1
    exact h
  · rename_i y2 y3 y4
    exact (kept_twoKeyEnd (hk.le rfl) h)

theorem kept_enterRecovery (hk : Keeps P 0x52) {s : State} {cause : Nat} (h : P s) :
    P (State.enterRecovery s cause) := by
  unfold State.enterRecovery
  exact (kept_note (hk.le rfl) (kept_wr (hk.le rfl) (kept_wr (hk.le rfl) h)))

theorem kept_recovIgnored (hk : Keeps P 0x52) {s : State} (h : P s) :
    P (State.recovIgnored s) := by
  unfold State.recovIgnored
  exact (kept_ite (kept_note (hk.le rfl) h) h)

theorem kept_resetRegs (hk : Keeps P 0x2) {s : State} {sel : Reg → Nat → Bool} (h : P s) :
    P (State.resetRegs s sel) := by
  unfold State.resetRegs
  exact (hk.upd h)

theorem kept_mapCores (hk : Keeps P 0x400) {s : State} {f : Nat → Core → Core} (h : P s) :
    P (State.mapCores s f) := by
  unfold State.mapCores
  exact (hk.upd h)

theorem kept_setRemoval (hk : Keeps P 0x20) {s : State} {slot : Nat} {f : Removal → Removal} (h : P s) :
    P (State.setRemoval s slot f) := by
  unfold State.setRemoval
  exact (hk.upd h)

theorem kept_beginRemoval (hk : Keeps P 0x7eff) {s : State} {slot : Nat} (h : P s) :
    P (State.beginRemoval s slot) := by
  unfold State.beginRemoval
  extract_lets v0 v1
  have k2 : P v0 := (kept_wr (hk.le rfl) (kept_failRuns (hk.le rfl) h))
  have k3 : P v1 := by
    dsimp -zeta only [v1]
    refine kept_foldl ?_ ?_
    · exact k2
    · intro x4 x5 h6
      extract_lets v7
      clear_value v7
      exact (kept_ite (kept_wr (hk.le rfl) h6) h6)
  clear_value v0 v1
  refine kept_foldl ?_ ?_
  · exact k3
  · intro x8 x9 h10
    extract_lets v11
    have k12 : P v11 := (kept_haltCore (hk.le rfl) (kept_abandonTile (hk.le rfl) h10))
    clear_value v11
    exact (kept_setCore (hk.le rfl) k12)

theorem kept_lastOfJob (hk : Keeps P 0x13f6ff) {s : State} {job : Nat} (h : P s) :
    P (State.lastOfJob s job) := by
  unfold State.lastOfJob
  refine kept_ite ?_ ?_
  · exact h
  · extract_lets v0 v1 v2
    have k3 : P v2 := (hk.upd h)
    clear_value v0 v1 v2
    exact (kept_ovfReleased (hk.le rfl) (kept_jobGone (hk.le rfl) k3))

theorem kept_endRemoval (hk : Keeps P 0x13f6ff) {s : State} {r : Removal} (h : P s) :
    P (State.endRemoval s r) := by
  unfold State.endRemoval
  extract_lets v0 v1 v2 v3 v4 v5 v6 v7 v8 v9 v10
  have k11 : P v3 := (kept_mapCores (hk.le rfl) h)
  have k12 : P v7 := (hk.upd k11)
  have k13 : P v8 := (kept_resetRegs (hk.le rfl) k12)
  have k14 : P v9 := (kept_note (hk.le rfl) (kept_bump (hk.le rfl) (kept_wr (hk.le rfl) k13)))
  have k15 : P v10 := (kept_wr (hk.le rfl) (kept_reportLast (hk.le rfl) k14))
  clear_value v0 v1 v2 v3 v4 v5 v6 v7 v8 v9 v10
  exact (kept_lastOfJob (hk.le rfl) (kept_orqMirror (hk.le rfl) (kept_drainBias (hk.le rfl) (kept_endWork (hk.le rfl) k15))))

theorem kept_execContextRemoval (hk : Keeps P 0x7eff) {slot : Nat} {s : State} (h : P s) :
    ∃ t, execContextRemoval slot s = .next t ∧ P t := by
  unfold execContextRemoval
  refine ⟨_, rfl, ?_⟩
  split
  · rename_i y0 y1 y2
    exact (kept_ite h (kept_beginRemoval (hk.le rfl) (kept_setRemoval (hk.le rfl) h)))
  · rename_i y3 y4
    exact h

theorem kept_execContextRemovalComplete (hk : Keeps P 0x13f6ff) {slot : Nat} {s : State} (h : P s) :
    ∃ t, execContextRemovalComplete slot s = .next t ∧ P t := by
  unfold execContextRemovalComplete
  refine ⟨_, rfl, ?_⟩
  split
  · rename_i y0 y1 y2
    exact (kept_ite (kept_endRemoval (hk.le rfl) h) h)
  · rename_i y3 y4
    exact h

theorem kept_removeNow (hk : Keeps P 0x13feff) {s : State} {slot : Nat} {cause : Nat} (h : P s) :
    P (State.removeNow s slot cause) := by
  unfold State.removeNow
  extract_lets v0 v1
  have k2 : P v1 := (kept_ite h (kept_beginRemoval (hk.le rfl) h))
  clear_value v0 v1
  exact (kept_endRemoval (hk.le rfl) k2)

theorem kept_dropContexts (hk : Keeps P 0x2420) {s : State} (h : P s) :
    P (State.dropContexts s) := by
  unfold State.dropContexts
  exact (kept_mapCores (hk.le rfl) (hk.upd h))

theorem kept_execEngineStall (hk : Keeps P 0x272) {engine : Nat} {s : State} (h : P s) :
    ∃ t, execEngineStall engine s = .next t ∧ P t := by
  unfold execEngineStall
  refine ⟨_, rfl, ?_⟩
  exact (kept_ite (kept_record (hk.le rfl) h) h)

theorem kept_execContextProgressTimeout (hk : Keeps P 0x272) {slot : Nat} {s : State} (h : P s) :
    ∃ t, execContextProgressTimeout slot s = .next t ∧ P t := by
  unfold execContextProgressTimeout
  refine ⟨_, rfl, ?_⟩
  extract_lets v0
  clear_value v0
  exact (kept_ite (kept_record (hk.le rfl) h) h)

theorem kept_reportDump (hk : Keeps P 0x3) {s : State} {n0 : Nat} {d : Dump} (h : P s) :
    P (State.reportDump s n0 d) := by
  unfold State.reportDump
  exact (kept_tick (hk.le rfl) (kept_wr (hk.le rfl) (kept_wr (hk.le rfl) (kept_wr (hk.le rfl) (kept_wr (hk.le rfl) (kept_wr (hk.le rfl) (kept_wr (hk.le rfl) (kept_wr (hk.le rfl) h))))))))

theorem kept_copyDone' (hk : Keeps P 0x72) {s : State} (h : P s) :
    P (State.copyDone' s) := by
  unfold State.copyDone'
  split
  · rename_i y0 y1
    exact h
  · rename_i y2 y3 y4
    split
    · rename_i y5 y6
      exact (hk.upd h)
    · rename_i y7 y8 y9
      extract_lets v10 v11
      have k12 : P v11 := (hk.upd h)
      clear_value v10 v11
      exact (kept_note (hk.le rfl) (kept_wr (hk.le rfl) k12))

theorem kept_writeDump (hk : Keeps P 0x5) {s : State} {n0 : Nat} {d : Dump} (h : P s) :
    P (State.writeDump s n0 d) := by
  unfold State.writeDump
  extract_lets v0 v1
  have k2 : P v0 := (kept_memWrite (hk.le rfl) h)
  have k3 : P v1 := (kept_tick (hk.le rfl) k2)
  clear_value v0 v1
  refine kept_foldl ?_ ?_
  · exact k3
  · intro x4 x5 h6
    split
    · rename_i y7 y8 y9 y10 y11
      exact (kept_tick (hk.le rfl) (kept_tick (hk.le rfl) (kept_memWrite (hk.le rfl) h6)))
    · rename_i y12 y13
      exact h6

theorem kept_closeDump (hk : Keeps P 0x27) {s : State} {n0 : Nat} {d : Dump} (h : P s) :
    P (State.closeDump s n0 d) := by
  unfold State.closeDump
  extract_lets v0 v1
  have k2 : P v1 := (hk.upd h)
  clear_value v0 v1
  exact (kept_writeDump (hk.le rfl) (kept_reportDump (hk.le rfl) k2))

theorem kept_writePartial (hk : Keeps P 0x5) {s : State} (h : P s) :
    P (State.writePartial s) := by
  unfold State.writePartial
  split
  · rename_i y0 y1
    exact h
  · rename_i y2 y3 y4
    split
    · rename_i y5 y6 y7
      exact (kept_ite (kept_writeDump (hk.le rfl) h) h)
    · rename_i y8 y9
      exact h

theorem kept_startCollect (hk : Keeps P 0x77) {s : State} {r : RunAct} (h : P s) :
    P (State.startCollect s r).1 := by
  unfold State.startCollect
  refine kept_ite1 ?_ ?_
  · exact h
  · refine kept_ite1 ?_ ?_
    · extract_lets v0 v1 v2
      have k3 : P v2 := (hk.upd h)
      clear_value v0 v1 v2
      exact (kept_wr (hk.le rfl) (kept_wr (hk.le rfl) (kept_wr (hk.le rfl) (kept_wr (hk.le rfl) k3))))
    · extract_lets v4 v5 v6 v7 v8
      have k9 : P v4 := (kept_copyDone' (hk.le rfl) (kept_writePartial (hk.le rfl) h))
      have k10 : P v8 := (hk.upd k9)
      clear_value v4 v5 v6 v7 v8
      exact (kept_reportDump (hk.le rfl) k10)

theorem kept_finishCollect (hk : Keeps P 0x27) {s : State} (h : P s) :
    P (State.finishCollect s) := by
  unfold State.finishCollect
  split
  · rename_i y0 y1 y2
    split
    · rename_i y3 y4 y5
      split
      · rename_i y6 y7 y8
        exact (kept_closeDump (hk.le rfl) (hk.upd h))
      · rename_i y9 y10
        exact h
    · rename_i y11 y12
      exact h
  · rename_i y13 y14
    exact h

theorem kept_execCollectionAccessTimeout (hk : Keeps P 0x22) {unit : Nat} {access : Nat} {s : State} (h : P s) :
    ∃ t, execCollectionAccessTimeout unit access s = .next t ∧ P t := by
  unfold execCollectionAccessTimeout
  refine ⟨_, rfl, ?_⟩
  split
  · rename_i y0 y1
    exact h
  · rename_i y2 y3 y4
    split
    · rename_i y5 y6
      exact h
    · rename_i y7 y8 y9
      extract_lets v10 v11
      clear_value v10 v11
      exact (kept_wr (hk.le rfl) (hk.upd h))

theorem kept_execCollectionDone (hk : Keeps P 0x27) {reason : CollEnd} {s : State} (h : P s) :
    ∃ t, execCollectionDone reason s = .next t ∧ P t := by
  unfold execCollectionDone
  refine ⟨_, rfl, ?_⟩
  split
  · rename_i y0 y1
    exact h
  · rename_i y2 y3 y4
    split
    · rename_i y5 y6
      exact h
    · rename_i y7 y8 y9
      split
      · rename_i y10 y11
        exact h
      · rename_i y12 y13 y14
        extract_lets v15 v16 v17
        have k18 : P v16 := (hk.upd h)
        clear_value v15 v16 v17
        exact (kept_ite (kept_closeDump (hk.le rfl) k18) (kept_closeDump (hk.le rfl) (kept_tick (hk.le rfl) k18)))

theorem kept_execRstDumpDone (hk : Keeps P 0x72) {s : State} (h : P s) :
    ∃ t, execRstDumpDone s = .next t ∧ P t := by
  unfold execRstDumpDone
  refine ⟨_, rfl, ?_⟩
  exact (kept_copyDone' (hk.le rfl) h)

theorem kept_countAction (hk : Keeps P 0x2) {s : State} {cls : Nat} (h : P s) :
    P (State.countAction s cls) := by
  unfold State.countAction
  exact (kept_ite (kept_bump (hk.le rfl) h) (kept_ite (kept_bump (hk.le rfl) h) (kept_ite (kept_bump (hk.le rfl) h) h)))

theorem kept_finishAction (hk : Keeps P 0x227) {s : State} {r : RunAct} (h : P s) :
    P (State.finishAction s r) := by
  unfold State.finishAction
  extract_lets v0 v1 v2 v3
  have k4 : P v0 := (kept_finishCollect (hk.le rfl) h)
  have k5 : P v2 := (kept_wr (hk.le rfl) (hk.upd k4))
  have k6 : P v3 := (kept_wr (hk.le rfl) (kept_reportLast (hk.le rfl) k5))
  clear_value v0 v1 v2 v3
  exact (kept_endWork (hk.le rfl) (kept_countAction (hk.le rfl) k6))

theorem kept_dequeue (hk : Keeps P 0x72) {s : State} (h : P s) :
    P (State.dequeue s) := by
  unfold State.dequeue
  refine kept_ite ?_ ?_
  · exact h
  · split
    · rename_i y0 y1
      exact h
    · rename_i y2 y3 y4 y5
      exact (kept_startAction (hk.le rfl) (kept_setQueued (hk.le rfl) h))

theorem kept_execActionDequeue (hk : Keeps P 0x72) {s : State} (h : P s) :
    ∃ t, execActionDequeue s = .next t ∧ P t := by
  unfold execActionDequeue
  refine ⟨_, rfl, ?_⟩
  exact (kept_dequeue (hk.le rfl) h)

theorem kept_execActionLimitExpires (hk : Keeps P 0x272) {s : State} (h : P s) :
    ∃ t, execActionLimitExpires s = .next t ∧ P t := by
  unfold execActionLimitExpires
  refine ⟨_, rfl, ?_⟩
  split
  · rename_i y0 y1 y2
    exact (kept_ite (kept_escalate (hk.le rfl) (kept_closeDumpPartial (hk.le rfl) h)) h)
  · rename_i y3 y4
    split
    · rename_i y5 y6
      exact h
    · rename_i y7 y8 y9 y10
      extract_lets v11 v12 v13 v14 v15 v16
      have k17 : P v14 := (kept_note (hk.le rfl) h)
      have k18 : P v15 := (kept_endWork (hk.le rfl) (kept_bump (hk.le rfl) k17))
      have k19 : P v16 := (kept_setRemoval (hk.le rfl) k18)
      clear_value v11 v12 v13 v14 v15 v16
      exact (kept_callAction (hk.le rfl) k19)

theorem kept_runPhase (hk : Keeps P 0x20) {s : State} {p0 : ActPhase} {slot : Option Nat} (h : P s) :
    P (State.runPhase s p0 slot) := by
  unfold State.runPhase
  split
  · rename_i y0 y1 y2
    exact (hk.upd h)
  · rename_i y3 y4
    exact h

theorem kept_execEngineReset (hk : Keeps P 0x76ff) {engine : Nat} {s : State} (h : P s) :
    ∃ t, execEngineReset engine s = .next t ∧ P t := by
  unfold execEngineReset
  refine ⟨_, rfl, ?_⟩
  split
  · rename_i y0 y1
    exact h
  · rename_i y2 y3 y4
    refine kept_ite ?_ ?_
    · exact h
    · split
      · rename_i y5 y6 y7 y8
        have k9 : P y6 := by
          have e10 := congrArg Prod.fst y8
          dsimp only at e10
          rw [← e10]
          exact (kept_startCollect (hk.le rfl) h)
        extract_lets v11 v12 v13 v14 v15 v16 v17 v18 v19 v20 v21
        have k22 : P v11 := (kept_runPhase (hk.le rfl) k9)
        have k23 : P v13 := by
          dsimp -zeta only [v13]
          refine kept_foldl ?_ ?_
          · exact k22
          · intro x24 x25 h26
            exact (kept_ite (kept_cmdError (hk.le rfl) h26) h26)
        have k27 : P v17 := (kept_ite (hk.upd k23) k23)
        clear_value v11 v12 v13 v14 v15 v16 v17 v18 v19 v20 v21
        exact (kept_drainBias (hk.le rfl) (hk.upd k27))

theorem kept_execEngineResetComplete (hk : Keeps P 0x6227) {engine : Nat} {s : State} (h : P s) :
    ∃ t, execEngineResetComplete engine s = .next t ∧ P t := by
  unfold execEngineResetComplete
  refine ⟨_, rfl, ?_⟩
  split
  · rename_i y0 y1 y2
    refine kept_ite ?_ ?_
    · extract_lets v3 v4 v5 v6 v7 v8
      have k9 : P v5 := (hk.upd h)
      have k10 : P v8 := (kept_ite (hk.upd k9) k9)
      clear_value v3 v4 v5 v6 v7 v8
      exact (kept_finishAction (hk.le rfl) k10)
    · exact h
  · rename_i y11 y12
    exact h

theorem kept_refuseWaiting (hk : Keeps P 0x767a) {s : State} {ms : List MemReq} (h : P s) :
    P (State.refuseWaiting s ms) := by
  unfold State.refuseWaiting
  refine kept_foldl ?_ ?_
  · exact h
  · intro x0 x1 h2
    split
    · rename_i y3 y4 y5
      exact (kept_failReq (hk.le rfl) h2)
    · rename_i y6 y7
      split
      · rename_i y8 y9 y10
        exact (kept_emit (hk.le rfl) h2)
      · rename_i y11 y12
        exact h2

theorem kept_mapQuarter (hk : Keeps P 0x400) {s : State} {q0 : Nat} {f : Core → Core} (h : P s) :
    P (State.mapQuarter s q0 f) := by
  unfold State.mapQuarter
  refine kept_foldl ?_ ?_
  · exact h
  · intro x0 x1 h2
    exact (kept_setCore (hk.le rfl) h2)

theorem kept_resetQuarter (hk : Keeps P 0x7efa) {s : State} {q0 : Nat} (h : P s) :
    P (State.resetQuarter s q0) := by
  unfold State.resetQuarter
  extract_lets v0 v1 v2 v3 v4
  have k5 : P v3 := (kept_setQuarter (hk.le rfl) h)
  have k6 : P v4 := (kept_refuseWaiting (hk.le rfl) k5)
  clear_value v0 v1 v2 v3 v4
  refine kept_foldl ?_ ?_
  · exact (kept_mapCores (hk.le rfl) k6)
  · intro x7 x8 h9
    exact (kept_tileBoundary (hk.le rfl) h9)

theorem kept_resetPartition (hk : Keeps P 0x13feff) {s : State} {p0 : Nat} {cause : Nat} (h : P s) :
    P (State.resetPartition s p0 cause) := by
  unfold State.resetPartition
  extract_lets v0 v1 v2
  have k3 : P v0 := by
    dsimp -zeta only [v0]
    refine kept_foldl ?_ ?_
    · exact h
    · intro x4 x5 h6
      exact (kept_removeNow (hk.le rfl) h6)
  have k7 : P v2 := by
    dsimp -zeta only [v2]
    refine kept_foldl ?_ ?_
    · exact k3
    · intro x8 x9 h10
      exact (kept_resetQuarter (hk.le rfl) h10)
  clear_value v0 v1 v2
  exact (kept_resetRegs (hk.le rfl) k7)

theorem kept_execPartitionReset (hk : Keeps P 0x13feff) {part : Nat} {s : State} (h : P s) :
    ∃ t, execPartitionReset part s = .next t ∧ P t := by
  unfold execPartitionReset
  refine ⟨_, rfl, ?_⟩
  split
  · rename_i y0 y1
    exact h
  · rename_i y2 y3 y4
    refine kept_ite ?_ ?_
    · exact h
    · split
      · rename_i y5 y6 y7 y8
        have k9 : P y6 := by
          have e10 := congrArg Prod.fst y8
          dsimp only at e10
          rw [← e10]
          exact (kept_startCollect (hk.le rfl) h)
        exact (kept_resetPartition (hk.le rfl) (kept_runPhase (hk.le rfl) k9))

theorem kept_cutSram (hk : Keeps P 0x6) {s : State} {q0 : Nat} (h : P s) :
    P (State.cutSram s q0) := by
  unfold State.cutSram
  exact (kept_setSramOff (hk.le rfl) (kept_memClear (hk.le rfl) (kept_memClear (hk.le rfl) h)))

theorem kept_gateRetired (hk : Keeps P 0x400) {s : State} {q0 : Nat} (h : P s) :
    P (State.gateRetired s q0) := by
  unfold State.gateRetired
  refine kept_foldl ?_ ?_
  · exact h
  · intro x0 x1 h2
    exact (kept_setCore (hk.le rfl) h2)

theorem kept_startQuarter (hk : Keeps P 0x486) {s : State} {q0 : Nat} (h : P s) :
    P (State.startQuarter s q0) := by
  unfold State.startQuarter
  extract_lets v0 v1 v2 v3 v4 v5
  have k6 : P v1 := (kept_setQuarter (hk.le rfl) h)
  have k7 : P v4 := (kept_mapQuarter (hk.le rfl) k6)
  have k8 : P v5 := (kept_gateRetired (hk.le rfl) k7)
  clear_value v0 v1 v2 v3 v4 v5
  exact (kept_ite (kept_cutSram (hk.le rfl) (kept_setGated (hk.le rfl) k8)) (kept_setSramOff (hk.le rfl) (kept_setGated (hk.le rfl) k8)))

theorem kept_execPartitionResetComplete (hk : Keeps P 0x6a7) {part : Nat} {s : State} (h : P s) :
    ∃ t, execPartitionResetComplete part s = .next t ∧ P t := by
  unfold execPartitionResetComplete
  refine ⟨_, rfl, ?_⟩
  split
  · rename_i y0 y1 y2
    refine kept_ite ?_ ?_
    · refine kept_finishAction (hk.le rfl) ?_
      refine kept_foldl ?_ ?_
      · exact h
      · intro x3 x4 h5
        exact (kept_startQuarter (hk.le rfl) h5)
    · exact h
  · rename_i y6 y7
    exact h

theorem kept_sendHb (hk : Keeps P 0x8) {s : State} (h : P s) :
    P (State.sendHb s) := by
  unfold State.sendHb
  refine kept_foldl ?_ ?_
  · exact h
  · intro x0 x1 h2
    exact (kept_emit (hk.le rfl) h2)

theorem kept_sendMirrorHb (hk : Keeps P 0x10405a) {s : State} (h : P s) :
    P (State.sendMirrorHb s) := by
  unfold State.sendMirrorHb
  split
  · rename_i y0 y1
    exact h
  · rename_i y2 y3 y4
    extract_lets v5 v6 v7
    clear_value v5 v6 v7
    exact (kept_pmsg (hk.le rfl) (hk.upd h))

theorem kept_endTickets (hk : Keeps P 0x20a) {s : State} (h : P s) :
    P (State.endTickets s) := by
  unfold State.endTickets
  extract_lets v0 v1
  have k2 : P v1 := by
    dsimp -zeta only [v1]
    refine kept_foldl ?_ ?_
    · exact h
    · intro x3 x4 h5
      exact (kept_postTicket (hk.le rfl) (kept_endTicket (hk.le rfl) h5))
  clear_value v0 v1
  exact (kept_ite (kept_emit (hk.le rfl) k2) k2)

theorem kept_placeResp (hk : Keeps P 0x20a) {s : State} {q0 : Req} {r : Resp} (h : P s) :
    P (State.placeResp s q0 r) := by
  unfold State.placeResp
  extract_lets v0 v1 v2
  have k3 : P v1 := (hk.upd h)
  have k4 : P v2 := (kept_bump (hk.le rfl) (kept_wr (hk.le rfl) (kept_wr (hk.le rfl) k3)))
  clear_value v0 v1 v2
  exact (kept_ite (kept_emit (hk.le rfl) k4) k4)

theorem kept_answerTaken (hk : Keeps P 0x20a) {s : State} (h : P s) :
    P (State.answerTaken s) := by
  unfold State.answerTaken
  split
  · rename_i y0 y1
    exact h
  · rename_i y2 y3 y4
    exact (kept_placeResp (hk.le rfl) h)

theorem kept_chipCleared (hk : Keeps P 0x77e26) {s : State} (h : P s) :
    P (State.chipCleared s) := by
  unfold State.chipCleared
  extract_lets v0 v1 v2 v3 v4 v5 v6 v7 v8 v9
  have k10 : P v2 := (kept_dropContexts (hk.le rfl) h)
  have k11 : P v3 := (kept_resetRegs (hk.le rfl) k10)
  clear_value v0 v1 v2 v3 v4 v5 v6 v7 v8 v9
  exact (hk.upd k11)

theorem kept_holdQuarters (hk : Keeps P 0x80) {s : State} (h : P s) :
    P (State.holdQuarters s) := by
  unfold State.holdQuarters
  refine kept_foldl ?_ ?_
  · exact h
  · intro x0 x1 h2
    exact (kept_setQuarter (hk.le rfl) h2)

theorem kept_chipDown (hk : Keeps P 0x77ea6) {s : State} (h : P s) :
    P (State.chipDown s) := by
  unfold State.chipDown
  extract_lets v0
  have k1 : P v0 := (kept_holdQuarters (hk.le rfl) (kept_chipCleared (hk.le rfl) h))
  clear_value v0
  exact (kept_reportCfg (hk.le rfl) (kept_wr (hk.le rfl) (kept_wr (hk.le rfl) (kept_wr (hk.le rfl) k1))))

theorem kept_selectMode (hk : Keeps P 0x52) {s : State} {mode : Nat} (h : P s) :
    P (State.selectMode s mode) := by
  unfold State.selectMode
  extract_lets v0
  have k1 : P v0 := (kept_recovIgnored (hk.le rfl) h)
  clear_value v0
  exact (kept_ite (kept_enterRecovery (hk.le rfl) k1) (kept_ite (kept_enterRecovery (hk.le rfl) k1) (kept_ite (kept_wr (hk.le rfl) k1) (kept_ite k1 (kept_wr (hk.le rfl) k1)))))

theorem kept_resetMode (hk : Keeps P 0x52) {s : State} {mode : Nat} (h : P s) :
    P (State.resetMode s mode) := by
  unfold State.resetMode
  exact (kept_tapJudge (hk.le rfl) (kept_selectMode (hk.le rfl) h))

theorem kept_firmwareDown (hk : Keeps P 0x262) {s : State} (h : P s) :
    P (State.firmwareDown s) := by
  unfold State.firmwareDown
  exact (kept_wr (hk.le rfl) (kept_wr (hk.le rfl) (kept_wr (hk.le rfl) (kept_wr (hk.le rfl) (hk.upd h)))))

theorem kept_chipReset (hk : Keeps P 0x2f7ff6) {s : State} {a : Action} (h : P s) :
    P (State.chipReset s a) := by
  unfold State.chipReset
  extract_lets v0 v1 v2 v3 v4 v5 v6
  have k7 : P v1 := (kept_ite (kept_chooseSlot (hk.le rfl) h) h)
  have k8 : P v2 := (kept_resetMode (hk.le rfl) k7)
  have k9 : P v5 := (hk.upd k8)
  have k10 : P v6 := (kept_firmwareDown (hk.le rfl) (kept_chipDown (hk.le rfl) k9))
  clear_value v0 v1 v2 v3 v4 v5 v6
  exact (kept_wr (hk.le rfl) k10)

theorem kept_execChipReset (hk : Keeps P 0x3f7fff) {recovLow : Bool} {s : State} (h : P s) :
    ∃ t, execChipReset s recovLow = .next t ∧ P t := by
  unfold execChipReset
  refine ⟨_, rfl, ?_⟩
  split
  · rename_i y0 y1
    exact h
  · rename_i y2 y3 y4
    extract_lets v5 v6 v7 v8 v9
    have k10 : P v6 := (kept_wr (hk.le rfl) (hk.upd h))
    have k11 : P v7 := (kept_sendMirrorHb (hk.le rfl) (kept_sendHb (hk.le rfl) k10))
    have k12 : P v8 := (kept_ite (kept_emit (hk.le rfl) k11) k11)
    have k13 : P v9 := (kept_twoKeyReset (hk.le rfl) (kept_answerTaken (hk.le rfl) (kept_endTickets (hk.le rfl) k12)))
    clear_value v5 v6 v7 v8 v9
    split
    · rename_i y14 y15 y16 y17
      have k18 : P y15 := by
        have e19 := congrArg Prod.fst y17
        dsimp only at e19
        rw [← e19]
        exact (kept_startCollect (hk.le rfl) k13)
      extract_lets v20 v21
      have k22 : P v20 := (kept_finishCollect (hk.le rfl) (kept_runPhase (hk.le rfl) k18))
      have k23 : P v21 := (kept_chipReset (hk.le rfl) k22)
      clear_value v20 v21
      exact (kept_ite (kept_finishAction (hk.le rfl) k23) k23)

theorem kept_execPowerCycle (hk : Keeps P 0x13f6ff) {s : State} (h : P s) :
    ∃ t, execPowerCycle s = .next t ∧ P t := by
  unfold execPowerCycle
  refine ⟨_, rfl, ?_⟩
  split
  · rename_i y0 y1
    exact h
  · rename_i y2 y3 y4
    extract_lets v5 v6
    have k7 : P v5 := (kept_askEvacuate (hk.le rfl) h)
    have k8 : P v6 := by
      dsimp -zeta only [v6]
      refine kept_foldl ?_ ?_
      · exact k7
      · intro x9 x10 h11
        exact (kept_tearDown (hk.le rfl) h11)
    clear_value v5 v6
    exact (kept_runPhase (hk.le rfl) (kept_sendHb (hk.le rfl) (kept_kick (hk.le rfl) k8)))

theorem kept_holdChip (hk : Keeps P 0x2f7ffe) {s : State} {a : Action} (h : P s) :
    P (State.holdChip s a) := by
  unfold State.holdChip
  extract_lets v0 v1
  have k2 : P v0 := (kept_twoKeyReset (hk.le rfl) (kept_answerTaken (hk.le rfl) (kept_endTickets (hk.le rfl) h)))
  have k3 : P v1 := (kept_wr (hk.le rfl) (kept_chipReset (hk.le rfl) k2))
  clear_value v0 v1
  refine kept_foldl ?_ ?_
  · exact k3
  · intro x4 x5 h6
    exact (kept_setGated (hk.le rfl) h6)

theorem kept_execDrainExpires (hk : Keeps P 0x2f7fff) {s : State} (h : P s) :
    ∃ t, execDrainExpires s = .next t ∧ P t := by
  unfold execDrainExpires
  refine ⟨_, rfl, ?_⟩
  split
  · rename_i y0 y1 y2
    refine kept_ite ?_ ?_
    · split
      · rename_i y3 y4 y5 y6
        have k7 : P y4 := by
          have e8 := congrArg Prod.fst y6
          dsimp only at e8
          rw [← e8]
          exact (kept_startCollect (hk.le rfl) h)
        extract_lets v9 v10
        have k11 : P v9 := (kept_copyDone' (hk.le rfl) (kept_finishCollect (hk.le rfl) (kept_runPhase (hk.le rfl) k7)))
        clear_value v9 v10
        exact (kept_ite (kept_alert (hk.le rfl) (hk.upd k11)) (kept_runPhase (hk.le rfl) (kept_holdChip (hk.le rfl) k11)))
    · exact h
  · rename_i y12 y13
    exact h

theorem kept_rejectRunning (hk : Keeps P 0x52) {s : State} {off : Nat} (h : P s) :
    P (State.rejectRunning s off) := by
  unfold State.rejectRunning
  exact (kept_noteOffset (hk.le rfl) h)

theorem kept_mirrorDisable (hk : Keeps P 0x76ff) {s : State} (h : P s) :
    P (State.mirrorDisable s) := by
  unfold State.mirrorDisable
  exact (kept_wr (hk.le rfl) (kept_ackMirror (hk.le rfl) h))

theorem kept_setMirrorCfg (hk : Keeps P 0x76ff) {s : State} {w : BitVec 64} (h : P s) :
    P (State.setMirrorCfg s w) := by
  unfold State.setMirrorCfg
  extract_lets v0 v1 v2
  have k3 : P v1 := (kept_wreg (hk.le rfl) h)
  clear_value v0 v1 v2
  exact (kept_ite (kept_mirrorEnable (hk.le rfl) (kept_wr (hk.le rfl) k3)) (kept_ite (kept_mirrorDisable (hk.le rfl) k3) k3))

theorem kept_setOvfCfg (hk : Keeps P 0x11002) {s : State} {w : BitVec 64} (h : P s) :
    P (State.setOvfCfg s w) := by
  unfold State.setOvfCfg
  extract_lets v0 v1 v2
  have k3 : P v1 := (kept_wreg (hk.le rfl) h)
  clear_value v0 v1 v2
  exact (kept_ite h (kept_ite (hk.upd k3) (kept_ovfReleased (hk.le rfl) k3)))

theorem kept_writeHce (hk : Keeps P 0x80052) {s : State} {r : Reg} {i : Nat} {new : BitVec 64} (h : P s) :
    P (State.writeHce s r i new) := by
  unfold State.writeHce
  extract_lets v0 v1 v2 v3 v4
  have k5 : P v3 := (kept_ite h (kept_selectSet (hk.le rfl) h))
  clear_value v0 v1 v2 v3 v4
  refine kept_ite ?_ ?_
  · exact (kept_hceReject (hk.le rfl) h)
  · split
    · rename_i y6
      exact (kept_ite (kept_spGo (hk.le rfl) h) (kept_wreg (hk.le rfl) h))
    · rename_i y7
      exact (kept_ite (kept_groupResume (hk.le rfl) h) h)
    · rename_i y8
      exact (kept_ite h (kept_wreg (hk.le rfl) h))
    · rename_i y9
      exact (kept_ite h (kept_ite (kept_hceReject (hk.le rfl) h) (kept_wreg (hk.le rfl) h)))
    · rename_i y10
      exact (kept_ite h (kept_ite (kept_hceReject (hk.le rfl) h) (kept_wreg (hk.le rfl) h)))
    · rename_i y11
      exact (kept_ite h (kept_ite (kept_hceReject (hk.le rfl) h) (kept_ite (kept_wreg (hk.le rfl) h) (kept_hceReject (hk.le rfl) h))))
    · rename_i y12
      exact (kept_ite k5 (kept_ite (kept_loopHoldOn (hk.le rfl) k5) (kept_loopHoldOff (hk.le rfl) k5)))
    · rename_i y13 y14 y15 y16 y17 y18 y19 y20
      exact (kept_wreg (hk.le rfl) h)

theorem kept_writeQcfg (hk : Keeps P 0x2052) {s : State} {i : Nat} {new : BitVec 64} (h : P s) :
    P (State.writeQcfg s i new) := by
  unfold State.writeQcfg
  extract_lets v0 v1
  clear_value v0 v1
  exact (kept_ite h (kept_ite (kept_queueEnable (hk.le rfl) h) (kept_ite (kept_ite (kept_queueDisable (hk.le rfl) h) (kept_qcfgReject (hk.le rfl) h)) (kept_wreg (hk.le rfl) h))))

theorem kept_writeQbase (hk : Keeps P 0x52) {s : State} {i : Nat} {new : BitVec 64} (h : P s) :
    P (State.writeQbase s i new) := by
  unfold State.writeQbase
  exact (kept_ite h (kept_ite (kept_qcfgReject (hk.le rfl) h) (kept_wreg (hk.le rfl) h)))

theorem kept_doorbell (hk : Keeps P 0x25a) {s : State} (h : P s) :
    P (State.doorbell s) := by
  unfold State.doorbell
  refine kept_ite ?_ ?_
  · exact (kept_note (hk.le rfl) h)
  · extract_lets v0 v1 v2 v3
    have k4 : P v2 := (kept_wr (hk.le rfl) (kept_wr (hk.le rfl) h))
    clear_value v0 v1 v2 v3
    exact (kept_ite (hk.upd k4) (kept_placeResp (hk.le rfl) k4))

theorem kept_execOrqDoorbellGo (hk : Keeps P 0x2da) {s : State} (h : P s) :
    ∃ t, execOrqDoorbellGo s = .next t ∧ P t := by
  unfold execOrqDoorbellGo
  refine ⟨_, rfl, ?_⟩
  exact (kept_doorbell (hk.le rfl) (kept_leaveDormant (hk.le rfl) h))

theorem kept_writeReg (hk : Keeps P 0x97fff) {s : State} {r : Reg} {i : Nat} {m0 : BitVec 64} {v : BitVec 64} (h : P s) :
    P (State.writeReg s r i m0 v) := by
  unfold State.writeReg
  extract_lets v0 v1 v2 v3 v4 v5 v6
  have k7 : P v3 := (kept_wreg (hk.le rfl) h)
  have k8 : P v6 := (kept_trigWrite (hk.le rfl) h)
  clear_value v0 v1 v2 v3 v4 v5 v6
  split
  · rename_i y9
    exact (kept_ite (kept_noteOffset (hk.le rfl) h) k7)
  · rename_i y10
    exact (kept_ite (kept_rejectRunning (hk.le rfl) h) k7)
  · rename_i y11
    exact (kept_ite (kept_chkCommit (hk.le rfl) k7) k7)
  · rename_i y12
    exact (kept_injectWrite (hk.le rfl) h)
  · rename_i y13
    exact (kept_ite (kept_rejectRunning (hk.le rfl) h) k7)
  · rename_i y14
    exact (kept_ite (kept_regionCommitGo (hk.le rfl) h) h)
  · rename_i y15
    exact (kept_ite (kept_rejectRunning (hk.le rfl) h) (kept_setMirrorCfg (hk.le rfl) h))
  · rename_i y16
    exact (kept_ite (kept_rejectRunning (hk.le rfl) h) (kept_setOvfCfg (hk.le rfl) h))
  · rename_i y17
    exact (kept_ite (kept_rejectRunning (hk.le rfl) h) k7)
  · rename_i y18
    exact (kept_biasCommand (hk.le rfl) h)
  · rename_i y19
    exact (kept_tailWrite (hk.le rfl) h)
  · rename_i y20
    exact (kept_writeQbase (hk.le rfl) h)
  · rename_i y21
    exact (kept_writeQcfg (hk.le rfl) h)
  · rename_i y22
    exact (kept_evtValWrite (hk.le rfl) h)
  · rename_i y23
    exact (kept_writeHce (hk.le rfl) h)
  · rename_i y24
    exact (kept_writeHce (hk.le rfl) h)
  · rename_i y25
    exact (kept_writeHce (hk.le rfl) h)
  · rename_i y26
    exact (kept_writeHce (hk.le rfl) h)
  · rename_i y27
    exact (kept_writeHce (hk.le rfl) h)
  · rename_i y28
    exact (kept_writeHce (hk.le rfl) h)
  · rename_i y29
    exact (kept_writeHce (hk.le rfl) h)
  · rename_i y30
    exact (kept_writeHce (hk.le rfl) h)
  · rename_i y31
    exact (kept_writeHce (hk.le rfl) h)
  · rename_i y32
    exact (kept_writeHce (hk.le rfl) h)
  · rename_i y33
    exact (kept_ite (kept_ppsOff (hk.le rfl) k7) k7)
  · rename_i y34
    exact (kept_ite (kept_timSet (hk.le rfl) h) h)
  · rename_i y35
    exact (kept_ite (kept_noteOffset (hk.le rfl) h) k7)
  · rename_i y36
    exact (kept_ite (kept_trigReject (hk.le rfl) h) (kept_ite (kept_trigDisarm (hk.le rfl) k8) (kept_ite (kept_trigArm (hk.le rfl) k8) k8)))
  · rename_i y37
    exact (kept_ite (kept_doorbell (hk.le rfl) h) h)
  · rename_i y38
    exact (kept_readRecord (hk.le rfl) h)
  · rename_i y39 y40 y41 y42 y43 y44 y45 y46 y47 y48 y49 y50 y51 y52 y53 y54 y55 y56 y57 y58 y59 y60 y61 y62 y63 y64 y65 y66 y67 y68 y69
    exact k7

theorem kept_writeParts (hk : Keeps P 0x97fff) {s : State} {parts : List (Reg × Nat × Nat × Nat)} {val : Nat} (h : P s) :
    P (State.writeParts s parts val) := by
  unfold State.writeParts
  split
  · rename_i y0 y1 y2 y3 y4
    refine kept_ite ?_ ?_
    · exact (kept_ite (kept_writeReg (hk.le rfl) h) h)
    · refine kept_foldl ?_ ?_
      · exact h
      · intro x5 x6 h7
        exact (kept_ite (kept_writeReg (hk.le rfl) h7) h7)
  · rename_i y8 y9
    refine kept_foldl ?_ ?_
    · exact h
    · intro x10 x11 h12
      exact (kept_ite (kept_writeReg (hk.le rfl) h12) h12)

theorem kept_hostWrite (hk : Keeps P 0x97fff) {s : State} {off : Nat} {width : Nat} {val : Nat} (h : P s) :
    P (State.hostWrite s off width val) := by
  unfold State.hostWrite
  refine kept_ite ?_ ?_
  · exact (kept_ite h (kept_ite (kept_note (hk.le rfl) h) (hk.upd h)))
  · split
    · rename_i y0 y1
      exact (kept_writeParts (hk.le rfl) h)
    · rename_i y2 y3 y4
      extract_lets v5 v6
      clear_value v5 v6
      exact (kept_ite h (kept_ite (kept_wakeFor (hk.le rfl) h) (kept_writeParts (hk.le rfl) h)))

theorem kept_execRegisterWrite (hk : Keeps P 0x97fff) {off : Nat} {width : Nat} {val : Nat} {s : State} (h : P s) :
    ∃ t, execRegisterWrite off width val s = .next t ∧ P t := by
  unfold execRegisterWrite
  refine ⟨_, rfl, ?_⟩
  exact (kept_ite (kept_hostWrite (hk.le rfl) (kept_leaveDormant (hk.le rfl) h)) (kept_noteOffset (hk.le rfl) (kept_leaveDormant (hk.le rfl) h)))

theorem kept_execBar0BadAccess (hk : Keeps P 0xda) {off : Nat} {width : Nat} {isWrite : Bool} {s : State} (h : P s) :
    ∃ t, execBar0BadAccess off width isWrite s = .next t ∧ P t := by
  unfold execBar0BadAccess
  refine ⟨_, rfl, ?_⟩
  extract_lets v0
  have k1 : P v0 := (kept_leaveDormant (hk.le rfl) h)
  clear_value v0
  exact (kept_ite k1 (kept_noteOffset (hk.le rfl) (kept_when (hk.le rfl) k1 (fun x2 h3 => (kept_emit (hk.le rfl) h3)))))

theorem kept_answer (hk : Keeps P 0x200) {s : State} {status : Nat} {detail : Nat} {payload : List (BitVec 8)} (h : P s) :
    P (State.answer s status detail payload) := by
  unfold State.answer
  exact (hk.upd h)

theorem kept_serve (_hk : Keeps P 0x0) {s : State} {cmd : Nat} {f : List (BitVec 8) → State → State} (h : P s) (hf : ∀ a0 a1, P a1 → P (f a0 a1)) :
    P (State.serve s cmd f) := by
  unfold State.serve
  split
  · rename_i y0 y1 y2
    exact (hf _ _ h)
  · rename_i y3 y4
    exact h

theorem kept_accept (hk : Keeps P 0x200) {s : State} {cmd : Nat} {work : Nat → State → State} (h : P s) (hwork : ∀ a0 a1, P a1 → P (work a0 a1)) :
    P (State.accept s cmd work) := by
  unfold State.accept
  split
  · rename_i y0 y1
    exact (kept_answer (hk.le rfl) h)
  · rename_i y2 y3 y4
    exact (hwork _ _ (hk.upd h))

theorem kept_execMailboxResponse (hk : Keeps P 0x20a) {s : State} (h : P s) :
    ∃ t, execMailboxResponse s = .next t ∧ P t := by
  unfold execMailboxResponse
  refine ⟨_, rfl, ?_⟩
  split
  · rename_i y0 y1
    exact h
  · rename_i y2 y3 y4
    split
    · rename_i y5 y6 y7
      exact (kept_placeResp (hk.le rfl) h)
    · rename_i y8 y9
      exact h

theorem kept_execMailboxTimeout (hk : Keeps P 0x25a) {s : State} (h : P s) :
    ∃ t, execMailboxTimeout s = .next t ∧ P t := by
  unfold execMailboxTimeout
  refine ⟨_, rfl, ?_⟩
  split
  · rename_i y0 y1
    exact h
  · rename_i y2 y3 y4
    exact (kept_note (hk.le rfl) (kept_placeResp (hk.le rfl) h))

theorem kept_execDeferredWorkEnd (hk : Keeps P 0x20a) {ticket : Nat} {s : State} (h : P s) :
    ∃ t, execDeferredWorkEnd ticket s = .next t ∧ P t := by
  unfold execDeferredWorkEnd
  refine ⟨_, rfl, ?_⟩
  split
  · rename_i y0 y1
    exact h
  · rename_i y2 y3 y4
    refine kept_ite ?_ ?_
    · extract_lets v5
      have k6 : P v5 := (kept_postTicket (hk.le rfl) h)
      clear_value v5
      exact (kept_ite (kept_emit (hk.le rfl) k6) k6)
    · exact h

theorem kept_execGetInfo (hk : Keeps P 0x200) {s : State} (h : P s) :
    ∃ t, execGetInfo s = .next t ∧ P t := by
  unfold execGetInfo
  refine ⟨_, rfl, ?_⟩
  exact (kept_serve (hk.le rfl) h (fun x0 x1 h2 => (kept_answer (hk.le rfl) h2)))

theorem kept_execGetResult (hk : Keeps P 0x202) {s : State} (h : P s) :
    ∃ t, execGetResult s = .next t ∧ P t := by
  unfold execGetResult
  refine ⟨_, rfl, ?_⟩
  refine kept_serve (hk.le rfl) h ?_
  intro x6 x7 h8
  extract_lets v9 v10
  clear_value v9 v10
  refine kept_ite ?_ ?_
  · exact (kept_answer (hk.le rfl) h8)
  · split
    · rename_i y11 y12
      exact (kept_answer (hk.le rfl) h8)
    · rename_i y13 y14 y15
      split
      · rename_i y16 y17
        exact (kept_answer (hk.le rfl) h8)
      · rename_i y18 y19 y20
        exact (kept_answer (hk.le rfl) (kept_wr (hk.le rfl) (hk.upd h8)))

theorem kept_zeroShare (hk : Keeps P 0x1004) {s : State} {first : Nat} {mib : Nat} {q0 : Nat} (h : P s) :
    P (State.zeroShare s first mib q0) := by
  unfold State.zeroShare
  extract_lets v0 v1 v2 v3
  have k4 : P v2 := (kept_memClear (hk.le rfl) h)
  clear_value v0 v1 v2 v3
  exact (hk.upd k4)

theorem kept_resetSlot (hk : Keeps P 0x2) {s : State} {slot : Nat} (h : P s) :
    P (State.resetSlot s slot) := by
  unfold State.resetSlot
  exact (kept_resetRegs (hk.le rfl) h)

theorem kept_createCtx (hk : Keeps P 0x3006) {s : State} {slot : Nat} {id : Nat} {job : Nat} {part : Nat} {first : Nat} {mib : Nat} (h : P s) :
    P (State.createCtx s slot id job part first mib) := by
  unfold State.createCtx
  extract_lets v0 v1 v2
  have k3 : P v0 := by
    dsimp -zeta only [v0]
    refine kept_foldl ?_ ?_
    · exact (kept_resetSlot (hk.le rfl) h)
    · intro x4 x5 h6
      exact (kept_zeroShare (hk.le rfl) h6)
  have k7 : P v2 := (hk.upd k3)
  clear_value v0 v1 v2
  exact (kept_wr (hk.le rfl) (kept_wr (hk.le rfl) (kept_wr (hk.le rfl) (kept_wr (hk.le rfl) k7))))

theorem kept_execCtxCreate (hk : Keeps P 0x7207) {s : State} (h : P s) :
    ∃ t, execCtxCreate s = .next t ∧ P t := by
  unfold execCtxCreate
  refine ⟨_, rfl, ?_⟩
  refine kept_serve (hk.le rfl) h ?_
  intro x6 x7 h8
  extract_lets v9 v10 v11 v12
  clear_value v9 v10 v11 v12
  split
  · rename_i y13 y14 y15
    exact (kept_answer (hk.le rfl) h8)
  · rename_i y16 y17
    split
    · rename_i y18 y19 y20
      exact (kept_answer (hk.le rfl) (kept_orqMirror (hk.le rfl) (kept_createCtx (hk.le rfl) h8)))
    · rename_i y21 y22
      exact (kept_answer (hk.le rfl) h8)

theorem kept_execCtxRemove (hk : Keeps P 0x220) {s : State} (h : P s) :
    ∃ t, execCtxRemove s = .next t ∧ P t := by
  unfold execCtxRemove
  refine ⟨_, rfl, ?_⟩
  refine kept_serve (hk.le rfl) h ?_
  intro x6 x7 h8
  split
  · rename_i y9 y10
    exact (kept_answer (hk.le rfl) h8)
  · rename_i y11 y12 y13
    split
    · rename_i y14 y15
      exact (kept_accept (hk.le rfl) h8 (fun x16 x17 h18 => (kept_callRemoval (hk.le rfl) h18)))
    · rename_i y19 y20 y21
      exact (kept_ite (kept_answer (hk.le rfl) h8) (kept_accept (hk.le rfl) h8 (fun x22 x23 h24 => (kept_setRemoval (hk.le rfl) h24))))

theorem kept_pathReq (hk : Keeps P 0x13f6ff) {s : State} {op : Nat} (h : P s) :
    P (State.pathReq s op) := by
  unfold State.pathReq
  refine kept_serve (hk.le rfl) h ?_
  intro x6 x7 h8
  extract_lets v9 v10 v11
  clear_value v9 v10 v11
  exact (kept_ite h8 (kept_ite (kept_answer (hk.le rfl) h8) (kept_accept (hk.le rfl) h8 (fun x12 x13 h14 => (kept_openList (hk.le rfl) h14)))))

theorem kept_execPathReqSetup (hk : Keeps P 0x13f6ff) {s : State} (h : P s) :
    ∃ t, execPathReqSetup s = .next t ∧ P t := by
  unfold execPathReqSetup
  refine ⟨_, rfl, ?_⟩
  exact (kept_pathReq (hk.le rfl) h)

theorem kept_execPathReqTeardown (hk : Keeps P 0x13f6ff) {s : State} (h : P s) :
    ∃ t, execPathReqTeardown s = .next t ∧ P t := by
  unfold execPathReqTeardown
  refine ⟨_, rfl, ?_⟩
  exact (kept_pathReq (hk.le rfl) h)

theorem kept_execPathReqRecable (hk : Keeps P 0x13f6ff) {s : State} (h : P s) :
    ∃ t, execPathReqRecable s = .next t ∧ P t := by
  unfold execPathReqRecable
  refine ⟨_, rfl, ?_⟩
  exact (kept_pathReq (hk.le rfl) h)

theorem kept_execPathReqQuery (hk : Keeps P 0x13f6ff) {s : State} (h : P s) :
    ∃ t, execPathReqQuery s = .next t ∧ P t := by
  unfold execPathReqQuery
  refine ⟨_, rfl, ?_⟩
  exact (kept_pathReq (hk.le rfl) h)

theorem kept_execProofTest (hk : Keeps P 0x241) {s : State} (h : P s) :
    ∃ t, execProofTest s = .next t ∧ P t := by
  unfold execProofTest
  refine ⟨_, rfl, kept_serve (hk.le rfl) h ?_⟩
  intro x y h1
  refine kept_ite (kept_answer (hk.le rfl) h1) (kept_accept (hk.le rfl) h1 ?_)
  intro k z h2
  cases e : z.startProof (some k) with
  | none => exact h2
  | some t => exact kept_startProof (hk.le rfl) h2 _ e

theorem kept_placePartner (hk : Keeps P 0x13f6ff) {s : State} {job : Nat} {rec : List (BitVec 8)} (h : P s) :
    P (State.placePartner s job rec) := by
  unfold State.placePartner
  split
  · rename_i y0 y1
    exact h
  · rename_i y2 y3 y4
    refine kept_ite ?_ ?_
    · exact (kept_placeFail (hk.le rfl) h)
    · extract_lets v5 v6 v7 v8
      have k9 : P v5 := (kept_ite (kept_writeMap (hk.le rfl) h) h)
      have k10 : P v7 := (hk.upd k9)
      clear_value v5 v6 v7 v8
      exact (kept_openList (hk.le rfl) k10)

theorem kept_placeStart (hk : Keeps P 0x13f6ff) {s : State} {r : List (BitVec 8)} {t0 : Nat} (h : P s) :
    P (State.placeStart s r t0) := by
  unfold State.placeStart
  extract_lets v0 v1 v2 v3
  clear_value v0 v1 v2 v3
  split
  · rename_i y4 y5 y6 y7
    extract_lets v8 v9 v10 v11
    have k12 : P v9 := (hk.upd h)
    have k13 : P v10 := (kept_pmsg (hk.le rfl) k12)
    clear_value v8 v9 v10 v11
    refine kept_ite ?_ ?_
    · exact (kept_placeOk (hk.le rfl) k12)
    · split
      · rename_i y14 y15 y16
        exact (kept_placePartner (hk.le rfl) (hk.upd k13))
      · rename_i y17 y18
        exact k13

theorem kept_execPlacement (hk : Keeps P 0x13f6ff) {s : State} (h : P s) :
    ∃ t, execPlacement s = .next t ∧ P t := by
  unfold execPlacement
  refine ⟨_, rfl, ?_⟩
  refine kept_serve (hk.le rfl) h ?_
  intro x6 x7 h8
  refine kept_ite ?_ ?_
  · exact (kept_answer (hk.le rfl) h8)
  · split
    · rename_i y9 y10 y11 y12
      exact (kept_answer (hk.le rfl) h8)
    · rename_i y13 y14
      exact (kept_accept (hk.le rfl) h8 (fun x15 x16 h17 => (kept_placeStart (hk.le rfl) h17)))

theorem kept_execPartnerRecord (hk : Keeps P 0x13f6ff) {src : Nat} {rec : List Nat} {s : State} (h : P s) :
    ∃ t, execPartnerRecord src rec s = .next t ∧ P t := by
  unfold execPartnerRecord
  refine ⟨_, rfl, ?_⟩
  extract_lets v0 v1
  clear_value v0 v1
  split
  · rename_i y2 y3 y4
    exact (kept_placePartner (hk.le rfl) h)
  · rename_i y5 y6
    split
    · rename_i y7 y8 y9
      exact (kept_placePartner (hk.le rfl) h)
    · rename_i y10 y11
      exact (hk.upd h)

theorem kept_execPartnerSilent (hk : Keeps P 0x10200) {s : State} (h : P s) :
    ∃ t, execPartnerSilent s = .next t ∧ P t := by
  unfold execPartnerSilent
  refine ⟨_, rfl, ?_⟩
  split
  · rename_i y0 y1 y2
    exact (kept_placeFail (hk.le rfl) h)
  · rename_i y3 y4
    exact h

theorem kept_execEvrLatch (hk : Keeps P 0x252) {s : State} (h : P s) :
    ∃ t, execEvrLatch s = .next t ∧ P t := by
  unfold execEvrLatch
  refine ⟨_, rfl, ?_⟩
  refine kept_serve (hk.le rfl) h ?_
  intro x6 x7 h8
  extract_lets v9 v10 v11
  have k12 : P v11 := (kept_ite h8 (kept_note (hk.le rfl) (hk.upd h8)))
  clear_value v9 v10 v11
  exact (kept_answer (hk.le rfl) k12)

theorem kept_execEvrRelease (hk : Keeps P 0x252) {s : State} (h : P s) :
    ∃ t, execEvrRelease s = .next t ∧ P t := by
  unfold execEvrRelease
  refine ⟨_, rfl, ?_⟩
  exact (kept_serve (hk.le rfl) h (fun x0 x1 h2 => (kept_ite (kept_answer (hk.le rfl) (kept_releaseLatch (hk.le rfl) h2)) (kept_answer (hk.le rfl) h2))))

theorem kept_requestAction (hk : Keeps P 0x272) {s : State} {a : Action} (h : P s) :
    P (State.requestAction s a) := by
  unfold State.requestAction
  split
  · rename_i y0 y1
    exact (kept_startAction (hk.le rfl) h)
  · rename_i y2 y3 y4
    exact (kept_ite (kept_endWork (hk.le rfl) (kept_reportLast (hk.le rfl) h)) (kept_waitAction (hk.le rfl) h))

theorem kept_endHold (hk : Keeps P 0x227) {s : State} (h : P s) :
    P (State.endHold s) := by
  unfold State.endHold
  split
  · rename_i y0 y1 y2
    exact (kept_ite (kept_finishAction (hk.le rfl) h) h)
  · rename_i y3 y4
    exact h

theorem kept_resetReq (hk : Keeps P 0x277) {s : State} {step : Nat} (h : P s) :
    P (State.resetReq s step) := by
  unfold State.resetReq
  exact (kept_serve (hk.le rfl) h (fun x0 x1 h2 => (kept_ite h2 (kept_ite (kept_answer (hk.le rfl) h2) (kept_ite (kept_answer (hk.le rfl) h2) (kept_ite (kept_answer (hk.le rfl) h2) (kept_accept (hk.le rfl) h2 (fun x3 x4 h5 => (kept_requestAction (hk.le rfl) (kept_endHold (hk.le rfl) h5))))))))))

theorem kept_execResetReqEngine (hk : Keeps P 0x277) {s : State} (h : P s) :
    ∃ t, execResetReqEngine s = .next t ∧ P t := by
  unfold execResetReqEngine
  refine ⟨_, rfl, ?_⟩
  exact (kept_resetReq (hk.le rfl) h)

theorem kept_execResetReqPartition (hk : Keeps P 0x277) {s : State} (h : P s) :
    ∃ t, execResetReqPartition s = .next t ∧ P t := by
  unfold execResetReqPartition
  refine ⟨_, rfl, ?_⟩
  exact (kept_resetReq (hk.le rfl) h)

theorem kept_execResetReqChip (hk : Keeps P 0x277) {s : State} (h : P s) :
    ∃ t, execResetReqChip s = .next t ∧ P t := by
  unfold execResetReqChip
  refine ⟨_, rfl, ?_⟩
  exact (kept_resetReq (hk.le rfl) h)

theorem kept_execResetReqPowerCycle (hk : Keeps P 0x277) {s : State} (h : P s) :
    ∃ t, execResetReqPowerCycle s = .next t ∧ P t := by
  unfold execResetReqPowerCycle
  refine ⟨_, rfl, ?_⟩
  exact (kept_resetReq (hk.le rfl) h)

theorem kept_execEvacuate (hk : Keeps P 0x13f6ff) {s : State} (h : P s) :
    ∃ t, execEvacuate s = .next t ∧ P t := by
  unfold execEvacuate
  refine ⟨_, rfl, ?_⟩
  refine kept_serve (hk.le rfl) h ?_
  intro x12 x13 h14
  refine kept_ite ?_ ?_
  · exact h14
  · refine kept_ite ?_ ?_
    · exact (kept_answer (hk.le rfl) h14)
    · refine kept_accept (hk.le rfl) h14 ?_
      intro x27 x28 h29
      extract_lets v30 v31 v32
      have k33 : P v30 := (kept_sendHb (hk.le rfl) (kept_wr (hk.le rfl) h29))
      have k34 : P v32 := (hk.upd k33)
      clear_value v30 v31 v32
      exact (kept_evacCheck (hk.le rfl) (kept_kick (hk.le rfl) (kept_askEvacuate (hk.le rfl) k34)))

theorem kept_execEvacuateClear (hk : Keeps P 0x20a) {s : State} (h : P s) :
    ∃ t, execEvacuateClear s = .next t ∧ P t := by
  unfold execEvacuateClear
  refine ⟨_, rfl, ?_⟩
  exact (kept_serve (hk.le rfl) h (fun x0 x1 h2 => (kept_ite h2 (kept_accept (hk.le rfl) h2 (fun x3 x4 h5 => (kept_endTicket (hk.le rfl) (kept_sendHb (hk.le rfl) (kept_wr (hk.le rfl) h5))))))))

theorem kept_execEvacuateTimeout (hk : Keeps P 0x100200) {s : State} (h : P s) :
    ∃ t, execEvacuateTimeout s = .next t ∧ P t := by
  unfold execEvacuateTimeout
  refine ⟨_, rfl, ?_⟩
  exact (kept_endEvac (hk.le rfl) h)

theorem kept_execOrqSyncUnknown (hk : Keeps P 0x52) {src : Nat} {key : Nat} {s : State} (h : P s) :
    ∃ t, execOrqSyncUnknown src key s = .next t ∧ P t := by
  unfold execOrqSyncUnknown
  refine ⟨_, rfl, ?_⟩
  exact (kept_ite h (kept_note (hk.le rfl) h))

theorem kept_applyChanges (hk : Keeps P 0x97fff) {s : State} {old : List CfgEntry} {new : List CfgEntry} (h : P s) :
    P (State.applyChanges s old new) := by
  unfold State.applyChanges
  refine kept_foldl ?_ ?_
  · exact h
  · intro x0 x1 h2
    extract_lets v3 v4
    have k5 : P v4 := (kept_writeReg (hk.le rfl) h2)
    clear_value v3 v4
    exact (kept_ite h2 (kept_ite (kept_chkCommit (hk.le rfl) k5) k5))

theorem kept_applyStored (hk : Keeps P 0x7eff) {s : State} {keeper : Bool} (h : P s) :
    P (State.applyStored s keeper) := by
  unfold State.applyStored
  refine kept_foldl ?_ ?_
  · exact h
  · intro x0 x1 h2
    extract_lets v3 v4
    clear_value v3 v4
    exact (kept_ite (kept_setMirrorCfg (hk.le rfl) h2) (kept_ite (kept_chkCommit (hk.le rfl) (kept_wreg (hk.le rfl) h2)) (kept_wreg (hk.le rfl) h2)))

theorem kept_execCfgStage (hk : Keeps P 0x202) {s : State} (h : P s) :
    ∃ t, execCfgStage s = .next t ∧ P t := by
  unfold execCfgStage
  refine ⟨_, rfl, ?_⟩
  refine kept_serve (hk.le rfl) h ?_
  intro x6 x7 h8
  extract_lets v9 v10 v11
  clear_value v9 v10 v11
  split
  · rename_i y12 y13 y14
    exact (kept_answer (hk.le rfl) h8)
  · rename_i y15 y16
    exact (kept_ite (kept_answer (hk.le rfl) h8) (kept_answer (hk.le rfl) (kept_reportCfg (hk.le rfl) (hk.upd h8))))

theorem kept_execCfgDiscard (hk : Keeps P 0x202) {s : State} (h : P s) :
    ∃ t, execCfgDiscard s = .next t ∧ P t := by
  unfold execCfgDiscard
  refine ⟨_, rfl, ?_⟩
  exact (kept_serve (hk.le rfl) h (fun x0 x1 h2 => (kept_answer (hk.le rfl) (kept_reportCfg (hk.le rfl) (hk.upd h2)))))

theorem kept_cfgCommit (hk : Keeps P 0x97fff) {s : State} {v : Nat} {t0 : Nat} {flashOk : Bool} (h : P s) :
    P (State.cfgCommit s v t0 flashOk) := by
  unfold State.cfgCommit
  extract_lets v0 v1 v2 v3 v4 v5 v6 v7 v8
  have k9 : P v5 := (hk.upd h)
  have k10 : P v6 := (kept_applyChanges (hk.le rfl) k9)
  have k11 : P v8 := (kept_reportCfg (hk.le rfl) (hk.upd k10))
  clear_value v0 v1 v2 v3 v4 v5 v6 v7 v8
  refine kept_ite ?_ ?_
  · exact (kept_endTicket (hk.le rfl) h)
  · split
    · rename_i y12 y13 y14
      exact (kept_endTicket (hk.le rfl) h)
    · rename_i y15 y16
      exact (kept_ite (kept_endTicket (hk.le rfl) h) (kept_endTicket (hk.le rfl) (kept_note (hk.le rfl) k11)))

theorem kept_execCfgCommit (hk : Keeps P 0x97fff) {flashOk : Bool} {s : State} (h : P s) :
    ∃ t, execCfgCommit flashOk s = .next t ∧ P t := by
  unfold execCfgCommit
  refine ⟨_, rfl, ?_⟩
  exact (kept_serve (hk.le rfl) h (fun x0 x1 h2 => (kept_ite (kept_answer (hk.le rfl) h2) (kept_accept (hk.le rfl) h2 (fun x3 x4 h5 => (kept_cfgCommit (hk.le rfl) h5))))))

theorem kept_cfgRevert (hk : Keeps P 0x97fff) {s : State} {t0 : Nat} (h : P s) :
    P (State.cfgRevert s t0) := by
  unfold State.cfgRevert
  split
  · rename_i y0 y1
    exact (kept_endTicket (hk.le rfl) h)
  · rename_i y2 y3 y4
    extract_lets v5 v6 v7 v8 v9
    have k10 : P v8 := (hk.upd h)
    have k11 : P v9 := (kept_reportCfg (hk.le rfl) (kept_applyChanges (hk.le rfl) k10))
    clear_value v5 v6 v7 v8 v9
    exact (kept_ite (kept_endTicket (hk.le rfl) h) (kept_endTicket (hk.le rfl) (kept_note (hk.le rfl) k11)))

theorem kept_execCfgRevert (hk : Keeps P 0x97fff) {s : State} (h : P s) :
    ∃ t, execCfgRevert s = .next t ∧ P t := by
  unfold execCfgRevert
  refine ⟨_, rfl, ?_⟩
  exact (kept_serve (hk.le rfl) h (fun x0 x1 h2 => (kept_ite (kept_answer (hk.le rfl) h2) (kept_accept (hk.le rfl) h2 (fun x3 x4 h5 => (kept_cfgRevert (hk.le rfl) h5))))))

theorem kept_execCfgRead (hk : Keeps P 0x200) {s : State} (h : P s) :
    ∃ t, execCfgRead s = .next t ∧ P t := by
  unfold execCfgRead
  refine ⟨_, rfl, ?_⟩
  refine kept_serve (hk.le rfl) h ?_
  intro x6 x7 h8
  extract_lets v9 v10 v11 v12 v13
  clear_value v9 v10 v11 v12 v13
  exact (kept_ite (kept_answer (hk.le rfl) h8) (kept_answer (hk.le rfl) h8))

theorem kept_execPlanLoad (hk : Keeps P 0x4025b) {hostData : List Nat} {s : State} (h : P s) :
    ∃ t, execPlanLoad hostData s = .next t ∧ P t := by
  unfold execPlanLoad
  refine ⟨_, rfl, ?_⟩
  refine kept_serve (hk.le rfl) h ?_
  intro x6 x7 h8
  extract_lets v9 v10
  clear_value v9 v10
  refine kept_ite ?_ ?_
  · exact (kept_answer (hk.le rfl) h8)
  · refine kept_accept (hk.le rfl) h8 ?_
    intro x20 x21 h22
    extract_lets v23 v24
    have k25 : P v23 := (kept_ite (kept_emit (hk.le rfl) h22) h22)
    clear_value v23 v24
    split
    · rename_i y26 y27 y28
      exact (kept_endTicket (hk.le rfl) (kept_tick (hk.le rfl) k25))
    · rename_i y29 y30 y31
      split
      · rename_i y32 y33 y34
        exact (kept_endTicket (hk.le rfl) k25)
      · rename_i y35 y36
        extract_lets v37 v38 v39
        have k40 : P v38 := (hk.upd k25)
        have k41 : P v39 := (kept_ite (kept_note (hk.le rfl) k40) k40)
        clear_value v37 v38 v39
        exact (kept_endTicket (hk.le rfl) k41)

theorem kept_execPlanCommit (hk : Keeps P 0x17f6ff) {s : State} (h : P s) :
    ∃ t, execPlanCommit s = .next t ∧ P t := by
  unfold execPlanCommit
  refine ⟨_, rfl, ?_⟩
  refine kept_serve (hk.le rfl) h ?_
  intro x12 x13 h14
  refine kept_ite ?_ ?_
  · exact (kept_answer (hk.le rfl) h14)
  · refine kept_accept (hk.le rfl) h14 ?_
    intro x24 x25 h26
    split
    · rename_i y27 y28
      exact (kept_endTicket (hk.le rfl) h26)
    · rename_i y29 y30 y31
      exact (kept_ite (kept_endTicket (hk.le rfl) h26) (kept_endTicket (hk.le rfl) (kept_kick (hk.le rfl) (kept_adoptPlan (hk.le rfl) (hk.upd h26)))))

theorem kept_execPlanRevert (hk : Keeps P 0x17f6ff) {s : State} (h : P s) :
    ∃ t, execPlanRevert s = .next t ∧ P t := by
  unfold execPlanRevert
  refine ⟨_, rfl, ?_⟩
  refine kept_serve (hk.le rfl) h ?_
  intro x12 x13 h14
  refine kept_ite ?_ ?_
  · exact (kept_answer (hk.le rfl) h14)
  · refine kept_accept (hk.le rfl) h14 ?_
    intro x24 x25 h26
    split
    · rename_i y27 y28
      exact (kept_endTicket (hk.le rfl) h26)
    · rename_i y29 y30 y31
      exact (kept_endTicket (hk.le rfl) (kept_kick (hk.le rfl) (kept_adoptPlan (hk.le rfl) h26)))

theorem kept_execHeartbeat (hk : Keeps P 0x252) {seq : Nat} {alive : Nat} {s : State} (h : P s) :
    ∃ t, execHeartbeat seq alive s = .next t ∧ P t := by
  unfold execHeartbeat
  refine ⟨_, rfl, ?_⟩
  refine kept_ite ?_ ?_
  · exact h
  · extract_lets v0 v1 v2 v3 v4 v5 v6 v7
    have k8 : P v2 := (kept_wr (hk.le rfl) h)
    have k9 : P v4 := (hk.upd k8)
    have k10 : P v5 := (kept_wr (hk.le rfl) (kept_wr (hk.le rfl) (kept_wr (hk.le rfl) k9)))
    exact (kept_ite (kept_ite k8 (kept_note (hk.le rfl) (hk.upd k8))) (kept_ite k9 (hk.upd k10)))

theorem kept_execWatchdogPeriod (hk : Keeps P 0x272) {s : State} (h : P s) :
    ∃ t, execWatchdogPeriod s = .next t ∧ P t := by
  unfold execWatchdogPeriod
  refine ⟨_, rfl, ?_⟩
  refine kept_ite ?_ ?_
  · exact h
  · refine kept_ite ?_ ?_
    · exact (hk.upd h)
    · extract_lets v0
      have k1 : P v0 := (kept_bumpSat (hk.le rfl) h)
      clear_value v0
      exact (kept_ite k1 (kept_record (hk.le rfl) (kept_wr (hk.le rfl) k1)))

theorem kept_execKeeperWatchdog (hk : Keeps P 0x273) {s : State} (h : P s) :
    ∃ t, execKeeperWatchdog s = .next t ∧ P t := by
  unfold execKeeperWatchdog
  refine ⟨_, rfl, ?_⟩
  extract_lets v0 v1 v2 v3 v4
  have k5 : P v4 := (kept_bump (hk.le rfl) (kept_tick (hk.le rfl) (hk.upd h)))
  clear_value v0 v1 v2 v3 v4
  exact (kept_ite (kept_record (hk.le rfl) k5) (kept_record (hk.le rfl) k5))

theorem kept_groupFail (hk : Keeps P 0x200000) {s : State} {status : Nat} (h : P s) :
    P (State.groupFail s status) := by
  unfold State.groupFail
  split
  · rename_i y0 y1
    exact h
  · rename_i y2 y3 y4
    exact (hk.upd h)

theorem kept_failedBoot (hk : Keeps P 0x2c0352) {s : State} {cause : Nat} (h : P s) :
    P (State.failedBoot s cause) := by
  unfold State.failedBoot
  extract_lets v0 v1 v2 v3 v4
  have k5 : P v2 := (kept_note (hk.le rfl) (kept_wr (hk.le rfl) h))
  have k6 : P v4 := (kept_ite (kept_groupFail (hk.le rfl) (kept_clearTrial (hk.le rfl) k5)) (kept_ite (kept_runSlot (hk.le rfl) (kept_wr (hk.le rfl) k5)) k5))
  clear_value v0 v1 v2 v3 v4
  exact (kept_ite (kept_enterRecovery (hk.le rfl) k6) k6)

theorem kept_execRstStepLate (hk : Keeps P 0x2c0372) {step : Nat} {s : State} (h : P s) :
    ∃ t, execRstStepLate step s = .next t ∧ P t := by
  unfold execRstStepLate
  refine ⟨_, rfl, ?_⟩
  exact (kept_ite (kept_failedBoot (hk.le rfl) (kept_record (hk.le rfl) h)) h)

theorem kept_execRstOrqBootFail (hk : Keeps P 0x2c0372) {s : State} (h : P s) :
    ∃ t, execRstOrqBootFail s = .next t ∧ P t := by
  unfold execRstOrqBootFail
  refine ⟨_, rfl, ?_⟩
  exact (kept_ite (kept_failedBoot (hk.le rfl) (kept_record (hk.le rfl) h)) h)

theorem kept_execLatticeRecordWrite (hk : Keeps P 0x100000) {s : State} (h : P s) :
    ∃ t, execLatticeRecordWrite s = .next t ∧ P t := by
  unfold execLatticeRecordWrite
  refine ⟨_, rfl, ?_⟩
  exact (hk.upd h)

theorem kept_execHbSend (hk : Keeps P 0x10405a) {s : State} (h : P s) :
    ∃ t, execHbSend s = .next t ∧ P t := by
  unfold execHbSend
  refine ⟨_, rfl, ?_⟩
  exact (kept_sendMirrorHb (hk.le rfl) (kept_sendHb (hk.le rfl) h))

theorem kept_execHb (hk : Keeps P 0x100000) {port : Nat} {state : Nat} {node : Nat} {inc : Nat} {s : State} (h : P s) :
    ∃ t, execHb port state node inc s = .next t ∧ P t := by
  unfold execHb
  refine ⟨_, rfl, ?_⟩
  exact (kept_ite (hk.upd h) h)

theorem kept_mirrorBack (hk : Keeps P 0x5002) {s : State} {peerHolds : Bool} (h : P s) :
    P (State.mirrorBack s peerHolds) := by
  unfold State.mirrorBack
  refine kept_ite ?_ ?_
  · extract_lets v0 v1 v2
    have k3 : P v1 := (kept_wr (hk.le rfl) (hk.upd h))
    clear_value v0 v1 v2
    exact (kept_ite (kept_resync (hk.le rfl) k3) k3)
  · exact h

theorem kept_execMirrorHb (hk : Keeps P 0x5002) {src : Nat} {x1 : Nat} {state : Nat} {roles : Nat} {buddy : Nat} {s : State} (h : P s) :
    ∃ t, execMirrorHb src x1 state roles buddy s = .next t ∧ P t := by
  unfold execMirrorHb
  refine ⟨_, rfl, ?_⟩
  extract_lets v0 v1 v2 v3 v4
  have k5 : P v2 := (kept_wr (hk.le rfl) (kept_wr (hk.le rfl) (kept_wr (hk.le rfl) h)))
  have k6 : P v4 := (kept_ite (kept_wr (hk.le rfl) k5) k5)
  clear_value v0 v1 v2 v3 v4
  exact (kept_ite h (kept_mirrorBack (hk.le rfl) k6))

theorem kept_mirrorFreeze (hk : Keeps P 0x76ff) {s : State} (h : P s) :
    P (State.mirrorFreeze s) := by
  unfold State.mirrorFreeze
  exact (kept_ite (kept_wr (hk.le rfl) (kept_ackMirror (hk.le rfl) h)) h)

theorem kept_mirrorYield (hk : Keeps P 0x272) {s : State} {peer : Nat} (h : P s) :
    P (State.mirrorYield s peer) := by
  unfold State.mirrorYield
  extract_lets v0
  clear_value v0
  refine kept_foldl ?_ ?_
  · exact h
  · intro x1 x2 h3
    exact (kept_record (hk.le rfl) h3)

theorem kept_mirrorSplit (hk : Keeps P 0x76ff) {s : State} {peer : Nat} {row : Nat} (h : P s) :
    P (State.mirrorSplit s peer row) := by
  unfold State.mirrorSplit
  extract_lets v0 v1 v2 v3 v4 v5 v6 v7 v8 v9
  have k10 : P v4 := (kept_mirrorFreeze (hk.le rfl) h)
  have k11 : P v5 := (kept_ite (kept_mirrorYield (hk.le rfl) k10) k10)
  have k12 : P v7 := (kept_ite (hk.upd k11) k11)
  have k13 : P v8 := (kept_ite (kept_note (hk.le rfl) k12) k12)
  have k14 : P v9 := (kept_ite (kept_wr (hk.le rfl) k13) k13)
  clear_value v0 v1 v2 v3 v4 v5 v6 v7 v8 v9
  exact (kept_note (hk.le rfl) (kept_wr (hk.le rfl) k14))

theorem kept_execMirrorPathLost (hk : Keeps P 0x76ff) {path1 : Bool} {s : State} (h : P s) :
    ∃ t, execMirrorPathLost path1 s = .next t ∧ P t := by
  unfold execMirrorPathLost
  refine ⟨_, rfl, ?_⟩
  split
  · rename_i y0 y1
    exact h
  · rename_i y2 y3 y4
    extract_lets v5 v6 v7
    have k8 : P v5 := (kept_ite (kept_wr (hk.le rfl) h) (kept_wr (hk.le rfl) h))
    clear_value v5 v6 v7
    exact (kept_ite k8 (kept_ite k8 (kept_mirrorSplit (hk.le rfl) k8)))

theorem kept_keepMeasured (hk : Keeps P 0x400000) {s : State} {kind : Nat} {index : Nat} {val : Nat} (h : P s) :
    P (State.keepMeasured s kind index val) := by
  unfold State.keepMeasured
  extract_lets v0 v1
  clear_value v0 v1
  exact (hk.upd h)

theorem kept_measureHinge (hk : Keeps P 0x400000) {s : State} {i : Nat} (h : P s) :
    P (State.measureHinge s i) := by
  unfold State.measureHinge
  extract_lets v0 v1
  have k2 : P v1 := (hk.upd h)
  clear_value v0 v1
  split
  · rename_i y3 y4 y5 y6 y7 y8
    exact (kept_keepMeasured (hk.le rfl) k2)
  · rename_i y9 y10 y11
    exact k2

theorem kept_execAgeingMeasurement (hk : Keeps P 0x400000) {kind : Nat} {index : Nat} {val : Nat} {s : State} (h : P s) :
    ∃ t, execAgeingMeasurement kind index val s = .next t ∧ P t := by
  unfold execAgeingMeasurement
  refine ⟨_, rfl, ?_⟩
  exact (kept_ite h (kept_ite (kept_measureHinge (hk.le rfl) h) (kept_keepMeasured (hk.le rfl) h)))

theorem kept_settleItem (hk : Keeps P 0x400000) {s : State} {kind : Nat} {index : Nat} {state : Nat} (h : P s) :
    P (State.settleItem s kind index state) := by
  unfold State.settleItem
  split
  · rename_i y0 y1 y2
    exact (hk.upd h)
  · rename_i y3 y4
    exact h

theorem kept_replanQuarter (hk : Keeps P 0x4000d2) {s : State} {p0 : ReplanSum} {x : AgeItem} {q0 : Nat} {relax : Bool} (h : P s) :
    P (State.replanQuarter s p0 x q0 relax).1 := by
  unfold State.replanQuarter
  extract_lets v0 v1 v2 v3 v4 v5 v6 v7 v8 v9
  have k10 : P v7 := (kept_setQuarter (hk.le rfl) h)
  have k11 : P v8 := (kept_wr (hk.le rfl) k10)
  have k12 : P v9 := (kept_ite (kept_note (hk.le rfl) k11) k11)
  clear_value v0 v1 v2 v3 v4 v5 v6 v7 v8 v9
  exact (kept_settleItem (hk.le rfl) k12)

theorem kept_replanHinge (hk : Keeps P 0x400052) {s : State} {p0 : ReplanSum} {x : AgeItem} {i : Nat} (h : P s) :
    P (State.replanHinge s p0 x i).1 := by
  unfold State.replanHinge
  extract_lets v0 v1 v2 v3 v4
  have k5 : P v1 := (kept_settleItem (hk.le rfl) h)
  have k6 : P v3 := (hk.upd k5)
  have k7 : P v4 := (kept_wr (hk.le rfl) k6)
  clear_value v0 v1 v2 v3 v4
  exact (kept_ite1 (kept_failHinge (hk.le rfl) (kept_note (hk.le rfl) k7)) k5)

theorem kept_writeTec (hk : Keeps P 0x80052) {s : State} {w : Nat} {code : Nat} (h : P s) :
    P (State.writeTec s w code) := by
  unfold State.writeTec
  extract_lets v0
  clear_value v0
  exact (kept_ite (kept_hceReject (hk.le rfl) h) (kept_ite (kept_loopHoldOff (hk.le rfl) (kept_wr (hk.le rfl) (kept_loopHoldOn (hk.le rfl) h))) (kept_wr (hk.le rfl) h)))

theorem kept_replanLaser (hk : Keeps P 0x480052) {s : State} {p0 : ReplanSum} {x : AgeItem} {w : Nat} (h : P s) :
    P (State.replanLaser s p0 x w).1 := by
  unfold State.replanLaser
  extract_lets v0 v1 v2 v3 v4 v5 v6
  have k7 : P v1 := (kept_settleItem (hk.le rfl) h)
  have k8 : P v2 := (kept_ite (kept_note (hk.le rfl) k7) k7)
  have k9 : P v6 := (hk.upd k8)
  clear_value v0 v1 v2 v3 v4 v5 v6
  exact (kept_ite1 k8 (kept_writeTec (hk.le rfl) k9))

theorem kept_replanAmp (hk : Keeps P 0x400052) {s : State} {p0 : ReplanSum} {x : AgeItem} {port : Nat} (h : P s) :
    P (State.replanAmp s p0 x port).1 := by
  unfold State.replanAmp
  extract_lets v0 v1 v2 v3
  have k4 : P v1 := (kept_settleItem (hk.le rfl) h)
  have k5 : P v2 := (kept_ite (kept_note (hk.le rfl) k4) k4)
  clear_value v0 v1 v2 v3
  exact (kept_wr (hk.le rfl) k5)

theorem kept_replanDram (hk : Keeps P 0x400052) {s : State} {p0 : ReplanSum} {x : AgeItem} {d : Nat} (h : P s) :
    P (State.replanDram s p0 x d).1 := by
  unfold State.replanDram
  extract_lets v0 v1 v2
  have k3 : P v1 := (kept_settleItem (hk.le rfl) h)
  have k4 : P v2 := (kept_ite (kept_note (hk.le rfl) k3) k3)
  clear_value v0 v1 v2
  exact k4

theorem kept_replanItem (hk : Keeps P 0x4800d2) {s : State} {p0 : ReplanSum} {key : Nat} {x : AgeItem} {relax : Bool} (h : P s) :
    P (State.replanItem s p0 key x relax).1 := by
  unfold State.replanItem
  extract_lets v0 v1
  clear_value v0 v1
  exact (kept_ite1 (kept_replanHinge (hk.le rfl) h) (kept_ite1 (kept_replanLaser (hk.le rfl) h) (kept_ite1 (kept_replanAmp (hk.le rfl) h) (kept_ite1 (kept_replanQuarter (hk.le rfl) h) (kept_replanDram (hk.le rfl) h)))))

theorem kept_replan (hk : Keeps P 0x4800d3) {s : State} {cause : Nat} {relax : Bool} (h : P s) :
    P (State.replan s cause relax).1 := by
  unfold State.replan
  split
  · rename_i y0 y1 y2 y3
    have k4 : P y1 := by
      have e5 := congrArg Prod.fst y3
      dsimp only at e5
      rw [← e5]
      refine kept_foldl1 ?_ ?_
      · exact h
      · intro x6 x7 h8
        exact (kept_replanItem (hk.le rfl) h8)
    extract_lets v9 v10
    have k11 : P v9 := (hk.upd k4)
    have k12 : P v10 := (kept_wr (hk.le rfl) k11)
    clear_value v9 v10
    exact (kept_note (hk.le rfl) (kept_wr (hk.le rfl) k12))

theorem kept_execAgeReplan (hk : Keeps P 0x4802d3) {s : State} (h : P s) :
    ∃ t, execAgeReplan s = .next t ∧ P t := by
  unfold execAgeReplan
  refine ⟨_, rfl, ?_⟩
  refine kept_serve (hk.le rfl) h ?_
  intro x12 x13 h14
  refine kept_ite ?_ ?_
  · exact (kept_answer (hk.le rfl) h14)
  · refine kept_accept (hk.le rfl) h14 ?_
    intro x24 x25 h26
    extract_lets v27
    clear_value v27
    split
    · rename_i y28 y29 y30 y31
      have k32 : P y29 := by
        have e33 := congrArg Prod.fst y31
        dsimp only at e33
        rw [← e33]
        exact (kept_replan (hk.le rfl) h26)
      exact (kept_endTicket (hk.le rfl) (kept_ite h26 k32))

theorem kept_execReplanDue (hk : Keeps P 0x4800d3) {s : State} (h : P s) :
    ∃ t, execReplanDue s = .next t ∧ P t := by
  unfold execReplanDue
  refine ⟨_, rfl, ?_⟩
  exact (kept_ite h (kept_ite (kept_wr (hk.le rfl) h) (kept_replan (hk.le rfl) h)))

theorem kept_replanDeferred (hk : Keeps P 0x4800d3) {s : State} (h : P s) :
    P (State.replanDeferred s) := by
  unfold State.replanDeferred
  exact (kept_ite (kept_replan (hk.le rfl) h) h)

theorem kept_setGroup (hk : Keeps P 0x200000) {s : State} {f : ActGroup → ActGroup} (h : P s) :
    P (State.setGroup s f) := by
  unfold State.setGroup
  exact (hk.upd h)

theorem kept_sendGroup (hk : Keeps P 0x405a) {s : State} {dst : Nat} {code : Nat} {status : Nat} (h : P s) :
    P (State.sendGroup s dst code status) := by
  unfold State.sendGroup
  exact (kept_pmsg (hk.le rfl) h)

theorem kept_ownChipReset (hk : Keeps P 0x272) {s : State} {cause : Nat} (h : P s) :
    P (State.ownChipReset s cause) := by
  unfold State.ownChipReset
  extract_lets v0
  have k1 : P v0 := by
    dsimp -zeta only [v0]
    split
    · rename_i y2 y3 y4
      refine kept_ite ?_ ?_
      · extract_lets v5 v6
        have k7 : P v5 := (kept_reportLast (hk.le rfl) h)
        clear_value v5 v6
        exact (hk.upd k7)
      · exact h
    · rename_i y8 y9
      exact h
  clear_value v0
  exact (kept_callAction (hk.le rfl) k1)

theorem kept_restartKeeper (hk : Keeps P 0x2) {s : State} (h : P s) :
    P (State.restartKeeper s) := by
  unfold State.restartKeeper
  exact (kept_bump (hk.le rfl) h)

theorem kept_revert (hk : Keeps P 0x2c0372) {s : State} (h : P s) :
    P (State.revert s) := by
  unfold State.revert
  exact (kept_ownChipReset (hk.le rfl) (kept_restartKeeper (hk.le rfl) (kept_clearTrial (hk.le rfl) h)))

theorem kept_endGroup (hk : Keeps P 0x6803d3) {s : State} {state : Nat} {status : Nat} (h : P s) :
    P (State.endGroup s state status) := by
  unfold State.endGroup
  extract_lets v0 v1 v2 v3
  have k4 : P v1 := (kept_setGroup (hk.le rfl) (kept_endWork (hk.le rfl) h))
  have k5 : P v3 := (hk.upd k4)
  clear_value v0 v1 v2 v3
  exact (kept_replanDeferred (hk.le rfl) (kept_wr (hk.le rfl) (kept_wr (hk.le rfl) (kept_wr (hk.le rfl) k5))))

theorem kept_confirmTrial (hk : Keeps P 0x200052) {s : State} (h : P s) :
    P (State.confirmTrial s) := by
  unfold State.confirmTrial
  split
  · rename_i y0 y1
    exact h
  · rename_i y2 y3 y4
    extract_lets v5 v6 v7
    have k8 : P v7 := (hk.upd h)
    clear_value v5 v6 v7
    exact (kept_note (hk.le rfl) (kept_wr (hk.le rfl) (kept_wr (hk.le rfl) (kept_wr (hk.le rfl) (kept_wr (hk.le rfl) k8)))))

theorem kept_memberGo (hk : Keeps P 0x200102) {s : State} (h : P s) :
    P (State.memberGo s) := by
  unfold State.memberGo
  refine kept_ite ?_ ?_
  · extract_lets v0 v1 v2
    have k3 : P v2 := (hk.upd h)
    clear_value v0 v1 v2
    exact (kept_wr (hk.le rfl) (kept_wr (hk.le rfl) (kept_wreg (hk.le rfl) k3)))
  · exact h

theorem kept_memberAbort (hk : Keeps P 0x6803d3) {s : State} (h : P s) :
    P (State.memberAbort s) := by
  unfold State.memberAbort
  exact (kept_ite (kept_endGroup (hk.le rfl) h) h)

theorem kept_memberAllOk (hk : Keeps P 0x6803d3) {s : State} (h : P s) :
    P (State.memberAllOk s) := by
  unfold State.memberAllOk
  exact (kept_ite (kept_endGroup (hk.le rfl) (kept_confirmTrial (hk.le rfl) h)) h)

theorem kept_memberRollback (hk : Keeps P 0x6c03f3) {s : State} (h : P s) :
    P (State.memberRollback s) := by
  unfold State.memberRollback
  refine kept_ite ?_ ?_
  · extract_lets v0 v1 v2 v3
    have k4 : P v2 := (kept_note (hk.le rfl) (kept_tick (hk.le rfl) h))
    have k5 : P v3 := (kept_ite (kept_revert (hk.le rfl) k4) k4)
    clear_value v0 v1 v2 v3
    exact (kept_endGroup (hk.le rfl) k5)
  · exact h

theorem kept_decide_ (hk : Keeps P 0x6c43fb) {s : State} {code : Nat} (h : P s) :
    P (State.decide_ s code) := by
  unfold State.decide_
  extract_lets v0 v1 v2 v3
  have k4 : P v2 := (kept_setGroup (hk.le rfl) h)
  have k5 : P v3 := by
    dsimp -zeta only [v3]
    refine kept_foldl ?_ ?_
    · exact k4
    · intro x6 x7 h8
      exact (kept_sendGroup (hk.le rfl) h8)
  clear_value v0 v1 v2 v3
  exact (kept_ite (kept_memberGo (hk.le rfl) (kept_wr (hk.le rfl) (kept_setGroup (hk.le rfl) k5))) (kept_ite (kept_memberAbort (hk.le rfl) k5) (kept_ite (kept_memberAllOk (hk.le rfl) k5) (kept_memberRollback (hk.le rfl) k5))))

theorem kept_coordReady (hk : Keeps P 0x200002) {s : State} {src : Nat} {id : Nat} {ver : Nat} (h : P s) :
    P (State.coordReady s src id ver) := by
  unfold State.coordReady
  split
  · rename_i y0 y1 y2
    exact (kept_ite (kept_wr (hk.le rfl) (kept_setGroup (hk.le rfl) h)) h)
  · rename_i y3 y4
    exact h

theorem kept_coordNotReady (hk : Keeps P 0x200000) {s : State} {src : Nat} {id : Nat} (h : P s) :
    P (State.coordNotReady s src id) := by
  unfold State.coordNotReady
  split
  · rename_i y0 y1 y2
    exact (kept_ite (kept_setGroup (hk.le rfl) h) h)
  · rename_i y3 y4
    exact h

theorem kept_coordOk (hk : Keeps P 0x6c43fb) {s : State} {src : Nat} {id : Nat} (h : P s) :
    P (State.coordOk s src id) := by
  unfold State.coordOk
  split
  · rename_i y0 y1 y2
    refine kept_ite ?_ ?_
    · extract_lets v3 v4
      have k5 : P v4 := (kept_wr (hk.le rfl) (kept_setGroup (hk.le rfl) h))
      clear_value v3 v4
      exact (kept_ite (kept_decide_ (hk.le rfl) k5) k5)
    · exact h
  · rename_i y6 y7
    exact h

theorem kept_coordFail (hk : Keeps P 0x6c43fb) {s : State} {src : Nat} {id : Nat} {status : Nat} (h : P s) :
    P (State.coordFail s src id status) := by
  unfold State.coordFail
  split
  · rename_i y0 y1 y2
    exact (kept_ite (kept_decide_ (hk.le rfl) (kept_setGroup (hk.le rfl) h)) h)
  · rename_i y3 y4
    exact h

theorem kept_coordDecide (hk : Keeps P 0x6c43fb) {s : State} (h : P s) :
    P (State.coordDecide s) := by
  unfold State.coordDecide
  split
  · rename_i y0 y1 y2
    refine kept_ite ?_ ?_
    · extract_lets v3 v4
      clear_value v3 v4
      exact (kept_decide_ (hk.le rfl) h)
    · exact h
  · rename_i y5 y6
    exact h

theorem kept_report (hk : Keeps P 0x6c43fb) {s : State} {code : Nat} {status : Nat} (h : P s) :
    P (State.report s code status) := by
  unfold State.report
  refine kept_ite ?_ ?_
  · extract_lets v0
    clear_value v0
    exact (kept_ite (kept_coordReady (hk.le rfl) h) (kept_ite (kept_coordNotReady (hk.le rfl) h) (kept_ite (kept_coordOk (hk.le rfl) h) (kept_ite (kept_coordFail (hk.le rfl) h) h))))
  · exact (kept_sendGroup (hk.le rfl) h)

theorem kept_trialFail (hk : Keeps P 0x6c43fb) {s : State} {status : Nat} (h : P s) :
    P (State.trialFail s status) := by
  unfold State.trialFail
  extract_lets v0 v1
  have k2 : P v0 := (kept_report (hk.le rfl) (kept_setGroup (hk.le rfl) h))
  clear_value v0 v1
  exact (kept_ite (kept_revert (hk.le rfl) k2) (hk.upd k2))

theorem kept_trialReport (hk : Keeps P 0x6c43fb) {s : State} (h : P s) :
    P (State.trialReport s) := by
  unfold State.trialReport
  split
  · rename_i y0 y1 y2
    exact (kept_ite (kept_report (hk.le rfl) (kept_setGroup (hk.le rfl) h)) h)
  · rename_i y3 y4
    exact h

theorem kept_afterStart (hk : Keeps P 0x6c43fb) {s : State} (h : P s) :
    P (State.afterStart s) := by
  unfold State.afterStart
  split
  · rename_i y0 y1 y2
    refine kept_ite ?_ ?_
    · exact h
    · refine kept_ite ?_ ?_
      · extract_lets v3
        clear_value v3
        exact (kept_report (hk.le rfl) (kept_setGroup (hk.le rfl) h))
      · exact (kept_ite (kept_trialFail (hk.le rfl) h) (kept_trialReport (hk.le rfl) h))
  · rename_i y4 y5
    exact h

theorem kept_activate (hk : Keeps P 0x2c0372) {s : State} (h : P s) :
    P (State.activate s) := by
  unfold State.activate
  extract_lets v0 v1 v2 v3 v4 v5
  have k6 : P v4 := (kept_wr (hk.le rfl) (hk.upd h))
  have k7 : P v5 := (kept_restartKeeper (hk.le rfl) (kept_chooseSlot (hk.le rfl) (kept_wr (hk.le rfl) k6)))
  clear_value v0 v1 v2 v3 v4 v5
  exact (kept_ownChipReset (hk.le rfl) (kept_note (hk.le rfl) k7))

end Sys2Proof.Machine
end

