-- ==== Sys2Proof/Laws/KeptBoot.lean ====
section
/-! SUPPORT. What the operations of boot, two-key authorisation, update, block steps and receiving keep and change (`Keeps`), one lemma each. -/

set_option Elab.async false
namespace Sys2Proof.Machine
open Sys2Proof

variable {P : State → Prop}

theorem kept_bootSlot (hk : Keeps P 0x200002) {s : State} {k0 : Nat} (h : P s) :
    P (State.bootSlot s k0) := by
  unfold State.bootSlot
  extract_lets v0 v1
  clear_value v0 v1
  exact (kept_ite (kept_wr (hk.le rfl) (kept_wreg (hk.le rfl) (hk.upd h))) (kept_ite (kept_wr (hk.le rfl) h) h))

theorem kept_bootGroup (hk : Keeps P 0x200002) {s : State} (h : P s) :
    P (State.bootGroup s) := by
  unfold State.bootGroup
  exact (kept_ite (kept_wr (hk.le rfl) (hk.upd h)) (kept_setGroup (hk.le rfl) h))

theorem kept_keeperReset (hk : Keeps P 0x7fffff) {s : State} {powered : Bool} (h : P s) :
    P (State.keeperReset s powered) := by
  unfold State.keeperReset
  extract_lets v0 v1 v2 v3 v4 v5 v6 v7 v8 v9 v10 v11 v12 v13 v14 v15 v16 v17
  have k18 : P v0 := (kept_twoKeyReset (hk.le rfl) h)
  have k20 : P v15 := (hk.upd k18)
  have k21 : P v17 := (hk.upd k20)
  clear_value v0 v1 v2 v3 v4 v5 v6 v7 v8 v9 v10 v11 v12 v13 v14 v15 v16 v17
  exact (kept_bootGroup (hk.le rfl) (kept_bootSlot (hk.le rfl) (kept_bootSlot (hk.le rfl) k21)))

theorem kept_execHoldUpExpires (hk : Keeps P 0x7fffff) {s : State} (h : P s) :
    ∃ t, execHoldUpExpires s = .next t ∧ P t := by
  unfold execHoldUpExpires
  refine ⟨_, rfl, ?_⟩
  exact (kept_ite (kept_keeperReset (hk.le rfl) h) h)

theorem kept_execKeeperResetExecute (hk : Keeps P 0x7fffff) {s : State} (h : P s) :
    ∃ t, execKeeperResetExecute s = .next t ∧ P t := by
  unfold execKeeperResetExecute
  refine ⟨_, rfl, ?_⟩
  exact (kept_ite (kept_wr (hk.le rfl) (kept_keeperReset (hk.le rfl) h)) h)

theorem kept_sealRing (hk : Keeps P 0x200000) {s : State} (h : P s) :
    P (State.sealRing s) := by
  unfold State.sealRing
  exact (hk.upd h)

theorem kept_deriveKeys (hk : Keeps P 0x200000) {s : State} {pufOk : Bool} (h : P s) :
    P (State.deriveKeys s pufOk) := by
  unfold State.deriveKeys
  exact (hk.upd h)

theorem kept_bootRecorder (hk : Keeps P 0x110) {s : State} (h : P s) :
    P (State.bootRecorder s) := by
  unfold State.bootRecorder
  extract_lets v0 v1 v2 v3
  have k4 : P v3 := (hk.upd h)
  clear_value v0 v1 v2 v3
  split
  · rename_i y5
    exact k4
  · rename_i y6 y7
    exact (kept_writeLost (hk.le rfl) k4)

theorem kept_loadConfig (hk : Keeps P 0x252) {s : State} (h : P s) :
    P (State.loadConfig s) := by
  unfold State.loadConfig
  extract_lets v0 v1 v2 v3
  clear_value v0 v1 v2 v3
  split
  · rename_i y4 y5 y6
    exact (kept_reportCfg (hk.le rfl) (hk.upd h))
  · rename_i y7 y8 y9
    exact (kept_reportCfg (hk.le rfl) (hk.upd h))
  · rename_i y10 y11
    exact (kept_note (hk.le rfl) (kept_reportCfg (hk.le rfl) (hk.upd h)))

theorem kept_loadLattice (hk : Keeps P 0x20002) {s : State} (h : P s) :
    P (State.loadLattice s) := by
  unfold State.loadLattice
  split
  · rename_i y0 y1
    exact h
  · rename_i y2 y3 y4
    extract_lets v5 v6 v7 v8 v9
    have k10 : P v7 := by
      dsimp -zeta only [v7]
      refine kept_foldl ?_ ?_
      · exact h
      · intro x11 x12 h13
        exact (kept_wreg (hk.le rfl) (kept_wreg (hk.le rfl) h13))
    have k14 : P v9 := (hk.upd k10)
    clear_value v5 v6 v7 v8 v9
    refine kept_foldl ?_ ?_
    · exact k14
    · intro x15 x16 h17
      exact (kept_wr (hk.le rfl) h17)

theorem kept_loadPlan (hk : Keeps P 0x40052) {s : State} (h : P s) :
    P (State.loadPlan s) := by
  unfold State.loadPlan
  extract_lets v0 v1 v2
  have k3 : P v1 := (hk.upd h)
  have k4 : P v2 := (kept_takeNode (hk.le rfl) (kept_reportPlanStatus (hk.le rfl) k3))
  clear_value v0 v1 v2
  refine kept_checkNodeValid (hk.le rfl) ?_
  refine kept_foldl ?_ ?_
  · exact (kept_wr (hk.le rfl) k4)
  · intro x5 x6 h7
    exact (kept_reportPlan (hk.le rfl) h7)

theorem kept_bootChoice (hk : Keeps P 0x2c0352) {s : State} {idOk : Bool} {slotOk : Bool} (h : P s) :
    P (State.bootChoice s idOk slotOk) := by
  unfold State.bootChoice
  extract_lets v0 v1
  have k2 : P v0 := (kept_recovIgnored (hk.le rfl) h)
  have k3 : P v1 := (kept_chooseSlot (hk.le rfl) k2)
  clear_value v0 v1
  exact (kept_ite (kept_enterRecovery (hk.le rfl) k2) (kept_ite (kept_enterRecovery (hk.le rfl) k2) (kept_ite (kept_enterRecovery (hk.le rfl) k2) (kept_ite k3 (kept_failedBoot (hk.le rfl) k3)))))

theorem kept_loadCalibration (hk : Keeps P 0x2) {s : State} (h : P s) :
    P (State.loadCalibration s) := by
  unfold State.loadCalibration
  extract_lets v0 v1
  have k2 : P v1 := by
    dsimp -zeta only [v1]
    refine kept_foldl ?_ ?_
    · exact h
    · intro x3 x4 h5
      refine kept_foldl ?_ ?_
      · exact h5
      · intro x6 x7 h8
        exact (kept_wreg (hk.le rfl) h8)
  clear_value v0 v1
  refine kept_foldl ?_ ?_
  · exact k2
  · intro x9 x10 h11
    exact (kept_keepMoved (hk.le rfl) h11)

theorem kept_readHistory (hk : Keeps P 0x800) {s : State} (h : P s) :
    P (State.readHistory s) := by
  unfold State.readHistory
  refine kept_foldl ?_ ?_
  · exact h
  · intro x0 x1 h2
    exact (kept_ite (kept_setRetire (hk.le rfl) h2) h2)

theorem kept_execKeeperBoot (hk : Keeps P 0x2e7fff) {pufOk : Bool} {keyringOk : Bool} {slotOk : Bool} {recovLow : Bool} {s : State} (h : P s) :
    ∃ t, execKeeperBoot pufOk keyringOk slotOk s recovLow = .next t ∧ P t := by
  unfold execKeeperBoot
  refine ⟨_, rfl, ?_⟩
  refine kept_ite ?_ ?_
  · exact h
  · extract_lets v0 v1 v2 v3 v4 v5 v6 v7 v8 v9 v10 v11 v12 v13 v14 v15 v16 v17 v18 v19 v20
    have k21 : P v0 := (kept_bootRecorder (hk.le rfl) h)
    have k22 : P v7 := (hk.upd k21)
    have k23 : P v8 := (kept_deriveKeys (hk.le rfl) k22)
    have k24 : P v10 := (kept_wr (hk.le rfl) (kept_wr (hk.le rfl) (kept_wr (hk.le rfl) k23)))
    have k25 : P v11 := by
      dsimp -zeta only [v11]
      refine kept_foldl ?_ ?_
      · exact k24
      · intro x26 x27 h28
        exact (kept_wr (hk.le rfl) h28)
    have k29 : P v13 := (kept_ite k25 (kept_note (hk.le rfl) k25))
    have k30 : P v14 := (kept_bootChoice (hk.le rfl) k29)
    have k31 : P v15 := (kept_ite (kept_groupFail (hk.le rfl) (kept_clearTrial (hk.le rfl) k30)) k30)
    have k32 : P v16 := (kept_loadLattice (hk.le rfl) (kept_loadPlan (hk.le rfl) (kept_applyStored (hk.le rfl) (kept_loadConfig (hk.le rfl) (kept_loadCalibration (hk.le rfl) (kept_readHistory (hk.le rfl) k31))))))
    have k33 : P v17 := (kept_beMaster (hk.le rfl) k32)
    have k34 : P v18 := (kept_ite k33 (kept_alert (hk.le rfl) k33))
    have k35 : P v20 := (kept_ite (kept_wr (hk.le rfl) (hk.upd k34)) k34)
    clear_value v0 v1 v2 v3 v4 v5 v6 v7 v8 v9 v10 v11 v12 v13 v14 v15 v16 v17 v18 v19 v20
    exact (kept_wr (hk.le rfl) k35)

theorem kept_relight (hk : Keeps P 0xa0002) {s : State} (h : P s) :
    P (State.relight s) := by
  unfold State.relight
  extract_lets v0 v1 v2 v3
  have k4 : P v2 := (hk.upd h)
  have k5 : P v3 := (kept_hceStart (hk.le rfl) k4)
  clear_value v0 v1 v2 v3
  refine kept_foldl ?_ ?_
  · exact k5
  · intro x6 x7 h8
    exact (kept_stepPoint (hk.le rfl) h8)

theorem kept_orqUp (hk : Keeps P 0x22) {s : State} (h : P s) :
    P (State.orqUp s) := by
  unfold State.orqUp
  exact (kept_wr (hk.le rfl) (hk.upd h))

theorem kept_startBlocks (hk : Keeps P 0x6c7fff) {s : State} (h : P s) :
    P (State.startBlocks s) := by
  unfold State.startBlocks
  refine kept_ite ?_ ?_
  · exact (kept_trialFail (hk.le rfl) h)
  · extract_lets v0 v1 v2
    clear_value v0 v1 v2
    exact (kept_applyStored (hk.le rfl) (kept_ite (hk.upd h) h))

theorem kept_train (hk : Keeps P 0x10d7) {s : State} {failed : Nat} {ms : Nat} (h : P s) :
    P (State.train s failed ms) := by
  unfold State.train
  extract_lets v0 v1 v2 v3 v4 v5 v6
  have k7 : P v2 := (kept_ite (hk.upd h) h)
  have k8 : P v5 := (hk.upd k7)
  have k9 : P v6 := (kept_wr (hk.le rfl) (kept_wr (hk.le rfl) (kept_wr (hk.le rfl) (kept_wr (hk.le rfl) (kept_wr (hk.le rfl) k8)))))
  clear_value v0 v1 v2 v3 v4 v5 v6
  refine kept_foldl ?_ ?_
  · exact k9
  · intro x10 x11 h12
    exact (kept_note (hk.le rfl) (kept_tick (hk.le rfl) h12))

theorem kept_checkMin (hk : Keeps P 0x272) {s : State} {q0 : Nat} (h : P s) :
    P (State.checkMin s q0) := by
  unfold State.checkMin
  exact (kept_ite (kept_fellBelow (hk.le rfl) h) h)

theorem kept_startQuarters (hk : Keeps P 0xef6) {s : State} (h : P s) :
    P (State.startQuarters s) := by
  unfold State.startQuarters
  extract_lets v0
  have k1 : P v0 := by
    dsimp -zeta only [v0]
    refine kept_foldl ?_ ?_
    · exact (kept_readHistory (hk.le rfl) h)
    · intro x2 x3 h4
      exact (kept_startQuarter (hk.le rfl) h4)
  clear_value v0
  refine kept_foldl ?_ ?_
  · exact k1
  · intro x5 x6 h7
    exact (kept_checkMin (hk.le rfl) h7)

theorem kept_trainLinks (hk : Keeps P 0x4002) {s : State} (h : P s) :
    P (State.trainLinks s) := by
  unfold State.trainLinks
  extract_lets v0
  have k1 : P v0 := by
    dsimp -zeta only [v0]
    refine kept_foldl ?_ ?_
    · exact h
    · intro x2 x3 h4
      exact (kept_ite (kept_setLaneState (hk.le rfl) h4) h4)
  clear_value v0
  refine kept_foldl ?_ ?_
  · exact k1
  · intro x5 x6 h7
    exact (kept_ite (kept_circTrain (hk.le rfl) h7) h7)

theorem kept_startDown (hk : Keeps P 0x24052) {s : State} {i : Nat} (h : P s) :
    P (State.startDown s i) := by
  unfold State.startDown
  refine kept_ite ?_ ?_
  · exact h
  · extract_lets v0 v1
    have k2 : P v0 := (kept_circDown (hk.le rfl) (kept_setCstate (hk.le rfl) h))
    clear_value v0 v1
    exact (kept_setEnt (hk.le rfl) k2)

theorem kept_startPaths (hk : Keeps P 0x13f6ff) {s : State} (h : P s) :
    P (State.startPaths s) := by
  unfold State.startPaths
  extract_lets v0 v1 v2
  have k3 : P v0 := (kept_pathCoreStart (hk.le rfl) (kept_checkNodeValid (hk.le rfl) h))
  have k4 : P v2 := by
    dsimp -zeta only [v2]
    refine kept_foldl ?_ ?_
    · exact k3
    · intro x5 x6 h7
      exact (kept_tearDown (hk.le rfl) h7)
  clear_value v0 v1 v2
  refine kept_kick (hk.le rfl) ?_
  refine kept_foldl ?_ ?_
  · exact k4
  · intro x8 x9 h10
    exact (kept_startDown (hk.le rfl) h10)

theorem kept_becomeReady (hk : Keeps P 0x6c43ff) {s : State} (h : P s) :
    P (State.becomeReady s) := by
  unfold State.becomeReady
  extract_lets v0 v1 v2 v3 v4 v5
  have k6 : P v1 := (hk.upd h)
  have k7 : P v2 := (kept_wr (hk.le rfl) (kept_wr (hk.le rfl) (kept_wr (hk.le rfl) (kept_ite (kept_wr (hk.le rfl) k6) k6))))
  have k8 : P v4 := (kept_note (hk.le rfl) k7)
  have k9 : P v5 := by
    dsimp -zeta only [v5]
    split
    · rename_i y10 y11 y12
      exact (kept_ite (kept_finishAction (hk.le rfl) k8) k8)
    · rename_i y13 y14
      exact k8
  clear_value v0 v1 v2 v3 v4 v5
  exact (kept_afterStart (hk.le rfl) k9)

theorem kept_stepDone (hk : Keeps P 0x7fffff) {s : State} {step : Nat} {failed : Nat} {ms : Nat} (h : P s) :
    P (State.stepDone s step failed ms) := by
  unfold State.stepDone
  exact (kept_ite (kept_relight (hk.le rfl) h) (kept_ite (kept_orqUp (hk.le rfl) h) (kept_ite (kept_startBlocks (hk.le rfl) h) (kept_ite (kept_train (hk.le rfl) h) (kept_ite (kept_startQuarters (hk.le rfl) h) (kept_ite (kept_trainLinks (hk.le rfl) h) (kept_ite (kept_startPaths (hk.le rfl) h) (kept_ite (kept_becomeReady (hk.le rfl) h) h))))))))

theorem kept_execPowerOnStepComplete (hk : Keeps P 0x7fffff) {step : Nat} {failDevs : Nat} {trainMs : Nat} {s : State} (h : P s) :
    ∃ t, execPowerOnStepComplete step failDevs trainMs s = .next t ∧ P t := by
  unfold execPowerOnStepComplete
  refine ⟨_, rfl, ?_⟩
  exact (kept_ite (kept_stepDone (hk.le rfl) (kept_wr (hk.le rfl) h)) h)

theorem kept_loseDomains (hk : Keeps P 0x277efe) {s : State} (h : P s) :
    P (State.loseDomains s) := by
  unfold State.loseDomains
  extract_lets v0 v1 v2 v3 v4 v5 v6 v7 v8 v9
  have k10 : P v0 := (kept_twoKeyReset (hk.le rfl) (kept_answerTaken (hk.le rfl) (kept_endTickets (hk.le rfl) h)))
  have k11 : P v2 := (hk.upd k10)
  have k12 : P v3 := (kept_chipDown (hk.le rfl) (kept_setQueued (hk.le rfl) k11))
  have k13 : P v8 := (hk.upd k12)
  have k14 : P v9 := (kept_wr (hk.le rfl) (kept_wr (hk.le rfl) k13))
  clear_value v0 v1 v2 v3 v4 v5 v6 v7 v8 v9
  exact (kept_wr (hk.le rfl) (kept_wr (hk.le rfl) (kept_wr (hk.le rfl) (kept_wr (hk.le rfl) (kept_firmwareDown (hk.le rfl) (kept_hceStop (hk.le rfl) k14))))))

theorem kept_execBothFeedsLost (hk : Keeps P 0x277efe) {flushed : Nat} {s : State} (h : P s) :
    ∃ t, execBothFeedsLost flushed s = .next t ∧ P t := by
  unfold execBothFeedsLost
  refine ⟨_, rfl, ?_⟩
  extract_lets v0 v1 v2
  have k3 : P v1 := (kept_ite (kept_loseDomains (hk.le rfl) (kept_note (hk.le rfl) h)) h)
  clear_value v0 v1 v2
  exact (kept_ite h (kept_ite (kept_holdUpFlush (hk.le rfl) (hk.upd k3)) k3))

theorem kept_execFeedReturnsInHoldUp (hk : Keeps P 0xd2) {feed : Side} {cv : Nat} {s : State} (h : P s) :
    ∃ t, execFeedReturnsInHoldUp feed cv s = .next t ∧ P t := by
  unfold execFeedReturnsInHoldUp
  refine ⟨_, rfl, ?_⟩
  refine kept_ite ?_ ?_
  · exact h
  · extract_lets v0 v1 v2 v3
    have k4 : P v0 := (kept_sawVolts (hk.le rfl) h)
    have k5 : P v3 := (kept_holdUpOver (hk.le rfl) (hk.upd k4))
    clear_value v0 v1 v2 v3
    exact (kept_ite (kept_setFeed (hk.le rfl) k5) (kept_stageJoins (hk.le rfl) k5))

theorem kept_execPerstAssert (hk : Keeps P 0x76ff) {s : State} (h : P s) :
    ∃ t, execPerstAssert s = .next t ∧ P t := by
  unfold execPerstAssert
  refine ⟨_, rfl, ?_⟩
  exact (kept_hostLost (hk.le rfl) (hk.upd h))

theorem kept_keyReplace (hk : Keeps P 0x200000) {s : State} {slot : Nat} {data : List (BitVec 8)} (h : P s) :
    ∀ t, State.keyReplace s slot data = .ok t → P t := by
  intro t0 e0
  unfold State.keyReplace at e0
  split at e0
  · rename_i y0
    cases e0
  · rename_i y1
    split at e0
    · rename_i y2
      split at e0
      · rename_i y3
        cases e0
        exact (kept_sealRing (hk.le rfl) (hk.upd h))
      · rename_i y4
        cases e0
    · rename_i y5
      cases e0
      exact (kept_sealRing (hk.le rfl) (hk.upd h))

theorem kept_raiseMinSvn (hk : Keeps P 0x200002) {s : State} {v : Nat} (h : P s) :
    ∀ t, State.raiseMinSvn s v = .ok t → P t := by
  intro t0 e0
  unfold State.raiseMinSvn at e0
  split at e0
  · rename_i y0
    cases e0
  · rename_i y1
    cases e0
    exact (kept_sealRing (hk.le rfl) (kept_wr (hk.le rfl) h))

theorem kept_backLive (hk : Keeps P 0x2) {s : State} {q0 : Nat} (h : P s) :
    P (State.backLive s q0) := by
  unfold State.backLive
  exact (kept_ite (kept_wr (hk.le rfl) h) h)

theorem kept_restoreCore (hk : Keeps P 0xc02) {s : State} {c : Nat} (h : P s) :
    ∀ t, State.restoreCore s c = .ok t → P t := by
  intro t e
  unfold State.restoreCore at e
  extract_lets v0 v1 v2 v3 at e
  split at e
  · cases e
  · cases e
    exact kept_backLive (hk.le rfl) (kept_setCore (hk.le rfl) (kept_setRetire (hk.le rfl) (kept_foldl h (fun _ _ h => kept_setHist (hk.le rfl) h))))

theorem kept_restoreEunit (hk : Keeps P 0x800) {s : State} {n0 : Nat} (h : P s) :
    ∀ t, State.restoreEunit s n0 = .ok t → P t := by
  intro t0 e0
  unfold State.restoreEunit at e0
  split at e0
  · rename_i y0
    cases e0
    exact (kept_setHist (hk.le rfl) h)
  · rename_i y1
    cases e0

theorem kept_debugEnd (hk : Keeps P 0x272) {s : State} (h : P s) :
    P (State.debugEnd s) := by
  unfold State.debugEnd
  refine kept_ite ?_ ?_
  · extract_lets v0
    have k1 : P v0 := (kept_tapJudge (hk.le rfl) (kept_note (hk.le rfl) (kept_wr (hk.le rfl) h)))
    clear_value v0
    exact (kept_ite (kept_callAction (hk.le rfl) k1) k1)
  · exact h

theorem kept_tkFinish (hk : Keeps P 0x200253) {s : State} {h0 : List (BitVec 8)} {first : Nat} {second : Nat} {status : Nat} {outcome : Nat} (h : P s) :
    P (State.tkFinish s h0 first second status outcome) := by
  unfold State.tkFinish
  exact (kept_twoKeyEnd (hk.le rfl) (kept_tick (hk.le rfl) (kept_endTicket (hk.le rfl) (kept_endTicket (hk.le rfl) h))))

theorem kept_tkMake (hk : Keeps P 0x200253) {s : State} {p : TwoKey} {second : Nat} {apply : State → Except Nat State} (h : P s) (happly : ∀ a0 t, P a0 → apply a0 = .ok t → P t) :
    P (State.tkMake s p second apply) := by
  unfold State.tkMake
  split
  · rename_i t e
    exact kept_tkFinish (hk.le rfl) (happly _ _ h e)
  · exact kept_tkFinish (hk.le rfl) h

theorem kept_twoKey (hk : Keeps P 0x200253) {s : State} {op : Nat} {apply : Nat → List (BitVec 8) → State → Except Nat State} (h : P s) (happly : ∀ a0 a1 a2 t, P a2 → apply a0 a1 a2 = .ok t → P t) :
    P (State.twoKey s op apply) := by
  unfold State.twoKey
  refine kept_serve (hk.le rfl) h ?_
  intro x3 x4 h5
  refine kept_ite h5 (kept_ite (kept_answer (hk.le rfl) h5) (kept_ite (kept_answer (hk.le rfl) h5) (kept_ite (kept_answer (hk.le rfl) h5) ?_)))
  split
  · exact kept_accept (hk.le rfl) h5 (fun _ _ h10 => kept_wr (hk.le rfl) (kept_wr (hk.le rfl) (hk.upd h10)))
  · extract_lets v14
    clear_value v14
    refine kept_ite (kept_ite (kept_answer (hk.le rfl) h5) (kept_accept (hk.le rfl) h5 ?_)) (kept_ite (kept_answer (hk.le rfl) h5) (kept_answer (hk.le rfl) h5))
    intro x36 x37 h38
    exact kept_tkMake (hk.le rfl) h38 (fun _ _ ha e => happly _ _ _ _ ha e)

theorem kept_execKeyReplace (hk : Keeps P 0x200253) {s : State} (h : P s) :
    ∃ t, execKeyReplace s = .next t ∧ P t := by
  unfold execKeyReplace
  refine ⟨_, rfl, kept_twoKey (hk.le rfl) h ?_⟩
  intro a0 a1 a2 t h2 e
  exact kept_keyReplace (hk.le rfl) h2 _ e

theorem kept_execPolicySet (hk : Keeps P 0x200253) {s : State} (h : P s) :
    ∃ t, execPolicySet s = .next t ∧ P t := by
  unfold execPolicySet
  refine ⟨_, rfl, kept_twoKey (hk.le rfl) h ?_⟩
  intro a0 a1 a2 t h2 e
  have e := Except.ok.inj e
  subst e
  exact kept_sealRing (hk.le rfl) (kept_wr (hk.le rfl) (kept_wr (hk.le rfl) (kept_wr (hk.le rfl) h2)))

theorem kept_execMinSvn (hk : Keeps P 0x200253) {s : State} (h : P s) :
    ∃ t, execMinSvn s = .next t ∧ P t := by
  unfold execMinSvn
  refine ⟨_, rfl, kept_twoKey (hk.le rfl) h ?_⟩
  intro a0 a1 a2 t h2 e
  exact kept_raiseMinSvn (hk.le rfl) h2 _ e

theorem kept_execDebugUnlock (hk : Keeps P 0x200253) {s : State} (h : P s) :
    ∃ t, execDebugUnlock s = .next t ∧ P t := by
  unfold execDebugUnlock
  refine ⟨_, rfl, kept_twoKey (hk.le rfl) h ?_⟩
  intro a0 a1 a2 t h2 e
  have e := Except.ok.inj e
  subst e
  exact kept_note (hk.le rfl) (kept_wr (hk.le rfl) h2)

theorem kept_execDebugRelock (hk : Keeps P 0x200273) {s : State} (h : P s) :
    ∃ t, execDebugRelock s = .next t ∧ P t := by
  unfold execDebugRelock
  refine ⟨_, rfl, kept_twoKey (hk.le rfl) h ?_⟩
  intro a0 a1 a2 t h2 e
  have e := Except.ok.inj e
  subst e
  exact kept_debugEnd (hk.le rfl) h2

theorem kept_execUnitRestore (hk : Keeps P 0x200e53) {s : State} (h : P s) :
    ∃ t, execUnitRestore s = .next t ∧ P t := by
  unfold execUnitRestore
  refine ⟨_, rfl, kept_twoKey (hk.le rfl) h ?_⟩
  intro a0 a1 a2 t h2 e
  split at e
  · exact kept_restoreCore (hk.le rfl) h2 _ e
  · exact kept_restoreEunit (hk.le rfl) h2 _ e

theorem kept_execEvrClear (hk : Keeps P 0x200253) {s : State} (h : P s) :
    ∃ t, execEvrClear s = .next t ∧ P t := by
  unfold execEvrClear
  refine ⟨_, rfl, kept_twoKey (hk.le rfl) h ?_⟩
  intro a0 a1 a2 t h2 e
  have e := Except.ok.inj e
  subst e
  exact kept_clearRecorder (hk.le rfl) h2

theorem kept_execKeeperReset (hk : Keeps P 0x200253) {s : State} (h : P s) :
    ∃ t, execKeeperReset s = .next t ∧ P t := by
  unfold execKeeperReset
  refine ⟨_, rfl, kept_twoKey (hk.le rfl) h ?_⟩
  intro a0 a1 a2 t h2 e
  have e := Except.ok.inj e
  subst e
  exact hk.upd h2

theorem kept_execTwokeyTimeout (hk : Keeps P 0x200252) {s : State} (h : P s) :
    ∃ t, execTwokeyTimeout s = .next t ∧ P t := by
  unfold execTwokeyTimeout
  refine ⟨_, rfl, ?_⟩
  split
  · rename_i y0 y1
    exact h
  · rename_i y2 y3 y4
    exact (kept_twoKeyEnd (hk.le rfl) (kept_endTicket (hk.le rfl) h))

theorem kept_execTwokeyStatus (hk : Keeps P 0x200) {s : State} (h : P s) :
    ∃ t, execTwokeyStatus s = .next t ∧ P t := by
  unfold execTwokeyStatus
  refine ⟨_, rfl, ?_⟩
  refine kept_serve (hk.le rfl) h ?_
  intro x6 x7 h8
  split
  · rename_i y9 y10 y11 y12 y13
    exact (kept_answer (hk.le rfl) h8)

theorem kept_execUpdSlotVerified (hk : Keeps P 0x52) {slot : Nat} {s : State} (h : P s) :
    ∃ t, execUpdSlotVerified slot s = .next t ∧ P t := by
  unfold execUpdSlotVerified
  refine ⟨_, rfl, ?_⟩
  refine kept_ite ?_ ?_
  · exact h
  · extract_lets v0 v1
    clear_value v0 v1
    exact (kept_ite (kept_note (hk.le rfl) (kept_wr (hk.le rfl) (kept_wr (hk.le rfl) (kept_wr (hk.le rfl) h)))) (kept_note (hk.le rfl) (kept_wr (hk.le rfl) h)))

theorem kept_xferReply (hk : Keeps P 0x8) {s : State} {op : Nat} {session : Nat} {block : Nat} {frag : Nat} {status : Nat} {payload : List (BitVec 8)} (h : P s) :
    P (State.xferReply s op session block frag status payload) := by
  unfold State.xferReply
  exact (kept_emit (hk.le rfl) h)

theorem kept_xferOpen (hk : Keeps P 0x9) {s : State} {op : Nat} {session : Nat} {block : Nat} {frag : Nat} (h : P s) :
    P (State.xferOpen s op session block frag) := by
  unfold State.xferOpen
  exact (kept_xferReply (hk.le rfl) (kept_tick (hk.le rfl) h))

theorem kept_startReceiving (hk : Keeps P 0x200002) {s : State} (h : P s) :
    P (State.startReceiving s) := by
  unfold State.startReceiving
  extract_lets v0 v1
  clear_value v0 v1
  exact (kept_wr (hk.le rfl) (kept_wreg (hk.le rfl) (hk.upd h)))

theorem kept_execXferOpen (hk : Keeps P 0x20000b) {resume : Bool} {blocks : Nat} {s : State} (h : P s) :
    ∃ t, execXferOpen resume blocks s = .next t ∧ P t := by
  unfold execXferOpen
  refine ⟨_, rfl, ?_⟩
  refine kept_ite ?_ ?_
  · exact h
  · split
    · rename_i y0 y1 y2
      exact (kept_xferReply (hk.le rfl) h)
    · rename_i y3 y4
      extract_lets v5 v6 v7
      have k8 : P v5 := (kept_ite h (kept_startReceiving (hk.le rfl) h))
      have k9 : P v7 := (kept_wr (hk.le rfl) (kept_wr (hk.le rfl) (kept_wr (hk.le rfl) (kept_tick (hk.le rfl) k8))))
      clear_value v5 v6 v7
      exact (kept_xferReply (hk.le rfl) k9)

theorem kept_execXferData (hk : Keeps P 0x200009) {session : Nat} {block : Nat} {frag : Nat} {data : List Nat} {s : State} (h : P s) :
    ∃ t, execXferData session block frag data s = .next t ∧ P t := by
  unfold execXferData
  refine ⟨_, rfl, ?_⟩
  refine kept_ite ?_ ?_
  · exact h
  · refine kept_ite ?_ ?_
    · extract_lets v0 v1
      clear_value v0 v1
      exact (kept_xferReply (hk.le rfl) (kept_setImage (hk.le rfl) h))
    · exact (kept_xferOpen (hk.le rfl) h)

theorem kept_endManifest (hk : Keeps P 0x20005a) {s : State} {session : Nat} {bs : List (BitVec 8)} (h : P s) :
    P (State.endManifest s session bs) := by
  unfold State.endManifest
  extract_lets v0 v1 v2
  have k3 : P v1 := (kept_setImage (hk.le rfl) h)
  have k4 : P v2 := (kept_wr (hk.le rfl) (kept_setImage (hk.le rfl) h))
  clear_value v0 v1 v2
  split
  · rename_i y5 y6
    exact (kept_xferReply (hk.le rfl) (kept_wr (hk.le rfl) (kept_wr (hk.le rfl) k3)))
  · rename_i y7 y8 y9
    exact (kept_xferReply (hk.le rfl) (kept_note (hk.le rfl) k4))

theorem kept_endBody (hk : Keeps P 0x200008) {s : State} {session : Nat} {block : Nat} {bs : List (BitVec 8)} (h : P s) :
    P (State.endBody s session block bs) := by
  unfold State.endBody
  extract_lets v0
  clear_value v0
  exact (kept_ite (kept_xferReply (hk.le rfl) (kept_setImage (hk.le rfl) h)) (kept_xferReply (hk.le rfl) (kept_setImage (hk.le rfl) h)))

theorem kept_execBlockEnd (hk : Keeps P 0x20005b) {session : Nat} {block : Nat} {s : State} (h : P s) :
    ∃ t, execBlockEnd session block s = .next t ∧ P t := by
  unfold execBlockEnd
  refine ⟨_, rfl, ?_⟩
  refine kept_ite ?_ ?_
  · exact h
  · refine kept_ite ?_ ?_
    · extract_lets v0
      clear_value v0
      split
      · rename_i y1 y2
        exact (kept_xferReply (hk.le rfl) (kept_setImage (hk.le rfl) h))
      · rename_i y3 y4 y5
        exact (kept_ite (kept_endManifest (hk.le rfl) h) (kept_endBody (hk.le rfl) h))
    · exact (kept_xferOpen (hk.le rfl) h)

theorem kept_execXferClose (hk : Keeps P 0xb) {session : Nat} {s : State} (h : P s) :
    ∃ t, execXferClose session s = .next t ∧ P t := by
  unfold execXferClose
  refine ⟨_, rfl, ?_⟩
  refine kept_ite ?_ ?_
  · exact h
  · extract_lets v0
    clear_value v0
    exact (kept_ite (kept_ite (kept_xferReply (hk.le rfl) (kept_wr (hk.le rfl) (kept_wr (hk.le rfl) h))) (kept_xferOpen (hk.le rfl) h)) (kept_ite (kept_xferReply (hk.le rfl) (kept_wr (hk.le rfl) h)) (kept_xferOpen (hk.le rfl) h)))

theorem kept_execXferStatus (hk : Keeps P 0x8) {session : Nat} {s : State} (h : P s) :
    ∃ t, execXferStatus session s = .next t ∧ P t := by
  unfold execXferStatus
  refine ⟨_, rfl, ?_⟩
  exact (kept_ite h (kept_xferReply (hk.le rfl) h))

theorem kept_execBoot (hk : Keeps P 0x2c130b) {slot : Nat} {s : State} (h : P s) :
    ∃ t, execBoot slot s = .next t ∧ P t := by
  unfold execBoot
  refine ⟨_, rfl, ?_⟩
  refine kept_ite ?_ ?_
  · exact h
  · refine kept_ite ?_ ?_
    · extract_lets v0 v1 v2 v3 v4
      have k5 : P v3 := (kept_wr (hk.le rfl) (hk.upd h))
      have k6 : P v4 := (kept_resumeStartup (hk.le rfl) (kept_wr (hk.le rfl) (kept_chooseSlot (hk.le rfl) k5)))
      clear_value v0 v1 v2 v3 v4
      exact (kept_xferReply (hk.le rfl) k6)
    · exact (kept_xferOpen (hk.le rfl) h)

theorem kept_execSessionIdleTimeout (hk : Keeps P 0x2) {s : State} (h : P s) :
    ∃ t, execSessionIdleTimeout s = .next t ∧ P t := by
  unfold execSessionIdleTimeout
  refine ⟨_, rfl, ?_⟩
  exact (kept_wr (hk.le rfl) h)

theorem kept_execNeighbourSolicitation (hk : Keeps P 0x8) {src : List Nat} {target : List Nat} {s : State} (h : P s) :
    ∃ t, execNeighbourSolicitation src target s = .next t ∧ P t := by
  unfold execNeighbourSolicitation
  refine ⟨_, rfl, ?_⟩
  refine kept_ite ?_ ?_
  · exact h
  · extract_lets v0
    clear_value v0
    exact (kept_emit (hk.le rfl) h)

theorem kept_execEchoRequest (hk : Keeps P 0x8) {src : List Nat} {payload : List Nat} {s : State} (h : P s) :
    ∃ t, execEchoRequest src payload s = .next t ∧ P t := by
  unfold execEchoRequest
  refine ⟨_, rfl, ?_⟩
  exact (kept_ite (kept_emit (hk.le rfl) h) h)

theorem kept_spdmError (hk : Keeps P 0x8) {s : State} {code : Nat} {data : Nat} (h : P s) :
    P (State.spdmError s code data) := by
  unfold State.spdmError
  exact (kept_emit (hk.le rfl) h)

theorem kept_spdm (hk : Keeps P 0x8) {s : State} {code : Nat} {f : State → State} (h : P s) (hf : ∀ a0, P a0 → P (f a0)) :
    P (State.spdm s code f) := by
  unfold State.spdm
  exact (kept_ite (kept_spdmError (hk.le rfl) h) (kept_ite (kept_spdmError (hk.le rfl) h) (hf _ h)))

theorem kept_execGetVersion (hk : Keeps P 0x8) {s : State} (h : P s) :
    ∃ t, execGetVersion s = .next t ∧ P t := by
  unfold execGetVersion
  refine ⟨_, rfl, ?_⟩
  exact (kept_spdm (hk.le rfl) h (fun x0 h1 => (kept_emit (hk.le rfl) h1)))

theorem kept_execGetCapabilities (hk : Keeps P 0x8) {s : State} (h : P s) :
    ∃ t, execGetCapabilities s = .next t ∧ P t := by
  unfold execGetCapabilities
  refine ⟨_, rfl, ?_⟩
  exact (kept_spdm (hk.le rfl) h (fun x0 h1 => (kept_emit (hk.le rfl) h1)))

theorem kept_execNegotiateAlgorithms (hk : Keeps P 0x8) {s : State} (h : P s) :
    ∃ t, execNegotiateAlgorithms s = .next t ∧ P t := by
  unfold execNegotiateAlgorithms
  refine ⟨_, rfl, ?_⟩
  exact (kept_spdm (hk.le rfl) h (fun x0 h1 => (kept_emit (hk.le rfl) h1)))

theorem kept_execGetDigests (hk : Keeps P 0x8) {s : State} (h : P s) :
    ∃ t, execGetDigests s = .next t ∧ P t := by
  unfold execGetDigests
  refine ⟨_, rfl, ?_⟩
  exact (kept_spdm (hk.le rfl) h (fun x0 h1 => (kept_emit (hk.le rfl) h1)))

theorem kept_execGetCertificate (hk : Keeps P 0x8) {slot : Nat} {off : Nat} {len : Nat} {s : State} (h : P s) :
    ∃ t, execGetCertificate slot off len s = .next t ∧ P t := by
  unfold execGetCertificate
  refine ⟨_, rfl, ?_⟩
  refine kept_spdm (hk.le rfl) h ?_
  intro x4 h5
  refine kept_ite ?_ ?_
  · exact (kept_spdmError (hk.le rfl) h5)
  · extract_lets v6
    clear_value v6
    exact (kept_emit (hk.le rfl) h5)

theorem kept_execChallenge (hk : Keeps P 0x9) {slot : Nat} {nonce : List Nat} {s : State} (h : P s) :
    ∃ t, execChallenge slot nonce s = .next t ∧ P t := by
  unfold execChallenge
  refine ⟨_, rfl, ?_⟩
  refine kept_spdm (hk.le rfl) h ?_
  intro x4 h5
  refine kept_ite ?_ ?_
  · exact (kept_spdmError (hk.le rfl) h5)
  · extract_lets v6
    clear_value v6
    exact (kept_tick (hk.le rfl) (kept_emit (hk.le rfl) h5))

theorem kept_execGetMeasurements (hk : Keeps P 0x9) {index : Nat} {signed : Bool} {nonce : List Nat} {s : State} (h : P s) :
    ∃ t, execGetMeasurements index signed nonce s = .next t ∧ P t := by
  unfold execGetMeasurements
  refine ⟨_, rfl, ?_⟩
  refine kept_spdm (hk.le rfl) h ?_
  intro x4 h5
  refine kept_ite ?_ ?_
  · exact (kept_spdmError (hk.le rfl) h5)
  · extract_lets v6 v7 v8 v9
    clear_value v6 v7 v8 v9
    exact (kept_tick (hk.le rfl) (kept_emit (hk.le rfl) h5))

theorem kept_execSpdmUnsupportedRequest (hk : Keeps P 0x8) {code : Nat} {s : State} (h : P s) :
    ∃ t, execSpdmUnsupportedRequest code s = .next t ∧ P t := by
  unfold execSpdmUnsupportedRequest
  refine ⟨_, rfl, ?_⟩
  exact (kept_spdm (hk.le rfl) h (fun x0 h1 => (kept_spdmError (hk.le rfl) h1)))

theorem kept_execUpdStatus (hk : Keeps P 0x200) {s : State} (h : P s) :
    ∃ t, execUpdStatus s = .next t ∧ P t := by
  unfold execUpdStatus
  refine ⟨_, rfl, ?_⟩
  exact (kept_serve (hk.le rfl) h (fun x0 x1 h2 => (kept_answer (hk.le rfl) h2)))

theorem kept_joinGroup (hk : Keeps P 0x6c43fb) {s : State} {p0 : List (BitVec 8)} {list : List Nat} {ticket : Nat} (h : P s) :
    P (State.joinGroup s p0 list ticket) := by
  unfold State.joinGroup
  extract_lets v0 v1 v2 v3
  have k4 : P v3 := (hk.upd h)
  clear_value v0 v1 v2 v3
  exact (kept_report (hk.le rfl) (kept_wr (hk.le rfl) (kept_wr (hk.le rfl) (kept_wr (hk.le rfl) (kept_wr (hk.le rfl) (kept_wr (hk.le rfl) (kept_wr (hk.le rfl) k4)))))))

theorem kept_execUpdSchedule (hk : Keeps P 0x6c43fb) {hostList : List Nat} {s : State} (h : P s) :
    ∃ t, execUpdSchedule hostList s = .next t ∧ P t := by
  unfold execUpdSchedule
  refine ⟨_, rfl, ?_⟩
  refine kept_serve (hk.le rfl) h ?_
  intro x6 x7 h8
  split
  · rename_i y9 y10 y11
    exact (kept_answer (hk.le rfl) h8)
  · rename_i y12 y13
    extract_lets v14 v15 v16 v17
    have k18 : P v17 := (kept_ite (kept_emit (hk.le rfl) h8) h8)
    clear_value v14 v15 v16 v17
    split
    · rename_i y19 y20 y21
      exact (kept_answer (hk.le rfl) (kept_tick (hk.le rfl) k18))
    · rename_i y22 y23 y24
      exact (kept_accept (hk.le rfl) k18 (fun x25 x26 h27 => (kept_joinGroup (hk.le rfl) h27)))

theorem kept_execUpdConfirm (hk : Keeps P 0x6c43fb) {s : State} (h : P s) :
    ∃ t, execUpdConfirm s = .next t ∧ P t := by
  unfold execUpdConfirm
  refine ⟨_, rfl, ?_⟩
  refine kept_serve (hk.le rfl) h ?_
  intro x12 x13 h14
  refine kept_ite ?_ ?_
  · exact (kept_answer (hk.le rfl) h14)
  · refine kept_accept (hk.le rfl) h14 ?_
    intro x24 x25 h26
    extract_lets v27
    have k28 : P v27 := (kept_ite (kept_trialReport (hk.le rfl) (kept_setGroup (hk.le rfl) h26)) (kept_confirmTrial (hk.le rfl) h26))
    clear_value v27
    exact (kept_endTicket (hk.le rfl) k28)

theorem kept_execUpdCancel (hk : Keeps P 0x6c43fb) {s : State} (h : P s) :
    ∃ t, execUpdCancel s = .next t ∧ P t := by
  unfold execUpdCancel
  refine ⟨_, rfl, ?_⟩
  refine kept_serve (hk.le rfl) h ?_
  intro x12 x13 h14
  refine kept_ite ?_ ?_
  · exact (kept_answer (hk.le rfl) h14)
  · refine kept_accept (hk.le rfl) h14 ?_
    intro x24 x25 h26
    extract_lets v27
    have k28 : P v27 := (kept_ite (kept_report (hk.le rfl) h26) (kept_trialFail (hk.le rfl) h26))
    clear_value v27
    exact (kept_endTicket (hk.le rfl) k28)

theorem kept_execReady (hk : Keeps P 0x200002) {src : Nat} {group : Nat} {imageVer : Nat} {s : State} (h : P s) :
    ∃ t, execReady src group imageVer s = .next t ∧ P t := by
  unfold execReady
  refine ⟨_, rfl, ?_⟩
  exact (kept_coordReady (hk.le rfl) h)

theorem kept_execNotReady (hk : Keeps P 0x200000) {src : Nat} {group : Nat} {x2 : Nat} {s : State} (h : P s) :
    ∃ t, execNotReady src group x2 s = .next t ∧ P t := by
  unfold execNotReady
  refine ⟨_, rfl, ?_⟩
  exact (kept_coordNotReady (hk.le rfl) h)

theorem kept_execGoDecision (hk : Keeps P 0x6c43fb) {s : State} (h : P s) :
    ∃ t, execGoDecision s = .next t ∧ P t := by
  unfold execGoDecision
  refine ⟨_, rfl, ?_⟩
  exact (kept_coordDecide (hk.le rfl) h)

theorem kept_execGo (hk : Keeps P 0x200102) {src : Nat} {group : Nat} {t0 : Nat} {s : State} (h : P s) :
    ∃ t, execGo src group t0 s = .next t ∧ P t := by
  unfold execGo
  refine ⟨_, rfl, ?_⟩
  exact (kept_ite (kept_memberGo (hk.le rfl) h) h)

theorem kept_execGroupAbort (hk : Keeps P 0x6803d3) {src : Nat} {group : Nat} {s : State} (h : P s) :
    ∃ t, execGroupAbort src group s = .next t ∧ P t := by
  unfold execGroupAbort
  refine ⟨_, rfl, ?_⟩
  exact (kept_ite (kept_memberAbort (hk.le rfl) h) h)

theorem kept_execActivationAtT (hk : Keeps P 0x6c43fb) {s : State} (h : P s) :
    ∃ t, execActivationAtT s = .next t ∧ P t := by
  unfold execActivationAtT
  refine ⟨_, rfl, ?_⟩
  exact (kept_ite (kept_ite h (kept_activate (hk.le rfl) h)) (kept_ite (kept_report (hk.le rfl) h) h))

theorem kept_execTrialOk (hk : Keeps P 0x6c43fb) {src : Nat} {group : Nat} {s : State} (h : P s) :
    ∃ t, execTrialOk src group s = .next t ∧ P t := by
  unfold execTrialOk
  refine ⟨_, rfl, ?_⟩
  exact (kept_coordOk (hk.le rfl) h)

theorem kept_execTrialFail (hk : Keeps P 0x6c43fb) {src : Nat} {group : Nat} {status : Nat} {s : State} (h : P s) :
    ∃ t, execTrialFail src group status s = .next t ∧ P t := by
  unfold execTrialFail
  refine ⟨_, rfl, ?_⟩
  exact (kept_coordFail (hk.le rfl) h)

theorem kept_execAllOk (hk : Keeps P 0x6803d3) {src : Nat} {group : Nat} {s : State} (h : P s) :
    ∃ t, execAllOk src group s = .next t ∧ P t := by
  unfold execAllOk
  refine ⟨_, rfl, ?_⟩
  exact (kept_ite (kept_memberAllOk (hk.le rfl) h) h)

theorem kept_execRollback (hk : Keeps P 0x6c03f3) {src : Nat} {group : Nat} {s : State} (h : P s) :
    ∃ t, execRollback src group s = .next t ∧ P t := by
  unfold execRollback
  refine ⟨_, rfl, ?_⟩
  exact (kept_ite (kept_memberRollback (hk.le rfl) h) h)

theorem kept_execQuery (hk : Keeps P 0x405a) {src : Nat} {group : Nat} {s : State} (h : P s) :
    ∃ t, execQuery src group s = .next t ∧ P t := by
  unfold execQuery
  refine ⟨_, rfl, ?_⟩
  split
  · rename_i y0 y1 y2
    exact (kept_ite (kept_sendGroup (hk.le rfl) h) h)
  · rename_i y3 y4
    exact h

theorem kept_execQueryResend (hk : Keeps P 0x405a) {s : State} (h : P s) :
    ∃ t, execQueryResend s = .next t ∧ P t := by
  unfold execQueryResend
  refine ⟨_, rfl, ?_⟩
  split
  · rename_i y0 y1 y2
    exact (kept_ite (kept_sendGroup (hk.le rfl) h) h)
  · rename_i y3 y4
    exact h

theorem kept_execTrialWindowExpires (hk : Keeps P 0x6c43fb) {s : State} (h : P s) :
    ∃ t, execTrialWindowExpires s = .next t ∧ P t := by
  unfold execTrialWindowExpires
  refine ⟨_, rfl, ?_⟩
  split
  · rename_i y0 y1 y2
    exact (kept_ite (kept_decide_ (hk.le rfl) h) h)
  · rename_i y3 y4
    exact h

theorem kept_execQuarterGate (hk : Keeps P 0x482) {quarter : Nat} {finished : Bool} {s : State} (h : P s) :
    ∃ t, execQuarterGate quarter s finished = .next t ∧ P t := by
  unfold execQuarterGate
  refine ⟨_, rfl, ?_⟩
  refine kept_ite ?_ ?_
  · extract_lets v0 v1
    have k2 : P v1 := (kept_setQuarter (hk.le rfl) h)
    clear_value v0 v1
    exact (kept_ite (kept_setGated (hk.le rfl) (kept_mapQuarter (hk.le rfl) k2)) k2)
  · exact h

theorem kept_execQuarterOverheatGate (hk : Keeps P 0x6f6) {quarter : Nat} {junction : Int} {s : State} (h : P s) :
    ∃ t, execQuarterOverheatGate quarter junction s = .next t ∧ P t := by
  unfold execQuarterOverheatGate
  refine ⟨_, rfl, ?_⟩
  refine kept_ite ?_ ?_
  · extract_lets v0 v1 v2 v3
    have k4 : P v0 := (kept_mapQuarter (hk.le rfl) h)
    have k5 : P v1 := (kept_cutSram (hk.le rfl) (kept_setGated (hk.le rfl) k4))
    have k6 : P v3 := (kept_setQuarter (hk.le rfl) k5)
    clear_value v0 v1 v2 v3
    exact (kept_record (hk.le rfl) k6)
  · exact h

theorem kept_afterWake (hk : Keeps P 0x97fff) {s : State} {m0 : MemReq} (h : P s) :
    P (State.afterWake s m0) := by
  unfold State.afterWake
  split
  · rename_i y0 y1 y2
    exact (kept_emit (hk.le rfl) h)
  · rename_i y3 y4 y5 y6
    exact (kept_writeParts (hk.le rfl) h)
  · rename_i y7 y8 y9
    split
    · rename_i y10 y11 y12
      extract_lets v13
      clear_value v13
      exact (kept_ite (kept_setCore (hk.le rfl) h) (kept_performReq (hk.le rfl) h))
    · rename_i y14 y15
      exact (kept_performReq (hk.le rfl) h)

theorem kept_execQuarterWake (hk : Keeps P 0x97fff) {quarter : Nat} {access : Option MemReq} {s : State} (h : P s) :
    ∃ t, execQuarterWake quarter access s = .next t ∧ P t := by
  unfold execQuarterWake
  refine ⟨_, rfl, ?_⟩
  refine kept_ite ?_ ?_
  · exact h
  · refine kept_ite ?_ ?_
    · exact (kept_refuseWaiting (hk.le rfl) h)
    · refine kept_ite ?_ ?_
      · exact (kept_wakeFor (hk.le rfl) h)
      · refine kept_foldl ?_ ?_
        · exact h
        · intro x0 x1 h2
          exact (kept_afterWake (hk.le rfl) h2)

theorem kept_execQuarterReady (hk : Keeps P 0x97fff) {quarter : Nat} {s : State} (h : P s) :
    ∃ t, execQuarterReady quarter s = .next t ∧ P t := by
  unfold execQuarterReady
  refine ⟨_, rfl, ?_⟩
  extract_lets v0 v1 v2 v3
  have k4 : P v1 := (kept_setQuarter (hk.le rfl) h)
  have k5 : P v2 := (kept_ite (kept_setGated (hk.le rfl) k4) k4)
  have k6 : P v3 := by
    dsimp -zeta only [v3]
    refine kept_foldl ?_ ?_
    · exact k5
    · intro x7 x8 h9
      exact (kept_afterWake (hk.le rfl) h9)
  clear_value v0 v1 v2 v3
  refine kept_ite ?_ ?_
  · exact h
  · refine kept_foldl ?_ ?_
    · exact k6
    · intro x10 x11 h12
      exact (kept_startReserved (hk.le rfl) h12)

theorem kept_execDormantEntry (hk : Keeps P 0x82) {finished : Bool} {s : State} (h : P s) :
    ∃ t, execDormantEntry s finished = .next t ∧ P t := by
  unfold execDormantEntry
  refine ⟨_, rfl, ?_⟩
  refine kept_ite ?_ ?_
  · refine kept_ite ?_ ?_
    · extract_lets v0 v1
      have k2 : P v1 := (kept_wr (hk.le rfl) (hk.upd h))
      clear_value v0 v1
      refine kept_foldl ?_ ?_
      · exact (kept_hceStop (hk.le rfl) k2)
      · intro x3 x4 h5
        exact (kept_setLaneState (hk.le rfl) h5)
    · exact (hk.upd h)
  · exact h

theorem kept_execDormantExit (hk : Keeps P 0x82) {x0 : DormantCause} {s : State} (h : P s) :
    ∃ t, execDormantExit x0 s = .next t ∧ P t := by
  unfold execDormantExit
  refine ⟨_, rfl, ?_⟩
  exact (kept_leaveDormant (hk.le rfl) h)

theorem kept_execWakePattern (hk : Keeps P 0x82) {x0 : Nat} {s : State} (h : P s) :
    ∃ t, execWakePattern x0 s = .next t ∧ P t := by
  unfold execWakePattern
  refine ⟨_, rfl, ?_⟩
  exact (kept_leaveDormant (hk.le rfl) h)

theorem kept_execDormantExitReady (hk : Keeps P 0x84082) {s : State} (h : P s) :
    ∃ t, execDormantExitReady s = .next t ∧ P t := by
  unfold execDormantExitReady
  refine ⟨_, rfl, ?_⟩
  exact (kept_ite (kept_trainLinks (hk.le rfl) (kept_hceStart (hk.le rfl) (hk.upd h))) h)

theorem kept_homeFail (hk : Keeps P 0x4000) {s : State} {c : Nat} {a : Pkt} {rsp : Nat} {cause : Nat} (h : P s) :
    P (State.homeFail s c a rsp cause) := by
  unfold State.homeFail
  exact (kept_enqueue (hk.le rfl) h)

theorem kept_homeRequest (hk : Keeps P 0x76fe) {s : State} {c : Nat} {p0 : Pkt} {k0 : MemKind} {rsp : Nat} (h : P s) :
    P (State.homeRequest s c p0 k0 rsp) := by
  unfold State.homeRequest
  extract_lets v0 v1
  have k2 : ∀ b3 b4, P b3 → P (v1 b3 b4) := (fun x5 x6 h7 => (kept_homeFail (hk.le rfl) h7))
  clear_value v0 v1
  split
  · rename_i y8 y9 y10
    extract_lets v11
    have k12 : P v11 := (kept_ite (kept_record (hk.le rfl) h) h)
    clear_value v11
    exact (k2 _ _ k12)
  · rename_i y13 y14
    split
    · rename_i y15 y16 y17 y18
      have k19 : P y16 := by
        have e20 := congrArg Prod.fst y18
        dsimp only at e20
        rw [← e20]
        exact (kept_homeAccess (hk.le rfl) h)
      exact (kept_enqueue (hk.le rfl) (kept_when (hk.le rfl) k19 (fun x21 h22 => (kept_ringCount (hk.le rfl) h22))))
    · rename_i y23 y24 y25 y26
      have k27 : P y24 := by
        have e28 := congrArg Prod.fst y26
        dsimp only at e28
        rw [← e28]
        exact (kept_homeAccess (hk.le rfl) h)
      exact (k2 _ _ k27)
    · rename_i y29 y30 y31 y32
      have k33 : P y30 := by
        have e34 := congrArg Prod.fst y32
        dsimp only at e34
        rw [← e34]
        exact (kept_homeAccess (hk.le rfl) h)
      exact k33

theorem kept_takeRequest (hk : Keeps P 0x76fe) {s : State} {c : Nat} {p0 : Pkt} {k0 : MemKind} {rsp : Nat} {note : Nat} (h : P s) :
    P (State.takeRequest s c p0 k0 rsp note) := by
  unfold State.takeRequest
  extract_lets v0
  have k1 : ∀ b2, P b2 → P (v0 b2) := (fun x3 h4 => (kept_homeRequest (hk.le rfl) h4))
  clear_value v0
  refine kept_ite ?_ ?_
  · exact (k1 _ h)
  · split
    · rename_i y5 y6 y7
      exact (kept_sramEcc (hk.le rfl) h (fun x8 h9 => (k1 _ h9)) (fun x10 h11 => (kept_homeFail (hk.le rfl) h11)))
    · rename_i y12 y13
      exact (k1 _ (kept_eccFound (hk.le rfl) h))

theorem kept_takeWR (hk : Keeps P 0x76fe) {s : State} {c : Nat} {p0 : Pkt} {note : Nat} (h : P s) :
    P (State.takeWR s c p0 note) := by
  unfold State.takeWR
  exact (kept_takeRequest (hk.le rfl) h)

theorem kept_takeRD (hk : Keeps P 0x76fe) {s : State} {c : Nat} {p0 : Pkt} {note : Nat} (h : P s) :
    P (State.takeRD s c p0 note) := by
  unfold State.takeRD
  exact (kept_takeRequest (hk.le rfl) h)

theorem kept_takeATOM (hk : Keeps P 0x76fe) {s : State} {c : Nat} {p0 : Pkt} {note : Nat} (h : P s) :
    P (State.takeATOM s c p0 note) := by
  unfold State.takeATOM
  exact (kept_takeRequest (hk.le rfl) h)

theorem kept_takeRSP (hk : Keeps P 0x76ff) {s : State} {p0 : Pkt} (h : P s) :
    P (State.takeRSP s p0) := by
  unfold State.takeRSP
  split
  · rename_i y0 y1
    exact (kept_bump (hk.le rfl) h)
  · rename_i y2 y3 y4
    extract_lets v5 v6 v7
    have k8 : P v7 := (hk.upd h)
    clear_value v5 v6 v7
    exact (kept_ite (kept_resyncPct (hk.le rfl) (kept_answerReq (hk.le rfl) k8)) (kept_failReq (hk.le rfl) k8))

theorem kept_replaceHops (hk : Keeps P 0x8052) {s : State} {p0 : Pkt} (h : P s) :
    P (State.replaceHops s p0) := by
  unfold State.replaceHops
  extract_lets v0 v1 v2
  clear_value v0 v1 v2
  exact (kept_ite h (kept_ite (kept_rtFull (hk.le rfl) h) (hk.upd h)))

theorem kept_takePMSG (hk : Keeps P 0xc052) {s : State} {p0 : Pkt} (h : P s) :
    P (State.takePMSG s p0) := by
  unfold State.takePMSG
  exact (kept_ite (kept_acceptPmsg (hk.le rfl) h) (kept_relayPmsg (hk.le rfl) (kept_ite (kept_replaceHops (hk.le rfl) h) h)))

theorem kept_takePacket (hk : Keeps P 0xfeff) {c : Nat} {t0 : TxPkt} {s : State} (h : P s) :
    P (State.takePacket c t0 s) := by
  unfold State.takePacket
  exact (kept_ite (kept_takeWR (hk.le rfl) h) (kept_ite (kept_takeRD (hk.le rfl) h) (kept_ite (kept_takeATOM (hk.le rfl) h) (kept_ite (kept_collData (hk.le rfl) h) (kept_ite (kept_takeRSP (hk.le rfl) h) (kept_ite (kept_takePMSG (hk.le rfl) h) h))))))

theorem kept_execWr (hk : Keeps P 0xfeff) {lane : Nat} {pkt : Pkt} {ecc : EccFinding} {s : State} (h : P s) :
    ∃ t, execWr lane pkt s ecc = .next t ∧ P t := by
  unfold execWr
  refine ⟨_, rfl, ?_⟩
  exact (kept_receive (hk.le rfl) h (fun x0 x1 x2 h3 => (kept_takePacket (hk.le rfl) h3)))

theorem kept_execRd (hk : Keeps P 0xfeff) {lane : Nat} {pkt : Pkt} {ecc : EccFinding} {s : State} (h : P s) :
    ∃ t, execRd lane pkt ecc s = .next t ∧ P t := by
  unfold execRd
  refine ⟨_, rfl, ?_⟩
  exact (kept_receive (hk.le rfl) h (fun x0 x1 x2 h3 => (kept_takePacket (hk.le rfl) h3)))

theorem kept_execAtom (hk : Keeps P 0xfeff) {lane : Nat} {pkt : Pkt} {ecc : EccFinding} {s : State} (h : P s) :
    ∃ t, execAtom lane pkt s ecc = .next t ∧ P t := by
  unfold execAtom
  refine ⟨_, rfl, ?_⟩
  exact (kept_receive (hk.le rfl) h (fun x0 x1 x2 h3 => (kept_takePacket (hk.le rfl) h3)))

theorem kept_execCollData (hk : Keeps P 0xfeff) {lane : Nat} {pkt : Pkt} {residue : Int} {residue2 : Int} {s : State} (h : P s) :
    ∃ t, execCollData lane pkt residue s residue2 = .next t ∧ P t := by
  unfold execCollData
  refine ⟨_, rfl, ?_⟩
  exact (kept_receive (hk.le rfl) h (fun x0 x1 x2 h3 => (kept_takePacket (hk.le rfl) h3)))

theorem kept_execRdRsp (hk : Keeps P 0xfeff) {lane : Nat} {pkt : Pkt} {s : State} (h : P s) :
    ∃ t, execRdRsp lane pkt s = .next t ∧ P t := by
  unfold execRdRsp
  refine ⟨_, rfl, ?_⟩
  exact (kept_receive (hk.le rfl) h (fun x0 x1 x2 h3 => (kept_takePacket (hk.le rfl) h3)))

theorem kept_execAtomRsp (hk : Keeps P 0xfeff) {lane : Nat} {pkt : Pkt} {s : State} (h : P s) :
    ∃ t, execAtomRsp lane pkt s = .next t ∧ P t := by
  unfold execAtomRsp
  refine ⟨_, rfl, ?_⟩
  exact (kept_receive (hk.le rfl) h (fun x0 x1 x2 h3 => (kept_takePacket (hk.le rfl) h3)))

theorem kept_execCpl (hk : Keeps P 0xfeff) {lane : Nat} {pkt : Pkt} {s : State} (h : P s) :
    ∃ t, execCpl lane pkt s = .next t ∧ P t := by
  unfold execCpl
  refine ⟨_, rfl, ?_⟩
  exact (kept_receive (hk.le rfl) h (fun x0 x1 x2 h3 => (kept_takePacket (hk.le rfl) h3)))

theorem kept_execVoid (hk : Keeps P 0xfeff) {lane : Nat} {pkt : Pkt} {s : State} (h : P s) :
    ∃ t, execVoid lane pkt s = .next t ∧ P t := by
  unfold execVoid
  refine ⟨_, rfl, ?_⟩
  exact (kept_receive (hk.le rfl) h (fun x0 x1 x2 h3 => (kept_takePacket (hk.le rfl) h3)))

theorem kept_execPmsgRelay (hk : Keeps P 0xfeff) {lane : Nat} {pkt : Pkt} {s : State} (h : P s) :
    ∃ t, execPmsgRelay lane pkt s = .next t ∧ P t := by
  unfold execPmsgRelay
  refine ⟨_, rfl, ?_⟩
  exact (kept_receive (hk.le rfl) h (fun x0 x1 x2 h3 => (kept_takePacket (hk.le rfl) h3)))

end Sys2Proof.Machine
end

