-- ==== Sys2Proof/Laws/KeptExec.lean ====
section
/-! SUPPORT. What every command keeps and changes: the lemmas of the files Kept<part>.lean under one name. -/
namespace Sys2Proof.Machine
open Sys2Proof Safety

/-- The parts of a list, as the bits of a mask. -/
def partMask (ps : List Part) : Nat := ps.foldr (fun p m => Nat.lor (2 ^ p.ctorIdx) m) 0

theorem testBit_partMask (p : Part) (ps : List Part) : (partMask ps).testBit p.ctorIdx = decide (p ∈ ps) := by
  induction ps with
  | nil => simp [partMask]
  | cons q ps ih =>
    show (2 ^ q.ctorIdx ||| partMask ps).testBit p.ctorIdx = _
    rw [Nat.testBit_or, ih, Nat.testBit_two_pow, Bool.eq_iff_iff]
    simp only [Bool.or_eq_true, decide_eq_true_eq, List.mem_cons]
    refine or_congr ⟨fun h => ?_, fun h => ?_⟩ Iff.rfl
    · cases p <;> cases q <;> first | rfl | exact absurd h (by decide)
    · rw [h]

theorem Keeps.is {P : State → Prop} {n m : Nat} (hk : Keeps P n) (h : n = m) : Keeps P m := h ▸ hk

set_option maxRecDepth 10000 in
/-- Every command answers a next state, and a property that survives changes to the parts it reaches survives it. -/
theorem kept_exec {P : State → Prop} {s : State} (c : Instr) (hk : Keeps P (partMask (reach c))) (h : P s) :
    ∃ t, exec c s = .next t ∧ P t := by
  cases c with
  | registerWrite a0 a1 a2 => exact kept_execRegisterWrite (hk.is rfl) h
  | bar0BadAccess a0 a1 a2 => exact kept_execBar0BadAccess (hk.is rfl) h
  | computeClockStep a0 a1 => exact kept_execComputeClockStep (hk.is rfl) h
  | inletOverLimit a0 => exact kept_execInletOverLimit (hk.is rfl) h
  | inletRecovered a0 => exact kept_execInletRecovered (hk.is rfl) h
  | quarterOverheatGate a0 a1 => exact kept_execQuarterOverheatGate (hk.is rfl) h
  | powerLimitClockStep a0 a1 => exact kept_execPowerLimitClockStep (hk.is rfl) h
  | feedEntersRange a0 a1 => exact kept_execFeedEntersRange (hk.is rfl) h
  | feedLeavesRange a0 a1 => exact kept_execFeedLeavesRange (hk.is rfl) h
  | stageFault a0 => exact kept_execStageFault (hk.is rfl) h
  | stageFaultClears a0 => exact kept_execStageFaultClears (hk.is rfl) h
  | feedReturnWaitExpires a0 => exact kept_execFeedReturnWaitExpires (hk.is rfl) h
  | shareRampComplete => exact kept_execShareRampComplete (hk.is rfl) h
  | feedRedundStartCheck => exact kept_execFeedRedundStartCheck (hk.is rfl) h
  | bothFeedsLost a0 => exact kept_execBothFeedsLost (hk.is rfl) h
  | feedReturnsInHoldUp a0 a1 => exact kept_execFeedReturnsInHoldUp (hk.is rfl) h
  | holdUpExpires => exact kept_execHoldUpExpires (hk.is rfl) h
  | feedHealthHeartbeat a0 => exact kept_execFeedHealthHeartbeat (hk.is rfl) h
  | monPathLost => exact kept_execMonPathLost (hk.is rfl) h
  | proofTestPhaseEnd a0 a1 => exact kept_execProofTestPhaseEnd (hk.is rfl) h
  | smbStatus => exact kept_execSmbStatus (hk.is rfl) h
  | smbAlertClear a0 a1 => exact kept_execSmbAlertClear (hk.is rfl) h
  | smbAlertMask a0 a1 a2 => exact kept_execSmbAlertMask (hk.is rfl) h
  | feedAV => exact kept_execFeedAV (hk.is rfl) h
  | feedAI => exact kept_execFeedAI (hk.is rfl) h
  | feedBV => exact kept_execFeedBV (hk.is rfl) h
  | feedBI => exact kept_execFeedBI (hk.is rfl) h
  | inputPower => exact kept_execInputPower (hk.is rfl) h
  | inletTemp => exact kept_execInletTemp (hk.is rfl) h
  | outletTemp => exact kept_execOutletTemp (hk.is rfl) h
  | hbCount => exact kept_execHbCount (hk.is rfl) h
  | smbProofTest a0 a1 => exact kept_execSmbProofTest (hk.is rfl) h
  | proofResult => exact kept_execProofResult (hk.is rfl) h
  | pwrcycReason => exact kept_execPwrcycReason (hk.is rfl) h
  | smbUnknownCommand a0 => exact kept_execSmbUnknownCommand (x0 := a0) (hk.is rfl) h
  | smbAlertResponse => exact kept_execSmbAlertResponse (hk.is rfl) h
  | perstAssert => exact kept_execPerstAssert (hk.is rfl) h
  | perstDeassert => exact kept_execPerstDeassert (hk.is rfl) h
  | cxlConfigRequest a0 a1 a2 => exact kept_execCxlConfigRequest (hk.is rfl) h
  | trefLost => exact kept_execTrefLost (hk.is rfl) h
  | trefRestored => exact kept_execTrefRestored (hk.is rfl) h
  | tapBypass => exact kept_execTapBypass (hk.is rfl) h
  | tapIdcode => exact kept_execTapIdcode (hk.is rfl) h
  | tapExtest a0 => exact kept_execTapExtest (hk.is rfl) h
  | tapIntest a0 => exact kept_execTapIntest (hk.is rfl) h
  | tapOtherInstruction a0 => exact kept_execTapOtherInstruction (hk.is rfl) h
  | powerCycleNotExecuted => exact kept_execPowerCycleNotExecuted (hk.is rfl) h
  | quarterGate a0 a1 => exact kept_execQuarterGate (hk.is rfl) h
  | quarterWake a0 a1 => exact kept_execQuarterWake (hk.is rfl) h
  | quarterReady a0 => exact kept_execQuarterReady (hk.is rfl) h
  | dormantEntry a0 => exact kept_execDormantEntry (hk.is rfl) h
  | dormantExit a0 => exact kept_execDormantExit (x0 := a0) (hk.is rfl) h
  | dormantExitReady => exact kept_execDormantExitReady (hk.is rfl) h
  | referencesLost => exact kept_execReferencesLost (hk.is rfl) h
  | referenceQualified a0 => exact kept_execReferenceQualified (hk.is rfl) h
  | scalarInstruction a0 a1 a2 a3 => exact kept_execScalarInstruction (hk.is rfl) h
  | vectorInstruction a0 a1 a2 a3 => exact kept_execVectorInstruction (hk.is rfl) h
  | laneReduction a0 a1 a2 a3 a4 a5 a6 a7 => exact kept_execLaneReduction (hk.is rfl) h
  | cvt a0 a1 a2 a3 a4 a5 a6 a7 a8 a9 => exact kept_execCvt (hk.is rfl) h
  | srseed a0 a1 a2 a3 => exact kept_execSrseed (hk.is rfl) h
  | exp2 a0 a1 a2 a3 a4 a5 => exact kept_execExp2 (hk.is rfl) h
  | log2 a0 a1 a2 a3 a4 a5 => exact kept_execLog2 (hk.is rfl) h
  | rcp a0 a1 a2 a3 a4 a5 => exact kept_execRcp (hk.is rfl) h
  | rsqrt a0 a1 a2 a3 a4 a5 => exact kept_execRsqrt (hk.is rfl) h
  | sqrt a0 a1 a2 a3 a4 a5 => exact kept_execSqrt (hk.is rfl) h
  | sin a0 a1 a2 a3 a4 a5 => exact kept_execSin (hk.is rfl) h
  | cos a0 a1 a2 a3 a4 a5 => exact kept_execCos (hk.is rfl) h
  | tanh a0 a1 a2 a3 a4 a5 => exact kept_execTanh (hk.is rfl) h
  | coreStoreLoad a0 a1 a2 a3 a4 => exact kept_execCoreStoreLoad (hk.is rfl) h
  | coreStoreStore a0 a1 a2 a3 => exact kept_execCoreStoreStore (hk.is rfl) h
  | quarterStoreAccess a0 a1 a2 a3 a4 a5 => exact kept_execQuarterStoreAccess (hk.is rfl) h
  | globalLoad a0 a1 a2 a3 a4 => exact kept_execGlobalLoad (hk.is rfl) h
  | globalStore a0 a1 a2 a3 a4 => exact kept_execGlobalStore (hk.is rfl) h
  | gather a0 a1 a2 a3 a4 a5 a6 a7 a8 => exact kept_execGather (hk.is rfl) h
  | scatter a0 a1 a2 a3 a4 a5 a6 a7 a8 => exact kept_execScatter (hk.is rfl) h
  | add64 a0 a1 a2 a3 a4 => exact kept_execAdd64 (hk.is rfl) h
  | cas64 a0 a1 a2 a3 a4 => exact kept_execCas64 (hk.is rfl) h
  | min64 a0 a1 a2 a3 a4 => exact kept_execMin64 (hk.is rfl) h
  | max64 a0 a1 a2 a3 a4 => exact kept_execMax64 (hk.is rfl) h
  | fadd32 a0 a1 a2 a3 a4 => exact kept_execFadd32 (hk.is rfl) h
  | mload a0 a1 a2 a3 => exact kept_execMload (hk.is rfl) h
  | mma a0 a1 a2 => exact kept_execMma (hk.is rfl) h
  | mstore a0 a1 a2 a3 a4 => exact kept_execMstore (hk.is rfl) h
  | bar a0 a1 a2 a3 => exact kept_execBar (hk.is rfl) h
  | ewait a0 a1 a2 a3 a4 => exact kept_execEwait (hk.is rfl) h
  | esignal a0 a1 a2 a3 a4 a5 => exact kept_execEsignal (hk.is rfl) h
  | fenceAcq a0 a1 => exact kept_execFenceAcq (hk.is rfl) h
  | fenceRel a0 a1 => exact kept_execFenceRel (hk.is rfl) h
  | yield a0 a1 => exact kept_execYield (hk.is rfl) h
  | yieldHoldExpires a0 a1 => exact kept_execYieldHoldExpires (hk.is rfl) h
  | exit a0 a1 => exact kept_execExit (hk.is rfl) h
  | loadResultWritten a0 a1 a2 => exact kept_execLoadResultWritten (hk.is rfl) h
  | mloadBankFilled a0 => exact kept_execMloadBankFilled (hk.is rfl) h
  | mstoreComplete a0 => exact kept_execMstoreComplete (hk.is rfl) h
  | tileVerdict a0 a1 a2 a3 => exact kept_execTileVerdict (hk.is rfl) h
  | replayVerdict a0 a1 a2 a3 => exact kept_execReplayVerdict (hk.is rfl) h
  | siblingStart a0 a1 => exact kept_execSiblingStart (hk.is rfl) h
  | arbiterVerdict a0 a1 a2 a3 a4 => exact kept_execArbiterVerdict (hk.is rfl) h
  | resultTransferComplete a0 a1 => exact kept_execResultTransferComplete (hk.is rfl) h
  | arbWaitExpires a0 => exact kept_execArbWaitExpires (hk.is rfl) h
  | coreZeroingComplete a0 => exact kept_execCoreZeroingComplete (hk.is rfl) h
  | heldWritePerformed a0 => exact kept_execHeldWritePerformed (hk.is rfl) h
  | coreClockGate a0 a1 a2 => exact kept_execCoreClockGate (hk.is rfl) h
  | corePowerGate a0 a1 a2 => exact kept_execCorePowerGate (hk.is rfl) h
  | coreWake a0 => exact kept_execCoreWake (hk.is rfl) h
  | coreSelfTest a0 a1 a2 => exact kept_execCoreSelfTest (hk.is rfl) h
  | historyFlashWrite a0 a1 => exact kept_execHistoryFlashWrite (hk.is rfl) h
  | historyWriteRetry a0 a1 => exact kept_execHistoryWriteRetry (hk.is rfl) h
  | coreRetired a0 => exact kept_execCoreRetired (hk.is rfl) h
  | chkCfgCommit => exact kept_execChkCfgCommit (hk.is rfl) h
  | chkInjectArm a0 => exact kept_execChkInjectArm (hk.is rfl) h
  | remoteTimeout a0 => exact kept_execRemoteTimeout (hk.is rfl) h
  | patrolScrub a0 a1 => exact kept_execPatrolScrub (hk.is rfl) h
  | selfRefreshTimeout a0 => exact kept_execSelfRefreshTimeout (hk.is rfl) h
  | memRegionCommitGo => exact kept_execMemRegionCommitGo (hk.is rfl) h
  | regionCommitDone => exact kept_execRegionCommitDone (hk.is rfl) h
  | memBiasGo a0 => exact kept_execMemBiasGo (hk.is rfl) h
  | biasChangeComplete => exact kept_execBiasChangeComplete (hk.is rfl) h
  | cxlMemRead a0 a1 => exact kept_execCxlMemRead (hk.is rfl) h
  | cxlMemWrite a0 a1 a2 => exact kept_execCxlMemWrite (hk.is rfl) h
  | hdmDecoderCommit a0 a1 a2 a3 => exact kept_execHdmDecoderCommit (hk.is rfl) h
  | mirrorAck a0 => exact kept_execMirrorAck (hk.is rfl) h
  | mirrorEnable a0 => exact kept_execMirrorEnable (hk.is rfl) h
  | resyncComplete => exact kept_execResyncComplete (hk.is rfl) h
  | qdbTailWrite a0 a1 a2 => exact kept_execQdbTailWrite (hk.is rfl) h
  | queueEnable a0 a1 a2 => exact kept_execQueueEnable (hk.is rfl) h
  | queueDisable a0 a1 => exact kept_execQueueDisable (hk.is rfl) h
  | commandFetch a0 a1 a2 a3 => exact kept_execCommandFetch (hk.is rfl) h
  | commandStart a0 => exact kept_execCommandStart (hk.is rfl) h
  | nop a0 a1 a2 => exact kept_execNop (hk.is rfl) h
  | eventWait a0 a1 a2 => exact kept_execEventWait (hk.is rfl) h
  | eventSignalSet a0 a1 a2 => exact kept_execEventSignalSet (hk.is rfl) h
  | eventSignalAdd a0 a1 a2 => exact kept_execEventSignalAdd (hk.is rfl) h
  | stepWait a0 a1 a2 => exact kept_execStepWait (hk.is rfl) h
  | timestamp a0 a1 a2 => exact kept_execTimestamp (hk.is rfl) h
  | memWait a0 a1 a2 a3 => exact kept_execMemWait (hk.is rfl) h
  | memWaitPoll a0 a1 a2 a3 => exact kept_execMemWaitPoll (hk.is rfl) h
  | dispatch a0 a1 a2 => exact kept_execDispatch (hk.is rfl) h
  | dispatchGroupStart a0 a1 a2 => exact kept_execDispatchGroupStart (hk.is rfl) h
  | copy a0 a1 a2 a3 a4 a5 => exact kept_execCopy (hk.is rfl) h
  | copy2d a0 a1 a2 a3 a4 a5 => exact kept_execCopy2d (hk.is rfl) h
  | fill a0 a1 a2 a3 a4 => exact kept_execFill (hk.is rfl) h
  | convert a0 a1 a2 a3 a4 a5 => exact kept_execConvert (hk.is rfl) h
  | pageIn a0 a1 a2 a3 a4 => exact kept_execPageIn (hk.is rfl) h
  | pageOut a0 a1 a2 => exact kept_execPageOut (hk.is rfl) h
  | allreduce a0 a1 a2 a3 => exact kept_execAllreduce (hk.is rfl) h
  | reduceScatter a0 a1 a2 a3 => exact kept_execReduceScatter (hk.is rfl) h
  | allgather a0 a1 a2 a3 => exact kept_execAllgather (hk.is rfl) h
  | broadcast a0 a1 a2 a3 => exact kept_execBroadcast (hk.is rfl) h
  | barrier a0 a1 a2 => exact kept_execBarrier (hk.is rfl) h
  | ringRun a0 a1 a2 => exact kept_execRingRun (hk.is rfl) h
  | pathSetup a0 a1 a2 => exact kept_execPathSetup (hk.is rfl) h
  | pathTeardown a0 a1 a2 => exact kept_execPathTeardown (hk.is rfl) h
  | pathRecable a0 a1 a2 => exact kept_execPathRecable (hk.is rfl) h
  | pathQuery a0 a1 a2 => exact kept_execPathQuery (hk.is rfl) h
  | commandComplete a0 a1 a2 => exact kept_execCommandComplete (hk.is rfl) h
  | qdbEvtValWrite a0 => exact kept_execQdbEvtValWrite (hk.is rfl) h
  | collTimeout a0 a1 a2 => exact kept_execCollTimeout (hk.is rfl) h
  | placement => exact kept_execPlacement (hk.is rfl) h
  | partnerRecord a0 a1 => exact kept_execPartnerRecord (hk.is rfl) h
  | partnerSilent => exact kept_execPartnerSilent (hk.is rfl) h
  | placementHoldExpires a0 => exact kept_execPlacementHoldExpires (hk.is rfl) h
  | ringHello a0 a1 a2 a3 => exact kept_execRingHello (hk.is rfl) h
  | helloHoldExpires a0 a1 a2 => exact kept_execHelloHoldExpires (hk.is rfl) h
  | ringToken a0 a1 a2 a3 => exact kept_execRingToken (hk.is rfl) h
  | ringTokenSend a0 a1 => exact kept_execRingTokenSend (hk.is rfl) h
  | ringLoadDone a0 a1 a2 a3 => exact kept_execRingLoadDone (hk.is rfl) h
  | ringForward a0 a1 a2 a3 a4 => exact kept_execRingForward (hk.is rfl) h
  | ringReady a0 a1 => exact kept_execRingReady (hk.is rfl) h
  | ringComplete a0 => exact kept_execRingComplete (hk.is rfl) h
  | ringAbort a0 a1 a2 => exact kept_execRingAbort (hk.is rfl) h
  | stepTimeout a0 a1 => exact kept_execStepTimeout (hk.is rfl) h
  | laneClockRecovered a0 => exact kept_execLaneClockRecovered (hk.is rfl) h
  | laneEqualiserConverged a0 => exact kept_execLaneEqualiserConverged (hk.is rfl) h
  | laneAlignmentFound a0 => exact kept_execLaneAlignmentFound (hk.is rfl) h
  | init a0 a1 a2 a3 a4 a5 a6 a7 => exact kept_execInit (lane := a0) (node := a1) (inc := a2) (circ := a3) (laneI := a4) (k0 := a5) (plane := a6) (ready := a7) (hk.is rfl) h
  | laneCheckComplete a0 a1 a2 => exact kept_execLaneCheckComplete (hk.is rfl) h
  | laneBoundExceeded a0 => exact kept_execLaneBoundExceeded (hk.is rfl) h
  | flow a0 a1 a2 a3 a4 a5 a6 => exact kept_execFlow (hk.is rfl) h
  | lnkBerHigh a0 a1 => exact kept_execLnkBerHigh (hk.is rfl) h
  | laneFail a0 a1 => exact kept_execLaneFail (hk.is rfl) h
  | packetSend a0 => exact kept_execPacketSend (hk.is rfl) h
  | ackTimeout a0 => exact kept_execAckTimeout (hk.is rfl) h
  | wr a0 a1 a2 => exact kept_execWr (hk.is rfl) h
  | rd a0 a1 a2 => exact kept_execRd (hk.is rfl) h
  | atom a0 a1 a2 => exact kept_execAtom (hk.is rfl) h
  | collData a0 a1 a2 a3 => exact kept_execCollData (hk.is rfl) h
  | rdRsp a0 a1 => exact kept_execRdRsp (hk.is rfl) h
  | atomRsp a0 a1 => exact kept_execAtomRsp (hk.is rfl) h
  | cpl a0 a1 => exact kept_execCpl (hk.is rfl) h
  | void a0 a1 => exact kept_execVoid (hk.is rfl) h
  | pmsgRelay a0 a1 => exact kept_execPmsgRelay (hk.is rfl) h
  | pmsgRelayDiscard a0 => exact kept_execPmsgRelayDiscard (hk.is rfl) h
  | collReady a0 a1 a2 a3 a4 => exact kept_execCollReady (hk.is rfl) h
  | collArrive a0 a1 a2 a3 => exact kept_execCollArrive (hk.is rfl) h
  | orqSyncUnknown a0 a1 => exact kept_execOrqSyncUnknown (hk.is rfl) h
  | wakePattern a0 => exact kept_execWakePattern (x0 := a0) (hk.is rfl) h
  | resv a0 a1 => exact kept_execResv (x0 := a0) (m0 := a1) (hk.is rfl) h
  | resvAck a0 a1 => exact kept_execResvAck (hk.is rfl) h
  | light a0 a1 => exact kept_execLight (x0 := a0) (m0 := a1) (hk.is rfl) h
  | lit a0 a1 => exact kept_execLit (hk.is rfl) h
  | release a0 a1 => exact kept_execRelease (hk.is rfl) h
  | releaseAck a0 a1 => exact kept_execReleaseAck (hk.is rfl) h
  | move a0 a1 => exact kept_execMove (x0 := a0) (m0 := a1) (hk.is rfl) h
  | commit a0 a1 => exact kept_execCommit (x0 := a0) (m0 := a1) (hk.is rfl) h
  | pathAbort a0 a1 => exact kept_execPathAbort (x0 := a0) (m0 := a1) (hk.is rfl) h
  | audit a0 a1 => exact kept_execAudit (hk.is rfl) h
  | auditReply a0 a1 => exact kept_execAuditReply (x0 := a0) (m0 := a1) (hk.is rfl) h
  | auditTimeout a0 => exact kept_execAuditTimeout (hk.is rfl) h
  | evacuateMsg a0 a1 => exact kept_execEvacuateMsg (hk.is rfl) h
  | evacAck a0 a1 => exact kept_execEvacAck (x0 := a0) (m0 := a1) (hk.is rfl) h
  | teardownReq a0 a1 => exact kept_execTeardownReq (x0 := a0) (m0 := a1) (hk.is rfl) h
  | wake a0 a1 => exact kept_execWake (hk.is rfl) h
  | wakeAck a0 a1 => exact kept_execWakeAck (hk.is rfl) h
  | wakeRoundExpires a0 => exact kept_execWakeRoundExpires (hk.is rfl) h
  | hopTimeout a0 => exact kept_execHopTimeout (hk.is rfl) h
  | setupTimeout a0 => exact kept_execSetupTimeout (hk.is rfl) h
  | heldTimeout a0 => exact kept_execHeldTimeout (hk.is rfl) h
  | planePathVerified a0 a1 a2 a3 => exact kept_execPlanePathVerified (hk.is rfl) h
  | backupSeek a0 => exact kept_execBackupSeek (hk.is rfl) h
  | downRetry a0 => exact kept_execDownRetry (hk.is rfl) h
  | downHoldExpires a0 => exact kept_execDownHoldExpires (hk.is rfl) h
  | recableDeadline a0 => exact kept_execRecableDeadline (hk.is rfl) h
  | recableTick a0 => exact kept_execRecableTick (hk.is rfl) h
  | spanLossMeasure a0 a1 => exact kept_execSpanLossMeasure (hk.is rfl) h
  | disc a0 a1 => exact kept_execDisc (hk.is rfl) h
  | discSend a0 => exact kept_execDiscSend (hk.is rfl) h
  | discTimeout a0 => exact kept_execDiscTimeout (hk.is rfl) h
  | routingRebuild => exact kept_execRoutingRebuild (hk.is rfl) h
  | rebind a0 => exact kept_execRebind (hk.is rfl) h
  | hcePeriod a0 a1 => exact kept_execHcePeriod (hk.is rfl) h
  | groupRateDown a0 => exact kept_execGroupRateDown (hk.is rfl) h
  | groupRateRestore a0 => exact kept_execGroupRateRestore (hk.is rfl) h
  | groupResume a0 => exact kept_execGroupResume (hk.is rfl) h
  | hceWindow a0 => exact kept_execHceWindow (hk.is rfl) h
  | rampRecord a0 a1 a2 a3 a4 a5 => exact kept_execRampRecord (hk.is rfl) h
  | rampStart a0 a1 => exact kept_execRampStart (hk.is rfl) h
  | hceSpGo a0 => exact kept_execHceSpGo (hk.is rfl) h
  | loopHold a0 => exact kept_execLoopHold (hk.is rfl) h
  | loopHoldRelease a0 => exact kept_execLoopHoldRelease (hk.is rfl) h
  | setSelWrite a0 a1 => exact kept_execSetSelWrite (hk.is rfl) h
  | stepTick => exact kept_execStepTick (hk.is rfl) h
  | tick a0 a1 a2 => exact kept_execTick (port := a0) (step := a1) (x2 := a2) (hk.is rfl) h
  | syncInterval a0 => exact kept_execSyncInterval (hk.is rfl) h
  | sync a0 a1 a2 a3 => exact kept_execSync (hk.is rfl) h
  | followUp a0 a1 a2 a3 => exact kept_execFollowUp (hk.is rfl) h
  | delayReq a0 a1 a2 a3 => exact kept_execDelayReq (hk.is rfl) h
  | delayResp a0 a1 a2 a3 => exact kept_execDelayResp (hk.is rfl) h
  | announce a0 a1 a2 => exact kept_execAnnounce (hk.is rfl) h
  | announceTimeout => exact kept_execAnnounceTimeout (hk.is rfl) h
  | ppsEdge => exact kept_execPpsEdge (hk.is rfl) h
  | ppsTimeout => exact kept_execPpsTimeout (hk.is rfl) h
  | timSetGo => exact kept_execTimSetGo (hk.is rfl) h
  | timNowRead => exact kept_execTimNowRead (hk.is rfl) h
  | triggerArm a0 a1 => exact kept_execTriggerArm (hk.is rfl) h
  | triggerDisarm a0 a1 => exact kept_execTriggerDisarm (hk.is rfl) h
  | triggerFire a0 => exact kept_execTriggerFire (hk.is rfl) h
  | opTimeCheckpoint => exact kept_execOpTimeCheckpoint (hk.is rfl) h
  | orqDoorbellGo => exact kept_execOrqDoorbellGo (hk.is rfl) h
  | mailboxResponse => exact kept_execMailboxResponse (hk.is rfl) h
  | mailboxTimeout => exact kept_execMailboxTimeout (hk.is rfl) h
  | deferredWorkEnd a0 => exact kept_execDeferredWorkEnd (hk.is rfl) h
  | getInfo => exact kept_execGetInfo (hk.is rfl) h
  | getResult => exact kept_execGetResult (hk.is rfl) h
  | ctxCreate => exact kept_execCtxCreate (hk.is rfl) h
  | ctxRemove => exact kept_execCtxRemove (hk.is rfl) h
  | cfgStage => exact kept_execCfgStage (hk.is rfl) h
  | cfgCommit a0 => exact kept_execCfgCommit (hk.is rfl) h
  | cfgDiscard => exact kept_execCfgDiscard (hk.is rfl) h
  | cfgRevert => exact kept_execCfgRevert (hk.is rfl) h
  | cfgRead => exact kept_execCfgRead (hk.is rfl) h
  | planLoad a0 => exact kept_execPlanLoad (hk.is rfl) h
  | planCommit => exact kept_execPlanCommit (hk.is rfl) h
  | planRevert => exact kept_execPlanRevert (hk.is rfl) h
  | pathReqSetup => exact kept_execPathReqSetup (hk.is rfl) h
  | pathReqTeardown => exact kept_execPathReqTeardown (hk.is rfl) h
  | pathReqRecable => exact kept_execPathReqRecable (hk.is rfl) h
  | pathReqQuery => exact kept_execPathReqQuery (hk.is rfl) h
  | proofTest => exact kept_execProofTest (hk.is rfl) h
  | twokeyStatus => exact kept_execTwokeyStatus (hk.is rfl) h
  | keyReplace => exact kept_execKeyReplace (hk.is rfl) h
  | policySet => exact kept_execPolicySet (hk.is rfl) h
  | minSvn => exact kept_execMinSvn (hk.is rfl) h
  | debugUnlock => exact kept_execDebugUnlock (hk.is rfl) h
  | debugRelock => exact kept_execDebugRelock (hk.is rfl) h
  | unitRestore => exact kept_execUnitRestore (hk.is rfl) h
  | evrClear => exact kept_execEvrClear (hk.is rfl) h
  | keeperReset => exact kept_execKeeperReset (hk.is rfl) h
  | keeperResetExecute => exact kept_execKeeperResetExecute (hk.is rfl) h
  | twokeyTimeout => exact kept_execTwokeyTimeout (hk.is rfl) h
  | updStatus => exact kept_execUpdStatus (hk.is rfl) h
  | updSchedule a0 => exact kept_execUpdSchedule (hk.is rfl) h
  | updConfirm => exact kept_execUpdConfirm (hk.is rfl) h
  | updCancel => exact kept_execUpdCancel (hk.is rfl) h
  | evrLatch => exact kept_execEvrLatch (hk.is rfl) h
  | evrRelease => exact kept_execEvrRelease (hk.is rfl) h
  | resetReqEngine => exact kept_execResetReqEngine (hk.is rfl) h
  | resetReqPartition => exact kept_execResetReqPartition (hk.is rfl) h
  | resetReqChip => exact kept_execResetReqChip (hk.is rfl) h
  | resetReqPowerCycle => exact kept_execResetReqPowerCycle (hk.is rfl) h
  | evacuate => exact kept_execEvacuate (hk.is rfl) h
  | evacuateClear => exact kept_execEvacuateClear (hk.is rfl) h
  | evacuateTimeout => exact kept_execEvacuateTimeout (hk.is rfl) h
  | ageReplan => exact kept_execAgeReplan (hk.is rfl) h
  | heartbeat a0 a1 => exact kept_execHeartbeat (hk.is rfl) h
  | watchdogPeriod => exact kept_execWatchdogPeriod (hk.is rfl) h
  | keeperBoot a0 a1 a2 a3 => exact kept_execKeeperBoot (hk.is rfl) h
  | powerOnStepComplete a0 a1 a2 => exact kept_execPowerOnStepComplete (hk.is rfl) h
  | rstStepLate a0 => exact kept_execRstStepLate (hk.is rfl) h
  | rstOrqBootFail => exact kept_execRstOrqBootFail (hk.is rfl) h
  | keeperWatchdog => exact kept_execKeeperWatchdog (hk.is rfl) h
  | engineStall a0 => exact kept_execEngineStall (hk.is rfl) h
  | contextProgressTimeout a0 => exact kept_execContextProgressTimeout (hk.is rfl) h
  | contextRemoval a0 => exact kept_execContextRemoval (hk.is rfl) h
  | contextRemovalComplete a0 => exact kept_execContextRemovalComplete (hk.is rfl) h
  | engineReset a0 => exact kept_execEngineReset (hk.is rfl) h
  | engineResetComplete a0 => exact kept_execEngineResetComplete (hk.is rfl) h
  | partitionReset a0 => exact kept_execPartitionReset (hk.is rfl) h
  | partitionResetComplete a0 => exact kept_execPartitionResetComplete (hk.is rfl) h
  | chipReset a0 => exact kept_execChipReset (hk.is rfl) h
  | powerCycle => exact kept_execPowerCycle (hk.is rfl) h
  | drainExpires => exact kept_execDrainExpires (hk.is rfl) h
  | actionLimitExpires => exact kept_execActionLimitExpires (hk.is rfl) h
  | actionDequeue => exact kept_execActionDequeue (hk.is rfl) h
  | collectionAccessTimeout a0 a1 => exact kept_execCollectionAccessTimeout (hk.is rfl) h
  | collectionDone a0 => exact kept_execCollectionDone (hk.is rfl) h
  | rstDumpDone => exact kept_execRstDumpDone (hk.is rfl) h
  | latticeRecordWrite => exact kept_execLatticeRecordWrite (hk.is rfl) h
  | hbSend => exact kept_execHbSend (hk.is rfl) h
  | hb a0 a1 a2 a3 => exact kept_execHb (hk.is rfl) h
  | mirrorHb a0 a1 a2 a3 a4 => exact kept_execMirrorHb (src := a0) (x1 := a1) (state := a2) (roles := a3) (buddy := a4) (hk.is rfl) h
  | mirrorPathLost a0 => exact kept_execMirrorPathLost (hk.is rfl) h
  | xferOpen a0 a1 => exact kept_execXferOpen (hk.is rfl) h
  | xferData a0 a1 a2 a3 => exact kept_execXferData (hk.is rfl) h
  | blockEnd a0 a1 => exact kept_execBlockEnd (hk.is rfl) h
  | xferClose a0 => exact kept_execXferClose (hk.is rfl) h
  | xferStatus a0 => exact kept_execXferStatus (hk.is rfl) h
  | boot a0 => exact kept_execBoot (hk.is rfl) h
  | neighbourSolicitation a0 a1 => exact kept_execNeighbourSolicitation (hk.is rfl) h
  | echoRequest a0 a1 => exact kept_execEchoRequest (hk.is rfl) h
  | sessionIdleTimeout => exact kept_execSessionIdleTimeout (hk.is rfl) h
  | updSlotVerified a0 => exact kept_execUpdSlotVerified (hk.is rfl) h
  | getVersion => exact kept_execGetVersion (hk.is rfl) h
  | getCapabilities => exact kept_execGetCapabilities (hk.is rfl) h
  | negotiateAlgorithms => exact kept_execNegotiateAlgorithms (hk.is rfl) h
  | getDigests => exact kept_execGetDigests (hk.is rfl) h
  | getCertificate a0 a1 a2 => exact kept_execGetCertificate (hk.is rfl) h
  | challenge a0 a1 => exact kept_execChallenge (hk.is rfl) h
  | getMeasurements a0 a1 a2 => exact kept_execGetMeasurements (hk.is rfl) h
  | spdmUnsupportedRequest a0 => exact kept_execSpdmUnsupportedRequest (hk.is rfl) h
  | ready a0 a1 a2 => exact kept_execReady (hk.is rfl) h
  | notReady a0 a1 a2 => exact kept_execNotReady (src := a0) (group := a1) (x2 := a2) (hk.is rfl) h
  | goDecision => exact kept_execGoDecision (hk.is rfl) h
  | go a0 a1 a2 => exact kept_execGo (hk.is rfl) h
  | groupAbort a0 a1 => exact kept_execGroupAbort (hk.is rfl) h
  | activationAtT => exact kept_execActivationAtT (hk.is rfl) h
  | trialOk a0 a1 => exact kept_execTrialOk (hk.is rfl) h
  | trialFail a0 a1 a2 => exact kept_execTrialFail (hk.is rfl) h
  | allOk a0 a1 => exact kept_execAllOk (hk.is rfl) h
  | rollback a0 a1 => exact kept_execRollback (hk.is rfl) h
  | query a0 a1 => exact kept_execQuery (hk.is rfl) h
  | queryResend => exact kept_execQueryResend (hk.is rfl) h
  | trialWindowExpires => exact kept_execTrialWindowExpires (hk.is rfl) h
  | flush a0 a1 => exact kept_execFlush (hk.is rfl) h
  | evrRdCtlWrite a0 => exact kept_execEvrRdCtlWrite (hk.is rfl) h
  | latchExpires => exact kept_execLatchExpires (hk.is rfl) h
  | ageingMeasurement a0 a1 a2 => exact kept_execAgeingMeasurement (hk.is rfl) h
  | replanDue => exact kept_execReplanDue (hk.is rfl) h
  | inletBandChange a0 => exact kept_execInletBandChange (hk.is rfl) h
  | uncorrectableCodeword a0 => exact kept_execUncorrectableCodeword (hk.is rfl) h
  | packetCrcFail a0 => exact kept_execPacketCrcFail (hk.is rfl) h
  | pmsgEntryExpires a0 => exact kept_execPmsgEntryExpires (hk.is rfl) h
  | cxlCacheResponse a0 a1 a2 => exact kept_execCxlCacheResponse (hk.is rfl) h
  | cxlLinkDown => exact kept_execCxlLinkDown (hk.is rfl) h

theorem within_exec (c : Instr) (s : State) : ∃ t, exec c s = .next t ∧ Within (partMask (reach c)) s t :=
  kept_exec c (keeps_within _ s) (Within.refl _ s)

end Sys2Proof.Machine
end

