-- ==== Sys2Proof/Laws/Links.lean ====
section
/-! SUPPORT. What the reception of a packet does. -/
namespace Sys2Proof.Machine
open Sys2Proof Safety

theorem kset_kset {α : Type} (m : List (Nat × α)) (k : Nat) (v w : α) : kset (kset m k v) k w = kset m k w := by
  induction m with
  | nil => simp [kset]
  | cons x m ih =>
    obtain ⟨j, u⟩ := x
    by_cases h : j = k
    · simp [kset, h]
    · by_cases h2 : k < j
      · simp [kset, h, h2]
      · simp [kset, h, h2, ih]

theorem lane_setLane (s : State) (n : Nat) (x : Lane) : (s.setLane n x).lane n = x := by
  simp [State.lane, State.setLane]

/-- One lane takes every number. -/
theorem nextOnLane_one (n : Nat) : nextOnLane 1 0 n = n % 2 ^ 24 := by
  simp [nextOnLane, List.range_succ, Nat.mod_one]

/-- The packet whose turn it is goes to its consumer, and a FLOW block tells the far end (R453). -/
theorem State.receive_ok {s : State} {lane c type : Nat} {p : Pkt} (h : Receivable s lane c type p) (note : Nat)
    (consume : Nat → TxPkt → State → State) :
    s.receive lane type p note consume = (consume c ⟨type, p, note⟩ (received s lane c type p)).sendFlow lane c none := by
  obtain ⟨h1, h2, h3, h4, h5, h6, h7, h8, h9⟩ := h
  have hw : (s.lane lane).expect.getD (nextOnLane 1 0 (s.circ c).e) = p.seq := by
    rw [nextOnLane_one, Nat.mod_eq_of_lt h7, h8]
    rcases h6 with h | h <;> rw [h] <;> rfl
  have hd : ¬ (1 ≤ seqDist p.seq (s.circ c).e ∧ seqDist p.seq (s.circ c).e ≤ 2 ^ 22) := by
    rw [h8]
    unfold seqDist
    omega
  have ha : s.arrive lane c type p note = s.setLane lane { s.lane lane with
      buf := [(p.seq, ⟨type, p, note⟩)], expect := some ((p.seq + 1) % 2 ^ 24), nak := false } := by
    unfold State.arrive
    dsimp only
    rw [h4, List.length_singleton, show [lane].idxOf lane = 0 by simp, hw, if_neg hd, if_pos rfl, h9, h5, nextOnLane_one]
    rfl
  have hs : (s.setLane lane { s.lane lane with
      buf := [(p.seq, ⟨type, p, note⟩)], expect := some ((p.seq + 1) % 2 ^ 24), nak := false }).circLanes c = [lane] := h4
  have hc : (s.setLane lane { s.lane lane with
      buf := [(p.seq, ⟨type, p, note⟩)], expect := some ((p.seq + 1) % 2 ^ 24), nak := false }).circ c = s.circ c := rfl
  unfold State.receive
  rw [h1]
  dsimp only
  rw [if_neg (by rw [h2, h3]; decide), ha, hs, List.foldl_cons, List.foldl_nil, lane_setLane]
  rw [show 0 + ([(p.seq, (⟨type, p, note⟩ : TxPkt))] : List (Nat × TxPkt)).length = 1 from rfl]
  congr 1
  unfold State.deliverAll
  dsimp only
  rw [hc, hs, List.length_singleton, Nat.mod_one, List.getD_cons_zero, lane_setLane]
  dsimp only
  rw [show kfind [(p.seq, (⟨type, p, note⟩ : TxPkt))] (s.circ c).e = some ⟨type, p, note⟩ by simp [kfind, h8]]
  dsimp only
  unfold State.deliverAll
  congr 1
  have hb : kdel [(p.seq, (⟨type, p, note⟩ : TxPkt))] (s.circ c).e = (s.lane lane).buf := by simp [kdel, h8, h5]
  rw [hb]
  unfold received State.setLane State.setCirc
  rw [← h8]
  simp only [kset_kset]

end Sys2Proof.Machine
end

