-- ==== Sys2Proof/Laws/Registers.lean ====
section
/-! SUPPORT. Which registers an operation changes: `RegistersKept s t rs` goes through an operation that writes the registers
of `rs`, the recorder's counts and the reset controller's reports alone. -/
namespace Sys2Proof.Machine
open Sys2Proof Safety

/-- A write to a register at another offset. -/
theorem State.rd_wr_off (s : State) (g : Fld) (v j : Nat) (f : Fld) (i : Nat) (h : g.reg.off j ≠ f.reg.off i) :
    (s.wr g v j).rd f i = s.rd f i := State.rd_wreg_ne _ _ _ _ _ _ h

theorem State.rd_ite {c : Prop} [Decidable c] (a b : State) (f : Fld) (i : Nat) :
    (if c then a else b).rd f i = if c then a.rd f i else b.rd f i := by split <;> rfl

theorem registersKept_refl (s : State) (rs : List Reg) : RegistersKept s s rs := fun _ _ _ _ => rfl

/-- An update of any other part. -/
theorem registersKept_other {s t u : State} {rs : List Reg} (h : RegistersKept s t rs) (e : u.regs = t.regs := by rfl) :
    RegistersKept s u rs := fun f i ha hb => by
  rw [← h f i ha hb]
  unfold State.rd State.rreg
  rw [e]

theorem registersKept_ite {s a b : State} {rs : List Reg} {c : Prop} [Decidable c] (ha : RegistersKept s a rs)
    (hb : RegistersKept s b rs) : RegistersKept s (if c then a else b) rs := by split <;> assumption

theorem registersKept_wreg {s t : State} {rs : List Reg} (h : RegistersKept s t rs) {r : Reg} {v : BitVec 64} {i : Nat}
    (hm : r ∈ .EVR_CNT_LOST :: .EVR_CNT_COAL :: rs) : RegistersKept s (t.wreg r v i) rs :=
  fun f j ha hb => (State.rd_wreg_ne _ _ _ _ _ _ (hb r hm i)).trans (h f j ha hb)

theorem registersKept_wr {s t : State} {rs : List Reg} (h : RegistersKept s t rs) {g : Fld} {v i : Nat}
    (hm : g.reg ∈ .EVR_CNT_LOST :: .EVR_CNT_COAL :: rs) : RegistersKept s (t.wr g v i) rs := registersKept_wreg h hm

theorem registersKept_bump {s t : State} {rs : List Reg} (h : RegistersKept s t rs) {g : Fld} {i : Nat}
    (hm : g.reg ∈ .EVR_CNT_LOST :: .EVR_CNT_COAL :: rs) : RegistersKept s (t.bump g i) rs := registersKept_wreg h hm

theorem registersKept_foldl {α : Type} {s t : State} {rs : List Reg} {f : State → α → State} {l : List α}
    (h : RegistersKept s t rs) (hf : ∀ t a, RegistersKept s t rs → RegistersKept s (f t a) rs) :
    RegistersKept s (l.foldl f t) rs := by
  induction l generalizing t with
  | nil => exact h
  | cons a l ih => exact ih (hf _ _ h)

/-- A field that `RegistersKept` speaks of lies apart from the recorder's counts. -/
theorem Fld.plain_of_kept {f : Fld} {i : Nat} (ha : f.reg.off i < 0x800008 ∨ 0x800050 ≤ f.reg.off i)
    (h1 : Reg.off .EVR_CNT_LOST 0 ≠ f.reg.off i) (h2 : Reg.off .EVR_CNT_COAL 0 ≠ f.reg.off i) : f.plain i = true := by
  unfold Fld.plain Fld.notCount Fld.apart
  rw [decide_eq_false (show ¬ F.EVR_CNT_LOST.COUNT.reg.off 0 = f.reg.off i from h1),
    decide_eq_false (show ¬ F.EVR_CNT_COAL.COUNT.reg.off 0 = f.reg.off i from h2)]
  simpa using ha

theorem registersKept_record {s t : State} {rs : List Reg} (h : RegistersKept s t rs) {c v k x : Nat} {p : List Nat}
    {y : Option Nat} {z : Bool} : RegistersKept s (t.record c v k x p y z) rs :=
  fun f i ha hb => (State.rd_record _ _ _ _ _ _ _ _ _ _ (Fld.plain_of_kept ha (hb _ (by simp) 0) (hb _ (by simp) 0))).trans
    (h f i ha hb)

theorem registersKept_note {s t : State} {rs : List Reg} (h : RegistersKept s t rs) {c v k x : Nat} {p : List Nat}
    {y : Option Nat} {z : Bool} : RegistersKept s (t.note c v k x p y z) rs :=
  fun f i ha hb => (State.rd_note _ _ _ _ _ _ _ _ _ _ (Fld.notCount_of_plain (Fld.plain_of_kept ha (hb _ (by simp) 0)
    (hb _ (by simp) 0)))).trans (h f i ha hb)

/-- An operation that reaches no register. -/
theorem registersKept_keeps {m : Nat} {rs : List Reg} (s : State) (hm : m.testBit 1 = false) :
    Keeps (fun t => RegistersKept s t rs) m :=
  fun _ _ w h => registersKept_other h (w.regs.resolve_left (fun e => absurd (e.symm.trans hm) (by decide)))

end Sys2Proof.Machine
end

