-- ==== Sys2Proof/Laws/Signature.lean ====
section
/-! SUPPORT. Byte strings and the numbers they spell, and signatures that verify: the encoded message of a digest, taken as
its own signature under a key of exponent 1, so that a change that needs a signature can be shown to happen. -/
namespace Sys2Proof.Machine
open Sys2Proof

@[simp] theorem leBytes_length (n v : Nat) : (leBytes n v).length = n := by
  induction n generalizing v with
  | zero => rfl
  | succ n ih => simp [leBytes, ih]

@[simp] theorem beBytes_length (n v : Nat) : (beBytes n v).length = n := by simp [beBytes]

/-- Bytes, written as the number they spell, are the bytes again. -/
theorem leBytes_leNat (bs : List (BitVec 8)) : leBytes bs.length (leNat bs) = bs := by
  induction bs with
  | nil => rfl
  | cons b bs ih =>
    have hb := b.isLt
    have h1 : (b.toNat + 256 * leNat bs) / 256 = leNat bs := by omega
    have h2 : BitVec.ofNat 8 (b.toNat + 256 * leNat bs) = b := by
      apply BitVec.eq_of_toNat_eq
      simp only [BitVec.toNat_ofNat]
      omega
    simp only [List.length_cons, leNat, leBytes, h1, h2, ih]

/-- The number that the bytes of `v` spell is `v`, at their count. -/
theorem leNat_leBytes (n v : Nat) : leNat (leBytes n v) = v % 256 ^ n := by
  induction n generalizing v with
  | zero => simp [leBytes, leNat, Nat.mod_one]
  | succ n ih =>
    have e : v % 256 ^ (n + 1) = v % 256 + 256 * (v / 256 % 256 ^ n) := by rw [Nat.pow_succ', Nat.mod_mul]
    simp only [leBytes, leNat, ih, BitVec.toNat_ofNat]
    exact e.symm

/-- Bytes laid out one after another read back where they lie. -/
theorem leAt_first (xs ys : List (BitVec 8)) (n : Nat) (h : xs.length = n) : leAt (xs ++ ys) 0 n = leNat xs := by
  subst h
  simp [leAt]

theorem leAt_later (xs ys : List (BitVec 8)) (o n : Nat) (h : xs.length ≤ o) : leAt (xs ++ ys) o n = leAt ys (o - xs.length) n := by
  unfold leAt
  rw [List.drop_append, List.drop_eq_nil_of_le h, List.nil_append]

theorem leNat_lt (bs : List (BitVec 8)) : leNat bs < 256 ^ bs.length := by
  induction bs with
  | nil => decide
  | cons b bs ih =>
    have hb := b.isLt
    simp only [List.length_cons, leNat, Nat.pow_succ]
    omega

theorem leNat_append (xs : List (BitVec 8)) (x : BitVec 8) : leNat (xs ++ [x]) = leNat xs + 256 ^ xs.length * x.toNat := by
  induction xs with
  | nil => simp [leNat]
  | cons y ys ih =>
    simp only [List.cons_append, leNat, ih, List.length_cons, Nat.pow_succ, Nat.mul_add]
    rw [← Nat.mul_assoc, Nat.mul_comm 256 (256 ^ ys.length), Nat.add_assoc]

theorem beNat_reverse (bs : List (BitVec 8)) : beNat bs = leNat bs.reverse := by
  have h : ∀ (bs : List (BitVec 8)) n,
      bs.foldl (fun (n : Nat) (b : BitVec 8) => 256 * n + b.toNat) n = n * 256 ^ bs.length + leNat bs.reverse := by
    intro bs
    induction bs with
    | nil => intro n; simp [leNat]
    | cons b bs ih =>
      intro n
      rw [List.foldl_cons, ih, List.reverse_cons, leNat_append, List.length_reverse, List.length_cons, Nat.pow_succ,
        Nat.add_mul, Nat.mul_comm (256 ^ bs.length) 256, ← Nat.mul_assoc, Nat.mul_comm n 256,
        Nat.mul_comm (256 ^ bs.length) b.toNat]
      omega
  have := h bs 0
  rwa [Nat.zero_mul, Nat.zero_add] at this

theorem beBytes_beNat (bs : List (BitVec 8)) : beBytes bs.length (beNat bs) = bs := by
  rw [beNat_reverse, beBytes]
  have := leBytes_leNat bs.reverse
  rw [List.length_reverse] at this
  rw [this, List.reverse_reverse]

theorem shaStep_length {ws : List (BitVec 32)} (x : BitVec 32 × BitVec 32) (h : ws.length = 8) : (shaStep ws x).length = 8 := by
  unfold shaStep
  split
  · rfl
  · exact h

theorem shaChain_length {chain : List (BitVec 32)} (blk : List (BitVec 8)) (h : chain.length = 8) :
    (shaChain chain blk).length = 8 := by
  have hf : ∀ (l : List (BitVec 32 × BitVec 32)) (ws : List (BitVec 32)), ws.length = 8 → (l.foldl shaStep ws).length = 8 := by
    intro l
    induction l with
    | nil => exact fun _ hw => hw
    | cons x l ih => exact fun ws hw => ih _ (shaStep_length x hw)
  simp only [shaChain, List.length_zipWith, hf _ _ h, h, Nat.min_self]

theorem shaStart_length : ((shaPrimes.take 8).map (rootFraction 2)).length = 8 := by decide +kernel

@[simp] theorem sha256_length (m : List (BitVec 8)) : (sha256 m).length = 32 := by
  have hf : ∀ (l : List Nat) (f : Nat → List (BitVec 8)) (c : List (BitVec 32)), c.length = 8 →
      (l.foldl (fun c i => shaChain c (f i)) c).length = 8 := by
    intro l f
    induction l with
    | nil => exact fun _ hc => hc
    | cons i l ih => exact fun c hc => ih _ (shaChain_length _ hc)
  have h4 (l : List (BitVec 32)) : (l.flatMap fun w => beBytes 4 w.toNat).length = 4 * l.length := by
    induction l with
    | nil => rfl
    | cons w l ih => simp only [List.flatMap_cons, List.length_append, ih, List.length_cons, beBytes_length]; omega
  simp only [sha256, h4, hf _ _ _ shaStart_length]

@[simp] theorem mgf1_length (seed : List (BitVec 8)) : (mgf1 seed 351).length = 351 := by
  simp [mgf1] <;> decide

/-- A one-bit exponent leaves its base. -/
theorem powMod_one (m n b : Nat) (hm : 1 < m) (hb : b < m) : powMod m (n + 1) b 1 = b := by
  have h0 : ∀ n b, powMod m n b 0 = 1 := by
    intro n
    induction n with
    | zero => intro b; exact Nat.mod_eq_of_lt hm
    | succ n ih => intro b; simp [powMod, ih]
  simp [powMod, h0, Nat.mod_eq_of_lt hb]

/-- The encoded message of a digest under a salt. -/
def pssEm (digest salt : List (BitVec 8)) : List (BitVec 8) :=
  let h := sha256 (leBytes 8 0 ++ digest ++ salt)
  let x := List.zipWith (fun (x y : BitVec 8) => x ^^^ y) (List.replicate 318 0 ++ [1] ++ salt) (mgf1 h 351)
  (x.take 1).map (fun x => x &&& 0x7F) ++ x.drop 1 ++ h ++ [0xBC]

/-- It is a byte below 0x80 and 383 more. -/
theorem pssEm_form (digest salt : List (BitVec 8)) (hs : salt.length = 32) :
    ∃ (x : BitVec 8) (r : List (BitVec 8)), pssEm digest salt = (x &&& 0x7F) :: r ∧ r.length = 383 := by
  unfold pssEm
  generalize hd : List.replicate 318 (0 : BitVec 8) ++ [1] ++ salt = d
  generalize hh : sha256 (leBytes 8 0 ++ digest ++ salt) = h
  have hdl : d.length = 351 := by rw [← hd, List.length_append, List.length_append, List.length_replicate, hs]; rfl
  have hhl : h.length = 32 := by rw [← hh]; exact sha256_length _
  generalize hw : List.zipWith (fun (x y : BitVec 8) => x ^^^ y) d (mgf1 h 351) = w
  have hwl : w.length = 351 := by rw [← hw]; simp [hdl]
  match w with
  | [] => simp at hwl
  | x :: w =>
    refine ⟨x, w ++ h ++ [0xBC], by simp [hw], ?_⟩
    simp only [List.length_cons] at hwl
    simp [hhl]
    omega

theorem pssEm_length (digest salt : List (BitVec 8)) (hs : salt.length = 32) : (pssEm digest salt).length = 384 := by
  obtain ⟨x, r, e, h⟩ := pssEm_form digest salt hs
  rw [e, List.length_cons, h]

theorem pssEm_lt (digest salt : List (BitVec 8)) (hs : salt.length = 32) : beNat (pssEm digest salt) < 256 ^ 383 * 128 := by
  obtain ⟨x, r, e, h⟩ := pssEm_form digest salt hs
  have h1 := leNat_lt r.reverse
  rw [List.length_reverse, h] at h1
  have h2 : (x &&& 0x7F).toNat ≤ 127 := by
    rw [BitVec.toNat_and]
    exact Nat.and_le_right
  rw [e, beNat_reverse, List.reverse_cons, leNat_append, List.length_reverse, h]
  generalize 256 ^ 383 = p at h1 ⊢
  have h3 : p * (x &&& 0x7F).toNat ≤ p * 127 := Nat.mul_le_mul_left p h2
  omega

theorem zipWith_xor_self (a b : List (BitVec 8)) (h : a.length = b.length) :
    List.zipWith (fun (x y : BitVec 8) => x ^^^ y) (List.zipWith (fun (x y : BitVec 8) => x ^^^ y) a b) b = a := by
  induction a generalizing b with
  | nil => simp
  | cons x a ih =>
    cases b with
    | nil => simp at h
    | cons y b =>
      simp only [List.length_cons, Nat.add_right_cancel_iff] at h
      simp [ih b h, BitVec.xor_assoc]

/-- The encoded message verifies. -/
theorem pssVerify_em (digest salt : List (BitVec 8)) (hs : salt.length = 32) : pssVerify digest (pssEm digest salt) = true := by
  obtain ⟨m, ms, hm⟩ : ∃ m ms, mgf1 (sha256 (leBytes 8 0 ++ digest ++ salt)) 351 = m :: ms := by
    match h : mgf1 (sha256 (leBytes 8 0 ++ digest ++ salt)) 351 with
    | [] => have := mgf1_length (sha256 (leBytes 8 0 ++ digest ++ salt)); rw [h] at this; simp at this
    | m :: ms => exact ⟨m, ms, rfl⟩
  have hl : ms.length = 350 := by
    have := mgf1_length (sha256 (leBytes 8 0 ++ digest ++ salt))
    rw [hm] at this
    simpa using this
  obtain ⟨z, hz, hzl, hz0⟩ : ∃ z : List (BitVec 8), List.replicate 318 0 = 0 :: z ∧ z.length = 317 ∧ ∀ x ∈ z, x = 0 :=
    ⟨List.replicate 317 0, rfl, List.length_replicate, fun x hx => List.eq_of_mem_replicate hx⟩
  generalize hh : sha256 (leBytes 8 0 ++ digest ++ salt) = h at hm
  have hh32 : h.length = 32 := by rw [← hh]; exact sha256_length _
  generalize hd : z ++ [1] ++ salt = d
  have hdl : d.length = 350 := by rw [← hd]; simp [hzl, hs]
  generalize hw : List.zipWith (fun (x y : BitVec 8) => x ^^^ y) d ms = w
  have hwl : w.length = 350 := by rw [← hw]; simp [hdl, hl]
  have e : pssEm digest salt = ((m &&& 0x7F) :: w) ++ (h ++ [0xBC]) := by
    unfold pssEm
    simp only [hh, hm, hz, List.cons_append, hd, List.zipWith_cons_cons, hw]
    simp
  have hx : ((m &&& 0x7F) :: w).length = 351 := by simp [hwl]
  have e1 : (pssEm digest salt).take 351 = (m &&& 0x7F) :: w := by rw [e, List.take_left' hx]
  have e2 : ((pssEm digest salt).drop 351).take 32 = h := by rw [e, List.drop_left' hx, List.take_left' hh32]
  have e3 : (pssEm digest salt).getD 383 0 = 0xBC := by
    have hl' : (((m &&& 0x7F) :: w) ++ h).length = 383 := by rw [List.length_append, hx, hh32]
    rw [e, ← List.append_assoc, List.getD_eq_getElem?_getD, List.getElem?_append_right (Nat.le_of_eq hl'), hl']
    rfl
  have h7 : ((m &&& 0x7F) ^^^ m) &&& 0x7F = 0 := by
    apply BitVec.eq_of_getLsbD_eq
    intro i hi
    simp only [BitVec.getLsbD_and, BitVec.getLsbD_xor]
    cases (m.getLsbD i) <;> cases ((0x7F : BitVec 8).getLsbD i) <;> simp
  have h8 : (m &&& 0x7F) &&& 0x80 = 0 := by
    rw [BitVec.and_assoc, show (0x7F : BitVec 8) &&& 0x80 = 0 from by decide]
    simp
  have g1 : (0 :: d).take 318 = 0 :: z := by
    rw [← hd, List.append_assoc, List.take_succ_cons, List.take_left' hzl]
  have g2 : (0 :: d).getD 318 0 = 1 := by
    rw [← hd, List.append_assoc, List.getD_cons_succ, List.getD_eq_getElem?_getD,
      List.getElem?_append_right (Nat.le_of_eq hzl), hzl]
    rfl
  have g3 : (0 :: d).drop 319 = salt := by
    have : (z ++ [1]).length = 318 := by simp [hzl]
    rw [← hd, List.drop_succ_cons, List.drop_left' this]
  have hz' : ∀ x ∈ z, x = 0 := hz0
  have hdb : (((List.zipWith (fun (x y : BitVec 8) => x ^^^ y) ((m &&& 0x7F) :: w) (m :: ms)).take 1).map (fun x => x &&& 0x7F) ++
      (List.zipWith (fun (x y : BitVec 8) => x ^^^ y) ((m &&& 0x7F) :: w) (m :: ms)).drop 1) = 0 :: d := by
    rw [List.zipWith_cons_cons, ← hw, zipWith_xor_self _ _ (hdl.trans hl.symm), List.take_succ_cons, List.take_zero,
      List.map_cons, List.map_nil, h7, List.drop_succ_cons, List.drop_zero]
    rfl
  unfold pssVerify
  simp only [e1, e2, e3, hm, hdb, g1, g2, g3, hh, List.getD_cons_zero, h8]
  simp only [List.all_cons, Bool.and_eq_true, List.all_eq_true, beq_iff_eq, decide_true, and_self, true_and, and_true]
  exact hz'

/-- A key of exponent 1, whose modulus is the largest of 384 bytes. -/
def plainKey : List (BitVec 8) := List.replicate 384 0xFF ++ [0, 0, 0, 1]

/-- Under it, the encoded message is its own signature. -/
theorem rsaVerify_plain (msg salt : List (BitVec 8)) (hs : salt.length = 32) :
    rsaVerify plainKey msg (pssEm (sha256 msg) salt) = true := by
  obtain ⟨m, hm, h1, h2⟩ : ∃ m, keyModulus plainKey = m ∧ 2 ^ 3071 ≤ m ∧ 256 ^ 383 * 128 ≤ m :=
    ⟨_, rfl, by decide +kernel, by decide +kernel⟩
  have he : keyExponent plainKey = 1 := by decide +kernel
  have hl := pssEm_length (sha256 msg) salt hs
  have hlt : beNat (pssEm (sha256 msg) salt) < m := Nat.lt_of_lt_of_le (pssEm_lt _ _ hs) h2
  have h3 : 1 < m := by
    refine Nat.lt_of_lt_of_le ?_ h2
    decide +kernel
  have hb := beBytes_beNat (pssEm (sha256 msg) salt)
  rw [hl] at hb
  unfold rsaVerify
  rw [hm, he]
  dsimp only
  rw [powMod_one _ 31 _ h3 hlt, hb, pssVerify_em _ _ hs, hl]
  simp only [h1, hlt, decide_true, Bool.and_self]

end Sys2Proof.Machine
end

