-- ==== Sys2Proof/Laws/Threads.lean ====
section
/-! SUPPORT. Threads: reading one after an update, what issues, and what an instruction that only changes its thread's
registers leaves. -/
namespace Sys2Proof.Machine
open Sys2Proof Safety

@[simp] theorem State.thread_setThread (s : State) (c k : Nat) (x : Thread) : (s.setThread c k x).thread c k = x := by
  simp [State.thread, State.setThread, State.setCore, State.core, Core.setThread, Core.thread]

theorem State.thread_setThread_ne (s : State) (c k : Nat) (x : Thread) (c' k' : Nat) (h : (c', k') ≠ (c, k)) :
    (s.setThread c k x).thread c' k' = s.thread c' k' := by
  by_cases e : c' = c
  · subst e
    have hk : k ≠ k' := fun h' => h (by rw [h'])
    simp [State.thread, State.setThread, State.setCore, State.core, Core.setThread, Core.thread, kget_kset_ne _ _ _ _ _ hk]
  · have e' : c ≠ c' := fun h' => e h'.symm
    simp [State.thread, State.setThread, State.setCore, State.core, kget_kset_ne _ _ _ _ _ e']

@[simp] theorem State.core_setCore (s : State) (c : Nat) (k : Core) : (s.setCore c k).core c = k := by
  simp [State.core, State.setCore]

@[simp] theorem State.thread_bump (s : State) (f : Fld) (i n c k : Nat) : (s.bump f i n).thread c k = s.thread c k := rfl
@[simp] theorem State.setThread_mem (s : State) (c k : Nat) (x : Thread) : (s.setThread c k x).mem = s.mem := rfl
@[simp] theorem State.setThread_out (s : State) (c k : Nat) (x : Thread) : (s.setThread c k x).out = s.out := rfl
@[simp] theorem State.setThread_evr (s : State) (c k : Nat) (x : Thread) : (s.setThread c k x).evr = s.evr := rfl
@[simp] theorem State.setThread_eng (s : State) (c k : Nat) (x : Thread) : (s.setThread c k x).eng = s.eng := rfl
@[simp] theorem State.setThread_ms (s : State) (c k : Nat) (x : Thread) : (s.setThread c k x).ms = s.ms := rfl
@[simp] theorem State.setThread_regs (s : State) (c k : Nat) (x : Thread) : (s.setThread c k x).regs = s.regs := rfl

/-- An instruction that nothing holds acts in the issued state. -/
theorem State.issue_ok {s : State} {c k : Nat} {n : Needs} (h : Issues s c k n) (run : State → State) :
    s.issue c k n run = run (issued s c k) := by
  obtain ⟨h1, h2, h3, h4, h5⟩ := h
  have m1 : (n.matrix && decide (4 ≤ (s.core c).mq.length)) = false := by
    obtain h | h := h3
    · simp [h]
    · have : ¬ 4 ≤ (s.core c).mq.length := by omega
      simp [this]
  have m2 : (n.memory && decide (32 ≤ (s.core c).queued)) = false := by
    obtain h | h := h4
    · simp [h]
    · have : ¬ 32 ≤ (s.core c).queued := by omega
      simp [this]
  have m4 : (n.entry && !(s.core c).entryFree k) = false := by
    obtain h | h := h5 <;> simp [h]
  unfold State.issue issued
  simp only [h1, Bool.not_true, Bool.false_eq_true, if_false, h2, List.isEmpty_nil, m1, m2, m4]
  rfl

@[simp] theorem State.withParity_none (s : State) (c k : Nat) (run : State → State) : s.withParity c k .none run = run s := rfl

@[simp] theorem State.sramEcc_clean (s : State) (x y z a : Nat) (ctx : Option Nat) (run lost : State → State) :
    s.sramEcc x y z a .clean ctx run lost = run s := rfl

@[simp] theorem State.threadEcc_clean (s : State) (c k x a : Nat) (run : State → State) :
    s.threadEcc c k x a .clean run = run s := rfl

@[simp] theorem issued_thread (s : State) (c k : Nat) :
    (issued s c k).thread c k = { s.thread c k with st := .ready, wait := none } := by simp [issued]

/-- An instruction that only changes its thread's registers retires. -/
theorem retired_retire (s : State) (c k : Nat) (f : Thread → Thread) (hs : ∀ x, (f x).st = x.st)
    (hp : ∀ x, (f x).pc = x.pc) : Retired s ((issued s c k).retireInstr c k f) c k f := by
  have e : (issued s c k).retireInstr c k f =
      ((issued s c k).setThread c k (f ((issued s c k).thread c k))).setThread c k
        { f ((issued s c k).thread c k) with pc := ((s.thread c k).pc + 8) % 2 ^ 64 } := by
    have hst : ¬ ((f ((issued s c k).thread c k)).st = .faulted ∨ (f ((issued s c k).thread c k)).st = .free) := by
      rw [hs]
      simp [issued]
    unfold State.retireInstr State.next
    simp only [State.thread_setThread, if_neg hst, Option.getD_none, hp]
    simp [issued]
  have ht : (issued s c k).thread c k = { s.thread c k with st := .ready, wait := none } := by simp [issued]
  rw [e, ht]
  refine ⟨by simp, ?_, rfl, rfl, rfl, rfl, rfl, rfl⟩
  intro c' k' h
  rw [State.thread_setThread_ne _ _ _ _ _ _ h, State.thread_setThread_ne _ _ _ _ _ _ h]
  unfold issued
  rw [State.thread_bump, State.thread_setThread_ne _ _ _ _ _ _ h]

/-! ### Register writes leave a thread's state and pc -/

@[simp] theorem Thread.setS_st (x : Thread) (n : Nat) (v : BitVec 64) : (x.setS n v).st = x.st := rfl
@[simp] theorem Thread.setS_pc (x : Thread) (n : Nat) (v : BitVec 64) : (x.setS n v).pc = x.pc := rfl
@[simp] theorem Thread.setP_st (x : Thread) (n : Nat) (v : BitVec 64) : (x.setP n v).st = x.st := rfl
@[simp] theorem Thread.setP_pc (x : Thread) (n : Nat) (v : BitVec 64) : (x.setP n v).pc = x.pc := rfl

@[simp] theorem Thread.writeLanes_keeps (x : Thread) (rd pr : Nat) (f : Nat → BitVec 32) :
    (x.writeLanes rd pr f).st = x.st ∧ (x.writeLanes rd pr f).pc = x.pc := by
  unfold Thread.writeLanes
  suffices h : ∀ (l : List Nat) (y : Thread), y.st = x.st ∧ y.pc = x.pc →
      (l.foldl (fun (y : Thread) l => if x.on pr l then y.setV rd l (f l) else y) y).st = x.st ∧
      (l.foldl (fun (y : Thread) l => if x.on pr l then y.setV rd l (f l) else y) y).pc = x.pc from h _ x ⟨rfl, rfl⟩
  intro l
  induction l with
  | nil => exact fun _ h => h
  | cons a l ih =>
    intro y h
    rw [List.foldl_cons]
    apply ih
    split <;> exact h

@[simp] theorem Thread.writePred_keeps (x : Thread) (pd pr : Nat) (f : Nat → Bool) :
    (x.writePred pd pr f).st = x.st ∧ (x.writePred pd pr f).pc = x.pc := ⟨rfl, rfl⟩

@[simp] theorem VectorOp.apply_keeps (op : VectorOp) (x : Thread) : (VectorOp.apply op x).st = x.st ∧ (VectorOp.apply op x).pc = x.pc := by
  cases op <;> simp only [VectorOp.apply, Thread.writeLanes_keeps, Thread.writePred_keeps, and_self]

end Sys2Proof.Machine
end

