-- ==== Sys2Proof/Laws/Updates.lean ====
section
/-! SUPPORT. The updates that act on one part of the state: each leaves every other part as it was, part by part. -/

set_option Elab.async false
namespace Sys2Proof.Machine
open Sys2Proof

@[simp] theorem State.setCore_pending (s : State) (c : Nat) (k : Core) : (s.setCore c k).pending = s.pending := rfl
@[simp] theorem State.setCore_free (s : State) (c : Nat) (k : Core) : (s.setCore c k).free = s.free := rfl
@[simp] theorem State.setCore_regs (s : State) (c : Nat) (k : Core) : (s.setCore c k).regs = s.regs := rfl
@[simp] theorem State.setCore_mem (s : State) (c : Nat) (k : Core) : (s.setCore c k).mem = s.mem := rfl
@[simp] theorem State.setCore_out (s : State) (c : Nat) (k : Core) : (s.setCore c k).out = s.out := rfl
@[simp] theorem State.setCore_evr (s : State) (c : Nat) (k : Core) : (s.setCore c k).evr = s.evr := rfl
@[simp] theorem State.setCore_rst (s : State) (c : Nat) (k : Core) : (s.setCore c k).rst = s.rst := rfl
@[simp] theorem State.setCore_pwr (s : State) (c : Nat) (k : Core) : (s.setCore c k).pwr = s.pwr := rfl
@[simp] theorem State.setCore_blk (s : State) (c : Nat) (k : Core) : (s.setCore c k).blk = s.blk := rfl
@[simp] theorem State.setCore_time (s : State) (c : Nat) (k : Core) : (s.setCore c k).time = s.time := rfl
@[simp] theorem State.setCore_mb (s : State) (c : Nat) (k : Core) : (s.setCore c k).mb = s.mb := rfl
@[simp] theorem State.setCore_chk (s : State) (c : Nat) (k : Core) : (s.setCore c k).chk = s.chk := rfl
@[simp] theorem State.setCore_ms (s : State) (c : Nat) (k : Core) : (s.setCore c k).ms = s.ms := rfl
@[simp] theorem State.setCore_eng (s : State) (c : Nat) (k : Core) : (s.setCore c k).eng = s.eng := rfl
@[simp] theorem State.setCore_lk (s : State) (c : Nat) (k : Core) : (s.setCore c k).lk = s.lk := rfl
@[simp] theorem State.setCore_routes (s : State) (c : Nat) (k : Core) : (s.setCore c k).routes = s.routes := rfl
@[simp] theorem State.setCore_place (s : State) (c : Nat) (k : Core) : (s.setCore c k).place = s.place := rfl
@[simp] theorem State.setCore_path (s : State) (c : Nat) (k : Core) : (s.setCore c k).path = s.path := rfl
@[simp] theorem State.setCore_topo (s : State) (c : Nat) (k : Core) : (s.setCore c k).topo = s.topo := rfl
@[simp] theorem State.setCore_hce (s : State) (c : Nat) (k : Core) : (s.setCore c k).hce = s.hce := rfl
@[simp] theorem State.setCore_peers (s : State) (c : Nat) (k : Core) : (s.setCore c k).peers = s.peers := rfl
@[simp] theorem State.setCore_upd (s : State) (c : Nat) (k : Core) : (s.setCore c k).upd = s.upd := rfl
@[simp] theorem State.setCore_age (s : State) (c : Nat) (k : Core) : (s.setCore c k).age = s.age := rfl

@[simp] theorem State.mapCores_pending (s : State) (f : Nat → Core → Core) : (s.mapCores f).pending = s.pending := rfl
@[simp] theorem State.mapCores_free (s : State) (f : Nat → Core → Core) : (s.mapCores f).free = s.free := rfl
@[simp] theorem State.mapCores_regs (s : State) (f : Nat → Core → Core) : (s.mapCores f).regs = s.regs := rfl
@[simp] theorem State.mapCores_mem (s : State) (f : Nat → Core → Core) : (s.mapCores f).mem = s.mem := rfl
@[simp] theorem State.mapCores_out (s : State) (f : Nat → Core → Core) : (s.mapCores f).out = s.out := rfl
@[simp] theorem State.mapCores_evr (s : State) (f : Nat → Core → Core) : (s.mapCores f).evr = s.evr := rfl
@[simp] theorem State.mapCores_rst (s : State) (f : Nat → Core → Core) : (s.mapCores f).rst = s.rst := rfl
@[simp] theorem State.mapCores_pwr (s : State) (f : Nat → Core → Core) : (s.mapCores f).pwr = s.pwr := rfl
@[simp] theorem State.mapCores_blk (s : State) (f : Nat → Core → Core) : (s.mapCores f).blk = s.blk := rfl
@[simp] theorem State.mapCores_time (s : State) (f : Nat → Core → Core) : (s.mapCores f).time = s.time := rfl
@[simp] theorem State.mapCores_mb (s : State) (f : Nat → Core → Core) : (s.mapCores f).mb = s.mb := rfl
@[simp] theorem State.mapCores_chk (s : State) (f : Nat → Core → Core) : (s.mapCores f).chk = s.chk := rfl
@[simp] theorem State.mapCores_ms (s : State) (f : Nat → Core → Core) : (s.mapCores f).ms = s.ms := rfl
@[simp] theorem State.mapCores_eng (s : State) (f : Nat → Core → Core) : (s.mapCores f).eng = s.eng := rfl
@[simp] theorem State.mapCores_lk (s : State) (f : Nat → Core → Core) : (s.mapCores f).lk = s.lk := rfl
@[simp] theorem State.mapCores_routes (s : State) (f : Nat → Core → Core) : (s.mapCores f).routes = s.routes := rfl
@[simp] theorem State.mapCores_place (s : State) (f : Nat → Core → Core) : (s.mapCores f).place = s.place := rfl
@[simp] theorem State.mapCores_path (s : State) (f : Nat → Core → Core) : (s.mapCores f).path = s.path := rfl
@[simp] theorem State.mapCores_topo (s : State) (f : Nat → Core → Core) : (s.mapCores f).topo = s.topo := rfl
@[simp] theorem State.mapCores_hce (s : State) (f : Nat → Core → Core) : (s.mapCores f).hce = s.hce := rfl
@[simp] theorem State.mapCores_peers (s : State) (f : Nat → Core → Core) : (s.mapCores f).peers = s.peers := rfl
@[simp] theorem State.mapCores_upd (s : State) (f : Nat → Core → Core) : (s.mapCores f).upd = s.upd := rfl
@[simp] theorem State.mapCores_age (s : State) (f : Nat → Core → Core) : (s.mapCores f).age = s.age := rfl

@[simp] theorem State.setQueue_pending (s : State) (i : Nat) (q : Queue) : (s.setQueue i q).pending = s.pending := rfl
@[simp] theorem State.setQueue_free (s : State) (i : Nat) (q : Queue) : (s.setQueue i q).free = s.free := rfl
@[simp] theorem State.setQueue_regs (s : State) (i : Nat) (q : Queue) : (s.setQueue i q).regs = s.regs := rfl
@[simp] theorem State.setQueue_mem (s : State) (i : Nat) (q : Queue) : (s.setQueue i q).mem = s.mem := rfl
@[simp] theorem State.setQueue_out (s : State) (i : Nat) (q : Queue) : (s.setQueue i q).out = s.out := rfl
@[simp] theorem State.setQueue_evr (s : State) (i : Nat) (q : Queue) : (s.setQueue i q).evr = s.evr := rfl
@[simp] theorem State.setQueue_rst (s : State) (i : Nat) (q : Queue) : (s.setQueue i q).rst = s.rst := rfl
@[simp] theorem State.setQueue_pwr (s : State) (i : Nat) (q : Queue) : (s.setQueue i q).pwr = s.pwr := rfl
@[simp] theorem State.setQueue_blk (s : State) (i : Nat) (q : Queue) : (s.setQueue i q).blk = s.blk := rfl
@[simp] theorem State.setQueue_time (s : State) (i : Nat) (q : Queue) : (s.setQueue i q).time = s.time := rfl
@[simp] theorem State.setQueue_mb (s : State) (i : Nat) (q : Queue) : (s.setQueue i q).mb = s.mb := rfl
@[simp] theorem State.setQueue_cores (s : State) (i : Nat) (q : Queue) : (s.setQueue i q).cores = s.cores := rfl
@[simp] theorem State.setQueue_chk (s : State) (i : Nat) (q : Queue) : (s.setQueue i q).chk = s.chk := rfl
@[simp] theorem State.setQueue_ms (s : State) (i : Nat) (q : Queue) : (s.setQueue i q).ms = s.ms := rfl
@[simp] theorem State.setQueue_lk (s : State) (i : Nat) (q : Queue) : (s.setQueue i q).lk = s.lk := rfl
@[simp] theorem State.setQueue_routes (s : State) (i : Nat) (q : Queue) : (s.setQueue i q).routes = s.routes := rfl
@[simp] theorem State.setQueue_place (s : State) (i : Nat) (q : Queue) : (s.setQueue i q).place = s.place := rfl
@[simp] theorem State.setQueue_path (s : State) (i : Nat) (q : Queue) : (s.setQueue i q).path = s.path := rfl
@[simp] theorem State.setQueue_topo (s : State) (i : Nat) (q : Queue) : (s.setQueue i q).topo = s.topo := rfl
@[simp] theorem State.setQueue_hce (s : State) (i : Nat) (q : Queue) : (s.setQueue i q).hce = s.hce := rfl
@[simp] theorem State.setQueue_peers (s : State) (i : Nat) (q : Queue) : (s.setQueue i q).peers = s.peers := rfl
@[simp] theorem State.setQueue_upd (s : State) (i : Nat) (q : Queue) : (s.setQueue i q).upd = s.upd := rfl
@[simp] theorem State.setQueue_age (s : State) (i : Nat) (q : Queue) : (s.setQueue i q).age = s.age := rfl

@[simp] theorem State.setRing_pending (s : State) (n : Nat) (x : RingRun) : (s.setRing n x).pending = s.pending := rfl
@[simp] theorem State.setRing_free (s : State) (n : Nat) (x : RingRun) : (s.setRing n x).free = s.free := rfl
@[simp] theorem State.setRing_regs (s : State) (n : Nat) (x : RingRun) : (s.setRing n x).regs = s.regs := rfl
@[simp] theorem State.setRing_mem (s : State) (n : Nat) (x : RingRun) : (s.setRing n x).mem = s.mem := rfl
@[simp] theorem State.setRing_out (s : State) (n : Nat) (x : RingRun) : (s.setRing n x).out = s.out := rfl
@[simp] theorem State.setRing_evr (s : State) (n : Nat) (x : RingRun) : (s.setRing n x).evr = s.evr := rfl
@[simp] theorem State.setRing_rst (s : State) (n : Nat) (x : RingRun) : (s.setRing n x).rst = s.rst := rfl
@[simp] theorem State.setRing_pwr (s : State) (n : Nat) (x : RingRun) : (s.setRing n x).pwr = s.pwr := rfl
@[simp] theorem State.setRing_blk (s : State) (n : Nat) (x : RingRun) : (s.setRing n x).blk = s.blk := rfl
@[simp] theorem State.setRing_time (s : State) (n : Nat) (x : RingRun) : (s.setRing n x).time = s.time := rfl
@[simp] theorem State.setRing_mb (s : State) (n : Nat) (x : RingRun) : (s.setRing n x).mb = s.mb := rfl
@[simp] theorem State.setRing_cores (s : State) (n : Nat) (x : RingRun) : (s.setRing n x).cores = s.cores := rfl
@[simp] theorem State.setRing_chk (s : State) (n : Nat) (x : RingRun) : (s.setRing n x).chk = s.chk := rfl
@[simp] theorem State.setRing_ms (s : State) (n : Nat) (x : RingRun) : (s.setRing n x).ms = s.ms := rfl
@[simp] theorem State.setRing_lk (s : State) (n : Nat) (x : RingRun) : (s.setRing n x).lk = s.lk := rfl
@[simp] theorem State.setRing_routes (s : State) (n : Nat) (x : RingRun) : (s.setRing n x).routes = s.routes := rfl
@[simp] theorem State.setRing_place (s : State) (n : Nat) (x : RingRun) : (s.setRing n x).place = s.place := rfl
@[simp] theorem State.setRing_path (s : State) (n : Nat) (x : RingRun) : (s.setRing n x).path = s.path := rfl
@[simp] theorem State.setRing_topo (s : State) (n : Nat) (x : RingRun) : (s.setRing n x).topo = s.topo := rfl
@[simp] theorem State.setRing_hce (s : State) (n : Nat) (x : RingRun) : (s.setRing n x).hce = s.hce := rfl
@[simp] theorem State.setRing_peers (s : State) (n : Nat) (x : RingRun) : (s.setRing n x).peers = s.peers := rfl
@[simp] theorem State.setRing_upd (s : State) (n : Nat) (x : RingRun) : (s.setRing n x).upd = s.upd := rfl
@[simp] theorem State.setRing_age (s : State) (n : Nat) (x : RingRun) : (s.setRing n x).age = s.age := rfl

@[simp] theorem State.dropRing_pending (s : State) (n : Nat) : (s.dropRing n).pending = s.pending := rfl
@[simp] theorem State.dropRing_free (s : State) (n : Nat) : (s.dropRing n).free = s.free := rfl
@[simp] theorem State.dropRing_regs (s : State) (n : Nat) : (s.dropRing n).regs = s.regs := rfl
@[simp] theorem State.dropRing_mem (s : State) (n : Nat) : (s.dropRing n).mem = s.mem := rfl
@[simp] theorem State.dropRing_out (s : State) (n : Nat) : (s.dropRing n).out = s.out := rfl
@[simp] theorem State.dropRing_evr (s : State) (n : Nat) : (s.dropRing n).evr = s.evr := rfl
@[simp] theorem State.dropRing_rst (s : State) (n : Nat) : (s.dropRing n).rst = s.rst := rfl
@[simp] theorem State.dropRing_pwr (s : State) (n : Nat) : (s.dropRing n).pwr = s.pwr := rfl
@[simp] theorem State.dropRing_blk (s : State) (n : Nat) : (s.dropRing n).blk = s.blk := rfl
@[simp] theorem State.dropRing_time (s : State) (n : Nat) : (s.dropRing n).time = s.time := rfl
@[simp] theorem State.dropRing_mb (s : State) (n : Nat) : (s.dropRing n).mb = s.mb := rfl
@[simp] theorem State.dropRing_cores (s : State) (n : Nat) : (s.dropRing n).cores = s.cores := rfl
@[simp] theorem State.dropRing_chk (s : State) (n : Nat) : (s.dropRing n).chk = s.chk := rfl
@[simp] theorem State.dropRing_ms (s : State) (n : Nat) : (s.dropRing n).ms = s.ms := rfl
@[simp] theorem State.dropRing_lk (s : State) (n : Nat) : (s.dropRing n).lk = s.lk := rfl
@[simp] theorem State.dropRing_routes (s : State) (n : Nat) : (s.dropRing n).routes = s.routes := rfl
@[simp] theorem State.dropRing_place (s : State) (n : Nat) : (s.dropRing n).place = s.place := rfl
@[simp] theorem State.dropRing_path (s : State) (n : Nat) : (s.dropRing n).path = s.path := rfl
@[simp] theorem State.dropRing_topo (s : State) (n : Nat) : (s.dropRing n).topo = s.topo := rfl
@[simp] theorem State.dropRing_hce (s : State) (n : Nat) : (s.dropRing n).hce = s.hce := rfl
@[simp] theorem State.dropRing_peers (s : State) (n : Nat) : (s.dropRing n).peers = s.peers := rfl
@[simp] theorem State.dropRing_upd (s : State) (n : Nat) : (s.dropRing n).upd = s.upd := rfl
@[simp] theorem State.dropRing_age (s : State) (n : Nat) : (s.dropRing n).age = s.age := rfl

@[simp] theorem State.keepEarly_pending (s : State) (job group node seq step : Nat) : (s.keepEarly job group node seq step).pending = s.pending := rfl
@[simp] theorem State.keepEarly_free (s : State) (job group node seq step : Nat) : (s.keepEarly job group node seq step).free = s.free := rfl
@[simp] theorem State.keepEarly_regs (s : State) (job group node seq step : Nat) : (s.keepEarly job group node seq step).regs = s.regs := rfl
@[simp] theorem State.keepEarly_mem (s : State) (job group node seq step : Nat) : (s.keepEarly job group node seq step).mem = s.mem := rfl
@[simp] theorem State.keepEarly_out (s : State) (job group node seq step : Nat) : (s.keepEarly job group node seq step).out = s.out := rfl
@[simp] theorem State.keepEarly_evr (s : State) (job group node seq step : Nat) : (s.keepEarly job group node seq step).evr = s.evr := rfl
@[simp] theorem State.keepEarly_rst (s : State) (job group node seq step : Nat) : (s.keepEarly job group node seq step).rst = s.rst := rfl
@[simp] theorem State.keepEarly_pwr (s : State) (job group node seq step : Nat) : (s.keepEarly job group node seq step).pwr = s.pwr := rfl
@[simp] theorem State.keepEarly_blk (s : State) (job group node seq step : Nat) : (s.keepEarly job group node seq step).blk = s.blk := rfl
@[simp] theorem State.keepEarly_time (s : State) (job group node seq step : Nat) : (s.keepEarly job group node seq step).time = s.time := rfl
@[simp] theorem State.keepEarly_mb (s : State) (job group node seq step : Nat) : (s.keepEarly job group node seq step).mb = s.mb := rfl
@[simp] theorem State.keepEarly_cores (s : State) (job group node seq step : Nat) : (s.keepEarly job group node seq step).cores = s.cores := rfl
@[simp] theorem State.keepEarly_chk (s : State) (job group node seq step : Nat) : (s.keepEarly job group node seq step).chk = s.chk := rfl
@[simp] theorem State.keepEarly_ms (s : State) (job group node seq step : Nat) : (s.keepEarly job group node seq step).ms = s.ms := rfl
@[simp] theorem State.keepEarly_lk (s : State) (job group node seq step : Nat) : (s.keepEarly job group node seq step).lk = s.lk := rfl
@[simp] theorem State.keepEarly_routes (s : State) (job group node seq step : Nat) : (s.keepEarly job group node seq step).routes = s.routes := rfl
@[simp] theorem State.keepEarly_place (s : State) (job group node seq step : Nat) : (s.keepEarly job group node seq step).place = s.place := rfl
@[simp] theorem State.keepEarly_path (s : State) (job group node seq step : Nat) : (s.keepEarly job group node seq step).path = s.path := rfl
@[simp] theorem State.keepEarly_topo (s : State) (job group node seq step : Nat) : (s.keepEarly job group node seq step).topo = s.topo := rfl
@[simp] theorem State.keepEarly_hce (s : State) (job group node seq step : Nat) : (s.keepEarly job group node seq step).hce = s.hce := rfl
@[simp] theorem State.keepEarly_peers (s : State) (job group node seq step : Nat) : (s.keepEarly job group node seq step).peers = s.peers := rfl
@[simp] theorem State.keepEarly_upd (s : State) (job group node seq step : Nat) : (s.keepEarly job group node seq step).upd = s.upd := rfl
@[simp] theorem State.keepEarly_age (s : State) (job group node seq step : Nat) : (s.keepEarly job group node seq step).age = s.age := rfl

@[simp] theorem State.progressed_pending (s : State) (slot : Nat) : (s.progressed slot).pending = s.pending := rfl
@[simp] theorem State.progressed_free (s : State) (slot : Nat) : (s.progressed slot).free = s.free := rfl
@[simp] theorem State.progressed_regs (s : State) (slot : Nat) : (s.progressed slot).regs = s.regs := rfl
@[simp] theorem State.progressed_mem (s : State) (slot : Nat) : (s.progressed slot).mem = s.mem := rfl
@[simp] theorem State.progressed_out (s : State) (slot : Nat) : (s.progressed slot).out = s.out := rfl
@[simp] theorem State.progressed_evr (s : State) (slot : Nat) : (s.progressed slot).evr = s.evr := rfl
@[simp] theorem State.progressed_rst (s : State) (slot : Nat) : (s.progressed slot).rst = s.rst := rfl
@[simp] theorem State.progressed_pwr (s : State) (slot : Nat) : (s.progressed slot).pwr = s.pwr := rfl
@[simp] theorem State.progressed_blk (s : State) (slot : Nat) : (s.progressed slot).blk = s.blk := rfl
@[simp] theorem State.progressed_time (s : State) (slot : Nat) : (s.progressed slot).time = s.time := rfl
@[simp] theorem State.progressed_mb (s : State) (slot : Nat) : (s.progressed slot).mb = s.mb := rfl
@[simp] theorem State.progressed_cores (s : State) (slot : Nat) : (s.progressed slot).cores = s.cores := rfl
@[simp] theorem State.progressed_chk (s : State) (slot : Nat) : (s.progressed slot).chk = s.chk := rfl
@[simp] theorem State.progressed_ms (s : State) (slot : Nat) : (s.progressed slot).ms = s.ms := rfl
@[simp] theorem State.progressed_lk (s : State) (slot : Nat) : (s.progressed slot).lk = s.lk := rfl
@[simp] theorem State.progressed_routes (s : State) (slot : Nat) : (s.progressed slot).routes = s.routes := rfl
@[simp] theorem State.progressed_place (s : State) (slot : Nat) : (s.progressed slot).place = s.place := rfl
@[simp] theorem State.progressed_path (s : State) (slot : Nat) : (s.progressed slot).path = s.path := rfl
@[simp] theorem State.progressed_topo (s : State) (slot : Nat) : (s.progressed slot).topo = s.topo := rfl
@[simp] theorem State.progressed_hce (s : State) (slot : Nat) : (s.progressed slot).hce = s.hce := rfl
@[simp] theorem State.progressed_peers (s : State) (slot : Nat) : (s.progressed slot).peers = s.peers := rfl
@[simp] theorem State.progressed_upd (s : State) (slot : Nat) : (s.progressed slot).upd = s.upd := rfl
@[simp] theorem State.progressed_age (s : State) (slot : Nat) : (s.progressed slot).age = s.age := rfl

@[simp] theorem State.setHist_pending (s : State) (u : Nat) (h : Hist) : (s.setHist u h).pending = s.pending := rfl
@[simp] theorem State.setHist_free (s : State) (u : Nat) (h : Hist) : (s.setHist u h).free = s.free := rfl
@[simp] theorem State.setHist_regs (s : State) (u : Nat) (h : Hist) : (s.setHist u h).regs = s.regs := rfl
@[simp] theorem State.setHist_mem (s : State) (u : Nat) (h : Hist) : (s.setHist u h).mem = s.mem := rfl
@[simp] theorem State.setHist_out (s : State) (u : Nat) (h : Hist) : (s.setHist u h).out = s.out := rfl
@[simp] theorem State.setHist_evr (s : State) (u : Nat) (h : Hist) : (s.setHist u h).evr = s.evr := rfl
@[simp] theorem State.setHist_rst (s : State) (u : Nat) (h : Hist) : (s.setHist u h).rst = s.rst := rfl
@[simp] theorem State.setHist_pwr (s : State) (u : Nat) (h : Hist) : (s.setHist u h).pwr = s.pwr := rfl
@[simp] theorem State.setHist_blk (s : State) (u : Nat) (h : Hist) : (s.setHist u h).blk = s.blk := rfl
@[simp] theorem State.setHist_time (s : State) (u : Nat) (h : Hist) : (s.setHist u h).time = s.time := rfl
@[simp] theorem State.setHist_mb (s : State) (u : Nat) (h : Hist) : (s.setHist u h).mb = s.mb := rfl
@[simp] theorem State.setHist_cores (s : State) (u : Nat) (h : Hist) : (s.setHist u h).cores = s.cores := rfl
@[simp] theorem State.setHist_ms (s : State) (u : Nat) (h : Hist) : (s.setHist u h).ms = s.ms := rfl
@[simp] theorem State.setHist_eng (s : State) (u : Nat) (h : Hist) : (s.setHist u h).eng = s.eng := rfl
@[simp] theorem State.setHist_lk (s : State) (u : Nat) (h : Hist) : (s.setHist u h).lk = s.lk := rfl
@[simp] theorem State.setHist_routes (s : State) (u : Nat) (h : Hist) : (s.setHist u h).routes = s.routes := rfl
@[simp] theorem State.setHist_place (s : State) (u : Nat) (h : Hist) : (s.setHist u h).place = s.place := rfl
@[simp] theorem State.setHist_path (s : State) (u : Nat) (h : Hist) : (s.setHist u h).path = s.path := rfl
@[simp] theorem State.setHist_topo (s : State) (u : Nat) (h : Hist) : (s.setHist u h).topo = s.topo := rfl
@[simp] theorem State.setHist_hce (s : State) (u : Nat) (h : Hist) : (s.setHist u h).hce = s.hce := rfl
@[simp] theorem State.setHist_peers (s : State) (u : Nat) (h : Hist) : (s.setHist u h).peers = s.peers := rfl
@[simp] theorem State.setHist_upd (s : State) (u : Nat) (h : Hist) : (s.setHist u h).upd = s.upd := rfl
@[simp] theorem State.setHist_age (s : State) (u : Nat) (h : Hist) : (s.setHist u h).age = s.age := rfl

@[simp] theorem State.setRetire_pending (s : State) (c v : Nat) : (s.setRetire c v).pending = s.pending := rfl
@[simp] theorem State.setRetire_free (s : State) (c v : Nat) : (s.setRetire c v).free = s.free := rfl
@[simp] theorem State.setRetire_regs (s : State) (c v : Nat) : (s.setRetire c v).regs = s.regs := rfl
@[simp] theorem State.setRetire_mem (s : State) (c v : Nat) : (s.setRetire c v).mem = s.mem := rfl
@[simp] theorem State.setRetire_out (s : State) (c v : Nat) : (s.setRetire c v).out = s.out := rfl
@[simp] theorem State.setRetire_evr (s : State) (c v : Nat) : (s.setRetire c v).evr = s.evr := rfl
@[simp] theorem State.setRetire_rst (s : State) (c v : Nat) : (s.setRetire c v).rst = s.rst := rfl
@[simp] theorem State.setRetire_pwr (s : State) (c v : Nat) : (s.setRetire c v).pwr = s.pwr := rfl
@[simp] theorem State.setRetire_blk (s : State) (c v : Nat) : (s.setRetire c v).blk = s.blk := rfl
@[simp] theorem State.setRetire_time (s : State) (c v : Nat) : (s.setRetire c v).time = s.time := rfl
@[simp] theorem State.setRetire_mb (s : State) (c v : Nat) : (s.setRetire c v).mb = s.mb := rfl
@[simp] theorem State.setRetire_cores (s : State) (c v : Nat) : (s.setRetire c v).cores = s.cores := rfl
@[simp] theorem State.setRetire_ms (s : State) (c v : Nat) : (s.setRetire c v).ms = s.ms := rfl
@[simp] theorem State.setRetire_eng (s : State) (c v : Nat) : (s.setRetire c v).eng = s.eng := rfl
@[simp] theorem State.setRetire_lk (s : State) (c v : Nat) : (s.setRetire c v).lk = s.lk := rfl
@[simp] theorem State.setRetire_routes (s : State) (c v : Nat) : (s.setRetire c v).routes = s.routes := rfl
@[simp] theorem State.setRetire_place (s : State) (c v : Nat) : (s.setRetire c v).place = s.place := rfl
@[simp] theorem State.setRetire_path (s : State) (c v : Nat) : (s.setRetire c v).path = s.path := rfl
@[simp] theorem State.setRetire_topo (s : State) (c v : Nat) : (s.setRetire c v).topo = s.topo := rfl
@[simp] theorem State.setRetire_hce (s : State) (c v : Nat) : (s.setRetire c v).hce = s.hce := rfl
@[simp] theorem State.setRetire_peers (s : State) (c v : Nat) : (s.setRetire c v).peers = s.peers := rfl
@[simp] theorem State.setRetire_upd (s : State) (c v : Nat) : (s.setRetire c v).upd = s.upd := rfl
@[simp] theorem State.setRetire_age (s : State) (c v : Nat) : (s.setRetire c v).age = s.age := rfl

@[simp] theorem State.setCirc_pending (s : State) (c : Nat) (x : Circ) : (s.setCirc c x).pending = s.pending := rfl
@[simp] theorem State.setCirc_free (s : State) (c : Nat) (x : Circ) : (s.setCirc c x).free = s.free := rfl
@[simp] theorem State.setCirc_regs (s : State) (c : Nat) (x : Circ) : (s.setCirc c x).regs = s.regs := rfl
@[simp] theorem State.setCirc_mem (s : State) (c : Nat) (x : Circ) : (s.setCirc c x).mem = s.mem := rfl
@[simp] theorem State.setCirc_out (s : State) (c : Nat) (x : Circ) : (s.setCirc c x).out = s.out := rfl
@[simp] theorem State.setCirc_evr (s : State) (c : Nat) (x : Circ) : (s.setCirc c x).evr = s.evr := rfl
@[simp] theorem State.setCirc_rst (s : State) (c : Nat) (x : Circ) : (s.setCirc c x).rst = s.rst := rfl
@[simp] theorem State.setCirc_pwr (s : State) (c : Nat) (x : Circ) : (s.setCirc c x).pwr = s.pwr := rfl
@[simp] theorem State.setCirc_blk (s : State) (c : Nat) (x : Circ) : (s.setCirc c x).blk = s.blk := rfl
@[simp] theorem State.setCirc_time (s : State) (c : Nat) (x : Circ) : (s.setCirc c x).time = s.time := rfl
@[simp] theorem State.setCirc_mb (s : State) (c : Nat) (x : Circ) : (s.setCirc c x).mb = s.mb := rfl
@[simp] theorem State.setCirc_cores (s : State) (c : Nat) (x : Circ) : (s.setCirc c x).cores = s.cores := rfl
@[simp] theorem State.setCirc_chk (s : State) (c : Nat) (x : Circ) : (s.setCirc c x).chk = s.chk := rfl
@[simp] theorem State.setCirc_ms (s : State) (c : Nat) (x : Circ) : (s.setCirc c x).ms = s.ms := rfl
@[simp] theorem State.setCirc_eng (s : State) (c : Nat) (x : Circ) : (s.setCirc c x).eng = s.eng := rfl
@[simp] theorem State.setCirc_routes (s : State) (c : Nat) (x : Circ) : (s.setCirc c x).routes = s.routes := rfl
@[simp] theorem State.setCirc_place (s : State) (c : Nat) (x : Circ) : (s.setCirc c x).place = s.place := rfl
@[simp] theorem State.setCirc_path (s : State) (c : Nat) (x : Circ) : (s.setCirc c x).path = s.path := rfl
@[simp] theorem State.setCirc_topo (s : State) (c : Nat) (x : Circ) : (s.setCirc c x).topo = s.topo := rfl
@[simp] theorem State.setCirc_hce (s : State) (c : Nat) (x : Circ) : (s.setCirc c x).hce = s.hce := rfl
@[simp] theorem State.setCirc_peers (s : State) (c : Nat) (x : Circ) : (s.setCirc c x).peers = s.peers := rfl
@[simp] theorem State.setCirc_upd (s : State) (c : Nat) (x : Circ) : (s.setCirc c x).upd = s.upd := rfl
@[simp] theorem State.setCirc_age (s : State) (c : Nat) (x : Circ) : (s.setCirc c x).age = s.age := rfl

@[simp] theorem State.setLane_pending (s : State) (n : Nat) (x : Lane) : (s.setLane n x).pending = s.pending := rfl
@[simp] theorem State.setLane_free (s : State) (n : Nat) (x : Lane) : (s.setLane n x).free = s.free := rfl
@[simp] theorem State.setLane_regs (s : State) (n : Nat) (x : Lane) : (s.setLane n x).regs = s.regs := rfl
@[simp] theorem State.setLane_mem (s : State) (n : Nat) (x : Lane) : (s.setLane n x).mem = s.mem := rfl
@[simp] theorem State.setLane_out (s : State) (n : Nat) (x : Lane) : (s.setLane n x).out = s.out := rfl
@[simp] theorem State.setLane_evr (s : State) (n : Nat) (x : Lane) : (s.setLane n x).evr = s.evr := rfl
@[simp] theorem State.setLane_rst (s : State) (n : Nat) (x : Lane) : (s.setLane n x).rst = s.rst := rfl
@[simp] theorem State.setLane_pwr (s : State) (n : Nat) (x : Lane) : (s.setLane n x).pwr = s.pwr := rfl
@[simp] theorem State.setLane_blk (s : State) (n : Nat) (x : Lane) : (s.setLane n x).blk = s.blk := rfl
@[simp] theorem State.setLane_time (s : State) (n : Nat) (x : Lane) : (s.setLane n x).time = s.time := rfl
@[simp] theorem State.setLane_mb (s : State) (n : Nat) (x : Lane) : (s.setLane n x).mb = s.mb := rfl
@[simp] theorem State.setLane_cores (s : State) (n : Nat) (x : Lane) : (s.setLane n x).cores = s.cores := rfl
@[simp] theorem State.setLane_chk (s : State) (n : Nat) (x : Lane) : (s.setLane n x).chk = s.chk := rfl
@[simp] theorem State.setLane_ms (s : State) (n : Nat) (x : Lane) : (s.setLane n x).ms = s.ms := rfl
@[simp] theorem State.setLane_eng (s : State) (n : Nat) (x : Lane) : (s.setLane n x).eng = s.eng := rfl
@[simp] theorem State.setLane_routes (s : State) (n : Nat) (x : Lane) : (s.setLane n x).routes = s.routes := rfl
@[simp] theorem State.setLane_place (s : State) (n : Nat) (x : Lane) : (s.setLane n x).place = s.place := rfl
@[simp] theorem State.setLane_path (s : State) (n : Nat) (x : Lane) : (s.setLane n x).path = s.path := rfl
@[simp] theorem State.setLane_topo (s : State) (n : Nat) (x : Lane) : (s.setLane n x).topo = s.topo := rfl
@[simp] theorem State.setLane_hce (s : State) (n : Nat) (x : Lane) : (s.setLane n x).hce = s.hce := rfl
@[simp] theorem State.setLane_peers (s : State) (n : Nat) (x : Lane) : (s.setLane n x).peers = s.peers := rfl
@[simp] theorem State.setLane_upd (s : State) (n : Nat) (x : Lane) : (s.setLane n x).upd = s.upd := rfl
@[simp] theorem State.setLane_age (s : State) (n : Nat) (x : Lane) : (s.setLane n x).age = s.age := rfl

@[simp] theorem State.setEnt_pending (s : State) (i : Nat) (e : PathEnt) : (s.setEnt i e).pending = s.pending := rfl
@[simp] theorem State.setEnt_free (s : State) (i : Nat) (e : PathEnt) : (s.setEnt i e).free = s.free := rfl
@[simp] theorem State.setEnt_regs (s : State) (i : Nat) (e : PathEnt) : (s.setEnt i e).regs = s.regs := rfl
@[simp] theorem State.setEnt_mem (s : State) (i : Nat) (e : PathEnt) : (s.setEnt i e).mem = s.mem := rfl
@[simp] theorem State.setEnt_out (s : State) (i : Nat) (e : PathEnt) : (s.setEnt i e).out = s.out := rfl
@[simp] theorem State.setEnt_evr (s : State) (i : Nat) (e : PathEnt) : (s.setEnt i e).evr = s.evr := rfl
@[simp] theorem State.setEnt_rst (s : State) (i : Nat) (e : PathEnt) : (s.setEnt i e).rst = s.rst := rfl
@[simp] theorem State.setEnt_pwr (s : State) (i : Nat) (e : PathEnt) : (s.setEnt i e).pwr = s.pwr := rfl
@[simp] theorem State.setEnt_blk (s : State) (i : Nat) (e : PathEnt) : (s.setEnt i e).blk = s.blk := rfl
@[simp] theorem State.setEnt_time (s : State) (i : Nat) (e : PathEnt) : (s.setEnt i e).time = s.time := rfl
@[simp] theorem State.setEnt_mb (s : State) (i : Nat) (e : PathEnt) : (s.setEnt i e).mb = s.mb := rfl
@[simp] theorem State.setEnt_cores (s : State) (i : Nat) (e : PathEnt) : (s.setEnt i e).cores = s.cores := rfl
@[simp] theorem State.setEnt_chk (s : State) (i : Nat) (e : PathEnt) : (s.setEnt i e).chk = s.chk := rfl
@[simp] theorem State.setEnt_ms (s : State) (i : Nat) (e : PathEnt) : (s.setEnt i e).ms = s.ms := rfl
@[simp] theorem State.setEnt_eng (s : State) (i : Nat) (e : PathEnt) : (s.setEnt i e).eng = s.eng := rfl
@[simp] theorem State.setEnt_lk (s : State) (i : Nat) (e : PathEnt) : (s.setEnt i e).lk = s.lk := rfl
@[simp] theorem State.setEnt_routes (s : State) (i : Nat) (e : PathEnt) : (s.setEnt i e).routes = s.routes := rfl
@[simp] theorem State.setEnt_place (s : State) (i : Nat) (e : PathEnt) : (s.setEnt i e).place = s.place := rfl
@[simp] theorem State.setEnt_topo (s : State) (i : Nat) (e : PathEnt) : (s.setEnt i e).topo = s.topo := rfl
@[simp] theorem State.setEnt_hce (s : State) (i : Nat) (e : PathEnt) : (s.setEnt i e).hce = s.hce := rfl
@[simp] theorem State.setEnt_peers (s : State) (i : Nat) (e : PathEnt) : (s.setEnt i e).peers = s.peers := rfl
@[simp] theorem State.setEnt_upd (s : State) (i : Nat) (e : PathEnt) : (s.setEnt i e).upd = s.upd := rfl
@[simp] theorem State.setEnt_age (s : State) (i : Nat) (e : PathEnt) : (s.setEnt i e).age = s.age := rfl

@[simp] theorem State.dropPaths_pending (s : State) (i : Nat) (sel : PPath → Bool) : (s.dropPaths i sel).pending = s.pending := rfl
@[simp] theorem State.dropPaths_free (s : State) (i : Nat) (sel : PPath → Bool) : (s.dropPaths i sel).free = s.free := rfl
@[simp] theorem State.dropPaths_regs (s : State) (i : Nat) (sel : PPath → Bool) : (s.dropPaths i sel).regs = s.regs := rfl
@[simp] theorem State.dropPaths_mem (s : State) (i : Nat) (sel : PPath → Bool) : (s.dropPaths i sel).mem = s.mem := rfl
@[simp] theorem State.dropPaths_out (s : State) (i : Nat) (sel : PPath → Bool) : (s.dropPaths i sel).out = s.out := rfl
@[simp] theorem State.dropPaths_evr (s : State) (i : Nat) (sel : PPath → Bool) : (s.dropPaths i sel).evr = s.evr := rfl
@[simp] theorem State.dropPaths_rst (s : State) (i : Nat) (sel : PPath → Bool) : (s.dropPaths i sel).rst = s.rst := rfl
@[simp] theorem State.dropPaths_pwr (s : State) (i : Nat) (sel : PPath → Bool) : (s.dropPaths i sel).pwr = s.pwr := rfl
@[simp] theorem State.dropPaths_blk (s : State) (i : Nat) (sel : PPath → Bool) : (s.dropPaths i sel).blk = s.blk := rfl
@[simp] theorem State.dropPaths_time (s : State) (i : Nat) (sel : PPath → Bool) : (s.dropPaths i sel).time = s.time := rfl
@[simp] theorem State.dropPaths_mb (s : State) (i : Nat) (sel : PPath → Bool) : (s.dropPaths i sel).mb = s.mb := rfl
@[simp] theorem State.dropPaths_cores (s : State) (i : Nat) (sel : PPath → Bool) : (s.dropPaths i sel).cores = s.cores := rfl
@[simp] theorem State.dropPaths_chk (s : State) (i : Nat) (sel : PPath → Bool) : (s.dropPaths i sel).chk = s.chk := rfl
@[simp] theorem State.dropPaths_ms (s : State) (i : Nat) (sel : PPath → Bool) : (s.dropPaths i sel).ms = s.ms := rfl
@[simp] theorem State.dropPaths_eng (s : State) (i : Nat) (sel : PPath → Bool) : (s.dropPaths i sel).eng = s.eng := rfl
@[simp] theorem State.dropPaths_lk (s : State) (i : Nat) (sel : PPath → Bool) : (s.dropPaths i sel).lk = s.lk := rfl
@[simp] theorem State.dropPaths_routes (s : State) (i : Nat) (sel : PPath → Bool) : (s.dropPaths i sel).routes = s.routes := rfl
@[simp] theorem State.dropPaths_place (s : State) (i : Nat) (sel : PPath → Bool) : (s.dropPaths i sel).place = s.place := rfl
@[simp] theorem State.dropPaths_topo (s : State) (i : Nat) (sel : PPath → Bool) : (s.dropPaths i sel).topo = s.topo := rfl
@[simp] theorem State.dropPaths_hce (s : State) (i : Nat) (sel : PPath → Bool) : (s.dropPaths i sel).hce = s.hce := rfl
@[simp] theorem State.dropPaths_peers (s : State) (i : Nat) (sel : PPath → Bool) : (s.dropPaths i sel).peers = s.peers := rfl
@[simp] theorem State.dropPaths_upd (s : State) (i : Nat) (sel : PPath → Bool) : (s.dropPaths i sel).upd = s.upd := rfl
@[simp] theorem State.dropPaths_age (s : State) (i : Nat) (sel : PPath → Bool) : (s.dropPaths i sel).age = s.age := rfl

@[simp] theorem State.lightPaths_pending (s : State) (i mask : Nat) (bk : Bool) : (s.lightPaths i mask bk).pending = s.pending := rfl
@[simp] theorem State.lightPaths_free (s : State) (i mask : Nat) (bk : Bool) : (s.lightPaths i mask bk).free = s.free := rfl
@[simp] theorem State.lightPaths_regs (s : State) (i mask : Nat) (bk : Bool) : (s.lightPaths i mask bk).regs = s.regs := rfl
@[simp] theorem State.lightPaths_mem (s : State) (i mask : Nat) (bk : Bool) : (s.lightPaths i mask bk).mem = s.mem := rfl
@[simp] theorem State.lightPaths_out (s : State) (i mask : Nat) (bk : Bool) : (s.lightPaths i mask bk).out = s.out := rfl
@[simp] theorem State.lightPaths_evr (s : State) (i mask : Nat) (bk : Bool) : (s.lightPaths i mask bk).evr = s.evr := rfl
@[simp] theorem State.lightPaths_rst (s : State) (i mask : Nat) (bk : Bool) : (s.lightPaths i mask bk).rst = s.rst := rfl
@[simp] theorem State.lightPaths_pwr (s : State) (i mask : Nat) (bk : Bool) : (s.lightPaths i mask bk).pwr = s.pwr := rfl
@[simp] theorem State.lightPaths_blk (s : State) (i mask : Nat) (bk : Bool) : (s.lightPaths i mask bk).blk = s.blk := rfl
@[simp] theorem State.lightPaths_time (s : State) (i mask : Nat) (bk : Bool) : (s.lightPaths i mask bk).time = s.time := rfl
@[simp] theorem State.lightPaths_mb (s : State) (i mask : Nat) (bk : Bool) : (s.lightPaths i mask bk).mb = s.mb := rfl
@[simp] theorem State.lightPaths_cores (s : State) (i mask : Nat) (bk : Bool) : (s.lightPaths i mask bk).cores = s.cores := rfl
@[simp] theorem State.lightPaths_chk (s : State) (i mask : Nat) (bk : Bool) : (s.lightPaths i mask bk).chk = s.chk := rfl
@[simp] theorem State.lightPaths_ms (s : State) (i mask : Nat) (bk : Bool) : (s.lightPaths i mask bk).ms = s.ms := rfl
@[simp] theorem State.lightPaths_eng (s : State) (i mask : Nat) (bk : Bool) : (s.lightPaths i mask bk).eng = s.eng := rfl
@[simp] theorem State.lightPaths_lk (s : State) (i mask : Nat) (bk : Bool) : (s.lightPaths i mask bk).lk = s.lk := rfl
@[simp] theorem State.lightPaths_routes (s : State) (i mask : Nat) (bk : Bool) : (s.lightPaths i mask bk).routes = s.routes := rfl
@[simp] theorem State.lightPaths_place (s : State) (i mask : Nat) (bk : Bool) : (s.lightPaths i mask bk).place = s.place := rfl
@[simp] theorem State.lightPaths_topo (s : State) (i mask : Nat) (bk : Bool) : (s.lightPaths i mask bk).topo = s.topo := rfl
@[simp] theorem State.lightPaths_hce (s : State) (i mask : Nat) (bk : Bool) : (s.lightPaths i mask bk).hce = s.hce := rfl
@[simp] theorem State.lightPaths_peers (s : State) (i mask : Nat) (bk : Bool) : (s.lightPaths i mask bk).peers = s.peers := rfl
@[simp] theorem State.lightPaths_upd (s : State) (i mask : Nat) (bk : Bool) : (s.lightPaths i mask bk).upd = s.upd := rfl
@[simp] theorem State.lightPaths_age (s : State) (i mask : Nat) (bk : Bool) : (s.lightPaths i mask bk).age = s.age := rfl

@[simp] theorem State.promote_pending (s : State) (i : Nat) : (s.promote i).pending = s.pending := rfl
@[simp] theorem State.promote_free (s : State) (i : Nat) : (s.promote i).free = s.free := rfl
@[simp] theorem State.promote_regs (s : State) (i : Nat) : (s.promote i).regs = s.regs := rfl
@[simp] theorem State.promote_mem (s : State) (i : Nat) : (s.promote i).mem = s.mem := rfl
@[simp] theorem State.promote_out (s : State) (i : Nat) : (s.promote i).out = s.out := rfl
@[simp] theorem State.promote_evr (s : State) (i : Nat) : (s.promote i).evr = s.evr := rfl
@[simp] theorem State.promote_rst (s : State) (i : Nat) : (s.promote i).rst = s.rst := rfl
@[simp] theorem State.promote_pwr (s : State) (i : Nat) : (s.promote i).pwr = s.pwr := rfl
@[simp] theorem State.promote_blk (s : State) (i : Nat) : (s.promote i).blk = s.blk := rfl
@[simp] theorem State.promote_time (s : State) (i : Nat) : (s.promote i).time = s.time := rfl
@[simp] theorem State.promote_mb (s : State) (i : Nat) : (s.promote i).mb = s.mb := rfl
@[simp] theorem State.promote_cores (s : State) (i : Nat) : (s.promote i).cores = s.cores := rfl
@[simp] theorem State.promote_chk (s : State) (i : Nat) : (s.promote i).chk = s.chk := rfl
@[simp] theorem State.promote_ms (s : State) (i : Nat) : (s.promote i).ms = s.ms := rfl
@[simp] theorem State.promote_eng (s : State) (i : Nat) : (s.promote i).eng = s.eng := rfl
@[simp] theorem State.promote_lk (s : State) (i : Nat) : (s.promote i).lk = s.lk := rfl
@[simp] theorem State.promote_routes (s : State) (i : Nat) : (s.promote i).routes = s.routes := rfl
@[simp] theorem State.promote_place (s : State) (i : Nat) : (s.promote i).place = s.place := rfl
@[simp] theorem State.promote_topo (s : State) (i : Nat) : (s.promote i).topo = s.topo := rfl
@[simp] theorem State.promote_hce (s : State) (i : Nat) : (s.promote i).hce = s.hce := rfl
@[simp] theorem State.promote_peers (s : State) (i : Nat) : (s.promote i).peers = s.peers := rfl
@[simp] theorem State.promote_upd (s : State) (i : Nat) : (s.promote i).upd = s.upd := rfl
@[simp] theorem State.promote_age (s : State) (i : Nat) : (s.promote i).age = s.age := rfl

@[simp] theorem State.setPortDisc_pending (s : State) (p : Nat) (x : PortDisc) : (s.setPortDisc p x).pending = s.pending := rfl
@[simp] theorem State.setPortDisc_free (s : State) (p : Nat) (x : PortDisc) : (s.setPortDisc p x).free = s.free := rfl
@[simp] theorem State.setPortDisc_regs (s : State) (p : Nat) (x : PortDisc) : (s.setPortDisc p x).regs = s.regs := rfl
@[simp] theorem State.setPortDisc_mem (s : State) (p : Nat) (x : PortDisc) : (s.setPortDisc p x).mem = s.mem := rfl
@[simp] theorem State.setPortDisc_out (s : State) (p : Nat) (x : PortDisc) : (s.setPortDisc p x).out = s.out := rfl
@[simp] theorem State.setPortDisc_evr (s : State) (p : Nat) (x : PortDisc) : (s.setPortDisc p x).evr = s.evr := rfl
@[simp] theorem State.setPortDisc_rst (s : State) (p : Nat) (x : PortDisc) : (s.setPortDisc p x).rst = s.rst := rfl
@[simp] theorem State.setPortDisc_pwr (s : State) (p : Nat) (x : PortDisc) : (s.setPortDisc p x).pwr = s.pwr := rfl
@[simp] theorem State.setPortDisc_blk (s : State) (p : Nat) (x : PortDisc) : (s.setPortDisc p x).blk = s.blk := rfl
@[simp] theorem State.setPortDisc_time (s : State) (p : Nat) (x : PortDisc) : (s.setPortDisc p x).time = s.time := rfl
@[simp] theorem State.setPortDisc_mb (s : State) (p : Nat) (x : PortDisc) : (s.setPortDisc p x).mb = s.mb := rfl
@[simp] theorem State.setPortDisc_cores (s : State) (p : Nat) (x : PortDisc) : (s.setPortDisc p x).cores = s.cores := rfl
@[simp] theorem State.setPortDisc_chk (s : State) (p : Nat) (x : PortDisc) : (s.setPortDisc p x).chk = s.chk := rfl
@[simp] theorem State.setPortDisc_ms (s : State) (p : Nat) (x : PortDisc) : (s.setPortDisc p x).ms = s.ms := rfl
@[simp] theorem State.setPortDisc_eng (s : State) (p : Nat) (x : PortDisc) : (s.setPortDisc p x).eng = s.eng := rfl
@[simp] theorem State.setPortDisc_lk (s : State) (p : Nat) (x : PortDisc) : (s.setPortDisc p x).lk = s.lk := rfl
@[simp] theorem State.setPortDisc_routes (s : State) (p : Nat) (x : PortDisc) : (s.setPortDisc p x).routes = s.routes := rfl
@[simp] theorem State.setPortDisc_place (s : State) (p : Nat) (x : PortDisc) : (s.setPortDisc p x).place = s.place := rfl
@[simp] theorem State.setPortDisc_path (s : State) (p : Nat) (x : PortDisc) : (s.setPortDisc p x).path = s.path := rfl
@[simp] theorem State.setPortDisc_hce (s : State) (p : Nat) (x : PortDisc) : (s.setPortDisc p x).hce = s.hce := rfl
@[simp] theorem State.setPortDisc_peers (s : State) (p : Nat) (x : PortDisc) : (s.setPortDisc p x).peers = s.peers := rfl
@[simp] theorem State.setPortDisc_upd (s : State) (p : Nat) (x : PortDisc) : (s.setPortDisc p x).upd = s.upd := rfl
@[simp] theorem State.setPortDisc_age (s : State) (p : Nat) (x : PortDisc) : (s.setPortDisc p x).age = s.age := rfl

@[simp] theorem State.setLoop_pending (s : State) (i : Nat) (x : Loop) : (s.setLoop i x).pending = s.pending := rfl
@[simp] theorem State.setLoop_free (s : State) (i : Nat) (x : Loop) : (s.setLoop i x).free = s.free := rfl
@[simp] theorem State.setLoop_regs (s : State) (i : Nat) (x : Loop) : (s.setLoop i x).regs = s.regs := rfl
@[simp] theorem State.setLoop_mem (s : State) (i : Nat) (x : Loop) : (s.setLoop i x).mem = s.mem := rfl
@[simp] theorem State.setLoop_out (s : State) (i : Nat) (x : Loop) : (s.setLoop i x).out = s.out := rfl
@[simp] theorem State.setLoop_evr (s : State) (i : Nat) (x : Loop) : (s.setLoop i x).evr = s.evr := rfl
@[simp] theorem State.setLoop_rst (s : State) (i : Nat) (x : Loop) : (s.setLoop i x).rst = s.rst := rfl
@[simp] theorem State.setLoop_pwr (s : State) (i : Nat) (x : Loop) : (s.setLoop i x).pwr = s.pwr := rfl
@[simp] theorem State.setLoop_blk (s : State) (i : Nat) (x : Loop) : (s.setLoop i x).blk = s.blk := rfl
@[simp] theorem State.setLoop_time (s : State) (i : Nat) (x : Loop) : (s.setLoop i x).time = s.time := rfl
@[simp] theorem State.setLoop_mb (s : State) (i : Nat) (x : Loop) : (s.setLoop i x).mb = s.mb := rfl
@[simp] theorem State.setLoop_cores (s : State) (i : Nat) (x : Loop) : (s.setLoop i x).cores = s.cores := rfl
@[simp] theorem State.setLoop_chk (s : State) (i : Nat) (x : Loop) : (s.setLoop i x).chk = s.chk := rfl
@[simp] theorem State.setLoop_ms (s : State) (i : Nat) (x : Loop) : (s.setLoop i x).ms = s.ms := rfl
@[simp] theorem State.setLoop_eng (s : State) (i : Nat) (x : Loop) : (s.setLoop i x).eng = s.eng := rfl
@[simp] theorem State.setLoop_lk (s : State) (i : Nat) (x : Loop) : (s.setLoop i x).lk = s.lk := rfl
@[simp] theorem State.setLoop_routes (s : State) (i : Nat) (x : Loop) : (s.setLoop i x).routes = s.routes := rfl
@[simp] theorem State.setLoop_place (s : State) (i : Nat) (x : Loop) : (s.setLoop i x).place = s.place := rfl
@[simp] theorem State.setLoop_path (s : State) (i : Nat) (x : Loop) : (s.setLoop i x).path = s.path := rfl
@[simp] theorem State.setLoop_topo (s : State) (i : Nat) (x : Loop) : (s.setLoop i x).topo = s.topo := rfl
@[simp] theorem State.setLoop_peers (s : State) (i : Nat) (x : Loop) : (s.setLoop i x).peers = s.peers := rfl
@[simp] theorem State.setLoop_upd (s : State) (i : Nat) (x : Loop) : (s.setLoop i x).upd = s.upd := rfl
@[simp] theorem State.setLoop_age (s : State) (i : Nat) (x : Loop) : (s.setLoop i x).age = s.age := rfl

@[simp] theorem State.setHceGroup_pending (s : State) (g : Nat) (x : Group) : (s.setHceGroup g x).pending = s.pending := rfl
@[simp] theorem State.setHceGroup_free (s : State) (g : Nat) (x : Group) : (s.setHceGroup g x).free = s.free := rfl
@[simp] theorem State.setHceGroup_regs (s : State) (g : Nat) (x : Group) : (s.setHceGroup g x).regs = s.regs := rfl
@[simp] theorem State.setHceGroup_mem (s : State) (g : Nat) (x : Group) : (s.setHceGroup g x).mem = s.mem := rfl
@[simp] theorem State.setHceGroup_out (s : State) (g : Nat) (x : Group) : (s.setHceGroup g x).out = s.out := rfl
@[simp] theorem State.setHceGroup_evr (s : State) (g : Nat) (x : Group) : (s.setHceGroup g x).evr = s.evr := rfl
@[simp] theorem State.setHceGroup_rst (s : State) (g : Nat) (x : Group) : (s.setHceGroup g x).rst = s.rst := rfl
@[simp] theorem State.setHceGroup_pwr (s : State) (g : Nat) (x : Group) : (s.setHceGroup g x).pwr = s.pwr := rfl
@[simp] theorem State.setHceGroup_blk (s : State) (g : Nat) (x : Group) : (s.setHceGroup g x).blk = s.blk := rfl
@[simp] theorem State.setHceGroup_time (s : State) (g : Nat) (x : Group) : (s.setHceGroup g x).time = s.time := rfl
@[simp] theorem State.setHceGroup_mb (s : State) (g : Nat) (x : Group) : (s.setHceGroup g x).mb = s.mb := rfl
@[simp] theorem State.setHceGroup_cores (s : State) (g : Nat) (x : Group) : (s.setHceGroup g x).cores = s.cores := rfl
@[simp] theorem State.setHceGroup_chk (s : State) (g : Nat) (x : Group) : (s.setHceGroup g x).chk = s.chk := rfl
@[simp] theorem State.setHceGroup_ms (s : State) (g : Nat) (x : Group) : (s.setHceGroup g x).ms = s.ms := rfl
@[simp] theorem State.setHceGroup_eng (s : State) (g : Nat) (x : Group) : (s.setHceGroup g x).eng = s.eng := rfl
@[simp] theorem State.setHceGroup_lk (s : State) (g : Nat) (x : Group) : (s.setHceGroup g x).lk = s.lk := rfl
@[simp] theorem State.setHceGroup_routes (s : State) (g : Nat) (x : Group) : (s.setHceGroup g x).routes = s.routes := rfl
@[simp] theorem State.setHceGroup_place (s : State) (g : Nat) (x : Group) : (s.setHceGroup g x).place = s.place := rfl
@[simp] theorem State.setHceGroup_path (s : State) (g : Nat) (x : Group) : (s.setHceGroup g x).path = s.path := rfl
@[simp] theorem State.setHceGroup_topo (s : State) (g : Nat) (x : Group) : (s.setHceGroup g x).topo = s.topo := rfl
@[simp] theorem State.setHceGroup_peers (s : State) (g : Nat) (x : Group) : (s.setHceGroup g x).peers = s.peers := rfl
@[simp] theorem State.setHceGroup_upd (s : State) (g : Nat) (x : Group) : (s.setHceGroup g x).upd = s.upd := rfl
@[simp] theorem State.setHceGroup_age (s : State) (g : Nat) (x : Group) : (s.setHceGroup g x).age = s.age := rfl

@[simp] theorem State.stepPoint_pending (s : State) (i : Nat) (target lit : Bool) : (s.stepPoint i target lit).pending = s.pending := rfl
@[simp] theorem State.stepPoint_free (s : State) (i : Nat) (target lit : Bool) : (s.stepPoint i target lit).free = s.free := rfl
@[simp] theorem State.stepPoint_regs (s : State) (i : Nat) (target lit : Bool) : (s.stepPoint i target lit).regs = s.regs := rfl
@[simp] theorem State.stepPoint_mem (s : State) (i : Nat) (target lit : Bool) : (s.stepPoint i target lit).mem = s.mem := rfl
@[simp] theorem State.stepPoint_out (s : State) (i : Nat) (target lit : Bool) : (s.stepPoint i target lit).out = s.out := rfl
@[simp] theorem State.stepPoint_evr (s : State) (i : Nat) (target lit : Bool) : (s.stepPoint i target lit).evr = s.evr := rfl
@[simp] theorem State.stepPoint_rst (s : State) (i : Nat) (target lit : Bool) : (s.stepPoint i target lit).rst = s.rst := rfl
@[simp] theorem State.stepPoint_pwr (s : State) (i : Nat) (target lit : Bool) : (s.stepPoint i target lit).pwr = s.pwr := rfl
@[simp] theorem State.stepPoint_blk (s : State) (i : Nat) (target lit : Bool) : (s.stepPoint i target lit).blk = s.blk := rfl
@[simp] theorem State.stepPoint_time (s : State) (i : Nat) (target lit : Bool) : (s.stepPoint i target lit).time = s.time := rfl
@[simp] theorem State.stepPoint_mb (s : State) (i : Nat) (target lit : Bool) : (s.stepPoint i target lit).mb = s.mb := rfl
@[simp] theorem State.stepPoint_cores (s : State) (i : Nat) (target lit : Bool) : (s.stepPoint i target lit).cores = s.cores := rfl
@[simp] theorem State.stepPoint_chk (s : State) (i : Nat) (target lit : Bool) : (s.stepPoint i target lit).chk = s.chk := rfl
@[simp] theorem State.stepPoint_ms (s : State) (i : Nat) (target lit : Bool) : (s.stepPoint i target lit).ms = s.ms := rfl
@[simp] theorem State.stepPoint_eng (s : State) (i : Nat) (target lit : Bool) : (s.stepPoint i target lit).eng = s.eng := rfl
@[simp] theorem State.stepPoint_lk (s : State) (i : Nat) (target lit : Bool) : (s.stepPoint i target lit).lk = s.lk := rfl
@[simp] theorem State.stepPoint_routes (s : State) (i : Nat) (target lit : Bool) : (s.stepPoint i target lit).routes = s.routes := rfl
@[simp] theorem State.stepPoint_place (s : State) (i : Nat) (target lit : Bool) : (s.stepPoint i target lit).place = s.place := rfl
@[simp] theorem State.stepPoint_path (s : State) (i : Nat) (target lit : Bool) : (s.stepPoint i target lit).path = s.path := rfl
@[simp] theorem State.stepPoint_topo (s : State) (i : Nat) (target lit : Bool) : (s.stepPoint i target lit).topo = s.topo := rfl
@[simp] theorem State.stepPoint_peers (s : State) (i : Nat) (target lit : Bool) : (s.stepPoint i target lit).peers = s.peers := rfl
@[simp] theorem State.stepPoint_upd (s : State) (i : Nat) (target lit : Bool) : (s.stepPoint i target lit).upd = s.upd := rfl
@[simp] theorem State.stepPoint_age (s : State) (i : Nat) (target lit : Bool) : (s.stepPoint i target lit).age = s.age := rfl

@[simp] theorem State.checkpoint_pending (s : State) : (s.checkpoint).pending = s.pending := rfl
@[simp] theorem State.checkpoint_free (s : State) : (s.checkpoint).free = s.free := rfl
@[simp] theorem State.checkpoint_regs (s : State) : (s.checkpoint).regs = s.regs := rfl
@[simp] theorem State.checkpoint_mem (s : State) : (s.checkpoint).mem = s.mem := rfl
@[simp] theorem State.checkpoint_out (s : State) : (s.checkpoint).out = s.out := rfl
@[simp] theorem State.checkpoint_rst (s : State) : (s.checkpoint).rst = s.rst := rfl
@[simp] theorem State.checkpoint_pwr (s : State) : (s.checkpoint).pwr = s.pwr := rfl
@[simp] theorem State.checkpoint_blk (s : State) : (s.checkpoint).blk = s.blk := rfl
@[simp] theorem State.checkpoint_time (s : State) : (s.checkpoint).time = s.time := rfl
@[simp] theorem State.checkpoint_mb (s : State) : (s.checkpoint).mb = s.mb := rfl
@[simp] theorem State.checkpoint_cores (s : State) : (s.checkpoint).cores = s.cores := rfl
@[simp] theorem State.checkpoint_chk (s : State) : (s.checkpoint).chk = s.chk := rfl
@[simp] theorem State.checkpoint_ms (s : State) : (s.checkpoint).ms = s.ms := rfl
@[simp] theorem State.checkpoint_eng (s : State) : (s.checkpoint).eng = s.eng := rfl
@[simp] theorem State.checkpoint_lk (s : State) : (s.checkpoint).lk = s.lk := rfl
@[simp] theorem State.checkpoint_routes (s : State) : (s.checkpoint).routes = s.routes := rfl
@[simp] theorem State.checkpoint_place (s : State) : (s.checkpoint).place = s.place := rfl
@[simp] theorem State.checkpoint_path (s : State) : (s.checkpoint).path = s.path := rfl
@[simp] theorem State.checkpoint_topo (s : State) : (s.checkpoint).topo = s.topo := rfl
@[simp] theorem State.checkpoint_hce (s : State) : (s.checkpoint).hce = s.hce := rfl
@[simp] theorem State.checkpoint_peers (s : State) : (s.checkpoint).peers = s.peers := rfl
@[simp] theorem State.checkpoint_upd (s : State) : (s.checkpoint).upd = s.upd := rfl
@[simp] theorem State.checkpoint_age (s : State) : (s.checkpoint).age = s.age := rfl

@[simp] theorem State.setRemoval_pending (s : State) (slot : Nat) (f : Removal → Removal) : (s.setRemoval slot f).pending = s.pending := rfl
@[simp] theorem State.setRemoval_free (s : State) (slot : Nat) (f : Removal → Removal) : (s.setRemoval slot f).free = s.free := rfl
@[simp] theorem State.setRemoval_regs (s : State) (slot : Nat) (f : Removal → Removal) : (s.setRemoval slot f).regs = s.regs := rfl
@[simp] theorem State.setRemoval_mem (s : State) (slot : Nat) (f : Removal → Removal) : (s.setRemoval slot f).mem = s.mem := rfl
@[simp] theorem State.setRemoval_out (s : State) (slot : Nat) (f : Removal → Removal) : (s.setRemoval slot f).out = s.out := rfl
@[simp] theorem State.setRemoval_evr (s : State) (slot : Nat) (f : Removal → Removal) : (s.setRemoval slot f).evr = s.evr := rfl
@[simp] theorem State.setRemoval_pwr (s : State) (slot : Nat) (f : Removal → Removal) : (s.setRemoval slot f).pwr = s.pwr := rfl
@[simp] theorem State.setRemoval_blk (s : State) (slot : Nat) (f : Removal → Removal) : (s.setRemoval slot f).blk = s.blk := rfl
@[simp] theorem State.setRemoval_time (s : State) (slot : Nat) (f : Removal → Removal) : (s.setRemoval slot f).time = s.time := rfl
@[simp] theorem State.setRemoval_mb (s : State) (slot : Nat) (f : Removal → Removal) : (s.setRemoval slot f).mb = s.mb := rfl
@[simp] theorem State.setRemoval_cores (s : State) (slot : Nat) (f : Removal → Removal) : (s.setRemoval slot f).cores = s.cores := rfl
@[simp] theorem State.setRemoval_chk (s : State) (slot : Nat) (f : Removal → Removal) : (s.setRemoval slot f).chk = s.chk := rfl
@[simp] theorem State.setRemoval_ms (s : State) (slot : Nat) (f : Removal → Removal) : (s.setRemoval slot f).ms = s.ms := rfl
@[simp] theorem State.setRemoval_eng (s : State) (slot : Nat) (f : Removal → Removal) : (s.setRemoval slot f).eng = s.eng := rfl
@[simp] theorem State.setRemoval_lk (s : State) (slot : Nat) (f : Removal → Removal) : (s.setRemoval slot f).lk = s.lk := rfl
@[simp] theorem State.setRemoval_routes (s : State) (slot : Nat) (f : Removal → Removal) : (s.setRemoval slot f).routes = s.routes := rfl
@[simp] theorem State.setRemoval_place (s : State) (slot : Nat) (f : Removal → Removal) : (s.setRemoval slot f).place = s.place := rfl
@[simp] theorem State.setRemoval_path (s : State) (slot : Nat) (f : Removal → Removal) : (s.setRemoval slot f).path = s.path := rfl
@[simp] theorem State.setRemoval_topo (s : State) (slot : Nat) (f : Removal → Removal) : (s.setRemoval slot f).topo = s.topo := rfl
@[simp] theorem State.setRemoval_hce (s : State) (slot : Nat) (f : Removal → Removal) : (s.setRemoval slot f).hce = s.hce := rfl
@[simp] theorem State.setRemoval_peers (s : State) (slot : Nat) (f : Removal → Removal) : (s.setRemoval slot f).peers = s.peers := rfl
@[simp] theorem State.setRemoval_upd (s : State) (slot : Nat) (f : Removal → Removal) : (s.setRemoval slot f).upd = s.upd := rfl
@[simp] theorem State.setRemoval_age (s : State) (slot : Nat) (f : Removal → Removal) : (s.setRemoval slot f).age = s.age := rfl

@[simp] theorem State.setImage_pending (s : State) (k : Nat) (x : Image) : (s.setImage k x).pending = s.pending := rfl
@[simp] theorem State.setImage_free (s : State) (k : Nat) (x : Image) : (s.setImage k x).free = s.free := rfl
@[simp] theorem State.setImage_regs (s : State) (k : Nat) (x : Image) : (s.setImage k x).regs = s.regs := rfl
@[simp] theorem State.setImage_mem (s : State) (k : Nat) (x : Image) : (s.setImage k x).mem = s.mem := rfl
@[simp] theorem State.setImage_out (s : State) (k : Nat) (x : Image) : (s.setImage k x).out = s.out := rfl
@[simp] theorem State.setImage_evr (s : State) (k : Nat) (x : Image) : (s.setImage k x).evr = s.evr := rfl
@[simp] theorem State.setImage_rst (s : State) (k : Nat) (x : Image) : (s.setImage k x).rst = s.rst := rfl
@[simp] theorem State.setImage_pwr (s : State) (k : Nat) (x : Image) : (s.setImage k x).pwr = s.pwr := rfl
@[simp] theorem State.setImage_blk (s : State) (k : Nat) (x : Image) : (s.setImage k x).blk = s.blk := rfl
@[simp] theorem State.setImage_time (s : State) (k : Nat) (x : Image) : (s.setImage k x).time = s.time := rfl
@[simp] theorem State.setImage_mb (s : State) (k : Nat) (x : Image) : (s.setImage k x).mb = s.mb := rfl
@[simp] theorem State.setImage_cores (s : State) (k : Nat) (x : Image) : (s.setImage k x).cores = s.cores := rfl
@[simp] theorem State.setImage_chk (s : State) (k : Nat) (x : Image) : (s.setImage k x).chk = s.chk := rfl
@[simp] theorem State.setImage_ms (s : State) (k : Nat) (x : Image) : (s.setImage k x).ms = s.ms := rfl
@[simp] theorem State.setImage_eng (s : State) (k : Nat) (x : Image) : (s.setImage k x).eng = s.eng := rfl
@[simp] theorem State.setImage_lk (s : State) (k : Nat) (x : Image) : (s.setImage k x).lk = s.lk := rfl
@[simp] theorem State.setImage_routes (s : State) (k : Nat) (x : Image) : (s.setImage k x).routes = s.routes := rfl
@[simp] theorem State.setImage_place (s : State) (k : Nat) (x : Image) : (s.setImage k x).place = s.place := rfl
@[simp] theorem State.setImage_path (s : State) (k : Nat) (x : Image) : (s.setImage k x).path = s.path := rfl
@[simp] theorem State.setImage_topo (s : State) (k : Nat) (x : Image) : (s.setImage k x).topo = s.topo := rfl
@[simp] theorem State.setImage_hce (s : State) (k : Nat) (x : Image) : (s.setImage k x).hce = s.hce := rfl
@[simp] theorem State.setImage_peers (s : State) (k : Nat) (x : Image) : (s.setImage k x).peers = s.peers := rfl
@[simp] theorem State.setImage_age (s : State) (k : Nat) (x : Image) : (s.setImage k x).age = s.age := rfl

@[simp] theorem State.setGroup_pending (s : State) (f : ActGroup → ActGroup) : (s.setGroup f).pending = s.pending := rfl
@[simp] theorem State.setGroup_free (s : State) (f : ActGroup → ActGroup) : (s.setGroup f).free = s.free := rfl
@[simp] theorem State.setGroup_regs (s : State) (f : ActGroup → ActGroup) : (s.setGroup f).regs = s.regs := rfl
@[simp] theorem State.setGroup_mem (s : State) (f : ActGroup → ActGroup) : (s.setGroup f).mem = s.mem := rfl
@[simp] theorem State.setGroup_out (s : State) (f : ActGroup → ActGroup) : (s.setGroup f).out = s.out := rfl
@[simp] theorem State.setGroup_evr (s : State) (f : ActGroup → ActGroup) : (s.setGroup f).evr = s.evr := rfl
@[simp] theorem State.setGroup_rst (s : State) (f : ActGroup → ActGroup) : (s.setGroup f).rst = s.rst := rfl
@[simp] theorem State.setGroup_pwr (s : State) (f : ActGroup → ActGroup) : (s.setGroup f).pwr = s.pwr := rfl
@[simp] theorem State.setGroup_blk (s : State) (f : ActGroup → ActGroup) : (s.setGroup f).blk = s.blk := rfl
@[simp] theorem State.setGroup_time (s : State) (f : ActGroup → ActGroup) : (s.setGroup f).time = s.time := rfl
@[simp] theorem State.setGroup_mb (s : State) (f : ActGroup → ActGroup) : (s.setGroup f).mb = s.mb := rfl
@[simp] theorem State.setGroup_cores (s : State) (f : ActGroup → ActGroup) : (s.setGroup f).cores = s.cores := rfl
@[simp] theorem State.setGroup_chk (s : State) (f : ActGroup → ActGroup) : (s.setGroup f).chk = s.chk := rfl
@[simp] theorem State.setGroup_ms (s : State) (f : ActGroup → ActGroup) : (s.setGroup f).ms = s.ms := rfl
@[simp] theorem State.setGroup_eng (s : State) (f : ActGroup → ActGroup) : (s.setGroup f).eng = s.eng := rfl
@[simp] theorem State.setGroup_lk (s : State) (f : ActGroup → ActGroup) : (s.setGroup f).lk = s.lk := rfl
@[simp] theorem State.setGroup_routes (s : State) (f : ActGroup → ActGroup) : (s.setGroup f).routes = s.routes := rfl
@[simp] theorem State.setGroup_place (s : State) (f : ActGroup → ActGroup) : (s.setGroup f).place = s.place := rfl
@[simp] theorem State.setGroup_path (s : State) (f : ActGroup → ActGroup) : (s.setGroup f).path = s.path := rfl
@[simp] theorem State.setGroup_topo (s : State) (f : ActGroup → ActGroup) : (s.setGroup f).topo = s.topo := rfl
@[simp] theorem State.setGroup_hce (s : State) (f : ActGroup → ActGroup) : (s.setGroup f).hce = s.hce := rfl
@[simp] theorem State.setGroup_peers (s : State) (f : ActGroup → ActGroup) : (s.setGroup f).peers = s.peers := rfl
@[simp] theorem State.setGroup_age (s : State) (f : ActGroup → ActGroup) : (s.setGroup f).age = s.age := rfl

@[simp] theorem State.sealRing_pending (s : State) : (s.sealRing).pending = s.pending := rfl
@[simp] theorem State.sealRing_free (s : State) : (s.sealRing).free = s.free := rfl
@[simp] theorem State.sealRing_regs (s : State) : (s.sealRing).regs = s.regs := rfl
@[simp] theorem State.sealRing_mem (s : State) : (s.sealRing).mem = s.mem := rfl
@[simp] theorem State.sealRing_out (s : State) : (s.sealRing).out = s.out := rfl
@[simp] theorem State.sealRing_evr (s : State) : (s.sealRing).evr = s.evr := rfl
@[simp] theorem State.sealRing_rst (s : State) : (s.sealRing).rst = s.rst := rfl
@[simp] theorem State.sealRing_pwr (s : State) : (s.sealRing).pwr = s.pwr := rfl
@[simp] theorem State.sealRing_blk (s : State) : (s.sealRing).blk = s.blk := rfl
@[simp] theorem State.sealRing_time (s : State) : (s.sealRing).time = s.time := rfl
@[simp] theorem State.sealRing_mb (s : State) : (s.sealRing).mb = s.mb := rfl
@[simp] theorem State.sealRing_cores (s : State) : (s.sealRing).cores = s.cores := rfl
@[simp] theorem State.sealRing_chk (s : State) : (s.sealRing).chk = s.chk := rfl
@[simp] theorem State.sealRing_ms (s : State) : (s.sealRing).ms = s.ms := rfl
@[simp] theorem State.sealRing_eng (s : State) : (s.sealRing).eng = s.eng := rfl
@[simp] theorem State.sealRing_lk (s : State) : (s.sealRing).lk = s.lk := rfl
@[simp] theorem State.sealRing_routes (s : State) : (s.sealRing).routes = s.routes := rfl
@[simp] theorem State.sealRing_place (s : State) : (s.sealRing).place = s.place := rfl
@[simp] theorem State.sealRing_path (s : State) : (s.sealRing).path = s.path := rfl
@[simp] theorem State.sealRing_topo (s : State) : (s.sealRing).topo = s.topo := rfl
@[simp] theorem State.sealRing_hce (s : State) : (s.sealRing).hce = s.hce := rfl
@[simp] theorem State.sealRing_peers (s : State) : (s.sealRing).peers = s.peers := rfl
@[simp] theorem State.sealRing_age (s : State) : (s.sealRing).age = s.age := rfl

@[simp] theorem State.answer_pending (s : State) (status : Nat) (detail : Nat) (payload : List (BitVec 8)) : (s.answer status detail payload).pending = s.pending := rfl
@[simp] theorem State.answer_free (s : State) (status : Nat) (detail : Nat) (payload : List (BitVec 8)) : (s.answer status detail payload).free = s.free := rfl
@[simp] theorem State.answer_regs (s : State) (status : Nat) (detail : Nat) (payload : List (BitVec 8)) : (s.answer status detail payload).regs = s.regs := rfl
@[simp] theorem State.answer_mem (s : State) (status : Nat) (detail : Nat) (payload : List (BitVec 8)) : (s.answer status detail payload).mem = s.mem := rfl
@[simp] theorem State.answer_out (s : State) (status : Nat) (detail : Nat) (payload : List (BitVec 8)) : (s.answer status detail payload).out = s.out := rfl
@[simp] theorem State.answer_evr (s : State) (status : Nat) (detail : Nat) (payload : List (BitVec 8)) : (s.answer status detail payload).evr = s.evr := rfl
@[simp] theorem State.answer_rst (s : State) (status : Nat) (detail : Nat) (payload : List (BitVec 8)) : (s.answer status detail payload).rst = s.rst := rfl
@[simp] theorem State.answer_pwr (s : State) (status : Nat) (detail : Nat) (payload : List (BitVec 8)) : (s.answer status detail payload).pwr = s.pwr := rfl
@[simp] theorem State.answer_blk (s : State) (status : Nat) (detail : Nat) (payload : List (BitVec 8)) : (s.answer status detail payload).blk = s.blk := rfl
@[simp] theorem State.answer_time (s : State) (status : Nat) (detail : Nat) (payload : List (BitVec 8)) : (s.answer status detail payload).time = s.time := rfl
@[simp] theorem State.answer_cores (s : State) (status : Nat) (detail : Nat) (payload : List (BitVec 8)) : (s.answer status detail payload).cores = s.cores := rfl
@[simp] theorem State.answer_chk (s : State) (status : Nat) (detail : Nat) (payload : List (BitVec 8)) : (s.answer status detail payload).chk = s.chk := rfl
@[simp] theorem State.answer_ms (s : State) (status : Nat) (detail : Nat) (payload : List (BitVec 8)) : (s.answer status detail payload).ms = s.ms := rfl
@[simp] theorem State.answer_eng (s : State) (status : Nat) (detail : Nat) (payload : List (BitVec 8)) : (s.answer status detail payload).eng = s.eng := rfl
@[simp] theorem State.answer_lk (s : State) (status : Nat) (detail : Nat) (payload : List (BitVec 8)) : (s.answer status detail payload).lk = s.lk := rfl
@[simp] theorem State.answer_routes (s : State) (status : Nat) (detail : Nat) (payload : List (BitVec 8)) : (s.answer status detail payload).routes = s.routes := rfl
@[simp] theorem State.answer_place (s : State) (status : Nat) (detail : Nat) (payload : List (BitVec 8)) : (s.answer status detail payload).place = s.place := rfl
@[simp] theorem State.answer_path (s : State) (status : Nat) (detail : Nat) (payload : List (BitVec 8)) : (s.answer status detail payload).path = s.path := rfl
@[simp] theorem State.answer_topo (s : State) (status : Nat) (detail : Nat) (payload : List (BitVec 8)) : (s.answer status detail payload).topo = s.topo := rfl
@[simp] theorem State.answer_hce (s : State) (status : Nat) (detail : Nat) (payload : List (BitVec 8)) : (s.answer status detail payload).hce = s.hce := rfl
@[simp] theorem State.answer_peers (s : State) (status : Nat) (detail : Nat) (payload : List (BitVec 8)) : (s.answer status detail payload).peers = s.peers := rfl
@[simp] theorem State.answer_upd (s : State) (status : Nat) (detail : Nat) (payload : List (BitVec 8)) : (s.answer status detail payload).upd = s.upd := rfl
@[simp] theorem State.answer_age (s : State) (status : Nat) (detail : Nat) (payload : List (BitVec 8)) : (s.answer status detail payload).age = s.age := rfl

@[simp] theorem State.resetRegs_pending (s : State) (sel : Reg → Nat → Bool) : (s.resetRegs sel).pending = s.pending := rfl
@[simp] theorem State.resetRegs_free (s : State) (sel : Reg → Nat → Bool) : (s.resetRegs sel).free = s.free := rfl
@[simp] theorem State.resetRegs_mem (s : State) (sel : Reg → Nat → Bool) : (s.resetRegs sel).mem = s.mem := rfl
@[simp] theorem State.resetRegs_out (s : State) (sel : Reg → Nat → Bool) : (s.resetRegs sel).out = s.out := rfl
@[simp] theorem State.resetRegs_evr (s : State) (sel : Reg → Nat → Bool) : (s.resetRegs sel).evr = s.evr := rfl
@[simp] theorem State.resetRegs_rst (s : State) (sel : Reg → Nat → Bool) : (s.resetRegs sel).rst = s.rst := rfl
@[simp] theorem State.resetRegs_pwr (s : State) (sel : Reg → Nat → Bool) : (s.resetRegs sel).pwr = s.pwr := rfl
@[simp] theorem State.resetRegs_blk (s : State) (sel : Reg → Nat → Bool) : (s.resetRegs sel).blk = s.blk := rfl
@[simp] theorem State.resetRegs_time (s : State) (sel : Reg → Nat → Bool) : (s.resetRegs sel).time = s.time := rfl
@[simp] theorem State.resetRegs_mb (s : State) (sel : Reg → Nat → Bool) : (s.resetRegs sel).mb = s.mb := rfl
@[simp] theorem State.resetRegs_cores (s : State) (sel : Reg → Nat → Bool) : (s.resetRegs sel).cores = s.cores := rfl
@[simp] theorem State.resetRegs_chk (s : State) (sel : Reg → Nat → Bool) : (s.resetRegs sel).chk = s.chk := rfl
@[simp] theorem State.resetRegs_ms (s : State) (sel : Reg → Nat → Bool) : (s.resetRegs sel).ms = s.ms := rfl
@[simp] theorem State.resetRegs_eng (s : State) (sel : Reg → Nat → Bool) : (s.resetRegs sel).eng = s.eng := rfl
@[simp] theorem State.resetRegs_lk (s : State) (sel : Reg → Nat → Bool) : (s.resetRegs sel).lk = s.lk := rfl
@[simp] theorem State.resetRegs_routes (s : State) (sel : Reg → Nat → Bool) : (s.resetRegs sel).routes = s.routes := rfl
@[simp] theorem State.resetRegs_place (s : State) (sel : Reg → Nat → Bool) : (s.resetRegs sel).place = s.place := rfl
@[simp] theorem State.resetRegs_path (s : State) (sel : Reg → Nat → Bool) : (s.resetRegs sel).path = s.path := rfl
@[simp] theorem State.resetRegs_topo (s : State) (sel : Reg → Nat → Bool) : (s.resetRegs sel).topo = s.topo := rfl
@[simp] theorem State.resetRegs_hce (s : State) (sel : Reg → Nat → Bool) : (s.resetRegs sel).hce = s.hce := rfl
@[simp] theorem State.resetRegs_peers (s : State) (sel : Reg → Nat → Bool) : (s.resetRegs sel).peers = s.peers := rfl
@[simp] theorem State.resetRegs_upd (s : State) (sel : Reg → Nat → Bool) : (s.resetRegs sel).upd = s.upd := rfl
@[simp] theorem State.resetRegs_age (s : State) (sel : Reg → Nat → Bool) : (s.resetRegs sel).age = s.age := rfl

@[simp] theorem State.firmwareDown_pending (s : State) : (s.firmwareDown).pending = s.pending := rfl
@[simp] theorem State.firmwareDown_free (s : State) : (s.firmwareDown).free = s.free := rfl
@[simp] theorem State.firmwareDown_mem (s : State) : (s.firmwareDown).mem = s.mem := rfl
@[simp] theorem State.firmwareDown_out (s : State) : (s.firmwareDown).out = s.out := rfl
@[simp] theorem State.firmwareDown_evr (s : State) : (s.firmwareDown).evr = s.evr := rfl
@[simp] theorem State.firmwareDown_blk (s : State) : (s.firmwareDown).blk = s.blk := rfl
@[simp] theorem State.firmwareDown_time (s : State) : (s.firmwareDown).time = s.time := rfl
@[simp] theorem State.firmwareDown_cores (s : State) : (s.firmwareDown).cores = s.cores := rfl
@[simp] theorem State.firmwareDown_chk (s : State) : (s.firmwareDown).chk = s.chk := rfl
@[simp] theorem State.firmwareDown_ms (s : State) : (s.firmwareDown).ms = s.ms := rfl
@[simp] theorem State.firmwareDown_eng (s : State) : (s.firmwareDown).eng = s.eng := rfl
@[simp] theorem State.firmwareDown_lk (s : State) : (s.firmwareDown).lk = s.lk := rfl
@[simp] theorem State.firmwareDown_routes (s : State) : (s.firmwareDown).routes = s.routes := rfl
@[simp] theorem State.firmwareDown_place (s : State) : (s.firmwareDown).place = s.place := rfl
@[simp] theorem State.firmwareDown_path (s : State) : (s.firmwareDown).path = s.path := rfl
@[simp] theorem State.firmwareDown_topo (s : State) : (s.firmwareDown).topo = s.topo := rfl
@[simp] theorem State.firmwareDown_hce (s : State) : (s.firmwareDown).hce = s.hce := rfl
@[simp] theorem State.firmwareDown_peers (s : State) : (s.firmwareDown).peers = s.peers := rfl
@[simp] theorem State.firmwareDown_upd (s : State) : (s.firmwareDown).upd = s.upd := rfl
@[simp] theorem State.firmwareDown_age (s : State) : (s.firmwareDown).age = s.age := rfl

@[simp] theorem State.deriveKeys_pending (s : State) (pufOk : Bool) : (s.deriveKeys pufOk).pending = s.pending := rfl
@[simp] theorem State.deriveKeys_free (s : State) (pufOk : Bool) : (s.deriveKeys pufOk).free = s.free := rfl
@[simp] theorem State.deriveKeys_regs (s : State) (pufOk : Bool) : (s.deriveKeys pufOk).regs = s.regs := rfl
@[simp] theorem State.deriveKeys_mem (s : State) (pufOk : Bool) : (s.deriveKeys pufOk).mem = s.mem := rfl
@[simp] theorem State.deriveKeys_out (s : State) (pufOk : Bool) : (s.deriveKeys pufOk).out = s.out := rfl
@[simp] theorem State.deriveKeys_evr (s : State) (pufOk : Bool) : (s.deriveKeys pufOk).evr = s.evr := rfl
@[simp] theorem State.deriveKeys_rst (s : State) (pufOk : Bool) : (s.deriveKeys pufOk).rst = s.rst := rfl
@[simp] theorem State.deriveKeys_pwr (s : State) (pufOk : Bool) : (s.deriveKeys pufOk).pwr = s.pwr := rfl
@[simp] theorem State.deriveKeys_blk (s : State) (pufOk : Bool) : (s.deriveKeys pufOk).blk = s.blk := rfl
@[simp] theorem State.deriveKeys_time (s : State) (pufOk : Bool) : (s.deriveKeys pufOk).time = s.time := rfl
@[simp] theorem State.deriveKeys_mb (s : State) (pufOk : Bool) : (s.deriveKeys pufOk).mb = s.mb := rfl
@[simp] theorem State.deriveKeys_cores (s : State) (pufOk : Bool) : (s.deriveKeys pufOk).cores = s.cores := rfl
@[simp] theorem State.deriveKeys_chk (s : State) (pufOk : Bool) : (s.deriveKeys pufOk).chk = s.chk := rfl
@[simp] theorem State.deriveKeys_ms (s : State) (pufOk : Bool) : (s.deriveKeys pufOk).ms = s.ms := rfl
@[simp] theorem State.deriveKeys_eng (s : State) (pufOk : Bool) : (s.deriveKeys pufOk).eng = s.eng := rfl
@[simp] theorem State.deriveKeys_lk (s : State) (pufOk : Bool) : (s.deriveKeys pufOk).lk = s.lk := rfl
@[simp] theorem State.deriveKeys_routes (s : State) (pufOk : Bool) : (s.deriveKeys pufOk).routes = s.routes := rfl
@[simp] theorem State.deriveKeys_place (s : State) (pufOk : Bool) : (s.deriveKeys pufOk).place = s.place := rfl
@[simp] theorem State.deriveKeys_path (s : State) (pufOk : Bool) : (s.deriveKeys pufOk).path = s.path := rfl
@[simp] theorem State.deriveKeys_topo (s : State) (pufOk : Bool) : (s.deriveKeys pufOk).topo = s.topo := rfl
@[simp] theorem State.deriveKeys_hce (s : State) (pufOk : Bool) : (s.deriveKeys pufOk).hce = s.hce := rfl
@[simp] theorem State.deriveKeys_peers (s : State) (pufOk : Bool) : (s.deriveKeys pufOk).peers = s.peers := rfl
@[simp] theorem State.deriveKeys_age (s : State) (pufOk : Bool) : (s.deriveKeys pufOk).age = s.age := rfl

/-! ### A core's two indexed parts -/

@[simp] theorem Core.setThread_sb (k : Core) (t : Nat) (th : Thread) : (k.setThread t th).sb = k.sb := rfl
@[simp] theorem Core.setThread_nextTag (k : Core) (t : Nat) (th : Thread) : (k.setThread t th).nextTag = k.nextTag := rfl
@[simp] theorem Core.setThread_mq (k : Core) (t : Nat) (th : Thread) : (k.setThread t th).mq = k.mq := rfl
@[simp] theorem Core.setThread_memq (k : Core) (t : Nat) (th : Thread) : (k.setThread t th).memq = k.memq := rfl
@[simp] theorem Core.setThread_bars (k : Core) (t : Nat) (th : Thread) : (k.setThread t th).bars = k.bars := rfl
@[simp] theorem Core.setThread_banks (k : Core) (t : Nat) (th : Thread) : (k.setThread t th).banks = k.banks := rfl
@[simp] theorem Core.setThread_retain (k : Core) (t : Nat) (th : Thread) : (k.setThread t th).retain = k.retain := rfl
@[simp] theorem Core.setThread_acc (k : Core) (t : Nat) (th : Thread) : (k.setThread t th).acc = k.acc := rfl
@[simp] theorem Core.setThread_tile (k : Core) (t : Nat) (th : Thread) : (k.setThread t th).tile = k.tile := rfl
@[simp] theorem Core.setThread_arbFor (k : Core) (t : Nat) (th : Thread) : (k.setThread t th).arbFor = k.arbFor := rfl
@[simp] theorem Core.setThread_pausing (k : Core) (t : Nat) (th : Thread) : (k.setThread t th).pausing = k.pausing := rfl
@[simp] theorem Core.setThread_gate (k : Core) (t : Nat) (th : Thread) : (k.setThread t th).gate = k.gate := rfl
@[simp] theorem Core.setThread_entering (k : Core) (t : Nat) (th : Thread) : (k.setThread t th).entering = k.entering := rfl
@[simp] theorem Core.setThread_zeroing (k : Core) (t : Nat) (th : Thread) : (k.setThread t th).zeroing = k.zeroing := rfl
@[simp] theorem Core.setThread_lastCtx (k : Core) (t : Nat) (th : Thread) : (k.setThread t th).lastCtx = k.lastCtx := rfl
@[simp] theorem Core.setThread_reserved (k : Core) (t : Nat) (th : Thread) : (k.setThread t th).reserved = k.reserved := rfl
@[simp] theorem Core.setThread_waiting (k : Core) (t : Nat) (th : Thread) : (k.setThread t th).waiting = k.waiting := rfl
@[simp] theorem Core.setThread_rcache (k : Core) (t : Nat) (th : Thread) : (k.setThread t th).rcache = k.rcache := rfl
@[simp] theorem Core.setThread_testAt (k : Core) (t : Nat) (th : Thread) : (k.setThread t th).testAt = k.testAt := rfl
@[simp] theorem Core.setThread_testPer (k : Core) (t : Nat) (th : Thread) : (k.setThread t th).testPer = k.testPer := rfl
@[simp] theorem Core.setThread_mustTest (k : Core) (t : Nat) (th : Thread) : (k.setThread t th).mustTest = k.mustTest := rfl

@[simp] theorem Core.setBank_threads (k : Core) (b : Nat) (x : Bank) : (k.setBank b x).threads = k.threads := rfl
@[simp] theorem Core.setBank_sb (k : Core) (b : Nat) (x : Bank) : (k.setBank b x).sb = k.sb := rfl
@[simp] theorem Core.setBank_nextTag (k : Core) (b : Nat) (x : Bank) : (k.setBank b x).nextTag = k.nextTag := rfl
@[simp] theorem Core.setBank_mq (k : Core) (b : Nat) (x : Bank) : (k.setBank b x).mq = k.mq := rfl
@[simp] theorem Core.setBank_memq (k : Core) (b : Nat) (x : Bank) : (k.setBank b x).memq = k.memq := rfl
@[simp] theorem Core.setBank_bars (k : Core) (b : Nat) (x : Bank) : (k.setBank b x).bars = k.bars := rfl
@[simp] theorem Core.setBank_retain (k : Core) (b : Nat) (x : Bank) : (k.setBank b x).retain = k.retain := rfl
@[simp] theorem Core.setBank_acc (k : Core) (b : Nat) (x : Bank) : (k.setBank b x).acc = k.acc := rfl
@[simp] theorem Core.setBank_tile (k : Core) (b : Nat) (x : Bank) : (k.setBank b x).tile = k.tile := rfl
@[simp] theorem Core.setBank_arbFor (k : Core) (b : Nat) (x : Bank) : (k.setBank b x).arbFor = k.arbFor := rfl
@[simp] theorem Core.setBank_pausing (k : Core) (b : Nat) (x : Bank) : (k.setBank b x).pausing = k.pausing := rfl
@[simp] theorem Core.setBank_gate (k : Core) (b : Nat) (x : Bank) : (k.setBank b x).gate = k.gate := rfl
@[simp] theorem Core.setBank_entering (k : Core) (b : Nat) (x : Bank) : (k.setBank b x).entering = k.entering := rfl
@[simp] theorem Core.setBank_zeroing (k : Core) (b : Nat) (x : Bank) : (k.setBank b x).zeroing = k.zeroing := rfl
@[simp] theorem Core.setBank_lastCtx (k : Core) (b : Nat) (x : Bank) : (k.setBank b x).lastCtx = k.lastCtx := rfl
@[simp] theorem Core.setBank_reserved (k : Core) (b : Nat) (x : Bank) : (k.setBank b x).reserved = k.reserved := rfl
@[simp] theorem Core.setBank_waiting (k : Core) (b : Nat) (x : Bank) : (k.setBank b x).waiting = k.waiting := rfl
@[simp] theorem Core.setBank_rcache (k : Core) (b : Nat) (x : Bank) : (k.setBank b x).rcache = k.rcache := rfl
@[simp] theorem Core.setBank_testAt (k : Core) (b : Nat) (x : Bank) : (k.setBank b x).testAt = k.testAt := rfl
@[simp] theorem Core.setBank_testPer (k : Core) (b : Nat) (x : Bank) : (k.setBank b x).testPer = k.testPer := rfl
@[simp] theorem Core.setBank_mustTest (k : Core) (b : Nat) (x : Bank) : (k.setBank b x).mustTest = k.mustTest := rfl

/-! ### What was written is read back -/

theorem State.core_setCore_ne (s : State) (i j : Nat) (x : Core) (h : i ≠ j) : (s.setCore i x).core j = s.core j := by
  simp [State.core, State.setCore, kget_kset_ne _ _ _ _ _ h]
@[simp] theorem State.queue_setQueue (s : State) (i : Nat) (x : Queue) : (s.setQueue i x).queue i = x := by
  simp [State.queue, State.setQueue]
theorem State.queue_setQueue_ne (s : State) (i j : Nat) (x : Queue) (h : i ≠ j) : (s.setQueue i x).queue j = s.queue j := by
  simp [State.queue, State.setQueue, kget_kset_ne _ _ _ _ _ h]
@[simp] theorem State.circ_setCirc (s : State) (i : Nat) (x : Circ) : (s.setCirc i x).circ i = x := by
  simp [State.circ, State.setCirc]
theorem State.circ_setCirc_ne (s : State) (i j : Nat) (x : Circ) (h : i ≠ j) : (s.setCirc i x).circ j = s.circ j := by
  simp [State.circ, State.setCirc, kget_kset_ne _ _ _ _ _ h]
@[simp] theorem State.lane_setLane (s : State) (i : Nat) (x : Lane) : (s.setLane i x).lane i = x := by
  simp [State.lane, State.setLane]
theorem State.lane_setLane_ne (s : State) (i j : Nat) (x : Lane) (h : i ≠ j) : (s.setLane i x).lane j = s.lane j := by
  simp [State.lane, State.setLane, kget_kset_ne _ _ _ _ _ h]
@[simp] theorem State.ent_setEnt (s : State) (i : Nat) (x : PathEnt) : (s.setEnt i x).ent i = x := by
  simp [State.ent, State.setEnt]
theorem State.ent_setEnt_ne (s : State) (i j : Nat) (x : PathEnt) (h : i ≠ j) : (s.setEnt i x).ent j = s.ent j := by
  simp [State.ent, State.setEnt, kget_kset_ne _ _ _ _ _ h]
@[simp] theorem State.hist_setHist (s : State) (i : Nat) (x : Hist) : (s.setHist i x).hist i = x := by
  simp [State.hist, State.setHist]
theorem State.hist_setHist_ne (s : State) (i j : Nat) (x : Hist) (h : i ≠ j) : (s.setHist i x).hist j = s.hist j := by
  simp [State.hist, State.setHist, kget_kset_ne _ _ _ _ _ h]
@[simp] theorem State.portDisc_setPortDisc (s : State) (i : Nat) (x : PortDisc) : (s.setPortDisc i x).portDisc i = x := by
  simp [State.portDisc, State.setPortDisc]
theorem State.portDisc_setPortDisc_ne (s : State) (i j : Nat) (x : PortDisc) (h : i ≠ j) : (s.setPortDisc i x).portDisc j = s.portDisc j := by
  simp [State.portDisc, State.setPortDisc, kget_kset_ne _ _ _ _ _ h]
@[simp] theorem Core.thread_setThread (s : Core) (i : Nat) (x : Thread) : (s.setThread i x).thread i = x := by
  simp [Core.thread, Core.setThread]
theorem Core.thread_setThread_ne (s : Core) (i j : Nat) (x : Thread) (h : i ≠ j) : (s.setThread i x).thread j = s.thread j := by
  simp [Core.thread, Core.setThread, kget_kset_ne _ _ _ _ _ h]
@[simp] theorem Core.bank_setBank (s : Core) (i : Nat) (x : Bank) : (s.setBank i x).bank i = x := by
  simp [Core.bank, Core.setBank]
theorem Core.bank_setBank_ne (s : Core) (i j : Nat) (x : Bank) (h : i ≠ j) : (s.setBank i x).bank j = s.bank j := by
  simp [Core.bank, Core.setBank, kget_kset_ne _ _ _ _ _ h]
@[simp] theorem State.ring_setRing (s : State) (i : Nat) (x : RingRun) : (s.setRing i x).ring i = some x := by
  simp [State.ring, State.setRing, kfind_kset_same]
@[simp] theorem State.loop_setLoop (s : State) (i : Nat) (x : Loop) : (s.setLoop i x).loop i = x := by
  simp [State.loop, State.setLoop, kfind_kset_same]

end Sys2Proof.Machine
end

