-- ==== Sys2Proof/WellFormed.lean ====
section
/-! DEFINITION. Well-formed commands: every operand lies in the range that the spec's tables give its field (core,
thread, quarter, lane, port, slot, queue, circuit and loop numbers; register numbers; the field widths of packets and
messages). What a command measures or reports without such a field (a temperature, a count of symbols) is not bounded. The meanings
are total and do not depend on this check. -/

namespace Sys2Proof

/-- A core of 288 (Chapter 3). -/
def okCore (n : Nat) : Bool := decide (n < 288)

/-- A thread slot of 64 (Chapter 3). -/
def okThread (n : Nat) : Bool := decide (n < 64)

/-- A compute quarter of 4. -/
def okQuarter (n : Nat) : Bool := decide (n < 4)

/-- A partition of 4. -/
def okPart (n : Nat) : Bool := decide (n < 4)

/-- A MAC lane of 204: 180 data wavelengths and 24 wavelength-0 channels (R434). -/
def okLane (n : Nat) : Bool := decide (n < 204)

/-- A port of 24. -/
def okPort (n : Nat) : Bool := decide (n < 24)

/-- A loop of 3,148 (R562). -/
def okLoop (n : Nat) : Bool := decide (n < 3148)

/-- A loop group of 21. -/
def okLoopGroup (n : Nat) : Bool := decide (n < 21)

/-- A resident context slot of 256 (R330). -/
def okSlot (n : Nat) : Bool := decide (n < 256)

/-- A firmware slot, 0 or 1 (R707). -/
def okBootSlot (n : Nat) : Bool := decide (n < 2)

/-- An SPDM certificate slot (DSP0274: 0 to 7). -/
def okCertSlot (n : Nat) : Bool := decide (n < 8)

/-- A queue of 8 of a context (R334). -/
def okQueue (n : Nat) : Bool := decide (n < 8)

/-- An engine of Table 7-1. -/
def okEngine (n : Nat) : Bool := decide (n < 5)

/-- A MAC circuit: 512 circuits, and one for each of the 24 wavelength-0 channels (`LNK_CIRC_A`, R434). -/
def okCircuit (n : Nat) : Bool := decide (n < 536)

/-- An entry of the path core's tables. -/
def okIndex (n : Nat) : Bool := decide (n < 512)

/-- An HDM decoder of 2 (Table 6-8). -/
def okHdm (n : Nat) : Bool := decide (n < 2)

/-- A data plane, 1 to 15. -/
def okPlane (n : Nat) : Bool := decide (1 ≤ n) && decide (n < 16)

/-- A wavelength, 0 to 15. -/
def okWave (n : Nat) : Bool := decide (n < 16)

/-- A deferred-work ticket (R630). -/
def okTicket (n : Nat) : Bool := decide (n < 16)

/-- A trigger of 16 (R617). -/
def okTrigger (n : Nat) : Bool := decide (n < 16)

/-- A step of the power-on sequence, 1 to 10 (Table 15-2). -/
def okPowerStep (n : Nat) : Bool := decide (1 ≤ n) && decide (n ≤ 10)

/-- A scalar register of 32 (Table 3-2). -/
def okS (n : Nat) : Bool := decide (n < 32)

/-- A vector register of 16 (Table 3-2). -/
def okV (n : Nat) : Bool := decide (n < 16)

/-- A predicate register of 8 (Table 3-2). -/
def okP (n : Nat) : Bool := decide (n < 8)

/-- A lane of a vector of 64. -/
def okVLane (n : Nat) : Bool := decide (n < 64)

/-- A core barrier of 8, and the 1 to 64 arrivals it expects (R130). -/
def okBarrier (b n : Nat) : Bool := decide (b < 8) && decide (1 ≤ n) && decide (n ≤ 64)

/-- An event of a context: 64 (R332). -/
def okEvent (n : Nat) : Bool := decide (n < 64)

/-- A coefficient set of 16 (R588). -/
def okSet (n : Nat) : Bool := decide (n < 16)

/-- A number of one bit. -/
def okBit (n : Nat) : Bool := decide (n < 2)

/-- An unsigned number of `w` bits. -/
def okBits (w n : Nat) : Bool := decide (n < 2 ^ w)

/-- A byte string. -/
def okBytes (l : List Nat) : Bool := l.all (okBits 8)

/-- A register access: 4 or 8 bytes, aligned, inside the 64 MiB of BAR0 (R7, R8). -/
def okRegAccess (off width : Nat) : Bool :=
  (width == 4 || width == 8) && off % width == 0 && decide (off + width ≤ 2 ^ 26)

/-- A node number (15 bits). -/
def okNode (n : Nat) : Bool := okBits 15 n

/-- Table 3-2 and R165: the sizes and registers of a load or store. -/
def AccessForm.wf (a : AccessForm) : Bool :=
  (if a.vec then okV a.reg else okS a.reg && (a.size == 1 || a.size == 2 || a.size == 4 || a.size == 8)) && okS a.ra && okP a.pr

/-- The registers of an atomic. -/
def AtomicForm.wf (a : AtomicForm) : Bool := okS a.rd && okS a.ra && okS a.rv && okS a.rc

/-- The registers and lanes of a scalar instruction. -/
def ScalarOp.wf : ScalarOp → Bool
  | .alu _ rd ra rb => okS rd && okS ra && okS rb
  | .aluImm _ rd ra _ => okS rd && okS ra
  | .cmp _ pd lane ra rb => okP pd && okVLane lane && okS ra && okS rb
  | .predSet pd ra => okP pd && okS ra
  | .predGet rd pa => okS rd && okP pa
  | .branch _ ra rb _ => okS ra && okS rb
  | .illegal => true
  | .ifetch => true
  | .refetch => true

/-- The registers and lanes of a vector instruction. -/
def VectorOp.wf : VectorOp → Bool
  | .fma rd ra rb rc pr => okV rd && okV ra && okV rb && okV rc && okP pr
  | .fp _ rd ra rb pr => okV rd && okV ra && okV rb && okP pr
  | .fcmp _ pd ra rb pr => okP pd && okV ra && okV rb && okP pr
  | .int _ rd ra rb pr => okV rd && okV ra && okV rb && okP pr
  | .icmp _ pd ra rb pr => okP pd && okV ra && okV rb && okP pr
  | .select rd ra rb ps pr => okV rd && okV ra && okV rb && okP ps && okP pr
  | .permute rd ra rx pr => okV rd && okV ra && okV rx && okP pr
  | .broadcast rd ra lane pr => okV rd && okV ra && okVLane lane && okP pr

/-- A register of a thread (Table 3-2). -/
def RegName.wf : RegName → Bool
  | .s n => okS n
  | .v n => okV n
  | .p n => okP n

/-- A parity finding names a register of the thread. -/
def ParityFinding.wf : ParityFinding → Bool
  | .none => true
  | .reg r _ => r.wf
  | .generator => true
  | .cacheLine => true

/-- The banks of `MLOAD`: two (R150). -/
def MloadSpec.wf (m : MloadSpec) : Bool := okBit m.bank

/-- The bank of `MMA`. -/
def MmaSpec.wf (m : MmaSpec) : Bool := okBit m.bank

/-- The conversion control of `MSTORE` (a byte). -/
def MstoreSpec.wf (m : MstoreSpec) : Bool := okBits 8 m.ctrl

/-- An accumulator element of 256 by 256. -/
def TileUpset.wf (u : TileUpset) : Bool := decide (u.row < 256) && decide (u.col < 256)

/-- The field widths of Tables 9-5 and 9-7; a payload has at most 4,096 bytes. -/
def Pkt.wf (p : Pkt) : Bool :=
  decide (p.len ≤ 4096) && okBits 24 p.seq && okBits 8 p.inc && okBits 9 p.rcirc && okNode p.src && okBits 16 p.job &&
  okBits 12 p.ctx && okBits 3 p.engine && okBits 3 p.queue && okBits 16 p.cmdIdx && okBits 9 p.core && okBits 4 p.aop &&
  okBits 42 p.addr && okBits 16 p.rtag && okBits 8 p.status && okBits 16 p.group && okBits 32 p.cseq && okBits 8 p.cop &&
  okBits 4 p.fmt && okBits 4 p.op && okBits 16 p.step && okBits 16 p.cntFold && okBits 16 p.pseq && okBits 8 p.kind &&
  okBits 15 p.dst && okBits 16 p.key && okBits 32 p.value && decide (p.payload.length ≤ 4096)

/-- The field widths of Table 10-8. -/
def PathMsg.wf (m : PathMsg) : Bool :=
  okBits 3 m.hop && okBits 16 m.origNode && okBits 16 m.origIdx && okBits 16 m.planes && okBits 8 m.portA &&
  okBits 8 m.portB && okBits 8 m.reason && okBits 16 m.job && okBits 8 m.spanA && okBits 8 m.spanB && okBits 48 m.step &&
  okBits 16 m.index

/-- The field widths of Table 11-6. -/
def Disc.wf (d : Disc) : Bool :=
  okBits 15 d.node && okBits 5 d.port && okBits 8 d.inc && okBits 16 d.planVer && okBits 32 d.planCrc && okBits 32 d.fpr &&
  okBits 15 d.heardNode && okBits 5 d.heardPort && okBits 8 d.verdict

/-- Every operand of a command is in range. -/
def wellFormed : Instr → Bool
  | .registerWrite off width val => okRegAccess off width && okBits (8 * width) val
  | .bar0BadAccess _ _ _ => true
  | .computeClockStep _ quarter => okQuarter quarter
  | .inletOverLimit _ => true
  | .inletRecovered _ => true
  | .quarterOverheatGate quarter _ => okQuarter quarter
  | .powerLimitClockStep _ quarter => okQuarter quarter
  | .feedEntersRange _ _ => true
  | .feedLeavesRange _ _ => true
  | .stageFault _ => true
  | .stageFaultClears _ => true
  | .feedReturnWaitExpires _ => true
  | .shareRampComplete => true
  | .feedRedundStartCheck => true
  | .bothFeedsLost _ => true
  | .feedReturnsInHoldUp _ _ => true
  | .holdUpExpires => true
  | .feedHealthHeartbeat _ => true
  | .monPathLost => true
  | .proofTestPhaseEnd _ _ => true
  | .smbStatus => true
  | .smbAlertClear mask _ => okBits 16 mask
  | .smbAlertMask _ val _ => okBits 16 val
  | .feedAV => true
  | .feedAI => true
  | .feedBV => true
  | .feedBI => true
  | .inputPower => true
  | .inletTemp => true
  | .outletTemp => true
  | .hbCount => true
  | .smbProofTest val _ => okBits 8 val
  | .proofResult => true
  | .pwrcycReason => true
  | .smbUnknownCommand code => okBits 8 code
  | .smbAlertResponse => true
  | .perstAssert => true
  | .perstDeassert => true
  | .cxlConfigRequest off _ val => okBits 12 off && okBits 32 val
  | .trefLost => true
  | .trefRestored => true
  | .tapBypass => true
  | .tapIdcode => true
  | .tapExtest scan => okBits 128 scan
  | .tapIntest scan => okBits 128 scan
  | .tapOtherInstruction code => okBits 8 code
  | .powerCycleNotExecuted => true
  | .quarterGate quarter _ => okQuarter quarter
  | .quarterWake quarter _ => okQuarter quarter
  | .quarterReady quarter => okQuarter quarter
  | .dormantEntry _ => true
  | .dormantExit _ => true
  | .dormantExitReady => true
  | .referencesLost => true
  | .referenceQualified _ => true
  | .scalarInstruction core thread op parity => okCore core && okThread thread && op.wf && parity.wf
  | .vectorInstruction core thread op parity => okCore core && okThread thread && op.wf && parity.wf
  | .laneReduction core thread _ _ rd ra pr parity => okCore core && okThread thread && okS rd && okV ra && okP pr && parity.wf
  | .cvt core thread rd rs ra src dst ctrl pr parity => okCore core && okThread thread && okV rd && okV rs && okS ra && okBits 4 src && okBits 4 dst && okBits 8 ctrl && okP pr && parity.wf
  | .srseed core thread rs parity => okCore core && okThread thread && okS rs && parity.wf
  | .exp2 core thread rd ra pr parity => okCore core && okThread thread && okV rd && okV ra && okP pr && parity.wf
  | .log2 core thread rd ra pr parity => okCore core && okThread thread && okV rd && okV ra && okP pr && parity.wf
  | .rcp core thread rd ra pr parity => okCore core && okThread thread && okV rd && okV ra && okP pr && parity.wf
  | .rsqrt core thread rd ra pr parity => okCore core && okThread thread && okV rd && okV ra && okP pr && parity.wf
  | .sqrt core thread rd ra pr parity => okCore core && okThread thread && okV rd && okV ra && okP pr && parity.wf
  | .sin core thread rd ra pr parity => okCore core && okThread thread && okV rd && okV ra && okP pr && parity.wf
  | .cos core thread rd ra pr parity => okCore core && okThread thread && okV rd && okV ra && okP pr && parity.wf
  | .tanh core thread rd ra pr parity => okCore core && okThread thread && okV rd && okV ra && okP pr && parity.wf
  | .coreStoreLoad core thread acc _ parity => okCore core && okThread thread && acc.wf && parity.wf
  | .coreStoreStore core thread acc parity => okCore core && okThread thread && acc.wf && parity.wf
  | .quarterStoreAccess core thread _ acc _ parity => okCore core && okThread thread && acc.wf && parity.wf
  | .globalLoad core thread acc _ parity => okCore core && okThread thread && acc.wf && parity.wf
  | .globalStore core thread acc _ parity => okCore core && okThread thread && acc.wf && parity.wf
  | .gather core thread _ rd ra _ pr ecc parity => okCore core && okThread thread && okV rd && okV ra && okP pr && (ecc.all fun x => okVLane x.1) && parity.wf
  | .scatter core thread _ rs ra _ pr ecc parity => okCore core && okThread thread && okV rs && okV ra && okP pr && (ecc.all fun x => okVLane x.1) && parity.wf
  | .add64 core thread acc _ parity => okCore core && okThread thread && acc.wf && parity.wf
  | .cas64 core thread acc _ parity => okCore core && okThread thread && acc.wf && parity.wf
  | .min64 core thread acc _ parity => okCore core && okThread thread && acc.wf && parity.wf
  | .max64 core thread acc _ parity => okCore core && okThread thread && acc.wf && parity.wf
  | .fadd32 core thread acc _ parity => okCore core && okThread thread && acc.wf && parity.wf
  | .mload core thread spec _ => okCore core && okThread thread && spec.wf
  | .mma core thread spec => okCore core && okThread thread && spec.wf
  | .mstore core thread spec _ parity => okCore core && okThread thread && spec.wf && parity.wf
  | .bar core thread b n => okCore core && okThread thread && okBarrier b n
  | .ewait core thread e rs parity => okCore core && okThread thread && okEvent e && okS rs && parity.wf
  | .esignal core thread e _ rs parity => okCore core && okThread thread && okEvent e && okS rs && parity.wf
  | .fenceAcq core thread => okCore core && okThread thread
  | .fenceRel core thread => okCore core && okThread thread
  | .yield core thread => okCore core && okThread thread
  | .yieldHoldExpires core thread => okCore core && okThread thread
  | .exit core thread => okCore core && okThread thread
  | .loadResultWritten core thread tag => okCore core && okThread thread && okBits 5 tag
  | .mloadBankFilled core => okCore core
  | .mstoreComplete core => okCore core
  | .tileVerdict core upset _ _ => okCore core && upset.all TileUpset.wf
  | .replayVerdict core upset _ _ => okCore core && upset.all TileUpset.wf
  | .siblingStart core _ => okCore core
  | .arbiterVerdict core upset upset2 _ _ => okCore core && upset.all TileUpset.wf && upset2.all TileUpset.wf
  | .resultTransferComplete core _ => okCore core
  | .arbWaitExpires core => okCore core
  | .coreZeroingComplete core => okCore core
  | .heldWritePerformed core => okCore core
  | .coreClockGate core _ _ => okCore core
  | .corePowerGate core _ _ => okCore core
  | .coreWake core => okCore core
  | .coreSelfTest core _ _ => okCore core
  | .historyFlashWrite _ _ => true
  | .historyWriteRetry _ _ => true
  | .coreRetired core => okCore core
  | .chkCfgCommit => true
  | .chkInjectArm val => okBits 64 val
  | .remoteTimeout rtag => okBits 16 rtag
  | .patrolScrub _ _ => true
  | .selfRefreshTimeout _ => true
  | .memRegionCommitGo => true
  | .regionCommitDone => true
  | .memBiasGo val => okBits 64 val
  | .biasChangeComplete => true
  | .cxlMemRead hpa _ => okBits 52 hpa
  | .cxlMemWrite hpa data be => okBits 52 hpa && okBytes data && okBits 64 be
  | .hdmDecoderCommit idx _ _ _ => okHdm idx
  | .mirrorAck _ => true
  | .mirrorEnable buddy => okNode buddy
  | .resyncComplete => true
  | .qdbTailWrite slot queue val => okSlot slot && okQueue queue && okBits 64 val
  | .queueEnable slot queue val => okSlot slot && okQueue queue && okBits 64 val
  | .queueDisable slot queue => okSlot slot && okQueue queue
  | .commandFetch slot queue hostRec _ => okSlot slot && okQueue queue && (hostRec.map okBytes).getD true
  | .commandStart engine => okEngine engine
  | .nop slot queue _ => okSlot slot && okQueue queue
  | .eventWait slot queue _ => okSlot slot && okQueue queue
  | .eventSignalSet slot queue _ => okSlot slot && okQueue queue
  | .eventSignalAdd slot queue _ => okSlot slot && okQueue queue
  | .stepWait slot queue _ => okSlot slot && okQueue queue
  | .timestamp slot queue _ => okSlot slot && okQueue queue
  | .memWait slot queue _ _ => okSlot slot && okQueue queue
  | .memWaitPoll slot queue _ _ => okSlot slot && okQueue queue
  | .dispatch slot queue _ => okSlot slot && okQueue queue
  | .dispatchGroupStart slot queue _ => okSlot slot && okQueue queue
  | .copy slot queue _ _ _ _ => okSlot slot && okQueue queue
  | .copy2d slot queue _ _ _ _ => okSlot slot && okQueue queue
  | .fill slot queue _ _ _ => okSlot slot && okQueue queue
  | .convert slot queue _ _ _ _ => okSlot slot && okQueue queue
  | .pageIn slot queue _ _ _ => okSlot slot && okQueue queue
  | .pageOut slot queue _ => okSlot slot && okQueue queue
  | .allreduce slot queue _ _ => okSlot slot && okQueue queue
  | .reduceScatter slot queue _ _ => okSlot slot && okQueue queue
  | .allgather slot queue _ _ => okSlot slot && okQueue queue
  | .broadcast slot queue _ _ => okSlot slot && okQueue queue
  | .barrier slot queue _ => okSlot slot && okQueue queue
  | .ringRun slot queue _ => okSlot slot && okQueue queue
  | .pathSetup slot queue _ => okSlot slot && okQueue queue
  | .pathTeardown slot queue _ => okSlot slot && okQueue queue
  | .pathRecable slot queue _ => okSlot slot && okQueue queue
  | .pathQuery slot queue _ => okSlot slot && okQueue queue
  | .commandComplete slot queue _ => okSlot slot && okQueue queue
  | .qdbEvtValWrite val => okBits 64 val
  | .collTimeout slot queue _ => okSlot slot && okQueue queue
  | .placement => true
  | .partnerRecord src rec => okNode src && okBytes rec
  | .partnerSilent => true
  | .placementHoldExpires job => okBits 16 job
  | .ringHello src job key desc => okNode src && okBits 16 job && okBits 16 key && okBytes desc
  | .helloHoldExpires src job key => okNode src && okBits 16 job && okBits 16 key
  | .ringToken src job key val => okNode src && okBits 16 job && okBits 16 key && okBits 32 val
  | .ringTokenSend run token => okBits 8 run && okBits 32 token
  | .ringLoadDone run _ _ _ => okBits 8 run
  | .ringForward run step _ _ _ => okBits 8 run && okBits 32 step
  | .ringReady run step => okBits 8 run && okBits 32 step
  | .ringComplete run => okBits 8 run
  | .ringAbort src job key => okNode src && okBits 16 job && okBits 16 key
  | .stepTimeout run _ => okBits 8 run
  | .laneClockRecovered lane => okLane lane
  | .laneEqualiserConverged lane => okLane lane
  | .laneAlignmentFound lane => okLane lane
  | .init lane node inc circ laneI k plane _ => okLane lane && okNode node && okBits 8 inc && okBits 9 circ && okBits 4 laneI && okBits 4 k && okWave plane
  | .laneCheckComplete lane _ _ => okLane lane
  | .laneBoundExceeded lane => okLane lane
  | .flow lane ack req rsp pmsg nakSeq _ => okLane lane && okBits 24 ack && okBits 16 req && okBits 16 rsp && okBits 16 pmsg && okBits 24 nakSeq
  | .lnkBerHigh lane _ => okLane lane
  | .laneFail lane _ => okLane lane
  | .packetSend circ => okCircuit circ
  | .ackTimeout circ => okCircuit circ
  | .wr lane pkt _ => okLane lane && pkt.wf
  | .rd lane pkt _ => okLane lane && pkt.wf
  | .atom lane pkt _ => okLane lane && pkt.wf
  | .collData lane pkt _ _ => okLane lane && pkt.wf
  | .rdRsp lane pkt => okLane lane && pkt.wf
  | .atomRsp lane pkt => okLane lane && pkt.wf
  | .cpl lane pkt => okLane lane && pkt.wf
  | .void lane pkt => okLane lane && pkt.wf
  | .pmsgRelay lane pkt => okLane lane && pkt.wf
  | .pmsgRelayDiscard port => okPort port
  | .collReady src job key val step => okNode src && okBits 16 job && okBits 16 key && okBits 32 val && okBits 16 step
  | .collArrive src job key val => okNode src && okBits 16 job && okBits 16 key && okBits 32 val
  | .orqSyncUnknown src key => okNode src && okBits 16 key
  | .wakePattern port => okPort port
  | .resv src msg => okNode src && msg.wf
  | .resvAck src msg => okNode src && msg.wf
  | .light src msg => okNode src && msg.wf
  | .lit src msg => okNode src && msg.wf
  | .release src msg => okNode src && msg.wf
  | .releaseAck src msg => okNode src && msg.wf
  | .move src msg => okNode src && msg.wf
  | .commit src msg => okNode src && msg.wf
  | .pathAbort src msg => okNode src && msg.wf
  | .audit src msg => okNode src && msg.wf
  | .auditReply src msg => okNode src && msg.wf
  | .auditTimeout idx => okIndex idx
  | .evacuateMsg src msg => okNode src && msg.wf
  | .evacAck src msg => okNode src && msg.wf
  | .teardownReq src msg => okNode src && msg.wf
  | .wake src msg => okNode src && msg.wf
  | .wakeAck src msg => okNode src && msg.wf
  | .wakeRoundExpires idx => okIndex idx
  | .hopTimeout idx => okIndex idx
  | .setupTimeout idx => okIndex idx
  | .heldTimeout idx => okIndex idx
  | .planePathVerified plane inp outp _ => okPlane plane && okBits 8 inp && okBits 8 outp
  | .backupSeek idx => okIndex idx
  | .downRetry idx => okIndex idx
  | .downHoldExpires idx => okIndex idx
  | .recableDeadline step => okBits 64 step
  | .recableTick step => okBits 64 step
  | .spanLossMeasure port _ => okPort port
  | .disc port blk => okPort port && blk.wf
  | .discSend port => okPort port
  | .discTimeout port => okPort port
  | .routingRebuild => true
  | .rebind node => okNode node
  | .hcePeriod taps _ => taps.all fun x => okLoop x.loop
  | .groupRateDown group => okLoopGroup group
  | .groupRateRestore group => okLoopGroup group
  | .groupResume group => okLoopGroup group
  | .hceWindow judged => judged.all fun x => okLoop x.loop
  | .rampRecord loop _ _ _ _ _ => okLoop loop
  | .rampStart step _ => okBits 64 step
  | .hceSpGo val => okBits 64 val
  | .loopHold loop => okLoop loop
  | .loopHoldRelease loop => okLoop loop
  | .setSelWrite loop set => okLoop loop && okSet set
  | .stepTick => true
  | .tick port step _ => okPort port && okBits 64 step
  | .syncInterval port => okPort port
  | .sync port domain seqId _ => okPort port && okBits 8 domain && okBits 16 seqId
  | .followUp port domain seqId _ => okPort port && okBits 8 domain && okBits 16 seqId
  | .delayReq port domain seqId _ => okPort port && okBits 8 domain && okBits 16 seqId
  | .delayResp port domain seqId _ => okPort port && okBits 8 domain && okBits 16 seqId
  | .announce port domain _ => okPort port && okBits 8 domain
  | .announceTimeout => true
  | .ppsEdge => true
  | .ppsTimeout => true
  | .timSetGo => true
  | .timNowRead => true
  | .triggerArm n val => okTrigger n && okBits 64 val
  | .triggerDisarm n val => okTrigger n && okBits 32 val
  | .triggerFire n => okTrigger n
  | .opTimeCheckpoint => true
  | .orqDoorbellGo => true
  | .mailboxResponse => true
  | .mailboxTimeout => true
  | .deferredWorkEnd ticket => okTicket ticket
  | .getInfo => true
  | .getResult => true
  | .ctxCreate => true
  | .ctxRemove => true
  | .cfgStage => true
  | .cfgCommit _ => true
  | .cfgDiscard => true
  | .cfgRevert => true
  | .cfgRead => true
  | .planLoad hostData => okBytes hostData
  | .planCommit => true
  | .planRevert => true
  | .pathReqSetup => true
  | .pathReqTeardown => true
  | .pathReqRecable => true
  | .pathReqQuery => true
  | .proofTest => true
  | .twokeyStatus => true
  | .keyReplace => true
  | .policySet => true
  | .minSvn => true
  | .debugUnlock => true
  | .debugRelock => true
  | .unitRestore => true
  | .evrClear => true
  | .keeperReset => true
  | .keeperResetExecute => true
  | .twokeyTimeout => true
  | .updStatus => true
  | .updSchedule hostList => okBytes hostList
  | .updConfirm => true
  | .updCancel => true
  | .evrLatch => true
  | .evrRelease => true
  | .resetReqEngine => true
  | .resetReqPartition => true
  | .resetReqChip => true
  | .resetReqPowerCycle => true
  | .evacuate => true
  | .evacuateClear => true
  | .evacuateTimeout => true
  | .ageReplan => true
  | .heartbeat seq _ => okBits 64 seq
  | .watchdogPeriod => true
  | .keeperBoot _ _ _ _ => true
  | .powerOnStepComplete step _ _ => okPowerStep step
  | .rstStepLate step => okPowerStep step
  | .rstOrqBootFail => true
  | .keeperWatchdog => true
  | .engineStall engine => okEngine engine
  | .contextProgressTimeout slot => okSlot slot
  | .contextRemoval slot => okSlot slot
  | .contextRemovalComplete slot => okSlot slot
  | .engineReset engine => okEngine engine
  | .engineResetComplete engine => okEngine engine
  | .partitionReset part => okPart part
  | .partitionResetComplete part => okPart part
  | .chipReset _ => true
  | .powerCycle => true
  | .drainExpires => true
  | .actionLimitExpires => true
  | .actionDequeue => true
  | .collectionAccessTimeout _ _ => true
  | .collectionDone _ => true
  | .rstDumpDone => true
  | .latticeRecordWrite => true
  | .hbSend => true
  | .hb port state node inc => okPort port && okBits 8 state && okNode node && okBits 8 inc
  | .mirrorHb src val state roles buddy => okNode src && okBits 32 val && okBits 8 state && okBits 8 roles && okNode buddy
  | .mirrorPathLost _ => true
  | .xferOpen _ _ => true
  | .xferData session _ frag data => okBits 16 session && okBits 16 frag && okBytes data
  | .blockEnd session _ => okBits 16 session
  | .xferClose session => okBits 16 session
  | .xferStatus session => okBits 16 session
  | .boot slot => okBootSlot slot
  | .neighbourSolicitation src target => okBytes src && okBytes target
  | .echoRequest src payload => okBytes src && okBytes payload
  | .sessionIdleTimeout => true
  | .updSlotVerified slot => okBootSlot slot
  | .getVersion => true
  | .getCapabilities => true
  | .negotiateAlgorithms => true
  | .getDigests => true
  | .getCertificate slot off len => okCertSlot slot && okBits 16 off && okBits 16 len
  | .challenge slot nonce => okCertSlot slot && okBytes nonce
  | .getMeasurements index _ nonce => okBits 8 index && okBytes nonce
  | .spdmUnsupportedRequest code => okBits 8 code
  | .ready src group imageVer => okNode src && okBits 32 group && okBits 32 imageVer
  | .notReady src group _ => okNode src && okBits 32 group
  | .goDecision => true
  | .go src group t => okNode src && okBits 32 group && okBits 64 t
  | .groupAbort src group => okNode src && okBits 32 group
  | .activationAtT => true
  | .trialOk src group => okNode src && okBits 32 group
  | .trialFail src group _ => okNode src && okBits 32 group
  | .allOk src group => okNode src && okBits 32 group
  | .rollback src group => okNode src && okBits 32 group
  | .query src group => okNode src && okBits 32 group
  | .queryResend => true
  | .trialWindowExpires => true
  | .flush _ _ => true
  | .evrRdCtlWrite seq => okBits 64 seq
  | .latchExpires => true
  | .ageingMeasurement _ _ _ => true
  | .replanDue => true
  | .inletBandChange _ => true
  | .uncorrectableCodeword lane => okLane lane
  | .packetCrcFail lane => okLane lane
  | .pmsgEntryExpires src => okNode src
  | .cxlCacheResponse rtag data _ => okBits 16 rtag && okBytes data
  | .cxlLinkDown => true

end Sys2Proof
end

