-- ==== Sys2Proof/Tests/Slice0.lean ====
section
/-! SUPPORT. The model's own tests: terms that the well-formedness check refuses, results that the specification's worked
examples give, and for every statement with hypotheses a state and operands that meet them, clause by clause. -/

set_option autoImplicit false
set_option linter.unusedVariables false
set_option Elab.async false

namespace Sys2Proof.Tests

open Sys2Proof Sys2Proof.Machine Sys2Proof.Safety

/-! ### What the well-formedness check refuses

Each theorem gives a legal operand at the end of its range and an illegal one beside it. -/

theorem test_wf_core : wellFormed (.coreWake 287) = true ∧ wellFormed (.coreWake 288) = false := by decide
theorem test_wf_thread : wellFormed (.exit 0 63) = true ∧ wellFormed (.exit 0 64) = false := by decide
theorem test_wf_quarter : wellFormed (.quarterGate 3 true) = true ∧ wellFormed (.quarterGate 4 true) = false := by decide
theorem test_wf_partition : wellFormed (.partitionReset 3) = true ∧ wellFormed (.partitionReset 4) = false := by decide
theorem test_wf_lane : wellFormed (.laneClockRecovered 203) = true ∧ wellFormed (.laneClockRecovered 204) = false := by decide
theorem test_wf_port : wellFormed (.discSend 23) = true ∧ wellFormed (.discSend 24) = false := by decide
theorem test_wf_loop : wellFormed (.loopHold 3147) = true ∧ wellFormed (.loopHold 3148) = false := by decide
theorem test_wf_loop_group : wellFormed (.groupResume 20) = true ∧ wellFormed (.groupResume 21) = false := by decide
theorem test_wf_slot : wellFormed (.contextRemoval 255) = true ∧ wellFormed (.contextRemoval 256) = false := by decide
theorem test_wf_boot_slot : wellFormed (.boot 1) = true ∧ wellFormed (.boot 2) = false := by decide
theorem test_wf_cert_slot : wellFormed (.getCertificate 7 0 0) = true ∧ wellFormed (.getCertificate 8 0 0) = false := by decide
theorem test_wf_queue : wellFormed (.queueDisable 0 7) = true ∧ wellFormed (.queueDisable 0 8) = false := by decide
theorem test_wf_engine : wellFormed (.engineReset 4) = true ∧ wellFormed (.engineReset 5) = false := by decide
theorem test_wf_circuit : wellFormed (.packetSend 535) = true ∧ wellFormed (.packetSend 536) = false := by decide
theorem test_wf_index : wellFormed (.hopTimeout 511) = true ∧ wellFormed (.hopTimeout 512) = false := by decide
theorem test_wf_hdm : wellFormed (.hdmDecoderCommit 1 0 0 0) = true ∧ wellFormed (.hdmDecoderCommit 2 0 0 0) = false := by
  decide
theorem test_wf_plane : wellFormed (.planePathVerified 15 0 0 true) = true ∧
    wellFormed (.planePathVerified 0 0 0 true) = false := by decide
theorem test_wf_wave : wellFormed (.init 0 0 0 0 0 0 15 true) = true ∧ wellFormed (.init 0 0 0 0 0 0 16 true) = false := by
  decide
theorem test_wf_ticket : wellFormed (.deferredWorkEnd 15) = true ∧ wellFormed (.deferredWorkEnd 16) = false := by decide
theorem test_wf_trigger : wellFormed (.triggerFire 15) = true ∧ wellFormed (.triggerFire 16) = false := by decide
theorem test_wf_power_step : wellFormed (.rstStepLate 10) = true ∧ wellFormed (.rstStepLate 0) = false := by decide
theorem test_wf_scalar_register : wellFormed (.srseed 0 0 31 .none) = true ∧ wellFormed (.srseed 0 0 32 .none) = false := by decide
theorem test_wf_vector_register : wellFormed (.exp2 0 0 15 0 7 .none) = true ∧ wellFormed (.exp2 0 0 16 0 7 .none) = false := by decide
theorem test_wf_predicate : wellFormed (.exp2 0 0 0 0 8 .none) = false := by decide
theorem test_wf_vector_lane : (ScalarOp.cmp .eq 0 63 0 0).wf = true ∧ (ScalarOp.cmp .eq 0 64 0 0).wf = false ∧
    (VectorOp.broadcast 0 0 64 0).wf = false := by decide
theorem test_wf_barrier : wellFormed (.bar 0 0 7 64) = true ∧ wellFormed (.bar 0 0 8 64) = false ∧
    wellFormed (.bar 0 0 7 0) = false := by decide
theorem test_wf_event : wellFormed (.ewait 0 0 63 0 .none) = true ∧ wellFormed (.ewait 0 0 64 0 .none) = false := by decide
theorem test_wf_set : wellFormed (.setSelWrite 0 15) = true ∧ wellFormed (.setSelWrite 0 16) = false := by decide
theorem test_wf_bits : wellFormed (.smbProofTest 255 true) = true ∧ wellFormed (.smbProofTest 256 true) = false := by decide
theorem test_wf_bytes : wellFormed (.planLoad [255]) = true ∧ wellFormed (.planLoad [256]) = false := by decide
theorem test_wf_node : wellFormed (.rebind 0x7FFF) = true ∧ wellFormed (.rebind 0x8000) = false := by decide
theorem test_wf_register_access : wellFormed (.registerWrite 0x3FFFFF8 8 0) = true ∧
    wellFormed (.registerWrite 4 8 0) = false ∧ wellFormed (.registerWrite 0x4000000 4 0) = false := by decide
theorem test_wf_access : (AccessForm.mk false 8 31 0 0 0 false).wf = true ∧
    (AccessForm.mk false 3 31 0 0 0 false).wf = false := by decide
theorem test_wf_matrix : (⟨2, 0, 0, 64, 64, 64, false⟩ : MmaSpec).wf = false ∧ (⟨256, 0, 0⟩ : TileUpset).wf = false := by
  decide
theorem test_wf_packet : wellFormed (.wr 0 Pkt.zero .clean) = true ∧ wellFormed (.wr 0 { Pkt.zero with len := 4097 } .clean) = false := by
  decide

/-! ### Results that the specification gives -/

/-- Table 4-7, first row: 0.3 to E4M3. -/
theorem test_cvt_e4m3 : encodeFp .nearest false fE4M3 (ofF32 0x3E99999A) = 0x2A := by decide
/-- Table 4-7: 500.0 overflows E4M3 to NaN, or to 448 with `SAT`. -/
theorem test_cvt_e4m3_overflow : encodeFp .nearest false fE4M3 (ofF32 0x43FA0000) = 0x7F ∧
    encodeFp .nearest true fE4M3 (ofF32 0x43FA0000) = 0x7E := by decide
/-- Table 4-7: 464.0 lies midway between 448 and 480 and goes to the even mantissa. -/
theorem test_cvt_e4m3_tie : encodeFp .nearest false fE4M3 (ofF32 0x43E80000) = 0x7E := by decide
/-- Table 4-7: 500.0 to E5M2, and 0.001 to the least subnormal of E4M3. -/
theorem test_cvt_e5m2 : encodeFp .nearest false fE5M2 (ofF32 0x43FA0000) = 0x60 ∧
    encodeFp .nearest false fE4M3 (ofF32 0x3A83126F) = 0x01 := by decide
/-- Below Table 4-7: with `RND` = 1, 0.3 rounds up where the lane's value is 0x6667 or more. -/
theorem test_cvt_stochastic : encodeFp (.stoch 0x6667) false fE4M3 (ofF32 0x3E99999A) = 0x2A ∧
    encodeFp (.stoch 0x6666) false fE4M3 (ofF32 0x3E99999A) = 0x29 := by decide
/-- The worked MXFP4 block of Chapter 4: 10.0, 0.7, -3.1 and 0.25 become scale 0x80 and 0x6, 0x1, 0xB, 0x0. -/
theorem test_mx_block : formMx (fun _ => .nearest) false fMX4
    ([0x41200000, 0x3F333333, 0xC0466666, 0x3E800000].map ofF32) = (0x80, [6, 1, 0xB, 0]) := by decide
/-- The worked tile of Chapter 5: its row passes, an upset of bit 12 fails it, one of bit 11 does not. -/
theorem test_tile_row : (fun d => lineCheck (tauExp fE4M3 fE4M3) (.fin false d (-7)) (.fin false 2112 0) (.fin false 2048 0)
    (.fin false 64 0) (.fin false d (-7))) <$> [2112 * 128, 2112 * 128 + 2, 2112 * 128 + 1] =
    [some true, some false, some true] := by decide
/-- The worked addresses of Chapter 6: device 0 of 0x0096_58A4_1234_5000, and the store of core 157. -/
theorem test_address : deviceOf 0x0A412345000 = 0 ∧ deviceAddr 0x0A412345000 = 0xA41234000 ∧
    0x009658A412345000 / 2 ^ 42 = mkNode 37 9 6 ∧ coreStoreBase 157 = 0x2003AE00000 := by decide
/-- The worked core of Chapter 2: core 157 lies in quarter 2, and in partition 2 of mode 0b01. -/
theorem test_core_quarter : coreQuarter 157 = 2 ∧ partOf 1 2 = 2 := by decide
/-- Table 11-3: the ports of 0x2596 in a plan of 96 blocks. -/
theorem test_port_map : [0, 6, 15, 16, 19, 20].map (standardPeer 96 0x2596) =
    [some (0x2590, 5), some (0x2597, 6), some (0x25D6, 16), some (0x2556, 15), some (0x25F6, 20), some (0x2536, 19)] := by
  decide
/-- The worked ramp of Chapter 12: loop 225 at sample 6 and at sample 12 of 12. -/
theorem test_ramp : rampDrive (q16 8000) (q16 40768) 6 12 = q16 24384 ∧ rampDrive (q16 8000) (q16 40768) 12 12 = q16 40768 := by
  decide
/-- The worked crosstalk of Chapter 12: `C` of loop 224 is 0xFAE1_4000 at sample 6. -/
theorem test_crosstalk : State.crosstalk
    { ((((State.reset.wr F.HCE_CFG.XT_EN 1).wr F.HCE_XT.X 0x147B 2).wr F.HCE_XT.SX 16 2).wr F.HCE_LOOP_CAL.D_A 8000 225) with
      hce.loops := [(225, { Loop.init with u := q16 24384 })] } 224 = 0xFAE14000 - 2 ^ 32 := by decide
/-- The worked commit of Chapter 14: version 0x0000 is newer than 0xFFFF. -/
theorem test_version : newer 0x0000 0xFFFF = true ∧ newer 0xFFFF 0x0000 = false := by decide
/-- The generator and the lane hash of R216 and R217 from the value 1, by hand. -/
theorem test_stochastic_generator : srStep 1 = 0xD800000000000000 ∧ srStep 2 = 1 ∧ laneRandom 1 0 = 0x85EB := by decide
/-- R6: bytes are little-endian, and writing back what unlisted memory reads as leaves nothing listed. -/
theorem test_memory : (State.reset.memWrite 16 [1, 0, 2]).mem = [(16, 1), (18, 2)] ∧
    ((State.reset.memWrite 16 [1]).memWrite 16 [0]).mem = [] ∧ leNat [0x78, 0x56, 0x34, 0x12] = 0x12345678 := by decide
/-- The check value of CRC-32C over the digits 1 to 9, as its definition publishes it. -/
theorem test_crc32c : crc32c ((List.range 9).map fun i => BitVec.ofNat 8 (0x31 + i)) = 0xE3069283 := by
  decide +kernel
/-- R207: a NaN operand makes the minimum the canonical NaN, and the minimum of the two zeros; R209: an integer sum wraps. -/
theorem test_vector_corners : f32Min 0x7FC00001 0x3F800000 = 0x7FC00000 ∧ f32Min 0 0x80000000 = 0x80000000 ∧
    intFn .add 0x7FFFFFFF 1 = 0x80000000 := by decide
/-- 1.5 × 2.0 + 1.0 = 4.0, in one rounding. -/
theorem test_fma : f32Fma 0x3FC00000 0x40000000 0x3F800000 = 0x40800000 := by decide
/-- Table 6-4: `MIN64` compares signed numbers. -/
theorem test_min64 : atomResult .min64 (leBytes 8 (2 ^ 64 - 1)) 1 0 = leBytes 8 (2 ^ 64 - 1) := by decide

/-! ### One command each -/

/-- Table 1-6: `HB_COUNT` answers command 0x28 with the heartbeat count. -/
theorem test_hb_count : (match exec .hbCount { State.reset with pwr.hbCount := 7 } with
    | .next t => t.out
    | _ => []) = [.smb 0x28 7] := by decide
/-- R8: a read outside the registers goes on record as the access it was. -/
theorem test_bad_access : (match exec (.bar0BadAccess 3 4 false) State.reset with
    | .next t => t.evr.buf.length
    | _ => 0) = 1 := by decide
/-- A step takes the front command, and the rest waits. -/
theorem test_step_order : (match step { State.reset with pending := [.hbCount, .smbStatus] } with
    | .next t => t.pending
    | _ => []) = [.smbStatus] := by decide
/-- The published digest of the three bytes `abc`. -/
theorem test_sha256 : beNat (sha256 [0x61, 0x62, 0x63]) =
    0xba7816bf8f01cfea414140de5dae2223b00361a396177a9cb410ff61f20015ad := by decide +kernel

/-! ### Small states for the witnesses -/

/-- LPDDR6 and quarter 0 are up, a context is `ACTIVE` in slot 0, and a region of job 0 grants every address. -/
def demoBase : State :=
  { (((State.reset.wr F.MEM_STATUS.DRAM_OK 1).wr F.QDB_CTX.STATE 1 0).wr F.ID_PWR_STATE.Q_GATED 0).setQuarter 0
      { State.reset.quarter 0 with inReset := false } with
    ms.regions := [(0, ⟨true, true, true, true, false, false, false, false, false, 0, 0, 2 ^ 42⟩)] }
/-- A state with one command in queue 0 of slot 0, whose context is `ACTIVE`. -/
def demoCmd (bytes : List Nat) (work : Option CmdWork) : Cmd := ⟨0, bytes.map (BitVec.ofNat 8), work, false⟩
def demoWith (bytes : List Nat) (work : Option CmdWork) : State :=
  { demoBase with eng.queues := [(0, ⟨1, [demoCmd bytes work]⟩)] }
/-- A running queue with one record waiting in LPDDR6. -/
def demoQueue : State := (demoBase.wr F.QDB_QCFG.STATE 2 0).wr F.QDB_TAIL.TAIL 1 0
def demoDispatchBytes : List Nat := [0x10, 0, 0, 0, 0, 0, 0, 0, 0, 0, 0, 0, 0, 0, 0, 0, 0, 0, 0, 0, 1, 0, 1, 0, 0, 0, 1]
/-- A dispatch of one group of one thread to core 0. -/
def demoDispatch : State := demoWith demoDispatchBytes (some (.dispatch ⟨0, 0, []⟩))
/-- A paging command on page 0, whose map entry is `e`. -/
def demoPage (op e : Nat) : State :=
  { (demoWith [op] (some .started)).wr F.MEM_OVF_CFG.EN 1 with mem := memPut [] 0 (BitVec.ofNat 8 e) }
/-- A started collective command whose descriptor at offset 0 names this module and module 1. -/
def demoColl (op fmt : Nat) : State :=
  { demoWith ([op] ++ List.replicate 15 0 ++ [64, 0, 0, 0, 0, 0, 0, 0, 2] ++ List.replicate 7 0 ++ [0, 0, 0, 0, 0, 0, 0, 4, fmt]) (some .started) with
    mem := [(2, 2), (10, 1)] }
def demoCollCmd (op fmt : Nat) : Cmd :=
  demoCmd ([op] ++ List.replicate 15 0 ++ [64, 0, 0, 0, 0, 0, 0, 0, 2] ++ List.replicate 7 0 ++ [0, 0, 0, 0, 0, 0, 0, 4, fmt]) (some .started)
/-- A ring of two positions, causal, this module at the first; circuit 0 leads to module 1. -/
def demoRingMem : List Host.Cell :=
  [(2, 2), (6, 1), (10, 1), (13, 16), (21, 16), (26, 16), (31, 4), (33, 1), (42, 1), (66, 1)]
def demoRingCmd : Cmd := demoCmd [0x40, 0, 0, 0, 0, 0, 0, 0, 0, 0, 0, 0, 0, 0, 0, 4] (some .started)
def demoRingIdle : State :=
  { (((demoBase.wr F.LAT_CIRC_A.TYPE 1 0).wr F.LAT_CIRC_A.STATE 4 0).wr F.LAT_CIRC_A.NODE 1 0) with
    eng.queues := [(0, ⟨1, [demoRingCmd]⟩)], mem := demoRingMem }
def demoRun : RingRun :=
  { ringNew demoRingIdle ⟨0, 0, 0⟩ demoRingCmd with state := 1, tokens := [1], hellos := [(1, 0)] }
/-- That ring, rotating. -/
def demoRing (x : RingRun) : State := { demoRingIdle with eng.rings := [(0, x)] }
/-- The second position of that ring, rotating, its step 1 received. -/
def demoRunP : RingRun :=
  { demoRun with
    desc := ([0, 0, 2, 0, 1, 0, 1, 0, 0, 0, 1, 0, 0, 16] ++ List.replicate 7 0 ++ [16] ++ List.replicate 11 0 ++ [1] ++
      List.replicate 8 0 ++ [1] ++ List.replicate 21 0 ++ [1, 0, 0, 0]).map (BitVec.ofNat 8)
    ready := 1
    got := [(0, 4096), (1, 4096)] }
def demoRingP : State := { demoRing demoRunP with routes := [(0x20001, ⟨none, some 1, none, false⟩)] }
/-- Core 0 with its thread 0 ready, dispatched by queue 0 of slot 0. -/
def demoThread : Thread := { Thread.init with st := .ready }
def demoCore : State := { demoBase with cores := [(0, { Core.init with threads := [(0, demoThread)] })] }
def demoAtomic (sp : MemSpace) : AtomicForm := ⟨sp, true, 1, 2, 8, 3, 4⟩
def demoMload : MloadSpec := ⟨0, 1, 1, false, 0, 64, 128, false, 0x100000, 64, 64, false, 32, 0, 0⟩
def demoMma : MmaSpec := ⟨0, 0, 0, 128, 64, 32, true⟩
def demoMstore : MstoreSpec := ⟨0, 0, 4, 32, 0, 0, 0, 128, 0⟩
/-- The service core holds a request of this code and payload. -/
def demoReq (cmd : Nat) (payload : List Nat) : Req := ⟨cmd, payload.length, 0, 0, payload.map (BitVec.ofNat 8)⟩
def demoMail (cmd : Nat) (payload : List Nat) : State := { State.reset with mb.taken := some (demoReq cmd payload) }
/-- An `MMA` at the head of core 0's matrix queue, its bank filled. -/
def demoEntry (op : MatOp) : MatEntry := ⟨op, 0, 1, 0, 0, 1, 0, ⟨0, 0, 0⟩, false⟩
def demoQueued (op : MatOp) (tile : Option Tile) : State :=
  { demoBase with cores := [(0, { Core.init with
      threads := [(0, demoThread)], mq := [demoEntry op], banks := [(0, { Bank.init with filled := true })], tile := tile })] }
def demoTile (p : TilePhase) (sib : Option Nat) : Tile :=
  ⟨p, 0, false, 0, 0, false, false, 0, 0, false, sib, [], 0, 5, 0⟩
/-- An authorisation by a holder whose key is `plainKey`: its encoded message is its signature. -/
def tkHead (op holder arg : Nat) : List (BitVec 8) :=
  leBytes 2 op ++ leBytes 1 holder ++ leBytes 5 0 ++ fprBytes ++ leBytes 8 arg ++ leBytes 32 0
def tkPay (op holder arg : Nat) : List (BitVec 8) :=
  tkHead op holder arg ++ pssEm (sha256 (tkHead op holder arg)) (leBytes 32 0)
def demoKeyReq (op arg : Nat) : Req := ⟨0x0600, 464, 0, 0, tkPay op 5 arg⟩
def demoPending (op arg : Nat) : TwoKey := ⟨tkHead op 4 arg, 4, 1, plainKey, 0⟩
/-- The keyring holds that key twice, a change waits for its second authorisation, and that authorisation has come. -/
def demoKey (op arg : Nat) : State :=
  { State.reset with
    upd.keys := [(4, plainKey), (5, plainKey)]
    upd.pending := some (demoPending op arg)
    chk.hist := [(engUnit 0, ⟨[0], false, [], false, false⟩)]
    mb.taken := some (demoKeyReq op arg) }
theorem fprBytes_length : fprBytes.length = 32 := by
  unfold fprBytes
  exact sha256_length _
theorem tkHead_length (op holder arg : Nat) : (tkHead op holder arg).length = 80 := by simp [tkHead, fprBytes_length]
theorem tkPay_length (op holder arg : Nat) : (tkPay op holder arg).length = 464 := by
  unfold tkPay
  rw [List.length_append, pssEm_length _ _ rfl, tkHead_length]
theorem tkPay_take (op holder arg : Nat) : (tkPay op holder arg).take 80 = tkHead op holder arg :=
  List.take_left' (tkHead_length op holder arg)
theorem tkPay_drop (op holder arg : Nat) :
    (tkPay op holder arg).drop 80 = pssEm (sha256 (tkHead op holder arg)) (leBytes 32 0) :=
  List.drop_left' (tkHead_length op holder arg)
theorem tkHead_split (op holder arg : Nat) : tkHead op holder arg =
    (leBytes 2 op ++ leBytes 1 holder ++ leBytes 5 0) ++ (fprBytes ++ (leBytes 8 arg ++ leBytes 32 0)) := by
  simp [tkHead]
theorem tkPay_fpr (op holder arg : Nat) : ((tkPay op holder arg).drop 8).take 32 = fprBytes := by
  unfold tkPay
  rw [tkHead_split, List.append_assoc, List.drop_left' (by simp), List.append_assoc, List.take_left' fprBytes_length]
theorem tkPay_tail (op holder arg : Nat) : (tkPay op holder arg).drop 40 =
    leBytes 8 arg ++ (leBytes 32 0 ++ pssEm (sha256 (tkHead op holder arg)) (leBytes 32 0)) := by
  have h : tkPay op holder arg = (leBytes 2 op ++ leBytes 1 holder ++ leBytes 5 0 ++ fprBytes) ++
      (leBytes 8 arg ++ (leBytes 32 0 ++ pssEm (sha256 (tkHead op holder arg)) (leBytes 32 0))) := by
    unfold tkPay
    rw [tkHead_split]
    simp only [List.append_assoc]
  rw [h, List.drop_left' (by simp [fprBytes_length])]
theorem tkPay_arg (op holder arg : Nat) : leAt (tkPay op holder arg) 40 8 = leNat (leBytes 8 arg) := by
  unfold leAt
  rw [tkPay_tail, List.take_left' (by simp)]
theorem tkPay_zero (op holder arg : Nat) : zeroBytes (tkPay op holder arg) 48 80 = true := by
  have h : ((tkPay op holder arg).take 80).drop 48 = leBytes 32 0 := by
    rw [tkPay_take]
    have e : tkHead op holder arg = (leBytes 2 op ++ leBytes 1 holder ++ leBytes 5 0 ++ fprBytes ++ leBytes 8 arg) ++ leBytes 32 0 := rfl
    rw [e, List.drop_left' (by simp [fprBytes_length])]
  unfold zeroBytes
  rw [h]
  decide
theorem tkPay_take2 (op holder arg : Nat) : (tkPay op holder arg).take 2 = leBytes 2 op := rfl
/-- A request that the service core took and has not answered, and that passes R629. -/
theorem taking_some {s : State} {q : Req} {cmd : Nat} (h : s.mb.taken = some q) (h2 : q.cmd = cmd) (h3 : s.mb.resp = none)
    (h4 : q.refuse = none) : s.taking cmd = some q := by
  unfold State.taking
  rw [h]
  dsimp only
  rw [if_pos ⟨h2, h3, h4⟩]
/-- That authorisation is valid and is the second of its change. -/
theorem second_key (op arg : Nat) (h1 : 1 ≤ op ∧ op ≤ 8)
    (h2 : leAt (tkPay op 5 arg) 0 2 = op) (h3 : tkArgOk op (leNat (leBytes 8 arg)) = true) :
    SecondKey (demoKey op arg) op (demoKeyReq op arg) 0 (demoPending op arg) := by
  have hl : (tkPay op 5 arg).length = 464 := tkPay_length op 5 arg
  have hh : leAt (tkPay op 5 arg) 2 1 = 5 := rfl
  have hc : leAt (tkPay op 5 arg) 4 4 = 0 := rfl
  have hz : zeroBytes (tkPay op 5 arg) 48 80 = true := tkPay_zero op 5 arg
  rw [← tkPay_arg op 5 arg] at h3
  have hz' : zeroBytes (tkPay op 5 arg) 3 4 = true := rfl
  have hd : (tkPay op 5 arg).drop 464 = [] := List.drop_eq_nil_of_le (by omega)
  have hv : rsaVerify plainKey (tkHead op 5 arg) ((pssEm (sha256 (tkHead op 5 arg)) (leBytes 32 0)).take 384) = true := by
    rw [List.take_of_length_le (Nat.le_of_eq (pssEm_length _ _ rfl))]
    exact rsaVerify_plain _ _ rfl
  have hg : (demoKey op arg).groupHolds = false := by
    have : (demoKey op arg).groupHolds = State.reset.groupHolds := rfl
    rw [this]
    decide
  refine ⟨⟨?_, h2, ?_, hg, ?_, rfl⟩, rfl, ?_, by show 4 ≠ leAt (tkPay op 5 arg) 2 1; rw [hh]; decide⟩
  · have hp : payloadOk 0x0600 (tkPay op 5 arg) = true := by
      simp [payloadOk, hl, hz', h2, h1]
    have hr : (demoKeyReq op arg).refuse = none := by
      have h1 : ¬ (4080 < (demoKeyReq op arg).len ∨ (demoKeyReq op arg).rsvd ≠ 0) := by
        show ¬ (4080 < 464 ∨ 0 ≠ 0)
        decide
      have h2 : ¬ (!knownCmd (demoKeyReq op arg).cmd) = true := by
        show ¬ (!knownCmd 0x0600) = true
        decide
      have h3 : ¬ (!payloadOk (demoKeyReq op arg).cmd (demoKeyReq op arg).payload) = true := by
        show ¬ (!payloadOk 0x0600 (tkPay op 5 arg)) = true
        rw [hp]
        decide
      unfold Req.refuse
      rw [if_neg h1, if_neg h2, if_neg h3]
    exact taking_some rfl rfl rfl hr
  · show tkFormOk (tkPay op 5 arg) = true
    simp only [tkFormOk, h2, hh, h3, hl, hz]
    split <;> rfl
  · show State.tkAuthOk (demoKey op arg) (tkPay op 5 arg) = true
    have hk : (demoKey op arg).key 5 = some plainKey := rfl
    have hf : isOwnFpr fprBytes = true := beq_self_eq_true _
    have hn : (demoKey op arg).rd F.SEC_STATUS.TK_COUNTER = 0 :=
      (rfl : _ = State.reset.rd F.SEC_STATUS.TK_COUNTER).trans (by decide)
    unfold State.tkAuthOk
    simp only [hh, hk, tkPay_take, tkPay_drop, hv, hc, hn, tkPay_fpr, hf, hd]
    rfl
  · show tkAgree (tkPay op 5 arg) (tkHead op 4 arg) = true
    unfold tkAgree
    rw [tkPay_take, tkPay_take2, List.take_of_length_le (Nat.le_of_eq (tkHead_length op 4 arg))]
    exact Bool.and_eq_true_iff.mpr ⟨beq_iff_eq.mpr rfl, beq_iff_eq.mpr rfl⟩
/-- A plan with one module. -/
def demoPlan : Plan := ⟨1, 1, 0, 0, (1, 1, 1), [0], [], []⟩
/-- Port 0 is up and matched, and is this module's slave port. -/
def demoMaster : State := (State.reset.wr F.LNK_LANE.STATE lsUP (w0Lane 0)).wr F.PTH_DISC_PORT.VERDICT vMATCH 0
def demoSlave : State := demoMaster.wr F.TIM_STATUS.ROLE roSLAVE
def demoBlk : Disc := ⟨true, true, false, false, true, 7, 3, 1, 1, 0, 0, 0, 0, 0⟩
/-- Circuit 5 is up on lane 3. -/
def demoLink : State :=
  { (((demoBase.wr F.LNK_LANE.STATE lsUP 3).wr F.LNK_LANE.CIRC_VALID 1 3).wr F.LNK_LANE.CIRC 5 3).wr F.LNK_CIRC.STATE csUP 5 with
    lk.circs := [(5, { Circ.init with lanes := [3] })] }
def demoPkt : Pkt := { Pkt.zero with rcirc := 5, len := 32 }
/-- The service port is served and a session is open for two blocks. -/
def demoPort : State :=
  { ((State.reset.wr F.UPD_XFER.OPEN 1).wr F.UPD_XFER.TOTAL 2).wr F.UPD_SLOT.STATE slRECEIVING 1 with pwr.started := true }
/-- Security answers requests. -/
def demoSpdm : State :=
  { ((State.reset.wr F.RST_STATUS.MODE 1).wr F.ORQ_MB_STATUS.FW_UP 1).wr F.SEC_POLICY.SPDM_EN 1 with rst.orqDown := false }
/-- A group of this module as coordinator, and of this module as member of node 5's. -/
def demoGrp (decision : Nat) : ActGroup := ⟨2, [7, 8], false, 60, none, [], [], [], decision, 0, false, false, none, 0, false⟩
def demoCoord (state decision : Nat) : State :=
  { (State.reset.wr F.UPD_GROUP.IS_COORD 1).wr F.UPD_STATE.GROUP_STATE state with upd.group := some (demoGrp decision) }
def demoMember (state : Nat) : State :=
  { (State.reset.wr F.UPD_GROUP.COORD 5).wr F.UPD_STATE.GROUP_STATE state with upd.group := some (demoGrp 0) }
/-- The path core runs, and entry 0 of the circuit table is of this type and in this state, its circuit being node 7's 3. -/
def demoEnt (type state : Nat) (e : PathEnt) : State :=
  { (((State.reset.wr F.LAT_CIRC_A.TYPE type 0).wr F.LAT_CIRC_A.STATE state 0).wr F.LAT_CIRC_A.NODE 7 0).wr F.LAT_CIRC_A.ORIG_IDX 3 0 with
    path.coreUp := true, path.ents := [(0, e)] }
/-- A path message about that circuit, and about circuit 0 of this module. -/
def demoMsg : PathMsg := ⟨1, false, 7, 3, 2, 0, 1, 0, false, false, true, 0, 0, 0, 0, 0⟩
def demoOwn : PathMsg := { demoMsg with origNode := 0, origIdx := 0 }

/-! ### Every hypothesis is met somewhere -/

theorem witness_FeedRows :
    (∃ (s : State) (x : Side) (cv : Nat), (4550 ≤ cv) ∧ (cv ≤ 5900) ∧ ((s.feed x).inRange = false) ∧ (s.pwr.holdUp =
      false) ∧ ((s.feed x).fault = false) ∧ ((s.feed (otherSide x)).carrying = true)) ∧
    (∃ (s : State) (x : Side) (cv : Nat), (4550 ≤ cv) ∧ (cv ≤ 5900) ∧ ((s.feed x).inRange = false) ∧ (s.pwr.holdUp =
      false) ∧ ((s.feed x).fault = false) ∧ ((s.feed (otherSide x)).carrying = false)) ∧
    (∃ (s : State) (x : Side) (cv : Nat), (4550 ≤ cv) ∧ (cv ≤ 5900) ∧ ((s.feed x).inRange = false) ∧ (s.pwr.holdUp =
      false) ∧ ((s.feed x).fault = true)) ∧
    (∃ (s : State) (x : Side) (cv : Nat), (cv < 4400 ∨ 6000 < cv) ∧ ((s.feed x).inRange = true)) ∧
    (∃ (s : State) (x : Side), ((s.feed x).fault = false)) ∧
    (∃ (s : State) (x : Side), ((s.feed x).fault = true) ∧ ((s.feed x).inRange = true) ∧ ((s.feed (otherSide
      x)).carrying = true)) ∧
    (∃ (s : State) (x : Side), ((s.feed x).fault = true) ∧ ((s.feed x).inRange = false)) ∧
    (∃ (s : State) (x : Side), ((s.feed x).waiting = true) ∧ ((s.feed x).good = true)) ∧
    (∃ (s : State), (s.pwr.ramping = true)) ∧
    (∃ (s : State), (s.pwr.startCheck = true) ∧ (s.pwr.sharing = false)) ∧
    (∃ (s : State), (s.pwr.startCheck = true) ∧ (s.pwr.sharing = true)) := by
  refine ⟨?_, ?_, ?_, ?_, ?_, ?_, ?_, ?_, ?_, ?_, ?_⟩
  · exact ⟨{ State.reset with pwr.b.carrying := true }, .a, 5000, by decide⟩
  · exact ⟨State.reset, .b, 5000, by decide⟩
  · exact ⟨{ State.reset with pwr.a.fault := true }, .a, 5000, by decide⟩
  · exact ⟨{ State.reset with pwr.a.inRange := true }, .a, 4000, by decide⟩
  · exact ⟨State.reset, .b, by decide⟩
  · exact ⟨{ State.reset with pwr.a.inRange := true, pwr.a.fault := true, pwr.b.carrying := true }, .a, by decide⟩
  · exact ⟨{ State.reset with pwr.a.fault := true }, .a, by decide⟩
  · exact ⟨{ State.reset with pwr.a.inRange := true, pwr.a.waiting := true, pwr.a.up := true }, .a, by decide⟩
  · exact ⟨{ State.reset with pwr.ramping := true }, by decide⟩
  · exact ⟨{ State.reset with pwr.startCheck := true }, by decide⟩
  · exact ⟨{ State.reset with pwr.startCheck := true, pwr.a.carrying := true, pwr.b.carrying := true }, by decide⟩

theorem witness_PowerWatchRows :
    (∃ (s : State) (read : Bool), (s.pwr.started = true)) ∧
    (∃ (s : State), (s.rst.orqDown = false) ∧ (s.pwr.hbSeen = true)) ∧
    (∃ (s : State) (p : Proof) (vmin : Nat) (tpk : Int), (s.pwr.proof = some p) ∧ (p.phase = .rampA)) ∧
    (∃ (s : State) (p : Proof) (vmin : Nat) (tpk : Int), (s.pwr.proof = some p) ∧ (p.phase = .holdA)) ∧
    (∃ (s : State) (p : Proof) (vmin : Nat) (tpk : Int), (s.pwr.proof = some p) ∧ (p.phase = .returnA)) ∧
    (∃ (s : State) (p : Proof) (vmin : Nat) (tpk : Int), (s.pwr.proof = some p) ∧ (p.phase = .waitA)) ∧
    (∃ (s : State) (p : Proof) (vmin : Nat) (tpk : Int), (s.pwr.proof = some p) ∧ (p.phase = .rampB)) ∧
    (∃ (s : State) (p : Proof) (vmin : Nat) (tpk : Int), (s.pwr.proof = some p) ∧ (p.phase = .holdB)) ∧
    (∃ (s : State) (p : Proof) (vmin : Nat) (tpk : Int), (s.pwr.proof = some p) ∧ (p.phase = .returnB)) ∧
    (∃ (s : State) (p : Proof) (vmin : Nat) (tpk : Int), (s.pwr.proof = some p) ∧ (p.phase = .waitB) ∧ (p.failA =
      false) ∧ (p.failB = false)) ∧
    (∃ (s : State) (p : Proof) (vmin : Nat) (tpk : Int), (s.pwr.proof = some p) ∧ (p.phase = .waitB) ∧ (p.failA =
      true ∨ p.failB = true)) ∧
    (∃ (s : State), (s.pwr.pwrcycReq = true)) := by
  refine ⟨?_, ?_, ?_, ?_, ?_, ?_, ?_, ?_, ?_, ?_, ?_, ?_⟩
  · exact ⟨{ State.reset with pwr.started := true }, true, by decide⟩
  · exact ⟨{ State.reset with pwr.hbSeen := true, rst.orqDown := false }, by decide⟩
  · exact ⟨{ State.reset with pwr.proof := some ⟨.rampA, none, false, false, 0, 0, 0, 0, 0, false, false⟩ },
    ⟨.rampA, none, false, false, 0, 0, 0, 0, 0, false, false⟩, 4700, 300, by decide⟩
  · exact ⟨{ State.reset with pwr.proof := some ⟨.holdA, none, false, false, 0, 0, 0, 0, 0, false, false⟩ },
    ⟨.holdA, none, false, false, 0, 0, 0, 0, 0, false, false⟩, 4700, 300, by decide⟩
  · exact ⟨{ State.reset with pwr.proof := some ⟨.returnA, none, false, false, 0, 0, 0, 0, 0, false, false⟩ },
    ⟨.returnA, none, false, false, 0, 0, 0, 0, 0, false, false⟩, 4700, 300, by decide⟩
  · exact ⟨{ State.reset with pwr.proof := some ⟨.waitA, none, false, false, 0, 0, 0, 0, 0, false, false⟩ },
    ⟨.waitA, none, false, false, 0, 0, 0, 0, 0, false, false⟩, 4700, 300, by decide⟩
  · exact ⟨{ State.reset with pwr.proof := some ⟨.rampB, none, false, false, 0, 0, 0, 0, 0, false, false⟩ },
    ⟨.rampB, none, false, false, 0, 0, 0, 0, 0, false, false⟩, 4700, 300, by decide⟩
  · exact ⟨{ State.reset with pwr.proof := some ⟨.holdB, none, false, false, 0, 0, 0, 0, 0, false, false⟩ },
    ⟨.holdB, none, false, false, 0, 0, 0, 0, 0, false, false⟩, 4700, 300, by decide⟩
  · exact ⟨{ State.reset with pwr.proof := some ⟨.returnB, none, false, false, 0, 0, 0, 0, 0, false, false⟩ },
    ⟨.returnB, none, false, false, 0, 0, 0, 0, 0, false, false⟩, 4700, 300, by decide⟩
  · exact ⟨{ State.reset with pwr.proof := some ⟨.waitB, none, false, false, 0, 0, 0, 0, 0, false, false⟩ },
    ⟨.waitB, none, false, false, 0, 0, 0, 0, 0, false, false⟩, 4700, 300, by decide⟩
  · exact ⟨{ State.reset with pwr.proof := some ⟨.waitB, none, true, false, 0, 0, 0, 0, 0, false, false⟩ }, ⟨.waitB,
    none, true, false, 0, 0, 0, 0, 0, false, false⟩, 4700, 300, by decide⟩
  · exact ⟨{ State.reset with pwr.pwrcycReq := true }, by decide⟩

theorem witness_SmbusRows :
    (∃ (s : State) (m n : Nat), (n < 10) ∧ (bitOf m n = false)) ∧
    (∃ (s : State) (m n : Nat), (n < 10) ∧ (bitOf m n = true) ∧ (s.alertCause n = false)) ∧
    (∃ (s : State), (s.pwr.a.good = true) ∧ (s.pwr.b.good = true) ∧ (s.pwr.proof = none)) ∧
    (∃ (s : State), (s.pwr.a.good = false ∨ s.pwr.b.good = false ∨ s.pwr.proof.isNone = false)) ∧
    (∃ (s : State), (s.alertLow = true)) ∧
    (∃ (s : State) (v : Nat), (v ≠ 1)) ∧
    (∃ (s : State), (s.alertLow = false)) := by
  refine ⟨?_, ?_, ?_, ?_, ?_, ?_, ?_⟩
  · exact ⟨State.reset, 1, 3, by decide⟩
  · exact ⟨State.reset, 8, 3, by decide⟩
  · exact ⟨{ State.reset with pwr.a.inRange := true, pwr.b.inRange := true }, by decide⟩
  · exact ⟨State.reset, by decide⟩
  · exact ⟨{ State.reset with pwr.status := 1 }, by decide⟩
  · exact ⟨State.reset, 2, by decide⟩
  · exact ⟨{ State.reset with pwr.status := 0 }, by decide⟩

theorem witness_CoolantRows :
    (∃ (s : State) (i : Int) (q : Nat), (400 < i) ∧ (i ≤ 480) ∧ (q < 4)) ∧
    (∃ (s : State) (i : Int), (480 < i)) ∧
    (∃ (s : State) (i : Int), (i ≤ 450) ∧ (s.pwr.coolStop = true)) ∧
    (∃ (s : State) (i : Int), (s.pwr.coolStop = false)) ∧
    (∃ (s : State) (i : Int), (i ≤ 400)) ∧
    (∃ (s : State) (i : Int), (400 < i)) ∧
    (∃ (s : State) (w q : Nat), (2000 < w) ∧ (q < 4)) := by
  refine ⟨?_, ?_, ?_, ?_, ?_, ?_, ?_⟩
  · exact ⟨State.reset, 480, 2, by decide⟩
  · exact ⟨State.reset, 481, by decide⟩
  · exact ⟨{ State.reset with pwr.coolStop := true }, 450, by decide⟩
  · exact ⟨State.reset, 450, by decide⟩
  · exact ⟨State.reset, 400, by decide⟩
  · exact ⟨State.reset, 401, by decide⟩
  · exact ⟨State.reset, 2001, 3, by decide⟩

theorem witness_ReferenceAndPinRows :
    (∃ (s : State), (s.blk.trefOk = true) ∧ (s.blk.oscOk = true)) ∧
    (∃ (s : State), (s.blk.trefOk = false ∨ s.blk.oscOk = false)) ∧
    (∃ (s : State), (s.blk.noRef = false)) ∧
    (∃ (s : State), (s.blk.noRef = false)) ∧
    (∃ (s : State), (s.blk.noRef = true)) ∧
    (∃ (s : State), (s.blk.noRef = true)) ∧
    (∃ (s : State), (s.pwr.perstLow = true)) ∧
    (∃ (s : State) (off v : Nat), (s.cxlReady = true)) ∧
    (∃ (s : State) (off v w : Nat), (s.cxlReady = true) ∧ (kfind s.pwr.cxlCfg off = some w)) ∧
    (∃ (s : State) (off v : Nat), (s.cxlReady = true) ∧ (kfind s.pwr.cxlCfg off = none)) ∧
    (∃ (s : State) (off v : Nat) (w : Bool), (s.pwr.perstLow = false) ∧ (s.cxlReady = false)) ∧
    (∃ (s : State) (scan : Nat), (s.rd F.SEC_STATUS.DEBUG = 1) ∧ (s.rd F.RST_STATUS.MODE = mTEST)) ∧
    (∃ (s : State) (scan : Nat), (s.rd F.SEC_STATUS.DEBUG ≠ 1 ∨ s.rd F.RST_STATUS.MODE ≠ mTEST)) ∧
    (∃ (s : State) (scan : Nat), (s.rd F.SEC_STATUS.DEBUG = 1) ∧ (s.rd F.RST_STATUS.MODE = mTEST)) ∧
    (∃ (s : State) (scan : Nat), (s.rd F.SEC_STATUS.DEBUG ≠ 1 ∨ s.rd F.RST_STATUS.MODE ≠ mTEST)) ∧
    (∃ (s : State) (c : Nat), (s.rd F.SEC_STATUS.DEBUG = 1)) ∧
    (∃ (s : State) (c : Nat), (s.rd F.SEC_STATUS.DEBUG ≠ 1)) := by
  refine ⟨?_, ?_, ?_, ?_, ?_, ?_, ?_, ?_, ?_, ?_, ?_, ?_, ?_, ?_, ?_, ?_, ?_⟩
  · exact ⟨{ State.reset with blk.trefOk := true, blk.oscOk := true }, by decide⟩
  · exact ⟨{ State.reset with blk.trefOk := false }, by decide⟩
  · exact ⟨State.reset, by decide⟩
  · exact ⟨State.reset, by decide⟩
  · exact ⟨{ State.reset with blk.noRef := true }, by decide⟩
  · exact ⟨{ State.reset with blk.noRef := true }, by decide⟩
  · exact ⟨{ State.reset with pwr.perstLow := true }, by decide⟩
  · exact ⟨{ (State.reset.wr F.RST_STATUS.PHASE 2) with pwr.perstLow := false, time.raw := 5000000000 }, 16, 7, by
    decide⟩
  · exact
    ⟨{ (State.reset.wr F.RST_STATUS.PHASE 2) with pwr.perstLow := false, time.raw := 5000000000, pwr.cxlCfg := [(16, 7)] },
    16, 0, 7, by decide⟩
  · exact ⟨{ (State.reset.wr F.RST_STATUS.PHASE 2) with pwr.perstLow := false, time.raw := 5000000000 }, 16, 0, by
    decide⟩
  · exact ⟨{ State.reset with pwr.perstLow := false }, 16, 0, true, by decide⟩
  · exact ⟨(State.reset.wr F.SEC_STATUS.DEBUG 1).wr F.RST_STATUS.MODE 2, 5, by decide⟩
  · exact ⟨State.reset, 5, by decide⟩
  · exact ⟨(State.reset.wr F.SEC_STATUS.DEBUG 1).wr F.RST_STATUS.MODE 2, 5, by decide⟩
  · exact ⟨State.reset, 5, by decide⟩
  · exact ⟨State.reset.wr F.SEC_STATUS.DEBUG 1, 9, by decide⟩
  · exact ⟨State.reset, 9, by decide⟩

theorem witness_QuarterPowerRows :
    (∃ (s : State) (q : Nat), (q < 4) ∧ (s.gated q = false) ∧ ((s.quarter q).inReset = false) ∧ (s.quarterQuiet q =
      true)) ∧
    (∃ (s : State) (q : Nat), (q < 4) ∧ (s.gated q = false) ∧ ((s.quarter q).inReset = false) ∧ (s.quarterQuiet q =
      true)) ∧
    (∃ (s : State) (q : Nat) (f : Bool), (s.gated q = true ∨ (s.quarter q).inReset = true ∨ s.quarterQuiet q =
      false)) ∧
    (∃ (s : State) (q : Nat) (j : Int), (q < 4) ∧ (1100 ≤ j) ∧ (s.gated q = false ∨ bitOf (s.rd
      F.ID_PWR_STATE.Q_SRAM_OFF) q = false)) ∧
    (∃ (s : State) (q : Nat) (a : Option MemReq), (q < 4) ∧ (s.dozing q = true) ∧ ((s.quarter q).inReset = false)) ∧
    (∃ (s : State) (q : Nat) (a : Option MemReq), (q < 4) ∧ (s.dozing q = false) ∧ ((s.quarter q).inReset = false)) ∧
    (∃ (s : State) (q : Nat) (a : Option MemReq), (q < 4) ∧ ((s.quarter q).inReset = true)) ∧
    (∃ (s : State) (q : Nat), (q < 4) ∧ ((s.quarter q).waking = true) ∧ ((s.quarter q).inReset = false) ∧
      ((s.quarter q).outOfSvc = false) ∧ (s.pwr.coolStop = false)) ∧
    (∃ (s : State), (s.dormantOk = true)) ∧
    (∃ (s : State), (s.dormantOk = true)) ∧
    (∃ (s : State) (f : Bool), (s.dormantOk = false)) ∧
    (∃ (s : State) (c : DormantCause), (s.rd F.ID_PWR_STATE.MOD_STATE = 2)) ∧
    (∃ (s : State) (p : Nat), (s.rd F.ID_PWR_STATE.MOD_STATE = 2)) ∧
    (∃ (s : State) (c : DormantCause) (p : Nat), (s.rd F.ID_PWR_STATE.MOD_STATE ≠ 2)) ∧
    (∃ (s : State), (s.blk.exiting = true)) := by
  refine ⟨?_, ?_, ?_, ?_, ?_, ?_, ?_, ?_, ?_, ?_, ?_, ?_, ?_, ?_, ?_⟩
  · exact ⟨State.reset.wr F.ID_PWR_STATE.Q_GATED 0, 2, by decide⟩
  · exact ⟨State.reset.wr F.ID_PWR_STATE.Q_GATED 0, 2, by decide⟩
  · exact ⟨State.reset.wr F.ID_PWR_STATE.Q_GATED 15, 2, true, by decide⟩
  · exact ⟨State.reset.wr F.ID_PWR_STATE.Q_GATED 0, 2, 1100, by decide⟩
  · exact ⟨State.reset.wr F.ID_PWR_STATE.Q_GATED 15, 1, none, by decide⟩
  · exact ⟨State.reset.wr F.ID_PWR_STATE.Q_GATED 0, 1, none, by decide⟩
  · exact ⟨State.reset.setQuarter 1 { Quarter.init with inReset := true }, 1, none, by decide⟩
  · exact ⟨(State.reset.wr F.ID_PWR_STATE.Q_GATED 15).setQuarter 1 { Quarter.init with waking := true }, 1, by
    decide⟩
  · exact ⟨(((State.reset.wr F.ID_PWR_STATE.MOD_STATE 1).wr F.ID_PWR_CFG.DORMANT_EN 1).wr F.RST_STATUS.MODE 1), by
    set_option maxRecDepth 100000 in decide⟩
  · exact ⟨(((State.reset.wr F.ID_PWR_STATE.MOD_STATE 1).wr F.ID_PWR_CFG.DORMANT_EN 1).wr F.RST_STATUS.MODE 1), by
    set_option maxRecDepth 100000 in decide⟩
  · exact ⟨State.reset, true, by set_option maxRecDepth 100000 in decide⟩
  · exact ⟨State.reset.wr F.ID_PWR_STATE.MOD_STATE 2, .doorbell, by decide⟩
  · exact ⟨State.reset.wr F.ID_PWR_STATE.MOD_STATE 2, 3, by decide⟩
  · exact ⟨State.reset, .doorbell, 3, by decide⟩
  · exact ⟨{ State.reset with blk.exiting := true }, by decide⟩

theorem witness_MemoryUnitRows :
    (∃ (s : State) (g n : Nat), (s.rd F.MEM_CFG.SCRUB_EN = 1) ∧ ((placeOf (g * 64)).isDram = true) ∧ (1 ≤ n) ∧ (n ≤
      3)) ∧
    (∃ (s : State) (g : Nat) (e : EccFinding), (s.rd F.MEM_CFG.SCRUB_EN = 1) ∧ ((placeOf (g * 64)).isDram = true) ∧
      (kfind s.ms.poison g = none) ∧ (EccFinding.dram e = .uncorrectable)) ∧
    (∃ (s : State) (g : Nat) (e : EccFinding), (s.rd F.MEM_CFG.SCRUB_EN = 0)) ∧
    (∃ (s : State) (d : Nat), (d ≠ 0)) ∧
    (∃ (s : State), (s.rd F.MEM_REGION_COMMIT.BUSY = 0)) ∧
    (∃ (s : State) (new : List (Nat × Region)), (s.ms.commit = some new) ∧ (s.commitStatus new = stOK)) ∧
    (∃ (s : State) (new : List (Nat × Region)), (s.ms.commit = some new) ∧ (s.commitStatus new ≠ stOK)) ∧
    (∃ (s : State) (v : Nat), (s.rd F.MEM_BIAS_STATUS.BUSY = 0) ∧ (bitOf v 63 = true)) ∧
    (∃ (s : State) (st n : Nat), (s.ms.biasRun = some ⟨st, n, true⟩) ∧ (n ≠ 0) ∧ (st + n ≤ 589824)) ∧
    (∃ (s : State) (base size skip : Nat), (kfind s.ms.hdm 0 = none) ∧ (s.hdmBad 0 base size skip = false)) ∧
    (∃ (s : State) (base size skip : Nat) (d : Hdm), (kfind s.ms.hdm 0 = some d) ∧ (kfind s.ms.hdm 1 = none) ∧
      (s.hdmBad 1 base size (d.dpa + d.size + skip) = false)) ∧
    (∃ (s : State) (base size skip : Nat), (kfind s.ms.hdm 0 = none) ∧ (s.hdmBad 0 base size skip = true)) ∧
    (∃ (s : State) (i base size skip : Nat), ((kfind s.ms.hdm i).isSome = true)) ∧
    (∃ (s : State) (st n : Nat) (dev : Bool), (s.ms.biasRun = some ⟨st, n, dev⟩) ∧ (n = 0 ∨ 589824 < st + n)) ∧
    (∃ (s : State) (st n g : Nat), (s.ms.biasRun = some ⟨st, n, false⟩) ∧ (n ≠ 0) ∧ (st + n ≤ 589824) ∧ (st ≤ g) ∧
      (g < st + n)) ∧
    (∃ (s : State) (r tag : Nat) (x : OutReq), ((s.ms.reqs.find? fun y => y.1 % 2 ^ 16 == r && y.2.loc.isNode) =
      some (tag, x))) := by
  refine ⟨?_, ?_, ?_, ?_, ?_, ?_, ?_, ?_, ?_, ?_, ?_, ?_, ?_, ?_, ?_, ?_⟩
  · exact ⟨State.reset.wr F.MEM_CFG.SCRUB_EN 1, 5, 2, by decide⟩
  · exact ⟨State.reset.wr F.MEM_CFG.SCRUB_EN 1, 5, .wrongGranule, by decide⟩
  · exact ⟨State.reset.wr F.MEM_CFG.SCRUB_EN 0, 5, .errors 9, by decide⟩
  · exact ⟨State.reset, 3, by decide⟩
  · exact ⟨State.reset, by decide⟩
  · exact ⟨{ State.reset with ms.commit := some [] }, [], by decide⟩
  · exact
    ⟨{ State.reset with ms.commit := some [(0, ⟨true, true, true, false, false, false, false, false, false, 1, 0, 0⟩)] },
    [(0, ⟨true, true, true, false, false, false, false, false, false, 1, 0, 0⟩)], by decide⟩
  · exact ⟨State.reset, 2 ^ 63, by decide⟩
  · exact ⟨{ State.reset with ms.biasRun := some ⟨3, 4, true⟩ }, 3, 4, by decide⟩
  · exact ⟨State.reset, 0, 2 ^ 28, 0, by decide⟩
  · exact ⟨{ State.reset with ms.hdm := [(0, ⟨0, 2 ^ 28, 0⟩)] }, 2 ^ 28, 2 ^ 28, 0, ⟨0, 2 ^ 28, 0⟩, by decide⟩
  · exact ⟨State.reset, 1, 2 ^ 28, 0, by decide⟩
  · exact ⟨{ State.reset with ms.hdm := [(0, ⟨0, 2 ^ 28, 0⟩)] }, 0, 2 ^ 28, 2 ^ 28, 0, by decide⟩
  · exact ⟨{ State.reset with ms.biasRun := some ⟨3, 0, true⟩ }, 3, 0, true, by decide⟩
  · exact ⟨{ State.reset with ms.biasRun := some ⟨3, 4, false⟩ }, 3, 4, 6, by decide⟩
  · exact ⟨{ State.reset with ms.reqs := [(5, ⟨.node 9, ⟨0, 0, 0, 0, 0, 0, ⟨0, 0, 0⟩, 0⟩, .read 4, 0, .host⟩)] }, 5,
    5, ⟨.node 9, ⟨0, 0, 0, 0, 0, 0, ⟨0, 0, 0⟩, 0⟩, .read 4, 0, .host⟩, by decide⟩

theorem witness_HostMemoryRows :
    (∃ (s : State) (hpa o : Nat) (e : EccFinding), (s.rd F.RST_STATUS.READY = 1) ∧ (s.hdmLookup hpa = some o) ∧
      (s.rd F.MEM_STATUS.DRAM_OK = 1) ∧ (EccFinding.dram e = .clean)) ∧
    (∃ (s : State) (hpa o n : Nat), (s.rd F.RST_STATUS.READY = 1) ∧ (s.hdmLookup hpa = some o) ∧ (s.rd
      F.MEM_STATUS.DRAM_OK = 1) ∧ (1 ≤ n) ∧ (n ≤ 3)) ∧
    (∃ (s : State) (hpa o : Nat) (e : EccFinding), (s.rd F.RST_STATUS.READY = 1) ∧ (s.hdmLookup hpa = some o) ∧
      (s.rd F.MEM_STATUS.DRAM_OK = 1) ∧ (EccFinding.dram e = .uncorrectable) ∧ (kfind s.ms.poison (o / 64) = none)) ∧
    (∃ (s : State) (hpa o : Nat) (e : EccFinding), (s.rd F.RST_STATUS.READY = 1) ∧ (s.hdmLookup hpa = some o) ∧
      (s.rd F.MEM_STATUS.DRAM_OK ≠ 1)) ∧
    (∃ (s : State) (hpa be : Nat) (e : EccFinding) (d : List Nat), (s.rd F.RST_STATUS.READY = 1) ∧ (s.hdmLookup hpa
      = none)) ∧
    (∃ (s : State) (hpa : Nat) (e : EccFinding), (s.rd F.RST_STATUS.READY ≠ 1)) ∧
    (∃ (s : State) (hpa o be : Nat) (d : List Nat), (s.rd F.RST_STATUS.READY = 1) ∧ (s.hdmLookup hpa = some o) ∧
      (s.rd F.MEM_STATUS.DRAM_OK = 1) ∧ (placeOf (o / 64 * 64) ≠ .mirrorArea) ∧ (placeOf (o / 64 * 64) ≠ .dump) ∧
      ((s.ms.regions.any fun r => r.2.sealed_ && r.2.holds (o / 64 * 64) 64) = false) ∧ (kfind s.ms.poison (o / 64)
      = none ∨ be % 2 ^ 64 = 2 ^ 64 - 1)) ∧
    (∃ (s : State) (hpa o be : Nat) (d : List Nat), (s.rd F.RST_STATUS.READY = 1) ∧ (s.hdmLookup hpa = some o) ∧
      (s.rd F.MEM_STATUS.DRAM_OK = 1) ∧ (placeOf (o / 64 * 64) = .mirrorArea ∨ placeOf (o / 64 * 64) = .dump)) ∧
    (∃ (s : State) (hpa o be : Nat) (d : List Nat), (s.rd F.RST_STATUS.READY = 1) ∧ (s.hdmLookup hpa = some o) ∧
      (s.rd F.MEM_STATUS.DRAM_OK = 1) ∧ (placeOf (o / 64 * 64) ≠ .mirrorArea) ∧ (placeOf (o / 64 * 64) ≠ .dump) ∧
      ((s.ms.regions.any fun r => r.2.sealed_ && r.2.holds (o / 64 * 64) 64) = true)) ∧
    (∃ (s : State) (hpa be : Nat) (d : List Nat), (s.rd F.RST_STATUS.READY ≠ 1)) ∧
    (∃ (s : State) (r : Nat) (d : List Nat) (x : OutReq), (kfind s.ms.reqs r = some x) ∧ (x.loc = .host)) ∧
    (∃ (s : State) (r : Nat) (d : List Nat) (x : OutReq), (kfind s.ms.reqs r = some x) ∧ (x.loc = .host)) ∧
    (∃ (s : State) (r : Nat) (d : List Nat) (x : OutReq), (kfind s.ms.reqs r = some x) ∧ (x.loc = .bias)) ∧
    (∃ (s : State) (r : Nat) (d : List Nat) (x : OutReq), (kfind s.ms.reqs r = some x) ∧ (x.loc = .bias)) ∧
    (∃ (s : State) (b : Nat), (s.rd F.MEM_MIRROR_CFG.EN = 0)) ∧
    (∃ (s : State), (s.rd F.MEM_MIRROR_STATUS.STATE = mirRESYNC)) := by
  refine ⟨?_, ?_, ?_, ?_, ?_, ?_, ?_, ?_, ?_, ?_, ?_, ?_, ?_, ?_, ?_, ?_⟩
  · exact ⟨{ (State.reset.wr F.RST_STATUS.READY 1).wr F.MEM_STATUS.DRAM_OK 1 with ms.hdm := [(0, ⟨0, 2 ^ 28, 0⟩)] },
    100, 100, .clean, by decide⟩
  · exact ⟨{ (State.reset.wr F.RST_STATUS.READY 1).wr F.MEM_STATUS.DRAM_OK 1 with ms.hdm := [(0, ⟨0, 2 ^ 28, 0⟩)] },
    100, 100, 3, by decide⟩
  · exact ⟨{ (State.reset.wr F.RST_STATUS.READY 1).wr F.MEM_STATUS.DRAM_OK 1 with ms.hdm := [(0, ⟨0, 2 ^ 28, 0⟩)] },
    100, 100, .wrongGranule, by decide⟩
  · exact ⟨{ (State.reset.wr F.RST_STATUS.READY 1) with ms.hdm := [(0, ⟨0, 2 ^ 28, 0⟩)] }, 100, 100, .clean, by
    decide⟩
  · exact ⟨State.reset.wr F.RST_STATUS.READY 1, 100, 1, .clean, [], by decide⟩
  · exact ⟨State.reset, 100, .clean, by decide⟩
  · exact ⟨{ (State.reset.wr F.RST_STATUS.READY 1).wr F.MEM_STATUS.DRAM_OK 1 with ms.hdm := [(0, ⟨0, 2 ^ 28, 0⟩)] },
    100, 100, 2 ^ 64 - 1, [], by decide⟩
  · exact ⟨{ (State.reset.wr F.RST_STATUS.READY 1).wr F.MEM_STATUS.DRAM_OK 1 with ms.hdm := [(0, ⟨0, 2 ^ 41, 0⟩)] },
    0x11FDC000000, 0x11FDC000000, 0, [], by decide⟩
  · exact
    ⟨{ (State.reset.wr F.RST_STATUS.READY 1).wr F.MEM_STATUS.DRAM_OK 1 with ms.hdm := [(0, ⟨0, 2 ^ 28, 0⟩)], ms.regions := [(0, ⟨true, true, true, true, false, true, false, false, false, 0, 0, 2 ^ 42⟩)] },
    100, 100, 0, [], by decide⟩
  · exact ⟨State.reset, 100, 1, [], by decide⟩
  · exact ⟨{ State.reset with ms.reqs := [(5, ⟨.host, ⟨0, 0, 0, 0, 0, 0, ⟨0, 0, 0⟩, 0⟩, .read 4, 0, .host⟩)] }, 5,
    [], ⟨.host, ⟨0, 0, 0, 0, 0, 0, ⟨0, 0, 0⟩, 0⟩, .read 4, 0, .host⟩, by decide⟩
  · exact ⟨{ State.reset with ms.reqs := [(5, ⟨.host, ⟨0, 0, 0, 0, 0, 0, ⟨0, 0, 0⟩, 0⟩, .read 4, 0, .host⟩)] }, 5,
    [], ⟨.host, ⟨0, 0, 0, 0, 0, 0, ⟨0, 0, 0⟩, 0⟩, .read 4, 0, .host⟩, by decide⟩
  · exact ⟨{ State.reset with ms.reqs := [(5, ⟨.bias, ⟨0, 0, 0, 0, 0, 0, ⟨0, 0, 0⟩, 0⟩, .read 4, 0, .host⟩)] }, 5,
    [], ⟨.bias, ⟨0, 0, 0, 0, 0, 0, ⟨0, 0, 0⟩, 0⟩, .read 4, 0, .host⟩, by decide⟩
  · exact ⟨{ State.reset with ms.reqs := [(5, ⟨.bias, ⟨0, 0, 0, 0, 0, 0, ⟨0, 0, 0⟩, 0⟩, .read 4, 0, .host⟩)] }, 5,
    [], ⟨.bias, ⟨0, 0, 0, 0, 0, 0, ⟨0, 0, 0⟩, 0⟩, .read 4, 0, .host⟩, by decide⟩
  · exact ⟨State.reset, 77, by decide⟩
  · exact ⟨State.reset.wr F.MEM_MIRROR_STATUS.STATE 3, by decide⟩

theorem witness_Bar0Rows :
    (∃ (s : State) (off v i : Nat) (r : Reg) (hi : Bool), (r ∉ ([.ID_PART_CFG, .CORE_CFG, .CHK_CFG, .CHK_INJECT,
      .MEM_CFG, .MEM_REGION_COMMIT, .MEM_MIRROR_CFG, .MEM_OVF_CFG, .MEM_OVF_BASE, .MEM_BIAS_CMD, .QDB_TAIL,
      .QDB_QBASE, .QDB_QCFG, .QDB_EVT_VAL, .HCE_CFG, .HCE_RAMP_CFG, .HCE_PILOT_CFG, .HCE_SP, .HCE_GRP, .HCE_XT,
      .HCE_COEF_A, .HCE_COEF_B, .HCE_LOOP_CTL, .HCE_LOOP_CAL, .TIM_CFG, .TIM_SET_CTL, .TIM_TRIG_TGT, .TIM_TRIG_CTL,
      .ORQ_DOORBELL, .EVR_RD_CTL] : List Reg)) ∧ (regHalf off = some (r, i, hi)) ∧ (accessOk off 4 = true) ∧
      (inRequestArea off = false) ∧ (∀ c, windowCore off = some c → (s.quarter (coreQuarter c)).inReset = false ∧
      s.dozing (coreQuarter c) = false) ∧ (s.served r = true)) ∧
    (∃ (s : State) (off v i : Nat) (r : Reg), (r ∉ ([.ID_PART_CFG, .CORE_CFG, .CHK_CFG, .CHK_INJECT, .MEM_CFG,
      .MEM_REGION_COMMIT, .MEM_MIRROR_CFG, .MEM_OVF_CFG, .MEM_OVF_BASE, .MEM_BIAS_CMD, .QDB_TAIL, .QDB_QBASE,
      .QDB_QCFG, .QDB_EVT_VAL, .HCE_CFG, .HCE_RAMP_CFG, .HCE_PILOT_CFG, .HCE_SP, .HCE_GRP, .HCE_XT, .HCE_COEF_A,
      .HCE_COEF_B, .HCE_LOOP_CTL, .HCE_LOOP_CAL, .TIM_CFG, .TIM_SET_CTL, .TIM_TRIG_TGT, .TIM_TRIG_CTL,
      .ORQ_DOORBELL, .EVR_RD_CTL] : List Reg)) ∧ (accessParts off 8 = [(r, i, 0, 0), (r, i, 32, 32)]) ∧ (accessOk
      off 8 = true) ∧ (inRequestArea off = false) ∧ (∀ c, windowCore off = some c → (s.quarter (coreQuarter
      c)).inReset = false ∧ s.dozing (coreQuarter c) = false) ∧ (s.served r = true)) ∧
    (∃ (s : State) (off w v : Nat), (accessOk off w = true) ∧ (inRequestArea off = false) ∧ (regHalf off = none) ∧
      (w = 4) ∧ (windowCore off = none)) ∧
    (∃ (s : State) (v : Nat), (s.served .ID_PART_CFG = true) ∧ (v % 4 = 3)) ∧
    (∃ (s : State) (v n : Nat), (s.served .MEM_CFG = true) ∧ (n < 256) ∧ (s.ctxState n ≠ 0) ∧ ((writeWord
      Reg.MEM_CFG.fields (BitVec.ofNat 64 (2 ^ 32 - 1)) (BitVec.ofNat 64 (v % 2 ^ 32)) (s.rreg .MEM_CFG 0)) &&&
      rwMask Reg.MEM_CFG.fields ≠ (s.rreg .MEM_CFG 0) &&& rwMask Reg.MEM_CFG.fields)) ∧
    (∃ (s : State) (off w v : Nat), (accessOk off w = true) ∧ (inRequestArea off = true) ∧ (2 ≤ s.rd
      F.RST_STATUS.PHASE) ∧ (s.rd F.ORQ_MB_STATUS.BUSY = 0)) ∧
    (∃ (s : State) (off w v : Nat), (accessOk off w = true) ∧ (inRequestArea off = true) ∧ (2 ≤ s.rd
      F.RST_STATUS.PHASE) ∧ (s.rd F.ORQ_MB_STATUS.BUSY = 1)) ∧
    (∃ (s : State) (off w v : Nat), (accessOk off w = false)) ∧
    (∃ (s : State) (off w : Nat), (accessOk off w = false)) ∧
    (∃ (s : State) (off w : Nat), (accessOk off w = false)) ∧
    (∃ (s : State), (s.rd F.ORQ_MB_STATUS.BUSY = 0) ∧ (s.rd F.ORQ_MB_STATUS.FW_UP = 1) ∧ (s.rst.keepBusy ≤ s.opMs)) ∧
    (∃ (s : State), (s.rd F.ORQ_MB_STATUS.BUSY = 1)) := by
  refine ⟨?_, ?_, ?_, ?_, ?_, ?_, ?_, ?_, ?_, ?_, ?_, ?_⟩
  · exact ⟨State.reset.wr F.RST_STATUS.PHASE 2, 0x800000, 5, 0, .RST_CFG, false, by decide⟩
  · exact ⟨State.reset.wr F.RST_STATUS.PHASE 2, Reg.TIM_SET.off 0, 5, 0, .TIM_SET, by decide⟩
  · exact ⟨State.reset, 0x3FFFFFC, 4, 7, by decide⟩
  · exact ⟨State.reset.wr F.RST_STATUS.PHASE 5, 3, by decide⟩
  · exact ⟨(State.reset.wr F.RST_STATUS.PHASE 5).wr F.QDB_CTX.STATE 1 3, 1, 3, by decide⟩
  · exact ⟨State.reset.wr F.RST_STATUS.PHASE 2, 0x10004, 4, 7, by decide⟩
  · exact ⟨(State.reset.wr F.RST_STATUS.PHASE 2).wr F.ORQ_MB_STATUS.BUSY 1, 0x10004, 4, 7, by decide⟩
  · exact ⟨State.reset, 2, 4, 7, by decide⟩
  · exact ⟨State.reset, 2, 4, by decide⟩
  · exact ⟨State.reset, 2, 4, by decide⟩
  · exact ⟨State.reset.wr F.ORQ_MB_STATUS.FW_UP 1, by decide⟩
  · exact ⟨State.reset.wr F.ORQ_MB_STATUS.BUSY 1, by decide⟩

theorem witness_RecorderRows :
    (∃ (s : State) (r : EvRec), (s.evr.buf = [r]) ∧ (s.evr.latched = false) ∧ (s.evr.stopped = false) ∧ (s.evr.lost
      = none) ∧ (s.evr.coalescing = false) ∧ (s.evr.ring.length < s.evr.capacity)) ∧
    (∃ (s : State) (n : Nat) (bad : List Nat), (s.evr.latched = true)) ∧
    (∃ (s : State), (s.evr.latched = true)) ∧
    (∃ (s : State) (q : Nat), (s.evr.buf.find? (fun r => r.seq == q % 2 ^ 32) = none) ∧ (s.evr.ring.find? (fun r =>
      r.seq == q % 2 ^ 32) = none)) ∧
    (∃ (s : State) (q : Nat) (r : EvRec), (s.evr.buf.find? (fun r => r.seq == q % 2 ^ 32) = some r)) := by
  refine ⟨?_, ?_, ?_, ?_, ?_⟩
  · exact ⟨{ State.reset with evr.buf := [⟨0, 0, 0, 0, 0, 0, 0, 0, 0, none, false, false, false, 1, []⟩] }, ⟨0, 0,
    0, 0, 0, 0, 0, 0, 0, none, false, false, false, 1, []⟩, by decide⟩
  · exact ⟨{ State.reset with evr.latched := true }, 1, [], by decide⟩
  · exact ⟨{ State.reset with evr.latched := true }, by decide⟩
  · exact ⟨State.reset, 3, by decide⟩
  · exact ⟨{ State.reset with evr.buf := [⟨3, 0, 0, 0, 0, 0, 0, 0, 0, none, false, false, false, 1, []⟩] }, 3, ⟨3,
    0, 0, 0, 0, 0, 0, 0, 0, none, false, false, false, 1, []⟩, by decide⟩

theorem witness_HangRows :
    (∃ (s : State) (q a : Nat), (s.orqReleased = true) ∧ (a % 16 = 15) ∧ (s.mb.hbLast ≠ some (q % 256))) ∧
    (∃ (s : State) (q a : Nat), (s.orqReleased = true) ∧ (a % 16 ≠ 15) ∧ (s.mb.hbStall = false)) ∧
    (∃ (s : State), (s.rd F.ORQ_HB_STATUS.COUNTING = 1) ∧ (s.rd F.ORQ_HB_STATUS.HANG = 0) ∧ (s.mb.hbInPeriod =
      true)) ∧
    (∃ (s : State), (s.rd F.ORQ_HB_STATUS.COUNTING = 1) ∧ (s.rd F.ORQ_HB_STATUS.HANG = 0) ∧ (s.mb.hbInPeriod =
      false) ∧ (s.rd F.ORQ_HB_STATUS.MISSED = 19)) ∧
    (∃ (s : State), (s.rd F.ORQ_HB_STATUS.COUNTING = 1) ∧ (s.rd F.ORQ_HB_STATUS.HANG = 0) ∧ (s.mb.hbInPeriod =
      false) ∧ (s.rd F.ORQ_HB_STATUS.MISSED < 19)) ∧
    (∃ (s : State), (s.rst.keepTimes = [])) ∧
    (∃ (s : State) (e : Nat), (e < 5) ∧ (s.startedOn e ≠ [])) ∧
    (∃ (s : State) (n : Nat), (s.ctxState n = ctxACTIVE) ∧ ((s.ctx n).wd ≠ 0) ∧ (((List.range 8).filter fun q =>
      s.rd F.QDB_QCFG.STATE (qi n q) == qRUN) = [0]) ∧ (s.queueBusy (qi n 0) = true) ∧ ((s.ctx n).progress + (s.ctx
      n).wd * 1000 ≤ s.opMs)) ∧
    (∃ (s : State) (k : Nat), (s.stepDue k = true) ∧ (k ≠ 4)) ∧
    (∃ (s : State), (s.stepDue 4 = true) ∧ (s.rd F.ORQ_HB_STATUS.COUNTING = 0)) := by
  refine ⟨?_, ?_, ?_, ?_, ?_, ?_, ?_, ?_, ?_, ?_⟩
  · exact ⟨(State.reset.wr F.RST_STATUS.PHASE 4).wr F.RST_STATUS.MODE 1, 1, 15, by decide⟩
  · exact ⟨(State.reset.wr F.RST_STATUS.PHASE 4).wr F.RST_STATUS.MODE 1, 1, 14, by decide⟩
  · exact ⟨{ State.reset.wr F.ORQ_HB_STATUS.COUNTING 1 with mb.hbInPeriod := true }, by decide⟩
  · exact ⟨(State.reset.wr F.ORQ_HB_STATUS.COUNTING 1).wr F.ORQ_HB_STATUS.MISSED 19, by decide⟩
  · exact ⟨State.reset.wr F.ORQ_HB_STATUS.COUNTING 1, by decide⟩
  · exact ⟨State.reset, by decide⟩
  · exact ⟨{ State.reset with eng.queues := [(0, ⟨1, [⟨0, [], some .waiting, false⟩]⟩)] }, 0, by decide⟩
  · exact
    ⟨{ (State.reset.wr F.QDB_CTX.STATE 1 2).wr F.QDB_QCFG.STATE 2 16 with time.raw := 2000000000, eng.ctxs := [(2, { Ctx.init with wd := 1 })] },
    2, by decide⟩
  · exact ⟨State.reset.wr F.RST_STATUS.PHASE 5, 6, by decide⟩
  · exact ⟨State.reset.wr F.RST_STATUS.PHASE 2, by decide⟩

theorem witness_MirrorHeartbeatRows :
    (∃ (s : State) (p st n i : Nat), (p < 24) ∧ (s.chanUp p = true)) ∧
    (∃ (s : State) (src v st ro b : Nat), (s.rd F.MEM_MIRROR_CFG.EN = 1) ∧ (src = s.rd F.MEM_MIRROR_CFG.BUDDY) ∧
      (s.rd F.RST_MIRROR_STATUS.P1_UP = 0) ∧ (s.boundCirc src = none)) ∧
    (∃ (s : State) (n : Nat), (s.mirrorPeer = some n) ∧ (s.rd F.RST_MIRROR_STATUS.P1_UP = 1)) ∧
    (∃ (s : State) (n : Nat), (s.mirrorPeer = some n) ∧ (s.rd F.RST_MIRROR_STATUS.P2_UP = 0) ∧ (s.splitAs 4 =
      false)) := by
  refine ⟨?_, ?_, ?_, ?_⟩
  · exact ⟨State.reset.wr F.LNK_LANE.STATE lsUP 183, 3, 1, 2, 3, by decide⟩
  · exact ⟨(State.reset.wr F.MEM_MIRROR_CFG.EN 1).wr F.MEM_MIRROR_CFG.BUDDY 5, 5, 1, 0, 0, 0, by decide⟩
  · exact ⟨((State.reset.wr F.MEM_MIRROR_CFG.EN 1).wr F.MEM_MIRROR_CFG.BUDDY 5).wr F.RST_MIRROR_STATUS.P1_UP 1, 5,
    by decide⟩
  · exact ⟨(State.reset.wr F.MEM_MIRROR_CFG.EN 1).wr F.MEM_MIRROR_CFG.BUDDY 5, 5, by decide⟩

theorem witness_ResetActionRows :
    (∃ (s : State) (n : Nat) (r : Removal), (s.removal n = some r) ∧ (r.begun = false)) ∧
    (∃ (s : State) (n : Nat) (r : Removal), (s.removal n = some r) ∧ (r.begun = true)) ∧
    (∃ (s : State) (u a n : Nat) (r : RunAct) (d : Dump), (s.rst.running = some r) ∧ (r.slot = some n) ∧ (kfind
      s.rst.dumps n = some d)) ∧
    (∃ (s : State) (n : Nat) (r : RunAct) (d : Dump), (s.rst.running = some r) ∧ (r.slot = some n) ∧ (kfind
      s.rst.dumps n = some d)) ∧
    (∃ (s : State) (n : Nat) (d : Dump), (s.rst.copying = some n) ∧ (kfind s.rst.dumps n = some d)) ∧
    (∃ (s : State) (a : Action) (q : List Action), (s.rst.running = none) ∧ (s.rst.queue = a :: q)) ∧
    (∃ (s : State) (r : RunAct), (s.rst.running = some r) ∧ (r.act.cls < 6)) ∧
    (∃ (s : State) (e : Nat) (r : RunAct), (s.rst.running = some r) ∧ (r.act.cls = 3) ∧ (r.phase = .called) ∧
      (r.act.engine = e)) ∧
    (∃ (s : State) (e : Nat) (r : RunAct), (s.startedOn e = []) ∧ (s.ms.biasWait = []) ∧ (s.rst.running = some r) ∧
      (r.act.cls = 3) ∧ (r.phase = .called) ∧ (r.act.engine = e)) ∧
    (∃ (s : State) (e : Nat) (r : RunAct), (s.rst.running = some r) ∧ (r.act.cls = 3) ∧ (r.phase = .executed) ∧
      (r.act.engine = e) ∧ (e ≠ 3)) ∧
    (∃ (s : State) (p : Nat) (r : RunAct), (s.rst.running = some r) ∧ (r.act.cls = 4) ∧ (r.phase = .called) ∧
      (r.act.part = p)) ∧
    (∃ (s : State) (p : Nat) (r : RunAct), (s.rst.running = some r) ∧ (r.act.cls = 4) ∧ (r.phase = .executed) ∧
      (r.act.part = p)) ∧
    (∃ (s : State) (r : RunAct) (l : Bool), (s.rst.running = some r) ∧ (r.act.cls = 5) ∧ (r.phase = .called)) ∧
    (∃ (s : State) (r : RunAct), (s.rst.running = some r) ∧ (r.act.cls = 6) ∧ (r.phase = .called)) ∧
    (∃ (s : State) (r : RunAct), (s.rst.running = some r) ∧ (r.act.cls = 6) ∧ (r.phase = .draining) ∧ (r.cycleEn =
      true)) := by
  refine ⟨?_, ?_, ?_, ?_, ?_, ?_, ?_, ?_, ?_, ?_, ?_, ?_, ?_, ?_, ?_⟩
  · exact ⟨{ State.reset with rst.removals := [⟨4, 0, 0, false, none, 0, 0⟩] }, 4, ⟨4, 0, 0, false, none, 0, 0⟩, by
    decide⟩
  · exact ⟨{ State.reset with rst.removals := [⟨4, 0, 0, true, none, 0, 0⟩] }, 4, ⟨4, 0, 0, true, none, 0, 0⟩, by
    decide⟩
  · exact
    ⟨{ State.reset with rst.running := some ⟨⟨3, 0, 0, 1, none, 3, 0, 0, false, none, true⟩, 0, some 1, .executed, false, false⟩, rst.dumps := [(1, ⟨0, 3, 0, 1, none, [(0x210, 0, 5)], 0, 0, 0, 0⟩)] },
    0x210, 9, 1, ⟨⟨3, 0, 0, 1, none, 3, 0, 0, false, none, true⟩, 0, some 1, .executed, false, false⟩, ⟨0, 3, 0, 1,
    none, [(0x210, 0, 5)], 0, 0, 0, 0⟩, by decide⟩
  · exact
    ⟨{ State.reset with rst.running := some ⟨⟨3, 0, 0, 1, none, 3, 0, 0, false, none, true⟩, 0, some 1, .executed, false, false⟩, rst.dumps := [(1, ⟨0, 3, 0, 1, none, [(0x210, 0, 5)], 0, 0, 0, 0⟩)] },
    1, ⟨⟨3, 0, 0, 1, none, 3, 0, 0, false, none, true⟩, 0, some 1, .executed, false, false⟩, ⟨0, 3, 0, 1, none,
    [(0x210, 0, 5)], 0, 0, 0, 0⟩, by decide⟩
  · exact ⟨{ State.reset with rst.copying := some 1, rst.dumps := [(1, ⟨0, 3, 0, 1, none, [], 0, 0, 0, 0⟩)] }, 1,
    ⟨0, 3, 0, 1, none, [], 0, 0, 0, 0⟩, by decide⟩
  · exact ⟨{ State.reset with rst.queue := [⟨3, 0, 0, 1, none, 3, 0, 0, false, none, true⟩] }, ⟨3, 0, 0, 1, none, 3,
    0, 0, false, none, true⟩, [], by decide⟩
  · exact
    ⟨{ State.reset with rst.running := some ⟨⟨3, 0, 0, 1, none, 3, 0, 0, false, none, true⟩, 0, none, .executed, false, false⟩ },
    ⟨⟨3, 0, 0, 1, none, 3, 0, 0, false, none, true⟩, 0, none, .executed, false, false⟩, by decide⟩
  · exact
    ⟨{ State.reset with rst.running := some ⟨⟨3, 0, 0, 1, none, 3, 0, 0, false, none, true⟩, 0, none, .called, false, false⟩ },
    0, ⟨⟨3, 0, 0, 1, none, 3, 0, 0, false, none, true⟩, 0, none, .called, false, false⟩, by decide⟩
  · exact
    ⟨{ State.reset with rst.running := some ⟨⟨3, 0, 0, 1, none, 3, 0, 0, false, none, true⟩, 0, none, .called, false, false⟩ },
    0, ⟨⟨3, 0, 0, 1, none, 3, 0, 0, false, none, true⟩, 0, none, .called, false, false⟩, by decide⟩
  · exact
    ⟨{ State.reset with rst.running := some ⟨⟨3, 0, 0, 1, none, 3, 0, 0, false, none, true⟩, 0, none, .executed, false, false⟩ },
    0, ⟨⟨3, 0, 0, 1, none, 3, 0, 0, false, none, true⟩, 0, none, .executed, false, false⟩, by decide⟩
  · exact
    ⟨{ State.reset with rst.running := some ⟨⟨4, 0, 0, 1, none, 3, 0, 0, false, none, true⟩, 0, none, .called, false, false⟩ },
    0, ⟨⟨4, 0, 0, 1, none, 3, 0, 0, false, none, true⟩, 0, none, .called, false, false⟩, by decide⟩
  · exact
    ⟨{ State.reset with rst.running := some ⟨⟨4, 0, 0, 1, none, 3, 0, 0, false, none, true⟩, 0, none, .executed, false, false⟩ },
    0, ⟨⟨4, 0, 0, 1, none, 3, 0, 0, false, none, true⟩, 0, none, .executed, false, false⟩, by decide⟩
  · exact
    ⟨{ State.reset with rst.running := some ⟨⟨5, 0, 0, 1, none, 3, 0, 0, false, none, true⟩, 0, none, .called, false, false⟩ },
    ⟨⟨5, 0, 0, 1, none, 3, 0, 0, false, none, true⟩, 0, none, .called, false, false⟩, false, by decide⟩
  · exact
    ⟨{ State.reset with rst.running := some ⟨⟨6, 0, 0, 1, none, 3, 0, 0, false, none, true⟩, 0, none, .called, false, false⟩ },
    ⟨⟨6, 0, 0, 1, none, 3, 0, 0, false, none, true⟩, 0, none, .called, false, false⟩, by decide⟩
  · exact
    ⟨{ State.reset.wr F.RST_CFG.PWRCYC_EN 1 with rst.running := some ⟨⟨6, 0, 0, 1, none, 3, 0, 0, false, none, true⟩, 0, none, .draining, false, true⟩ },
    ⟨⟨6, 0, 0, 1, none, 3, 0, 0, false, none, true⟩, 0, none, .draining, false, true⟩, by decide⟩

theorem witness_KeeperRows :
    (∃ (s : State) (n : Nat), (s.pwr.a.carrying = false) ∧ (s.pwr.b.carrying = false) ∧ (s.pwr.domains = true) ∧
      (s.pwr.a.inRange = false) ∧ (s.pwr.b.inRange = false) ∧ (s.pwr.holdUp = false)) ∧
    (∃ (s : State) (n : Nat), (s.pwr.a.carrying = false) ∧ (s.pwr.b.carrying = false) ∧ (s.pwr.domains = true) ∧
      (s.pwr.a.inRange = true) ∧ (s.pwr.holdUp = false)) ∧
    (∃ (s : State) (x : Side) (cv : Nat), (s.pwr.holdUp = true) ∧ (4550 ≤ cv) ∧ (cv ≤ 5900) ∧ ((s.feed x).fault =
      false) ∧ ((s.feed (otherSide x)).carrying = false)) ∧
    (∃ (s : State), (s.pwr.holdUp = true)) ∧
    (∃ (s : State), (s.upd.keepWait = true)) ∧
    (∃ (s : State) (p k l r : Bool), (s.pwr.started = false) ∧ (s.pwr.domains = true)) ∧
    (∃ (s : State) (k f m : Nat), (s.pwr.domains = true) ∧ (s.stepDue k = true) ∧ (k ≠ 2) ∧ (k ≠ 4)) ∧
    (∃ (s : State) (f m : Nat), (s.pwr.domains = true) ∧ (s.stepDue 4 = true) ∧ (s.rd F.ORQ_HB_STATUS.COUNTING = 1)) ∧
    (∃ (s : State) (m : Nat), (s.pwr.domains = true) ∧ (s.stepDue 6 = true) ∧ (s.ms.full = false)) := by
  refine ⟨?_, ?_, ?_, ?_, ?_, ?_, ?_, ?_, ?_⟩
  · exact ⟨{ State.reset with pwr.domains := true }, 0, by decide⟩
  · exact ⟨{ State.reset with pwr.domains := true, pwr.a.inRange := true }, 0, by decide⟩
  · exact ⟨{ State.reset with pwr.holdUp := true }, .a, 5000, by decide⟩
  · exact ⟨{ State.reset with pwr.holdUp := true }, by decide⟩
  · exact ⟨{ State.reset with upd.keepWait := true }, by decide⟩
  · exact ⟨{ State.reset with pwr.domains := true }, true, true, true, false, by decide⟩
  · exact ⟨{ State.reset.wr F.RST_STATUS.PHASE 5 with pwr.domains := true }, 6, 0, 0, by decide⟩
  · exact ⟨{ (State.reset.wr F.RST_STATUS.PHASE 2).wr F.ORQ_HB_STATUS.COUNTING 1 with pwr.domains := true }, 0, 0,
    by decide⟩
  · exact ⟨{ State.reset.wr F.RST_STATUS.PHASE 5 with pwr.domains := true, ms.full := false }, 0, by decide⟩

theorem witness_QueueRows :
    (∃ (s : State) (slot queue v : Nat), (queue < 8) ∧ (v < 2 ^ 32) ∧ (s.ctxState slot = ctxACTIVE) ∧ (s.rd
      F.QDB_QCFG.STATE (qi slot queue) = qOFF)) ∧
    (∃ (s : State) (slot queue v : Nat), (queue < 8) ∧ (v < 2 ^ 32) ∧ (s.ctxState slot = ctxACTIVE) ∧ (s.rd
      F.QDB_QCFG.STATE (qi slot queue) = qIDLE) ∧ (s.rd F.QDB_HEAD.HEAD (qi slot queue) = 0) ∧ (s.rd F.QDB_TAIL.TAIL
      (qi slot queue) = 0) ∧ (0 < v) ∧ (v ≤ s.depth (qi slot queue)) ∧ (s.depth (qi slot queue) ≤ 65536)) ∧
    (∃ (s : State) (slot queue v : Nat), (queue < 8) ∧ (v < 2 ^ 32) ∧ (s.ctxState slot = ctxACTIVE) ∧ (s.rd
      F.QDB_QCFG.STATE (qi slot queue) ≠ qOFF) ∧ (s.rd F.QDB_HEAD.HEAD (qi slot queue) = 0) ∧ (s.rd F.QDB_TAIL.TAIL
      (qi slot queue) = 0) ∧ (s.depth (qi slot queue) < v) ∧ (s.depth (qi slot queue) ≤ 65536)) ∧
    (∃ (s : State) (slot queue v : Nat), (s.ctxState slot = ctxACTIVE) ∧ (s.rd F.QDB_QCFG.EN (qi slot queue) = 0) ∧
      (6 ≤ bitsOf v 7 3) ∧ (bitsOf v 7 3 ≤ 16) ∧ (bitsOf v 2 0 ≤ 4) ∧ (s.areaOk (s.queueBase (qi slot queue)) (2 ^
      bitsOf v 7 3) = true)) ∧
    (∃ (s : State) (slot queue : Nat), (s.ctxState slot = ctxACTIVE) ∧ (s.rd F.QDB_QCFG.STATE (qi slot queue) =
      qIDLE)) ∧
    (∃ (s : State) (slot queue : Nat), (s.ctxState slot = ctxACTIVE) ∧ (s.rd F.QDB_QCFG.STATE (qi slot queue) =
      qRUN)) ∧
    (∃ (s : State) (slot queue : Nat) (bs : List (BitVec 8)), (s.ctxState slot = ctxACTIVE) ∧ (s.rd F.QDB_QCFG.STATE
      (qi slot queue) = qRUN) ∧ ((s.queue (qi slot queue)).fetched ≠ s.rd F.QDB_TAIL.TAIL (qi slot queue)) ∧
      (((s.queue (qi slot queue)).cmds.filter fun c => c.work.isNone).length < 16) ∧ (s.fetching1 slot queue =
      false) ∧ (bitOf (s.queueBase (qi slot queue) + (s.queue (qi slot queue)).fetched % s.depth (qi slot queue) *
      64) 63 = false) ∧ (s.areaFault (s.ctxJob slot) (bitsOf (s.queueBase (qi slot queue) + (s.queue (qi slot
      queue)).fetched % s.depth (qi slot queue) * 64) 41 0) (.read 64) = none) ∧ (s.localAccess (s.engineSource
      ⟨slot, queue, (s.queue (qi slot queue)).fetched⟩) (.read 64) (bitsOf (s.queueBase (qi slot queue) + (s.queue
      (qi slot queue)).fetched % s.depth (qi slot queue) * 64) 41 0) .fetch = (s, .data bs))) ∧
    (∃ (s : State) (slot queue : Nat) (l : List Nat) (e : EccFinding), (s.ctxState slot = ctxACTIVE) ∧ (s.rd
      F.QDB_QCFG.STATE (qi slot queue) = qRUN) ∧ ((s.queue (qi slot queue)).fetched ≠ s.rd F.QDB_TAIL.TAIL (qi slot
      queue)) ∧ (((s.queue (qi slot queue)).cmds.filter fun c => c.work.isNone).length < 16) ∧ (s.fetching1 slot
      queue = false) ∧ (bitOf (s.queueBase (qi slot queue) + (s.queue (qi slot queue)).fetched % s.depth (qi slot
      queue) * 64) 63 = true) ∧ (s.ms.linkDown = false) ∧ (s.pwr.perstLow = false)) ∧
    (∃ (s : State) (e i : Nat) (a : Arb) (c : Cmd), ((s.arb e).held = false) ∧ (s.chooseQueue e = some (i, a)) ∧
      ((s.queue i).startable = some c) ∧ (recordError e c.bytes = none)) ∧
    (∃ (s : State) (e i code : Nat) (a : Arb) (c : Cmd), ((s.arb e).held = false) ∧ (s.chooseQueue e = some (i, a))
      ∧ ((s.queue i).startable = some c) ∧ (recordError e c.bytes = some code)) ∧
    (∃ (s : State) (v : Nat), (s.ctxState (s.rd F.QDB_EVT_SEL.SLOT) = ctxACTIVE)) ∧
    (∃ (s : State) (slot queue count x y : Nat) (c : Cmd), (s.ctxState slot = ctxACTIVE) ∧ (s.cmdAt ⟨slot, queue,
      count⟩ = some c) ∧ (c.work = some (.done x y)) ∧ (c.ended = false) ∧ (s.outstanding ⟨slot, queue, count⟩ =
      false) ∧ (bitOf (leAt c.bytes 1 1) 1 = false) ∧ (bitOf (leAt c.bytes 1 1) 2 = false)) := by
  refine ⟨?_, ?_, ?_, ?_, ?_, ?_, ?_, ?_, ?_, ?_, ?_, ?_⟩
  · exact ⟨State.reset.wr F.QDB_CTX.STATE 1 0, 0, 0, 5, by decide⟩
  · exact ⟨((State.reset.wr F.QDB_CTX.STATE 1 0).wr F.QDB_QCFG.STATE 1 0).wr F.QDB_QCFG.LOG2_DEPTH 6 0, 0, 0, 5, by
    decide⟩
  · exact ⟨((State.reset.wr F.QDB_CTX.STATE 1 0).wr F.QDB_QCFG.STATE 1 0).wr F.QDB_QCFG.LOG2_DEPTH 6 0, 0, 0, 65, by
    decide⟩
  · exact ⟨State.reset.wr F.QDB_CTX.STATE 1 0, 0, 0, 48, by decide⟩
  · exact ⟨((State.reset.wr F.QDB_CTX.STATE 1 0).wr F.QDB_QCFG.STATE 1 0), 0, 0, by decide⟩
  · exact ⟨((State.reset.wr F.QDB_CTX.STATE 1 0).wr F.QDB_QCFG.STATE 2 0), 0, 0, by decide⟩
  · exact ⟨demoQueue, 0, 0, List.replicate 64 0, by decide⟩
  · exact
    ⟨{ (demoQueue.wreg .QDB_QBASE (BitVec.ofNat 64 (2 ^ 63)) 0) with ms.linkDown := false, pwr.perstLow := false },
    0, 0, [], .clean, by decide⟩
  · exact ⟨(demoWith [0] none).wr F.QDB_QCFG.STATE 2 0, 0, 0, ⟨[(0, 63), (1, 64), (2, 64), (3, 64)], [(0, 0)],
    false⟩, demoCmd [0] none, by decide⟩
  · exact ⟨(demoWith [0x20] none).wr F.QDB_QCFG.STATE 2 0, 0, 0, 1, ⟨[(0, 63), (1, 64), (2, 64), (3, 64)], [(0, 0)],
    false⟩, demoCmd [0x20] none, by decide⟩
  · exact ⟨State.reset.wr F.QDB_CTX.STATE 1 0, 5, by decide⟩
  · exact ⟨demoWith [0] (some (.done 0 0)), 0, 0, 0, 0, 0, demoCmd [0] (some (.done 0 0)), by decide⟩

theorem witness_CommonCommandRows :
    (∃ (s : State) (slot queue count : Nat) (c : Cmd), (Started s ⟨slot, queue, count⟩ 0x00 c)) ∧
    (∃ (s : State) (slot queue count : Nat) (c : Cmd), (Started s ⟨slot, queue, count⟩ 0x01 c) ∧ (leAt c.bytes 8 1 ≤
      63) ∧ (leAt c.bytes 16 8 ≤ (s.event slot (leAt c.bytes 8 1)).toNat)) ∧
    (∃ (s : State) (slot queue count : Nat) (c : Cmd), (Started s ⟨slot, queue, count⟩ 0x01 c) ∧ (leAt c.bytes 8 1 ≤
      63) ∧ ((s.event slot (leAt c.bytes 8 1)).toNat < leAt c.bytes 16 8)) ∧
    (∃ (s : State) (slot queue count : Nat) (c : Cmd), (Started s ⟨slot, queue, count⟩ 0x01 c) ∧ (63 < leAt c.bytes
      8 1)) ∧
    (∃ (s : State) (slot queue count : Nat) (c : Cmd), (Started s ⟨slot, queue, count⟩ 0x02 c) ∧ (leAt c.bytes 9 1 =
      0) ∧ (leAt c.bytes 8 1 ≤ 63)) ∧
    (∃ (s : State) (slot queue count : Nat) (c : Cmd), (Started s ⟨slot, queue, count⟩ 0x02 c) ∧ (leAt c.bytes 9 1 =
      1) ∧ (leAt c.bytes 8 1 ≤ 63)) ∧
    (∃ (s : State) (slot queue count : Nat) (c : Cmd), (Started s ⟨slot, queue, count⟩ 0x03 c) ∧ (leAt c.bytes 16 6
      ≤ s.time.step)) ∧
    (∃ (s : State) (slot queue count : Nat) (c : Cmd), (Started s ⟨slot, queue, count⟩ 0x03 c) ∧ (s.time.step < leAt
      c.bytes 16 6)) ∧
    (∃ (s : State) (slot queue count : Nat) (c : Cmd) (d : List (BitVec 8)), (Started s ⟨slot, queue, count⟩ 0x04 c)
      ∧ (leAt c.bytes 16 8 % 16 = 0) ∧ ((s.engineAccess ⟨slot, queue, count⟩ (.write (leBytes 4 s.nt ++ leBytes 2
      s.time.epoch ++ leBytes 2 0 ++ leBytes 6 s.time.step ++ leBytes 2 0)) (leAt c.bytes 16 8) .store).2 = .data
      d)) ∧
    (∃ (s : State) (slot queue count : Nat) (c : Cmd) (bs : List (BitVec 8)), (Started s ⟨slot, queue, count⟩ 0x05
      c) ∧ (leAt c.bytes 16 8 % 8 = 0) ∧ (s.isLocalAddr (leAt c.bytes 16 8) = true) ∧ ((s.engineAccess ⟨slot, queue,
      count⟩ (.read 8) (leAt c.bytes 16 8) (.cmd 0)) = (s, .data bs))) ∧
    (∃ (s : State) (slot queue count : Nat) (c : Cmd) (e : EccFinding), (Started s ⟨slot, queue, count⟩ 0x05 c) ∧
      (leAt c.bytes 16 8 % 8 ≠ 0 ∨ s.isLocalAddr (leAt c.bytes 16 8) = false)) ∧
    (∃ (s : State) (slot queue count : Nat) (c : Cmd) (bs : List (BitVec 8)), (s.cmdAt ⟨slot, queue, count⟩ = some
      c) ∧ (c.opcode = 0x05) ∧ (c.work = some .waiting) ∧ (s.ctxState slot = ctxACTIVE) ∧ ((s.ms.reqs.any fun q =>
      q.2.src.cmd == ⟨slot, queue, count⟩ && q.2.src.engine != 5) = false) ∧ ((s.engineAccess ⟨slot, queue, count⟩
      (.read 8) (leAt c.bytes 16 8) (.cmd 0)) = (s, .data bs))) ∧
    (∃ (s : State) (slot queue count : Nat) (c : Cmd) (e : EccFinding) (ps : List (Nat × List (BitVec 8))), (s.cmdAt
      ⟨slot, queue, count⟩ = some c) ∧ (c.opcode = 0x05) ∧ (c.work = some (.convert ps)) ∧ (s.ctxState slot =
      ctxACTIVE)) := by
  refine ⟨?_, ?_, ?_, ?_, ?_, ?_, ?_, ?_, ?_, ?_, ?_, ?_, ?_⟩
  · exact ⟨demoWith [0] (some .started), 0, 0, 0, demoCmd [0] (some .started), by decide⟩
  · exact ⟨demoWith [1, 0, 0, 0, 0, 0, 0, 0, 3] (some .started), 0, 0, 0, demoCmd [1, 0, 0, 0, 0, 0, 0, 0, 3] (some
    .started), by decide⟩
  · exact ⟨demoWith [1, 0, 0, 0, 0, 0, 0, 0, 3, 0, 0, 0, 0, 0, 0, 0, 5] (some .started), 0, 0, 0, demoCmd [1, 0, 0,
    0, 0, 0, 0, 0, 3, 0, 0, 0, 0, 0, 0, 0, 5] (some .started), by decide⟩
  · exact ⟨demoWith [1, 0, 0, 0, 0, 0, 0, 0, 64] (some .started), 0, 0, 0, demoCmd [1, 0, 0, 0, 0, 0, 0, 0, 64]
    (some .started), by decide⟩
  · exact ⟨demoWith [2, 0, 0, 0, 0, 0, 0, 0, 3, 0, 0, 0, 0, 0, 0, 0, 5] (some .started), 0, 0, 0, demoCmd [2, 0, 0,
    0, 0, 0, 0, 0, 3, 0, 0, 0, 0, 0, 0, 0, 5] (some .started), by decide⟩
  · exact ⟨demoWith [2, 0, 0, 0, 0, 0, 0, 0, 3, 1, 0, 0, 0, 0, 0, 0, 5] (some .started), 0, 0, 0, demoCmd [2, 0, 0,
    0, 0, 0, 0, 0, 3, 1, 0, 0, 0, 0, 0, 0, 5] (some .started), by decide⟩
  · exact ⟨demoWith [3] (some .started), 0, 0, 0, demoCmd [3] (some .started), by decide⟩
  · exact ⟨demoWith [3, 0, 0, 0, 0, 0, 0, 0, 0, 0, 0, 0, 0, 0, 0, 0, 5] (some .started), 0, 0, 0, demoCmd [3, 0, 0,
    0, 0, 0, 0, 0, 0, 0, 0, 0, 0, 0, 0, 0, 5] (some .started), by decide⟩
  · exact ⟨demoWith [4, 0, 0, 0, 0, 0, 0, 0, 0, 0, 0, 0, 0, 0, 0, 0, 0, 0, 0, 0, 0, 0, 0, 4] (some .started), 0, 0,
    0, demoCmd [4, 0, 0, 0, 0, 0, 0, 0, 0, 0, 0, 0, 0, 0, 0, 0, 0, 0, 0, 0, 0, 0, 0, 4] (some .started), [], by
    decide⟩
  · exact ⟨demoWith [5, 0, 0, 0, 0, 0, 0, 0, 0, 0, 0, 0, 0, 0, 0, 0, 0, 0, 0, 0, 0, 0, 0, 4] (some .started), 0, 0,
    0, demoCmd [5, 0, 0, 0, 0, 0, 0, 0, 0, 0, 0, 0, 0, 0, 0, 0, 0, 0, 0, 0, 0, 0, 0, 4] (some .started),
    List.replicate 8 0, by decide⟩
  · exact ⟨demoWith [5, 0, 0, 0, 0, 0, 0, 0, 0, 0, 0, 0, 0, 0, 0, 0, 1] (some .started), 0, 0, 0, demoCmd [5, 0, 0,
    0, 0, 0, 0, 0, 0, 0, 0, 0, 0, 0, 0, 0, 1] (some .started), .clean, by decide⟩
  · exact ⟨demoWith [5, 0, 0, 0, 0, 0, 0, 0, 0, 0, 0, 0, 0, 0, 0, 0, 0, 0, 0, 0, 0, 0, 0, 4] (some .waiting), 0, 0,
    0, demoCmd [5, 0, 0, 0, 0, 0, 0, 0, 0, 0, 0, 0, 0, 0, 0, 0, 0, 0, 0, 0, 0, 0, 0, 4] (some .waiting),
    List.replicate 8 0, by decide⟩
  · exact ⟨demoWith [5] (some (.convert [(0, [])])), 0, 0, 0, demoCmd [5] (some (.convert [(0, [])])), .clean, [(0,
    [])], by decide⟩

theorem witness_DispatchRows :
    (∃ (s : State) (slot queue count : Nat) (c : Cmd), (Started s ⟨slot, queue, count⟩ 0x10 c) ∧ (1 ≤ c.threads) ∧
      (c.threads ≤ 64) ∧ (c.groups ≠ 0) ∧ (c.coreFirst + c.coreSpan ≤ 288) ∧ (c.span.any (fun x => partOf s.partMode
      (coreQuarter x) != s.ctxPart slot) = false) ∧ (c.span.all (fun x => s.retire x == 2) = false) ∧ (c.kernelBase
      % 256 = 0)) ∧
    (∃ (s : State) (slot queue count : Nat) (c : Cmd), (Started s ⟨slot, queue, count⟩ 0x10 c) ∧ (64 < c.threads)) ∧
    (∃ (s : State) (slot queue count x : Nat) (c : Cmd) (d : DispRun), (s.cmdAt ⟨slot, queue, count⟩ = some c) ∧
      (c.work = some (.dispatch d)) ∧ (s.ctxState slot = ctxACTIVE) ∧ (d.next < c.groups) ∧ ((s.arb 0).held = false)
      ∧ (((List.range c.coreSpan).map fun i => c.coreFirst + (d.from_ - c.coreFirst + i) % c.coreSpan).find? (fun y
      => s.eligible y c.threads (s.ctxId slot)) = some x) ∧ ((s.core x).lastCtx ≠ some (s.ctxId slot)) ∧ (s.dozing
      (coreQuarter x) = false)) ∧
    (∃ (s : State) (slot queue count x : Nat) (c : Cmd) (d : DispRun), (s.cmdAt ⟨slot, queue, count⟩ = some c) ∧
      (c.work = some (.dispatch d)) ∧ (s.ctxState slot = ctxACTIVE) ∧ (d.next < c.groups) ∧ ((s.arb 0).held = false)
      ∧ (((List.range c.coreSpan).map fun i => c.coreFirst + (d.from_ - c.coreFirst + i) % c.coreSpan).find? (fun y
      => s.eligible y c.threads (s.ctxId slot)) = some x) ∧ ((s.core x).lastCtx = some (s.ctxId slot)) ∧ ((s.core
      x).zeroing = false) ∧ (s.dozing (coreQuarter x) = false)) ∧
    (∃ (s : State) (k : Nat), ((s.core k).zeroing = true) ∧ (s.gated (coreQuarter k) = false) ∧ ((s.core k).waiting
      = [])) := by
  refine ⟨?_, ?_, ?_, ?_, ?_⟩
  · exact ⟨demoWith [16, 0, 0, 0, 0, 0, 0, 0, 0, 0, 0, 0, 0, 0, 0, 0, 0, 0, 0, 0, 1, 0, 1, 0, 0, 0, 1] (some
    .started), 0, 0, 0, demoCmd [16, 0, 0, 0, 0, 0, 0, 0, 0, 0, 0, 0, 0, 0, 0, 0, 0, 0, 0, 0, 1, 0, 1, 0, 0, 0, 1]
    (some .started), by decide⟩
  · exact ⟨demoWith [16, 0, 0, 0, 0, 0, 0, 0, 0, 0, 0, 0, 0, 0, 0, 0, 0, 0, 0, 0, 65] (some .started), 0, 0, 0,
    demoCmd [16, 0, 0, 0, 0, 0, 0, 0, 0, 0, 0, 0, 0, 0, 0, 0, 0, 0, 0, 0, 65] (some .started), by decide⟩
  · exact ⟨demoDispatch, 0, 0, 0, 0, demoCmd demoDispatchBytes (some (.dispatch ⟨0, 0, []⟩)), ⟨0, 0, []⟩, by decide⟩
  · exact ⟨{ demoDispatch with cores := [(0, { Core.init with lastCtx := some (demoDispatch.ctxId 0) })] }, 0, 0, 0,
    0, demoCmd demoDispatchBytes (some (.dispatch ⟨0, 0, []⟩)), ⟨0, 0, []⟩, by decide⟩
  · exact ⟨{ demoBase with cores := [(0, { Core.init with zeroing := true })] }, 0, by decide⟩

theorem witness_CopyRows :
    (∃ (s : State) (slot queue count : Nat) (c : Cmd) (e e2 : Int), (Started s ⟨slot, queue, count⟩ 0x20 c) ∧ (1 ≤
      leAt c.bytes 24 8) ∧ (leAt c.bytes 24 8 ≤ 2 ^ 36) ∧ (residueSees e = false) ∧ ((s.hist (engUnit 32)).perm =
      false)) ∧
    (∃ (s : State) (slot queue count : Nat) (c : Cmd) (f : EccFinding) (e e2 : Int), (Started s ⟨slot, queue, count⟩
      0x20 c) ∧ (leAt c.bytes 24 8 = 0)) ∧
    (∃ (s : State) (slot queue count : Nat) (c : Cmd) (k : Nat) (f : EccFinding) (e e2 : Int), (Started s ⟨slot,
      queue, count⟩ 0x20 c) ∧ (1 ≤ leAt c.bytes 24 8) ∧ (leAt c.bytes 24 8 ≤ 2 ^ 36) ∧ (EccFinding.sram f =
      .uncorrectable) ∧ (residueSees e = false) ∧ ((s.hist (engUnit 32)).perm = false) ∧ (s.isLocalAddr (leAt
      c.bytes 8 8) = true) ∧ (s.checkAccess (s.ctxJob slot) false false false (.read 1) (bitsOf (leAt c.bytes 8 8)
      41 0) = none) ∧ ((placeOf (bitsOf (leAt c.bytes 8 8) 41 0)).sramKind = some k)) ∧
    (∃ (s : State) (slot queue count : Nat) (c : Cmd) (e e2 : Int), (Started s ⟨slot, queue, count⟩ 0x21 c) ∧
      (residueSees e = false) ∧ ((s.hist (engUnit 32)).perm = false) ∧ (leAt c.bytes 24 4 ≠ 0) ∧ (leAt c.bytes 28 4
      ≠ 0)) ∧
    (∃ (s : State) (slot queue count : Nat) (c : Cmd) (e e2 : Int), (Started s ⟨slot, queue, count⟩ 0x22 c) ∧
      (residueSees e = false) ∧ ((s.hist (engUnit 32)).perm = false) ∧ (leAt c.bytes 16 8 % 8 = 0) ∧ (leAt c.bytes
      24 8 ≠ 0) ∧ (leAt c.bytes 24 8 % 8 = 0)) ∧
    (∃ (s : State) (slot queue count : Nat) (c : Cmd) (e e2 : Int), (Started s ⟨slot, queue, count⟩ 0x23 c) ∧
      (residueSees e = false) ∧ ((s.hist (engUnit 32)).perm = false) ∧ (leAt c.bytes 32 1 = 0x10) ∧ (ctrlRnd (leAt
      c.bytes 33 1) = false) ∧ (leAt c.bytes 24 8 ≠ 0) ∧ (leAt c.bytes 8 8 % 4 = 0) ∧ (leAt c.bytes 16 8 % 2 = 0) ∧
      (((s.setWork ⟨slot, queue, count⟩ (.convert [])).readParts ⟨slot, queue, count⟩ (leAt c.bytes 8 8) (leAt
      c.bytes 24 8 * 32 / 8) 0).1.failed ⟨slot, queue, count⟩ = false)) ∧
    (∃ (s : State) (slot queue count : Nat) (c : Cmd) (p : Nat) (e e2 : Int), (Started s ⟨slot, queue, count⟩ 0x24
      c) ∧ (leAt c.bytes 16 8 % 2 ^ 21 = 0) ∧ (leAt c.bytes 16 8 + 2 ^ 21 ≤ dramTop) ∧ (s.pageOf c = some p) ∧
      (bitOf (leNat (s.memRead (s.ovfSlot p) 8)) 0 = true)) ∧
    (∃ (s : State) (slot queue count : Nat) (c : Cmd) (p : Nat) (e e2 : Int), (Started s ⟨slot, queue, count⟩ 0x24
      c) ∧ (leAt c.bytes 16 8 % 2 ^ 21 = 0) ∧ (leAt c.bytes 16 8 + 2 ^ 21 ≤ dramTop) ∧ (s.pageOf c = some p) ∧
      (bitOf (leNat (s.memRead (s.ovfSlot p) 8)) 0 = false) ∧ (bitOf (leNat (s.memRead (s.ovfSlot p) 8)) 1 = false)
      ∧ (residueSees e = false) ∧ ((s.hist (engUnit 32)).perm = false)) ∧
    (∃ (s : State) (slot queue count : Nat) (c : Cmd) (p : Nat), (Started s ⟨slot, queue, count⟩ 0x25 c) ∧ (s.pageOf
      c = some p) ∧ (bitOf (leNat (s.memRead (s.ovfSlot p) 8)) 0 = false) ∧ (bitOf (leNat (s.memRead (s.ovfSlot p)
      8)) 1 = false)) ∧
    (∃ (s : State) (slot queue count : Nat) (c : Cmd) (p : Nat), (Started s ⟨slot, queue, count⟩ 0x25 c) ∧ (s.pageOf
      c = some p) ∧ (bitOf (leNat (s.memRead (s.ovfSlot p) 8)) 0 = true) ∧ (bitOf (leNat (s.memRead (s.ovfSlot p)
      8)) 1 = false)) ∧
    (∃ (s : State) (slot queue count : Nat) (c : Cmd) (f : EccFinding) (e e2 : Int), (Started s ⟨slot, queue, count⟩
      0x20 c) ∧ (1 ≤ leAt c.bytes 24 8) ∧ (leAt c.bytes 24 8 ≤ 2 ^ 36) ∧ (residueSees e = true) ∧ (residueSees e2 =
      true) ∧ ((s.hist (engUnit 32)).perm = false)) := by
  refine ⟨?_, ?_, ?_, ?_, ?_, ?_, ?_, ?_, ?_, ?_, ?_⟩
  · exact ⟨demoWith [32, 0, 0, 0, 0, 0, 0, 0, 0, 0, 0, 0, 0, 0, 0, 4, 64, 0, 0, 0, 0, 0, 0, 4, 64] (some .started),
    0, 0, 0, demoCmd [32, 0, 0, 0, 0, 0, 0, 0, 0, 0, 0, 0, 0, 0, 0, 4, 64, 0, 0, 0, 0, 0, 0, 4, 64] (some .started),
    0, 0, by decide⟩
  · exact ⟨demoWith [32] (some .started), 0, 0, 0, demoCmd [32] (some .started), .clean, 0, 0, by decide⟩
  · exact ⟨demoWith [32, 0, 0, 0, 0, 0, 0, 0, 0, 0, 0, 0, 0, 2, 0, 4, 64, 0, 0, 0, 0, 0, 0, 4, 64] (some .started),
    0, 0, 0, demoCmd [32, 0, 0, 0, 0, 0, 0, 0, 0, 0, 0, 0, 0, 2, 0, 4, 64, 0, 0, 0, 0, 0, 0, 4, 64] (some .started),
    0, .errors 2, 0, 0, by decide⟩
  · exact ⟨demoWith [33, 0, 0, 0, 0, 0, 0, 0, 0, 0, 0, 0, 0, 0, 0, 0, 0, 0, 0, 0, 0, 0, 0, 0, 64, 0, 0, 0, 1] (some
    .started), 0, 0, 0, demoCmd [33, 0, 0, 0, 0, 0, 0, 0, 0, 0, 0, 0, 0, 0, 0, 0, 0, 0, 0, 0, 0, 0, 0, 0, 64, 0, 0,
    0, 1] (some .started), 0, 0, by decide⟩
  · exact ⟨demoWith [34, 0, 0, 0, 0, 0, 0, 0, 0, 0, 0, 0, 0, 0, 0, 0, 0, 0, 0, 0, 0, 0, 0, 0, 64] (some .started),
    0, 0, 0, demoCmd [34, 0, 0, 0, 0, 0, 0, 0, 0, 0, 0, 0, 0, 0, 0, 0, 0, 0, 0, 0, 0, 0, 0, 0, 64] (some .started),
    0, 0, by decide⟩
  · exact ⟨demoWith [35, 0, 0, 0, 0, 0, 0, 0, 0, 0, 0, 0, 0, 0, 0, 4, 64, 0, 0, 0, 0, 0, 0, 4, 1, 0, 0, 0, 0, 0, 0,
    0, 16] (some .started), 0, 0, 0, demoCmd [35, 0, 0, 0, 0, 0, 0, 0, 0, 0, 0, 0, 0, 0, 0, 4, 64, 0, 0, 0, 0, 0, 0,
    4, 1, 0, 0, 0, 0, 0, 0, 0, 16] (some .started), 0, 0, by decide⟩
  · exact ⟨demoPage 0x24 1, 0, 0, 0, demoCmd [0x24] (some .started), 0, 0, 0, by decide⟩
  · exact ⟨demoPage 0x24 0, 0, 0, 0, demoCmd [0x24] (some .started), 0, 0, 0, by decide⟩
  · exact ⟨demoPage 0x25 0, 0, 0, 0, demoCmd [0x25] (some .started), 0, by decide⟩
  · exact ⟨demoPage 0x25 1, 0, 0, 0, demoCmd [0x25] (some .started), 0, by decide⟩
  · exact ⟨demoWith [32, 0, 0, 0, 0, 0, 0, 0, 0, 0, 0, 0, 0, 0, 0, 4, 64, 0, 0, 0, 0, 0, 0, 4, 64] (some .started),
    0, 0, 0, demoCmd [32, 0, 0, 0, 0, 0, 0, 0, 0, 0, 0, 0, 0, 0, 0, 4, 64, 0, 0, 0, 0, 0, 0, 4, 64] (some .started),
    .clean, 1, 1, by decide⟩

theorem witness_CollectiveRows :
    (∃ (s : State) (slot queue count : Nat) (c : Cmd) (e : EccFinding), (Working s ⟨slot, queue, count⟩ 0x30 c) ∧
      (GroupLegal s ⟨slot, queue, count⟩ 0x30 c) ∧ (Reducible s ⟨slot, queue, count⟩ 0x30 c)) ∧
    (∃ (s : State) (slot queue count : Nat) (c : Cmd) (e : EccFinding), (Working s ⟨slot, queue, count⟩ 0x31 c) ∧
      (GroupLegal s ⟨slot, queue, count⟩ 0x31 c) ∧ (Reducible s ⟨slot, queue, count⟩ 0x31 c)) ∧
    (∃ (s : State) (slot queue count : Nat) (c : Cmd) (e : EccFinding), (Working s ⟨slot, queue, count⟩ 0x32 c) ∧
      (GroupLegal s ⟨slot, queue, count⟩ 0x32 c)) ∧
    (∃ (s : State) (slot queue count : Nat) (c : Cmd) (e : EccFinding), (Working s ⟨slot, queue, count⟩ 0x33 c) ∧
      (GroupLegal s ⟨slot, queue, count⟩ 0x33 c)) ∧
    (∃ (s : State) (slot queue count : Nat) (c : Cmd), (Working s ⟨slot, queue, count⟩ 0x34 c) ∧ (GroupLegal s
      ⟨slot, queue, count⟩ 0x34 c)) ∧
    (∃ (s : State) (slot queue count : Nat) (c : Cmd) (x : CollRun), (s.cmdAt ⟨slot, queue, count⟩ = some c) ∧
      (c.work = some (.coll x))) ∧
    (∃ (s : State) (src job group seq step : Nat), (s.collOf job group = none)) ∧
    (∃ (s : State) (src job group seq step : Nat) (r : CmdRef) (x : CollRun), (s.collOf job group = some (r, x)) ∧
      (x.seq = seq)) ∧
    (∃ (s : State) (src job group seq : Nat), (s.collOf job group = none)) ∧
    (∃ (s : State) (src job group seq : Nat) (r : CmdRef) (x : CollRun), (s.collOf job group = some (r, x)) ∧ (x.seq
      = seq)) ∧
    (∃ (s : State) (slot queue count : Nat) (c : Cmd) (e : EccFinding), (Working s ⟨slot, queue, count⟩ 0x30 c) ∧
      (collFmtOk 0x30 (leAt c.bytes 40 1 % 16) = false ∨ 2 < leAt c.bytes 40 1 / 16)) := by
  refine ⟨?_, ?_, ?_, ?_, ?_, ?_, ?_, ?_, ?_, ?_, ?_⟩
  · exact ⟨demoColl 0x30 0, 0, 0, 0, demoCollCmd 0x30 0, .clean, by decide⟩
  · exact ⟨demoColl 0x31 0, 0, 0, 0, demoCollCmd 0x31 0, .clean, by decide⟩
  · exact ⟨demoColl 0x32 0, 0, 0, 0, demoCollCmd 0x32 0, .clean, by decide⟩
  · exact ⟨demoColl 0x33 0, 0, 0, 0, demoCollCmd 0x33 0, .clean, by decide⟩
  · exact ⟨demoColl 0x34 0, 0, 0, 0, demoCollCmd 0x34 0, by decide⟩
  · exact ⟨demoWith [0x34] (some (.coll (demoBase.collNew 0 (demoCollCmd 0x34 0) 0x34 []))), 0, 0, 0, demoCmd [0x34]
    (some (.coll (demoBase.collNew 0 (demoCollCmd 0x34 0) 0x34 []))), demoBase.collNew 0 (demoCollCmd 0x34 0) 0x34
    [], by decide⟩
  · exact ⟨State.reset, 0, 0, 0, 0, 0, by decide⟩
  · exact ⟨demoWith [0x34] (some (.coll (demoBase.collNew 0 (demoCollCmd 0x34 0) 0x34 []))), 0, 0, 0, 0, 0, ⟨0, 0,
    0⟩, demoBase.collNew 0 (demoCollCmd 0x34 0) 0x34 [], by decide⟩
  · exact ⟨State.reset, 0, 0, 0, 0, by decide⟩
  · exact ⟨demoWith [0x34] (some (.coll (demoBase.collNew 0 (demoCollCmd 0x34 0) 0x34 []))), 0, 0, 0, 0, ⟨0, 0, 0⟩,
    demoBase.collNew 0 (demoCollCmd 0x34 0) 0x34 [], by decide⟩
  · exact ⟨demoColl 0x30 15, 0, 0, 0, demoCollCmd 0x30 15, .clean, by decide⟩

theorem witness_RingRows :
    (∃ (s : State) (slot queue count : Nat) (c : Cmd), (Working s ⟨slot, queue, count⟩ 0x40 c) ∧ (RingReadable s
      ⟨slot, queue, count⟩ c) ∧ ((s.eng.rings.filter fun x => x.2.live).length < 16) ∧ ((ringRead s ⟨slot, queue,
      count⟩ c).ringDescBad (ringNew s ⟨slot, queue, count⟩ c) ((ringRead s ⟨slot, queue, count⟩ c).ctxPart slot) =
      false) ∧ ((ringRead s ⟨slot, queue, count⟩ c).ringCircuitsOk (ringNew s ⟨slot, queue, count⟩ c) = true) ∧
      ((ringRead s ⟨slot, queue, count⟩ c).ringOf ((ringRead s ⟨slot, queue, count⟩ c).ctxJob slot) (ringNew s
      ⟨slot, queue, count⟩ c).id = none)) ∧
    (∃ (s : State) (slot queue count : Nat) (c : Cmd), (Working s ⟨slot, queue, count⟩ 0x40 c) ∧ (leAt c.bytes 8 8 %
      64 ≠ 0) ∧ ((s.eng.rings.filter fun x => x.2.live).length < 16)) ∧
    (∃ (s : State) (src job key n : Nat) (d : List Nat) (x : RingRun), (s.ringOf job key = some (n, x)) ∧
      (s.ringActive n = some x) ∧ (x.state = 0) ∧ (x.agrees src (d.map (BitVec.ofNat 8)) = true)) ∧
    (∃ (s : State) (src job key n : Nat) (d : List Nat) (x : RingRun), (s.ringOf job key = some (n, x)) ∧
      (s.ringActive n = some x) ∧ (x.state = 0) ∧ (x.agrees src (d.map (BitVec.ofNat 8)) = false)) ∧
    (∃ (s : State) (src job key v n : Nat) (x : RingRun), (s.ringOf job key = some (n, x)) ∧ (x.succ = some src)) ∧
    (∃ (s : State) (src job key n : Nat) (x : RingRun), (s.ringOf job key = some (n, x))) ∧
    (∃ (s : State) (n p : Nat) (x : RingRun), (s.ringActive n = some x) ∧ (x.pred = some p) ∧ (x.state = 1) ∧ (1 <
      x.steps) ∧ (x.sentTok.contains 1 = false) ∧ (s.nextHops p ≠ [])) ∧
    (∃ (s : State) (n : Nat) (e e2 : Int) (x : RingRun), (s.ringActive n = some x) ∧ (x.state = 1) ∧ (x.ready = 0) ∧
      (kfind x.got 0 = none) ∧ (residueSees e = false) ∧ ((s.hist (engUnit 33)).perm = false) ∧ (((s.setRing n
      { x with got := kset x.got 0 x.block }).ringLoad { x with got := kset x.got 0 x.block }).failed x.cmd = false)
      ∧ (((s.setRing n { x with got := kset x.got 0 x.block }).ringLoad
      { x with got := kset x.got 0 x.block }).outstanding x.cmd = false)) ∧
    (∃ (s : State) (n step node : Nat) (e e2 : Int) (x : RingRun), (s.ringActive n = some x) ∧ (x.succ = some node)
      ∧ (x.state = 1) ∧ (step < x.ready) ∧ (x.tokens.contains (step + 1) = true) ∧ (x.fwd.contains step = false) ∧
      (x.mustForward step = true) ∧ (s.spanAsleep x = []) ∧ (residueSees e = false) ∧ ((s.hist (engUnit 33)).perm =
      false)) ∧
    (∃ (s : State) (n step node : Nat) (f : EccFinding) (e e2 : Int) (x : RingRun), (s.ringActive n = some x) ∧
      (x.succ = some node) ∧ (x.state = 1) ∧ (step < x.ready) ∧ (x.tokens.contains (step + 1) = true) ∧
      (x.fwd.contains step = false) ∧ (x.mustForward step = true) ∧ (s.spanAsleep x = [x.coreFirst]) ∧ (s.dozing
      (coreQuarter x.coreFirst) = true)) ∧
    (∃ (s : State) (n step : Nat) (x : RingRun), (s.ringActive n = some x) ∧ (x.state = 1) ∧ (1 ≤ step) ∧ (step <
      x.steps) ∧ (x.ready = step) ∧ (x.block ≤ kget x.got step 0)) ∧
    (∃ (s : State) (n : Nat) (x : RingRun), (s.ringActive n = some x) ∧ (x.state = 1) ∧ (x.ready = x.steps) ∧
      ((List.range x.steps).all (fun t => !x.mustForward t || s.forwarded n x t) = true) ∧ (s.doneSteps x x.steps =
      true)) ∧
    (∃ (s : State) (n : Nat) (x : RingRun), (s.ringActive n = some x) ∧ (x.state = 0)) ∧
    (∃ (s : State) (n : Nat) (w : RingWait) (x : RingRun), (s.ringActive n = some x) ∧ (x.state = 1) ∧ (w ≠ .hello)
      ∧ (RingRun.waits x w = true)) := by
  refine ⟨?_, ?_, ?_, ?_, ?_, ?_, ?_, ?_, ?_, ?_, ?_, ?_, ?_, ?_⟩
  · exact ⟨demoRingIdle, 0, 0, 0, demoRingCmd, by decide⟩
  · exact ⟨demoWith [0x40, 0, 0, 0, 0, 0, 0, 0, 1] (some .started), 0, 0, 0, demoCmd [0x40, 0, 0, 0, 0, 0, 0, 0, 1]
    (some .started), by decide⟩
  · exact ⟨demoRing { demoRun with state := 0 }, 1, 0, 0, 0, [0, 0, 2, 0, 1, 0, 1, 0, 0, 0, 1, 0, 0, 16, 0, 0, 0, 0,
    0, 0, 0, 16, 0, 0], { demoRun with state := 0 }, by decide⟩
  · exact ⟨demoRing { demoRun with state := 0 }, 1, 0, 0, 0, [], { demoRun with state := 0 }, by decide⟩
  · exact ⟨demoRing demoRun, 1, 0, 0, 1, 0, demoRun, by decide⟩
  · exact ⟨demoRing demoRun, 1, 0, 0, 0, demoRun, by decide⟩
  · exact ⟨demoRingP, 0, 1, demoRunP, by decide⟩
  · exact ⟨demoRing { demoRun with got := [], ready := 0 }, 0, 0, 0, { demoRun with got := [], ready := 0 }, by
    set_option maxRecDepth 100000 in decide⟩
  · exact ⟨demoRing { demoRun with ready := 1 }, 0, 0, 1, 0, 0, { demoRun with ready := 1 }, by decide⟩
  · exact ⟨(demoRing { demoRun with ready := 1 }).wr F.ID_PWR_STATE.Q_GATED 1, 0, 0, 1, .clean, 0, 0,
    { demoRun with ready := 1 }, by decide⟩
  · exact ⟨demoRingP, 0, 1, demoRunP, by decide⟩
  · exact ⟨{ demoRing { demoRun with ready := 1, fwd := [0] } with eng.events := [(1, 1)] }, 0,
    { demoRun with ready := 1, fwd := [0] }, by decide⟩
  · exact ⟨demoRing { demoRun with state := 0 }, 0, { demoRun with state := 0 }, by decide⟩
  · exact ⟨demoRing { demoRun with ready := 1, tokens := [] }, 0, .token, { demoRun with ready := 1, tokens := [] },
    by decide⟩

theorem witness_ScalarRows :
    (∃ (s : State) (core thread : Nat) (g : ScalarFn) (rd ra rb : Nat), (Issues s core thread ⟨ScalarOp.regs (.alu g
      rd ra rb), false, false, false⟩)) ∧
    (∃ (s : State) (core thread : Nat) (g : ScalarFn) (rd ra : Nat) (i : BitVec 64), (Issues s core thread
      ⟨ScalarOp.regs (.aluImm g rd ra i), false, false, false⟩)) ∧
    (∃ (s : State) (core thread : Nat) (q : Cmp) (pd lane ra rb : Nat), (Issues s core thread ⟨ScalarOp.regs (.cmp q
      pd lane ra rb), false, false, false⟩)) ∧
    (∃ (s : State) (core thread : Nat) (pd ra : Nat), (Issues s core thread ⟨ScalarOp.regs (.predSet pd ra), false,
      false, false⟩)) ∧
    (∃ (s : State) (core thread : Nat) (rd pa : Nat), (Issues s core thread ⟨ScalarOp.regs (.predGet rd pa), false,
      false, false⟩)) ∧
    (∃ (s : State) (core thread : Nat) (q : Cmp) (ra rb : Nat) (d : Int), (Issues s core thread ⟨ScalarOp.regs
      (.branch q ra rb d), false, false, false⟩) ∧ (intCmp q ((s.thread core thread).sreg ra) ((s.thread core
      thread).sreg rb) = true)) ∧
    (∃ (s : State) (core thread : Nat) (p : ParityFinding), (Issues s core thread ⟨ScalarOp.regs (.illegal), false,
      false, false⟩)) ∧
    (∃ (s : State) (core thread : Nat) (q : Cmp) (ra rb : Nat) (d : Int), (Issues s core thread ⟨ScalarOp.regs
      (.branch q ra rb d), false, false, false⟩) ∧ (intCmp q ((s.thread core thread).sreg ra) ((s.thread core
      thread).sreg rb) = false)) ∧
    (∃ (s : State) (core thread : Nat) (p : ParityFinding), (Issues s core thread ⟨ScalarOp.regs (.ifetch), false,
      false, false⟩)) ∧
    (∃ (s : State) (core thread : Nat) (p : ParityFinding), (Issues s core thread ⟨ScalarOp.regs (.refetch), false,
      false, false⟩)) ∧
    (∃ (s : State) (core thread : Nat) (g : ScalarFn) (rd ra rb : Nat) (r : RegName), (Issues s core thread
      ⟨ScalarOp.regs (.alu g rd ra rb), false, false, false⟩)) ∧
    (∃ (s : State) (core thread : Nat) (g : ScalarFn) (rd ra rb : Nat) (r : RegName), (Issues s core thread
      ⟨ScalarOp.regs (.alu g rd ra rb), false, false, false⟩)) := by
  refine ⟨?_, ?_, ?_, ?_, ?_, ?_, ?_, ?_, ?_, ?_, ?_, ?_⟩
  · exact ⟨demoCore, 0, 0, .add, 1, 2, 3, by decide⟩
  · exact ⟨demoCore, 0, 0, .add, 1, 2, 3, by decide⟩
  · exact ⟨demoCore, 0, 0, .eq, 1, 2, 3, 4, by decide⟩
  · exact ⟨demoCore, 0, 0, 1, 2, by decide⟩
  · exact ⟨demoCore, 0, 0, 1, 2, by decide⟩
  · exact ⟨demoCore, 0, 0, .eq, 1, 2, 8, by decide⟩
  · exact ⟨demoCore, 0, 0, .none, by decide⟩
  · exact ⟨demoCore, 0, 0, .ne, 1, 2, 8, by decide⟩
  · exact ⟨demoCore, 0, 0, .none, by decide⟩
  · exact ⟨demoCore, 0, 0, .none, by decide⟩
  · exact ⟨demoCore, 0, 0, .add, 1, 2, 3, .s 2, by decide⟩
  · exact ⟨demoCore, 0, 0, .add, 1, 2, 3, .s 2, by decide⟩

theorem witness_VectorRows :
    (∃ (s : State) (core thread : Nat) (op : VectorOp), (Issues s core thread ⟨VectorOp.regs op, false, false,
      false⟩)) ∧
    (∃ (s : State) (core thread : Nat) (op : RedOp) (fp : Bool) (rd ra pr : Nat), (Issues s core thread ⟨[.v (rd %
      16), .v (ra % 16)], false, false, false⟩)) ∧
    (∃ (s : State) (core thread : Nat) (rd rs ra src dst ctrl pr : Nat), (Issues s core thread ⟨[.v (rd % 16), .v
      (ra % 16)] ++ (if isMx src || isMx dst then [.s (rs % 32)] else []), false, false, false⟩) ∧ (cvtAccepts src
      dst = true) ∧ (ctrlReserved ctrl = false) ∧ (isMx dst = false) ∧ (isMx src = false) ∧ (ctrlRnd ctrl = false)) ∧
    (∃ (s : State) (core thread : Nat) (rd rs ra src dst ctrl pr : Nat) (p : ParityFinding), (Issues s core thread
      ⟨[.v (rd % 16), .v (ra % 16)] ++ (if isMx src || isMx dst then [.s (rs % 32)] else []), false, false, false⟩)
      ∧ (cvtAccepts src dst = false ∨ ctrlReserved ctrl = true)) ∧
    (∃ (s : State) (core thread rd rs ra src dst ctrl pr : Nat), (Issues s core thread ⟨[.v (rd % 16), .v (ra % 16)]
      ++ (if isMx src || isMx dst then [.s (rs % 32)] else []), false, false, false⟩) ∧ (cvtAccepts src dst = true)
      ∧ (ctrlReserved ctrl = false)) ∧
    (∃ (s : State) (core thread : Nat) (rs : Nat), (Issues s core thread ⟨[.s (rs % 32)], false, false, false⟩)) ∧
    (∃ (s : State) (core thread : Nat) (rd ra pr : Nat), (Issues s core thread ⟨[.v (rd % 16), .v (ra % 16)], true,
      false, false⟩)) ∧
    (∃ (s : State) (core thread : Nat) (rd ra pr : Nat), (Issues s core thread ⟨[.v (rd % 16), .v (ra % 16)], true,
      false, false⟩)) ∧
    (∃ (s : State) (core thread : Nat) (rd ra pr : Nat), (Issues s core thread ⟨[.v (rd % 16), .v (ra % 16)], true,
      false, false⟩)) ∧
    (∃ (s : State) (core thread : Nat) (rd ra pr : Nat), (Issues s core thread ⟨[.v (rd % 16), .v (ra % 16)], true,
      false, false⟩)) ∧
    (∃ (s : State) (core thread : Nat) (rd ra pr : Nat), (Issues s core thread ⟨[.v (rd % 16), .v (ra % 16)], true,
      false, false⟩)) ∧
    (∃ (s : State) (core thread : Nat) (rd ra pr : Nat), (Issues s core thread ⟨[.v (rd % 16), .v (ra % 16)], true,
      false, false⟩)) ∧
    (∃ (s : State) (core thread : Nat) (rd ra pr : Nat), (Issues s core thread ⟨[.v (rd % 16), .v (ra % 16)], true,
      false, false⟩)) ∧
    (∃ (s : State) (core thread : Nat) (rd ra pr : Nat), (Issues s core thread ⟨[.v (rd % 16), .v (ra % 16)], true,
      false, false⟩)) := by
  refine ⟨?_, ?_, ?_, ?_, ?_, ?_, ?_, ?_, ?_, ?_, ?_, ?_, ?_, ?_⟩
  · exact ⟨demoCore, 0, 0, .fma 1 2 3 4 0, by decide⟩
  · exact ⟨demoCore, 0, 0, .add, true, 1, 2, 0, by decide⟩
  · exact ⟨demoCore, 0, 0, 1, 2, 3, 0, 1, 0, 0, by decide⟩
  · exact ⟨demoCore, 0, 0, 1, 2, 3, 1, 2, 0, 0, .none, by decide⟩
  · exact ⟨demoCore, 0, 0, 1, 2, 3, 0, 1, 0, 0, by decide⟩
  · exact ⟨demoCore, 0, 0, 3, by decide⟩
  · exact ⟨demoCore, 0, 0, 1, 2, 0, by decide⟩
  · exact ⟨demoCore, 0, 0, 1, 2, 0, by decide⟩
  · exact ⟨demoCore, 0, 0, 1, 2, 0, by decide⟩
  · exact ⟨demoCore, 0, 0, 1, 2, 0, by decide⟩
  · exact ⟨demoCore, 0, 0, 1, 2, 0, by decide⟩
  · exact ⟨demoCore, 0, 0, 1, 2, 0, by decide⟩
  · exact ⟨demoCore, 0, 0, 1, 2, 0, by decide⟩
  · exact ⟨demoCore, 0, 0, 1, 2, 0, by decide⟩

theorem witness_CoreMemoryRows :
    (∃ (s : State) (core thread : Nat) (acc : AccessForm), (Issues s core thread ⟨AccessForm.regs acc, true, false,
      true⟩) ∧ (AccessForm.aligned acc ((s.thread core thread).addr acc.ra acc.disp) = true) ∧ (((s.thread core
      thread).addr acc.ra acc.disp) + AccessForm.bytes acc ≤ 0x600000)) ∧
    (∃ (s : State) (core thread : Nat) (acc : AccessForm) (e : EccFinding), (Issues s core thread ⟨AccessForm.regs
      acc, true, false, true⟩) ∧ (AccessForm.aligned acc ((s.thread core thread).addr acc.ra acc.disp) = false)) ∧
    (∃ (s : State) (core thread : Nat) (acc : AccessForm), (Issues s core thread ⟨AccessForm.regs acc, false, false,
      true⟩) ∧ (AccessForm.aligned acc ((s.thread core thread).addr acc.ra acc.disp) = true) ∧ (((s.thread core
      thread).addr acc.ra acc.disp) + AccessForm.bytes acc ≤ 0x600000)) ∧
    (∃ (s : State) (core thread : Nat) (acc : AccessForm), (Issues s core thread ⟨AccessForm.regs acc, false, false,
      true⟩) ∧ (AccessForm.aligned acc ((s.thread core thread).addr acc.ra acc.disp) = true) ∧ (0x600000 <
      ((s.thread core thread).addr acc.ra acc.disp) + AccessForm.bytes acc)) ∧
    (∃ (s : State) (core thread : Nat) (acc : AccessForm), (Issues s core thread ⟨AccessForm.regs acc, true, false,
      true⟩) ∧ (AccessForm.aligned acc ((s.thread core thread).addr acc.ra acc.disp) = true) ∧ (s.inShare (s.thread
      core thread).cmd.slot ((s.thread core thread).addr acc.ra acc.disp) (AccessForm.bytes acc) = true)) ∧
    (∃ (s : State) (core thread : Nat) (acc : AccessForm) (e : EccFinding), (Issues s core thread ⟨AccessForm.regs
      acc, false, false, true⟩) ∧ (AccessForm.aligned acc ((s.thread core thread).addr acc.ra acc.disp) = true) ∧
      (s.inShare (s.thread core thread).cmd.slot ((s.thread core thread).addr acc.ra acc.disp) (AccessForm.bytes
      acc) = true)) ∧
    (∃ (s : State) (core thread : Nat) (acc : AccessForm) (e : EccFinding), (Issues s core thread ⟨AccessForm.regs
      acc, false, false, true⟩) ∧ (AccessForm.aligned acc ((s.thread core thread).addr acc.ra acc.disp) = true) ∧
      (s.inShare (s.thread core thread).cmd.slot ((s.thread core thread).addr acc.ra acc.disp) (AccessForm.bytes
      acc) = false)) ∧
    (∃ (s : State) (core thread : Nat) (acc : AccessForm), (Issues s core thread ⟨AccessForm.regs acc, true, false,
      true⟩) ∧ (AccessForm.aligned acc ((s.thread core thread).addr acc.ra acc.disp) = true)) ∧
    (∃ (s : State) (core thread : Nat) (acc : AccessForm), (Issues s core thread ⟨AccessForm.regs acc, false, false,
      true⟩) ∧ (AccessForm.aligned acc ((s.thread core thread).addr acc.ra acc.disp) = true)) ∧
    (∃ (s : State) (core thread : Nat) (sp : MemSpace) (rd ra base pr : Nat), (Issues s core thread ⟨[.v (rd % 16),
      .v (ra % 16), .s (base % 32)], true, false, true⟩) ∧ (s.laneFault (s.thread core thread).cmd.slot sp
      ((s.thread core thread).laneAddrs base ra pr) = none) ∧ (sp ≠ .global)) ∧
    (∃ (s : State) (core thread : Nat) (rd ra base pr : Nat), (Issues s core thread ⟨[.v (rd % 16), .v (ra % 16), .s
      (base % 32)], true, false, true⟩) ∧ (s.laneFault (s.thread core thread).cmd.slot .global ((s.thread core
      thread).laneAddrs base ra pr) = none)) ∧
    (∃ (s : State) (core thread : Nat) (sp : MemSpace) (rd ra base pr f a : Nat), (Issues s core thread ⟨[.v (rd %
      16), .v (ra % 16), .s (base % 32)], true, false, true⟩) ∧ (s.laneFault (s.thread core thread).cmd.slot sp
      ((s.thread core thread).laneAddrs base ra pr) = some (f, a))) ∧
    (∃ (s : State) (core thread : Nat) (sp : MemSpace) (rs ra base pr : Nat), (Issues s core thread ⟨[.v (rs % 16),
      .v (ra % 16), .s (base % 32)], false, false, true⟩) ∧ (s.laneFault (s.thread core thread).cmd.slot sp
      ((s.thread core thread).laneAddrs base ra pr) = none) ∧ (sp ≠ .global)) ∧
    (∃ (s : State) (core thread : Nat) (rs ra base pr : Nat), (Issues s core thread ⟨[.v (rs % 16), .v (ra % 16), .s
      (base % 32)], false, false, true⟩) ∧ (s.laneFault (s.thread core thread).cmd.slot .global ((s.thread core
      thread).laneAddrs base ra pr) = none)) ∧
    (∃ (s : State) (core thread : Nat) (acc : AtomicForm), (Issues s core thread ⟨[RegName.s (acc.ra % 32), .s
      (acc.rv % 32), .s (acc.rc % 32)] ++ (if acc.fetch then [RegName.s (acc.rd % 32)] else []), true, false, true⟩)
      ∧ (((s.thread core thread).addr acc.ra acc.disp) % 8 = 0) ∧ (acc.sp = .global)) ∧
    (∃ (s : State) (core thread : Nat) (acc : AtomicForm), (Issues s core thread ⟨[RegName.s (acc.ra % 32), .s
      (acc.rv % 32), .s (acc.rc % 32)] ++ (if acc.fetch then [RegName.s (acc.rd % 32)] else []), true, false, true⟩)
      ∧ (((s.thread core thread).addr acc.ra acc.disp) % 8 = 0) ∧ (acc.sp = .core) ∧ (inCoreStore ((s.thread core
      thread).addr acc.ra acc.disp) 8 = true)) ∧
    (∃ (s : State) (core thread : Nat) (acc : AtomicForm), (Issues s core thread ⟨[RegName.s (acc.ra % 32), .s
      (acc.rv % 32), .s (acc.rc % 32)] ++ (if acc.fetch then [RegName.s (acc.rd % 32)] else []), true, false, true⟩)
      ∧ (((s.thread core thread).addr acc.ra acc.disp) % 8 = 0) ∧ (acc.sp = .global)) ∧
    (∃ (s : State) (core thread : Nat) (acc : AtomicForm), (Issues s core thread ⟨[RegName.s (acc.ra % 32), .s
      (acc.rv % 32), .s (acc.rc % 32)] ++ (if acc.fetch then [RegName.s (acc.rd % 32)] else []), true, false, true⟩)
      ∧ (((s.thread core thread).addr acc.ra acc.disp) % 8 = 0) ∧ (acc.sp = .core) ∧ (inCoreStore ((s.thread core
      thread).addr acc.ra acc.disp) 8 = true)) ∧
    (∃ (s : State) (core thread : Nat) (acc : AtomicForm), (Issues s core thread ⟨[RegName.s (acc.ra % 32), .s
      (acc.rv % 32), .s (acc.rc % 32)] ++ (if acc.fetch then [RegName.s (acc.rd % 32)] else []), true, false, true⟩)
      ∧ (((s.thread core thread).addr acc.ra acc.disp) % 8 = 0) ∧ (acc.sp = .global)) ∧
    (∃ (s : State) (core thread : Nat) (acc : AtomicForm), (Issues s core thread ⟨[RegName.s (acc.ra % 32), .s
      (acc.rv % 32), .s (acc.rc % 32)] ++ (if acc.fetch then [RegName.s (acc.rd % 32)] else []), true, false, true⟩)
      ∧ (((s.thread core thread).addr acc.ra acc.disp) % 8 = 0) ∧ (acc.sp = .core) ∧ (inCoreStore ((s.thread core
      thread).addr acc.ra acc.disp) 8 = true)) ∧
    (∃ (s : State) (core thread : Nat) (acc : AtomicForm), (Issues s core thread ⟨[RegName.s (acc.ra % 32), .s
      (acc.rv % 32), .s (acc.rc % 32)] ++ (if acc.fetch then [RegName.s (acc.rd % 32)] else []), true, false, true⟩)
      ∧ (((s.thread core thread).addr acc.ra acc.disp) % 8 = 0) ∧ (acc.sp = .global)) ∧
    (∃ (s : State) (core thread : Nat) (acc : AtomicForm), (Issues s core thread ⟨[RegName.s (acc.ra % 32), .s
      (acc.rv % 32), .s (acc.rc % 32)] ++ (if acc.fetch then [RegName.s (acc.rd % 32)] else []), true, false, true⟩)
      ∧ (((s.thread core thread).addr acc.ra acc.disp) % 8 = 0) ∧ (acc.sp = .core) ∧ (inCoreStore ((s.thread core
      thread).addr acc.ra acc.disp) 8 = true)) ∧
    (∃ (s : State) (core thread : Nat) (acc : AtomicForm), (Issues s core thread ⟨[RegName.s (acc.ra % 32), .s
      (acc.rv % 32), .s (acc.rc % 32)] ++ (if acc.fetch then [RegName.s (acc.rd % 32)] else []), true, false, true⟩)
      ∧ (((s.thread core thread).addr acc.ra acc.disp) % 4 = 0) ∧ (acc.sp = .global)) ∧
    (∃ (s : State) (core thread : Nat) (acc : AtomicForm), (Issues s core thread ⟨[RegName.s (acc.ra % 32), .s
      (acc.rv % 32), .s (acc.rc % 32)] ++ (if acc.fetch then [RegName.s (acc.rd % 32)] else []), true, false, true⟩)
      ∧ (((s.thread core thread).addr acc.ra acc.disp) % 4 = 0) ∧ (acc.sp = .core) ∧ (inCoreStore ((s.thread core
      thread).addr acc.ra acc.disp) 4 = true)) ∧
    (∃ (s : State) (core thread : Nat) (acc : AtomicForm), (Issues s core thread ⟨[RegName.s (acc.ra % 32), .s
      (acc.rv % 32), .s (acc.rc % 32)] ++ (if acc.fetch then [RegName.s (acc.rd % 32)] else []), true, false, true⟩)
      ∧ (((s.thread core thread).addr acc.ra acc.disp) % 8 ≠ 0)) := by
  refine ⟨?_, ?_, ?_, ?_, ?_, ?_, ?_, ?_, ?_, ?_, ?_, ?_, ?_, ?_, ?_, ?_, ?_, ?_, ?_, ?_, ?_, ?_, ?_, ?_, ?_⟩
  · exact ⟨demoCore, 0, 0, ⟨false, 8, 1, 2, 0, 0, false⟩, by decide⟩
  · exact ⟨demoCore, 0, 0, ⟨false, 8, 1, 2, 1, 0, false⟩, .clean, by decide⟩
  · exact ⟨demoCore, 0, 0, ⟨false, 8, 1, 2, 0, 0, false⟩, by decide⟩
  · exact ⟨demoCore, 0, 0, ⟨false, 8, 1, 2, 0x600000, 0, false⟩, by decide⟩
  · exact ⟨{ demoCore with eng.ctxs := [(0, ⟨0, 8, 0, 0⟩)] }, 0, 0, ⟨false, 8, 1, 2, 0, 0, false⟩, by decide⟩
  · exact ⟨{ demoCore with eng.ctxs := [(0, ⟨0, 8, 0, 0⟩)] }, 0, 0, ⟨false, 8, 1, 2, 0, 0, false⟩, .clean, by
    decide⟩
  · exact ⟨demoCore, 0, 0, ⟨false, 8, 1, 2, 0, 0, false⟩, .clean, by decide⟩
  · exact ⟨demoCore, 0, 0, ⟨false, 8, 1, 2, 0, 0, false⟩, by decide⟩
  · exact ⟨demoCore, 0, 0, ⟨false, 8, 1, 2, 0, 0, false⟩, by decide⟩
  · exact ⟨demoCore, 0, 0, .core, 1, 2, 3, 0, by decide⟩
  · exact ⟨demoCore, 0, 0, 1, 2, 3, 0, by decide⟩
  · exact
    ⟨{ demoCore with cores := [(0, { Core.init with threads := [(0, { demoThread with s := [(3, 1)], p := [(0, 1)] })] })] },
    0, 0, .core, 1, 2, 3, 0, fcMISALIGNED, 1, by decide⟩
  · exact ⟨demoCore, 0, 0, .core, 1, 2, 3, 0, by decide⟩
  · exact ⟨demoCore, 0, 0, 1, 2, 3, 0, by decide⟩
  · exact ⟨demoCore, 0, 0, demoAtomic .global, by decide⟩
  · exact ⟨demoCore, 0, 0, demoAtomic .core, by decide⟩
  · exact ⟨demoCore, 0, 0, demoAtomic .global, by decide⟩
  · exact ⟨demoCore, 0, 0, demoAtomic .core, by decide⟩
  · exact ⟨demoCore, 0, 0, demoAtomic .global, by decide⟩
  · exact ⟨demoCore, 0, 0, demoAtomic .core, by decide⟩
  · exact ⟨demoCore, 0, 0, demoAtomic .global, by decide⟩
  · exact ⟨demoCore, 0, 0, demoAtomic .core, by decide⟩
  · exact ⟨demoCore, 0, 0, demoAtomic .global, by decide⟩
  · exact ⟨demoCore, 0, 0, demoAtomic .core, by decide⟩
  · exact ⟨demoCore, 0, 0, { demoAtomic .core with disp := 1 }, by decide⟩

theorem witness_MatrixIssueRows :
    (∃ (s : State) (core thread : Nat) (m : MloadSpec), (Issues s core thread ⟨[], true, true, false⟩) ∧
      (MloadSpec.shapeOk m = true) ∧ (m.bank < 2) ∧ (m.aGlobal = false) ∧ ((MloadSpec.spans m 0).find? (fun sp =>
      !sp.inStore) = none) ∧ (m.aStride % 4 = 0) ∧ (m.bStride % 4 = 0)) ∧
    (∃ (s : State) (core thread : Nat) (m : MloadSpec) (e : EccFinding), (Issues s core thread ⟨[], true, true,
      false⟩) ∧ (MloadSpec.shapeOk m = false)) ∧
    (∃ (s : State) (core thread : Nat) (m : MmaSpec), (Issues s core thread ⟨[], true, true, false⟩) ∧
      (MmaSpec.shapeOk m (((s.core core).loadFor m.bank).map Prod.snd) = true)) ∧
    (∃ (s : State) (core thread : Nat) (m : MstoreSpec), (Issues s core thread ⟨[], true, true, false⟩) ∧
      (ctrlReserved m.ctrl = false) ∧ (MstoreSpec.shapeOk m = true) ∧ ((MstoreSpec.ranges m).find? (fun r => decide
      (0x600000 < r.1 + r.2)) = none) ∧ (ctrlRnd m.ctrl = false)) ∧
    (∃ (s : State) (core thread : Nat) (m : MstoreSpec) (e : EccFinding) (p : ParityFinding), (Issues s core thread
      ⟨[], true, true, false⟩) ∧ (ctrlReserved m.ctrl = false) ∧ (MstoreSpec.shapeOk m = false)) ∧
    (∃ (s : State) (core thread : Nat) (m : MstoreSpec), (Issues s core thread ⟨[], true, true, false⟩) ∧
      (ctrlReserved m.ctrl = false) ∧ (MstoreSpec.shapeOk m = true) ∧ ((MstoreSpec.ranges m).find? (fun r => decide
      (0x600000 < r.1 + r.2)) = none) ∧ (ctrlRnd m.ctrl = true)) := by
  refine ⟨?_, ?_, ?_, ?_, ?_, ?_⟩
  · exact ⟨demoCore, 0, 0, demoMload, by set_option maxRecDepth 100000 in decide⟩
  · exact ⟨demoCore, 0, 0, { demoMload with k := 33 }, .clean, by decide⟩
  · exact ⟨demoCore, 0, 0, demoMma, by decide⟩
  · exact ⟨demoCore, 0, 0, demoMstore, by set_option maxRecDepth 100000 in decide⟩
  · exact ⟨demoCore, 0, 0, { demoMstore with m := 0 }, .clean, .none, by decide⟩
  · exact ⟨demoCore, 0, 0, { demoMstore with ctrl := 1 }, by set_option maxRecDepth 100000 in decide⟩

theorem witness_SynchronisationRows :
    (∃ (s : State) (core thread : Nat) (b n : Nat), (Issues s core thread ⟨[], false, false, false⟩) ∧ (kfind
      (s.core core).bars (b % 8) = none) ∧ (1 < n)) ∧
    (∃ (s : State) (core thread : Nat) (b n : Nat), (Issues s core thread ⟨[], false, false, false⟩) ∧ (kfind
      (s.core core).bars (b % 8) = none) ∧ (n ≤ 1)) ∧
    (∃ (s : State) (core thread : Nat) (e rs : Nat), (Issues s core thread ⟨[.s (rs % 32)], false, false, false⟩) ∧
      (((s.thread core thread).sreg rs).toNat ≤ (s.event (s.thread core thread).cmd.slot (e % 64)).toNat)) ∧
    (∃ (s : State) (core thread : Nat) (e rs : Nat), (Issues s core thread ⟨[.s (rs % 32)], false, false, false⟩) ∧
      ((s.event (s.thread core thread).cmd.slot (e % 64)).toNat < ((s.thread core thread).sreg rs).toNat)) ∧
    (∃ (s : State) (core thread : Nat) (e rs : Nat) (b : Bool), (Issues s core thread ⟨[.s (rs % 32)], false, false,
      false⟩)) ∧
    (∃ (s : State) (core thread : Nat), (Issues s core thread ⟨[], false, false, false⟩)) ∧
    (∃ (s : State) (core thread : Nat), (Issues s core thread ⟨[], false, false, false⟩)) ∧
    (∃ (s : State) (core thread : Nat), (Issues s core thread ⟨[], false, false, false⟩)) ∧
    (∃ (s : State) (core thread : Nat), (Issues s core thread ⟨[], false, false, false⟩)) ∧
    (∃ (s : State) (core thread tag : Nat) (x : SbEntry), ((s.core core).sb.find? (fun e => e.tag == tag && e.thread
      == thread) = some x) ∧ (x.await = 0) ∧ (x.kind = .load ∨ x.kind = .sfu)) ∧
    (∃ (s : State) (core thread : Nat) (b n : Nat) (r : Barrier), (Issues s core thread ⟨[], false, false, false⟩) ∧
      (kfind (s.core core).bars (b % 8) = some r) ∧ (r.n = n) ∧ (n ≤ r.arrived.length + 1)) ∧
    (∃ (s : State) (core thread : Nat) (b n : Nat) (r : Barrier), (Issues s core thread ⟨[], false, false, false⟩) ∧
      (kfind (s.core core).bars (b % 8) = some r) ∧ (r.n ≠ n)) := by
  refine ⟨?_, ?_, ?_, ?_, ?_, ?_, ?_, ?_, ?_, ?_, ?_, ?_⟩
  · exact ⟨demoCore, 0, 0, 3, 2, by decide⟩
  · exact ⟨demoCore, 0, 0, 3, 1, by decide⟩
  · exact ⟨demoCore, 0, 0, 3, 1, by decide⟩
  · exact ⟨{ demoCore with cores := [(0, { Core.init with threads := [(0, { demoThread with s := [(1, 1)] })] })] },
    0, 0, 3, 1, by decide⟩
  · exact ⟨demoCore, 0, 0, 3, 1, true, by decide⟩
  · exact ⟨demoCore, 0, 0, by decide⟩
  · exact ⟨demoCore, 0, 0, by decide⟩
  · exact ⟨demoCore, 0, 0, by decide⟩
  · exact ⟨demoCore, 0, 0, by decide⟩
  · exact
    ⟨{ demoCore with cores := [(0, { Core.init with threads := [(0, demoThread)], sb := [⟨5, 0, false, .load, .scalar 1, [(0, [7])], 0⟩] })] },
    0, 0, 5, ⟨5, 0, false, .load, .scalar 1, [(0, [7])], 0⟩, by decide⟩
  · exact
    ⟨{ demoCore with cores := [(0, { Core.init with threads := [(0, demoThread)], bars := [(3, ⟨2, [1]⟩)] })] }, 0,
    0, 3, 2, ⟨2, [1]⟩, by decide⟩
  · exact
    ⟨{ demoCore with cores := [(0, { Core.init with threads := [(0, demoThread)], bars := [(3, ⟨2, [1]⟩)] })] }, 0,
    0, 3, 4, ⟨2, [1]⟩, by decide⟩

theorem witness_TileRows :
    (∃ (s : State) (core : Nat) (e : MatEntry) (m : MloadSpec), (firstFree MatOp.isMload [] (s.core core).mq = some
      e) ∧ (e.op = .mload m) ∧ ((s.core core).stopped = false)) ∧
    (∃ (s : State) (core : Nat) (ups : List TileUpset) (e : MatEntry) (m : MmaSpec), ((s.core core).headTile = some
      (e, m)) ∧ (((s.core core).bank m.bank).filled = true) ∧ (((s.core core).bank m.bank).stale = false) ∧ ((s.core
      core).tile = none) ∧ ((s.core core).arbFor = none) ∧ (s.rd F.CHK_INJECT.ARM = 0) ∧ (e.orphan = false) ∧
      ((s.hist (coreUnit core uMXA)).perm = false) ∧ ((s.hist (coreUnit core uCKL)).perm = false)) ∧
    (∃ (s : State) (core : Nat) (ups : List TileUpset) (r : Int) (e : MatEntry) (m : MmaSpec), ((s.core
      core).headTile = some (e, m)) ∧ (((s.core core).bank m.bank).filled = true) ∧ (((s.core core).bank
      m.bank).stale = false) ∧ ((s.core core).tile = none) ∧ ((s.core core).arbFor = none) ∧ (s.rd F.CHK_INJECT.ARM
      = 0) ∧ (e.orphan = false) ∧ ((s.hist (coreUnit core uMXA)).perm = false) ∧ ((s.hist (coreUnit core uCKL)).perm
      = false) ∧ (residueSees r = true)) ∧
    (∃ (s : State) (core : Nat) (ups : List TileUpset) (r : Int) (f : EccFinding) (e : MatEntry) (m : MmaSpec),
      ((s.core core).headTile = some (e, m)) ∧ (((s.core core).bank m.bank).filled = true) ∧ (((s.core core).bank
      m.bank).stale = true) ∧ ((s.core core).tile = none) ∧ ((s.core core).arbFor = none)) ∧
    (∃ (s : State) (core : Nat) (e : MatEntry) (m : MstoreSpec), (firstFree MatOp.isMstore [] (s.core core).mq =
      some e) ∧ (e.op = .mstore m) ∧ ((s.core core).stopped = false) ∧ (((MstoreSpec.ranges m).any fun r => ((s.core
      core).retain.filter fun sp => !((s.core core).mq.any fun x => x.tag == sp.tag)).any fun sp => overlap r.1 r.2
      sp.addr sp.len) = false) ∧ (((MstoreSpec.subs m).any fun b => !mstoreAccepts ((s.core core).sub b).ckptInt
      m.fmt) = false)) ∧
    (∃ (s : State) (core : Nat) (e : MatEntry) (m : MstoreSpec), (firstFree MatOp.isMstore [] (s.core core).mq =
      some e) ∧ (e.op = .mstore m) ∧ ((s.core core).stopped = false) ∧ (((MstoreSpec.ranges m).any fun r => ((s.core
      core).retain.filter fun sp => !((s.core core).mq.any fun x => x.tag == sp.tag)).any fun sp => overlap r.1 r.2
      sp.addr sp.len) = false) ∧ (((MstoreSpec.subs m).any fun b => !mstoreAccepts ((s.core core).sub b).ckptInt
      m.fmt) = true)) := by
  refine ⟨?_, ?_, ?_, ?_, ?_, ?_⟩
  · exact ⟨demoQueued (.mload demoMload) none, 0, demoEntry (.mload demoMload), demoMload, by decide⟩
  · exact ⟨demoQueued (.mma demoMma) none, 0, [], demoEntry (.mma demoMma), demoMma, by decide⟩
  · exact ⟨demoQueued (.mma demoMma) none, 0, [], 1, demoEntry (.mma demoMma), demoMma, by decide⟩
  · exact
    ⟨{ demoBase with cores := [(0, { Core.init with mq := [demoEntry (.mma demoMma)], banks := [(0, { Bank.init with filled := true, stale := true })] })] },
    0, [], 0, .clean, demoEntry (.mma demoMma), demoMma, by decide⟩
  · exact ⟨demoQueued (.mstore demoMstore) none, 0, demoEntry (.mstore demoMstore), demoMstore, by decide⟩
  · exact ⟨demoQueued (.mstore { demoMstore with fmt := 9 }) none, 0, demoEntry (.mstore
    { demoMstore with fmt := 9 }), { demoMstore with fmt := 9 }, by decide⟩

theorem witness_ReplayRows :
    (∃ (s : State) (core : Nat) (ups : List TileUpset) (e : MatEntry) (m : MmaSpec) (x : Tile), ((s.core core).tile
      = some x) ∧ ((s.core core).headTile = some (e, m)) ∧ (x.phase = .replay) ∧ (x.inj = 0) ∧ (x.oVoid = false) ∧
      (x.resDue = false) ∧ (e.orphan = false)) ∧
    (∃ (s : State) (core : Nat) (ups : List TileUpset) (r : Int) (f : EccFinding) (e : MatEntry) (m : MmaSpec) (x :
      Tile), ((s.core core).tile = some x) ∧ ((s.core core).headTile = some (e, m)) ∧ (x.phase = .replay) ∧
      (EccFinding.sram f = .uncorrectable)) ∧
    (∃ (s : State) (core : Nat) (e : MatEntry) (m : MmaSpec) (x : Tile) (y : Nat), ((s.core core).tile = some x) ∧
      ((s.core core).headTile = some (e, m)) ∧ (x.phase = .wantSibling) ∧ (s.sibling core e.ctx = some y)) ∧
    (∃ (s : State) (core : Nat) (e : MatEntry) (m : MmaSpec) (x : Tile) (y : Nat), ((s.core core).tile = some x) ∧
      ((s.core core).headTile = some (e, m)) ∧ (x.phase = .wantSibling) ∧ (s.sibling core e.ctx = some y)) ∧
    (∃ (s : State) (core : Nat) (u1 u2 : List TileUpset) (r2 : Int) (e : MatEntry) (m : MmaSpec) (x : Tile) (y :
      Nat), ((s.core core).tile = some x) ∧ ((s.core core).headTile = some (e, m)) ∧ (x.phase = .arbitrating) ∧
      (x.sibling = some y) ∧ ((s.core y).pausing = none) ∧ (x.direct = false)) ∧
    (∃ (s : State) (core : Nat) (u1 u2 : List TileUpset) (e : MatEntry) (m : MmaSpec) (x : Tile) (y : Nat), ((s.core
      core).tile = some x) ∧ ((s.core core).headTile = some (e, m)) ∧ (x.phase = .arbitrating) ∧ (x.sibling = some
      y) ∧ ((s.core y).pausing = none) ∧ (x.direct = false)) ∧
    (∃ (s : State) (core : Nat) (e : MatEntry) (m : MmaSpec) (x : Tile), ((s.core core).tile = some x) ∧ ((s.core
      core).headTile = some (e, m)) ∧ (x.phase = .transfer) ∧ (x.direct = false)) ∧
    (∃ (s : State) (core : Nat) (e : MatEntry) (m : MmaSpec) (x : Tile), ((s.core core).tile = some x) ∧ ((s.core
      core).headTile = some (e, m)) ∧ (x.phase = .transfer) ∧ (x.tries = 0)) ∧
    (∃ (s : State) (core : Nat) (e : MatEntry) (m : MmaSpec) (x : Tile), ((s.core core).tile = some x) ∧ ((s.core
      core).headTile = some (e, m)) ∧ (x.phase = .transfer) ∧ (x.tries ≠ 0)) ∧
    (∃ (s : State) (core : Nat) (e : MatEntry) (m : MmaSpec) (x : Tile), ((s.core core).tile = some x) ∧ ((s.core
      core).headTile = some (e, m)) ∧ (x.phase = .wantSibling)) := by
  refine ⟨?_, ?_, ?_, ?_, ?_, ?_, ?_, ?_, ?_, ?_⟩
  · exact ⟨demoQueued (.mma demoMma) (some (demoTile .replay none)), 0, [], demoEntry (.mma demoMma), demoMma,
    demoTile .replay none, by decide⟩
  · exact ⟨demoQueued (.mma demoMma) (some (demoTile .replay none)), 0, [], 0, .errors 2, demoEntry (.mma demoMma),
    demoMma, demoTile .replay none, by decide⟩
  · exact ⟨demoQueued (.mma demoMma) (some (demoTile .wantSibling none)), 0, demoEntry (.mma demoMma), demoMma,
    demoTile .wantSibling none, 1, by decide⟩
  · exact ⟨demoQueued (.mma demoMma) (some (demoTile .wantSibling none)), 0, demoEntry (.mma demoMma), demoMma,
    demoTile .wantSibling none, 1, by decide⟩
  · exact ⟨demoQueued (.mma demoMma) (some (demoTile .arbitrating (some 1))), 0, [], [], 0, demoEntry (.mma
    demoMma), demoMma, demoTile .arbitrating (some 1), 1, by decide⟩
  · exact ⟨demoQueued (.mma demoMma) (some (demoTile .arbitrating (some 1))), 0, [], [], demoEntry (.mma demoMma),
    demoMma, demoTile .arbitrating (some 1), 1, by decide⟩
  · exact ⟨demoQueued (.mma demoMma) (some (demoTile .transfer (some 1))), 0, demoEntry (.mma demoMma), demoMma,
    demoTile .transfer (some 1), by decide⟩
  · exact ⟨demoQueued (.mma demoMma) (some (demoTile .transfer (some 1))), 0, demoEntry (.mma demoMma), demoMma,
    demoTile .transfer (some 1), by decide⟩
  · exact ⟨demoQueued (.mma demoMma) (some { demoTile .transfer (some 1) with tries := 1 }), 0, demoEntry (.mma
    demoMma), demoMma, { demoTile .transfer (some 1) with tries := 1 }, by decide⟩
  · exact ⟨demoQueued (.mma demoMma) (some (demoTile .wantSibling none)), 0, demoEntry (.mma demoMma), demoMma,
    demoTile .wantSibling none, by decide⟩

theorem witness_CoreUpkeepRows :
    (∃ (s : State) (core : Nat) (n : Nat) (f : Bool), (s.coreIdle core = true) ∧ ((s.core core).gate = .run) ∧ (s.rd
      F.CORE_GATE_CFG.CG_IDLE core ≠ 0) ∧ (s.rd F.CORE_GATE_CFG.CG_IDLE core ≤ n)) ∧
    (∃ (s : State) (core : Nat) (n : Nat) (f : Bool), (s.coreIdle core = true) ∧ ((s.core core).gate ≠ .power) ∧
      (s.rd F.CORE_GATE_CFG.PG_IDLE core ≠ 0) ∧ (s.rd F.CORE_GATE_CFG.PG_IDLE core ≤ n)) ∧
    (∃ (s : State) (core : Nat), (s.retire core ≠ 2)) ∧
    (∃ (s : State) (core : Nat) (r1 r2 : SelfTestRun), (s.coreIdle core = true) ∧ (s.testDue core = true) ∧ (s.gated
      (coreQuarter core) = false) ∧ (SelfTestRun.failing r1 = [])) ∧
    (∃ (s : State) (core : Nat) (r1 r2 : SelfTestRun) (u : Nat), (s.coreIdle core = true) ∧ (s.testDue core = true)
      ∧ (s.gated (coreQuarter core) = false) ∧ ((s.core core).mustTest = false) ∧ (SelfTestRun.failing r1 = [u]) ∧
      (SelfTestRun.failing r2 = [])) ∧
    (∃ (s : State) (u : Nat), ((s.hist u).dirty = true)) ∧
    (∃ (s : State) (u : Nat), ((s.hist u).dirty = true)) ∧
    (∃ (s : State) (u : Nat), ((s.hist u).dirty = true)) ∧
    (∃ (s : State) (core : Nat), (s.retire core = 1) ∧ ((s.core core).live = []) ∧ ((s.core core).mq = []) ∧
      ((s.core core).reserved = []) ∧ (s.inService (coreQuarter core) < s.qMin ∨ s.qMin ≤ (s.setRetire core
      2).inService (coreQuarter core))) ∧
    (∃ (s : State) (core : Nat), (s.retire core = 1) ∧ ((s.core core).live = []) ∧ ((s.core core).mq = []) ∧
      ((s.core core).reserved = []) ∧ (s.qMin ≤ s.inService (coreQuarter core)) ∧ ((s.setRetire core 2).inService
      (coreQuarter core) < s.qMin)) ∧
    (∃ (s : State), ((s.cores.filter fun c => c.2.tile.isSome || c.2.executing.isSome) = [])) ∧
    (∃ (s : State), ((s.cores.filter fun c => c.2.tile.isSome || c.2.executing.isSome) ≠ [])) ∧
    (∃ (s : State) (v : Nat), (s.mode = mTEST ∨ s.rd F.SEC_STATUS.DEBUG = 1) ∧ (bitOf v 31 = true)) ∧
    (∃ (s : State) (v : Nat), (s.mode ≠ mTEST) ∧ (s.rd F.SEC_STATUS.DEBUG = 0)) ∧
    (∃ (s : State) (k i v : Nat), (s.measurable k i = true) ∧ (k ≠ 0)) ∧
    (∃ (s : State) (i v : Nat) (cr ba : Int), (s.measurable 0 i = true) ∧ (kfind (kset s.age.drives (2 * i + s.rd
      F.HCE_LOOP_STAT.TARGET i) (s.loop i).u) (2 * i + 1) = some cr) ∧ (kfind (kset s.age.drives (2 * i + s.rd
      F.HCE_LOOP_STAT.TARGET i) (s.loop i).u) (2 * i) = some ba)) ∧
    (∃ (s : State), (s.groupHolds = true) ∧ (s.rd F.AGE_STATUS.LAST_H + 1000 ≤ s.opMs / 3600000)) ∧
    (∃ (s : State), (s.groupHolds = false) ∧ (s.rd F.AGE_STATUS.LAST_H + 1000 ≤ s.opMs / 3600000)) ∧
    (∃ (s : State) (q : Req) (n : Nat), (s.taking 0x0A00 = some q) ∧ (s.groupHolds = false) ∧ (s.freeTicket = some
      n) ∧ (bitOf (leAt q.payload 0 1) 1 = false)) ∧
    (∃ (s : State) (q : Req), (s.taking 0x0A00 = some q) ∧ (s.groupHolds = true)) := by
  refine ⟨?_, ?_, ?_, ?_, ?_, ?_, ?_, ?_, ?_, ?_, ?_, ?_, ?_, ?_, ?_, ?_, ?_, ?_, ?_, ?_⟩
  · exact ⟨State.reset.wr F.CORE_GATE_CFG.CG_IDLE 5 0, 0, 5, true, by decide⟩
  · exact ⟨State.reset.wr F.CORE_GATE_CFG.PG_IDLE 5 0, 0, 5, true, by decide⟩
  · exact ⟨State.reset, 0, by decide⟩
  · exact ⟨{ demoBase with cores := [(0, { Core.init with mustTest := true })] }, 0, ⟨true, true, true, true⟩,
    ⟨true, true, true, true⟩, by decide⟩
  · exact ⟨{ demoBase with time.raw := 2 ^ 60 }, 0, ⟨true, false, true, true⟩, ⟨true, true, true, true⟩, uSFU, by
    decide⟩
  · exact ⟨{ State.reset with chk.hist := [(3, ⟨[1], false, [], false, true⟩)] }, 3, by decide⟩
  · exact ⟨{ State.reset with chk.hist := [(3, ⟨[1], false, [], false, true⟩)] }, 3, by decide⟩
  · exact ⟨{ State.reset with chk.hist := [(3, ⟨[1], false, [], false, true⟩)] }, 3, by decide⟩
  · exact ⟨{ State.reset with chk.retire := [(0, 1)] }, 0, by decide⟩
  · exact ⟨(State.reset.wr F.ID_CAP.Q_LIVE 15).setRetire 0 1 |> fun s => { s with chk.qMin := 72 }, 0, by decide⟩
  · exact ⟨State.reset, by decide⟩
  · exact ⟨demoQueued (.mma demoMma) (some (demoTile .replay none)), by decide⟩
  · exact ⟨State.reset.wr F.RST_STATUS.MODE mTEST, 0x80000005, by decide⟩
  · exact ⟨State.reset, 5, by decide⟩
  · exact ⟨State.reset, 4, 3, 7, by decide⟩
  · exact ⟨{ State.reset.wr F.HCE_LOOP_STAT.STATE hsCLOSED 0 with age.drives := [(1, 5)] }, 0, 0, 5, 0, by decide⟩
  · exact ⟨{ State.reset.wr F.UPD_STATE.GROUP_STATE 2 with time.opBase := 3600000000 }, by decide⟩
  · exact ⟨{ State.reset with time.opBase := 3600000000 }, by decide⟩
  · exact ⟨demoMail 0xA00 [0], demoReq 0xA00 [0], 0, by decide⟩
  · exact ⟨(demoMail 0xA00 [0]).wr F.UPD_STATE.GROUP_STATE 2, demoReq 0xA00 [0], by decide⟩

theorem witness_MailboxRows :
    (∃ (s : State) (q : Req) (r : Resp), (s.mb.taken = some q) ∧ (s.dueResp q = some r)) ∧
    (∃ (s : State) (q : Req), (s.mb.taken = some q)) ∧
    (∃ (s : State) (n : Nat) (k : Ticket) (r : WorkResult), (n < 16) ∧ (kfind s.mb.tickets n = some k) ∧ (k.result =
      some r) ∧ (k.posted = false)) ∧
    (∃ (s : State) (q : Req), (s.taking 0x0001 = some q)) ∧
    (∃ (s : State) (q : Req) (k : Ticket) (r : WorkResult), (s.taking 2 = some q) ∧ (leAt q.payload 0 1 < 16) ∧
      (kfind s.mb.tickets (leAt q.payload 0 1) = some k) ∧ (k.result = some r)) ∧
    (∃ (s : State) (q : Req) (k : Ticket), (s.taking 0x0002 = some q) ∧ (leAt q.payload 0 1 < 16) ∧ (kfind
      s.mb.tickets (leAt q.payload 0 1) = some k) ∧ (k.result = none)) ∧
    (∃ (s : State) (src key : Nat), (key = 0 ∨ 3 < key)) ∧
    (∃ (s : State) (src key : Nat), (1 ≤ key) ∧ (key ≤ 3)) ∧
    (∃ (s : State) (q : Req), (s.taking 0x0800 = some q) ∧ (s.evr.latched = false)) ∧
    (∃ (s : State) (q : Req), (s.taking 0x0800 = some q) ∧ (s.evr.latched = true)) ∧
    (∃ (s : State) (q : Req), (s.taking 0x0801 = some q) ∧ (s.evr.latched = true)) ∧
    (∃ (s : State) (q : Req), (s.taking 0x0801 = some q) ∧ (s.evr.latched = false)) := by
  refine ⟨?_, ?_, ?_, ?_, ?_, ?_, ?_, ?_, ?_, ?_, ?_, ?_⟩
  · exact ⟨demoMail 0x9999 [], demoReq 0x9999 [], ⟨stNOTFOUND, 0xFF, 0xFFFF, []⟩, by decide⟩
  · exact ⟨demoMail 1 [], demoReq 1 [], by decide⟩
  · exact ⟨{ State.reset with mb.tickets := [(0, ⟨0x500, some ⟨0, 0xFFFF, []⟩, false⟩)] }, 0, ⟨0x500, some ⟨0,
    0xFFFF, []⟩, false⟩, ⟨0, 0xFFFF, []⟩, by decide⟩
  · exact ⟨{ State.reset with mb.taken := some (demoReq 0x0001 []) }, demoReq 0x0001 [], by decide⟩
  · exact ⟨{ demoMail 2 [0] with mb.tickets := [(0, ⟨0x500, some ⟨0, 0xFFFF, []⟩, true⟩)] }, demoReq 2 [0], ⟨0x500,
    some ⟨0, 0xFFFF, []⟩, true⟩, ⟨0, 0xFFFF, []⟩, by decide⟩
  · exact ⟨{ demoMail 2 [0] with mb.tickets := [(0, ⟨0x500, none, false⟩)] }, demoReq 2 [0], ⟨0x500, none, false⟩,
    by decide⟩
  · exact ⟨State.reset, 1, 4, by decide⟩
  · exact ⟨State.reset, 1, 2, by decide⟩
  · exact ⟨demoMail 0x800 [], demoReq 0x800 [], by decide⟩
  · exact ⟨{ demoMail 0x800 [] with evr.latched := true }, demoReq 0x800 [], by decide⟩
  · exact ⟨{ demoMail 0x801 [] with evr.latched := true }, demoReq 0x801 [], by decide⟩
  · exact ⟨{ State.reset with mb.taken := some (demoReq 0x0801 []) }, demoReq 0x0801 [], by decide⟩

theorem witness_ServiceRows :
    (∃ (s : State) (q : Req) (slot : Nat), (s.taking 0x0100 = some q) ∧ (s.createStatus (leAt q.payload 0 2) (leAt
      q.payload 4 1) (leAt q.payload 5 1) (leAt q.payload 6 1) = none) ∧ ((List.range 256).find? (fun n =>
      s.ctxState n == ctxFree) = some slot)) ∧
    (∃ (s : State) (q : Req) (st : Nat), (s.taking 0x0100 = some q) ∧ (s.createStatus (leAt q.payload 0 2) (leAt
      q.payload 4 1) (leAt q.payload 5 1) (leAt q.payload 6 1) = some st)) ∧
    (∃ (s : State) (q : Req) (slot n : Nat), (s.taking 0x0101 = some q) ∧ (s.slotOf (leAt q.payload 0 2) = some
      slot) ∧ (s.removal slot = none) ∧ (s.freeTicket = some n)) ∧
    (∃ (s : State) (q : Req), (s.taking 0x0101 = some q) ∧ (s.slotOf (leAt q.payload 0 2) = none)) ∧
    (∃ (s : State) (q : Req) (n : Nat), (s.taking 0x0400 = some q) ∧ (leAt q.payload 0 1 = 0x50) ∧ (1 ≤ leAt
      q.payload 16 2) ∧ (leAt q.payload 16 2 ≤ 512) ∧ (leAt q.payload 8 8 % 32 = 0) ∧ (s.isLocalAddr (leAt q.payload
      8 8) = true) ∧ (bitsOf (leAt q.payload 8 8) 41 0 + 32 * leAt q.payload 16 2 ≤ generalUse) ∧ (s.freeTicket =
      some n)) ∧
    (∃ (s : State) (q : Req) (n : Nat), (s.taking 0x0400 = some q) ∧ (leAt q.payload 0 1 = 0x51) ∧ (1 ≤ leAt
      q.payload 16 2) ∧ (leAt q.payload 16 2 ≤ 512) ∧ (leAt q.payload 8 8 % 32 = 0) ∧ (s.isLocalAddr (leAt q.payload
      8 8) = true) ∧ (bitsOf (leAt q.payload 8 8) 41 0 + 32 * leAt q.payload 16 2 ≤ generalUse) ∧ (s.freeTicket =
      some n)) ∧
    (∃ (s : State) (q : Req) (n : Nat), (s.taking 0x0400 = some q) ∧ (leAt q.payload 0 1 = 0x52) ∧ (1 ≤ leAt
      q.payload 16 2) ∧ (leAt q.payload 16 2 ≤ 512) ∧ (leAt q.payload 8 8 % 32 = 0) ∧ (s.isLocalAddr (leAt q.payload
      8 8) = true) ∧ (bitsOf (leAt q.payload 8 8) 41 0 + 32 * leAt q.payload 16 2 ≤ generalUse) ∧ (s.freeTicket =
      some n)) ∧
    (∃ (s : State) (q : Req) (n : Nat), (s.taking 0x0400 = some q) ∧ (leAt q.payload 0 1 = 0x53) ∧ (1 ≤ leAt
      q.payload 16 2) ∧ (leAt q.payload 16 2 ≤ 512) ∧ (leAt q.payload 8 8 % 32 = 0) ∧ (s.isLocalAddr (leAt q.payload
      8 8) = true) ∧ (bitsOf (leAt q.payload 8 8) 41 0 + 32 * leAt q.payload 16 2 ≤ generalUse) ∧ (s.freeTicket =
      some n)) ∧
    (∃ (s : State) (q : Req) (n : Nat), (s.taking 0x0500 = some q) ∧ ((s.startProof none).isNone = false) ∧
      (s.freeTicket = some n)) ∧
    (∃ (s : State) (q : Req), (s.taking 0x0500 = some q) ∧ ((s.startProof none).isNone = true)) ∧
    (∃ (s : State) (q : Req) (n : Nat), (s.taking 0x0900 = some q) ∧ (leAt q.payload 0 1 = 3) ∧ (s.resetBad
      q.payload = false) ∧ (s.bigAction = false) ∧ (s.freeTicket = some n)) ∧
    (∃ (s : State) (q : Req) (n : Nat), (s.taking 0x0900 = some q) ∧ (leAt q.payload 0 1 = 4) ∧ (s.resetBad
      q.payload = false) ∧ (s.bigAction = false) ∧ (s.freeTicket = some n)) ∧
    (∃ (s : State) (q : Req) (n : Nat), (s.taking 0x0900 = some q) ∧ (leAt q.payload 0 1 = 5) ∧ (s.resetBad
      q.payload = false) ∧ (leAt q.payload 2 1 ≠ 1 ∨ s.unlocked = true) ∧ (s.bigAction = false) ∧ (s.freeTicket =
      some n)) ∧
    (∃ (s : State) (q : Req) (n : Nat), (s.taking 0x0900 = some q) ∧ (leAt q.payload 0 1 = 6) ∧ (s.resetBad
      q.payload = false) ∧ (s.bigAction = false) ∧ (s.freeTicket = some n)) ∧
    (∃ (s : State) (q : Req), (s.taking 0x0900 = some q) ∧ (leAt q.payload 0 1 = 5) ∧ (s.resetBad q.payload = false)
      ∧ (leAt q.payload 2 1 = 1) ∧ (s.unlocked = false)) ∧
    (∃ (s : State) (q : Req), (s.taking 0x0900 = some q) ∧ (leAt q.payload 0 1 = 3) ∧ (s.resetBad q.payload = true)) ∧
    (∃ (s : State) (q : Req) (n : Nat), (s.taking 0x0901 = some q) ∧ (leAt q.payload 0 1 = 0) ∧ (s.peers.evac =
      none) ∧ (s.freeTicket = some n)) ∧
    (∃ (s : State) (q : Req), (s.taking 0x0901 = some q) ∧ (leAt q.payload 0 1 = 0) ∧ (s.peers.evac.isSome = true)) ∧
    (∃ (s : State) (q : Req) (n : Nat), (s.taking 0x0901 = some q) ∧ (leAt q.payload 0 1 = 1) ∧ (s.freeTicket = some
      n)) ∧
    (∃ (s : State) (ticket : Option Nat) (n : Nat), (s.peers.evac = some (ticket, n))) := by
  refine ⟨?_, ?_, ?_, ?_, ?_, ?_, ?_, ?_, ?_, ?_, ?_, ?_, ?_, ?_, ?_, ?_, ?_, ?_, ?_, ?_⟩
  · exact
    ⟨{ demoBase.wr F.QDB_CTX.STATE 0 0 with mb.taken := some (demoReq 0x100 [1, 0, 1, 0, 0, 0, 0]), blk.quarters := [(0, { demoBase.quarter 0 with inReset := false }), (1, { demoBase.quarter 0 with inReset := false }), (2, { demoBase.quarter 0 with inReset := false }), (3, { demoBase.quarter 0 with inReset := false })] },
    demoReq 0x100 [1, 0, 1, 0, 0, 0, 0], 0, by decide⟩
  · exact ⟨{ State.reset with mb.taken := some (demoReq 0x0100 [1, 0, 1, 0, 9, 0, 0]) }, demoReq 0x0100 [1, 0, 1, 0,
    9, 0, 0], stPOLICY, by decide⟩
  · exact ⟨{ demoBase with mb.taken := some (demoReq 0x0101 [0, 0]) }, demoReq 0x0101 [0, 0], 0, 0, by decide⟩
  · exact ⟨{ State.reset with mb.taken := some (demoReq 0x0101 [9, 0]) }, demoReq 0x0101 [9, 0], by decide⟩
  · exact
    ⟨{ State.reset with mb.taken := some (demoReq 0x0400 [80, 0, 0, 0, 0, 0, 0, 0, 0, 0, 0, 0, 0, 0, 0, 0, 1, 0, 0, 0, 0, 0, 0, 0, 0, 0, 0, 0, 0, 0]) },
    demoReq 0x0400 [80, 0, 0, 0, 0, 0, 0, 0, 0, 0, 0, 0, 0, 0, 0, 0, 1, 0, 0, 0, 0, 0, 0, 0, 0, 0, 0, 0, 0, 0], 0,
    by decide⟩
  · exact
    ⟨{ State.reset with mb.taken := some (demoReq 0x0400 [81, 0, 0, 0, 0, 0, 0, 0, 0, 0, 0, 0, 0, 0, 0, 0, 1, 0, 0, 0, 0, 0, 0, 0, 0, 0, 0, 0, 0, 0]) },
    demoReq 0x0400 [81, 0, 0, 0, 0, 0, 0, 0, 0, 0, 0, 0, 0, 0, 0, 0, 1, 0, 0, 0, 0, 0, 0, 0, 0, 0, 0, 0, 0, 0], 0,
    by decide⟩
  · exact
    ⟨{ State.reset with mb.taken := some (demoReq 0x0400 [82, 0, 0, 0, 0, 0, 0, 0, 0, 0, 0, 0, 0, 0, 0, 0, 1, 0, 0, 0, 0, 0, 0, 0, 0, 0, 0, 0, 0, 0]) },
    demoReq 0x0400 [82, 0, 0, 0, 0, 0, 0, 0, 0, 0, 0, 0, 0, 0, 0, 0, 1, 0, 0, 0, 0, 0, 0, 0, 0, 0, 0, 0, 0, 0], 0,
    by decide⟩
  · exact
    ⟨{ State.reset with mb.taken := some (demoReq 0x0400 [83, 0, 0, 0, 0, 0, 0, 0, 0, 0, 0, 0, 0, 0, 0, 0, 1, 0, 0, 0, 0, 0, 0, 0, 0, 0, 0, 0, 0, 0]) },
    demoReq 0x0400 [83, 0, 0, 0, 0, 0, 0, 0, 0, 0, 0, 0, 0, 0, 0, 0, 1, 0, 0, 0, 0, 0, 0, 0, 0, 0, 0, 0, 0, 0], 0,
    by decide⟩
  · exact ⟨{ demoMail 0x500 [] with pwr.a.inRange := true, pwr.b.inRange := true }, demoReq 0x500 [], 0, by decide⟩
  · exact ⟨{ State.reset with mb.taken := some (demoReq 0x0500 []) }, demoReq 0x0500 [], by decide⟩
  · exact ⟨{ State.reset with mb.taken := some (demoReq 0x0900 [3, 2, 0, 0]) }, demoReq 0x0900 [3, 2, 0, 0], 0, by
    decide⟩
  · exact ⟨{ State.reset with mb.taken := some (demoReq 0x0900 [4, 0, 0, 0]) }, demoReq 0x0900 [4, 0, 0, 0], 0, by
    decide⟩
  · exact ⟨{ State.reset with mb.taken := some (demoReq 0x0900 [5, 0, 0, 0]) }, demoReq 0x0900 [5, 0, 0, 0], 0, by
    decide⟩
  · exact ⟨{ State.reset with mb.taken := some (demoReq 0x0900 [6, 0, 0, 0]) }, demoReq 0x0900 [6, 0, 0, 0], 0, by
    decide⟩
  · exact ⟨{ State.reset with mb.taken := some (demoReq 0x0900 [5, 0, 1, 0]) }, demoReq 0x0900 [5, 0, 1, 0], by
    decide⟩
  · exact ⟨{ State.reset with mb.taken := some (demoReq 0x0900 [3, 7, 0, 0]) }, demoReq 0x0900 [3, 7, 0, 0], by
    decide⟩
  · exact ⟨{ State.reset with mb.taken := some (demoReq 0x0901 [0]) }, demoReq 0x0901 [0], 0, by decide⟩
  · exact ⟨{ demoMail 0x901 [0] with peers.evac := some (some 0, 0) }, demoReq 0x901 [0], by decide⟩
  · exact ⟨{ State.reset with mb.taken := some (demoReq 0x0901 [1]) }, demoReq 0x0901 [1], 0, by decide⟩
  · exact ⟨{ State.reset with peers.evac := some (some 0, 0) }, some 0, 0, by decide⟩

theorem witness_PlacementRows :
    (∃ (s : State) (q : Req) (st reason : Nat), (s.taking 0x0102 = some q) ∧ (s.placing (plJob q.payload) = false) ∧
      (s.placeCheck q.payload = some (st, reason))) ∧
    (∃ (s : State) (q : Req) (n : Nat), (s.taking 0x0102 = some q) ∧ (s.placing (plJob q.payload) = false) ∧
      (s.placeCheck q.payload = none) ∧ (s.freeTicket = some n)) ∧
    (∃ (s : State) (src : Nat) (rec : List Nat), ((s.place.jobs.find? fun p => p.2.phase == .partner && plPartner
      p.2.record == src) = none) ∧ ((s.place.jobs.find? fun p => p.2.phase == .partner && plPartner p.2.record ==
      src && (p.1 == plJob (rec.map (BitVec.ofNat 8)))) = none)) ∧
    (∃ (s : State) (src : Nat) (rec : List Nat) (p : Nat × Placement), ((s.place.jobs.find? fun p => p.2.phase ==
      .partner && plPartner p.2.record == src && (p.1 == plJob (rec.map (BitVec.ofNat 8)))) = some p)) ∧
    (∃ (s : State) (job : Nat), (s.oldestPlacing = some job)) ∧
    (∃ (s : State) (job : Nat) (p : Placement), (kfind s.place.jobs job = some p) ∧ (p.phase = .held)) := by
  refine ⟨?_, ?_, ?_, ?_, ?_, ?_⟩
  · exact ⟨{ State.reset with mb.taken := some (demoReq 0x0102 (List.replicate 64 0)) }, demoReq 0x0102
    (List.replicate 64 0), stPOLICY, 2, by decide⟩
  · exact
    ⟨{ State.reset with mb.taken := some (demoReq 0x0102 ([1, 0, 1, 0, 0, 0, 0, 0, 0, 0, 32, 0, 0, 0, 0, 0, 0, 0, 32] ++ List.replicate 45 0)) },
    demoReq 0x0102 ([1, 0, 1, 0, 0, 0, 0, 0, 0, 0, 32, 0, 0, 0, 0, 0, 0, 0, 32] ++ List.replicate 45 0), 0, by
    decide⟩
  · exact ⟨State.reset, 3, [], by decide⟩
  · exact ⟨{ State.reset with place.jobs := [(0, ⟨[], 0, 3, 0, 0, [], .partner, 0, none⟩)] }, 0, [], (0, ⟨[], 0, 3,
    0, 0, [], .partner, 0, none⟩), by decide⟩
  · exact ⟨{ State.reset with place.jobs := [(0, ⟨[], 0, 3, 0, 0, [], .partner, 0, none⟩)] }, 0, by decide⟩
  · exact ⟨{ State.reset with place.jobs := [(0, ⟨[], 0, 3, 0, 0, [], .held, 0, none⟩)] }, 0, ⟨[], 0, 3, 0, 0, [],
    .held, 0, none⟩, by decide⟩

theorem witness_TwoKeyRows :
    (∃ (s : State) (q : Req) (n : Nat) (w : TwoKey) (data : List (BitVec 8)), (SecondKey s 1 q n w) ∧ (data = if
      w.data.isEmpty then q.payload.drop 464 else w.data) ∧ (data.isEmpty = false) ∧ (¬ (tkArg q.payload ≤ 3 ∧
      s.keyInUse (tkArg q.payload) = true)) ∧ (keyModulus data ≠ 0)) ∧
    (∃ (s : State) (q : Req) (n : Nat) (w : TwoKey) (data : List (BitVec 8)), (SecondKey s 1 q n w) ∧ (data = if
      w.data.isEmpty then q.payload.drop 464 else w.data) ∧ (data.isEmpty = false) ∧ (tkArg q.payload ≤ 3) ∧
      (s.keyInUse (tkArg q.payload) = false) ∧ (keyModulus data = 0)) ∧
    (∃ (s : State) (q : Req) (n : Nat) (w : TwoKey), (SecondKey s 2 q n w)) ∧
    (∃ (s : State) (q : Req) (n : Nat) (w : TwoKey), (SecondKey s 3 q n w) ∧ (s.rd F.SEC_POLICY.MIN_SVN ≤ tkArg
      q.payload) ∧ (tkArg q.payload ≤ leAt (s.manifest s.upd.boot.running) 12 4)) ∧
    (∃ (s : State) (q : Req) (n : Nat) (w : TwoKey), (SecondKey s 4 q n w)) ∧
    (∃ (s : State) (q : Req) (n : Nat) (w : TwoKey), (SecondKey s 5 q n w)) ∧
    (∃ (s : State) (q : Req) (n : Nat) (w : TwoKey), (SecondKey s 6 q n w) ∧ (288 ≤ tkArg q.payload) ∧ ((s.hist
      (engUnit (tkArg q.payload - 0x200))).any = true)) ∧
    (∃ (s : State) (q : Req) (n : Nat) (w : TwoKey) (c : Nat), (SecondKey s 6 q n w) ∧ (tkArg q.payload = c) ∧ (c <
      288) ∧ (s.retire c ≠ 0 ∨ (s.hist (coreUnit c uMXA)).any = true ∨ (s.hist (coreUnit c uCKL)).any = true ∨
      (s.hist (coreUnit c uVEC)).any = true ∨ (s.hist (coreUnit c uSFU)).any = true)) ∧
    (∃ (s : State) (q : Req) (n : Nat) (w : TwoKey), (SecondKey s 7 q n w)) ∧
    (∃ (s : State) (q : Req) (n : Nat) (w : TwoKey), (SecondKey s 8 q n w)) ∧
    (∃ (s : State) (q : Req) (n : Nat), (KeyValid s 4 q n) ∧ (s.upd.pending = none)) ∧
    (∃ (s : State) (w : TwoKey), (s.upd.pending = some w)) ∧
    (∃ (s : State) (q : Req) (w : TwoKey), (s.taking 0x0601 = some q) ∧ (s.upd.pending = some w)) ∧
    (∃ (s : State) (q : Req), (s.taking 0x0601 = some q) ∧ (s.upd.pending = none)) := by
  refine ⟨?_, ?_, ?_, ?_, ?_, ?_, ?_, ?_, ?_, ?_, ?_, ?_, ?_, ?_⟩
  · exact ⟨demoKey 1 5, demoKeyReq 1 5, 0, demoPending 1 5, plainKey, ⟨second_key 1 5 (by decide) rfl (by decide), rfl, rfl, fun h => absurd (show tkArg (tkPay 1 5 5) ≤ 3 from h.1) (by rw [tkArg, tkPay_arg]; decide), by decide +kernel⟩⟩
  · exact ⟨{ demoKey 1 2 with upd.pending := some { demoPending 1 2 with data := leBytes 388 0 } }, demoKeyReq 1 2, 0, { demoPending 1 2 with data := leBytes 388 0 }, leBytes 388 0, ⟨⟨(second_key 1 2 (by decide) rfl (by decide)).1, rfl, (second_key 1 2 (by decide) rfl (by decide)).2.2.1, (second_key 1 2 (by decide) rfl (by decide)).2.2.2⟩, rfl, rfl, by show tkArg (tkPay 1 5 2) ≤ 3; rw [tkArg, tkPay_arg]; decide, by show State.keyInUse _ (tkArg (tkPay 1 5 2)) = false; rw [tkArg, tkPay_arg]; decide +kernel, by decide +kernel⟩⟩
  · exact ⟨demoKey 2 5, demoKeyReq 2 5, 0, demoPending 2 5, second_key 2 5 (by decide) rfl (by decide)⟩
  · exact ⟨demoKey 3 0, demoKeyReq 3 0, 0, demoPending 3 0, ⟨second_key 3 0 (by decide) rfl (by decide), (show (demoKey 3 0).rd F.SEC_POLICY.MIN_SVN = 0 by decide +kernel) ▸ Nat.zero_le _, by show tkArg (tkPay 3 5 0) ≤ _; rw [tkArg, tkPay_arg]; exact Nat.zero_le _⟩⟩
  · exact ⟨demoKey 4 0, demoKeyReq 4 0, 0, demoPending 4 0, second_key 4 0 (by decide) rfl (by decide)⟩
  · exact ⟨demoKey 5 0, demoKeyReq 5 0, 0, demoPending 5 0, second_key 5 0 (by decide) rfl (by decide)⟩
  · exact ⟨demoKey 6 512, demoKeyReq 6 512, 0, demoPending 6 512, ⟨second_key 6 512 (by decide) rfl (by decide), by show 288 ≤ tkArg (tkPay 6 5 512); rw [tkArg, tkPay_arg]; decide, by show (State.hist _ (engUnit (tkArg (tkPay 6 5 512) - 0x200))).any = true; rw [tkArg, tkPay_arg]; decide +kernel⟩⟩
  · exact ⟨{ demoKey 6 2 with chk.hist := [(coreUnit 2 uMXA, ⟨[0], false, [], false, false⟩)] }, demoKeyReq 6 2, 0, demoPending 6 2, 2, ⟨second_key 6 2 (by decide) rfl (by decide), by show tkArg (tkPay 6 5 2) = 2; rw [tkArg, tkPay_arg]; rfl, by decide, Or.inr (Or.inl (by decide +kernel))⟩⟩
  · exact ⟨demoKey 7 0, demoKeyReq 7 0, 0, demoPending 7 0, second_key 7 0 (by decide) rfl (by decide)⟩
  · exact ⟨demoKey 8 0, demoKeyReq 8 0, 0, demoPending 8 0, second_key 8 0 (by decide) rfl (by decide)⟩
  · exact ⟨{ demoKey 4 0 with upd.pending := none }, demoKeyReq 4 0, 0, ⟨(second_key 4 0 (by decide) rfl (by
    decide)).1, rfl⟩⟩
  · exact ⟨demoKey 4 0, demoPending 4 0, rfl⟩
  · exact ⟨{ demoMail 0x601 [] with upd.pending := some (demoPending 4 0) }, demoReq 0x601 [], demoPending 4 0,
    ⟨rfl, rfl⟩⟩
  · exact ⟨demoMail 0x601 [], demoReq 0x601 [], ⟨rfl, rfl⟩⟩

theorem witness_SettingsRows :
    (∃ (s : State) (q : Req), (s.taking 0x0200 = some q) ∧ (((List.range (q.payload.length / 24)).map (readCfgEntry
      q.payload)).findIdx? CfgEntry.bad = none) ∧ ((((List.range (q.payload.length / 24)).map (readCfgEntry
      q.payload)).foldl mergeEntry s.mb.staging).length ≤ 512)) ∧
    (∃ (s : State) (q : Req) (k : Nat), (s.taking 0x0200 = some q) ∧ (((List.range (q.payload.length / 24)).map
      (readCfgEntry q.payload)).findIdx? CfgEntry.bad = some k)) ∧
    (∃ (s : State) (q : Req), (s.taking 0x0202 = some q)) ∧
    (∃ (s : State) (q : Req) (flashOk : Bool) (n : Nat), (s.taking 0x0201 = some q) ∧ (s.groupHolds = false) ∧
      (s.freeTicket = some n)) ∧
    (∃ (s : State) (q : Req) (flashOk : Bool) (n : Nat), (s.taking 0x0201 = some q) ∧ (s.groupHolds = false) ∧
      (s.freeTicket = some n) ∧ (newer (leAt q.payload 0 2) (cfgVer s.mb.cur) = false)) ∧
    (∃ (s : State) (q : Req) (n : Nat), (s.taking 0x0201 = some q) ∧ (s.groupHolds = false) ∧ (s.freeTicket = some
      n) ∧ (newer (leAt q.payload 0 2) (cfgVer s.mb.cur) = true) ∧ (s.stagedConflict (cfgEntries s.mb.cur)
      (s.mb.staging.foldl mergeEntry (cfgEntries s.mb.cur)) = none)) ∧
    (∃ (s : State) (q : Req) (n : Nat), (s.taking 0x0203 = some q) ∧ (s.groupHolds = false) ∧ (s.freeTicket = some
      n) ∧ (s.mb.prev = none)) ∧
    (∃ (s : State) (q : Req) (n : Nat), (s.taking 0x0203 = some q) ∧ (s.groupHolds = false) ∧ (s.freeTicket = some
      n)) ∧
    (∃ (s : State) (q : Req), (s.taking 0x0204 = some q) ∧ (leAt q.payload 0 1 = 0)) ∧
    (∃ (s : State) (q : Req), (s.taking 0x0204 = some q) ∧ (leAt q.payload 0 1 = 1) ∧ (s.mb.prev.isNone = true)) ∧
    (∃ (s : State) (q : Req) (host : List Nat) (n : Nat) (bs : List (BitVec 8)), (s.taking 0x0300 = some q) ∧ (bitOf
      (leAt q.payload 0 8) 63 = false) ∧ (s.isLocalAddr (leAt q.payload 0 8) = true) ∧ (bitsOf (leAt q.payload 0 8)
      41 0 + leAt q.payload 8 4 ≤ dramTop) ∧ (s.freeTicket = some n) ∧ (s.readPlanBytes (leAt q.payload 0 8) (leAt
      q.payload 8 4) host = .ok bs)) ∧
    (∃ (s : State) (q : Req) (host : List Nat), (s.taking 0x0300 = some q) ∧ (bitOf (leAt q.payload 0 8) 63 = false)
      ∧ (s.isLocalAddr (leAt q.payload 0 8) = false)) ∧
    (∃ (s : State) (q : Req) (n : Nat), (s.taking 0x0301 = some q) ∧ (s.groupHolds = false) ∧ (s.freeTicket = some
      n) ∧ (s.topo.loaded = none)) ∧
    (∃ (s : State) (q : Req) (n : Nat) (pl : Plan), (s.taking 0x0301 = some q) ∧ (s.groupHolds = false) ∧
      (s.freeTicket = some n) ∧ (s.topo.loaded = some pl) ∧ (s.topo.cur = none)) ∧
    (∃ (s : State) (q : Req) (n : Nat), (s.taking 0x0302 = some q) ∧ (s.groupHolds = false) ∧ (s.freeTicket = some
      n) ∧ (s.topo.prev = none)) ∧
    (∃ (s : State) (q : Req) (n : Nat) (pl : Plan), (s.taking 0x0302 = some q) ∧ (s.groupHolds = false) ∧
      (s.freeTicket = some n) ∧ (s.topo.prev = some pl)) ∧
    (∃ (s : State) (q : Req) (n : Nat) (r : CfgRecord), (s.taking 0x0203 = some q) ∧ (s.groupHolds = false) ∧
      (s.freeTicket = some n) ∧ (s.mb.prev = some r) ∧ (∀ x ∈ persInsts, s.cfgConflict (cfgEntries s.mb.cur)
      r.entries x.1 x.2 = false)) ∧
    (∃ (s : State) (q : Req) (n : Nat) (pl c : Plan), (s.taking 0x0301 = some q) ∧ (s.groupHolds = false) ∧
      (s.freeTicket = some n) ∧ (s.topo.loaded = some pl) ∧ (s.topo.cur = some c) ∧ (newer pl.ver c.ver = true)) ∧
    (∃ (s : State) (q : Req) (host : List Nat) (n : Nat) (bs : List (BitVec 8)), (s.taking 0x0300 = some q) ∧ (bitOf
      (leAt q.payload 0 8) 63 = true) ∧ (s.freeTicket = some n) ∧ (s.readPlanBytes (leAt q.payload 0 8) (leAt
      q.payload 8 4) host = .ok bs)) := by
  refine ⟨?_, ?_, ?_, ?_, ?_, ?_, ?_, ?_, ?_, ?_, ?_, ?_, ?_, ?_, ?_, ?_, ?_, ?_, ?_⟩
  · exact
    ⟨{ State.reset with mb.taken := some (demoReq 0x0200 (leBytes 4 (Reg.PTH_CFG.off 0) ++ leBytes 4 8 ++ leBytes 16 0 |>.map BitVec.toNat)) },
    demoReq 0x0200 (leBytes 4 (Reg.PTH_CFG.off 0) ++ leBytes 4 8 ++ leBytes 16 0 |>.map BitVec.toNat), by decide⟩
  · exact ⟨{ State.reset with mb.taken := some (demoReq 0x0200 (List.replicate 24 0)) }, demoReq 0x0200
    (List.replicate 24 0), 0, by decide⟩
  · exact ⟨{ State.reset with mb.taken := some (demoReq 0x0202 []) }, demoReq 0x0202 [], by decide⟩
  · exact ⟨demoMail 0x201 [1, 0], demoReq 0x201 [1, 0], true, 0, by decide⟩
  · exact ⟨demoMail 0x201 [0, 0], demoReq 0x201 [0, 0], true, 0, by decide⟩
  · exact ⟨demoMail 0x201 [1, 0], demoReq 0x201 [1, 0], 0, by decide⟩
  · exact ⟨{ State.reset with mb.taken := some (demoReq 0x0203 []) }, demoReq 0x0203 [], 0, by decide⟩
  · exact ⟨{ State.reset with mb.taken := some (demoReq 0x0203 []) }, demoReq 0x0203 [], 0, by decide⟩
  · exact ⟨{ State.reset with mb.taken := some (demoReq 0x0204 [0, 0, 0, 0]) }, demoReq 0x0204 [0, 0, 0, 0], by
    decide⟩
  · exact ⟨{ State.reset with mb.taken := some (demoReq 0x0204 [1, 0, 0, 0]) }, demoReq 0x0204 [1, 0, 0, 0], by
    decide⟩
  · exact ⟨demoMail 0x300 ([0, 0, 0, 0, 0, 0, 0, 0, 1] ++ List.replicate 3 0), demoReq 0x300 ([0, 0, 0, 0, 0, 0, 0,
    0, 1] ++ List.replicate 3 0), [], 0, [0], ⟨by decide, by decide, by decide, by decide, by decide, rfl⟩⟩
  · exact ⟨demoMail 0x300 [0, 0, 0, 0, 0, 0, 1, 0, 0, 0, 0, 0], demoReq 0x300 [0, 0, 0, 0, 0, 0, 1, 0, 0, 0, 0, 0],
    [], by decide⟩
  · exact ⟨{ State.reset with mb.taken := some (demoReq 0x0301 []) }, demoReq 0x0301 [], 0, by decide⟩
  · exact ⟨{ demoMail 0x301 [] with topo.loaded := some demoPlan }, demoReq 0x301 [], 0, demoPlan, by decide⟩
  · exact ⟨{ State.reset with mb.taken := some (demoReq 0x0302 []) }, demoReq 0x0302 [], 0, by decide⟩
  · exact ⟨{ demoMail 0x302 [] with topo.prev := some demoPlan }, demoReq 0x302 [], 0, demoPlan, by decide⟩
  · exact ⟨{ demoMail 0x203 [] with mb.prev := some ⟨1, []⟩ }, demoReq 0x203 [], 0, ⟨1, []⟩, rfl, rfl, rfl, rfl, by
    decide +kernel⟩
  · exact
    ⟨{ demoMail 0x301 [] with topo.loaded := some { demoPlan with ver := 1 }, topo.cur := some { demoPlan with ver := 0 } },
    demoReq 0x301 [], 0, { demoPlan with ver := 1 }, { demoPlan with ver := 0 }, by decide⟩
  · exact
    ⟨{ demoMail 0x300 ([0, 0, 0, 0, 0, 0, 0, 128, 1] ++ List.replicate 3 0) with ms.linkDown := false, pwr.perstLow := false },
    demoReq 0x300 ([0, 0, 0, 0, 0, 0, 0, 128, 1] ++ List.replicate 3 0), [0], 0, [0], ⟨by decide, by decide, by
    decide, rfl⟩⟩

theorem witness_TimeRows :
    (∃ (s : State), (s.flag F.TIM_STATUS.COARSE = false) ∧ (s.time.hold = 0)) ∧
    (∃ (s : State), (s.flag F.TIM_STATUS.COARSE = false) ∧ (0 < s.time.hold)) ∧
    (∃ (s : State) (port step : Nat) (locked : Bool), (s.ptpPort port = true) ∧ (s.role = roSLAVE) ∧ (s.rd
      F.TIM_STATUS.PARENT = port) ∧ (s.time.step < step)) ∧
    (∃ (s : State) (port step : Nat) (locked : Bool), (s.ptpPort port = true) ∧ (s.role = roSLAVE) ∧ (s.rd
      F.TIM_STATUS.PARENT = port) ∧ (step < s.time.step) ∧ (s.time.step - step ≠ s.time.hold) ∧ (s.time.step - step
      ≤ 2 ^ 20)) ∧
    (∃ (s : State) (port step : Nat) (locked : Bool), (s.ptpPort port = true) ∧ (s.role = roSLAVE) ∧ (s.rd
      F.TIM_STATUS.PARENT = port) ∧ (step < s.time.step) ∧ (s.time.step - step ≠ s.time.hold) ∧ (2 ^ 20 <
      s.time.step - step)) ∧
    (∃ (s : State) (port step : Nat) (locked : Bool), (s.ptpPort port = true) ∧ (s.role = roSLAVE) ∧ (s.rd
      F.TIM_STATUS.PARENT = port) ∧ (step = s.time.step ∨ (step < s.time.step ∧ s.time.step - step = s.time.hold))) ∧
    (∃ (s : State) (port : Nat), (s.ptpRole port = 1) ∧ (s.flag F.TIM_STATUS.COARSE = false) ∧ (kget s.time.syncs
      port 0 % 8 ≠ 0)) ∧
    (∃ (s : State) (port : Nat), (s.ptpRole port = 1) ∧ (s.flag F.TIM_STATUS.COARSE = false) ∧ (kget s.time.syncs
      port 0 % 8 = 0)) ∧
    (∃ (s : State) (port domain seqId : Nat) (t2 : Int), (s.slavePort port domain = true) ∧ (s.flag
      F.TIM_STATUS.COARSE = false)) ∧
    (∃ (s : State) (port domain seqId : Nat) (v : Int) (x : Exch), (s.slavePort port domain = true) ∧ (kfind
      s.time.exch port = some x) ∧ (x.seq = seqId) ∧ (x.t4 = none)) ∧
    (∃ (s : State) (port domain seqId : Nat) (v w : Int) (x : Exch), (s.slavePort port domain = true) ∧ (kfind
      s.time.exch port = some x) ∧ (x.seq = seqId) ∧ (x.t4 = some w)) ∧
    (∃ (s : State) (port domain seqId : Nat) (v : Int) (x : Exch), (s.slavePort port domain = true) ∧ (kfind
      s.time.exch port = some x) ∧ (x.seq = seqId) ∧ (x.t1 = none)) ∧
    (∃ (s : State) (port domain seqId : Nat) (v w : Int) (x : Exch), (s.slavePort port domain = true) ∧ (kfind
      s.time.exch port = some x) ∧ (x.seq = seqId) ∧ (x.t1 = some w)) ∧
    (∃ (s : State) (port domain seqId : Nat) (t4 : Int), (s.ptpRole port = 1) ∧ (domain = s.rd F.TIM_CFG.DOMAIN) ∧
      (s.flag F.TIM_STATUS.COARSE = false)) ∧
    (∃ (s : State) (port domain : Nat) (ds : AnnounceDs), (s.ptpPort port = true) ∧ (domain = s.rd F.TIM_CFG.DOMAIN)
      ∧ (ds.stepsRemoved < 255)) ∧
    (∃ (s : State), (s.role = roSLAVE)) ∧
    (∃ (s : State), (s.flag F.TIM_STATUS.GM = true) ∧ (s.flag F.TIM_CFG.PPS_EN = true) ∧ (s.ppsAccepts = true) ∧
      (s.nt % 1000000000 < 500000000)) ∧
    (∃ (s : State), (s.flag F.TIM_STATUS.GM = true) ∧ (s.flag F.TIM_CFG.PPS_EN = true) ∧ (s.ppsAccepts = true) ∧
      (500000000 ≤ s.nt % 1000000000)) ∧
    (∃ (s : State), (s.role = roPPS)) ∧
    (∃ (s : State), (s.flag F.TIM_STATUS.GM = true)) ∧
    (∃ (s : State), (s.flag F.TIM_STATUS.GM = false)) ∧
    (∃ (s : State) (n val : Nat) (x : Trig), (n < 12) ∧ (x = ⟨(s.leaveDormant.trigWrite n val).rd
      F.TIM_TRIG_TGT.TARGET n, ((s.leaveDormant.trigWrite n val).rreg .TIM_TRIG_CTL n).toNat⟩) ∧
      ((s.leaveDormant.trigWrite n val).trigHolds x = false)) ∧
    (∃ (s : State) (n val : Nat) (x : Trig), (n < 12) ∧ (x = ⟨(s.leaveDormant.trigWrite n val).rd
      F.TIM_TRIG_TGT.TARGET n, ((s.leaveDormant.trigWrite n val).rreg .TIM_TRIG_CTL n).toNat⟩) ∧
      ((s.leaveDormant.trigWrite n val).trigHolds x = true) ∧ (bitOf x.ctl 4 = true)) ∧
    (∃ (s : State) (n val : Nat), (12 ≤ n) ∧ (n < 16)) ∧
    (∃ (s : State) (n val : Nat), (n < 12)) ∧
    (∃ (s : State) (n val : Nat), (12 ≤ n) ∧ (n < 16)) ∧
    (∃ (s : State) (n : Nat) (x : Trig), (kfind s.time.trigs n = some x) ∧ (s.trigHolds x = true) ∧ (n < 12) ∧
      (bitOf x.ctl 4 = true)) ∧
    (∃ (s : State) (n : Nat) (x : Trig), (kfind s.time.trigs n = some x) ∧ (s.trigHolds x = true) ∧ (n < 12) ∧
      (bitOf x.ctl 4 = false) ∧ (s.ctxState (bitsOf x.ctl 15 8) = ctxACTIVE)) ∧
    (∃ (s : State) (n : Nat) (x : Trig), (kfind s.time.trigs n = some x) ∧ (s.trigHolds x = true) ∧ (n < 12) ∧
      (bitOf x.ctl 4 = false) ∧ (s.ctxState (bitsOf x.ctl 15 8) ≠ ctxACTIVE)) ∧
    (∃ (s : State) (n : Nat) (x : Trig), (kfind s.time.trigs n = some x) ∧ (s.trigHolds x = true) ∧ (12 ≤ n) ∧ (n <
      16)) := by
  refine ⟨?_, ?_, ?_, ?_, ?_, ?_, ?_, ?_, ?_, ?_, ?_, ?_, ?_, ?_, ?_, ?_, ?_, ?_, ?_, ?_, ?_, ?_, ?_, ?_, ?_, ?_, ?_, ?_, ?_, ?_⟩
  · exact ⟨State.reset, by decide⟩
  · exact ⟨{ State.reset with time.hold := 2 }, by decide⟩
  · exact ⟨demoSlave, 0, 5, true, by decide⟩
  · exact ⟨{ demoSlave with time.step := 9 }, 0, 5, true, by decide⟩
  · exact ⟨{ demoSlave with time.step := 2000000 }, 0, 5, true, by decide⟩
  · exact ⟨{ demoSlave with time.step := 5 }, 0, 5, true, by decide⟩
  · exact ⟨{ demoMaster with time.syncs := [(0, 1)] }, 0, by decide⟩
  · exact ⟨{ demoMaster with time.syncs := [(0, 8)] }, 0, by decide⟩
  · exact ⟨demoSlave, 0, 0, 4, 100, by decide⟩
  · exact ⟨{ demoSlave with time.exch := [(0, ⟨4, none, 10, 20, none⟩)] }, 0, 0, 4, 100, ⟨4, none, 10, 20, none⟩, by
    decide⟩
  · exact ⟨{ demoSlave with time.exch := [(0, ⟨4, none, 10, 20, some 40⟩)] }, 0, 0, 4, 100, 40, ⟨4, none, 10, 20,
    some 40⟩, by decide⟩
  · exact ⟨{ demoSlave with time.exch := [(0, ⟨4, none, 10, 20, none⟩)] }, 0, 0, 4, 100, ⟨4, none, 10, 20, none⟩, by
    decide⟩
  · exact ⟨{ demoSlave with time.exch := [(0, ⟨4, some 3, 10, 20, none⟩)] }, 0, 0, 4, 100, 3, ⟨4, some 3, 10, 20,
    none⟩, by decide⟩
  · exact ⟨demoMaster, 0, 0, 4, 100, by decide⟩
  · exact ⟨demoMaster, 0, 0, ⟨1, 6, 7, 0, 0, 7, 0⟩, by decide⟩
  · exact ⟨demoSlave, by decide⟩
  · exact ⟨(State.reset.wr F.TIM_STATUS.GM 1).wr F.TIM_CFG.PPS_EN 1, by decide⟩
  · exact ⟨{ (State.reset.wr F.TIM_STATUS.GM 1).wr F.TIM_CFG.PPS_EN 1 with time.raw := 600000000 }, by decide⟩
  · exact ⟨State.reset.wr F.TIM_STATUS.ROLE 1, by decide⟩
  · exact ⟨State.reset.wr F.TIM_STATUS.GM 1, by decide⟩
  · exact ⟨State.reset.wr F.TIM_STATUS.GM 0, by decide⟩
  · exact ⟨State.reset.wr F.TIM_TRIG_TGT.TARGET 5, 0, 0, ⟨5, 0⟩, by decide +kernel⟩
  · exact ⟨State.reset, 0, 16, ⟨0, 16⟩, by decide +kernel⟩
  · exact ⟨State.reset, 12, 0, by decide⟩
  · exact ⟨State.reset, 0, 0, by decide⟩
  · exact ⟨State.reset, 12, 0, by decide⟩
  · exact ⟨{ State.reset with time.trigs := [(0, ⟨0, 16⟩)] }, 0, ⟨0, 16⟩, by decide⟩
  · exact ⟨{ (State.reset.wr F.QDB_CTX.STATE 1 0) with time.trigs := [(0, ⟨0, 0⟩)] }, 0, ⟨0, 0⟩, by decide⟩
  · exact ⟨{ State.reset with time.trigs := [(0, ⟨0, 0⟩)] }, 0, ⟨0, 0⟩, by decide⟩
  · exact ⟨{ State.reset with time.trigs := [(12, ⟨0, 0⟩)] }, 12, ⟨0, 0⟩, by decide⟩

theorem witness_TopologyRows :
    (∃ (s : State) (port : Nat) (blk : Disc), (s.laneState (w0Lane port) = lsUP ∨ s.laneState (w0Lane port) =
      lsBEACON) ∧ ((s.portDisc port).last = none) ∧ (s.topo.cur = none)) ∧
    (∃ (s : State) (port : Nat) (blk l : Disc), (s.laneState (w0Lane port) = lsUP ∨ s.laneState (w0Lane port) =
      lsBEACON) ∧ ((s.portDisc port).last = some l) ∧ (sameDisc l blk = false) ∧ (s.topo.cur = none)) ∧
    (∃ (s : State) (port : Nat) (blk l : Disc) (p : Plan), (s.laneState (w0Lane port) = lsUP ∨ s.laneState (w0Lane
      port) = lsBEACON) ∧ ((s.portDisc port).last = some l) ∧ (sameDisc l blk = true) ∧ (2 ≤ (s.portDisc port).same)
      ∧ (s.topo.cur = some p) ∧ (s.topo.swaps = []) ∧ (p.peer s.node port = some (blk.node, blk.port)) ∧
      (blk.planLoaded = true) ∧ (blk.planVer = p.ver) ∧ (blk.planCrc = p.crc) ∧ (blk.node ≠ s.node) ∧ (s.flag
      F.PTH_DISC_CFG.IDENT_CHECK = false ∨ kget p.fpr blk.node 0 = 0 ∨ blk.fpr = kget p.fpr blk.node 0) ∧
      (blk.heardValid = true ∧ blk.heardNode = s.node ∧ blk.heardPort = port) ∧ (blk.quar = false)) ∧
    (∃ (s : State) (port : Nat) (blk : Disc) (p : Plan), (s.laneState (w0Lane port) = lsUP ∨ s.laneState (w0Lane
      port) = lsBEACON) ∧ ((s.portDisc port).last = none) ∧ (s.topo.cur = some p) ∧ (blk.planLoaded = true) ∧ (newer
      blk.planVer p.ver = true) ∧ (blk.planVer ≠ p.ver) ∧ (blk.planVer ∉ (s.portDisc port).skew)) ∧
    (∃ (s : State) (port : Nat) (blk l : Disc), (s.laneState (w0Lane port) = lsUP ∨ s.laneState (w0Lane port) =
      lsBEACON) ∧ ((s.portDisc port).last = some l) ∧ (sameDisc l blk = true) ∧ (2 ≤ (s.portDisc port).same) ∧
      (s.topo.cur = none)) ∧
    (∃ (s : State) (port : Nat), (s.laneState (w0Lane port) = lsUP ∨ s.laneState (w0Lane port) = lsBEACON) ∧
      (s.topo.cur = none) ∧ ((s.portDisc port).last = none)) ∧
    (∃ (s : State) (port : Nat), (s.topo.cur = none)) ∧
    (∃ (s : State) (port : Nat) (pl : Plan) (w : Nat × Nat), (s.topo.cur = some pl) ∧ (s.wired s.node port = some
      w)) ∧
    (∃ (s : State) (pl : Plan), (s.topo.cur = some pl)) ∧
    (∃ (s : State), (s.topo.cur = none)) := by
  refine ⟨?_, ?_, ?_, ?_, ?_, ?_, ?_, ?_, ?_, ?_⟩
  · exact ⟨demoMaster, 0, demoBlk, by decide⟩
  · exact ⟨demoMaster.setPortDisc 0 { PortDisc.init with last := some { demoBlk with node := 8 }, same := 2 }, 0,
    demoBlk, { demoBlk with node := 8 }, by decide⟩
  · exact
    ⟨{ demoMaster.setPortDisc 0 { PortDisc.init with last := some { demoBlk with node := 1, port := 0, planVer := 1 }, same := 2 } with topo.cur := some { demoPlan with present := [0, 1] } },
    0, { demoBlk with node := 1, port := 0, planVer := 1 }, { demoBlk with node := 1, port := 0, planVer := 1 },
    { demoPlan with present := [0, 1] }, by decide⟩
  · exact ⟨{ demoMaster with topo.cur := some demoPlan }, 0, { demoBlk with planVer := 2 }, demoPlan, by decide⟩
  · exact ⟨demoMaster.setPortDisc 0 { PortDisc.init with last := some demoBlk, same := 2 }, 0, demoBlk, demoBlk, by
    decide⟩
  · exact ⟨demoMaster, 0, by decide⟩
  · exact ⟨State.reset, 0, by decide⟩
  · exact ⟨{ State.reset with topo.cur := some { demoPlan with present := [0, 1] } }, 0,
    { demoPlan with present := [0, 1] }, (1, 0), by decide⟩
  · exact ⟨{ State.reset with topo.cur := some demoPlan }, demoPlan, by decide⟩
  · exact ⟨State.reset, by decide⟩

theorem witness_HingeRows :
    (∃ (s : State) (taps : List LoopTap) (late : List Nat), (s.flag F.HCE_STATUS.RUN = true)) ∧
    (∃ (s : State) (taps : List LoopTap) (late : List Nat), (s.flag F.HCE_STATUS.RUN = false)) ∧
    (∃ (s : State) (group : Nat), (group < 21) ∧ (3 ≤ s.rd F.HCE_GRP.CONSEC group) ∧ (s.rd F.HCE_GRP.RATE group =
      grFULL)) ∧
    (∃ (s : State) (group : Nat), (group < 21) ∧ (3 ≤ s.rd F.HCE_GRP.CONSEC group) ∧ (s.rd F.HCE_GRP.RATE group =
      grHALF)) ∧
    (∃ (s : State) (group : Nat), (s.rd F.HCE_GRP.RATE group = grHALF) ∧ (20000 ≤ (s.hceGroup group).clean)) ∧
    (∃ (s : State) (group : Nat), (group < 21) ∧ (s.rd F.HCE_GRP.RATE group ≠ grFULL)) ∧
    (∃ (s : State) (loop : Nat) (target lit : Bool) (start late : Nat), (loop < 2700) ∧ (s.hce.queue.length < 4096)
      ∧ (late ≤ s.lateMax)) ∧
    (∃ (s : State) (loop : Nat) (target recable lit : Bool) (start late : Nat), (loop < 2700) ∧ (s.hce.queue.length
      < 4096) ∧ (recable = false ∨ start ≤ s.time.step) ∧ (s.lateMax < late)) ∧
    (∃ (s : State) (loop : Nat) (target lit : Bool) (start late : Nat), (loop < 2700) ∧ (s.hce.queue.length < 4096)
      ∧ (s.time.step < start)) ∧
    (∃ (s : State) (step late : Nat) (r : RampRec), ((s.hce.queue.filter fun r => r.start == step) = [r]) ∧ (late ≤
      s.lateMax) ∧ (hingeColour (s.standIn r.loop) = 0)) ∧
    (∃ (s : State) (val : Nat), (bitsOf val 11 0 < 2700)) ∧
    (∃ (s : State) (val : Nat), (2700 ≤ bitsOf val 11 0)) ∧
    (∃ (s : State) (loop : Nat), (loop < 3148) ∧ (s.hceState loop = hsCLOSED)) ∧
    (∃ (s : State) (loop : Nat), (loop < 3148) ∧ (s.hceState loop = hsHOLD) ∧ ((s.loop loop).prior = hsCLOSED)) ∧
    (∃ (s : State) (loop : Nat), (loop < 3148) ∧ (s.hceState loop = hsHOLD) ∧ ((s.loop loop).prior = hsSETTLE)) ∧
    (∃ (s : State) (loop set : Nat), (loop < 3148) ∧ (s.hceState loop = hsCLOSED)) ∧
    (∃ (s : State) (loop set : Nat), (loop < 3148) ∧ (s.hceState loop ≠ hsCLOSED)) ∧
    (∃ (s : State) (judged : List WindowTap) (i : Nat), (((judged.map WindowTap.loop).eraseDups.filter fun i =>
      decide (i < 3148)) = [i]) ∧ (s.hceState i = hsCLOSED) ∧ (((judged.filter fun t => t.loop == i).find? fun t =>
      decide (t.cause ≠ .good)) = none)) ∧
    (∃ (s : State) (judged : List WindowTap) (i : Nat) (w : WindowTap), (((judged.map
      WindowTap.loop).eraseDups.filter fun i => decide (i < 3148)) = [i]) ∧ (s.hceState i = hsCLOSED) ∧
      (((judged.filter fun t => t.loop == i).find? fun t => decide (t.cause ≠ .good)) = some w) ∧ (s.rd1
      F.HCE_PILOT_CFG.BAD_WIN ≤ (s.loop i).bad + 1)) ∧
    (∃ (s : State) (judged : List WindowTap) (i : Nat), (((judged.map WindowTap.loop).eraseDups.filter fun i =>
      decide (i < 3148)) = [i]) ∧ (s.hceState i = hsFB_HOLD) ∧ (((judged.filter fun t => t.loop == i).find? fun t =>
      decide (t.cause ≠ .good)) = none) ∧ (s.rd1 F.HCE_CFG.RECOVER_WIN ≤ (s.loop i).good + 1)) := by
  refine ⟨?_, ?_, ?_, ?_, ?_, ?_, ?_, ?_, ?_, ?_, ?_, ?_, ?_, ?_, ?_, ?_, ?_, ?_, ?_, ?_⟩
  · exact ⟨State.reset.wr F.HCE_STATUS.RUN 1, [], [], by decide⟩
  · exact ⟨State.reset, [], [], by decide⟩
  · exact ⟨State.reset.wr F.HCE_GRP.CONSEC 3 0, 0, by decide⟩
  · exact ⟨(State.reset.wr F.HCE_GRP.CONSEC 3 0).wr F.HCE_GRP.RATE grHALF 0, 0, by decide⟩
  · exact ⟨{ State.reset.wr F.HCE_GRP.RATE 1 0 with hce.groups := [(0, ⟨0, 20000⟩)] }, 0, by decide⟩
  · exact ⟨State.reset.wr F.HCE_GRP.RATE 1 0, 0, by decide⟩
  · exact ⟨State.reset, 0, true, true, 0, 0, by decide⟩
  · exact ⟨State.reset, 0, true, false, true, 0, 100000, by decide⟩
  · exact ⟨State.reset, 0, true, true, 5, 0, by decide⟩
  · exact ⟨{ State.reset with hce.queue := [⟨0, true, true, 5⟩] }, 5, 0, ⟨0, true, true, 5⟩, by decide⟩
  · exact ⟨State.reset, 1, by decide⟩
  · exact ⟨State.reset, 4000, by decide⟩
  · exact ⟨State.reset.setHceState 0 hsCLOSED, 0, by decide⟩
  · exact ⟨(State.reset.setHceState 0 hsHOLD).setLoop 0 { Loop.init with prior := hsCLOSED }, 0, by decide⟩
  · exact ⟨(State.reset.setHceState 0 hsHOLD).setLoop 0 { Loop.init with prior := hsSETTLE }, 0, by decide⟩
  · exact ⟨State.reset.setHceState 0 hsCLOSED, 0, 3, by decide⟩
  · exact ⟨State.reset, 0, 3, by decide⟩
  · exact ⟨State.reset.setHceState 0 hsCLOSED, [⟨0, 0, .good⟩], 0, by decide⟩
  · exact ⟨(State.reset.setHceState 0 hsCLOSED).setLoop 0 { Loop.init with bad := 9 }, [⟨0, 0, .lost⟩], 0, ⟨0, 0,
    .lost⟩, by decide⟩
  · exact ⟨(State.reset.setHceState 0 hsFB_HOLD).setLoop 0 { Loop.init with good := 900 }, [⟨0, 0, .good⟩], 0, by
    decide⟩

theorem witness_LaneRows :
    (∃ (s : State) (lane : Nat), (s.laneState lane = lsCDR)) ∧
    (∃ (s : State) (lane : Nat), (180 ≤ lane) ∧ (s.laneState lane = lsFAILED) ∧ (s.flag F.LAT_PORT.QUAR (lane - 180)
      = true)) ∧
    (∃ (s : State) (lane : Nat), (180 ≤ lane) ∧ (s.laneState lane = lsFAILED) ∧ (s.flag F.LAT_PORT.QUAR (lane - 180)
      = false)) ∧
    (∃ (s : State) (lane : Nat), (s.laneState lane = lsADAPT)) ∧
    (∃ (s : State) (lane c : Nat), (s.laneState lane = lsALIGN) ∧ (s.laneCirc lane = some c)) ∧
    (∃ (s : State) (lane node inc circ laneI k plane : Nat) (ready : Bool) (c : Nat), (s.laneState lane = lsINIT) ∧
      (s.laneCirc lane = some c) ∧ (c < 512) ∧ (node ≠ s.rd F.LNK_CIRC.FAR_NODE c ∨ plane ≠ lanePlane lane ∨ k ≠
      (s.circLanes c).length ∨ laneI ≠ (s.circLanes c).idxOf lane)) ∧
    (∃ (s : State) (lane node inc circ laneI k plane : Nat) (ready : Bool) (c : Nat), (s.laneState lane = lsINIT) ∧
      (s.laneCirc lane = some c) ∧ (512 ≤ c ∨ (node = s.rd F.LNK_CIRC.FAR_NODE c ∧ plane = lanePlane lane ∧ k =
      (s.circLanes c).length ∧ laneI = (s.circLanes c).idxOf lane)) ∧ (ready = true) ∧ (s.circLanes c = [lane])) ∧
    (∃ (s : State) (lane node inc circ laneI k plane : Nat) (c : Nat), (s.laneState lane = lsINIT) ∧ (s.laneCirc
      lane = some c) ∧ (512 ≤ c ∨ (node = s.rd F.LNK_CIRC.FAR_NODE c ∧ plane = lanePlane lane ∧ k = (s.circLanes
      c).length ∧ laneI = (s.circLanes c).idxOf lane))) ∧
    (∃ (s : State) (lane corrected uncorr : Nat), (s.laneState lane = lsCHECK) ∧ (corrected ≤ 3264) ∧ (uncorr = 0) ∧
      (180 ≤ lane)) ∧
    (∃ (s : State) (lane corrected uncorr c : Nat), (s.laneState lane = lsCHECK) ∧ (corrected ≤ 3264) ∧ (uncorr = 0)
      ∧ (lane < 180) ∧ (s.laneCirc lane = some c) ∧ (c < 512) ∧ (∀ l ∈ s.circLanes c, l = lane ∨ s.laneState l =
      lsUP)) ∧
    (∃ (s : State) (lane corrected uncorr c l : Nat), (s.laneState lane = lsCHECK) ∧ (corrected ≤ 3264) ∧ (uncorr =
      0) ∧ (s.laneCirc lane = some c) ∧ (c < 512) ∧ (l ∈ s.circLanes c) ∧ (l ≠ lane) ∧ (s.laneState l ≠ lsUP)) ∧
    (∃ (s : State) (lane corrected uncorr : Nat), (s.laneState lane = lsCHECK) ∧ (3264 < corrected ∨ uncorr ≠ 0) ∧
      ((s.lane lane).retried = false)) ∧
    (∃ (s : State) (lane corrected uncorr : Nat), (s.laneState lane = lsCHECK) ∧ (3264 < corrected ∨ uncorr ≠ 0) ∧
      ((s.lane lane).retried = true)) ∧
    (∃ (s : State) (lane : Nat), (lsCDR ≤ s.laneState lane) ∧ (s.laneState lane ≤ lsCHECK)) ∧
    (∃ (s : State) (lane : Nat) (cond : LaneFailCond), (s.laneState lane ≠ lsDARK) ∧ (s.laneState lane ≠ lsFAILED)) ∧
    (∃ (s : State) (lane ack req rsp pmsg nakSeq c : Nat), (s.laneState lane = lsUP) ∧ (s.laneCirc lane = some c)) ∧
    (∃ (s : State) (lane ack req rsp pmsg nakSeq c : Nat), (s.laneState lane = lsUP) ∧ (s.laneCirc lane = some c)) ∧
    (∃ (s : State) (lane symbols : Nat), (s.laneState lane = lsUP) ∧ (44800 < symbols)) ∧
    (∃ (s : State) (lane symbols : Nat), (s.laneState lane = lsUP) ∧ (symbols ≤ 44800)) ∧
    (∃ (s : State) (lane : Nat), (s.laneState lane = lsUP)) ∧
    (∃ (s : State) (lane c : Nat), (s.laneState lane = lsUP) ∧ (s.laneCirc lane = some c) ∧ ((s.lane lane).nak =
      true)) ∧
    (∃ (s : State) (lane c : Nat), (s.laneState lane = lsUP) ∧ (s.laneCirc lane = some c) ∧ ((s.lane lane).nak =
      false)) ∧
    (∃ (s : State) (port : Nat) (x : TxPkt), ((s.circ (chanKey port)).txq.find? (fun t => t.type == ptPMSG &&
      t.pkt.src != s.node) = some x)) ∧
    (∃ (s : State) (circ : Nat) (b r : List TxPkt) (x : TxPkt), ((offered s circ).circUp circ = true) ∧ ((offered s
      circ).pick circ = some (b, x, r))) ∧
    (∃ (s : State) (circ : Nat), (s.circUp circ = true) ∧ ((s.circ circ).replay ≠ []) ∧ ((s.circ circ).replays + 1 <
      s.rd1 F.LNK_CFG.REPLAY_MAX)) ∧
    (∃ (s : State) (circ : Nat), (s.circUp circ = true) ∧ ((s.circ circ).replay ≠ []) ∧ (s.rd1 F.LNK_CFG.REPLAY_MAX
      ≤ (s.circ circ).replays + 1)) := by
  refine ⟨?_, ?_, ?_, ?_, ?_, ?_, ?_, ?_, ?_, ?_, ?_, ?_, ?_, ?_, ?_, ?_, ?_, ?_, ?_, ?_, ?_, ?_, ?_, ?_, ?_, ?_⟩
  · exact ⟨State.reset.setLaneState 0 lsCDR, 0, by decide⟩
  · exact ⟨(State.reset.setLaneState 180 lsFAILED).wr F.LAT_PORT.QUAR 1 0, 180, by decide⟩
  · exact ⟨State.reset.setLaneState 180 lsFAILED, 180, by decide⟩
  · exact ⟨State.reset.setLaneState 0 lsADAPT, 0, by decide⟩
  · exact ⟨demoLink.setLaneState 3 lsALIGN, 3, 5, by decide⟩
  · exact ⟨demoLink.setLaneState 3 lsINIT, 3, 9, 0, 0, 0, 1, 1, true, 5, by decide⟩
  · exact ⟨demoLink.setLaneState 3 lsINIT, 3, 0, 0, 0, 0, 1, 1, true, 5, by decide⟩
  · exact ⟨demoLink.setLaneState 3 lsINIT, 3, 0, 0, 0, 0, 1, 1, 5, by decide⟩
  · exact ⟨State.reset.setLaneState 180 lsCHECK, 180, 0, 0, by decide⟩
  · exact ⟨demoLink.setLaneState 3 lsCHECK, 3, 0, 0, 5, by decide⟩
  · exact ⟨(demoLink.setLaneState 3 lsCHECK).setCirc 5 { Circ.init with lanes := [3, 15] }, 3, 0, 0, 5, 15, by
    decide⟩
  · exact ⟨State.reset.setLaneState 0 lsCHECK, 0, 4000, 0, by decide⟩
  · exact ⟨(State.reset.setLaneState 0 lsCHECK).setLane 0 { Lane.init with retried := true }, 0, 4000, 0, by decide⟩
  · exact ⟨State.reset.setLaneState 0 lsCDR, 0, by decide⟩
  · exact ⟨State.reset.setLaneState 0 lsUP, 0, .signalLoss, by decide⟩
  · exact ⟨demoLink, 3, 0, 0, 0, 0, 0, 5, by decide⟩
  · exact ⟨demoLink, 3, 0, 0, 0, 0, 0, 5, by decide⟩
  · exact ⟨State.reset.setLaneState 0 lsUP, 0, 50000, by decide⟩
  · exact ⟨State.reset.setLaneState 0 lsUP, 0, 100, by decide⟩
  · exact ⟨State.reset.setLaneState 0 lsUP, 0, by decide⟩
  · exact ⟨demoLink.setLane 3 { Lane.init with nak := true }, 3, 5, by decide⟩
  · exact ⟨demoLink, 3, 5, by decide⟩
  · exact
    ⟨{ State.reset with lk.circs := [(512, { Circ.init with txq := [⟨0x10, { Pkt.zero with src := 4 }, 0⟩] })] }, 0,
    ⟨0x10, { Pkt.zero with src := 4 }, 0⟩, by decide⟩
  · exact ⟨{ demoLink with lk.circs := [(5, { Circ.init with lanes := [3], txq := [⟨1, Pkt.zero, 0⟩] })] }, 5, [],
    [], ⟨1, Pkt.zero, 0⟩, by decide⟩
  · exact ⟨{ demoLink with lk.circs := [(5, { Circ.init with lanes := [3], replay := [⟨1, Pkt.zero, 0⟩] })] }, 5, by
    decide⟩
  · exact
    ⟨{ demoLink with lk.circs := [(5, { Circ.init with lanes := [3], replay := [⟨1, Pkt.zero, 0⟩], replays := 200 })] },
    5, by decide⟩

theorem witness_ReceiveRows :
    (∃ (s r u : State) (lane c : Nat) (pkt : Pkt) (k : MemKind) (a : Pkt) (bs : List (BitVec 8)), (Receivable s lane
      c ptWR pkt) ∧ (r = received s lane c ptWR pkt) ∧ (k = MemKind.write pkt.payload) ∧ (a = r.answerPkt pkt false)
      ∧ (r.checkAccess pkt.job true (r.fromPrimary pkt) (pkt.engine == 6) k pkt.addr = none) ∧ (r.homeAccess
      (remoteSource pkt) k pkt.addr (.reply c a ptCPL) = (u, .data bs))) ∧
    (∃ (s r u : State) (lane c t : Nat) (pkt : Pkt) (k : MemKind) (a : Pkt), (Receivable s lane c ptWR pkt) ∧ (r =
      received s lane c ptWR pkt) ∧ (k = MemKind.write pkt.payload) ∧ (a = r.answerPkt pkt false) ∧ (r.checkAccess
      pkt.job true (r.fromPrimary pkt) (pkt.engine == 6) k pkt.addr = none) ∧ (r.homeAccess (remoteSource pkt) k
      pkt.addr (.reply c a ptCPL) = (u, .pending t))) ∧
    (∃ (s r : State) (lane c : Nat) (pkt : Pkt) (ecc : EccFinding) (k : MemKind) (a : Pkt) (cause : Nat),
      (Receivable s lane c ptWR pkt) ∧ (r = received s lane c ptWR pkt) ∧ (k = MemKind.write pkt.payload) ∧ (a =
      r.answerPkt pkt false) ∧ (r.checkAccess pkt.job true (r.fromPrimary pkt) (pkt.engine == 6) k pkt.addr = some
      cause) ∧ (cause ≠ gcPOISON)) ∧
    (∃ (s r : State) (lane c : Nat) (pkt : Pkt) (ecc : EccFinding) (k : MemKind) (a : Pkt) (kind : Nat), (Receivable
      s lane c ptWR pkt) ∧ (r = received s lane c ptWR pkt) ∧ (k = MemKind.write pkt.payload) ∧ (a = r.answerPkt pkt
      false) ∧ (r.checkAccess pkt.job true (r.fromPrimary pkt) (pkt.engine == 6) k pkt.addr = none) ∧ ((placeOf
      pkt.addr).sramKind = some kind) ∧ (Machine.EccFinding.sram ecc = .uncorrectable)) ∧
    (∃ (s r v u : State) (lane c : Nat) (pkt : Pkt) (ecc : EccFinding) (k : MemKind) (a : Pkt) (bs : List (BitVec
      8)), (Receivable s lane c ptWR pkt) ∧ (r = received s lane c ptWR pkt) ∧ (k = MemKind.write pkt.payload) ∧ (a
      = r.answerPkt pkt false) ∧ (r.checkAccess pkt.job true (r.fromPrimary pkt) (pkt.engine == 6) k pkt.addr =
      none) ∧ ((placeOf pkt.addr).sramKind = none) ∧ (v = r.eccFound (r.framed pkt.addr) ecc (some pkt.ctx)) ∧
      (v.checkAccess pkt.job true (v.fromPrimary pkt) (pkt.engine == 6) k pkt.addr = none) ∧ (v.homeAccess
      (remoteSource pkt) k pkt.addr (.reply c a ptCPL) = (u, .data bs))) ∧
    (∃ (s r u : State) (lane c : Nat) (pkt : Pkt) (k : MemKind) (a : Pkt) (bs : List (BitVec 8)), (Receivable s lane
      c ptRD pkt) ∧ (r = received s lane c ptRD pkt) ∧ (k = MemKind.read pkt.len) ∧ (a = r.answerPkt pkt false) ∧
      (r.checkAccess pkt.job true (r.fromPrimary pkt) (pkt.engine == 6) k pkt.addr = none) ∧ (r.homeAccess
      (remoteSource pkt) k pkt.addr (.reply c a ptRDRSP) = (u, .data bs))) ∧
    (∃ (s r u : State) (lane c t : Nat) (pkt : Pkt) (k : MemKind) (a : Pkt), (Receivable s lane c ptRD pkt) ∧ (r =
      received s lane c ptRD pkt) ∧ (k = MemKind.read pkt.len) ∧ (a = r.answerPkt pkt false) ∧ (r.checkAccess
      pkt.job true (r.fromPrimary pkt) (pkt.engine == 6) k pkt.addr = none) ∧ (r.homeAccess (remoteSource pkt) k
      pkt.addr (.reply c a ptRDRSP) = (u, .pending t))) ∧
    (∃ (s r : State) (lane c : Nat) (pkt : Pkt) (ecc : EccFinding) (k : MemKind) (a : Pkt) (cause : Nat),
      (Receivable s lane c ptRD pkt) ∧ (r = received s lane c ptRD pkt) ∧ (k = MemKind.read pkt.len) ∧ (a =
      r.answerPkt pkt false) ∧ (r.checkAccess pkt.job true (r.fromPrimary pkt) (pkt.engine == 6) k pkt.addr = some
      cause) ∧ (cause ≠ gcPOISON)) ∧
    (∃ (s r : State) (lane c : Nat) (pkt : Pkt) (ecc : EccFinding) (k : MemKind) (a : Pkt) (kind : Nat), (Receivable
      s lane c ptRD pkt) ∧ (r = received s lane c ptRD pkt) ∧ (k = MemKind.read pkt.len) ∧ (a = r.answerPkt pkt
      false) ∧ (r.checkAccess pkt.job true (r.fromPrimary pkt) (pkt.engine == 6) k pkt.addr = none) ∧ ((placeOf
      pkt.addr).sramKind = some kind) ∧ (Machine.EccFinding.sram ecc = .uncorrectable)) ∧
    (∃ (s r v u : State) (lane c : Nat) (pkt : Pkt) (ecc : EccFinding) (k : MemKind) (a : Pkt) (bs : List (BitVec
      8)), (Receivable s lane c ptRD pkt) ∧ (r = received s lane c ptRD pkt) ∧ (k = MemKind.read pkt.len) ∧ (a =
      r.answerPkt pkt false) ∧ (r.checkAccess pkt.job true (r.fromPrimary pkt) (pkt.engine == 6) k pkt.addr = none)
      ∧ ((placeOf pkt.addr).sramKind = none) ∧ (v = r.eccFound (r.framed pkt.addr) ecc (some pkt.ctx)) ∧
      (v.checkAccess pkt.job true (v.fromPrimary pkt) (pkt.engine == 6) k pkt.addr = none) ∧ (v.homeAccess
      (remoteSource pkt) k pkt.addr (.reply c a ptRDRSP) = (u, .data bs))) ∧
    (∃ (s r : State) (lane c : Nat) (pkt : Pkt) (ecc : EccFinding) (k : MemKind) (a : Pkt), (Receivable s lane c
      ptRD pkt) ∧ (r = received s lane c ptRD pkt) ∧ (k = MemKind.read pkt.len) ∧ (a = r.answerPkt pkt false) ∧
      (r.checkAccess pkt.job true (r.fromPrimary pkt) (pkt.engine == 6) k pkt.addr = some gcPOISON)) ∧
    (∃ (s r u : State) (lane c : Nat) (pkt : Pkt) (k : MemKind) (a : Pkt) (bs : List (BitVec 8)), (Receivable s lane
      c ptATOM pkt) ∧ (r = received s lane c ptATOM pkt) ∧ (k = MemKind.atom (atomOfCode pkt.aop) (BitVec.ofNat 64
      (leAt pkt.payload 0 8)) (BitVec.ofNat 64 (leAt pkt.payload 8 8))) ∧ (a = r.answerPkt pkt true) ∧
      (r.checkAccess pkt.job true (r.fromPrimary pkt) (pkt.engine == 6) k pkt.addr = none) ∧ (r.homeAccess
      (remoteSource pkt) k pkt.addr (.reply c a ptATOMRSP) = (u, .data bs))) ∧
    (∃ (s r u : State) (lane c t : Nat) (pkt : Pkt) (k : MemKind) (a : Pkt), (Receivable s lane c ptATOM pkt) ∧ (r =
      received s lane c ptATOM pkt) ∧ (k = MemKind.atom (atomOfCode pkt.aop) (BitVec.ofNat 64 (leAt pkt.payload 0
      8)) (BitVec.ofNat 64 (leAt pkt.payload 8 8))) ∧ (a = r.answerPkt pkt true) ∧ (r.checkAccess pkt.job true
      (r.fromPrimary pkt) (pkt.engine == 6) k pkt.addr = none) ∧ (r.homeAccess (remoteSource pkt) k pkt.addr (.reply
      c a ptATOMRSP) = (u, .pending t))) ∧
    (∃ (s r : State) (lane c : Nat) (pkt : Pkt) (ecc : EccFinding) (k : MemKind) (a : Pkt) (cause : Nat),
      (Receivable s lane c ptATOM pkt) ∧ (r = received s lane c ptATOM pkt) ∧ (k = MemKind.atom (atomOfCode pkt.aop)
      (BitVec.ofNat 64 (leAt pkt.payload 0 8)) (BitVec.ofNat 64 (leAt pkt.payload 8 8))) ∧ (a = r.answerPkt pkt
      true) ∧ (r.checkAccess pkt.job true (r.fromPrimary pkt) (pkt.engine == 6) k pkt.addr = some cause) ∧ (cause ≠
      gcPOISON)) ∧
    (∃ (s r : State) (lane c : Nat) (pkt : Pkt) (ecc : EccFinding) (k : MemKind) (a : Pkt) (kind : Nat), (Receivable
      s lane c ptATOM pkt) ∧ (r = received s lane c ptATOM pkt) ∧ (k = MemKind.atom (atomOfCode pkt.aop)
      (BitVec.ofNat 64 (leAt pkt.payload 0 8)) (BitVec.ofNat 64 (leAt pkt.payload 8 8))) ∧ (a = r.answerPkt pkt
      true) ∧ (r.checkAccess pkt.job true (r.fromPrimary pkt) (pkt.engine == 6) k pkt.addr = none) ∧ ((placeOf
      pkt.addr).sramKind = some kind) ∧ (Machine.EccFinding.sram ecc = .uncorrectable)) ∧
    (∃ (s r v u : State) (lane c : Nat) (pkt : Pkt) (ecc : EccFinding) (k : MemKind) (a : Pkt) (bs : List (BitVec
      8)), (Receivable s lane c ptATOM pkt) ∧ (r = received s lane c ptATOM pkt) ∧ (k = MemKind.atom (atomOfCode
      pkt.aop) (BitVec.ofNat 64 (leAt pkt.payload 0 8)) (BitVec.ofNat 64 (leAt pkt.payload 8 8))) ∧ (a = r.answerPkt
      pkt true) ∧ (r.checkAccess pkt.job true (r.fromPrimary pkt) (pkt.engine == 6) k pkt.addr = none) ∧ ((placeOf
      pkt.addr).sramKind = none) ∧ (v = r.eccFound (r.framed pkt.addr) ecc (some pkt.ctx)) ∧ (v.checkAccess pkt.job
      true (v.fromPrimary pkt) (pkt.engine == 6) k pkt.addr = none) ∧ (v.homeAccess (remoteSource pkt) k pkt.addr
      (.reply c a ptATOMRSP) = (u, .data bs))) ∧
    (∃ (s : State) (lane c : Nat) (residue residue2 : Int) (pkt : Pkt), (Receivable s lane c ptCOLL pkt)) ∧
    (∃ (s : State) (lane c : Nat) (pkt : Pkt), (Receivable s lane c ptRDRSP pkt) ∧ (s.reqOfTag pkt.rtag = none)) ∧
    (∃ (s : State) (lane c : Nat) (pkt : Pkt) (r : Nat × OutReq), (Receivable s lane c ptRDRSP pkt) ∧ (s.reqOfTag
      pkt.rtag = some r) ∧ (pkt.status = 0)) ∧
    (∃ (s : State) (lane c : Nat) (pkt : Pkt) (r : Nat × OutReq), (Receivable s lane c ptRDRSP pkt) ∧ (s.reqOfTag
      pkt.rtag = some r) ∧ (pkt.status ≠ 0)) ∧
    (∃ (s : State) (lane c : Nat) (pkt : Pkt), (Receivable s lane c ptATOMRSP pkt) ∧ (s.reqOfTag pkt.rtag = none)) ∧
    (∃ (s : State) (lane c : Nat) (pkt : Pkt) (r : Nat × OutReq), (Receivable s lane c ptATOMRSP pkt) ∧ (s.reqOfTag
      pkt.rtag = some r) ∧ (pkt.status = 0)) ∧
    (∃ (s : State) (lane c : Nat) (pkt : Pkt) (r : Nat × OutReq), (Receivable s lane c ptATOMRSP pkt) ∧ (s.reqOfTag
      pkt.rtag = some r) ∧ (pkt.status ≠ 0)) ∧
    (∃ (s : State) (lane c : Nat) (pkt : Pkt), (Receivable s lane c ptCPL pkt) ∧ (s.reqOfTag pkt.rtag = none)) ∧
    (∃ (s : State) (lane c : Nat) (pkt : Pkt) (r : Nat × OutReq), (Receivable s lane c ptCPL pkt) ∧ (s.reqOfTag
      pkt.rtag = some r) ∧ (pkt.status = 0)) ∧
    (∃ (s : State) (lane c : Nat) (pkt : Pkt) (r : Nat × OutReq), (Receivable s lane c ptCPL pkt) ∧ (s.reqOfTag
      pkt.rtag = some r) ∧ (pkt.status ≠ 0)) ∧
    (∃ (s : State) (lane c : Nat) (pkt : Pkt), (Receivable s lane c ptVOID pkt)) ∧
    (∃ (s : State) (lane c : Nat) (pkt : Pkt), (Receivable s lane c ptPMSG pkt) ∧ (pkt.dst ≠ s.node) ∧ (pkt.src ≠
      s.node)) ∧
    (∃ (s : State) (lane c : Nat) (pkt : Pkt), (Receivable s lane c ptPMSG pkt) ∧ (pkt.dst ≠ s.node) ∧ (pkt.src =
      s.node)) ∧
    (∃ (s : State) (lane c : Nat) (pkt : Pkt), (Receivable s lane c ptPMSG pkt) ∧ (pkt.dst = s.node)) ∧
    (∃ (s : State) (lane : Nat) (pkt : Pkt), (s.laneCirc lane = none)) := by
  refine ⟨?_, ?_, ?_, ?_, ?_, ?_, ?_, ?_, ?_, ?_, ?_, ?_, ?_, ?_, ?_, ?_, ?_, ?_, ?_, ?_, ?_, ?_, ?_, ?_, ?_, ?_, ?_, ?_, ?_, ?_, ?_⟩
  · exact ⟨demoLink, (received demoLink 3 5 ptWR ({ demoPkt with payload := List.replicate 32 1 })), ((received
    demoLink 3 5 ptWR ({ demoPkt with payload := List.replicate 32 1 })).homeAccess (remoteSource
    ({ demoPkt with payload := List.replicate 32 1 })) (MemKind.write
    ({ demoPkt with payload := List.replicate 32 1 } : Pkt).payload) 0 (.reply 5 ((received demoLink 3 5 ptWR
    ({ demoPkt with payload := List.replicate 32 1 })).answerPkt ({ demoPkt with payload := List.replicate 32 1 })
    false) ptCPL)).1, 3, 5, { demoPkt with payload := List.replicate 32 1 }, (MemKind.write
    ({ demoPkt with payload := List.replicate 32 1 } : Pkt).payload), ((received demoLink 3 5 ptWR
    ({ demoPkt with payload := List.replicate 32 1 })).answerPkt ({ demoPkt with payload := List.replicate 32 1 })
    false), [], by decide, rfl, rfl, rfl, by decide, by decide⟩
  · exact ⟨{ demoLink with ms.hostBias := [(0, ())], ms.linkDown := false, pwr.perstLow := false }, (received
    { demoLink with ms.hostBias := [(0, ())], ms.linkDown := false, pwr.perstLow := false } 3 5 ptWR
    ({ demoPkt with payload := List.replicate 32 1 })), ((received
    { demoLink with ms.hostBias := [(0, ())], ms.linkDown := false, pwr.perstLow := false } 3 5 ptWR
    ({ demoPkt with payload := List.replicate 32 1 })).homeAccess (remoteSource
    ({ demoPkt with payload := List.replicate 32 1 })) (MemKind.write
    ({ demoPkt with payload := List.replicate 32 1 } : Pkt).payload) 0 (.reply 5 ((received
    { demoLink with ms.hostBias := [(0, ())], ms.linkDown := false, pwr.perstLow := false } 3 5 ptWR
    ({ demoPkt with payload := List.replicate 32 1 })).answerPkt ({ demoPkt with payload := List.replicate 32 1 })
    false) ptCPL)).1, 3, 5, 0, { demoPkt with payload := List.replicate 32 1 }, (MemKind.write
    ({ demoPkt with payload := List.replicate 32 1 } : Pkt).payload), ((received
    { demoLink with ms.hostBias := [(0, ())], ms.linkDown := false, pwr.perstLow := false } 3 5 ptWR
    ({ demoPkt with payload := List.replicate 32 1 })).answerPkt ({ demoPkt with payload := List.replicate 32 1 })
    false), by decide, rfl, rfl, rfl, by decide, by decide⟩
  · exact ⟨{ demoLink with ms.regions := [] }, (received { demoLink with ms.regions := [] } 3 5 ptWR
    ({ demoPkt with payload := List.replicate 32 1 })), 3, 5, { demoPkt with payload := List.replicate 32 1 },
    .clean, (MemKind.write ({ demoPkt with payload := List.replicate 32 1 } : Pkt).payload), ((received
    { demoLink with ms.regions := [] } 3 5 ptWR ({ demoPkt with payload := List.replicate 32 1 })).answerPkt
    ({ demoPkt with payload := List.replicate 32 1 }) false), gcPERM, by decide, rfl, rfl, rfl, by decide, by
    decide⟩
  · exact ⟨demoLink, (received demoLink 3 5 ptWR
    ({ demoPkt with payload := List.replicate 32 1, addr := 0x20000000000 })), 3, 5,
    { demoPkt with payload := List.replicate 32 1, addr := 0x20000000000 }, .errors 2, (MemKind.write
    ({ demoPkt with payload := List.replicate 32 1, addr := 0x20000000000 } : Pkt).payload), ((received demoLink 3 5
    ptWR ({ demoPkt with payload := List.replicate 32 1, addr := 0x20000000000 })).answerPkt
    ({ demoPkt with payload := List.replicate 32 1, addr := 0x20000000000 }) false), 0, by decide, rfl, rfl, rfl, by
    decide, by decide, by decide⟩
  · exact ⟨demoLink, (received demoLink 3 5 ptWR ({ demoPkt with payload := List.replicate 32 1 })), ((received
    demoLink 3 5 ptWR ({ demoPkt with payload := List.replicate 32 1 })).eccFound ((received demoLink 3 5 ptWR
    ({ demoPkt with payload := List.replicate 32 1 })).framed 0) (.errors 2) (some 0)), (((received demoLink 3 5
    ptWR ({ demoPkt with payload := List.replicate 32 1 })).eccFound ((received demoLink 3 5 ptWR
    ({ demoPkt with payload := List.replicate 32 1 })).framed 0) (.errors 2) (some 0)).homeAccess (remoteSource
    ({ demoPkt with payload := List.replicate 32 1 })) (MemKind.write
    ({ demoPkt with payload := List.replicate 32 1 } : Pkt).payload) 0 (.reply 5 ((received demoLink 3 5 ptWR
    ({ demoPkt with payload := List.replicate 32 1 })).answerPkt ({ demoPkt with payload := List.replicate 32 1 })
    false) ptCPL)).1, 3, 5, { demoPkt with payload := List.replicate 32 1 }, .errors 2, (MemKind.write
    ({ demoPkt with payload := List.replicate 32 1 } : Pkt).payload), ((received demoLink 3 5 ptWR
    ({ demoPkt with payload := List.replicate 32 1 })).answerPkt ({ demoPkt with payload := List.replicate 32 1 })
    false), [], by decide, rfl, rfl, rfl, by decide, by decide, rfl, by decide, by decide⟩
  · exact ⟨demoLink, (received demoLink 3 5 ptRD (demoPkt)), ((received demoLink 3 5 ptRD (demoPkt)).homeAccess
    (remoteSource (demoPkt)) (MemKind.read (demoPkt : Pkt).len) 0 (.reply 5 ((received demoLink 3 5 ptRD
    (demoPkt)).answerPkt (demoPkt) false) ptRDRSP)).1, 3, 5, demoPkt, (MemKind.read (demoPkt : Pkt).len), ((received
    demoLink 3 5 ptRD (demoPkt)).answerPkt (demoPkt) false), List.replicate 32 0, by decide, rfl, rfl, rfl, by
    decide, by decide⟩
  · exact ⟨{ demoLink with ms.hostBias := [(0, ())], ms.linkDown := false, pwr.perstLow := false }, (received
    { demoLink with ms.hostBias := [(0, ())], ms.linkDown := false, pwr.perstLow := false } 3 5 ptRD (demoPkt)),
    ((received { demoLink with ms.hostBias := [(0, ())], ms.linkDown := false, pwr.perstLow := false } 3 5 ptRD
    (demoPkt)).homeAccess (remoteSource (demoPkt)) (MemKind.read (demoPkt : Pkt).len) 0 (.reply 5 ((received
    { demoLink with ms.hostBias := [(0, ())], ms.linkDown := false, pwr.perstLow := false } 3 5 ptRD
    (demoPkt)).answerPkt (demoPkt) false) ptRDRSP)).1, 3, 5, 0, demoPkt, (MemKind.read (demoPkt : Pkt).len),
    ((received { demoLink with ms.hostBias := [(0, ())], ms.linkDown := false, pwr.perstLow := false } 3 5 ptRD
    (demoPkt)).answerPkt (demoPkt) false), by decide, rfl, rfl, rfl, by decide, by decide⟩
  · exact ⟨{ demoLink with ms.regions := [] }, (received { demoLink with ms.regions := [] } 3 5 ptRD (demoPkt)), 3,
    5, demoPkt, .clean, (MemKind.read (demoPkt : Pkt).len), ((received { demoLink with ms.regions := [] } 3 5 ptRD
    (demoPkt)).answerPkt (demoPkt) false), gcPERM, by decide, rfl, rfl, rfl, by decide, by decide⟩
  · exact ⟨demoLink, (received demoLink 3 5 ptRD ({ demoPkt with addr := 0x20000000000 })), 3, 5,
    { demoPkt with addr := 0x20000000000 }, .errors 2, (MemKind.read ({ demoPkt with addr := 0x20000000000 } :
    Pkt).len), ((received demoLink 3 5 ptRD ({ demoPkt with addr := 0x20000000000 })).answerPkt
    ({ demoPkt with addr := 0x20000000000 }) false), 0, by decide, rfl, rfl, rfl, by decide, by decide, by decide⟩
  · exact ⟨demoLink, (received demoLink 3 5 ptRD (demoPkt)), ((received demoLink 3 5 ptRD (demoPkt)).eccFound
    ((received demoLink 3 5 ptRD (demoPkt)).framed 0) (.errors 2) (some 0)), (((received demoLink 3 5 ptRD
    (demoPkt)).eccFound ((received demoLink 3 5 ptRD (demoPkt)).framed 0) (.errors 2) (some 0)).homeAccess
    (remoteSource (demoPkt)) (MemKind.read (demoPkt : Pkt).len) 0 (.reply 5 ((received demoLink 3 5 ptRD
    (demoPkt)).answerPkt (demoPkt) false) ptRDRSP)).1, 3, 5, demoPkt, .errors 2, (MemKind.read (demoPkt : Pkt).len),
    ((received demoLink 3 5 ptRD (demoPkt)).answerPkt (demoPkt) false), List.replicate 32 0, by decide, rfl, rfl,
    rfl, by decide, by decide, rfl, by decide, by decide⟩
  · exact ⟨{ demoLink with ms.poison := [(0, ())] }, (received { demoLink with ms.poison := [(0, ())] } 3 5 ptRD
    (demoPkt)), 3, 5, demoPkt, .clean, (MemKind.read (demoPkt : Pkt).len), ((received
    { demoLink with ms.poison := [(0, ())] } 3 5 ptRD (demoPkt)).answerPkt (demoPkt) false), by decide, rfl, rfl,
    rfl, by decide⟩
  · exact ⟨demoLink, (received demoLink 3 5 ptATOM ({ demoPkt with len := 16, payload := List.replicate 16 0 })),
    ((received demoLink 3 5 ptATOM ({ demoPkt with len := 16, payload := List.replicate 16 0 })).homeAccess
    (remoteSource ({ demoPkt with len := 16, payload := List.replicate 16 0 })) (MemKind.atom (atomOfCode
    ({ demoPkt with len := 16, payload := List.replicate 16 0 } : Pkt).aop) (BitVec.ofNat 64 (leAt
    ({ demoPkt with len := 16, payload := List.replicate 16 0 } : Pkt).payload 0 8)) (BitVec.ofNat 64 (leAt
    ({ demoPkt with len := 16, payload := List.replicate 16 0 } : Pkt).payload 8 8))) 0 (.reply 5 ((received
    demoLink 3 5 ptATOM ({ demoPkt with len := 16, payload := List.replicate 16 0 })).answerPkt
    ({ demoPkt with len := 16, payload := List.replicate 16 0 }) true) ptATOMRSP)).1, 3, 5,
    { demoPkt with len := 16, payload := List.replicate 16 0 }, (MemKind.atom (atomOfCode
    ({ demoPkt with len := 16, payload := List.replicate 16 0 } : Pkt).aop) (BitVec.ofNat 64 (leAt
    ({ demoPkt with len := 16, payload := List.replicate 16 0 } : Pkt).payload 0 8)) (BitVec.ofNat 64 (leAt
    ({ demoPkt with len := 16, payload := List.replicate 16 0 } : Pkt).payload 8 8))), ((received demoLink 3 5
    ptATOM ({ demoPkt with len := 16, payload := List.replicate 16 0 })).answerPkt
    ({ demoPkt with len := 16, payload := List.replicate 16 0 }) true), List.replicate 8 0, by decide, rfl, rfl,
    rfl, by decide, by decide⟩
  · exact ⟨{ demoLink with ms.hostBias := [(0, ())], ms.linkDown := false, pwr.perstLow := false }, (received
    { demoLink with ms.hostBias := [(0, ())], ms.linkDown := false, pwr.perstLow := false } 3 5 ptATOM
    ({ demoPkt with len := 16, payload := List.replicate 16 0 })), ((received
    { demoLink with ms.hostBias := [(0, ())], ms.linkDown := false, pwr.perstLow := false } 3 5 ptATOM
    ({ demoPkt with len := 16, payload := List.replicate 16 0 })).homeAccess (remoteSource
    ({ demoPkt with len := 16, payload := List.replicate 16 0 })) (MemKind.atom (atomOfCode
    ({ demoPkt with len := 16, payload := List.replicate 16 0 } : Pkt).aop) (BitVec.ofNat 64 (leAt
    ({ demoPkt with len := 16, payload := List.replicate 16 0 } : Pkt).payload 0 8)) (BitVec.ofNat 64 (leAt
    ({ demoPkt with len := 16, payload := List.replicate 16 0 } : Pkt).payload 8 8))) 0 (.reply 5 ((received
    { demoLink with ms.hostBias := [(0, ())], ms.linkDown := false, pwr.perstLow := false } 3 5 ptATOM
    ({ demoPkt with len := 16, payload := List.replicate 16 0 })).answerPkt
    ({ demoPkt with len := 16, payload := List.replicate 16 0 }) true) ptATOMRSP)).1, 3, 5, 0,
    { demoPkt with len := 16, payload := List.replicate 16 0 }, (MemKind.atom (atomOfCode
    ({ demoPkt with len := 16, payload := List.replicate 16 0 } : Pkt).aop) (BitVec.ofNat 64 (leAt
    ({ demoPkt with len := 16, payload := List.replicate 16 0 } : Pkt).payload 0 8)) (BitVec.ofNat 64 (leAt
    ({ demoPkt with len := 16, payload := List.replicate 16 0 } : Pkt).payload 8 8))), ((received
    { demoLink with ms.hostBias := [(0, ())], ms.linkDown := false, pwr.perstLow := false } 3 5 ptATOM
    ({ demoPkt with len := 16, payload := List.replicate 16 0 })).answerPkt
    ({ demoPkt with len := 16, payload := List.replicate 16 0 }) true), by decide, rfl, rfl, rfl, by decide, by
    decide⟩
  · exact ⟨{ demoLink with ms.regions := [] }, (received { demoLink with ms.regions := [] } 3 5 ptATOM
    ({ demoPkt with len := 16, payload := List.replicate 16 0 })), 3, 5,
    { demoPkt with len := 16, payload := List.replicate 16 0 }, .clean, (MemKind.atom (atomOfCode
    ({ demoPkt with len := 16, payload := List.replicate 16 0 } : Pkt).aop) (BitVec.ofNat 64 (leAt
    ({ demoPkt with len := 16, payload := List.replicate 16 0 } : Pkt).payload 0 8)) (BitVec.ofNat 64 (leAt
    ({ demoPkt with len := 16, payload := List.replicate 16 0 } : Pkt).payload 8 8))), ((received
    { demoLink with ms.regions := [] } 3 5 ptATOM
    ({ demoPkt with len := 16, payload := List.replicate 16 0 })).answerPkt
    ({ demoPkt with len := 16, payload := List.replicate 16 0 }) true), gcPERM, by decide, rfl, rfl, rfl, by decide,
    by decide⟩
  · exact ⟨demoLink, (received demoLink 3 5 ptATOM
    ({ demoPkt with len := 16, payload := List.replicate 16 0, addr := 0x20000000000 })), 3, 5,
    { demoPkt with len := 16, payload := List.replicate 16 0, addr := 0x20000000000 }, .errors 2, (MemKind.atom
    (atomOfCode ({ demoPkt with len := 16, payload := List.replicate 16 0, addr := 0x20000000000 } : Pkt).aop)
    (BitVec.ofNat 64 (leAt ({ demoPkt with len := 16, payload := List.replicate 16 0, addr := 0x20000000000 } :
    Pkt).payload 0 8)) (BitVec.ofNat 64 (leAt
    ({ demoPkt with len := 16, payload := List.replicate 16 0, addr := 0x20000000000 } : Pkt).payload 8 8))),
    ((received demoLink 3 5 ptATOM
    ({ demoPkt with len := 16, payload := List.replicate 16 0, addr := 0x20000000000 })).answerPkt
    ({ demoPkt with len := 16, payload := List.replicate 16 0, addr := 0x20000000000 }) true), 0, by decide, rfl,
    rfl, rfl, by decide, by decide, by decide⟩
  · exact ⟨demoLink, (received demoLink 3 5 ptATOM ({ demoPkt with len := 16, payload := List.replicate 16 0 })),
    ((received demoLink 3 5 ptATOM ({ demoPkt with len := 16, payload := List.replicate 16 0 })).eccFound ((received
    demoLink 3 5 ptATOM ({ demoPkt with len := 16, payload := List.replicate 16 0 })).framed 0) (.errors 2) (some
    0)), (((received demoLink 3 5 ptATOM ({ demoPkt with len := 16, payload := List.replicate 16 0 })).eccFound
    ((received demoLink 3 5 ptATOM ({ demoPkt with len := 16, payload := List.replicate 16 0 })).framed 0) (.errors
    2) (some 0)).homeAccess (remoteSource ({ demoPkt with len := 16, payload := List.replicate 16 0 }))
    (MemKind.atom (atomOfCode ({ demoPkt with len := 16, payload := List.replicate 16 0 } : Pkt).aop) (BitVec.ofNat
    64 (leAt ({ demoPkt with len := 16, payload := List.replicate 16 0 } : Pkt).payload 0 8)) (BitVec.ofNat 64 (leAt
    ({ demoPkt with len := 16, payload := List.replicate 16 0 } : Pkt).payload 8 8))) 0 (.reply 5 ((received
    demoLink 3 5 ptATOM ({ demoPkt with len := 16, payload := List.replicate 16 0 })).answerPkt
    ({ demoPkt with len := 16, payload := List.replicate 16 0 }) true) ptATOMRSP)).1, 3, 5,
    { demoPkt with len := 16, payload := List.replicate 16 0 }, .errors 2, (MemKind.atom (atomOfCode
    ({ demoPkt with len := 16, payload := List.replicate 16 0 } : Pkt).aop) (BitVec.ofNat 64 (leAt
    ({ demoPkt with len := 16, payload := List.replicate 16 0 } : Pkt).payload 0 8)) (BitVec.ofNat 64 (leAt
    ({ demoPkt with len := 16, payload := List.replicate 16 0 } : Pkt).payload 8 8))), ((received demoLink 3 5
    ptATOM ({ demoPkt with len := 16, payload := List.replicate 16 0 })).answerPkt
    ({ demoPkt with len := 16, payload := List.replicate 16 0 }) true), List.replicate 8 0, by decide, rfl, rfl,
    rfl, by decide, by decide, rfl, by decide, by decide⟩
  · exact ⟨demoLink, 3, 5, 0, 0, demoPkt, by decide⟩
  · exact ⟨demoLink, 3, 5, demoPkt, by decide⟩
  · exact ⟨{ demoLink with ms.reqs := [(0, ⟨.node 4, ⟨5, 0, 0, 0, 0, 0, ⟨0, 0, 0⟩, 0⟩, .write [], 0, .store⟩)] }, 3,
    5, demoPkt, (0, ⟨.node 4, ⟨5, 0, 0, 0, 0, 0, ⟨0, 0, 0⟩, 0⟩, .write [], 0, .store⟩), by decide⟩
  · exact ⟨{ demoLink with ms.reqs := [(0, ⟨.node 4, ⟨5, 0, 0, 0, 0, 0, ⟨0, 0, 0⟩, 0⟩, .write [], 0, .store⟩)] }, 3,
    5, { demoPkt with status := 3 }, (0, ⟨.node 4, ⟨5, 0, 0, 0, 0, 0, ⟨0, 0, 0⟩, 0⟩, .write [], 0, .store⟩), by
    decide⟩
  · exact ⟨demoLink, 3, 5, demoPkt, by decide⟩
  · exact ⟨{ demoLink with ms.reqs := [(0, ⟨.node 4, ⟨5, 0, 0, 0, 0, 0, ⟨0, 0, 0⟩, 0⟩, .write [], 0, .store⟩)] }, 3,
    5, demoPkt, (0, ⟨.node 4, ⟨5, 0, 0, 0, 0, 0, ⟨0, 0, 0⟩, 0⟩, .write [], 0, .store⟩), by decide⟩
  · exact ⟨{ demoLink with ms.reqs := [(0, ⟨.node 4, ⟨5, 0, 0, 0, 0, 0, ⟨0, 0, 0⟩, 0⟩, .write [], 0, .store⟩)] }, 3,
    5, { demoPkt with status := 3 }, (0, ⟨.node 4, ⟨5, 0, 0, 0, 0, 0, ⟨0, 0, 0⟩, 0⟩, .write [], 0, .store⟩), by
    decide⟩
  · exact ⟨demoLink, 3, 5, demoPkt, by decide⟩
  · exact ⟨{ demoLink with ms.reqs := [(0, ⟨.node 4, ⟨5, 0, 0, 0, 0, 0, ⟨0, 0, 0⟩, 0⟩, .write [], 0, .store⟩)] }, 3,
    5, demoPkt, (0, ⟨.node 4, ⟨5, 0, 0, 0, 0, 0, ⟨0, 0, 0⟩, 0⟩, .write [], 0, .store⟩), by decide⟩
  · exact ⟨{ demoLink with ms.reqs := [(0, ⟨.node 4, ⟨5, 0, 0, 0, 0, 0, ⟨0, 0, 0⟩, 0⟩, .write [], 0, .store⟩)] }, 3,
    5, { demoPkt with status := 3 }, (0, ⟨.node 4, ⟨5, 0, 0, 0, 0, 0, ⟨0, 0, 0⟩, 0⟩, .write [], 0, .store⟩), by
    decide⟩
  · exact ⟨demoLink, 3, 5, demoPkt, by decide⟩
  · exact ⟨{ demoMaster with routes := [] }, 180, 512, { Pkt.zero with src := 4, dst := 5 }, by decide⟩
  · exact ⟨{ demoMaster with routes := [] }, 180, 512, { Pkt.zero with src := 0, dst := 5 }, by decide⟩
  · exact ⟨{ demoMaster with routes := [] }, 180, 512, { Pkt.zero with src := 4 }, by decide⟩
  · exact ⟨State.reset, 3, demoPkt, by decide⟩

theorem witness_ImageRows :
    (∃ (s : State) (resume : Bool) (blocks st : Nat), (s.portServed = true) ∧ (s.openRefused = some st)) ∧
    (∃ (s : State) (blocks : Nat), (s.portServed = true) ∧ (s.openRefused = none)) ∧
    (∃ (s : State) (blocks : Nat), (s.portServed = true) ∧ (s.openRefused = none) ∧ (s.rd F.UPD_SLOT.STATE
      s.targetSlot = slRECEIVING)) ∧
    (∃ (s : State) (session block frag : Nat) (data : List Nat), (s.portServed = true) ∧ (s.inSession session =
      true) ∧ (frag < 64) ∧ (data.length = 1024) ∧ (block < s.rd F.UPD_XFER.TOTAL)) ∧
    (∃ (s : State) (session block : Nat), (s.portServed = true) ∧ (s.inSession session = true) ∧ (block < s.rd
      F.UPD_XFER.TOTAL) ∧ ((s.image s.targetSlot).gather block = none)) ∧
    (∃ (s : State) (session block : Nat) (bs : List (BitVec 8)), (s.portServed = true) ∧ (s.inSession session =
      true) ∧ (block < s.rd F.UPD_XFER.TOTAL) ∧ ((s.image s.targetSlot).gather block = some bs) ∧ (block ≠ 0) ∧
      (crc32c bs = leAt (s.manifest s.targetSlot) (1024 + 4 * (block - 1)) 4) ∧ ((kfind (s.image
      s.targetSlot).blocks 0).isSome = true)) ∧
    (∃ (s : State) (session block : Nat) (bs : List (BitVec 8)), (s.portServed = true) ∧ (s.inSession session =
      true) ∧ (block < s.rd F.UPD_XFER.TOTAL) ∧ ((s.image s.targetSlot).gather block = some bs) ∧ (block ≠ 0) ∧
      (crc32c bs ≠ leAt (s.manifest s.targetSlot) (1024 + 4 * (block - 1)) 4)) ∧
    (∃ (s : State) (session : Nat) (bs : List (BitVec 8)), (s.portServed = true) ∧ (s.inSession session = true) ∧ (0
      < s.rd F.UPD_XFER.TOTAL) ∧ ((s.image s.targetSlot).gather 0 = some bs)) ∧
    (∃ (s : State) (session : Nat), (s.portServed = true) ∧ (s.inSession session = true) ∧ (s.firstMissing = s.rd
      F.UPD_XFER.TOTAL)) ∧
    (∃ (s : State) (session : Nat), (s.portServed = true) ∧ (s.flag F.UPD_XFER.OPEN = false) ∧ (s.rd
      F.UPD_SLOT.STATE s.targetSlot = slRECEIVED) ∧ (s.inSession session = false)) ∧
    (∃ (s : State) (session : Nat), (s.portServed = true)) ∧
    (∃ (s : State) (slot : Nat), (s.portServed = true) ∧ (s.mode = mRECOVERY) ∧ (s.idOk = true) ∧ (slot < 2) ∧ (s.rd
      F.UPD_SLOT.STATE slot = slVERIFIED)) ∧
    (∃ (s : State) (slot : Nat), (slot < 2) ∧ (s.rd F.UPD_SLOT.STATE slot = slVERIFYING)) ∧
    (∃ (s : State) (src : List Nat), (s.portServed = true)) ∧
    (∃ (s : State) (src payload : List Nat), (s.portServed = true)) := by
  refine ⟨?_, ?_, ?_, ?_, ?_, ?_, ?_, ?_, ?_, ?_, ?_, ?_, ?_, ?_, ?_⟩
  · exact ⟨demoPort, false, 2, stPOLICY, by decide⟩
  · exact ⟨{ State.reset.wr F.UPD_CTL.RX_EN 1 with pwr.started := true }, 2, by decide⟩
  · exact ⟨{ (State.reset.wr F.UPD_CTL.RX_EN 1).wr F.UPD_SLOT.STATE slRECEIVING 1 with pwr.started := true }, 2, by
    decide⟩
  · exact ⟨demoPort, 0, 0, 0, List.replicate 1024 1, ⟨rfl, by decide, by decide, List.length_replicate, by decide⟩⟩
  · exact ⟨demoPort, 0, 1, by decide⟩
  · exact ⟨{ demoPort with upd.images := [(1, ⟨[(0, [])], (List.range 64).map fun f => (64 + f, [])⟩)] }, 0, 1, [],
    by decide +kernel⟩
  · exact ⟨{ demoPort with upd.images := [(1, ⟨[(0, [])], (List.range 64).map fun f => (64 + f, [1])⟩)] }, 0, 1,
    List.replicate 64 1, by decide +kernel⟩
  · exact ⟨{ demoPort with upd.images := [(1, ⟨[], (List.range 64).map fun f => (f, [1])⟩)] }, 0, List.replicate 64
    1, by decide +kernel⟩
  · exact ⟨{ demoPort with upd.images := [(1, ⟨[(0, []), (1, [])], []⟩)] }, 0, by decide⟩
  · exact ⟨{ State.reset.wr F.UPD_SLOT.STATE slRECEIVED 1 with pwr.started := true }, 0, by decide⟩
  · exact ⟨demoPort, 0, by decide⟩
  · exact ⟨(((demoPort.wr F.RST_STATUS.MODE mRECOVERY).wr F.UPD_SLOT.STATE slVERIFIED 1).wr F.SEC_STATUS.PUF_OK
    1).wr F.SEC_STATUS.KEYRING_OK 1, 1, by decide⟩
  · exact ⟨State.reset.wr F.UPD_SLOT.STATE slVERIFYING 0, 0, by decide⟩
  · exact ⟨demoPort, [], by decide⟩
  · exact ⟨demoPort, [], [], by decide⟩

theorem witness_AttestationRows :
    (∃ (s : State), (s.spdmBusy = false) ∧ (s.flag F.SEC_POLICY.SPDM_EN = true)) ∧
    (∃ (s : State), (s.spdmBusy = false) ∧ (s.flag F.SEC_POLICY.SPDM_EN = true)) ∧
    (∃ (s : State), (s.spdmBusy = false) ∧ (s.flag F.SEC_POLICY.SPDM_EN = true)) ∧
    (∃ (s : State), (s.spdmBusy = false) ∧ (s.flag F.SEC_POLICY.SPDM_EN = true)) ∧
    (∃ (s : State) (slot off len : Nat), (s.spdmBusy = false) ∧ (s.flag F.SEC_POLICY.SPDM_EN = true) ∧ (slot = 0)) ∧
    (∃ (s : State) (slot off len : Nat), (s.spdmBusy = false) ∧ (s.flag F.SEC_POLICY.SPDM_EN = true) ∧ (slot ≠ 0)) ∧
    (∃ (s : State) (slot : Nat) (nonce : List Nat), (s.spdmBusy = false) ∧ (s.flag F.SEC_POLICY.SPDM_EN = true) ∧
      (slot = 0)) ∧
    (∃ (s : State) (slot : Nat) (nonce : List Nat), (s.spdmBusy = false) ∧ (s.flag F.SEC_POLICY.SPDM_EN = true) ∧
      (slot ≠ 0)) ∧
    (∃ (s : State) (index : Nat) (nonce : List Nat), (s.spdmBusy = false) ∧ (s.flag F.SEC_POLICY.SPDM_EN = true) ∧
      (1 ≤ index) ∧ (index ≤ 9)) ∧
    (∃ (s : State) (index : Nat) (nonce : List Nat), (s.spdmBusy = false) ∧ (s.flag F.SEC_POLICY.SPDM_EN = true) ∧
      (1 ≤ index) ∧ (index ≤ 9)) ∧
    (∃ (s : State) (nonce : List Nat), (s.spdmBusy = false) ∧ (s.flag F.SEC_POLICY.SPDM_EN = true)) ∧
    (∃ (s : State) (index : Nat) (signed : Bool) (nonce : List Nat), (s.spdmBusy = false) ∧ (s.flag
      F.SEC_POLICY.SPDM_EN = true) ∧ (9 < index) ∧ (index ≠ 0xFF)) ∧
    (∃ (s : State) (code : Nat), (s.spdmBusy = false) ∧ (s.flag F.SEC_POLICY.SPDM_EN = true)) ∧
    (∃ (s : State) (slot off len index code : Nat) (signed : Bool) (nonce : List Nat), (s.spdmBusy = true)) ∧
    (∃ (s : State) (slot off len index code : Nat) (signed : Bool) (nonce : List Nat), (s.spdmBusy = false) ∧
      (s.flag F.SEC_POLICY.SPDM_EN = false)) := by
  refine ⟨?_, ?_, ?_, ?_, ?_, ?_, ?_, ?_, ?_, ?_, ?_, ?_, ?_, ?_, ?_⟩
  · exact ⟨demoSpdm, by decide⟩
  · exact ⟨demoSpdm, by decide⟩
  · exact ⟨demoSpdm, by decide⟩
  · exact ⟨demoSpdm, by decide⟩
  · exact ⟨demoSpdm, 0, 0, 4, by decide⟩
  · exact ⟨demoSpdm, 1, 0, 4, by decide⟩
  · exact ⟨demoSpdm, 0, [], by decide⟩
  · exact ⟨demoSpdm, 3, [], by decide⟩
  · exact ⟨demoSpdm, 3, [], by decide⟩
  · exact ⟨demoSpdm, 3, [], by decide⟩
  · exact ⟨demoSpdm, [], by decide⟩
  · exact ⟨demoSpdm, 10, true, [], by decide⟩
  · exact ⟨demoSpdm, 0xE5, by decide⟩
  · exact ⟨State.reset, 0, 0, 0, 0, 0, false, [], by decide⟩
  · exact ⟨demoSpdm.wr F.SEC_POLICY.SPDM_EN 0, 0, 0, 0, 0, 0, false, [], by decide⟩

theorem witness_GroupRows :
    (∃ (s : State) (q : Req), (s.taking 0x0700 = some q)) ∧
    (∃ (s : State) (q : Req) (host : List Nat) (st : Nat), (s.taking 0x0701 = some q) ∧ (s.scheduleStatus (leAt
      q.payload 4 8) = some st)) ∧
    (∃ (s : State) (q : Req) (host : List Nat) (n : Nat), (s.taking 0x0701 = some q) ∧ (s.scheduleStatus (leAt
      q.payload 4 8) = none) ∧ (leAt q.payload 12 2 ≠ s.node) ∧ (s.freeTicket = some n)) ∧
    (∃ (s : State) (q : Req) (host list : List Nat) (n : Nat), (s.taking 0x0701 = some q) ∧ (s.scheduleStatus (leAt
      q.payload 4 8) = none) ∧ (leAt q.payload 12 2 = s.node) ∧ (bitOf (leAt q.payload 16 8) 63 = true) ∧
      (s.readMembers (leAt q.payload 16 8) (leAt q.payload 14 2) host = .ok list) ∧ (s.freeTicket = some n)) ∧
    (∃ (s : State) (q : Req) (host list : List Nat) (n : Nat), (s.taking 0x0701 = some q) ∧ (s.scheduleStatus (leAt
      q.payload 4 8) = none) ∧ (leAt q.payload 12 2 = s.node) ∧ (bitOf (leAt q.payload 16 8) 63 = false) ∧
      (s.readMembers (leAt q.payload 16 8) (leAt q.payload 14 2) host = .ok list) ∧ (s.freeTicket = some n)) ∧
    (∃ (s : State) (q : Req) (n : Nat), (s.taking 0x0702 = some q) ∧ (s.onTrial = true) ∧ (s.groupOpen = false) ∧
      (s.freeTicket = some n)) ∧
    (∃ (s : State) (q : Req) (n : Nat), (s.taking 0x0702 = some q) ∧ (s.onTrial = true) ∧ (s.groupOpen = true) ∧
      (s.freeTicket = some n)) ∧
    (∃ (s : State) (q : Req), (s.taking 0x0702 = some q) ∧ (s.onTrial = false)) ∧
    (∃ (s : State) (q : Req) (n : Nat), (s.taking 0x0703 = some q) ∧ (s.groupState = gsSCHEDULED) ∧ (s.freeTicket =
      some n)) ∧
    (∃ (s : State) (q : Req) (n : Nat), (s.taking 0x0703 = some q) ∧ (s.groupState = gsGO ∨ s.groupState = gsTRIAL)
      ∧ (s.freeTicket = some n)) ∧
    (∃ (s : State) (q : Req), (s.taking 0x0703 = some q) ∧ (s.groupOpen = false)) ∧
    (∃ (s : State) (src group ver : Nat) (g : ActGroup), (s.coordOf group = some g) ∧ (g.decision = 0) ∧
      (g.list.contains src = true)) ∧
    (∃ (s : State) (src group st : Nat) (g : ActGroup), (s.coordOf group = some g) ∧ (g.decision = 0) ∧
      (g.list.contains src = true)) ∧
    (∃ (s : State) (g : ActGroup), (s.coordOf s.groupId = some g) ∧ (g.decision = 0) ∧ (s.groupState = gsSCHEDULED)) ∧
    (∃ (s : State) (src group v : Nat), (s.fromCoord src group = true) ∧ (v = s.groupT) ∧ (s.groupState =
      gsSCHEDULED)) ∧
    (∃ (s : State) (src group : Nat), (s.fromCoord src group = true) ∧ (s.groupState = gsSCHEDULED ∨ s.groupState =
      gsGO)) ∧
    (∃ (s : State), (s.groupState = gsGO) ∧ (s.trialLost = false)) ∧
    (∃ (s : State), (s.groupState = gsGO) ∧ (s.trialLost = true)) ∧
    (∃ (s : State), (s.groupState = gsSCHEDULED)) ∧
    (∃ (s : State) (src group : Nat) (g : ActGroup), (s.coordOf group = some g) ∧ (g.decision = gmGO) ∧
      (g.list.contains src = true)) ∧
    (∃ (s : State) (src group st : Nat) (g : ActGroup), (s.coordOf group = some g) ∧ (g.decision = gmGO) ∧
      (g.list.contains src = true)) ∧
    (∃ (s : State) (src group : Nat), (s.fromCoord src group = true) ∧ (s.groupState = gsTRIAL) ∧ (s.onTrial =
      true)) ∧
    (∃ (s : State) (src group : Nat), (s.fromCoord src group = true) ∧ (s.groupOpen = true) ∧ (s.onTrial = true)) ∧
    (∃ (s : State) (src group : Nat) (g : ActGroup), (s.coordOf group = some g) ∧ (g.decision ≠ 0) ∧ (s.opMs <
      g.decided + 86400000) ∧ (g.list.contains src = true)) ∧
    (∃ (s : State) (src group : Nat) (g : ActGroup), (s.coordOf group = some g) ∧ (g.decided + 86400000 ≤ s.opMs)) ∧
    (∃ (s : State) (g : ActGroup), (s.upd.group = some g) ∧ (g.sentOk = true) ∧ (s.groupState = gsTRIAL) ∧
      (s.isCoord = false)) ∧
    (∃ (s : State) (g : ActGroup), (s.coordOf s.groupId = some g) ∧ (g.decision = gmGO)) := by
  refine ⟨?_, ?_, ?_, ?_, ?_, ?_, ?_, ?_, ?_, ?_, ?_, ?_, ?_, ?_, ?_, ?_, ?_, ?_, ?_, ?_, ?_, ?_, ?_, ?_, ?_, ?_, ?_⟩
  · exact ⟨{ State.reset with mb.taken := some (demoReq 0x0700 []) }, demoReq 0x0700 [], by decide⟩
  · exact
    ⟨{ State.reset with mb.taken := some (demoReq 0x0701 ([1, 0, 0, 0] ++ List.replicate 10 0 ++ [1] ++ List.replicate 13 0)) },
    demoReq 0x0701 ([1, 0, 0, 0] ++ List.replicate 10 0 ++ [1] ++ List.replicate 13 0), [], stPOLICY, by decide⟩
  · exact
    ⟨{ (State.reset.wr F.TIM_STATUS.LOCKED 1).wr F.UPD_SLOT.STATE slVERIFIED 1 with mb.taken := some (demoReq 0x0701 ([1, 0, 0, 0] ++ [0, 200, 23, 168, 4, 0, 0, 0] ++ [5, 0, 1, 0] ++ List.replicate 12 0)) },
    demoReq 0x0701 ([1, 0, 0, 0] ++ [0, 200, 23, 168, 4, 0, 0, 0] ++ [5, 0, 1, 0] ++ List.replicate 12 0), [], 0, by
    decide⟩
  · exact
    ⟨{ (State.reset.wr F.TIM_STATUS.LOCKED 1).wr F.UPD_SLOT.STATE slVERIFIED 1 with mb.taken := some (demoReq 0x0701 ([1, 0, 0, 0] ++ [0, 200, 23, 168, 4, 0, 0, 0] ++ [0, 0, 1, 0] ++ [0, 0, 0, 0, 0, 0, 0, 128, 0, 0, 0, 0])), ms.linkDown := false, pwr.perstLow := false },
    demoReq 0x0701 ([1, 0, 0, 0] ++ [0, 200, 23, 168, 4, 0, 0, 0] ++ [0, 0, 1, 0] ++ [0, 0, 0, 0, 0, 0, 0, 128, 0,
    0, 0, 0]), [7], [7], 0, by decide, by decide, by decide, by decide, rfl, by decide⟩
  · exact
    ⟨{ (State.reset.wr F.TIM_STATUS.LOCKED 1).wr F.UPD_SLOT.STATE slVERIFIED 1 with mb.taken := some (demoReq 0x0701 ([1, 0, 0, 0] ++ [0, 200, 23, 168, 4, 0, 0, 0] ++ [0, 0, 1, 0] ++ List.replicate 12 0)) },
    demoReq 0x0701 ([1, 0, 0, 0] ++ [0, 200, 23, 168, 4, 0, 0, 0] ++ [0, 0, 1, 0] ++ List.replicate 12 0), [], [0],
    0, by decide, by decide, by decide, by decide, rfl, by decide⟩
  · exact ⟨{ State.reset.wr F.UPD_STATE.ON_TRIAL 1 with mb.taken := some (demoReq 0x0702 []) }, demoReq 0x0702 [],
    0, by decide⟩
  · exact ⟨{ (demoMember gsTRIAL).wr F.UPD_STATE.ON_TRIAL 1 with mb.taken := some (demoReq 0x0702 []) }, demoReq
    0x0702 [], 0, by decide⟩
  · exact ⟨{ State.reset with mb.taken := some (demoReq 0x0702 []) }, demoReq 0x0702 [], by decide⟩
  · exact ⟨{ demoMember gsSCHEDULED with mb.taken := some (demoReq 0x0703 []) }, demoReq 0x0703 [], 0, by decide⟩
  · exact ⟨{ demoMember gsGO with mb.taken := some (demoReq 0x0703 []) }, demoReq 0x0703 [], 0, by decide⟩
  · exact ⟨{ State.reset with mb.taken := some (demoReq 0x0703 []) }, demoReq 0x0703 [], by decide⟩
  · exact ⟨demoCoord gsSCHEDULED 0, 7, 0, 3, demoGrp 0, by decide⟩
  · exact ⟨demoCoord gsSCHEDULED 0, 7, 0, 3, demoGrp 0, by decide⟩
  · exact ⟨demoCoord gsSCHEDULED 0, demoGrp 0, by decide⟩
  · exact ⟨demoMember gsSCHEDULED, 5, 0, 0, by decide⟩
  · exact ⟨demoMember gsGO, 5, 0, by decide⟩
  · exact ⟨demoMember gsGO, by decide⟩
  · exact ⟨{ demoMember gsGO with upd.group := some { demoGrp 0 with fail := some 3 } }, by decide⟩
  · exact ⟨demoMember gsSCHEDULED, by decide⟩
  · exact ⟨demoCoord gsTRIAL gmGO, 7, 0, demoGrp gmGO, by decide⟩
  · exact ⟨demoCoord gsTRIAL gmGO, 7, 0, 3, demoGrp gmGO, by decide⟩
  · exact ⟨(demoMember gsTRIAL).wr F.UPD_STATE.ON_TRIAL 1, 5, 0, by decide⟩
  · exact ⟨(demoMember gsTRIAL).wr F.UPD_STATE.ON_TRIAL 1, 5, 0, by decide⟩
  · exact ⟨demoCoord gsTRIAL gmGO, 7, 0, demoGrp gmGO, by decide⟩
  · exact ⟨{ demoCoord gsTRIAL gmGO with time.raw := 86400000000000 }, 7, 0, demoGrp gmGO, by decide⟩
  · exact ⟨{ demoMember gsTRIAL with upd.group := some { demoGrp 0 with sentOk := true } },
    { demoGrp 0 with sentOk := true }, by decide⟩
  · exact ⟨demoCoord gsTRIAL gmGO, demoGrp gmGO, by decide⟩

theorem witness_PathCommandRows :
    (∃ (s u : State) (slot queue count : Nat) (c : Cmd) (bs : List (BitVec 8)), (Working s ⟨slot, queue, count⟩ 0x50
      c) ∧ (leAt c.bytes 8 8 % 32 = 0) ∧ (s.isLocalAddr (leAt c.bytes 8 8) = true) ∧ (1 ≤ leAt c.bytes 16 2) ∧ (leAt
      c.bytes 16 2 ≤ 512) ∧ (bitsOf (leAt c.bytes 8 8) 41 0 + 32 * leAt c.bytes 16 2 ≤ generalUse) ∧
      (s.leaveDormant.fetchBytes ⟨slot, queue, count⟩ (leAt c.bytes 8 8) (32 * leAt c.bytes 16 2) 0 = (u, some bs))) ∧
    (∃ (s u : State) (slot queue count : Nat) (c : Cmd), (Working s ⟨slot, queue, count⟩ 0x50 c) ∧ (leAt c.bytes 8 8
      % 32 = 0) ∧ (s.isLocalAddr (leAt c.bytes 8 8) = true) ∧ (1 ≤ leAt c.bytes 16 2) ∧ (leAt c.bytes 16 2 ≤ 512) ∧
      (bitsOf (leAt c.bytes 8 8) 41 0 + 32 * leAt c.bytes 16 2 ≤ generalUse) ∧ (s.leaveDormant.fetchBytes ⟨slot,
      queue, count⟩ (leAt c.bytes 8 8) (32 * leAt c.bytes 16 2) 0 = (u, none))) ∧
    (∃ (s : State) (slot queue count : Nat) (c : Cmd), (Working s ⟨slot, queue, count⟩ 0x50 c) ∧ (leAt c.bytes 8 8 %
      32 ≠ 0 ∨ s.isLocalAddr (leAt c.bytes 8 8) = false ∨ leAt c.bytes 16 2 = 0 ∨ 512 < leAt c.bytes 16 2 ∨
      generalUse < bitsOf (leAt c.bytes 8 8) 41 0 + 32 * leAt c.bytes 16 2)) ∧
    (∃ (s u : State) (slot queue count : Nat) (c : Cmd) (bs : List (BitVec 8)), (Working s ⟨slot, queue, count⟩ 0x51
      c) ∧ (leAt c.bytes 8 8 % 32 = 0) ∧ (s.isLocalAddr (leAt c.bytes 8 8) = true) ∧ (1 ≤ leAt c.bytes 16 2) ∧ (leAt
      c.bytes 16 2 ≤ 512) ∧ (bitsOf (leAt c.bytes 8 8) 41 0 + 32 * leAt c.bytes 16 2 ≤ generalUse) ∧
      (s.leaveDormant.fetchBytes ⟨slot, queue, count⟩ (leAt c.bytes 8 8) (32 * leAt c.bytes 16 2) 0 = (u, some bs))) ∧
    (∃ (s u : State) (slot queue count : Nat) (c : Cmd), (Working s ⟨slot, queue, count⟩ 0x51 c) ∧ (leAt c.bytes 8 8
      % 32 = 0) ∧ (s.isLocalAddr (leAt c.bytes 8 8) = true) ∧ (1 ≤ leAt c.bytes 16 2) ∧ (leAt c.bytes 16 2 ≤ 512) ∧
      (bitsOf (leAt c.bytes 8 8) 41 0 + 32 * leAt c.bytes 16 2 ≤ generalUse) ∧ (s.leaveDormant.fetchBytes ⟨slot,
      queue, count⟩ (leAt c.bytes 8 8) (32 * leAt c.bytes 16 2) 0 = (u, none))) ∧
    (∃ (s : State) (slot queue count : Nat) (c : Cmd), (Working s ⟨slot, queue, count⟩ 0x51 c) ∧ (leAt c.bytes 8 8 %
      32 ≠ 0 ∨ s.isLocalAddr (leAt c.bytes 8 8) = false ∨ leAt c.bytes 16 2 = 0 ∨ 512 < leAt c.bytes 16 2 ∨
      generalUse < bitsOf (leAt c.bytes 8 8) 41 0 + 32 * leAt c.bytes 16 2)) ∧
    (∃ (s u : State) (slot queue count : Nat) (c : Cmd) (bs : List (BitVec 8)), (Working s ⟨slot, queue, count⟩ 0x52
      c) ∧ (leAt c.bytes 8 8 % 32 = 0) ∧ (s.isLocalAddr (leAt c.bytes 8 8) = true) ∧ (1 ≤ leAt c.bytes 16 2) ∧ (leAt
      c.bytes 16 2 ≤ 512) ∧ (bitsOf (leAt c.bytes 8 8) 41 0 + 32 * leAt c.bytes 16 2 ≤ generalUse) ∧
      (s.leaveDormant.fetchBytes ⟨slot, queue, count⟩ (leAt c.bytes 8 8) (32 * leAt c.bytes 16 2) 0 = (u, some bs))) ∧
    (∃ (s u : State) (slot queue count : Nat) (c : Cmd), (Working s ⟨slot, queue, count⟩ 0x52 c) ∧ (leAt c.bytes 8 8
      % 32 = 0) ∧ (s.isLocalAddr (leAt c.bytes 8 8) = true) ∧ (1 ≤ leAt c.bytes 16 2) ∧ (leAt c.bytes 16 2 ≤ 512) ∧
      (bitsOf (leAt c.bytes 8 8) 41 0 + 32 * leAt c.bytes 16 2 ≤ generalUse) ∧ (s.leaveDormant.fetchBytes ⟨slot,
      queue, count⟩ (leAt c.bytes 8 8) (32 * leAt c.bytes 16 2) 0 = (u, none))) ∧
    (∃ (s : State) (slot queue count : Nat) (c : Cmd), (Working s ⟨slot, queue, count⟩ 0x52 c) ∧ (leAt c.bytes 8 8 %
      32 ≠ 0 ∨ s.isLocalAddr (leAt c.bytes 8 8) = false ∨ leAt c.bytes 16 2 = 0 ∨ 512 < leAt c.bytes 16 2 ∨
      generalUse < bitsOf (leAt c.bytes 8 8) 41 0 + 32 * leAt c.bytes 16 2)) ∧
    (∃ (s u : State) (slot queue count : Nat) (c : Cmd) (bs : List (BitVec 8)), (Working s ⟨slot, queue, count⟩ 0x53
      c) ∧ (leAt c.bytes 8 8 % 32 = 0) ∧ (s.isLocalAddr (leAt c.bytes 8 8) = true) ∧ (1 ≤ leAt c.bytes 16 2) ∧ (leAt
      c.bytes 16 2 ≤ 512) ∧ (bitsOf (leAt c.bytes 8 8) 41 0 + 32 * leAt c.bytes 16 2 ≤ generalUse) ∧
      (s.leaveDormant.fetchBytes ⟨slot, queue, count⟩ (leAt c.bytes 8 8) (32 * leAt c.bytes 16 2) 0 = (u, some bs))) ∧
    (∃ (s u : State) (slot queue count : Nat) (c : Cmd), (Working s ⟨slot, queue, count⟩ 0x53 c) ∧ (leAt c.bytes 8 8
      % 32 = 0) ∧ (s.isLocalAddr (leAt c.bytes 8 8) = true) ∧ (1 ≤ leAt c.bytes 16 2) ∧ (leAt c.bytes 16 2 ≤ 512) ∧
      (bitsOf (leAt c.bytes 8 8) 41 0 + 32 * leAt c.bytes 16 2 ≤ generalUse) ∧ (s.leaveDormant.fetchBytes ⟨slot,
      queue, count⟩ (leAt c.bytes 8 8) (32 * leAt c.bytes 16 2) 0 = (u, none))) ∧
    (∃ (s : State) (slot queue count : Nat) (c : Cmd), (Working s ⟨slot, queue, count⟩ 0x53 c) ∧ (leAt c.bytes 8 8 %
      32 ≠ 0 ∨ s.isLocalAddr (leAt c.bytes 8 8) = false ∨ leAt c.bytes 16 2 = 0 ∨ 512 < leAt c.bytes 16 2 ∨
      generalUse < bitsOf (leAt c.bytes 8 8) 41 0 + 32 * leAt c.bytes 16 2)) ∧
    (∃ (s : State) (idx : Nat), ((s.ent idx).audit = true)) ∧
    (∃ (s : State) (idx : Nat), (s.ctype idx = ptyRESP ∨ s.ctype idx = ptyTHRU) ∧ (s.cstate idx = psHELD) ∧ ((s.ent
      idx).staged = false)) ∧
    (∃ (s : State) (idx : Nat), (s.ctype idx = ptyORIG) ∧ (s.cstate idx = psRELEASING)) ∧
    (∃ (s : State) (idx : Nat), (s.ctype idx = ptyORIG) ∧ (s.cstate idx = psRESERVING) ∧ ((s.ent idx).phase = 1) ∧
      (((s.ent idx).wait.all fun x => x.2) = false)) ∧
    (∃ (s : State) (idx : Nat), (s.ctype idx = ptyORIG) ∧ (s.cstate idx = psRESERVING) ∧ ((s.ent idx).phase = 1) ∧
      ((s.ent idx).wait ≠ []) ∧ (((s.ent idx).wait.all fun x => x.2) = true)) ∧
    (∃ (s : State) (idx : Nat), (s.ctype idx = ptyORIG) ∧ (s.cstate idx = psLIT ∨ s.cstate idx = psDOWN) ∧ ((s.ent
      idx).phase = 4 ∨ (s.ent idx).phase = 5) ∧ ((s.ent idx).wait ≠ [])) ∧
    (∃ (s : State) (idx : Nat) (r : Nat × Nat), (s.ctype idx = ptyRESP) ∧ ((s.ent idx).tear = [r])) ∧
    (∃ (s : State) (idx : Nat) (ref : Nat × Nat), (s.ctype idx = ptyORIG) ∧ (s.cstate idx = psLIGHTING) ∧ ((s.ent
      idx).job = some ref)) ∧
    (∃ (s : State) (idx : Nat), (s.ctype idx = ptyORIG) ∧ (s.cstate idx = psDOWN) ∧ ((s.ent idx).phase = 0) ∧
      (s.blk.noRef = false)) ∧
    (∃ (s : State) (idx : Nat), (s.ctype idx = ptyORIG) ∧ (s.cstate idx = psDOWN) ∧ (s.blk.noRef = false)) ∧
    (∃ (s : State) (idx : Nat), (s.blk.noRef = false) ∧ (s.ctype idx = ptyORIG) ∧ (s.cstate idx = psLIT) ∧ ((s.ent
      idx).mode ≠ 0) ∧ ((s.ent idx).bk = []) ∧ ((s.ent idx).phase = 0) ∧ (s.tick.backupFor idx (s.ent idx).route =
      [])) ∧
    (∃ (s : State) (idx : Nat), (s.blk.noRef = false) ∧ (s.ctype idx = ptyORIG) ∧ (s.cstate idx = psLIT) ∧ ((s.ent
      idx).mode = 2) ∧ ((s.ent idx).bk = []) ∧ ((s.ent idx).phase = 0)) ∧
    (∃ (s : State) (plane inp outp : Nat) (p : PPath), ((s.path.planes.find? fun x => x.plane == plane && x.inp ==
      inp && x.outp == outp && x.lit) = some p) ∧ (s.ctype p.own = ptyORIG)) ∧
    (∃ (s : State) (plane inp outp : Nat) (p : PPath), ((s.path.planes.find? fun x => x.plane == plane && x.inp ==
      inp && x.outp == outp && x.lit) = some p) ∧ (s.ctype p.own ≠ ptyORIG)) ∧
    (∃ (s v : State) (plane inp outp : Nat) (p : PPath), ((s.path.planes.find? fun x => x.plane == plane && x.inp ==
      inp && x.outp == outp && x.lit) = some p) ∧ (v = s.verifyFailed plane inp outp) ∧ (v.ctype p.own = ptyORIG) ∧
      ((v.ent p.own).phase = 2) ∧ (v.cstate p.own = psLIGHTING)) ∧
    (∃ (s : State) (step j : Nat) (x : PathJob) (q : PathReq), ((s.path.jobs.filter fun e => e.2.op == 0x52 &&
      e.2.step == step && !e.2.commit) = [(j, x)]) ∧ (x.entries = [q]) ∧ (s.prepared x q = false) ∧ (x.circsOf false
      = [])) ∧
    (∃ (s : State) (step j k i : Nat) (x : PathJob), ((s.path.jobs.filter fun e => e.2.op == 0x52 && e.2.step ==
      step && !e.2.commit) = [(j, x)]) ∧ ((x.entries.all fun q => s.prepared x q) = true) ∧ (x.circsOf false = [(k,
      i)]) ∧ (x.circsOf true = []) ∧ ((s.ent i).mode ≠ 1)) ∧
    (∃ (s : State) (step i : Nat), (((List.range 512).filter fun i => decide (2 ≤ s.ctype i) && (s.ent i).step ==
      step && ((s.ent i).staged || (s.ent i).commit)) = [i]) ∧ ((s.ent i).drop = false) ∧ ((∀ e ∈ (s.tickHop
      i).path.jobs, (e.2.op == 0x52 && e.2.step == step && e.2.commit) = false))) ∧
    (∃ (s : State) (port loss : Nat), (loss ≤ 140)) ∧
    (∃ (s : State) (port loss : Nat), (140 < loss) ∧ (s.flag F.LAT_PORT.LOSSY port = false)) ∧
    (∃ (s : State) (node c o : Nat), (s.boundCirc node = some c) ∧ ((s.circ c).after = some o) ∧ ((s.circ o).replay
      = []) ∧ ((s.circ o).txq = [])) ∧
    (∃ (s : State) (idx n : Nat), (s.ctype idx = ptyORIG) ∧ (s.cstate idx = psRESERVING) ∧ ((s.ent idx).wake = [n])
      ∧ ((s.nextHops n).isEmpty = true)) ∧
    (∃ (s : State) (idx n : Nat), (s.ctype idx = ptyORIG) ∧ (s.cstate idx = psRESERVING) ∧ ((s.ent idx).wake = [n])
      ∧ ((s.nextHops n).isEmpty = false)) := by
  refine ⟨?_, ?_, ?_, ?_, ?_, ?_, ?_, ?_, ?_, ?_, ?_, ?_, ?_, ?_, ?_, ?_, ?_, ?_, ?_, ?_, ?_, ?_, ?_, ?_, ?_, ?_, ?_, ?_, ?_, ?_, ?_, ?_, ?_, ?_, ?_⟩
  · exact ⟨demoWith [80, 0, 0, 0, 0, 0, 0, 0, 0, 0, 0, 0, 0, 0, 0, 0, 1] (some .started), ((demoWith [80, 0, 0, 0,
    0, 0, 0, 0, 0, 0, 0, 0, 0, 0, 0, 0, 1] (some .started)).leaveDormant.fetchBytes ⟨0, 0, 0⟩ 0 32 0).1, 0, 0, 0,
    demoCmd [80, 0, 0, 0, 0, 0, 0, 0, 0, 0, 0, 0, 0, 0, 0, 0, 1] (some .started), List.replicate 32 0, by decide, by
    decide, by decide, by decide, by decide, by decide, by decide⟩
  · exact
    ⟨{ demoWith [80, 0, 0, 0, 0, 0, 0, 0, 0, 0, 0, 0, 0, 0, 0, 0, 1] (some .started) with ms.hostBias := [(0, ())], ms.linkDown := false, pwr.perstLow := false },
    (State.leaveDormant
    { demoWith [80, 0, 0, 0, 0, 0, 0, 0, 0, 0, 0, 0, 0, 0, 0, 0, 1] (some .started) with ms.hostBias := [(0, ())], ms.linkDown := false, pwr.perstLow := false }
    |>.fetchBytes ⟨0, 0, 0⟩ 0 32 0).1, 0, 0, 0, demoCmd [80, 0, 0, 0, 0, 0, 0, 0, 0, 0, 0, 0, 0, 0, 0, 0, 1] (some
    .started), by decide, by decide, by decide, by decide, by decide, by decide, by decide⟩
  · exact ⟨demoWith [80] (some .started), 0, 0, 0, demoCmd [80] (some .started), by decide⟩
  · exact ⟨demoWith [81, 0, 0, 0, 0, 0, 0, 0, 0, 0, 0, 0, 0, 0, 0, 0, 1] (some .started), ((demoWith [81, 0, 0, 0,
    0, 0, 0, 0, 0, 0, 0, 0, 0, 0, 0, 0, 1] (some .started)).leaveDormant.fetchBytes ⟨0, 0, 0⟩ 0 32 0).1, 0, 0, 0,
    demoCmd [81, 0, 0, 0, 0, 0, 0, 0, 0, 0, 0, 0, 0, 0, 0, 0, 1] (some .started), List.replicate 32 0, by decide, by
    decide, by decide, by decide, by decide, by decide, by decide⟩
  · exact
    ⟨{ demoWith [81, 0, 0, 0, 0, 0, 0, 0, 0, 0, 0, 0, 0, 0, 0, 0, 1] (some .started) with ms.hostBias := [(0, ())], ms.linkDown := false, pwr.perstLow := false },
    (State.leaveDormant
    { demoWith [81, 0, 0, 0, 0, 0, 0, 0, 0, 0, 0, 0, 0, 0, 0, 0, 1] (some .started) with ms.hostBias := [(0, ())], ms.linkDown := false, pwr.perstLow := false }
    |>.fetchBytes ⟨0, 0, 0⟩ 0 32 0).1, 0, 0, 0, demoCmd [81, 0, 0, 0, 0, 0, 0, 0, 0, 0, 0, 0, 0, 0, 0, 0, 1] (some
    .started), by decide, by decide, by decide, by decide, by decide, by decide, by decide⟩
  · exact ⟨demoWith [81] (some .started), 0, 0, 0, demoCmd [81] (some .started), by decide⟩
  · exact ⟨demoWith [82, 0, 0, 0, 0, 0, 0, 0, 0, 0, 0, 0, 0, 0, 0, 0, 1] (some .started), ((demoWith [82, 0, 0, 0,
    0, 0, 0, 0, 0, 0, 0, 0, 0, 0, 0, 0, 1] (some .started)).leaveDormant.fetchBytes ⟨0, 0, 0⟩ 0 32 0).1, 0, 0, 0,
    demoCmd [82, 0, 0, 0, 0, 0, 0, 0, 0, 0, 0, 0, 0, 0, 0, 0, 1] (some .started), List.replicate 32 0, by decide, by
    decide, by decide, by decide, by decide, by decide, by decide⟩
  · exact
    ⟨{ demoWith [82, 0, 0, 0, 0, 0, 0, 0, 0, 0, 0, 0, 0, 0, 0, 0, 1] (some .started) with ms.hostBias := [(0, ())], ms.linkDown := false, pwr.perstLow := false },
    (State.leaveDormant
    { demoWith [82, 0, 0, 0, 0, 0, 0, 0, 0, 0, 0, 0, 0, 0, 0, 0, 1] (some .started) with ms.hostBias := [(0, ())], ms.linkDown := false, pwr.perstLow := false }
    |>.fetchBytes ⟨0, 0, 0⟩ 0 32 0).1, 0, 0, 0, demoCmd [82, 0, 0, 0, 0, 0, 0, 0, 0, 0, 0, 0, 0, 0, 0, 0, 1] (some
    .started), by decide, by decide, by decide, by decide, by decide, by decide, by decide⟩
  · exact ⟨demoWith [82] (some .started), 0, 0, 0, demoCmd [82] (some .started), by decide⟩
  · exact ⟨demoWith [83, 0, 0, 0, 0, 0, 0, 0, 0, 0, 0, 0, 0, 0, 0, 0, 1] (some .started), ((demoWith [83, 0, 0, 0,
    0, 0, 0, 0, 0, 0, 0, 0, 0, 0, 0, 0, 1] (some .started)).leaveDormant.fetchBytes ⟨0, 0, 0⟩ 0 32 0).1, 0, 0, 0,
    demoCmd [83, 0, 0, 0, 0, 0, 0, 0, 0, 0, 0, 0, 0, 0, 0, 0, 1] (some .started), List.replicate 32 0, by decide, by
    decide, by decide, by decide, by decide, by decide, by decide⟩
  · exact
    ⟨{ demoWith [83, 0, 0, 0, 0, 0, 0, 0, 0, 0, 0, 0, 0, 0, 0, 0, 1] (some .started) with ms.hostBias := [(0, ())], ms.linkDown := false, pwr.perstLow := false },
    (State.leaveDormant
    { demoWith [83, 0, 0, 0, 0, 0, 0, 0, 0, 0, 0, 0, 0, 0, 0, 0, 1] (some .started) with ms.hostBias := [(0, ())], ms.linkDown := false, pwr.perstLow := false }
    |>.fetchBytes ⟨0, 0, 0⟩ 0 32 0).1, 0, 0, 0, demoCmd [83, 0, 0, 0, 0, 0, 0, 0, 0, 0, 0, 0, 0, 0, 0, 0, 1] (some
    .started), by decide, by decide, by decide, by decide, by decide, by decide, by decide⟩
  · exact ⟨demoWith [83] (some .started), 0, 0, 0, demoCmd [83] (some .started), by decide⟩
  · exact ⟨demoEnt 3 9 { PathEnt.init with audit := true }, 0, by decide⟩
  · exact ⟨demoEnt 3 9 PathEnt.init, 0, by decide⟩
  · exact ⟨demoEnt 1 7 PathEnt.init, 0, by decide⟩
  · exact ⟨demoEnt 1 2 { PathEnt.init with phase := 1, wait := [(4, false)] }, 0, by decide⟩
  · exact ⟨demoEnt 1 2 { PathEnt.init with phase := 1, wait := [(4, true)] }, 0, by decide⟩
  · exact ⟨demoEnt 1 4 { PathEnt.init with phase := 5, wait := [(4, true)] }, 0, by decide⟩
  · exact ⟨demoEnt 2 4 { PathEnt.init with tear := [(0, 0)] }, 0, (0, 0), by decide⟩
  · exact ⟨demoEnt 1 3 { PathEnt.init with job := some (0, 0) }, 0, (0, 0), by decide⟩
  · exact ⟨{ demoEnt 1 6 PathEnt.init with blk.noRef := false }, 0, by decide⟩
  · exact ⟨{ demoEnt 1 6 PathEnt.init with blk.noRef := false }, 0, by decide⟩
  · exact ⟨{ demoEnt 1 4 { PathEnt.init with mode := 1 } with blk.noRef := false }, 0, by decide +kernel⟩
  · exact ⟨{ demoEnt 1 4 { PathEnt.init with mode := 2 } with blk.noRef := false }, 0, by decide +kernel⟩
  · exact ⟨{ demoEnt 1 3 PathEnt.init with path.planes := [⟨1, 0, 1, 0, true, false, false⟩] }, 1, 0, 1, ⟨1, 0, 1,
    0, true, false, false⟩, by decide⟩
  · exact ⟨{ demoEnt 3 3 PathEnt.init with path.planes := [⟨1, 0, 1, 0, true, false, false⟩] }, 1, 0, 1, ⟨1, 0, 1,
    0, true, false, false⟩, by decide⟩
  · exact ⟨{ demoEnt 1 3 { PathEnt.init with phase := 2 } with path.planes := [⟨1, 0, 1, 0, true, false, false⟩] },
    (State.verifyFailed
    { demoEnt 1 3 { PathEnt.init with phase := 2 } with path.planes := [⟨1, 0, 1, 0, true, false, false⟩] } 1 0 1),
    1, 0, 1, ⟨1, 0, 1, 0, true, false, false⟩, by decide, rfl, by decide, by decide, by decide⟩
  · exact
    ⟨{ demoEnt 1 4 PathEnt.init with path.jobs := [(0, ⟨.mailbox 0, 0x52, 9, 0, [⟨[], false, none, none, []⟩], false⟩)] },
    9, 0, ⟨.mailbox 0, 0x52, 9, 0, [⟨[], false, none, none, []⟩], false⟩, ⟨[], false, none, none, []⟩, by decide⟩
  · exact
    ⟨{ demoEnt 1 8 PathEnt.init with path.jobs := [(0, ⟨.mailbox 0, 0x52, 9, 0, [⟨[], true, some 0, none, []⟩], false⟩)] },
    9, 0, 0, 0, ⟨.mailbox 0, 0x52, 9, 0, [⟨[], true, some 0, none, []⟩], false⟩, by decide⟩
  · exact ⟨demoEnt 3 9 { PathEnt.init with step := 9, staged := true, commit := true }, 9, 0, by decide +kernel,
    rfl, by decide +kernel⟩
  · exact ⟨State.reset, 0, 30, by decide⟩
  · exact ⟨State.reset, 0, 200, by decide⟩
  · exact
    ⟨{ State.reset with routes := [(65536 + 7, ⟨some 1, none, none, false⟩)], lk.circs := [(1, { Circ.init with after := some 2 })] },
    7, 1, 2, by decide⟩
  · exact ⟨demoEnt 1 2 { PathEnt.init with wake := [5] }, 0, 5, by decide⟩
  · exact
    ⟨{ demoEnt 1 2 { PathEnt.init with wake := [5] } with routes := [(0x20005, ⟨none, some 1, none, false⟩)] }, 0,
    5, by decide⟩

theorem witness_PathMessageRows :
    (∃ (s : State) (src : Nat) (m : PathMsg), (s.path.coreUp = true) ∧ (s.flag F.RST_STATUS.EVACUATED = true)) ∧
    (∃ (s : State) (src : Nat) (m : PathMsg), (s.path.coreUp = true) ∧ (s.flag F.ID_NODE.NODE_VALID = true) ∧
      (s.flag F.RST_STATUS.EVACUATED = false) ∧ (s.blk.noRef = true)) ∧
    (∃ (s : State) (src : Nat) (m : PathMsg) (i : Nat), (s.path.coreUp = true) ∧ (s.flag F.ID_NODE.NODE_VALID =
      true) ∧ (s.flag F.RST_STATUS.EVACUATED = false) ∧ (s.blk.noRef = false) ∧ (m.hop ≠ 4) ∧ (s.entOf m = none) ∧
      (s.freeIdx = some i) ∧ (s.leaveDormant.tick.grantable m ≠ 0)) ∧
    (∃ (s : State) (src : Nat) (m : PathMsg) (i : Nat), (s.path.coreUp = true) ∧ (s.origOf m = some i) ∧ ((s.ent
      i).wait.contains (src, m.backup) = true) ∧ ((s.ent i).phase = 1) ∧ ((s.ent i).wait.erase (src, m.backup) ≠
      [])) ∧
    (∃ (s : State) (src : Nat) (m : PathMsg) (i : Nat), (s.path.coreUp = true) ∧ (s.origOf m = some i) ∧ ((s.ent
      i).wait.contains (src, m.backup) = true) ∧ ((s.ent i).phase = 3) ∧ ((s.ent i).wait.erase (src, m.backup) =
      [])) ∧
    (∃ (s : State) (src : Nat) (m : PathMsg) (i : Nat), (s.path.coreUp = true) ∧ (s.blk.noRef = false) ∧ (s.entOf m
      = some i) ∧ (s.cstate i = psHELD ∨ s.cstate i = psLIT ∨ s.cstate i = psLIGHTING)) ∧
    (∃ (s : State) (src : Nat) (m : PathMsg) (i : Nat), (s.path.coreUp = true) ∧ (s.origOf m = some i) ∧ ((s.ent
      i).phase = 2) ∧ ((s.ent i).wait.contains (src, false) = true) ∧ (Nat.land m.planes (s.ent i).offered = (s.ent
      i).offered)) ∧
    (∃ (s : State) (src : Nat) (m : PathMsg) (i : Nat), (s.path.coreUp = true) ∧ (s.origOf m = some i) ∧ ((s.ent
      i).phase = 2) ∧ ((s.ent i).wait.contains (src, false) = true) ∧ (Nat.land m.planes (s.ent i).offered ≠ (s.ent
      i).offered) ∧ (s.cstate i = psLIGHTING)) ∧
    (∃ (s : State) (src : Nat) (m : PathMsg) (i : Nat), (s.path.coreUp = true) ∧ (s.blk.noRef = false) ∧ (s.entOf m
      = some i) ∧ (m.backup = false)) ∧
    (∃ (s : State) (src : Nat) (m : PathMsg) (i : Nat), (s.path.coreUp = true) ∧ (s.origOf m = some i) ∧ (s.cstate i
      = psRELEASING) ∧ (((s.ent i).wait.filter fun x => x.1 != src) = [])) ∧
    (∃ (s : State) (src : Nat) (m : PathMsg) (i : Nat), (s.path.coreUp = true) ∧ (s.origOf m = some i) ∧ (s.cstate i
      = psRELEASING) ∧ (((s.ent i).wait.filter fun x => x.1 != src) ≠ [])) ∧
    (∃ (s : State) (src : Nat) (m : PathMsg) (i : Nat), (s.path.coreUp = true) ∧ (s.blk.noRef = false) ∧ (s.entOf m
      = some i)) ∧
    (∃ (s : State) (src : Nat) (m : PathMsg) (i : Nat), (s.path.coreUp = true) ∧ (s.entOf m = some i) ∧ (s.cstate i
      = psHELD) ∧ ((s.ent i).staged = true)) ∧
    (∃ (s : State) (src : Nat) (m : PathMsg) (i : Nat), (s.path.coreUp = true) ∧ (s.entOf m = some i) ∧ (s.cstate i
      ≠ psHELD)) ∧
    (∃ (s : State) (src : Nat) (m : PathMsg) (i : Nat), (s.path.coreUp = true) ∧ (s.entOf m = some i) ∧ (s.cstate i
      = psHELD) ∧ ((s.ent i).staged = true)) ∧
    (∃ (s : State) (src : Nat) (m : PathMsg) (i : Nat), (s.path.coreUp = true) ∧ (s.origOf m = some i)) ∧
    (∃ (s : State) (src : Nat) (m : PathMsg), (s.path.coreUp = true) ∧ (s.origOf m = none)) ∧
    (∃ (s : State) (src : Nat) (m : PathMsg) (i : Nat), (s.path.coreUp = true) ∧ (s.entOf m = some i) ∧ (m.found =
      true)) ∧
    (∃ (s : State) (src : Nat) (m : PathMsg), (s.path.coreUp = true) ∧ (s.origOf m = none)) ∧
    (∃ (s : State) (src : Nat) (m : PathMsg) (i : Nat), (s.path.coreUp = true) ∧ (s.origOf m = some i) ∧ (((s.ent
      i).route.any fun h => h.node == src) = true)) ∧
    (∃ (s : State) (src : Nat) (m : PathMsg) (i : Nat), (s.path.coreUp = true) ∧ (s.entOf m = some i)) ∧
    (∃ (s : State) (src : Nat) (m : PathMsg) (i : Nat), (s.path.coreUp = true) ∧ (s.origOf m = some i)) ∧
    (∃ (s : State) (src : Nat) (m : PathMsg), (s.path.coreUp = true)) ∧
    (∃ (s : State) (src : Nat) (m : PathMsg) (i : Nat), (s.path.coreUp = true) ∧ (s.origOf m = some i)) ∧
    (∃ (s : State) (src : Nat) (m : PathMsg), (s.path.coreUp = false)) ∧
    (∃ (s : State) (src : Nat) (m : PathMsg), (s.path.coreUp = true) ∧ (s.blk.noRef = true)) := by
  refine ⟨?_, ?_, ?_, ?_, ?_, ?_, ?_, ?_, ?_, ?_, ?_, ?_, ?_, ?_, ?_, ?_, ?_, ?_, ?_, ?_, ?_, ?_, ?_, ?_, ?_, ?_⟩
  · exact ⟨(demoEnt 0 0 PathEnt.init).wr F.RST_STATUS.EVACUATED 1, 7, demoMsg, by decide⟩
  · exact ⟨{ (demoEnt 0 0 PathEnt.init).wr F.ID_NODE.NODE_VALID 1 with blk.noRef := true }, 7, demoMsg, by decide⟩
  · exact
    ⟨{ ((((State.reset.wr F.ID_NODE.NODE_VALID 1).wr F.LNK_LANE.STATE lsUP 180).wr F.PTH_DISC_PORT.VERDICT vMATCH 0).wr F.LNK_LANE.STATE lsUP 181).wr F.PTH_DISC_PORT.VERDICT vMATCH 1 with path.coreUp := true, blk.noRef := false },
    7, demoMsg, 0, by decide +kernel⟩
  · exact ⟨demoEnt 1 2 { PathEnt.init with phase := 1, wait := [(5, false), (6, false)] }, 5, demoOwn, 0, by decide⟩
  · exact ⟨demoEnt 1 2 { PathEnt.init with phase := 3, wait := [(5, false)] }, 5, demoOwn, 0, by decide⟩
  · exact ⟨{ demoEnt 3 9 PathEnt.init with blk.noRef := false }, 7, demoMsg, 0, by decide +kernel⟩
  · exact ⟨demoEnt 1 3 { PathEnt.init with phase := 2, wait := [(5, false)], offered := 2 }, 5, demoOwn, 0, by
    decide⟩
  · exact ⟨demoEnt 1 3 { PathEnt.init with phase := 2, wait := [(5, false)], offered := 6 }, 5, demoOwn, 0, by
    decide⟩
  · exact ⟨{ demoEnt 3 4 PathEnt.init with blk.noRef := false }, 7, demoMsg, 0, by decide +kernel⟩
  · exact ⟨demoEnt 1 7 { PathEnt.init with wait := [(5, false)] }, 5, demoOwn, 0, by decide⟩
  · exact ⟨demoEnt 1 7 { PathEnt.init with wait := [(5, false), (6, false)] }, 5, demoOwn, 0, by decide⟩
  · exact ⟨{ demoEnt 3 9 PathEnt.init with blk.noRef := false }, 7, demoMsg, 0, by decide +kernel⟩
  · exact ⟨demoEnt 3 9 { PathEnt.init with staged := true }, 7, demoMsg, 0, by decide +kernel⟩
  · exact ⟨demoEnt 3 4 PathEnt.init, 7, demoMsg, 0, by decide +kernel⟩
  · exact ⟨demoEnt 3 9 { PathEnt.init with staged := true }, 7, demoMsg, 0, by decide +kernel⟩
  · exact ⟨demoEnt 1 4 PathEnt.init, 5, demoOwn, 0, by decide⟩
  · exact ⟨demoEnt 3 4 PathEnt.init, 5, demoMsg, by decide⟩
  · exact ⟨demoEnt 3 4 { PathEnt.init with audit := true }, 7, demoMsg, 0, by decide +kernel⟩
  · exact ⟨demoEnt 3 4 PathEnt.init, 5, demoMsg, by decide⟩
  · exact ⟨demoEnt 1 4 { PathEnt.init with route := [⟨0, 5, 1⟩] }, 5, demoOwn, 0, by decide⟩
  · exact ⟨demoEnt 3 4 PathEnt.init, 7, demoMsg, 0, by decide +kernel⟩
  · exact ⟨demoEnt 1 4 PathEnt.init, 5, demoOwn, 0, by decide⟩
  · exact ⟨demoEnt 3 4 PathEnt.init, 7, demoMsg, by decide⟩
  · exact ⟨demoEnt 1 2 PathEnt.init, 5, demoOwn, 0, by decide⟩
  · exact ⟨State.reset, 7, demoMsg, by decide⟩
  · exact ⟨{ demoEnt 3 4 PathEnt.init with blk.noRef := true }, 7, demoMsg, by decide⟩

theorem witness_StepRunsTheFrontCommand :
    (∃ (s : State) (c : Instr) (rest : List Instr), s.pending = c :: rest) ∧ ∃ (s : State), s.pending = [] := by
  exact ⟨⟨{ State.reset with pending := [.smbStatus] }, .smbStatus, [], rfl⟩, State.reset, rfl⟩

theorem witness_CommandsKeepTheState :
    ∃ (s t : State), Canonical s ∧ Machine.step s = .next t := by
  exact ⟨{ State.reset with pending := [.smbAlertMask true 5 true] }, _, rfl, rfl⟩

theorem witness_QueueRunsToItsEnd :
    ∃ (s : State), s.pending ≠ [] ∧ Canonical s := by
  exact ⟨{ State.reset with pending := [.smbAlertMask true 5 true] }, by decide, rfl⟩

theorem witness_RegisterFieldsHoldTheirBits :
    ∃ (f g : Fld) (i j : Nat), f.lo ≤ f.hi ∧ f.hi < 64 ∧ (f.reg.off i ≠ g.reg.off j ∨ f.reg = g.reg ∧
      (f.hi < g.lo ∨ g.hi < f.lo)) := by
  exact ⟨F.QDB_QCFG.LOG2_DEPTH, F.QDB_QCFG.STATE, 3, 3, by decide, by decide, Or.inr (by decide)⟩

theorem witness_StoredBytesReadBack :
    ∃ (s : State), Canonical s := by
  exact ⟨State.reset, rfl⟩

theorem witness_ResetActionsQueueByClass :
    ∃ (a : Action) (q : List Action), q.Pairwise (fun x y => y.cls ≤ x.cls) := by
  exact ⟨⟨4, 0, 0, 1, none, 1, 0, 0, false, none, true⟩, [⟨5, 0, 0, 1, none, 1, 0, 0, false, none, true⟩], List.pairwise_singleton _ _⟩

theorem witness_MinimumMaximumAndCompare :
    (∃ (a b : BitVec 32), (ofF32 a).isNan = true ∨ (ofF32 b).isNan = true) ∧ ∃ (a b : BitVec 32), (a = 0x80000000 ∧
      b = 0) ∨ (a = 0 ∧ b = 0x80000000) := by
  exact ⟨⟨0x7FC00000, 0, Or.inl (by decide)⟩, 0, 0x80000000, Or.inr ⟨rfl, rfl⟩⟩

theorem witness_PowerCycleRefused :
    ∃ (s : State), s.pwr.pwrcycReq = true := by
  exact ⟨{ State.reset with pwr.pwrcycReq := true }, by decide⟩

theorem witness_EventAndAddressOperands :
    (∃ (s : State) (c : Cmd), Started s ⟨0, 0, 0⟩ 0x01 c ∧ 63 < leAt c.bytes 8 1) ∧
    (∃ (s : State) (c : Cmd), Started s ⟨0, 0, 0⟩ 0x02 c ∧ 63 < leAt c.bytes 8 1 ∧ leAt c.bytes 9 1 = 0) ∧
    (∃ (s : State) (c : Cmd), Started s ⟨0, 0, 0⟩ 0x02 c ∧ 63 < leAt c.bytes 8 1 ∧ leAt c.bytes 9 1 = 1) ∧
    (∃ (s : State) (c : Cmd), Started s ⟨0, 0, 0⟩ 0x04 c ∧ leAt c.bytes 16 8 % 16 ≠ 0) ∧
    ∃ (s : State) (c : Cmd), Started s ⟨0, 0, 0⟩ 0x05 c ∧ (leAt c.bytes 16 8 % 8 ≠ 0 ∨
      s.isLocalAddr (leAt c.bytes 16 8) = false) := by
  exact ⟨⟨demoWith [1, 0, 0, 0, 0, 0, 0, 0, 64] (some .started), demoCmd [1, 0, 0, 0, 0, 0, 0, 0, 64] (some .started), by decide⟩, ⟨demoWith [2, 0, 0, 0, 0, 0, 0, 0, 64] (some .started), demoCmd [2, 0, 0, 0, 0, 0, 0, 0, 64] (some .started), by decide⟩, ⟨demoWith [2, 0, 0, 0, 0, 0, 0, 0, 64, 1] (some .started), demoCmd [2, 0, 0, 0, 0, 0, 0, 0, 64, 1] (some .started), by decide⟩, ⟨demoWith [4, 0, 0, 0, 0, 0, 0, 0, 0, 0, 0, 0, 0, 0, 0, 0, 8] (some .started), demoCmd [4, 0, 0, 0, 0, 0, 0, 0, 0, 0, 0, 0, 0, 0, 0, 0, 8] (some .started), by decide⟩, ⟨demoWith [5, 0, 0, 0, 0, 0, 0, 0, 0, 0, 0, 0, 0, 0, 0, 0, 4] (some .started), demoCmd [5, 0, 0, 0, 0, 0, 0, 0, 0, 0, 0, 0, 0, 0, 0, 0, 4] (some .started), by decide⟩⟩

theorem witness_TwoKeyStatusPayload :
    (∃ (s : State) (q : Req) (x : TwoKey), s.taking 0x0601 = some q ∧ s.upd.pending = some x) ∧
    ∃ (s : State) (q : Req), s.taking 0x0601 = some q ∧ s.upd.pending = none := by
  exact ⟨⟨{ demoMail 0x0601 [] with upd.pending := some (demoPending 1 0) }, demoReq 0x0601 [], demoPending 1 0, rfl, rfl⟩, demoMail 0x0601 [], demoReq 0x0601 [], by decide⟩

theorem witness_CommandsWriteTheirRegisters :
    (∃ (s : State) (t : State), (exec .feedRedundStartCheck s = .next t)) ∧
    (∃ (s : State) (t : State), (exec .powerCycleNotExecuted s = .next t)) ∧
    (∃ (s : State) (i : Int) (q : Nat) (t : State), (exec (.computeClockStep i q) s = .next t)) ∧
    (∃ (s : State) (t : State), (exec .trefLost s = .next t)) ∧
    (∃ (s : State) (t : State), (exec .referencesLost s = .next t)) ∧
    (∃ (s : State) (b : Bool) (t : State), (exec (.referenceQualified b) s = .next t)) ∧
    (∃ (s : State) (q : Nat) (j : Int) (t : State), (exec (.quarterOverheatGate q j) s = .next t)) ∧
    (∃ (s : State) (g : Nat) (e : EccFinding) (t : State), (exec (.patrolScrub g e) s = .next t)) ∧
    (∃ (s : State) (d : Nat) (t : State), (exec (.selfRefreshTimeout d) s = .next t)) ∧
    (∃ (s : State) (t : State), (exec .biasChangeComplete s = .next t)) ∧
    (∃ (s : State) (b : Nat) (t : State), (exec (.mirrorEnable b) s = .next t)) ∧
    (∃ (s : State) (t : State), (exec .resyncComplete s = .next t)) ∧
    (∃ (s : State) (t : State), (exec .latchExpires s = .next t)) ∧
    (∃ (s : State) (t : State), (exec .watchdogPeriod s = .next t)) ∧
    (∃ (s : State) (t : State), (exec .keeperWatchdog s = .next t)) ∧
    (∃ (s : State) (t : State), (exec .rstDumpDone s = .next t)) ∧
    (∃ (s : State) (a b : Nat) (t : State), (exec (.queueDisable a b) s = .next t)) ∧
    (∃ (s : State) (u : Nat) (ok : Bool) (t : State), (exec (.historyFlashWrite u ok) s = .next t)) ∧
    (∃ (s : State) (v : Nat) (t : State), (exec (.chkInjectArm v) s = .next t)) ∧
    (∃ (s : State) (t : State), (exec .mailboxTimeout s = .next t)) ∧
    (∃ (s : State) (t : State), (exec .getResult s = .next t)) ∧
    (∃ (s : State) (t : State), (exec .evrLatch s = .next t)) ∧
    (∃ (s : State) (v : Nat) (t : State), (exec (.hceSpGo v) s = .next t)) ∧
    (∃ (s : State) (l n : Nat) (t : State), (exec (.lnkBerHigh l n) s = .next t)) := by
  refine ⟨?_, ?_, ?_, ?_, ?_, ?_, ?_, ?_, ?_, ?_, ?_, ?_, ?_, ?_, ?_, ?_, ?_, ?_, ?_, ?_, ?_, ?_, ?_, ?_⟩
  · exact ⟨State.reset, _, rfl⟩
  · exact ⟨State.reset, _, rfl⟩
  · exact ⟨State.reset, 0, 0, _, rfl⟩
  · exact ⟨State.reset, _, rfl⟩
  · exact ⟨State.reset, _, rfl⟩
  · exact ⟨State.reset, true, _, rfl⟩
  · exact ⟨State.reset, 0, 0, _, rfl⟩
  · exact ⟨State.reset, 0, .errors 9, _, rfl⟩
  · exact ⟨State.reset, 0, _, rfl⟩
  · exact ⟨State.reset, _, rfl⟩
  · exact ⟨State.reset, 0, _, rfl⟩
  · exact ⟨State.reset, _, rfl⟩
  · exact ⟨State.reset, _, rfl⟩
  · exact ⟨State.reset, _, rfl⟩
  · exact ⟨State.reset, _, rfl⟩
  · exact ⟨State.reset, _, rfl⟩
  · exact ⟨State.reset, 0, 0, _, rfl⟩
  · exact ⟨State.reset, 0, true, _, rfl⟩
  · exact ⟨State.reset, 0, _, rfl⟩
  · exact ⟨State.reset, _, rfl⟩
  · exact ⟨State.reset, _, rfl⟩
  · exact ⟨State.reset, _, rfl⟩
  · exact ⟨State.reset, 0, _, rfl⟩
  · exact ⟨State.reset, 0, 0, _, rfl⟩

end Sys2Proof.Tests
end

section
/-! PROOFS. What recording an event keeps, what a register field and a byte of memory read after a write, and the state
after reset. -/

namespace Sys2Proof.Machine
open Sys2Proof Safety

/-! ### Recording an event -/

/-- The parts that `record` reaches are the bits of 0x272: every part that the list leaves out has its bit clear. -/
theorem part_unset_of_unrecorded {p : Part} (hp : p ∉ [Part.regs, .evr, .rst, .pwr, .mb]) :
    Nat.testBit 0x272 p.ctorIdx = false := by
  revert hp
  cases p <;> decide

theorem record_same_of_unrecorded (s : State) (c v k x : Nat) (p : List Nat) (y : Option Nat) (z : Bool) {q : Part}
    (hq : q ∉ [Part.regs, .evr, .rst, .pwr, .mb]) : q.same s (s.record c v k x p y z) :=
  (kept_record (keeps_within 0x272 s) (Within.refl _ s)).same q (part_unset_of_unrecorded hq)

/-- Settles O45: recording reaches the parts of `kept_record` alone, and leaves of those what `aside_record` says. -/
theorem recordingKeepsTheRest : Obligations.RecordingKeepsTheRest := by
  unfold Obligations.RecordingKeepsTheRest
  intro s code sev kind index payload ctx injected
  obtain ⟨-, -, hbuf, -, halert, -⟩ := aside_record (Aside.refl s) (c := code) (v := sev) (k := kind) (x := index)
    (p := payload) (y := ctx) (z := injected)
  exact ⟨fun p hp => record_same_of_unrecorded s _ _ _ _ _ _ _ hp, by simp, registersKept_record (registersKept_refl s []),
    hbuf, halert⟩

/-! ### Register fields -/

theorem Fld.good_of_bounds {f : Fld} (hlo : f.lo ≤ f.hi) (hhi : f.hi < 64) : f.good = true := by
  simp [Fld.good, hlo, hhi]

theorem Fld.apart_iff {f g : Fld} {i j : Nat} :
    f.apart i g j = true ↔ f.reg.off i ≠ g.reg.off j ∨ f.reg = g.reg ∧ (f.hi < g.lo ∨ g.hi < f.lo) := by
  simp [Fld.apart]

/-- Settles O50, by the laws of the register file: the field written, and a field apart from it. -/
theorem registerFieldsHoldTheirBits : Obligations.RegisterFieldsHoldTheirBits := by
  unfold Obligations.RegisterFieldsHoldTheirBits
  intro s f g v i j hlo hhi
  have hf := Fld.good_of_bounds hlo hhi
  exact ⟨s.rd_wr_same f v i hf, fun h => s.rd_wr_apart f g v i j hf (Fld.apart_iff.mpr h)⟩

/-! ### Bytes of memory -/

/-- What a byte reads as after a list of bytes is written. -/
theorem memByte_memPutBytes (m : List Host.Cell) (a b : Nat) (bs : List (BitVec 8)) (h : Memory.wf m = true) :
    memByte (memPutBytes m a bs) b = if a ≤ b ∧ b < a + bs.length then bs.getD (b - a) 0 else memByte m b := by
  split
  case isTrue hb =>
    have hi : b - a < bs.length := by omega
    have hin := memByte_memPutBytes_in m a bs (b - a) h hi
    rw [Nat.add_sub_cancel' hb.1] at hin
    rw [hin, List.getD_eq_getElem?_getD, List.getElem?_eq_getElem hi, Option.getD_some]
  case isFalse hb => exact memByte_memPutBytes_out m a bs b h (by omega)

/-- Settles O51, by the laws of memory: a byte written, a byte cleared, and the canonical form after each. -/
theorem storedBytesReadBack : Obligations.StoredBytesReadBack := by
  unfold Obligations.StoredBytesReadBack
  intro s a bs h
  exact ⟨fun b => memByte_memPutBytes s.mem a b bs h, fun b n => memByte_memZero s.mem a n b h,
    memPutBytes_wf s.mem a bs h, fun n => memZero_wf s.mem a n h⟩

/-! ### The state after reset -/

/-- Right after reset each register, at every index, holds the word of its table. -/
theorem State.rd_reset (f : Fld) (i : Nat) : State.reset.rd f i = f.of (resetWord f.reg.fields) := rfl

theorem State.thread_reset (c k : Nat) : State.reset.thread c k = Thread.init := rfl

/-- Settles O49: nothing is written at reset, so each field reads what its table gives, and each thread is a fresh one. -/
theorem resetState : Obligations.ResetState := by
  unfold Obligations.ResetState State.mode State.ctxState
  simp only [State.rd_reset, State.thread_reset, forall_const]
  exact ⟨rfl, rfl, rfl, by decide⟩

end Sys2Proof.Machine
end

section
/-! PROOFS. Which registers the commands of the feeds, references, scrubber, mirror, recorder, watchdogs, mailbox, history
and lanes write: one lemma for each operation that several of them share, then one for each command. -/

namespace Sys2Proof.Machine
open Sys2Proof Safety

section
variable {s t : State} {rs : List Reg}

/-! ### Shared operations -/

/-- A write to a register that the list names. -/
theorem registersKept_wr_listed (h : RegistersKept s t rs) {g : Fld} {v i : Nat} (hm : g.reg ∈ rs) :
    RegistersKept s (t.wr g v i) rs :=
  registersKept_wr h (List.mem_cons_of_mem _ (List.mem_cons_of_mem _ hm))

/-- A write to a report of the reset controller, which `RegistersKept` leaves out by its offset. -/
theorem registersKept_wr_report (h : RegistersKept s t rs) {g : Fld} {v i : Nat} (hlo : 0x800008 ≤ g.reg.off i)
    (hhi : g.reg.off i < 0x800050) : RegistersKept s (t.wr g v i) rs :=
  fun f j ha hb => (State.rd_wr_off _ _ _ _ _ _ (by omega)).trans (h f j ha hb)

/-- An update of parts beside the registers, as the model writes it. -/
theorem registersKept_mk (h : RegistersKept s t rs) {x0 x1 x2 x3 x4 x5 x6 x7 x8 x9 x10 x11 x12 x13 x14 x15 x16 x17 x18 x19 x20 x21 x22} :
    RegistersKept s ⟨x0, x1, t.regs, x2, x3, x4, x5, x6, x7, x8, x9, x10, x11, x12, x13, x14, x15, x16, x17, x18, x19, x20, x21, x22⟩ rs :=
  h

theorem registersKept_alert (h : RegistersKept s t rs) {n : Nat} {b : Bool} : RegistersKept s (t.alert n b) rs := h

theorem registersKept_tick (h : RegistersKept s t rs) : RegistersKept s t.tick rs := h

theorem registersKept_leaveDormant (h : RegistersKept s t rs) (hm : .ID_PWR_STATE ∈ rs) :
    RegistersKept s t.leaveDormant rs :=
  registersKept_ite (registersKept_wr_listed (registersKept_other h) hm)
    (registersKept_ite (registersKept_other h) h)

theorem registersKept_judgePower (h : RegistersKept s t rs) (hm : .ID_PWR_STATE ∈ rs) :
    RegistersKept s t.judgePower rs :=
  registersKept_ite (registersKept_ite h (registersKept_wr_listed h hm))
    (registersKept_wr_listed (registersKept_leaveDormant h hm) hm)

theorem registersKept_setGated (h : RegistersKept s t rs) {q : Nat} {b : Bool} (hm : .ID_PWR_STATE ∈ rs) :
    RegistersKept s (t.setGated q b) rs := registersKept_judgePower (registersKept_wr_listed h hm) hm

theorem registersKept_cutSram (h : RegistersKept s t rs) {q : Nat} (hm : .ID_PWR_STATE ∈ rs) :
    RegistersKept s (t.cutSram q) rs := registersKept_wr_listed (registersKept_other h) hm

theorem registersKept_mapQuarter (h : RegistersKept s t rs) {q : Nat} {f : Core → Core} :
    RegistersKept s (t.mapQuarter q f) rs := kept_mapQuarter (registersKept_keeps s rfl) h

theorem registersKept_poisonGranule (h : RegistersKept s t rs) {g : Nat} (hm : .MEM_ECC_CNT_UNCORR ∈ rs) :
    RegistersKept s (t.poisonGranule g) rs :=
  registersKept_ite h (registersKept_wr_listed (registersKept_other h) hm)

theorem registersKept_noteOffset (h : RegistersKept s t rs) {why off status : Nat} :
    RegistersKept s (t.noteOffset why off status) rs := registersKept_note h

theorem registersKept_setQEn (h : RegistersKept s t rs) {slot queue : Nat} {b : Bool} (hm : .QDB_CTX ∈ rs) :
    RegistersKept s (t.setQEn slot queue b) rs := registersKept_wr_listed h hm

theorem registersKept_releaseLatch (h : RegistersKept s t rs) {cause : Nat} :
    RegistersKept s (t.releaseLatch cause) rs :=
  registersKept_ite (registersKept_mk (registersKept_note (registersKept_mk h))) h

/-- A mirrored write goes out as a request: it writes no register. -/
theorem registersKept_mirrorWrite (h : RegistersKept s t rs) {x : Source} {off n : Nat} {bs : List (BitVec 8)}
    {dst : ReqDst} : RegistersKept s (t.mirrorWrite x off n bs dst).1 rs := kept_mirrorWrite (registersKept_keeps s rfl) h

theorem registersKept_resync (h : RegistersKept s t rs) (hm : .MEM_MIRROR_STATUS ∈ rs) :
    RegistersKept s t.resync rs :=
  registersKept_foldl (registersKept_wr_listed (registersKept_wr_listed h hm) hm) fun _ _ h =>
    registersKept_foldl h fun _ _ h => registersKept_mirrorWrite h

theorem registersKept_placeResp (h : RegistersKept s t rs) {q : Req} {r : Resp} (hm : .ORQ_MB_STATUS ∈ rs) :
    RegistersKept s (t.placeResp q r) rs :=
  have hw := registersKept_wr_listed (registersKept_wr_listed (registersKept_wr_listed (registersKept_other h) hm) hm) hm
  registersKept_ite (registersKept_other hw) hw

/-- A mailbox command writes what its service writes; without its request it writes nothing. -/
theorem registersKept_serve (h : RegistersKept s t rs) {cmd : Nat} {f : List (BitVec 8) → State → State}
    (hf : ∀ p u, RegistersKept s u rs → RegistersKept s (f p u) rs) : RegistersKept s (t.serve cmd f) rs := by
  unfold State.serve
  split
  · exact hf _ _ h
  · exact h

theorem registersKept_referenceBack (s : State) (tref : Bool) :
    RegistersKept s (s.referenceBack tref) [.ID_PWR_STATE, .TIM_STATUS, .PTH_STATUS] := by
  have hs := registersKept_refl s [.ID_PWR_STATE, .TIM_STATUS, .PTH_STATUS]
  refine registersKept_ite ?_ (registersKept_ite (registersKept_wr_listed (registersKept_mk hs) (by decide)) (registersKept_mk hs))
  refine registersKept_wr_listed (registersKept_wr_listed (registersKept_mk ?_) (by decide)) (by decide)
  exact registersKept_ite (registersKept_wr_listed (registersKept_mk hs) (by decide))
    (registersKept_alert (registersKept_wr_listed (registersKept_mk hs) (by decide)))

/-! ### Feeds, clocks and references -/

theorem feedRedundStartCheck_registersKept (h : exec .feedRedundStartCheck s = .next t) : RegistersKept s t [] := by
  cases h
  have hs := registersKept_refl s []
  exact registersKept_ite (registersKept_ite (registersKept_mk hs) (registersKept_note (registersKept_mk hs))) hs

theorem powerCycleNotExecuted_registersKept (h : exec .powerCycleNotExecuted s = .next t) : RegistersKept s t [] := by
  cases h
  have hs := registersKept_refl s []
  exact registersKept_ite (registersKept_note hs) hs

theorem computeClockStep_registersKept {inlet : Int} {quarter : Nat} (h : exec (.computeClockStep inlet quarter) s = .next t) :
    RegistersKept s t [] := by
  cases h
  have hs := registersKept_refl s []
  refine registersKept_ite ?_ hs
  exact registersKept_ite (registersKept_other hs) (registersKept_note (registersKept_other hs))

theorem trefLost_registersKept (h : exec .trefLost s = .next t) : RegistersKept s t [.ID_PWR_STATE] := by
  cases h
  have hs := registersKept_refl s [.ID_PWR_STATE]
  refine registersKept_ite (registersKept_note (registersKept_alert ?_)) (registersKept_mk hs)
  exact registersKept_wr_listed (registersKept_mk hs) (by decide)

theorem referencesLost_registersKept (h : exec .referencesLost s = .next t) :
    RegistersKept s t [.TIM_STATUS, .PTH_STATUS] := by
  cases h
  have hs := registersKept_refl s [.TIM_STATUS, .PTH_STATUS]
  refine registersKept_ite hs (registersKept_note ?_)
  exact registersKept_wr_listed (registersKept_wr_listed (registersKept_mk hs) (by decide)) (by decide)

/-- The path work that waited for a reference is `kick`; before it the command writes what `referenceBack` does. -/
theorem referenceQualified_registersKept {tref : Bool} (h : exec (.referenceQualified tref) s = .next t) :
    ∃ u : State, t = u.kick ∧ RegistersKept s u [.ID_PWR_STATE, .TIM_STATUS, .PTH_STATUS] := by
  cases h
  exact ⟨_, rfl, registersKept_referenceBack s tref⟩

theorem quarterOverheatGate_registersKept {quarter : Nat} {junction : Int}
    (h : exec (.quarterOverheatGate quarter junction) s = .next t) : RegistersKept s t [.ID_PWR_STATE] := by
  cases h
  have hs := registersKept_refl s [.ID_PWR_STATE]
  have hm : Reg.ID_PWR_STATE ∈ [Reg.ID_PWR_STATE] := by decide
  refine registersKept_ite (registersKept_record (registersKept_mk ?_)) hs
  exact registersKept_cutSram (registersKept_setGated (registersKept_mapQuarter hs) hm) hm

/-! ### Memory: the scrubber, the bias and the mirror -/

theorem patrolScrub_registersKept {granule : Nat} {ecc : EccFinding} (h : exec (.patrolScrub granule ecc) s = .next t) :
    RegistersKept s t [.MEM_ECC_CNT_CORR, .MEM_ECC_CNT_UNCORR] := by
  cases h
  have hs := registersKept_refl s [.MEM_ECC_CNT_CORR, .MEM_ECC_CNT_UNCORR]
  refine registersKept_ite hs ?_
  split
  · exact hs
  · exact registersKept_note (registersKept_wr_listed hs (by decide))
  · exact registersKept_note (registersKept_poisonGranule hs (by decide))

theorem selfRefreshTimeout_registersKept {devices : Nat} (h : exec (.selfRefreshTimeout devices) s = .next t) :
    RegistersKept s t [] := by
  cases h
  have hs := registersKept_refl s []
  exact registersKept_ite hs (registersKept_note (registersKept_mk hs))

theorem biasChangeComplete_registersKept (h : exec .biasChangeComplete s = .next t) :
    RegistersKept s t [.MEM_BIAS_CMD, .MEM_BIAS_STATUS] := by
  cases h
  have hs := registersKept_refl s [.MEM_BIAS_CMD, .MEM_BIAS_STATUS]
  split
  · exact hs
  · refine registersKept_wr_listed (registersKept_wr_listed ?_ (by decide)) (by decide)
    exact registersKept_wr_listed (registersKept_mk hs) (by decide)

theorem mirrorEnable_registersKept {buddy : Nat} (h : exec (.mirrorEnable buddy) s = .next t) :
    RegistersKept s t [.MEM_MIRROR_CFG, .MEM_MIRROR_STATUS, .ID_PWR_STATE] := by
  cases h
  have hs := registersKept_leaveDormant (registersKept_refl s [.MEM_MIRROR_CFG, .MEM_MIRROR_STATUS, .ID_PWR_STATE]) (by decide)
  refine registersKept_ite hs (registersKept_resync ?_ (by decide))
  exact registersKept_wr_listed (registersKept_wr_listed hs (by decide)) (by decide)

theorem resyncComplete_registersKept (h : exec .resyncComplete s = .next t) : RegistersKept s t [.MEM_MIRROR_STATUS] := by
  cases h
  have hs := registersKept_refl s [.MEM_MIRROR_STATUS]
  refine registersKept_ite hs (registersKept_note ?_)
  exact registersKept_wr_listed (registersKept_wr_listed hs (by decide)) (by decide)

/-! ### The recorder's latch, the watchdogs and the dump -/

theorem latchExpires_registersKept (h : exec .latchExpires s = .next t) : RegistersKept s t [] := by
  cases h
  exact registersKept_releaseLatch (registersKept_refl s [])

theorem evrLatch_registersKept (h : exec .evrLatch s = .next t) : RegistersKept s t [] := by
  cases h
  refine registersKept_serve (registersKept_refl s []) fun _ _ hu => registersKept_mk ?_
  exact registersKept_ite hu (registersKept_note (registersKept_mk hu))

theorem watchdogPeriod_registersKept (h : exec .watchdogPeriod s = .next t) : RegistersKept s t [.ORQ_HB_STATUS] := by
  cases h
  have hs := registersKept_refl s [.ORQ_HB_STATUS]
  have hmissed : RegistersKept s (s.bumpSat F.ORQ_HB_STATUS.MISSED) [.ORQ_HB_STATUS] := registersKept_wr_listed hs (by decide)
  refine registersKept_ite hs (registersKept_ite (registersKept_mk hs) (registersKept_ite hmissed ?_))
  exact registersKept_record (registersKept_wr_listed hmissed (by decide))

theorem keeperWatchdog_registersKept (h : exec .keeperWatchdog s = .next t) : RegistersKept s t [] := by
  cases h
  have hs := registersKept_refl s []
  refine registersKept_ite (registersKept_record ?_) (registersKept_record ?_)
  all_goals exact registersKept_wr_report (registersKept_tick (registersKept_mk hs)) (by decide) (by decide)

theorem rstDumpDone_registersKept (h : exec .rstDumpDone s = .next t) : RegistersKept s t [] := by
  cases h
  have hs := registersKept_refl s []
  unfold State.copyDone'
  split
  · exact hs
  · split
    · exact registersKept_mk hs
    · exact registersKept_note (registersKept_wr_report (registersKept_mk hs) (by decide) (by decide))

/-! ### Queues, the injection, the history, the mailbox, the hinges and the lanes -/

theorem queueDisable_registersKept {slot queue : Nat} (h : exec (.queueDisable slot queue) s = .next t) :
    RegistersKept s t [.QDB_QCFG, .QDB_CTX, .ID_PWR_STATE] := by
  cases h
  have hs := registersKept_leaveDormant (registersKept_refl s [.QDB_QCFG, .QDB_CTX, .ID_PWR_STATE]) (by decide)
  refine registersKept_ite hs (registersKept_ite ?_ (registersKept_ite (registersKept_note hs) hs))
  exact registersKept_setQEn (registersKept_wr_listed (registersKept_wr_listed hs (by decide)) (by decide)) (by decide)

theorem historyFlashWrite_registersKept {unit : Nat} {ok : Bool} (h : exec (.historyFlashWrite unit ok) s = .next t) :
    RegistersKept s t [] := by
  cases h
  have hs := registersKept_refl s []
  exact registersKept_ite hs (registersKept_ite (registersKept_other hs) (registersKept_note hs))

theorem chkInjectArm_registersKept {val : Nat} (h : exec (.chkInjectArm val) s = .next t) :
    RegistersKept s t [.CHK_INJECT, .ID_PWR_STATE] := by
  cases h
  have hs := registersKept_leaveDormant (registersKept_refl s [.CHK_INJECT, .ID_PWR_STATE]) (by decide)
  refine registersKept_ite (registersKept_ite (registersKept_wr_listed ?_ (by decide)) ?_) (registersKept_noteOffset hs)
  all_goals exact registersKept_wr_listed (registersKept_wr_listed hs (by decide)) (by decide)

theorem mailboxTimeout_registersKept (h : exec .mailboxTimeout s = .next t) : RegistersKept s t [.ORQ_MB_STATUS] := by
  cases h
  have hs := registersKept_refl s [.ORQ_MB_STATUS]
  split
  · exact hs
  · exact registersKept_note (registersKept_placeResp hs (by decide))

theorem getResult_registersKept (h : exec .getResult s = .next t) : RegistersKept s t [.ORQ_ASYNC_DONE] := by
  cases h
  refine registersKept_serve (registersKept_refl s _) fun p u hu => registersKept_ite (registersKept_mk hu) ?_
  split
  · exact registersKept_mk hu
  · split
    · exact registersKept_mk hu
    · exact registersKept_mk (registersKept_wr_listed (registersKept_mk hu) (by decide))

theorem hceSpGo_registersKept {val : Nat} (h : exec (.hceSpGo val) s = .next t) :
    RegistersKept s t [.HCE_SP, .ID_PWR_STATE] := by
  cases h
  have hs := registersKept_leaveDormant (registersKept_refl s [.HCE_SP, .ID_PWR_STATE]) (by decide)
  refine registersKept_ite (registersKept_note ?_) (registersKept_mk ?_)
  all_goals exact registersKept_wr_listed (registersKept_wr_listed (registersKept_wr_listed hs (by decide)) (by decide)) (by decide)

theorem lnkBerHigh_registersKept {lane symbols : Nat} (h : exec (.lnkBerHigh lane symbols) s = .next t) :
    RegistersKept s t [.LNK_LANE_ERR] := by
  cases h
  have hs := registersKept_refl s [.LNK_LANE_ERR]
  have hcount : RegistersKept s (s.bump F.LNK_LANE_ERR.CORR_SYM lane symbols) [.LNK_LANE_ERR] :=
    registersKept_wr_listed hs (by decide)
  exact registersKept_ite hs (registersKept_ite (registersKept_note hcount) hcount)

end

/-- Settles O59: each clause is the lemma of its command. -/
theorem commandsWriteTheirRegisters : Obligations.CommandsWriteTheirRegisters :=
  ⟨fun _ _ => feedRedundStartCheck_registersKept, fun _ _ => powerCycleNotExecuted_registersKept,
    fun _ _ _ _ => computeClockStep_registersKept, fun _ _ => trefLost_registersKept,
    fun _ _ => referencesLost_registersKept, fun _ _ _ => referenceQualified_registersKept,
    fun _ _ _ _ => quarterOverheatGate_registersKept, fun _ _ _ _ => patrolScrub_registersKept,
    fun _ _ _ => selfRefreshTimeout_registersKept, fun _ _ => biasChangeComplete_registersKept,
    fun _ _ _ => mirrorEnable_registersKept, fun _ _ => resyncComplete_registersKept,
    fun _ _ => latchExpires_registersKept, fun _ _ => watchdogPeriod_registersKept,
    fun _ _ => keeperWatchdog_registersKept, fun _ _ => rstDumpDone_registersKept,
    fun _ _ _ _ => queueDisable_registersKept, fun _ _ _ _ => historyFlashWrite_registersKept,
    fun _ _ _ => chkInjectArm_registersKept, fun _ _ => mailboxTimeout_registersKept,
    fun _ _ => getResult_registersKept, fun _ _ => evrLatch_registersKept, fun _ _ _ => hceSpGo_registersKept,
    fun _ _ _ _ => lnkBerHigh_registersKept⟩

end Sys2Proof.Machine
end

section
/-! PROOFS. The feeds and their input stages, the proof test, the monitor path and the power cycle that does not come: first
what each operation of the power unit changes and leaves, then the commands. -/

namespace Sys2Proof.Machine
open Sys2Proof Safety

/-! ### Events that go on record -/

theorem recorded_note {s e : State} {c v k x : Nat} {p : List Nat} {y : Option Nat} {z : Bool} (he : e.evr = s.evr) :
    Recorded s (e.note c v k x p y z) c v k x := fun hr => noted_self hr he

theorem recorded_record {s e : State} {c v k x : Nat} {p : List Nat} {y : Option Nat} {z : Bool} (he : e.evr = s.evr) :
    Recorded s (e.record c v k x p y z) c v k x := fun hr => noted_record_self hr he

theorem recorded_alert {s e : State} {c v k x n : Nat} {b : Bool} (h : Recorded s e c v k x) :
    Recorded s (e.alert n b) c v k x := h

/-- What was recorded stays so. -/
theorem recorded_more {s e t : State} {c v k x : Nat} (h : Recorded s e c v k x) (ht : e.evr.buf <+: t.evr.buf) :
    Recorded s t c v k x := fun hr => noted_more (h hr) ht

/-! ### The two feeds -/

@[simp] theorem otherSide_otherSide (x : Side) : otherSide (otherSide x) = x := by cases x <;> rfl

@[simp] theorem State.feed_setFeed_same (s : State) (x : Side) (f : Feed) : (s.setFeed x f).feed x = f := by cases x <;> rfl

@[simp] theorem State.feed_setFeed_other (s : State) (x : Side) (f : Feed) :
    (s.setFeed x f).feed (otherSide x) = s.feed (otherSide x) := by cases x <;> rfl

@[simp] theorem State.setFeed_regs (s : State) (x : Side) (f : Feed) : (s.setFeed x f).regs = s.regs := by cases x <;> rfl

@[simp] theorem State.setFeed_mem (s : State) (x : Side) (f : Feed) : (s.setFeed x f).mem = s.mem := by cases x <;> rfl

@[simp] theorem State.setFeed_evr (s : State) (x : Side) (f : Feed) : (s.setFeed x f).evr = s.evr := by cases x <;> rfl

@[simp] theorem State.alertBit_setFeed (s : State) (x : Side) (f : Feed) (n : Nat) :
    (s.setFeed x f).alertBit n = s.alertBit n := by cases x <;> rfl

@[simp] theorem State.feed_alert (s : State) (x : Side) (n : Nat) (b : Bool) : (s.alert n b).feed x = s.feed x := by
  cases x <;> rfl

@[simp] theorem State.sawVolts_mem (s : State) (x : Side) (cv : Nat) : (s.sawVolts x cv).mem = s.mem := by cases x <;> rfl

@[simp] theorem State.sawVolts_regs (s : State) (x : Side) (cv : Nat) : (s.sawVolts x cv).regs = s.regs := by cases x <;> rfl

@[simp] theorem State.sawVolts_evr (s : State) (x : Side) (cv : Nat) : (s.sawVolts x cv).evr = s.evr := by cases x <;> rfl

@[simp] theorem State.feed_sawVolts (s : State) (x y : Side) (cv : Nat) : (s.sawVolts x cv).feed y = s.feed y := by
  cases x <;> cases y <;> rfl

/-! ### What leaves the stages alone -/

/-- `t` has the feeds and the memory of `s`, everything that was on record in `s`, and the alerts of `s` but for
`FEED_SUSPECT` and `SEV_HIGH`. -/
structure StagesKept (s t : State) : Prop where
  feed : ∀ x, t.feed x = s.feed x
  mem : t.mem = s.mem
  buf : s.evr.buf <+: t.evr.buf
  alertBit : ∀ n, n < 9 → n ≠ aFEED_SUSPECT → t.alertBit n = s.alertBit n

theorem StagesKept.refl (s : State) : StagesKept s s := ⟨fun _ => rfl, rfl, List.prefix_rfl, fun _ _ _ => rfl⟩

theorem StagesKept.trans {s t u : State} (h : StagesKept s t) (k : StagesKept t u) : StagesKept s u where
  feed := fun x => (k.feed x).trans (h.feed x)
  mem := k.mem.trans h.mem
  buf := h.buf.trans k.buf
  alertBit := fun n hn hs => (k.alertBit n hn hs).trans (h.alertBit n hn hs)

/-- What changes nothing beside the recorder, the reset controller and their parts leaves the stages alone. -/
theorem Aside.stagesKept {s t : State} (h : Aside s t) : StagesKept s t := by
  obtain ⟨hrest, -, hbuf, hpwr, halert, -⟩ := h
  refine ⟨fun x => ?_, by rw [hrest], hbuf, fun n hn _ => halert n hn⟩
  cases x <;> simp only [State.feed] <;> rw [hpwr]

theorem stagesKept_note {s t : State} (h : StagesKept s t) {c v k x : Nat} {p : List Nat} {y : Option Nat} {z : Bool} :
    StagesKept s (t.note c v k x p y z) := h.trans (Aside.refl t).note.stagesKept

theorem stagesKept_ite {s a b : State} {c : Prop} [Decidable c] (ha : StagesKept s a) (hb : StagesKept s b) :
    StagesKept s (if c then a else b) := by split <;> assumption

/-- The proof test's own state is no part of the stages. -/
theorem stagesKept_proof {s t : State} (h : StagesKept s t) {p : Option Proof} {r : Nat} {b : Bool} :
    StagesKept s { t with pwr.proof := p, pwr.proofResult := r, pwr.suspect := b } :=
  h.trans ⟨fun x => by cases x <;> rfl, rfl, List.prefix_rfl, fun _ _ _ => rfl⟩

theorem stagesKept_suspect {s t : State} (h : StagesKept s t) {b : Bool} : StagesKept s (t.alert aFEED_SUSPECT b) :=
  h.trans ⟨fun x => State.feed_alert t x _ b, rfl, List.prefix_rfl,
    fun n hn hs => State.alertBit_alert_ne t aFEED_SUSPECT n b (by omega) (Ne.symm hs)⟩

/-- The state in which the proof test is over and its ticket ended, before the event of R55. -/
def State.proofOver (s : State) (p : Proof) (code : Nat) : State :=
  ({ s with pwr.proof := none, pwr.proofResult := code }).endWork p.ticket stOK 0xFFFF (p.payload code)

theorem stagesKept_proofOver (s : State) (p : Proof) (code : Nat) : StagesKept s (s.proofOver p code) :=
  (stagesKept_proof (StagesKept.refl s)).trans (Aside.refl _).endWork.stagesKept

/-- Each stage that failed the test goes on record (R55). -/
def State.proofFailed (s : State) (p : Proof) (code : Nat) : State :=
  let s := if p.failA then s.note evProofFail 1 0xA 0 [code, p.load] else s
  if p.failB then s.note evProofFail 1 0xA 1 [code, p.load] else s

theorem aside_proofFailed (s : State) (p : Proof) (code : Nat) : Aside s (s.proofFailed p code) :=
  have hA : Aside s (if p.failA then s.note evProofFail 1 0xA 0 [code, p.load] else s) :=
    Aside.ite (Aside.refl s).note (Aside.refl s)
  Aside.ite hA.note hA

/-- How a proof test ends, by its code: passed, failed on one stage or both, or aborted. -/
theorem State.endProof_eq (s : State) (p : Proof) (code : Nat) :
    s.endProof p code =
      if code = 1 then ({ s.proofOver p code with pwr.suspect := false }).note evProofPass 0 0 0 [code, p.load]
      else if code = 2 then
        ({ (s.proofOver p code).proofFailed p code with pwr.suspect := true }).alert aFEED_SUSPECT true
      else (s.proofOver p code).note evProofAbort 0 0 0 [code, p.load] := by
  unfold State.endProof State.proofOver State.endWork
  cases p.ticket <;> rfl

theorem stagesKept_endProof (s : State) (p : Proof) (code : Nat) : StagesKept s (s.endProof p code) := by
  have h := stagesKept_proofOver s p code
  rw [State.endProof_eq]
  refine stagesKept_ite (stagesKept_note (stagesKept_proof h)) (stagesKept_ite ?_ (stagesKept_note h))
  exact stagesKept_suspect (stagesKept_proof (h.trans (aside_proofFailed _ p code).stagesKept))

theorem stagesKept_abortProof (s : State) : StagesKept s s.abortProof := by
  unfold State.abortProof
  split
  · exact StagesKept.refl s
  · exact stagesKept_endProof _ _ _

/-! ### A stage that takes the load, joins or is lost -/

theorem lostRedundancy_feed (s : State) (x : Side) : s.lostRedundancy.feed x = s.feed x := by
  unfold State.lostRedundancy
  split
  · rfl
  · exact ((Aside.refl _).note.stagesKept.feed x).trans (State.feed_alert ..)

theorem lostRedundancy_mem (s : State) : s.lostRedundancy.mem = s.mem := by
  unfold State.lostRedundancy
  split
  · rfl
  · exact State.note_mem ..

theorem lostRedundancy_buf (s : State) : s.evr.buf <+: s.lostRedundancy.evr.buf := by
  unfold State.lostRedundancy
  split
  · exact List.prefix_rfl
  · exact State.note_buf_prefix (s.alert aFEED_REDUND true) ..

theorem lostRedundancy_alertBit (s : State) (n : Nat) (hn : n < 9) :
    s.lostRedundancy.alertBit n = if n = aFEED_REDUND then true else s.alertBit n := by
  unfold State.lostRedundancy
  split
  case isTrue h =>
    split
    · subst n; exact h
    · rfl
  case isFalse h =>
    rw [State.note_alertBit _ _ _ _ _ _ _ _ _ hn]
    split
    · subst n; exact State.alertBit_alert_same _ _ _ (by decide)
    · exact State.alertBit_alert_ne _ _ _ _ (by omega) (Ne.symm ‹_›)

theorem transferTo_good {s : State} {x : Side} (h : (s.feed x).good = true) :
    s.transferTo x = (s.setFeed x { s.feed x with carrying := true, waiting := false }).lostRedundancy := if_pos h

theorem transferTo_bad {s : State} {x : Side} (h : (s.feed x).good = false) : s.transferTo x = s :=
  if_neg (by rw [h]; decide)

/-- What became of feed `x`, its load having gone to the other stage where that one can carry it (R39, R41). -/
structure LoadLost (s t : State) (x : Side) (f : Feed) : Prop where
  feed : t.feed x = f
  other : (s.feed (otherSide x)).good = true →
    t.feed (otherSide x) = { s.feed (otherSide x) with carrying := true, waiting := false } ∧ t.alertBit aFEED_REDUND = true
  mem : t.mem = s.mem
  recorded : Recorded s t evFeedLost 1 0xA (sideIndex x)

/-- The load goes over from a stage that is lost and on record. -/
theorem loadLost_transferTo {s u : State} {x : Side} {f : Feed} (hf : u.feed x = f)
    (ho : u.feed (otherSide x) = s.feed (otherSide x)) (hm : u.mem = s.mem)
    (hr : Recorded s u evFeedLost 1 0xA (sideIndex x)) : LoadLost s (u.transferTo (otherSide x)) x f := by
  cases hg : (s.feed (otherSide x)).good with
  | false =>
    rw [transferTo_bad (by rw [ho, hg])]
    exact ⟨hf, fun h => absurd (hg.symm.trans h) (by decide), hm, hr⟩
  | true =>
    rw [transferTo_good (by rw [ho, hg])]
    refine ⟨?_, fun _ => ⟨?_, ?_⟩, ?_, recorded_more hr (by simpa using lostRedundancy_buf (u.setFeed (otherSide x) _))⟩
    · rw [lostRedundancy_feed, ← hf]
      cases x <;> rfl
    · rw [lostRedundancy_feed, State.feed_setFeed_same, ho]
    · rw [lostRedundancy_alertBit _ _ (by decide), if_pos rfl]
    · rw [lostRedundancy_mem, State.setFeed_mem, hm]

theorem transferTo_alertBit (s : State) (x : Side) (n : Nat) (hn : n < 9) (h : s.alertBit n = true) :
    (s.transferTo x).alertBit n = true := by
  cases hg : (s.feed x).good with
  | false => rw [transferTo_bad hg, h]
  | true =>
    rw [transferTo_good hg, lostRedundancy_alertBit _ _ hn, State.alertBit_setFeed, h]
    exact ite_self _

/-- While the other stage carries the load, a stage that joins waits for its share (R40). -/
theorem stageJoins_carrying {s : State} {x : Side} (h : (s.feed (otherSide x)).carrying = true) (f : Feed) :
    s.stageJoins x f = s.setFeed x { f with up := true, waiting := true } := if_pos h

/-- With no stage carrying the load, a stage that joins takes it at once and the domains are powered (R40, R43). -/
theorem stageJoins_alone {s : State} {x : Side} (h : (s.feed (otherSide x)).carrying = false) (f : Feed) :
    (s.stageJoins x f).feed x = { f with up := true, carrying := true, waiting := false } ∧
      (s.stageJoins x f).pwr.domains = true ∧ (s.stageJoins x f).feed (otherSide x) = s.feed (otherSide x) ∧
      (s.stageJoins x f).mem = s.mem := by
  unfold State.stageJoins State.startsAlone
  rw [if_neg (by rw [h]; decide)]
  dsimp only
  repeat' split
  all_goals cases x <;> exact ⟨rfl, rfl, rfl, rfl⟩

/-! ### The commands of the feeds -/

/-- The state in which a feed that comes into range has been measured, and the start check of R42 runs from the first one. -/
def State.feedSeen (s : State) (x : Side) (cv : Nat) : State :=
  let first := !s.pwr.started && !s.pwr.a.inRange && !s.pwr.b.inRange
  { s.sawVolts x cv with
    pwr.startCheck := (s.sawVolts x cv).pwr.startCheck || first
    rst.startMs := if first then (s.sawVolts x cv).opMs else (s.sawVolts x cv).rst.startMs }

theorem feedSeen_feed (s : State) (x y : Side) (cv : Nat) : (s.feedSeen x cv).feed y = s.feed y := by
  cases x <;> cases y <;> rfl

theorem feedSeen_regs (s : State) (x : Side) (cv : Nat) : (s.feedSeen x cv).regs = s.regs := State.sawVolts_regs ..

theorem feedSeen_mem (s : State) (x : Side) (cv : Nat) : (s.feedSeen x cv).mem = s.mem := State.sawVolts_mem ..

theorem exec_feedEntersRange {s : State} {x : Side} {cv : Nat} (hlo : 4550 ≤ cv) (hhi : cv ≤ 5900)
    (hout : (s.feed x).inRange = false) (hup : s.pwr.holdUp = false) :
    exec (.feedEntersRange x cv) s = .next (if (s.feed x).fault
      then (s.feedSeen x cv).setFeed x { s.feed x with inRange := true }
      else (s.feedSeen x cv).stageJoins x { s.feed x with inRange := true }) :=
  congrArg Host.Outcome.next (if_neg (by simp [entersRange, hlo, hhi, hout, hup]))

/-- A stage that is lost: off, and its load gone. -/
def Feed.off (f : Feed) : Feed := { f with up := false, carrying := false, waiting := false }

/-- The state in which the loss of stage `x`, now `f`, is on record; a ramp of its share has ended. -/
def State.stageLost (s : State) (x : Side) (f : Feed) : State :=
  ({ s.setFeed x f with pwr.ramping := false }).note evFeedLost 1 0xA (sideIndex x) [sideIndex x]

theorem stageLost_feed (s : State) (x : Side) (f : Feed) : (s.stageLost x f).feed x = f :=
  ((Aside.refl _).note.stagesKept.feed x).trans (by cases x <;> rfl)

theorem stageLost_other (s : State) (x : Side) (f : Feed) : (s.stageLost x f).feed (otherSide x) = s.feed (otherSide x) :=
  ((Aside.refl _).note.stagesKept.feed _).trans (by cases x <;> rfl)

theorem stageLost_mem (s : State) (x : Side) (f : Feed) : (s.stageLost x f).mem = s.mem :=
  (Aside.refl _).note.stagesKept.mem.trans (State.setFeed_mem ..)

theorem stageLost_alertBit (s : State) (x : Side) (f : Feed) (n : Nat) (hn : n < 9) :
    (s.stageLost x f).alertBit n = s.alertBit n :=
  (State.note_alertBit _ _ _ _ _ _ _ _ _ hn).trans (State.alertBit_setFeed s x f n)

theorem stageLost_recorded {s e : State} (he : e.evr = s.evr) (x : Side) (f : Feed) :
    Recorded s (e.stageLost x f) evFeedLost 1 0xA (sideIndex x) := recorded_note ((State.setFeed_evr e x f).trans he)

theorem exec_feedLeavesRange {s : State} {x : Side} {cv : Nat} (hcv : cv < 4400 ∨ 6000 < cv)
    (hin : (s.feed x).inRange = true) :
    exec (.feedLeavesRange x cv) s = .next ((((s.sawVolts x cv).alert (sideIndex x) true).stageLost x
      { (s.feed x).off with inRange := false }).abortProof.transferTo (otherSide x)) := by
  refine (congrArg Host.Outcome.next (if_neg (by simp [leavesRange, hin]; omega))).trans ?_
  cases x <;> rfl

/-- On test, the fault of the stage that carries the load alone fails the test, and any other aborts it (R54, R56; in
its own phase the model's choice, notes/assumptions/90.md). -/
def State.faultOnTest (s : State) (x : Side) : State :=
  match s.pwr.proof with
  | none => s
  | some p =>
    if p.carriedBy = some x then
      match x with
      | .a => { s with pwr.proof := some { p with faultA := true, failA := true } }
      | .b => { s with pwr.proof := some { p with faultB := true, failB := true } }
    else
      match x with
      | .a => s.endProof { p with faultA := true } 4
      | .b => s.endProof { p with faultB := true } 4

theorem stagesKept_faultOnTest (s : State) (x : Side) : StagesKept s (s.faultOnTest x) := by
  have h := StagesKept.refl s
  unfold State.faultOnTest
  split
  · exact h
  · refine stagesKept_ite ?_ ?_ <;> cases x
    · exact stagesKept_proof h
    · exact stagesKept_proof h
    · exact stagesKept_endProof _ _ _
    · exact stagesKept_endProof _ _ _

theorem exec_stageFault {s : State} {x : Side} (h : (s.feed x).fault = false) :
    exec (.stageFault x) s = .next (((s.stageLost x { (s.feed x).off with fault := true }).faultOnTest x).transferTo (otherSide x)) := by
  refine (congrArg Host.Outcome.next (if_neg (by rw [h]; decide))).trans ?_
  cases x <;> rfl

/-- A stage lost and on record, its proof test dealt with: the load goes over. -/
theorem loadLost_of_stageLost {s e v : State} {x : Side} {f : Feed} (he : e.evr = s.evr) (hm : e.mem = s.mem)
    (ho : e.feed (otherSide x) = s.feed (otherSide x)) (k : StagesKept (e.stageLost x f) v) :
    LoadLost s (v.transferTo (otherSide x)) x f :=
  loadLost_transferTo ((k.feed x).trans (stageLost_feed e x f)) ((k.feed _).trans ((stageLost_other e x f).trans ho))
    (k.mem.trans ((stageLost_mem e x f).trans hm)) (recorded_more (stageLost_recorded he x f) k.buf)

theorem feedLeavesRange_loadLost {s : State} {x : Side} {cv : Nat} (hcv : cv < 4400 ∨ 6000 < cv)
    (hin : (s.feed x).inRange = true) :
    ∃ t, exec (.feedLeavesRange x cv) s = .next t ∧ LoadLost s t x { (s.feed x).off with inRange := false } ∧
      t.alertBit (sideIndex x) = true := by
  have k := stagesKept_abortProof (((s.sawVolts x cv).alert (sideIndex x) true).stageLost x { (s.feed x).off with inRange := false })
  have hi : sideIndex x < 2 := by cases x <;> decide
  refine ⟨_, exec_feedLeavesRange hcv hin, loadLost_of_stageLost ?_ ?_ ?_ k, transferTo_alertBit _ _ _ (by omega) ?_⟩
  · exact State.sawVolts_evr s x cv
  · exact State.sawVolts_mem s x cv
  · exact (State.feed_alert ..).trans (State.feed_sawVolts ..)
  · rw [k.alertBit _ (by omega) (by unfold aFEED_SUSPECT; omega), stageLost_alertBit _ _ _ _ (by omega)]
    exact State.alertBit_alert_same _ _ _ (by omega)

theorem stageFault_loadLost {s : State} {x : Side} (h : (s.feed x).fault = false) :
    ∃ t, exec (.stageFault x) s = .next t ∧ LoadLost s t x { (s.feed x).off with fault := true } :=
  ⟨_, exec_stageFault h, loadLost_of_stageLost rfl rfl rfl (stagesKept_faultOnTest _ x)⟩

theorem exec_stageFaultClears {s : State} {x : Side} (hf : (s.feed x).fault = true) :
    exec (.stageFaultClears x) s = .next (if !(s.feed x).inRange then s.setFeed x { s.feed x with fault := false }
      else s.stageJoins x { s.feed x with fault := false }) :=
  congrArg Host.Outcome.next (if_neg (by rw [hf]; decide))

theorem exec_feedReturnWaitExpires {s : State} {x : Side} (hw : (s.feed x).waiting = true) (hg : (s.feed x).good = true) :
    exec (.feedReturnWaitExpires x) s =
      .next { s.setFeed x { s.feed x with waiting := false } with pwr.ramping := true } :=
  congrArg Host.Outcome.next (if_pos (by rw [hw, hg]; rfl))

/-! ### Sharing the load -/

/-- Every running stage that does not wait carries its share (R38). -/
theorem share_carrying (s : State) :
    s.share.pwr.a.carrying = (s.pwr.a.good && !s.pwr.a.waiting) ∧ s.share.pwr.b.carrying = (s.pwr.b.good && !s.pwr.b.waiting) := by
  unfold State.share
  dsimp only
  split <;> exact ⟨rfl, rfl⟩

theorem share_rest (s : State) : s.share.pwr.ramping = s.pwr.ramping ∧ s.share.pwr.proof = s.pwr.proof ∧
    s.share.regs = s.regs ∧ s.share.mem = s.mem := by
  unfold State.share
  dsimp only
  split <;> exact ⟨rfl, rfl, rfl, rfl⟩

/-- Where both stages carry the load, `FEED_REDUND` is cleared and the start check is over (R41, R42). -/
theorem share_both {s : State} (ha : s.share.pwr.a.carrying = true) (hb : s.share.pwr.b.carrying = true) :
    s.share.alertBit aFEED_REDUND = false ∧ s.share.pwr.startCheck = false := by
  rw [(share_carrying s).1] at ha
  rw [(share_carrying s).2] at hb
  unfold State.share
  dsimp only
  rw [if_pos (by simp [Power.sharing, ha, hb])]
  exact ⟨State.alertBit_alert_same _ _ _ (by decide), rfl⟩

theorem exec_shareRampComplete {s : State} (h : s.pwr.ramping = true) :
    exec .shareRampComplete s = .next ({ s with pwr.ramping := false }).share := congrArg Host.Outcome.next (if_pos h)

theorem exec_feedRedundStartCheck {s : State} (h : s.pwr.startCheck = true) :
    exec .feedRedundStartCheck s = .next (if s.pwr.sharing then { s with pwr.startCheck := false }
      else ({ s with pwr.startCheck := false }).note evRedundLost 1 0 0) := congrArg Host.Outcome.next (if_pos h)

/-- Settles O1: a feed or a cleared stage joins (`stageJoins`), a stage is lost (`LoadLost`), and the stages share (`share`). -/
theorem feedRows : Obligations.FeedRows := by
  refine ⟨?enterJoins, ?enterAlone, ?enterFaulted, ?leaves, ?faults, ?clears, ?clearsOut, ?waitEnds, ?rampEnds, ?checkFails, ?checkPasses⟩
  case enterJoins =>
    intro s x cv hlo hhi hout hup hf hc
    refine ⟨_, exec_feedEntersRange hlo hhi hout hup, ?_⟩
    rw [hf, if_neg (by decide), stageJoins_carrying (by rw [feedSeen_feed, hc])]
    simp [feedSeen_feed, feedSeen_regs, feedSeen_mem]
  case enterAlone =>
    intro s x cv hlo hhi hout hup hf hc
    refine ⟨_, exec_feedEntersRange hlo hhi hout hup, ?_⟩
    rw [hf, if_neg (by decide)]
    obtain ⟨hfeed, hdom, hother, hmem⟩ := stageJoins_alone (s := s.feedSeen x cv) (by rw [feedSeen_feed, hc]) { s.feed x with inRange := true }
    exact ⟨hfeed, hdom, hother.trans (feedSeen_feed ..), hmem.trans (feedSeen_mem ..)⟩
  case enterFaulted =>
    intro s x cv hlo hhi hout hup hf
    refine ⟨_, exec_feedEntersRange hlo hhi hout hup, ?_⟩
    rw [hf, if_pos rfl]
    simp [feedSeen_feed, feedSeen_regs, feedSeen_mem]
  case leaves =>
    intro s x cv hcv hin
    obtain ⟨t, ht, k, halert⟩ := feedLeavesRange_loadLost hcv hin
    exact ⟨t, ht, k.feed, k.other, halert, k.mem, k.recorded⟩
  case faults =>
    intro s x h
    obtain ⟨t, ht, k⟩ := stageFault_loadLost h
    exact ⟨t, ht, k.feed, k.other, k.mem, k.recorded⟩
  case clears =>
    intro s x hf hin hc
    refine ⟨_, exec_stageFaultClears hf, ?_⟩
    rw [if_neg (by rw [hin]; decide), stageJoins_carrying hc]
    simp
  case clearsOut =>
    intro s x hf hin
    refine ⟨_, exec_stageFaultClears hf, ?_⟩
    rw [if_pos (by rw [hin]; rfl)]
    simp
  case waitEnds =>
    intro s x hw hg
    refine ⟨_, exec_feedReturnWaitExpires hw hg, ?_⟩
    cases x <;> exact ⟨rfl, rfl, rfl, rfl, rfl⟩
  case rampEnds =>
    intro s h
    obtain ⟨hramp, -, hregs, hmem⟩ := share_rest { s with pwr.ramping := false }
    obtain ⟨ha, hb⟩ := share_carrying { s with pwr.ramping := false }
    exact ⟨_, exec_shareRampComplete h, hramp, ha, hb, share_both, hregs, hmem⟩
  case checkFails =>
    intro s h hs
    refine ⟨_, exec_feedRedundStartCheck h, ?_⟩
    rw [hs, if_neg (by decide)]
    exact ⟨by simp, by simp, recorded_note rfl⟩
  case checkPasses =>
    intro s h hs
    exact ⟨_, exec_feedRedundStartCheck h, if_pos hs⟩

end Sys2Proof.Machine
end

section
/-! PROOFS. The proof test's phases, the monitor path, the power cycle that does not come, and the commands of the SMBus. -/

namespace Sys2Proof.Machine
open Sys2Proof Safety

/-! ### The end of the proof test -/

theorem proofOver_pwr (s : State) (p : Proof) (code : Nat) :
    (s.proofOver p code).pwr = { s.pwr with proof := none, proofResult := code } := State.endWork_pwr ..

theorem proofOver_evr (s : State) (p : Proof) (code : Nat) : (s.proofOver p code).evr = s.evr := State.endWork_evr ..

theorem endProof_passed (s : State) (p : Proof) :
    (s.endProof p 1).pwr.proof = none ∧ (s.endProof p 1).pwr.proofResult = 1 ∧ (s.endProof p 1).pwr.suspect = false ∧
      (s.endProof p 1).mem = s.mem ∧ Recorded s (s.endProof p 1) evProofPass 0 0 0 := by
  have hmem := (stagesKept_endProof s p 1).mem
  rw [State.endProof_eq, if_pos rfl] at *
  refine ⟨?_, ?_, ?_, hmem, recorded_note (proofOver_evr s p 1)⟩ <;> simp [proofOver_pwr]

theorem proofFailed_recorded {s e : State} (he : e.evr = s.evr) {p : Proof} (hp : p.failA = true ∨ p.failB = true) (code : Nat) :
    Recorded s (e.proofFailed p code) evProofFail 1 0xA (if p.failA then 0 else 1) := by
  unfold State.proofFailed
  dsimp only
  cases hA : p.failA with
  | true =>
    have h : Recorded s (e.note evProofFail 1 0xA 0 [code, p.load]) evProofFail 1 0xA 0 := recorded_note he
    rw [if_pos rfl, if_pos rfl]
    split
    · exact recorded_more h (State.note_buf_prefix ..)
    · exact h
  | false =>
    have hB : p.failB = true := hp.resolve_left (by rw [hA]; decide)
    rw [hB]
    exact recorded_note he

theorem endProof_failed (s : State) {p : Proof} (hp : p.failA = true ∨ p.failB = true) :
    (s.endProof p 2).pwr.proof = none ∧ (s.endProof p 2).pwr.proofResult = 2 ∧ (s.endProof p 2).pwr.suspect = true ∧
      (s.endProof p 2).alertBit aFEED_SUSPECT = true ∧ (s.endProof p 2).mem = s.mem ∧
      Recorded s (s.endProof p 2) evProofFail 1 0xA (if p.failA then 0 else 1) := by
  have hmem := (stagesKept_endProof s p 2).mem
  obtain ⟨-, -, -, hpwr, -, -⟩ := aside_proofFailed (s.proofOver p 2) p 2
  rw [proofOver_pwr] at hpwr
  rw [State.endProof_eq, if_neg (by decide), if_pos rfl] at *
  refine ⟨?_, ?_, ?_, State.alertBit_alert_same _ _ _ (by decide), hmem, ?_⟩
  · exact congrArg Power.proof hpwr
  · exact congrArg Power.proofResult hpwr
  · rfl
  · exact proofFailed_recorded (proofOver_evr s p 2) hp 2

/-! ### The phases of the proof test -/

/-- What the end of a phase of proof test `p` does, by the phase (R53, R54). -/
def State.phaseEnd (s : State) (p : Proof) (vmin : Nat) (tpk : Int) : ProofPhase → State
  | .rampA => ({ s with pwr.proof := some { p with phase := .holdA } }).carryAlone .a
  | .holdA => { s with pwr.proof := some { p with phase := .returnA, vminA := vmin, tpkA := tpk, failA := p.failA || (decide (vmin < 4600) || decide (1050 < tpk)) } }
  | .returnA => ({ s with pwr.proof := some { p with phase := .waitA } }).share
  | .waitA => { s with pwr.proof := some { p with phase := .rampB } }
  | .rampB => ({ s with pwr.proof := some { p with phase := .holdB } }).carryAlone .b
  | .holdB => { s with pwr.proof := some { p with phase := .returnB, vminB := vmin, tpkB := tpk, failB := p.failB || (decide (vmin < 4600) || decide (1050 < tpk)) } }
  | .returnB => ({ s with pwr.proof := some { p with phase := .waitB } }).share
  | .waitB => s.endProof p p.resultCode

theorem exec_proofTestPhaseEnd {s : State} {p : Proof} {vmin : Nat} {tpk : Int} {x : ProofPhase} (hp : s.pwr.proof = some p)
    (h : p.phase = x) : exec (.proofTestPhaseEnd vmin tpk) s = .next (s.phaseEnd p vmin tpk x) := by
  change execProofTestPhaseEnd vmin tpk s = _
  simp only [execProofTestPhaseEnd, hp, h]
  cases x <;> rfl

/-- The load on one stage alone: the rest of the power unit, the registers and memory are as before (R53). -/
theorem carryAlone_rest (s : State) (x : Side) :
    (s.carryAlone x).pwr.proof = s.pwr.proof ∧ (s.carryAlone x).regs = s.regs ∧ (s.carryAlone x).mem = s.mem := by
  cases x <;> exact ⟨rfl, rfl, rfl⟩

/-- Settles O2: the phases are those of `phaseEnd`, and the test's result is that of `endProof`. -/
theorem powerWatchRows : Obligations.PowerWatchRows := by
  refine ⟨?heartbeat, ?pathSilent, ?rampA, ?holdA, ?returnA, ?waitA, ?rampB, ?holdB, ?returnB, ?passes, ?fails, ?notCycled⟩
  case heartbeat => exact fun s read h => ⟨_, congrArg Host.Outcome.next (if_pos h), rfl, rfl, rfl, rfl, rfl, rfl⟩
  case pathSilent =>
    intro s hdown hseen
    refine ⟨_, congrArg Host.Outcome.next (if_pos (by rw [hdown, hseen]; rfl)), by simp, ?_, by simp, ?_⟩
    · exact State.alertBit_alert_same _ _ _ (by decide)
    · exact recorded_alert (recorded_note rfl)
  case rampA =>
    intro s p vmin tpk hp h
    obtain ⟨hproof, hregs, hmem⟩ := carryAlone_rest { s with pwr.proof := some { p with phase := .holdA } } .a
    exact ⟨_, exec_proofTestPhaseEnd hp h, hproof, rfl, rfl, hregs, hmem⟩
  case rampB =>
    intro s p vmin tpk hp h
    obtain ⟨hproof, hregs, hmem⟩ := carryAlone_rest { s with pwr.proof := some { p with phase := .holdB } } .b
    exact ⟨_, exec_proofTestPhaseEnd hp h, hproof, rfl, rfl, hregs, hmem⟩
  case returnA =>
    intro s p vmin tpk hp h
    obtain ⟨-, hproof, hregs, hmem⟩ := share_rest { s with pwr.proof := some { p with phase := .waitA } }
    obtain ⟨ha, hb⟩ := share_carrying { s with pwr.proof := some { p with phase := .waitA } }
    exact ⟨_, exec_proofTestPhaseEnd hp h, hproof, ha, hb, hregs, hmem⟩
  case returnB =>
    intro s p vmin tpk hp h
    obtain ⟨-, hproof, hregs, hmem⟩ := share_rest { s with pwr.proof := some { p with phase := .waitB } }
    obtain ⟨ha, hb⟩ := share_carrying { s with pwr.proof := some { p with phase := .waitB } }
    exact ⟨_, exec_proofTestPhaseEnd hp h, hproof, ha, hb, hregs, hmem⟩
  case holdA | waitA | holdB => exact fun s p vmin tpk hp h => ⟨_, exec_proofTestPhaseEnd hp h, rfl, rfl, rfl⟩
  case passes =>
    intro s p vmin tpk hp h hA hB
    have hcode : p.resultCode = 1 := by simp [Proof.resultCode, hA, hB]
    refine ⟨_, exec_proofTestPhaseEnd hp h, ?_⟩
    simpa only [State.phaseEnd, hcode] using endProof_passed s p
  case fails =>
    intro s p vmin tpk hp h hf
    have hcode : p.resultCode = 2 := if_pos (by simpa using hf)
    refine ⟨_, exec_proofTestPhaseEnd hp h, ?_⟩
    simpa only [State.phaseEnd, hcode] using endProof_failed s hf
  case notCycled =>
    exact fun s h => ⟨_, congrArg Host.Outcome.next (if_pos h), by simpa using h, by simp, recorded_note rfl⟩

/-- The parts that `note` reaches are the bits of its mask: every part that the list leaves out has its bit clear. -/
theorem note_same_of_unrecorded (s : State) (c v k x : Nat) (p : List Nat) (y : Option Nat) (z : Bool) {q : Part}
    (hq : q ∉ [Part.regs, .evr, .pwr]) : q.same s (s.note c v k x p y z) :=
  (kept_note (keeps_within 0x52 s) (Within.refl _ s)).same q (by revert hq; cases q <;> decide)

/-- Settles O55: the command is one `note`. -/
theorem powerCycleRefused : Obligations.PowerCycleRefused := fun s h =>
  have he : exec .powerCycleNotExecuted s = .next (s.note evPwrcycNot 6 0 0) := congrArg Host.Outcome.next (if_pos h)
  ⟨_, he, recorded_note rfl, by simpa using h, fun _ hp => note_same_of_unrecorded _ _ _ _ _ _ _ _ hp,
    powerCycleNotExecuted_registersKept he⟩

/-! ### The SMBus -/

/-- A sensor word is what the sensor measures at that moment, a free value. -/
theorem smbReply_measure (s u : State) (code : Nat) :
    (u.smbReply code s.measure).out = u.out ++ [Output.smb code (Config.sensor s.free % 0x10000)] := by
  simp [State.smbReply, State.measure]

/-- `ALERT_CLEAR` reaches the alert bits alone. -/
theorem clearAlerts_rest (s : State) (m : Nat) :
    (s.clearAlerts m).regs = s.regs ∧ (s.clearAlerts m).mem = s.mem ∧ (s.clearAlerts m).out = s.out := by
  unfold State.clearAlerts
  rw [State.clear_frame]
  exact ⟨rfl, rfl, rfl⟩

/-- A bit is cleared where the mask names it and its cause has ended. -/
theorem clearAlerts_alertBit (s : State) (m : Nat) {n : Nat} (hn : n < 10) :
    (s.clearAlerts m).alertBit n = (s.alertBit n && !(bitOf m n && !s.alertCause n)) := by
  unfold State.clearAlerts
  rw [State.alertBit_clear m n (by omega) (List.range 10) (fun k hk => by have := List.mem_range.mp hk; omega),
    decide_eq_true (List.mem_range.mpr hn), Bool.true_and]

/-- A request starts the proof test where both feeds are in range and healthy and no test runs (R52). -/
theorem startProof_ready {s : State} (ha : s.pwr.a.good = true) (hb : s.pwr.b.good = true) (hp : s.pwr.proof = none)
    (ticket : Option Nat) : ∃ t, s.startProof ticket = some t ∧ t.pwr.proofResult = 5 ∧
      (t.pwr.proof.map fun p => (p.phase, p.ticket, p.failA, p.failB)) = some (.rampA, ticket, false, false) ∧
      t.regs = s.regs ∧ t.mem = s.mem :=
  ⟨_, if_pos (by simp [ha, hb, hp]), rfl, rfl, rfl, rfl⟩

theorem startProof_unready {s : State} (h : s.pwr.a.good = false ∨ s.pwr.b.good = false ∨ s.pwr.proof.isNone = false)
    (ticket : Option Nat) : s.startProof ticket = none := by
  refine if_neg ?_
  rcases h with h | h | h <;> simp [h]

/-- Settles O3: the reads put out their words, `ALERT_CLEAR` is `clearAlerts`, and `PROOF_TEST` is `startProof`. -/
theorem smbusRows : Obligations.SmbusRows := by
  refine ⟨?status, ?hbCount, ?result, ?reason, ?av, ?ai, ?bv, ?bi, ?power, ?inlet, ?outlet, ?maskWrite, ?maskRead, ?clearKeeps,
    ?clears, ?proofStarts, ?proofRejected, ?unknown, ?answered, ?otherValue, ?badPec, ?unanswered⟩
  case status | hbCount | result => exact fun s => ⟨_, rfl, rfl, rfl, rfl⟩
  case reason =>
    intro s
    refine ⟨_, rfl, ?_, rfl, rfl⟩
    simp only [State.smbReply, State.emit_out]
    rw [Nat.mod_eq_of_lt (by omega : s.pwr.pwrcycReason % 256 < 0x10000)]
  case av | ai | bv | bi | power | inlet | outlet => exact fun s => ⟨_, rfl, smbReply_measure s _ _, rfl, rfl, rfl, rfl⟩
  case maskWrite => exact fun s v => ⟨_, rfl, rfl, rfl, rfl, rfl⟩
  case maskRead => exact fun s v pec => ⟨_, rfl, rfl, rfl, rfl⟩
  case clearKeeps =>
    intro s m n hn hm
    exact ⟨_, rfl, (clearAlerts_alertBit s m hn).trans (by simp [hm]), clearAlerts_rest s m⟩
  case clears =>
    intro s m n hn hm hc
    exact ⟨_, rfl, (clearAlerts_alertBit s m hn).trans (by simp [hm, hc]), clearAlerts_rest s m⟩
  case proofStarts =>
    intro s ha hb hp
    obtain ⟨t, ht, h⟩ := startProof_ready ha hb hp none
    exact ⟨t, congrArg (fun o : Option State => Host.Outcome.next (o.getD { s with pwr.proofResult := 3 })) ht, h⟩
  case proofRejected =>
    intro s h
    exact ⟨_, congrArg (fun o : Option State => Host.Outcome.next (o.getD { s with pwr.proofResult := 3 })) (startProof_unready h none),
      rfl, rfl, rfl, rfl⟩
  case unknown => exact fun s c => ⟨_, rfl, rfl, rfl, rfl⟩
  case answered => exact fun s h => ⟨_, congrArg Host.Outcome.next (if_pos h), rfl, rfl, rfl⟩
  case otherValue => exact fun s v h => congrArg Host.Outcome.next (if_neg h)
  case badPec => exact fun s v => ⟨rfl, rfl, rfl⟩
  case unanswered => exact fun s h => congrArg Host.Outcome.next (if_neg (by rw [h]; decide))

end Sys2Proof.Machine
end

section
/-! PROOFS. The references, the CXL pins and the boundary-scan instructions. -/

namespace Sys2Proof.Machine
open Sys2Proof Safety

/-! ### References -/

theorem exec_trefLost {s : State} (ht : s.blk.trefOk = true) (ho : s.blk.oscOk = true) :
    exec .trefLost s = .next (((({ s with blk.trefOk := false }).wr F.ID_PWR_STATE.REF_SRC 1).alert aTREF_LOST true).note evTrefLost 1 0 0) :=
  congrArg Host.Outcome.next (if_pos (by rw [ht, ho]; rfl))

theorem exec_referencesLost {s : State} (h : s.blk.noRef = false) :
    exec .referencesLost s = .next (((({ s with blk.trefOk := false, blk.oscOk := false, blk.noRef := true }).wr F.TIM_STATUS.COARSE 1).wr
      F.PTH_STATUS.NO_REF 1).note evTimCoarse 5 0 0) := congrArg Host.Outcome.next (if_neg (by rw [h]; decide))

/-- What a reference that qualifies after both were lost leaves: neither `COARSE` nor `NO_REF`, and the memory and the path
core as they were (R111, R595). -/
theorem referenceBack_rest {s : State} (h : s.blk.noRef = true) (tref : Bool) :
    (s.referenceBack tref).blk.noRef = false ∧ (s.referenceBack tref).rd F.TIM_STATUS.COARSE = 0 ∧
      (s.referenceBack tref).rd F.PTH_STATUS.NO_REF = 0 ∧ (s.referenceBack tref).mem = s.mem ∧
      (s.referenceBack tref).path = s.path := by
  unfold State.referenceBack
  rw [if_pos h]
  refine ⟨rfl, ?_, State.rd_wr_lit _ _ _ _ (by decide) (by decide), ?_, ?_⟩
  · rw [State.rd_wr_apart _ _ _ _ _ _ (by decide) (by decide)]
    exact State.rd_wr_lit _ _ _ _ (by decide) (by decide)
  all_goals cases tref <;> rfl

/-- `TREF` is used where it qualified, and the oscillator where that did. -/
theorem referenceBack_source {s : State} (h : s.blk.noRef = true) (tref : Bool) :
    (s.referenceBack tref).rd F.ID_PWR_STATE.REF_SRC = (if tref then 0 else 1) ∧
      (if tref then (s.referenceBack tref).blk.trefOk else (s.referenceBack tref).blk.oscOk) = true := by
  unfold State.referenceBack
  rw [if_pos h]
  cases tref
  all_goals
    refine ⟨?_, rfl⟩
    rw [State.rd_wr_apart _ _ _ _ _ _ (by decide) (by decide), State.rd_wr_apart _ _ _ _ _ _ (by decide) (by decide)]
    exact State.rd_wr_lit _ _ _ _ (by decide) (by decide)

/-! ### The CXL port -/

/-- A configuration request to a ready port is served, and one to a port that is not yet configured is answered with retry
(R657). -/
theorem exec_cxlConfigRequest {s : State} (h : s.pwr.perstLow = false) (off v : Nat) (w : Bool) :
    exec (.cxlConfigRequest off w v) s = .next (if s.cxlReady then
        (if w then { s.tick with pwr.cxlCfg := kset s.pwr.cxlCfg off (v % 2 ^ 32) }
        else s.tick.emit (.cxlConfig (kget s.pwr.cxlCfg off ((Config.word s.tick.free).toNat % 2 ^ 32))))
      else s.tick.emit .cxlRetry) := congrArg Host.Outcome.next (if_neg (by rw [h]; decide))

/-- A ready port is out of reset. -/
theorem perst_high_of_cxlReady {s : State} (h : s.cxlReady = true) : s.pwr.perstLow = false := by
  unfold State.cxlReady at h
  cases hp : s.pwr.perstLow with
  | false => rfl
  | true => simp [hp] at h

theorem exec_cxlConfigRead {s : State} (h : s.cxlReady = true) (off v : Nat) :
    exec (.cxlConfigRequest off false v) s =
      .next (s.tick.emit (.cxlConfig (kget s.pwr.cxlCfg off ((Config.word s.tick.free).toNat % 2 ^ 32)))) :=
  (exec_cxlConfigRequest (perst_high_of_cxlReady h) off v false).trans (congrArg Host.Outcome.next (if_pos h))

/-! ### Boundary scan -/

/-- Under a debug unlock in `TEST` mode the shifted boundary register goes out (R76, R78). -/
theorem tapTest_unlocked {s : State} (hd : s.rd F.SEC_STATUS.DEBUG = 1) (hm : s.rd F.RST_STATUS.MODE = mTEST) (scan : Nat)
    (i : TapInstr) (n : Nat) : s.tapTest scan i n =
      ({ s with pwr.tap := i, pwr.boundary := scan % 2 ^ 128 }).emit (.tap n (scan % 2 ^ 128)) :=
  if_pos (by simp [State.unlocked, State.flag, State.mode, hd, hm])

/-- Otherwise the instruction acts as BYPASS. -/
theorem tapTest_locked {s : State} (h : s.rd F.SEC_STATUS.DEBUG ≠ 1 ∨ s.rd F.RST_STATUS.MODE ≠ mTEST) (scan : Nat)
    (i : TapInstr) (n : Nat) : s.tapTest scan i n = ({ s with pwr.tap := .bypass }).emit (.tap 0 0) :=
  if_neg (by rcases h with h | h <;> simp [State.unlocked, State.flag, State.mode, h])

/-- Settles O5: the references by `referenceBack`, the port by `exec_cxlConfigRequest`, the scan by `tapTest`. -/
theorem referenceAndPinRows : Obligations.ReferenceAndPinRows := by
  refine ⟨?trefLost, ?trefLostAgain, ?trefRestored, ?bothLost, ?trefBack, ?oscBack, ?perst, ?cfgWrite, ?cfgRead, ?cfgReadFree,
    ?cfgRetry, ?bypass, ?idcode, ?extest, ?extestLocked, ?intest, ?intestLocked, ?other, ?otherLocked⟩
  case trefLost =>
    intro s ht ho
    refine ⟨_, exec_trefLost ht ho, by simp, ?_, ?_, by simp, recorded_note rfl⟩
    · rw [State.rd_note _ _ _ _ _ _ _ _ _ _ (by decide), State.rd_alert]
      exact State.rd_wr_lit _ _ _ _ (by decide) (by decide)
    · rw [State.note_alertBit _ _ _ _ _ _ _ _ _ (by decide)]
      exact State.alertBit_alert_same _ _ _ (by decide)
  case trefLostAgain =>
    exact fun s h => congrArg Host.Outcome.next (if_neg (by rcases h with h | h <;> simp [h]))
  case trefRestored =>
    intro s h
    exact ⟨_, congrArg Host.Outcome.next (if_neg (by rw [h]; decide)), rfl, State.rd_wr_lit _ _ _ _ (by decide) (by decide), rfl, rfl⟩
  case bothLost =>
    intro s h
    refine ⟨_, exec_referencesLost h, by simp, ?_, ?_, by simp, recorded_note rfl⟩
    · rw [State.rd_note _ _ _ _ _ _ _ _ _ _ (by decide), State.rd_wr_apart _ _ _ _ _ _ (by decide) (by decide)]
      exact State.rd_wr_lit _ _ _ _ (by decide) (by decide)
    · rw [State.rd_note _ _ _ _ _ _ _ _ _ _ (by decide)]
      exact State.rd_wr_lit _ _ _ _ (by decide) (by decide)
  case trefBack =>
    intro s h
    obtain ⟨hno, hcoarse, hnoref, hmem, hpath⟩ := referenceBack_rest h true
    obtain ⟨hsrc, hok⟩ := referenceBack_source h true
    exact ⟨_, rfl, hno, hok, hsrc, hcoarse, hnoref, hmem, hpath⟩
  case oscBack =>
    intro s h
    obtain ⟨hno, hcoarse, hnoref, hmem, hpath⟩ := referenceBack_rest h false
    obtain ⟨hsrc, hok⟩ := referenceBack_source h false
    exact ⟨_, rfl, hno, hok, hsrc, hcoarse, hnoref, hmem, hpath⟩
  case perst => exact fun s h => ⟨_, congrArg Host.Outcome.next (if_pos h), rfl, rfl, rfl, rfl, rfl⟩
  case cfgWrite =>
    intro s off v h
    refine ⟨_, (exec_cxlConfigRequest (perst_high_of_cxlReady h) off v true).trans (congrArg Host.Outcome.next (if_pos h)), ?_, rfl, rfl, rfl⟩
    exact kget_kset_same _ _ _ _
  case cfgRead =>
    intro s off v w h hw
    refine ⟨_, exec_cxlConfigRead h off v, ?_, rfl, rfl, rfl⟩
    rw [State.emit_out, kget, hw]
    rfl
  case cfgReadFree =>
    intro s off v h hw
    refine ⟨_, (Config.word s.tick.free).toNat % 2 ^ 32, exec_cxlConfigRead h off v, ?_, Nat.mod_lt _ (by decide), rfl, rfl, rfl⟩
    rw [State.emit_out, kget, hw]
    rfl
  case cfgRetry =>
    intro s off v w hp h
    exact ⟨_, (exec_cxlConfigRequest hp off v w).trans (congrArg Host.Outcome.next (if_neg (by rw [h]; decide))), rfl, rfl, rfl, rfl⟩
  case bypass | idcode => exact fun s => ⟨_, rfl, rfl, rfl, rfl, rfl⟩
  case extest | intest =>
    exact fun s scan hd hm => ⟨_, congrArg Host.Outcome.next (tapTest_unlocked hd hm scan _ _), rfl, rfl, rfl, rfl, rfl⟩
  case extestLocked | intestLocked =>
    exact fun s scan h => ⟨_, congrArg Host.Outcome.next (tapTest_locked h scan _ _), rfl, rfl, rfl, rfl⟩
  case other => exact fun s c h => ⟨_, congrArg Host.Outcome.next (if_pos (decide_eq_true h)), rfl, rfl, rfl, rfl⟩
  case otherLocked =>
    exact fun s c h => ⟨_, congrArg Host.Outcome.next (if_neg (by simpa [State.unlocked, State.flag] using h)), rfl, rfl, rfl, rfl⟩

end Sys2Proof.Machine
end

section
/-! PROOFS. Gating, overheating and waking of quarters, and `DORMANT`. -/

namespace Sys2Proof.Machine
open Sys2Proof Safety

/-! ### The cores of a quarter -/

/-- Changing each core of a list once changes those cores, each by itself. -/
theorem core_foldl_setCore (f : Core → Core) (l : List Nat) (hl : l.Nodup) (s : State) (c : Nat) :
    (l.foldl (fun (s : State) c => s.setCore c (f (s.core c))) s).core c = if c ∈ l then f (s.core c) else s.core c := by
  induction l generalizing s with
  | nil => rfl
  | cons d l ih =>
    obtain ⟨hd, hl⟩ := List.nodup_cons.mp hl
    rw [List.foldl_cons, ih hl]
    by_cases e : d = c
    · subst e
      rw [if_neg hd, if_pos List.mem_cons_self, State.core_setCore]
    · rw [State.core_setCore_ne _ _ _ _ e]
      simp [Ne.symm e]

theorem quarterCores_nodup (q : Nat) : (quarterCores q).Nodup :=
  List.Pairwise.map _ (fun a b hne (h : q * 72 + a = q * 72 + b) => hne (by omega)) List.nodup_range

theorem core_mapQuarter (s : State) {q c : Nat} (f : Core → Core) (h : c ∈ quarterCores q) :
    (s.mapQuarter q f).core c = f (s.core c) :=
  (core_foldl_setCore f _ (quarterCores_nodup q) s c).trans (if_pos h)

/-- Changing the cores of a quarter reaches no other part. -/
theorem within_mapQuarter (s : State) (q : Nat) (f : Core → Core) : Within 0x400 s (s.mapQuarter q f) :=
  kept_mapQuarter (keeps_within _ s) (Within.refl _ s)

/-! ### Gating, overheating and waking -/

section
variable {s : State} {q : Nat}

/-- A quarter whose gate is complete: its cores have lost what a power gate takes (R100). -/
def State.gateDone (s : State) (q : Nat) : State :=
  ((s.setQuarter q { s.quarter q with gating := false }).mapQuarter q Core.loseLogic).setGated q true

theorem gateDone_rest (s : State) (q : Nat) : ((s.gateDone q).quarter q).gating = false ∧
    (∀ c ∈ quarterCores q, (s.gateDone q).core c = (s.core c).loseLogic) ∧ (s.gateDone q).mem = s.mem ∧ (s.gateDone q).out = s.out := by
  have hmap := within_mapQuarter (s.setQuarter q { s.quarter q with gating := false }) q Core.loseLogic
  unfold State.gateDone
  refine ⟨?_, fun c hc => ?_, ?_, ?_⟩
  · rw [State.setGated_quarter, quarter_of_blk (hmap.same .blk rfl), quarter_setQuarter]
  · exact (congrArg (fun m => kget m c Core.init) (State.setGated_cores ..)).trans (core_mapQuarter _ _ hc)
  · exact (State.setGated_mem ..).trans (hmap.same .mem rfl)
  · exact (State.setGated_out ..).trans (hmap.same .out rfl)

theorem exec_quarterGate (hq : q < 4) (hg : s.gated q = false) (hr : (s.quarter q).inReset = false)
    (hquiet : s.quarterQuiet q = true) (finished : Bool) :
    exec (.quarterGate q finished) s = .next (if finished then s.gateDone q
      else s.setQuarter q { s.quarter q with gating := true }) := by
  refine (congrArg Host.Outcome.next (if_pos ⟨hq, by simp [hg], by simp [hr], hquiet⟩)).trans ?_
  cases finished <;> simp [State.gateDone]

/-- A quarter that loses its supply at 110 °C, before the event goes on record (R101). -/
def State.overheated (s : State) (q : Nat) : State :=
  let u := ((s.mapQuarter q fun k => { k.restart with gate := .power, waiting := k.waiting }).setGated q true).cutSram q
  u.setQuarter q { u.quarter q with outOfSvc := true, gating := false }

theorem overheated_rest (s : State) (q : Nat) :
    (s.overheated q).mem = memZero (memZero s.mem (coreStoreBase (q * 72)) (72 * 0x600000)) (quarterStoreBase q) 0x5000000 ∧
      (s.overheated q).out = s.out ∧ (s.overheated q).evr = s.evr := by
  have h := within_mapQuarter s q fun k => { k.restart with gate := .power, waiting := k.waiting }
  refine ⟨?_, (State.setGated_out ..).trans (h.same .out rfl), (State.setGated_evr ..).trans (h.same .evr rfl)⟩
  exact congrArg (fun m => memZero (memZero m _ _) _ _) ((State.setGated_mem ..).trans (h.same .mem rfl))

theorem exec_quarterOverheatGate {j : Int} (hq : q < 4) (hj : 1100 ≤ j)
    (h : s.gated q = false ∨ bitOf (s.rd F.ID_PWR_STATE.Q_SRAM_OFF) q = false) :
    exec (.quarterOverheatGate q j) s = .next ((s.overheated q).record evOverheat 4 2 q [q, ofSigned 16 j]) :=
  congrArg Host.Outcome.next (if_pos ⟨hq, hj, by rcases h with h | h <;> simp [h]⟩)

theorem exec_quarterWake (hq : q < 4) (a : Option MemReq) :
    exec (.quarterWake q a) s = .next (if (s.quarter q).inReset then s.refuseWaiting a.toList
      else if s.dozing q then s.wakeFor q a.toList else a.toList.foldl State.afterWake s) :=
  congrArg Host.Outcome.next (if_neg (by omega))

/-- A waking quarter that is ungated again, with the ceiling and the guardband that wait, and nothing waiting (R102). -/
def State.quarterUp (s : State) (q : Nat) : State :=
  let v := s.quarter q
  let u := s.setQuarter q { v with
    waking := false, waiting := [], ceiling := v.ceilNext, guardMv := v.guardNext, mhz := min v.mhz v.ceilNext }
  if u.gated q then u.setGated q false else u

theorem quarterUp_gated (s : State) (hq : q < 4) : (s.quarterUp q).gated q = false := by
  unfold State.quarterUp
  dsimp only
  split
  case isTrue => exact gated_setGated _ _ _ hq
  case isFalse h => exact Bool.eq_false_iff.mpr h

theorem quarterUp_rest (s : State) (q : Nat) :
    (s.quarterUp q).quarter q = { s.quarter q with
        waking := false, waiting := [], ceiling := (s.quarter q).ceilNext, guardMv := (s.quarter q).guardNext,
        mhz := min (s.quarter q).mhz (s.quarter q).ceilNext } ∧
      (s.quarterUp q).mem = s.mem ∧ (s.quarterUp q).cores = s.cores := by
  unfold State.quarterUp
  dsimp only
  split
  · rw [State.setGated_quarter, State.setGated_mem, State.setGated_cores]
    exact ⟨quarter_setQuarter .., rfl, rfl⟩
  · exact ⟨quarter_setQuarter .., rfl, rfl⟩

theorem exec_quarterReady (hq : q < 4) (hw : (s.quarter q).waking = true) (hr : (s.quarter q).inReset = false)
    (ho : (s.quarter q).outOfSvc = false) (hc : s.pwr.coolStop = false) :
    exec (.quarterReady q) s = .next (((quarterCores q).filter fun c =>
      !(((s.quarter q).waiting.foldl State.afterWake (s.quarterUp q)).core c).zeroing &&
        !(((s.quarter q).waiting.foldl State.afterWake (s.quarterUp q)).core c).reserved.isEmpty).foldl State.startReserved
          ((s.quarter q).waiting.foldl State.afterWake (s.quarterUp q))) :=
  congrArg Host.Outcome.next (if_neg (by simp [hw, hr, ho, hc]; omega))

end

/-! ### `DORMANT` -/

/-- The wavelength-0 lanes of a list of ports go dark; every other lane is as it was. -/
theorem rd_darkLanes (l : List Nat) (s : State) (p : Nat) :
    (l.foldl (fun (s : State) p => s.setLaneState (w0Lane p) lsDARK) s).rd F.LNK_LANE.STATE (w0Lane p) =
      if p ∈ l then lsDARK else s.rd F.LNK_LANE.STATE (w0Lane p) := by
  induction l generalizing s with
  | nil => rfl
  | cons r l ih =>
    rw [List.foldl_cons, ih]
    by_cases e : r = p
    · subst e
      rw [if_pos List.mem_cons_self]
      refine (ite_congr rfl (fun _ => rfl) fun _ => ?_).trans (ite_self _)
      exact State.rd_wr_lit _ _ _ _ (by decide) (by decide)
    · have hne : w0Lane r ≠ w0Lane p := fun h => e (Nat.add_left_cancel h)
      rw [show (s.setLaneState (w0Lane r) lsDARK).rd F.LNK_LANE.STATE (w0Lane p) = s.rd F.LNK_LANE.STATE (w0Lane p) from
        State.rd_wr_other _ _ _ _ _ (by decide) hne]
      simp [Ne.symm e]

/-- A register that holds none of those lanes' states is as it was. -/
theorem rd_darkLanes_off (l : List Nat) (s : State) (g : Fld) (h : ∀ p ∈ l, Reg.off .LNK_LANE (w0Lane p) ≠ g.reg.off 0) :
    (l.foldl (fun (s : State) p => s.setLaneState (w0Lane p) lsDARK) s).rd g = s.rd g := by
  induction l generalizing s with
  | nil => rfl
  | cons r l ih =>
    exact (ih _ fun p hp => h p (List.mem_cons_of_mem _ hp)).trans (State.rd_wr_off _ _ _ _ _ _ (h r List.mem_cons_self))

theorem within_darkLanes (l : List Nat) (s : State) :
    Within 0x2 s (l.foldl (fun (s : State) p => s.setLaneState (w0Lane p) lsDARK) s) :=
  kept_foldl (Within.refl _ s) fun _ _ h => kept_setLaneState (keeps_within _ s) h

/-- The state in which the entry to `DORMANT` is complete: the loop engine stopped, the wavelength-0 lanes dark (R104, R107). -/
def State.intoDormant (s : State) : State :=
  (List.range 24).foldl (fun (s : State) p => s.setLaneState (w0Lane p) lsDARK)
    ((({ s with blk.entering := false, blk.lattice := false, blk.ioHold := true, blk.selfRef := true }).wr
      F.ID_PWR_STATE.MOD_STATE 2).wr F.HCE_STATUS.RUN 0)

theorem exec_dormantEntry {s : State} (h : s.dormantOk = true) (finished : Bool) :
    exec (.dormantEntry finished) s = .next (if finished then s.intoDormant else { s with blk.entering := true }) :=
  congrArg Host.Outcome.next (if_pos h)

theorem intoDormant_regs (s : State) : s.intoDormant.rd F.ID_PWR_STATE.MOD_STATE = 2 ∧ s.intoDormant.rd F.HCE_STATUS.RUN = 0 ∧
    ∀ p < 24, s.intoDormant.rd F.LNK_LANE.STATE (w0Lane p) = lsDARK := by
  have hoff : ∀ g : Fld, g.reg = .ID_PWR_STATE ∨ g.reg = .HCE_STATUS →
      ∀ p ∈ List.range 24, Reg.off .LNK_LANE (w0Lane p) ≠ g.reg.off 0 := by
    intro g hg p hp
    have hp := List.mem_range.mp hp
    rcases hg with hg | hg <;> simp only [hg, Reg.off, Reg.desc, w0Lane] <;> omega
  refine ⟨?_, ?_, fun p hp => ?_⟩
  · refine (rd_darkLanes_off _ _ _ (hoff _ (.inl rfl))).trans ?_
    rw [State.rd_wr_apart _ _ _ _ _ _ (by decide) (by decide)]
    exact State.rd_wr_lit _ _ _ _ (by decide) (by decide)
  · exact (rd_darkLanes_off _ _ _ (hoff _ (.inr rfl))).trans (State.rd_wr_lit _ _ _ _ (by decide) (by decide))
  · exact (rd_darkLanes _ _ p).trans (if_pos (List.mem_range.mpr hp))

theorem intoDormant_rest (s : State) :
    s.intoDormant.blk = { s.blk with entering := false, lattice := false, ioHold := true, selfRef := true } ∧
      s.intoDormant.mem = s.mem := by
  unfold State.intoDormant
  have hblk := (within_darkLanes (List.range 24) ((({ s with
    blk.entering := false, blk.lattice := false, blk.ioHold := true, blk.selfRef := true }).wr
      F.ID_PWR_STATE.MOD_STATE 2).wr F.HCE_STATUS.RUN 0)).same .blk rfl
  have hmem := (within_darkLanes (List.range 24) ((({ s with
    blk.entering := false, blk.lattice := false, blk.ioHold := true, blk.selfRef := true }).wr
      F.ID_PWR_STATE.MOD_STATE 2).wr F.HCE_STATUS.RUN 0)).same .mem rfl
  simp only [Part.same] at hblk hmem
  rw [hblk, hmem]
  exact ⟨rfl, rfl⟩

/-- A dormant module becomes `IDLE` and exiting, supplied again (R106, R107). -/
theorem leaveDormant_dormant {s : State} (h : s.rd F.ID_PWR_STATE.MOD_STATE = 2) :
    s.leaveDormant.rd F.ID_PWR_STATE.MOD_STATE = 1 ∧ s.leaveDormant.blk.exiting = true ∧ s.leaveDormant.blk.lattice = true ∧
      s.leaveDormant.blk.ioHold = false ∧ s.leaveDormant.blk.selfRef = false ∧ s.leaveDormant.mem = s.mem ∧
      s.leaveDormant.out = s.out := by
  unfold State.leaveDormant
  rw [if_pos h]
  exact ⟨State.rd_wr_lit _ _ _ _ (by decide) (by decide), rfl, rfl, rfl, rfl, rfl, rfl⟩

/-- Elsewhere an entry in progress is aborted, and nothing else happens (R108). -/
theorem leaveDormant_awake {s : State} (h : s.rd F.ID_PWR_STATE.MOD_STATE ≠ 2) :
    s.leaveDormant = { s with blk.entering := false } := by
  unfold State.leaveDormant
  rw [if_neg h]
  cases he : s.blk.entering with
  | true => rfl
  | false => exact congrArg (fun b => ({ s with blk.entering := b } : State)) he

/-- Settles O6: gating by `gateDone`, overheating by `overheated`, waking by `quarterUp`, and `DORMANT` by
`intoDormant` and `leaveDormant`. -/
theorem quarterPowerRows : Obligations.QuarterPowerRows := by
  refine ⟨?gated, ?gating, ?busy, ?overheats, ?wakes, ?awake, ?turnedAway, ?ready, ?entry, ?entering, ?noEntry, ?exit, ?wakePattern,
    ?aborts, ?exitReady⟩
  case gated =>
    intro s q hq hg hr hquiet
    exact ⟨_, exec_quarterGate hq hg hr hquiet true, gated_setGated _ _ _ hq, gateDone_rest s q⟩
  case gating => exact fun s q hq hg hr hquiet => exec_quarterGate hq hg hr hquiet false
  case busy =>
    intro s q f h
    refine congrArg Host.Outcome.next (if_neg ?_)
    rintro ⟨-, hg, hr, hquiet⟩
    rcases h with h | h | h <;> simp_all
  case overheats =>
    intro s q j hq hj h
    obtain ⟨hmem, hout, hevr⟩ := overheated_rest s q
    refine ⟨_, exec_quarterOverheatGate hq hj h, ?_, ?_, (State.record_mem ..).trans hmem, (State.record_out ..).trans hout,
      recorded_record hevr⟩
    all_goals
      rw [quarter_of_blk (State.record_blk ..)]
      unfold State.overheated
      rw [quarter_setQuarter]
  case wakes =>
    intro s q a hq hd hr
    refine ⟨s.wakeFor q a.toList, ?_, ?_⟩
    · rw [exec_quarterWake hq a, hr, hd]
      rfl
    · unfold State.wakeFor
      rw [quarter_setQuarter]
      exact ⟨rfl, rfl, rfl, rfl, rfl⟩
  case awake =>
    intro s q a hq hd hr
    rw [exec_quarterWake hq a, hr, hd]
    rfl
  case turnedAway =>
    intro s q a hq hr
    rw [exec_quarterWake hq a, hr]
    rfl
  case ready =>
    intro s q hq hw hr ho hc
    obtain ⟨hquarter, hmem, hcores⟩ := quarterUp_rest s q
    refine ⟨s.quarterUp q, _, exec_quarterReady hq hw hr ho hc, rfl, quarterUp_gated s hq, ?_⟩
    rw [hquarter]
    exact ⟨rfl, rfl, rfl, Nat.min_le_right _ _, hmem, hcores⟩
  case entry =>
    intro s h
    obtain ⟨hmod, hrun, hdark⟩ := intoDormant_regs s
    obtain ⟨hblk, hmem⟩ := intoDormant_rest s
    refine ⟨_, exec_dormantEntry h true, hmod, hrun, hdark, ?_⟩
    rw [if_pos rfl, hblk]
    exact ⟨rfl, rfl, rfl, rfl, hmem⟩
  case entering => exact fun s h => exec_dormantEntry h false
  case noEntry => exact fun s f h => congrArg Host.Outcome.next (if_neg (by rw [h]; decide))
  case exit => exact fun s c h => ⟨_, rfl, leaveDormant_dormant h⟩
  case wakePattern => exact fun s p h => ⟨_, rfl, leaveDormant_dormant h⟩
  case aborts =>
    intro s c p h
    exact ⟨congrArg Host.Outcome.next (leaveDormant_awake h), congrArg Host.Outcome.next (leaveDormant_awake h)⟩
  case exitReady => exact fun s h => congrArg Host.Outcome.next (if_pos h)

end Sys2Proof.Machine
end

section
/-! PROOFS. The mailbox's services: contexts, path requests, the proof test, reset requests, evacuation, and the changes that two
key holders authorise. -/

namespace Sys2Proof.Machine
open Sys2Proof Safety

/-! ### Path requests -/

/-- A path request with a legal list is accepted, and its list is opened (R503 to R505). -/
theorem pathReq_legal {s : State} {q : Req} {op n : Nat} (h : s.taking 0x0400 = some q) (hop : leAt q.payload 0 1 = op)
    (hlo : 1 ≤ leAt q.payload 16 2) (hhi : leAt q.payload 16 2 ≤ 512) (halign : leAt q.payload 8 8 % 32 = 0)
    (hlocal : s.isLocalAddr (leAt q.payload 8 8) = true)
    (hfits : bitsOf (leAt q.payload 8 8) 41 0 + 32 * leAt q.payload 16 2 ≤ generalUse) (hfree : s.freeTicket = some n) :
    s.pathReq op = (accepted s 0x0400 n).openList ⟨.mailbox n, op, leAt q.payload 24 6, bitsOf (leAt q.payload 8 8) 41 0,
      readRequests (s.memRead (bitsOf (leAt q.payload 8 8) 41 0) (32 * leAt q.payload 16 2)), false⟩ := by
  unfold State.pathReq
  rw [State.serve_taking h, if_neg (not_not_intro hop), if_neg (by simp [halign, hlocal]; omega)]
  exact State.accept_free hfree _ _

/-! ### Reset requests -/

section
variable {s : State} {q : Req} {step : Nat}

/-- A legal reset request with no greater action at work is accepted, and its action is called (R687). -/
theorem resetReq_legal {n : Nat} (h : s.taking 0x0900 = some q) (hstep : leAt q.payload 0 1 = step) (hbad : s.resetBad q.payload = false)
    (hlock : step = 5 → leAt q.payload 2 1 ≠ 1 ∨ s.unlocked = true) (hbig : s.bigAction = false) (hfree : s.freeTicket = some n) :
    s.resetReq step = (accepted s 0x0900 n).endHold.requestAction (resetAction q.payload n) := by
  have hauth : ¬ (step = 5 ∧ leAt q.payload 2 1 = 1 ∧ (!s.unlocked) = true) := by
    rintro ⟨h5, h1, hu⟩
    rcases hlock h5 with h | h
    · exact h h1
    · rw [h] at hu
      exact absurd hu (by decide)
  unfold State.resetReq
  rw [State.serve_taking h, if_neg (not_not_intro hstep), hbad, if_neg (by decide), if_neg hauth, hbig, if_neg (by decide)]
  exact State.accept_free hfree _ _

theorem resetReq_bad (h : s.taking 0x0900 = some q) (hstep : leAt q.payload 0 1 = step) (hbad : s.resetBad q.payload = true) :
    s.resetReq step = s.answer stPOLICY := by
  unfold State.resetReq
  rw [State.serve_taking h, if_neg (not_not_intro hstep), if_pos hbad]

/-- The test mode is closed to a module that no debug unlock opened (R687). -/
theorem resetReq_locked (h : s.taking 0x0900 = some q) (hstep : leAt q.payload 0 1 = 5) (hbad : s.resetBad q.payload = false)
    (hmode : leAt q.payload 2 1 = 1) (hlock : s.unlocked = false) : s.resetReq 5 = s.answer stAUTH := by
  unfold State.resetReq
  rw [State.serve_taking h, if_neg (not_not_intro hstep), hbad, if_neg (by decide), if_pos ⟨rfl, hmode, by rw [hlock]; rfl⟩]

end

/-- Settles O30: every service acts on the request that it takes (`serve_taking`), and its work on the lowest free ticket
(`accept_free`). -/
theorem serviceRows : Obligations.ServiceRows := by
  refine ⟨?created, ?refused, ?removed, ?unknown, ?setup, ?teardown, ?recable, ?query, ?proof, ?proofRejected, ?engine, ?partition,
    ?chip, ?cycle, ?locked, ?badTarget, ?evacuates, ?evacuating, ?clears, ?evacEnds⟩
  case created =>
    intro s q slot h hst hslot
    refine congrArg Host.Outcome.next ((State.serve_taking h _).trans ?_)
    dsimp only
    rw [hst]
    dsimp only
    rw [hslot]
  case refused =>
    intro s q st h hst
    refine congrArg Host.Outcome.next ((State.serve_taking h _).trans ?_)
    dsimp only
    rw [hst]
  case removed =>
    intro s q slot n h hslot hnone hfree
    refine congrArg Host.Outcome.next ((State.serve_taking h _).trans ?_)
    rw [hslot]
    dsimp only
    rw [hnone]
    exact State.accept_free hfree _ _
  case unknown =>
    intro s q h hslot
    refine congrArg Host.Outcome.next ((State.serve_taking h _).trans ?_)
    rw [hslot]
  case setup | teardown | recable | query =>
    exact fun s q n h hop hlo hhi halign hlocal hfits hfree =>
      congrArg Host.Outcome.next (pathReq_legal h hop hlo hhi halign hlocal hfits hfree)
  case proof =>
    intro s q n h hsome hfree
    refine congrArg Host.Outcome.next ((State.serve_taking h _).trans ?_)
    rw [hsome, if_neg (by decide)]
    exact State.accept_free hfree _ _
  case proofRejected =>
    intro s q h hnone
    refine congrArg Host.Outcome.next ((State.serve_taking h _).trans ?_)
    rw [if_pos hnone]
  case engine | partition | cycle =>
    exact fun s q n h hstep hbad hbig hfree =>
      congrArg Host.Outcome.next (resetReq_legal h hstep hbad (fun h5 => absurd h5 (by decide)) hbig hfree)
  case chip =>
    exact fun s q n h hstep hbad hlock hbig hfree =>
      congrArg Host.Outcome.next (resetReq_legal h hstep hbad (fun _ => hlock) hbig hfree)
  case locked =>
    exact fun s q h hstep hbad hmode hlock => congrArg Host.Outcome.next (resetReq_locked h hstep hbad hmode hlock)
  case badTarget => exact fun s q h hstep hbad => congrArg Host.Outcome.next (resetReq_bad h hstep hbad)
  case evacuates =>
    intro s q n h hop hnone hfree
    refine congrArg Host.Outcome.next ((State.serve_taking h _).trans ?_)
    rw [if_neg (not_not_intro hop), hnone, if_neg (by decide)]
    exact State.accept_free hfree _ _
  case evacuating =>
    intro s q h hop hsome
    refine congrArg Host.Outcome.next ((State.serve_taking h _).trans ?_)
    rw [if_neg (not_not_intro hop), if_pos hsome]
  case clears =>
    intro s q n h hop hfree
    refine congrArg Host.Outcome.next ((State.serve_taking h _).trans ?_)
    rw [if_neg (not_not_intro hop)]
    exact State.accept_free hfree _ _
  case evacEnds =>
    intro s ticket n h
    refine congrArg Host.Outcome.next ?_
    unfold State.endEvac
    rw [h]

/-! ### Changes of two key holders -/

/-- The second authorisation of an operation without attached data makes a change that can be applied. -/
theorem twoKey_done {s u : State} {op : Nat} {q : Req} {n : Nat} {w : TwoKey} (h : SecondKey s op q n w) (hop : op ≠ 1)
    {apply : Nat → List (BitVec 8) → State → Except Nat State}
    (ha : apply (tkArg q.payload) (if w.data.isEmpty then q.payload.drop 464 else w.data) (accepted s 0x0600 n) = .ok u) :
    s.twoKey op apply = u.tkFinish w.head w.ticket n stOK 0 :=
  (State.twoKey_second h apply fun h1 => absurd h1 hop).trans (State.tkMake_ok ha)

/-- The second authorisation of a key's replacement, one of the two carrying the key. -/
theorem twoKey_key {s u : State} {q : Req} {n : Nat} {w : TwoKey} {data : List (BitVec 8)} (h : SecondKey s 1 q n w)
    (hd : data = if w.data.isEmpty then q.payload.drop 464 else w.data) (hne : data.isEmpty = false)
    (ha : (accepted s 0x0600 n).keyReplace (tkArg q.payload) data = .ok u) :
    exec .keyReplace s = .next (u.tkFinish w.head w.ticket n stOK 0) := by
  subst hd
  exact congrArg Host.Outcome.next ((State.twoKey_second h _ fun _ => hne).trans (State.tkMake_ok ha))

/-- A key that no verified slot names is replaced (R698, R699). -/
theorem keyReplace_new {s : State} {slot : Nat} {data : List (BitVec 8)} (hu : ¬ (slot ≤ 3 ∧ s.keyInUse slot = true))
    (hm : keyModulus data ≠ 0) : s.keyReplace slot data = .ok ({ s with upd.keys := kset s.upd.keys slot data } : State).sealRing := by
  unfold State.keyReplace
  rw [if_neg hu, if_neg hm]

/-- A signing key of modulus 0 is removed. -/
theorem keyReplace_removed {s : State} {slot : Nat} {data : List (BitVec 8)} (hslot : slot ≤ 3) (hu : s.keyInUse slot = false)
    (hm : keyModulus data = 0) : s.keyReplace slot data = .ok ({ s with upd.keys := kdel s.upd.keys slot } : State).sealRing := by
  unfold State.keyReplace
  rw [if_neg (by simp [hu]), if_pos hm, if_pos hslot]

theorem raiseMinSvn_ok {s : State} {v : Nat} (hlo : s.rd F.SEC_POLICY.MIN_SVN ≤ v)
    (hhi : v ≤ leAt (s.manifest s.upd.boot.running) 12 4) :
    s.raiseMinSvn v = .ok (s.wr F.SEC_POLICY.MIN_SVN v).sealRing := if_neg (by omega)

theorem restoreEunit_ok {s : State} {u : Nat} (h : (s.hist (engUnit u)).any = true) :
    s.restoreEunit u = .ok (s.setHist (engUnit u) Hist.init) := if_pos h

theorem core_setHist (s : State) (u : Nat) (x : Hist) (c : Nat) : (s.setHist u x).core c = s.core c := rfl

theorem retire_setHist (s : State) (u : Nat) (x : Hist) (c : Nat) : (s.setHist u x).retire c = s.retire c := rfl

/-- A core that is retired, or of which some unit has a history, returns to be tested first (R270). -/
theorem restoreCore_ok {s : State} {c : Nat} (h : s.retire c ≠ 0 ∨ (s.hist (coreUnit c uMXA)).any = true ∨
      (s.hist (coreUnit c uCKL)).any = true ∨ (s.hist (coreUnit c uVEC)).any = true ∨ (s.hist (coreUnit c uSFU)).any = true) :
    s.restoreCore c = .ok (((((((s.setHist (coreUnit c uMXA) Hist.init).setHist (coreUnit c uCKL) Hist.init).setHist
      (coreUnit c uVEC) Hist.init).setHist (coreUnit c uSFU) Hist.init).setRetire c 0).setCore c
        { s.core c with mustTest := true, gate := if s.retire c = 2 then .run else (s.core c).gate }).backLive (coreQuarter c)) := by
  have hnot : ¬ (s.retire c = 0 ∧ (!([uMXA, uCKL, uVEC, uSFU].map (coreUnit c)).any fun u => (s.hist u).any) = true) := by
    rintro ⟨h0, hu⟩
    rcases h.resolve_left (not_not_intro h0) with h | h | h | h <;> simp [h] at hu
  unfold State.restoreCore
  rw [if_neg hnot]
  simp only [List.map_cons, List.map_nil, List.foldl_cons, List.foldl_nil, core_setHist, retire_setHist]

/-- Settles O32: the first authorisation is kept (`twoKey_first`), and the second makes the change (`twoKey_done`). -/
theorem twoKeyRows : Obligations.TwoKeyRows := by
  refine ⟨?newKey, ?keyGone, ?policy, ?minSvn, ?unlock, ?relock, ?engineUnit, ?core, ?evrClear, ?keeper, ?first, ?timeout, ?pending,
    ?idle⟩
  case newKey =>
    exact fun s q n w data h hd hne hu hm => twoKey_key h hd hne (keyReplace_new hu hm)
  case keyGone =>
    exact fun s q n w data h hd hne hslot hu hm => twoKey_key h hd hne (keyReplace_removed hslot hu hm)
  case policy | unlock | relock | evrClear | keeper =>
    exact fun s q n w h => congrArg Host.Outcome.next (twoKey_done h (by decide) rfl)
  case minSvn =>
    exact fun s q n w h hlo hhi => congrArg Host.Outcome.next (twoKey_done h (by decide) (raiseMinSvn_ok hlo hhi))
  case engineUnit =>
    intro s q n w h harg hany
    refine congrArg Host.Outcome.next (twoKey_done h (by decide) ?_)
    rw [if_neg (by omega)]
    exact restoreEunit_ok hany
  case core =>
    intro s q n w c h harg hc hany
    subst harg
    refine congrArg Host.Outcome.next (twoKey_done h (by decide) ?_)
    rw [if_pos hc]
    exact restoreCore_ok hany
  case first => exact fun s q n h hp => congrArg Host.Outcome.next (State.twoKey_first h hp _)
  case timeout =>
    intro s w hp
    refine congrArg Host.Outcome.next ?_
    rw [hp]
  case pending =>
    intro s q w h hp
    refine congrArg Host.Outcome.next ((State.serve_taking h _).trans ?_)
    rw [hp]
  case idle =>
    intro s q h hp
    refine congrArg Host.Outcome.next ((State.serve_taking h _).trans ?_)
    rw [hp]
    rfl

end Sys2Proof.Machine
end


section
/-! PROOFS. Instructions that issue: the state in which they act, the scalar and the vector class, reductions, conversions and the
special functions. -/

namespace Sys2Proof.Machine
open Sys2Proof Safety

/-! ### The issued state -/

/-- An instruction that nothing holds acts in the issued state. -/
theorem exec_issued {i : Instr} {s t : State} {c k : Nat} {n : Needs} {run : State → State} (h : Issues s c k n)
    (he : exec i s = .next (s.issue c k n run)) (ht : run (issued s c k) = t) : exec i s = .next t :=
  he.trans (congrArg Host.Outcome.next ((State.issue_ok h run).trans ht))

theorem issued_core (s : State) (c k : Nat) :
    (issued s c k).core c = (s.core c).setThread k { s.thread c k with st := .ready, wait := none } :=
  State.core_setCore _ _ _

theorem State.core_of_cores {s t : State} (h : t.cores = s.cores) (c : Nat) : t.core c = s.core c := by
  unfold State.core
  rw [h]

theorem State.thread_of_cores {s t : State} (h : t.cores = s.cores) (c k : Nat) : t.thread c k = s.thread c k :=
  congrArg (Core.thread · k) (State.core_of_cores h c)

/-- A thread that has not faulted goes on to its next instruction, or to where it branches. -/
theorem State.next_issued (s : State) (c k : Nat) (j : Option Nat) :
    (issued s c k).next c k j =
      (issued s c k).setThread c k { s.thread c k with
        st := .ready, wait := none, pc := j.getD ((s.thread c k).pc + 8) % 2 ^ 64 } := by
  unfold State.next
  rw [issued_thread]
  exact if_neg (by simp)

/-- An instruction that changes no register but the pc retires. -/
theorem retired_next (s : State) (c k : Nat) : Retired s ((issued s c k).next c k) c k (fun x => x) := by
  rw [State.next_issued]
  refine ⟨State.thread_setThread _ _ _ _, fun c' k' h => ?_, rfl, rfl, rfl, rfl, rfl, rfl⟩
  rw [State.thread_setThread_ne _ _ _ _ _ _ h]
  exact State.thread_setThread_ne _ _ _ _ _ _ h

/-- A fault of the issued instruction gives its own pc. -/
theorem faultHere_issued (s : State) (c k fcode : Nat) :
    (issued s c k).faultHere c k fcode = (issued s c k).threadFault c k fcode (s.thread c k).pc := by
  unfold State.faultHere
  rw [issued_thread]

/-- An instruction that changes its thread's registers by `f` retires. -/
theorem exec_retired {i : Instr} {s : State} {c k : Nat} {n : Needs} {f : Thread → Thread} (h : Issues s c k n)
    (hs : ∀ x, (f x).st = x.st) (hp : ∀ x, (f x).pc = x.pc)
    (he : exec i s = .next (s.issue c k n fun s => s.retireInstr c k f)) :
    ∃ t, exec i s = .next t ∧ Retired s t c k f :=
  ⟨_, exec_issued h he rfl, retired_retire s c k f hs hp⟩

/-! ### Scalar instructions -/

theorem State.lineParity_eq (s : State) (c k : Nat) :
    s.lineParity c k = (s.bump F.CHK_CNT_PAR.COUNT).note evParityCorr 1 1 c [c, k, 57] (some (s.thread c k).ctx) := rfl

theorem exec_branch {s : State} {c k : Nat} {q : Cmp} {ra rb : Nat} {d : Int}
    (h : Issues s c k ⟨ScalarOp.regs (.branch q ra rb d), false, false, false⟩) :
    exec (.scalarInstruction c k (.branch q ra rb d) .none) s =
      .next (if intCmp q ((s.thread c k).sreg ra) ((s.thread c k).sreg rb) then
        (issued s c k).next c k (some (ofSigned 64 (((s.thread c k).pc : Int) + d))) else (issued s c k).next c k) := by
  refine exec_issued h rfl ?_
  simp only [State.withParity_none, issued_thread]
  rfl

/-- Settles O21: every row issues (`exec_issued`); what it then does is its own arm. -/
theorem scalarRows : Obligations.ScalarRows := by
  refine ⟨?alu, ?aluImm, ?cmp, ?predSet, ?predGet, ?taken, ?illegal, ?notTaken, ?ifetch, ?refetch, ?again, ?fatal⟩
  case alu => exact fun s c k g rd ra rb h => exec_retired h (fun _ => rfl) (fun _ => rfl) rfl
  case aluImm => exact fun s c k g rd ra i h => exec_retired h (fun _ => rfl) (fun _ => rfl) rfl
  case cmp => exact fun s c k q pd lane ra rb h => exec_retired h (fun _ => rfl) (fun _ => rfl) rfl
  case predSet => exact fun s c k pd ra h => exec_retired h (fun _ => rfl) (fun _ => rfl) rfl
  case predGet => exact fun s c k rd pa h => exec_retired h (fun _ => rfl) (fun _ => rfl) rfl
  case taken =>
    intro s c k q ra rb d h hq
    refine ⟨_, (exec_branch h).trans (congrArg Host.Outcome.next (if_pos hq)), ?_⟩
    rw [State.next_issued]
    exact ⟨State.thread_setThread _ _ _ _, rfl, rfl, rfl⟩
  case notTaken =>
    intro s c k q ra rb d h hq
    exact ⟨_, (exec_branch h).trans (congrArg Host.Outcome.next (if_neg (by rw [hq]; decide))), retired_next s c k⟩
  case illegal => exact fun s c k p h => exec_issued h rfl (faultHere_issued s c k fcILLEGAL_OP)
  case ifetch => exact fun s c k p h => exec_issued h rfl (faultHere_issued s c k fcIFETCH)
  case refetch =>
    intro s c k p h
    refine ⟨_, exec_issued h rfl (State.lineParity_eq _ c k), ?_, by simp [issued], by simp [issued], recorded_note rfl⟩
    rw [State.thread_of_cores (by simp : _ = (issued s c k).cores), issued_thread]
  case again => exact fun s c k g rd ra rb r h => exec_issued h rfl rfl
  case fatal => exact fun s c k g rd ra rb r h => exec_issued h rfl rfl

/-! ### Vector instructions -/

/-- Steps that each leave the state and the pc of a thread leave them together. -/
theorem Thread.foldl_keeps {α : Type} {f : Thread → α → Thread} (hf : ∀ y a, (f y a).st = y.st ∧ (f y a).pc = y.pc)
    (l : List α) (x : Thread) : (l.foldl f x).st = x.st ∧ (l.foldl f x).pc = x.pc := by
  induction l generalizing x with
  | nil => exact ⟨rfl, rfl⟩
  | cons a l ih => exact ⟨(ih _).1.trans (hf x a).1, (ih _).2.trans (hf x a).2⟩

theorem Thread.packMx_keeps (x : Thread) (rd rs ra dst : Nat) (sat : Bool) (pr : Nat) (rnd : Nat → Rnd) :
    (x.packMx rd rs ra dst sat pr rnd).st = x.st ∧ (x.packMx rd rs ra dst sat pr rnd).pc = x.pc := by
  have put (y : Thread) (v w b : Nat) := Thread.foldl_keeps
    (f := fun (z : Thread) i => if x.on pr (b * w + i) then z.setV rd (b * w + i) (BitVec.ofNat 32 (v / 2 ^ (32 * i))) else z)
    (fun z i => by split <;> exact ⟨rfl, rfl⟩) (List.range w) y
  exact ⟨(put _ _ _ 1).1.trans (put _ _ _ 0).1, (put _ _ _ 1).2.trans (put _ _ _ 0).2⟩

/-- A conversion writes registers and the generator alone. -/
theorem Thread.convert_keeps (x : Thread) (rd rs ra src dst ctrl pr : Nat) :
    (x.convert rd rs ra src dst ctrl pr).st = x.st ∧ (x.convert rd rs ra src dst ctrl pr).pc = x.pc := by
  have moves (y : Thread) (h : y.st = x.st ∧ y.pc = x.pc) :
      (if ctrlRnd ctrl then { y with rng := srSteps 64 x.rng } else y).st = x.st ∧
        (if ctrlRnd ctrl then { y with rng := srSteps 64 x.rng } else y).pc = x.pc := by split <;> exact h
  refine moves _ ?_
  split
  · exact Thread.packMx_keeps ..
  · split <;> exact Thread.writeLanes_keeps ..

/-- Between formats that are no MX formats, and without `RND`, each lane is converted on its own. -/
theorem Thread.convert_plain (x : Thread) (rd rs ra : Nat) {src dst ctrl : Nat} (pr : Nat) (hd : isMx dst = false)
    (hs : isMx src = false) (hr : ctrlRnd ctrl = false) :
    x.convert rd rs ra src dst ctrl pr = x.writeLanes rd pr fun l => BitVec.ofNat 32
      (convertNum (laneRnd false x.rng l) (ctrlSat ctrl) src dst (decodeFmt src (x.vreg ra l).toNat)) := by
  simp [Thread.convert, hd, hs, hr]

/-- `CVT` on an accepted pair and control converts. -/
theorem exec_cvt {s : State} {c k rd rs ra src dst ctrl pr : Nat}
    (h : Issues s c k ⟨[.v (rd % 16), .v (ra % 16)] ++ (if isMx src || isMx dst then [.s (rs % 32)] else []), false, false, false⟩)
    (ha : cvtAccepts src dst = true) (hc : ctrlReserved ctrl = false) :
    ∃ t, exec (.cvt c k rd rs ra src dst ctrl pr .none) s = .next t ∧
      Retired s t c k (fun x => x.convert rd rs ra src dst ctrl pr) := by
  have hok : ¬ ((!cvtAccepts src dst || ctrlReserved ctrl) = true) := by rw [ha, hc]; decide
  refine ⟨(issued s c k).retireInstr c k fun x => x.convert rd rs ra src dst ctrl pr, exec_issued h rfl (if_neg hok), ?_⟩
  exact retired_retire s c k _ (fun x => (x.convert_keeps ..).1) fun x => (x.convert_keeps ..).2

/-- A special function takes an entry that holds its results. -/
theorem State.sfu_issued {s : State} {c k rd ra : Nat} (h : Issues s c k ⟨[.v (rd % 16), .v (ra % 16)], true, false, false⟩)
    (f : Sfu) (pr : Nat) :
    s.sfu c k f rd ra pr .none = (((issued s c k).allocEntry c k .sfu (.vector (rd % 16) ((s.thread c k).lanesOn pr))
      (((s.thread c k).lanesOn pr).map fun l => (4 * l, leBytes 4 (sfuResult f ((s.thread c k).vreg ra l)).toNat)) 0).1.next c k) := by
  unfold State.sfu
  rw [State.issue_ok h]
  simp only [State.withParity_none, issued_thread]
  rfl

/-- Settles O22: an instruction that only writes its thread's registers retires (`exec_retired`), a special function takes an
entry (`State.sfu_issued`). -/
theorem vectorRows : Obligations.VectorRows := by
  refine ⟨?vector, ?reduction, ?cvtPlain, ?cvtIllegal, ?cvt, ?srseed, ?exp2, ?log2, ?rcp, ?rsqrt, ?sqrt, ?sin, ?cos, ?tanh⟩
  case vector =>
    exact fun s c k op h => exec_retired h (fun x => (VectorOp.apply_keeps op x).1) (fun x => (VectorOp.apply_keeps op x).2) rfl
  case reduction =>
    exact fun s c k op fp rd ra pr h =>
      exec_retired h (fun x => (x.writeLanes_keeps ..).1) (fun x => (x.writeLanes_keeps ..).2) rfl
  case cvtPlain =>
    intro s c k rd rs ra src dst ctrl pr h ha hc hd hs hr
    simpa only [Thread.convert_plain _ _ _ _ _ hd hs hr] using exec_cvt h ha hc
  case cvtIllegal =>
    intro s c k rd rs ra src dst ctrl pr p h hbad
    refine exec_issued h rfl ((if_pos ?_).trans (faultHere_issued s c k fcILLEGAL_OP))
    rcases hbad with hb | hb <;> simp [hb]
  case cvt => exact fun s c k rd rs ra src dst ctrl pr h ha hc => exec_cvt h ha hc
  case srseed => exact fun s c k rs h => exec_retired h (fun _ => rfl) (fun _ => rfl) rfl
  case exp2 | log2 | rcp | rsqrt | sqrt | sin | cos | tanh =>
    exact fun s c k rd ra pr h => congrArg Host.Outcome.next (State.sfu_issued h _ pr)

end Sys2Proof.Machine
end

section
/-! PROOFS. The loads, stores, gathers, scatters and atomics of a thread. -/

namespace Sys2Proof.Machine
open Sys2Proof Safety

/-! ### Checks that find nothing -/

@[simp] theorem State.homeEcc_clean (s : State) (c k : Nat) (m : MemKind) (ga : Nat) (run : State → State) :
    s.homeEcc c k m ga .clean run = run s := by
  unfold State.homeEcc
  dsimp only
  split
  · rfl
  · split
    · exact State.threadEcc_clean ..
    · rw [State.eccFound_clean]

@[simp] theorem State.cacheParity_none (s : State) (c k : Nat) (hit : Bool) (drop : State → State) :
    s.cacheParity c k .none hit drop = s := if_neg fun h => nomatch h.1

@[simp] theorem State.laneEcc_nil (s : State) (c k : Nat) (sp : MemSpace) (m : MemKind) (ls : List (Nat × Nat))
    (run : State → State) : s.laneEcc c k sp m ls run [] = run s := rfl

section
variable {s : State} {c k : Nat} {acc : AccessForm}

/-! ### The stores of the package -/

/-- A load from the core store: aligned and inside it, it is made. -/
theorem exec_coreStoreLoad (h : Issues s c k ⟨AccessForm.regs acc, true, false, true⟩) (e : EccFinding) :
    exec (.coreStoreLoad c k acc e .none) s = .next (
      if AccessForm.aligned acc ((s.thread c k).addr acc.ra acc.disp) = false then
        (issued s c k).threadFault c k fcMISALIGNED ((s.thread c k).addr acc.ra acc.disp)
      else if 0x600000 < (s.thread c k).addr acc.ra acc.disp + AccessForm.bytes acc then
        (issued s c k).threadFault c k fcCS_RANGE ((s.thread c k).addr acc.ra acc.disp)
      else (issued s c k).threadEcc c k 0 ((s.thread c k).addr acc.ra acc.disp) e fun s' =>
        s'.storeLoad c k ((s.thread c k).loadDest acc)
          [(0, coreStoreBase c + (s.thread c k).addr acc.ra acc.disp, AccessForm.bytes acc)]) := by
  refine exec_issued h rfl ?_
  simp only [State.withParity_none, issued_thread, Bool.not_eq_true']
  rfl

theorem exec_coreStoreStore (h : Issues s c k ⟨AccessForm.regs acc, false, false, true⟩) :
    exec (.coreStoreStore c k acc .none) s = .next (
      if AccessForm.aligned acc ((s.thread c k).addr acc.ra acc.disp) = false then
        (issued s c k).threadFault c k fcMISALIGNED ((s.thread c k).addr acc.ra acc.disp)
      else if 0x600000 < (s.thread c k).addr acc.ra acc.disp + AccessForm.bytes acc then
        (issued s c k).threadFault c k fcCS_RANGE ((s.thread c k).addr acc.ra acc.disp)
      else (issued s c k).storeStore c k (((s.thread c k).storeParts acc).map fun (o, bs) =>
        (coreStoreBase c + (s.thread c k).addr acc.ra acc.disp + o, bs))) := by
  refine exec_issued h rfl ?_
  simp only [State.withParity_none, issued_thread, Bool.not_eq_true']
  rfl

theorem inShare_issued (s : State) (c k slot a n : Nat) : (issued s c k).inShare slot a n = s.inShare slot a n := rfl

/-- An access to the quarter's own store, inside the context's share. -/
theorem exec_quarterStoreAccess {w : Bool} (h : Issues s c k ⟨AccessForm.regs acc, !w, false, true⟩) (e : EccFinding) :
    exec (.quarterStoreAccess c k w acc e .none) s = .next (
      if AccessForm.aligned acc ((s.thread c k).addr acc.ra acc.disp) = false then
        (issued s c k).threadFault c k fcMISALIGNED ((s.thread c k).addr acc.ra acc.disp)
      else if s.inShare (s.thread c k).cmd.slot ((s.thread c k).addr acc.ra acc.disp) (AccessForm.bytes acc) = false then
        (issued s c k).threadFault c k fcQS_RANGE ((s.thread c k).addr acc.ra acc.disp)
      else if w then (issued s c k).storeStore c k (((s.thread c k).storeParts acc).map fun (o, bs) =>
        (quarterStoreBase (coreQuarter c) + (s.thread c k).addr acc.ra acc.disp + o, bs))
      else (issued s c k).threadEcc c k 1 ((s.thread c k).addr acc.ra acc.disp) e fun s' =>
        s'.storeLoad c k ((s.thread c k).loadDest acc)
          [(0, quarterStoreBase (coreQuarter c) + (s.thread c k).addr acc.ra acc.disp, AccessForm.bytes acc)]) := by
  refine exec_issued h rfl ?_
  simp only [State.withParity_none, issued_thread, Bool.not_eq_true']
  rfl

/-! ### Global accesses -/

/-- Nothing found, an aligned global load takes its entry and asks. -/
theorem exec_globalLoad (h : Issues s c k ⟨AccessForm.regs acc, true, false, true⟩)
    (ha : AccessForm.aligned acc ((s.thread c k).addr acc.ra acc.disp) = true) :
    exec (.globalLoad c k acc .clean .none) s = .next (
      (((issued s c k).allocEntry c k .load ((s.thread c k).loadDest acc) [] 1).1.askLoad ((issued s c k).threadSource c k)
        ((issued s c k).allocEntry c k .load ((s.thread c k).loadDest acc) [] 1).2 0
        ((s.thread c k).addr acc.ra acc.disp) (AccessForm.bytes acc) acc.bypass).next c k) := by
  refine exec_issued h rfl ?_
  simp only [State.withParity_none, State.cacheParity_none, State.homeEcc_clean, issued_thread, ite_self]
  exact if_neg (by rw [Bool.not_eq_true']; exact ne_false_of_eq_true ha)

/-- Nothing found, an aligned global store goes out part by part. -/
theorem exec_globalStore (h : Issues s c k ⟨AccessForm.regs acc, false, false, true⟩)
    (ha : AccessForm.aligned acc ((s.thread c k).addr acc.ra acc.disp) = true) :
    exec (.globalStore c k acc .clean .none) s = .next (((issued s c k).storeGlobal ((issued s c k).threadSource c k)
      (((s.thread c k).storeParts acc).map fun (o, bs) => ((s.thread c k).addr acc.ra acc.disp + o, bs))).next c k) := by
  refine exec_issued h rfl ?_
  simp only [State.withParity_none, State.homeEcc_clean, issued_thread]
  exact if_neg (by rw [Bool.not_eq_true']; exact ne_false_of_eq_true ha)

/-! ### Gathers and scatters -/

/-- Which lane a space does not take, the issued instruction judges as the state before it. -/
theorem laneFault_issued (s : State) (c k : Nat) (sp : MemSpace) (base ra pr : Nat) :
    (issued s c k).laneFault ((issued s c k).thread c k).cmd.slot sp (((issued s c k).thread c k).laneAddrs base ra pr) =
      s.laneFault (s.thread c k).cmd.slot sp ((s.thread c k).laneAddrs base ra pr) := by
  rw [issued_thread]
  rfl

variable {sp : MemSpace} {rd ra base pr : Nat}

theorem exec_gather_fault {f a : Nat} (h : Issues s c k ⟨[.v (rd % 16), .v (ra % 16), .s (base % 32)], true, false, true⟩)
    (hf : s.laneFault (s.thread c k).cmd.slot sp ((s.thread c k).laneAddrs base ra pr) = some (f, a)) :
    exec (.gather c k sp rd ra base pr [] .none) s = .next ((issued s c k).threadFault c k f a) := by
  refine exec_issued h rfl ?_
  simp only [State.withParity_none, laneFault_issued, hf]

/-- A gather that no lane stops makes one load for each lane that is on. -/
theorem exec_gather (h : Issues s c k ⟨[.v (rd % 16), .v (ra % 16), .s (base % 32)], true, false, true⟩)
    (hf : s.laneFault (s.thread c k).cmd.slot sp ((s.thread c k).laneAddrs base ra pr) = none) :
    exec (.gather c k sp rd ra base pr [] .none) s = .next (
      if sp = .global then
        (((issued s c k).allocEntry c k .load (.vector (rd % 16) ((s.thread c k).lanesOn pr)) []
          ((s.thread c k).laneAddrs base ra pr).length).1.loadLanes ((issued s c k).threadSource c k)
          ((issued s c k).allocEntry c k .load (.vector (rd % 16) ((s.thread c k).lanesOn pr)) []
          ((s.thread c k).laneAddrs base ra pr).length).2 ((s.thread c k).laneAddrs base ra pr)).next c k
      else (issued s c k).storeLoad c k (.vector (rd % 16) ((s.thread c k).lanesOn pr))
        (((s.thread c k).laneAddrs base ra pr).map fun (l, a) => (4 * l, spaceBase c sp + a, 4))) := by
  refine exec_issued h rfl ?_
  simp only [State.withParity_none, laneFault_issued, hf, State.cacheParity_none, State.laneEcc_nil]
  simp only [issued_thread]
  cases sp <;> rfl

/-- A scatter that no lane stops makes one store for each lane that is on. -/
theorem exec_scatter {rs : Nat} (h : Issues s c k ⟨[.v (rs % 16), .v (ra % 16), .s (base % 32)], false, false, true⟩)
    (hf : s.laneFault (s.thread c k).cmd.slot sp ((s.thread c k).laneAddrs base ra pr) = none) :
    exec (.scatter c k sp rs ra base pr [] .none) s = .next (
      if sp = .global then
        ((issued s c k).storeGlobal ((issued s c k).threadSource c k)
          (((s.thread c k).laneAddrs base ra pr).map fun (l, a) => (a, leBytes 4 ((s.thread c k).vreg rs l).toNat))).next c k
      else (issued s c k).storeStore c k (((s.thread c k).laneAddrs base ra pr).map fun (l, a) =>
        (spaceBase c sp + a, leBytes 4 ((s.thread c k).vreg rs l).toNat))) := by
  refine exec_issued h rfl ?_
  simp only [State.withParity_none, laneFault_issued, hf, State.laneEcc_nil]
  simp only [issued_thread]
  cases sp <;> rfl

end

/-! ### Atomics -/

/-- What an atomic needs to issue. -/
abbrev atomNeeds (acc : AtomicForm) : Needs :=
  ⟨[.s (acc.ra % 32), .s (acc.rv % 32), .s (acc.rc % 32)] ++ (if acc.fetch then [.s (acc.rd % 32)] else []), true, false, true⟩

section
variable {s : State} {c k : Nat} {acc : AtomicForm} {op : AtomOp}

/-- The bytes that an atomic moves. -/
def atomBytes (op : AtomOp) : Nat := if op = .fadd32 then 4 else 8

/-- An aligned atomic at a global address, or inside the core store, is made on its registers' operands. -/
theorem State.atomic_issued (h : Issues s c k (atomNeeds acc)) :
    s.atomic c k op acc .clean .none =
      if (s.thread c k).addr acc.ra acc.disp % atomBytes op ≠ 0 then
        (issued s c k).threadFault c k fcMISALIGNED ((s.thread c k).addr acc.ra acc.disp)
      else match acc.sp with
        | .core =>
          if inCoreStore ((s.thread c k).addr acc.ra acc.disp) (atomBytes op) then
            (issued s c k).atomicLocal c k acc (.atom op ((s.thread c k).sreg acc.rv) ((s.thread c k).sreg acc.rc)) (atomBytes op)
              (coreStoreBase c + (s.thread c k).addr acc.ra acc.disp)
          else (issued s c k).threadFault c k fcCS_RANGE ((s.thread c k).addr acc.ra acc.disp)
        | .quarter =>
          if s.inShare (s.thread c k).cmd.slot ((s.thread c k).addr acc.ra acc.disp) (atomBytes op) then
            (issued s c k).atomicLocal c k acc (.atom op ((s.thread c k).sreg acc.rv) ((s.thread c k).sreg acc.rc)) (atomBytes op)
              (quarterStoreBase (coreQuarter c) + (s.thread c k).addr acc.ra acc.disp)
          else (issued s c k).threadFault c k fcQS_RANGE ((s.thread c k).addr acc.ra acc.disp)
        | .global =>
          (issued s c k).atomicGlobal c k acc (.atom op ((s.thread c k).sreg acc.rv) ((s.thread c k).sreg acc.rc)) (atomBytes op)
            ((s.thread c k).addr acc.ra acc.disp) := by
  unfold State.atomic
  rw [State.issue_ok h]
  simp only [State.withParity_none, State.homeEcc_clean, State.threadEcc_clean, issued_thread]
  rfl

/-- An aligned atomic at a global address. -/
theorem atomic_global (h : Issues s c k (atomNeeds acc))
    (ha : (s.thread c k).addr acc.ra acc.disp % atomBytes op = 0) (hg : acc.sp = .global) :
    s.atomic c k op acc .clean .none =
      (issued s c k).atomicGlobal c k acc (.atom op ((s.thread c k).sreg acc.rv) ((s.thread c k).sreg acc.rc)) (atomBytes op)
        ((s.thread c k).addr acc.ra acc.disp) := by
  rw [State.atomic_issued h, if_neg (not_not_intro ha), hg]

/-- An aligned atomic inside the thread's own core store. -/
theorem atomic_core (h : Issues s c k (atomNeeds acc))
    (ha : (s.thread c k).addr acc.ra acc.disp % atomBytes op = 0) (hc : acc.sp = .core)
    (hr : inCoreStore ((s.thread c k).addr acc.ra acc.disp) (atomBytes op) = true) :
    s.atomic c k op acc .clean .none =
      (issued s c k).atomicLocal c k acc (.atom op ((s.thread c k).sreg acc.rv) ((s.thread c k).sreg acc.rc)) (atomBytes op)
        (coreStoreBase c + (s.thread c k).addr acc.ra acc.disp) := by
  rw [State.atomic_issued h, if_neg (not_not_intro ha), hc]
  exact if_pos hr

/-- A misaligned atomic faults. -/
theorem atomic_misaligned (h : Issues s c k (atomNeeds acc))
    (ha : (s.thread c k).addr acc.ra acc.disp % atomBytes op ≠ 0) :
    s.atomic c k op acc .clean .none =
      (issued s c k).threadFault c k fcMISALIGNED ((s.thread c k).addr acc.ra acc.disp) :=
  (State.atomic_issued h).trans (if_pos ha)

end

/-- Settles O23: each row is a branch of what its access does once it issues. -/
theorem coreMemoryRows : Obligations.CoreMemoryRows := by
  refine ⟨?coreLoad, ?coreMisaligned, ?coreStore, ?coreRange, ?quarterLoad, ?quarterStore, ?quarterRange, ?globalLoad, ?globalStore,
    ?gatherLocal, ?gatherGlobal, ?gatherFault, ?scatterLocal, ?scatterGlobal, ?add64, ?add64Core, ?cas64, ?cas64Core, ?min64,
    ?min64Core, ?max64, ?max64Core, ?fadd32, ?fadd32Core, ?atomMisaligned⟩
  case coreLoad =>
    intro s c k acc h ha hr
    rw [exec_coreStoreLoad h, if_neg (ne_false_of_eq_true ha), if_neg (Nat.not_lt.mpr hr), State.threadEcc_clean]
  case coreMisaligned =>
    intro s c k acc e h ha
    rw [exec_coreStoreLoad h, if_pos ha]
  case coreStore =>
    intro s c k acc h ha hr
    rw [exec_coreStoreStore h, if_neg (ne_false_of_eq_true ha), if_neg (Nat.not_lt.mpr hr)]
  case coreRange =>
    intro s c k acc h ha hr
    rw [exec_coreStoreStore h, if_neg (ne_false_of_eq_true ha), if_pos hr]
  case quarterLoad =>
    intro s c k acc h ha hin
    rw [exec_quarterStoreAccess h, if_neg (ne_false_of_eq_true ha), if_neg (ne_false_of_eq_true hin), State.threadEcc_clean]
    rfl
  case quarterStore =>
    intro s c k acc e h ha hin
    rw [exec_quarterStoreAccess h, if_neg (ne_false_of_eq_true ha), if_neg (ne_false_of_eq_true hin)]
    rfl
  case quarterRange =>
    intro s c k acc e h ha hout
    rw [exec_quarterStoreAccess h, if_neg (ne_false_of_eq_true ha), if_pos hout]
  case globalLoad => exact fun s c k acc h ha => exec_globalLoad h ha
  case globalStore => exact fun s c k acc h ha => exec_globalStore h ha
  case gatherLocal =>
    exact fun s c k sp rd ra base pr h hf hsp => (exec_gather h hf).trans (congrArg Host.Outcome.next (if_neg hsp))
  case gatherGlobal => exact fun s c k rd ra base pr h hf => exec_gather h hf
  case gatherFault => exact fun s c k sp rd ra base pr f a h hf => exec_gather_fault h hf
  case scatterLocal =>
    exact fun s c k sp rs ra base pr h hf hsp => (exec_scatter h hf).trans (congrArg Host.Outcome.next (if_neg hsp))
  case scatterGlobal => exact fun s c k rs ra base pr h hf => exec_scatter h hf
  case add64 | cas64 | min64 | max64 | fadd32 =>
    exact fun s c k acc h ha hg => congrArg Host.Outcome.next (atomic_global h ha hg)
  case add64Core | cas64Core | min64Core | max64Core | fadd32Core =>
    exact fun s c k acc h ha hc hr => congrArg Host.Outcome.next (atomic_core h ha hc hr)
  case atomMisaligned => exact fun s c k acc h ha => congrArg Host.Outcome.next (atomic_misaligned h ha)

end Sys2Proof.Machine
end

section
/-! PROOFS. The matrix instructions at issue, barriers, events, fences, `YIELD` and `EXIT`, and results. -/

namespace Sys2Proof.Machine
open Sys2Proof Safety

/-! ### Matrix instructions at issue -/

/-- What the issued instruction will read is what the state before it holds. -/
theorem loadFor_issued (s : State) (c k b : Nat) : ((issued s c k).core c).loadFor b = (s.core c).loadFor b := by
  rw [issued_core]
  rfl

theorem exec_mload {s : State} {c k : Nat} {m : MloadSpec} (h : Issues s c k ⟨[], true, true, false⟩) (hs : MloadSpec.shapeOk m = true)
    (hb : m.bank < 2) (hg : m.aGlobal = false) (hin : (MloadSpec.spans m 0).find? (fun sp => !sp.inStore) = none)
    (ha : m.aStride % 4 = 0) (hb' : m.bStride % 4 = 0) :
    exec (.mload c k m .clean) s = .next
      ((((issued s c k).pushMatrix c k (.mload m) .mload 0).1.setCore c
        (((issued s c k).pushMatrix c k (.mload m) .mload 0).1.core c).enterSpans).next c k) := by
  refine exec_issued h rfl ?_
  simp only [hs, hg, hin, ha, hb', State.threadEcc_clean, Nat.not_le.mpr hb]
  rfl

theorem exec_mstore {s : State} {c k : Nat} {m : MstoreSpec} (h : Issues s c k ⟨[], true, true, false⟩)
    (hc : ctrlReserved m.ctrl = false) (hs : MstoreSpec.shapeOk m = true)
    (hr : (MstoreSpec.ranges m).find? (fun r => decide (0x600000 < r.1 + r.2)) = none) :
    exec (.mstore c k m .clean .none) s = .next
      ((if ctrlRnd m.ctrl then
          ((issued s c k).pushMatrix c k (.mstore m) .mstore 0).1.setThread c k
            { ((issued s c k).pushMatrix c k (.mstore m) .mstore 0).1.thread c k with
              rng := srSteps (64 * ((m.m * m.n + 63) / 64)) (((issued s c k).pushMatrix c k (.mstore m) .mstore 0).1.thread c k).rng }
        else ((issued s c k).pushMatrix c k (.mstore m) .mstore 0).1).next c k) := by
  refine exec_issued h rfl ?_
  simp only [hs, hc, hr, State.withParity_none, State.sramEcc_clean]
  rfl

/-- Settles O24: a legal instruction passes the checks and enters the queue; of an illegal one the shape is checked first. -/
theorem matrixIssueRows : Obligations.MatrixIssueRows := by
  refine ⟨?mload, ?mloadShape, ?mma, ?mstore, ?mstoreShape, ?mstoreRnd⟩
  case mload => exact fun s c k m h hs hb hg hin ha hb' => exec_mload h hs hb hg hin ha hb'
  case mloadShape =>
    intro s c k m e h hs
    exact exec_issued h rfl ((if_pos (by rw [hs]; rfl)).trans (faultHere_issued s c k _))
  case mma =>
    intro s c k m h hs
    refine exec_issued h rfl ?_
    simp only [loadFor_issued, hs]
    rfl
  case mstore =>
    intro s c k m h hc hs hr hrnd
    rw [exec_mstore h hc hs hr, if_neg (ne_true_of_eq_false hrnd)]
  case mstoreShape =>
    intro s c k m e p h hc hs
    refine exec_issued h rfl ?_
    simp only [hs, hc]
    exact faultHere_issued s c k _
  case mstoreRnd =>
    intro s c k m h hc hs hr hrnd
    rw [exec_mstore h hc hs hr, if_pos hrnd]

/-! ### Barriers -/

theorem bars_issued (s : State) (c k b : Nat) : kfind ((issued s c k).core c).bars b = kfind (s.core c).bars b := by
  rw [issued_core]
  rfl

section
variable {s : State} {c k b n : Nat}

/-- The first arrival at a barrier. -/
theorem exec_bar_first (h : Issues s c k ⟨[], false, false, false⟩) (hb : kfind (s.core c).bars (b % 8) = none) :
    exec (.bar c k b n) s = .next (if n ≤ 1 then (issued s c k).next c k else
      (((issued s c k).next c k).stall c k .waitSync (.bar (b % 8))).setCore c
        { (((issued s c k).next c k).stall c k .waitSync (.bar (b % 8))).core c with
          bars := kset ((((issued s c k).next c k).stall c k .waitSync (.bar (b % 8))).core c).bars (b % 8) ⟨n, [k]⟩ }) := by
  refine exec_issued h rfl ?_
  simp only [bars_issued, hb]

/-- The state in which a barrier has released every thread that waited at it. -/
def State.released (s : State) (c b : Nat) : State :=
  s.setCore c { s.core c with
    bars := kdel (s.core c).bars b
    threads := (s.core c).threads.map fun (t, th) =>
      if th.st = .waitSync ∧ th.wait = some (.bar b) then (t, { th with st := .ready, wait := none }) else (t, th) }

/-- A later arrival with the barrier's own count. -/
theorem exec_bar_last {r : Barrier} (h : Issues s c k ⟨[], false, false, false⟩) (hb : kfind (s.core c).bars (b % 8) = some r)
    (hn : r.n = n) (hl : n ≤ r.arrived.length + 1) :
    exec (.bar c k b n) s = .next (((issued s c k).next c k).released c (b % 8)) := by
  refine exec_issued h rfl ?_
  simp only [bars_issued, hb]
  rw [if_neg (not_not_intro hn), if_pos hl]
  rfl

theorem exec_bar_mismatch {r : Barrier} (h : Issues s c k ⟨[], false, false, false⟩)
    (hb : kfind (s.core c).bars (b % 8) = some r) (hn : r.n ≠ n) :
    exec (.bar c k b n) s = .next ((issued s c k).threadFault c k fcBARRIER_MISMATCH (b % 8)) := by
  refine exec_issued h rfl ?_
  simp only [bars_issued, hb]
  exact if_pos hn

end

/-- No thread waits at a released barrier. -/
theorem released_threads (s : State) (c b : Nat) :
    ∀ x ∈ ((s.released c b).core c).threads, ¬ (x.2.st = .waitSync ∧ x.2.wait = some (.bar b)) := by
  intro x hx
  unfold State.released at hx
  rw [State.core_setCore] at hx
  obtain ⟨⟨t, th⟩, -, rfl⟩ := List.mem_map.mp hx
  dsimp only
  split
  · simp
  · assumption

theorem released_bars (s : State) (c b : Nat) : kfind ((s.released c b).core c).bars b = none := by
  unfold State.released
  rw [State.core_setCore]
  exact kfind_kdel_same _ _

/-! ### Events -/

/-- `EWAIT` goes on, or waits for its event. -/
theorem exec_ewait {s : State} {c k e rs : Nat} (h : Issues s c k ⟨[.s (rs % 32)], false, false, false⟩) :
    exec (.ewait c k e rs .none) s = .next (
      if ((s.thread c k).sreg rs).toNat ≤ (s.event (s.thread c k).cmd.slot (e % 64)).toNat then (issued s c k).next c k
      else ((issued s c k).next c k).stall c k .waitSync (.event (e % 64) ((s.thread c k).sreg rs))) := by
  refine exec_issued h rfl ?_
  simp only [State.withParity_none, issued_thread]
  rw [State.next_issued]
  rfl

/-- Settles O25: each row is what its instruction does once it issues; a released barrier keeps no waiting thread. -/
theorem synchronisationRows : Obligations.SynchronisationRows := by
  refine ⟨?barWaits, ?barOne, ?ewaitReached, ?ewaitWaits, ?esignal, ?fenceAcq, ?fenceRel, ?yields, ?holdExpires, ?exits, ?result,
    ?barLast, ?barMismatch⟩
  case barWaits =>
    exact fun s c k b n h hb hn => (exec_bar_first h hb).trans (congrArg Host.Outcome.next (if_neg (Nat.not_le.mpr hn)))
  case barOne => exact fun s c k b n h hb hn => (exec_bar_first h hb).trans (congrArg Host.Outcome.next (if_pos hn))
  case ewaitReached => exact fun s c k e rs h hv => (exec_ewait h).trans (congrArg Host.Outcome.next (if_pos hv))
  case ewaitWaits =>
    exact fun s c k e rs h hv => (exec_ewait h).trans (congrArg Host.Outcome.next (if_neg (Nat.not_le.mpr hv)))
  case esignal =>
    intro s c k e rs b h
    refine exec_issued h rfl ?_
    simp only [State.withParity_none, issued_thread]
    rfl
  case fenceAcq | fenceRel | exits => exact fun s c k h => exec_issued h rfl rfl
  case yields => exact fun s c k h => exec_retired h (fun _ => rfl) (fun _ => rfl) rfl
  case holdExpires => exact fun s c k => ⟨_, rfl, State.thread_setThread _ _ _ _, rfl, rfl⟩
  case result =>
    intro s c k tag x hx ha hk
    refine congrArg Host.Outcome.next ?_
    rw [hx]
    exact if_pos ⟨ha, hk⟩
  case barLast =>
    intro s c k b n r h hb hn hl
    refine ⟨_, exec_bar_last h hb hn hl, released_bars _ _ _, released_threads _ _ _, ?_, ?_⟩
    · rw [State.next_issued]; rfl
    · rw [State.next_issued]; rfl
  case barMismatch => exact fun s c k b n r h hb hn => exec_bar_mismatch h hb hn

end Sys2Proof.Machine
end

section
/-! PROOFS. The work of the matrix queue: bank fills, tiles and their verdicts, stores. -/

namespace Sys2Proof.Machine
open Sys2Proof Safety

/-! ### Verdicts -/

/-- What a checker without an arithmetic error says: the comparison's own verdict (R237). -/
theorem State.tileVerdict_exact (s : State) (k : Core) (b : Bank) (free : Nat) (m : MmaSpec)
    (vals : List (Nat × List (BitVec 32))) :
    s.tileVerdict k b free m vals 0 = (s.tick.bump F.CHK_CNT_UNCHK.COUNT 0 (tileCheck k b free m vals).2,
      (tileCheck k b free m vals).1, false) := rfl

section
variable (s : State) (k : Core) (b : Bank) (free : Nat) (m : MmaSpec) (vals : List (Nat × List (BitVec 32))) (r : Int)

/-- An error that the residue code sees voids the verdict (R253). -/
theorem State.tileVerdict_void : (s.tileVerdict k b free m vals r).2.2 = residueSees r := rfl

/-- A checker draws a free value and counts; it changes nothing else. -/
theorem State.tileVerdict_rest : (s.tileVerdict k b free m vals r).1.chk = s.chk ∧ (s.tileVerdict k b free m vals r).1.mem = s.mem ∧
    (s.tileVerdict k b free m vals r).1.evr = s.evr := by
  unfold State.tileVerdict State.when
  dsimp only
  split <;> exact ⟨rfl, rfl, rfl⟩

end

theorem State.injection_unarmed {s : State} (h : s.rd F.CHK_INJECT.ARM = 0) (c : Nat) : s.injection c = (0, 0) := by
  unfold State.injection State.flag
  rw [h]
  rfl

theorem State.hist_of_chk {s t : State} (h : t.chk = s.chk) (u : Nat) : t.hist u = s.hist u := by
  unfold State.hist
  rw [h]

/-! ### A tile's first verdict -/

/-- A tile that waits for its replay: what drew its free values, whether its own verdict was voided, its digest (R242). -/
def replayTile (free : Nat) (void : Bool) (dig : Nat) : Tile :=
  ⟨.replay, free, void, 0, 0, void, false, dig, 0, true, none, [], 0, 0, 0⟩

/-- A tile whose verdict is reached: with it the copies exchange roles and it leaves the queue, without it it waits for its replay. -/
def State.tileJudged (s : State) (c : Nat) (b : Bank) (e : MatEntry) (m : MmaSpec) (free : Nat)
    (vals : List (Nat × List (BitVec 32))) (ok void : Bool) : State :=
  let w := s.setCore c ((s.core c).putWork (pairInt b.a.fmt) vals)
  if ok && !void then (w.setCore c ((w.core c).swapRoles m)).popMatrix c e.tag
  else ((w.bump F.CHK_CNT_FAIL.COUNT).bump F.CHK_CNT_REPLAY.COUNT).setCore c
    { w.core c with tile := some (replayTile free void (digest vals)) }

/-- The verdict on a tile of this module's own queue, without an injected error, on a core whose `MXA` and `CKL` units serve. -/
theorem exec_tileVerdict {s : State} {c : Nat} {ups : List TileUpset} {r : Int} {e : MatEntry} {m : MmaSpec}
    (hh : (s.core c).headTile = some (e, m)) (hf : ((s.core c).bank m.bank).filled = true)
    (hs : ((s.core c).bank m.bank).stale = false) (ht : (s.core c).tile = none) (ha : (s.core c).arbFor = none)
    (harm : s.rd F.CHK_INJECT.ARM = 0) (ho : e.orphan = false) (hx : (s.hist (coreUnit c uMXA)).perm = false)
    (hk : (s.hist (coreUnit c uCKL)).perm = false) :
    exec (.tileVerdict c ups r .clean) s = .next (
      let b := (s.core c).bank m.bank
      let vals := tileValues (s.core c) b s.free m ups
      let v := s.tick.tileVerdict (s.core c) b s.free m vals r
      v.1.tileJudged c b e m s.free vals v.2.1 v.2.2) := by
  refine congrArg Host.Outcome.next ?_
  have hinj : ups ++ injectUpset m 0 0 = ups := List.append_nil ups
  simp only [hh, hf, hs, ht, ha, State.injection_unarmed harm, State.sramEcc_clean, hinj]
  have hchk := (State.tileVerdict_rest s.tick (s.core c) ((s.core c).bank m.bank) s.free m
    (tileValues (s.core c) ((s.core c).bank m.bank) s.free m ups) r).1
  refine (if_neg Bool.false_ne_true).trans ((if_neg Bool.false_ne_true).trans (ite_congr ?_ (fun _ => rfl) fun _ => ?_))
  · exact congrArg (· = true) (Bool.and_true _)
  · refine (if_neg (ne_true_of_eq_false ho)).trans (if_neg ?_)
    have hserve (u : Nat) (h : (s.hist u).perm = false) := (congrArg Hist.perm (State.hist_of_chk hchk u)).trans h
    exact fun hp => (Bool.or_eq_true_iff.mp hp).elim (ne_true_of_eq_false (hserve _ hx)) (ne_true_of_eq_false (hserve _ hk))

/-! ### Fills and stores -/

theorem exec_mloadBankFilled {s : State} {c : Nat} {e : MatEntry} {m : MloadSpec}
    (hf : firstFree MatOp.isMload [] (s.core c).mq = some e) (hop : e.op = .mload m) (hs : (s.core c).stopped = false) :
    exec (.mloadBankFilled c) s =
      .next ((s.setCore c ((s.core c).setBank m.bank (s.readBank c m e.tag))).popMatrix c e.tag) := by
  refine congrArg Host.Outcome.next ?_
  simp only [hs, hf, hop]
  rfl

/-- An `MSTORE` that no retained span holds back writes where the accumulator takes its target, and faults where it does not. -/
theorem exec_mstoreComplete {s : State} {c : Nat} {e : MatEntry} {m : MstoreSpec}
    (hf : firstFree MatOp.isMstore [] (s.core c).mq = some e) (hop : e.op = .mstore m) (hs : (s.core c).stopped = false)
    (hr : ((MstoreSpec.ranges m).any fun r => ((s.core c).retain.filter fun sp => !((s.core c).mq.any fun x => x.tag == sp.tag)).any
      fun sp => overlap r.1 r.2 sp.addr sp.len) = false) :
    exec (.mstoreComplete c) s = .next (
      if ((MstoreSpec.subs m).any fun b => !mstoreAccepts ((s.core c).sub b).ckptInt m.fmt) then
        s.threadFault c e.thread fcMATRIX_SHAPE e.pc (some e.pc)
      else ((mstoreWrites (s.core c) e m).foldl (fun (s : State) w => s.putLocal (coreStoreBase c + w.1) w.2) s).popMatrix
        c e.tag) := by
  refine congrArg Host.Outcome.next ?_
  simp only [hs, hf, hop]
  exact (if_neg Bool.false_ne_true).trans (if_neg (ne_true_of_eq_false hr))

/-- Settles O26: a tile is judged by `exec_tileVerdict`, with the comparison's verdict where no error voids it. -/
theorem tileRows : Obligations.TileRows := by
  refine ⟨?filled, ?judged, ?voided, ?stale, ?stored, ?refused, ?drained⟩
  case filled => exact fun s c e m hf hop hs => exec_mloadBankFilled hf hop hs
  case judged =>
    intro s c ups e m hh hf hs ht ha harm ho hx hk
    refine (exec_tileVerdict hh hf hs ht ha harm ho hx hk).trans (congrArg Host.Outcome.next ?_)
    exact ite_congr (congrArg (· = true) (Bool.and_true _)) (fun _ => rfl) fun _ => rfl
  case voided =>
    intro s c ups r e m hh hf hs ht ha harm ho hx hk hr
    refine ⟨_, exec_tileVerdict hh hf hs ht ha harm ho hx hk, ?_⟩
    obtain ⟨-, hmem, hevr⟩ := State.tileVerdict_rest s.tick (s.core c) ((s.core c).bank m.bank) s.free m
      (tileValues (s.core c) ((s.core c).bank m.bank) s.free m ups) r
    dsimp only
    rw [State.tileVerdict_void, hr]
    unfold State.tileJudged
    dsimp only
    rw [if_neg (by simp)]
    refine ⟨?_, hmem, hevr⟩
    rw [State.core_setCore]
    rfl
  case stale =>
    intro s c ups r f e m hh hf hs ht ha
    refine congrArg Host.Outcome.next ?_
    simp only [hh, hf, hs, ht, ha]
    rfl
  case stored =>
    exact fun s c e m hf hop hs hr ha =>
      (exec_mstoreComplete hf hop hs hr).trans (congrArg Host.Outcome.next (if_neg (ne_true_of_eq_false ha)))
  case refused =>
    exact fun s c e m hf hop hs hr ha => (exec_mstoreComplete hf hop hs hr).trans (congrArg Host.Outcome.next (if_pos ha))
  case drained => exact fun s c => rfl

end Sys2Proof.Machine
end

section
/-! PROOFS. The upkeep of the cores: gating, self-tests, histories, retirement, the checking settings, injection, ageing. -/

namespace Sys2Proof.Machine
open Sys2Proof Safety

/-! ### Gating -/

/-- What an idle core gates after its configured time (R179, R181). -/
theorem exec_coreClockGate {s : State} {c n : Nat} (f : Bool) (hi : s.coreIdle c = true) (hg : (s.core c).gate = .run)
    (h0 : s.rd F.CORE_GATE_CFG.CG_IDLE c ≠ 0) (hn : s.rd F.CORE_GATE_CFG.CG_IDLE c ≤ n) :
    exec (.coreClockGate c n f) s = .next (s.gateCore c (fun k => { k with gate := .clock }) f) :=
  congrArg Host.Outcome.next (if_pos ⟨hi, hg, h0, hn⟩)

theorem exec_corePowerGate {s : State} {c n : Nat} (f : Bool) (hi : s.coreIdle c = true) (hg : (s.core c).gate ≠ .power)
    (h0 : s.rd F.CORE_GATE_CFG.PG_IDLE c ≠ 0) (hn : s.rd F.CORE_GATE_CFG.PG_IDLE c ≤ n) :
    exec (.corePowerGate c n f) s = .next (s.gateCore c Core.loseLogic f) :=
  congrArg Host.Outcome.next (if_pos ⟨hi, hg, h0, hn⟩)

/-! ### Self-tests -/

/-- The state in which a self-test of core `c` has been run at this moment. -/
def State.tested (s : State) (c : Nat) : State :=
  s.setCore c { s.core c with testAt := s.opMs, testPer := s.testPeriod, mustTest := false }

/-- A due self-test of an idle core: every unit that fails is charged, and a core that a change returned is retired again where its
test fails twice (R257, R260, R270). -/
theorem exec_coreSelfTest {s : State} {c : Nat} (r1 r2 : SelfTestRun) (hi : s.coreIdle c = true) (hd : s.testDue c = true)
    (hg : s.gated (coreQuarter c) = false) :
    exec (.coreSelfTest c r1 r2) s = .next (
      let u := (SelfTestRun.failing r1 ++ SelfTestRun.failing r2).eraseDups.foldl (fun (s : State) u => s.testFailed c u
        (b2n ((SelfTestRun.failing r1).contains u) + b2n ((SelfTestRun.failing r2).contains u))) (s.tested c)
      if (SelfTestRun.failing r1).isEmpty then s.tested c
      else if (s.core c).mustTest ∧ !(SelfTestRun.failing r2).isEmpty ∧ u.retire c = 0 then u.setRetire c 1 else u) :=
  congrArg Host.Outcome.next (if_neg (by simp [hi, hd, hg]))

/-! ### Retirement -/

section
variable {s t : State}

theorem State.retire_of_chk (h : t.chk = s.chk) (c : Nat) : t.retire c = s.retire c := by
  unfold State.retire
  rw [h]

theorem State.inService_of_chk (h : t.chk = s.chk) (q : Nat) : t.inService q = s.inService q := by
  unfold State.inService
  simp only [State.retire_of_chk h]

theorem State.qMin_of_chk (h : t.chk = s.chk) : t.qMin = s.qMin := by
  unfold State.qMin
  rw [h]

end

theorem State.retire_setRetire (s : State) (c v : Nat) : (s.setRetire c v).retire c = v := kget_kset_same _ _ _ _

/-- The state in which core `c` is retired and its logic gated (R267), before the event. -/
def State.retired (s : State) (c : Nat) : State := (s.setRetire c 2).setCore c (s.core c).loseLogic

/-- The state in which the retirement is on record, before the quarter is judged. -/
def State.retiredNoted (s : State) (c : Nat) : State :=
  (s.retired c).note evCoreRetired 1 1 c [c, (s.retired c).inService (coreQuarter c)]

theorem State.retiredNoted_chk (s : State) (c : Nat) : (s.retiredNoted c).chk = (s.setRetire c 2).chk := State.note_chk ..

theorem State.retiredNoted_cores (s : State) (c : Nat) : (s.retiredNoted c).cores = (s.retired c).cores := State.note_cores ..

theorem State.retiredNoted_qMin (s : State) (c : Nat) : (s.retiredNoted c).qMin = s.qMin :=
  (State.qMin_of_chk (s.retiredNoted_chk c)).trans (rfl : (s.setRetire c 2).qMin = s.qMin)

theorem State.retiredNoted_inService (s : State) (c q : Nat) : (s.retiredNoted c).inService q = (s.setRetire c 2).inService q :=
  State.inService_of_chk (s.retiredNoted_chk c) q

theorem exec_coreRetired {s : State} {c : Nat} (hr : s.retire c = 1) (hl : (s.core c).live = []) (hm : (s.core c).mq = [])
    (hv : (s.core c).reserved = []) :
    exec (.coreRetired c) s = .next ((s.retiredNoted c).fellBelow (coreQuarter c) (s.inService (coreQuarter c))) :=
  congrArg Host.Outcome.next (if_neg (by simp [hr, hl, hm, hv]))

/-- A quarter falls below `Q_MIN` where it had enough cores before and has not now (R269). -/
theorem State.fellBelow_stays {s : State} {q before : Nat} (h : before < s.qMin ∨ s.qMin ≤ s.inService q) :
    s.fellBelow q before = s := if_neg (by omega)

theorem State.fellBelow_falls {s : State} {q before : Nat} (hb : s.qMin ≤ before) (hn : s.inService q < s.qMin) :
    s.fellBelow q before =
      (s.wr F.ID_CAP.Q_LIVE (putBit (s.rd F.ID_CAP.Q_LIVE) q false)).record evQuarterBelowMin 4 2 q [q, s.inService q] :=
  if_pos ⟨hb, hn⟩

/-- A bit that was cleared before a number was cut to its field reads 0. -/
theorem bitOf_putBit_mod (v q w : Nat) : bitOf (putBit v q false % 2 ^ w) q = false := by
  rw [bitOf_eq_testBit, Nat.testBit_mod_two_pow, ← bitOf_eq_testBit, bitOf_putBit_same, Bool.and_false]

/-- The quarter that fell below leaves `Q_LIVE`; the checks and the cores stay as they were. -/
theorem State.fellBelow_rest {s : State} {q before : Nat} (hb : s.qMin ≤ before) (hn : s.inService q < s.qMin) :
    (s.fellBelow q before).chk = s.chk ∧ (s.fellBelow q before).cores = s.cores ∧
      bitOf ((s.fellBelow q before).rd F.ID_CAP.Q_LIVE) q = false := by
  rw [State.fellBelow_falls hb hn]
  refine ⟨by simp, by simp, ?_⟩
  rw [State.rd_record _ _ _ _ _ _ _ _ _ _ (by decide), State.rd_wr_same _ _ _ _ (by decide)]
  exact bitOf_putBit_mod _ _ _

/-! ### A module that leaves `DORMANT` -/

/-- Leaving `DORMANT` writes `MOD_STATE` and the block's power alone (R106). -/
theorem State.rd_leaveDormant (s : State) (g : Fld) (j : Nat) (h : F.ID_PWR_STATE.MOD_STATE.apart 0 g j = true) :
    s.leaveDormant.rd g j = s.rd g j := by
  unfold State.leaveDormant
  split
  · exact State.rd_wr_apart _ _ _ _ _ _ (by decide) h
  · split <;> rfl

theorem State.leaveDormant_within (s : State) : Within 0x82 s s.leaveDormant :=
  kept_leaveDormant (keeps_within _ s) (Within.refl _ s)

theorem State.leaveDormant_chk (s : State) : s.leaveDormant.chk = s.chk := s.leaveDormant_within.same .chk rfl
theorem State.leaveDormant_cores (s : State) : s.leaveDormant.cores = s.cores := s.leaveDormant_within.same .cores rfl
theorem State.leaveDormant_mem (s : State) : s.leaveDormant.mem = s.mem := s.leaveDormant_within.same .mem rfl
theorem State.leaveDormant_evr (s : State) : s.leaveDormant.evr = s.evr := s.leaveDormant_within.same .evr rfl

/-! ### The staged settings and the injection -/

/-- The cores with a tile that executes or awaits its end. -/
def State.tiling (s : State) : List (Nat × Core) := s.cores.filter fun c => c.2.tile.isSome || c.2.executing.isSome

theorem exec_chkCfgCommit (s : State) : exec .chkCfgCommit s = .next (if s.tiling = [] then s.leaveDormant.chkApply
    else ({ s.leaveDormant with chk.commit := s.tiling.map Prod.fst }).wr F.CHK_CFG.COMMIT 1) := by
  refine congrArg Host.Outcome.next ?_
  unfold State.chkCommit State.tiling
  dsimp only
  rw [State.leaveDormant_cores]
  exact ite_congr (propext (List.isEmpty_iff.trans List.map_eq_nil_iff)) (fun _ => rfl) fun _ => rfl

theorem injectWrite_allowed {s : State} (h : s.mode = mTEST ∨ s.rd F.SEC_STATUS.DEBUG = 1) {v : Nat} (hv : bitOf v 31 = true) :
    s.leaveDormant.injectWrite v = ((s.leaveDormant.wr F.CHK_INJECT.CORE (bitsOf v 8 0)).wr F.CHK_INJECT.KIND (bitsOf v 10 9)).wr
      F.CHK_INJECT.ARM 1 := by
  have ha : s.leaveDormant.mode = mTEST ∨ s.leaveDormant.flag F.SEC_STATUS.DEBUG = true := by
    unfold State.mode at h ⊢
    unfold State.flag
    rw [State.rd_leaveDormant _ _ _ (by decide), State.rd_leaveDormant _ _ _ (by decide)]
    exact h.imp_right decide_eq_true
  refine (if_pos ha).trans ?_
  dsimp only [State.when]
  rw [if_pos hv]

theorem injectWrite_refused {s : State} (hm : s.mode ≠ mTEST) (hd : s.rd F.SEC_STATUS.DEBUG = 0) (v : Nat) :
    s.leaveDormant.injectWrite v = s.leaveDormant.noteOffset 0 0x100200 0 := by
  refine if_neg ?_
  unfold State.mode at hm ⊢
  unfold State.flag
  rw [State.rd_leaveDormant _ _ _ (by decide), State.rd_leaveDormant _ _ _ (by decide), hd]
  simp [hm]

/-! ### Ageing -/

/-- A hinge of which both drives are kept gives its heater power (Table 17-3). -/
theorem measureHinge_both {s : State} {i : Nat} {cr ba : Int}
    (hc : kfind (kset s.age.drives (2 * i + s.rd F.HCE_LOOP_STAT.TARGET i) (s.loop i).u) (2 * i + 1) = some cr)
    (hb : kfind (kset s.age.drives (2 * i + s.rd F.HCE_LOOP_STAT.TARGET i) (s.loop i).u) (2 * i) = some ba) :
    s.measureHinge i = ({ s with
      age.drives := kset s.age.drives (2 * i + s.rd F.HCE_LOOP_STAT.TARGET i) (s.loop i).u } : State).keepMeasured 0 i
        (heaterPower cr ba) := by
  unfold State.measureHinge
  simp only [hc, hb]

/-- Settles O28: each row is the branch of its command that its premises choose. -/
theorem coreUpkeepRows : Obligations.CoreUpkeepRows := by
  refine ⟨?clock, ?power, ?wake, ?passes, ?fails, ?written, ?unwritten, ?retried, ?retires, ?falls, ?commits, ?waits, ?arms,
    ?refuses, ?measures, ?hinge, ?deferred, ?replans, ?requested, ?busy⟩
  case clock => exact fun s c n f hi hg h0 hn => exec_coreClockGate f hi hg h0 hn
  case power => exact fun s c n f hi hg h0 hn => exec_corePowerGate f hi hg h0 hn
  case wake => exact fun s c h => congrArg Host.Outcome.next (if_neg h)
  case passes =>
    intro s c r1 r2 hi hd hg h1
    rw [exec_coreSelfTest r1 r2 hi hd hg, h1]
    rfl
  case fails =>
    intro s c r1 r2 u hi hd hg hm h1 h2
    have hu : ([u] ++ []).eraseDups = [u] := rfl
    have hn : b2n ([u].contains u) + b2n ([].contains u) = 1 := by simp [b2n]
    rw [exec_coreSelfTest r1 r2 hi hd hg, h1, h2, hm, hu]
    exact congrArg (fun n => Host.Outcome.next ((s.tested c).testFailed c u n)) hn
  case written => exact fun s u hd => ⟨_, congrArg Host.Outcome.next ((if_neg (by simp [hd])).trans (if_pos rfl)), by simp, rfl, rfl⟩
  case unwritten =>
    intro s u hd
    exact ⟨_, congrArg Host.Outcome.next ((if_neg (by simp [hd])).trans (if_neg (by decide))), by simp, by simp, recorded_note rfl⟩
  case retried => exact fun s u hd => ⟨_, congrArg Host.Outcome.next (if_pos (by simp [hd])), by simp, rfl, rfl⟩
  case retires =>
    intro s c hr hl hm hv hq
    rw [exec_coreRetired hr hl hm hv, State.fellBelow_stays (by rwa [State.retiredNoted_qMin, State.retiredNoted_inService])]
    rfl
  case falls =>
    intro s c hr hl hm hv hq hn
    rw [← State.retiredNoted_qMin s c] at hq hn
    rw [← State.retiredNoted_inService] at hn
    obtain ⟨hchk, hcores, hbit⟩ := State.fellBelow_rest hq hn
    refine ⟨_, exec_coreRetired hr hl hm hv, ?_, ?_, hbit⟩
    · rw [State.retire_of_chk (hchk.trans (s.retiredNoted_chk c))]
      exact State.retire_setRetire s c 2
    · rw [State.core_of_cores (hcores.trans (s.retiredNoted_cores c))]
      exact congrArg Core.gate (State.core_setCore _ _ _)
  case commits =>
    intro s h
    refine ⟨_, (exec_chkCfgCommit s).trans (congrArg Host.Outcome.next (if_pos h)), ?_, ?_, ?_, s.leaveDormant_mem⟩
    · exact State.rd_leaveDormant _ _ _ (by decide)
    · exact State.rd_leaveDormant _ _ _ (by decide)
    · exact State.rd_wr_lit _ _ _ _ (by decide) (by decide)
  case waits =>
    intro s h
    have hq : s.leaveDormant.chk.qMin = s.chk.qMin := by rw [s.leaveDormant_chk]
    have ha : s.leaveDormant.chk.arbWait = s.chk.arbWait := by rw [s.leaveDormant_chk]
    refine ⟨_, (exec_chkCfgCommit s).trans (congrArg Host.Outcome.next (if_neg h)), hq, ha, rfl, ?_, s.leaveDormant_mem⟩
    exact State.rd_wr_lit _ _ _ _ (by decide) (by decide)
  case arms =>
    intro s v h hv
    refine ⟨_, congrArg Host.Outcome.next (injectWrite_allowed h hv), ?_, ?_, ?_, s.leaveDormant_mem⟩
    · rw [State.rd_wr_apart _ _ _ _ _ _ (by decide) (by decide), State.rd_wr_apart _ _ _ _ _ _ (by decide) (by decide)]
      exact State.rd_wr_same _ _ _ _ (by decide)
    · rw [State.rd_wr_apart _ _ _ _ _ _ (by decide) (by decide)]
      exact State.rd_wr_same _ _ _ _ (by decide)
    · exact State.rd_wr_lit _ _ _ _ (by decide) (by decide)
  case refuses =>
    intro s v hm hd
    refine ⟨_, congrArg Host.Outcome.next (injectWrite_refused hm hd v), ?_, recorded_note s.leaveDormant_evr⟩
    exact (State.note_mem ..).trans s.leaveDormant_mem
  case measures =>
    exact fun s k i v h hk => congrArg Host.Outcome.next ((if_neg (by simp [h])).trans (if_neg hk))
  case hinge =>
    intro s i v cr ba h hc hb
    exact congrArg Host.Outcome.next ((if_neg (by simp [h])).trans ((if_pos rfl).trans (measureHinge_both hc hb)))
  case deferred =>
    intro s hg hl
    refine ⟨_, congrArg Host.Outcome.next ((if_neg (Nat.not_lt.mpr hl)).trans (if_pos hg)), ?_, rfl, rfl⟩
    exact State.rd_wr_lit _ _ _ _ (by decide) (by decide)
  case replans =>
    exact fun s hg hl => congrArg Host.Outcome.next ((if_neg (Nat.not_lt.mpr hl)).trans (if_neg (ne_true_of_eq_false hg)))
  case requested =>
    intro s q n h hg hfree hdry
    refine congrArg Host.Outcome.next ((State.serve_taking h _).trans ?_)
    rw [if_neg (ne_true_of_eq_false hg), State.accept_free hfree]
    dsimp only
    rw [if_neg (ne_true_of_eq_false hdry)]
  case busy =>
    exact fun s q h hg => congrArg Host.Outcome.next ((State.serve_taking h _).trans (if_pos hg))

end Sys2Proof.Machine
end

section
/-! PROOFS. FP32 minimum, maximum and compare on NaN and on zeros (R207), and the INT32 functions of a vector lane (R209). -/

namespace Sys2Proof.Machine
open Sys2Proof

/-! ### FP32 with a NaN operand -/

section Nan
variable {a b : BitVec 32}

theorem f32Min_of_isNan (h : (ofF32 a).isNan = true ∨ (ofF32 b).isNan = true) : f32Min a b = 0x7FC00000 :=
  if_pos (Bool.or_eq_true_iff.mpr h)

theorem f32Max_of_isNan (h : (ofF32 a).isNan = true ∨ (ofF32 b).isNan = true) : f32Max a b = 0x7FC00000 :=
  if_pos (Bool.or_eq_true_iff.mpr h)

theorem f32Cmp_of_isNan (h : (ofF32 a).isNan = true ∨ (ofF32 b).isNan = true) (c : Cmp) :
    f32Cmp c a b = decide (c = .ne) :=
  (if_pos (Bool.or_eq_true_iff.mpr h)).trans (by cases c <;> rfl)

end Nan

/-! ### FP32 zeros -/

theorem ofF32_posZero : ofF32 0 = .fin false 0 (-149) := by decide

theorem ofF32_negZero : ofF32 0x80000000 = .fin true 0 (-149) := by decide

/-- Zeros of either sign have the same value, so that a minimum or maximum of two of them turns on the sign bit. -/
theorem Num.cmp_fin_zero (na nb : Bool) (ea eb : Int) : (Num.fin na 0 ea).cmp (.fin nb 0 eb) = 0 := by
  simp [Num.cmp, sgn]

section Zeros
variable {a b : BitVec 32} {na nb : Bool} {ea eb : Int} (ha : ofF32 a = .fin na 0 ea) (hb : ofF32 b = .fin nb 0 eb)
include ha hb

theorem f32Min_of_zeros : f32Min a b = if na then a else b := by
  simp [f32Min, ha, hb, Num.isNan, Num.cmp_fin_zero, Num.sign]

theorem f32Max_of_zeros : f32Max a b = if na then b else a := by
  simp [f32Max, ha, hb, Num.isNan, Num.cmp_fin_zero, Num.sign]

end Zeros

/-- Settles O53: a NaN operand takes the first branch of each function; two zeros tie, and the sign bit decides. -/
theorem minimumMaximumAndCompare : Obligations.MinimumMaximumAndCompare := by
  unfold Obligations.MinimumMaximumAndCompare
  constructor
  · intro a b h
    refine ⟨f32Min_of_isNan h, f32Max_of_isNan h, f32Cmp_of_isNan h .ne, fun c hc => ?_⟩
    exact (f32Cmp_of_isNan h c).trans (decide_eq_false hc)
  · rintro a b (⟨rfl, rfl⟩ | ⟨rfl, rfl⟩)
    · exact ⟨f32Min_of_zeros ofF32_negZero ofF32_posZero, f32Max_of_zeros ofF32_negZero ofF32_posZero⟩
    · exact ⟨f32Min_of_zeros ofF32_posZero ofF32_negZero, f32Max_of_zeros ofF32_posZero ofF32_negZero⟩

/-! ### INT32 shifts -/

/-- A shift counts by the five low bits of its second operand. -/
theorem toNat_and_31_mod (b : BitVec 32) : (b &&& 31).toNat % 32 = b.toNat % 32 := by
  rw [BitVec.toNat_and, show (31 : BitVec 32).toNat = 2 ^ 5 - 1 from rfl, Nat.and_two_pow_sub_one_eq_mod]
  exact Nat.mod_mod _ _

theorem intFn_shift_and_31 (a b : BitVec 32) {f : IntFn} (hf : f ∈ [IntFn.shl, .shr, .sar]) :
    intFn f a b = intFn f a (b &&& 31) := by
  simp only [List.mem_cons, List.not_mem_nil, or_false] at hf
  obtain rfl | rfl | rfl := hf <;> simp only [intFn, toNat_and_31_mod]

theorem toNat_intFn_shl (a b : BitVec 32) : (intFn .shl a b).toNat = a.toNat * 2 ^ (b.toNat % 32) % 2 ^ 32 := by
  rw [intFn, BitVec.toNat_shiftLeft, Nat.shiftLeft_eq]

theorem toNat_intFn_shr (a b : BitVec 32) : (intFn .shr a b).toNat = a.toNat / 2 ^ (b.toNat % 32) := by
  rw [intFn, BitVec.toNat_ushiftRight, Nat.shiftRight_eq_div_pow]

/-- The arithmetic shift is the division of the signed number, rounded down. -/
theorem toInt_intFn_sar (a b : BitVec 32) : (intFn .sar a b).toInt = a.toInt / 2 ^ (b.toNat % 32) := by
  rw [intFn, BitVec.toInt_sshiftRight, Int.shiftRight_eq_div_pow]
  norm_cast

/-- Settles O54: the lane's sum, difference and product are those of 32-bit words, and each shift has its equation. -/
theorem vectorIntegersWrap : Obligations.VectorIntegersWrap := by
  unfold Obligations.VectorIntegersWrap
  intro a b
  exact ⟨BitVec.toNat_add a b, BitVec.toInt_add a b, BitVec.toInt_sub, BitVec.toNat_mul a b, BitVec.toInt_mul a b,
    toNat_intFn_shl a b, toNat_intFn_shr a b, toInt_intFn_sar a b, fun _ => intFn_shift_and_31 a b⟩

end Sys2Proof.Machine
end

section
/-! PROOFS. A failing tile after its first verdict: the replay, the sibling that arbitrates, and the transfer of its result. -/

namespace Sys2Proof.Machine
open Sys2Proof Safety

section Unresolved
variable {s : State} {c : Nat} {e : MatEntry} {m : MmaSpec} {x : Tile}
  (ht : (s.core c).tile = some x) (hh : (s.core c).headTile = some (e, m))
include ht hh

/-! ### The replay -/

/-- An uncorrectable read leaves the tile unresolved; 4 is the model's number for that cause (notes/assumptions/103.md). -/
theorem exec_replayVerdict_uncorrectable {f : EccFinding} (hp : x.phase = .replay) (hf : EccFinding.sram f = .uncorrectable)
    (ups : List TileUpset) (r : Int) : exec (.replayVerdict c ups r f) s = .next (s.endTile c e m x 0xA none 4) := by
  refine congrArg Host.Outcome.next ?_
  simp only [ht, hh]
  exact (if_neg (not_not_intro hp)).trans (if_pos hf)

/-- A replay judged without a residue error, of a tile in which none is left open and nothing was injected: its values stand in the
working copies. They are accepted where they pass and differ from the first result; otherwise arbitration is requested (R244). -/
theorem exec_replayVerdict (hp : x.phase = .replay) (hi : x.inj = 0) (hv : x.oVoid = false) (hd : x.resDue = false)
    (ho : e.orphan = false) (ups : List TileUpset) :
    exec (.replayVerdict c ups 0 .clean) s = .next (
      let b := s.reread c m.bank
      let v := tileValues (s.core c) b x.free m ups
      let j := tileCheck (s.core c) b x.free m v
      let u := s.tick.bump F.CHK_CNT_UNCHK.COUNT 0 j.2
      let w := u.setCore c (((u.core c).setBank m.bank b).putWork (pairInt b.a.fmt) v)
      if j.1 = true ∧ digest v ≠ x.digO then w.acceptTile c e m { x with digP := digest v, pFail := false, resDue := false } 1
      else (w.bump F.CHK_CNT_ARB.COUNT).setCore c
        { w.core c with tile := some { x with digP := digest v, pFail := !j.1, resDue := false, phase := .wantSibling } }) := by
  refine congrArg Host.Outcome.next ?_
  have hinj : (ups ++ if x.inj = 3 then injectUpset m 3 x.injBits else []) = ups := by simp [hi]
  simp only [ht, hh, State.sramEcc_clean, hinj, State.tileVerdict_exact, hv, hd, ho]
  have hread : EccFinding.sram .clean ≠ .uncorrectable := by decide
  refine (if_neg (not_not_intro hp)).trans ((if_neg hread).trans ?_)
  cases (tileCheck (s.core c) (s.reread c m.bank) x.free m (tileValues (s.core c) (s.reread c m.bank) x.free m ups)).1 with
  | false => simp [State.when]
  | true => simp [State.when]

/-! ### The sibling -/

/-- Core `y` serves as the sibling of core `c`: it ends the tile that it executes, and then its queue stands (R246). -/
def State.engageSibling (s : State) (c y : Nat) : State :=
  s.setCore y { s.core y with
    arbFor := some c, pausing := (s.core y).executing.map MatEntry.tag, gate := .run, entering := false }

/-- A sibling that is found takes the tile; what it cannot read leaves the tile unresolved (R245, R246, R248). -/
theorem exec_siblingStart {y : Nat} (hp : x.phase = .wantSibling) (hy : s.sibling c e.ctx = some y) (uncorrectable : Bool) :
    exec (.siblingStart c uncorrectable) s = .next (
      if uncorrectable then (s.engageSibling c y).endTile c e m { x with sibling := some y, phase := .arbitrating } 0xA none 4
      else (s.engageSibling c y).setCore c
        { (s.engageSibling c y).core c with tile := some { x with sibling := some y, phase := .arbitrating } }) := by
  refine congrArg Host.Outcome.next ?_
  simp only [ht, hh, hy]
  exact if_neg (not_not_intro hp)

theorem exec_arbWaitExpires (hp : x.phase = .wantSibling) :
    exec (.arbWaitExpires c) s = .next (s.endTile c e m x 0xA none 3) := by
  refine congrArg Host.Outcome.next ?_
  simp only [ht, hh]
  exact if_pos hp

/-! ### Arbitration -/

/-- The sibling's result Q, with the values `v`, decides: it stands in the sibling's working copies, and it is accepted where the core
holds it already, and is otherwise to be transferred (R247, R248). -/
def State.decideTile (s : State) (c y : Nat) (e : MatEntry) (m : MmaSpec) (x : Tile) (int : Bool)
    (v : List (Nat × List (BitVec 32))) : State :=
  let w := s.setCore y ((s.core y).putWork int v)
  let tl := { x with q := v, digQ := digest v, outcome := arbOutcome x (digest v) }
  if digest v = x.digP then w.acceptTile c e m tl (arbOutcome x (digest v))
  else w.setCore c { w.core c with tile := some { tl with phase := .transfer } }

/-- Arbitration of a replayed tile, the sibling's first verdict without a residue error: a first result that passes decides, else
a second one that passes; where both fail the tile is unresolved (R246 to R248). -/
theorem exec_arbiterVerdict {y : Nat} (hp : x.phase = .arbitrating) (hy : x.sibling = some y) (hq : (s.core y).pausing = none)
    (hd : x.direct = false) (u1 u2 : List TileUpset) (r2 : Int) :
    exec (.arbiterVerdict c u1 u2 0 r2) s = .next (
      let b := s.reread c m.bank
      let v1 := tileValues (s.core c) b x.free m u1
      let v2 := tileValues (s.core c) b x.free m u2
      let j1 := tileCheck (s.core c) b x.free m v1
      let t1 := s.tick.bump F.CHK_CNT_UNCHK.COUNT 0 j1.2
      let j2 := t1.tileVerdict (s.core c) b x.free m v2 r2
      let t2 := j2.1.arbResidue y e.ctx j2.2.2 2
      if j1.1 then t1.decideTile c y e m x (pairInt b.a.fmt) v1
      else if !j2.2.1 || j2.2.2 then t2.endTile c e m x 0xA none 1
      else t2.decideTile c y e m x (pairInt b.a.fmt) v2) := by
  refine congrArg Host.Outcome.next ?_
  simp only [ht, hh]
  split
  next y' hp' hy' =>
    obtain rfl : y' = y := Option.some_inj.mp (hy'.symm.trans hy)
    simp only [hq, hd, State.tileVerdict_exact, State.decideTile]
    by_cases hj : (tileCheck (s.core c) (s.reread c m.bank) x.free m (tileValues (s.core c) (s.reread c m.bank) x.free m u1)).1
    · simp only [hj]
      rfl
    · simp only [hj]
      rfl
  next h => exact absurd hy (h y hp)

/-! ### The transfer -/

theorem exec_resultTransferComplete_ok (hp : x.phase = .transfer) (hd : x.direct = false) :
    exec (.resultTransferComplete c true) s = .next ((s.setCore c ((s.core c).putWork
      (pairInt ((s.core c).bank m.bank).a.fmt) x.q)).acceptTile c e m x x.outcome) := by
  refine congrArg Host.Outcome.next ?_
  simp only [ht, hh, hd]
  exact if_neg (not_not_intro hp)

theorem exec_resultTransferComplete_bad (hp : x.phase = .transfer) :
    exec (.resultTransferComplete c false) s = .next (
      if x.tries = 0 then s.setCore c { s.core c with tile := some { x with tries := 1 } } else s.endTile c e m x 0xA none 2) := by
  refine congrArg Host.Outcome.next ?_
  simp only [ht, hh]
  exact if_neg (not_not_intro hp)

end Unresolved

/-- Settles O27: each row is the branch of its command that the tile's phase and the verdict choose. -/
theorem replayRows : Obligations.ReplayRows := by
  refine ⟨?replayed, ?unreadReplay, ?engaged, ?unreadSibling, ?decided, ?failsTwice, ?transferred, ?retried, ?mismatched, ?expired⟩
  case replayed => exact fun s c ups e m x ht hh hp hi hv hd ho => exec_replayVerdict ht hh hp hi hv hd ho ups
  case unreadReplay => exact fun s c ups r f e m x ht hh hp hf => exec_replayVerdict_uncorrectable ht hh hp hf ups r
  case engaged => exact fun s c e m x y ht hh hp hy => exec_siblingStart ht hh hp hy false
  case unreadSibling => exact fun s c e m x y ht hh hp hy => exec_siblingStart ht hh hp hy true
  case decided =>
    exact fun s c u1 u2 r2 e m x y ht hh hp hy hq hd =>
      ⟨_, exec_arbiterVerdict ht hh hp hy hq hd u1 u2 r2, fun h1 => if_pos h1⟩
  case failsTwice =>
    intro s c u1 u2 e m x y ht hh hp hy hq hd
    refine ⟨_, exec_arbiterVerdict ht hh hp hy hq hd u1 u2 0, fun h1 h2 => ?_⟩
    refine (if_neg (ne_true_of_eq_false h1)).trans (if_pos ?_)
    rw [State.tileVerdict_exact, h2]
    rfl
  case transferred => exact fun s c e m x ht hh hp hd => exec_resultTransferComplete_ok ht hh hp hd
  case retried =>
    exact fun s c e m x ht hh hp h0 =>
      (exec_resultTransferComplete_bad ht hh hp).trans (congrArg Host.Outcome.next (if_pos h0))
  case mismatched =>
    exact fun s c e m x ht hh hp h0 =>
      (exec_resultTransferComplete_bad ht hh hp).trans (congrArg Host.Outcome.next (if_neg h0))
  case expired => exact fun s c e m x ht hh hp => exec_arbWaitExpires ht hh hp

end Sys2Proof.Machine
end

section
/-! PROOFS. The memory unit: the scrubber, self-refresh, region commits, bias changes, the host's decoders and the timeout of a
request to another module. -/

namespace Sys2Proof.Machine
open Sys2Proof Safety

/-! ### The scrubber and self-refresh -/

/-- Up to three bytes in error are corrected (R280). -/
theorem EccFinding.dram_errors {n : Nat} (hlo : 1 ≤ n) (hhi : n ≤ 3) : EccFinding.dram (.errors n) = .corrected n :=
  (if_neg (by omega)).trans (if_pos hhi)

theorem State.rd_bump_same (s : State) (f : Fld) (i n : Nat) (hf : f.good = true) :
    (s.bump f i n).rd f i = (s.rd f i + n) % 2 ^ (f.hi + 1 - f.lo) :=
  (State.rd_wr_same _ _ _ _ hf).trans (Nat.mod_mod _ _)

/-- A granule that is not poisoned yet becomes so and is counted (R282). -/
theorem State.poisonGranule_fresh {s : State} {g : Nat} (h : kfind s.ms.poison g = none) :
    s.poisonGranule g = ({ s with ms.poison := kset s.ms.poison g () }).bump F.MEM_ECC_CNT_UNCORR.COUNT :=
  if_neg (by rw [h]; decide)

section
variable {s : State} {g : Nat} {e : EccFinding}

theorem exec_patrolScrub_disabled (h : s.rd F.MEM_CFG.SCRUB_EN = 0) : exec (.patrolScrub g e) s = .next s :=
  congrArg Host.Outcome.next (if_pos (by simp [State.flag, h]))

/-- A scrub read without an error changes nothing, whether the scrubber runs or not. -/
theorem exec_patrolScrub_clean (hv : EccFinding.dram e = .clean) : exec (.patrolScrub g e) s = .next s := by
  refine congrArg Host.Outcome.next ?_
  simp only [hv]
  exact ite_self s

variable (hen : s.rd F.MEM_CFG.SCRUB_EN = 1) (hd : (placeOf (g * 64)).isDram = true)
include hen hd

/-- A corrected error is counted, and recorded with the number of bytes in error (R283). -/
theorem exec_patrolScrub_corrected {n : Nat} (hv : EccFinding.dram e = .corrected n) :
    exec (.patrolScrub g e) s = .next ((s.bump F.MEM_ECC_CNT_CORR.COUNT).note evMemEccCorr 1 4 (deviceOf (g * 64))
      [deviceOf (g * 64), deviceAddr (g * 64), n]) := by
  refine congrArg Host.Outcome.next ((if_neg (by simp [State.flag, hen, hd])).trans ?_)
  simp only [hv]

/-- An uncorrectable granule is poisoned and recorded (R282, R283; which findings are so, notes/assumptions/107.md). -/
theorem exec_patrolScrub_uncorrectable (hv : EccFinding.dram e = .uncorrectable) :
    exec (.patrolScrub g e) s = .next ((s.poisonGranule g).note evMemScrubUncorr 1 4 (deviceOf (g * 64))
      [deviceOf (g * 64), deviceAddr (g * 64)]) := by
  refine congrArg Host.Outcome.next ((if_neg (by simp [State.flag, hen, hd])).trans ?_)
  simp only [hv]

end

/-- Devices that did not report self-refresh are recorded, and the reset trains in `FULL` (R286). -/
theorem exec_selfRefreshTimeout {s : State} {d : Nat} (h : d ≠ 0) : exec (.selfRefreshTimeout d) s =
    .next (({ s with ms.srFail := true, ms.full := true }).note evMemSrFail 5 0 0 [d]) :=
  congrArg Host.Outcome.next (if_neg h)

/-! ### Work that ends with a status -/

/-- The state in which the status of a work stands in its register, and the next work may start. -/
def State.workEnded (s : State) (status busy go : Fld) (v : Nat) : State := ((s.wr status v).wr busy 0).wr go 0

theorem State.rd_workEnded (s : State) {status busy go : Fld} (v : Nat) (hf : status.good ∧ busy.good ∧ go.good)
    (hs : busy.apart 0 status 0 ∧ go.apart 0 status 0) (hb : go.apart 0 busy 0) :
    (s.workEnded status busy go v).rd status = v % 2 ^ (status.hi + 1 - status.lo) ∧
      (s.workEnded status busy go v).rd busy = 0 := by
  obtain ⟨hst, hbusy, hgo⟩ := hf
  unfold State.workEnded
  rw [State.rd_wr_apart _ _ _ _ _ _ hgo hs.2, State.rd_wr_apart _ _ _ _ _ _ hbusy hs.1, State.rd_wr_same _ _ _ _ hst,
    State.rd_wr_apart _ _ _ _ _ _ hgo hb, State.rd_wr_same _ _ _ _ hbusy, Nat.zero_mod]
  exact ⟨rfl, rfl⟩

/-- The state in which a region commit ends (R292). -/
abbrev State.commitEnded (s : State) (status : Nat) : State :=
  s.workEnded F.MEM_REGION_COMMIT.STATUS F.MEM_REGION_COMMIT.BUSY F.MEM_REGION_COMMIT.GO status

theorem State.rd_commitEnded (s : State) (status : Nat) :
    (s.commitEnded status).rd F.MEM_REGION_COMMIT.STATUS = status % 2 ^ 16 ∧
      (s.commitEnded status).rd F.MEM_REGION_COMMIT.BUSY = 0 :=
  s.rd_workEnded status (by decide) (by decide) (by decide)

/-- The state in which a bias change ends (R324). -/
abbrev State.biasEnded (s : State) (status : Nat) : State :=
  s.workEnded F.MEM_BIAS_STATUS.STATUS F.MEM_BIAS_STATUS.BUSY F.MEM_BIAS_CMD.GO status

theorem State.rd_biasEnded (s : State) (status : Nat) :
    (s.biasEnded status).rd F.MEM_BIAS_STATUS.STATUS = status % 2 ^ 16 ∧
      (s.biasEnded status).rd F.MEM_BIAS_STATUS.BUSY = 0 :=
  s.rd_workEnded status (by decide) (by decide) (by decide)

/-! ### Region commits -/

theorem State.leaveDormant_ms (s : State) : s.leaveDormant.ms = s.ms := s.leaveDormant_within.same .ms rfl

/-- The staged table is read from its own registers alone. -/
theorem State.stagedRegions_congr {s t : State}
    (h : ∀ f n, f.reg = .MEM_REGION_LO ∨ f.reg = .MEM_REGION_HI → t.rd f n = s.rd f n) : t.stagedRegions = s.stagedRegions := by
  have one : ∀ n, t.stagedRegion n = s.stagedRegion n := by
    intro n
    simp (disch := decide) [State.stagedRegion, State.flag, h]
  simp only [State.stagedRegions, one]

theorem State.stagedRegions_leaveDormant (s : State) : s.leaveDormant.stagedRegions = s.stagedRegions := by
  refine State.stagedRegions_congr fun f n hf => s.rd_leaveDormant f n ?_
  have hoff : ¬ F.ID_PWR_STATE.MOD_STATE.reg.off 0 = f.reg.off n := by
    obtain h | h := hf <;> rw [h] <;> simp only [Reg.off, Reg.desc, F.ID_PWR_STATE.MOD_STATE] <;> omega
  exact Fld.apart_iff.mpr (.inl hoff)

/-- A commit takes the staged table (R292). -/
theorem exec_memRegionCommitGo {s : State} (h : s.rd F.MEM_REGION_COMMIT.BUSY = 0) : exec .memRegionCommitGo s =
    .next { (s.leaveDormant.wr F.MEM_REGION_COMMIT.GO 1).wr F.MEM_REGION_COMMIT.BUSY 1 with ms.commit := some s.stagedRegions } := by
  have hidle : ¬ s.leaveDormant.flag F.MEM_REGION_COMMIT.BUSY = true := by
    simp [State.flag, State.rd_leaveDormant _ F.MEM_REGION_COMMIT.BUSY 0 (by decide), h]
  refine congrArg Host.Outcome.next ((if_neg hidle).trans ?_)
  dsimp only
  rw [stagedRegions_wr _ _ _ rfl (by decide), stagedRegions_wr _ _ _ rfl (by decide), State.stagedRegions_leaveDormant]

section
variable {s : State} {new : List (Nat × Region)} (hc : s.ms.commit = some new)
include hc

theorem exec_regionCommitDone : exec .regionCommitDone s = .next (({ (if s.commitStatus new = stOK then
    { s with ms.regions := new } else s) with ms.commit := none } : State).commitEnded (s.commitStatus new)) := by
  refine congrArg Host.Outcome.next ?_
  simp only [hc]
  rfl

theorem exec_regionCommitDone_ok (h : s.commitStatus new = stOK) :
    exec .regionCommitDone s = .next (({ s with ms.regions := new, ms.commit := none }).commitEnded stOK) := by
  rw [exec_regionCommitDone hc, h, if_pos rfl]

theorem exec_regionCommitDone_refused (h : s.commitStatus new ≠ stOK) :
    exec .regionCommitDone s = .next (({ s with ms.commit := none }).commitEnded (s.commitStatus new)) := by
  rw [exec_regionCommitDone hc, if_neg h]

end

/-! ### Bias -/

/-- A bias command with `GO` starts a change over its range, while none runs (R324). -/
theorem exec_memBiasGo {s : State} {v : Nat} (h : s.rd F.MEM_BIAS_STATUS.BUSY = 0) (hv : bitOf v 63 = true) :
    ∃ u : State, exec (.memBiasGo v) s = .next
        { u.wr F.MEM_BIAS_STATUS.BUSY 1 with ms.biasRun := some ⟨bitsOf v 19 0, bitsOf v 39 20, bitOf v 40⟩ } ∧
      u.mem = s.mem := by
  have hidle : ¬ (((s.leaveDormant.wr F.MEM_BIAS_CMD.START (bitsOf v 19 0)).wr F.MEM_BIAS_CMD.COUNT (bitsOf v 39 20)).wr
      F.MEM_BIAS_CMD.TARGET (bitsOf v 40 40)).flag F.MEM_BIAS_STATUS.BUSY = true := by
    simp (disch := decide) only [State.flag, State.rd_wr_apart, State.rd_leaveDormant, h]
    decide
  have hgo : ¬ (!bitOf v 63) = true := by rw [hv]; decide
  exact ⟨_, congrArg Host.Outcome.next ((if_neg hgo).trans (if_neg hidle)), s.leaveDormant_mem⟩

/-- Of the granules in host bias, those outside a range. -/
def biasOutside (m : List (Nat × Unit)) (st n : Nat) : List (Nat × Unit) :=
  m.filter fun g => decide (g.1 < st) || decide (st + n ≤ g.1)

theorem not_inside_of_mem_biasOutside {m : List (Nat × Unit)} {st n : Nat} {g : Nat × Unit} (h : g ∈ biasOutside m st n) :
    ¬ (st ≤ g.1 ∧ g.1 < st + n) := by
  have hout := (List.mem_filter.mp h).2
  simp only [Bool.or_eq_true, decide_eq_true_eq] at hout
  omega

/-- A key that the list names, or that holds the value before, holds it after the list's keys are all set to it. -/
theorem kfind_foldl_kset {α : Type} (f : Nat → Nat) (v : α) {k : Nat} (l : List Nat) (m : List (Nat × α))
    (h : k ∈ l.map f ∨ kfind m k = some v) : kfind (l.foldl (fun m i => kset m (f i) v) m) k = some v := by
  induction l generalizing m with
  | nil => exact h.resolve_left List.not_mem_nil
  | cons i l ih =>
    refine ih _ ?_
    by_cases hk : f i = k
    · exact .inr (hk ▸ kfind_kset_same m (f i) v)
    · rw [kfind_kset_ne m (f i) k v hk]
      exact h.imp_left fun hm => (List.mem_cons.mp hm).resolve_left (Ne.symm hk)

/-- A range of granules that is given to the host. -/
def biasRange (m : List (Nat × Unit)) (st n : Nat) : List (Nat × Unit) :=
  (List.range n).foldl (fun m i => kset m (st + i) ()) m

theorem kfind_biasRange {m : List (Nat × Unit)} {st n g : Nat} (hlo : st ≤ g) (hhi : g < st + n) :
    kfind (biasRange m st n) g = some () :=
  kfind_foldl_kset (st + ·) () _ m (.inl (List.mem_map.mpr ⟨g - st, List.mem_range.mpr (by omega), by omega⟩))

section
variable {s : State} {st n : Nat}

theorem exec_biasChangeComplete {dev : Bool} (h : s.ms.biasRun = some ⟨st, n, dev⟩) (hn : n ≠ 0) (hr : st + n ≤ 589824) :
    exec .biasChangeComplete s = .next (({ s with
      ms.biasRun := none
      ms.hostBias := if dev then biasOutside s.ms.hostBias st n
        else biasRange (biasOutside s.ms.hostBias st n) st n }).biasEnded stOK) := by
  have hok : ¬ (n = 0 ∨ 589824 < st + n) := by omega
  refine congrArg Host.Outcome.next ?_
  simp only [h, if_neg hok]
  rfl

/-- A range of no granules, or one that runs beyond the last granule, is rejected. -/
theorem exec_biasChangeComplete_refused {dev : Bool} (h : s.ms.biasRun = some ⟨st, n, dev⟩) (hr : n = 0 ∨ 589824 < st + n) :
    exec .biasChangeComplete s = .next (({ s with ms.biasRun := none }).biasEnded stPOLICY) := by
  refine congrArg Host.Outcome.next ?_
  simp only [h, if_pos hr]
  rfl

end

/-! ### The host's decoders -/

/-- The device base of decoder `idx`: behind the lower decoder's range, after `skip` bytes (R321). -/
def State.hdmDpa (s : State) (idx skip : Nat) : Nat :=
  (match kfind s.ms.hdm 0 with
    | some d => if idx = 0 then 0 else d.dpa + d.size
    | none => 0) + skip

section
variable {s : State} {idx base size skip : Nat}

theorem State.hdmDpa_first (h : kfind s.ms.hdm 0 = none) : s.hdmDpa idx skip = skip := by
  simp only [State.hdmDpa, h, Nat.zero_add]

theorem State.hdmDpa_second {d : Hdm} (h : kfind s.ms.hdm 0 = some d) : s.hdmDpa 1 skip = d.dpa + d.size + skip := by
  simp only [State.hdmDpa, h, if_neg Nat.one_ne_zero]

/-- A committed decoder is locked. -/
theorem exec_hdmDecoderCommit_locked (h : (kfind s.ms.hdm idx).isSome = true) :
    exec (.hdmDecoderCommit idx base size skip) s = .next s := congrArg Host.Outcome.next (if_pos (.inr h))

variable (hi : idx < 2) (hn : kfind s.ms.hdm idx = none)
include hi hn

theorem exec_hdmDecoderCommit : exec (.hdmDecoderCommit idx base size skip) s = .next (
    if s.hdmBad idx base size (s.hdmDpa idx skip) then { s with ms.hdmFail := s.ms.hdmFail.filter (fun i => i != idx) ++ [idx] }
    else { s with
      ms.hdm := kset s.ms.hdm idx ⟨base, size, s.hdmDpa idx skip⟩
      ms.hdmFail := s.ms.hdmFail.filter fun i => i != idx }) := by
  have hfree : ¬ (2 ≤ idx ∨ (kfind s.ms.hdm idx).isSome = true) := by simp [hn, hi]
  exact congrArg Host.Outcome.next (if_neg hfree)

/-- A decoder that meets the conditions maps its range, and its last commit did not fail. -/
theorem hdmDecoderCommit_maps {dpa : Nat} (hd : s.hdmDpa idx skip = dpa) (h : s.hdmBad idx base size dpa = false) :
    ∃ t, exec (.hdmDecoderCommit idx base size skip) s = .next t ∧ kfind t.ms.hdm idx = some ⟨base, size, dpa⟩ ∧
      idx ∉ t.ms.hdmFail ∧ t.regs = s.regs ∧ t.mem = s.mem := by
  refine ⟨_, exec_hdmDecoderCommit hi hn, ?_⟩
  rw [hd, h, if_neg Bool.false_ne_true]
  exact ⟨kfind_kset_same _ _ _, fun hm => absurd (List.mem_filter.mp hm).2 (by simp), rfl, rfl⟩

/-- A decoder that does not meet them says so, and maps nothing. -/
theorem hdmDecoderCommit_fails (h : s.hdmBad idx base size (s.hdmDpa idx skip) = true) :
    ∃ t, exec (.hdmDecoderCommit idx base size skip) s = .next t ∧ t.ms.hdm = s.ms.hdm ∧ idx ∈ t.ms.hdmFail ∧
      t.regs = s.regs ∧ t.mem = s.mem := by
  refine ⟨_, exec_hdmDecoderCommit hi hn, ?_⟩
  rw [if_pos h]
  exact ⟨rfl, List.mem_append_right _ (List.mem_singleton_self idx), rfl, rfl⟩

end

/-! ### Requests to other modules -/

/-- An unanswered request to another module fails with `TIMEOUT` (R303). -/
theorem exec_remoteTimeout {s : State} {r tag : Nat} {x : OutReq}
    (h : (s.ms.reqs.find? fun y => y.1 % 2 ^ 16 == r && y.2.loc.isNode) = some (tag, x)) :
    exec (.remoteTimeout r) s = .next (s.failReq tag gcTIMEOUT) := by
  refine congrArg Host.Outcome.next ?_
  simp only [h]

/-- Settles O7: each row is the branch of its command that its premises choose. -/
theorem memoryUnitRows : Obligations.MemoryUnitRows := by
  refine ⟨?corrected, ?poisons, ?clean, ?disabled, ?selfRefresh, ?commitStarts, ?commitOk, ?commitRefused, ?biasStarts, ?biasDevice,
    ?decoderFirst, ?decoderSecond, ?decoderFails, ?decoderLocked, ?biasRefused, ?biasHost, ?timeout⟩
  case corrected =>
    intro s g n hen hd hlo hhi
    refine ⟨_, exec_patrolScrub_corrected hen hd (EccFinding.dram_errors hlo hhi), ?_, State.note_mem .., State.note_ms ..,
      recorded_note rfl⟩
    rw [State.rd_note _ _ _ _ _ _ _ _ _ _ (by decide), State.rd_bump_same _ _ _ _ (by decide)]
    rfl
  case poisons =>
    intro s g e hen hd hp hv
    refine ⟨_, exec_patrolScrub_uncorrectable hen hd hv, ?_⟩
    rw [State.poisonGranule_fresh hp]
    refine ⟨?_, ?_, State.note_mem .., recorded_note rfl⟩
    · rw [State.note_ms]
      exact kfind_kset_same _ _ _
    · rw [State.rd_note _ _ _ _ _ _ _ _ _ _ (by decide), State.rd_bump_same _ _ _ _ (by decide)]
      rfl
  case clean => exact fun s g => exec_patrolScrub_clean rfl
  case disabled => exact fun s g e h => ⟨s, exec_patrolScrub_disabled h, rfl⟩
  case selfRefresh =>
    intro s d h
    refine ⟨_, exec_selfRefreshTimeout h, ?_, ?_, State.note_mem .., recorded_note rfl⟩ <;> rw [State.note_ms]
  case commitStarts =>
    intro s h
    exact ⟨_, exec_memRegionCommitGo h, State.rd_wr_lit _ _ _ _ (by decide) (by decide), rfl,
      (congrArg Memory.regions s.leaveDormant_ms :), s.leaveDormant_mem⟩
  case commitOk =>
    exact fun s new hc h =>
      ⟨_, exec_regionCommitDone_ok hc h, rfl, rfl, (State.rd_commitEnded _ _).1, (State.rd_commitEnded _ _).2, rfl⟩
  case commitRefused =>
    exact fun s new hc h =>
      ⟨_, exec_regionCommitDone_refused hc h, rfl, rfl, (State.rd_commitEnded _ _).1, (State.rd_commitEnded _ _).2, rfl⟩
  case biasStarts =>
    intro s v h hv
    obtain ⟨u, hu, hmem⟩ := exec_memBiasGo h hv
    exact ⟨_, hu, State.rd_wr_lit _ _ _ _ (by decide) (by decide), rfl, hmem⟩
  case biasDevice =>
    exact fun s st n h hn hr => ⟨_, exec_biasChangeComplete h hn hr, fun _ => not_inside_of_mem_biasOutside, rfl,
      (State.rd_biasEnded _ _).1, (State.rd_biasEnded _ _).2, rfl⟩
  case decoderFirst =>
    exact fun s base size skip hn h => hdmDecoderCommit_maps Nat.two_pos hn (State.hdmDpa_first hn) h
  case decoderSecond =>
    exact fun s base size skip d h0 hn h => hdmDecoderCommit_maps Nat.one_lt_two hn (State.hdmDpa_second h0) h
  case decoderFails =>
    exact fun s base size skip hn h => hdmDecoderCommit_fails Nat.two_pos hn ((State.hdmDpa_first hn).symm ▸ h)
  case decoderLocked => exact fun s i base size skip h => exec_hdmDecoderCommit_locked h
  case biasRefused =>
    exact fun s st n dev h hr => ⟨_, exec_biasChangeComplete_refused h hr, rfl, rfl,
      (State.rd_biasEnded _ _).1, (State.rd_biasEnded _ _).2, rfl⟩
  case biasHost =>
    exact fun s st n g h hn hr hlo hhi => ⟨_, exec_biasChangeComplete h hn hr, kfind_biasRange hlo hhi, rfl,
      (State.rd_biasEnded _ _).1, (State.rd_biasEnded _ _).2, rfl⟩
  case timeout => exact fun s r tag x h => exec_remoteTimeout h

end Sys2Proof.Machine
end

section
/-! PROOFS. The common commands of a queue: NOP, the waits, the signals and TIMESTAMP, and what an operand out of range does. -/

namespace Sys2Proof.Machine
open Sys2Proof Safety

section
variable {s : State} {slot queue count : Nat} {c : Cmd}

theorem exec_nop (h : Started s ⟨slot, queue, count⟩ 0x00 c) :
    exec (.nop slot queue count) s = .next (s.setWork ⟨slot, queue, count⟩ (.done stOK 0)) :=
  congrArg Host.Outcome.next (State.work_ok _ _ _ _ _ c h _)

/-! ### Events -/

/-- An `EVENT_WAIT` names an event, and is done or waits as its condition holds now (R350, R351). -/
theorem exec_eventWait (h : Started s ⟨slot, queue, count⟩ 0x01 c) :
    exec (.eventWait slot queue count) s = .next (
      if 63 < leAt c.bytes 8 1 then s.operandError ⟨slot, queue, count⟩ c qeBAD_EVENT
      else if leAt c.bytes 16 8 ≤ (s.event slot (leAt c.bytes 8 1)).toNat then s.setWork ⟨slot, queue, count⟩ (.done stOK 0)
      else s.setWork ⟨slot, queue, count⟩ .waiting) :=
  congrArg Host.Outcome.next (State.work_ok _ _ _ _ _ c h _)

/-- An `EVENT_SIGNAL` is done by the command of its own form, `SET` or `ADD` (R350, R351). -/
theorem State.eventSignal_ok (h : Started s ⟨slot, queue, count⟩ 0x02 c) {add : Bool} (hf : leAt c.bytes 9 1 = 1 ↔ add = true) :
    s.eventSignal slot queue count add =
      if 63 < leAt c.bytes 8 1 then s.operandError ⟨slot, queue, count⟩ c qeBAD_EVENT
      else (s.updateEvent slot (leAt c.bytes 8 1) add (BitVec.ofNat 64 (leAt c.bytes 16 8))).setWork ⟨slot, queue, count⟩
        (.done stOK 0) :=
  (State.work_ok _ _ _ _ _ c h _).trans (if_neg (not_not_intro (propext hf)))

/-! ### Steps and timestamps -/

theorem exec_stepWait (h : Started s ⟨slot, queue, count⟩ 0x03 c) :
    exec (.stepWait slot queue count) s = .next (
      if leAt c.bytes 16 6 ≤ s.time.step then s.setWork ⟨slot, queue, count⟩ (.done stOK 0)
      else s.setWork ⟨slot, queue, count⟩ .waiting) := by
  obtain ⟨hc, hop, hw, hs⟩ := h
  refine congrArg Host.Outcome.next ?_
  simp only [hc]
  exact if_pos ⟨hop, .inl hw, hs⟩

/-- The 16 bytes of a `TIMESTAMP`: timestamp, epoch and step counter (R350). -/
def State.stampBytes (s : State) : List (BitVec 8) :=
  leBytes 4 s.nt ++ leBytes 2 s.time.epoch ++ leBytes 2 0 ++ leBytes 6 s.time.step ++ leBytes 2 0

/-- A `TIMESTAMP` whose write does not fail is done. -/
theorem exec_timestamp_written (h : Started s ⟨slot, queue, count⟩ 0x04 c) (ha : leAt c.bytes 16 8 % 16 = 0) {d : List (BitVec 8)}
    (hd : (s.engineAccess ⟨slot, queue, count⟩ (.write s.stampBytes) (leAt c.bytes 16 8) .store).2 = .data d) :
    exec (.timestamp slot queue count) s = .next
      ((s.engineAccess ⟨slot, queue, count⟩ (.write s.stampBytes) (leAt c.bytes 16 8) .store).1.setWork ⟨slot, queue, count⟩
        (.done stOK 0)) := by
  refine congrArg Host.Outcome.next ((State.work_ok _ _ _ _ _ c h _).trans ((if_neg (not_not_intro ha)).trans ?_))
  unfold State.stampBytes at hd ⊢
  simp only [hd]

theorem exec_timestamp_misaligned (h : Started s ⟨slot, queue, count⟩ 0x04 c) (ha : leAt c.bytes 16 8 % 16 ≠ 0) :
    exec (.timestamp slot queue count) s =
      .next (s.operandError ⟨slot, queue, count⟩ c qeBAD_ADDR (leAt c.bytes 16 8)) :=
  congrArg Host.Outcome.next ((State.work_ok _ _ _ _ _ c h _).trans (if_pos ha))

/-! ### Waits on memory -/

/-- A look at a word that is there ends the wait where the word has reached `VALUE` (R352). -/
theorem State.memWaitLook_data {r : CmdRef} {bs : List (BitVec 8)}
    (h : s.engineAccess r (.read 8) (leAt c.bytes 16 8) (.cmd 0) = (s, .data bs)) :
    s.memWaitLook r c = s.setWork r (if leAt c.bytes 24 8 ≤ leNat bs then .done stOK 0 else .waiting) := by
  unfold State.memWaitLook
  simp only [h]
  exact (apply_ite (s.setWork r) _ _ _).symm

theorem exec_memWait_legal (h : Started s ⟨slot, queue, count⟩ 0x05 c) (ha : leAt c.bytes 16 8 % 8 = 0)
    (hl : s.isLocalAddr (leAt c.bytes 16 8) = true) :
    exec (.memWait slot queue count .clean) s = .next (s.memWaitLook ⟨slot, queue, count⟩ c) := by
  refine congrArg Host.Outcome.next ((State.work_ok _ _ _ _ _ c h _).trans ((if_neg ?_).trans (State.engineEcc_clean ..)))
  simp [ha, hl]

theorem exec_memWait_misplaced (h : Started s ⟨slot, queue, count⟩ 0x05 c)
    (ha : leAt c.bytes 16 8 % 8 ≠ 0 ∨ s.isLocalAddr (leAt c.bytes 16 8) = false) (e : EccFinding) :
    exec (.memWait slot queue count e) s =
      .next (s.operandError ⟨slot, queue, count⟩ c qeBAD_ADDR (leAt c.bytes 16 8)) := by
  refine congrArg Host.Outcome.next ((State.work_ok _ _ _ _ _ c h _).trans (if_pos ?_))
  simpa using ha

/-- A `MEM_WAIT` that waits, none of its requests on the way, looks again. -/
theorem exec_memWaitPoll_waiting (hc : s.cmdAt ⟨slot, queue, count⟩ = some c) (hop : c.opcode = 0x05)
    (hw : c.work = some .waiting) (hs : s.ctxState slot = ctxACTIVE)
    (hq : (s.ms.reqs.any fun q => q.2.src.cmd == ⟨slot, queue, count⟩ && q.2.src.engine != 5) = false) :
    exec (.memWaitPoll slot queue count .clean) s = .next (s.memWaitLook ⟨slot, queue, count⟩ c) := by
  refine congrArg Host.Outcome.next ?_
  simp only [hc, hop, hw, hs, hq, State.engineEcc_clean]
  rfl

/-- The word that a wake had held back is judged as it came. -/
theorem exec_memWaitPoll_held {ps : List (Nat × List (BitVec 8))} (hc : s.cmdAt ⟨slot, queue, count⟩ = some c)
    (hop : c.opcode = 0x05) (hw : c.work = some (.convert ps)) (hs : s.ctxState slot = ctxACTIVE) (e : EccFinding) :
    exec (.memWaitPoll slot queue count e) s = .next (s.setWork ⟨slot, queue, count⟩
      (if leAt c.bytes 24 8 ≤ leNat ((kfind ps 0).getD []) then .done stOK 0 else .waiting)) := by
  refine congrArg Host.Outcome.next ?_
  simp only [hc, hop, hw, hs]
  exact (if_neg (by simp)).trans (apply_ite (s.setWork _) _ _ _).symm

end

/-- Settles O57: each operand is the first that its command judges. -/
theorem eventAndAddressOperands : Obligations.EventAndAddressOperands := by
  intro s slot queue count c
  refine ⟨?wait, ?set, ?add, ?stamp, ?memory⟩
  case wait => exact fun h he => (exec_eventWait h).trans (congrArg Host.Outcome.next (if_pos he))
  case set => exact fun h he hf => congrArg Host.Outcome.next ((State.eventSignal_ok h (by simp [hf])).trans (if_pos he))
  case add => exact fun h he hf => congrArg Host.Outcome.next ((State.eventSignal_ok h (by simp [hf])).trans (if_pos he))
  case stamp => exact exec_timestamp_misaligned
  case memory => exact exec_memWait_misplaced

/-- Settles O16: a legal command is done, or waits where its condition does not hold yet. -/
theorem commonCommandRows : Obligations.CommonCommandRows := by
  refine ⟨?nop, ?reached, ?below, ?badEvent, ?set, ?add, ?stepReached, ?stepBelow, ?stamp, ?memory, ?misplaced, ?poll, ?held⟩
  case nop => exact fun s slot queue count c h => exec_nop h
  case reached =>
    exact fun s slot queue count c h he hv =>
      (exec_eventWait h).trans (congrArg Host.Outcome.next ((if_neg (Nat.not_lt.mpr he)).trans (if_pos hv)))
  case below =>
    exact fun s slot queue count c h he hv =>
      (exec_eventWait h).trans (congrArg Host.Outcome.next ((if_neg (Nat.not_lt.mpr he)).trans (if_neg (Nat.not_le.mpr hv))))
  case badEvent =>
    exact fun s slot queue count c h he => (exec_eventWait h).trans (congrArg Host.Outcome.next (if_pos he))
  case set =>
    exact fun s slot queue count c h hf he =>
      congrArg Host.Outcome.next ((State.eventSignal_ok h (by simp [hf])).trans (if_neg (Nat.not_lt.mpr he)))
  case add =>
    exact fun s slot queue count c h hf he =>
      congrArg Host.Outcome.next ((State.eventSignal_ok h (by simp [hf])).trans (if_neg (Nat.not_lt.mpr he)))
  case stepReached =>
    exact fun s slot queue count c h hv => (exec_stepWait h).trans (congrArg Host.Outcome.next (if_pos hv))
  case stepBelow =>
    exact fun s slot queue count c h hv => (exec_stepWait h).trans (congrArg Host.Outcome.next (if_neg (Nat.not_le.mpr hv)))
  case stamp => exact fun s slot queue count c d h ha hd => exec_timestamp_written h ha hd
  case memory =>
    exact fun s slot queue count c bs h ha hl hd =>
      (exec_memWait_legal h ha hl).trans (congrArg Host.Outcome.next (State.memWaitLook_data hd))
  case misplaced => exact fun s slot queue count c e h ha => exec_memWait_misplaced h ha e
  case poll =>
    exact fun s slot queue count c bs hc hop hw hs hq hd =>
      (exec_memWaitPoll_waiting hc hop hw hs hq).trans (congrArg Host.Outcome.next (State.memWaitLook_data hd))
  case held => exact fun s slot queue count c e ps hc hop hw hs => exec_memWaitPoll_held hc hop hw hs e

end Sys2Proof.Machine
end

section
/-! PROOFS. Queues: the doorbell, enabling and disabling, the fetch of records, the start of commands and their completion. -/

namespace Sys2Proof.Machine
open Sys2Proof Safety

/-! ### What leaving `DORMANT` keeps of the queues -/

theorem State.leaveDormant_eng (s : State) : s.leaveDormant.eng = s.eng := s.leaveDormant_within.same .eng rfl

/-- A register above the power state lies apart from it at every index. -/
theorem State.rd_leaveDormant_above (s : State) (g : Fld) (j : Nat) (h : 0x28 < g.reg.desc.base) :
    s.leaveDormant.rd g j = s.rd g j := by
  refine s.rd_leaveDormant g j (Fld.apart_iff.mpr (.inl ?_))
  change 0x28 + 0 * 0 ≠ g.reg.desc.base + j * g.reg.desc.stride
  omega

@[simp] theorem State.leaveDormant_ctxState (s : State) (slot : Nat) : s.leaveDormant.ctxState slot = s.ctxState slot :=
  s.rd_leaveDormant_above _ _ (by decide)

@[simp] theorem State.leaveDormant_queueEngine (s : State) (slot queue : Nat) :
    s.leaveDormant.queueEngine slot queue = s.queueEngine slot queue := s.rd_leaveDormant_above _ _ (by decide)

@[simp] theorem State.leaveDormant_depth (s : State) (i : Nat) : s.leaveDormant.depth i = s.depth i :=
  congrArg (2 ^ ·) (s.rd_leaveDormant_above F.QDB_QCFG.LOG2_DEPTH i (by decide))

/-! ### Tail writes -/

section
variable {s : State} {slot queue v : Nat}

theorem exec_qdbTailWrite (hq : queue < 8) (hv : v < 2 ^ 32) :
    exec (.qdbTailWrite slot queue v) s = .next (s.leaveDormant.tailWrite slot queue v) := by
  refine congrArg Host.Outcome.next ?_
  rw [Nat.mod_eq_of_lt hq, Nat.mod_eq_of_lt hv]

theorem State.tailWrite_off (hs : s.ctxState slot = ctxACTIVE) (ho : s.rd F.QDB_QCFG.STATE (qi slot queue) = qOFF) :
    s.tailWrite slot queue v = s.note evEngTailDrop 0 3 (s.queueEngine slot queue) [slot, queue, v] :=
  (if_neg (not_not_intro hs)).trans (if_pos ho)

/-- A tail written: an idle queue runs (R337). -/
def State.tailSet (s : State) (slot queue v : Nat) : State :=
  if s.rd F.QDB_QCFG.STATE (qi slot queue) = qIDLE then
    ((s.wr F.QDB_TAIL.TAIL v (qi slot queue)).wr F.QDB_QCFG.STATE qRUN (qi slot queue)).progressed slot
  else s.wr F.QDB_TAIL.TAIL v (qi slot queue)

/-- In an empty queue whose head is 0 a tail is in range up to the depth (R338). -/
theorem State.tailWrite_fresh (hs : s.ctxState slot = ctxACTIVE) (ho : s.rd F.QDB_QCFG.STATE (qi slot queue) ≠ qOFF)
    (hh : s.rd F.QDB_HEAD.HEAD (qi slot queue) = 0) (ht : s.rd F.QDB_TAIL.TAIL (qi slot queue) = 0)
    (hd : s.depth (qi slot queue) ≤ 65536) (hv : v < 2 ^ 32) :
    s.tailWrite slot queue v =
      if v ≤ s.depth (qi slot queue) then (if v = 0 then s else s.tailSet slot queue v)
      else s.queueError slot queue 0 (s.queueEngine slot queue) qeTAIL_RANGE 0 0 0 := by
  refine (if_neg (not_not_intro hs)).trans ((if_neg ho).trans ?_)
  dsimp only
  rw [hh, ht, Nat.zero_mod]
  refine ite_congr (propext ?_) (fun _ => rfl) fun _ => rfl
  rw [show (v + 2 ^ 32 - 0) % 2 ^ 32 = v by omega,
    show (0 + s.depth (qi slot queue) + 2 ^ 32 - 0) % 2 ^ 32 = s.depth (qi slot queue) by omega]

end

/-- What an idle queue's tail write leaves (R337). -/
theorem tailSet_idle {s : State} {slot queue v : Nat} (hi : s.rd F.QDB_QCFG.STATE (qi slot queue) = qIDLE) (hv : v < 2 ^ 32) :
    (s.tailSet slot queue v).rd F.QDB_TAIL.TAIL (qi slot queue) = v ∧
      (s.tailSet slot queue v).rd F.QDB_QCFG.STATE (qi slot queue) = qRUN ∧
      (s.tailSet slot queue v).mem = s.mem ∧ (s.tailSet slot queue v).evr = s.evr := by
  unfold State.tailSet
  rw [if_pos hi]
  have hoff : F.QDB_QCFG.STATE.reg.off (qi slot queue) ≠ F.QDB_TAIL.TAIL.reg.off (qi slot queue) := by
    change 0x28008 + qi slot queue * 0x10 ≠ 0x20000 + qi slot queue * 0x4
    omega
  refine ⟨?_, State.rd_wr_lit _ _ _ _ (by decide) (by decide), rfl, rfl⟩
  exact (State.rd_wr_off _ _ _ _ _ _ hoff).trans (State.rd_wr_lit _ _ _ _ (by decide) hv)

/-! ### Enabling and disabling -/

/-- The writable fields of a queue's configuration, written (Table 7-4). -/
def State.qcfgWritten (s : State) (i v : Nat) : State :=
  (((s.wr F.QDB_QCFG.ENGINE (bitsOf v 2 0) i).wr F.QDB_QCFG.LOG2_DEPTH (bitsOf v 7 3) i).wr
    F.QDB_QCFG.VECTOR (bitsOf v 13 8) i).wr F.QDB_QCFG.PRIO (bitsOf v 15 14) i

/-- A queue enabled: `IDLE`, empty, head and tail 0 (Table 7-4). -/
def State.queueOn (s : State) (slot queue : Nat) : State :=
  ((((((s.wr F.QDB_QCFG.EN 1 (qi slot queue)).wr F.QDB_QCFG.CFG_ERR 0 (qi slot queue)).wr
    F.QDB_QCFG.STATE qIDLE (qi slot queue)).wr F.QDB_HEAD.HEAD 0 (qi slot queue)).wr
    F.QDB_TAIL.TAIL 0 (qi slot queue)).setQueue (qi slot queue) Queue.init).setQEn slot queue true

/-- Where a queue area may lie depends on the module's node number alone. -/
theorem State.areaOk_congr {s t : State} (h : t.node = s.node) (base depth : Nat) : t.areaOk base depth = s.areaOk base depth := by
  unfold State.areaOk
  rw [h]

/-- A register apart from `QDB_QCFG` reads as before its fields were written. -/
theorem State.rd_qcfgWritten (s : State) (i v : Nat) (g : Fld) (j : Nat) (h : Reg.off .QDB_QCFG i ≠ g.reg.off j) :
    (s.qcfgWritten i v).rd g j = s.rd g j := by
  unfold State.qcfgWritten
  rw [State.rd_wr_off _ _ _ _ _ _ h, State.rd_wr_off _ _ _ _ _ _ h, State.rd_wr_off _ _ _ _ _ _ h,
    State.rd_wr_off _ _ _ _ _ _ h]

theorem State.areaOk_qcfgWritten (s : State) (i v depth : Nat) :
    (s.leaveDormant.qcfgWritten i v).areaOk ((s.leaveDormant.qcfgWritten i v).queueBase i) depth =
      s.areaOk (s.queueBase i) depth := by
  have hbase : (s.leaveDormant.qcfgWritten i v).queueBase i = s.queueBase i := by
    refine congrArg (· * 2 ^ 12) ((State.rd_qcfgWritten _ _ _ _ _ ?_).trans (s.rd_leaveDormant_above _ _ (by decide)))
    change 0x28008 + i * 0x10 ≠ 0x28000 + i * 0x10
    omega
  have hnode : (s.leaveDormant.qcfgWritten i v).node = s.node := by
    refine (State.rd_qcfgWritten _ _ _ _ _ ?_).trans (s.rd_leaveDormant _ _ (by decide))
    change 0x28008 + i * 0x10 ≠ 0x10 + 0 * 0
    omega
  rw [hbase]
  exact State.areaOk_congr hnode _ _

section
variable {s : State} {slot queue : Nat} (hs : s.ctxState slot = ctxACTIVE)
include hs

/-- A legal configuration enables a queue that was not enabled. -/
theorem exec_queueEnable {v : Nat} (he : s.rd F.QDB_QCFG.EN (qi slot queue) = 0) (hlo : 6 ≤ bitsOf v 7 3) (hhi : bitsOf v 7 3 ≤ 16)
    (hg : bitsOf v 2 0 ≤ 4) (ha : s.areaOk (s.queueBase (qi slot queue)) (2 ^ bitsOf v 7 3) = true) :
    exec (.queueEnable slot queue v) s = .next ((s.leaveDormant.qcfgWritten (qi slot queue) v).queueOn slot queue) := by
  have hoff : ¬ s.leaveDormant.flag F.QDB_QCFG.EN (qi slot queue) = true := by
    simp [State.flag, s.rd_leaveDormant_above F.QDB_QCFG.EN _ (by decide), he]
  refine congrArg Host.Outcome.next ((if_neg ?_).trans ((if_neg hoff).trans (if_pos ⟨hlo, hhi, hg, ?_⟩)))
  · exact not_not_intro ((s.leaveDormant_ctxState slot).trans hs)
  · exact (s.areaOk_qcfgWritten _ _ _).trans ha

theorem exec_queueDisable_idle (hi : s.rd F.QDB_QCFG.STATE (qi slot queue) = qIDLE) :
    exec (.queueDisable slot queue) s = .next (((s.leaveDormant.wr F.QDB_QCFG.EN 0 (qi slot queue)).wr
      F.QDB_QCFG.STATE qOFF (qi slot queue)).setQEn slot queue false) :=
  congrArg Host.Outcome.next ((if_neg (not_not_intro ((s.leaveDormant_ctxState slot).trans hs))).trans
    (if_pos ((s.rd_leaveDormant_above _ _ (by decide)).trans hi)))

/-- A running queue is not disabled (R392). -/
theorem exec_queueDisable_running (hr : s.rd F.QDB_QCFG.STATE (qi slot queue) = qRUN) :
    exec (.queueDisable slot queue) s = .next (s.leaveDormant.qcfgReject slot queue) := by
  have hstate : s.leaveDormant.rd F.QDB_QCFG.STATE (qi slot queue) = qRUN :=
    (s.rd_leaveDormant_above _ _ (by decide)).trans hr
  refine congrArg Host.Outcome.next ((if_neg (not_not_intro ((s.leaveDormant_ctxState slot).trans hs))).trans ?_)
  exact (if_neg (by rw [hstate]; decide)).trans (if_pos hstate)

end

/-! ### Fetching records -/

/-- The record that an engine has asked for joins its queue (R340). -/
theorem State.fetched_next {s : State} {r : CmdRef} (bs : List (BitVec 8)) (hn : (s.queue (qi r.slot r.queue)).fetched = r.count)
    (hs : s.ctxState r.slot = ctxACTIVE) :
    s.fetched r bs = s.setQueue (qi r.slot r.queue) { s.queue (qi r.slot r.queue) with
      fetched := (r.count + 1) % 2 ^ 32
      cmds := (s.queue (qi r.slot r.queue)).cmds ++ [⟨r.count, bs, none, false⟩] } :=
  if_neg (by simp [hn, hs])

/-- A queue area of this module that its region grants is read at once. -/
theorem State.areaAccess_local {s : State} {r : CmdRef} {ga : Nat} {k : MemKind} {dst : ReqDst} {bs : List (BitVec 8)}
    (hb : bitOf ga 63 = false) (hf : s.areaFault (s.ctxJob r.slot) (bitsOf ga 41 0) k = none)
    (hd : s.localAccess (s.engineSource r) k (bitsOf ga 41 0) dst = (s, .data bs)) :
    s.areaAccess r ga k dst = (s, .data bs) := by
  have hf' : s.areaFault (s.engineSource r).job (bitsOf ga 41 0) k = none := hf
  unfold State.areaAccess
  simp only [hb, hf', hd]
  rfl

section
variable {s : State} {slot queue : Nat} (hs : s.ctxState slot = ctxACTIVE)
  (hr : s.rd F.QDB_QCFG.STATE (qi slot queue) = qRUN)
  (hn : (s.queue (qi slot queue)).fetched ≠ s.rd F.QDB_TAIL.TAIL (qi slot queue))
  (ha : ((s.queue (qi slot queue)).cmds.filter fun c => c.work.isNone).length < 16) (hf : s.fetching1 slot queue = false)
include hs hr hn ha hf

/-- Nothing holds a fetch back: the queue runs, a record waits, and there is room ahead (R340). -/
theorem fetch_goes : ¬ (s.ctxState slot ≠ ctxACTIVE ∨ s.rd F.QDB_QCFG.STATE (qi slot queue) ≠ qRUN ∨
    (s.queue (qi slot queue)).fetched = s.rd F.QDB_TAIL.TAIL (qi slot queue) ∨
    16 ≤ ((s.queue (qi slot queue)).cmds.filter fun c => c.work.isNone).length ∨ s.fetching1 slot queue = true) := by
  simp [hs, hr, hn, hf, ha]

theorem exec_commandFetch_local {bs : List (BitVec 8)} {a : Nat}
    (hq : s.queueBase (qi slot queue) + (s.queue (qi slot queue)).fetched % s.depth (qi slot queue) * 64 = a)
    (hb : bitOf a 63 = false) (hx : s.areaFault (s.ctxJob slot) (bitsOf a 41 0) (.read 64) = none)
    (hd : s.localAccess (s.engineSource ⟨slot, queue, (s.queue (qi slot queue)).fetched⟩) (.read 64) (bitsOf a 41 0) .fetch =
      (s, .data bs)) :
    exec (.commandFetch slot queue none .clean) s =
      .next (s.fetched ⟨slot, queue, (s.queue (qi slot queue)).fetched⟩ bs) := by
  refine congrArg Host.Outcome.next ((if_neg (fetch_goes hs hr hn ha hf)).trans ?_)
  dsimp only
  rw [hq, hb, if_neg Bool.false_ne_true, State.engineEcc_clean,
    State.areaAccess_local (r := ⟨slot, queue, (s.queue (qi slot queue)).fetched⟩) hb hx hd]

/-- A record in host memory comes with the command (R340). -/
theorem exec_commandFetch_host {l : List Nat} {a : Nat} {e : EccFinding}
    (hq : s.queueBase (qi slot queue) + (s.queue (qi slot queue)).fetched % s.depth (qi slot queue) * 64 = a)
    (hb : bitOf a 63 = true) (hl : s.ms.linkDown = false) (hp : s.pwr.perstLow = false) :
    exec (.commandFetch slot queue (some l) e) s =
      .next ((s.emit (.hostRead (bitsOf a 51 0) 64)).fetched ⟨slot, queue, (s.queue (qi slot queue)).fetched⟩
        ((l.map (BitVec.ofNat 8)).take 64)) := by
  refine congrArg Host.Outcome.next ((if_neg (fetch_goes hs hr hn ha hf)).trans ?_)
  dsimp only
  rw [hq, if_pos hb, hl, hp]
  rfl

end

/-! ### Starting and completing -/

section
variable {s : State} {e i : Nat} {a : Arb} {c : Cmd} (hh : (s.arb e).held = false) (hc : s.chooseQueue e = some (i, a))
  (hq : (s.queue i).startable = some c)
include hh hc hq

theorem exec_commandStart_sound (hr : recordError e c.bytes = none) :
    exec (.commandStart e) s = .next (({ s with eng.arbs := kset s.eng.arbs e a } : State).setWork ⟨i / 8, i % 8, c.count⟩
      .started) := by
  refine congrArg Host.Outcome.next ?_
  simp only [hh, hc, hq, hr]
  rfl

theorem exec_commandStart_unsound {code : Nat} (hr : recordError e c.bytes = some code) :
    exec (.commandStart e) s = .next (({ s with eng.arbs := kset s.eng.arbs e a } : State).cmdError ⟨i / 8, i % 8, c.count⟩
      code 0 c.opcode 0) := by
  refine congrArg Host.Outcome.next ?_
  simp only [hh, hc, hq, hr]
  rfl

end

section
variable {s : State} {r : CmdRef} {c : Cmd} (hc : s.cmdAt r = some c)
include hc

/-- A command that is done is not finished again. -/
theorem State.finishCmd_done {x y : Nat} (hw : c.work = some (.done x y)) : s.finishCmd r = s := by
  unfold State.finishCmd
  simp only [hc, hw]

/-- A command that asks for no message ends, and the head passes it (R346). -/
theorem State.endCommand_silent (hs : s.ctxState r.slot = ctxACTIVE) (hm : bitOf (leAt c.bytes 1 1) 2 = false) :
    s.endCommand r = (s.setQueue (qi r.slot r.queue) { s.queue (qi r.slot r.queue) with
      cmds := (s.queue (qi r.slot r.queue)).cmds.map fun z => if z.count = r.count then { z with ended := true } else z }).advanceHead r := by
  unfold State.endCommand
  simp only [hc, hm]
  exact if_neg (not_not_intro hs)

end

/-- A command whose work is done, none of its requests on the way and no completion record asked for, ends (R345). -/
theorem exec_commandComplete_unrecorded {s : State} {slot queue count x y : Nat} {c : Cmd} (hs : s.ctxState slot = ctxACTIVE)
    (hc : s.cmdAt ⟨slot, queue, count⟩ = some c) (hw : c.work = some (.done x y)) (he : c.ended = false)
    (ho : s.outstanding ⟨slot, queue, count⟩ = false) (hr : bitOf (leAt c.bytes 1 1) 1 = false) :
    exec (.commandComplete slot queue count) s = .next (s.endCommand ⟨slot, queue, count⟩) := by
  refine congrArg Host.Outcome.next ((if_neg (not_not_intro hs)).trans ?_)
  dsimp only
  rw [State.finishCmd_done hc hw]
  simp only [hc, hw, he, ho, hr]
  rfl

theorem exec_qdbEvtValWrite {s : State} (v : Nat) (hs : s.ctxState (s.rd F.QDB_EVT_SEL.SLOT) = ctxACTIVE) :
    exec (.qdbEvtValWrite v) s = .next (s.leaveDormant.updateEvent (s.rd F.QDB_EVT_SEL.SLOT) (s.rd F.QDB_EVT_SEL.EVENT) false
      (BitVec.ofNat 64 v)) := by
  refine congrArg Host.Outcome.next ?_
  unfold State.evtValWrite
  rw [s.rd_leaveDormant_above F.QDB_EVT_SEL.SLOT 0 (by decide), s.rd_leaveDormant_above F.QDB_EVT_SEL.EVENT 0 (by decide)]
  exact if_pos ((s.leaveDormant_ctxState _).trans hs)

/-- Settles O15: each row is the branch of its command that its premises choose. -/
theorem queueRows : Obligations.QueueRows := by
  refine ⟨?dropped, ?runs, ?range, ?enables, ?disables, ?rejects, ?fetches, ?fetchesHost, ?starts, ?errs, ?event, ?completes⟩
  case dropped =>
    intro s slot queue v hq hv hs ho
    have hstate := (s.rd_leaveDormant_above F.QDB_QCFG.STATE (qi slot queue) (by decide)).trans ho
    refine ⟨_, exec_qdbTailWrite hq hv, ?_⟩
    rw [State.tailWrite_off ((s.leaveDormant_ctxState slot).trans hs) hstate, State.leaveDormant_queueEngine]
    exact ⟨(State.note_eng ..).trans s.leaveDormant_eng, (State.note_mem ..).trans s.leaveDormant_mem,
      recorded_note s.leaveDormant_evr⟩
  case runs =>
    intro s slot queue v hq hv hs hi hh ht hpos hle hd
    have hstate := (s.rd_leaveDormant_above F.QDB_QCFG.STATE (qi slot queue) (by decide)).trans hi
    refine ⟨_, exec_qdbTailWrite hq hv, ?_⟩
    rw [State.tailWrite_fresh ((s.leaveDormant_ctxState slot).trans hs) (by rw [hstate]; decide)
        ((s.rd_leaveDormant_above _ _ (by decide)).trans hh) ((s.rd_leaveDormant_above _ _ (by decide)).trans ht)
        (by rwa [State.leaveDormant_depth]) hv,
      State.leaveDormant_depth, if_pos hle, if_neg (Nat.ne_of_gt hpos)]
    obtain ⟨htail, hrun, hmem, hevr⟩ := tailSet_idle hstate hv
    exact ⟨htail, hrun, hmem.trans s.leaveDormant_mem, hevr.trans s.leaveDormant_evr⟩
  case range =>
    intro s slot queue v hq hv hs ho hh ht hlt hd
    refine (exec_qdbTailWrite hq hv).trans (congrArg Host.Outcome.next ?_)
    rw [State.tailWrite_fresh ((s.leaveDormant_ctxState slot).trans hs)
        (by rwa [s.rd_leaveDormant_above F.QDB_QCFG.STATE _ (by decide)])
        ((s.rd_leaveDormant_above _ _ (by decide)).trans hh) ((s.rd_leaveDormant_above _ _ (by decide)).trans ht)
        (by rwa [State.leaveDormant_depth]) hv,
      State.leaveDormant_depth, if_neg (Nat.not_le.mpr hlt), State.leaveDormant_queueEngine]
  case enables => exact fun s slot queue v hs he hlo hhi hg ha => exec_queueEnable hs he hlo hhi hg ha
  case disables => exact fun s slot queue hs hi => exec_queueDisable_idle hs hi
  case rejects =>
    intro s slot queue hs hr
    refine ⟨_, exec_queueDisable_running hs hr, ?_⟩
    unfold State.qcfgReject
    rw [State.leaveDormant_queueEngine]
    exact ⟨(State.note_eng ..).trans s.leaveDormant_eng, (State.note_mem ..).trans s.leaveDormant_mem,
      recorded_note s.leaveDormant_evr⟩
  case fetches =>
    intro s slot queue bs hs hr hn ha hf hb hx hd
    exact (exec_commandFetch_local hs hr hn ha hf rfl hb hx hd).trans
      (congrArg Host.Outcome.next (State.fetched_next (r := ⟨slot, queue, _⟩) bs rfl hs))
  case fetchesHost =>
    intro s slot queue l e hs hr hn ha hf hb hl hp
    refine ⟨_, exec_commandFetch_host hs hr hn ha hf rfl hb hl hp, ?_⟩
    rw [State.fetched_next (s := s.emit _) (r := ⟨slot, queue, (s.queue (qi slot queue)).fetched⟩) _ rfl hs]
    simp [State.queue, State.setQueue]
  case starts => exact fun s e i a c hh hc hq hr => exec_commandStart_sound hh hc hq hr
  case errs => exact fun s e i code a c hh hc hq hr => exec_commandStart_unsound hh hc hq hr
  case event => exact fun s v hs => exec_qdbEvtValWrite v hs
  case completes =>
    exact fun s slot queue count x y c hs hc hw he ho hr hm =>
      ⟨_, exec_commandComplete_unrecorded hs hc hw he ho hr, State.endCommand_silent hc hs hm⟩

end Sys2Proof.Machine
end

section
/-! PROOFS. The copy engine: the source error that a COPY records names the engine of its queue, whatever that engine is. -/

namespace Sys2Proof.Machine
open Sys2Proof Safety

/-- A generator in service whose residue check sees nothing goes on (R252). -/
theorem State.withResidue_unseen {s : State} {e : Int} (h : residueSees e = false) {u : Nat} (hp : (s.hist (engUnit u)).perm = false)
    (e2 : Int) (g x : Nat) (run : State → State) : s.withResidue e e2 u g x run = run s :=
  (if_neg (ne_true_of_eq_false hp)).trans (if_pos (by rw [h]; rfl))

/-- A `COPY` of legal length whose source in SRAM shows an uncorrectable error: the event names its queue's engine (R229). -/
theorem exec_copy_storeEcc {s : State} {slot queue count : Nat} {c : Cmd} {k : Nat} {f : EccFinding} {e : Int} (e2 : Int)
    (h : Started s ⟨slot, queue, count⟩ 0x20 c) (hlo : 1 ≤ leAt c.bytes 24 8) (hhi : leAt c.bytes 24 8 ≤ 2 ^ 36)
    (hf : EccFinding.sram f = .uncorrectable) (he : residueSees e = false) (hp : (s.hist (engUnit 32)).perm = false)
    (hl : s.isLocalAddr (leAt c.bytes 8 8) = true)
    (hx : s.checkAccess (s.ctxJob slot) false false false (.read 1) (bitsOf (leAt c.bytes 8 8) 41 0) = none)
    (hk : (placeOf (bitsOf (leAt c.bytes 8 8) 41 0)).sramKind = some k) :
    exec (.copy slot queue count f e e2) s = .next ((s.record evEccFatal 2 3 (s.queueEngine slot queue)
      [k, bitsOf (leAt c.bytes 8 8) 41 0] (some (s.ctxId slot))).cmdError ⟨slot, queue, count⟩ qeSTORE_ECC 0 c.opcode
        (bitsOf (leAt c.bytes 8 8) 41 0)) := by
  refine congrArg Host.Outcome.next ((State.work_ok _ _ _ _ _ c h _).trans ((if_neg (by omega)).trans ?_))
  exact (State.withResidue_unseen he hp ..).trans (State.engineEcc_lost _ _ _ _ _ _ _ hl hx hk hf)

/-- A `COPY` of one byte from this module's core store 0. -/
def strayCopy : Cmd :=
  ⟨0, [0x20] ++ List.replicate 12 0 ++ [2, 0, 4] ++ List.replicate 8 0 ++ [1], some .started, false⟩

/-- A started `COPY` in queue 0 of slot 0, which is configured for engine 0: the context is `ACTIVE`, quarter 0 is up, and a
region grants every address. -/
def strayState : State :=
  { ((State.reset.wr F.QDB_CTX.STATE ctxACTIVE 0).setQuarter 0 { State.reset.quarter 0 with inReset := false }) with
    ms.regions := [(0, ⟨true, true, true, true, false, false, false, false, false, 0, 0, 2 ^ 42⟩)]
    eng.queues := [(0, ⟨1, [strayCopy]⟩)] }

/-- Refutes O18: its third row has the event of an uncorrectable source error name engine 1, and no premise says that the
command's queue is one of engine 1. Of a started `COPY` in a queue configured for engine 0, which `COMMAND_START` itself would
have rejected (R343), the event names engine 0. -/
theorem not_copyRows : ¬ Obligations.CopyRows := by
  rintro ⟨-, -, hstore, -⟩
  have hstart : Started strayState ⟨0, 0, 0⟩ 0x20 strayCopy := by decide
  have hclaim := hstore strayState 0 0 0 strayCopy 0 (.errors 2) 0 0 hstart (by decide) (by decide) (by decide) (by decide)
    (by decide) (by decide) (by decide) (by decide)
  have hmodel := exec_copy_storeEcc (s := strayState) (f := .errors 2) (e := 0) (k := 0) 0 hstart (by decide) (by decide)
    (by decide) (by decide) (by decide) (by decide) (by decide) (by decide)
  have hindex := congrArg (fun t => t.evr.buf.map EvRec.index) (Host.Outcome.next.inj (hmodel.symm.trans hclaim))
  exact absurd hindex (by decide)

end Sys2Proof.Machine
end

section
/-! PROOFS. Collective commands: their start, the tokens and arrivals that reach them, and the step that waits too long. -/

namespace Sys2Proof.Machine
open Sys2Proof Safety

section
variable {s : State} {slot queue count : Nat} {c : Cmd}

/-- A collective command that moves data reads its source when it starts. -/
theorem State.collStart_loads {op : Nat} {e : EccFinding} (h : Working s ⟨slot, queue, count⟩ op c)
    (hg : GroupLegal s ⟨slot, queue, count⟩ op c) (hr : Reducible s ⟨slot, queue, count⟩ op c) (hb : op ≠ 0x34) :
    s.collStart slot queue count op e =
      ((groupRead s ⟨slot, queue, count⟩ c).collTake ⟨slot, queue, count⟩ (groupNew s ⟨slot, queue, count⟩ op c)).collLoad
        ⟨slot, queue, count⟩ (leAt c.bytes 8 8) (groupNew s ⟨slot, queue, count⟩ op c) e :=
  (s.collStart_ok slot queue count op e c h hg hr).trans (if_neg hb)

/-- A `BARRIER` announces its arrival when it starts (R385). -/
theorem State.collStart_arrives {e : EccFinding} (h : Working s ⟨slot, queue, count⟩ 0x34 c)
    (hg : GroupLegal s ⟨slot, queue, count⟩ 0x34 c) :
    s.collStart slot queue count 0x34 e = State.collAdvance (groupNew s ⟨slot, queue, count⟩ 0x34 c).fuel ⟨slot, queue, count⟩
      (groupNew s ⟨slot, queue, count⟩ 0x34 c) (((groupRead s ⟨slot, queue, count⟩ c).collTake ⟨slot, queue, count⟩
        (groupNew s ⟨slot, queue, count⟩ 0x34 c)).collArriveAll ⟨slot, queue, count⟩ (groupNew s ⟨slot, queue, count⟩ 0x34 c)) :=
  (s.collStart_ok slot queue count 0x34 e c h hg (.inl (by decide))).trans (if_pos rfl)

/-- The format and the operation are judged first (R373). -/
theorem State.collStart_badFormat {op : Nat} {e : EccFinding} (h : Working s ⟨slot, queue, count⟩ op c)
    (hf : collFmtOk op (leAt c.bytes 40 1 % 16) = false ∨ (op = 0x30 ∨ op = 0x31) ∧ 2 < leAt c.bytes 40 1 / 16) :
    s.collStart slot queue count op e = s.operandError ⟨slot, queue, count⟩ c qeBAD_FORMAT :=
  (s.workOn_ok slot queue count op c h _).trans (if_pos (hf.imp_left fun hf => by rw [hf]; rfl))

theorem exec_collTimeout {x : CollRun} (hc : s.cmdAt ⟨slot, queue, count⟩ = some c) (hw : c.work = some (.coll x)) :
    exec (.collTimeout slot queue count) s = .next (s.cmdError ⟨slot, queue, count⟩ qeCOLL_TIMEOUT 0 c.opcode 0) := by
  refine congrArg Host.Outcome.next ?_
  simp only [hc, hw]

end

/-! ### Tokens and arrivals -/

section
variable {s : State} {src job group seq : Nat}

/-- With no command of the pair running, a token or an arrival is kept (R374). -/
theorem State.collReady_early (step : Nat) (h : s.collOf job group = none) :
    s.collReady src job group seq step = s.keepEarly job group src seq step := by
  unfold State.collReady
  simp only [h]

theorem State.collArrive_early (h : s.collOf job group = none) :
    s.collArrive src job group seq = s.keepEarly job group src seq 65536 := by
  unfold State.collArrive
  simp only [h]

variable {r : CmdRef} {x : CollRun} (h : s.collOf job group = some (r, x)) (hq : x.seq = seq)
include h hq

/-- A token of the running command's sequence joins it (R376). -/
theorem State.collReady_joins (step : Nat) : s.collReady src job group seq step =
    State.collAdvance x.fuel r { x with tokens := (x.nodes.idxOf src, step) :: x.tokens } s := by
  unfold State.collReady
  simp only [h, if_pos hq]

/-- An arrival of the running command's sequence joins it (R385). -/
theorem State.collArrive_joins : s.collArrive src job group seq =
    State.collAdvance x.fuel r { x with arrived := x.nodes.idxOf src :: x.arrived } s := by
  unfold State.collArrive
  simp only [h, if_pos hq]

end

/-- Settles O19: a legal command starts as `collStart_ok` says; tokens and arrivals go by the pair's running command. -/
theorem collectiveRows : Obligations.CollectiveRows := by
  refine ⟨?allreduce, ?reduceScatter, ?allgather, ?broadcast, ?barrier, ?timeout, ?tokenEarly, ?tokenJoins, ?arrivalEarly,
    ?arrivalJoins, ?badFormat⟩
  case allreduce | reduceScatter =>
    exact fun s slot queue count c e h hg hr => congrArg Host.Outcome.next (State.collStart_loads h hg hr (by decide))
  case allgather | broadcast =>
    exact fun s slot queue count c e h hg =>
      congrArg Host.Outcome.next (State.collStart_loads h hg (.inl (by decide)) (by decide))
  case barrier =>
    exact fun s slot queue count c h hg => congrArg Host.Outcome.next (State.collStart_arrives h hg)
  case timeout => exact fun s slot queue count c x hc hw => exec_collTimeout hc hw
  case tokenEarly =>
    exact fun s src job group seq step h => congrArg Host.Outcome.next (State.collReady_early step h)
  case tokenJoins =>
    exact fun s src job group seq step r x h hq => congrArg Host.Outcome.next (State.collReady_joins h hq step)
  case arrivalEarly => exact fun s src job group seq h => congrArg Host.Outcome.next (State.collArrive_early h)
  case arrivalJoins =>
    exact fun s src job group seq r x h hq => congrArg Host.Outcome.next (State.collArrive_joins h hq)
  case badFormat =>
    exact fun s slot queue count c e h hf =>
      congrArg Host.Outcome.next (State.collStart_badFormat h (hf.imp_right fun ho => ⟨.inl rfl, ho⟩))

end Sys2Proof.Machine
end

section
/-! PROOFS. The ring engine: the start of a run, the messages of its neighbours, and the steps that the engine takes itself. -/

namespace Sys2Proof.Machine
open Sys2Proof Safety

/-! ### The start of a run -/

section
variable {s : State} {slot queue count : Nat} {c : Cmd} (h : Working s ⟨slot, queue, count⟩ 0x40 c)
  (hplace : (s.eng.rings.filter fun x => x.2.live).length < 16)
include h hplace

/-- A descriptor off its 64-byte alignment is malformed (R408, R409). -/
theorem exec_ringRun_misaligned (ha : leAt c.bytes 8 8 % 64 ≠ 0) :
    exec (.ringRun slot queue count) s = .next (s.ringError ⟨slot, queue, count⟩ rsDESC) :=
  congrArg Host.Outcome.next ((if_neg (Nat.not_le.mpr hplace)).trans ((State.workOn_ok _ _ _ _ _ c h _).trans (if_pos (.inl ha))))

/-- A descriptor in this module's LPDDR6 is read, its head first, and then checked. -/
theorem exec_ringRun_readable (hr : RingReadable s ⟨slot, queue, count⟩ c) :
    exec (.ringRun slot queue count) s = .next ((ringRead s ⟨slot, queue, count⟩ c).ringBegin ⟨slot, queue, count⟩
      (descAt s ⟨slot, queue, count⟩ (leAt c.bytes 8 8) 64 (ringSpan s ⟨slot, queue, count⟩ c))) := by
  obtain ⟨halign, hlocal, hdram, hhead, hdesc⟩ := hr
  refine congrArg Host.Outcome.next ((if_neg (Nat.not_le.mpr hplace)).trans ((State.workOn_ok _ _ _ _ _ c h _).trans ?_))
  refine (if_neg (by simp [halign, hlocal, hdram])).trans ?_
  rw [fetched_ok hhead]
  dsimp only
  have hread := fetched_ok hdesc
  unfold ringSpan headAt at hread
  rw [hread]
  rfl

end

/-- A legal descriptor with lit circuits, whose run is not there yet, starts its run (R409, R411, R413). -/
theorem State.ringBegin_legal {s : State} {r : CmdRef} {d : List (BitVec 8)} {x : RingRun}
    (hx : x = ⟨r, s.ctxJob r.slot, leAt d 0 2, d, 0, [], [], [], [], 0, [], []⟩)
    (hdesc : s.ringDescBad x (s.ctxPart r.slot) = false) (hlit : s.ringCircuitsOk x = true)
    (hnew : s.ringOf (s.ctxJob r.slot) x.id = none) : s.ringBegin r d = s.ringStart r x := by
  subst hx
  exact (if_neg (ne_true_of_eq_false hdesc)).trans ((if_neg (by rw [hlit]; decide)).trans (if_neg (by rw [hnew]; decide)))

/-! ### Messages of the neighbours -/

section
variable {s : State} {src job key n : Nat} {x : RingRun}

/-- A hello of a live run reaches it. -/
theorem State.takeHello_live (h : s.ringOf job key = some (n, x)) (d : List (BitVec 8)) :
    s.takeHello src job key d = s.ringHello n src d := by
  unfold State.takeHello
  rw [h]

/-- A hello that agrees is kept, and the last one due starts the rotation (R414). -/
theorem State.ringHello_agrees {d : List (BitVec 8)} (ha : s.ringActive n = some x) (hs : x.state = 0)
    (hd : x.agrees src d = true) :
    s.ringHello n src d = s.setRing n { x with
      hellos := kset x.hellos src (leAt d 8 2)
      state := if x.neighbours.all fun m => (kfind (kset x.hellos src (leAt d 8 2)) m).isSome then 1 else 0 } := by
  unfold State.ringHello
  rw [ha]
  exact (if_neg (not_not_intro hs)).trans (if_neg (by rw [hd]; decide))

/-- A hello that disagrees fails the run (R414). -/
theorem State.ringHello_disagrees {d : List (BitVec 8)} (ha : s.ringActive n = some x) (hs : x.state = 0)
    (hd : x.agrees src d = false) : s.ringHello n src d = s.ringError x.cmd rsLAYOUT := by
  unfold State.ringHello
  rw [ha]
  exact (if_neg (not_not_intro hs)).trans (if_pos (by rw [hd]; rfl))

/-- A token of the successor joins its run (R415). -/
theorem State.takeToken_successor (v : Nat) (h : s.ringOf job key = some (n, x)) (hsucc : x.succ = some src) :
    s.takeToken src job key v = s.setRing n { x with tokens := v :: x.tokens } := by
  unfold State.takeToken
  rw [h]
  exact if_pos hsucc

/-- An abort fails its run (R429). -/
theorem State.takeAbort_live (h : s.ringOf job key = some (n, x)) :
    s.takeAbort src job key = (s.setRing n { x with aborts := src :: x.aborts }).ringError x.cmd rsPEER_ABORT := by
  unfold State.takeAbort
  rw [h]

end

/-! ### The steps of the engine -/

/-- A message toward a node with a next hop leaves, at once or held (R473, R475). -/
theorem State.sendPmsg_sent {s : State} {dst : Nat} (h : s.nextHops dst ≠ []) (kind key value : Nat) (payload : List (BitVec 8))
    (job ctx engine : Nat) : (s.sendPmsg dst kind key value payload job ctx engine).2 = true := by
  unfold State.sendPmsg
  rw [if_neg h]
  dsimp only
  split <;> rfl

/-- The next hops do not depend on the ring runs. -/
theorem State.nextHops_setRing (s : State) (n : Nat) (x : RingRun) (dst : Nat) :
    (s.setRing n x).nextHops dst = s.nextHops dst := rfl

/-- A run whose own block has been asked for: its slot 0 counts as received. -/
def RingRun.loading (x : RingRun) : RingRun := { x with got := kset x.got 0 x.block }

/-- The state in which a run's own block has been asked for (R412). -/
def State.ringLoaded (s : State) (n : Nat) (x : RingRun) : State := (s.setRing n x.loading).ringLoad x.loading

/-- A forward that is due: the cores of the span that cannot be read are woken, and else the block goes out (R102, R415). -/
def State.forwardDue (s : State) (n : Nat) (x : RingRun) (node step : Nat) (f : EccFinding) (e e2 : Int) : State :=
  if !(s.spanAsleep x).isEmpty then
    ((s.spanAsleep x).filter fun c => s.dozing (coreQuarter c)).foldl (fun (s : State) c => s.wakeFor (coreQuarter c) []) s
  else s.withResidue e e2 33 3 (s.ctxId x.cmd.slot) fun s =>
    s.engineEcc x.cmd 0x40 (2 ^ 58 + coreStoreBase x.coreFirst + x.slotOff step) f fun s =>
    (s.setRing n { x with fwd := step :: x.fwd }).ringSend n x node step

section
variable {s : State} {n : Nat} {x : RingRun} {node step : Nat} {e e2 : Int}

/-- A span that can be read, with no error found, goes out. -/
theorem State.forwardDue_awake (h : s.spanAsleep x = []) (he : residueSees e = false) (hu : (s.hist (engUnit 33)).perm = false) :
    s.forwardDue n x node step .clean e e2 = (s.setRing n { x with fwd := step :: x.fwd }).ringSend n x node step := by
  unfold State.forwardDue
  rw [h, State.withResidue_unseen he hu, State.engineEcc_clean]
  rfl

/-- A sleeping core whose quarter is gated has that quarter woken (R102). -/
theorem State.forwardDue_asleep {c : Nat} (f : EccFinding) (h : s.spanAsleep x = [c]) (hd : s.dozing (coreQuarter c) = true) :
    s.forwardDue n x node step f e e2 = s.wakeFor (coreQuarter c) [] := by
  unfold State.forwardDue
  rw [h, List.filter_cons_of_pos (p := fun c => s.dozing (coreQuarter c)) hd]
  rfl

end

section
variable {s : State} {n : Nat} {x : RingRun} (ha : s.ringActive n = some x)
include ha

/-- The first token needs no step before it: it goes to the predecessor (Table 8-6). -/
theorem exec_ringTokenSend_first {p : Nat} (hpred : x.pred = some p) (hs : x.state = 1) (hsteps : 1 < x.steps)
    (hsent : x.sentTok.contains 1 = false) (hroute : s.nextHops p ≠ []) :
    exec (.ringTokenSend n 1) s = .next ((s.setRing n { x with sentTok := 1 :: x.sentTok }).sendPmsg p pkTOKEN x.id 1 [] x.job
      (s.ctxId x.cmd.slot) 3).1 := by
  have hdue : ¬ (x.state ≠ 1 ∨ 1 = 0 ∨ x.steps ≤ 1 ∨ x.sentTok.contains 1 = true) := by
    rw [hs, hsent]
    simpa using hsteps
  refine congrArg Host.Outcome.next ?_
  rw [ha]
  dsimp only
  rw [hpred]
  refine (if_neg hdue).trans ((if_neg (fun h => absurd h.1 (by decide))).trans ?_)
  exact if_pos (State.sendPmsg_sent ((State.nextHops_setRing ..).symm ▸ hroute) ..)

/-- A load that fails in no piece and leaves no byte on the way makes step 0 ready (R412). -/
theorem exec_ringLoadDone_clean {e e2 : Int} (hs : x.state = 1) (hready : x.ready = 0) (hgot : kfind x.got 0 = none)
    (he : residueSees e = false) (hu : (s.hist (engUnit 33)).perm = false) (hf : (s.ringLoaded n x).failed x.cmd = false)
    (ho : (s.ringLoaded n x).outstanding x.cmd = false) :
    exec (.ringLoadDone n .clean e e2) s = .next ((s.ringLoaded n x).raiseReady n x.loading 0) := by
  have hdone : ¬ ((s.ringLoaded n x).failed x.cmd || (s.ringLoaded n x).outstanding x.cmd) = true := by
    rw [hf, ho]
    decide
  refine congrArg Host.Outcome.next ?_
  rw [ha]
  refine (if_neg (by simp [hs, hready])).trans ((if_neg (by rw [hgot]; decide)).trans ?_)
  rw [State.withResidue_unseen he hu, State.engineEcc_clean]
  exact if_neg hdone

/-- A ready block whose token is held, that is not forwarded yet and that the successor needs, is forwarded (Table 8-6). -/
theorem exec_ringForward_due {step node : Nat} {f : EccFinding} {e e2 : Int} (hsucc : x.succ = some node) (hs : x.state = 1)
    (hready : step < x.ready) (htok : x.tokens.contains (step + 1) = true) (hfwd : x.fwd.contains step = false)
    (hmust : x.mustForward step = true) :
    exec (.ringForward n step f e e2) s = .next (s.forwardDue n x node step f e e2) := by
  have hdue : ¬ (x.state ≠ 1 ∨ x.ready ≤ step ∨ (!x.tokens.contains (step + 1)) = true ∨ x.fwd.contains step = true ∨
      (!x.mustForward step) = true) := by
    rw [hs, htok, hfwd, hmust]
    simp [hready]
  refine congrArg Host.Outcome.next ?_
  rw [ha]
  dsimp only
  rw [hsucc]
  exact if_neg hdue

/-- A step whose every byte is there is ready (Table 8-6). -/
theorem exec_ringReady_whole {step : Nat} (hs : x.state = 1) (hlo : 1 ≤ step) (hhi : step < x.steps) (hready : x.ready = step)
    (hgot : x.block ≤ kget x.got step 0) : exec (.ringReady n step) s = .next (s.raiseReady n x step) := by
  refine congrArg Host.Outcome.next ?_
  rw [ha]
  exact if_pos ⟨hs, hlo, hhi, hready, hgot⟩

/-- A run completes once its steps are ready, its forwards performed and its kernels done (Table 8-6). -/
theorem exec_ringComplete_whole (hs : x.state = 1) (hready : x.ready = x.steps)
    (hfwd : ((List.range x.steps).all fun t => !x.mustForward t || s.forwarded n x t) = true)
    (hdone : s.doneSteps x x.steps = true) :
    exec (.ringComplete n) s = .next ((s.dropRing n).setWork x.cmd (.done stOK x.steps)) := by
  refine congrArg Host.Outcome.next ?_
  rw [ha]
  exact if_pos ⟨hs, hready, hfwd, hdone⟩

/-- A wait past `STEP_TO` fails the run by its kind (R421). -/
theorem exec_stepTimeout_waits {w : RingWait} (hw : RingRun.waits x w = true) :
    exec (.stepTimeout n w) s = .next (s.ringError x.cmd (if w = .hello then rsHELLO_TIMEOUT else rsSTEP_TIMEOUT)) := by
  refine congrArg Host.Outcome.next ?_
  rw [ha]
  exact if_pos hw

end

/-- Settles O20: a run starts by `ringBegin_legal`; its neighbours' messages go by the live run of their job and `RING_ID`, and
the engine's own steps by the run while it is active. -/
theorem ringRows : Obligations.RingRows := by
  refine ⟨?starts, ?malformed, ?agrees, ?disagrees, ?holdExpires, ?token, ?abort, ?tokenSend, ?load, ?forward, ?wakes, ?ready,
    ?completes, ?helloLate, ?stepLate⟩
  case starts =>
    exact fun s slot queue count c h hr hplace hdesc hlit hnew =>
      (exec_ringRun_readable h hplace hr).trans (congrArg Host.Outcome.next (State.ringBegin_legal rfl hdesc hlit hnew))
  case malformed => exact fun s slot queue count c h ha hplace => exec_ringRun_misaligned h hplace ha
  case agrees =>
    exact fun s src job key n d x h ha hs hd =>
      congrArg Host.Outcome.next ((State.takeHello_live h _).trans (State.ringHello_agrees ha hs hd))
  case disagrees =>
    exact fun s src job key n d x h ha hs hd =>
      congrArg Host.Outcome.next ((State.takeHello_live h _).trans (State.ringHello_disagrees ha hs hd))
  case holdExpires =>
    intro s src job key
    refine ⟨_, rfl, ?_, rfl, rfl, rfl⟩
    rintro h hkept ⟨hsrc, hjob, hkey⟩
    have hother := (List.mem_filter.mp hkept).2
    simp [hsrc, hjob, hkey] at hother
  case token =>
    exact fun s src job key v n x h hsucc => congrArg Host.Outcome.next (State.takeToken_successor v h hsucc)
  case abort => exact fun s src job key n x h => congrArg Host.Outcome.next (State.takeAbort_live h)
  case tokenSend =>
    exact fun s n p x ha hpred hs hsteps hsent hroute => exec_ringTokenSend_first ha hpred hs hsteps hsent hroute
  case load => exact fun s n e e2 x ha hs hready hgot he hu hf ho => exec_ringLoadDone_clean ha hs hready hgot he hu hf ho
  case forward =>
    intro s n step node e e2 x ha hsucc hs hready htok hfwd hmust hawake he hu
    exact (exec_ringForward_due ha hsucc hs hready htok hfwd hmust).trans
      (congrArg Host.Outcome.next (State.forwardDue_awake hawake he hu))
  case wakes =>
    intro s n step node f e e2 x ha hsucc hs hready htok hfwd hmust hasleep hdoze
    exact (exec_ringForward_due ha hsucc hs hready htok hfwd hmust).trans
      (congrArg Host.Outcome.next (State.forwardDue_asleep f hasleep hdoze))
  case ready => exact fun s n step x ha hs hlo hhi hready hgot => exec_ringReady_whole ha hs hlo hhi hready hgot
  case completes => exact fun s n x ha hs hready hfwd hdone => exec_ringComplete_whole ha hs hready hfwd hdone
  case helloLate =>
    exact fun s n x ha hs => exec_stepTimeout_waits ha (w := .hello) (by rw [RingRun.waits, hs]; rfl)
  case stepLate =>
    intro s n w x ha _ hne hw
    rw [exec_stepTimeout_waits ha hw, if_neg hne]

end Sys2Proof.Machine
end

section
/-! PROOFS. Placements: the checks of Table 8-2, the partner's record, and the two times that bound a placement. -/

namespace Sys2Proof.Machine
open Sys2Proof Safety

section
variable {s : State} {q : Req} (h : s.taking 0x0102 = some q) (hp : s.placing (plJob q.payload) = false)
include h hp

/-- The first condition of Table 8-2 that holds refuses the placement (R396). -/
theorem exec_placement_refused {st reason : Nat} (hc : s.placeCheck q.payload = some (st, reason)) :
    exec .placement s = .next (s.answer st reason (placeRefusal reason)) := by
  refine congrArg Host.Outcome.next ((State.serve_taking h _).trans ((if_neg (ne_true_of_eq_false hp)).trans ?_))
  rw [hc]

/-- A placement that none of them refuses starts on the lowest free ticket (R396, R630). -/
theorem exec_placement_starts {n : Nat} (hc : s.placeCheck q.payload = none) (hfree : s.freeTicket = some n) :
    exec .placement s = .next ((accepted s 0x0102 n).placeStart q.payload n) := by
  refine congrArg Host.Outcome.next ((State.serve_taking h _).trans ((if_neg (ne_true_of_eq_false hp)).trans ?_))
  rw [hc]
  exact State.accept_free hfree _ _

end

/-- A placement of the record's job that waits for this partner gets its record (R640). -/
theorem exec_partnerRecord_meets {s : State} {src : Nat} {rec : List Nat} {p : Nat × Placement}
    (h : (s.place.jobs.find? fun p => p.2.phase == .partner && plPartner p.2.record == src &&
      (p.1 == plJob (rec.map (BitVec.ofNat 8)))) = some p) :
    exec (.partnerRecord src rec) s = .next (s.placePartner p.1 (rec.map (BitVec.ofNat 8))) := by
  refine congrArg Host.Outcome.next ?_
  dsimp only
  rw [h]

/-- Settles O31: a placement is judged by `placeCheck`, a record meets the placement that waits for it, and each of the two
times acts on the placement it bounds. -/
theorem placementRows : Obligations.PlacementRows := by
  refine ⟨?refused, ?starts, ?held, ?meets, ?silent, ?holdExpires⟩
  case refused => exact fun s q st reason h hp hc => exec_placement_refused h hp hc
  case starts => exact fun s q n h hp hc hfree => exec_placement_starts h hp hc hfree
  case held =>
    intro s src rec hpartner hjob
    refine congrArg Host.Outcome.next ?_
    dsimp only
    rw [hjob]
    dsimp only
    rw [hpartner]
  case meets => exact fun s src rec p h => exec_partnerRecord_meets h
  case silent =>
    intro s job h
    refine congrArg Host.Outcome.next ?_
    rw [h]
  case holdExpires =>
    intro s job p h hheld
    refine congrArg Host.Outcome.next ?_
    rw [h]
    exact if_pos hheld

end Sys2Proof.Machine
end

section
/-! PROOFS. Lanes: what the update of one lane leaves of the others and of its circuit, then bring-up, failure, flow blocks,
acknowledgement and the transmitter. -/

namespace Sys2Proof.Machine
open Sys2Proof Safety

/-! ### What a lane reads after an update -/

section
variable (s : State) (n m v : Nat)

theorem off_laneErr_ne_lane : Reg.off .LNK_LANE_ERR n ≠ Reg.off .LNK_LANE m := by
  simp only [Reg.off, Reg.desc]
  omega

theorem State.laneCirc_congr {s t : State} (hv : t.rd F.LNK_LANE.CIRC_VALID n = s.rd F.LNK_LANE.CIRC_VALID n)
    (hc : t.rd F.LNK_LANE.CIRC n = s.rd F.LNK_LANE.CIRC n) : t.laneCirc n = s.laneCirc n := by
  unfold State.laneCirc State.flag
  rw [hv, hc]

theorem State.laneCirc_channel {n : Nat} (h : 180 ≤ n) : s.laneCirc n = some (chanKey (n - 180)) := if_pos h

theorem State.laneCirc_setLaneState : (s.setLaneState n v).laneCirc m = s.laneCirc m :=
  State.laneCirc_congr m (s.rd_wr_away _ _ v n m (by decide) (by decide)) (s.rd_wr_away _ _ v n m (by decide) (by decide))

theorem State.node_setLaneState : (s.setLaneState n v).node = s.node := s.rd_wr_below _ _ v n 0 (by decide) (by decide)

/-! ### A lane that enters `UP` -/

theorem State.laneCirc_laneUp : (s.laneUp n).laneCirc m = s.laneCirc m :=
  (State.laneCirc_congr m (State.rd_wreg_ne _ _ _ _ _ _ (off_laneErr_ne_lane n m))
    (State.rd_wreg_ne _ _ _ _ _ _ (off_laneErr_ne_lane n m))).trans (s.laneCirc_setLaneState n m lsUP)

theorem State.circLanes_laneUp (c : Nat) : (s.laneUp n).circLanes c = s.circLanes c := rfl

theorem State.farInc_laneUp : ((s.laneUp n).lane n).farInc = (s.lane n).farInc := by
  unfold State.laneUp
  rw [lane_setLane]

theorem State.laneState_laneUp : (s.laneUp n).laneState m = (s.setLaneState n lsUP).laneState m :=
  State.rd_wreg_ne _ _ _ _ _ _ (off_laneErr_ne_lane n m)

theorem State.laneState_laneUp_same : (s.laneUp n).laneState n = lsUP :=
  (s.laneState_laneUp n n).trans (State.rd_wr_lit _ _ _ _ (by decide) (by decide))

theorem State.laneState_laneUp_ne {n m : Nat} (h : m ≠ n) : (s.laneUp n).laneState m = s.laneState m :=
  (s.laneState_laneUp n m).trans (State.rd_wr_other _ _ _ _ _ (by decide) h.symm)

end

/-! ### Bring-up -/

section
variable {s : State} {lane : Nat}

theorem exec_laneClockRecovered_cdr (h : s.laneState lane = lsCDR) :
    exec (.laneClockRecovered lane) s = .next ((s.setLaneState lane lsADAPT).setLane lane
      { s.lane lane with retried := false, initOk := false }) := by
  refine congrArg Host.Outcome.next ?_
  simp [h, show (lsCDR == lsFAILED) = false from rfl]

/-- A failed wavelength-0 channel starts again: with its beacon while its port is quarantined (R478). -/
theorem exec_laneClockRecovered_failed (hw : 180 ≤ lane) (h : s.laneState lane = lsFAILED) :
    exec (.laneClockRecovered lane) s = .next (if s.flag F.LAT_PORT.QUAR (lane - 180) then s.setLaneState lane lsBEACON
      else (s.setLaneState lane lsADAPT).setLane lane { s.lane lane with retried := false, initOk := false }) := by
  refine congrArg Host.Outcome.next ?_
  simp [h, hw]

/-- The `INIT` block of a lane whose circuit is known. -/
theorem exec_laneAlignmentFound_init {c : Nat} (h : s.laneState lane = lsALIGN) (hc : s.laneCirc lane = some c) :
    exec (.laneAlignmentFound lane) s = .next ((s.setLaneState lane lsINIT).emit (.lane lane cbINIT [s.node,
      s.lk.inc, if 512 ≤ c then c - 512 else c, (s.circLanes c).idxOf lane, (s.circLanes c).length, lanePlane lane, 1])) := by
  refine congrArg Host.Outcome.next ((if_pos h).trans ?_)
  unfold State.sendInit
  rw [State.laneCirc_setLaneState, hc, State.node_setLaneState]
  rfl

end

/-- A lane and its circuit once the far end is known to be ready: its incarnation, and the `RCIRC` of packets to it. -/
def State.farReady (s : State) (lane c inc circ : Nat) : State :=
  (s.setLane lane { s.lane lane with initOk := true, farInc := inc }).setCirc c { s.circ c with rcirc := circ }

theorem State.initOk_farReady (s : State) (lane c inc circ : Nat) : ((s.farReady lane c inc circ).lane lane).initOk = true :=
  congrArg Lane.initOk (lane_setLane s lane { s.lane lane with initOk := true, farInc := inc })

section
variable {s : State} {lane node inc circ laneI k plane c : Nat} {ready : Bool}
  (h : s.laneState lane = lsINIT) (hc : s.laneCirc lane = some c)
include h hc

/-- The far end named in an `INIT` block is none that the circuit expects. -/
theorem exec_init_wrongEnd (hlt : c < 512) (hbad : node ≠ s.rd F.LNK_CIRC.FAR_NODE c ∨ plane ≠ lanePlane lane ∨
    k ≠ (s.circLanes c).length ∨ laneI ≠ (s.circLanes c).idxOf lane) :
    exec (.init lane node inc circ laneI k plane ready) s = .next (s.trainLost lane 2) := by
  refine congrArg Host.Outcome.next ?_
  rw [if_neg (not_not_intro h), hc]
  exact if_pos ⟨hlt, hbad⟩

variable (hok : 512 ≤ c ∨ (node = s.rd F.LNK_CIRC.FAR_NODE c ∧ plane = lanePlane lane ∧ k = (s.circLanes c).length ∧
  laneI = (s.circLanes c).idxOf lane))
include hok

/-- The far end is the expected one: what is left is to wait for its `READY`, on which the lane of a one-lane circuit
enters `CHECK`. -/
theorem exec_init_rightEnd : exec (.init lane node inc circ laneI k plane false) s = .next s ∧
    (s.circLanes c = [lane] →
      exec (.init lane node inc circ laneI k plane true) s = .next ((s.farReady lane c inc circ).setLaneState lane lsCHECK)) := by
  have hend : ¬ (c < 512 ∧ (node ≠ s.rd F.LNK_CIRC.FAR_NODE c ∨ plane ≠ lanePlane lane ∨
    k ≠ (s.circLanes c).length ∨ laneI ≠ (s.circLanes c).idxOf lane)) := by omega
  refine ⟨congrArg Host.Outcome.next ?_, fun hone => congrArg Host.Outcome.next ?_⟩ <;> rw [if_neg (not_not_intro h), hc]
  · exact (if_neg hend).trans (if_pos rfl)
  · refine (if_neg hend).trans ((if_neg (by decide)).trans ?_)
    have hst : (s.farReady lane c inc circ).laneState lane = lsINIT := h
    rw [hone]
    refine (if_pos ?_).trans (if_pos ⟨hst, s.initOk_farReady lane c inc circ⟩)
    change ([lane].all fun l => decide (lsINIT ≤ (s.farReady lane c inc circ).laneState l) &&
      decide ((s.farReady lane c inc circ).laneState l ≤ lsUP)) = true
    rw [List.all_cons, List.all_nil, hst]
    decide

end

section
variable {s : State} {lane corrected uncorr : Nat} (h : s.laneState lane = lsCHECK)
include h

section
variable (hfew : corrected ≤ 3264) (hnone : uncorr = 0)
include hfew hnone

theorem exec_laneCheckComplete_channel (hw : 180 ≤ lane) : exec (.laneCheckComplete lane corrected uncorr) s = .next
    { (s.laneUp lane).meetFar (chanKey (lane - 180)) (s.lane lane).farInc with topo.stale := true } := by
  refine congrArg Host.Outcome.next ((if_neg (not_not_intro h)).trans ((if_pos ⟨hfew, hnone⟩).trans ?_))
  dsimp only
  rw [State.laneCirc_channel _ hw]
  refine (if_pos (Nat.le_add_right 512 _)).trans ?_
  rw [State.farInc_laneUp]

/-- The lane is up; its circuit follows when it was the last (R447). -/
theorem exec_laneCheckComplete_circuit {c : Nat} (hc : s.laneCirc lane = some c) (hlt : c < 512) :
    exec (.laneCheckComplete lane corrected uncorr) s = .next
      (if ∀ l ∈ s.circLanes c, l = lane ∨ s.laneState l = lsUP then (((s.laneUp lane).circEnterUp c).pathUp c).kick
       else s.laneUp lane) := by
  have hup (l : Nat) : (s.laneUp lane).laneState l = lsUP ↔ l = lane ∨ s.laneState l = lsUP := by
    by_cases hl : l = lane
    · rw [hl]
      exact ⟨fun _ => .inl rfl, fun _ => s.laneState_laneUp_same lane⟩
    · rw [s.laneState_laneUp_ne hl]
      exact ⟨.inr, fun hs => hs.resolve_left hl⟩
  refine congrArg Host.Outcome.next ((if_neg (not_not_intro h)).trans ((if_pos ⟨hfew, hnone⟩).trans ?_))
  dsimp only
  rw [State.laneCirc_laneUp, hc]
  refine (if_neg (Nat.not_le.mpr hlt)).trans ?_
  simp only [State.circLanes_laneUp, List.all_eq_true, beq_iff_eq, hup]

end

theorem exec_laneCheckComplete_fails (hbad : 3264 < corrected ∨ uncorr ≠ 0) :
    exec (.laneCheckComplete lane corrected uncorr) s = .next (if (s.lane lane).retried then s.trainLost lane 1
      else (s.setLaneState lane lsADAPT).setLane lane { s.lane lane with retried := true }) :=
  congrArg Host.Outcome.next ((if_neg (not_not_intro h)).trans (if_neg (by omega)))

end

/-! ### Blocks of a lane in use -/

theorem State.circLanes_takeAck (s : State) (c ack : Nat) : (s.takeAck c ack).circLanes c = s.circLanes c := by
  unfold State.takeAck
  dsimp only
  split
  · unfold State.circLanes
    rw [State.circ_setCirc]
  · rfl

/-- The lane after a FLOW block: the credits that its running totals give back (R453, R459). -/
def creditsBack (x : Machine.Lane) (req rsp pmsg : Nat) : Machine.Lane :=
  { x with
    usedReq := returnCredit x.usedReq x.seenReq req, seenReq := req
    usedRsp := returnCredit x.usedRsp x.seenRsp rsp, seenRsp := rsp
    usedPmsg := returnCredit x.usedPmsg x.seenPmsg pmsg, seenPmsg := pmsg }

section
variable {s : State} {lane c : Nat} (h : s.laneState lane = lsUP)

include h

theorem exec_flow_up {ack req rsp pmsg nakSeq : Nat} (hc : s.laneCirc lane = some c) :
    exec (.flow lane ack req rsp pmsg nakSeq false) s =
      .next ((s.setLane lane (creditsBack (s.lane lane) req rsp pmsg)).takeAck c ack) ∧
    exec (.flow lane ack req rsp pmsg nakSeq true) s =
      .next (((s.setLane lane (creditsBack (s.lane lane) req rsp pmsg)).takeAck c ack).resend c fun t =>
        t.pkt.seq % (s.circLanes c).length == (s.circLanes c).idxOf lane && !seqBefore t.pkt.seq nakSeq) := by
  refine ⟨congrArg Host.Outcome.next ?_, congrArg Host.Outcome.next ?_⟩ <;> rw [if_neg (not_not_intro h), hc]
  · exact if_neg (by decide)
  · refine (if_pos rfl).trans ?_
    dsimp only
    rw [State.circLanes_takeAck]
    rfl

theorem exec_lnkBerHigh_up (symbols : Nat) : exec (.lnkBerHigh lane symbols) s = .next
    (if 44800 < symbols then (s.bump F.LNK_LANE_ERR.CORR_SYM lane symbols).note evBerHigh 1 5 lane [lane, symbols]
     else s.bump F.LNK_LANE_ERR.CORR_SYM lane symbols) :=
  congrArg Host.Outcome.next (if_neg (not_not_intro h))

/-- The count of all uncorrectable codewords lies below the lanes' registers. -/
theorem exec_uncorrectableCodeword_up : exec (.uncorrectableCodeword lane) s = .next
    ((s.bump F.LNK_CNT_UNCORR.COUNT).bumpSat F.LNK_LANE_ERR.UNCORR lane) := by
  refine congrArg Host.Outcome.next (if_pos ?_)
  refine (State.rd_wr_off _ _ _ _ _ _ ?_).trans h
  change 0x300018 + 0 * 0 ≠ 0x301000 + lane * 0x10
  omega

theorem exec_packetCrcFail_up (hc : s.laneCirc lane = some c) : exec (.packetCrcFail lane) s = .next
    (if (s.lane lane).nak then (s.bump F.LNK_CNT_CRC.COUNT).bumpSat F.LNK_LANE_ERR.CRC_ERR lane
     else (((s.bump F.LNK_CNT_CRC.COUNT).bumpSat F.LNK_LANE_ERR.CRC_ERR lane).setLane lane
        { s.lane lane with nak := true }).sendFlow lane c (some ((s.lane lane).expect.getD
        (nextOnLane (s.circLanes c).length ((s.circLanes c).idxOf lane) (s.circ c).e)))) := by
  refine congrArg Host.Outcome.next ((if_neg (not_not_intro h)).trans ?_)
  rw [hc]
  rfl

end

/-! ### The transmitter -/

/-- The lane whose turn it is on a circuit (R457). -/
def State.turnLane (s : State) (c : Nat) : Nat := (s.circLanes c).getD ((s.circ c).tx % (s.circLanes c).length) 0

/-- A packet with its circuit's next number and the peer's `RCIRC`. -/
def State.numbered (s : State) (c : Nat) (x : TxPkt) : TxPkt :=
  { x with pkt := { x.pkt with seq := (s.circ c).tx, rcirc := (s.circ c).rcirc } }

/-- The picked packet `x` leaves: it uses its lane's credits, waits in replay, and goes on the line. -/
def State.sendPicked (s : State) (c : Nat) (b r : List TxPkt) (x : TxPkt) : State :=
  ((s.setLane (s.turnLane c) ((s.lane (s.turnLane c)).use (packetClass x.type) x.pkt.units)).setCirc c
    { s.circ c with txq := b ++ r, replay := (s.circ c).replay ++ [s.numbered c x], tx := ((s.circ c).tx + 1) % 2 ^ 24 }).putOnLine
      c (s.numbered c x)

theorem exec_packetSend_picked {s : State} {circ : Nat} {b r : List TxPkt} {x : TxPkt}
    (hup : (offered s circ).circUp circ = true) (hp : (offered s circ).pick circ = some (b, x, r)) :
    exec (.packetSend circ) s = .next ((offered s circ).sendPicked circ b r x) := by
  refine congrArg Host.Outcome.next ((if_neg ?_).trans ?_)
  · change ¬ (!(offered s circ).circUp circ) = true
    rw [hup]
    decide
  · unfold offered at hp
    dsimp only
    rw [hp]
    rfl

/-- One more timeout in a row is counted, of the module and of the circuit (R460). -/
def State.timeoutCounted (s : State) (c : Nat) : State :=
  (s.bump F.LNK_CNT_REPLAY.COUNT).setCirc c { s.circ c with replays := (s.circ c).replays + 1 }

theorem State.circ_timeoutCounted (s : State) (c : Nat) :
    (s.timeoutCounted c).circ c = { s.circ c with replays := (s.circ c).replays + 1 } := State.circ_setCirc ..

theorem State.circLanes_timeoutCounted (s : State) (c : Nat) : (s.timeoutCounted c).circLanes c = s.circLanes c := by
  unfold State.circLanes
  rw [State.circ_timeoutCounted]

theorem State.replayMax_timeoutCounted (s : State) (c : Nat) :
    (s.timeoutCounted c).rd1 F.LNK_CFG.REPLAY_MAX = s.rd1 F.LNK_CFG.REPLAY_MAX :=
  congrArg (max 1) (State.rd_wr_apart _ _ _ _ _ _ (by decide) (by decide))

/-- A timeout sends everything again; the last in a row fails the lanes instead (R460). -/
theorem exec_ackTimeout_pending {s : State} {circ : Nat} (hup : s.circUp circ = true) (hr : (s.circ circ).replay ≠ []) :
    exec (.ackTimeout circ) s = .next (if s.rd1 F.LNK_CFG.REPLAY_MAX ≤ (s.circ circ).replays + 1 then
        ((s.timeoutCounted circ).setCirc circ { s.circ circ with replays := 0 }).failLanes (s.circLanes circ) .replayMax
      else (s.timeoutCounted circ).resend circ fun _ => true) := by
  refine congrArg Host.Outcome.next ((if_neg ?_).trans ?_)
  · rw [hup]
    exact fun hor => hor.elim (by decide) hr
  · change (if (s.timeoutCounted circ).rd1 F.LNK_CFG.REPLAY_MAX ≤ _ then State.failLanes ((s.timeoutCounted circ).setCirc circ
      { (s.timeoutCounted circ).circ circ with replays := 0 }) ((s.timeoutCounted circ).circLanes circ) _ else _) = _
    rw [State.replayMax_timeoutCounted, State.circLanes_timeoutCounted, State.circ_timeoutCounted]
    rfl

/-- Settles O37: each clause is the branch of its command that the clause's premises choose. The codes of training and of
lane failures, the timeout that fails the lanes and a failed channel's new start are the model's reading
(notes/assumptions/38.md, 39.md, 28.md). -/
theorem laneRows : Obligations.LaneRows := by
  refine ⟨?cdr, ?beacon, ?again, ?equaliser, ?aligned, ?wrongEnd, ?ready, ?waits, ?channelUp, ?circuitUp, ?laneUp,
    ?adaptsAgain, ?checkFails, ?bound, ?fails, ?flow, ?flowNak, ?berHigh, ?berLow, ?uncorrectable, ?crcAgain, ?crcFirst,
    ?expires, ?discard, ?send, ?replay, ?replayMax⟩
  case cdr => exact fun s lane h => exec_laneClockRecovered_cdr h
  case beacon =>
    intro s lane hw h hq
    rw [exec_laneClockRecovered_failed hw h, if_pos hq]
  case again =>
    intro s lane hw h hq
    rw [exec_laneClockRecovered_failed hw h, if_neg (ne_true_of_eq_false hq)]
  case equaliser => exact fun s lane h => congrArg Host.Outcome.next (if_pos h)
  case aligned => exact fun s lane c h hc => exec_laneAlignmentFound_init h hc
  case wrongEnd => exact fun s lane node inc circ laneI k plane ready c h hc hlt hbad => exec_init_wrongEnd h hc hlt hbad
  case ready =>
    rintro s lane node inc circ laneI k plane _ c h hc hok rfl hone
    exact (exec_init_rightEnd h hc hok).2 hone
  case waits => exact fun s lane node inc circ laneI k plane c h hc hok => (exec_init_rightEnd h hc hok).1
  case channelUp => exact fun s lane corrected uncorr h hfew hnone hw => exec_laneCheckComplete_channel h hfew hnone hw
  case circuitUp =>
    intro s lane corrected uncorr c h hfew hnone _ hc hlt hall
    rw [exec_laneCheckComplete_circuit h hfew hnone hc hlt, if_pos hall]
  case laneUp =>
    intro s lane corrected uncorr c l h hfew hnone hc hlt hl hne hdown
    rw [exec_laneCheckComplete_circuit h hfew hnone hc hlt, if_neg fun hall => (hall l hl).elim hne hdown]
  case adaptsAgain =>
    intro s lane corrected uncorr h hbad hr
    rw [exec_laneCheckComplete_fails h hbad, if_neg (ne_true_of_eq_false hr)]
  case checkFails =>
    intro s lane corrected uncorr h hbad hr
    rw [exec_laneCheckComplete_fails h hbad, if_pos hr]
  case bound => exact fun s lane hlo hhi => congrArg Host.Outcome.next (if_pos ⟨hlo, hhi⟩)
  case fails => exact fun s lane cond hd hf => congrArg Host.Outcome.next (if_neg fun h => h.elim hd hf)
  case flow => exact fun s lane ack req rsp pmsg nakSeq c h hc => (exec_flow_up h hc).1
  case flowNak => exact fun s lane ack req rsp pmsg nakSeq c h hc => (exec_flow_up h hc).2
  case berHigh =>
    intro s lane symbols h hmany
    rw [exec_lnkBerHigh_up h, if_pos hmany]
  case berLow =>
    intro s lane symbols h hfew
    rw [exec_lnkBerHigh_up h, if_neg (Nat.not_lt.mpr hfew)]
  case uncorrectable => exact fun s lane h => exec_uncorrectableCodeword_up h
  case crcAgain =>
    intro s lane c h hc hn
    rw [exec_packetCrcFail_up h hc, if_pos hn]
  case crcFirst =>
    intro s lane c h hc hn
    rw [exec_packetCrcFail_up h hc, if_neg (ne_true_of_eq_false hn)]
  case expires => exact fun s src => rfl
  case discard =>
    intro s port x h
    refine congrArg Host.Outcome.next ?_
    dsimp only
    rw [h]
  case send => exact fun s circ b r x hup hp => exec_packetSend_picked hup hp
  case replay =>
    intro s circ hup hr hfew
    exact (exec_ackTimeout_pending hup hr).trans (congrArg Host.Outcome.next (if_neg (Nat.not_le.mpr hfew)))
  case replayMax =>
    intro s circ hup hr hmax
    exact (exec_ackTimeout_pending hup hr).trans (congrArg Host.Outcome.next (if_pos hmax))

end Sys2Proof.Machine
end

section
/-! PROOFS. Received packets: the consumer of each type, requests at their home, responses at their requester, and protected
messages. -/

namespace Sys2Proof.Machine
open Sys2Proof Safety

/-! ### What an answer's packet reads of the state -/

theorem State.answerPkt_congr {s t : State} (hn : t.node = s.node) (hi : t.lk = s.lk) (p : Pkt) (b : Bool) :
    t.answerPkt p b = s.answerPkt p b := by
  unfold State.answerPkt
  rw [hn, hi]

theorem State.node_record (s : State) (c v k x : Nat) (p : List Nat) (y : Option Nat) (z : Bool) :
    (s.record c v k x p y z).node = s.node := State.rd_record _ _ _ _ _ _ _ _ _ _ (by decide)

theorem State.node_note (s : State) (c v k x : Nat) (p : List Nat) (y : Option Nat) (z : Bool) :
    (s.note c v k x p y z).node = s.node := State.rd_note _ _ _ _ _ _ _ _ _ _ (by decide)

theorem State.node_bump (s : State) (f : Fld) (i n : Nat) (hf : f.good = true) (h : f.apart i F.ID_NODE.NODE_ID 0 = true) :
    (s.bump f i n).node = s.node := State.rd_wr_apart _ _ _ _ _ _ hf h

/-- What ECC finds in LPDDR6 changes memory's record, counts and events alone. -/
theorem State.answerPkt_eccFound (s : State) (off : Nat) (e : EccFinding) (y : Option Nat) (p : Pkt) (b : Bool) :
    (s.eccFound off e y).answerPkt p b = s.answerPkt p b := by
  unfold State.eccFound
  split
  · rfl
  · split
    · rfl
    · exact State.answerPkt_congr ((State.node_note ..).trans (s.node_bump _ 0 1 (by decide) (by decide))) (State.note_lk ..) p b
    · split
      · rfl
      · exact State.answerPkt_congr (State.node_bump _ _ 0 1 (by decide) (by decide)) rfl p b

theorem eccOf_eccCode (e : EccFinding) : eccOf (eccCode e) = e := by
  cases e with
  | clean => rfl
  | wrongGranule => rfl
  | errors n => simp [eccOf, eccCode]

/-! ### A request at its home -/

section
variable {s u v : State} {c : Nat} {p : Pkt} {k : MemKind} {rsp : Nat}

section
variable (h : s.checkAccess p.job true (s.fromPrimary p) (p.engine == 6) k p.addr = none)
include h

theorem State.homeRequest_performed {bs : List (BitVec 8)}
    (ha : s.homeAccess (remoteSource p) k p.addr (.reply c (s.answerPkt p k.isAtom) rsp) = (u, .data bs)) :
    s.homeRequest c p k rsp = (u.when k.writes fun u => u.ringCount p.src p.addr k.size).enqueue c rsp
      (answered (s.answerPkt p k.isAtom) bs) := by
  unfold State.homeRequest
  dsimp only
  rw [h]
  dsimp only
  rw [ha]

theorem State.homeRequest_waits {t : Nat}
    (ha : s.homeAccess (remoteSource p) k p.addr (.reply c (s.answerPkt p k.isAtom) rsp) = (u, .pending t)) :
    s.homeRequest c p k rsp = u := by
  unfold State.homeRequest
  dsimp only
  rw [h]
  dsimp only
  rw [ha]

theorem State.takeRequest_clean : s.takeRequest c p k rsp (eccCode .clean) = s.homeRequest c p k rsp := by
  unfold State.takeRequest
  rw [h, eccOf_eccCode, State.eccFound_clean]
  refine (if_neg (by decide)).trans ?_
  split <;> rfl

/-- SEC-DED cannot correct the word of on-package SRAM: the requester gets `POISON` (R229, notes/assumptions/62.md). -/
theorem State.takeRequest_lost {kind : Nat} {e : EccFinding} (hk : (placeOf p.addr).sramKind = some kind)
    (he : EccFinding.sram e = .uncorrectable) :
    s.takeRequest c p k rsp (eccCode e) = (s.record evEccFatal 2 6 c [kind, p.addr] (some p.ctx)).homeFail c
      (s.answerPkt p k.isAtom) rsp gcPOISON := by
  unfold State.takeRequest
  rw [h, hk, eccOf_eccCode]
  refine (if_neg (by decide)).trans ?_
  unfold State.sramEcc
  rw [he]
  dsimp only
  rw [State.answerPkt_congr (State.node_record ..) (State.record_lk ..)]

/-- In LPDDR6 the finding is taken first, and the request goes on (R282). -/
theorem State.takeRequest_dram {e : EccFinding} (hk : (placeOf p.addr).sramKind = none) :
    s.takeRequest c p k rsp (eccCode e) = (s.eccFound (s.framed p.addr) e (some p.ctx)).homeRequest c p k rsp := by
  unfold State.takeRequest
  rw [h, hk, eccOf_eccCode]
  exact if_neg (by decide)

theorem State.takeRequest_performed {bs : List (BitVec 8)}
    (ha : s.homeAccess (remoteSource p) k p.addr (.reply c (s.answerPkt p k.isAtom) rsp) = (u, .data bs)) :
    s.takeRequest c p k rsp (eccCode .clean) = (u.when k.writes fun u => u.ringCount p.src p.addr k.size).enqueue c rsp
      (answered (s.answerPkt p k.isAtom) bs) :=
  (State.takeRequest_clean h).trans (State.homeRequest_performed h ha)

theorem State.takeRequest_waits {t : Nat}
    (ha : s.homeAccess (remoteSource p) k p.addr (.reply c (s.answerPkt p k.isAtom) rsp) = (u, .pending t)) :
    s.takeRequest c p k rsp (eccCode .clean) = u :=
  (State.takeRequest_clean h).trans (State.homeRequest_waits h ha)

theorem State.takeRequest_afterEcc {e : EccFinding} {bs : List (BitVec 8)} (hk : (placeOf p.addr).sramKind = none)
    (hv : v = s.eccFound (s.framed p.addr) e (some p.ctx))
    (hc : v.checkAccess p.job true (v.fromPrimary p) (p.engine == 6) k p.addr = none)
    (ha : v.homeAccess (remoteSource p) k p.addr (.reply c (s.answerPkt p k.isAtom) rsp) = (u, .data bs)) :
    s.takeRequest c p k rsp (eccCode e) = (u.when k.writes fun u => u.ringCount p.src p.addr k.size).enqueue c rsp
      (answered (s.answerPkt p k.isAtom) bs) := by
  have hp : s.answerPkt p k.isAtom = v.answerPkt p k.isAtom := by rw [hv, State.answerPkt_eccFound]
  rw [State.takeRequest_dram h hk, ← hv, hp]
  rw [hp] at ha
  exact State.homeRequest_performed hc ha

end

/-- A request that fails its access check is refused before ECC is asked (R304). -/
theorem State.takeRequest_unchecked {cause : Nat} (e : Nat)
    (h : s.checkAccess p.job true (s.fromPrimary p) (p.engine == 6) k p.addr = some cause) :
    s.takeRequest c p k rsp e = s.homeRequest c p k rsp := by
  unfold State.takeRequest
  rw [h]
  exact if_pos rfl

theorem State.takeRequest_refused {e cause : Nat}
    (h : s.checkAccess p.job true (s.fromPrimary p) (p.engine == 6) k p.addr = some cause) (hne : cause ≠ gcPOISON) :
    s.takeRequest c p k rsp e = s.homeFail c (s.answerPkt p k.isAtom) rsp cause := by
  rw [State.takeRequest_unchecked e h]
  unfold State.homeRequest
  rw [h]
  dsimp only
  rw [if_neg hne]

/-- A poisoned granule is recorded with the context of the packet (R282, notes/assumptions/21.md). -/
theorem State.takeRequest_poisoned {e : Nat}
    (h : s.checkAccess p.job true (s.fromPrimary p) (p.engine == 6) k p.addr = some gcPOISON) :
    s.takeRequest c p k rsp e = (s.record evMemEccUncorr 2 4 (deviceOf p.addr)
      [deviceOf p.addr, deviceAddr p.addr, p.engine] (some p.ctx)).homeFail c (s.answerPkt p k.isAtom) rsp gcPOISON := by
  rw [State.takeRequest_unchecked e h]
  unfold State.homeRequest
  rw [h]
  dsimp only
  rw [if_pos rfl]

end

/-! ### A response at its requester -/

section
variable {s : State} {lane c type : Nat} {p : Pkt} {r : Nat × OutReq}

/-- The requests that wait are those from before the packet came. -/
theorem reqOfTag_received (n : Nat) : (received s lane c type p).reqOfTag n = s.reqOfTag n := rfl

/-- The state in which the response of request `n` reaches it: a mirror write's data is kept no longer. -/
def State.mirrorAnswered (s : State) (n : Nat) : State := { s with ms.mirWait := s.ms.mirWait.filter fun t => t.1 != n }

theorem takeRSP_received_late (h : s.reqOfTag p.rtag = none) :
    (received s lane c type p).takeRSP p = (received s lane c type p).bump F.LNK_CNT_LATE.COUNT := by
  unfold State.takeRSP
  rw [reqOfTag_received, h]

theorem takeRSP_received_found (h : s.reqOfTag p.rtag = some r) :
    (received s lane c type p).takeRSP p = if p.status = 0 then
        (((received s lane c type p).mirrorAnswered r.1).answerReq r.1 ((kfind s.ms.mirWait r.1).getD p.payload)).resyncPct
      else ((received s lane c type p).mirrorAnswered r.1).failReq r.1 p.status := by
  unfold State.takeRSP
  rw [reqOfTag_received, h]
  rfl

theorem takeRSP_received_ok (h : s.reqOfTag p.rtag = some r) (hs : p.status = 0) :
    (received s lane c type p).takeRSP p =
      (((received s lane c type p).mirrorAnswered r.1).answerReq r.1 ((kfind s.ms.mirWait r.1).getD p.payload)).resyncPct :=
  (takeRSP_received_found h).trans (if_pos hs)

theorem takeRSP_received_fails (h : s.reqOfTag p.rtag = some r) (hs : p.status ≠ 0) :
    (received s lane c type p).takeRSP p = ((received s lane c type p).mirrorAnswered r.1).failReq r.1 p.status :=
  (takeRSP_received_found h).trans (if_neg hs)

end

/-! ### From the lane to the consumer -/

/-- A packet whose turn it is goes to the consumer of its type, and a FLOW block answers it (R450, R453). -/
theorem State.receive_takePacket {s t : State} {lane c type note : Nat} {p : Pkt} (h : Receivable s lane c type p)
    (ht : State.takePacket c ⟨type, p, note⟩ (received s lane c type p) = t) :
    s.receive lane type p note State.takePacket = t.sendFlow lane c none := by
  rw [State.receive_ok h, ht]

theorem State.receive_noCircuit {s : State} {lane : Nat} (h : s.laneCirc lane = none) (type note : Nat) (p : Pkt)
    (consume : Nat → TxPkt → State → State) : s.receive lane type p note consume = s := by
  unfold State.receive
  rw [h]

section
variable {s t : State} {lane c : Nat} {pkt : Pkt} {ecc : EccFinding}

theorem exec_wr_received (h : Receivable s lane c ptWR pkt)
    (ht : (received s lane c ptWR pkt).takeRequest c pkt (.write pkt.payload) ptCPL (eccCode ecc) = t) :
    exec (.wr lane pkt ecc) s = .next (t.sendFlow lane c none) :=
  congrArg Host.Outcome.next (State.receive_takePacket h ht)

theorem exec_rd_received (h : Receivable s lane c ptRD pkt)
    (ht : (received s lane c ptRD pkt).takeRequest c pkt (.read pkt.len) ptRDRSP (eccCode ecc) = t) :
    exec (.rd lane pkt ecc) s = .next (t.sendFlow lane c none) :=
  congrArg Host.Outcome.next (State.receive_takePacket h ht)

theorem exec_atom_received (h : Receivable s lane c ptATOM pkt)
    (ht : (received s lane c ptATOM pkt).takeRequest c pkt (.atom (atomOfCode pkt.aop) (BitVec.ofNat 64 (leAt pkt.payload 0 8))
      (BitVec.ofNat 64 (leAt pkt.payload 8 8))) ptATOMRSP (eccCode ecc) = t) :
    exec (.atom lane pkt ecc) s = .next (t.sendFlow lane c none) :=
  congrArg Host.Outcome.next (State.receive_takePacket h ht)

theorem exec_rdRsp_received (h : Receivable s lane c ptRDRSP pkt) (ht : (received s lane c ptRDRSP pkt).takeRSP pkt = t) :
    exec (.rdRsp lane pkt) s = .next (t.sendFlow lane c none) :=
  congrArg Host.Outcome.next (State.receive_takePacket h ht)

theorem exec_atomRsp_received (h : Receivable s lane c ptATOMRSP pkt)
    (ht : (received s lane c ptATOMRSP pkt).takeRSP pkt = t) :
    exec (.atomRsp lane pkt) s = .next (t.sendFlow lane c none) :=
  congrArg Host.Outcome.next (State.receive_takePacket h ht)

theorem exec_cpl_received (h : Receivable s lane c ptCPL pkt) (ht : (received s lane c ptCPL pkt).takeRSP pkt = t) :
    exec (.cpl lane pkt) s = .next (t.sendFlow lane c none) :=
  congrArg Host.Outcome.next (State.receive_takePacket h ht)

theorem exec_pmsgRelay_received (h : Receivable s lane c ptPMSG pkt) (ht : (received s lane c ptPMSG pkt).takePMSG pkt = t) :
    exec (.pmsgRelay lane pkt) s = .next (t.sendFlow lane c none) :=
  congrArg Host.Outcome.next (State.receive_takePacket h ht)

end

/-- Settles O38: a packet in turn reaches the consumer of its type (`State.receive_takePacket`), and each clause is the branch
that this consumer takes. Who the primary is, the recorded context and the cause of a lost word are the model's reading
(notes/assumptions/112.md, 21.md, 62.md). -/
theorem receiveRows : Obligations.ReceiveRows := by
  refine ⟨?wrDone, ?wrWaits, ?wrRefused, ?wrLost, ?wrEcc, ?rdDone, ?rdWaits, ?rdRefused, ?rdLost, ?rdEcc, ?rdPoison,
    ?atomDone, ?atomWaits, ?atomRefused, ?atomLost, ?atomEcc, ?coll, ?rdRspLate, ?rdRspOk, ?rdRspFails, ?atomRspLate,
    ?atomRspOk, ?atomRspFails, ?cplLate, ?cplOk, ?cplFails, ?void, ?relayed, ?cameBack, ?judged, ?noCircuit⟩
  case wrDone =>
    rintro s _ u lane c pkt _ _ bs h rfl rfl rfl hc ha
    exact exec_wr_received h (State.takeRequest_performed hc ha)
  case wrWaits =>
    rintro s _ u lane c t pkt _ _ h rfl rfl rfl hc ha
    exact exec_wr_received h (State.takeRequest_waits hc ha)
  case wrRefused =>
    rintro s _ lane c pkt ecc _ _ cause h rfl rfl rfl hc hne
    exact exec_wr_received h (State.takeRequest_refused hc hne)
  case wrLost =>
    rintro s _ lane c pkt ecc _ _ kind h rfl rfl rfl hc hk he
    exact exec_wr_received h (State.takeRequest_lost hc hk he)
  case wrEcc =>
    rintro s _ v u lane c pkt ecc _ _ bs h rfl rfl rfl hc hk hv hcv ha
    exact exec_wr_received h (State.takeRequest_afterEcc hc hk hv hcv ha)
  case rdDone =>
    rintro s _ u lane c pkt _ _ bs h rfl rfl rfl hc ha
    exact exec_rd_received h (State.takeRequest_performed hc ha)
  case rdWaits =>
    rintro s _ u lane c t pkt _ _ h rfl rfl rfl hc ha
    exact exec_rd_received h (State.takeRequest_waits hc ha)
  case rdRefused =>
    rintro s _ lane c pkt ecc _ _ cause h rfl rfl rfl hc hne
    exact exec_rd_received h (State.takeRequest_refused hc hne)
  case rdLost =>
    rintro s _ lane c pkt ecc _ _ kind h rfl rfl rfl hc hk he
    exact exec_rd_received h (State.takeRequest_lost hc hk he)
  case rdEcc =>
    rintro s _ v u lane c pkt ecc _ _ bs h rfl rfl rfl hc hk hv hcv ha
    exact exec_rd_received h (State.takeRequest_afterEcc hc hk hv hcv ha)
  case rdPoison =>
    rintro s _ lane c pkt ecc _ _ h rfl rfl rfl hc
    exact exec_rd_received h (State.takeRequest_poisoned hc)
  case atomDone =>
    rintro s _ u lane c pkt _ _ bs h rfl rfl rfl hc ha
    exact exec_atom_received h (State.takeRequest_performed hc ha)
  case atomWaits =>
    rintro s _ u lane c t pkt _ _ h rfl rfl rfl hc ha
    exact exec_atom_received h (State.takeRequest_waits hc ha)
  case atomRefused =>
    rintro s _ lane c pkt ecc _ _ cause h rfl rfl rfl hc hne
    exact exec_atom_received h (State.takeRequest_refused hc hne)
  case atomLost =>
    rintro s _ lane c pkt ecc _ _ kind h rfl rfl rfl hc hk he
    exact exec_atom_received h (State.takeRequest_lost hc hk he)
  case atomEcc =>
    rintro s _ v u lane c pkt ecc _ _ bs h rfl rfl rfl hc hk hv hcv ha
    exact exec_atom_received h (State.takeRequest_afterEcc hc hk hv hcv ha)
  case coll => exact fun s lane c residue residue2 pkt h => congrArg Host.Outcome.next (State.receive_takePacket h rfl)
  case rdRspLate => exact fun s lane c pkt h hr => exec_rdRsp_received h (takeRSP_received_late hr)
  case rdRspOk => exact fun s lane c pkt r h hr hs => exec_rdRsp_received h (takeRSP_received_ok hr hs)
  case rdRspFails => exact fun s lane c pkt r h hr hs => exec_rdRsp_received h (takeRSP_received_fails hr hs)
  case atomRspLate => exact fun s lane c pkt h hr => exec_atomRsp_received h (takeRSP_received_late hr)
  case atomRspOk => exact fun s lane c pkt r h hr hs => exec_atomRsp_received h (takeRSP_received_ok hr hs)
  case atomRspFails => exact fun s lane c pkt r h hr hs => exec_atomRsp_received h (takeRSP_received_fails hr hs)
  case cplLate => exact fun s lane c pkt h hr => exec_cpl_received h (takeRSP_received_late hr)
  case cplOk => exact fun s lane c pkt r h hr hs => exec_cpl_received h (takeRSP_received_ok hr hs)
  case cplFails => exact fun s lane c pkt r h hr hs => exec_cpl_received h (takeRSP_received_fails hr hs)
  case void => exact fun s lane c pkt h => congrArg Host.Outcome.next (State.receive_takePacket h rfl)
  case relayed =>
    intro s lane c pkt h hd hs
    refine exec_pmsgRelay_received h ((if_neg hd).trans ?_)
    exact congrArg (State.relayPmsg · pkt) (if_neg hs)
  case cameBack =>
    intro s lane c pkt h hd hs
    refine exec_pmsgRelay_received h ((if_neg hd).trans ?_)
    exact congrArg (State.relayPmsg · pkt) (if_pos hs)
  case judged => exact fun s lane c pkt h hd => exec_pmsgRelay_received h (if_pos hd)
  case noCircuit =>
    intro s lane pkt h
    have hstay (type note : Nat) :
        Host.Outcome.next (s.receive lane type pkt note State.takePacket) = (Host.Outcome.next s : Result) :=
      congrArg Host.Outcome.next (State.receive_noCircuit h type note pkt _)
    exact ⟨hstay _ _, hstay _ _, hstay _ _, hstay _ _, hstay _ _, fun ecc => ⟨hstay _ _, hstay _ _, hstay _ _⟩,
      fun residue residue2 => hstay _ _⟩

end Sys2Proof.Machine
end

section
/-! PROOFS. The path engine's commands: lists of requests, the time limits of entries, re-cabling, plane paths, spans and the
binding of circuits. -/

namespace Sys2Proof.Machine
open Sys2Proof Safety

/-! ### Lists of requests -/

/-- Leaving `DORMANT` keeps what a command needs to go on. -/
theorem State.working_leaveDormant {s : State} {r : CmdRef} {op : Nat} {c : Cmd} (h : Working s r op c) :
    Working s.leaveDormant r op c := by
  obtain ⟨hc, hop, hready, hctx⟩ := h
  refine ⟨?_, hop, ?_, (s.leaveDormant_ctxState _).trans hctx⟩
  · unfold State.cmdAt State.queue at hc ⊢
    rwa [s.leaveDormant_eng]
  · unfold State.cmdReady at hready ⊢
    rwa [s.leaveDormant_ms]

theorem State.isLocalAddr_leaveDormant (s : State) (a : Nat) : s.leaveDormant.isLocalAddr a = s.isLocalAddr a := by
  unfold State.isLocalAddr State.node
  rw [s.rd_leaveDormant F.ID_NODE.NODE_ID 0 (by decide)]

section
variable {s u : State} {slot queue count op : Nat} {c : Cmd} (h : Working s ⟨slot, queue, count⟩ op c)
include h

/-- A legal list is opened once its bytes are there (R503). -/
theorem State.pathCmd_legal (ha : leAt c.bytes 8 8 % 32 = 0) (hl : s.isLocalAddr (leAt c.bytes 8 8) = true)
    (hlo : 1 ≤ leAt c.bytes 16 2) (hhi : leAt c.bytes 16 2 ≤ 512)
    (hend : bitsOf (leAt c.bytes 8 8) 41 0 + 32 * leAt c.bytes 16 2 ≤ generalUse) {o : Option (List (BitVec 8))}
    (hf : s.leaveDormant.fetchBytes ⟨slot, queue, count⟩ (leAt c.bytes 8 8) (32 * leAt c.bytes 16 2) 0 = (u, o)) :
    s.pathCmd slot queue count op = o.elim u fun bs =>
      (u.setWork ⟨slot, queue, count⟩ (.path (leAt c.bytes 16 2))).openList
        ⟨.cmd ⟨slot, queue, count⟩, op, leAt c.bytes 24 6, bitsOf (leAt c.bytes 8 8) 41 0, readRequests bs, false⟩ := by
  refine (State.workOn_ok _ _ _ _ _ c (State.working_leaveDormant h) _).trans ((if_neg ?_).trans ?_)
  · rw [s.isLocalAddr_leaveDormant, hl]
    simp only [Bool.not_true, Bool.false_eq_true, false_or]
    omega
  · rw [hf]
    cases o <;> rfl

theorem State.pathCmd_illegal (hbad : leAt c.bytes 8 8 % 32 ≠ 0 ∨ s.isLocalAddr (leAt c.bytes 8 8) = false ∨
      leAt c.bytes 16 2 = 0 ∨ 512 < leAt c.bytes 16 2 ∨ generalUse < bitsOf (leAt c.bytes 8 8) 41 0 + 32 * leAt c.bytes 16 2) :
    s.pathCmd slot queue count op =
      s.leaveDormant.operandError ⟨slot, queue, count⟩ c qePATH_CMD (leAt c.bytes 8 8) := by
  refine (State.workOn_ok _ _ _ _ _ c (State.working_leaveDormant h) _).trans (if_pos ?_)
  rwa [s.isLocalAddr_leaveDormant, Bool.not_eq_true']

end

/-! ### Time limits -/

section
variable {s : State} {idx : Nat}

/-- What `HOP_TO` ends at an originator that waits for answers (R507). -/
theorem exec_hopTimeout_orig (ht : s.ctype idx = ptyORIG) (hw : (s.ent idx).wait ≠ [] ∨ s.cstate idx = psRELEASING) :
    exec (.hopTimeout idx) s = .next (State.kick (
      if s.cstate idx = psRELEASING then s.freeEntry idx
      else if (s.ent idx).phase = 1 then
        (if (s.ent idx).wait.all fun x => x.2 then (s.dropBackup idx).judge idx else s.routeFail idx prHOP_SILENT)
      else if (s.ent idx).phase = 3 then (s.dropBackup idx).judgeSeek idx
      else if (s.ent idx).phase = 4 ∨ (s.ent idx).phase = 5 ∨ s.cstate idx = psMOVING then s.moveFail idx
      else s)) := by
  refine congrArg (fun t : State => Host.Outcome.next t.kick) ((if_neg ?_).trans (if_neg ?_))
  · rw [ht]
    decide
  · rintro (h | ⟨hnone, hr⟩)
    · exact h ht
    · exact hw.elim (· hnone) hr

/-- While an `ORIG` entry reserves, the answers to its `RESV` are what it waits for. -/
theorem exec_hopTimeout_reserving (ht : s.ctype idx = ptyORIG) (hs : s.cstate idx = psRESERVING) (hp : (s.ent idx).phase = 1)
    (hw : (s.ent idx).wait ≠ []) :
    exec (.hopTimeout idx) s = .next (State.kick (
      if (s.ent idx).wait.all fun x => x.2 then (s.dropBackup idx).judge idx else s.routeFail idx prHOP_SILENT)) := by
  rw [exec_hopTimeout_orig ht (.inl hw), if_neg (by rw [hs]; decide), if_pos hp]

/-- A move whose answers stay out has failed (R514). -/
theorem exec_hopTimeout_moving (ht : s.ctype idx = ptyORIG) (hs : s.cstate idx = psLIT ∨ s.cstate idx = psDOWN)
    (hp : (s.ent idx).phase = 4 ∨ (s.ent idx).phase = 5) (hw : (s.ent idx).wait ≠ []) :
    exec (.hopTimeout idx) s = .next (s.moveFail idx).kick := by
  have hr : s.cstate idx ≠ psRELEASING := by rcases hs with hs | hs <;> rw [hs] <;> decide
  rw [exec_hopTimeout_orig ht (.inl hw), if_neg hr, if_neg (by omega), if_neg (by omega),
    if_pos (hp.imp_right .inl)]

theorem exec_hopTimeout_resp {r : Nat × Nat} (ht : s.ctype idx = ptyRESP) (hr : (s.ent idx).tear = [r]) :
    exec (.hopTimeout idx) s =
      .next ((s.endPath r prHOP_SILENT none).setEnt idx { s.ent idx with tear := [], drop := false }).kick := by
  refine congrArg (fun t : State => Host.Outcome.next t.kick) ((if_pos ht).trans ?_)
  rw [hr]
  rfl

/-- A set-up that is still lighting when `SETUP_TO` ends it fails as not verified (notes/assumptions/42.md). -/
theorem exec_setupTimeout_lighting {ref : Nat × Nat} (ht : s.ctype idx = ptyORIG) (hs : s.cstate idx = psLIGHTING)
    (hj : (s.ent idx).job = some ref) :
    exec (.setupTimeout idx) s = .next ((((s.note evSetupFail 0 0 0 [s.circFar idx, prVERIFY, (s.ent idx).tried]
      (s.pathCtx (some ref))).endPathOf (some ref) prVERIFY none).setEnt idx
      { s.ent idx with job := none }).releaseCirc idx).kick := by
  refine congrArg Host.Outcome.next ((if_pos ⟨ht, .inr (.inr hs), by rw [hj]; rfl⟩).trans ?_)
  dsimp only
  rw [if_pos (.inl hs), hj]

/-- A new backup is sought for a lit circuit that has none and does nothing else (R514); where no route is found or the backup is
only planned, nothing is reserved for it. -/
theorem exec_backupSeek_planned (hn : s.blk.noRef = false) (ht : s.ctype idx = ptyORIG) (hs : s.cstate idx = psLIT)
    (hm : (s.ent idx).mode ≠ 0) (hb : (s.ent idx).bk = []) (hp : (s.ent idx).phase = 0)
    (hfree : s.tick.backupFor idx (s.ent idx).route = [] ∨ (s.ent idx).mode = 2) :
    exec (.backupSeek idx) s = .next
      ((s.tick.setEnt idx { s.ent idx with bk := s.tick.backupFor idx (s.ent idx).route }).reportBackup idx) :=
  congrArg Host.Outcome.next ((if_neg (by simp [hn, ht, hs, hm, hb, hp])).trans (if_pos hfree))

/-- The wake round reaches the one module that it still waited for, or the route fails (R511). -/
theorem exec_wakeRoundExpires_last {n : Nat} (ht : s.ctype idx = ptyORIG) (hs : s.cstate idx = psRESERVING)
    (hw : (s.ent idx).wake = [n]) :
    exec (.wakeRoundExpires idx) s = .next (State.kick (
      if (s.nextHops n).isEmpty then s.routeFail idx prHOP_SILENT
      else (s.setEnt idx { s.ent idx with wake := [] }).sendResv idx)) := by
  refine congrArg Host.Outcome.next ((if_neg (by simp [ht, hs])).trans ?_)
  rw [hw]
  rfl

end

/-! ### Plane paths -/

section
variable {s : State} {plane inp outp : Nat} {p : PPath}
  (h : (s.path.planes.find? fun x => x.plane == plane && x.inp == inp && x.outp == outp && x.lit) = some p)
include h

/-- A plane path found as it should be is marked, and its entry goes on (R509). -/
theorem exec_planePathVerified_ok :
    exec (.planePathVerified plane inp outp true) s = .next (State.kick (
      if s.ctype p.own = ptyORIG then
        State.checkLit { s with path.planes := s.path.planes.map fun x => if x = p then { x with ok := true } else x } p.own
      else
        State.hopLit { s with path.planes := s.path.planes.map fun x => if x = p then { x with ok := true } else x } p.own)) := by
  refine congrArg Host.Outcome.next ?_
  rw [h]
  rfl

/-- One that is not fails the route that is being lit. -/
theorem exec_planePathVerified_fails (ht : (s.verifyFailed plane inp outp).ctype p.own = ptyORIG)
    (hp : ((s.verifyFailed plane inp outp).ent p.own).phase = 2)
    (hs : (s.verifyFailed plane inp outp).cstate p.own = psLIGHTING) :
    exec (.planePathVerified plane inp outp false) s =
      .next ((s.verifyFailed plane inp outp).routeFail p.own prVERIFY).kick := by
  refine congrArg Host.Outcome.next ?_
  rw [h]
  exact congrArg State.kick ((if_neg Bool.false_ne_true).trans ((if_pos ht).trans (if_pos ⟨hp, hs⟩)))

end

/-! ### Re-cabling -/

section
variable {s : State} {step j : Nat} {x : PathJob}
  (h : (s.path.jobs.filter fun e => e.2.op == 0x52 && e.2.step == step && !e.2.commit) = [(j, x)])
include h

/-- A re-cable whose only entry is not prepared at its deadline, and holds no circuit, ends `RECABLE_LATE` (R522). -/
theorem exec_recableDeadline_late {q : PathReq} (hq : x.entries = [q]) (hprep : s.prepared x q = false)
    (hc : x.circsOf false = []) :
    exec (.recableDeadline step) s = .next (s.endPath (j, 0) prRECABLE_LATE none).kick := by
  refine congrArg Host.Outcome.next (congrArg State.kick ?_)
  rw [h]
  refine (if_neg (by simp [hq, hprep])).trans ?_
  rw [hc, hq]
  rfl

/-- A prepared re-cable that sets up one circuit is committed at every module of its route (R522). -/
theorem exec_recableDeadline_commits {k i : Nat} (hprep : (x.entries.all fun q => s.prepared x q) = true)
    (hset : x.circsOf false = [(k, i)]) (htear : x.circsOf true = []) (hm : (s.ent i).mode ≠ 1) :
    exec (.recableDeadline step) s = .next (State.kick (State.sendRoute
      { s with path.jobs := kset s.path.jobs j { x with commit := true } } i pmCOMMIT (s.ent i).offered (s.ent i).route false)) := by
  refine congrArg Host.Outcome.next (congrArg State.kick ?_)
  rw [h]
  refine (if_pos hprep).trans ?_
  rw [hset, htear]
  exact if_neg hm

end

/-- At the tick the one entry that is due acts (R523). -/
theorem exec_recableTick_one {s : State} {step i : Nat}
    (h : ((List.range 512).filter fun i => decide (2 ≤ s.ctype i) && (s.ent i).step == step &&
      ((s.ent i).staged || (s.ent i).commit)) = [i]) (hd : (s.ent i).drop = false)
    (hj : ∀ e ∈ (s.tickHop i).path.jobs, (e.2.op == 0x52 && e.2.step == step && e.2.commit) = false) :
    exec (.recableTick step) s = .next (s.tickHop i).kick := by
  have hdrops : ([i].filter fun i => (s.ent i).drop) = [] := by simp [hd]
  have hkept : ([i].filter fun i => !([] : List Nat).contains i) = [i] := rfl
  have hjobs : ((s.tickHop i).path.jobs.filter fun e => e.2.op == 0x52 && e.2.step == step && e.2.commit) = [] :=
    List.filter_eq_nil_iff.mpr fun e he => ne_true_of_eq_false (hj e he)
  refine congrArg Host.Outcome.next (congrArg State.kick ?_)
  rw [h, hdrops, List.foldl_nil, hkept, List.foldl_cons, List.foldl_nil, hjobs, List.foldl_nil]

/-! ### Spans and bindings -/

/-- A span as measured, and whether it is lossy (R491, R492). -/
def State.spanMeasured (s : State) (port loss lossy : Nat) : State :=
  ((s.wr F.LAT_PORT.SPAN_LOSS (min loss 255) port).wr F.LAT_PORT.GAIN (min 200 (max 60 (60 + loss))) port).wr F.LAT_PORT.LOSSY lossy port

theorem exec_spanLossMeasure_clear {s : State} {loss : Nat} (h : loss ≤ 140) (port : Nat) :
    exec (.spanLossMeasure port loss) s = .next (s.spanMeasured port loss 0) := by
  refine congrArg Host.Outcome.next ?_
  dsimp only
  rw [decide_eq_false (Nat.not_lt.mpr h)]
  rfl

theorem exec_spanLossMeasure_lossy {s : State} {port loss : Nat} (h : 140 < loss) (hw : s.flag F.LAT_PORT.LOSSY port = false) :
    exec (.spanLossMeasure port loss) s = .next ((s.spanMeasured port loss 1).note evPortLossy 1 7 port [port, loss]) := by
  refine congrArg Host.Outcome.next ?_
  dsimp only
  rw [decide_eq_true h, hw]
  rfl

/-- Requests go to the new binding once the circuit that it follows has nothing in flight (R551). -/
theorem exec_rebind_drained {s : State} {node c o : Nat} (hb : s.boundCirc node = some c) (ha : (s.circ c).after = some o)
    (hr : (s.circ o).replay = []) (ht : (s.circ o).txq = []) :
    exec (.rebind node) s = .next (s.setCirc c { s.circ c with after := none }) := by
  refine congrArg Host.Outcome.next ?_
  rw [hb]
  dsimp only
  rw [ha]
  exact if_pos (by rw [hr, ht]; rfl)

/-- Settles O42: a list is opened or refused by `pathCmd`, whatever its operation, and each other row takes the branch of its
conditions. The reason of a set-up that `SETUP_TO` ends, and the bytes that a failed entry reports, are the model's choice
(notes/assumptions/42.md). -/
theorem pathCommandRows : Obligations.PathCommandRows := by
  refine ⟨?setupOpens, ?setupWaits, ?setupBad, ?teardownOpens, ?teardownWaits, ?teardownBad, ?recableOpens, ?recableWaits,
    ?recableBad, ?queryOpens, ?queryWaits, ?queryBad, ?auditTimeout, ?heldTimeout, ?released, ?hopSilent, ?backupSilent,
    ?moveSilent, ?tearSilent, ?setupTimeout, ?downRetry, ?downLost, ?noBackup, ?backupPlanned, ?verifiedOrig, ?verifiedHop,
    ?notVerified, ?recableLate, ?recableCommits, ?recableTick, ?spanClear, ?spanLossy, ?rebind, ?wakeFails, ?wakeDone⟩
  case setupOpens | teardownOpens | recableOpens | queryOpens =>
    exact fun s u slot queue count c bs h ha hl hlo hhi hend hf =>
      congrArg Host.Outcome.next (State.pathCmd_legal h ha hl hlo hhi hend hf)
  case setupWaits | teardownWaits | recableWaits | queryWaits =>
    exact fun s u slot queue count c h ha hl hlo hhi hend hf =>
      congrArg Host.Outcome.next (State.pathCmd_legal h ha hl hlo hhi hend hf)
  case setupBad | teardownBad | recableBad | queryBad =>
    exact fun s slot queue count c h hbad => congrArg Host.Outcome.next (State.pathCmd_illegal h hbad)
  case auditTimeout => exact fun s idx h => congrArg Host.Outcome.next (if_pos h)
  case heldTimeout =>
    exact fun s idx ht hs hst => congrArg Host.Outcome.next (if_pos ⟨ht, hs, by rw [hst]; rfl⟩)
  case released =>
    intro s idx ht hs
    rw [exec_hopTimeout_orig ht (.inr hs), if_pos hs]
  case hopSilent =>
    intro s idx ht hs hp hall
    have hw : (s.ent idx).wait ≠ [] := fun hnil => by simp [hnil] at hall
    rw [exec_hopTimeout_reserving ht hs hp hw, if_neg (ne_true_of_eq_false hall)]
  case backupSilent =>
    intro s idx ht hs hp hw hall
    rw [exec_hopTimeout_reserving ht hs hp hw, if_pos hall]
  case moveSilent => exact fun s idx ht hs hp hw => exec_hopTimeout_moving ht hs hp hw
  case tearSilent => exact fun s idx r ht hr => exec_hopTimeout_resp ht hr
  case setupTimeout => exact fun s idx ref ht hs hj => exec_setupTimeout_lighting ht hs hj
  case downRetry =>
    exact fun s idx ht hs hp hn => congrArg Host.Outcome.next (if_pos ⟨ht, hs, hp, by rw [hn]; rfl⟩)
  case downLost => exact fun s idx ht hs hn => congrArg Host.Outcome.next (if_pos ⟨ht, hs, by rw [hn]; rfl⟩)
  case noBackup =>
    intro s idx hn ht hs hm hb hp hnone
    rw [exec_backupSeek_planned hn ht hs hm hb hp (.inl hnone), hnone]
  case backupPlanned =>
    exact fun s idx hn ht hs hm hb hp => exec_backupSeek_planned hn ht hs (by omega) hb hp (.inr hm)
  case verifiedOrig => exact fun s plane inp outp p h ht => by rw [exec_planePathVerified_ok h, if_pos ht]
  case verifiedHop => exact fun s plane inp outp p h ht => by rw [exec_planePathVerified_ok h, if_neg ht]
  case notVerified =>
    rintro s _ plane inp outp p h rfl ht hp hs
    exact exec_planePathVerified_fails h ht hp hs
  case recableLate => exact fun s step j x q h hq hprep hc => exec_recableDeadline_late h hq hprep hc
  case recableCommits =>
    exact fun s step j k i x h hprep hset htear hm => exec_recableDeadline_commits h hprep hset htear hm
  case recableTick => exact fun s step i h hd hj => exec_recableTick_one h hd hj
  case spanClear => exact fun s port loss h => exec_spanLossMeasure_clear h port
  case spanLossy => exact fun s port loss h hw => exec_spanLossMeasure_lossy h hw
  case rebind => exact fun s node c o hb ha hr ht => exec_rebind_drained hb ha hr ht
  case wakeFails =>
    intro s idx n ht hs hw hn
    rw [exec_wakeRoundExpires_last ht hs hw, if_pos hn]
  case wakeDone =>
    intro s idx n ht hs hw hn
    rw [exec_wakeRoundExpires_last ht hs hw, if_neg (ne_true_of_eq_false hn)]

end Sys2Proof.Machine
end

section
/-! PROOFS. Path messages: what a module that leaves `DORMANT` keeps, reservations, the messages of hops and responders, and those
that the originator takes. -/

namespace Sys2Proof.Machine
open Sys2Proof Safety

/-! ### The path core -/

/-- The outcome of `State.pathMsgIn`, written out, where the path core runs: the message acts, and the lists go on after it (R517). -/
theorem pathMsgIn_taken {s t u v : State} (hup : s.path.coreUp = true) (h : u = t) :
    (.next (if s.path.coreUp then u.kick else v) : Result) = .next t.kick :=
  congrArg Host.Outcome.next ((if_pos hup).trans (congrArg State.kick h))

/-! ### What leaving `DORMANT` keeps of the circuits -/

theorem State.flag_leaveDormant (s : State) {g : Fld} (h : F.ID_PWR_STATE.MOD_STATE.apart 0 g 0 = true) :
    s.leaveDormant.flag g = s.flag g := by
  unfold State.flag
  rw [s.rd_leaveDormant g 0 h]

theorem State.noRef_leaveDormant (s : State) : s.leaveDormant.blk.noRef = s.blk.noRef := by
  unfold State.leaveDormant
  split
  · rfl
  · split <;> rfl

theorem State.entOf_leaveDormant (s : State) (m : PathMsg) : s.leaveDormant.entOf m = s.entOf m := by
  unfold State.entOf State.ctype
  simp only [s.rd_leaveDormant_above F.LAT_CIRC_A.TYPE _ (by decide), s.rd_leaveDormant_above F.LAT_CIRC_A.NODE _ (by decide),
    s.rd_leaveDormant_above F.LAT_CIRC_A.ORIG_IDX _ (by decide)]

theorem State.freeIdx_leaveDormant (s : State) : s.leaveDormant.freeIdx = s.freeIdx := by
  unfold State.freeIdx State.ctype
  simp only [s.rd_leaveDormant_above F.LAT_CIRC_A.TYPE _ (by decide)]

/-! ### Reservations -/

/-- Entry `i` taken for a circuit that passes through this module (R499, Table 10-5). -/
def State.takeHop (s : State) (i : Nat) (m : PathMsg) : State :=
  let s := s |>.wr F.LAT_CIRC_A.TYPE (if m.backup then ptyBACKUP else ptyTHRU) i
    |>.wr F.LAT_CIRC_A.STATE psHELD i
    |>.wr F.LAT_CIRC_A.NODE m.origNode i
    |>.wr F.LAT_CIRC_A.ORIG_IDX m.origIdx i
    |>.wr F.LAT_CIRC_A.PORT_A m.portA i
    |>.wr F.LAT_CIRC_A.PORT_B m.portB i
    |>.wr F.LAT_CIRC_A.HOP m.hop i
    |>.wr F.LAT_CIRC_A.JOB_BOUND (b2n m.jobBound) i
    |>.wr F.LAT_CIRC_B.OWNER_JOB m.job i
  s.setEnt i PathEnt.init

/-- A module that has a node and does not evacuate judges the `RESV` itself. -/
theorem resv_guard {s : State} (hv : s.flag F.ID_NODE.NODE_VALID = true) (he : s.flag F.RST_STATUS.EVACUATED = false) :
    ¬ (!s.leaveDormant.tick.flag F.ID_NODE.NODE_VALID || s.leaveDormant.tick.flag F.RST_STATUS.EVACUATED) = true := by
  have hv' : s.leaveDormant.tick.flag F.ID_NODE.NODE_VALID = true := (s.flag_leaveDormant (by decide)).trans hv
  have he' : s.leaveDormant.tick.flag F.RST_STATUS.EVACUATED = false := (s.flag_leaveDormant (by decide)).trans he
  rw [hv', he']
  decide

section
variable {s : State} {m : PathMsg} (hup : s.path.coreUp = true) (src : Nat)
include hup

theorem exec_resv_evacuated (he : s.flag F.RST_STATUS.EVACUATED = true) :
    exec (.resv src m) s = .next (s.leaveDormant.tick.resvReply m 0 prFAR_REFUSED 0).kick := by
  have he' : s.leaveDormant.tick.flag F.RST_STATUS.EVACUATED = true := (s.flag_leaveDormant (by decide)).trans he
  exact pathMsgIn_taken hup (if_pos (by rw [he', Bool.or_true]))

section
variable (hv : s.flag F.ID_NODE.NODE_VALID = true) (he : s.flag F.RST_STATUS.EVACUATED = false)
include hv he

theorem exec_resv_noReference (hn : s.blk.noRef = true) :
    exec (.resv src m) s = .next (s.leaveDormant.tick.resvReply m 0 prNO_REFERENCE 0).kick :=
  pathMsgIn_taken hup ((if_neg (resv_guard hv he)).trans (if_pos (s.noRef_leaveDormant.trans hn)))

/-- A hop that grants planes of a circuit it does not know takes its lowest free entry (R499). -/
theorem exec_resv_newHop {i : Nat} (hn : s.blk.noRef = false) (hhop : m.hop ≠ 4) (hnew : s.entOf m = none)
    (hfree : s.freeIdx = some i) (hg : s.leaveDormant.tick.grantable m ≠ 0) :
    exec (.resv src m) s = .next ((s.leaveDormant.tick.takeHop i m).grant i m (s.leaveDormant.tick.grantable m)).kick := by
  have hn' : s.leaveDormant.tick.blk.noRef ≠ true := ne_true_of_eq_false (s.noRef_leaveDormant.trans hn)
  have hnew' : s.leaveDormant.tick.entOf m = none := (s.entOf_leaveDormant m).trans hnew
  have hfree' : s.leaveDormant.tick.freeIdx = some i := s.freeIdx_leaveDormant.trans hfree
  refine pathMsgIn_taken hup
    ((if_neg (resv_guard hv he)).trans ((if_neg hn').trans ((if_neg fun h => hhop h.1).trans ?_)))
  rw [hnew']
  dsimp only
  rw [hfree']
  dsimp only
  rw [if_neg fun h => hhop h.1, if_neg hg, if_neg hhop, if_neg hhop, beq_false_of_ne hhop]
  rfl

end

end

/-! ### Messages to the originator -/

/-- The entry with an answer to its `RESV` noted. -/
def PathEnt.answered (e : PathEnt) (src : Nat) (m : PathMsg) : PathEnt :=
  { e with
    wait := e.wait.erase (src, m.backup)
    acks := e.acks ++ [⟨src, m.backup, m.planes, m.spanA, m.spanB⟩]
    reason := if m.planes = 0 ∧ !m.backup then m.reason else e.reason
    planed := if m.hop = 4 ∧ m.planes ≠ 0 then m.index else e.planed }

section
variable {s : State} {src i : Nat} {m : PathMsg} (hup : s.path.coreUp = true) (ho : s.origOf m = some i)
include hup ho

/-- An answer that the originator waits for is noted, and the answers are judged once none is missing (R507, R508, R514). -/
theorem exec_resvAck_awaited (hw : (s.ent i).wait.contains (src, m.backup) = true)
    (hp : (s.ent i).phase = 1 ∨ (s.ent i).phase = 3 ∨ (s.ent i).phase = 4) :
    exec (.resvAck src m) s = .next (State.kick (
      if (s.ent i).wait.erase (src, m.backup) ≠ [] then s.setEnt i ((s.ent i).answered src m)
      else if (s.ent i).phase = 3 then (s.setEnt i ((s.ent i).answered src m)).judgeSeek i
      else if (s.ent i).phase = 4 then (s.setEnt i ((s.ent i).answered src m)).judgeMove i
      else if ((s.ent i).answered src m).acks.any fun a =>
          !a.bk && a.planes == 0 && ((s.ent i).answered src m).reason != prNO_PLANES then
        (s.setEnt i ((s.ent i).answered src m)).routeFail i ((s.ent i).answered src m).reason
      else (s.setEnt i ((s.ent i).answered src m)).judge i)) := by
  refine pathMsgIn_taken hup ?_
  dsimp only
  rw [ho]
  exact if_neg (by simp [List.contains_iff_mem.mp hw, hp])

/-- While a route is being lit, a module's `LIT` must name every plane that was chosen (R509). -/
theorem exec_lit_awaited (hp : (s.ent i).phase = 2) (hw : (s.ent i).wait.contains (src, false) = true) :
    exec (.lit src m) s = .next (State.kick (
      if Nat.land m.planes (s.ent i).offered ≠ (s.ent i).offered then
        (if s.cstate i = psLIGHTING then s.routeFail i prVERIFY else s.moveFail i)
      else (s.setEnt i { s.ent i with wait := (s.ent i).wait.erase (src, false) }).checkLit i)) := by
  have hbk : ((s.ent i).phase == 5) = false := by rw [hp]; rfl
  refine pathMsgIn_taken hup ?_
  dsimp only
  rw [ho]
  dsimp only
  rw [hbk]
  exact if_neg (by simp [List.contains_iff_mem.mp hw, hp])

/-- The entry is freed once every module has answered its `RELEASE` (R512). -/
theorem exec_releaseAck_releasing (hs : s.cstate i = psRELEASING) :
    exec (.releaseAck src m) s = .next (State.kick (
      if ((s.ent i).wait.filter fun x => x.1 != src).isEmpty then
        (s.setEnt i { s.ent i with wait := (s.ent i).wait.filter fun x => x.1 != src }).freeEntry i
      else s.setEnt i { s.ent i with wait := (s.ent i).wait.filter fun x => x.1 != src })) := by
  refine pathMsgIn_taken hup ?_
  dsimp only
  rw [ho]
  exact if_neg (not_not_intro hs)

end

/-! ### Messages to hops and responders -/

section
variable {s : State} {src i : Nat} {m : PathMsg} (hup : s.path.coreUp = true)
include hup

/-- Without a reference no circuit is lit, moved or released (R111; notes/assumptions/111.md). -/
theorem exec_circuitMsgs_noReference (hn : s.blk.noRef = true) :
    exec (.light src m) s = .next s.kick ∧ exec (.move src m) s = .next s.kick ∧ exec (.release src m) s = .next s.kick := by
  refine ⟨pathMsgIn_taken hup ?_, pathMsgIn_taken hup ?_, pathMsgIn_taken hup (if_pos hn)⟩
  all_goals
    dsimp only
    split
    · exact if_pos hn
    · rfl

section
variable (hent : s.entOf m = some i)
include hent

theorem exec_light_known (hn : s.blk.noRef = false) (hs : s.cstate i = psHELD ∨ s.cstate i = psLIT ∨ s.cstate i = psLIGHTING) :
    exec (.light src m) s = .next (s.hopLight i m).kick := by
  refine pathMsgIn_taken hup ?_
  dsimp only
  rw [hent]
  exact (if_neg (ne_true_of_eq_false hn)).trans (if_pos hs)

theorem exec_move_known (hn : s.blk.noRef = false) :
    exec (.move src m) s = .next (s.hopLight i { m with backup := true }).kick := by
  refine pathMsgIn_taken hup ?_
  dsimp only
  rw [hent]
  exact if_neg (ne_true_of_eq_false hn)

theorem exec_release_primary (hn : s.blk.noRef = false) (hb : m.backup = false) :
    exec (.release src m) s = .next ((s.hopFree i).sendPath src pmRELEASE_ACK { m with index := 0 }).kick := by
  refine pathMsgIn_taken hup ((if_neg (ne_true_of_eq_false hn)).trans ?_)
  rw [hent]
  exact congrArg (State.sendPath · src pmRELEASE_ACK { m with index := 0 }) (if_neg fun h => ne_true_of_eq_false hb h.1)

/-- What is staged is committed for its step; a lit entry is noted to go at it (R522, R523). -/
theorem exec_commit_known :
    exec (.commit src m) s = .next (State.kick (
      if s.cstate i = psHELD ∧ (s.ent i).staged then
        ((s.dropPaths i fun x => x.bk == m.backup && !bitOf m.planes x.plane).setEnt i
          { s.ent i with commit := true, step := m.step }).syncPlanes i
      else s.setEnt i { s.ent i with commit := true, drop := true, step := m.step })) := by
  refine pathMsgIn_taken hup ?_
  dsimp only
  rw [hent]
  rfl

theorem exec_pathAbort_staged (hs : s.cstate i = psHELD) (hst : (s.ent i).staged = true) :
    exec (.pathAbort src m) s = .next (s.hopFree i).kick := by
  refine pathMsgIn_taken hup ?_
  dsimp only
  rw [hent]
  exact if_pos ⟨hs, hst⟩

end

end

/-- Settles O43: a path core that runs takes the message (`pathMsgIn_taken`), and each clause is the branch that the entry it
names takes. What a module without a reference does with its circuits is the model's reading (notes/assumptions/111.md). -/
theorem pathMessageRows : Obligations.PathMessageRows := by
  refine ⟨?resvEvacuated, ?resvNoReference, ?resvNewHop, ?ackOneOfMore, ?ackOfSeek, ?light, ?litAll, ?litShort, ?release,
    ?releaseAckLast, ?releaseAckMore, ?move, ?commitStaged, ?commitLit, ?abort, ?auditHeld, ?auditUnknown, ?auditReply,
    ?evacuateUnknown, ?evacuateRoute, ?evacAck, ?teardownReq, ?wake, ?wakeAck, ?coreDown, ?noReference⟩
  case resvEvacuated => exact fun s src m hup he => exec_resv_evacuated hup src he
  case resvNoReference => exact fun s src m hup hv he hn => exec_resv_noReference hup src hv he hn
  case resvNewHop =>
    exact fun s src m i hup hv he hn hhop hnew hfree hg => exec_resv_newHop hup src hv he hn hhop hnew hfree hg
  case ackOneOfMore =>
    intro s src m i hup ho hw hp hmore
    rw [exec_resvAck_awaited hup ho hw (.inl hp), if_pos hmore]
    rfl
  case ackOfSeek =>
    intro s src m i hup ho hw hp hlast
    rw [exec_resvAck_awaited hup ho hw (.inr (.inl hp)), if_neg (not_not_intro hlast), if_pos hp]
    rfl
  case light => exact fun s src m i hup hn hent hs => exec_light_known hup hent hn hs
  case litAll =>
    intro s src m i hup ho hp hw hall
    rw [exec_lit_awaited hup ho hp hw, if_neg (not_not_intro hall)]
  case litShort =>
    intro s src m i hup ho hp hw hshort hs
    rw [exec_lit_awaited hup ho hp hw, if_pos hshort, if_pos hs]
  case release => exact fun s src m i hup hn hent hb => exec_release_primary hup hent hn hb
  case releaseAckLast =>
    intro s src m i hup ho hs hlast
    rw [exec_releaseAck_releasing hup ho hs, hlast, if_pos List.isEmpty_nil]
  case releaseAckMore =>
    intro s src m i hup ho hs hmore
    rw [exec_releaseAck_releasing hup ho hs, if_neg (mt List.isEmpty_iff.mp hmore)]
  case move => exact fun s src m i hup hn hent => exec_move_known hup hent hn
  case commitStaged =>
    intro s src m i hup hent hs hst
    rw [exec_commit_known hup hent, if_pos ⟨hs, hst⟩]
  case commitLit =>
    intro s src m i hup hent hs
    rw [exec_commit_known hup hent, if_neg fun h => hs h.1]
  case abort => exact fun s src m i hup hent hs hst => exec_pathAbort_staged hup hent hs hst
  case auditUnknown | evacuateUnknown =>
    intro s src m hup ho
    refine pathMsgIn_taken hup ?_
    dsimp only
    rw [ho]
  case auditReply =>
    intro s src m i hup hent hf
    refine pathMsgIn_taken hup ?_
    dsimp only
    rw [hent]
    exact if_pos hf
  case evacuateRoute =>
    intro s src m i hup ho hr
    refine pathMsgIn_taken hup ?_
    dsimp only
    rw [ho]
    exact if_pos hr
  case evacAck =>
    intro s src m i hup hent
    refine pathMsgIn_taken hup ?_
    dsimp only
    rw [hent]
  case auditHeld | teardownReq | wakeAck =>
    intro s src m i hup ho
    refine pathMsgIn_taken hup ?_
    dsimp only
    rw [ho]
  case wake => exact fun s src m hup => pathMsgIn_taken hup rfl
  case coreDown =>
    intro s src m hup
    refine ⟨?_, ?_, ?_, ?_, ?_, ?_, ?_, ?_, ?_, ?_, ?_, ?_, ?_, ?_, ?_, ?_⟩
    all_goals exact congrArg Host.Outcome.next (if_neg (ne_true_of_eq_false hup))
  case noReference => exact fun s src m hup hn => exec_circuitMsgs_noReference hup hn

end Sys2Proof.Machine
end

section
/-! PROOFS. The hinge control engine: what a write leaves of a loop, the rates of groups, ramps and set-points, holds, and the
windows of feedback. -/

namespace Sys2Proof.Machine
open Sys2Proof Safety

/-! ### What a write leaves of a loop -/

section
variable {s t : State} {i : Nat}

/-- Beside its own record, what a loop reads is its target, its calibrated drives and the gain of its port. -/
theorem State.loop_congr (hh : t.hce = s.hce) (ht : t.rd F.HCE_LOOP_STAT.TARGET i = s.rd F.HCE_LOOP_STAT.TARGET i)
    (ha : t.rd F.HCE_LOOP_CAL.D_A i = s.rd F.HCE_LOOP_CAL.D_A i) (hb : t.rd F.HCE_LOOP_CAL.D_B i = s.rd F.HCE_LOOP_CAL.D_B i)
    (hg : t.rd F.LAT_PORT.GAIN (i - 3108) = s.rd F.LAT_PORT.GAIN (i - 3108)) : t.loop i = s.loop i := by
  unfold State.loop State.ffOf State.gainGoal State.flag
  rw [hh, ht, ha, hb, hg]

/-- Whether a loop holds light stands in its record alone, and no loop that nothing has touched does. -/
theorem State.loop_lit : (s.loop i).lit = ((kfind s.hce.loops i).map Loop.lit).getD Loop.init.lit := by
  unfold State.loop
  cases kfind s.hce.loops i <;> rfl

theorem State.groupLit_congr (h : t.hce = s.hce) (group : Nat) : t.groupLit group = s.groupLit group := by
  unfold State.groupLit
  simp only [State.loop_lit, h]

theorem State.hce_leaveDormant : s.leaveDormant.hce = s.hce := s.leaveDormant_within.same .hce rfl

theorem State.hceState_leaveDormant : s.leaveDormant.hceState i = s.hceState i := s.rd_leaveDormant_above _ _ (by decide)

theorem State.loop_leaveDormant : s.leaveDormant.loop i = s.loop i :=
  State.loop_congr s.hce_leaveDormant (s.rd_leaveDormant_above _ _ (by decide)) (s.rd_leaveDormant_above _ _ (by decide))
    (s.rd_leaveDormant_above _ _ (by decide)) (s.rd_leaveDormant_above _ _ (by decide))

/-- The registers of the groups stand at multiples of 8, the state register of a loop 4 above one. -/
theorem State.hceState_wr_group {f : Fld} (hf : f.reg = .HCE_GRP) (v group : Nat) :
    (s.wr f v group).hceState i = s.hceState i := by
  refine s.rd_wreg_ne f.reg _ group _ i ?_
  rw [hf]
  change 0x500100 + group * 0x8 ≠ 0x510004 + i * 0x10
  omega

section
variable {f : Fld} (hf : f.reg = .HCE_LOOP_CTL) (v : Nat)
include hf

theorem State.rd_wr_loopCtl {g : Fld} (hg : g.reg.desc.stride = 0x10 ∧ g.reg.desc.base ≠ 0x510000) :
    (s.wr f v i).rd g i = s.rd g i := by
  obtain ⟨hstride, hbase⟩ := hg
  refine s.rd_wreg_ne f.reg _ i g i ?_
  rw [hf]
  change 0x510000 + i * 0x10 ≠ g.reg.desc.base + i * g.reg.desc.stride
  rw [hstride]
  omega

theorem State.hceState_wr_loopCtl : (s.wr f v i).hceState i = s.hceState i := State.rd_wr_loopCtl hf v (by decide)

theorem State.loop_wr_loopCtl : (s.wr f v i).loop i = s.loop i := by
  refine State.loop_congr rfl (State.rd_wr_loopCtl hf v (by decide)) (State.rd_wr_loopCtl hf v (by decide))
    (State.rd_wr_loopCtl hf v (by decide)) (s.rd_wreg_ne f.reg _ i _ _ ?_)
  rw [hf]
  change 0x510000 + i * 0x10 ≠ 0x401000 + (i - 3108) * 0x8
  omega

end

end

/-! ### Groups and their rates -/

section
variable {s : State} {group : Nat}

/-- Three late periods in a row lower the rate by one step, and are then counted anew (R575). -/
theorem exec_groupRateDown_late (hg : group < 21) (hc : 3 ≤ s.rd F.HCE_GRP.CONSEC group) :
    exec (.groupRateDown group) s = .next (
      if s.rd F.HCE_GRP.RATE group = grFULL then
        ((s.wr F.HCE_GRP.CONSEC 0 group).wr F.HCE_GRP.RATE grHALF group).note evGroupHalf 1 0 0
          [group, s.rd F.HCE_GRP.OVR_COUNT group]
      else if s.rd F.HCE_GRP.RATE group = grHALF then
        (((s.wr F.HCE_GRP.CONSEC 0 group).wr F.HCE_GRP.RATE grHOLD group).groupHold group).note evGroupHold 1 0 0
          [group, ((groupLoops group).filter fun i => s.hceState i != hsOPEN).length, s.groupLit group]
      else s.wr F.HCE_GRP.CONSEC 0 group) := by
  have hrate : (s.wr F.HCE_GRP.CONSEC 0 group).rd F.HCE_GRP.RATE group = s.rd F.HCE_GRP.RATE group :=
    s.rd_wr_beside _ _ _ _ (by decide) (by decide)
  have hovr : (s.wr F.HCE_GRP.CONSEC 0 group).rd F.HCE_GRP.OVR_COUNT group = s.rd F.HCE_GRP.OVR_COUNT group :=
    s.rd_wr_beside _ _ _ _ (by decide) (by decide)
  have hlit : (s.wr F.HCE_GRP.CONSEC 0 group).groupLit group = s.groupLit group := State.groupLit_congr (s.wr_hce _ _ _) group
  have hstate (i : Nat) : (s.wr F.HCE_GRP.CONSEC 0 group).hceState i = s.hceState i :=
    State.hceState_wr_group rfl 0 group
  refine congrArg Host.Outcome.next ((if_neg (by omega)).trans ?_)
  dsimp only
  simp only [hrate, hovr, hlit, hstate]

/-- A group that was not held returns to `FULL` without a change of its loops (R576). -/
theorem State.groupFull_half (h : s.rd F.HCE_GRP.RATE group = grHALF) :
    s.groupFull group = (((s.setHceGroup group { s.hceGroup group with clean := 0 }).wr F.HCE_GRP.RATE grFULL group).wr
      F.HCE_GRP.CONSEC 0 group).note evRateRestored 0 0 0 [group, grHALF] := by
  unfold State.groupFull
  rw [h]
  rfl

end

/-! ### Set-points -/

/-- A set-point for no hinge leaves the engine as it was, with the event on record (R581, R588). -/
theorem State.spGo_noHinge {s : State} {val : Nat} (h : 2700 ≤ bitsOf val 11 0) :
    (s.leaveDormant.spGo val).hce = s.hce ∧ (s.leaveDormant.spGo val).mem = s.mem ∧
      Recorded s (s.leaveDormant.spGo val) evHceReject 0 0 0 := by
  unfold State.spGo
  dsimp only
  rw [if_pos h]
  refine ⟨?_, ?_, recorded_note s.leaveDormant_evr⟩
  · exact (note_same_of_unrecorded _ _ _ _ _ _ _ _ (q := .hce) (by decide)).trans s.hce_leaveDormant
  · exact (note_same_of_unrecorded _ _ _ _ _ _ _ _ (q := .mem) (by decide)).trans s.leaveDormant_mem

/-! ### Holds -/

section
variable {s : State} {i : Nat}

theorem State.loopHoldOn_closed (h : s.hceState i = hsCLOSED) :
    s.loopHoldOn i = (((s.wr F.HCE_LOOP_CTL.HOLD 1 i).setLoop i { s.loop i with once := false }).setLoop i
      { s.loop i with once := false, prior := hsCLOSED }).setHceState i hsHOLD := by
  unfold State.loopHoldOn
  dsimp only
  rw [if_pos (.inl h), State.loop_setLoop, h]

/-- A loop in `HOLD` goes back to the state it was taken from, to `CLOSED` without a bump (R584). -/
theorem State.loopHoldOff_held (h : s.hceState i = hsHOLD) :
    s.loopHoldOff i = if (s.loop i).prior = hsCLOSED then (s.wr F.HCE_LOOP_CTL.HOLD 0 i).bumpless i
      else (s.wr F.HCE_LOOP_CTL.HOLD 0 i).setHceState i (s.loop i).prior := by
  unfold State.loopHoldOff
  dsimp only
  rw [State.hceState_wr_loopCtl rfl, if_pos h, State.loop_wr_loopCtl rfl]

/-- A closed loop whose set is selected anew holds for one sample (R588). -/
theorem State.selectSet_eq (set : Nat) :
    s.selectSet i set = if s.hceState i = hsCLOSED then
        ((s.wr F.HCE_LOOP_CTL.SET_SEL (set % 16) i).setLoop i { s.loop i with once := true, prior := hsCLOSED }).setHceState i
          hsHOLD
      else s.wr F.HCE_LOOP_CTL.SET_SEL (set % 16) i := by
  unfold State.selectSet
  dsimp only
  rw [State.hceState_wr_loopCtl rfl, State.loop_wr_loopCtl rfl]

theorem exec_loopHoldRelease_held (hi : i < 3148) (h : s.hceState i = hsHOLD) :
    exec (.loopHoldRelease i) s = .next (if (s.loop i).prior = hsCLOSED then
      (s.leaveDormant.wr F.HCE_LOOP_CTL.HOLD 0 i).bumpless i
      else (s.leaveDormant.wr F.HCE_LOOP_CTL.HOLD 0 i).setHceState i (s.loop i).prior) := by
  refine congrArg Host.Outcome.next ((if_pos hi).trans ?_)
  rw [State.loopHoldOff_held (s.hceState_leaveDormant.trans h), State.loop_leaveDormant]

theorem exec_setSelWrite_loop (hi : i < 3148) (set : Nat) :
    exec (.setSelWrite i set) s = .next (s.leaveDormant.selectSet i set) := congrArg Host.Outcome.next (if_pos hi)

end

/-! ### Windows of feedback -/

section
variable {s : State} {judged : List WindowTap} {i : Nat}

/-- A window that judges the taps of one loop alone is that loop's. -/
theorem exec_hceWindow_one
    (h : ((judged.map WindowTap.loop).eraseDups.filter fun i => decide (i < 3148)) = [i]) :
    exec (.hceWindow judged) s = .next (s.judgeLoop i (judged.filter fun t => t.loop == i)) :=
  congrArg Host.Outcome.next ((congrArg (List.foldl _ s) h).trans rfl)

section
variable {taps : List WindowTap}

theorem State.judgeLoop_closed_good (hs : s.hceState i = hsCLOSED) (hb : (taps.find? fun t => decide (t.cause ≠ .good)) = none) :
    s.judgeLoop i taps = s.setLoop i { s.loop i with bad := 0, goodU := sat32 ((s.loop i).u - (s.loop i).c) } := by
  unfold State.judgeLoop
  dsimp only
  rw [if_pos hs, hb]

/-- The loop that has lost its feedback, at its last good drive and counted (R585, R586). -/
def State.fbLost (s : State) (i : Nat) : State :=
  (((s.setLoop i { s.loop i with bad := 0, good := 0, since := s.opMs, u := sat32 ((s.loop i).goodU + (s.loop i).c) }).bump
    F.HCE_CNT_FB.COUNT).bump F.HCE_LOOP_STAT.FB_HOLDS i).wr F.HCE_LOOP_STAT.DEGRADED 1 i

theorem State.judgeLoop_closed_lost {w : WindowTap} (hs : s.hceState i = hsCLOSED)
    (hb : (taps.find? fun t => decide (t.cause ≠ .good)) = some w) (hn : s.rd1 F.HCE_PILOT_CFG.BAD_WIN ≤ (s.loop i).bad + 1) :
    s.judgeLoop i taps = ((s.fbLost i).setHceState i hsFB_HOLD).note evFbHold 1 8 i
      ([i, w.tap, causeCode w.cause] ++ (s.fbLost i).lanesServed i) := by
  unfold State.judgeLoop
  dsimp only
  rw [if_pos hs, hb]
  exact if_neg (Nat.not_lt.mpr hn)

theorem State.judgeLoop_fbHold_recovered (hs : s.hceState i = hsFB_HOLD)
    (hb : (taps.find? fun t => decide (t.cause ≠ .good)) = none) (hn : s.rd1 F.HCE_CFG.RECOVER_WIN ≤ (s.loop i).good + 1) :
    s.judgeLoop i taps = ((s.bumpless i).wr F.HCE_LOOP_STAT.DEGRADED 0 i).note evFbRecovered 0 8 i
      [i, s.opMs - (s.loop i).since] := by
  unfold State.judgeLoop
  dsimp only
  rw [if_neg (by rw [hs]; decide), if_pos hs, hb]
  exact if_neg (Nat.not_lt.mpr hn)

end

end

/-- Settles O36: each clause is the branch of its command that the clause's premises choose. That these
rows end `DORMANT` and act at once, that a lost loop keeps its crosstalk in its drive, and which source an event names is the
model's reading (notes/assumptions/51.md, 52.md, 85.md). -/
theorem hingeRows : Obligations.HingeRows := by
  refine ⟨?period, ?stopped, ?toHalf, ?toHold, ?restore, ?resume, ?rampInTime, ?rampLate, ?rampWaits, ?rampStart, ?stepPoint,
    ?noHinge, ?hold, ?releaseClosed, ?releaseSettle, ?selectClosed, ?selectElse, ?windowGood, ?windowLost, ?windowRecovered⟩
  case period =>
    intro s taps late hrun
    exact ⟨_, congrArg Host.Outcome.next (if_neg (by rw [hrun]; decide)), rfl⟩
  case stopped =>
    intro s taps late hrun
    exact congrArg Host.Outcome.next (if_pos (by rw [hrun]; rfl))
  case toHalf =>
    intro s group hg hc hr
    rw [exec_groupRateDown_late hg hc, if_pos hr]
  case toHold =>
    intro s group hg hc hr
    rw [exec_groupRateDown_late hg hc, if_neg (by rw [hr]; decide), if_pos hr]
  case restore =>
    exact fun s group hr hclean =>
      congrArg Host.Outcome.next ((if_pos ⟨hr, hclean⟩).trans (State.groupFull_half hr))
  case resume =>
    intro s group hg hr
    have hr' : s.leaveDormant.rd F.HCE_GRP.RATE group ≠ grFULL := by rwa [s.rd_leaveDormant_above _ _ (by decide)]
    exact congrArg Host.Outcome.next (if_pos ⟨hg, hr'⟩)
  case rampInTime =>
    intro s loop target lit start late hloop hroom hlate
    exact congrArg Host.Outcome.next
      ((if_neg (by omega)).trans ((if_neg fun h => Bool.false_ne_true h.1).trans (if_neg (Nat.not_lt.mpr hlate))))
  case rampLate =>
    intro s loop target recable lit start late hloop hroom hnow hlate
    have hdue : ¬ (recable = true ∧ s.time.step < start) := by
      rintro ⟨rfl, hwait⟩
      obtain h | h := hnow
      · exact Bool.noConfusion h
      · omega
    exact congrArg Host.Outcome.next ((if_neg (by omega)).trans ((if_neg hdue).trans (if_pos hlate)))
  case rampWaits =>
    intro s loop target lit start late hloop hroom hwait
    exact congrArg Host.Outcome.next ((if_neg (by omega)).trans (if_pos ⟨rfl, hwait⟩))
  case rampStart =>
    intro s step late r hdue hlate hcolour
    refine congrArg Host.Outcome.next ?_
    dsimp only
    rw [hdue]
    exact (if_neg (Nat.not_lt.mpr hlate)).trans (congrArg (State.setRamp _ r s.tRecable) (if_pos hcolour))
  case stepPoint => exact fun s val hval => congrArg Host.Outcome.next (if_neg (Nat.not_le.mpr hval))
  case noHinge => exact fun s val hval => ⟨_, rfl, State.spGo_noHinge hval⟩
  case hold =>
    intro s loop hloop hs
    refine congrArg Host.Outcome.next ((if_pos hloop).trans ?_)
    rw [State.loopHoldOn_closed (s.hceState_leaveDormant.trans hs), State.loop_leaveDormant]
  case releaseClosed =>
    intro s loop hloop hs hp
    rw [exec_loopHoldRelease_held hloop hs, if_pos hp]
  case releaseSettle =>
    intro s loop hloop hs hp
    rw [exec_loopHoldRelease_held hloop hs, hp]
    exact congrArg Host.Outcome.next (if_neg (by decide))
  case selectClosed =>
    intro s loop set hloop hs
    rw [exec_setSelWrite_loop hloop, State.selectSet_eq, State.hceState_leaveDormant, if_pos hs, State.loop_leaveDormant,
      State.loop_wr_loopCtl rfl]
  case selectElse =>
    intro s loop set hloop hs
    rw [exec_setSelWrite_loop hloop, State.selectSet_eq, State.hceState_leaveDormant, if_neg hs]
  case windowGood =>
    intro s judged i hone hs hb
    rw [exec_hceWindow_one hone, State.judgeLoop_closed_good hs hb]
  case windowLost =>
    intro s judged i w hone hs hb hn
    rw [exec_hceWindow_one hone, State.judgeLoop_closed_lost hs hb hn]
    rfl
  case windowRecovered =>
    intro s judged i hone hs hb hn
    rw [exec_hceWindow_one hone, State.judgeLoop_fbHold_recovered hs hb hn]

end Sys2Proof.Machine
end

section
/-! PROOFS. A step: the command at the front of the queue, the tick of an empty queue, the parts a command reaches, and the run of
a whole queue. -/

namespace Sys2Proof.Machine
open Sys2Proof Safety

/-! ### One step -/

theorem step_cons {s : State} {c : Instr} {rest : List Instr} (h : s.pending = c :: rest) :
    step s = exec c { s with pending := rest } := by
  simp only [step, h]

theorem step_nil {s : State} (h : s.pending = []) : step s = .next s.idle := by
  simp only [step, h]

/-- An idle tick moves the time counter alone. -/
theorem State.idle_eq_raw (s : State) : s.idle = { s with time.raw := s.idle.time.raw } := by
  unfold State.idle
  split <;> rfl

theorem State.idle_raw (s : State) : s.idle.time.raw =
    if s.pwr.a.inRange || s.pwr.b.inRange || s.pwr.holdUp then
      (s.time.raw + if s.flag F.TIM_STATUS.COARSE then 30518 else 4) % 2 ^ 64 else s.time.raw := by
  unfold State.idle
  split <;> rfl

/-- Settles O44: the two equations of `step`, and what an idle tick changes. -/
theorem stepRunsTheFrontCommand : Obligations.StepRunsTheFrontCommand := by
  unfold Obligations.StepRunsTheFrontCommand
  exact ⟨fun _ _ _ => step_cons, fun s h => ⟨step_nil h, s.idle_eq_raw, s.idle_raw⟩⟩

/-! ### The parts a command reaches -/

theorem State.memRead_congr {s t : State} (h : t.mem = s.mem) (a n : Nat) : t.memRead a n = s.memRead a n := by
  simp only [State.memRead, h]

/-- A part that a list leaves out is as before where only the listed parts changed. -/
theorem Within.same_of_notMem {ps : List Part} {s t : State} (h : Within (partMask ps) s t) {p : Part} (hp : p ∉ ps) :
    p.same s t :=
  h.same p ((testBit_partMask p ps).trans (decide_eq_false hp))

/-- What a command's next state has of a part that `reach` does not list. -/
theorem exec_same {c : Instr} {s t : State} (h : exec c s = .next t) {p : Part} (hp : p ∉ reach c) : p.same s t := by
  obtain ⟨u, hu, hw⟩ := within_exec c s
  obtain rfl : u = t := Host.Outcome.next.inj (hu.symm.trans h)
  exact hw.same_of_notMem hp

/-- Settles O46, by `within_exec`: a command changes the parts that `reach` lists, and no other. -/
theorem commandsReachTheirParts : Obligations.CommandsReachTheirParts := by
  unfold Obligations.CommandsReachTheirParts
  intro c s
  obtain ⟨t, ht, hw⟩ := within_exec c s
  exact ⟨t, ht, fun _ => hw.same_of_notMem, hw.pending, fun hm => State.memRead_congr (hw.same_of_notMem hm)⟩

/-! ### What a step keeps, and the run of a queue -/

theorem Within.extends {m : Nat} {s t : State} (h : Within m s t) : Extends s t := ⟨h.sent, h.drawn⟩

theorem extends_refl (s : State) : Extends s s := ⟨List.prefix_rfl, Nat.le_refl _⟩

theorem extends_trans {s t u : State} (h : Extends s t) (k : Extends t u) : Extends s u :=
  ⟨h.1.trans k.1, Nat.le_trans h.2 k.2⟩

/-- Every step goes on: it takes the queue's first command off, and keeps the canonical form of memory and all that was sent. -/
theorem step_next (s : State) : ∃ t, step s = .next t ∧ t.pending = s.pending.tail ∧ Extends s t ∧
    (Canonical s → Canonical t) := by
  cases hq : s.pending with
  | nil =>
    refine ⟨s.idle, step_nil hq, ?_⟩
    rw [s.idle_eq_raw]
    exact ⟨hq, extends_refl s, id⟩
  | cons c rest =>
    obtain ⟨t, ht, hw⟩ := within_exec c { s with pending := rest }
    exact ⟨t, (step_cons hq).trans ht, hw.pending, hw.extends, hw.wf⟩

/-- Settles O47, by `step_next`: the next state is the one that it speaks of. -/
theorem commandsKeepTheState : Obligations.CommandsKeepTheState := by
  unfold Obligations.CommandsKeepTheState
  intro s t hc hs
  obtain ⟨u, hu, hq, hext, hcan⟩ := step_next s
  obtain rfl : u = t := Host.Outcome.next.inj (hu.symm.trans hs)
  exact ⟨hcan hc, hq, hext⟩

/-- As many steps as a queue holds commands run it to its end. -/
theorem after_queue (q : List Instr) (s : State) (h : s.pending = q) : ∃ t, after q.length s = some t ∧ t.pending = [] ∧
    Extends s t ∧ (Canonical s → Canonical t) := by
  induction q generalizing s with
  | nil => exact ⟨s, rfl, h, extends_refl s, id⟩
  | cons c rest ih =>
    obtain ⟨t, ht, hq, hext, hcan⟩ := step_next s
    obtain ⟨u, hu, hend, hext', hcan'⟩ := ih t (by rw [hq, h, List.tail_cons])
    refine ⟨u, ?_, hend, extends_trans hext hext', hcan' ∘ hcan⟩
    simp only [List.length_cons, after, ht, hu]

/-- Settles O48, by induction on the queue, each step by `step_next`. -/
theorem queueRunsToItsEnd : Obligations.QueueRunsToItsEnd := by
  unfold Obligations.QueueRunsToItsEnd
  exact fun s => after_queue s.pending s rfl

end Sys2Proof.Machine
end

section
/-! PROOFS. The queue of reset actions, the keeper's own restarts, and the answer of `TWOKEY_STATUS`. -/

namespace Sys2Proof.Machine
open Sys2Proof Safety

/-! ### The queue of reset actions -/

/-- Where an action goes: behind its class and those above, before the first of a lower class. -/
theorem insertAction_eq (a : Action) (q : List Action) :
    insertAction a q = q.takeWhile (fun b => a.cls ≤ b.cls) ++ a :: q.dropWhile (fun b => a.cls ≤ b.cls) := by
  induction q with
  | nil => rfl
  | cons b q ih =>
    unfold insertAction
    split
    case isTrue h => simp [Nat.not_le_of_lt h]
    case isFalse h => simp [Nat.le_of_not_lt h, ih]

theorem sublist_insertAction (a : Action) (q : List Action) : q.Sublist (insertAction a q) := by
  rw [insertAction_eq]
  conv_lhs => rw [← q.takeWhile_append_dropWhile (p := fun b => a.cls ≤ b.cls)]
  exact (List.sublist_cons_self a _).append_left _

theorem mem_insertAction {a b : Action} {q : List Action} : b ∈ insertAction a q ↔ b = a ∨ b ∈ q := by
  induction q with
  | nil => simp [insertAction]
  | cons c q ih =>
    unfold insertAction
    split
    · exact List.mem_cons
    · simp only [List.mem_cons, ih]
      exact or_left_comm

theorem pairwise_insertAction (a : Action) {q : List Action} (h : q.Pairwise (fun x y => y.cls ≤ x.cls)) :
    (insertAction a q).Pairwise (fun x y => y.cls ≤ x.cls) := by
  induction q with
  | nil => exact List.pairwise_singleton ..
  | cons b q ih =>
    obtain ⟨hb, hq⟩ := List.pairwise_cons.mp h
    unfold insertAction
    split
    case isTrue hlt =>
      refine List.pairwise_cons.mpr ⟨fun c hc => ?_, h⟩
      obtain rfl | hc := List.mem_cons.mp hc
      · exact Nat.le_of_lt hlt
      · exact Nat.le_trans (hb c hc) (Nat.le_of_lt hlt)
    case isFalse hle =>
      refine List.pairwise_cons.mpr ⟨fun c hc => ?_, ih hq⟩
      obtain rfl | hc := mem_insertAction.mp hc
      · exact Nat.le_of_not_lt hle
      · exact hb c hc

/-- Settles O52, by the place of an action in the queue, by induction on the queue. -/
theorem resetActionsQueueByClass : Obligations.ResetActionsQueueByClass := by
  unfold Obligations.ResetActionsQueueByClass
  exact fun a q h => ⟨pairwise_insertAction a h, sublist_insertAction a q, insertAction_eq a q⟩

/-! ### The keeper's restarts -/

section RestartsRemembered

variable (s : State)

theorem State.reportLast_rst (a : Action) (o : Nat) (b : Bool) (m : Nat) : (s.reportLast a o b m).rst = s.rst := rfl

theorem State.startAction_keepTimes (a : Action) (b : Bool) : (s.startAction a b).rst.keepTimes = s.rst.keepTimes := by
  unfold State.startAction State.reportStart
  simp only [State.wr_rst, State.reportLast_rst]
  split_ifs <;> simp

theorem State.closeDumpPartial_keepTimes (r : RunAct) : (s.closeDumpPartial r).rst.keepTimes = s.rst.keepTimes := by
  unfold State.closeDumpPartial
  repeat' split
  all_goals rfl

theorem State.enqueueAction_keepTimes (a : Action) : (s.enqueueAction a).rst.keepTimes = s.rst.keepTimes := by
  unfold State.enqueueAction State.setQueued
  split <;> simp [State.reportLast_rst]

theorem State.escalate_keepTimes (r : RunAct) (c : Nat) : (s.escalate r c).rst.keepTimes = s.rst.keepTimes := by
  unfold State.escalate
  rw [State.startAction_keepTimes, State.endWork_rst]
  split_ifs <;> simp

theorem State.preempt_keepTimes (r : RunAct) (a : Action) : (s.preempt r a).rst.keepTimes = s.rst.keepTimes := by
  unfold State.preempt
  rw [State.startAction_keepTimes]
  split <;> simp [State.reportLast_rst, State.enqueueAction_keepTimes, State.closeDumpPartial_keepTimes]

theorem State.waitAction_keepTimes (r : RunAct) (a : Action) : (s.waitAction r a).rst.keepTimes = s.rst.keepTimes := by
  unfold State.waitAction
  split <;> simp [State.preempt_keepTimes, State.enqueueAction_keepTimes]

theorem State.callAction_keepTimes (a : Action) : (s.callAction a).rst.keepTimes = s.rst.keepTimes := by
  unfold State.callAction
  split
  · exact s.startAction_keepTimes a _
  · split_ifs <;>
      simp [State.escalate_keepTimes, State.reportLast_rst, State.preempt_keepTimes, State.waitAction_keepTimes]

theorem State.callRemoval_keepTimes (n c k i : Nat) (y : Option Nat) :
    (s.callRemoval n c y k i).rst.keepTimes = s.rst.keepTimes := by
  unfold State.callRemoval
  split <;> rfl

theorem State.respond_keepTimes (c v k x : Nat) (y : Option Nat) :
    (s.respond c v k x y).rst.keepTimes = s.rst.keepTimes := by
  unfold State.respond
  repeat' split
  all_goals simp [State.callAction_keepTimes, State.callRemoval_keepTimes, State.reportLast_rst]

/-- No response to an event touches the restarts that the keeper remembers. -/
theorem State.record_keepTimes (c v k x : Nat) (p : List Nat) (y : Option Nat) (z : Bool) :
    (s.record c v k x p y z).rst.keepTimes = s.rst.keepTimes := by
  rw [State.record, State.respond_keepTimes, State.note_rst]

end RestartsRemembered

/-- Settles O56: this restart is the third of the hour exactly when two lie within the hour before it. -/
theorem keeperRestartsThriceInAnHour : Obligations.KeeperRestartsThriceInAnHour := by
  unfold Obligations.KeeperRestartsThriceInAnHour
  intro s
  refine ⟨_, rfl, ?_, ?_⟩
  · simp only [List.length_append, List.length_singleton, Nat.reduceLeDiff]
    split_ifs
    · exact recorded_record rfl
    · exact recorded_record rfl
  · dsimp only
    split <;> exact State.record_keepTimes ..

/-! ### `TWOKEY_STATUS` -/

theorem State.rd_lt (s : State) (f : Fld) (i : Nat) : s.rd f i < 2 ^ (f.hi + 1 - f.lo) :=
  Nat.mod_lt _ (Nat.two_pow_pos _)

/-- The payload of `TWOKEY_STATUS`: the counter, the operation, the holder and the seconds left. -/
def tkStatusBytes (counter op holder left : Nat) : List (BitVec 8) :=
  leBytes 4 counter ++ leBytes 2 op ++ leBytes 1 holder ++ leBytes 1 0 ++ leBytes 2 left

theorem tkStatusBytes_reads (counter op holder left : Nat) :
    leAt (tkStatusBytes counter op holder left) 0 4 = counter % 2 ^ 32 ∧
      leAt (tkStatusBytes counter op holder left) 4 2 = op % 2 ^ 16 ∧
      leAt (tkStatusBytes counter op holder left) 6 1 = holder % 2 ^ 8 ∧
      leAt (tkStatusBytes counter op holder left) 8 2 = left % 2 ^ 16 :=
  ⟨leNat_leBytes 4 counter, leNat_leBytes 2 op, leNat_leBytes 1 holder, leNat_leBytes 2 left⟩

theorem exec_twokeyStatus_pending {s : State} {q : Req} {x : TwoKey} (hq : s.taking 0x0601 = some q)
    (hx : s.upd.pending = some x) : exec .twokeyStatus s = .next (s.answer stOK 0xFFFF
      (tkStatusBytes (s.rd F.SEC_STATUS.TK_COUNTER) (tkOp x.head) x.holder ((x.since + 600000 - s.opMs) / 1000))) := by
  refine congrArg Host.Outcome.next ((State.serve_taking hq _).trans ?_)
  simp only [hx, tkStatusBytes]

theorem exec_twokeyStatus_none {s : State} {q : Req} (hq : s.taking 0x0601 = some q) (hx : s.upd.pending = none) :
    exec .twokeyStatus s = .next (s.answer stOK 0xFFFF (tkStatusBytes (s.rd F.SEC_STATUS.TK_COUNTER) 0 0 0)) := by
  refine congrArg Host.Outcome.next ((State.serve_taking hq _).trans ?_)
  simp only [hx, tkStatusBytes]

/-- Settles O58: what the payload's bytes read, with a pending operation and without one. -/
theorem twoKeyStatusPayload : Obligations.TwoKeyStatusPayload := by
  unfold Obligations.TwoKeyStatusPayload
  refine ⟨fun s q x hq hx => ⟨_, exec_twokeyStatus_pending hq hx, ?_⟩,
    fun s q hq hx => ⟨_, exec_twokeyStatus_none hq hx, ?_⟩⟩
  all_goals
    obtain ⟨hcounter, hop, hholder, hleft⟩ := tkStatusBytes_reads (s.rd F.SEC_STATUS.TK_COUNTER) _ _ _
    exact ⟨hcounter.trans (Nat.mod_eq_of_lt (s.rd_lt _ _)), hop, hholder, hleft⟩

end Sys2Proof.Machine
end

section
/-! PROOFS. The recorder: flushing, the checkpoint, the latch, and reading a record. -/

namespace Sys2Proof.Machine
open Sys2Proof Safety

/-! ### The recorder's own commands -/

/-- A recorder with room writes its one buffered record. -/
theorem State.flushSome_one {s : State} {r : EvRec} (hb : s.evr.buf = [r]) (hroom : s.evr.ring.length < s.evr.capacity) :
    s.flushSome 1 (fun _ => true) = { s with evr.ring := s.evr.ring ++ [r], evr.buf := [] } := by
  unfold State.flushSome
  simp [hb, Recorder.write, hroom]

/-- With nothing lost and nothing coalesced a free slot changes nothing. -/
theorem State.slotsFreed_idle {s : State} (hl : s.evr.lost = none) (hc : s.evr.coalescing = false) : s.slotsFreed = s := by
  simp [State.slotsFreed, State.reportLost, State.leaveCoalescing, hl, hc]

theorem exec_flush_one {s : State} {r : EvRec} (hb : s.evr.buf = [r]) (hlat : s.evr.latched = false)
    (hstop : s.evr.stopped = false) (hl : s.evr.lost = none) (hc : s.evr.coalescing = false)
    (hroom : s.evr.ring.length < s.evr.capacity) :
    exec (.flush 1 []) s = .next { s with evr.ring := s.evr.ring ++ [r], evr.buf := [], evr.flushing := false } := by
  refine congrArg Host.Outcome.next ((if_neg (by simp [hlat, hstop, hb])).trans ?_)
  dsimp only [List.foldl_nil]
  rw [State.flushSome_one hb hroom, if_neg (by decide), State.slotsFreed_idle (by exact hl) (by exact hc)]
  rfl

theorem exec_flush_latched {s : State} (h : s.evr.latched = true) (n : Nat) (bad : List Nat) :
    exec (.flush n bad) s = .next s :=
  congrArg Host.Outcome.next (if_pos (by rw [h]; rfl))

/-- An event goes on record from a state whose buffer is that of `s` and which takes every event where `s` does. -/
theorem recorded_note_buf {s e t : State} {c v k x : Nat} {p : List Nat} {y : Option Nat} {z : Bool}
    (hr : Roomy s → Roomy e) (hb : e.evr.buf = s.evr.buf) (ht : (e.note c v k x p y z).evr.buf <+: t.evr.buf) :
    Recorded s t c v k x := fun h => by
  obtain ⟨r, hbuf, hfields⟩ := noted_note (hr h) rfl ht
  exact ⟨r, hb ▸ hbuf, hfields⟩

/-- A latch that ends releases the ring and records it. -/
theorem State.releaseLatch_latched {s : State} (h : s.evr.latched = true) (cause : Nat) :
    (s.releaseLatch cause).evr.latched = false ∧ (s.releaseLatch cause).mem = s.mem ∧
      Recorded s (s.releaseLatch cause) evReleased 0 0 0 := by
  unfold State.releaseLatch
  rw [if_pos h]
  exact ⟨State.note_latched .., State.note_mem ..,
    recorded_note_buf (e := { s with evr.latched := false }) (p := [cause, s.evr.buf.length]) id rfl List.prefix_rfl⟩

/-! ### Reading a record -/

/-- The data registers of `EVR_RD_DATA`, written from a list of indices. -/
def State.putRecord (s : State) (f : Nat → BitVec 64) (l : List Nat) : State :=
  l.foldl (fun (s : State) k => s.wreg .EVR_RD_DATA (f k) k) s

theorem State.putRecord_concat (s : State) (f : Nat → BitVec 64) (l : List Nat) (k : Nat) :
    s.putRecord f (l ++ [k]) = (s.putRecord f l).wreg .EVR_RD_DATA (f k) k :=
  List.foldl_concat ..

theorem State.rreg_putRecord (s : State) (f : Nat → BitVec 64) (l : List Nat) {k : Nat} (hk : k ∈ l) :
    (s.putRecord f l).rreg .EVR_RD_DATA k = f k := by
  induction l using List.reverseRecOn with
  | nil => exact absurd hk List.not_mem_nil
  | append_singleton l j ih =>
    rw [State.putRecord_concat]
    obtain rfl | hne := eq_or_ne j k
    · exact State.rreg_wreg_same ..
    · rw [State.rreg_wreg_ne _ _ _ _ _ _ (by simp only [Reg.off, Reg.desc]; omega)]
      exact ih ((List.mem_append.mp hk).resolve_right fun h => hne (List.mem_singleton.mp h).symm)

/-- A register below the data registers. -/
theorem State.rd_putRecord (s : State) (f : Nat → BitVec 64) (l : List Nat) (g : Fld) (j : Nat)
    (hg : g.reg.off j < 0x700020) : (s.putRecord f l).rd g j = s.rd g j := by
  induction l using List.reverseRecOn with
  | nil => rfl
  | append_singleton l k ih =>
    rw [State.putRecord_concat, State.rd_wreg_ne _ _ _ _ _ _ ?_, ih]
    simp only [Reg.off, Reg.desc] at hg ⊢
    omega

/-- The bytes that a read of a `SEQ` finds. -/
def State.foundBytes (s : State) (q : Nat) : List (BitVec 8) :=
  match (s.evr.buf.find? fun r => r.seq == q).orElse fun _ => s.evr.ring.find? fun r => r.seq == q with
  | some r => r.bytes
  | none => []

/-- What the registers read after a read of a `SEQ`. -/
theorem State.readRecord_reads (s : State) (q : Nat) (hq : q < 2 ^ 32) :
    (s.readRecord q).rd F.EVR_RD_CTL.SEQ = q ∧ (s.readRecord q).rd F.EVR_RD_CTL.FOUND = b2n (!(s.foundBytes q).isEmpty) ∧
      (s.readRecord q).rd F.EVR_RD_CTL.IN_BUFFER = b2n (s.evr.buf.find? fun r => r.seq == q).isSome ∧
      ∀ k < 8, (s.readRecord q).rreg .EVR_RD_DATA k = BitVec.ofNat 64 (leAt (s.foundBytes q) (8 * k) 8) := by
  have hb (b : Bool) : b2n b < 2 ^ 1 := by cases b <;> decide
  have e : s.readRecord q = (((s.wr F.EVR_RD_CTL.SEQ q).wr F.EVR_RD_CTL.FOUND (b2n (!(s.foundBytes q).isEmpty))).wr
      F.EVR_RD_CTL.IN_BUFFER (b2n (s.evr.buf.find? fun r => r.seq == q).isSome)).putRecord
        (fun k => BitVec.ofNat 64 (leAt (s.foundBytes q) (8 * k) 8)) (List.range 8) := rfl
  rw [e]
  refine ⟨?_, ?_, ?_, fun k hk => State.rreg_putRecord _ _ _ (List.mem_range.mpr hk)⟩
  all_goals rw [State.rd_putRecord _ _ _ _ _ (by decide)]
  · rw [State.rd_wr_apart _ _ _ _ _ _ (by decide) (by decide), State.rd_wr_apart _ _ _ _ _ _ (by decide) (by decide),
      State.rd_wr_lit _ _ _ _ (by decide) hq]
  · rw [State.rd_wr_apart _ _ _ _ _ _ (by decide) (by decide), State.rd_wr_lit _ _ _ _ (by decide) (hb _)]
  · exact State.rd_wr_lit _ _ _ _ (by decide) (hb _)

/-- The bytes of a record are not empty: they begin with its `SEQ`. -/
theorem EvRec.bytes_isEmpty (r : EvRec) : r.bytes.isEmpty = false := rfl

/-- Settles O10: a flush by `exec_flush_one`, a latch that ends by `releaseLatch_latched`, and a read by what the registers
then read. -/
theorem recorderRows : Obligations.RecorderRows := by
  unfold Obligations.RecorderRows
  refine ⟨?flush, ?latched, ?checkpoint, ?expires, ?missing, ?buffered⟩
  case flush =>
    intro s r hb hlat hstop hl hc hroom
    exact ⟨_, exec_flush_one hb hlat hstop hl hc hroom, rfl, rfl, rfl, rfl, rfl⟩
  case latched => exact fun s n bad h => exec_flush_latched h n bad
  case checkpoint => exact fun s => ⟨_, rfl, rfl, rfl, rfl⟩
  case expires => exact fun s h => ⟨_, rfl, State.releaseLatch_latched h 1⟩
  case missing =>
    intro s q hbuf hring
    obtain ⟨hseq, hfound, hin, -⟩ := s.leaveDormant.readRecord_reads (q % 2 ^ 32) (Nat.mod_lt _ (by decide))
    have hbytes : s.leaveDormant.foundBytes (q % 2 ^ 32) = [] := by
      simp only [State.foundBytes, State.leaveDormant_evr, hbuf, hring, Option.orElse]
    rw [hbytes] at hfound
    rw [State.leaveDormant_evr, hbuf] at hin
    have hrun : exec (.evrRdCtlWrite q) s = .next (s.leaveDormant.readRecord (q % 2 ^ 32)) := rfl
    exact ⟨_, hrun, hfound, hin, hseq,
      exec_same hrun (p := .evr) (by simp [reach]), exec_same hrun (p := .mem) (by simp [reach])⟩
  case buffered =>
    intro s q r hbuf
    obtain ⟨hseq, hfound, hin, hdata⟩ := s.leaveDormant.readRecord_reads (q % 2 ^ 32) (Nat.mod_lt _ (by decide))
    have hbytes : s.leaveDormant.foundBytes (q % 2 ^ 32) = r.bytes := by
      simp only [State.foundBytes, State.leaveDormant_evr, hbuf, Option.orElse]
    rw [hbytes] at hfound hdata
    rw [State.leaveDormant_evr, hbuf] at hin
    have hrun : exec (.evrRdCtlWrite q) s = .next (s.leaveDormant.readRecord (q % 2 ^ 32)) := rfl
    exact ⟨_, hrun, hfound, hin, hseq, hdata,
      exec_same hrun (p := .evr) (by simp [reach]), exec_same hrun (p := .mem) (by simp [reach])⟩

end Sys2Proof.Machine
end

section
/-! PROOFS. The mailbox: the placed response, tickets and their results, messages of other modules, and the recorder's latch. -/

namespace Sys2Proof.Machine
open Sys2Proof Safety

/-! ### The placed response -/

/-- The state in which a response stands in its area, `BUSY` has cleared and `DONE` is set: only its message is not sent yet. -/
def State.respPlaced (s : State) (q : Req) (r : Resp) : State :=
  ((({ s with mb.rsp := memPutBytes [] 0 (respBytes q r), mb.taken := none, mb.resp := none } : State).wr
    F.ORQ_MB_STATUS.BUSY 0).wr F.ORQ_MB_STATUS.DONE 1).bump F.ORQ_MB_STATUS.COUNT

section
variable (s : State) (q : Req) (r : Resp)

theorem State.rd_respPlaced (g : Fld) (j : Nat) (h : F.ORQ_MB_STATUS.BUSY.apart 0 g j = true)
    (h' : F.ORQ_MB_STATUS.DONE.apart 0 g j = true) (h'' : F.ORQ_MB_STATUS.COUNT.apart 0 g j = true) :
    (s.respPlaced q r).rd g j = s.rd g j :=
  (State.rd_wr_apart _ _ _ _ _ _ (by decide) h'').trans <|
    (State.rd_wr_apart _ _ _ _ _ _ (by decide) h').trans (State.rd_wr_apart _ _ _ _ _ _ (by decide) h)

theorem State.respPlaced_done : (s.respPlaced q r).rd F.ORQ_MB_STATUS.BUSY = 0 ∧
    (s.respPlaced q r).rd F.ORQ_MB_STATUS.DONE = 1 := by
  unfold State.respPlaced State.bump
  constructor <;> simp (disch := decide) only [State.rd_wr_apart, State.rd_wr_lit]

theorem State.respPlaced_mb :
    (s.respPlaced q r).mb = { s.mb with rsp := memPutBytes [] 0 (respBytes q r), taken := none, resp := none } := by
  simp only [State.respPlaced, State.bump_mb, State.wr_mb]

/-- A response is placed, and the message of R625 follows where it is enabled. -/
theorem State.placeResp_eq : s.placeResp q r = { s.respPlaced q r with
    out := s.out ++ if s.flag F.ORQ_MB_CFG.IRQ_EN then [Output.msix (s.rd F.ORQ_MB_CFG.VECTOR)] else [] } := by
  have hirq : (s.respPlaced q r).flag F.ORQ_MB_CFG.IRQ_EN = s.flag F.ORQ_MB_CFG.IRQ_EN :=
    congrArg (fun v => decide (v = 1)) (s.rd_respPlaced q r _ _ (by decide) (by decide) (by decide))
  have hvec : (s.respPlaced q r).rd F.ORQ_MB_CFG.VECTOR = s.rd F.ORQ_MB_CFG.VECTOR :=
    s.rd_respPlaced q r _ _ (by decide) (by decide) (by decide)
  show (if (s.respPlaced q r).flag F.ORQ_MB_CFG.IRQ_EN then
    (s.respPlaced q r).emit (.msix ((s.respPlaced q r).rd F.ORQ_MB_CFG.VECTOR)) else s.respPlaced q r) = _
  rw [hirq, hvec]
  split
  · rfl
  · rw [List.append_nil]
    rfl

end

/-! ### Tickets -/

/-- A ticket is posted: it is marked so, and its bit of `DONE` sets (R630). -/
theorem State.postTicket_some {s : State} {n : Nat} {k : Ticket} (h : kfind s.mb.tickets n = some k) :
    s.postTicket n = ({ s with mb.tickets := kset s.mb.tickets n { k with posted := true } } : State).wr
      F.ORQ_ASYNC_DONE.DONE (putBit (s.rd F.ORQ_ASYNC_DONE.DONE) n true) := by
  unfold State.postTicket
  rw [h]

theorem bitOf_asyncDone (s : State) {n : Nat} (h : n < 16) (b : Bool) (v : Nat) :
    bitOf ((s.wr F.ORQ_ASYNC_DONE.DONE (putBit v n b)).rd F.ORQ_ASYNC_DONE.DONE) n = b := by
  rw [State.rd_wr_same _ _ _ _ (by decide)]
  exact (bitOf_mod _ _ 16 h).trans (bitOf_putBit_same ..)

theorem exec_deferredWorkEnd {s : State} {n : Nat} {k : Ticket} {r : WorkResult} (hk : kfind s.mb.tickets n = some k)
    (hr : k.result = some r) (hp : k.posted = false) :
    exec (.deferredWorkEnd n) s = .next { s.postTicket n with
      out := s.out ++ if s.flag F.ORQ_MB_CFG.IRQ_EN then [Output.msix (s.rd F.ORQ_MB_CFG.ASYNC_VEC)] else [] } := by
  have hget (g : Fld) (hg : F.ORQ_ASYNC_DONE.DONE.apart 0 g 0 = true) : (s.postTicket n).rd g = s.rd g := by
    rw [State.postTicket_some hk]
    exact State.rd_wr_apart _ _ _ _ _ _ (by decide) hg
  have hirq : (s.postTicket n).flag F.ORQ_MB_CFG.IRQ_EN = s.flag F.ORQ_MB_CFG.IRQ_EN :=
    congrArg (fun v => decide (v = 1)) (hget F.ORQ_MB_CFG.IRQ_EN (by decide))
  have hout : (s.postTicket n).out = s.out := by rw [State.postTicket_some hk]; rfl
  refine congrArg Host.Outcome.next ?_
  rw [hk]
  refine (if_pos ⟨by rw [hr]; rfl, by rw [hp]; rfl⟩).trans ?_
  dsimp only
  rw [hirq, hget _ (by decide), ← hout]
  split
  · rfl
  · rw [List.append_nil]

section
variable {s : State} {q : Req} {k : Ticket}

theorem exec_getResult_running (hq : s.taking 2 = some q) (hn : leAt q.payload 0 1 < 16)
    (hk : kfind s.mb.tickets (leAt q.payload 0 1) = some k) (hr : k.result = none) :
    exec .getResult s = .next (s.answer stBUSY) := by
  refine congrArg Host.Outcome.next ((State.serve_taking hq _).trans ((if_neg (by omega)).trans ?_))
  rw [hk]
  dsimp only
  rw [hr]

theorem exec_getResult_ended (hq : s.taking 2 = some q) (hn : leAt q.payload 0 1 < 16)
    (hk : kfind s.mb.tickets (leAt q.payload 0 1) = some k) {r : WorkResult} (hr : k.result = some r) :
    exec .getResult s = .next ((({ s with mb.tickets := kdel s.mb.tickets (leAt q.payload 0 1) } : State).wr
      F.ORQ_ASYNC_DONE.DONE (putBit (s.rd F.ORQ_ASYNC_DONE.DONE) (leAt q.payload 0 1) false)).answer
        r.status r.detail r.payload) := by
  refine congrArg Host.Outcome.next ((State.serve_taking hq _).trans ((if_neg (by omega)).trans ?_))
  rw [hk]
  dsimp only
  rw [hr]

end

/-! ### The latch -/

/-- The bounds of the ring, as `EVR_LATCH` answers them (R738). -/
def Recorder.boundBytes (e : Recorder) : List (BitVec 8) := leBytes 4 e.oldest ++ leBytes 4 e.newest ++ leBytes 4 e.ring.length

theorem exec_evrLatch {s : State} {q : Req} (hq : s.taking 0x0800 = some q) :
    exec .evrLatch s = .next ((if s.evr.latched then s else
      ({ s with evr.latched := true, evr.flushing := false } : State).note evLatched 0 0 0 [s.evr.newest]).answer stOK 0xFFFF
        s.evr.boundBytes) :=
  congrArg Host.Outcome.next (State.serve_taking hq _)

theorem exec_evrRelease {s : State} {q : Req} (hq : s.taking 0x0801 = some q) :
    exec .evrRelease s = .next (if s.evr.latched then (s.releaseLatch 0).answer stOK else s.answer stNOTFOUND) :=
  congrArg Host.Outcome.next (State.serve_taking hq _)

theorem exec_orqSyncUnknown (s : State) (src key : Nat) :
    exec (.orqSyncUnknown src key) s = .next (if 1 ≤ key ∧ key ≤ 3 then s else s.note evSyncUnknown 0 9 1 [src, key]) := rfl

/-- Settles O29: responses by `placeResp_eq`, tickets by `exec_deferredWorkEnd` and `exec_getResult`, the latch by
`exec_evrLatch` and `exec_evrRelease`. -/
theorem mailboxRows : Obligations.MailboxRows := by
  unfold Obligations.MailboxRows
  refine ⟨?response, ?timeout, ?workEnd, ?info, ?result, ?busy, ?unknownKey, ?knownKey, ?latch, ?latchAgain, ?release,
    ?releaseNone⟩
  case response =>
    intro s q r hq hr
    have hrun : exec .mailboxResponse s = .next (s.placeResp q r) := by
      refine congrArg Host.Outcome.next ?_
      rw [hq]
      dsimp only
      rw [hr]
    obtain ⟨hbusy, hdone⟩ := s.respPlaced_done q r
    rw [State.placeResp_eq] at hrun
    refine ⟨_, hrun, ?_, ?_, ?_, hbusy, hdone, rfl, rfl⟩
    all_goals dsimp only; rw [State.respPlaced_mb]
  case timeout =>
    intro s q hq
    have hrun : exec .mailboxTimeout s = .next
        ((s.placeResp q ⟨stTIMEOUT, 0xFF, 0xFFFF, []⟩).note evMbTimeout 1 0xC 0 [q.cmd, q.tag]) := by
      refine congrArg Host.Outcome.next ?_
      rw [hq]
    obtain ⟨hbusy, hdone⟩ := s.respPlaced_done q ⟨stTIMEOUT, 0xFF, 0xFFFF, []⟩
    rw [State.placeResp_eq] at hrun
    refine ⟨_, hrun, ?_, ?_, ?_, ?_, ?_, recorded_note rfl⟩
    · rw [State.note_mb]; dsimp only; rw [State.respPlaced_mb]
    · rw [State.note_mb]; dsimp only; rw [State.respPlaced_mb]
    · rw [State.rd_note _ _ _ _ _ _ _ _ _ _ (by decide)]; exact hbusy
    · rw [State.rd_note _ _ _ _ _ _ _ _ _ _ (by decide)]; exact hdone
    · exact State.note_mem ..
  case workEnd =>
    intro s n k r hn hk hr hp
    refine ⟨_, exec_deferredWorkEnd hk hr hp, ?_⟩
    rw [State.postTicket_some hk]
    exact ⟨bitOf_asyncDone _ hn _ _, kfind_kset_same .., rfl, rfl⟩
  case info => exact fun s q hq => congrArg Host.Outcome.next (State.serve_taking hq _)
  case result =>
    exact fun s q k r hq hn hk hr => ⟨_, exec_getResult_ended hq hn hk hr, kfind_kdel_same .., bitOf_asyncDone _ hn _ _,
      rfl, rfl, rfl⟩
  case busy => exact fun s q k => exec_getResult_running
  case unknownKey =>
    intro s src key hkey
    refine ⟨_, (exec_orqSyncUnknown s src key).trans (congrArg _ (if_neg (by omega))), ?_⟩
    exact ⟨State.note_mb .., State.note_mem .., State.note_out .., recorded_note rfl⟩
  case knownKey => exact fun s src key h h' => (exec_orqSyncUnknown s src key).trans (congrArg _ (if_pos ⟨h, h'⟩))
  case latch =>
    intro s q hq hl
    have hrun := exec_evrLatch hq
    rw [hl] at hrun
    refine ⟨_, hrun, State.note_latched .., rfl, State.note_mem .., ?_⟩
    exact recorded_note_buf (e := { s with evr.latched := true, evr.flushing := false }) (p := [s.evr.newest]) id rfl
      List.prefix_rfl
  case latchAgain =>
    intro s q hq hl
    have hrun := exec_evrLatch hq
    rwa [hl] at hrun
  case release =>
    intro s q hq hl
    have hrun := exec_evrRelease hq
    rwa [hl] at hrun
  case releaseNone =>
    intro s q hq hl
    have hrun := exec_evrRelease hq
    rwa [hl] at hrun

end Sys2Proof.Machine
end

section
/-! PROOFS. Time: the step counter, the messages of PTP, the PPS input, `TIM_SET`, the snapshot, and the triggers. -/

namespace Sys2Proof.Machine
open Sys2Proof Safety

/-! ### The step counter -/

/-- The step counter at a tick: one held tick is used up, or the count advances (R615). -/
def State.stepCounted (s : State) : State :=
  if 0 < s.time.hold then { s with time.hold := s.time.hold - 1 }
  else { s with time.step := (s.time.step + 1) % 2 ^ 48 }

theorem State.stepCounted_held {s : State} (h : 0 < s.time.hold) : s.stepCounted = { s with time.hold := s.time.hold - 1 } :=
  if_pos h

theorem State.stepCounted_free {s : State} (h : s.time.hold = 0) :
    s.stepCounted = { s with time.step := (s.time.step + 1) % 2 ^ 48 } := if_neg (by omega)

/-- `RAW` alone moves to the next tick. -/
theorem State.toNextTick_eq_raw (s : State) : ∃ raw, s.toNextTick = { s with time.raw := raw } := ⟨_, rfl⟩

/-- `TICK` goes out on each port of a list, and nothing else changes. -/
theorem foldl_emitTick (l : List Nat) (s : State) :
    l.foldl (fun (s : State) p => s.emit (.ctrl p cbTICK [s.time.step, s.rd F.TIM_STATUS.LOCKED])) s =
      { s with out := s.out ++ l.map fun p => .ctrl p cbTICK [s.time.step, s.rd F.TIM_STATUS.LOCKED] } := by
  induction l generalizing s with
  | nil => simp
  | cons p l ih =>
    rw [List.foldl_cons, ih, List.map_cons]
    simp [State.emit, State.rd, State.rreg]

/-- The state after a tick: its count goes out on every port whose channel is up. -/
def State.ticked (s : State) : State :=
  { s.stepCounted with out := s.stepCounted.out ++ (((List.range 24).filter fun p => s.stepCounted.chanUp p).map fun p =>
      .ctrl p cbTICK [s.stepCounted.time.step, s.stepCounted.rd F.TIM_STATUS.LOCKED]) }

theorem exec_stepTick {s : State} (hc : s.flag F.TIM_STATUS.COARSE = false) :
    exec .stepTick s = .next s.toNextTick.ticked := by
  show execStepTick s = _
  unfold execStepTick State.ticked
  rw [if_neg (by rw [hc]; decide)]
  generalize s.toNextTick = u
  exact congrArg Host.Outcome.next (foldl_emitTick _ u.stepCounted)

/-- What a tick sends, and what it leaves. -/
theorem State.ticked_sent {s u : State} {r : Nat} (hu : u = { s with time.raw := r }) {p : Nat} (hp : p < 24)
    (hup : s.chanUp p = true) :
    Output.ctrl p cbTICK [u.ticked.time.step, s.rd F.TIM_STATUS.LOCKED] ∈ u.ticked.out := by
  have hregs : u.stepCounted.regs = s.regs := by
    subst hu
    unfold State.stepCounted
    split <;> rfl
  have hchan : u.stepCounted.chanUp p = s.chanUp p := by
    unfold State.chanUp State.laneState
    rw [State.rd_congr hregs]
  have hlock : u.stepCounted.rd F.TIM_STATUS.LOCKED = s.rd F.TIM_STATUS.LOCKED := State.rd_congr hregs ..
  rw [← hlock]
  refine List.mem_append_right _ (List.mem_map.mpr ⟨p, ?_, rfl⟩)
  exact List.mem_filter.mpr ⟨List.mem_range.mpr hp, hchan.trans hup⟩

section
variable {s : State} {port step : Nat} (locked : Bool)

/-- The port of this module's parent. -/
def State.parentPort (s : State) (port : Nat) : Prop :=
  s.ptpPort port = true ∧ s.role = roSLAVE ∧ s.rd F.TIM_STATUS.PARENT = port

/-- The parent's count against the own one. -/
theorem exec_tick (h : s.parentPort port) :
    exec (.tick port step locked) s = .next (
      if s.time.step < step then ({ s with time.step := step, time.hold := 0 } : State).note evStepSlip 1 0 0 [step - s.time.step, 0]
      else if s.time.step - step = 0 ∨ s.time.step - step = s.time.hold then s
      else if s.time.step - step ≤ 2 ^ 20 then
        ({ s with time.hold := s.time.step - step } : State).note evStepSlip 1 0 0 [s.time.step - step, 1]
      else ({ s with time.step := step, time.hold := 0 } : State).note evStepReset 1 0 0 [s.time.step, step]) := by
  obtain ⟨hport, hrole, hparent⟩ := h
  refine congrArg Host.Outcome.next (if_neg ?_)
  simp [hport, hrole, hparent]

end

/-! ### Messages of PTP -/

/-- While a reference is there a PTP block leaves (R595). -/
theorem State.sendPtp_fine {s : State} (h : s.flag F.TIM_STATUS.COARSE = false) (p kind : Nat) (fs : List Int) :
    s.sendPtp p kind fs = s.emit (.ptp p kind fs) := if_neg (by rw [h]; decide)

theorem State.announceDs_emit (s : State) (o : Output) : (s.emit o).announceDs = s.announceDs := rfl

section
variable {s : State} {port domain seqId : Nat}

theorem exec_syncInterval (hm : s.ptpRole port = 1) (hc : s.flag F.TIM_STATUS.COARSE = false) :
    exec (.syncInterval port) s = .next { s with
      out := s.out ++
        [Output.ptp port ptpSYNC [(s.rd F.TIM_CFG.DOMAIN : Int), ((kget s.time.syncs port 0 % 2 ^ 16 : Nat) : Int)]] ++
        [Output.ptp port ptpFOLLOW_UP
          [(s.rd F.TIM_CFG.DOMAIN : Int), ((kget s.time.syncs port 0 % 2 ^ 16 : Nat) : Int), s.txStamp port]] ++
        if kget s.time.syncs port 0 % 8 = 0 then
          [Output.ptp port ptpANNOUNCE [(s.rd F.TIM_CFG.DOMAIN : Int), ((kget s.time.syncs port 0 / 8 % 2 ^ 16 : Nat) : Int),
            (s.announceDs.gmNode : Int), (s.announceDs.gmFpr : Int), (s.announceDs.prio1 : Int),
            (s.announceDs.clockClass : Int), 128, (s.announceDs.stepsRemoved : Int)]]
        else []
      time.syncs := kset s.time.syncs port (kget s.time.syncs port 0 + 1) } := by
  refine congrArg Host.Outcome.next ((if_neg (not_not_intro hm)).trans ?_)
  dsimp only
  rw [State.sendPtp_fine hc, State.sendPtp_fine (show State.flag (s.emit _) _ = false from hc), State.announceDs_emit,
    State.announceDs_emit]
  split
  · rw [State.sendPtp_fine (show State.flag ((s.emit _).emit _) _ = false from hc)]
    rfl
  · rw [List.append_nil]
    rfl

theorem exec_sync {t2 : Int} (hp : s.slavePort port domain = true) (hc : s.flag F.TIM_STATUS.COARSE = false) :
    exec (.sync port domain seqId t2) s = .next { s with
      time.exch := kset s.time.exch port ⟨seqId, none, t2 - s.ingress port, s.txStamp port, none⟩
      out := s.out ++ [Output.ptp port ptpDELAY_REQ [(domain : Int), (seqId : Int)]] } :=
  congrArg Host.Outcome.next ((if_neg (by rw [hp]; decide)).trans (State.sendPtp_fine (by exact hc) ..))

theorem exec_followUp {v : Int} {x : Exch} (hp : s.slavePort port domain = true) (hx : kfind s.time.exch port = some x)
    (hs : x.seq = seqId) : exec (.followUp port domain seqId v) s = .next (s.endExchange port { x with t1 := some v }) := by
  refine congrArg Host.Outcome.next ((if_neg (by rw [hp]; decide)).trans ?_)
  rw [hx]
  exact if_pos hs

theorem exec_delayResp {v : Int} {x : Exch} (hp : s.slavePort port domain = true) (hx : kfind s.time.exch port = some x)
    (hs : x.seq = seqId) : exec (.delayResp port domain seqId v) s = .next (s.endExchange port { x with t4 := some v }) := by
  refine congrArg Host.Outcome.next ((if_neg (by rw [hp]; decide)).trans ?_)
  rw [hx]
  exact if_pos hs

/-- An exchange that lacks one of the two times is kept. -/
theorem State.endExchange_open {x : Exch} (h : x.t1 = none ∨ x.t4 = none) :
    s.endExchange port x = { s with time.exch := kset s.time.exch port x } := by
  unfold State.endExchange
  obtain h | h := h
  · rw [h]
  · rw [h]
    cases x.t1 <;> rfl

/-- Both times give the path delay and the offset, which the lock and the servo take (R602, R605, R606). -/
theorem State.endExchange_closed {x : Exch} {v w : Int} (h1 : x.t1 = some v) (h4 : x.t4 = some w) :
    s.endExchange port x = ((((({ s with time.exch := kdel s.time.exch port } : State).wr F.TIM_PORT.MPD
      (min 65535 ((((x.t2 - v) + (w - x.t3)) / 2).toNat * 10 / 256)) port).noteLength port
        ((((x.t2 - v) + (w - x.t3)) / 2).toNat * 100 / (256 * 49))).judgeLock
          ((x.t2 - v) - ((((x.t2 - v) + (w - x.t3)) / 2) + s.asym port))).servo
            ((x.t2 - v) - ((((x.t2 - v) + (w - x.t3)) / 2) + s.asym port)) 0) := by
  unfold State.endExchange
  rw [h1, h4]

theorem exec_delayReq {t4 : Int} (hm : s.ptpRole port = 1) (hd : domain = s.rd F.TIM_CFG.DOMAIN)
    (hc : s.flag F.TIM_STATUS.COARSE = false) : exec (.delayReq port domain seqId t4) s = .next
      (s.emit (.ptp port ptpDELAY_RESP [(domain : Int), (seqId : Int), t4 - s.ingress port])) :=
  congrArg Host.Outcome.next ((if_pos ⟨hm, hd⟩).trans (State.sendPtp_fine hc ..))

theorem exec_announce {ds : AnnounceDs} (hp : s.ptpPort port = true) (hd : domain = s.rd F.TIM_CFG.DOMAIN)
    (hr : ds.stepsRemoved < 255) : exec (.announce port domain ds) s = .next
      (({ s with time.anns := kset s.time.anns port ds } : State).selectParent false) := by
  refine congrArg Host.Outcome.next (if_neg ?_)
  rintro (h | h | h)
  · rw [hp] at h; exact absurd h (by decide)
  · exact h hd
  · omega

end

/-! ### PPS and `TIM_SET` -/

/-- The offset of an accepted edge from the nearest whole second, in ns. -/
def State.ppsOffset (s : State) : Int :=
  if s.nt % 1000000000 < 500000000 then ((s.nt % 1000000000 : Nat) : Int) else ((s.nt % 1000000000 : Nat) : Int) - 1000000000

theorem exec_ppsEdge {s : State} (hg : s.flag F.TIM_STATUS.GM = true) (he : s.flag F.TIM_CFG.PPS_EN = true)
    (ha : s.ppsAccepts = true) : exec .ppsEdge s = .next
      (((({ s with time.ppsAt := some s.time.raw, time.pps := 1 } : State).wr F.TIM_PPS.VALUE s.nt).beMaster).servo
        (s.ppsOffset * 256) 2) :=
  congrArg Host.Outcome.next (if_neg (by rw [hg, he, ha]; decide))

theorem State.leaveDormant_time (s : State) : s.leaveDormant.time = s.time := s.leaveDormant_within.same .time rfl

theorem State.nt_leaveDormant (s : State) : s.leaveDormant.nt = s.nt := by
  simp only [State.nt, State.ntInt, State.leaveDormant_time]

theorem State.timSet_master {s : State} (h : s.flag F.TIM_STATUS.GM = true) :
    s.timSet = (s.stepTime ((s.nt : Int) - s.rd F.TIM_SET.VALUE) 1).wr F.TIM_SET_CTL.STATUS stOK := if_pos h

theorem State.timSet_other {s : State} (h : s.flag F.TIM_STATUS.GM = false) : s.timSet = s.wr F.TIM_SET_CTL.STATUS stPOLICY :=
  if_neg (by rw [h]; decide)

/-- What the snapshot registers read after the latch (R620). -/
theorem State.latchNow_reads (s : State) : s.latchNow.rd F.TIM_SNAP_RAW.RAW = s.time.raw % 2 ^ 64 ∧
    s.latchNow.rd F.TIM_SNAP_STEP.STEP = s.time.step % 2 ^ 48 ∧ s.latchNow.rd F.TIM_SNAP_STEP.EPOCH = s.time.epoch % 2 ^ 16 := by
  unfold State.latchNow
  refine ⟨?_, ?_, ?_⟩ <;> simp (disch := decide) only [State.rd_wr_apart, State.rd_wr_same] <;> rfl

theorem State.latchNow_out (s : State) : s.latchNow.out = s.out := rfl

theorem exec_timNowRead (s : State) : exec .timNowRead s = .next (s.leaveDormant.latchNow.emit (.bar0 s.nt)) := rfl

/-! ### Triggers -/

section
variable {s : State} {n : Nat} {x : Trig}

/-- A trigger that fires: it is armed no more, and `FIRED` is set. -/
def State.trigFired (s : State) (n : Nat) : State :=
  (({ s with time.trigs := kdel s.time.trigs n } : State).wr F.TIM_TRIG_CTL.ARM 0 n).wr F.TIM_TRIG_CTL.FIRED 1 n

/-- A trigger of firmware acts through the firmware's own command (R618). -/
theorem State.trigFire_firmware (hn : 12 ≤ n) : s.trigFire n x false = s.trigFired n := if_pos hn

theorem State.trigFire_msix (hn : n < 12) (ha : bitOf x.ctl 4 = true) (late : Bool) : s.trigFire n x late =
    (if late then (s.trigFired n).wr F.TIM_TRIG_CTL.LATE 1 n else s.trigFired n).emit (.msix (bitsOf x.ctl 21 16)) :=
  (if_neg (by omega)).trans (if_pos ha)

theorem State.ctxState_trigFired (s : State) (n slot : Nat) : (s.trigFired n).ctxState slot = s.ctxState slot :=
  (State.rd_wr_away _ _ _ _ _ _ (by decide) (by decide)).trans (State.rd_wr_away _ _ _ _ _ _ (by decide) (by decide))

/-- A trigger whose action is an event adds to it where its context is active, and is dropped elsewhere (R617). -/
theorem State.trigFire_event (hn : n < 12) (ha : bitOf x.ctl 4 = false) : s.trigFire n x false =
    if s.ctxState (bitsOf x.ctl 15 8) = ctxACTIVE then
      (s.trigFired n).updateEvent (bitsOf x.ctl 15 8) (bitsOf x.ctl 21 16) true 1
    else (s.trigFired n).note evTrigDrop 0 0 0 [n, bitsOf x.ctl 15 8] := by
  rw [← s.ctxState_trigFired n]
  exact (if_neg (by omega)).trans (if_neg (by rw [ha]; decide))

theorem exec_triggerFire (hx : kfind s.time.trigs n = some x) (hh : s.trigHolds x = true) :
    exec (.triggerFire n) s = .next (s.trigFire n x false) := by
  refine congrArg Host.Outcome.next ?_
  rw [hx]
  exact if_pos hh

theorem exec_triggerArm (hn : n < 12) (val : Nat) :
    exec (.triggerArm n val) s = .next ((s.leaveDormant.trigWrite n val).trigArm n) :=
  congrArg Host.Outcome.next ((if_neg (by omega)).trans (if_neg (by omega)))

theorem exec_triggerArm_firmware (hn : 12 ≤ n) (hn' : n < 16) (val : Nat) :
    exec (.triggerArm n val) s = .next (s.leaveDormant.trigReject n) :=
  congrArg Host.Outcome.next ((if_neg (by omega)).trans (if_pos hn))

theorem exec_triggerDisarm (hn : n < 12) (val : Nat) :
    exec (.triggerDisarm n val) s = .next ((s.leaveDormant.trigWrite n val).trigDisarm n) :=
  congrArg Host.Outcome.next ((if_neg (by omega)).trans (if_neg (by omega)))

theorem exec_triggerDisarm_firmware (hn : 12 ≤ n) (hn' : n < 16) (val : Nat) :
    exec (.triggerDisarm n val) s = .next (s.leaveDormant.trigReject n) :=
  congrArg Host.Outcome.next ((if_neg (by omega)).trans (if_pos hn))

/-- Writing a trigger's control fields leaves the block's time as it is. -/
theorem State.time_written (s : State) (n val : Nat) : (s.leaveDormant.trigWrite n val).time = s.time := by
  unfold State.trigWrite
  dsimp only
  split_ifs <;> simp only [State.wr_time, State.leaveDormant_time]

/-- The trigger that a write arms. -/
def State.trigOf (s : State) (n : Nat) : Trig := ⟨s.rd F.TIM_TRIG_TGT.TARGET n, (s.rreg .TIM_TRIG_CTL n).toNat⟩

theorem State.trigArm_waits (h : s.trigHolds (s.trigOf n) = false) :
    s.trigArm n = ({ s with time.trigs := kset s.time.trigs n (s.trigOf n) } : State).wr F.TIM_TRIG_CTL.ARM 1 n :=
  if_neg (Bool.eq_false_iff.mp h)

theorem State.trigArm_late (h : s.trigHolds (s.trigOf n) = true) : s.trigArm n = s.trigFire n (s.trigOf n) true := if_pos h

end

/-- Settles O34, clause by clause: the tick by `exec_stepTick` and `exec_tick`, PTP by the lemma of each message, the triggers
by what `trigArm` and `trigFire` do. -/
theorem timeRows : Obligations.TimeRows := by
  unfold Obligations.TimeRows
  refine ⟨?free, ?held, ?ahead, ?behind, ?farBehind, ?agrees, ?sync, ?announce, ?slaveSync, ?followOpen, ?followClosed,
    ?respOpen, ?respClosed, ?delayReq, ?announced, ?silent, ?edge, ?edgeEarly, ?noEdge, ?set, ?setElsewhere, ?now, ?arm,
    ?armLate, ?armFirmware, ?disarm, ?disarmFirmware, ?fireMsix, ?fireEvent, ?fireDropped, ?fireFirmware⟩
  case free =>
    intro s hc hh
    obtain ⟨r, hr⟩ := s.toNextTick_eq_raw
    refine ⟨_, exec_stepTick hc, ?_, ?_, fun p hp hup => State.ticked_sent hr hp hup, ?_, ?_⟩
    all_goals
      rw [hr]
      dsimp only [State.ticked]
      rw [State.stepCounted_free (by exact hh)]
    exact hh
  case held =>
    intro s hc hh
    obtain ⟨r, hr⟩ := s.toNextTick_eq_raw
    refine ⟨_, exec_stepTick hc, ?_, ?_, fun p hp hup => State.ticked_sent hr hp hup, ?_, ?_⟩
    all_goals
      rw [hr]
      dsimp only [State.ticked]
      rw [State.stepCounted_held (by exact hh)]
  case ahead =>
    intro s port step locked hp hr hpar h
    rw [exec_tick locked ⟨hp, hr, hpar⟩, if_pos h]
  case behind =>
    intro s port step locked hp hr hpar h hne hle
    rw [exec_tick locked ⟨hp, hr, hpar⟩, if_neg (by omega), if_neg (by omega), if_pos hle]
  case farBehind =>
    intro s port step locked hp hr hpar h hne hlt
    rw [exec_tick locked ⟨hp, hr, hpar⟩, if_neg (by omega), if_neg (by omega), if_neg (by omega)]
  case agrees =>
    intro s port step locked hp hr hpar h
    rw [exec_tick locked ⟨hp, hr, hpar⟩, if_neg (by omega), if_pos (by omega)]
  case sync =>
    intro s port hm hc hn
    rw [exec_syncInterval hm hc, if_neg hn, List.append_nil]
  case announce =>
    intro s port hm hc hn
    rw [exec_syncInterval hm hc, if_pos hn]
  case slaveSync => exact fun s port domain seqId t2 => exec_sync
  case followOpen =>
    intro s port domain seqId v x hp hx hs h4
    exact (exec_followUp hp hx hs).trans (congrArg _ (State.endExchange_open (.inr h4)))
  case followClosed =>
    intro s port domain seqId v w x hp hx hs h4
    exact (exec_followUp hp hx hs).trans (congrArg _ (State.endExchange_closed rfl h4))
  case respOpen =>
    intro s port domain seqId v x hp hx hs h1
    exact (exec_delayResp hp hx hs).trans (congrArg _ (State.endExchange_open (.inl h1)))
  case respClosed =>
    intro s port domain seqId v w x hp hx hs h1
    exact (exec_delayResp hp hx hs).trans (congrArg _ (State.endExchange_closed h1 rfl))
  case delayReq => exact fun s port domain seqId t4 => exec_delayReq
  case announced => exact fun s port domain ds => exec_announce
  case silent => exact fun s h => congrArg Host.Outcome.next (if_neg (not_not_intro h))
  case edge =>
    intro s hg he ha hlt
    rw [exec_ppsEdge hg he ha, State.ppsOffset, if_pos hlt]
  case edgeEarly =>
    intro s hg he ha hle
    rw [exec_ppsEdge hg he ha, State.ppsOffset, if_neg (by omega)]
  case noEdge => exact fun s h => congrArg Host.Outcome.next (if_pos h)
  case set =>
    intro s h
    have hval : s.leaveDormant.rd F.TIM_SET.VALUE = s.rd F.TIM_SET.VALUE := s.rd_leaveDormant_above _ _ (by decide)
    refine congrArg Host.Outcome.next ((State.timSet_master ?_).trans ?_)
    · rw [State.flag_leaveDormant _ (by decide), h]
    · rw [State.nt_leaveDormant, hval]
  case setElsewhere =>
    intro s h
    exact congrArg Host.Outcome.next (State.timSet_other (by rw [State.flag_leaveDormant _ (by decide), h]))
  case now =>
    intro s
    obtain ⟨hraw, hstep, hepoch⟩ := s.leaveDormant.latchNow_reads
    rw [State.leaveDormant_time] at hraw hstep hepoch
    have hout : s.leaveDormant.out = s.out := s.leaveDormant_within.same .out rfl
    have hmem := exec_same (exec_timNowRead s) (p := .mem) (by simp [reach])
    refine ⟨_, exec_timNowRead s, ?_, ?_, ?_, ?_, hmem⟩
    · rw [State.emit_out, State.latchNow_out, hout]
    · rw [State.rd_emit, hraw]
    · rw [State.rd_emit, hstep]
    · rw [State.rd_emit, hepoch]
  case arm =>
    rintro s n val x hn rfl hh
    rw [← s.time_written n val]
    exact (exec_triggerArm hn val).trans (congrArg _ (State.trigArm_waits hh))
  case armLate =>
    rintro s n val x hn rfl hh ha
    rw [← s.time_written n val]
    exact (exec_triggerArm hn val).trans (congrArg _ ((State.trigArm_late hh).trans (State.trigFire_msix hn ha true)))
  case armFirmware => exact fun s n val hn hn' => exec_triggerArm_firmware hn hn' val
  case disarm =>
    intro s n val hn
    rw [← s.time_written n val]
    exact exec_triggerDisarm hn val
  case disarmFirmware => exact fun s n val hn hn' => exec_triggerDisarm_firmware hn hn' val
  case fireMsix =>
    intro s n x hx hh hn ha
    rw [exec_triggerFire hx hh, State.trigFire_msix hn ha]
    rfl
  case fireEvent =>
    intro s n x hx hh hn ha hs
    rw [exec_triggerFire hx hh, State.trigFire_event hn ha, if_pos hs]
    rfl
  case fireDropped =>
    intro s n x hx hh hn ha hs
    rw [exec_triggerFire hx hh, State.trigFire_event hn ha, if_neg hs]
    rfl
  case fireFirmware =>
    intro s n x hx hh hn _
    rw [exec_triggerFire hx hh, State.trigFire_firmware hn]
    rfl

end Sys2Proof.Machine
end

section
/-! PROOFS. The mirror pair: a frozen copy is recorded before the split. -/

namespace Sys2Proof.Machine
open Sys2Proof Safety

/-- Right after reset, with one region that holds a peer's mirror: the module keeps a copy, and its node, 0, is not below its
peer's, 0. -/
def State.copyKeeper : State := { State.reset with
  ms.regions := [(0, ⟨true, true, true, true, true, false, false, true, false, 0, 0, 4096⟩)] }

theorem copyKeeper_roomy : Roomy State.copyKeeper := ⟨rfl, rfl, by decide⟩

/-- With both paths down its copy is frozen, and that event goes on record before the split's. -/
theorem copyKeeper_events {t : State} (h : exec (.mirrorPathLost true) State.copyKeeper = .next t) :
    t.evr.buf.map EvRec.code = [evMemMirrorFrozen, evMirrorSplit] := by
  cases h
  rfl

/-- The first event on record behind an empty buffer is the one noted. -/
theorem noted_head {s t : State} {c v k x : Nat} (h : Noted s t c v k x) (hs : s.evr.buf = []) :
    (t.evr.buf.map EvRec.code).head? = some c := by
  obtain ⟨r, ⟨l, hl⟩, hc, -⟩ := h
  rw [← hl, hs]
  exact congrArg some hc

/-- Refutes O12: its last row has the split's event stand directly behind what was recorded before. On a module that keeps a
copy and does not act for its primary, because its node is not the lower, the event that its copy is frozen comes first
(Table 15-14): right after reset with one region of a peer's mirror and both paths down. -/
theorem not_mirrorHeartbeatRows : ¬ Obligations.MirrorHeartbeatRows := by
  rintro ⟨-, -, -, -, -, hsplit⟩
  obtain ⟨t, hrun, -, -, -, hrecorded⟩ := hsplit State.copyKeeper 0 (by decide) (by decide) (by decide)
  have hhead := noted_head (hrecorded copyKeeper_roomy) rfl
  rw [copyKeeper_events hrun] at hhead
  exact absurd hhead (by decide)

end Sys2Proof.Machine
end

section
/-! PROOFS. Attestation: what each SPDM request is answered while the security core runs, while it is away, and with SPDM
disabled. -/

namespace Sys2Proof.Machine
open Sys2Proof Safety

section
variable {s : State}

theorem State.spdm_ready (hb : s.spdmBusy = false) (he : s.flag F.SEC_POLICY.SPDM_EN = true) (code : Nat)
    (f : State → State) : s.spdm code f = f s := by
  unfold State.spdm
  rw [hb, he]
  rfl

theorem State.spdm_busy (hb : s.spdmBusy = true) (code : Nat) (f : State → State) :
    s.spdm code f = s.spdmError spBusy 0 := by
  unfold State.spdm
  rw [hb]
  rfl

theorem State.spdm_disabled (hb : s.spdmBusy = false) (he : s.flag F.SEC_POLICY.SPDM_EN = false) (code : Nat)
    (f : State → State) : s.spdm code f = s.spdmError spUnsupported code := by
  unfold State.spdm
  rw [hb, he]
  rfl

end

/-- Each request is answered through `State.spdm`, under its own code: by one answer where that gives one. -/
theorem exec_spdm_of {s : State} {u : Nat → State} (h : ∀ code f, s.spdm code f = u code)
    (slot off len index code : Nat) (signed : Bool) (nonce : List Nat) :
    exec .getVersion s = .next (u 0x84) ∧ exec .getCapabilities s = .next (u 0xE1) ∧
      exec .negotiateAlgorithms s = .next (u 0xE3) ∧ exec .getDigests s = .next (u 0x81) ∧
      exec (.getCertificate slot off len) s = .next (u 0x82) ∧ exec (.challenge slot nonce) s = .next (u 0x83) ∧
      exec (.getMeasurements index signed nonce) s = .next (u 0xE0) ∧
      exec (.spdmUnsupportedRequest code) s = .next (u code) :=
  ⟨congrArg _ (h _ _), congrArg _ (h _ _), congrArg _ (h _ _), congrArg _ (h _ _), congrArg _ (h _ _), congrArg _ (h _ _),
    congrArg _ (h _ _), congrArg _ (h _ _)⟩

/-- The answer to a request of measurements: how many blocks, the blocks, and a signature over them where it is asked for. -/
def State.measurementsAnswer (s : State) (n : Nat) (bs : List (BitVec 8)) (signed : Bool) (nonce : List Nat) : State :=
  (s.emit (.spdm 0x60 (n :: bs.map BitVec.toNat ++
    if signed then s.signed (BitVec.ofNat 8 n :: bs ++ nonce.map (BitVec.ofNat 8)) else []))).tick

section
variable {s : State} (hb : s.spdmBusy = false) (he : s.flag F.SEC_POLICY.SPDM_EN = true) (signed : Bool) (nonce : List Nat)
include hb he

theorem exec_getCertificate (slot off len : Nat) : exec (.getCertificate slot off len) s = .next (
    if slot ≠ 0 ∨ Config.certChain.length ≤ off then s.spdmError spInvalid 0
    else s.emit (.spdm 0x02 ([0, ((Config.certChain.drop off).take len).length, Config.certChain.length - off -
      ((Config.certChain.drop off).take len).length] ++ ((Config.certChain.drop off).take len).map BitVec.toNat))) :=
  congrArg Host.Outcome.next (State.spdm_ready hb he _ _)

theorem exec_challenge (slot : Nat) : exec (.challenge slot nonce) s = .next (
    if slot ≠ 0 then s.spdmError spInvalid 0
    else (s.emit (.spdm 0x03 ([0, 1] ++ (sha256 Config.certChain).map BitVec.toNat ++
      s.signed (sha256 Config.certChain ++ nonce.map (BitVec.ofNat 8))))).tick) :=
  congrArg Host.Outcome.next (State.spdm_ready hb he _ _)

theorem exec_getMeasurements_count :
    exec (.getMeasurements 0 signed nonce) s = .next (s.measurementsAnswer 9 [] signed nonce) :=
  congrArg Host.Outcome.next ((State.spdm_ready hb he _ _).trans (if_neg (by omega)))

theorem exec_getMeasurements_one {index : Nat} (h1 : 1 ≤ index) (h9 : index ≤ 9) :
    exec (.getMeasurements index signed nonce) s = .next (s.measurementsAnswer 1 (s.measurement index) signed nonce) := by
  refine congrArg Host.Outcome.next ((State.spdm_ready hb he _ _).trans ((if_neg (by omega)).trans ?_))
  dsimp only
  rw [if_neg (by omega), if_neg (by omega), if_neg (by omega), List.flatMap_singleton]
  rfl

theorem exec_getMeasurements_all : exec (.getMeasurements 0xFF signed nonce) s = .next
    (s.measurementsAnswer 9 ((List.range 9).flatMap fun i => s.measurement (i + 1)) signed nonce) := by
  refine congrArg Host.Outcome.next ((State.spdm_ready hb he _ _).trans ((if_neg (by omega)).trans ?_))
  dsimp only
  rw [if_neg (by omega), if_pos rfl, if_neg (by omega), List.flatMap_map, List.length_map, List.length_range]
  rfl

theorem exec_getMeasurements_unknown {index : Nat} (h9 : 9 < index) (hne : index ≠ 0xFF) :
    exec (.getMeasurements index signed nonce) s = .next (s.spdmError spInvalid 0) :=
  congrArg Host.Outcome.next ((State.spdm_ready hb he _ _).trans (if_pos ⟨h9, hne⟩))

end

theorem State.measurementsAnswer_unsigned (s : State) (n : Nat) (bs : List (BitVec 8)) (nonce : List Nat) :
    s.measurementsAnswer n bs false nonce = (s.emit (.spdm 0x60 (n :: bs.map BitVec.toNat))).tick := by
  unfold State.measurementsAnswer
  rw [if_neg (by decide), List.append_nil]

/-- Settles O40: each request by its answer while the core runs, and all by `exec_spdm_of` while it is away or SPDM is
disabled. -/
theorem attestationRows : Obligations.AttestationRows := by
  unfold Obligations.AttestationRows
  refine ⟨?version, ?capabilities, ?algorithms, ?digests, ?chain, ?otherChain, ?challenge, ?otherChallenge, ?one, ?oneSigned,
    ?countAndAll, ?unknown, ?unsupported, ?away, ?disabled⟩
  case version => exact fun s hb he => congrArg Host.Outcome.next (State.spdm_ready hb he _ _)
  case capabilities => exact fun s hb he => congrArg Host.Outcome.next (State.spdm_ready hb he _ _)
  case algorithms => exact fun s hb he => congrArg Host.Outcome.next (State.spdm_ready hb he _ _)
  case digests => exact fun s hb he => congrArg Host.Outcome.next (State.spdm_ready hb he _ _)
  case chain =>
    intro s slot off len hb he hs
    rw [exec_getCertificate hb he]
    exact congrArg Host.Outcome.next (if_congr (or_iff_right (not_not_intro hs)) rfl rfl)
  case otherChain =>
    intro s slot off len hb he hs
    rw [exec_getCertificate hb he, if_pos (.inl hs)]
  case challenge =>
    intro s slot nonce hb he hs
    rw [exec_challenge hb he, if_neg (not_not_intro hs)]
  case otherChallenge =>
    intro s slot nonce hb he hs
    rw [exec_challenge hb he, if_pos hs]
  case one =>
    intro s index nonce hb he h1 h9
    rw [exec_getMeasurements_one hb he false nonce h1 h9, State.measurementsAnswer_unsigned]
  case oneSigned => exact fun s index nonce hb he h1 h9 => exec_getMeasurements_one hb he true nonce h1 h9
  case countAndAll =>
    intro s nonce hb he
    rw [exec_getMeasurements_count hb he, exec_getMeasurements_all hb he, State.measurementsAnswer_unsigned,
      State.measurementsAnswer_unsigned]
    exact ⟨rfl, rfl⟩
  case unknown => exact fun s index signed nonce hb he => exec_getMeasurements_unknown hb he signed nonce
  case unsupported => exact fun s code hb he => congrArg Host.Outcome.next (State.spdm_ready hb he _ _)
  case away =>
    exact fun s slot off len index code signed nonce hb =>
      exec_spdm_of (u := fun _ => s.spdmError spBusy 0) (State.spdm_busy hb) slot off len index code signed nonce
  case disabled =>
    exact fun s slot off len index code signed nonce hb he =>
      exec_spdm_of (State.spdm_disabled hb he) slot off len index code signed nonce

end Sys2Proof.Machine
end

section
/-! PROOFS. The delivery of an image over the service port, and its verification. -/

namespace Sys2Proof.Machine
open Sys2Proof Safety

section
variable {s : State} (hp : s.portServed = true)
include hp

/-! ### Sessions -/

theorem exec_xferOpen_refused {st : Nat} (h : s.openRefused = some st) (resume : Bool) (blocks : Nat) :
    exec (.xferOpen resume blocks) s = .next (s.xferReply 0x01 0 0 0 st) := by
  refine congrArg Host.Outcome.next ((if_neg (by rw [hp]; decide)).trans ?_)
  rw [h]

/-- The number of the session that a module opens next. -/
def State.newSession (s : State) : Nat := (Config.word s.free).toNat % 2 ^ 16

/-- A session is open for a number of blocks. -/
def State.sessionOpened (s : State) (id blocks : Nat) : State :=
  ((s.tick.wr F.UPD_XFER.TOTAL blocks).wr F.UPD_XFER.SESSION id).wr F.UPD_XFER.OPEN 1

omit hp in
theorem State.startReceiving_free (s : State) : s.startReceiving.free = s.free := rfl

theorem exec_xferOpen_new (h : s.openRefused = none) (blocks : Nat) : exec (.xferOpen false blocks) s = .next
    ((s.startReceiving.sessionOpened s.newSession blocks).xferReply 0x01 s.newSession 0 0 stOK) := by
  refine congrArg Host.Outcome.next ((if_neg (by rw [hp]; decide)).trans ?_)
  rw [h]
  dsimp only
  rw [if_neg (fun hr => absurd hr.1 (by decide)), State.startReceiving_free]
  rfl

theorem exec_xferOpen_resumed (h : s.openRefused = none) (hr : s.rd F.UPD_SLOT.STATE s.targetSlot = slRECEIVING)
    (blocks : Nat) : exec (.xferOpen true blocks) s = .next ((s.sessionOpened s.newSession blocks).xferReply 0x01 s.newSession
      (s.sessionOpened s.newSession blocks).firstMissing 0 stOK) := by
  refine congrArg Host.Outcome.next ((if_neg (by rw [hp]; decide)).trans ?_)
  rw [h]
  dsimp only
  rw [if_pos ⟨rfl, hr⟩]
  rfl

theorem exec_xferClose_whole {session : Nat} (hs : s.inSession session = true) (hm : s.firstMissing = s.rd F.UPD_XFER.TOTAL) :
    exec (.xferClose session) s = .next
      (((s.wr F.UPD_XFER.OPEN 0).wr F.UPD_SLOT.STATE slVERIFYING s.targetSlot).xferReply 0x04 session 0 0 stOK) :=
  congrArg Host.Outcome.next ((if_neg (by rw [hp]; decide)).trans ((if_pos hs).trans (if_pos hm)))

theorem exec_xferClose_again {session : Nat} (hs : s.inSession session = false)
    (hr : s.rd F.UPD_SLOT.STATE s.targetSlot = slRECEIVED) (ho : s.flag F.UPD_XFER.OPEN = false) :
    exec (.xferClose session) s = .next
      ((s.wr F.UPD_SLOT.STATE slVERIFYING s.targetSlot).xferReply 0x04 session 0 0 stOK) :=
  congrArg Host.Outcome.next ((if_neg (by rw [hp]; decide)).trans ((if_neg (Bool.eq_false_iff.mp hs)).trans
    (if_pos ⟨hr, by rw [ho]; rfl⟩)))

/-! ### Fragments and blocks -/

theorem exec_xferData_placed {session block frag : Nat} {data : List Nat} (hs : s.inSession session = true) (hf : frag < 64)
    (hd : data.length = 1024) (hb : block < s.rd F.UPD_XFER.TOTAL) :
    exec (.xferData session block frag data) s = .next ((s.setImage s.targetSlot { s.image s.targetSlot with
      frags := kset (s.image s.targetSlot).frags (block * 64 + frag) (data.map (BitVec.ofNat 8)) }).xferReply
        0x02 session block frag stOK) :=
  congrArg Host.Outcome.next ((if_neg (by rw [hp]; decide)).trans (if_pos ⟨hs, hf, hd, hb⟩))

theorem exec_blockEnd_missing {session block : Nat} (hs : s.inSession session = true) (hb : block < s.rd F.UPD_XFER.TOTAL)
    (hg : (s.image s.targetSlot).gather block = none) : exec (.blockEnd session block) s = .next
      ((s.setImage s.targetSlot ((s.image s.targetSlot).discard block)).xferReply 0x03 session block 0 stINCOMPATIBLE) := by
  refine congrArg Host.Outcome.next ((if_neg (by rw [hp]; decide)).trans ((if_pos ⟨hs, hb⟩).trans ?_))
  dsimp only
  rw [hg]

theorem exec_blockEnd_gathered {session block : Nat} {bs : List (BitVec 8)} (hs : s.inSession session = true)
    (hb : block < s.rd F.UPD_XFER.TOTAL) (hg : (s.image s.targetSlot).gather block = some bs) :
    exec (.blockEnd session block) s =
      .next (if block = 0 then s.endManifest session bs else s.endBody session block bs) := by
  refine congrArg Host.Outcome.next ((if_neg (by rw [hp]; decide)).trans ((if_pos ⟨hs, hb⟩).trans ?_))
  dsimp only
  rw [hg]

theorem exec_boot_verified {slot : Nat} (hm : s.mode = mRECOVERY) (hi : s.idOk = true) (hs : slot < 2)
    (hv : s.rd F.UPD_SLOT.STATE slot = slVERIFIED) : exec (.boot slot) s = .next
      ((((({ s with upd.boot.trial := some slot, ms.full := true } : State).wr F.UPD_STATE.TRIAL_BOOTS 0).chooseSlot.wr
        F.UPD_STATE.RECOV_CAUSE 0).resumeStartup).xferReply 0x06 0 0 0 stOK) :=
  congrArg Host.Outcome.next ((if_neg (by rw [hp]; decide)).trans (if_pos ⟨hm, hi, hs, hv⟩))

/-! ### The other messages of the service port -/

theorem exec_xferStatus (session : Nat) : exec (.xferStatus session) s = .next (s.xferReply 0x05 session 0 0 stOK
    (leBytes 8 (s.view .UPD_STATE 0).toNat ++ leBytes 8 (s.view .UPD_SLOT 0).toNat ++ leBytes 8 (s.view .UPD_SLOT 1).toNat)) :=
  congrArg Host.Outcome.next (if_neg (by rw [hp]; decide))

theorem exec_neighbourSolicitation_own (src : List Nat) : exec (.neighbourSolicitation src linkLocal) s = .next (s.emit
    (.svc (0x100 + 136) ((if src.all fun x => x == 0 then [0xFF, 2] ++ List.replicate 13 0 ++ [1] else src) ++
      linkLocal ++ macBytes))) := by
  refine congrArg Host.Outcome.next (if_neg ?_)
  rintro (h | h)
  · rw [hp] at h
    exact absurd h (by decide)
  · exact h rfl

theorem exec_echoRequest (src payload : List Nat) :
    exec (.echoRequest src payload) s = .next (s.emit (.svc (0x100 + 129) (src ++ payload))) :=
  congrArg Host.Outcome.next (if_pos hp)

end

/-- A body block whose CRC is the manifest's, with the manifest held, is held (R712). -/
theorem State.endBody_held {s : State} {session block : Nat} {bs : List (BitVec 8)}
    (hc : crc32c bs = leAt (s.manifest s.targetSlot) (1024 + 4 * (block - 1)) 4)
    (hm : (kfind (s.image s.targetSlot).blocks 0).isSome = true) : s.endBody session block bs =
      (s.setImage s.targetSlot ((s.image s.targetSlot).hold block bs)).xferReply 0x03 session block 0 stOK := if_pos ⟨hc, hm⟩

theorem State.endBody_discarded {s : State} {session block : Nat} {bs : List (BitVec 8)}
    (hc : crc32c bs ≠ leAt (s.manifest s.targetSlot) (1024 + 4 * (block - 1)) 4) : s.endBody session block bs =
      (s.setImage s.targetSlot ((s.image s.targetSlot).discard block)).xferReply 0x03 session block 0 stINCOMPATIBLE :=
  if_neg fun h => hc h.1

/-- The end of a slot's verification (R709). -/
theorem exec_updSlotVerified {s : State} {slot : Nat} (hs : slot < 2) (hv : s.rd F.UPD_SLOT.STATE slot = slVERIFYING) :
    exec (.updSlotVerified slot) s = .next (
      if s.manReject (s.manifest slot) = none ∧ s.partsMatch slot = true then
        (((s.wr F.UPD_SLOT.STATE slVERIFIED slot).wr F.UPD_SLOT.IMAGE_VER (leAt (s.manifest slot) 16 4) slot).wr
          F.UPD_SLOT.SEC_VER (leAt (s.manifest slot) 12 4) slot).note evSlotVerified 0 9 3
            [slot, leAt (s.manifest slot) 16 4, leAt (s.manifest slot) 12 4]
      else (s.wr F.UPD_SLOT.STATE slINVALID slot).note evSlotRejected 1 9 3
        [slot, b2n (s.manReject (s.manifest slot)).isNone]) := by
  refine congrArg Host.Outcome.next ((if_neg ?_).trans ?_)
  · rintro (h | h)
    · omega
    · exact h hv
  · dsimp only
    cases hr : s.manReject (s.manifest slot) with
    | none => simp
    | some st => simp

/-- Settles O39, clause by clause, by the lemma of each message. -/
theorem imageRows : Obligations.ImageRows := by
  unfold Obligations.ImageRows
  refine ⟨?refused, ?opened, ?resumed, ?data, ?missing, ?body, ?badBody, ?manifest, ?close, ?closeAgain, ?status, ?boot, ?idle,
    ?verified, ?solicited, ?echo⟩
  case refused => exact fun s resume blocks st hp h => exec_xferOpen_refused hp h resume blocks
  case opened => exact fun s blocks hp h => exec_xferOpen_new hp h blocks
  case resumed => exact fun s blocks hp h hr => exec_xferOpen_resumed hp h hr blocks
  case data => exact fun s session block frag data hp hs hf hd hb => exec_xferData_placed hp hs hf hd hb
  case missing => exact fun s session block hp hs hb hg => exec_blockEnd_missing hp hs hb hg
  case body =>
    intro s session block bs hp hs hb hg h0 hc hm
    rw [exec_blockEnd_gathered hp hs hb hg, if_neg h0, State.endBody_held hc hm]
  case badBody =>
    intro s session block bs hp hs hb hg h0 hc
    rw [exec_blockEnd_gathered hp hs hb hg, if_neg h0, State.endBody_discarded hc]
  case manifest =>
    intro s session bs hp hs hb hg
    refine (exec_blockEnd_gathered hp hs hb hg).trans (congrArg Host.Outcome.next ((if_pos rfl).trans ?_))
    unfold State.endManifest
    cases s.manReject bs <;> rfl
  case close => exact fun s session hp hs hm => exec_xferClose_whole hp hs hm
  case closeAgain => exact fun s session hp ho hr hs => exec_xferClose_again hp hs hr ho
  case status => exact fun s session hp => exec_xferStatus hp session
  case boot => exact fun s slot hp hm hi hs hv => exec_boot_verified hp hm hi hs hv
  case idle =>
    intro s
    exact ⟨_, rfl, State.rd_wr_lit _ _ _ _ (by decide) (by decide), rfl, rfl, rfl⟩
  case verified => exact fun s slot hs hv => exec_updSlotVerified hs hv
  case solicited => exact fun s src hp => exec_neighbourSolicitation_own hp src
  case echo => exact fun s src payload hp => exec_echoRequest hp src payload

end Sys2Proof.Machine
end

section
/-! PROOFS. Scheduled activation by a group: the host's requests, the coordinator's decisions, and what a member does. -/

namespace Sys2Proof.Machine
open Sys2Proof Safety

section
variable {s : State} {q : Req} {n : Nat}

/-! ### The host's requests -/

theorem exec_updSchedule_refused {st : Nat} (hq : s.taking 0x0701 = some q)
    (hs : s.scheduleStatus (leAt q.payload 4 8) = some st) (host : List Nat) :
    exec (.updSchedule host) s = .next (s.answer st) := by
  refine congrArg Host.Outcome.next ((State.serve_taking hq _).trans ?_)
  rw [hs]

/-- What is sent outward does not enter what a member list reads as. -/
theorem State.readMembers_emit (s : State) (o : Output) (a n : Nat) (host : List Nat) :
    (s.emit o).readMembers a n host = s.readMembers a n host := rfl

/-- What a schedule that R718 accepts does: the coordinator reads its list, a member has none. -/
theorem exec_updSchedule_accepted (hq : s.taking 0x0701 = some q) (hs : s.scheduleStatus (leAt q.payload 4 8) = none)
    (host : List Nat) {u : State}
    (hu : (if leAt q.payload 12 2 == s.node ∧ bitOf (leAt q.payload 16 8) 63 then
      s.emit (.hostRead (bitsOf (leAt q.payload 16 8) 51 0) (2 * leAt q.payload 14 2)) else s) = u) {list : List Nat}
    (hl : (if leAt q.payload 12 2 == s.node then u.readMembers (leAt q.payload 16 8) (leAt q.payload 14 2) host else .ok []) =
      .ok list) (hn : u.freeTicket = some n) :
    exec (.updSchedule host) s = .next ((accepted u 0x0701 n).joinGroup q.payload list n) := by
  refine congrArg Host.Outcome.next ((State.serve_taking hq _).trans ?_)
  rw [hs]
  dsimp only
  rw [hu, hl]
  exact State.accept_free hn _ _

theorem exec_updConfirm_onTrial (hq : s.taking 0x0702 = some q) (ht : s.onTrial = true) (hn : s.freeTicket = some n) :
    exec .updConfirm s = .next ((if s.groupOpen then ((accepted s 0x0702 n).setGroup ActGroup.confirmedBy).trialReport
      else (accepted s 0x0702 n).confirmTrial).endTicket n stOK 0xFFFF) :=
  congrArg Host.Outcome.next ((State.serve_taking hq _).trans ((if_neg (by rw [ht]; decide)).trans (State.accept_free hn _ _)))

theorem exec_updCancel_open (hq : s.taking 0x0703 = some q) (ho : s.groupOpen = true) (hn : s.freeTicket = some n) :
    exec .updCancel s = .next ((if s.groupState = gsSCHEDULED then (accepted s 0x0703 n).report gmNOT_READY stRUNNING
      else (accepted s 0x0703 n).trialFail stRUNNING).endTicket n stOK 0xFFFF) :=
  congrArg Host.Outcome.next ((State.serve_taking hq _).trans ((if_neg (by rw [ho]; decide)).trans (State.accept_free hn _ _)))

theorem State.groupOpen_of_state {k : Nat} (h : s.groupState = k) (h1 : 1 ≤ k) (h3 : k ≤ 3) : s.groupOpen = true := by
  unfold State.groupOpen
  rw [h, decide_eq_true h1, decide_eq_true h3]
  rfl

end

section
variable {s : State} {src group : Nat} {g : ActGroup}

/-! ### The coordinator -/

theorem State.coordReady_undecided (hg : s.coordOf group = some g) (hd : g.decision = 0) (hm : g.list.contains src = true)
    (ver : Nat) : s.coordReady src group ver =
      (s.setGroup fun g => g.addVer src ver).wr F.UPD_GROUP.REPORTED (g.addVer src ver).vers.length := by
  unfold State.coordReady
  rw [hg]
  exact if_pos ⟨hd, hm⟩

theorem State.coordNotReady_undecided (hg : s.coordOf group = some g) (hd : g.decision = 0)
    (hm : g.list.contains src = true) : s.coordNotReady src group = s.setGroup fun g => g.addNot src := by
  unfold State.coordNotReady
  rw [hg]
  exact if_pos ⟨hd, hm⟩

/-- The decision at `T` − 2 s (R719). -/
theorem State.coordDecide_scheduled (hg : s.coordOf s.groupId = some g) (hd : g.decision = 0)
    (hs : s.groupState = gsSCHEDULED) : s.coordDecide = s.decide_
      (if ((g.list.map fun n => kfind g.vers n).all Option.isSome &&
        decide ((g.list.map fun n => kfind g.vers n).eraseDups.length ≤ 1) && g.notReady.isEmpty) = true then gmGO
      else gmABORT) := by
  unfold State.coordDecide
  rw [hg]
  exact if_pos ⟨hd, hs⟩

theorem State.coordOk_reported (hg : s.coordOf group = some g) (hd : g.decision = gmGO) (hm : g.list.contains src = true) :
    s.coordOk src group = if ((g.addOk src).list.all fun n => (g.addOk src).oks.contains n) = true then
      ((s.setGroup fun x => x.addOk src).wr F.UPD_GROUP.REPORTED (g.addOk src).oks.length).decide_ gmALL_OK
    else (s.setGroup fun x => x.addOk src).wr F.UPD_GROUP.REPORTED (g.addOk src).oks.length := by
  unfold State.coordOk
  rw [hg]
  exact if_pos ⟨hd, hm⟩

theorem State.coordFail_reported (hg : s.coordOf group = some g) (hd : g.decision = gmGO) (hm : g.list.contains src = true)
    (st : Nat) : s.coordFail src group st = (s.setGroup fun x => x.failedAt src st).decide_ gmROLLBACK := by
  unfold State.coordFail
  rw [hg]
  exact if_pos ⟨hd, hm⟩

/-- The coordinator repeats its decision to a member that asks, for 24 hours (R722). -/
theorem exec_query_coord (hg : s.coordOf group = some g) : exec (.query src group) s = .next
    (if g.decision ≠ 0 ∧ s.opMs < g.decided + 86400000 ∧ g.list.contains src = true then s.sendGroup src g.decision 0
    else s) := by
  refine congrArg Host.Outcome.next ?_
  rw [hg]

theorem exec_trialWindowExpires_go (hg : s.coordOf s.groupId = some g) (hd : g.decision = gmGO) :
    exec .trialWindowExpires s = .next (s.decide_ gmROLLBACK) := by
  refine congrArg Host.Outcome.next ?_
  rw [hg]
  exact if_pos hd

/-! ### A member -/

theorem exec_queryResend_trial (hg : s.upd.group = some g) (ho : g.sentOk = true) (ht : s.groupState = gsTRIAL)
    (hc : s.isCoord = false) : exec .queryResend s = .next (s.sendGroup (s.rd F.UPD_GROUP.COORD) gmQUERY 0) := by
  refine congrArg Host.Outcome.next ?_
  rw [hg]
  exact if_pos ⟨ho, ht, by rw [hc]; rfl⟩

theorem State.memberGo_scheduled (h : s.groupState = gsSCHEDULED) : s.memberGo =
    ((({ s with upd.other := some s.settings, time.trigs := kset s.time.trigs 12 ⟨s.groupT, 0⟩ } : State).wreg .TIM_TRIG_TGT
      (BitVec.ofNat 64 s.groupT) 12).wr F.TIM_TRIG_CTL.ARM 1 12).wr F.UPD_STATE.GROUP_STATE gsGO := if_pos h

/-- A member that takes `GO` copies its settings and arms trigger 12 for `T` (R723, Table 16-10). -/
theorem State.memberGo_armed (h : s.groupState = gsSCHEDULED) : s.memberGo.rd F.UPD_STATE.GROUP_STATE = gsGO ∧
    s.memberGo.upd.other = some s.settings ∧ kfind s.memberGo.time.trigs 12 = some ⟨s.groupT, 0⟩ ∧
    s.memberGo.rd F.TIM_TRIG_CTL.ARM 12 = 1 ∧ s.memberGo.mem = s.mem ∧ s.memberGo.evr = s.evr := by
  rw [State.memberGo_scheduled h]
  refine ⟨State.rd_wr_lit _ _ _ _ (by decide) (by decide), rfl, kfind_kset_same .., ?_, rfl, rfl⟩
  rw [State.rd_wr_apart _ _ _ _ _ _ (by decide) (by decide), State.rd_wr_lit _ _ _ _ (by decide) (by decide)]

theorem exec_go_agreed (hf : s.fromCoord src group = true) : exec (.go src group s.groupT) s = .next s.memberGo :=
  congrArg Host.Outcome.next (if_pos ⟨hf, rfl⟩)

theorem State.onTrial_note (c v k x : Nat) (p : List Nat) : (s.tick.note c v k x p).onTrial = s.onTrial :=
  congrArg (fun v => decide (v = 1)) (s.tick.rd_note c v k x p _ _ F.UPD_STATE.ON_TRIAL 0 (by decide))

theorem State.memberRollback_onTrial (ho : s.groupOpen = true) (ht : s.onTrial = true) : s.memberRollback =
    ((s.tick.note evUpdRolledBack 1 9 3 [s.groupId, s.rollbackStatus, (s.upd.group.map ActGroup.node).getD 0]).revert).endGroup
      gsROLLED_BACK s.rollbackStatus := by
  refine (if_pos ho).trans ?_
  dsimp only
  rw [State.onTrial_note, if_pos ht]

end

/-- Settles O41: the host's requests, then the coordinator's and the member's commands, each by its lemma. -/
theorem groupRows : Obligations.GroupRows := by
  unfold Obligations.GroupRows
  refine ⟨?status, ?refused, ?member, ?hostList, ?ownList, ?confirm, ?confirmGroup, ?confirmNone, ?cancel, ?cancelTrial,
    ?cancelNone, ?ready, ?notReady, ?decision, ?go, ?abort, ?activation, ?lost, ?noGo, ?ok, ?fail, ?allOk, ?rollback, ?asked,
    ?askedLate, ?resend, ?window⟩
  case status => exact fun s q hq => congrArg Host.Outcome.next (State.serve_taking hq _)
  case refused => exact fun s q host st hq hs => exec_updSchedule_refused hq hs host
  case member =>
    intro s q host n hq hs hc hn
    have hnode : (leAt q.payload 12 2 == s.node) = false := beq_false_of_ne hc
    exact exec_updSchedule_accepted hq hs host (if_neg (by rw [hnode]; exact fun h => absurd h.1 (by decide)))
      (if_neg (by rw [hnode]; decide)) hn
  case hostList =>
    intro s q host list n hq hs hc hb hl hn
    have hnode : (leAt q.payload 12 2 == s.node) = true := beq_iff_eq.mpr hc
    refine exec_updSchedule_accepted hq hs host (if_pos ⟨hnode, hb⟩) ((if_pos hnode).trans ?_) hn
    rw [← hl]
    exact State.readMembers_emit s _ _ _ _
  case ownList =>
    intro s q host list n hq hs hc hb hl hn
    have hnode : (leAt q.payload 12 2 == s.node) = true := beq_iff_eq.mpr hc
    exact exec_updSchedule_accepted hq hs host (if_neg (by rw [hb]; exact fun h => absurd h.2 (by decide)))
      ((if_pos hnode).trans hl) hn
  case confirm =>
    intro s q n hq ht ho hn
    rw [exec_updConfirm_onTrial hq ht hn, ho]
    rfl
  case confirmGroup =>
    intro s q n hq ht ho hn
    rw [exec_updConfirm_onTrial hq ht hn, ho]
    rfl
  case confirmNone =>
    exact fun s q hq ht => congrArg Host.Outcome.next ((State.serve_taking hq _).trans (if_pos (by rw [ht]; rfl)))
  case cancel =>
    intro s q n hq hs hn
    rw [exec_updCancel_open hq (State.groupOpen_of_state hs (by decide) (by decide)) hn, if_pos hs]
  case cancelTrial =>
    intro s q n hq hs hn
    have ho : s.groupOpen = true := by
      obtain hs | hs := hs
      · exact State.groupOpen_of_state hs (by decide) (by decide)
      · exact State.groupOpen_of_state hs (by decide) (by decide)
    have hne : s.groupState ≠ gsSCHEDULED := by
      obtain hs | hs := hs
      · rw [hs]; decide
      · rw [hs]; decide
    rw [exec_updCancel_open hq ho hn, if_neg hne]
  case cancelNone =>
    exact fun s q hq ho => congrArg Host.Outcome.next ((State.serve_taking hq _).trans (if_pos (by rw [ho]; rfl)))
  case ready => exact fun s src group ver g hg hd hm => congrArg Host.Outcome.next (State.coordReady_undecided hg hd hm ver)
  case notReady => exact fun s src group st g hg hd hm => congrArg Host.Outcome.next (State.coordNotReady_undecided hg hd hm)
  case decision => exact fun s g hg hd hs => congrArg Host.Outcome.next (State.coordDecide_scheduled hg hd hs)
  case go =>
    rintro s src group v hf rfl hs
    exact ⟨_, exec_go_agreed hf, State.memberGo_armed hs⟩
  case abort => exact fun s src group hf hs => congrArg Host.Outcome.next ((if_pos hf).trans (if_pos hs))
  case activation =>
    exact fun s hs hl => congrArg Host.Outcome.next ((if_pos hs).trans (if_neg (by rw [hl]; decide)))
  case lost => exact fun s hs hl => congrArg Host.Outcome.next ((if_pos hs).trans (if_pos hl))
  case noGo => exact fun s hs => congrArg Host.Outcome.next ((if_neg (by rw [hs]; decide)).trans (if_pos hs))
  case ok => exact fun s src group g hg hd hm => congrArg Host.Outcome.next (State.coordOk_reported hg hd hm)
  case fail => exact fun s src group st g hg hd hm => congrArg Host.Outcome.next (State.coordFail_reported hg hd hm st)
  case allOk => exact fun s src group hf hs ht => congrArg Host.Outcome.next ((if_pos hf).trans (if_pos ⟨hs, ht⟩))
  case rollback =>
    exact fun s src group hf ho ht => congrArg Host.Outcome.next ((if_pos hf).trans (State.memberRollback_onTrial ho ht))
  case asked =>
    intro s src group g hg hd ht hm
    rw [exec_query_coord hg, if_pos ⟨hd, ht, hm⟩]
  case askedLate =>
    intro s src group g hg ht
    rw [exec_query_coord hg, if_neg fun h => absurd h.2.1 (by omega)]
  case resend => exact fun s g hg ho ht hc => exec_queryResend_trial hg ho ht hc
  case window => exact fun s g hg hd => exec_trialWindowExpires_go hg hd

end Sys2Proof.Machine
end
